-- ==== Sys2Proof/Word.lean ====
section
/-!
DEFINITION. The machine's bit vectors and the one shape every sparse table of the state takes.

A byte is the unit of memory and of packets, a `Word` is a 32-bit register (R6), a `DWord` a 64-bit
field of a header or of a page-table entry.  `Tbl` is a list of (key, value) pairs with rising keys.
-/

namespace Sys2Proof

/-- Eight bits: a byte of memory, of a packet or of a register block. -/
abbrev Byte := BitVec 8

/-- A 32-bit register of the register window (R6). -/
abbrev Word := BitVec 32

/-- A 64-bit field: bytes 8–15 of a header, a page-table entry, a scalar register of a rod. -/
abbrev DWord := BitVec 64

/-- A sparse table: (key, value) pairs, keys rising. What an absent key stands for is said where the
table is used. -/
abbrev Tbl (α : Type) := List (Nat × α)

/-- Register words by window offset; an absent offset holds its reset value. -/
abbrev RegMap := Tbl Word

end Sys2Proof
end

