-- ==== Sys2Proof/Syntax.lean ====
section
/-!
DEFINITION. The commands of the block: one constructor per row of spec/opcode_table.json, with the operands the row's
rules name, and the packet every fabric command carries.
-/

namespace Sys2Proof

/-- The 16-byte security prefix (Table 18.5), field by field. -/
structure Prefix where
  /-- KEY_ID, bytes 0–3. -/
  keyId : Nat
  /-- SENDER, bytes 4–5: SENDER_EP in [11:0], DIR in [12], [15:13] reserved. -/
  sender : Nat
  /-- RSV, bytes 6–7. -/
  rsv : Nat
  /-- COUNTER, bytes 8–15. -/
  counter : Nat
deriving DecidableEq, Repr

/-- One packet of the transaction layer: the header of Tables 15.1–15.4, the prefix if SEC = 1, the plaintext body and
the GCM tag. A row's own TYPE (and, for a CMD, its own opcode in body byte 0) takes the place of `typ` (and of that
byte): see `Packet.ofType` in Machine/Operands.lean. -/
structure Packet where
  /-- TYPE [7:0] (Table 0.6). -/
  typ : Nat := 0
  /-- The virtual channel the packet travels on; it decides only for a CMD (R76). -/
  vc : Nat := 1
  /-- HOPS [12:8]. -/
  hops : Nat := 0
  /-- EPOCH [13]. -/
  epoch : Nat := 0
  /-- POISON [14]. -/
  poison : Bool := false
  /-- LENGTH [31:16], in 4-byte units. -/
  length : Nat := 4
  /-- DST_EP [43:32]. -/
  dst : Nat := 0
  /-- QUAL [47:44]. -/
  qual : Nat := 0
  /-- TAG [63:48]. -/
  tag : Nat := 0
  /-- Bytes 8–15 of the header, as one little-endian number: the memory, context or completion form. -/
  form : Nat := 0
  /-- The security prefix; `none` is SEC = 0. -/
  sec : Option Prefix := none
  /-- The body, in plaintext. -/
  body : List Byte := []
  /-- The 16-byte GCM tag (R413); 0 with SEC = 0. -/
  gcm : Nat := 0
  /-- Source MAC address of the Ethernet frame that carried it (R336); 0 from a port in flit personality. Not part of the
  packet. -/
  mac : Nat := 0
deriving DecidableEq, Repr

/-- Strap and presence pins, each as it reads (R19, R20); an open pin reads 1. -/
structure Straps where
  /-- ROLE_SEL[1:0]. -/
  role : Nat := 3
  x : Nat := 15
  y : Nat := 15
  z : Nat := 15
  /-- MATE_A_N and MATE_B_N read high: not mated. -/
  mateAHigh : Bool := true
  mateBHigh : Bool := true
deriving DecidableEq, Repr

/-- Hottest sensors in °C: die, HBM3E stacks, LPDDR5X packages, power stage (R27, Table 1.18). -/
structure Temps where
  die : Int
  hbm : Int
  lpddr : Int
  stage : Int
deriving DecidableEq, Repr

/-- Measured telemetry of one PMBus page (Table 1.8), in thousandths of the unit. -/
structure Telemetry where
  vin : Int := 0
  iin : Int := 0
  vout : Int := 0
  iout : Int := 0
  temp : Int := 0
  pout : Int := 0
  pin : Int := 0
deriving DecidableEq, Repr

/-- One transfer on the SMBus or PMBus: the target address it names and whether it writes (R22–R24). -/
structure BusXfer where
  addr : Nat
  write : Bool
deriving DecidableEq, Repr

/-- The outcome of the self-tests of Table 2.3: masks of failing units. -/
structure SelfTest where
  /-- Controllers 0–11 that fail the bead-code test. -/
  beadCode : Nat := 0
  beamParity : Bool := false
  /-- Ports that fail the CRC and FEC test, and the AES-256-GCM test. -/
  link : Nat := 0
  aes : Nat := 0
  crebaKat : Bool := false
  trng : Bool := false
  /-- Directory slices, and the tracker. -/
  dir : Nat := 0
  txn : Bool := false
  xlt : Bool := false
  mover : Nat := 0
  rod : Nat := 0
deriving DecidableEq, Repr

/-- What the repair check finds of one entry of a controller's repair map (R138): good at its first check; for a row, good after a
soft repair into a spare row; or bad: no spare row left, a second check failed, or a lane not confirmed. -/
inductive RepairCheck where
  | good | soft | bad
deriving DecidableEq, Repr

/-- One attempt of a controller's boot training (R136, R138): the channel a step failed on, if one did, the checks of the repair
map's entries in order (an entry not listed is good), and the hottest DRAM temperature of steps 5 and 6, °C. -/
structure Attempt where
  failCh : Option Nat := none
  checks : List RepairCheck := []
  temp : Int := 0
deriving DecidableEq, Repr

/-- A controller's boot training (R50): its attempts, oldest first. -/
structure TrainResult where
  attempts : List Attempt := [{}]
deriving DecidableEq, Repr

/-- The fields of a rod instruction word after its opcode (R172): what the sequencer fetched at its PC. -/
structure RodWord where
  d : Nat := 0
  a : Nat := 0
  b : Nat := 0
  fa : Nat := 0
  fb : Nat := 0
  rsv : Nat := 0
  imm : Nat := 0
deriving DecidableEq, Repr

/-- The commands: one constructor per row of spec/opcode_table.json, in its order. -/
inductive Instr where
  /-- POWER_INPUT_RISE (R14). Input rises through 44.0 V, or returns to 44.0–59.5 V for 10 ms, and the power-up
    sequence of Table 1.5 starts. -/
  | powerInputRise (mv heldMs : Nat)
  /-- HOT_SWAP_PIN_CHANGE (R12). PWR_EN_N mates or breaks, and the hot-swap stage starts or stops conducting. -/
  | hotSwapPinChange (mated : Bool)
  /-- BROWN_OUT_TURN_OFF (R13). Input stays below 42.0 V for more than 100 µs and the module turns off, losing
    every setting. -/
  | brownOutTurnOff (mv ns : Nat)
  /-- OVER_VOLTAGE_TURN_OFF (R13). Input stays above 60.5 V for more than 10 µs and the module turns off. -/
  | overVoltageTurnOff (mv ns : Nat)
  /-- RAIL_OUT_OF_BAND (R15). A rail leaves its ±3 % band and PWR_GOOD is driven low. -/
  | railOutOfBand (page : Fin 8)
  /-- MODULE_RESET (R18). MOD_RESET_N has been low for 10 µs; the module resets everything except the power
    stage, takes ports down and restarts a latched-off power stage after a 10 ms pulse. -/
  | moduleReset (lowNs : Nat) (released : Bool)
  /-- STRAP_SAMPLING (R19). 1 ms after rails are good and MOD_RESET_N is high, straps and presence pins are
    sampled and the boot starts. -/
  | strapSampling (pins : Straps)
  /-- STRAP_RECHECK (R19). Every 100 ms the straps are sampled again and STRAP_CHANGED is set if one differs. -/
  | strapRecheck (pins : Straps)
  /-- POWER_SAMPLE (R26). Every 10 µs input power and voltage are sampled and the power-derived throttle counts
    and step are updated. -/
  | powerSample (mv dw : Nat)
  /-- THROTTLE_STEP_TAKES_EFFECT (R28). 1 µs after a step decision the new throttle step is in force for rods,
    movers and memory. -/
  | throttleStepTakesEffect
  /-- THERMAL_THRESHOLD_CROSS (R27). A die or memory temperature rises past a throttle threshold and the
    thermal-derived step rises. -/
  | thermalThresholdCross (t : Temps)
  /-- THERMAL_STEP_FALL (R27). The temperature has stayed 3 °C below the step's threshold for 100 ms and the
    thermal step falls by one. -/
  | thermalStepFall (t : Temps)
  /-- THERMAL_TRIP (R30). A sensor reaches its trip temperature; a trip event is posted, THERM_TRIP set and
    ALERT_N held low. -/
  | thermalTrip (t : Temps)
  /-- TRIP_TURN_OFF (R30). 100 µs after the trip the hot-swap stage turns off and latches off. -/
  | tripTurnOff
  /-- PAGE (R23). PMBus PAGE selects page 0–7. -/
  | page (x : BusXfer) (page : Nat)
  /-- CLEAR_FAULTS (R23). PMBus CLEAR_FAULTS clears the latched status bits of the selected page. -/
  | clearFaults (x : BusXfer)
  /-- STATUS_WORD (R23). PMBus STATUS_WORD returns the page's status bits. -/
  | statusWord (x : BusXfer)
  /-- READ_VIN (R23). PMBus READ_VIN returns input voltage. -/
  | readVin (x : BusXfer)
  /-- READ_IIN (R23). PMBus READ_IIN returns input current. -/
  | readIin (x : BusXfer)
  /-- READ_VOUT (R23). PMBus READ_VOUT returns the highest voltage of the rail group. -/
  | readVout (x : BusXfer)
  /-- READ_IOUT (R23). PMBus READ_IOUT returns the rail group's total current. -/
  | readIout (x : BusXfer)
  /-- READ_TEMPERATURE_1 (R23). PMBus READ_TEMPERATURE_1 returns the stage's hottest sensor. -/
  | readTemperature1 (x : BusXfer)
  /-- READ_POUT (R23). PMBus READ_POUT returns the rail group's output power. -/
  | readPout (x : BusXfer)
  /-- READ_PIN (R23). PMBus READ_PIN returns input power. -/
  | readPin (x : BusXfer)
  /-- TELEMETRY_REFRESH (R23). Every 1 ms the PMBus telemetry values are refreshed. -/
  | telemetryRefresh (pages : List (Telemetry × Nat))
  /-- SMBUS_BLOCK_READ (R24). A byte-offset read of the 256-byte SMBus identity and status block. -/
  | smbusBlockRead (addr offset len : Nat)
  /-- SMBUS_ALERT_CLEAR (R24). A write of 0x01 to SMBus offset 0xFF clears the PWR_CAUSE bits. -/
  | smbusAlertClear (addr offset value : Nat)
  /-- SMBUS_ALERT_RESPONSE (R24). A read of the Alert Response Address is answered with the module's address
    while ALERT_N is low. -/
  | smbusAlertResponse
  /-- JTAG_IDCODE (R25). IDCODE instruction selects the identification register. -/
  | jtagIdcode
  /-- JTAG_BYPASS (R25). BYPASS, or any instruction not available in the locked state, selects the bypass
    register. -/
  | jtagBypass
  /-- JTAG_SAMPLE_PRELOAD (R25). SAMPLE/PRELOAD acts on the boundary register while reset is held or when
    unlocked. -/
  | jtagSamplePreload (pins shifted : Nat)
  /-- JTAG_EXTEST (R25). EXTEST drives the lanes, tick pairs and sideband pins from the boundary register under
    reset. -/
  | jtagExtest (pins shifted : Nat)
  /-- JTAG_EXTEST_PULSE (R25). EXTEST_PULSE tests AC-coupled lanes under reset. -/
  | jtagExtestPulse (pins shifted : Nat)
  /-- JTAG_EXTEST_TRAIN (R25). EXTEST_TRAIN tests AC-coupled lanes with a pulse train under reset. -/
  | jtagExtestTrain (pins shifted : Nat)
  /-- ROM_PHASE_END (R39). The boot ROM finishes checking retained copies and verifying a firmware slot and
    passes control or enters RECOVERY. -/
  | romPhaseEnd
  /-- RECOVERY_LINK_TIMEOUT (R42). No port reaches link-up within 2 s in RECOVERY and the module enters HALTED.
    -/
  | recoveryLinkTimeout
  /-- SELFTEST_END (R44). The self-tests end and failing units are marked unhealthy. -/
  | selftestEnd (r : SelfTest)
  /-- RESTORE_END (R48). Committed settings are applied to both sets, issuer keys restored and counter floors
    taken. -/
  | restoreEnd
  /-- TRAIN_END (R50). Memory training ends; controllers that failed three attempts are marked unhealthy and
    ZERO starts with port training. -/
  | trainEnd (r : List TrainResult)
  /-- CONTROLLER_ZERO_DONE (R51). A controller finishes zero-filling its DRAM. -/
  | controllerZeroDone (c : Fin 12)
  /-- ZERO_END (R51). Every healthy controller and SRAM is zeroed and the ZERO phase ends. -/
  | zeroEnd
  /-- PHASE_LIMIT (R34). A boot phase reaches its time limit and unfinished units are marked unhealthy. In SELFTEST `r`
    names the units that have failed or not finished; in TRAIN `t` gives the attempts each controller has made. -/
  | phaseLimit (r : SelfTest) (t : List TrainResult)
  /-- TICK_LISTEN_END (R54). An active manager's listen time ends with no TICK_SYNC and it starts the tick at 0.
    -/
  | tickListenEnd
  /-- SERVICE_ENTRY (R55). ZERO has ended and TICK_LOCKED is set; the module enters SERVICE and sends its join
    announcement. -/
  | serviceEntry
  /-- JOIN_REPEAT (R55). Every 100 ms without an OK completion the join announcement is sent again. -/
  | joinRepeat
  /-- JOIN (R55). A join announcement reaches the active manager, which records the module's identity fields. -/
  | join (port : Fin 16) (p : Packet)
  /-- REF_LOSS (R64). A PLL's reference shows no edge for 1 µs; it coasts, sets REF_LOST and a tick PLL clears
    TICK_LOCKED. -/
  | refLoss (pll : Fin 7)
  /-- PLL_RELOCK (R64). After 1 ms of clean reference edges the PLL relocks and returns to nominal. -/
  | pllRelock (pll : Fin 7)
  /-- CLOCK_ENABLE_WRITE (R63). A write to a clock-enable register sets or clears each bit separately, refusing
    unhealthy or busy blocks. -/
  | clockEnableWrite (port : Fin 16) (p : Packet)
  /-- CLOCK_SOURCE_SELECT (R65). A write to CLK_SRC.SEL starts a source switch of a rod or memory domain when
    its quiet condition holds. -/
  | clockSourceSelect (port : Fin 16) (p : Packet)
  /-- MUX_SWITCH_DONE (R66). The glitch-free multiplexer finds both clocks low, changes over and clears PENDING.
    -/
  | muxSwitchDone (d : Fin 6)
  /-- MUX_WATCHDOG (R67). PENDING stays set for MUX_WDOG_US and the watchdog resets the domain onto the new
    source. -/
  | muxWatchdog (d : Fin 6)
  /-- ANNOUNCE_SEND (R69). Every SYNC_PERIOD_US the active manager sends ANNOUNCE on every up port. -/
  | announceSend
  /-- ANNOUNCE (R69). An ANNOUNCE arrives; a locked module forwards a new SEQ and sends DELAY_REQ for its first
    copy. -/
  | announce (port : Fin 16) (p : Packet)
  /-- DELAY_REQ (R69). The manager captures a DELAY_REQ and answers with DELAY_RESP. -/
  | delayReq (port : Fin 16) (p : Packet)
  /-- DELAY_RESP (R70). A module computes offset and delay and sets, steps, holds or slews its tick count. -/
  | delayResp (port : Fin 16) (p : Packet)
  /-- TICK_HOLD_RELEASE (R70). A held tick count resumes once the negative offset has been met. -/
  | tickHoldRelease
  /-- TICK_SYNC_TIMEOUT (R71). No DELAY_RESP arrives for 4 × SYNC_PERIOD_US and TICK_LOCKED clears. -/
  | tickSyncTimeout
  /-- REG_READ (R76). A register read command returns one 32-bit register. -/
  | regRead (port : Fin 16) (p : Packet)
  /-- REG_WRITE (R76). A register write command writes one register that has no behaviour of its own, including
    W1C and shadow fields. -/
  | regWrite (port : Fin 16) (p : Packet)
  /-- REG_SHADOW_SYNC (R87). Copies every active register into its shadow in every page. -/
  | regShadowSync (port : Fin 16) (p : Packet)
  /-- PIN_MAX_READ (R26). A read of PWR_PIN_AVG returns and clears the highest input-power sample. -/
  | pinMaxRead (port : Fin 16) (p : Packet)
  /-- REF_DEBT_READ (R133). A read of NMC or FMC REF_DEBT returns and clears the highest bank debt. -/
  | refDebtRead (port : Fin 16) (p : Packet)
  /-- QDEPTH_MAX_READ (R343). A read of QDEPTH_MAX returns and clears the highest egress queue depth. -/
  | qdepthMaxRead (port : Fin 16) (p : Packet)
  /-- ISSUER_KEY_INSTALL (R96). Critical command installing a wrapped issuer key into slot 1–7. -/
  | issuerKeyInstall (port : Fin 16) (p : Packet)
  /-- ISSUER_KEY_RETIRE (R96). Critical command emptying issuer slot 1–7. -/
  | issuerKeyRetire (port : Fin 16) (p : Packet)
  /-- COUNTER_FLOOR_WRITTEN (R49). The journal write of a new counter floor is verified and the accepted
    critical command acts, or completes BUS_ERROR on failure. -/
  | counterFloorWritten (ok : Bool)
  /-- SWAP (R85). Critical command arming a configuration swap at EXEC_TICK. -/
  | swap (port : Fin 16) (p : Packet)
  /-- SWAP_CANCEL (R85). SWAP with CANCEL = 1 disarms the armed swap with the matching SWAP_ID. -/
  | swapCancel (port : Fin 16) (p : Packet)
  /-- SWAP_FIRE (R84). At the armed tick the shadow and active sets of every page exchange. -/
  | swapFire
  /-- COMMIT (R89). Critical command copying the active sets and issuer records and starting the retained-state
    write. -/
  | commit (port : Fin 16) (p : Packet)
  /-- COMMIT_COMPLETE (R89). The retained copy's read-back verifies, the anti-rollback fuses are raised and the
    COMMIT completes. -/
  | commitComplete (ok : Bool)
  /-- COMMIT_TIMEOUT (R89). A COMMIT that has not verified after 10 s completes BUS_ERROR. -/
  | commitTimeout
  /-- KEY_INSTALL (R408). Critical command installing a wrapped tenant key into a key slot, ACTIVE or ARMED. -/
  | keyInstall (port : Fin 16) (p : Packet)
  /-- KEY_ACTIVATE (R408). At EXEC_TICK an ARMED key slot becomes ACTIVE. -/
  | keyActivate
  /-- KEY_RETIRE (R409). Critical command retiring a key slot. -/
  | keyRetire (port : Fin 16) (p : Packet)
  /-- KEY_RETIRE_FIRE (R409). An armed key retirement acts at its tick. -/
  | keyRetireFire
  /-- KEY_REFS_ZERO (R411). A RETIRING slot's references reach 0 and it is zeroized and EMPTY. -/
  | keyRefsZero (slot : Fin 1024)
  /-- KEY_RETIRE_DEADLINE (R411). The retire deadline passes; held requests complete KEY_RETIRED and the slot is
    zeroized and DEAD or EMPTY. -/
  | keyRetireDeadline (slot : Fin 1024)
  /-- CONTEXT_CREATE (R402). Critical command creating a context with its membership list. -/
  | contextCreate (port : Fin 16) (p : Packet)
  /-- CONTEXT_CREATE_FIRE (R402). An armed context creation makes the context ACTIVE at its tick. -/
  | contextCreateFire
  /-- CONTEXT_DESTROY (R423). Critical command starting tenant removal. -/
  | contextDestroy (port : Fin 16) (p : Packet)
  /-- CONTEXT_DESTROY_FIRE (R423). An armed context destruction acts at its tick. -/
  | contextDestroyFire
  /-- CONTEXT_DRAIN_END (R424). The quiescing context holds no inbound slot; it becomes REMOVING, slots retire
    and extents start zeroing. -/
  | contextDrainEnd (ctx : Fin 1024)
  /-- CONTEXT_DRAIN_DEADLINE (R424). DRAIN_US passes; held requests complete CONTEXT_GONE and removal continues
    at T1. -/
  | contextDrainDeadline (ctx : Fin 1024)
  /-- CONTEXT_FREE (R424). Every extent, slot and session of the removed context is free; the context becomes
    FREE and CONTEXT_FREE is posted. -/
  | contextFree (ctx : Fin 1024)
  /-- EXTENT_GRANT (R111). Critical command granting an extent, checked under Table 5.8. -/
  | extentGrant (port : Fin 16) (p : Packet)
  /-- EXTENT_GRANT_FIRE (R459). An armed grant rechecks and acts at its tick, raising the generation. -/
  | extentGrantFire
  /-- EXTENT_REVOKE (R113). Critical command starting the revoke of an extent. -/
  | extentRevoke (port : Fin 16) (p : Packet)
  /-- EXTENT_REVOKE_FIRE (R114). An armed revoke makes the extent DRAINING at its tick. -/
  | extentRevokeFire
  /-- EXTENT_DRAIN_END (R114). A draining extent's in-flight count reaches 0 and it becomes ZEROING. -/
  | extentDrainEnd (id : Fin 16384)
  /-- EXTENT_DRAIN_DEADLINE (R114). The drain deadline passes; in-flight requests complete ACCESS_REVOKED and
    REVOKE_FORCED is posted. -/
  | extentDrainDeadline (id : Fin 16384)
  /-- EXTENT_ZEROING_DONE (R114). Every bead of the extent is zeroed and directory cleared; it becomes FREE and
    EXTENT_FREE is posted. -/
  | extentZeroingDone (id : Fin 16384)
  /-- FW_UPDATE (R421). Critical command verifying the staged image and committing it as the preferred slot. -/
  | fwUpdate (port : Fin 16) (p : Packet)
  /-- RECOVERY_FW_UPDATE (R43). In RECOVERY the firmware-update command writes slot A under the factory key and
    resets the module. -/
  | recoveryFwUpdate (port : Fin 16) (p : Packet)
  /-- ROLE_CHANGE (R427). Critical command setting worker or standby role, manager and generation, with a role
    fence for an active module. -/
  | roleChange (port : Fin 16) (p : Packet)
  /-- DEBUG_UNLOCK (R422). Critical command starting the zeroization that unlocks debug. -/
  | debugUnlock (port : Fin 16) (p : Packet)
  /-- DEBUG_UNLOCK_DONE (R422). Keys are zeroized and all memory filled; DEBUG_UNLOCKED is set and the command
    completes. -/
  | debugUnlockDone
  /-- FW_CHUNK (R420). Context command staging a firmware chunk into the staging slot. -/
  | fwChunk (port : Fin 16) (p : Packet)
  /-- FW_CHUNK_WRITTEN (R420). The chunk's erase, program and read-back finish and the chunk completes. -/
  | fwChunkWritten (ok : Bool)
  /-- READ (R106). Read request of one to eight beads, given its verdict and performed. -/
  | read (port : Fin 16) (p : Packet)
  /-- READ_SHARED (R377). Coherent read for a shared copy, served by the home. -/
  | readShared (port : Fin 16) (p : Packet)
  /-- READ_OWN (R377). Coherent read for ownership, served by the home. -/
  | readOwn (port : Fin 16) (p : Packet)
  /-- READ_NOALLOC (R380). Read of a current copy without caching, bead by bead. -/
  | readNoalloc (port : Fin 16) (p : Packet)
  /-- WRITE (R147). Full-bead write request of one to eight beads. -/
  | write (port : Fin 16) (p : Packet)
  /-- WRITE_PARTIAL (R125). Byte-masked write performed as read, merge and write of the bead. -/
  | writePartial (port : Fin 16) (p : Packet)
  /-- WRITEBACK (R377). Return of a modified bead to the home. -/
  | writeback (port : Fin 16) (p : Packet)
  /-- ATOMIC_FETCH_ADD (R376). ATOMIC sub-op 0 adds to a field and returns the old value. -/
  | atomicFetchAdd (port : Fin 16) (p : Packet)
  /-- ATOMIC_SWAP (R376). ATOMIC sub-op 1 writes a new value and returns the old. -/
  | atomicSwap (port : Fin 16) (p : Packet)
  /-- ATOMIC_CAS (R376). ATOMIC sub-op 2 writes only if the field equals COMPARE. -/
  | atomicCas (port : Fin 16) (p : Packet)
  /-- EXACT_ADD (R282). ATOMIC sub-op 3 converts and adds lanes modulo their width at the home. -/
  | exactAdd (port : Fin 16) (p : Packet)
  /-- SNOOP_INV (R460). Snoop to an FP-5120, answered OK as a cache in I. -/
  | snoopInv (port : Fin 16) (p : Packet)
  /-- SNOOP_SHARE (R460). Downgrade snoop to an FP-5120, answered OK as a cache in I. -/
  | snoopShare (port : Fin 16) (p : Packet)
  /-- SNOOP_COPY (R460). Copy snoop to an FP-5120, answered OK as a cache in I. -/
  | snoopCopy (port : Fin 16) (p : Packet)
  /-- INVAL (R108). Translation invalidation dropping overlapping lookaside entries and mover run-ahead. -/
  | inval (port : Fin 16) (p : Packet)
  /-- INVAL_COMPLETE (R109). Every request that used a dropped entry has completed and the INVAL completes with
    counts. -/
  | invalComplete (n : Nat)
  /-- WALK_COMPLETE (R105). A table walk ends, filling a lookaside entry or completing its request with a
    failure status. -/
  | walkComplete (n : Nat)
  /-- CMPL (R357). A completion arrives for an outbound slot and is delivered to its unit, or discarded as late.
    -/
  | cmpl (port : Fin 16) (p : Packet)
  /-- OUTBOUND_TIMEOUT (R357). An outbound request has no completion after CMPL_TIMEOUT_US and completes
    TIMEOUT. -/
  | outboundTimeout (slot : Fin 16384)
  /-- OUTBOUND_GUARD_END (R357). A timed-out outbound slot's reuse guard of 2 × CMPL_TIMEOUT_US ends. -/
  | outboundGuardEnd (slot : Fin 16384)
  /-- E2E_RETRY (R364). A request on an Ethernet port has no completion after RETRY_US and is resent with RETRY
    = 1, or completes TIMEOUT. -/
  | e2eRetry (slot : Fin 16384)
  /-- DONE_RECORD_EXPIRE (R365). A done record's HOLD_US ends and it is dropped. -/
  | doneRecordExpire (src tag : Nat)
  /-- RING_RECORD_WRITE (R117). A queued record is written as one full bead and PRODUCER updated. -/
  | ringRecordWrite (ring : Fin 1025)
  /-- RING_POLL (R118). Every RING_POLL_NS the control bead of a full or unreachable ring is read again for a
    waiting fault record. -/
  | ringPoll (ring : Fin 1025)
  /-- WALKER_ROOT_WRITE (R120). A write to a walker-window root word, refused while ROOT_VALID holds other
    address bits. -/
  | walkerRootWrite (port : Fin 16) (p : Packet)
  /-- RING_ENABLE_WRITE (R120). A write to the ring base word; setting RING_EN restarts the ring. -/
  | ringEnableWrite (port : Fin 16) (p : Packet)
  /-- SCHEDULER_SLOT (R127). At each command slot the unit issues a forced refresh, the best ready request or an
    idle-bank refresh. -/
  | schedulerSlot (c : Fin 12) (unit : Fin 32)
  /-- AGE_PROMOTE (R130). A request waits AGE_LIMIT_NS and is promoted to SC0. -/
  | agePromote (c : Fin 12) (unit : Fin 32)
  /-- DRAM_READ_DONE (R144). Read data returns and the bead code decodes it clean, corrected or uncorrectable.
    -/
  | dramReadDone (c : Fin 12) (unit : Fin 32) (errs : List (Fin 36 × BitVec 16))
  /-- REFRESH_DUE (R133). A bank's refresh falls due and its debt rises, forcing refresh at 4. -/
  | refreshDue (c : Fin 12) (unit : Fin 32) (bank : Fin 64)
  /-- SCRUB_PERIOD_END (R148). A scrub period ends; an unfinished pass sets SCRUB_LATE and the next pass starts.
    -/
  | scrubPeriodEnd (c : Fin 12)
  /-- SR_IDLE_ENTER (R134). A controller holds no request for SR_IDLE_US and enters ENTERING. -/
  | srIdleEnter (c : Fin 12)
  /-- SR_ENTRY_DONE (R134). Every channel is in self-refresh and the controller reaches SELF_REFRESH. -/
  | srEntryDone (c : Fin 12)
  /-- SR_EXIT_DONE (R134). Channels leave self-refresh and waiting requests are served. -/
  | srExitDone (c : Fin 12)
  /-- SR_MAX_EXPIRY (R134). SELF_REFRESH has lasted SR_MAX_MS and the controller leaves for deferred work. -/
  | srMaxExpiry (c : Fin 12)
  /-- SR_FORCE_WRITE (R135). Setting or clearing SR_FORCE enters and holds, or releases, self-refresh. -/
  | srForceWrite (port : Fin 16) (p : Packet)
  /-- TRACKING_STEP (R136). Every TRAIN_PERIOD_MS, or at once after an uncorrectable far bead, a channel runs
    its tracking step. -/
  | trackingStep (c : Fin 12) (ch : Fin 16)
  /-- FULL_RETRAIN_START (R136). A DRAM temperature moves TRAIN_DELTA_C and the channel enters RETRAIN. -/
  | fullRetrainStart (c : Fin 12) (ch : Fin 16) (temp : Int)
  /-- RETRAIN_DONE (R137). A tracking step or retrain ends; a third failure puts the controller in FAILED. -/
  | retrainDone (c : Fin 12) (ok : Bool)
  /-- ECC_INJECT_ARM (R166). Arming ECC_INJECT for a bead in an MGR_STATE extent or reserved region. -/
  | eccInjectArm (port : Fin 16) (p : Packet)
  /-- BEAM_HDR_ERROR (R151). A beam header with a double-bit error is dropped and its issuer completes TIMEOUT. `unit`
    is the issuer as SOURCE of Table 5.11 names it, `src` and `tag` the request it works for. -/
  | beamHdrError (unit src tag : Nat)
  /-- PROT_FWD (R159). Partner command carrying new data or an XOR delta to position K. -/
  | protFwd (port : Fin 16) (p : Packet)
  /-- PROT_FWD_RESEND (R159). A forward that completed TIMEOUT or LINK_DOWN is resent every 10 µs. -/
  | protFwdResend (n : Nat)
  /-- MEMBER_READ (R160). Partner command reading a member's beads for reconstruction or rebuild. -/
  | memberRead (port : Fin 16) (p : Packet)
  /-- RECON_READ (R162). Reconstruction request at position K gathering the surviving members. -/
  | reconRead (port : Fin 16) (p : Packet)
  /-- RECON_TIMEOUT (R162). A member gives no answer within RECON_TIMEOUT_US and the bead is poisoned. -/
  | reconTimeout (n : Nat)
  /-- PROT_RELOAD (R157). A write of ECC_PROT_CTL.RELOAD rereads an extent's stripe descriptor. -/
  | protReload (port : Fin 16) (p : Packet)
  /-- REBUILD_BEAD (R164). A replacement fills its next bead in address order. -/
  | rebuildBead (id : Fin 16384)
  /-- NOP (R173). No operation. -/
  | nop (rod : Fin 544) (w : RodWord)
  /-- ADD (R173). Scalar add. -/
  | add (rod : Fin 544) (w : RodWord)
  /-- SUB (R173). Scalar subtract. -/
  | sub (rod : Fin 544) (w : RodWord)
  /-- AND (R173). Scalar AND. -/
  | and (rod : Fin 544) (w : RodWord)
  /-- OR (R173). Scalar OR. -/
  | or (rod : Fin 544) (w : RodWord)
  /-- XOR (R173). Scalar XOR. -/
  | xor (rod : Fin 544) (w : RodWord)
  /-- SHL (R173). Scalar shift left. -/
  | shl (rod : Fin 544) (w : RodWord)
  /-- SHR (R173). Scalar shift right. -/
  | shr (rod : Fin 544) (w : RodWord)
  /-- CMP (R173). Scalar compare. -/
  | cmp (rod : Fin 544) (w : RodWord)
  /-- LI (R173). Load an immediate into a scalar register. -/
  | li (rod : Fin 544) (w : RodWord)
  /-- MUL (R173). Scalar multiply, low half. -/
  | mul (rod : Fin 544) (w : RodWord)
  /-- LD (R173). Load 8 bytes from scratch. -/
  | ld (rod : Fin 544) (w : RodWord)
  /-- ST (R173). Store 8 bytes to scratch. -/
  | st (rod : Fin 544) (w : RodWord)
  /-- BR (R173). Branch if a scalar register is nonzero. -/
  | br (rod : Fin 544) (w : RodWord)
  /-- LOOP (R173). Repeat the next instructions a counted number of times. -/
  | loop (rod : Fin 544) (w : RodWord)
  /-- STEPCTR (R288). Read the step counter into a scalar register. -/
  | stepctr (rod : Fin 544) (w : RodWord)
  /-- ACC_CLEAR (R179). Clear selected long accumulators and flags, and D0–D7 if asked. -/
  | accClear (rod : Fin 544) (w : RodWord)
  /-- MMV (R176). Perform N matrix steps depositing exact products into the accumulators. -/
  | mmv (rod : Fin 544) (w : RodWord)
  /-- ACC_DRAIN (R180). Snapshot the accumulators and round each column once into a vector register. -/
  | accDrain (rod : Fin 544) (w : RodWord)
  /-- ACC_SPILL (R181). Write 16 accumulator records to scratch. -/
  | accSpill (rod : Fin 544) (w : RodWord)
  /-- ACC_ADDREC (R181). Add 16 accumulator records exactly into the accumulators. -/
  | accAddrec (rod : Fin 544) (w : RodWord)
  /-- VLD (R173). Load 128 bytes of scratch into a vector register. -/
  | vld (rod : Fin 544) (w : RodWord)
  /-- VST (R173). Store a vector register to scratch. -/
  | vst (rod : Fin 544) (w : RodWord)
  /-- VLDF (R173). Load 128 bytes from the frame-buffer partition. -/
  | vldf (rod : Fin 544) (w : RodWord)
  /-- VSTF (R173). Store 128 bytes to the frame-buffer partition. -/
  | vstf (rod : Fin 544) (w : RodWord)
  /-- VADD (R221). Per-lane addition, rounded once. -/
  | vadd (rod : Fin 544) (w : RodWord)
  /-- VMUL (R221). Per-lane multiplication, rounded once. -/
  | vmul (rod : Fin 544) (w : RodWord)
  /-- VMAX (R222). Per-lane maximum. -/
  | vmax (rod : Fin 544) (w : RodWord)
  /-- VMIN (R222). Per-lane minimum. -/
  | vmin (rod : Fin 544) (w : RodWord)
  /-- VCMP (R224). Per-lane comparison by predicate. -/
  | vcmp (rod : Fin 544) (w : RodWord)
  /-- VSEL (R173). Per-lane select. -/
  | vsel (rod : Fin 544) (w : RodWord)
  /-- VFMA (R221). Per-lane fused multiply-add. -/
  | vfma (rod : Fin 544) (w : RodWord)
  /-- VCVT (R209). Convert a part of a vector between formats. -/
  | vcvt (rod : Fin 544) (w : RodWord)
  /-- VEXP (R226). Fixed exponential algorithm per element. -/
  | vexp (rod : Fin 544) (w : RodWord)
  /-- VRCP (R227). Fixed reciprocal algorithm per element. -/
  | vrcp (rod : Fin 544) (w : RodWord)
  /-- VRED (R223). Reduce lanes by sum or maximum in a fixed tree. -/
  | vred (rod : Fin 544) (w : RodWord)
  /-- VSHUF (R173). Lane permutation. -/
  | vshuf (rod : Fin 544) (w : RodWord)
  /-- SRECV (R235). Receive the next stream element, waiting if the ring is empty. -/
  | srecv (rod : Fin 544) (w : RodWord)
  /-- SSEND (R235). Send a vector as a stream element, waiting if the ring is full. -/
  | ssend (rod : Fin 544) (w : RodWord)
  /-- STREAM_WAIT_RESUME (R235). A waiting SRECV or SSEND finds an element or room and proceeds. -/
  | streamWaitResume (rod : Fin 544)
  /-- TILE_END (R288). Marks a tile boundary, advancing the step counter and allowing a switch or stand-in. -/
  | tileEnd (rod : Fin 544) (w : RodWord)
  /-- FENCE (R173). Wait until every unit is idle. -/
  | fence (rod : Fin 544) (w : RodWord)
  /-- HALT (R173). End the rod's work for the current call. -/
  | halt (rod : Fin 544) (w : RodWord)
  /-- CHECK_MISMATCH (R298). A sampled comparison differs; R and S stop, R rolls back and a third rod is chosen.
    -/
  | checkMismatch (f : Fin 32) (sigR sigS : Nat)
  /-- VOTE_DONE (R299). The third rod's run ends and signatures decide the loser, quarantine or poison. -/
  | voteDone (f : Fin 32)
  /-- SPARE_STAND_IN_REQUEST (R187). A write of FRM_SPARE_CTL.GO requests a stand-in for a logical rod. -/
  | spareStandInRequest (port : Fin 16) (p : Packet)
  /-- SLICE_BOUNDARY (R188). The current schedule entry changes and a slice switch starts. -/
  | sliceBoundary (f : Fin 32)
  /-- TILE_OVERRUN (R190). A rod does not reach TILE_END within GRACE_US and its context is terminated. -/
  | tileOverrun (rod : Fin 544)
  /-- ROD_SAVE_DONE (R191). A rod's save record is written and scratch zeroing starts. -/
  | rodSaveDone (rod : Fin 544)
  /-- ROD_ZERO_DONE (R191). A rod's scratch is zeroed and the incoming restore starts. -/
  | rodZeroDone (rod : Fin 544)
  /-- ROD_RESTORE_DONE (R191). The incoming record is restored, or refused SAVE_FAIL, and the rod resumes. -/
  | rodRestoreDone (rod : Fin 544)
  /-- FB_ZERO_DONE (R185). Frame-buffer units under zeroing finish and waiting accesses proceed. -/
  | fbZeroDone (f : Fin 32)
  /-- JOB_LOAD (R242). Context command asking the loader to check and reserve a job image. -/
  | jobLoad (port : Fin 16) (p : Packet)
  /-- JOB_PLACE (R244). The target checks sections and builds the initial save records. -/
  | jobPlace (port : Fin 16) (p : Packet)
  /-- JOB_PLACE_COMPLETE (R242). The loader receives the placement result and completes JOB_LOAD or releases the
    reservation. -/
  | jobPlaceComplete (port : Fin 16) (p : Packet)
  /-- JOB_UNLOAD (R250). Context command unloading a job whose functions are disabled. -/
  | jobUnload (port : Fin 16) (p : Packet)
  /-- JOB_REMOVE (R250). The target stops the job's rods and releases its records, triggers, IDs and rings. -/
  | jobRemove (port : Fin 16) (p : Packet)
  /-- JOB_STEP (R289). Sets a job's seed, starting step counter and stop tile before launch. -/
  | jobStep (port : Fin 16) (p : Packet)
  /-- JOB_LAUNCH (R245). At the launch tick the job's rods restore their initial records and its functions
    become ENABLED. -/
  | jobLaunch (job : Nat)
  /-- FN_DISABLE (R248). Context command disabling a function in DRAIN or ABORT mode. -/
  | fnDisable (port : Fin 16) (p : Packet)
  /-- FN_ENABLE (R249). Context command re-enabling a DISABLED function. -/
  | fnEnable (port : Fin 16) (p : Packet)
  /-- FN_STATUS (R249). Context command returning a function's state and ledger. -/
  | fnStatus (port : Fin 16) (p : Packet)
  /-- INVOKE (R246). Call of a loaded function, given its verdict. -/
  | invoke (port : Fin 16) (p : Packet)
  /-- CALL_ENTER (R247). The entry stream has room and a waiting call's arguments are written into it. -/
  | callEnter (fn : Fin 1024)
  /-- REPLY_GROUP_READY (R247). A reply group appears on the reply stream and completes the paired call. -/
  | replyGroupReady (fn : Fin 1024)
  /-- MOV_RESUME (R260). Context command rereading a parked transfer's record and continuing it. -/
  | movResume (port : Fin 16) (p : Packet)
  /-- MOV_CANCEL (R260). Context command ending a parked transfer as CANCELLED. -/
  | movCancel (port : Fin 16) (p : Packet)
  /-- TRIGGER_READ (R253). A mover reads a trigger when its stage holds a free entry and starts the transfer. -/
  | triggerRead (m : Fin 64)
  /-- PIECE_DELIVER (R254). The next piece reaches its destination; after the last, the done element is sent. -/
  | pieceDeliver (m : Fin 64)
  /-- MOVER_PREEMPT (R255). A context turn's quantum is delivered and the transfer is saved PREEMPTED. -/
  | moverPreempt (m : Fin 64)
  /-- KV_SETUP (R262). Sets a context's KV profile after walking its pools. -/
  | kvSetup (port : Fin 16) (p : Packet)
  /-- SESSION_OPEN (R266). Opens a session and writes its block table EMPTY. -/
  | sessionOpen (port : Fin 16) (p : Packet)
  /-- SESSION_FORK (R268). Opens a child session sharing a prefix of its source. -/
  | sessionFork (port : Fin 16) (p : Packet)
  /-- SESSION_EXTEND (R266). Allocates near slots up to a new capacity. -/
  | sessionExtend (port : Fin 16) (p : Packet)
  /-- SESSION_COMMIT (R266). Raises VALID_POS. -/
  | sessionCommit (port : Fin 16) (p : Packet)
  /-- SESSION_CLOSE (R265). Moves an OPEN session to CLOSING. -/
  | sessionClose (port : Fin 16) (p : Packet)
  /-- SESSION_RENEW (R266). Sets a new EXPIRE_TICK. -/
  | sessionRenew (port : Fin 16) (p : Packet)
  /-- KV_STATUS (R266). Returns a session's state and counts. -/
  | kvStatus (port : Fin 16) (p : Packet)
  /-- SESSION_EXPIRE (R269). EXPIRE_TICK passes; the session becomes CLOSING and SESSION_EXPIRED is posted. -/
  | sessionExpire (session : Fin 16384)
  /-- SESSION_FREE (R265). A CLOSING session has no calls, children or moves and becomes FREE. -/
  | sessionFree (session : Fin 16384)
  /-- KV_MOVE_START (R270). Occupancy or an ATTEND makes the move engine start a demotion or promotion. -/
  | kvMoveStart (session : Fin 16384) (block : Nat) (promote : Bool)
  /-- KV_MOVE_DONE (R272). A move writes the new slot and entry, or ends without the entry. -/
  | kvMoveDone (n : Nat)
  /-- KV_OLD_SLOT_RELEASE (R272). Every call accepted before the entry write has completed and the old slot is
    freed. -/
  | kvOldSlotRelease (n : Nat)
  /-- ATTEND (R275). Attention call given its verdict against the session and profile. -/
  | attend (port : Fin 16) (p : Packet)
  /-- ATTEND_BLOCKS_RESOLVED (R276). The call's block entries are read and resolved and the call waits to enter.
    -/
  | attendBlocksResolved (n : Nat)
  /-- FLIT_SLOT (R392). Each 2.56 ns flit slot the port sends one flit chosen by window, strict rank or round
    robin. -/
  | flitSlot (port : Fin 16)
  /-- DATA_FLIT_RECEIVE (R314). A good DATA flit is accepted in sequence or discarded as ahead or behind. -/
  | dataFlitReceive (port : Fin 16) (corr : Nat) (flit : List Byte)
  /-- IDLE_FLIT_RECEIVE (R306). An IDLE flit delivers the partner's ACK, RR and XOFF. -/
  | idleFlitReceive (port : Fin 16) (corr : Nat) (flit : List Byte)
  /-- INIT_FLIT_RECEIVE (R321). A CTRL INIT flit counts toward the 8 good INIT flits and READY. -/
  | initFlitReceive (port : Fin 16) (corr : Nat) (flit : List Byte)
  /-- DOWN_FLIT_RECEIVE (R325). A good CTRL DOWN flit takes the link DOWN at once. -/
  | downFlitReceive (port : Fin 16) (corr : Nat) (flit : List Byte)
  /-- WAIT_TIMEOUT (R315). A receiver still in WAIT after REPLAY_TIMEOUT_NS raises RR again. -/
  | waitTimeout (port : Fin 16)
  /-- REPLAY_TIMEOUT (R316). The oldest held flit waits REPLAY_TIMEOUT_NS without a freeing ACK and a replay
    starts. -/
  | replayTimeout (port : Fin 16)
  /-- LINK_TRAINING_DONE (R320). Negotiation, training, alignment and FEC lock finish; the port goes to INIT or
    UP. -/
  | linkTrainingDone (port : Fin 16)
  /-- TRAINING_TIMEOUT (R320). Training is not done within 500 ms and restarts. -/
  | trainingTimeout (port : Fin 16)
  /-- INIT_TIMEOUT (R320). INIT does not complete within 1 ms and the link goes DOWN. -/
  | initTimeout (port : Fin 16)
  /-- LOCK_LOSS (R322). Symbol lock is lost for LOCKLOSS_US and the link goes DOWN. -/
  | lockLoss (port : Fin 16) (lanes lostNs : Nat)
  /-- LOCK_BLIP (R322). Symbol lock returns before LOCKLOSS_US and LNK_LOCK_BLIPS rises. -/
  | lockBlip (port : Fin 16) (lanes lostNs : Nat)
  /-- DOWN_HOLD_EXPIRY (R320). DOWN_HOLD_US passes and the port retrains or is DISABLED. -/
  | downHoldExpiry (port : Fin 16)
  /-- LINK_RETRAIN (R320). A write of LNK_CTRL.RETRAIN sends a DOWN notice and takes the link DOWN. -/
  | linkRetrain (port : Fin 16) (p : Packet)
  /-- LINK_HOLD_DOWN (R320). A write of LNK_CTRL.HOLD_DOWN holds the link DOWN or releases it. -/
  | linkHoldDown (port : Fin 16) (p : Packet)
  /-- ETH_FRAME_RECEIVE (R328). An Ethernet frame is checked, dropped or reassembled into packets. -/
  | ethFrameReceive (port : Fin 16) (corr uncorr : Nat) (frame : List Byte) (fcsOk : Bool)
  /-- PFC_FRAME_RECEIVE (R329). A received PFC frame pauses or releases the VCs of its priorities. -/
  | pfcFrameReceive (port : Fin 16) (quanta : List (Fin 8 × BitVec 16))
  /-- PFC_REFRESH (R329). Every 20 µs a PFC frame for an off priority is sent again. -/
  | pfcRefresh (port : Fin 16)
  /-- TRANSIT_PACKET (R332). A packet not for this module is routed by its epoch's tables or discarded. -/
  | transitPacket (port : Fin 16) (p : Packet)
  /-- ROUTING_TABLE_WRITE (R337). A write to the routing-table window, refused on the injection version or until
    OLD_WRITABLE. -/
  | routingTableWrite (port : Fin 16) (p : Packet)
  /-- OLD_WRITABLE_SET (R337). EPOCH_GUARD_US has passed and old-version occupancy is 0; OLD_WRITABLE is set. -/
  | oldWritableSet
  /-- FLIP_ARM (R338). A write of RTR_FLIP_CTL.ARM arms an epoch flip at FLIP_TICK. -/
  | flipArm (port : Fin 16) (p : Packet)
  /-- FLIP_CANCEL (R338). A write of RTR_FLIP_CTL.CANCEL disarms the flip. -/
  | flipCancel (port : Fin 16) (p : Packet)
  /-- EPOCH_FLIP (R338). At the flip tick INJECT toggles. -/
  | epochFlip
  /-- BOARD_WINDOW_WRITE (R347). A write to a counting-board window, refused on the active bank or while armed.
    -/
  | boardWindowWrite (port : Fin 16) (p : Packet)
  /-- BOARD_ARM (R347). A write of RTR_BOARD_CTL.ARM checks the inactive banks and arms a switch. -/
  | boardArm (port : Fin 16) (p : Packet)
  /-- BOARD_CANCEL (R347). A write of RTR_BOARD_CTL.CANCEL disarms the bank switch. -/
  | boardCancel (port : Fin 16) (p : Packet)
  /-- BOARD_SWITCH (R347). At the switch tick the other counting-board bank becomes active. -/
  | boardSwitch
  /-- THROTTLE_RELEASE (R343). An egress queue falls to LO_KIB and held local requests are released. -/
  | throttleRelease (port : Fin 16) (vc : Fin 6)
  /-- HOST_SHAPER_RELEASE (R397). A host shaper holds tokens again and a waiting completion leaves. -/
  | hostShaperRelease (host : Fin 512)
  /-- METER_COMMIT (R396). A write of QOS_MTR_KEY commits a meter record and resets its buckets. -/
  | meterCommit (port : Fin 16) (p : Packet)
  /-- HOST_RECORD_COMMIT (R396). A write of QOS_HOST_KEY commits a host record. -/
  | hostRecordCommit (port : Fin 16) (p : Packet)
  /-- QUEUE_SHAPER_COMMIT (R396). A write of QOS_QSH_CTL commits a queue shaper. -/
  | queueShaperCommit (port : Fin 16) (p : Packet)
  /-- BALANCE_CHECK (R367). Context command auditing every ledger page by page. -/
  | balanceCheck (port : Fin 16) (p : Packet)
  /-- SNOOP_RETRY (R378). A snoop that completed with a retryable status is resent every SNOOP_RETRY_US. -/
  | snoopRetry (s : Fin 8) (bead : Nat)
  /-- EP_STATE (R430). Declares an endpoint dead or alive on this module. -/
  | epState (port : Fin 16) (p : Packet)
  /-- DEAD_WALK_DONE (R383). The last owner-log walk ends and DEAD_WALK_DONE is posted. -/
  | deadWalkDone (s : Fin 8)
  /-- ATTEST (R404). Queues a request for a signed Creba report. -/
  | attest (port : Fin 16) (p : Packet)
  /-- ATTEST_COMPLETE (R404). The Creba core signs the report, setting a transport key when allowed. -/
  | attestComplete
  /-- ATTEST_CERT (R403). Returns the device public key and its vendor signature. -/
  | attestCert (port : Fin 16) (p : Packet)
  /-- MGR_KEY_EXPIRE (R419). A replaced manager key is zeroized after 2 × CMPL_TIMEOUT_US. -/
  | mgrKeyExpire
  /-- TAKEOVER (R437). No ANNOUNCE for HB_MISS_US; the standby becomes active, reads the journal and sends
    ROLE_CHANGE. -/
  | takeover
  /-- ROLE_CHANGE_RESEND (R437). An uncompleted takeover ROLE_CHANGE is resent every SYNC_PERIOD_US. -/
  | roleChangeResend
  /-- TAKEBACK_REQUEST (R440). A current home standby sends TAKEBACK with tick T_B to its manager. -/
  | takebackRequest
  /-- TAKEBACK (R440). The manager arms the takeback at T_B or refuses it. -/
  | takeback (port : Fin 16) (p : Packet)
  /-- TAKEBACK_RESEND (R440). A refused TAKEBACK is sent again after SYNC_PERIOD_US. -/
  | takebackResend
  /-- TAKEBACK_FIRE (R440). At T_B the manager becomes standby and the home module takes control. -/
  | takebackFire
  /-- WORKER_SILENT (R432). No DELAY_REQ from a worker for WORKER_MISS_MS; WORKER_SILENT is posted and it may be
    declared dead. -/
  | workerSilent (ep : Nat)
  /-- TALLY_READ (R451). Context command returning live counts of counters bound to the context. -/
  | tallyRead (port : Fin 16) (p : Packet)
  /-- TALLY_SNAPSHOT (R445). A write of SNAP copies every counter of the page and OVF. -/
  | tallySnapshot (port : Fin 16) (p : Packet)
  /-- TALLY_SELECT_WRITE (R447). A write to a counter's selection changes its event, resetting it on a scope
    change. -/
  | tallySelectWrite (port : Fin 16) (p : Packet)
  /-- BW_WINDOW_END (R453). At a window end the port byte counts are latched and TLY_BW_SEQ rises. -/
  | bwWindowEnd
  /-- RAILS_GOOD (R15). At the end of the power-up sequence every rail is within ±3 % and the power stage
    asserts rails-good and drives PWR_GOOD high, after which the SMBus and PMBus respond. -/
  | railsGood
  /-- BAD_FLIT_RECEIVE (R305). A flit that fails its CRC, touches an uncorrectable FEC codeword, or carries a
    bad FTYPE or VC is dropped whole and LNK_CRC_ERR rises. -/
  | badFlitReceive (port : Fin 16) (corr uncorr : Nat)
  /-- PFC_PAUSE_EXPIRY (R329). The quanta of a received PFC frame run out and the VCs mapped to its priorities
    may send again. -/
  | pfcPauseExpiry (port : Fin 16)
  /-- RECOVERY_SLOT_WRITE_DONE (R43). In RECOVERY the write of slot A and its read-back verify complete, the
    firmware-update command completes OK and the module resets with CAUSE 0x2. -/
  | recoverySlotWriteDone (ok : Bool)
  /-- BALANCE_WAIT_EXPIRY (R367). A page has not read IDLE within WAIT_US, so BALANCE_CHECK skips it as not idle
    and moves to the next page. -/
  | balanceWaitExpiry
  /-- BALANCE_PAGE_AUDIT_DONE (R367). The recount of a held page ends, the block is released and the audit goes
    to the next page or completes with its data. -/
  | balancePageAuditDone
deriving DecidableEq, Repr

end Sys2Proof
end

