-- ==== Sys2Proof/Decode.lean ====
section
/-!
DEFINITION. Commands spelled by a word. spec/opcode_table.json gives no row a bit field: the block is commanded by rows,
not by words.
-/

namespace Sys2Proof

/-- The command that a word of the table's bits spells: no row of the table has bits, so no word spells one. -/
def decodeTableWord (nbits w : Nat) : Option Instr :=
  match nbits, w with
  | _, _ => none

end Sys2Proof
end

