-- ==== Sys2Proof/Config.lean ====
section
/-!
DEFINITION. What one implementation fixes and the spec leaves open: device fuses, the cryptographic functions (left
uninterpreted) and the free values.  None has a body, so no proof can depend on a value of it.
-/

namespace Sys2Proof.Config

/-- The free values (assumption 14): value number `n` of a run.  A step that meets a value the spec leaves open reads
`free s.freeCtr` and advances `freeCtr`. -/
opaque free : Nat → Nat

/-- CHIP_SERIAL, fused (R82). -/
opaque serial : BitVec 64
/-- CHIP_IDREV.REV, fused (R82). -/
opaque rev : BitVec 4
/-- CHIP_IDREV.STEP, fused (R82). -/
opaque stepping : BitVec 4
/-- The 256-bit factory issuer key of issuer slot 0, fused (R96). -/
opaque factoryIssuerKey : Nat
/-- The retained-state key, derived inside the Creba core from a fused device secret (R46). -/
opaque retainedKey : Nat
/-- The four vendor key hashes in fuses (R39, check 2). -/
opaque vendorKeyHash : Nat → Nat
/-- Whether the revocation fuse of key hash `i` is intact (R39, check 2). -/
opaque keyNotRevoked : Nat → Bool
/-- The anti-rollback fuse count at manufacture (R40); assumption 6. -/
opaque fuseSvnAtReset : Nat

/-- A controller's repair fuse map, written at manufacture (R138): for each entry whether it names a lane, then unit, bank and row,
or channel, lane and 0. -/
opaque repairMap : (ctl : Nat) → List (Bool × Nat × Nat × Nat)
/-- KMAC256(K, X, L bits, S) of NIST SP 800-185 (R91, R406, R419): an uninterpreted function. -/
opaque kmac256 : (key : Nat) → (x : List Byte) → (bits : Nat) → (custom : String) → Nat
/-- SHAKE256 of `x`, `bits` bits of output, little-endian as one number (R39, R96, R405). -/
opaque shake256 : (bits : Nat) → (x : List Byte) → Nat
/-- The AES-256-GCM tag of R413: key, IV field F, counter, associated data, plaintext. -/
opaque gcmTag : (key f counter : Nat) → (aad body : List Byte) → Nat
/-- AES-256-GCM unwrapping of a 48-byte wrapped key (R407): key, WRAP_CTR, associated data, the 48 bytes; `none` when
the tag fails. -/
opaque unwrapKey : (tk ctr : Nat) → (aad wrapped : List Byte) → Option Nat
/-- Wrapping of a 32-byte issuer key under the retained-state key, 48 bytes (R463). -/
opaque wrapRetained : (key : Nat) → List Byte
/-- The inverse of `wrapRetained`, used at RESTORE (R97); `none` when its tag fails. -/
opaque unwrapRetained : List Byte → Option Nat
/-- Falcon-1024 verification of a firmware image's signature over header and image (R39, check 3). -/
opaque falconOk : List Byte → Bool
/-- Length an image's header carries (R39, check 1). -/
opaque imageLength : List Byte → Nat
/-- SHAKE256-256 digest of the public key embedded in an image (R39, check 2). -/
opaque imageKeyHash : List Byte → Nat
/-- Security version an image carries (R39, check 4). -/
opaque imageSvn : List Byte → Nat
/-- Input checks of FIPS 203 on an ML-KEM-1024 encapsulation key (R404). -/
opaque ekValid : List Byte → Bool
/-- ML-KEM-1024 encapsulation to `ek` with random value `r`: ciphertext and 32-byte shared secret (R404, R406). -/
opaque encaps : (ek : List Byte) → (r : Nat) → List Byte × Nat
/-- Falcon-1024 signature, padded form, by the device key over a digest (R404). -/
opaque deviceSign : Nat → List Byte
/-- The device public key and its vendor signature and key identifier, 3,081 bytes (R403). -/
opaque attestCert : List Byte
/-- The exponent a LINEAR11 word is given for a value in thousandths, where a smaller one would also do (R23, Table 1.8;
assumption 142). -/
opaque linear11Exp : Int → Int
/-- Whether a value between two words is given as the upper one (R23; assumption 142). -/
opaque linearUp : Int → Bool
/-- The issuer key with identifier `ident` that the manager firmware holds for the module of this serial number (R419): how
it came by it is outside the spec. -/
opaque moduleKey : (serial ident : Nat) → Nat

/-! ### Rod instructions: encodings and results Table 8.3 leaves open -/

/-- Whether a scalar instruction whose B and IMM are both 0 takes the immediate 0 (or S0) as its second operand. -/
opaque zeroIsImmediate : Bool
/-- Whether IMM is sign-extended to 64 bits. -/
opaque immSigned : Bool
/-- Whether SHR shifts in the sign. -/
opaque shrArithmetic : Bool
/-- The result of a shift by 64 or more: right or left, value, amount. -/
opaque shiftBeyond : (right : Bool) → (a n : Nat) → Nat
/-- The result of CMP of two values. -/
opaque cmp : (a b : Nat) → Nat
/-- VSEL: from the lanes of V[D], V[A] and V[B], whether the result is V[A]'s lane, and whether V[D] is read. -/
opaque selectsA : (d a b : Nat) → Bool
opaque selectReadsD : Bool
/-- VSHUF: the source lane of a lane, from FA, FB, B, IMM and V[B]; and whether V[B] is read. -/
opaque shuffleSource : (fa fb b imm vb lane : Nat) → Nat
opaque shuffleReadsB : Bool
/-- The loop-state word of a save record (Table 8.7) for a loop in progress, and what a nonzero word stands for: first
instruction, length and runs left. -/
opaque packLoop : Nat × Nat × Nat → Nat
opaque unpackLoop : Nat → Option (Nat × Nat × Nat)
/-- What the manager firmware reads in a journal, whose record bodies are its own (R433): the modules of the roster, each as
endpoint, serial number, BOOT_NONCE and the identifier of its issuer slot 1 (0: not VALID), and the endpoints that are no modules. -/
opaque journalRoster : Nat → List (Nat × Nat × Nat × Nat)
opaque journalOthers : Nat → List Nat
/-- What the loader's reading number `reading` of another module gives for an item: registers, contexts, keys and rods of that module
(R242; assumption 161). -/
opaque known : (reading item : Nat) → Nat
/-- The requests this module may have outstanding at another endpoint (R363): the limit set there, which no rule says how it
learns. -/
opaque quotaAt : (ep : Nat) → Nat

end Sys2Proof.Config
end

