-- ==== Sys2Proof/Machine/Bits.lean ====
section
/-!
DEFINITION. Bit fields, little-endian byte strings and sparse tables: the helpers every other file of the machine uses.
-/

namespace Sys2Proof.Machine

/-- Bits [hi:lo] of a number (the manual's range notation, spec/00_scope.md Notation). -/
def bits (w hi lo : Nat) : Nat := (w / 2 ^ lo) % 2 ^ (hi + 1 - lo)

/-- Bit `i` of a number. -/
def bit (w i : Nat) : Bool := (w / 2 ^ i) % 2 == 1

/-- One bit as a number. -/
def b2n (b : Bool) : Nat := if b then 1 else 0

/-- A number with bits [hi:lo] replaced by the low bits of `v`. -/
def setBits (w hi lo v : Nat) : Nat :=
  w - bits w hi lo * 2 ^ lo + (v % 2 ^ (hi + 1 - lo)) * 2 ^ lo

/-- A number with bit `i` set or cleared. -/
def setBit (w i : Nat) (b : Bool) : Nat := setBits w i i (b2n b)

/-- Bits [hi:lo] of a register word. -/
def wbits (w : Word) (hi lo : Nat) : Nat := bits w.toNat hi lo

/-- Bit `i` of a register word. -/
def wbit (w : Word) (i : Nat) : Bool := bit w.toNat i

/-- A register word with bits [hi:lo] replaced. -/
def wset (w : Word) (hi lo v : Nat) : Word := BitVec.ofNat 32 (setBits w.toNat hi lo v)

/-- A byte from a number, modulo 256. -/
def byte (n : Nat) : Byte := BitVec.ofNat 8 n

/-- The number a little-endian byte string holds (R5). -/
def leNat : List Byte → Nat
  | [] => 0
  | b :: t => b.toNat + 256 * leNat t

/-- `n` bytes of a number, little-endian (R5). -/
def leBytes : (n : Nat) → (v : Nat) → List Byte
  | 0, _ => []
  | n + 1, v => byte v :: leBytes n (v / 256)

/-- The bytes of an ASCII string. -/
def ascii (s : String) : List Byte := s.toList.map fun c => byte c.toNat

/-- Bytes `off` to `off + n - 1` of a byte string as a little-endian number; missing bytes count 0. -/
def field (b : List Byte) (off n : Nat) : Nat := leNat ((b.drop off).take n)

/-- Whether bytes `off` to `off + n - 1` of a byte string are all 0. -/
def zeros (b : List Byte) (off n : Nat) : Bool := ((b.drop off).take n).all (· == 0)

/-- `n` zero bytes. -/
def zeroBytes (n : Nat) : List Byte := List.replicate n 0

/-- A byte string with `new` laid over it from offset `off`; what reaches past the end is dropped. -/
def overlay : (b : List Byte) → (off : Nat) → (new : List Byte) → List Byte
  | [], _, _ => []
  | b, 0, new => (new ++ b.drop new.length).take b.length
  | h :: t, off + 1, new => h :: overlay t off new

/-- The value a table holds under a key. -/
def tblGet? {α : Type} : Tbl α → Nat → Option α
  | [], _ => none
  | (k', v) :: t, k => if k = k' then some v else tblGet? t k

/-- The value a table holds under a key, or what an absent key stands for. -/
def tblGet {α : Type} (t : Tbl α) (k : Nat) (dflt : α) : α := (tblGet? t k).getD dflt

/-- A table with a value put under a key, keys kept rising. -/
def tblPut {α : Type} : Tbl α → Nat → α → Tbl α
  | [], k, v => [(k, v)]
  | (k', v') :: t, k, v =>
    if k < k' then (k, v) :: (k', v') :: t
    else if k = k' then (k, v) :: t
    else (k', v') :: tblPut t k v

/-- A table without a key. -/
def tblDel {α : Type} : Tbl α → Nat → Tbl α
  | [], _ => []
  | (k', v') :: t, k => if k = k' then tblDel t k else (k', v') :: tblDel t k

/-- Every value of a table changed by `f`. -/
def tblMap {α : Type} (t : Tbl α) (f : Nat → α → α) : Tbl α := t.map fun kv => (kv.1, f kv.1 kv.2)

/-- The pairs of a table that satisfy `p`. -/
def tblFilter {α : Type} (t : Tbl α) (p : Nat → α → Bool) : Tbl α := t.filter fun kv => p kv.1 kv.2

/-- Whether some pair of a table satisfies `p`. -/
def tblAny {α : Type} (t : Tbl α) (p : Nat → α → Bool) : Bool := t.any fun kv => p kv.1 kv.2

/-- How many pairs of a table satisfy `p`. -/
def tblCount {α : Type} (t : Tbl α) (p : Nat → α → Bool) : Nat := (tblFilter t p).length

/-- The least key from `k` on, of `fuel` many, that a table does not hold. -/
def tblFree {α : Type} (t : Tbl α) : (fuel : Nat) → (k : Nat) → Nat
  | 0, k => k
  | fuel + 1, k => if (tblGet? t k).isSome then tblFree t fuel (k + 1) else k

/-- A number limited to at most `m`. -/
def atMost (m n : Nat) : Nat := min n m

/-- A count that sticks at 0xFFFF_FFFF. -/
def stick32 (n : Nat) : Nat := min n 0xFFFFFFFF

/-- The 8-bit two's-complement form of a temperature (Table 1.18). -/
def sbyte (i : Int) : Nat := (i % 256).toNat

/-- The signed number that the low `w` bits of `n` hold in two's complement. -/
def signed (w n : Nat) : Int :=
  if n % 2 ^ w < 2 ^ (w - 1) then (n % 2 ^ w : Nat) else (n % 2 ^ w : Nat) - (2 ^ w : Nat)

/-- The low `w` bits of an integer in two's complement. -/
def unsigned (w : Nat) (i : Int) : Nat := (i % (2 ^ w : Nat)).toNat

/-- The 0-based numbers below `n` that satisfy `p`, rising. -/
def idxs (n : Nat) (p : Nat → Bool) : List Nat := (List.range n).filter p

/-- A mask with bit `i` set for every `i` below `n` that satisfies `p`. -/
def maskOf (n : Nat) (p : Nat → Bool) : Nat := (idxs n p).foldl (fun m i => m + 2 ^ i) 0

end Sys2Proof.Machine
end

