-- ==== Sys2Proof/Machine/State.lean ====
section
/-!
DEFINITION. The state of the module as plain data: every register, queue, buffer, counter, mode and pin the spec gives
it, the state after reset, and the reasons a step can stop.  Numbers that the manual counts or compares are `Nat`;
register words are `Word`; what the manual lists by name is an inductive type.
-/

namespace Sys2Proof.Machine

/-- Why a step stops in the machine. Nothing in the spec stops the module on a command: a refusal is a completion
status, a rod fault ends a context, a turned-off module is a state. -/
inductive Fault where
  /-- An access to a physical address in no window (R101); no meaning raises it, since every access is checked before
  it is made. Safe. -/
  | noMemory
deriving DecidableEq, Repr

/-- Why a step has no meaning here. -/
inductive Refusal where
  /-- The command named has no meaning in this model yet; raised by its arm in Dispatch.lean. Safe. -/
  | notModelled (mnemonic : String)
deriving DecidableEq, Repr

/-! ### Register pages (04_pages.md) -/

/-- The page kinds of Table 4.2. -/
inductive PageKind where
  | chip | boot | clk | pwr | sec | mgr | tly | lnk | rtr | txn | dir | xlt | nmc | fmc | ecc | qos | mov | kvs | frm
  | rod
deriving DecidableEq, Repr

/-! ### What the module sends -/

/-- One thing the module puts on a bus or a port, or hands to a unit outside this model. The list of them is the model's
own field (assumption 13). -/
inductive Out where
  /-- A packet handed to the egress queue of `port` (or, with none, delivered inside the module to its own unit). -/
  | packet (port : Option Nat) (p : Packet)
  /-- A DATA, IDLE or CTRL flit sent on a port (R304). -/
  | flit (port : Nat) (vc : Nat) (bytes : List Byte)
  /-- An Ethernet frame (R326) or PFC frame (R329) sent on a port. -/
  | frame (port : Nat) (bytes : List Byte)
  /-- Bytes answered on the SMBus (R24). -/
  | smbus (bytes : List Byte)
  /-- A word answered on the PMBus (R23). -/
  | pmbus (word : Nat)
  /-- A NACK, or no answer at all, on the SMBus or PMBus (R22–R24). -/
  | nack
  /-- The test data register a TAP instruction selects (R25), with the word it captures. -/
  | jtag (register : String) (word : Nat)
  /-- A reset pulse the module gives itself (R43, R421, R427). -/
  | selfReset (cause : Nat)
deriving DecidableEq, Repr

/-! ### Power (01_module.md) -/

/-- The hot-swap stage (R12, R14, R30). -/
inductive Stage where
  | off | ramping | conducting | latchedOff
deriving DecidableEq, Repr

/-- The power stage, its sensors and the throttle (01_module.md). -/
structure Pwr where
  /-- Input voltage in mV and input power in 0.1 W, latest sample (Table 1.16). -/
  vinMv : Nat := 0
  pinDw : Nat := 0
  stage : Stage := .off
  /-- When the 20 ms ramp started (Table 1.5). -/
  rampAt : Nat := 0
  /-- PWR_EN_N is held at RTN potential (R12). -/
  enLow : Bool := false
  /-- The module turned off on brown-out or over-voltage and waits for 10 ms inside the range (R14). -/
  heldOff : Bool := false
  /-- Internal rails-good and the PWR_GOOD pin (R15). -/
  railsGood : Bool := false
  pwrGood : Bool := false
  /-- MOD_RESET_N reads high, and when it was released (R18). -/
  resetN : Bool := true
  releasedAt : Nat := 0
  /-- The pins as they read now, and as sampled (R19). -/
  pins : Straps := {}
  sampled : Option Straps := none
  /-- Steps of R26–R28: power-derived, thermal-derived, and the one in force. -/
  stepPower : Nat := 0
  stepTherm : Nat := 0
  stepForce : Nat := 0
  /-- When the latest decided step comes into force (R26, R28). -/
  stepDue : Option Nat := none
  /-- Consecutive samples above, and at or below, the limits of R26. -/
  aboveRun : Nat := 0
  belowRun : Nat := 0
  /-- The last samples of input power, newest first, at most 100,000 (Table 1.17), and the highest since the last read. -/
  samples : List Nat := []
  pinMax : Nat := 0
  /-- Hottest sensors, °C (Table 1.18). -/
  tempDie : Int := 0
  tempHbm : Int := 0
  tempLpddr : Int := 0
  tempStage : Int := 0
  /-- Input voltage present at the power connector, mV, as last reported. -/
  inputMv : Nat := 0
  /-- When a trip was reached; ALERT_N is held low from then until the stage turns off (R30). -/
  tripAt : Option Nat := none
  /-- Selected PMBus page, refreshed telemetry and latched status bits per page (R23). -/
  page : Nat := 0
  telemetry : Tbl Telemetry := []
  latched : Tbl Nat := []
deriving DecidableEq, Repr

/-- The test access port (R25). -/
structure Jtag where
  /-- The instruction in force: 0 IDCODE, 1 BYPASS, 2 SAMPLE/PRELOAD, 3 EXTEST, 4 EXTEST_PULSE, 5 EXTEST_TRAIN. -/
  ir : Nat := 0
  /-- The boundary register: lanes, tick pairs and sideband pins. -/
  boundary : Nat := 0
  /-- What the pins are driven with from the boundary register; none in normal operation. -/
  driven : Option Nat := none
deriving DecidableEq, Repr

/-! ### Boot and flash (02_bringup.md) -/

/-- One retained-state copy (Table 2.4). -/
structure RetCopy where
  magic : Nat := 0xF5120C0F
  version : Nat := 1
  seq : Nat := 0
  /-- Entries: register address and value. -/
  entries : List (Nat × Nat) := []
  tag : Nat := 0
deriving DecidableEq, Repr

/-- One counter-journal entry (Table 2.4b). -/
structure JEntry where
  slot : Nat
  keyId : Nat
  floor : Nat
  seq : Nat
  tag : Nat
deriving DecidableEq, Repr

/-- The configuration flash (Table 2.2). -/
structure Flash where
  /-- Header: magic, layout version and active-slot hint. -/
  magic : Nat := 0xF5120C0F
  layout : Nat := 1
  hint : Nat := 0
  /-- Firmware slots A and B: the image each holds, and the two retained copies (Table 2.2). -/
  slotA : Option (List Byte) := none
  slotB : Option (List Byte) := none
  copy0 : Option RetCopy := none
  copy1 : Option RetCopy := none
  /-- Sectors of the counter journal holding entries, oldest first, at most 16 of at most 64 entries (R461). -/
  journal : List (List JEntry) := []
deriving DecidableEq, Repr

/-- The Creba measurement registers (R41): image digest, index of the key hash, security version and slot; locked once the boot
ROM has written them. -/
structure Measured where
  digest : Nat := 0
  key : Nat := 0
  svn : Nat := 0
  slot : Nat := 0
  locked : Bool := false
deriving DecidableEq, Repr

/-- The boot (02_bringup.md). -/
structure Boot where
  /-- BOOT_STATUS.STATE code of Table 2.1, and whether the boot has started (R19). -/
  state : Nat := 0
  started : Bool := false
  /-- When the phase in progress began (R34). -/
  phaseAt : Nat := 0
  cause : Nat := 0
  level : Nat := 0
  demoted : Bool := false
  /-- Health verdicts (Tables 2.9–2.12). -/
  nmcOk : Nat := 0
  fmcOk : Nat := 0
  portOk : Nat := 0
  dirOk : Nat := 0
  crebaOk : Bool := false
  xltOk : Bool := false
  txnOk : Bool := false
  beamOk : Bool := false
  rodBad : Nat := 0
  movBad : Nat := 0
  frameOk : Nat := 0
  spareInUse : Nat := 0
  stFail : Nat := 0
  /-- BOOT_FW (Table 2.14). -/
  slot : Nat := 0
  otherValid : Bool := false
  imageSvn : Nat := 0
  keyIndex : Nat := 0
  fuseSvn : Nat := 0
  /-- Which retained copies the boot ROM found valid (R39, R47). -/
  copy0Ok : Bool := false
  copy1Ok : Bool := false
  /-- BOOT_RESTORE (Table 2.15, 2.16). -/
  source : Nat := 0
  skipped : Nat := 0
  restoreSeq : Nat := 0
  measured : Measured := {}
  /-- The first slot has reached its limit in ROM, and the other is tried (R34). -/
  romOver : Bool := false
  /-- Controllers whose training or zero-fill has ended (R50, R51). -/
  trainDone : Nat := 0
  zeroDone : Nat := 0
  /-- The port RECOVERY is served on, and the port whose turn to train it is (R42). -/
  served : Option Nat := none
  turn : Nat := 0
  /-- The join announcement: when last sent, and whether an OK completion came (R55). -/
  joinAt : Option Nat := none
  joinDone : Bool := false
  /-- BOOT_NONCE, 128 bits (R419). -/
  nonce : Nat := 0
deriving DecidableEq, Repr

/-! ### Clocks and the tick (03_clocks.md) -/

/-- Clock domains and enables (R59–R67). Masks follow the registers of Tables 3.5–3.11. -/
structure Clk where
  pllLocked : Nat := 0
  coasting : Nat := 0
  xoPresent : Bool := false
  tickRefPresent : Bool := false
  sel : Nat := 0
  /-- Switches not yet complete, with the time each was started (R66, R67). -/
  pending : Tbl Nat := []
  /-- End of a reset of the management domain, model time (R67). -/
  mgmtUntil : Nat := 0
  /-- CLK_EN_BLK, CLK_EN_PORT and CLK_EN_FRM (Tables 3.7–3.9). -/
  enBlk : Nat := 0
  enPort : Nat := 0
  enFrm : Nat := 0
  /-- CLK_ROD_EN word of each frame. -/
  rodEn : Tbl Nat := []
deriving DecidableEq, Repr

/-- The fabric tick (R68–R72). -/
structure Tick where
  count : Nat := 0
  /-- Ticks still to slew (sign: direction) and the phase of the 1-in-64 rule (R70). -/
  slew : Int := 0
  phase : Nat := 0
  /-- Ticks the count is still held (R70). -/
  hold : Nat := 0
  /-- While the PLL coasts: the part of its next cycle already run, in ten-thousandths (Table 3.1). -/
  frac : Nat := 0
  /-- The first exchange after boot start has been made; consecutive good exchanges (R71). -/
  first : Bool := false
  good : Nat := 0
  offset : Int := 0
  locked : Bool := false
  /-- SEQs of the latest ANNOUNCEs acted on, newest first, and the SEQ of the next one this manager sends. -/
  seqs : List Nat := []
  nextSeq : Nat := 0
  /-- The DELAY_REQ waiting for its answer: SEQ and t1, captured as it leaves (R69, R70). -/
  req : Option (Nat × Nat) := none
  /-- When the latest DELAY_RESP, and the latest ANNOUNCE from MGR_EP, arrived; model time. -/
  lastResp : Nat := 0
  lastAnn : Nat := 0
  /-- When an active manager's listen time began (R54). -/
  listenFrom : Option Nat := none
  /-- When this manager last sent ANNOUNCE. -/
  sentAt : Nat := 0
deriving DecidableEq, Repr

/-! ### Critical commands (04_pages.md) -/

/-- A critical command's payload, parsed (Table 4.12). -/
structure Crit where
  op : Nat
  issuer : Nat
  counter : Nat
  exec : Nat
  ctx : Nat
  body : List Byte
  tag : Nat
deriving DecidableEq, Repr

/-- An accepted critical command whose completion is still to come: its inbound slot, issuer and counter (R94). -/
structure CritRef where
  slot : Nat
  issuer : Nat
  counter : Nat
deriving DecidableEq, Repr

/-- One issuer slot (R92–R97). -/
structure Issuer where
  /-- 0 EMPTY, 1 VALID, 2 EXHAUSTED (Table 4.12a). -/
  st : Nat := 0
  perm : Nat := 0
  key : Nat := 0
  /-- Last accepted counter and the TAG accepted with it. -/
  last : Nat := 0
  lastTag : Option Nat := none
  /-- Completion of the last accepted command: status and data; none while it still acts (R94). -/
  stored : Option (Nat × List Byte) := none
  acting : Bool := false
  /-- The journalled floor (R49). -/
  floor : Nat := 0
deriving DecidableEq, Repr

/-- A critical command armed for a tick (R459), in the order of acceptance. -/
structure Armed where
  tick : Nat
  cmd : Crit
  /-- For an EXTENT_GRANT, the generation its completion promised. -/
  gen : Nat := 0
deriving DecidableEq, Repr

/-- A COMMIT in progress (R89, R421). -/
structure Commit where
  /-- The command it completes, and the record taken. -/
  ref : CritRef
  record : RetCopy
  /-- Copy written, 0 or 1. -/
  copy : Nat
  startAt : Nat
  /-- FW_UPDATE's ACTIVATE (R421). -/
  activate : Bool := false
  /-- Fuse count to raise once the copy has verified: the running image's security version (R40). -/
  svn : Nat := 0
deriving DecidableEq, Repr

/-- The issuer slots, armed commands and swap (04_pages.md). -/
structure Cc where
  issuers : Tbl Issuer := []
  authFails : Nat := 0
  /-- COMMIT_STATE (Table 4.12a). -/
  commitState : Nat := 0
  commit : Option Commit := none
  /-- The armed swap: SWAP_ID and tick (R85). -/
  swap : Option (Nat × Nat) := none
  swapCount : Nat := 0
  swapId : Nat := 0
  lastTick : Nat := 0
  armed : List Armed := []
  /-- An accepted command waiting for its floor entry: inbound slot, command and unwrapped key (R49). -/
  floorWait : Option (Nat × Crit × Nat) := none
  /-- The entries a COMMIT that waits so took when it was accepted (R89). -/
  taken : Option (List (Nat × Nat)) := none
  /-- Copies of a command that still acts: its issuer slot and counter, and the copy's inbound slot, oldest first (R94). -/
  copies : List (Nat × Nat × Nat) := []
  /-- Inbound slots of the critical commands that arrived while one waits for its floor entry, oldest first. -/
  behind : List Nat := []
  /-- RECOVERY firmware update in progress: image staged and the requester's slot (R43). -/
  recovery : Option Nat := none
deriving DecidableEq, Repr

/-! ### Extents, translation and rings (05_extents.md) -/

/-- Extent states of Table 5.6. -/
inductive ExtState where
  | free | active | draining | zeroing
deriving DecidableEq, Repr

/-- One extent record (R110, R370). -/
structure Extent where
  st : ExtState := .free
  owner : Nat := 0
  /-- 0 TENANT, 1 TABLE, 2 MGR_STATE. -/
  kind : Nat := 0
  base2m : Nat := 0
  len2m : Nat := 0
  coh : Bool := false
  revertStale : Bool := false
  thresh : Nat := 0
  prot : Nat := 0
  /-- PARTNERS bytes as one number (R111, R157). -/
  partners : Nat := 0
  gen : Nat := 0
  /-- When the ID last became FREE (R112), model time; none before. -/
  freedAt : Option Nat := none
  /-- The first leaf's VA base and key slot of a coherent extent (R370). -/
  vaBase : Option Nat := none
  snoopKey : Option Nat := none
  /-- Deadline of a drain, model time, and the revoke that waits for ZEROING (R114). -/
  deadline : Nat := 0
  revoke : Option CritRef := none
deriving DecidableEq, Repr

/-- One lookaside entry (R105): the leaf's fields with the extent's ID and generation. -/
structure LkEntry where
  ctx : Nat
  /-- First VA and size in bytes of the page. -/
  va : Nat
  size : Nat
  pa : Nat
  keysel : Nat
  r : Bool
  w : Bool
  atom : Bool
  coh : Bool
  prot : Nat
  ext : Nat
  gen : Nat
deriving DecidableEq, Repr

/-- One ring record before it is written (Table 5.11), without PHASE and SEQ. -/
structure Record where
  typ : Nat
  cls : Nat
  ctx : Nat := 0xFFFF
  source : Nat := 0
  va : Nat := 0
  status : Nat := 0
  access : Nat := 0
  ext : Nat := 0xFFFF
  gen : Nat := 0
  detail : List Byte := []
deriving DecidableEq, Repr

/-- One event ring: the walker-window words of Table 5.23 and the module's running copy. -/
structure Ring where
  rootLo : Word := 0
  rootHi : Word := 0
  ringLo : Word := 0
  /-- +0x0C word; SIZE_LOG2 resets to 12. -/
  ringHi : Word := 0x000C0000
  prod : Nat := 0
  /-- RING_OVF of the window, and OVERFLOW of the control bead. -/
  ovf : Nat := 0
  overflow : Nat := 0
  seq : Nat := 0
  cons : Nat := 0
  /-- The on-die queue of 64 records, oldest first (R458). -/
  queue : List Record := []
  /-- Units whose fault record waits to enter the queue (R458): the records, oldest first. -/
  held : List Record := []
  /-- PRODUCER or OVERFLOW of the control bead is still to be written (R117, R118, R120). -/
  owedProd : Bool := false
  owedOvf : Bool := false
deriving DecidableEq, Repr

/-- A pointer entry of the walk cache (R107): the root it was reached from, its level 3 to 1, the VA range it serves and the table
it names. -/
structure Pointer where
  ctx : Nat
  root : Nat
  level : Nat
  va : Nat
  table : Nat
deriving DecidableEq, Repr

/-- A walk in progress for the tracker (R105, R107): the 64 KiB page of a context, and the inbound slots that wait for it in
order of arrival. -/
structure Walk where
  ctx : Nat
  page : Nat
  slots : List Nat
deriving DecidableEq, Repr

/-- An INVAL not yet complete (R109). -/
structure Inval where
  slot : Nat
  src : Nat
  dropped : Nat
  visited : Nat
  /-- Inbound slots and moves that used a dropped entry. -/
  waitFor : List Nat
deriving DecidableEq, Repr

/-- Extents, page-table walker, lookasides and rings (05_extents.md). -/
structure Xlt where
  extents : Tbl Extent := []
  /-- Walker-window entries: contexts 0–1,023, manager ring 1,024. -/
  rings : Tbl Ring := []
  /-- The tracker lookaside (8,192 entries), newest first. -/
  tlb : List LkEntry := []
  walks : List Walk := []
  /-- The shared walk cache (1,024 pointer entries), newest first (R107). -/
  cache : List Pointer := []
  invals : List Inval := []
deriving DecidableEq, Repr

/-! ### Transactions (15_transactions.md) -/

/-- The key a request came under, hence its completion leaves under (R414, R419). -/
inductive KeyRef where
  /-- SEC = 0. -/
  | clear
  /-- KEY_ID 0: the manager key shared with endpoint `ep`, and its value when the request came. -/
  | manager (ep key : Nat)
  /-- A key slot. -/
  | slot (n : Nat)
deriving DecidableEq, Repr

/-- Where an accepted request stands. -/
inductive Phase where
  /-- Waits for its walk (accept-pending, R106). -/
  | walk
  /-- Its beads are with a memory controller; `left` are not delivered yet. -/
  | memory (left : Nat)
  /-- At the home of a coherent line (16_coherence.md). -/
  | home
  /-- With a unit: a command under way, a call, an ATTEND, a queued ATTEST. -/
  | unit
  /-- Waits for its forward to a partner (R159). -/
  | forward
  /-- Its completion waits at a host shaper (R397). -/
  | shaped
deriving DecidableEq, Repr

/-- One inbound slot (R356). Its key in the table is source × 65,536 + TAG. -/
structure InSlot where
  src : Nat
  tag : Nat
  /-- Arrival port; none for the module's own units. -/
  port : Option Nat
  /-- It arrived on a port in Ethernet personality (R365). -/
  eth : Bool := false
  pkt : Packet
  ctx : Nat
  key : KeyRef
  phase : Phase := .unit
  yellow : Bool := false
  /-- Extent and generation of a translated memory request. -/
  ext : Option (Nat × Nat) := none
  /-- Its physical address once translated. -/
  pa : Nat := 0
  /-- Data-buffer beads held (R359). -/
  dbuf : Nat := 0
  /-- Data gathered so far, one bead after another; poison met. -/
  data : List Byte := []
  poison : Bool := false
  /-- A status other than OK gathered on the way; 0 is OK. -/
  status : Nat := 0
  /-- Of a command that still waits for its reads or writes: the tick at which it was accepted, and whether TICK_LOCKED was set
  then (R74, R266, R289). -/
  accepted : Option (Nat × Bool) := none
deriving DecidableEq, Repr

/-- What an outbound request is for (R357). -/
inductive Purpose where
  /-- A snoop of slice `s` for a bead: 0 INV, 1 SHARE, 2 COPY. -/
  | snoop (slice bead kind : Nat)
  /-- A mover's REMOTE write. -/
  | mover (m : Nat)
  /-- A forward or member read of a protected extent. -/
  | partner (ext : Nat) (kind : Nat)
  /-- A loader command: 0 JOB_PLACE, 1 JOB_REMOVE. -/
  | loader (kind job : Nat)
  /-- The join announcement. -/
  | join
  /-- A manager command: 0 ROLE_CHANGE, 1 EP_STATE of endpoint `target`, 2 MGR_NOTICE, 3 journal WRITE, 4 TAKEBACK, 5 a step
  of R439. -/
  | manager (kind target : Nat)
  /-- An INVOKE or other call made by a unit of this module. -/
  | unit (kind who : Nat)
deriving DecidableEq, Repr

/-- One outbound slot (R357), by slot index 0–16,383. -/
structure OutSlot where
  /-- Reuse count, modulo 4, carried in the tag. -/
  reuse : Nat := 0
  /-- In use: the request sent and what it is for; none when free or in guard. -/
  req : Option (Packet × Purpose) := none
  key : KeyRef := .clear
  port : Option Nat := none
  sentAt : Nat := 0
  /-- Resends made (R364). -/
  resends : Nat := 0
  /-- Context its packets are queued under (R391). -/
  ctx : Option Nat := none
  /-- End of the reuse guard, model time (R357). -/
  guard : Option Nat := none
deriving DecidableEq, Repr

/-- One done record (R365). -/
structure DoneRec where
  src : Nat
  tag : Nat
  status : Nat
  data : List Byte
  key : KeyRef
  /-- Context of the request (R391). -/
  ctx : Nat := 0
  /-- When it is dropped, model time. -/
  expires : Nat
deriving DecidableEq, Repr

/-- Per-source quota record (R362). -/
structure Source where
  block : Bool := false
  limit : Nat := 0
  count : Nat := 0
deriving DecidableEq, Repr

/-- A BALANCE_CHECK in progress (R367). -/
structure Balance where
  slot : Nat
  waitNs : Nat
  /-- Pages still to take, by base, the head being waited for or held. -/
  pages : List Nat
  /-- Since when the head page is waited for; held once its audit runs. -/
  since : Nat
  held : Bool := false
  checked : Nat := 0
  notIdle : Nat := 0
  failed : Nat := 0
  gated : Nat := 0
  /-- First failure: page base, index, ledger, recount, quiet value. -/
  first : Option (Nat × Nat × Nat × Nat × Nat) := none
deriving DecidableEq, Repr

/-- The tracker (15_transactions.md). -/
structure Txn where
  slots : Tbl InSlot := []
  outs : Tbl OutSlot := []
  /-- Ledgers IN_SLOTS, OUT_SLOTS, DATA_BUF and QUOTA_HELD (Table 15.7), as the module counts them. -/
  inUsed : Nat := 0
  outUsed : Nat := 0
  dbufUsed : Nat := 0
  quotaHeld : Nat := 0
  records : List DoneRec := []
  sources : Tbl Source := []
  /-- Requests sent to each other endpoint for whose tag no completion has come (R363). -/
  sentTo : Tbl Nat := []
  balance : Option Balance := none
  balFailed : Nat := 0
deriving DecidableEq, Repr

/-! ### Contexts and keys (18_tenancy.md) -/

/-- Context states of Table 18.1. -/
inductive CtxState where
  | free | active | quiescing | removing
deriving DecidableEq, Repr

/-- One context (R401, R402, R423). -/
structure Context where
  st : CtxState := .free
  cause : Nat := 0
  members : List Nat := []
  ekDigest : Nat := 0
  tallyRead : Bool := false
  tk : Option Nat := none
  wrapCtr : Nat := 0
  /-- End of the drain, model time; ZEROIZE_US of the removal in ns; requests forced at T1 (R424). -/
  drainEnd : Nat := 0
  zeroizeNs : Nat := 0
  forced : Nat := 0
deriving DecidableEq, Repr

/-- Key-slot states of Table 18.4. -/
inductive KeyState where
  | empty | armed | active | retiring | dead
deriving DecidableEq, Repr

/-- One key slot (R408–R411, R418). -/
structure KeySlot where
  st : KeyState := .empty
  key : Nat := 0
  keyId : Nat := 0
  owner : Nat := 0
  kgen : Nat := 0
  /-- Transmit counters for DIR 0 and DIR 1. -/
  tx0 : Nat := 0
  tx1 : Nat := 0
  warned : Bool := false
  exhausted : Bool := false
  /-- Retire deadline, model time. -/
  deadline : Nat := 0
deriving DecidableEq, Repr

/-- One replay window (R417). `slot` is the key slot, or 1,024 for the manager key. -/
structure Window where
  slot : Nat
  sender : Nat
  high : Nat
  /-- Counters seen at or below `high`, within 1,024 of it. -/
  seen : List Nat
deriving DecidableEq, Repr

/-- A manager key (R419): the key and its two transmit counters. -/
structure MgrKey where
  key : Nat
  tx0 : Nat := 0
  tx1 : Nat := 0
deriving DecidableEq, Repr

/-- A queued ATTEST (R404): inbound slot and target. -/
structure Attest where
  slot : Nat
  target : Nat
deriving DecidableEq, Repr

/-- Contexts, key slots and the Creba core (18_tenancy.md). -/
structure Ten where
  ctxs : Tbl Context := []
  keys : Tbl KeySlot := []
  windows : List Window := []
  /-- The module's own manager key, and the manager keys replaced, each with the end of its life, model time (R419). -/
  own : Option MgrKey := none
  previous : List (MgrKey × Nat) := []
  /-- At the active manager: manager keys by endpoint, the control host's among them. -/
  roster : Tbl MgrKey := []
  attests : List Attest := []
  /-- Firmware bytes staged, the chunk being written (inbound slot and bytes) (R420). -/
  staged : List Byte := []
  chunk : Option (Nat × List Byte) := none
  debugUnlocked : Bool := false
  /-- A DEBUG_UNLOCK under way (R422). -/
  unlocking : Option CritRef := none
deriving DecidableEq, Repr

/-! ### Roles (19_hierarchy.md) -/

/-- A module of the manager's roster (R419, R432, R55). -/
structure Module where
  serial : Nat := 0
  nonce : Nat := 0
  /-- State and key identifier of its issuer slot 1, and the other fields of its join announcement as sent. -/
  slot1 : Nat := 0
  slot1Id : Nat := 0
  announced : List Byte := []
  /-- When its latest DELAY_REQ arrived, model time; silence already reported; declared dead. -/
  lastReq : Nat := 0
  silent : Bool := false
  dead : Bool := false
deriving DecidableEq, Repr

/-- A change to the domain that the manager journals (R433): one a command in an inbound slot asks for, or the declaration of
a silent endpoint. -/
inductive Change where
  | slot (key : Nat)
  | silent (ep : Nat)
deriving DecidableEq, Repr

/-- A change whose INTENT is being written to the standby's copy: the outbound slots of the writes still awaited. -/
structure Opening where
  what : Change
  outs : List Nat
deriving DecidableEq, Repr

/-- A declaration under way (R430): the endpoint, whether it is dead, the modules that have not completed EP_STATE OK, and the
inbound slot of the control host's command. -/
structure Declaration where
  ep : Nat
  dead : Bool
  awaiting : List Nat
  slot : Option Nat := none
deriving DecidableEq, Repr

/-- What the manager still sends to make a returning home module its standby (R439), one request at a time. -/
inductive HomeStep where
  /-- A critical command under context 0, with its body. -/
  | crit (op : Nat) (body : List Byte)
  /-- A write of one of the module's registers. -/
  | regWrite (addr value : Nat)
  /-- The journal header with this COPY_STATE. -/
  | header (copyState : Nat)
  /-- `beads` beads of the local copy from offset `off` on. -/
  | copy (off beads : Nat)
deriving DecidableEq, Repr

/-- A takeover's ROLE_CHANGE not yet completed: the packet, and when it was last sent (R437). -/
structure RoleMsg where
  pkt : Packet
  at_ : Nat
deriving DecidableEq, Repr

/-- Manager, worker and standby state (19_hierarchy.md). -/
structure Mgr where
  /-- 0 worker, 1 standby, 2 active (Table 19.12). -/
  role : Nat := 0
  ep : Option Nat := none
  gen : Nat := 0
  /-- MGR_NONCE this module derives its manager key with (R419). -/
  nonce : Nat := 0
  mirrorOk : Bool := false
  /-- A write to the standby's copy has failed since MIRROR_OK was last set: changes are refused (R433). -/
  mirrorLost : Bool := false
  /-- Base PA of the standby's copy, and records already go to it while it is being copied (R439). -/
  mirrorPa : Nat := 0
  copying : Bool := false
  /-- An armed takeback: the other module and T_B (R440). -/
  takeback : Option (Nat × Nat) := none
  /-- T_B of the TAKEBACK this standby has sent, and when it was refused (R440). -/
  tbSent : Option Nat := none
  tbRefused : Option Nat := none
  /-- Changes between INTENT and DONE (R433), and those that wait for their INTENT. -/
  changes : Nat := 0
  openings : List Opening := []
  declaring : List Declaration := []
  /-- The returning home module and the steps of R439 still to make, the first of them in flight. -/
  home : Option (Nat × List HomeStep) := none
  roster : Tbl Module := []
  roleSent : Tbl RoleMsg := []
  /-- Non-module endpoints of the journal's list (R431). -/
  others : List Nat := []
  /-- The last counter used, or reserved by an earlier manager, toward each module (R434). -/
  counters : Tbl Nat := []
  takeovers : Nat := 0
  takebacks : Nat := 0
  declared : Nat := 0
  /-- TAKEOVER_BLOCKED has been posted for the present silence. -/
  blocked : Bool := false
deriving DecidableEq, Repr

/-! ### Routing (14_routing.md) -/

/-- A learned route of boot routing (R336): source endpoint, port and MAC, newest first in the table. -/
structure Learned where
  ep : Nat
  port : Nat
  mac : Nat
deriving DecidableEq, Repr

/-- A packet in an egress queue (R391), or held at its unit by throttling (R343). -/
structure Queued where
  pkt : Packet
  /-- Destination MAC for a port in Ethernet personality (R335). -/
  mac : Nat := 0
  /-- Context whose packet it is, for the counting board; none for transit. -/
  ctx : Option Nat := none
  /-- Bytes of the packet already put into flits. -/
  sent : Nat := 0
  /-- A refusal completion (R360). -/
  refusal : Bool := false
  /-- Tick at which a transit TICK_SYNC arrived (R69); none for a packet of this module. -/
  came : Option Nat := none
deriving DecidableEq, Repr

/-- The router (14_routing.md). Words of the routing-table and counting-board windows are kept by window offset. -/
structure Rtr where
  table : RegMap := []
  board : RegMap := []
  inject : Nat := 0
  v0Loaded : Bool := false
  v1Loaded : Bool := false
  oldWritable : Bool := true
  /-- When the last flip fired, model time (R337). -/
  flipAt : Nat := 0
  flipArmed : Option Nat := none
  /-- Upstream port and MAC, manager endpoint of the latest ANNOUNCE (R336). -/
  upstream : Option (Nat × Nat) := none
  annEp : Nat := 0
  learned : List Learned := []
  boardActive : Nat := 0
  boardArmed : Option Nat := none
  boardBad : Bool := false
  badPort : Nat := 0
  badWindow : Nat := 0
  /-- Egress queues by port × 16 + queue (Table 17.2). -/
  queues : Tbl (List Queued) := []
  /-- Packets on the beam that found the 64 KiB of their port and VC full, by port × 8 + VC, each with its queue (R343). -/
  beam : Tbl (List (Nat × Queued)) := []
  /-- Highest depth per port × 8 + VC since its last read (Table 14.13). -/
  depthMax : Tbl Nat := []
  /-- Local requests held by throttling, by port × 8 + VC, oldest first (R343). -/
  held : Tbl (List Queued) := []
deriving DecidableEq, Repr

/-! ### Traffic control (17_qos.md) -/

/-- A token bucket: tokens in units of 2⁻¹⁶ ÷ 125 byte and when they were last brought up to date (R385). -/
structure Bucket where
  tokens : Int := 0
  at_ : Nat := 0
deriving DecidableEq, Repr

/-- A meter record and its buckets (Table 17.8). -/
structure Meter where
  key : Word := 0x20000000
  cir : Nat := 0
  pir : Nat := 0
  bursts : Word := 0x01400140
  tc : Bucket := {}
  tp : Bucket := {}
  red : Nat := 0
deriving DecidableEq, Repr

/-- A host record, its shaper and the completions that wait at it (Table 17.9, R397). -/
structure HostRec where
  key : Word := 0x20000000
  rate : Nat := 0
  burst : Nat := 320
  bucket : Bucket := {}
  /-- Waiting completions, oldest first, each with the inbound slot that holds it. -/
  waiting : List (Packet × Nat) := []
deriving DecidableEq, Repr

/-- A queue shaper (Table 17.10). -/
structure QShaper where
  ctl : Word := 0x20000000
  rate : Nat := 0
  burst : Nat := 320
  bucket : Bucket := {}
deriving DecidableEq, Repr

/-- Meters, policers, shapers and classes (17_qos.md). -/
structure Qos where
  meters : Tbl Meter := []
  hosts : Tbl HostRec := []
  qsh : Tbl QShaper := []
  /-- Management policer of each port (R390). -/
  policer : Tbl Bucket := []
  /-- Deficit of each port × 16 + queue, and the queue the round of each port × 8 + VC visits (R393). -/
  deficit : Tbl Nat := []
  turn : Tbl Nat := []
  /-- Port's weighted-group round robin: the VC served last (R392). -/
  rr : Tbl Nat := []
  /-- Held values of the selected meter, host and queue shaper (R396). -/
  mtrHeld : Nat × Nat × Nat := (0, 0, 0x01400140)
  hostHeld : Nat × Nat := (0, 320)
  qshHeld : Nat × Nat := (0, 320)
  classes : Tbl Nat := []
deriving DecidableEq, Repr

/-! ### Tallies (20_tallies.md) -/

/-- The tally area of one page (Table 20.1). Counters and selections by index 0–31. -/
structure TallyPage where
  sel : RegMap := []
  val : Tbl Nat := []
  snap : Tbl Nat := []
  ovf : Nat := 0
  snapOvf : Nat := 0
deriving DecidableEq, Repr

/-- Tallies and port bandwidth (20_tallies.md). -/
structure Tly where
  /-- By page base. -/
  pages : Tbl TallyPage := []
  /-- Bytes sent (2p) and received (2p + 1) of the window in progress, and as latched (R453). -/
  now : Tbl Nat := []
  last : Tbl Nat := []
  seq : Nat := 0
  irreg : Bool := false
  /-- The window in progress had a hold or step (R454), or its bytes were discarded by a swap. -/
  disturbed : Bool := false
  discard : Bool := false
  /-- Tick of the latest window end taken. -/
  endTick : Nat := 0
deriving DecidableEq, Repr

/-! ### Link ports (13_link.md) -/

/-- Link states of Table 13.6, with the codes of LNK_STATUS.STATE. -/
inductive LinkState where
  | disabled | training | init | up | down
deriving DecidableEq, Repr

/-- A DATA flit held in the replay buffer (R316): what it carried. -/
structure Held where
  seq : Nat
  vc : Nat
  pstart : Nat
  payload : List Byte
  /-- Packets whose last byte it carries, so that a DOWN can answer for them (R323). -/
  packets : List Packet := []
deriving DecidableEq, Repr

/-- The receive side of one VC (R307–R309). -/
structure RxVc where
  /-- Units in use. -/
  units : Nat := 0
  /-- Bytes of the packet in progress; none when the receiver waits for a PSTART. -/
  partialPkt : Option (List Byte) := none
deriving DecidableEq, Repr

/-- Ethernet reassembly of one (SRC_EP, VC) (R328): bytes so far. -/
structure Reasm where
  src : Nat
  vc : Nat
  bytes : List Byte
deriving DecidableEq, Repr

/-- One port (13_link.md). -/
structure Port where
  st : LinkState := .disabled
  /-- When the state was entered, model time. -/
  since : Nat := 0
  /-- Personality in force: 1 Ethernet. -/
  eth : Nat := 0
  laneLock : Nat := 0
  /-- Receiver: EXP, ACK sent, RR sent, in WAIT with when RR was last raised. -/
  exp : Nat := 0
  ack : Nat := 0xFFFF
  rr : Nat := 0
  wait : Option Nat := none
  /-- Transmitter: SEQ of the next new DATA flit, replay buffer oldest first, RR acted on. -/
  nextSeq : Nat := 0
  replay : List Held := []
  rrActed : Nat := 0
  /-- Held flits still to resend; none when no replay is under way; one more replay asked for meanwhile. -/
  resend : Option (List Held) := none
  again : Bool := false
  /-- Consecutive replays with no freeing ACK (R317); when the oldest held flit was last helped (R316). -/
  replays : Nat := 0
  oldestAt : Nat := 0
  rx : Tbl RxVc := []
  /-- XOFF mask sent, and VCs the partner holds off. -/
  xoffTx : Nat := 0
  xoffRx : Nat := 0
  /-- Priorities paused by PFC, each with the end of its pause, model time (R329); priorities this port holds off, with
  when the frame was last sent. -/
  pfcRx : Tbl Nat := []
  pfcTx : Tbl Nat := []
  /-- INIT: consecutive good INIT flits, READY seen (R321). -/
  initGood : Nat := 0
  readySeen : Bool := false
  /-- LNK_PEER: endpoint, port, CHIP_IDREV (R321). -/
  peer : Option (Nat × Nat × Nat) := none
  /-- The VC whose packet is in progress of being sent, per VC: the packet and its bytes already sent. -/
  txNow : Tbl Queued := []
  reasm : List Reasm := []
  /-- Packets reassembled and handed to the transaction layer, oldest first. -/
  delivered : List (Nat × Nat × List Byte) := []
deriving DecidableEq, Repr

/-! ### Memory controllers (06_tiers.md) and integrity (07_integrity.md) -/

/-- What a request to a controller does to its bead (R121, R125, R147). -/
inductive BeadOp where
  | read
  /-- Full-bead write: 64 bytes and the POISON flag. -/
  | write (data : List Byte) (poison : Bool)
  /-- WRITE_PARTIAL: mask, 64 bytes, POISON flag. -/
  | part (mask : Nat) (data : List Byte) (poison : Bool)
  /-- ATOMIC: sub-op, operand bytes, POISON flag. -/
  | atomic (sub : Nat) (operand : List Byte) (poison : Bool)
  /-- A delta performed at position K (R159): 64 bytes and the POISON flag. -/
  | delta (data : List Byte) (poison : Bool)
deriving DecidableEq, Repr

/-- On whose behalf a request reaches a controller. -/
inductive Origin where
  /-- Bead `idx` of the inbound slot with this table key. -/
  | slot (key idx : Nat)
  /-- A home that reads a line to serve the inbound slot (16_coherence.md). -/
  | home (key idx : Nat)
  /-- The old bead of a protected write (R159, step 1). -/
  | old (key idx : Nat)
  /-- A request whose slot was forced to end: what returns is discarded (R114). -/
  | discard
  /-- Write-back of a corrected or poisoned bead (R145, R146), patrol scrub (R148), or a rebuild copy (R164). -/
  | writeback
  | scrub
  | rebuild
  /-- A bead that its home writes for no request (R377, R383). -/
  | store
deriving DecidableEq, Repr

/-- One request in a controller's queue (R126–R130). -/
structure MemReq where
  pa : Nat
  op : BeadOp
  /-- Service class 0–3 (Table 6.4). -/
  cls : Nat
  /-- Arrival, model time, and order of arrival at its unit. -/
  at_ : Nat
  seq : Nat
  origin : Origin
deriving DecidableEq, Repr

/-- One independent unit: a pseudo-channel or a channel (Table 6.1). -/
structure Unit where
  /-- Requests in order of arrival, reads (with atomics and partial writes) and writes. -/
  reads : List MemReq := []
  writes : List MemReq := []
  drain : Bool := false
  /-- Refresh debt of each bank, and its open row (R133, R127). -/
  debt : Tbl Nat := []
  row : Tbl Nat := []
  /-- Requests issued to DRAM whose data has not returned. -/
  dram : List MemReq := []
  nextSeq : Nat := 0
  /-- Requests that wait on the beam for room in their queue, oldest first (R131). -/
  beam : List MemReq := []
  /-- Quarters of a request from outside that the throttle's rate has granted and none has used (R132). -/
  credit : Nat := 0
deriving DecidableEq, Repr

/-- Controller states of Table 6.6. -/
inductive CtlState where
  | active | entering | selfRefresh | exiting | retrain | failed
deriving DecidableEq, Repr

/-- An entry of a controller's repair fuse map (R138). -/
inductive RepairEntry where
  | row (unit bank row : Nat)
  | lane (channel lane : Nat)
deriving DecidableEq, Repr

/-- One controller: 0–3 near stacks, 4–11 far groups (06_tiers.md). -/
structure Ctl where
  st : CtlState := .active
  units : Tbl Unit := []
  /-- Channel in RETRAIN; run number of the training or tracking run under way, and its channel (R137). -/
  retrainCh : Nat := 0
  run : Nat := 0
  tracking : Option Nat := none
  nextTrack : Nat := 0
  /-- Temperature now, and at the last full training of each channel; doubled refresh. -/
  temp : Int := 0
  trainedAt : Tbl Int := []
  ref2x : Bool := false
  retrains : Nat := 0
  retries : Nat := 0
  attempts : Nat := 0
  lastFailCh : Nat := 0
  /-- Repair map outcome (Table 6.15). -/
  entries : Nat := 0
  rowsOk : Nat := 0
  lanesOk : Nat := 0
  softRepairs : Nat := 0
  /-- Rows replaced by a soft post-package repair at this boot: unit, bank and row (R138). -/
  softRows : List (Nat × Nat × Nat) := []
  /-- Refreshes forced by a debt of 4, and the highest debt since the last read (R133, Table 6.12). -/
  forced : Nat := 0
  debtMax : Nat := 0
  /-- Metadata cache of a far group: metadata beads cached, most recent first, with dirty bits (R125). -/
  mdc : List (Nat × Bool) := []
  /-- Rows with correctable errors: (unit, bank, row, count), most recent first, at most 64 (R149). -/
  ceRows : List (Nat × Nat × Nat × Nat) := []
  /-- Scrub: next bead offset in the controller, pass complete in this period, passes (R148). -/
  scrubPos : Nat := 0
  scrubDone : Bool := false
  scrubPasses : Nat := 0
  scrubAt : Nat := 0
  /-- When it last held a request, and when it entered its state (R134). -/
  idleSince : Nat := 0
  since : Nat := 0
  /-- Channels whose tracking step an uncorrectable bead asked for and that has not begun (R143); the next channel of the periodic
  tracking steps; deferred work still to be done since SR_MAX_MS ended a stay in self-refresh (R134). -/
  trackDue : List Nat := []
  trackCh : Nat := 0
  deferred : Bool := false
  /-- A request arrived while entering or in self-refresh, or SR_FORCE was cleared meanwhile (R134, R135). -/
  wake : Bool := false
deriving DecidableEq, Repr

/-- Metadata symbol M of a bead (Table 7.2), and an error injected into its stored codeword (R166). -/
structure Meta where
  poison : Bool := false
  dirState : Nat := 0
  dirExt : Bool := false
  logged : Bool := false
  /-- By how much DRAM differs from the valid codeword: (symbol, difference) (R142, R166). -/
  errs : List (Nat × Nat) := []
deriving DecidableEq, Repr

/-- States of a protected extent (Table 7.18). -/
inductive ProtState where
  | normal | degraded | rebuilding
deriving DecidableEq, Repr

/-- Member of a stripe descriptor (Table 7.6). -/
structure Member where
  ep : Nat
  ext : Nat
  gen : Nat
  ctx : Nat
deriving DecidableEq, Repr

/-- Protection record of an extent with PROT ≠ 0 (R156–R164). -/
structure Prot where
  st : ProtState := .normal
  k : Nat := 1
  pos : Nat := 0
  members : List Member := []
  keysel : Nat := 0
  lost : Nat := 0
  promoted : Bool := false
  /-- This member is a replacement: byte offset of the next bead to fill, and of beads made current out of order; at a survivor of a
  rebuild, of the beads its partners have read (R164). -/
  replacement : Bool := false
  next : Nat := 0
  current : List Nat := []
deriving DecidableEq, Repr

/-- A write held while its forward is under way (R159): the new bead as it will be written. -/
structure HeldWrite where
  /-- Inbound slot and bead index of the request; none for the data of a snoop answer, which its line waits for. -/
  who : Option (Nat × Nat)
  ext : Nat
  pa : Nat
  data : List Byte := []
  poison : Bool := false
  /-- The old bead has been read and the forward formed. -/
  formed : Bool := false
  /-- The outbound slot of the forward in flight; none between a failed forward and its resend. -/
  out : Option Nat := none
  /-- Bytes forwarded, and their POISON flag. -/
  fwd : List Byte := []
  fwdPoison : Bool := false
  lastSent : Nat := 0
  /-- Later requests to the bead, in order: inbound slot and bead index. -/
  behind : List (Nat × Nat) := []
deriving DecidableEq, Repr

/-- Why a bead is being gathered (R162–R164). -/
inductive GatherFor where
  /-- A bead found uncorrectable here, or behind a FAILED controller: the request that wants it, and whether the result is
  written back. -/
  | repair (req : MemReq) (back : Bool)
  /-- The same for an access of one of the module's own units: its tag. -/
  | inner (tag : Nat) (back : Bool)
  /-- A bead of a RECON_READ held in an inbound slot. -/
  | recon (key idx : Nat)
  /-- Rebuild of a replacement's bead. -/
  | rebuild
deriving DecidableEq, Repr

/-- A bead under reconstruction (R160, R162). -/
structure Gather where
  ext : Nat
  /-- Byte offset of the bead in the extent, and the position it reconstructs. -/
  off : Nat
  pos : Nat
  want : GatherFor
  /-- Members still to be asked, and outbound slots still awaited; running XOR and poison. -/
  ask : List Nat
  awaited : List Nat := []
  acc : List Byte
  poison : Bool := false
  startAt : Nat
  /-- Positions read (BEAD_REPAIRED). -/
  read : Nat := 0
  /-- Forwards that wait for the result: inbound slots (R160). -/
  fwds : List Nat := []
  /-- Requests that wait until the bead is rebuilt (R164): inbound slot and bead index. -/
  waiters : List (Nat × Nat) := []
deriving DecidableEq, Repr

/-- Integrity state (07_integrity.md). -/
structure Ecc where
  prots : Tbl Prot := []
  held : List HeldWrite := []
  /-- Beads of the module's own units written once their forwards completed, which the units have not yet seen: the unit's key, the
  bead's address, its data and mark (R159). -/
  wrote : List (Nat × Nat × List Byte × Bool) := []
  gathers : List Gather := []
  /-- Per controller: correctable and uncorrectable counts. -/
  ctlCe : Tbl Nat := []
  ctlUe : Tbl Nat := []
deriving DecidableEq, Repr

/-! ### Directory (16_coherence.md) -/

/-- What the home of a line waits for (R377). -/
inductive Trans where
  | idle
  /-- SI: snoops outstanding, as (target, outbound slot if one is in flight). -/
  | si (targets : List (Nat × Option Nat))
  /-- MX: kind 0 INV, 1 SHARE, 2 COPY; owner; outbound slot if one is in flight. -/
  | mx (kind owner : Nat) (out : Option Nat)
  /-- SI of an M line whose owner is unknown (R373): a broadcast whose data, if any, becomes current. -/
  | lost (targets : List (Nat × Option Nat)) (data : Option (List Byte × Bool))
  /-- A recall of another line for a full log set (R373): SHARE sent to that line's owner. -/
  | recall (owner : Nat) (out : Option Nat)
deriving DecidableEq, Repr

/-- One line at its home (R371–R373). An absent line is I with no copy. -/
structure Line where
  /-- 0 I, 1 S, 2 M (Table 16.2). -/
  st : Nat := 0
  /-- Recorded sharers; none with DIR_EXT = 0. -/
  sharers : Option (List Nat) := none
  /-- Owner of the log entry; none when unknown. -/
  owner : Option Nat := none
  trans : Trans := .idle
  /-- Requests to the line in order of arrival: (inbound slot, bead index). -/
  waiting : List (Nat × Nat) := []
  /-- The first of them is being served. -/
  serving : Bool := false
  /-- An M grant whose line has been read and that waits for room in the log (R373). -/
  grant : Option (List Byte × Bool) := none
  /-- Use stamps: of the store record (least recently used) and of the log entry (least recently written). -/
  usedAt : Nat := 0
  loggedAt : Nat := 0
  /-- When a snoop of it last completed with a retryable status (R378), model time. -/
  retryAt : Nat := 0
deriving DecidableEq, Repr

/-- One directory slice. -/
structure Slice where
  /-- Lines by bead number PA ÷ 64. -/
  lines : Tbl Line := []
  /-- The dead list (R383): endpoints. -/
  dead : List Nat := []
  walking : Bool := false
  walkPending : Bool := false
  /-- Lines lost and reverted since the first walk after the last DEAD_WALK_DONE. -/
  lost : Nat := 0
  reverted : Nat := 0
  stamp : Nat := 0
  /-- Beads whose lines the directory cache covers, most recently used first (Table 16.1). -/
  cache : List Nat := []
  /-- Copies of modified lines fetched for the module's own units (R380): (unit's tag, bead, data, poison). -/
  copies : List (Nat × Nat × List Byte × Bool) := []
deriving DecidableEq, Repr
/-! ### Rods and frames (08_rods.md, 12_determinism.md) -/

/-- Rod states of Table 8.11. CHECKING is what a page shows while the frame's check has taken the rod (`Frame.check`). -/
inductive RodState where
  | idle | running | toTileEnd | saving | zeroing | restoring | checking | quarantined
deriving DecidableEq, Repr

/-- One long accumulator: 640 bits, two's complement, bit 0 of weight 2⁻³²⁰, and its flags (R178, R179). -/
structure Acc where
  val : BitVec 640 := 0
  nan : Bool := false
  posInf : Bool := false
  negInf : Bool := false
  poison : Bool := false
deriving DecidableEq, Repr

/-- One stream cursor (R239): base and size of the ring in bytes of the partition, elements sent or received, the peer's
count as last reported, and the flags. -/
structure Cursor where
  base : Nat := 0
  size : Nat := 0
  count : Nat := 0
  peer : Nat := 0
  valid : Bool := false
  send : Bool := false
  closed : Bool := false
deriving DecidableEq, Repr

/-- The architectural state of a rod (Table 8.1). Registers by number; an absent one holds 0. -/
structure RodRegs where
  s : Tbl Nat := []
  v : Tbl Nat := []
  acc : Tbl Acc := []
  d : Tbl Nat := []
  /-- Poison flags of S, V and D registers, bit per register (R168). -/
  pS : Nat := 0
  pV : Nat := 0
  pD : Nat := 0
  pc : Nat := 0
  /-- The loop in progress: its first instruction, its length in instructions, and the runs left after this one. -/
  loop : Option (Nat × Nat × Nat) := none
  /-- Step counter: TILE [63:20], DRAW [19:0] (R288). -/
  step : Nat := 0
  halted : Bool := false
  codeBytes : Nat := 0
  cursors : Tbl Cursor := []
  /-- Registers S, V, ACC and D that hold a parity error not yet found, bit per register (R168). -/
  eS : Nat := 0
  eV : Nat := 0
  eAcc : Nat := 0
  eD : Nat := 0
deriving DecidableEq, Repr

/-- One write a checked rod made that leaves the rod: at an offset of the frame buffer, or element `n` of a job's stream
(R295). -/
inductive OutWrite where
  | fb (off : Nat) (data : List Byte) (poison : Bool)
  | stream (job i n : Nat) (data : List Byte) (poison : Bool)
deriving DecidableEq, Repr

/-- One physical rod. -/
structure Rod where
  st : RodState := .idle
  ctx : Nat := 0
  /-- Job and stage it runs for, and its index within the stage. -/
  job : Option (Nat × Nat × Nat) := none
  regs : RodRegs := {}
  /-- Scratch bytes by offset, an unlisted byte 0, and the 64-byte lines that carry poison. -/
  scratch : List Host.Cell := []
  badLines : List Nat := []
  /-- Upsets of scratch not yet found: 64-bit word, and the bits of its 72-bit code that are wrong (R169). -/
  upsets : Tbl Nat := []
  /-- The stream wait in progress (R235): the instruction's fields, and whether it sends. -/
  wait : Option (RodWord × Bool) := none
  /-- When the switch under way started, model time (R190), and the schedule entry that is incoming. -/
  switchAt : Nat := 0
  incoming : Option Nat := none
  /-- A switch is under way for it. -/
  switching : Bool := false
  /-- It is replaced by the spare: once zeroed it is QUARANTINED (R187). -/
  leaving : Bool := false
  /-- Save record and live bytes of the entry it was restored under. -/
  home : Option (Nat × Nat) := none
  /-- Outgoing writes of this tile already performed before a vote, which are compared and not performed again (R298). -/
  skip : Nat := 0
  /-- Outgoing writes made in this tile. -/
  writes : Nat := 0
  /-- What the frame buffer and streams gave a tile that runs again, in its order, from its next such read on (R298). -/
  replay : List (List Byte × Bool) := []
  /-- A tile without a majority: everything it writes carries poison (R299). -/
  poisonTile : Bool := false
  /-- It has halted at its STOP_TILE and its record is being written (R290). -/
  stepping : Bool := false
  /-- It stops at its next TILE_END for a JOB_REMOVE (R250). -/
  stopping : Bool := false
deriving DecidableEq, Repr

/-- A sampled check under way (R294–R299). -/
structure Check where
  logical : Nat
  /-- 1 CHECKING, 2 ROLLBACK, 3 VOTING (Table 12.6). -/
  phase : Nat := 1
  snapshot : RodRegs
  /-- Scratch lines before their first write in the tile: line, bytes, poison; newest first. -/
  undo : List (Nat × List Byte × Bool) := []
  /-- R's registers after each instruction that S has not executed yet, with the writes R had made by then. -/
  lag : List (RodRegs × Nat) := []
  /-- Writes of the tile, to scratch and outgoing, that R has made, and those that S has produced alike. -/
  made : Nat := 0
  produced : Nat := 0
  /-- Outgoing writes of R that S has not produced yet, each with its number among R's writes. -/
  held : List (Nat × OutWrite) := []
  /-- What the frame buffer and streams have given the tile, in order. -/
  heard : List (List Byte × Bool) := []
  /-- Outgoing writes performed, and the position of the third rod, once chosen. -/
  performed : Nat := 0
  third : Option Nat := none
  /-- The signatures of R and S up to the writes a vote compares, and how many writes those are; none: to TILE_END (R298). -/
  sigR : Nat := 0
  sigS : Nat := 0
  target : Option Nat := none
  /-- The third rod's writes and its signature so far, and whether it has reached TILE_END. -/
  thirdMade : Nat := 0
  thirdSig : Nat × Nat := (0, 0)
  thirdEnd : Bool := false
deriving DecidableEq, Repr

/-- A tile to run again in its context's next slice, after a vote: logical rod, context, outgoing writes already performed, whether the
tile had no majority, and what its reads gave (R298, R299). -/
structure Redo where
  logical : Nat
  ctx : Nat
  skip : Nat
  poison : Bool
  replay : List (List Byte × Bool)
deriving DecidableEq, Repr

/-- One frame. -/
structure Frame where
  /-- Frame-buffer bytes by offset, an unlisted byte 0, and the 64-byte lines that carry poison. -/
  fb : List Host.Cell := []
  badLines : List Nat := []
  /-- Upsets not yet found, as of scratch (R184). -/
  upsets : Tbl Nat := []
  /-- Owner context each 64 KiB unit was last served under, and the units being zeroed (R185). -/
  owners : Tbl Nat := []
  zeroing : List Nat := []
  /-- Current schedule entry (R188). -/
  cur : Option Nat := none
  /-- Logical rod the spare stands in for; a stand-in requested and its cause (R187). -/
  spareFor : Option Nat := none
  request : Option (Nat × Nat) := none
  /-- Tile starts counted for sampled checking, and the check under way (R294). -/
  tiles : Nat := 0
  check : Option Check := none
  /-- Logical rods, with their contexts, saved while they waited on a stream: their restore is no tile start (R294). -/
  waited : List (Nat × Nat) := []
  /-- Tiles to run again after a vote (R298, R299), and a slice switch that waits for a vote's outcome. -/
  redo : List Redo := []
  heldSwitch : Bool := false
deriving DecidableEq, Repr

/-! ### Jobs, functions, movers (10_pipelines.md) -/

/-- A stream's ring as both ends see it, by job × 256 + stream index: elements written and read since the launch, and the
element from which it is closed with an error (R238). -/
structure StreamSt where
  written : Nat := 0
  taken : Nat := 0
  closed : Option Nat := none
deriving DecidableEq, Repr

/-- A job placed on this module (R244). The manifest's tables are read from its bytes. -/
structure Job where
  ctx : Nat := 0
  launch : Nat := 0
  launched : Bool := false
  manifest : List Byte := []
  /-- Frame and lowest logical rods of each stage. -/
  places : List (Nat × List Nat) := []
  /-- Ring base of each stream in its partition, bytes. -/
  rings : List Nat := []
  /-- Function IDs in function order. -/
  fns : List Nat := []
  /-- JOB_STEP's values (R289). -/
  seed : Nat := 0
  step0 : Nat := 0
  stop : Option Nat := none
  /-- Inbound slot of a JOB_REMOVE that waits for the job's rods (R250). -/
  removing : Option Nat := none
deriving DecidableEq, Repr

/-- Function states of R248. -/
inductive FnState where
  | loaded | enabled | disabling | disabled
deriving DecidableEq, Repr

/-- A call of a function: its inbound slot, whether it is an ATTEND, whether its entry is complete (R276), the entry's
bytes and poison, and whether it was aborted (R248). -/
structure Call where
  slot : Nat
  attend : Bool := false
  ready : Bool := true
  entry : List Byte := []
  poison : Bool := false
  discarded : Bool := false
  /-- Elements of its reply group taken so far, and poison met in them. -/
  reply : List Byte := []
  badReply : Bool := false
  /-- Session of an ATTEND, and the blocks it read (R276). -/
  session : Nat := 0
  blocks : Nat := 0
deriving DecidableEq, Repr

/-- One loaded function (R246–R249). -/
structure Fn where
  job : Nat
  index : Nat
  st : FnState := .loaded
  /-- Mode of the disable: 1 ABORT. -/
  mode : Nat := 0
  waiting : List Call := []
  inPipe : List Call := []
deriving DecidableEq, Repr

/-- Where a transfer stands. -/
inductive XferState where
  | ready | parked | preempted
deriving DecidableEq, Repr

/-- A piece read ahead of its delivery (R256): its source and scale bytes, their poison, the destination bytes it will take, and the
lookaside entries it was read under. -/
structure Ahead where
  /-- Translations of the piece, and the side on which one of them failed: its pending miss. -/
  used : List LkEntry := []
  miss : Option Nat := none
  /-- Source and destination bytes of the piece. -/
  src : Nat
  size : Nat
  /-- Its data, once read: bytes, scale bytes and poison. -/
  read : Bool := false
  data : List Byte := []
  scales : List Byte := []
  bad : Bool := false
deriving DecidableEq, Repr

/-- A REMOTE request of a transfer in flight (R261): its outbound slot, its piece, its side and the VA it names. -/
structure Remote where
  out : Nat
  piece : Nat
  side : Nat
  va : Nat
deriving DecidableEq, Repr

/-- One transfer, from the moment its trigger is read (R253) until it ends. -/
structure Xfer where
  job : Nat
  ctx : Nat
  /-- Stage that reserved the entry, trigger stream, its number on that stream (R292), the trigger and its poison. -/
  stage : Nat
  stream : Nat
  number : Nat
  trigger : List Byte
  bad : Bool := false
  /-- The descriptor, once it has been read. -/
  desc : List Byte := []
  st : XferState := .ready
  /-- Pieces and destination bytes delivered, MEM and REMOTE pieces completed OK. -/
  delivered : Nat := 0
  bytes : Nat := 0
  doneWrites : Nat := 0
  /-- REMOTE writes of the next piece issued so far; REMOTE writes in flight, each with its outbound slot and piece. -/
  parts : Nat := 0
  flight : List Remote := []
  /-- The REMOTE read in flight for the first piece not read; REMOTE reads of it completed, what they brought, and poison. -/
  reading : Option Remote := none
  reads : Nat := 0
  got : List Byte := []
  gotBad : Bool := false
  /-- A status other than OK that a REMOTE completion brought, with the side and VA of its request. -/
  error : Option (Nat × Nat × Nat) := none
  /-- Its end: only the done element is still to be sent, with this status in byte 12. -/
  ending : Option Nat := none
  /-- Run-ahead: the pieces translated, and those of them read, from the next one on (R256). -/
  ahead : List Ahead := []
deriving DecidableEq, Repr

/-- One mover. -/
structure Mover where
  /-- Transfers that hold a trigger entry, in the order in which they run. -/
  xfers : List Xfer := []
  /-- Context of the current turn and bytes delivered in it (R255). -/
  turn : Nat := 0
  turnBytes : Nat := 0
  lookaside : List LkEntry := []
  /-- Bytes of run-ahead discarded (R257). -/
  discarded : Nat := 0
deriving DecidableEq, Repr

/-- Where a job stands at the manager's loader: its placement under way, placed, its removal under way, or gone with its schedule
changes still to be removed (R242, R250). -/
inductive LoadPhase where
  | placing | placed | removing | clearing
deriving DecidableEq, Repr

/-- A request that the loader has still to make of another module: a shadow sync, a register write, the swap or the bank switch at a
tick, or the JOB_PLACE (R242, R243, R348). -/
inductive LoadStep where
  | sync
  | write (a v : Nat)
  | swap (tick : Nat)
  | place
deriving DecidableEq, Repr

/-- A job of the manager's loader and what it reserved (R242, R250). -/
structure Load where
  phase : LoadPhase := .placing
  /-- Inbound slot of the JOB_LOAD or JOB_UNLOAD under way. -/
  slot : Nat
  target : Nat
  job : Nat
  ctx : Nat
  launch : Nat := 0
  manifest : List Byte := []
  places : List (Nat × List Nat) := []
  rings : List Nat := []
  fns : List Nat := []
  /-- Schedule entries filled, as (frame, entry), and counting-board windows added, as (port, start). -/
  entries : List (Nat × Nat) := []
  windows : List (Nat × Nat) := []
  /-- Requests still to be made of another module, the first of them in flight. -/
  todo : List LoadStep := []
deriving DecidableEq, Repr

/-! ### Key-value sessions (11_kvattend.md) -/

/-- A context's KV profile (Table 11.1). -/
structure Profile where
  layers : Nat
  heads : Nat
  d32 : Nat
  tokens : Nat
  nearFmt : Nat
  farFmt : Nat
  fn : Nat
  demote : Bool
  promote : Bool
  farMx : Bool
  high : Nat
  low : Nat
  nearVa : Nat
  nearSlots : Nat
  farVa : Nat
  farSlots : Nat
deriving DecidableEq, Repr

/-- Session states of R265. -/
inductive SessState where
  | free | opened | closing
deriving DecidableEq, Repr

/-- One session record (R264). -/
structure Session where
  gen : Nat := 0
  st : SessState := .free
  ctx : Nat := 0
  btab : Nat := 0
  maxBlocks : Nat := 0
  valid : Nat := 0
  cap : Nat := 0
  shared : Nat := 0
  refs : Nat := 0
  parent : Option Nat := none
  calls : Nat := 0
  lastTick : Nat := 0
  /-- EXPIRE_TICK; none with a lifetime of 0. -/
  expire : Option Nat := none
deriving DecidableEq, Repr

/-- A move of one block (R270–R273): under way, or waiting to free its old slot. -/
structure Move where
  ctx : Nat
  session : Nat
  layer : Nat
  block : Nat
  promote : Bool
  /-- Slot numbers of the old and the new place. -/
  old : Nat
  new : Nat
  /-- After the entry write: inbound slots of the calls accepted before it. -/
  waitFor : Option (List Nat) := none
deriving DecidableEq, Repr

/-- The key-value service. -/
structure Kvs where
  profiles : Tbl Profile := []
  sessions : Tbl Session := []
  limits : Tbl Nat := []
  /-- Near and far slots allocated, per context (Table 11.16). -/
  nearUsed : Tbl Nat := []
  farUsed : Tbl Nat := []
  moves : List Move := []
  /-- Sessions whose promotion an ATTEND queued (R270). -/
  promoting : List Nat := []
  /-- Contexts whose demotion waits for a far slot to be freed (R272). -/
  farFull : List Nat := []
  /-- Contexts whose demotion has started and not fallen to LOW_PCT. -/
  demoting : List Nat := []
deriving DecidableEq, Repr


/-! ### The whole module -/

/-- The state of the module. -/
structure State where
  /-- Model time, ns (assumption 1). -/
  time : Nat := 0
  tick : Tick := {}
  clk : Clk := {}
  pwr : Pwr := {}
  jtag : Jtag := {}
  boot : Boot := {}
  flash : Flash := {}
  cc : Cc := {}
  /-- Shadow and active configuration sets, by window offset of the shadow register (R84). -/
  shadow : RegMap := []
  active : RegMap := []
  /-- Every other register that is its own home, by window offset: RW fields, W1C bits, masks, counts. -/
  regs : RegMap := []
  /-- High halves snapshot by the read of a low half, by window offset of the high half. -/
  snaps : RegMap := []
  /-- Pool memory by physical address; an unlisted byte reads 0 (R51, assumption 10). -/
  mem : List Host.Cell := []
  /-- Bead metadata by bead number PA ÷ 64; an absent bead has M = 0 and no error. -/
  beads : Tbl Meta := []
  xlt : Xlt := {}
  ctl : Tbl Ctl := []
  ecc : Ecc := {}
  dir : Tbl Slice := []
  txn : Txn := {}
  ten : Ten := {}
  mgr : Mgr := {}
  rtr : Rtr := {}
  ports : Tbl Port := []
  qos : Qos := {}
  rods : Tbl Rod := []
  frames : Tbl Frame := []
  streams : Tbl StreamSt := []
  jobs : Tbl Job := []
  fns : Tbl Fn := []
  movers : Tbl Mover := []
  loads : List Load := []
  /-- Inbound slots of JOB_PLACE and JOB_STEP commands the load engine cannot finish yet. -/
  placing : List Nat := []
  kvs : Kvs := {}
  tly : Tly := {}
  /-- Everything sent, oldest first (assumption 13). -/
  out : List Out := []
  /-- Number of the next free value (assumption 14). -/
  freeCtr : Nat := 0
  /-- Commands waiting, first in, first out. -/
  pending : List Instr := []
deriving DecidableEq, Repr

/-- The module right after reset: unpowered, every register at the value its table gives. -/
def State.reset : State := {}

end Sys2Proof.Machine
end

