-- ==== Sys2Proof/Machine/Pages.lean ====
section
/-!
DEFINITION. The register window: page bases, the shadow registers of every page with their reset values and the clamps
their chapters state, and the two configuration sets.
-/

namespace Sys2Proof.Machine

/-- Whether, and as which page and instance, an address of the window belongs to a page (Table 4.2). -/
def pageOf (a : Nat) : Option (PageKind × Nat) :=
  let n := a / 0x1000
  if a ≥ 0x1000000 then none
  else if n = 0 then some (.chip, 0)
  else if n = 1 then some (.boot, 0)
  else if n = 2 then some (.clk, 0)
  else if n = 3 then some (.pwr, 0)
  else if n = 4 then some (.sec, 0)
  else if n = 5 then some (.mgr, 0)
  else if n = 6 then some (.tly, 0)
  else if 0x10 ≤ n ∧ n < 0x20 then some (.lnk, n - 0x10)
  else if n = 0x20 then some (.rtr, 0)
  else if n = 0x30 then some (.txn, 0)
  else if 0x40 ≤ n ∧ n < 0x48 then some (.dir, n - 0x40)
  else if n = 0x50 then some (.xlt, 0)
  else if 0x60 ≤ n ∧ n < 0x64 then some (.nmc, n - 0x60)
  else if 0x70 ≤ n ∧ n < 0x78 then some (.fmc, n - 0x70)
  else if n = 0x80 then some (.ecc, 0)
  else if n = 0x90 then some (.qos, 0)
  else if 0xA0 ≤ n ∧ n < 0xE0 then some (.mov, n - 0xA0)
  else if n = 0xE0 then some (.kvs, 0)
  else if 0x100 ≤ n ∧ n < 0x120 then some (.frm, n - 0x100)
  else if 0x200 ≤ n ∧ n < 0x420 then some (.rod, n - 0x200)
  else none

/-- Base of a page (Table 4.2). -/
def pageBase : PageKind → Nat → Nat
  | .chip, _ => 0x0
  | .boot, _ => 0x1000
  | .clk, _ => 0x2000
  | .pwr, _ => 0x3000
  | .sec, _ => 0x4000
  | .mgr, _ => 0x5000
  | .tly, _ => 0x6000
  | .lnk, p => 0x10000 + 0x1000 * p
  | .rtr, _ => 0x20000
  | .txn, _ => 0x30000
  | .dir, s => 0x40000 + 0x1000 * s
  | .xlt, _ => 0x50000
  | .nmc, n => 0x60000 + 0x1000 * n
  | .fmc, g => 0x70000 + 0x1000 * g
  | .ecc, _ => 0x80000
  | .qos, _ => 0x90000
  | .mov, m => 0xA0000 + 0x1000 * m
  | .kvs, _ => 0xE0000
  | .frm, f => 0x100000 + 0x1000 * f
  | .rod, i => 0x200000 + 0x1000 * i

/-- Block type of a page kind (Table 4.2). -/
def blockType : PageKind → Nat
  | .chip => 0x01 | .boot => 0x02 | .clk => 0x03 | .pwr => 0x04 | .sec => 0x05 | .mgr => 0x06 | .tly => 0x07
  | .lnk => 0x10 | .rtr => 0x11 | .txn => 0x12 | .dir => 0x13 | .xlt => 0x14 | .nmc => 0x15 | .fmc => 0x16
  | .ecc => 0x17 | .qos => 0x18 | .mov => 0x19 | .kvs => 0x1A | .frm => 0x20 | .rod => 0x21

/-- The pages of Table 4.2 of one kind: how many instances. -/
def pageCount : PageKind → Nat
  | .lnk => 16 | .dir => 8 | .nmc => 4 | .fmc => 8 | .mov => 64 | .frm => 32 | .rod => 544
  | _ => 1

/-- Page kind and instance of a controller. -/
def ctlPage (c : Nat) : PageKind × Nat := if c < 4 then (.nmc, c) else (.fmc, c - 4)

/-- Every page of Table 4.2 in order of base. -/
def allPages : List (PageKind × Nat) :=
  [.chip, .boot, .clk, .pwr, .sec, .mgr, .tly, .lnk, .rtr, .txn, .dir, .xlt, .nmc, .fmc, .ecc, .qos, .mov, .kvs, .frm,
    .rod].flatMap fun k => (List.range (pageCount k)).map fun i => (k, i)

/-- Bases of every page of Table 4.2, rising. -/
def allBases : List Nat := allPages.map fun p => pageBase p.1 p.2

/-- The rod word of CLK_ROD_EN of a frame. -/
def State.rodEn (s : State) (f : Nat) : Nat := tblGet s.clk.rodEn f 0

/-- Whether the clock of a page's block runs (R35, R62, R63): the management block's always; a rod or mover also needs
its frame's. -/
def State.clocked (s : State) : PageKind → Nat → Bool
  | .chip, _ | .boot, _ | .clk, _ | .pwr, _ | .sec, _ | .mgr, _ | .tly, _ => true
  | .lnk, p => bit s.clk.enPort p
  | .rtr, _ => bit s.clk.enBlk 15
  | .txn, _ => bit s.clk.enBlk 13
  | .dir, d => bit s.clk.enBlk (4 + d)
  | .xlt, _ => bit s.clk.enBlk 14
  | .nmc, n => bit s.clk.enBlk n
  | .fmc, g => bit s.clk.enPort (16 + g)
  | .ecc, _ => bit s.clk.enBlk 16
  | .qos, _ => bit s.clk.enBlk 17
  | .mov, m => bit s.clk.enFrm (m / 2) && bit (s.rodEn (m / 2)) (17 + m % 2)
  | .kvs, _ => bit s.clk.enBlk 18
  | .frm, f => bit s.clk.enFrm f
  | .rod, i => bit s.clk.enFrm (i / 17) && bit (s.rodEn (i / 17)) (i % 17)

/-- One shadow register: the mask of its SH fields and its reset value. -/
structure ShReg where
  mask : Nat
  reset : Nat
deriving DecidableEq, Repr

/-- The shadow register at an offset of a page: Tables 1.12–1.14, 2.7, 3.3, 3.4, 3.14, 5.13–5.15, 6.9–6.11, 7.10,
7.11, 8.16–8.20, 10.14, 11.12, 13.10–13.16, 14.7–14.9, 15.10–15.12, 16.10, 17.4–17.7, 18.11, 19.8–19.11, 20.6, 20.7.
An offset that names none reads 0 and ignores writes (R81). -/
def shReg : PageKind → (off : Nat) → Option ShReg
  | .pwr, o =>
    if o = 0x040 then some ⟨0xFFFFFFFF, 0x028A0230⟩
    else if o = 0x044 then some ⟨0x0003FFFF, 0x00005A5F⟩
    else if o = 0x048 then some ⟨0x000000FF, 0x000000FF⟩ else none
  | .boot, o => if o = 0x040 then some ⟨0x0000FF01, 0x00003200⟩ else none
  | .clk, o =>
    if o = 0x040 then some ⟨0xFF00FFFF, 0x0A00000A⟩
    else if o = 0x044 then some ⟨0xFFFFFFFF, 0x03E803E8⟩
    else if o = 0x048 then some ⟨0x00000026, 0⟩ else none
  | .xlt, o =>
    if o = 0x040 then some ⟨0xFFF0FFFF, 0x64200064⟩
    else if o = 0x044 then some ⟨0x0000FFFF, 0x000003E8⟩
    else if o = 0x048 ∨ o = 0x04C then some ⟨0x8FFF8FFF, 0⟩ else none
  | .nmc, o =>
    if o = 0x040 then some ⟨0xFFFFFFFF, 0x07D03010⟩
    else if o = 0x044 then some ⟨0xFFFFFFFF, 0x000003E8⟩
    else if o = 0x048 then some ⟨0xFFFFFF00, 0x00640A00⟩ else none
  | .fmc, o =>
    if o = 0x040 then some ⟨0xFFFFFFFF, 0x0FA03010⟩
    else if o = 0x044 then some ⟨0xFFFFFFFF, 0x000003E8⟩
    else if o = 0x048 then some ⟨0xFFFFFF00, 0x00640A00⟩ else none
  | .ecc, o =>
    if o = 0x040 then some ⟨0xFFFFFF00, 0x05A01000⟩
    else if o = 0x044 then some ⟨0xF000FFFF, 0x20000064⟩ else none
  | .frm, o =>
    if o = 0x040 then some ⟨0xFFFFFFFF, 0x00320040⟩
    else if o = 0x044 ∨ o = 0x048 then some ⟨0xFFFFFFFF, 0⟩
    else if 0x060 ≤ o ∧ o < 0x0E0 then
      if o % 16 = 0 then some ⟨0x83FFFFFF, 0x000003E8⟩
      else if o % 16 = 4 then some ⟨0xFF00FF7F, 0⟩
      else if o % 16 = 8 then some ⟨0xFFFFE000, 0⟩
      else some ⟨0x01FFFFFF, 0⟩
    else none
  | .mov, o => if o = 0x040 then some ⟨0xFFFFFFFF, 0x01000410⟩ else none
  | .kvs, o => if o = 0x040 then some ⟨0xF0000000, 0x20000000⟩ else none
  | .lnk, o =>
    if o = 0x040 then some ⟨0xFFFFFF0F, 0x00640A01⟩
    else if o = 0x044 then some ⟨0x0000FFFF, 0x00005A46⟩
    else if o = 0x048 then some ⟨0xFFFFFF00, 0x05DC1000⟩
    else if o = 0x04C then some ⟨0xFFFFFFFC, 0x88B51000⟩
    else if o = 0x050 then some ⟨0x00000FFF, 0⟩
    else if o = 0x054 then some ⟨0x0003FFFF, 0x00025A1E⟩
    else if o = 0x058 then some ⟨0xFFFFFFFF, 0⟩
    else if o = 0x05C then some ⟨0x0000FFFF, 0x02DF⟩ else none
  | .rtr, o =>
    if o = 0x040 then some ⟨0xFFFFFF00, 0x00641000⟩
    else if o = 0x044 then some ⟨0x00000032, 0⟩
    else if o = 0x048 then some ⟨0x0000FFFF, 0x00003010⟩ else none
  | .txn, o =>
    if o = 0x040 then some ⟨0xFFFFFFFF, 0x03E80200⟩
    else if o = 0x044 then some ⟨0xFFFFFFFF, 0x4032012C⟩
    else if o = 0x048 then some ⟨0x0000FFFF, 0x00000100⟩ else none
  | .dir, o => if o = 0x040 then some ⟨0xFFFFF000, 0x000A1000⟩ else none
  | .qos, o =>
    if o = 0x040 then some ⟨0x80FFFFFF, 0x800C03E8⟩
    else if o = 0x044 then some ⟨0x000FFFFF, 0x00000FA0⟩
    else if o = 0x048 then some ⟨0x0000FFFF, 0x00000400⟩
    else if 0x060 ≤ o ∧ o < 0x0A0 then some ⟨0xFF000003, 0x0C000000⟩
    else if 0x0A0 ≤ o ∧ o < 0x160 then some ⟨0xFFFFFFFF, 0x04040404⟩ else none
  | .sec, o => if o = 0x040 then some ⟨0xFFFF0001, 0x03E80001⟩ else none
  | .mgr, o =>
    if o = 0x040 then some ⟨0xFFFFFFFF, 0x138803E8⟩
    else if o = 0x044 then some ⟨0xCFFF0FFF, 0xC0000000⟩
    else if o = 0x048 then some ⟨0x807F0FFF, 0⟩
    else if o = 0x04C then some ⟨0x8000FFFF, 0x00000064⟩ else none
  | .tly, o =>
    if o = 0x040 then some ⟨0xFFFFFFFF, 0x000F4240⟩
    else if o = 0x044 ∨ o = 0x048 then some ⟨0xFFFFFFFF, 0⟩ else none
  | .chip, _ | .rod, _ => none

/-- Field [hi:lo] raised to at least `m`. -/
def floorAt (v hi lo m : Nat) : Nat := if bits v hi lo < m then setBits v hi lo m else v

/-- Field [hi:lo] lowered to at most `m`. -/
def ceilAt (v hi lo m : Nat) : Nat := if bits v hi lo > m then setBits v hi lo m else v

/-- Field [hi:lo] at or above field [hi':lo'] stored as that field minus 1. -/
def below (v hi lo hi' lo' : Nat) : Nat :=
  if bits v hi lo ≥ bits v hi' lo' then setBits v hi lo (bits v hi' lo' - 1) else v

/-- The value a shadow register stores for a written value: reserved bits dropped, each field clamped as its table
states (R31, R86 and the tables named at `shReg`). -/
def shClamp (k : PageKind) (off : Nat) (v : Nat) : Nat :=
  match k with
  | .pwr =>
    if off = 0x040 then
      let v := ceilAt (floorAt v 15 0 200) 15 0 560
      ceilAt (floorAt v 31 16 (bits v 15 0)) 31 16 650
    else if off = 0x044 then ceilAt (floorAt (ceilAt (floorAt v 15 8 70) 15 8 90) 7 0 70) 7 0 95
    else v
  | .boot => floorAt v 15 8 1
  | .clk =>
    if off = 0x040 then floorAt v 31 24 1 else if off = 0x044 then floorAt v 15 0 1 else v
  | .xlt =>
    if off = 0x040 then floorAt (ceilAt (floorAt v 23 20 1) 23 20 8) 15 0 1
    else if off = 0x044 then floorAt v 15 0 100 else v
  | .nmc | .fmc =>
    if off = 0x040 then below (ceilAt (floorAt (floorAt v 31 16 200) 15 8 1) 15 8 64) 7 0 15 8
    else if off = 0x044 then floorAt v 15 0 1
    else floorAt (floorAt v 31 16 1) 15 8 2
  | .ecc =>
    if off = 0x040 then floorAt (floorAt v 31 16 10) 15 8 1
    else floorAt (ceilAt (floorAt v 31 28 1) 31 28 8) 15 0 1
  | .frm =>
    if off = 0x040 then
      let v := floorAt v 31 16 1
      if 1 ≤ bits v 15 0 ∧ bits v 15 0 ≤ 3 then setBits v 15 0 4 else v
    else if 0x060 ≤ off ∧ off % 16 = 0 then floorAt v 15 0 1
    else if 0x060 ≤ off ∧ off % 16 = 4 then
      let v := ceilAt v 31 24 128
      if bits v 6 0 + bits v 15 8 > 128 then setBits v 15 8 (128 - bits v 6 0) else v
    else v
  | .mov => floorAt (floorAt (ceilAt (floorAt v 31 16 4) 31 16 4096) 15 8 1) 7 0 1
  | .kvs => ceilAt (floorAt v 31 28 1) 31 28 8
  | .lnk =>
    if off = 0x040 then
      let v := floorAt (floorAt v 31 16 1) 15 8 1
      if bits v 3 2 ≥ 2 then setBits v 3 2 0 else v
    else if off = 0x044 then below (ceilAt (floorAt v 15 8 8) 15 8 187) 7 0 15 8
    else if off = 0x048 then floorAt (floorAt v 31 16 500) 15 8 1
    else if off = 0x04C then ceilAt (floorAt v 15 2 64) 15 2 2304
    else v
  | .rtr =>
    if off = 0x040 then ceilAt (floorAt (floorAt v 31 16 1) 15 8 4) 15 8 31
    else if off = 0x048 then below (ceilAt (floorAt v 15 8 1) 15 8 64) 7 0 15 8
    else v
  | .txn =>
    if off = 0x040 then floorAt (floorAt v 31 16 1) 15 0 1
    else if off = 0x044 then
      let v := floorAt (floorAt v 31 28 1) 27 16 1
      floorAt v 15 0 (bits v 27 16 * (bits v 31 28 + 1))
    else ceilAt v 15 0 4096
  | .dir => floorAt (ceilAt (floorAt v 15 12 1) 15 12 8) 31 16 1
  | .qos =>
    if off = 0x040 then floorAt v 15 0 1
    else if off = 0x044 then floorAt v 19 0 1
    else if off = 0x048 then floorAt v 15 0 320
    else if 0x0A0 ≤ off then floorAt (floorAt (floorAt (floorAt v 31 24 1) 23 16 1) 15 8 1) 7 0 1
    else v
  | .sec => floorAt v 31 16 1
  | .mgr =>
    if off = 0x040 then floorAt (ceilAt (floorAt v 31 16 1000) 31 16 20000) 15 0 10
    else if off = 0x04C then floorAt v 15 0 10 else v
  | .tly => if off = 0x040 then floorAt v 31 0 1000 else v
  | .chip | .rod => v

/-- The reset value of the shadow register at a window offset. -/
def shReset (a : Nat) : Word :=
  match pageOf a with
  | some (k, _) => match shReg k (a % 0x1000) with
    | some r => BitVec.ofNat 32 r.reset
    | none => 0
  | none => 0

/-- The word a configuration set holds for a shadow offset. -/
def cfgGet (m : RegMap) (a : Nat) : Word := (tblGet? m a).getD (shReset a)

/-- A configuration set with a word stored; the reset value is not listed. -/
def cfgPut (m : RegMap) (a : Nat) (w : Word) : RegMap := if w = shReset a then tblDel m a else tblPut m a w

/-- The active word of a page's register, by its shadow offset (R84). -/
def State.act (s : State) (k : PageKind) (i off : Nat) : Word := cfgGet s.active (pageBase k i + off)

/-- Bits [hi:lo] of an active register. -/
def State.actBits (s : State) (k : PageKind) (i off hi lo : Nat) : Nat := wbits (s.act k i off) hi lo

/-- The reset value of a register that is its own home in `regs`: 0, but for RTR SLOT_TICKS (Table 14.12) and the queue
selected at QOS 0x840 (Table 17.10). -/
def regReset (a : Nat) : Word := if a = 0x20830 then 2560 else if a = 0x90840 then 4 else 0

/-- The word a register of `regs` holds. -/
def State.reg (s : State) (a : Nat) : Word := (tblGet? s.regs a).getD (regReset a)

/-- A register of `regs` set; the reset value is not listed. -/
def State.setReg (s : State) (a : Nat) (w : Word) : State :=
  { s with regs := if w = regReset a then tblDel s.regs a else tblPut s.regs a w }

/-- Bits [hi:lo] of a register of `regs`. -/
def State.regBits (s : State) (a hi lo : Nat) : Nat := wbits (s.reg a) hi lo

/-- A count of `regs` raised, sticking at `cap`. -/
def State.bump (s : State) (a : Nat) (n : Nat := 1) (cap : Nat := 0xFFFFFFFF) : State :=
  s.setReg a (BitVec.ofNat 32 (min ((s.reg a).toNat + n) cap))

/-- One half of a count pair register raised, sticking at 0xFFFF. -/
def State.bumpHalf (s : State) (a hi lo : Nat) : State :=
  let w := s.reg a
  s.setReg a (wset w hi lo (min (wbits w hi lo + 1) 0xFFFF))

/-- Shadow and active registers both set (R48). -/
def State.setBoth (s : State) (a : Nat) (w : Word) : State :=
  { s with shadow := cfgPut s.shadow a w, active := cfgPut s.active a w }

/-- Bits [hi:lo] set in a register of both sets, each keeping its other bits. -/
def State.setBothField (s : State) (a hi lo v : Nat) : State :=
  { s with shadow := cfgPut s.shadow a (wset (cfgGet s.shadow a) hi lo v)
           active := cfgPut s.active a (wset (cfgGet s.active a) hi lo v) }

/-- The module's endpoint ID from its sampled straps (R20); an unsampled strap reads open. -/
def State.ep (s : State) : Nat :=
  let p := s.pwr.sampled.getD {}
  (p.z % 16) * 256 + (p.y % 16) * 16 + p.x % 16

/-- The module is in SERVICE (Table 2.1). -/
def State.inService (s : State) : Bool := s.boot.state == 6

/-- The anti-rollback count (R40), a thermometer of 128 fuses: the count at manufacture, or what a COMMIT has raised it to
(assumption 6). -/
def State.fuses (s : State) : Nat := min 128 (max Config.fuseSvnAtReset s.boot.fuseSvn)

/-- A presence pin read high at strap sampling (R11). -/
def State.mateFault (s : State) : Bool :=
  match s.pwr.sampled with | some p => p.mateAHigh || p.mateBHigh | none => false

/-- A free value (assumption 14), and the state with its number used up. -/
def State.free (s : State) : Nat × State := (Config.free s.freeCtr, { s with freeCtr := s.freeCtr + 1 })

end Sys2Proof.Machine
end

