-- ==== Sys2Proof/Machine/Ops.lean ====
section
/-!
DEFINITION. Operations every family shares: model time and the fabric tick, pool memory and bead metadata, tallies, event
records and page events, and the log of what the module sends.
-/

namespace Sys2Proof.Machine

/-- Outcome of a command that completes in the machine. -/
abbrev Outcome := Host.Outcome State Fault Refusal

/-- The first element of least measure. -/
def leastBy {α : Type} (f : α → Nat) (l : List α) : Option α :=
  l.foldl (fun m x => match m with | none => some x | some y => if f x < f y then some x else some y) none

/-- A command that acts only under a condition and otherwise changes nothing. -/
def onlyIf (c : Bool) (s : State) (f : State → State) : Outcome := .next (if c then f s else s)

/-! ### Model time and the tick (R68, R70, R73; assumption 1) -/

/-- How many extra (or missing) counts a slew takes up in `n` cycles (R70: 1 cycle in 64). -/
def slewTaken (t : Tick) (n : Nat) : Nat := min t.slew.natAbs ((t.phase + n) / 64)

/-- The tick after `n` cycles in which the count is not held. -/
def Tick.run (t : Tick) (n : Nat) : Tick :=
  let k := slewTaken t n
  { t with
    count := if t.slew < 0 then t.count + n - k else t.count + n + k
    slew := if t.slew < 0 then t.slew + k else t.slew - k
    phase := if t.slew.natAbs = k then 0 else (t.phase + n) % 64 }

/-- The tick after `n` cycles: a held count first (R70), then the slew. -/
def Tick.pass (t : Tick) (n : Nat) : Tick :=
  if n ≤ t.hold then { t with hold := t.hold - n }
  else ({ t with hold := 0 } : Tick).run (n - t.hold)

/-- Cycles of the tick PLL in `n` ns: one each, but 9,999 in 10,000 ns while it coasts (Table 3.1, R64). -/
def State.tickCycles (s : State) (n : Nat) : Nat := if bit s.clk.coasting 6 then (s.tick.frac + 9999 * n) / 10000 else n

/-- The ns in which the tick PLL makes `c` cycles. -/
def State.nsForCycles (s : State) (c : Nat) : Nat :=
  if bit s.clk.coasting 6 then (10000 * c - s.tick.frac + 9998) / 9999 else c

/-- `n` ns of model time pass; the tick counts from boot start on. -/
def State.elapse (s : State) (n : Nat) : State :=
  { s with
    time := s.time + n
    tick := if s.boot.started then
        { s.tick.pass (s.tickCycles n) with
          frac := if bit s.clk.coasting 6 then (s.tick.frac + 9999 * n) % 10000 else s.tick.frac }
      else s.tick }

/-- Time passes to `t`, if it is later. -/
def State.elapseTo (s : State) (t : Nat) : State := if s.time < t then s.elapse (t - s.time) else s

/-- Cycles until an unheld count has risen by `d` (R70, R73): with a slew the count rises by 65 or 63 in 64 cycles. -/
def Tick.cyclesFor (t : Tick) (d : Nat) : Nat :=
  if t.slew = 0 then d
  else if 0 < t.slew then
    let y := d + t.phase
    let x := 64 * (y / 65) + min (y % 65) 64
    if x / 64 ≤ t.slew.natAbs then x - t.phase else d - t.slew.natAbs
  else
    let y := d + t.phase
    let x := if y % 63 = 0 then 64 * (y / 63) - 1 else 64 * (y / 63) + y % 63
    if x / 64 ≤ t.slew.natAbs then x - t.phase else d + t.slew.natAbs

/-- Time passes until the tick count is at least `tick` (R73). -/
def State.elapseToTick (s : State) (tick : Nat) : State :=
  if s.tick.count < tick then s.elapse (s.nsForCycles (s.tick.hold + s.tick.cyclesFor (tick - s.tick.count))) else s

/-- Microseconds in ns. -/
def us (n : Nat) : Nat := n * 1000

/-- Milliseconds in ns. -/
def ms (n : Nat) : Nat := n * 1000000

/-! ### Pool memory (R101, R147) -/

/-- The byte a cell list holds; an unlisted byte reads 0 (R51, assumption 10). -/
def cellGet : List Host.Cell → Nat → Byte
  | [], _ => 0
  | (k, v) :: t, a => if a = k then v else cellGet t a

/-- A cell list without an address. -/
def cellDel : List Host.Cell → Nat → List Host.Cell
  | [], _ => []
  | (k, v) :: t, a => if a = k then cellDel t a else (k, v) :: cellDel t a

/-- A cell list with a nonzero byte at an address, addresses rising. -/
def cellIns : List Host.Cell → Nat → Byte → List Host.Cell
  | [], a, b => [(a, b)]
  | (k, v) :: t, a, b =>
    if a < k then (a, b) :: (k, v) :: t else if a = k then (a, b) :: t else (k, v) :: cellIns t a b

/-- A byte written: the value an unlisted address reads as is not listed. -/
def cellPut (m : List Host.Cell) (a : Nat) (b : Byte) : List Host.Cell := if b = 0 then cellDel m a else cellIns m a b

/-- Addresses strictly rising from `lo`, and no listed byte 0. -/
def cellsFrom : Nat → List Host.Cell → Bool
  | _, [] => true
  | lo, (k, v) :: t => decide (lo ≤ k) && decide (v ≠ 0) && cellsFrom (k + 1) t

/-- The canonical form of memory. -/
def Memory.wf (m : List Host.Cell) : Bool := cellsFrom 0 m

/-- The byte of pool memory at a physical address. -/
def State.byteAt (s : State) (a : Nat) : Byte := cellGet s.mem a

/-- Bytes written to consecutive addresses. -/
def cellPuts : List Host.Cell → Nat → List Byte → List Host.Cell
  | m, _, [] => m
  | m, a, b :: t => cellPuts (cellPut m a b) (a + 1) t

/-- `n` bytes of pool memory from a physical address. -/
def State.readMem (s : State) (a n : Nat) : List Byte := (List.range n).map fun i => s.byteAt (a + i)

/-- Bytes written to pool memory. -/
def State.writeMem (s : State) (a : Nat) (b : List Byte) : State := { s with mem := cellPuts s.mem a b }

/-- `n` bytes from `a` on zeroed. -/
def State.zeroMem (s : State) (a n : Nat) : State :=
  { s with mem := s.mem.filter fun c => decide (c.1 < a ∨ a + n ≤ c.1) }

/-- Metadata of a bead; absent metadata is clean (Table 7.2). -/
def State.metaOf (s : State) (bead : Nat) : Meta := tblGet s.beads bead {}

/-- Metadata of a bead set; the clean value is not listed. -/
def State.setMeta (s : State) (bead : Nat) (m : Meta) : State :=
  { s with beads := if m = {} then tblDel s.beads bead else tblPut s.beads bead m }

/-- ECC_INJECT is armed for the bead at `pa` (R166). -/
def State.injecting (s : State) (pa : Nat) : Bool :=
  wbit (s.reg 0x80800) 0 && (wbits (s.reg 0x80804) 31 6 * 64 + wbits (s.reg 0x80808) 15 0 * 2 ^ 32) == pa / 64 * 64

/-- The metadata an injection leaves (R166): one or two symbols corrupted, which and how being free values (assumption 14),
or the POISON mark of a failed beam parity or a header's flag. -/
def State.inject' (s : State) (m : Meta) : State × Meta :=
  let kind := s.regBits 0x80800 2 1
  let s := s.setReg 0x80800 (wset (s.reg 0x80800) 0 0 0)
  if 2 ≤ kind then (s, { m with poison := true })
  else
    let (a, s) := s.free
    let (d, s) := s.free
    let first := (a % 36, d % 65535 + 1)
    if kind = 0 then (s, { m with errs := [first] })
    else
      let (b, s) := s.free
      let (e, s) := s.free
      (s, { m with errs := [first, ((a + 1 + b % 35) % 36, e % 65535 + 1)] })

/-- One bead written whole with its POISON flag: the codeword is valid again unless an injection is armed for the bead; the
directory bits stay (R145, R147, R166). -/
def State.writeBead (s : State) (pa : Nat) (data : List Byte) (poison : Bool) : State :=
  let m : Meta := { s.metaOf (pa / 64) with poison := poison, errs := [] }
  let s := s.writeMem (pa / 64 * 64) ((data ++ zeroBytes 64).take 64)
  if s.injecting pa then
    let (s, m) := s.inject' m
    s.setMeta (pa / 64) m
  else s.setMeta (pa / 64) m

/-- `n` bytes from `a` on (whole beads) zeroed with metadata clean (R51, R114). -/
def State.zeroBeads (s : State) (a n : Nat) : State :=
  let s := s.zeroMem a n
  let s := { s with beads := tblFilter s.beads fun b _ => decide (b < a / 64 ∨ (a + n + 63) / 64 ≤ b) }
  let t := wbits (s.reg 0x80804) 31 6 * 64 + wbits (s.reg 0x80808) 15 0 * 2 ^ 32
  if s.injecting t && a ≤ t && t < a + n then s.writeBead t [] false else s

/-! ### PA windows (R101, Table 5.1) -/

/-- The window, hence the controller 0–11, of a physical address. -/
def windowOf (pa : Nat) : Option Nat :=
  if pa < 2 ^ 38 then some (pa / 2 ^ 36)
  else if 2 ^ 40 ≤ pa ∧ pa < 2 ^ 40 + 2 ^ 41 then some (4 + (pa - 2 ^ 40) / 2 ^ 38) else none

/-- Base of a window. -/
def windowBase (w : Nat) : Nat := if w < 4 then w * 2 ^ 36 else 2 ^ 40 + (w - 4) * 2 ^ 38

/-- Populated length of a healthy controller's window in 2 MiB units. -/
def windowUnits (w : Nat) : Nat := if w < 4 then 17166 else 108480

/-- A controller is healthy at this boot. -/
def State.ctlOk (s : State) (w : Nat) : Bool := if w < 4 then bit s.boot.nmcOk w else bit s.boot.fmcOk (w - 4)

/-- Home slice of a controller's window (R368). -/
def sliceOf (c : Nat) : Nat := if c < 4 then 2 * c else 2 * ((c - 4) / 2) + 1

/-- A controller and the home slice of its window are healthy at this boot (R368). -/
def State.winOk (s : State) (w : Nat) : Bool := s.ctlOk w && bit s.boot.dirOk (sliceOf w)

/-- XLT_WIN_LEN (R101, R368): 0 for an unhealthy controller or home slice. -/
def State.winLen (s : State) (w : Nat) : Nat := if s.winOk w then windowUnits w else 0

/-! ### Tallies (R442–R449) -/

/-- Whether a selection's QUAL takes an occurrence's: port and VC events take 7 as every VC (Table 20.2). -/
def qualTakes (event selQual qual : Nat) : Bool :=
  selQual == qual ||
    ((event == 0x60 || event == 0x61 || (0x70 ≤ event && event ≤ 0x77)) && selQual % 8 == 7 &&
      selQual / 16 == qual / 16)

/-- Whether counter selection `sel` counts an occurrence caused by context `ctx` (R443, R447). -/
def selCounts (sel : Word) (event qual : Nat) (ctx : Option Nat) : Bool :=
  event != 0 && wbits sel 7 0 == event && qualTakes event (wbits sel 15 8) qual &&
    (!wbit sel 31 || ctx == some (wbits sel 25 16))

/-- One counter of a page raised modulo 2⁴⁸, a wrap setting its OVF bit (R444). -/
def TallyPage.add (t : TallyPage) (n amount : Nat) : TallyPage :=
  let v := tblGet t.val n 0 + amount
  { t with val := tblPut t.val n (v % 2 ^ 48), ovf := if v < 2 ^ 48 then t.ovf else setBit t.ovf n true }

/-- An event counted by every counter of a page that selects it; a gated block counts nothing (R443, R448). -/
def State.tally (s : State) (k : PageKind) (i event qual : Nat) (amount : Nat := 1) (ctx : Option Nat := none) : State :=
  match tblGet? s.tly.pages (pageBase k i) with
  | none => s
  | some t =>
    if s.clocked k i then
      let t := t.sel.foldl (fun t c => if selCounts c.2 event qual ctx then t.add c.1 amount else t) t
      { s with tly := { s.tly with pages := tblPut s.tly.pages (pageBase k i) t } }
    else s

/-! ### Event records and page events (R116–R119, R455, R458) -/

/-- Ring number of the manager ring; context rings are 0–1,023. -/
def mgrRing : Nat := 1024

/-- A ring. -/
def State.ring (s : State) (r : Nat) : Ring := tblGet s.xlt.rings r {}

/-- A ring set. -/
def State.setRing (s : State) (r : Nat) (v : Ring) : State :=
  { s with xlt := { s.xlt with rings := tblPut s.xlt.rings r v } }

/-- Base PA of a ring. -/
def Ring.base (r : Ring) : Nat := wbits r.ringHi 15 0 * 2 ^ 32 + wbits r.ringLo 31 6 * 64

/-- N of a ring (R116). -/
def Ring.entries (r : Ring) : Nat := 2 ^ wbits r.ringHi 19 16

/-- RING_EN. -/
def Ring.enabled (r : Ring) : Bool := wbit r.ringLo 0

/-- First PA of an extent and its length in bytes. -/
def Extent.base (e : Extent) : Nat := e.base2m * 0x200000

/-- Length of an extent in bytes. -/
def Extent.bytes (e : Extent) : Nat := e.len2m * 0x200000

/-- An extent record. -/
def State.extent (s : State) (id : Nat) : Extent := tblGet s.xlt.extents id {}

/-- An extent record set. -/
def State.setExtent (s : State) (id : Nat) (e : Extent) : State :=
  { s with xlt := { s.xlt with extents := tblPut s.xlt.extents id e } }

/-- Whether `n` bytes from `a` lie inside an extent. -/
def Extent.holds (e : Extent) (a n : Nat) : Bool := decide (e.base ≤ a ∧ a + n ≤ e.base + e.bytes)

/-- The extent, not FREE, in which `n` bytes from `a` lie. -/
def State.extentAt (s : State) (a n : Nat) : Option (Nat × Extent) :=
  s.xlt.extents.find? fun e => e.2.st != .free && e.2.holds a n

/-- Whether a ring can be reached: enabled and its N + 1 beads inside one ACTIVE extent of the right kind and owner
(R116, R119). -/
def State.ringReach (s : State) (n : Nat) : Bool :=
  let r := s.ring n
  r.enabled && match s.extentAt r.base ((r.entries + 1) * 64) with
    | some (_, e) => e.st == .active && (if n = mgrRing then e.kind == 2 else e.kind == 0 && e.owner == n)
    | none => false

/-- QUAL of TLY events 0xB0 and 0xB1 for a ring. -/
def ringQual (n : Nat) : Nat := if n = mgrRing then 1 else 0

/-- A record of a ring dropped: counted in OVERFLOW of a reachable ring, which its control bead is then owed, else in RING_OVF (R118,
R119, R458). -/
def State.dropRecord (s : State) (n : Nat) : State :=
  let r := s.ring n
  let s := s.tally .tly 0 0xB1 (ringQual n) 1 (if n = mgrRing then none else some n)
  if s.ringReach n then
    let o := stick32 (r.overflow + 1)
    s.setRing n { r with overflow := o, ovf := stick32 (r.ovf + 1), owedOvf := true }
  else s.setRing n { r with ovf := stick32 (r.ovf + 1) }

/-- A record enters a ring's on-die queue of 64; a full queue holds a fault-class record's unit and drops any other record
(R458). -/
def State.enqueue (s : State) (n : Nat) (rec : Record) : State :=
  let r := s.ring n
  if r.queue.length < 64 then s.setRing n { r with queue := r.queue ++ [rec] }
  else if rec.cls = 0 then s.setRing n { r with held := r.held ++ [rec] }
  else s.dropRecord n

/-- The PAGE_EVENT record of R455. -/
def pageEventRecord (base b : Nat) : Record := { typ := 0x0001, cls := 2, source := 0x4000, detail := leBytes 4 base ++ [byte b] }

/-- A PAGE_EVENT bit raised; from 0 to 1 while unmasked it posts one record to the manager ring (R455). -/
def State.raise (s : State) (k : PageKind) (i b : Nat) : State :=
  let base := pageBase k i
  let w := s.reg (base + 8)
  if wbit w b then s
  else
    let s := s.setReg (base + 8) (wset w b b 1)
    if wbit (s.reg (base + 0xC)) b then s else s.enqueue mgrRing (pageEventRecord base b)

/-- A record posted to a ring. A manager-ring record that is dropped raises XLT PAGE_EVENT bit 3. -/
def State.post (s : State) (n : Nat) (rec : Record) : State :=
  let full := n = mgrRing ∧ 64 ≤ (s.ring n).queue.length ∧ rec.cls ≠ 0
  let s := s.enqueue n rec
  if full then s.raise .xlt 0 3 else s

/-- A record posted to the manager ring. -/
def State.postMgr (s : State) (rec : Record) : State := s.post mgrRing rec

/-- A record posted to a context's ring, its CONTEXT field set. -/
def State.postCtx (s : State) (ctx : Nat) (rec : Record) : State := s.post ctx { rec with ctx := ctx }

/-- Bytes laid at their offsets in a 32-byte DETAIL. -/
def detail (parts : List (Nat × List Byte)) : List Byte := parts.foldl (fun d p => overlay d p.1 p.2) (zeroBytes 32)

/-! ### What the module sends -/

/-- One thing sent, logged (assumption 13). -/
def State.emit (s : State) (o : Out) : State := { s with out := s.out ++ [o] }

/-! ### A unit's queues and the beam before them (R129, R131) -/

/-- A request that is a full write. -/
def MemReq.isWrite (r : MemReq) : Bool := match r.op with | .write _ _ => true | _ => false

/-- The queue of a request's kind holds fewer than 64 entries (R129). -/
def Unit.room (v : Unit) (r : MemReq) : Bool := decide ((if r.isWrite then v.writes else v.reads).length < 64)

/-- A request behind the others of its kind. -/
def Unit.push (v : Unit) (r : MemReq) : Unit :=
  if r.isWrite then { v with writes := v.writes ++ [r] } else { v with reads := v.reads ++ [r] }

/-- Requests of the beam that find room enter their queues, oldest of each kind first; the age of each counts from then (R130). -/
def Unit.fromBeam (v : Unit) (now : Nat) : Unit :=
  let (v, rest) := v.beam.foldl (fun (a : Unit × List MemReq) r =>
    if a.1.room r && !(a.2.any fun x => x.isWrite == r.isWrite) then (a.1.push { r with at_ := now }, a.2) else (a.1, a.2 ++ [r])) (v, [])
  { v with beam := rest }

end Sys2Proof.Machine
end

