-- ==== Sys2Proof/Machine/Flash.lean ====
section
/-!
DEFINITION. The configuration flash (02_bringup.md): retained copies and their validity, the counter journal, and the layout of
Table 2.2.
-/

namespace Sys2Proof.Machine

/-- Key identifier: the first 8 bytes of SHAKE256(key) (R96). -/
def keyIdent (key : Nat) : Nat := Config.shake256 64 (leBytes 32 key) % 2 ^ 64

/-! ### Flash records (R45–R49, R461, R463) -/

/-- Bytes of a retained copy that its tag covers (Table 2.4). -/
def RetCopy.bytes (r : RetCopy) : List Byte :=
  leBytes 4 r.magic ++ leBytes 4 r.version ++ leBytes 8 r.seq ++ leBytes 4 (8 * r.entries.length) ++ zeroBytes 12 ++
    r.entries.flatMap fun e => leBytes 4 e.1 ++ leBytes 4 e.2

/-- The tag a copy must carry (Table 2.4; the customisation string is the empty one, assumption 24). -/
def RetCopy.tagOf (r : RetCopy) : Nat := Config.kmac256 Config.retainedKey r.bytes 512 "" % 2 ^ 512

/-- A copy is valid (R47). -/
def RetCopy.valid (r : RetCopy) : Bool :=
  r.magic == 0xF5120C0F && r.version == 1 && 8 * r.entries.length + 96 ≤ 2 ^ 20 && r.tag == r.tagOf

/-- The tag of a counter-journal entry (Table 2.4b). -/
def JEntry.tagOf (e : JEntry) : Nat :=
  Config.kmac256 Config.retainedKey ([byte e.slot] ++ zeroBytes 7 ++ leBytes 8 e.keyId ++ leBytes 8 e.floor ++ leBytes 8 e.seq)
    256 "FRENTO-JRNL-1" % 2 ^ 256

/-- Journal entries, oldest first. -/
def Flash.entries (f : Flash) : List JEntry := f.journal.flatten

/-- The valid entry of a slot with the highest journal sequence number (R461). -/
def Flash.latest (f : Flash) (slot : Nat) : Option JEntry :=
  (f.entries.filter fun e => e.slot == slot && e.tag == e.tagOf).foldl (fun b e => match b with
    | some x => if x.seq < e.seq then some e else b
    | none => some e) none

/-- The next journal sequence number; the first of an empty journal is 1 (assumption 146). -/
def Flash.nextSeq (f : Flash) : Nat := f.entries.foldl (fun m e => max m (e.seq + 1)) 1

/-- A new entry, sealed. -/
def Flash.makeEntry (f : Flash) (slot keyId floor : Nat) : JEntry :=
  let e : JEntry := { slot := slot, keyId := keyId, floor := floor, seq := f.nextSeq, tag := 0 }
  { e with tag := e.tagOf }

/-- An entry put after the last one of the newest sector. -/
def Flash.put (f : Flash) (e : JEntry) : Flash :=
  match f.journal.reverse with
  | [] => { f with journal := [[e]] }
  | last :: t => { f with journal := (t.reverse) ++ [last ++ [e]] }

/-- Room made for an entry (R461): a full newest sector opens the next; with the last of the 16 sectors opened, the oldest
is erased once its entries still the latest of their slots are copied forward. -/
def Flash.makeRoom (f : Flash) : Flash :=
  match f.journal.reverse with
  | [] => f
  | last :: _ =>
    if last.length < 64 then f
    else if f.journal.length < 15 then { f with journal := f.journal ++ [[]] }
    else
      let live := (f.journal.headD []).filter fun e => f.latest e.slot == some e
      let f' := { f with journal := f.journal ++ [[]] }
      let f' := live.foldl (fun f e => f.put (f.makeEntry e.slot e.keyId e.floor)) f'
      { f' with journal := f'.journal.drop 1 }

/-- A counter floor journalled. -/
def Flash.journalFloor (f : Flash) (slot keyId floor : Nat) : Flash :=
  let f := f.makeRoom
  f.put (f.makeEntry slot keyId floor)

/-! ### Layout (R38, Table 2.2) -/

/-- A byte of a list, and 0xFF, as erased flash reads, past its end (assumption 147). -/
def flashByte (b : List Byte) (i : Nat) : Byte := b.getD i 0xFF

/-- The flash header: magic, layout version and active-slot hint, then the vendor signature of R403 with the device public key it
covers (their order: assumption 147). -/
def Flash.header (f : Flash) : List Byte := leBytes 4 f.magic ++ leBytes 4 f.layout ++ leBytes 4 f.hint ++ Config.attestCert

/-- A retained copy as it lies in its region: Table 2.4. -/
def RetCopy.onFlash (r : RetCopy) : List Byte := r.bytes ++ leBytes 64 r.tag

/-- A counter-journal entry as it lies in its sector: Table 2.4b. -/
def JEntry.onFlash (e : JEntry) : List Byte :=
  [byte e.slot] ++ zeroBytes 7 ++ leBytes 8 e.keyId ++ leBytes 8 e.floor ++ leBytes 8 e.seq ++ leBytes 32 e.tag

/-- The byte at an address of the configuration flash. -/
def Flash.byteAt (f : Flash) (a : Nat) : Byte :=
  if a < 0x10000 then flashByte f.header a
  else if a < 0x2010000 then flashByte (f.slotA.getD []) (a - 0x10000)
  else if a < 0x4010000 then flashByte (f.slotB.getD []) (a - 0x2010000)
  else if a < 0x4110000 then flashByte ((f.copy0.map (·.onFlash)).getD []) (a - 0x4010000)
  else if a < 0x4210000 then flashByte ((f.copy1.map (·.onFlash)).getD []) (a - 0x4110000)
  else if a < 0x4220000 then
    flashByte ((f.journal.getD ((a - 0x4210000) / 0x1000) []).flatMap JEntry.onFlash) ((a - 0x4210000) % 0x1000)
  else 0xFF

end Sys2Proof.Machine
end

