-- ==== Sys2Proof/Machine/Flags.lean ====
section
/-!
DEFINITION. Completion status codes (Table 0.5) and the values every completion or page status computes from the state:
the load level (R361) and per-host level (R398).
-/

namespace Sys2Proof.Machine

/-! ### Table 0.5 -/

abbrev stOk : Nat := 0x00
abbrev stPoison : Nat := 0x01
abbrev stRevoked : Nat := 0x02
abbrev stNoTranslation : Nat := 0x03
abbrev stPermission : Nat := 0x04
abbrev stLinkDown : Nat := 0x05
abbrev stKeyRetired : Nat := 0x06
abbrev stContextGone : Nat := 0x07
abbrev stFnDisabled : Nat := 0x08
abbrev stRateDrop : Nat := 0x09
abbrev stTimeout : Nat := 0x0A
abbrev stAuthFail : Nat := 0x0B
abbrev stBusy : Nat := 0x0C
abbrev stMalformed : Nat := 0x0D
abbrev stUnsupported : Nat := 0x0E
abbrev stBusError : Nat := 0x0F
abbrev stQuota : Nat := 0x10
abbrev stRefusedLoad : Nat := 0x11

/-- Statuses whose Retry column reads Yes (R378): LINK_DOWN, RATE_DROP, TIMEOUT, BUSY_RETRY. -/
def retryable (st : Nat) : Bool := st == stLinkDown || st == stRateDrop || st == stTimeout || st == stBusy

/-- Whether a packet's data is marked poisoned: OK becomes POISON (R147). -/
def okOrPoison (poison : Bool) : Nat := if poison then stPoison else stOk

/-! ### Token buckets (R385, R386) -/

/-- A rate of 0 Mb/s is stored as 1. -/
def rateOf (r : Nat) : Nat := if r = 0 then 1 else r

/-- Tokens for a number of bytes. A token is 2⁻¹⁶ byte; the model counts 125ths of it, in which a rate of 1 Mb/s adds
1,024 a nanosecond exactly. -/
def tokensOf (bytes : Nat) : Nat := bytes * 65536 * 125

/-- Tokens of a burst in units of 256 B; below 80 KiB it is stored as 80 KiB. -/
def burstOf (b : Nat) : Nat := tokensOf ((if b < 320 then 320 else b) * 256)

/-- A bucket brought up to date: R Mb/s adds R ÷ 8,000 bytes per ns, never above the burst. -/
def Bucket.fill (b : Bucket) (rate burst now : Nat) : Bucket :=
  { tokens := min (burstOf burst : Int) (b.tokens + ((rateOf rate * 1024 * (now - b.at_) : Nat) : Int)), at_ := now }

/-- A bucket reset at `now`: to its burst or to 0 (R395). -/
def Bucket.restart (full : Bool) (burst now : Nat) : Bucket :=
  { tokens := if full then burstOf burst else 0, at_ := now }

/-- The bucket holds at least the tokens of `bytes`. -/
def Bucket.covers (b : Bucket) (bytes : Nat) : Bool := decide ((tokensOf bytes : Int) ≤ b.tokens)

/-- The bucket holds more than 0 tokens. -/
def Bucket.positive (b : Bucket) : Bool := decide (0 < b.tokens / 125)

/-- Tokens taken. -/
def Bucket.take (b : Bucket) (bytes : Nat) : Bucket := { b with tokens := b.tokens - tokensOf bytes }

/-! ### Load level (R361, R398) -/

/-- Load-level floor of each throttle step (Table 1.11). -/
def stepLoad (step : Nat) : Nat := if step < 3 then 2 * step else 7

/-- The first three terms of R361. -/
def State.loadBase (s : State) : Nat :=
  atMost 7 (max (stepLoad s.pwr.stepForce) (max (8 * s.txn.inUsed / 65536) (8 * s.txn.dbufUsed / 65536)))

/-- The valid host record of an endpoint (R397). -/
def State.hostOf (s : State) (ep : Nat) : Option (Nat × HostRec) :=
  s.qos.hosts.find? fun h => wbit h.2.key 31 && wbits h.2.key 11 0 == ep

/-- HOST_OVH. -/
def State.hostOvh (s : State) : Nat := s.actBits .qos 0 0x040 23 16

/-- Bytes of completions waiting at a host shaper. -/
def HostRec.backlog (h : HostRec) : Nat := (h.waiting.map fun w => w.1.length * 4).sum

/-- The per-host level of a host record now (R398). -/
def State.hostLevel (s : State) (h : HostRec) : Nat :=
  let b := h.bucket.fill h.rate h.burst s.time
  let behind := tokensOf h.backlog + (-b.tokens).toNat
  let ns := behind * 8000 / (rateOf h.rate * tokensOf 1)
  atMost 7 (ns / max 1 (s.actBits .qos 0 0x040 15 0))

/-- LOAD of a completion to an endpoint (R361). -/
def State.loadFor (s : State) (ep : Nat) : Nat :=
  match s.hostOf ep with
  | some (_, h) => max s.loadBase (s.hostLevel h)
  | none => s.loadBase

end Sys2Proof.Machine
end

