-- ==== Sys2Proof/Machine/Operands.lean ====
section
/-!
DEFINITION. The packets of the transaction layer: their types and channels (Table 0.6), the three header forms (Tables
15.1–15.4), the shape each type must have, and the security prefix's inputs to the cipher (R413).
-/

namespace Sys2Proof

open Sys2Proof.Machine

/-! ### Types (Table 0.6) -/

abbrev tRead : Nat := 0x01
abbrev tReadShared : Nat := 0x02
abbrev tReadOwn : Nat := 0x03
abbrev tReadNoalloc : Nat := 0x04
abbrev tWrite : Nat := 0x08
abbrev tWritePartial : Nat := 0x09
abbrev tWriteback : Nat := 0x0A
abbrev tAtomic : Nat := 0x0C
abbrev tSnoopInv : Nat := 0x10
abbrev tSnoopShare : Nat := 0x11
abbrev tSnoopCopy : Nat := 0x12
abbrev tInval : Nat := 0x14
abbrev tAttend : Nat := 0x18
abbrev tInvoke : Nat := 0x19
abbrev tCmd : Nat := 0x1C
abbrev tCmpl : Nat := 0x1D
abbrev tTickSync : Nat := 0x1E

/-- The type codes of Table 0.6. -/
def knownType (t : Nat) : Bool :=
  [tRead, tReadShared, tReadOwn, tReadNoalloc, tWrite, tWritePartial, tWriteback, tAtomic, tSnoopInv, tSnoopShare,
    tSnoopCopy, tInval, tAttend, tInvoke, tCmd, tCmpl, tTickSync].contains t

/-- Types with the memory form (R353). -/
def memoryForm (t : Nat) : Bool :=
  [tRead, tReadShared, tReadOwn, tReadNoalloc, tWrite, tWritePartial, tWriteback, tAtomic, tSnoopInv, tSnoopShare,
    tSnoopCopy].contains t

/-- Types not carried in Ethernet personality (Table 0.6). -/
def notOnEthernet (t : Nat) : Bool :=
  [tReadShared, tReadOwn, tWriteback, tSnoopInv, tSnoopShare, tSnoopCopy].contains t

/-- A completion: CMPL, or an ATTEND reply (R355). -/
def Packet.isCompletion (p : Packet) : Bool := p.typ == tCmpl || (p.typ == tAttend && p.qual % 2 == 1)

/-- The virtual channel of a type (Table 0.6): a CMD travels on the channel its packet names, and so do a mover's payloads, on VC5
BULK. -/
def Packet.channel (p : Packet) : Nat :=
  if p.typ = tCmd then p.vc
  else if p.typ = tWrite ∨ p.typ = tWritePartial then (if p.vc = 5 then 5 else 4)
  else if p.typ = tWriteback then 4
  else if p.typ = tSnoopInv ∨ p.typ = tSnoopShare ∨ p.typ = tSnoopCopy then 2
  else if p.typ = tInval ∨ p.typ = tTickSync then 0
  else if p.typ = tAttend then 5
  else if p.typ = tCmpl then (if p.body.isEmpty then 3 else 4)
  else 1

/-- The packet a row of one TYPE receives. -/
def Packet.ofType (p : Packet) (t : Nat) : Packet := { p with typ := t }

/-- The packet a row of one ATOMIC sub-op receives: QUAL[1:0] is the sub-op. -/
def Packet.ofAtomic (p : Packet) (sub : Nat) : Packet := { p with typ := tAtomic, qual := setBits p.qual 1 0 sub }

/-- The packet a row of one CMD opcode receives: body byte 0 is the opcode (R76). -/
def Packet.ofCmd (p : Packet) (op : Nat) : Packet := { p with typ := tCmd, body := byte op :: p.body.drop 1 }

/-! ### Header forms -/

/-- RETRY (R364). -/
def Packet.retry (p : Packet) : Bool := !p.isCompletion && bit p.qual 3

/-- ADDR of the memory form. -/
def Packet.addr (p : Packet) : Nat := p.form

/-- Beads a memory request covers (R353). -/
def Packet.beads (p : Packet) : Nat :=
  if p.typ = tRead ∨ p.typ = tReadNoalloc ∨ p.typ = tWrite then p.qual % 8 + 1 else 1

/-- SRC_EP of the context and completion forms. -/
def Packet.srcEp (p : Packet) : Nat := p.form % 4096

/-- SENDER_EP and DIR of a prefix (Table 18.5). -/
def Prefix.ep (x : Prefix) : Nat := x.sender % 4096
def Prefix.dir (x : Prefix) : Bool := bit x.sender 12

/-- The source of a packet: the prefix's endpoint in the memory form (R353), SRC_EP otherwise. -/
def Packet.src (p : Packet) : Nat :=
  if memoryForm p.typ then (match p.sec with | some x => x.ep | none => 0) else p.srcEp

/-- CONTEXT of the context form. -/
def Packet.context (p : Packet) : Nat := bits p.form 25 16

/-- ARG of the context form. -/
def Packet.arg (p : Packet) : Nat := bits p.form 63 32

/-- STATUS, LOAD, LAST, SYNTH and DATA_OFF of the completion form (Table 15.4). -/
def Packet.status (p : Packet) : Nat :=
  let n := bits p.form 16 12
  if 0x12 ≤ n then stUnsupported else n
def Packet.last (p : Packet) : Bool := bit p.form 20
def Packet.dataOff (p : Packet) : Nat := bits p.form 63 32

/-- The completion form's bytes 8–15. -/
def completionForm (src status load : Nat) (last synth dup : Bool) (off : Nat) : Nat :=
  src % 4096 + (status % 32) * 2 ^ 12 + (load % 8) * 2 ^ 17 + b2n last * 2 ^ 20 + b2n synth * 2 ^ 21 + b2n dup * 2 ^ 22 +
    (off % 2 ^ 32) * 2 ^ 32

/-- The context form's bytes 8–15. -/
def contextForm (src ctx arg : Nat) : Nat := src % 4096 + (ctx % 1024) * 2 ^ 16 + (arg % 2 ^ 32) * 2 ^ 32

/-- Opcode of a CMD. -/
def Packet.opcode (p : Packet) : Nat := field p.body 0 1

/-- A CMD other than a critical one: its own body, from byte 8 on (R76). -/
def Packet.own (p : Packet) : List Byte := p.body.drop 8

/-- CMD opcodes that a row of the opcode table receives (Tables 4.1, 4.13, 7.8, 10.6, 11.4). -/
def namedOps : List Nat :=
  [0x01, 0x02, 0x03, 0x04, 0x08, 0x09, 0x0A, 0x0B, 0x0C, 0x0D, 0x10, 0x11, 0x12, 0x40, 0x41, 0x42, 0x43, 0x90, 0x91, 0x92,
    0xA0, 0xA1, 0xA2, 0xA3, 0xA4, 0xA5, 0xA6, 0xA7, 0xA8, 0xA9, 0xB0, 0xB1, 0xB2, 0xB3, 0xB4, 0xB5, 0xB6, 0xB7,
    0xC0, 0xC1, 0xC3, 0xC5, 0xD0, 0xD1, 0xD8]

/-- A packet of a TYPE or opcode that no row of the opcode table receives. -/
def Packet.unnamed (p : Packet) : Bool :=
  if p.typ = tCmd then !namedOps.contains p.opcode else !knownType p.typ

/-- A critical command: opcodes 0x01–0x3F (Table 4.1). -/
def Packet.critical (p : Packet) : Bool := p.typ == tCmd && 0x01 ≤ p.opcode && p.opcode ≤ 0x3F

/-- Bytes of a packet by its LENGTH (Table 15.1). -/
def Packet.bytes (p : Packet) : Nat := p.length * 4

/-- Bytes on the link with header, prefix, body and tag. -/
def Packet.wire (p : Packet) : Nat := 16 + (if p.sec.isSome then 32 else 0) + p.body.length

/-- Data-buffer beads a packet's data takes (R359): requests with data. -/
def Packet.dataBeads (p : Packet) : Nat :=
  if p.typ = tCmd ∨ p.typ = tCmpl ∨ p.typ = tInval ∨ p.typ = tTickSync then 0 else (p.body.length + 63) / 64

/-- Body sizes of the source formats of EXACT_ADD (Table 11.10): element bytes, 0 for a format it does not take. -/
def exactAddElem (fmt : Nat) : Nat :=
  if fmt = 0xC ∨ fmt = 0xD then 4 else if fmt = 0x9 ∨ fmt = 0xA ∨ fmt = 0xB then 2 else 0

/-- The body length a memory-form type must have (R353). -/
def Packet.memoryLengthOk (p : Packet) : Bool :=
  let n := p.body.length
  if p.typ = tWrite then n == 64 * p.beads
  else if p.typ = tWritePartial then n == 72
  else if p.typ = tWriteback then n == 64
  else if p.typ = tAtomic then
    if p.qual % 4 = 3 then
      n == 8 + exactAddElem (field p.body 0 1) * (if field p.body 1 1 = 0 then 8 else 16) && n != 8
    else n == 24
  else n == 0

/-- Row 2 of Table 15.5 for the header: LENGTH, reserved bits, ADDR and QUAL of each form (R352–R355, R99, R76, R108). -/
def Packet.wellShaped (p : Packet) : Bool :=
  knownType p.typ && p.length * 4 == p.wire && 4 ≤ p.length && p.length ≤ 16448 &&
  (match p.sec with
    | some x => x.rsv == 0 && x.sender / 8192 == 0
    | none => true) &&
  (if memoryForm p.typ then
    p.addr % 64 == 0 && p.addr / 2 ^ 57 == 0 && p.memoryLengthOk &&
    (if p.typ = tRead ∨ p.typ = tReadNoalloc ∨ p.typ = tWrite then p.addr % 4096 / 64 + p.beads ≤ 64
     else if p.typ = tAtomic then !bit p.qual 2 else p.qual % 8 == 0)
  else
    bits p.form 15 12 == 0 && bits p.form 31 26 == 0 && p.qual % 8 == 0 &&
    (if p.typ = tInvoke then p.arg < 1024 else p.arg == 0) &&
    (if p.typ = tInval then p.body.length == 24 else true) &&
    (if p.typ = tCmd then
      !p.body.isEmpty && p.opcode != 0 && !(0x44 ≤ p.opcode && p.opcode ≤ 0x7F) &&
      p.vc == (if p.opcode < 0x80 then 0 else 1) && (p.critical || (8 ≤ p.body.length && zeros p.body 1 7))
    else true))

/-! ### The cipher's inputs (R413) -/

/-- Bytes 0–7 of the header, HOPS as given (Table 15.1). -/
def Packet.headerLow (p : Packet) (hops : Nat) : Nat :=
  p.typ % 256 + (hops % 32) * 2 ^ 8 + (p.epoch % 2) * 2 ^ 13 + b2n p.poison * 2 ^ 14 + b2n p.sec.isSome * 2 ^ 15 +
    (p.length % 65536) * 2 ^ 16 + (p.dst % 4096) * 2 ^ 32 + (p.qual % 16) * 2 ^ 44 + (p.tag % 65536) * 2 ^ 48

/-- Bytes of a prefix (Table 18.5). -/
def Prefix.bytes (x : Prefix) : List Byte := leBytes 4 x.keyId ++ leBytes 2 x.sender ++ leBytes 2 x.rsv ++ leBytes 8 x.counter

/-- The associated data: the header with HOPS 0, then the prefix. -/
def Packet.aad (p : Packet) : List Byte :=
  leBytes 8 (p.headerLow 0) ++ leBytes 8 p.form ++ (match p.sec with | some x => x.bytes | none => [])

/-- The GCM tag a packet must carry under a key. -/
def Packet.tagUnder (p : Packet) (key : Nat) : Nat :=
  match p.sec with
  | some x => Config.gcmTag key (x.sender % 8192) x.counter p.aad p.body
  | none => 0

/-- The bytes of a whole packet as they travel. -/
def Packet.onWire (p : Packet) : List Byte :=
  leBytes 8 (p.headerLow p.hops) ++ leBytes 8 p.form ++ (match p.sec with | some x => x.bytes | none => []) ++ p.body ++
    (if p.sec.isSome then leBytes 16 p.gcm else [])

/-- A body padded with zeros to whole 4-byte units, the unit of LENGTH (assumption 15). -/
def padded (b : List Byte) : List Byte := b ++ zeroBytes ((4 - b.length % 4) % 4)

/-- A packet's LENGTH set from its parts. -/
def Packet.sized (p : Packet) : Packet := { p with length := p.wire / 4 }

end Sys2Proof
end

