-- ==== Sys2Proof/Machine/Send.lean ====
section
/-!
DEFINITION. Sending: the route of a packet (R331–R336), the egress queue it enters (R343, R391), the key it travels under
(R413, R414, R418, R419) and the outbound slots of the module's own requests (R357).
-/

namespace Sys2Proof.Machine

/-! ### Ports and routes -/

/-- A port. -/
def State.port (s : State) (p : Nat) : Port := tblGet s.ports p {}

/-- A port set. -/
def State.setPort (s : State) (p : Nat) (v : Port) : State := { s with ports := tblPut s.ports p v }

/-- The port is UP (Table 13.6). -/
def State.portUp (s : State) (p : Nat) : Bool := (s.port p).st == .up

/-- The port runs in Ethernet personality. -/
def State.portEth (s : State) (p : Nat) : Bool := (s.port p).eth == 1

/-- One routing entry (Table 14.3). -/
structure RouteEntry where
  valid : Bool
  ports : List Nat
  ep : Nat
  mac : Nat

/-- Window offset of version `v` of the routing tables. -/
def routeBase (v : Nat) : Nat := 0x800000 + 0x40000 * v

/-- A word of the routing-table window. -/
def State.routeWord (s : State) (a : Nat) : Word := (tblGet? s.rtr.table a).getD 0

/-- The entry at an offset of a version. -/
def State.routeEntry (s : State) (v off : Nat) : RouteEntry :=
  let a := routeBase v + off
  let w := s.routeWord a
  { valid := wbit w 31
    ports := (List.range (wbits w 27 26 + 1)).map fun i => wbits w (4 * i + 3) (4 * i)
    ep := wbits (s.routeWord (a + 4)) 11 0
    mac := (s.routeWord (a + 8)).toNat + wbits (s.routeWord (a + 0xC)) 15 0 * 2 ^ 32 }

/-- The port and MAC by which an entry sends a packet from `src` to `dst` (R333, R335). -/
def State.pickPort (s : State) (e : RouteEntry) (dst src : Nat) : Option (Nat × Nat) :=
  let up := e.ports.filter s.portUp
  let k := (bits dst 5 0).xor ((bits dst 11 6).xor ((bits src 5 0).xor (bits src 11 6)))
  match up[k % up.length]? with
  | none => none
  | some p => if s.portEth p && e.mac == 0 then none else some (p, e.mac)

/-- Boot routing applies to a packet (R336). -/
def State.bootRouted (s : State) (epoch : Nat) : Bool := epoch == 0 && !s.rtr.v0Loaded

/-- A boot route's port and MAC (R335, R336). -/
def State.withMac (s : State) (p mac : Nat) : Option (Nat × Nat) := if s.portEth p && mac == 0 then none else some (p, mac)

/-- Boot routing (R336). -/
def State.bootRoute (s : State) (dst : Nat) : Option (Nat × Nat) :=
  match (List.range 16).find? fun p => s.portUp p && !s.portEth p && ((s.port p).peer.map fun x => x.1) == some dst with
  | some p => some (p, 0)
  | none =>
    match (match s.rtr.upstream with
      | some (p, mac) => if dst == s.rtr.annEp && s.portUp p then some (p, mac) else none
      | none => none) with
    | some (p, mac) => s.withMac p mac
    | none =>
      match s.rtr.learned.find? fun l => l.ep == dst && s.portUp l.port with
      | some l => s.withMac l.port l.mac
      | none => none

/-- The port and MAC by which a packet for another endpoint leaves (R332); none is no route. -/
def State.route (s : State) (dst src epoch : Nat) : Option (Nat × Nat) :=
  let v := epoch % 2
  match ((List.range 64).map fun i => s.routeEntry v (16 * i)).find? fun e => e.valid && e.ep == dst with
  | some e => s.pickPort e dst src
  | none =>
    if s.bootRouted epoch then s.bootRoute dst
    else
      let e :=
        if bits dst 3 0 ≠ bits s.ep 3 0 then s.routeEntry v (0x400 + 16 * bits dst 3 0)
        else if bits dst 7 4 ≠ bits s.ep 7 4 then s.routeEntry v (0x500 + 16 * bits dst 7 4)
        else s.routeEntry v (0x600 + 16 * bits dst 11 8)
      if e.valid then s.pickPort e dst src else none

/-! ### Egress queues -/

/-- An egress queue. -/
def State.queue (s : State) (port q : Nat) : List Queued := tblGet s.rtr.queues (port * 16 + q) []

/-- An egress queue set. -/
def State.setQueue (s : State) (port q : Nat) (l : List Queued) : State :=
  { s with rtr := { s.rtr with
      queues := if l.isEmpty then tblDel s.rtr.queues (port * 16 + q) else tblPut s.rtr.queues (port * 16 + q) l } }

/-- QOS_CTX_CLASS of a context. -/
def State.classOf (s : State) (ctx : Nat) : Nat := tblGet s.qos.classes ctx 0

/-- The egress queue of a packet of a class (Table 17.2). -/
def queueOf (p : Packet) (cls : Nat) : Nat :=
  if p.typ = tTickSync then 0
  else match p.channel with
    | 0 => 1 | 2 => 2 | 3 => 3 | 4 => 8 + cls | 5 => 12 + cls | _ => 4 + cls

/-- The queues of a VC. -/
def queuesOfVc : Nat → List Nat
  | 0 => [0, 1] | 1 => [4, 5, 6, 7] | 2 => [2] | 3 => [3] | 4 => [8, 9, 10, 11] | 5 => [12, 13, 14, 15] | _ => []

/-- Bytes queued on a port in a VC (R343). -/
def State.qdepth (s : State) (port vc : Nat) : Nat :=
  ((queuesOfVc vc).flatMap fun q => (s.queue port q).map fun x => x.pkt.bytes).sum

/-- Key in the queue table under which packets for this module's own units wait (R331). -/
def selfQueue : Nat := 16

/-- A packet enters a port's egress queue. -/
def State.enqueueAt (s : State) (port q : Nat) (x : Queued) : State :=
  let s := s.setQueue port q (s.queue port q ++ [x])
  let vc := x.pkt.channel
  let k := port * 8 + vc
  { s with rtr := { s.rtr with depthMax := tblPut s.rtr.depthMax k (max (tblGet s.rtr.depthMax k 0) (s.qdepth port vc)) } }

/-- Packets of a port and VC that wait on the beam. -/
def State.onBeam (s : State) (port vc : Nat) : List (Nat × Queued) := tblGet s.rtr.beam (port * 8 + vc) []

/-- They are set. -/
def State.setBeam (s : State) (port vc : Nat) (l : List (Nat × Queued)) : State :=
  { s with rtr := { s.rtr with beam := if l.isEmpty then tblDel s.rtr.beam (port * 8 + vc) else tblPut s.rtr.beam (port * 8 + vc) l } }

/-- The 64 KiB of a port and VC have no room for a packet; one longer than that enters an empty queue (R343). -/
def State.egressFull (s : State) (port : Nat) (x : Queued) : Bool :=
  decide (port < selfQueue) && decide (0 < s.qdepth port x.pkt.channel) && decide (65536 < s.qdepth port x.pkt.channel + x.pkt.bytes)

/-- A packet goes to a port's egress queue, or while that is full waits on the beam behind those of its VC (R343). -/
def State.toQueue (s : State) (port q : Nat) (x : Queued) : State :=
  let vc := x.pkt.channel
  if s.egressFull port x || !(s.onBeam port vc).isEmpty then s.setBeam port vc (s.onBeam port vc ++ [(q, x)])
  else s.enqueueAt port q x

/-- Packets of a port and VC come off the beam, in order, while there is room. -/
def State.fromBeam (s : State) (port vc : Nat) : State :=
  let (s, rest) := (s.onBeam port vc).foldl (fun (a : State × List (Nat × Queued)) x =>
    if a.2.isEmpty && !a.1.egressFull port x.2 then (a.1.enqueueAt port x.1 x.2, []) else (a.1, a.2 ++ [x])) (s, [])
  s.setBeam port vc rest

/-- A VC of a port runs throttled for local requests (R342). -/
def State.throttled (s : State) (port vc : Nat) : Bool :=
  (vc == 1 || vc == 4 || vc == 5) && (!wbit (s.act .rtr 0 0x044) vc || s.portEth port)

/-- HI_KIB and LO_KIB in bytes (R343). -/
def State.throttleHi (s : State) : Nat := s.actBits .rtr 0 0x048 15 8 * 1024
def State.throttleLo (s : State) : Nat := s.actBits .rtr 0 0x048 7 0 * 1024

/-- A packet of a local unit goes to its port: a request of a throttled VC waits at its unit while the queue is full
(R343). -/
def State.inject (s : State) (port : Nat) (x : Queued) (isReq : Bool) : State :=
  let vc := x.pkt.channel
  let k := port * 8 + vc
  let waiting := tblGet s.rtr.held k []
  if isReq && s.throttled port vc && (!waiting.isEmpty || s.throttleHi ≤ s.qdepth port vc) then
    { s with rtr := { s.rtr with held := tblPut s.rtr.held k (waiting ++ [x]) } }
  else s.toQueue port (queueOf x.pkt (match x.ctx with | some c => s.classOf c | none => 0)) x

/-- A packet the router discards: counted and reported (R334). -/
def State.routeDrop (s : State) (p : Packet) (hop : Bool) (port : Option Nat) : State :=
  let s := s.bump (if hop then 0x20848 else 0x20844)
  let src := if port.isNone ∧ memoryForm p.typ then s.ep else p.src
  let d := detail [(0, leBytes 2 p.dst), (2, leBytes 2 src), (4, [byte (b2n hop)]), (5, [byte (port.getD 0xFF)]),
    (6, [byte p.epoch])]
  let s := s.postMgr { typ := 0x0070, cls := 1, source := 0x4000, detail := d }
  s.raise .rtr 0 0

/-- A packet of a type that Ethernet personality does not carry, at a port that runs in it: VC2 carries nothing there (R10, R329). It
leaves by no such port (assumption 162). -/
def State.notCarried (s : State) (port : Nat) (p : Packet) : Bool := s.portEth port && notOnEthernet p.typ

/-- A packet of a local unit sent: delivered to this module's own units, or routed to a port's egress queue with the
injection version's EPOCH (R331, R339). The flag says whether it had a route. -/
def State.send (s : State) (p : Packet) (ctx : Option Nat) (isReq : Bool) : State × Option Nat × Bool :=
  let p := { p with epoch := s.rtr.inject, hops := 0 }
  if p.dst = s.ep then
    ((s.toQueue selfQueue 0 { pkt := p, ctx := ctx }).emit (.packet none p), none, true)
  else
    match s.route p.dst p.src p.epoch with
    | none => (s.routeDrop p false none, none, false)
    | some (port, mac) =>
      if s.notCarried port p then (s.routeDrop p false none, none, false) else
      let s := if s.bootRouted p.epoch then s.tally .rtr 0 0x79 0 1 ctx else s
      let p := { p with hops := 1 }
      ((s.inject port { pkt := p, mac := mac, ctx := ctx } isReq).emit (.packet (some port) p), some port, true)

/-! ### Keys -/

/-- A key slot. -/
def State.keySlot (s : State) (n : Nat) : KeySlot := tblGet s.ten.keys n {}

/-- A key slot set. -/
def State.setKey (s : State) (n : Nat) (k : KeySlot) : State := { s with ten := { s.ten with keys := tblPut s.ten.keys n k } }

/-- A context. -/
def State.ctx (s : State) (c : Nat) : Context :=
  tblGet s.ten.ctxs c (if c = 0 ∧ s.boot.state = 6 then { st := .active } else {})

/-- A context set. -/
def State.setCtx (s : State) (c : Nat) (v : Context) : State := { s with ten := { s.ten with ctxs := tblPut s.ten.ctxs c v } }

/-- The slot a KEY_ID names: ARMED, ACTIVE or RETIRING (Table 18.6). -/
def State.slotOfKeyId (s : State) (keyId : Nat) : Option Nat :=
  (s.ten.keys.find? fun k => k.2.keyId == keyId && (k.2.st == .armed || k.2.st == .active || k.2.st == .retiring)).map (·.1)

/-- The manager key KEY_ID 0 names for traffic with endpoint `ep`: at the active manager the roster's (the control host's
among them), elsewhere the module's own (R419). -/
def State.mgrKey (s : State) (ep : Nat) : Option MgrKey :=
  if s.mgr.role = 2 then tblGet? s.ten.roster ep else s.ten.own

/-- CTR_LIMIT (R418). -/
def ctrLimit : Nat := 2 ^ 64 - 2 ^ 32

/-- A transmit counter of a slot used: the warning at 2⁶³ and the exhaustion at CTR_LIMIT (R418). -/
def State.useCounter (s : State) (n : Nat) (dir : Bool) : State :=
  let k := s.keySlot n
  let c := if dir then k.tx1 else k.tx0
  let k' := if dir then { k with tx1 := c + 1 } else { k with tx0 := c + 1 }
  let rec_ (t cls : Nat) : Record :=
    { typ := t, cls := cls, source := 0x4000, detail := detail [(0, leBytes 2 n), (4, leBytes 4 k.keyId)] }
  if c + 1 > 2 ^ 63 ∧ !k.warned then
    ((s.setKey n { k' with warned := true }).postCtx k.owner (rec_ 0x00A3 2)).postMgr (rec_ 0x00A3 2)
  else if ctrLimit ≤ c + 1 ∧ !k.exhausted then
    (((s.setKey n { k' with exhausted := true }).postCtx k.owner (rec_ 0x00A4 1)).postMgr (rec_ 0x00A4 1)).raise .sec 0 2
  else s.setKey n k'

/-- Whether a completion may travel under the key it was asked under. -/
def State.canSeal (s : State) (k : KeyRef) : Bool :=
  match k with
  | .clear => true
  | .slot n => let x := s.keySlot n; (x.st == .active || x.st == .retiring) && x.tx1 < 2 ^ 64 - 1
  | .manager ep key =>
    ((s.mgrKey ep).map (·.key)) == some key || s.ten.previous.any fun x => x.1.key == key

/-- A packet sealed: prefix, length and GCM tag (R413). A key that may not send leaves it clear. -/
def Packet.seal (p : Packet) (keyId sender counter key : Nat) : Packet :=
  let p : Packet := { p with sec := some { keyId := keyId, sender := sender, rsv := 0, counter := counter } }
  let p := p.sized
  { p with gcm := p.tagUnder key }

/-- A packet sent under a key: DIR 1 for completions and ATTEND replies; the counter used up. -/
def State.seal (s : State) (k : KeyRef) (dir : Bool) (p : Packet) : State × Packet :=
  let sender := s.ep + 4096 * b2n dir
  match k with
  | .clear => (s, { p with sec := none, gcm := 0 }.sized)
  | .slot n =>
    let x := s.keySlot n
    (s.useCounter n dir, Packet.seal p x.keyId sender (if dir then x.tx1 else x.tx0) x.key)
  | .manager ep key =>
    let bumpK (m : MgrKey) : MgrKey := if dir then { m with tx1 := m.tx1 + 1 } else { m with tx0 := m.tx0 + 1 }
    match (s.mgrKey ep).filter fun m => m.key == key, s.ten.previous.find? fun x => x.1.key == key with
    | some m, _ =>
      let p := Packet.seal p 0 sender (if dir then m.tx1 else m.tx0) m.key
      if s.mgr.role = 2 then ({ s with ten := { s.ten with roster := tblPut s.ten.roster ep (bumpK m) } }, p)
      else ({ s with ten := { s.ten with own := some (bumpK m) } }, p)
    | none, some (o, _) =>
      ({ s with ten := { s.ten with previous := s.ten.previous.map fun x => if x.1.key = key then (bumpK x.1, x.2) else x } },
        Packet.seal p 0 sender (if dir then o.tx1 else o.tx0) o.key)
    | none, none => (s, { p with sec := none, gcm := 0 }.sized)

/-- The manager key with an endpoint, as the key of a request this module sends. -/
def State.mgrKeyRef (s : State) (ep : Nat) : KeyRef :=
  match s.mgrKey ep with | some m => .manager ep m.key | none => .clear

/-! ### Outbound slots (R357) -/

/-- Outcome of issuing an outbound request. -/
inductive Issued where
  /-- In flight in this slot. -/
  | sent (slot : Nat)
  /-- No slot is free: the unit waits. -/
  | noSlot
  /-- No route: the request completes LINK_DOWN (R334). -/
  | noRoute
  /-- The key may not send: the request completes KEY_RETIRED (R412). -/
  | noKey
deriving DecidableEq, Repr

/-- An outbound slot. -/
def State.outSlot (s : State) (i : Nat) : OutSlot := tblGet s.txn.outs i {}

/-- An outbound slot set. -/
def State.setOut (s : State) (i : Nat) (o : OutSlot) : State := { s with txn := { s.txn with outs := tblPut s.txn.outs i o } }

/-- The lowest outbound slot that is neither held nor in its guard. -/
def State.freeOut (s : State) : Option Nat :=
  if 16384 ≤ s.txn.outUsed then none
  else (List.range 16384).find? fun i => let o := s.outSlot i; o.req.isNone && o.guard.isNone

/-- Whether a new request may be started under a key: its slot ACTIVE and not exhausted (R411, R418); `retiring` lets the
snoops of R114 step 7 through. -/
def State.mayRequest (s : State) (k : KeyRef) (retiring : Bool) : Bool :=
  match k with
  | .slot n =>
    let x := s.keySlot n
    (x.st == .active || (retiring && x.st == .retiring)) && !x.exhausted
  | _ => true

/-- A request issued: a slot taken, the tag made of slot and reuse count, sealed and sent (R357). One whose target has as many
outstanding as it allows waits (R363). -/
def State.issue (s : State) (p : Packet) (k : KeyRef) (what : Purpose) (ctx : Option Nat) (retiring : Bool := false) :
    State × Issued :=
  if !s.mayRequest k retiring then (s, .noKey)
  else if p.dst ≠ s.ep ∧ Config.quotaAt p.dst ≤ tblGet s.txn.sentTo p.dst 0 then (s, .noSlot)
  else match s.freeOut with
    | none => (s, .noSlot)
    | some i =>
      let o := s.outSlot i
      let p := { p with tag := i + o.reuse * 16384 }
      if p.dst ≠ s.ep ∧ ((s.route p.dst s.ep s.rtr.inject).all fun x => s.notCarried x.1 p) then
        (s.routeDrop { p with epoch := s.rtr.inject } false none, .noRoute)
      else
        let (s, p) := s.seal k false p
        let (s, port, _) := s.send p ctx true
        let s := s.setOut i { o with req := some (p, what), key := k, port := port, sentAt := s.time, resends := 0, ctx := ctx }
        let sentTo := if p.dst = s.ep then s.txn.sentTo else tblPut s.txn.sentTo p.dst (tblGet s.txn.sentTo p.dst 0 + 1)
        ({ s with txn := { s.txn with outUsed := s.txn.outUsed + 1, sentTo := sentTo } }, .sent i)

/-- An outbound slot freed at its final completion: its reuse count rises. -/
def State.freeOutSlot (s : State) (i : Nat) : State :=
  let o := s.outSlot i
  let s := s.setOut i { reuse := (o.reuse + 1) % 4 }
  { s with txn := { s.txn with outUsed := s.txn.outUsed - 1 } }

/-- The first completion for a tag sent to an endpoint (R363). -/
def State.quotaBack (s : State) (ep : Nat) : State :=
  match tblGet? s.txn.sentTo ep with
  | none => s
  | some n => { s with txn := { s.txn with sentTo := if n ≤ 1 then tblDel s.txn.sentTo ep else tblPut s.txn.sentTo ep (n - 1) } }

/-- An outbound request that ends without a completion: the slot enters its reuse guard (R357). -/
def State.guardOutSlot (s : State) (i : Nat) : State :=
  let o := s.outSlot i
  s.setOut i { reuse := o.reuse, guard := some (s.time + 2 * us (s.actBits .txn 0 0x040 31 16)) }

end Sys2Proof.Machine
end

