-- ==== Sys2Proof/Machine/Txn.lean ====
section
/-!
DEFINITION. The tracker: completions (R355, R356, R361, R397), the verdict of Table 15.5 with the prefix checks of Table
18.6, and the transit of packets for other endpoints (R334, R336).
-/

namespace Sys2Proof.Machine

/-! ### Completions -/

/-- Key of an inbound slot in its table: source × 65,536 + TAG (R356). -/
def slotKey (src tag : Nat) : Nat := src * 65536 + tag

/-- A key that names no inbound slot: a request whose slot was forced to end. -/
def noKey : Nat := 2 ^ 28

/-- The key under which one of the module's own units waits at the home of a line: keys above every slot's. -/
def innerKey (tag : Nat) : Nat := 2 ^ 28 + 1 + tag

/-- An inbound slot. -/
def State.slot? (s : State) (key : Nat) : Option InSlot := tblGet? s.txn.slots key

/-- An inbound slot changed. -/
def State.setSlot (s : State) (key : Nat) (v : InSlot) : State := { s with txn := { s.txn with slots := tblPut s.txn.slots key v } }

/-- A source's quota record (R362). -/
def State.source (s : State) (ep : Nat) : Source := tblGet s.txn.sources ep {}

/-- The unit takes a request's data out of the data buffer (R359). -/
def State.takeData (s : State) (key : Nat) : State :=
  match s.slot? key with
  | none => s
  | some v =>
    let s := s.setSlot key { v with dbuf := 0 }
    { s with txn := { s.txn with dbufUsed := s.txn.dbufUsed - v.dbuf } }

/-- An inbound slot freed, its data-buffer beads and its source's quota with it (R356, R359, R362). -/
def State.freeSlot (s : State) (key : Nat) : State :=
  match s.slot? key with
  | none => s
  | some v =>
    let x := s.source v.src
    let own := v.port.isNone
    { s with
      xlt := { s.xlt with invals := s.xlt.invals.map fun i => { i with waitFor := i.waitFor.erase key } }
      kvs := { s.kvs with moves := s.kvs.moves.map fun m => { m with waitFor := m.waitFor.map fun l => l.erase key } }
      txn := { s.txn with
        slots := tblDel s.txn.slots key
        inUsed := s.txn.inUsed - 1
        dbufUsed := s.txn.dbufUsed - v.dbuf
        quotaHeld := if own then s.txn.quotaHeld else s.txn.quotaHeld - 1
        sources := if own then s.txn.sources else tblPut s.txn.sources v.src { x with count := x.count - 1 } } }

/-- A completion packet before it is sealed; its LOAD is set when it is sent (R361). -/
def State.completion (s : State) (typ dst tag status : Nat) (data : List Byte) (last dup : Bool) (off : Nat) : Packet :=
  { typ := if typ = tAttend then tAttend else tCmpl
    qual := if typ = tAttend then 1 else 0
    dst := dst
    tag := tag
    poison := status == stPoison && !data.isEmpty
    form := completionForm s.ep status 0 last false dup off
    body := padded data }

/-- A host shaper charged for a completion packet (R397). -/
def State.chargeHost (s : State) (ep bytes : Nat) : State :=
  match s.hostOf ep with
  | none => s
  | some (i, h) =>
    let b := (h.bucket.fill h.rate h.burst s.time).take (bytes + s.hostOvh)
    { s with qos := { s.qos with hosts := tblPut s.qos.hosts i { h with bucket := b } } }

/-- LOAD of a completion's packet. -/
def withLoad (p : Packet) (load : Nat) : Packet := { p with form := setBits p.form 19 17 load }

/-- A completion packet sent: sealed under its request's key, charged to the host shaper and routed. LOAD is sampled with the
completion's first packet (R361). -/
def State.sendCompletion (s : State) (p : Packet) (k : KeyRef) (ctx : Option Nat) : State :=
  let p := if p.dataOff = 0 then withLoad p (s.loadFor p.dst) else p
  let (s, p) := s.seal k true p
  (s.chargeHost p.dst p.bytes |>.send p ctx false).1

/-- Whether the completions of a request leave a done record (R365): ATOMIC and REG_WRITE on an Ethernet port. -/
def InSlot.recorded (v : InSlot) : Bool := v.eth && (v.pkt.typ == tAtomic || (v.pkt.typ == tCmd && v.pkt.opcode == 0x41))

/-- The done record of a completed request, kept for HOLD_US (R365). -/
def State.keepRecord (s : State) (v : InSlot) (status : Nat) (data : List Byte) : State :=
  if v.recorded then
    let d : DoneRec := { src := v.src, tag := v.tag, status := status, data := data.take 64, key := v.key, ctx := v.ctx
                         expires := s.time + us (s.actBits .txn 0 0x044 15 0) }
    let s := { s with txn := { s.txn with records := s.txn.records ++ [d] } }
    if s.txn.records.length = 16384 then s.raise .txn 0 3 else s
  else s

/-- Completion packets wait at a host shaper, in the data buffer, their slot held (R397). -/
def State.holdAtHost (s : State) (i : Nat) (h : HostRec) (key : Nat) (v : InSlot) (ps : List Packet) : State :=
  let beads := ((ps.map fun p => (p.body.length + 63) / 64).sum)
  let s := s.setSlot key { v with phase := .shaped, dbuf := v.dbuf + beads }
  { s with
    txn := { s.txn with dbufUsed := s.txn.dbufUsed + beads }
    qos := { s.qos with hosts := tblPut s.qos.hosts i { h with waiting := h.waiting ++ ps.map fun p => (p, key) } } }

/-- Data cut into packets of at most 65,536 bytes (R355). -/
def chunks (data : List Byte) : (fuel : Nat) → List (List Byte)
  | 0 => [data]
  | fuel + 1 => if data.length ≤ 65536 then [data] else data.take 65536 :: chunks (data.drop 65536) fuel

/-- The packets of one completion (R355). -/
def State.completionTrain (s : State) (v : InSlot) (status : Nat) (data : List Byte) : List Packet :=
  let cs := chunks data (data.length / 65536)
  (List.range cs.length).map fun i =>
    s.completion v.pkt.typ v.src v.tag status (cs.getD i []) (i + 1 == cs.length) false (i * 65536)

/-- An accepted request completes: its packets leave, or wait at a host shaper, and its slot is freed with the last
(R355, R356, R397). A key that can no longer send gives KEY_RETIRED without data and with SEC = 0 (R411). -/
def State.complete (s : State) (key status : Nat) (data : List Byte := []) : State :=
  match s.slot? key with
  | none => s
  | some v =>
    let ok := s.canSeal v.key
    let status := if ok then status else stKeyRetired
    let data := if ok then data else []
    let k := if ok then v.key else .clear
    let v := { v with key := k }
    let ps := (s.completionTrain v status data).map fun p => withLoad p (s.loadFor v.src)
    match s.hostOf v.src with
    | some (i, h) =>
      if h.waiting.isEmpty && (h.bucket.fill h.rate h.burst s.time).positive then
        ((ps.foldl (fun s p => s.sendCompletion p k (some v.ctx)) s).keepRecord v status data).freeSlot key
      else s.holdAtHost i h key v ps
    | none => ((ps.foldl (fun s p => s.sendCompletion p k (some v.ctx)) s).keepRecord v status data).freeSlot key

/-! ### Refusals (R358, R360) -/

/-- Refusal completions queued (R360). -/
def State.refusals (s : State) : Nat :=
  (s.rtr.queues.map fun q => (q.2.filter (·.refusal)).length).sum + (s.rtr.beam.map fun q => (q.2.filter (·.2.refusal)).length).sum

/-- The last packet put into a queue, marked as a refusal. -/
def markRefusal : List Queued → List Queued
  | [] => []
  | [x] => [{ x with refusal := true }]
  | x :: t => x :: markRefusal t

/-- The packet put last into a queue of a port, or behind it on the beam, marked as a refusal. -/
def State.markLast (s : State) (port q vc : Nat) : State :=
  match (s.onBeam port vc).getLast? with
  | some x => s.setBeam port vc ((s.onBeam port vc).dropLast ++ [(x.1, { x.2 with refusal := true })])
  | none => s.setQueue port q (markRefusal (s.queue port q))

/-- A refused request: counted, and completed unless the refusal queue is full (R360). `k` is the key its completion
travels under. -/
def State.refuse (s : State) (port : Option Nat) (p : Packet) (ctx : Nat) (status : Nat) (k : KeyRef) : State :=
  let s := s.bump 0x30818
  let s := s.tally .txn 0 0x80 status 1 (some ctx)
  let s := s.tally .txn 0 0x81 p.typ 1 (some ctx)
  let s := s.tally .txn 0 0x82 p.channel 1 (some ctx)
  if 4096 ≤ s.refusals then (s.bump 0x3081C).raise .txn 0 0
  else
    let dst := if memoryForm p.typ && p.sec.isNone then
        (match (port.bind fun q => (s.port q).peer) with | some x => x.1 | none => p.src) else p.src
    let c := s.completion p.typ dst p.tag status [] true false 0
    let c := { c with form := setBits c.form 19 17 (s.loadFor dst) }
    let k := if s.canSeal k then k else .clear
    let (s, c) := s.seal k true c
    match (s.chargeHost dst c.bytes).send c (some ctx) false with
    | (s, _, false) => s
    | (s, some q, true) => s.markLast q (queueOf c (s.classOf ctx)) c.channel
    | (s, none, true) => s.markLast selfQueue 0 c.channel

/-! ### The verdict -/

/-- What the rules of row 7 of Table 15.5 say of a request. -/
inductive Row7 where
  /-- No objection; with the extent, its generation and the address for a translated memory request. -/
  | pass (ext : Option (Nat × Nat)) (pa : Nat)
  /-- A lookaside miss: accept-pending (R106). -/
  | walk
  /-- Refused. -/
  | refuse (status : Nat)
deriving DecidableEq, Repr

/-- What the verdict needs to know of one row of the opcode table. -/
structure Rules where
  /-- The packet as the row's type or opcode makes it. -/
  form : Packet → Packet
  /-- It may travel with SEC = 0 (R419). -/
  clearOk : State → Packet → Bool := fun _ _ => false
  /-- The source rules of row 4 hold (R77, R100, R108, R403, R419). -/
  sourceOk : State → Packet → Bool := fun _ _ => true
  /-- Shape rules of the row beyond `Packet.wellShaped`. -/
  shapeOk : Packet → Bool := fun _ => true
  /-- Accepted before SERVICE (R37, R43). -/
  early : State → Packet → Bool := fun _ _ => false
  /-- It is a register command, whose CONTEXT is ignored (R76). -/
  register : Bool := false
  /-- A register read, which a DEBUG_UNLOCK under way lets the manager make (R422). -/
  read : Bool := false
  /-- Bytes of the reply that the meter adds (R388). -/
  reply : State → Packet → Nat := fun _ _ => 0
  /-- Row 7. -/
  row7 : State → Packet → Nat → Row7 := fun _ _ _ => .pass none 0

/-- Outcome of the tracker's verdict. -/
inductive Decision where
  /-- Discarded without a completion. -/
  | discard
  /-- Refused; `bare` completions travel with SEC = 0. -/
  | refuse (status : Nat) (bare : Bool)
  /-- Its done record is resent (R365). -/
  | resend (r : DoneRec)
  /-- Accepted, or accept-pending. -/
  | accept (yellow : Bool) (r : Row7)
deriving DecidableEq, Repr

/-- The sender is the module's manager and speaks under the manager key (R77, R100, R419). -/
def State.fromManager (s : State) (p : Packet) : Bool :=
  match p.sec with
  | some x => x.keyId == 0 && s.mgr.ep == some x.ep
  | none => false

/-- Context of a packet (R353, R354, R76). -/
def State.contextOf (s : State) (r : Rules) (p : Packet) : Nat :=
  if r.register then 0
  else if memoryForm p.typ then
    match p.sec with
    | some x => if x.keyId = 0 then 0 else (match s.slotOfKeyId x.keyId with | some n => (s.keySlot n).owner | none => 0)
    | none => 0
  else p.context

/-- The key a request came under. -/
def State.keyRef (s : State) (p : Packet) : KeyRef :=
  match p.sec with
  | none => .clear
  | some x =>
    if x.keyId = 0 then s.mgrKeyRef x.ep
    else match s.slotOfKeyId x.keyId with | some n => .slot n | none => .clear

/-- The replay window of a key slot (1,024: the manager key) and sender (R417). -/
def State.window (s : State) (slot ep : Nat) : Option Window := s.ten.windows.find? fun w => w.slot == slot && w.sender == ep

/-- Window number of a key. -/
def windowSlot (k : KeyRef) : Nat := match k with | .slot n => n | _ => 1024

/-- A counter passes its window (R417): above H, or within 1,024 of it and not seen. -/
def Window.passes (w : Window) (c : Nat) : Bool := w.high < c || (w.high < c + 1024 && !w.seen.contains c)

/-- A verified counter marked (R417); a new window is made for a new sender. -/
def State.markWindow (s : State) (slot ep c : Nat) : State :=
  let mark (w : Window) : Window :=
    let high := max w.high c
    { w with high := high, seen := (c :: w.seen).filter fun x => high < x + 1024 }
  let ws := match s.window slot ep with
    | some _ => s.ten.windows.map fun w => if w.slot = slot ∧ w.sender = ep then mark w else w
    | none => s.ten.windows ++ [{ slot := slot, sender := ep, high := c, seen := [c] }]
  { s with ten := { s.ten with windows := ws } }

/-- SEC_CFG.TAG_EVENTS. -/
def State.tagEvents (s : State) : Bool := wbit (s.act .sec 0 0x040) 0

/-- A TAG_FAIL or KEY_REPLAY record (Table 18.10). -/
def keyRecord (typ : Nat) (x : Prefix) (port : Option Nat) : Record :=
  { typ := typ, cls := 1, source := 0x4000, detail := detail [(0, leBytes 4 x.keyId), (4, leBytes 2 x.sender),
    (6, [byte (port.getD 0xFF)]), (8, if typ = 0x00A2 then leBytes 8 x.counter else [])] }

/-- The prefix checks of Table 18.6 on a request, in order: the state with its counts, and the outcome if one fails. -/
def State.prefixCheck (s : State) (r : Rules) (port : Option Nat) (p : Packet) : State × Option Decision :=
  match p.sec with
  | none => (s, none)
  | some x =>
    let k := s.keyRef p
    match k with
    | .clear => ((s.bump 0x4834), some (.refuse stKeyRetired true))
    | _ =>
      let st := match k with | .slot n => (s.keySlot n).st | _ => .active
      let spent := match k with | .slot n => (s.keySlot n).exhausted | _ => false
      if st == .armed then (s, some (.refuse stKeyRetired true))
      else if st == .retiring then (s.bump 0x4830, some (.refuse stKeyRetired false))
      else if x.dir then (s, some (.refuse stMalformed false))
      else if ctrLimit ≤ x.counter || spent then (s, some (.refuse stKeyRetired false))
      else
        let w := s.window (windowSlot k) x.ep
        if !(w.map (·.passes x.counter)).getD true then
          let s := (s.bump 0x482C).raise .sec 0 1
          (if s.tagEvents then s.postMgr (keyRecord 0x00A2 x port) else s, some .discard)
        else if w.isNone && 16384 ≤ s.ten.windows.length then
          ((s.bump 0x4838).raise .sec 0 3, some (.refuse stBusy false))
        else
          let bad := !memoryForm p.typ && !(p.srcEp == x.ep) ||
            (match k with
              | .slot n => !memoryForm p.typ && !r.register && p.context != (s.keySlot n).owner
              | _ => s.mgr.role != 2 && s.mgr.ep != some x.ep)
          (s, if bad then some (.refuse stPermission false) else none)

/-- OVH_BYTES of a port. -/
def State.portOvh (s : State) (port : Nat) : Nat := s.actBits .qos 0 (0x060 + 4 * port) 31 24

/-- The meter of a packet (R387): its exact key, else its context's. -/
def State.meterOf (s : State) (src ctx : Nat) : Option (Nat × Meter) :=
  match s.qos.meters.find? fun m => wbit m.2.key 31 && !wbit m.2.key 30 && wbits m.2.key 21 12 == ctx && wbits m.2.key 11 0 == src with
  | some m => some m
  | none => s.qos.meters.find? fun m => wbit m.2.key 31 && wbit m.2.key 30 && wbits m.2.key 21 12 == ctx

/-- Bytes the meter counts for a request (R388). -/
def State.meterBytes (s : State) (r : Rules) (port : Nat) (p : Packet) : Nat :=
  p.bytes + s.portOvh port +
    (if p.typ = tRead ∨ p.typ = tReadShared ∨ p.typ = tReadOwn ∨ p.typ = tReadNoalloc then 64 * p.beads else r.reply s p)

/-- PIR in force: a PIR below CIR is stored as CIR (R388). -/
def Meter.peak (m : Meter) : Nat := max (rateOf m.pir) (rateOf m.cir)

/-- A meter's buckets brought up to date. -/
def Meter.fill (m : Meter) (now : Nat) : Meter :=
  { m with tc := m.tc.fill m.cir (wbits m.bursts 15 0) now, tp := m.tp.fill m.peak (wbits m.bursts 31 16) now }

/-- A packet's colour (R388): 0 green, 1 yellow, 2 red; no meter is green. VC0 is not metered. -/
def State.colour (s : State) (r : Rules) (port : Option Nat) (p : Packet) (ctx : Nat) : Nat :=
  match port with
  | none => 0
  | some q =>
    if p.channel = 0 then 0
    else match s.meterOf p.src ctx with
      | none => 0
      | some (_, m) =>
        let m := m.fill s.time
        let b := s.meterBytes r q p
        if !m.tp.covers b then 2 else if !m.tc.covers b then 1 else 0

/-- The meter charged for an accepted packet (R389): yellow takes from Tp only. -/
def State.chargeMeter (s : State) (r : Rules) (port : Option Nat) (p : Packet) (ctx : Nat) (yellow : Bool) : State :=
  match port with
  | none => s
  | some q =>
    if p.channel = 0 then s
    else match s.meterOf p.src ctx with
      | none => s
      | some (i, m) =>
        let m := m.fill s.time
        let b := s.meterBytes r q p
        let m := { m with tp := m.tp.take b, tc := if yellow then m.tc else m.tc.take b }
        { s with qos := { s.qos with meters := tblPut s.qos.meters i m } }

/-- A red packet counted (R389). -/
def State.countRed (s : State) (p : Packet) (ctx : Nat) : State :=
  let s := match s.meterOf p.src ctx with
    | none => s
    | some (i, m) => { s with qos := { s.qos with meters := tblPut s.qos.meters i { m with red := m.red + 1 } } }
  (s.bump 0x90860).raise .qos 0 1

/-- The source's request limit (R362). -/
def State.limitOf (s : State) (src : Nat) : Nat :=
  let x := s.source src
  if x.limit = 0 then s.actBits .txn 0 0x040 15 0 else x.limit

/-- Row 6 (R362): the module's own units take no quota. -/
def State.quotaSpent (s : State) (port : Option Nat) (src : Nat) : Bool :=
  port.isSome && ((s.source src).block || s.limitOf src ≤ (s.source src).count)

/-- A BALANCE_CHECK holds the tracker for its audit (R367). -/
def State.txnHeld (s : State) : Bool :=
  match s.txn.balance with
  | some b => b.held && b.pages.head? == some (pageBase .txn 0)
  | none => false

/-- Row 8 of Table 15.5, with the full store of done records (R365). -/
def State.noRoom (s : State) (r : Rules) (port : Option Nat) (p : Packet) : Bool :=
  let mgr := s.mgr.ep == some p.src
  let eth := (port.map s.portEth).getD false
  (if mgr then 65536 ≤ s.txn.inUsed else 65536 ≤ s.txn.inUsed + s.actBits .txn 0 0x048 15 0) ||
  (0 < p.dataBeads && 65536 < s.txn.dbufUsed + p.dataBeads) ||
  (s.txnHeld && !mgr) ||
  (s.ten.unlocking.isSome && !(mgr && r.read)) ||
  (eth && (p.typ == tAtomic || (p.typ == tCmd && p.opcode == 0x41)) && 16384 ≤ s.txn.records.length)

/-- The verdict of Table 15.5 on a packet for this module: the state with what the checks count, and the outcome. -/
def State.verdict (s : State) (r : Rules) (port : Option Nat) (p : Packet) : State × Decision :=
  let early := s.boot.state < 6 || s.boot.state == 7 || s.boot.state == 8
  let eth := (port.map s.portEth).getD false
  let ctx := s.contextOf r p
  if early && !r.early s p then (s, .refuse (if s.boot.state < 6 then stBusy else stUnsupported) true)
  else if !(p.wellShaped && r.shapeOk p) || (!p.retry && (s.slot? (slotKey p.src p.tag)).isSome) then
    (s, .refuse stMalformed true)
  else if eth && notOnEthernet p.typ then (s, .refuse stUnsupported true)
  else if p.sec.isNone && !early && !r.clearOk s p then (s, .refuse stPermission false)
  else match s.prefixCheck r port p with
    | (s, some d) => (s, d)
    | (s, none) =>
      if !early && !r.sourceOk s p then (s, .refuse stPermission false)
      else if p.retry && (s.slot? (slotKey p.src p.tag)).isSome then (s.bump 0x30824, .discard)
      else match (if p.retry then s.txn.records.find? fun d => d.src == p.src && d.tag == p.tag else none) with
        | some d => (s, .resend d)
        | none =>
          let colour := s.colour r port p ctx
          let s := match port with
            | some q => if p.channel = 0 then s else s.tally .qos 0 0xA0 (q * 16 + colour) 1 (some ctx)
            | none => s
          if colour = 2 then (s.countRed p ctx, .refuse stRateDrop false)
          else if s.quotaSpent port p.src then (s, .refuse stQuota false)
          else match r.row7 s p ctx with
            | .refuse st => (s, .refuse st false)
            | t =>
              if s.noRoom r port p then (s, .refuse stBusy false)
              else (if colour = 1 then s.bump 0x90864 else s, .accept (colour == 1) t)

/-! ### Arrival -/

/-- The management policer of a port (R390): the state with its tokens taken, or none when the packet is discarded. -/
def State.police (s : State) (port : Option Nat) (p : Packet) : Option State :=
  match port with
  | none => some s
  | some q =>
    if p.channel ≠ 0 ∨ p.typ = tTickSync then some s
    else
      let rate := s.actBits .qos 0 0x044 19 0
      let burst := s.actBits .qos 0 0x048 15 0
      let b := match tblGet? s.qos.policer q with
        | some b => b.fill rate burst s.time
        | none => Bucket.restart true burst s.time
      let n := p.bytes + s.portOvh q
      if b.covers n then some { s with qos := { s.qos with policer := tblPut s.qos.policer q (b.take n) } } else none

/-- What a packet that arrives on a port meets before anything else: one that its policer discards is counted (R390); `go` takes any
other on. -/
def State.policed (s : State) (port : Nat) (p : Packet) (go : State → State) : State :=
  match s.police (some port) p with
  | none => (s.bump 0x90868).raise .qos 0 0
  | some s => go s

/-- The learned table of boot routing refreshed (R336): at most 64 entries, the least recently written replaced. -/
def State.learn (s : State) (port : Nat) (p : Packet) : State :=
  if p.epoch = 0 ∧ !s.rtr.v0Loaded ∧ p.dst = (if s.mgr.role = 2 then s.ep else s.rtr.annEp) then
    let l : Learned := { ep := p.src, port := port, mac := if s.portEth port then p.mac else 0 }
    { s with rtr := { s.rtr with learned := (l :: s.rtr.learned.filter (·.ep != p.src)).take 64 } }
  else s

/-- A packet received on a port: the router's and the bandwidth window's counts (R453, Table 14.14). -/
def State.received (s : State) (port : Nat) (p : Packet) (ctx : Option Nat) : State :=
  let q := port * 16 + p.channel
  let s := (s.tally .rtr 0 0x71 q 1 ctx).tally .rtr 0 0x73 q p.bytes ctx
  { s with tly := { s.tly with now := tblPut s.tly.now (2 * port + 1) (tblGet s.tly.now (2 * port + 1) 0 + p.bytes) } }

/-- A packet for another endpoint, forwarded or discarded (R332, R334, R339). -/
def State.transit (s : State) (port : Nat) (p : Packet) : State :=
  match s.route p.dst p.src p.epoch with
    | none => s.routeDrop p false (some port)
    | some (q, mac) =>
      if s.notCarried q p then s.routeDrop p false (some port)
      else if s.actBits .rtr 0 0x040 15 8 ≤ p.hops then s.routeDrop p true (some port)
      else
      let s := if p.epoch % 2 ≠ s.rtr.inject then s.tally .rtr 0 0x78 0 else s
      let s := if s.bootRouted p.epoch then s.tally .rtr 0 0x79 0 else s
      let p' := { p with hops := p.hops + 1 }
      let x : Queued := { pkt := p', mac := mac, came := if p.typ = tTickSync then some s.tick.count else none }
      (s.toQueue q (queueOf p' (s.actBits .qos 0 (0x060 + 4 * q) 1 0)) x).emit (.packet (some q) p')

/-- Whether a packet waits to be delivered to this module's own units, and the state with it taken (R331). -/
def State.takeLocal (s : State) (p : Packet) : Option State :=
  let q := s.queue selfQueue 0
  if q.any (·.pkt == p) then some (s.setQueue selfQueue 0 (q.eraseP (·.pkt == p))) else none

/-- An accepted request takes its inbound slot, quota and data buffer, and charges its meter (R356, R359, R362, R389). -/
def State.accept (s : State) (r : Rules) (port : Option Nat) (p : Packet) (yellow : Bool) (t : Row7) : State :=
  let ctx := s.contextOf r p
  let s := s.chargeMeter r port p ctx yellow
  let s := s.tally .txn 0 0x80 stOk 1 (some ctx)
  let s := s.tally .txn 0 0x81 p.typ 1 (some ctx)
  let s := s.tally .txn 0 0x82 p.channel 1 (some ctx)
  let s := if t = .walk then s.tally .txn 0 0x83 0 1 (some ctx) else s
  let x := s.source p.src
  let v : InSlot :=
    { src := p.src, tag := p.tag, port := port, eth := (port.map s.portEth).getD false, pkt := p, ctx := ctx
      key := s.keyRef p, phase := if t = .walk then .walk else .unit, yellow := yellow
      ext := match t with | .pass e _ => e | _ => none
      pa := match t with | .pass _ a => a | _ => 0
      dbuf := p.dataBeads, poison := p.poison && 0 < p.dataBeads }
  { s with txn := { s.txn with
      slots := tblPut s.txn.slots (slotKey p.src p.tag) v
      inUsed := s.txn.inUsed + 1
      dbufUsed := s.txn.dbufUsed + p.dataBeads
      quotaHeld := if port.isSome then s.txn.quotaHeld + 1 else s.txn.quotaHeld
      sources := if port.isSome then tblPut s.txn.sources p.src { x with count := x.count + 1 } else s.txn.sources } }

/-- The GCM tag of a packet verifies under the key it names (R416). -/
def State.tagOk (s : State) (p : Packet) : Bool :=
  match p.sec with
  | none => true
  | some _ => match s.keyRef p with
    | .slot n => p.gcm == p.tagUnder (s.keySlot n).key
    | .manager _ k => p.gcm == p.tagUnder k
    | .clear => false

/-- A packet discarded for a failed tag: its slot is freed without a completion (R356, R416). -/
def State.tagFailed (s : State) (port : Option Nat) (p : Packet) : State :=
  let s := ((s.freeSlot (slotKey p.src p.tag)).bump 0x4828).raise .sec 0 0
  match p.sec with
  | some x => if s.tagEvents then s.postMgr (keyRecord 0x00A1 x port) else s
  | none => s

/-- The window of a verified packet marked (R417). -/
def State.verified (s : State) (p : Packet) : State :=
  match p.sec with
  | some x => s.markWindow (windowSlot (s.keyRef p)) x.ep x.counter
  | none => s

/-- A done record's completion resent with DUP = 1 (R365). -/
def State.resendRecord (s : State) (d : DoneRec) : State :=
  let p := s.completion tCmpl d.src d.tag d.status d.data true true 0
  (s.sendCompletion p (if s.canSeal d.key then d.key else .clear) (some d.ctx)).bump 0x30828

/-- The verdict carried out on a packet for this module; an accepted packet whose tag verifies is acted on by `act`, which
is given its slot's key. -/
def State.serve (s : State) (r : Rules) (port : Option Nat) (p : Packet) (act : State → Nat → State) : State :=
  match s.verdict r port p with
  | (s, .discard) => s
  | (s, .resend d) => s.resendRecord d
  | (s, .refuse st bare) => s.refuse port p (s.contextOf r p) st (if bare then .clear else s.keyRef p)
  | (s, .accept yellow t) =>
    let s := s.accept r port p yellow t
    if s.tagOk p then act (s.verified p) (slotKey p.src p.tag) else s.tagFailed port p

/-- A command packet reaches the module: from its own units (R331), or on a port that is UP, where the policer (R390) comes first. One
for another endpoint is forwarded; one for this module takes its verdict. -/
def State.arrive (s : State) (r : Rules) (port : Fin 16) (p : Packet) (act : State → Nat → State) : State :=
  let p := r.form p
  match s.takeLocal p with
  | some s => s.serve r none p act
  | none =>
    if s.portUp port then
      (s.received port p none).policed port p fun s =>
        let s := s.learn port p
        if p.dst ≠ s.ep then s.transit port p else s.serve r (some port.val) p act
    else s

end Sys2Proof.Machine
end

