-- ==== Sys2Proof/Machine/Image.lean ====
section
/-!
DEFINITION. Reading a job's manifest (Tables 10.1–10.5), a frame's schedule (Tables 8.18–8.20, R188) and the accessors of
rods, frames, jobs, functions, movers and sessions.
-/

namespace Sys2Proof.Machine

/-! ### Manifests -/

/-- Counts of the manifest header (Table 10.1). -/
def mStages (m : List Byte) : Nat := field m 0x0D 1
def mStreams (m : List Byte) : Nat := field m 0x0E 1
def mFuncs (m : List Byte) : Nat := field m 0x0F 1
def mSections (m : List Byte) : Nat := field m 0x10 1
def mDescs (m : List Byte) : Nat := field m 0x14 4
def mPosrec (m : List Byte) : Nat := field m 0x18 8
def mLaunch (m : List Byte) : Nat := field m 0x20 8
def mTag (m : List Byte) : Nat := field m 0x28 8
def mKeys (m : List Byte) : List Nat := (List.range 4).map fun i => field m (0x30 + 2 * i) 2
def mWindows (m : List Byte) : List Nat := (List.range 4).map fun i => field m (0x38 + 2 * i) 2

/-- The entry of stage, stream, function and section `i` (Tables 10.2–10.5). -/
def mStage (m : List Byte) (i : Nat) : List Byte := (m.drop (64 + 32 * i)).take 32
def mStream (m : List Byte) (i : Nat) : List Byte := (m.drop (64 + 32 * mStages m + 16 * i)).take 16
def mFunc (m : List Byte) (i : Nat) : List Byte := (m.drop (64 + 32 * mStages m + 16 * mStreams m + 16 * i)).take 16
def mSection (m : List Byte) (i : Nat) : List Byte :=
  (m.drop (64 + 32 * mStages m + 16 * mStreams m + 16 * mFuncs m + 64 * i)).take 64

/-- Bytes of a whole manifest by its counts. -/
def mLength (m : List Byte) : Nat := 64 + 32 * mStages m + 16 * mStreams m + 16 * mFuncs m + 64 * mSections m

/-- Fields of a stage entry. -/
def stgRods (e : List Byte) : Nat := field e 0x00 1
def stgPlace (e : List Byte) : Nat := field e 0x01 1
def stgGroup (e : List Byte) : Nat := field e 0x02 1
def stgMovers (e : List Byte) : Nat := field e 0x03 1
def stgPc (e : List Byte) : Nat := field e 0x04 4
def stgCode (e : List Byte) : Nat := field e 0x08 4
def stgLive (e : List Byte) : Nat := field e 0x0C 1
def stgTriggers (e : List Byte) : Nat := field e 0x0D 1
def stgTile (e : List Byte) : Nat := field e 0x10 4
def stgFb (e : List Byte) : Nat := field e 0x14 4

/-- Fields of a stream entry. -/
def strProd (e : List Byte) : Nat := field e 0x00 1
def strProdRod (e : List Byte) : Nat := field e 0x01 1
def strCons (e : List Byte) : Nat := field e 0x02 1
def strConsRod (e : List Byte) : Nat := field e 0x03 1
def strProdSid (e : List Byte) : Nat := field e 0x04 1
def strConsSid (e : List Byte) : Nat := field e 0x05 1
def strFn (e : List Byte) : Nat := field e 0x06 1
def strDepth (e : List Byte) : Nat := field e 0x08 4

/-- Fields of a function entry. -/
def fnEntry (e : List Byte) : Nat := field e 0x00 1
def fnReply (e : List Byte) : Nat := field e 0x01 1
def fnDepth (e : List Byte) : Nat := field e 0x02 1
def fnAttend (e : List Byte) : Bool := bit (field e 0x03 1) 0
def fnArgBytes (e : List Byte) : Nat := field e 0x04 2
def fnReplyBytes (e : List Byte) : Nat := field e 0x06 2

/-- Fields of a section entry. -/
def secVa (e : List Byte) : Nat := field e 0x00 8
def secLen (e : List Byte) : Nat := field e 0x08 4
def secStage (e : List Byte) : Nat := field e 0x0C 1
def secKind (e : List Byte) : Nat := field e 0x0D 1
def secOffset (e : List Byte) : Nat := field e 0x10 4
def secDigest (e : List Byte) : Nat := field e 0x20 32

/-! ### Accessors -/

/-- A rod, frame, job, mover. -/
def State.rod (s : State) (i : Nat) : Rod := tblGet s.rods i {}
def State.setRod (s : State) (i : Nat) (r : Rod) : State := { s with rods := tblPut s.rods i r }
def State.frame (s : State) (f : Nat) : Frame := tblGet s.frames f {}
def State.setFrame (s : State) (f : Nat) (v : Frame) : State := { s with frames := tblPut s.frames f v }
def State.setJob (s : State) (j : Nat) (v : Job) : State := { s with jobs := tblPut s.jobs j v }
def State.mover (s : State) (m : Nat) : Mover := tblGet s.movers m {}
def State.setMover (s : State) (m : Nat) (v : Mover) : State := { s with movers := tblPut s.movers m v }
def State.setFn (s : State) (n : Nat) (v : Fn) : State := { s with fns := tblPut s.fns n v }
def State.session (s : State) (i : Nat) : Session := tblGet s.kvs.sessions i {}
def State.setSession (s : State) (i : Nat) (v : Session) : State :=
  { s with kvs := { s.kvs with sessions := tblPut s.kvs.sessions i v } }
def State.stream (s : State) (job i : Nat) : StreamSt := tblGet s.streams (job * 256 + i) {}
def State.setStream (s : State) (job i : Nat) (v : StreamSt) : State :=
  { s with streams := tblPut s.streams (job * 256 + i) v }

/-- The manifest entry of a function. -/
def State.fnEntryOf (s : State) (v : Fn) : List Byte :=
  match tblGet? s.jobs v.job with | some j => mFunc j.manifest v.index | none => []

/-- The context of a function. -/
def State.fnCtx (s : State) (v : Fn) : Nat := match tblGet? s.jobs v.job with | some j => j.ctx | none => 0

/-! ### Frame schedules (R188) -/

/-- The words of entry `n` of a frame's active schedule. -/
def State.entCtxWord (s : State) (f n : Nat) : Word := s.act .frm f (0x060 + 16 * n)
def State.entMemWord (s : State) (f n : Nat) : Word := s.act .frm f (0x064 + 16 * n)

/-- Context, live scratch in bytes, partition base and length in bytes, and save area of an entry. -/
def State.entCtx (s : State) (f n : Nat) : Nat := wbits (s.entCtxWord f n) 25 16
def State.entLive (s : State) (f n : Nat) : Nat := wbits (s.entMemWord f n) 31 24 * 4096
def State.entFbBase (s : State) (f n : Nat) : Nat := wbits (s.entMemWord f n) 6 0 * 0x10000
def State.entFbLen (s : State) (f n : Nat) : Nat := wbits (s.entMemWord f n) 15 8 * 0x10000
def State.entSave (s : State) (f n : Nat) : Nat :=
  wbits (s.act .frm f (0x068 + 16 * n)) 31 13 * 0x2000 + wbits (s.act .frm f (0x06C + 16 * n)) 24 0 * 2 ^ 32

/-- Entry `n` is valid: VALID, not context 0, and no earlier entry with VALID names its context. -/
def State.entValid (s : State) (f n : Nat) : Bool :=
  wbit (s.entCtxWord f n) 31 && s.entCtx f n != 0 &&
    (List.range n).all fun m => !(wbit (s.entCtxWord f m) 31 && s.entCtx f m == s.entCtx f n)

/-- The valid entries of a frame, rising. -/
def State.entries (s : State) (f : Nat) : List Nat := idxs 8 fun n => s.entValid f n

/-- Slice length of an entry in ticks. -/
def State.sliceTicks (s : State) (f n : Nat) : Nat := us (wbits (s.entCtxWord f n) 15 0)

/-- Anchor of a frame's schedule. -/
def State.anchor (s : State) (f : Nat) : Nat := (s.act .frm f 0x044).toNat + (s.act .frm f 0x048).toNat * 2 ^ 32

/-- The entry that a phase falls in, taking entries in order. -/
def entryAt (lens : List (Nat × Nat)) (p : Nat) : Option Nat :=
  match lens with
  | [] => none
  | (n, l) :: t => if p < l then some n else entryAt t (p - l)

/-- The current entry of a frame at a tick (R188). -/
def State.currentAt (s : State) (f tick : Nat) : Option Nat :=
  let es := s.entries f
  let lens := es.map fun n => (n, s.sliceTicks f n)
  let l := (lens.map (·.2)).sum
  if tick < s.anchor f then es.head? else entryAt lens ((tick - s.anchor f) % max l 1)

/-- The tick after `tick` at which the current entry next changes; none with fewer than two valid entries. -/
def State.nextBoundary (s : State) (f tick : Nat) : Option Nat :=
  let es := s.entries f
  let lens := es.map fun n => s.sliceTicks f n
  if es.length < 2 then none
  else
    let l := lens.sum
    let a := s.anchor f
    let first := lens.headD 0
    if tick < a then some (a + first)
    else
      let p := (tick - a) % l
      let ends := (List.range es.length).map fun i => (lens.take (i + 1)).sum
      match ends.find? fun e => p < e with
      | some e => some (tick + (e - p))
      | none => none

/-- The partition of a context in a frame: base and length in bytes (R185). -/
def State.partition (s : State) (f ctx : Nat) : Option (Nat × Nat) :=
  ((s.entries f).find? fun n => s.entCtx f n == ctx).map fun n => (s.entFbBase f n, s.entFbLen f n)

/-- The schedule entry of a context in a frame. -/
def State.entryOf (s : State) (f ctx : Nat) : Option Nat := (s.entries f).find? fun n => s.entCtx f n == ctx

/-- How many valid partitions hold a unit of the frame buffer. -/
def State.unitOwners (s : State) (f u : Nat) : List Nat :=
  (s.entries f).filter fun n => s.entFbBase f n / 0x10000 ≤ u && u < (s.entFbBase f n + s.entFbLen f n) / 0x10000

/-- The physical position of a logical rod (R183): its own, or 16 while the spare stands in for it. -/
def State.position (s : State) (f logical : Nat) : Nat := if (s.frame f).spareFor = some logical then 16 else logical

/-- The physical rod of a logical rod of a frame. -/
def State.physRod (s : State) (f logical : Nat) : Nat := 17 * f + s.position f logical

/-- The frame of a physical rod. -/
def rodFrame (i : Nat) : Nat := i / 17

/-- The logical rod a physical rod holds: its own position, or the one the spare stands in for (R187). -/
def State.logicalOf (s : State) (i : Nat) : Option Nat :=
  let spare := (s.frame (rodFrame i)).spareFor
  if i % 17 = 16 then spare else if spare = some (i % 17) then none else some (i % 17)

/-- The streams of a rod of a stage: index, local ID, and whether it sends. -/
def Job.endsOf (j : Job) (stage n : Nat) : List (Nat × Nat × Bool) :=
  (List.range (mStreams j.manifest)).flatMap fun i =>
    let e := mStream j.manifest i
    (if strProd e = stage ∧ strProdRod e = n then [(i, strProdSid e, true)] else []) ++
      (if strCons e = stage ∧ strConsRod e = n then [(i, strConsSid e, false)] else [])

/-- The frame of a stage of a job. -/
def Job.frameOf (j : Job) (stage : Nat) : Nat := (j.places.getD stage (0, [])).1

end Sys2Proof.Machine
end

