-- ==== Sys2Proof/Machine/Frames.lean ====
section
/-!
DEFINITION. The bytes of scratch and frame buffers with their SECDED and line poison (R150, R169, R184), partitions (R185), streams'
rings (R236), and the spare that follows a checked rod (R295–R297).
-/

namespace Sys2Proof.Machine

/-! ### Scratch and frame buffer as bytes and lines -/

/-- `n` bytes of a cell list from an offset. -/
def cellRead (m : List Host.Cell) (off n : Nat) : List Byte := (List.range n).map fun i => cellGet m (off + i)

/-- The 64-byte lines that `n` bytes from `off` touch. -/
def linesOf (off n : Nat) : List Nat := (List.range ((off + n + 63) / 64 - off / 64)).map fun i => off / 64 + i

/-- Whether a line of `n` bytes from `off` carries poison. -/
def badAt (bad : List Nat) (off n : Nat) : Bool := (linesOf off n).any fun l => bad.contains l

/-- Line poison after a write: a line written whole takes the mark, a line written in part keeps or gains it (R150, R152). -/
def markLines (bad : List Nat) (off n : Nat) (poison : Bool) : List Nat :=
  (linesOf off n).foldl (fun bad l =>
    if poison then (if bad.contains l then bad else bad ++ [l])
    else if off ≤ 64 * l ∧ 64 * l + 64 ≤ off + n then bad.erase l else bad) bad

/-- Bytes of a rod's scratch, and whether they carry poison. -/
def Rod.read (r : Rod) (off n : Nat) : List Byte × Bool := (cellRead r.scratch off n, badAt r.badLines off n)

/-- The 64-bit words of `n` bytes from `off` that are written whole, or touched. -/
def wholeWord (off n w : Nat) : Bool := decide (off ≤ 8 * w ∧ 8 * w + 8 ≤ off + n)
def touchesWord (off n w : Nat) : Bool := decide (off < 8 * w + 8 ∧ 8 * w < off + n)

/-- Bytes written to a rod's scratch: a word written whole gets a new code. -/
def Rod.write (r : Rod) (off : Nat) (b : List Byte) (poison : Bool) : Rod :=
  { r with scratch := cellPuts r.scratch off b, badLines := markLines r.badLines off b.length poison
           upsets := r.upsets.filter fun u => !wholeWord off b.length u.1 }

/-- Bytes of a frame buffer, by absolute offset, and whether they carry poison. -/
def Frame.read (v : Frame) (off n : Nat) : List Byte × Bool := (cellRead v.fb off n, badAt v.badLines off n)

/-- Bytes written to a frame buffer. -/
def Frame.write (v : Frame) (off : Nat) (b : List Byte) (poison : Bool) : Frame :=
  { v with fb := cellPuts v.fb off b, badLines := markLines v.badLines off b.length poison
           upsets := v.upsets.filter fun u => !wholeWord off b.length u.1 }

/-- A 64 KiB unit of a frame buffer zeroed, poison clear. -/
def Frame.zeroUnit (v : Frame) (u : Nat) : Frame :=
  { v with fb := v.fb.filter fun c => decide (c.1 / 0x10000 ≠ u)
           badLines := v.badLines.filter fun l => decide (l / 1024 ≠ u)
           upsets := v.upsets.filter fun w => decide (w.1 / 8192 ≠ u) }

/-- A unit served under a context: zeroed first when its owner is new (R185). -/
def Frame.own (v : Frame) (ctx u : Nat) : Frame :=
  if tblGet? v.owners u = some ctx then v else { v.zeroUnit u with owners := tblPut v.owners u ctx }

/-! ### SECDED of scratch and frame buffer (R150, R169, R184) -/

/-- The upsets of words among `n` bytes from `off` put right: one wrong bit is corrected and written back; more leave the word as it
is and set its line's poison (R150). Bytes, poisoned lines, and how many of each there were. -/
def secded (u : Tbl Nat) (m : List Host.Cell) (bad : List Nat) (off n : Nat) : List Host.Cell × List Nat × Nat × Nat :=
  (u.filter fun x => touchesWord off n x.1).foldl (fun a x =>
    if (idxs 72 fun i => bit x.2 i).length ≤ 1 then (a.1, a.2.1, a.2.2.1 + 1, a.2.2.2)
    else
      let w := (leNat (cellRead a.1 (8 * x.1) 8)).xor (x.2 % 2 ^ 64)
      (cellPuts a.1 (8 * x.1) (leBytes 8 w), markLines a.2.1 (8 * x.1) 8 true, a.2.2.1, a.2.2.2 + 1)) (m, bad, 0, 0)

/-- A sticky pair of 16-bit counts raised: CE [31:16], UE [15:0]. -/
def State.bumpErrors (s : State) (a ce ue : Nat) : State :=
  let w := s.reg a
  s.setReg a (BitVec.ofNat 32 (atMost 0xFFFF (wbits w 31 16 + ce) * 65536 + atMost 0xFFFF (wbits w 15 0 + ue)))

/-- Scratch of a rod about to be read: upsets in the range are found and counted in ROD_SRAM_ERR (Table 8.13). -/
def State.checkScratch (s : State) (i off n : Nat) : State :=
  let r := s.rod i
  if r.upsets.any fun u => touchesWord off n u.1 then
    let (m, bad, ce, ue) := secded r.upsets r.scratch r.badLines off n
    let s := s.setRod i { r with scratch := m, badLines := bad, upsets := r.upsets.filter fun u => !touchesWord off n u.1 }
    let s := s.bumpErrors (pageBase .rod i + 0x808) ce ue
    if ue = 0 then s else s.raise .rod i 1
  else s

/-- A frame buffer about to be read: the same, counted in FRM_FB_ERR (Table 8.24). -/
def State.checkFb (s : State) (f off n : Nat) : State :=
  let v := s.frame f
  if v.upsets.any fun u => touchesWord off n u.1 then
    let (m, bad, ce, ue) := secded v.upsets v.fb v.badLines off n
    let s := s.setFrame f { v with fb := m, badLines := bad, upsets := v.upsets.filter fun u => !touchesWord off n u.1 }
    let s := s.bumpErrors (pageBase .frm f + 0x810) ce ue
    if ue = 0 then s else s.raise .frm f 3
  else s

/-! ### Partitions (R185) -/

/-- What an access to a partition comes to: an absolute offset, FB_BOUNDS, or a wait for zeroing. -/
inductive FbAt where
  | open_ (off : Nat)
  | bounds
  | wait
deriving DecidableEq, Repr

/-- `n` bytes at an offset of a context's partition reached (R185). -/
def State.fbOpen (s : State) (f ctx off n : Nat) : State × FbAt :=
  match s.partition f ctx with
  | none => (s, .bounds)
  | some (b, l) =>
    let units := (List.range ((b + off + n - 1) / 0x10000 + 1 - (b + off) / 0x10000)).map fun i => (b + off) / 0x10000 + i
    if l < off + n then (s, .bounds)
    else if units.any (fun u => 2 ≤ (s.unitOwners f u).length) then (s, .bounds)
    else if units.any (fun u => (s.frame f).zeroing.contains u) then (s, .wait)
    else (s.setFrame f (units.foldl (fun v u => v.own ctx u) (s.frame f)), .open_ (b + off))

/-! ### A tile under check (R295) -/

/-- The check of a frame that a rod's tile is under, running. -/
def State.checkOf (s : State) (i : Nat) : Option Check :=
  match (s.frame (rodFrame i)).check with
  | some k => if k.phase = 1 ∧ s.physRod (rodFrame i) k.logical = i then some k else none
  | none => none

/-- A rod stopped by a vote: the rod whose tile is voted on (R298). -/
def State.inVote (s : State) (i : Nat) : Bool :=
  match (s.frame (rodFrame i)).check with
  | some k => k.phase != 1 && s.physRod (rodFrame i) k.logical == i
  | none => false

/-- A vote is under way in a frame. -/
def State.voting (s : State) (f : Nat) : Bool := (s.frame f).check.any fun k => k.phase != 1

/-- The third rod has run as far as the vote compares (R298, step 4). -/
def Check.thirdDone (k : Check) : Bool := k.thirdEnd || k.target.any fun n => decide (n ≤ k.thirdMade)

/-- A rod runs the tile that its frame votes on, as the third rod. -/
def State.runsVote (s : State) (i : Nat) : Bool :=
  (s.rod i).st == .checking && (s.frame (rodFrame i)).check.any fun k => k.phase == 3 && k.third == some (i % 17) && !k.thirdDone

/-- An element written into a stream's ring in a frame's partition, and counted (R236). -/
def State.putElement (s : State) (job i n : Nat) (f abs : Nat) (data : List Byte) (poison : Bool) : State :=
  let s := s.setFrame f ((s.frame f).write abs data poison)
  let v := s.stream job i
  s.setStream job i { v with written := max v.written (n + 1) }

/-- The frame a stream's ring lies in: the consumer's, or the producer's when the consumer is a mover or a function (R236). -/
def Job.ringFrame (j : Job) (i : Nat) : Nat :=
  let e := mStream j.manifest i
  if strCons e < 0xFD then j.frameOf (strCons e) else j.frameOf (strProd e)

/-- Where element `n` of a stream lies in its partition, and the elements its ring holds. -/
def Job.elementAt (j : Job) (i n : Nat) : Nat := j.rings.getD i 0 + 128 * n % max 128 (strDepth (mStream j.manifest i))
def Job.ringSize (j : Job) (i : Nat) : Nat := strDepth (mStream j.manifest i) / 128

/-- A stream's ring element reached in its frame. -/
def State.ringOpen (s : State) (job i n : Nat) : State × Nat × FbAt :=
  match tblGet? s.jobs job with
  | none => (s, 0, .bounds)
  | some j =>
    let f := j.ringFrame i
    let (s, a) := s.fbOpen f j.ctx (j.elementAt i n) 128
    (s, f, a)

/-- One held write performed. -/
def State.perform (s : State) (f : Nat) (w : OutWrite) : State :=
  match w with
  | .fb off data poison => s.setFrame f ((s.frame f).write off data poison)
  | .stream job i n data poison =>
    match s.ringOpen job i n with
    | (s, g, .open_ a) => s.putElement job i n g a data poison
    | (s, _, _) => s

/-- A frame's check changed. -/
def State.setCheck (s : State) (f : Nat) (k : Option Check) : State := s.setFrame f { s.frame f with check := k }

/-- S has produced R's writes up to number `n`: those held up to there are performed (R295). -/
def State.produce (s : State) (f n : Nat) : State :=
  match (s.frame f).check with
  | none => s
  | some k =>
    let go := k.held.filter fun w => decide (w.1 ≤ n)
    let s := go.foldl (fun s w => s.perform f w.2) s
    s.setCheck f (some { k with held := k.held.filter fun w => !decide (w.1 ≤ n), performed := k.performed + go.length
                                produced := max k.produced n })

/-- S executes the first `n` instructions it is behind: its registers become what R's were, and R's writes up to there are produced. -/
def State.follow (s : State) (f n : Nat) : State :=
  match (s.frame f).check with
  | none => s
  | some k =>
    match (k.lag.take n).getLast? with
    | none => s
    | some x =>
      let s := s.setRod (17 * f + 16) { s.rod (17 * f + 16) with regs := x.1 }
      (s.setCheck f (some { k with lag := k.lag.drop n })).produce f x.2

/-- S has caught up with R. -/
def State.followAll (s : State) (f : Nat) : State :=
  match (s.frame f).check with
  | none => s
  | some k => (s.follow f k.lag.length).produce f k.made

/-- Before a checked rod issues again S, 8 enabled cycles behind, has executed some of what it is behind, 8 instructions being the most
that it can be (assumption 14). -/
def State.catchUp (s : State) (i : Nat) : State :=
  match s.checkOf i with
  | none => s
  | some k =>
    if k.lag.isEmpty then s
    else let (n, s) := s.free; s.follow (rodFrame i) (max (k.lag.length - 7) (n % (k.lag.length + 1)))

/-- The spare of a frame is free again; quarantined it stays. -/
def State.freeSpare (s : State) (f : Nat) : State :=
  if (s.rod (17 * f + 16)).st = .checking then s.setRod (17 * f + 16) {} else s

/-- The third rod of a vote zeroes its scratch and restores its own record, or returns to idle: what is current in its frame decides
(R298, step 6). -/
def State.returnThird (s : State) (f pos : Nat) : State :=
  let i := 17 * f + pos
  if (s.rod i).st = .checking then s.setRod i { st := .zeroing, incoming := (s.frame f).cur, switchAt := s.time } else s

/-- A check ends without a vote, or a vote is cut off: counted in FRM_CHECK_ABANDONED (R297). -/
def State.abandonCheck (s : State) (f : Nat) : State :=
  match (s.frame f).check with
  | none => s
  | some k =>
    let s := match k.third with | some x => s.returnThird f x | none => s
    ((s.setCheck f none).freeSpare f).bump (pageBase .frm f + 0x820)

/-- A check abandoned: S completes the comparisons of the writes R has made, and they are performed (R297). -/
def State.endCheck (s : State) (f : Nat) : State := (s.followAll f).abandonCheck f

end Sys2Proof.Machine
end

