-- ==== Sys2Proof/Machine/Loads.lean ====
section
/-!
DEFINITION. The counting boards as tables (R344, R347), and what the loader of this module holds here for its jobs: the schedule
entries and windows it filled, and their removal when a job is gone (R243, R250, R348).
-/

namespace Sys2Proof.Machine

/-! ### Windows and ticks held in registers -/

/-- A word of a window table; 0 is not listed. -/
def wordPut (m : RegMap) (a : Nat) (w : Word) : RegMap := if w = 0 then tblDel m a else tblPut m a w

/-- A 64-bit tick held in two registers. -/
def State.regTick (s : State) (lo hi : Nat) : Nat := (s.reg lo).toNat + (s.reg hi).toNat * 2 ^ 32

/-- One counting-board window (Table 14.5). -/
structure BoardWin where
  index : Nat
  mask : Nat
  context : Nat
  anyCtx : Bool
  anyDst : Bool
  dst : Nat
  start : Nat
  len : Nat
deriving DecidableEq, Repr

/-- Window offset of bank `b` of port `p`. -/
def boardBase (p b : Nat) : Nat := 0x880000 + 0x8000 * p + 0x4000 * b

/-- A word of the counting-board window. -/
def State.boardWord (s : State) (a : Nat) : Word := (tblGet? s.rtr.board a).getD 0

/-- The window whose first word lies at `a`. -/
def State.boardWin (s : State) (a : Nat) : BoardWin :=
  let w0 := s.boardWord a
  let w1 := s.boardWord (a + 4)
  { index := a % 0x4000 / 16, mask := wbits w0 21 16, context := wbits w0 9 0, anyCtx := wbit w1 31, anyDst := wbit w1 30
    dst := wbits w1 11 0, start := (s.boardWord (a + 8)).toNat, len := (s.boardWord (a + 12)).toNat }

/-- The valid windows of a bank of a port, by index. -/
def State.boardWins (s : State) (p b : Nat) : List BoardWin :=
  (s.rtr.board.filter fun w => decide (boardBase p b ≤ w.1 ∧ w.1 < boardBase p b + 0x4000) && w.1 % 16 == 0 && wbit w.2 31).map
    fun w => s.boardWin w.1

/-! ### Jobs the loader holds here -/

/-- A job as its load holds it. -/
def Load.asJob (l : Load) : Job :=
  { ctx := l.ctx, launch := l.launch, manifest := l.manifest, places := l.places, rings := l.rings, fns := l.fns }

/-- Jobs placed on this module or reserved for it: handle and job. -/
def State.heldJobs (s : State) : List (Nat × Job) :=
  s.jobs ++ (s.loads.filter fun l => l.target == s.ep && l.phase == .placing && (tblGet? s.jobs l.job).isNone).map
    fun l => (l.job, l.asJob)

/-- Stages of a job in a frame. -/
def Job.stagesIn (j : Job) (f : Nat) : List Nat := idxs j.places.length fun i => j.frameOf i == f

/-! ### Changes the loader makes -/

/-- A swap is armed, or accepted and waiting for its floor (R85, rule 4). -/
def State.swapArmed (s : State) : Bool :=
  s.cc.swap.isSome || (match s.cc.floorWait with | some (_, c, _) => c.op == 0x03 && field c.body 4 4 == 0 | none => false)

/-- A shadow register of a frame written by the loader. -/
def State.putShadow (s : State) (f off v : Nat) : State :=
  { s with shadow := cfgPut s.shadow (pageBase .frm f + off) (BitVec.ofNat 32 v) }

/-- A tick at or before `launch` and not before the lead, for an event the loader arms. -/
def State.tickBefore (s : State) (launch : Nat) : State × Nat :=
  let (r, s) := s.free
  let lo := s.tick.count + s.actBits .clk 0 0x040 15 0 * 1000
  (s, if launch ≤ lo then lo else lo + r % (launch - lo + 1))

/-- A swap armed by the loader, unless one is armed. -/
def State.armSwap (s : State) (tick : Nat) : State :=
  if s.swapArmed then s
  else
    let (id, s) := s.free
    { s with cc := { s.cc with swap := some (id % 2 ^ 32, tick) } }

/-- A board switch armed by the loader, unless one is armed. -/
def State.armBoard (s : State) (tick : Nat) : State :=
  if s.rtr.boardArmed.isSome then s else { s with rtr := { s.rtr with boardArmed := some tick } }

/-- The inactive bank made a copy of the active one, PERIOD and ANCHOR too. -/
def State.copyBoard (s : State) : State :=
  let a := s.rtr.boardActive
  let mine (k b : Nat) : Bool := k % 0x8000 / 0x4000 == b
  let live := s.rtr.board.filter fun w => mine w.1 a
  let flip (k : Nat) : Nat := if a = 0 then k + 0x4000 else k - 0x4000
  let s := { s with rtr := { s.rtr with board := live.foldl (fun m w => tblPut m (flip w.1) w.2) live } }
  [0, 4, 8].foldl (fun s o => s.setReg (0x20818 + 0xC * (1 - a) + o) (s.reg (0x20818 + 0xC * a + o))) s

/-- One window removed from the inactive bank. -/
def State.dropWindow (s : State) (w : Nat × Nat) : State :=
  let base := boardBase w.1 (1 - s.rtr.boardActive)
  match (s.boardWins w.1 (1 - s.rtr.boardActive)).find? fun x => x.start == w.2 with
  | none => s
  | some x => { s with rtr := { s.rtr with board := s.rtr.board.filter fun k => !(decide (base + 16 * x.index ≤ k.1 ∧ k.1 < base + 16 * x.index + 16)) } }

/-- A load of a job that is gone with the changes removed that no armed swap or switch holds back. -/
def Load.cleared (l : Load) (ep : Nat) (entries windows : Bool) : Load :=
  if l.phase = .clearing ∧ l.target = ep then { l with entries := if entries then [] else l.entries, windows := if windows then [] else l.windows }
  else l

/-- Schedule changes and windows of jobs that are gone removed, as far as no swap and no switch is armed (R250, R348). -/
def State.loaderClear (s : State) : State :=
  let gone := s.loads.filter fun l => l.phase == .clearing && l.target == s.ep
  let busyE := s.swapArmed || s.loads.any fun l => l.target == s.ep && l.phase == .placing && !l.entries.isEmpty
  let busyW := s.rtr.boardArmed.isSome
  let entries := if busyE then [] else gone.flatMap (·.entries)
  let windows := if busyW then [] else gone.flatMap (·.windows)
  let left := (s.loads.map fun l => l.cleared s.ep (!busyE) (!busyW)).filter fun (l : Load) =>
    l.phase != LoadPhase.clearing || !l.entries.isEmpty || !l.windows.isEmpty || !l.todo.isEmpty
  let s := { s with loads := left }
  let live := entries.any fun e => wbit (s.entCtxWord e.1 e.2) 31
  let s := if entries.isEmpty then s else { s with shadow := s.active }
  let s := entries.foldl (fun s e => s.putShadow e.1 (0x060 + 16 * e.2) 0x3E8) s
  let (s, t) := s.tickBefore 0
  let s := if live then s.armSwap t else s
  if windows.isEmpty then s else (windows.foldl (fun (s : State) w => s.dropWindow w) s.copyBoard).armBoard t

/-- The reservations of a job of this module released. Entries another job of the context still uses pass to that job (R250). -/
def State.releaseHere (s : State) (l : Load) : State :=
  let rest := s.loads.filter fun x => !(x.target == l.target && x.job == l.job)
  let s := { s with loads := rest }
  let heir (f : Nat) : Bool := s.heldJobs.any fun j => j.1 != l.job && j.2.ctx == l.ctx && !(j.2.stagesIn f).isEmpty
  let kept := l.entries.filter fun e => heir e.1
  let give (x : Load) : Load :=
    if x.target = s.ep ∧ x.ctx = l.ctx then { x with entries := x.entries ++ kept.filter fun e => x.places.any fun p => p.1 == e.1 } else x
  let s := { s with loads := rest.map give }
  let gone := l.entries.filter fun e => !heir e.1
  let wins := if l.phase = .placing then [] else l.windows
  if gone.isEmpty && wins.isEmpty then s
  else State.loaderClear { s with loads := s.loads ++ [{ l with phase := .clearing, slot := noKey, entries := gone, windows := wins }] }


/-- A context that is destroyed loses what the loader holds for its jobs here, without a JOB_UNLOAD (R250). -/
def State.releaseCtx (s : State) (c : Nat) : State :=
  (s.loads.filter fun l => l.target == s.ep && l.ctx == c && l.phase == .placed).foldl State.releaseHere s

end Sys2Proof.Machine
end

