-- ==== Sys2Proof/Machine/Stop.lean ====
section
/-!
DEFINITION. A context's work stopped: its rods cleared, transfers ended, calls completed CONTEXT_GONE, jobs removed and
sessions closed (Table 18.7 step 2, R154, R192, R261), and the termination of a context by its own fault (R153, R154, R194).
-/

namespace Sys2Proof.Machine

/-! ### Requests forced to end -/

/-- A queued request that works for an inbound slot. -/
def MemReq.isFor (r : MemReq) (key : Nat) : Bool :=
  match r.origin with
  | .slot k _ | .home k _ | .old k _ => k == key
  | _ => false

/-- A unit's requests for a slot: those not issued are taken out, what waits on the beam taking their place, and what an issued one
returns is discarded (R114, step 5). -/
def Unit.detach (u : Unit) (key now : Nat) : Unit :=
  Unit.fromBeam (now := now) { u with
    reads := u.reads.filter fun r => !r.isFor key
    writes := u.writes.filter fun r => !r.isFor key
    beam := u.beam.filter fun r => !r.isFor key
    dram := u.dram.map fun r => if r.isFor key then { r with origin := .discard } else r }

/-- A line without the requests of a slot; the one being served ends without effect of its own. -/
def Line.detach (l : Line) (key : Nat) : Line :=
  if l.serving then
    match l.waiting with
    | [] => l
    | h :: t => { l with waiting := (if h.1 = key then (noKey, 0) else h) :: t.filter fun w => w.1 != key }
  else { l with waiting := l.waiting.filter fun w => w.1 != key }

/-- A held write without the requests of a slot. -/
def HeldWrite.detach (h : HeldWrite) (key : Nat) : HeldWrite :=
  { h with who := (match h.who with | some (k, i) => some (if k = key then noKey else k, i) | none => none)
           behind := h.behind.filter fun b => b.1 != key }

/-- Calls of a session, among those of a slot that have not ended. -/
def State.callsOf (s : State) (key session : Nat) : Nat :=
  ((s.fns.flatMap fun f => f.2.waiting ++ f.2.inPipe.filter fun c => !c.discarded).filter fun c =>
    c.attend && c.slot == key && c.session == session).length

/-- Everything that works for an inbound slot is taken off it (R114 step 5, R411, R424). -/
def State.detach (s : State) (key : Nat) : State :=
  let call (c : Call) : Bool := c.slot != key
  { s with
    ctl := tblMap s.ctl fun _ c => { c with units := tblMap c.units fun _ u => u.detach key s.time }
    dir := tblMap s.dir fun _ d => { d with lines := tblMap d.lines fun _ l => l.detach key }
    ecc := { s.ecc with
      held := s.ecc.held.map fun h => h.detach key
      gathers := s.ecc.gathers.map fun g =>
        { g with fwds := g.fwds.erase key
                 waiters := g.waiters.filter fun w => w.1 != key
                 want := match g.want with
                   | .repair r b => .repair (if r.isFor key then { r with origin := .discard } else r) b
                   | .recon k i => .recon (if k = key then noKey else k) i
                   | w => w } }
    xlt := { s.xlt with walks := s.xlt.walks.map fun w => { w with slots := w.slots.erase key } }
    fns := tblMap s.fns fun _ f =>
      { f with waiting := f.waiting.filter call
               inPipe := f.inPipe.map fun c => if c.slot = key then { c with discarded := true } else c }
    kvs := { s.kvs with sessions := tblMap s.kvs.sessions fun i v => { v with calls := v.calls - s.callsOf key i } }
    ten := { s.ten with attests := s.ten.attests.filter fun a => a.slot != key }
    qos := { s.qos with hosts := tblMap s.qos.hosts fun _ h => { h with waiting := h.waiting.filter fun w => w.2 != key } }
    jobs := tblMap s.jobs fun _ j => if j.removing = some key then { j with removing := none } else j
    placing := s.placing.erase key
    loads := s.loads.map fun l => if l.slot = key then { l with slot := noKey } else l }

/-- An accepted request forced to end with a status, its effects not performed where memory has not begun them. -/
def State.force (s : State) (key status : Nat) : State := (s.detach key).complete key status

/-- A rod stopped at once: its state discarded, its scratch under zeroing (R154, R192). A quarantined rod stays so. -/
def Rod.clear (r : Rod) : Rod :=
  if r.st = .quarantined then r
  else { st := .zeroing, incoming := r.incoming, switching := r.switching, leaving := r.leaving }

/-- A rod of a context that stops: a check of its tile is abandoned, its comparisons completed, or the vote on its tile cut off; a vote
that it was to be the third rod of seeks another (R297, R298). -/
def State.stopChecked (s : State) (i : Nat) : State :=
  let f := rodFrame i
  match (s.frame f).check with
  | none => s
  | some k =>
    if s.physRod f k.logical = i then (if k.phase = 1 then s.endCheck f else s.abandonCheck f)
    else if k.third = some (i % 17) ∧ (s.rod i).st = .saving then s.setCheck f (some { k with third := none })
    else s

/-- The rods of a context stopped and cleared (R154, R192). -/
def State.clearRods (s : State) (c : Nat) : State :=
  let s := (s.rods.filter fun r => r.2.ctx == c).foldl (fun s r => s.stopChecked r.1) s
  { s with rods := tblMap s.rods fun _ r => if r.ctx = c ∧ r.st ≠ .checking then r.clear else r }

/-- A context's frame-buffer partitions put under zeroing; a unit it held elsewhere is zeroed before its next access, whoever makes
it (R185). -/
def State.zeroPartitions (s : State) (c : Nat) : State :=
  (List.range 32).foldl (fun s f =>
    match s.partition f c with
    | none => s
    | some (b, l) =>
      let units := (List.range (l / 0x10000)).map fun i => b / 0x10000 + i
      let v := s.frame f
      s.setFrame f { v with zeroing := v.zeroing ++ units.filter fun u => !v.zeroing.contains u })
    { s with frames := tblMap s.frames fun _ v => { v with owners := v.owners.filter fun o => o.2 != c } }

/-- One call of a function completed; an ATTEND lowers its session's CALLS and replies with its head alone (R277). -/
def State.endCall (s : State) (c : Call) (status : Nat) (data : List Byte := []) : State :=
  let s := if c.attend then
      let v := s.session c.session
      s.setSession c.session { v with calls := v.calls - 1 }
    else s
  s.complete c.slot status data

/-- The head of an ATTEND reply (Table 11.8), from its request's body. -/
def attendHead (b : List Byte) (blocks : Nat) : List Byte :=
  b.take 4 ++ (b.drop 4).take 4 ++ (b.drop 0x20).take 8 ++ (b.drop 0x10).take 2 ++ (b.drop 0x13).take 1 ++ zeroBytes 1 ++
    leBytes 4 blocks ++ zeroBytes 40

/-- A call ended without a reply group: an ATTEND carries the head alone (R277). -/
def State.abortCall (s : State) (c : Call) (status : Nat) : State :=
  let data := match s.slot? c.slot with
    | some v => if c.attend then attendHead v.pkt.body c.blocks else []
    | none => []
  s.endCall c status data

/-- Every call of a function ended with a status: those waiting and those in the pipeline not yet discarded (R248). -/
def State.abortCalls (s : State) (v : Fn) (status : Nat) : State :=
  (v.waiting ++ v.inPipe.filter fun c => !c.discarded).foldl (fun s c => s.abortCall c status) s

/-- A job's records, functions, rings and trigger entries released (R250). -/
def State.dropJob (s : State) (j : Nat) : State :=
  match tblGet? s.jobs j with
  | none => s
  | some v =>
    let s := { s with
      jobs := tblDel s.jobs j
      fns := tblFilter s.fns fun _ f => f.job != j
      streams := tblFilter s.streams fun k _ => k / 256 != j
      movers := tblMap s.movers fun _ m => { m with xfers := m.xfers.filter fun x => x.job != j }
      rods := tblMap s.rods fun _ r => if (r.job.map (·.1)) = some j ∧ r.st ≠ .checking then { r.clear with ctx := 0 } else r }
    match v.removing with
    | some k => s.complete k stOk
    | none => s

/-! ### Run-ahead discarded (R257) -/

/-- Bytes a transfer has read ahead. -/
def Xfer.aheadBytes (x : Xfer) : Nat := (x.ahead.map fun a => a.data.length + a.scales.length).sum

/-- A transfer without its run-ahead; what a REMOTE read in flight brings is dropped when it comes. -/
def Xfer.discard (x : Xfer) : Xfer := { x with ahead := [], reading := none, reads := 0, got := [], gotBad := false }

/-- The run-ahead of the transfers of mover `m` that `gone` picks, discarded with its translations, and counted. -/
def State.discardAt (s : State) (m : Nat) (gone : Xfer → Bool) : State :=
  let v := s.mover m
  if !(v.xfers.any fun x => gone x && decide (x.discard ≠ x)) then s
  else
    let n := ((v.xfers.filter gone).map Xfer.aheadBytes).sum
    let used := (v.xfers.filter gone).flatMap fun x => x.ahead.flatMap (·.used)
    let s := s.setMover m { v with
      xfers := v.xfers.map fun x => if gone x then x.discard else x
      lookaside := v.lookaside.filter fun e => !used.contains e
      discarded := v.discarded + n }
    if n = 0 then s else s.raise .mov m 2

/-- The same at every mover. -/
def State.discardAhead (s : State) (gone : Xfer → Bool) : State :=
  (s.movers.map (·.1)).foldl (fun s m => s.discardAt m gone) s

/-- Everything a quiescing context runs is stopped (Table 18.7, step 2). -/
def State.stopWork (s : State) (c : Nat) : State :=
  let s := ((s.clearRods c).zeroPartitions c).discardAhead fun x => x.ctx == c
  let s := { s with movers := tblMap s.movers fun _ m => { m with xfers := m.xfers.filter fun x => x.ctx != c } }
  let s := (s.fns.filter fun f => s.fnCtx f.2 == c).foldl (fun s f => s.abortCalls f.2 stContextGone) s
  let s := (s.jobs.filter fun j => j.2.ctx == c).foldl (fun s j => s.dropJob j.1) s
  let s := s.releaseCtx c
  { s with kvs := { s.kvs with
      sessions := tblMap s.kvs.sessions fun _ v => if v.ctx = c ∧ v.st = .opened then { v with st := .closing } else v } }

/-- A context goes QUIESCING with a cause (R401): 1 CONTEXT_DESTROY, 2 POISON_CONSUMED, 3 ROD_FAULT. -/
def State.quiesce (s : State) (c cause : Nat) : State :=
  let v := s.ctx c
  (s.setCtx c { v with st := .quiescing, cause := cause }).stopWork c

/-- A context terminated for consuming poison (R153, R154): `point` 0 a scalar register, 1 a descriptor or record, 2 an
argument block; `who` the rod or mover. -/
def State.poisonConsumed (s : State) (c point who kind : Nat) : State :=
  if (s.ctx c).st ≠ .active then s
  else
    let r : Record := { typ := 0x0023, cls := 1, ctx := c, source := kind * 0x1000 + who % 0x1000,
                        detail := detail [(0, [byte point]), (2, leBytes 2 who)] }
    let s := (s.quiesce c 2).raise .ecc 0 2
    ((s.post c r).postMgr r).bump 0x80818

/-- The records, register and event bits of a rod fault (R194, Table 8.9). -/
def State.noteRodFault (s : State) (i code : Nat) : State :=
  let r := s.rod i
  let d := detail [(0, [byte code]), (2, leBytes 2 i)]
  let base : Record := { typ := 0x0030, cls := 1, ctx := r.ctx, source := 0x2000 + i % 0x1000, detail := d }
  let s := s.setReg (pageBase .rod i + 0x804) (BitVec.ofNat 32 (2 ^ 31 + r.ctx % 1024 * 2 ^ 10 + code))
  let s := (s.post r.ctx { base with detail := overlay d 8 (leBytes 4 r.regs.pc) }).postMgr base
  (s.raise .frm (rodFrame i) 0).raise .rod i 0

/-- A rod fault terminates the rod's context (R194). -/
def State.rodFault (s : State) (i code : Nat) : State :=
  let c := (s.rod i).ctx
  let s := s.noteRodFault i code
  if (s.ctx c).st = .active then s.quiesce c 3 else s

/-- A rod reads the calls of a function: its stage is the consumer of an entry stream. -/
def State.takesCalls (s : State) (r : Rod) : Bool :=
  match r.job with
  | none => false
  | some (j, st, n) => match tblGet? s.jobs j with
    | none => false
    | some v => (v.endsOf st n).any fun x => !x.2.2 && strProd (mStream v.manifest x.1) == 0xFE

/-- The point of R153 that a rod's consumption is reported under: 0, and where the rod takes calls 0 or 2, a free value (assumption
158). -/
def State.poisonPoint (s : State) (i : Nat) : Nat × State :=
  if s.takesCalls (s.rod i) then let (n, s) := s.free; (n % 2 * 2, s) else (0, s)

/-- A rod consumes poison at a point of R153: fault code 0x05 (Table 8.9), and its context ends with cause POISON_CONSUMED
(R154). -/
def State.rodPoison (s : State) (i : Nat) : State :=
  let c := (s.rod i).ctx
  let (point, s) := s.poisonPoint i
  (s.noteRodFault i 5).poisonConsumed c point i 2

end Sys2Proof.Machine
end

