-- ==== Sys2Proof/Machine/Tenancy.lean ====
section
/-!
DEFINITION. Contexts and keys (18_tenancy.md): the critical checks and effects of KEY_INSTALL, KEY_RETIRE, CONTEXT_CREATE
and CONTEXT_DESTROY, references, retirement and removal, the manager key, and attestation.
-/

namespace Sys2Proof.Machine

/-! ### References (R410) -/

/-- Static references of a key slot: loaded jobs that list it, protected extents forwarding under it and coherent extents
snooping under it, while ACTIVE or DRAINING (R410). -/
def State.staticRefs (s : State) (n : Nat) : Nat :=
  (s.jobs.filter fun j => (mKeys j.2.manifest).contains n).length +
  (s.xlt.extents.filter fun e =>
    (e.2.st == .active || e.2.st == .draining) && e.2.prot != 0 && ((tblGet? s.ecc.prots e.1).map (·.keysel)) == some n).length +
  (s.xlt.extents.filter fun e => (e.2.st == .active || e.2.st == .draining) && e.2.coh && e.2.snoopKey == some n).length

/-- Dynamic references: inbound slots accepted, and outbound slots issued, under the key (R410). -/
def State.dynamicRefs (s : State) (n : Nat) : Nat :=
  (s.txn.slots.filter fun v => v.2.key == .slot n).length +
  (s.txn.outs.filter fun o => o.2.req.isSome && o.2.key == .slot n).length

/-- REFS of a slot. -/
def State.keyRefs (s : State) (n : Nat) : Nat := s.staticRefs n + s.dynamicRefs n

/-- A slot zeroized: key and KEY_ID overwritten, replay windows cleared (R411); the generation stays. -/
def State.zeroize (s : State) (n : Nat) (st : KeyState) : State :=
  let k := s.keySlot n
  let s := s.setKey n { st := st, owner := if st = .empty then 0 else k.owner, kgen := k.kgen }
  { s with ten := { s.ten with windows := s.ten.windows.filter fun w => w.slot != n } }

/-- Dynamic references of a slot ended (R411): requests holding an inbound slot complete KEY_RETIRED without data and with
SEC = 0; outbound requests end and their slots enter the guard. The outbound slots ended are answered too. -/
def State.endKeyRefs (s : State) (n : Nat) : State × List (Nat × Packet × Purpose) :=
  let ins := s.txn.slots.filter fun v => v.2.key == .slot n
  let s := ins.foldl (fun s v => (s.setSlot v.1 { v.2 with key := .clear }).force v.1 stKeyRetired) s
  let outs := s.txn.outs.filterMap fun o => match o.2.req with
    | some (req, what) => if o.2.key = .slot n then some (o.1, req, what) else none
    | none => none
  (outs.foldl (fun s o => s.guardOutSlot o.1) s, outs)

/-! ### Wrapped keys (R407) -/

/-- The wrapped key of a critical command under its context's transport key: the key, if the tag verifies. -/
def State.unwrapped (s : State) (c : Crit) : Option Nat :=
  let x := s.ctx c.ctx
  match x.tk with
  | none => none
  | some tk =>
    if x.wrapCtr + 1 ≥ 2 ^ 64 - 1 then none
    else
      let aad := ascii "FRENTO-WRAP-1" ++ leBytes 8 Config.serial.toNat ++ [byte c.op] ++ leBytes 2 c.ctx ++
        c.body.take 8
      Config.unwrapKey tk (x.wrapCtr + 1) aad (c.body.drop 8)

/-- WRAP_CTR advanced once a wrapped key has verified (R407). -/
def State.advanceWrap (s : State) (c : Nat) : State := s.setCtx c { s.ctx c with wrapCtr := (s.ctx c).wrapCtr + 1 }

/-! ### KEY_INSTALL and KEY_RETIRE (R408, R409) -/

/-- SLOT and KEY_ID of a KEY_INSTALL; SLOT of a KEY_RETIRE. -/
def Crit.slot (c : Crit) : Nat := field c.body 0 2
def Crit.keyId (c : Crit) : Nat := field c.body 4 4

/-- The checks of R408 before the unwrap. -/
def checkKeyInstall (s : State) (c : Crit) : Nat :=
  let x := s.ctx c.ctx
  if s.ten.debugUnlocked then stUnsupported
  else if c.ctx = 0 ∨ 1024 ≤ c.ctx ∨ x.st = .free then stMalformed
  else if x.st ≠ .active then stContextGone
  else if (s.keySlot c.slot).st ≠ .empty then stBusy
  else if c.keyId = 0 ∨ s.ten.keys.any (fun k => k.1 != c.slot && k.2.st != .empty && k.2.keyId == c.keyId) then stMalformed
  else stOk

/-- A key taken into its slot, ACTIVE or ARMED, KGEN raised and both transmit counters 0 (R408). -/
def State.takeKey (s : State) (c : Crit) (key : Nat) (st : KeyState) : State :=
  let k := s.keySlot c.slot
  s.setKey c.slot { st := st, key := key, keyId := c.keyId, owner := c.ctx, kgen := (k.kgen + 1) % 65536 }

/-- The checks of R409. -/
def checkKeyRetire (s : State) (c : Crit) : Nat :=
  let k := s.keySlot c.slot
  let leaving := (s.ctx c.ctx).st = .quiescing ∨ (s.ctx c.ctx).st = .removing
  if k.st ≠ .empty ∧ k.owner ≠ c.ctx then stMalformed
  else if k.st ≠ .empty ∧ ¬leaving ∧ s.xlt.extents.any (fun e => e.2.st == .active &&
      ((e.2.prot != 0 && ((tblGet? s.ecc.prots e.1).map (·.keysel)) == some c.slot) ||
        (e.2.coh && e.2.snoopKey == some c.slot))) then stBusy
  else stOk

/-- A retire acts (R409): ARMED is zeroized, ACTIVE becomes RETIRING with its deadline. -/
def State.retireKey (s : State) (n zeroizeUs : Nat) : State :=
  let k := s.keySlot n
  if k.st = .armed then s.zeroize n .empty
  else if k.st = .active then
    let z := if zeroizeUs = 0 then s.actBits .sec 0 0x040 31 16 else zeroizeUs
    s.setKey n { k with st := .retiring, deadline := s.time + us z }
  else s

/-! ### CONTEXT_CREATE and CONTEXT_DESTROY (R402, R423) -/

/-- Members of a CONTEXT_CREATE body (Table 18.2). -/
def Crit.members (c : Crit) : List Nat := (List.range (field c.body 0 2)).map fun i => field c.body (0x28 + 2 * i) 2

/-- Lengths and reserved bits of Table 18.2 and distinct members. -/
def createShape (c : Crit) : Bool :=
  let n := field c.body 0 2
  1 ≤ n && n ≤ 256 && c.body.length == (40 + 2 * n + 7) / 8 * 8 && field c.body 2 1 < 2 && zeros c.body 3 5 &&
    c.members.all (· < 4096) && c.members.eraseDups.length == n && zeros c.body (0x28 + 2 * n) 8

/-- The checks of R402. -/
def checkContextCreate (s : State) (c : Crit) : Nat :=
  let x := s.ctx c.ctx
  if s.ten.debugUnlocked then stUnsupported
  else if c.ctx = 0 ∨ 1024 ≤ c.ctx ∨ createShape c = false then stMalformed
  else if s.cc.armed.any (fun a => a.cmd.op == 0x0A && a.cmd.ctx == c.ctx) then stMalformed
  else if x.st = .active ∨ x.st = .quiescing then stMalformed
  else if x.st = .removing then stBusy
  else if (List.range 32).any (fun f => (s.entries f).any fun n => s.entCtx f n == c.ctx) then stBusy
  else stOk

/-- A context becomes ACTIVE with its membership list (R402). -/
def State.createContext (s : State) (c : Crit) : State :=
  s.setCtx c.ctx { st := .active, members := c.members, ekDigest := field c.body 8 32, tallyRead := bit (field c.body 2 1) 0 }

/-- The checks of R423: context 0 and FREE are refused. -/
def checkContextDestroy (s : State) (c : Crit) : Nat :=
  if c.ctx = 0 ∨ 1024 ≤ c.ctx ∨ (s.ctx c.ctx).st = .free then stMalformed else stOk

/-- A destruction acts (R423, Table 18.7 steps 1 to 3): T1 at the latest DRAIN_US after it. -/
def State.destroyContext (s : State) (c : Crit) : State :=
  let x := s.ctx c.ctx
  let drain := if field c.body 0 4 = 0 then s.actBits .xlt 0 0x040 15 0 else field c.body 0 4
  let zer := if field c.body 4 4 = 0 then s.actBits .sec 0 0x040 31 16 else field c.body 4 4
  if x.st = .active then
    let s := s.quiesce c.ctx 1
    s.setCtx c.ctx { s.ctx c.ctx with drainEnd := s.time + us drain, zeroizeNs := us zer }
  else if x.st = .quiescing ∧ x.cause ≠ 1 then
    s.setCtx c.ctx { x with cause := 1, drainEnd := s.time + us drain, zeroizeNs := us zer }
  else s

/-! ### Removal (R424) -/

/-- Inbound slots a context holds. -/
def State.heldBy (s : State) (c : Nat) : List (Nat × InSlot) := s.txn.slots.filter fun v => v.2.ctx == c

/-- Extents of a context by ID. -/
def State.extentsOf (s : State) (c : Nat) : List (Nat × Extent) :=
  s.xlt.extents.filter fun e => e.2.st != .free && e.2.kind == 0 && e.2.owner == c

/-- T1 (Table 18.7, steps 4 to 6): held requests complete CONTEXT_GONE, the slots retire, the extents go to ZEROING. -/
def State.removeContext (s : State) (c : Nat) : State :=
  let held := s.heldBy c
  let s := held.foldl (fun s v => s.force v.1 stContextGone) s
  let x := s.ctx c
  let s := s.setCtx c { x with st := .removing, forced := held.length }
  let s := (s.ten.keys.filter fun k => k.2.owner == c && (k.2.st == .armed || k.2.st == .active)).foldl (fun s k =>
    if k.2.st = .armed then s.zeroize k.1 .empty
    else s.setKey k.1 { k.2 with st := .retiring, deadline := s.time + x.zeroizeNs }) s
  let ids := (s.extentsOf c).map (·.1)
  let s := ids.foldl (fun s id => s.setExtent id { s.extent id with st := .zeroing }) s
  { s with
    xlt := { s.xlt with
      tlb := s.xlt.tlb.filter fun e => !ids.contains e.ext, walks := s.xlt.walks.filter fun w => w.ctx != c
      cache := s.xlt.cache.filter fun p => p.ctx != c }
    movers := tblMap s.movers fun _ m => { m with lookaside := m.lookaside.filter fun e => !ids.contains e.ext } }

/-- Every extent, slot and session of a context is gone (Table 18.7, step 8). -/
def State.removalDone (s : State) (c : Nat) : Bool :=
  (s.extentsOf c).isEmpty && !(s.ten.keys.any fun k => k.2.owner == c && k.2.st != .empty) &&
    !(s.kvs.sessions.any fun v => v.2.ctx == c && v.2.st != .free)

/-- A selection scoped to a context takes EVENT = 0 and SCOPE = 0 (R447). -/
def unbindSel (c : Nat) (w : Word) : Word :=
  if wbit w 31 && wbits w 25 16 == c then wset (wset w 31 31 0) 7 0 0 else w

/-- Counters bound to a context unbound when it becomes FREE (R447). -/
def State.unbindTallies (s : State) (c : Nat) : State :=
  let unbind (t : TallyPage) : TallyPage := { t with sel := tblMap t.sel fun _ w => unbindSel c w }
  { s with tly := { s.tly with pages := tblMap s.tly.pages fun _ t => unbind t } }

/-- A removed context becomes FREE: transport key, walker entry and profile cleared, CONTEXT_FREE posted. -/
def State.freeContext (s : State) (c : Nat) : State :=
  let n := (s.ctx c).forced
  let s := (s.setCtx c {}).unbindTallies c
  let s := { s with
    xlt := { s.xlt with rings := tblDel s.xlt.rings c }
    kvs := { s.kvs with profiles := tblDel s.kvs.profiles c, nearUsed := tblDel s.kvs.nearUsed c
                        farUsed := tblDel s.kvs.farUsed c } }
  s.postMgr { typ := 0x00A0, cls := 2, ctx := c, source := 0x4000, detail := detail [(0, leBytes 2 c), (4, leBytes 4 n)] }

/-- CONTEXT_FREE (R424). -/
def execContextFree (ctx : Fin 1024) (s : State) : Outcome :=
  onlyIf ((s.ctx ctx).st == .removing && s.removalDone ctx) s (·.freeContext ctx)

/-! ### Key retirement (R411) -/

/-- KEY_REFS_ZERO: a RETIRING slot without references, or a DEAD one without static references, is EMPTY. -/
def execKeyRefsZero (slot : Fin 1024) (s : State) : Outcome :=
  let k := s.keySlot slot
  onlyIf ((k.st == .retiring && s.keyRefs slot == 0) || (k.st == .dead && s.staticRefs slot == 0)) s (·.zeroize slot .empty)

/-! ### The manager key (R419) -/

/-- MK_m = KMAC256(K, CHIP_SERIAL ‖ BOOT_NONCE ‖ MGR_NONCE, 256, "FRENTO-MK-1"). -/
def mkOf (k serial bootNonce mgrNonce : Nat) : Nat :=
  Config.kmac256 k (leBytes 8 serial ++ leBytes 16 bootNonce ++ leBytes 16 mgrNonce) 256 "FRENTO-MK-1" % 2 ^ 256

/-- MK_CTRL = KMAC256(K_c, CHIP_SERIAL ‖ MGR_NONCE, 256, "FRENTO-CK-1"). -/
def mkCtrlOf (k serial mgrNonce : Nat) : Nat :=
  Config.kmac256 k (leBytes 8 serial ++ leBytes 16 mgrNonce) 256 "FRENTO-CK-1" % 2 ^ 256

/-- An issuer slot: slot 0 holds the factory key with every class bit set (R96). -/
def State.issuer (s : State) (n : Nat) : Issuer :=
  tblGet s.cc.issuers n (if n = 0 then { st := 1, perm := 0xFF, key := Config.factoryIssuerKey } else {})

/-- An issuer slot set. -/
def State.setIssuer (s : State) (n : Nat) (v : Issuer) : State := { s with cc := { s.cc with issuers := tblPut s.cc.issuers n v } }

/-- Issuer key that the module's manager key derives from: slot 1 when VALID, else slot 0. -/
def State.mgrIssuer (s : State) : Nat := if (s.issuer 1).st = 1 then (s.issuer 1).key else (s.issuer 0).key

/-- The manager keys kept once those of `old` are replaced: each for 2 × CMPL_TIMEOUT_US from its replacement (R419). -/
def State.keepKeys (s : State) (old : List MgrKey) : List (MgrKey × Nat) :=
  s.ten.previous ++ old.map fun o => (o, s.time + 2 * us (s.actBits .txn 0 0x040 31 16))

/-- The manager keys of a role that the module leaves, all replaced (R419). -/
def State.leaveKeys (s : State) : State :=
  { s with ten := { s.ten with own := none, roster := [], previous := s.keepKeys (s.ten.own.toList ++ s.ten.roster.map (·.2)) } }

/-- The module's own manager key derived again: the replaced one is kept for a time, the windows of KEY_ID 0 start anew (R419). -/
def State.deriveOwn (s : State) : State :=
  let k := mkOf s.mgrIssuer Config.serial.toNat s.boot.nonce s.mgr.nonce
  { s with ten := { s.ten with
      own := some { key := k }
      previous := s.keepKeys s.ten.own.toList
      windows := s.ten.windows.filter fun w => w.slot != 1024 } }

/-- A manager key of the active manager's roster, derived again; the same inputs give the key it has (R419). -/
def State.putRoster (s : State) (ep key : Nat) : State :=
  let old := tblGet? s.ten.roster ep
  if (old.map (·.key)) = some key then s
  else
    { s with ten := { s.ten with
        roster := tblPut s.ten.roster ep { key := key }
        previous := s.keepKeys old.toList
        windows := s.ten.windows.filter fun w => !(w.slot == 1024 && w.sender == ep) } }

/-- The module's manager key derived again after its issuer slot 1 changed, when it has one (R419). -/
def State.deriveSelf (s : State) : State :=
  if s.mgr.role = 2 then s.putRoster s.ep (mkOf s.mgrIssuer Config.serial.toNat s.boot.nonce s.mgr.nonce)
  else if s.ten.own.isSome then s.deriveOwn else s

/-- An issuer slot changed by a command: slot 1 gives a new manager key (R419). -/
def State.changeIssuer (s : State) (n : Nat) (v : Issuer) : State :=
  if n = 1 then (s.setIssuer n v).deriveSelf else s.setIssuer n v

/-- MK_CTRL derived by the active manager whose bridge is enabled (R419, R429). -/
def State.deriveCtrl (s : State) : State :=
  if s.mgr.role ≠ 2 ∨ !wbit (s.act .mgr 0 0x048) 31 ∨ s.actBits .mgr 0 0x048 11 0 = s.ep then s
  else s.putRoster (s.actBits .mgr 0 0x048 11 0)
    (mkCtrlOf (s.issuer (s.actBits .mgr 0 0x048 22 20)).key Config.serial.toNat s.mgr.nonce)

/-- MGR_KEY_EXPIRE: the manager keys whose time has passed are zeroized, that of the earliest end first (R419). -/
def execMgrKeyExpire (s : State) : Outcome :=
  match leastBy (·.2) s.ten.previous with
  | none => .next s
  | some (_, t) =>
    let s := s.elapseTo t
    .next { s with ten := { s.ten with previous := s.ten.previous.filter fun x => s.time < x.2 } }

end Sys2Proof.Machine
end

