-- ==== Sys2Proof/Machine/Power.lean ====
section
/-!
DEFINITION. Power (01_module.md): power-up and turn-off, reset, the throttle steps, the thermal limits, PMBus and SMBus, and
the test access port.
-/

namespace Sys2Proof.Machine

/-! ### Turn-off and reset (R14, R18, R36) -/

/-- The flash with the floor entry of an accepted critical command written (R49). -/
def State.floorWritten (s : State) (c : Crit) : Flash :=
  s.flash.journalFloor c.issuer (if c.issuer = 0 then 0 else keyIdent (s.issuer c.issuer).key) (c.counter + 2 ^ 20)

/-- A flash write in progress abandoned (R36, R47): the retained copy, journal entry or slot it was writing is left whole
or unreadable, which of the two is a free value (assumption 20); an unreadable journal entry counts as none (R461). -/
def State.abandonFlash (s : State) : State :=
  let (v, s) := s.free
  let done := v % 2 == 0
  let fl := match s.cc.floorWait with
    | some (_, c, _) => if done then s.floorWritten c else s.flash
    | none => s.flash
  let fl := match s.cc.commit with
    | some c =>
      let r := if done then some c.record else none
      if c.copy = 0 then { fl with copy0 := r } else { fl with copy1 := r }
    | none => fl
  let fl := if s.cc.recovery.isSome then { fl with slotA := if done then some s.ten.staged else none } else fl
  { s with flash := fl }

/-- Everything but the power stage (a trip that is to turn it off included), the flash, the fuses and the test access port
back at reset, the boot to start with `cause` (R18). -/
def State.resetModule (s : State) (cause : Nat) : State :=
  let s := s.abandonFlash
  { time := s.time, flash := s.flash, jtag := s.jtag, out := s.out, freeCtr := s.freeCtr, pending := s.pending
    boot := { cause := cause, fuseSvn := s.boot.fuseSvn }
    pwr := { inputMv := s.pwr.inputMv, stage := s.pwr.stage, rampAt := s.pwr.rampAt, enLow := s.pwr.enLow
             heldOff := s.pwr.heldOff, railsGood := s.pwr.railsGood, pwrGood := s.pwr.pwrGood, resetN := s.pwr.resetN
             releasedAt := s.pwr.releasedAt, pins := s.pwr.pins, page := s.pwr.page, telemetry := s.pwr.telemetry
             latched := s.pwr.latched, tripAt := s.pwr.tripAt } }

/-- A reset the module gives itself (R43, R421, R427): the straps are sampled 1 ms later. -/
def State.selfReset (s : State) (cause : Nat) : State :=
  let s := s.resetModule cause
  { s with pwr := { s.pwr with releasedAt := s.time } } |>.emit (.selfReset cause)

/-- The module turns off (R13, R30): only flash, fuses and the outside of its pins remain. -/
def State.turnOff (s : State) (st : Stage) (held : Bool) : State :=
  let s := s.resetModule 0
  { s with jtag := {}, pwr := { inputMv := s.pwr.inputMv, stage := st, enLow := s.pwr.enLow, heldOff := held
                                resetN := s.pwr.resetN, releasedAt := s.pwr.releasedAt, pins := s.pwr.pins } }

/-- The module draws power: its stage ramps or conducts. -/
def State.on (s : State) : Bool := s.pwr.stage == .ramping || s.pwr.stage == .conducting

/-- The rails are up: the power-up sequence has ended. -/
def State.powered (s : State) : Bool := s.pwr.stage == .conducting

/-- The 20 ms output ramp starts (Table 1.5). -/
def State.startRamp (s : State) : State :=
  { s with pwr := { s.pwr with stage := .ramping, rampAt := s.time, heldOff := false }, boot := { s.boot with cause := 0 } }

/-- The latch of a thermal trip ends (R30). -/
def State.unlatch (s : State) : State :=
  if s.pwr.stage = .latchedOff then { s with pwr := { s.pwr with stage := .off } } else s

/-- POWER_INPUT_RISE (R12–R14, R30): the input rises through 44.0 V, or has stayed inside 44.0–59.5 V for `heldMs`. A
thermal latch ends with the input removed and restored: at 44.0 V or more after it was last reported below (assumption 143);
a stage held off after a turn-off waits for 10 ms in range. -/
def execPowerInputRise (mv heldMs : Nat) (s : State) : Outcome :=
  let restored := s.pwr.inputMv < 44000 ∧ 44000 ≤ mv
  let s := { s with pwr := { s.pwr with inputMv := mv } }
  let s := if restored then s.unlatch else s
  onlyIf (s.pwr.stage == .off && s.pwr.enLow && 44000 ≤ mv && (!s.pwr.heldOff || (mv ≤ 59500 && 10 ≤ heldMs))) s
    State.startRamp

/-- HOT_SWAP_PIN_CHANGE (R12): the stage conducts only while PWR_EN_N is held at RTN. -/
def execHotSwapPinChange (mated : Bool) (s : State) : Outcome :=
  let s := { s with pwr := { s.pwr with enLow := mated } }
  if mated then
    onlyIf (s.pwr.stage == .off && !s.pwr.heldOff && 44000 ≤ s.pwr.inputMv) s State.startRamp
  else onlyIf s.on s fun s => s.turnOff .off false

/-- BROWN_OUT_TURN_OFF (Table 1.3, R14). -/
def execBrownOutTurnOff (mv ns : Nat) (s : State) : Outcome :=
  let s := { s with pwr := { s.pwr with inputMv := mv } }
  onlyIf (s.on && mv < 42000 && 100000 < ns) s fun s => s.turnOff .off true

/-- OVER_VOLTAGE_TURN_OFF (Table 1.3, R14). -/
def execOverVoltageTurnOff (mv ns : Nat) (s : State) : Outcome :=
  let s := { s with pwr := { s.pwr with inputMv := mv } }
  onlyIf (s.on && 60500 < mv && 10000 < ns) s fun s => s.turnOff .off true

/-- RAIL_OUT_OF_BAND (R15): PWR_GOOD is driven low. -/
def execRailOutOfBand (_page : Fin 8) (s : State) : Outcome :=
  onlyIf s.powered s fun s => { s with pwr := { s.pwr with pwrGood := false } }

/-- RAILS_GOOD (R15, Table 1.5): at 34 ms of the power-up sequence, or with every rail back in its band. PWR_GOOD, which
Table 1.5 has high at 40 ms at most, goes high at once (assumption 141). -/
def execRailsGood (s : State) : Outcome :=
  if s.pwr.stage = .ramping then
    let s := s.elapseTo (s.pwr.rampAt + ms 34)
    .next { s with pwr := { s.pwr with stage := .conducting, railsGood := true, pwrGood := true } }
  else onlyIf s.powered s fun s => { s with pwr := { s.pwr with pwrGood := true } }

/-- MOD_RESET_N reads high or low. In the locked state a boundary-register instruction in force as it goes high acts as BYPASS
from there on and drives no pin (R25; assumption 144). -/
def State.setResetN (s : State) (high : Bool) : State :=
  { s with
    pwr := { s.pwr with resetN := high, releasedAt := if high then s.time else s.pwr.releasedAt }
    jtag := if high ∧ 2 ≤ s.jtag.ir ∧ !s.ten.debugUnlocked then { s.jtag with ir := 1, driven := none } else s.jtag }

/-- What the input must be for the output ramp to start: PWR_EN_N held at RTN and the turn-on threshold reached (R12, R13). -/
def State.mayRamp (s : State) : Bool := s.pwr.enLow && 44000 ≤ s.pwr.inputMv

/-- MODULE_RESET (R18, R36): a low of MOD_RESET_N of 10 µs resets the module; one of 10 ms ends a thermal latch and restarts
the power-up, where PWR_EN_N and the input allow one (R12, R13). -/
def execModuleReset (lowNs : Nat) (released : Bool) (s : State) : Outcome :=
  if lowNs < 10000 then .next s
  else
    let s := if s.on then s.resetModule (if s.boot.started then 1 else s.boot.cause) else s
    let s := s.setResetN released
    onlyIf (s.pwr.stage == .latchedOff && ms 10 ≤ lowNs) s fun s =>
      let s := s.unlatch
      if s.mayRamp then s.startRamp else s

/-! ### Causes, alerts and throttle steps (R26–R33) -/

/-- PWR_CAUSE. -/
abbrev pwrCause : Nat := 0x3814

/-- PWR_CAUSE bits set (R32): each raises PAGE_EVENT bit 0 of the PWR page. -/
def State.cause (s : State) (bits : Nat) : State :=
  if bits = 0 then s
  else (s.setReg pwrCause (BitVec.ofNat 32 ((s.reg pwrCause).toNat ||| bits))).raise .pwr 0 0

/-- ALERT_N is low (R30, R32). -/
def State.alertLow (s : State) : Bool :=
  ((s.reg pwrCause).toNat &&& s.actBits .pwr 0 0x048 7 0) != 0 || s.pwr.tripAt.isSome

/-- STEP_FLOOR. -/
def State.stepFloor (s : State) : Nat := s.actBits .pwr 0 0x044 17 16

/-- The highest of the three steps (R28). -/
def State.stepTarget (s : State) : Nat := max (max s.pwr.stepPower s.pwr.stepTherm) s.stepFloor

/-- A decided step comes into force 1 µs later (R26). -/
def State.decideStep (s : State) : State :=
  if s.stepTarget = s.pwr.stepForce ∨ s.pwr.stepDue.isSome then s
  else { s with pwr := { s.pwr with stepDue := some (s.time + us 1) } }

/-- The causes whose condition holds at a sample (R33, Table 1.20), as PWR_CAUSE bits; `rule2` is rule 2 of R26. -/
def State.causesNow (s : State) (mv dw : Nat) (rule2 : Bool) : Nat :=
  let straps := match s.pwr.sampled with | some p => decide (p ≠ s.pwr.pins) | none => false
  b2n (mv < 44000) + 2 * b2n (59500 < mv) + 4 * b2n (s.actBits .pwr 0 0x040 31 16 * 10 < dw) + 8 * b2n rule2 +
    16 * b2n (0 < s.pwr.stepTherm) + 32 * b2n (s.pwr.latched.any fun l => l.2 != 0) + 64 * b2n straps +
    128 * b2n s.pwr.tripAt.isSome

/-- POWER_SAMPLE (R26, R33): one sample of input power and voltage. -/
def execPowerSample (mv dw : Nat) (s : State) : Outcome :=
  if !s.powered then .next s
  else
    let p := s.pwr
    let avg := s.actBits .pwr 0 0x040 15 0
    let peak := s.actBits .pwr 0 0x040 31 16 * 10 < dw
    let above := if avg * 10 < dw then p.aboveRun + 1 else 0
    let below := if 2 * dw ≤ 19 * avg then p.belowRun + 1 else 0
    let rule2 := 1000 ≤ above
    let step := if rule2 then min 3 (p.stepPower + 1) else if 10000 ≤ below then p.stepPower - 1 else p.stepPower
    let step := if peak then max 2 step else step
    let same := step = p.stepPower
    let s := { s with pwr := { p with
      inputMv := mv, vinMv := mv, pinDw := dw, stepPower := step
      aboveRun := if same then above else 0, belowRun := if same then below else 0
      samples := (dw :: p.samples).take 100000, pinMax := max p.pinMax dw } }
    .next ((s.cause (s.causesNow mv dw rule2)).decideStep)

/-- THROTTLE_STEP_TAKES_EFFECT (R26, R28). -/
def execThrottleStepTakesEffect (s : State) : Outcome :=
  match s.pwr.stepDue with
  | none => .next s
  | some t =>
    let s := s.elapseTo t
    .next { s with pwr := { s.pwr with stepForce := s.stepTarget, stepDue := none } }

/-- The step a temperature asks for under a T1 threshold (Table 1.10). -/
def thermStep (t : Int) (t1 : Nat) : Nat := if t < t1 then 0 else if t < t1 + 5 then 1 else if t < t1 + 10 then 2 else 3

/-- Hottest memory. -/
def Temps.memory (t : Temps) : Int := max t.hbm t.lpddr

/-- DIE_THROTTLE_C and MEM_THROTTLE_C. -/
def State.dieT1 (s : State) : Nat := s.actBits .pwr 0 0x044 7 0
def State.memT1 (s : State) : Nat := s.actBits .pwr 0 0x044 15 8

/-- The thermal-derived step the sensors ask for (R27). -/
def State.thermAsked (s : State) (t : Temps) : Nat := max (thermStep t.die s.dieT1) (thermStep (Temps.memory t) s.memT1)

/-- Sensor readings taken (Table 1.18). -/
def State.readTemps (s : State) (t : Temps) : State :=
  { s with pwr := { s.pwr with tempDie := t.die, tempHbm := t.hbm, tempLpddr := t.lpddr, tempStage := t.stage } }

/-- THERMAL_THRESHOLD_CROSS (R27, R32). -/
def execThermalThresholdCross (t : Temps) (s : State) : Outcome :=
  if !s.powered then .next s
  else
    let s := s.readTemps t
    let n := s.thermAsked t
    onlyIf (decide (s.pwr.stepTherm < n)) s fun s =>
      let up := s.pwr.stepTherm = 0
      let s := { s with pwr := { s.pwr with stepTherm := n } }
      (if up then s.cause 16 else s).decideStep

/-- THERMAL_STEP_FALL (R27): the temperatures have stayed 3 °C below the step's thresholds for 100 ms. -/
def execThermalStepFall (t : Temps) (s : State) : Outcome :=
  if !s.powered then .next s
  else
    let s := s.readTemps t
    let n := s.pwr.stepTherm
    let lim (t1 : Nat) : Int := (t1 : Int) + 5 * ((n : Int) - 1) - 3
    onlyIf (decide (0 < n ∧ t.die ≤ lim s.dieT1 ∧ Temps.memory t ≤ lim s.memT1)) s fun s =>
      State.decideStep { s with pwr := { s.pwr with stepTherm := n - 1 } }

/-- The sensor class at its trip temperature, and the temperature (Table 1.10). -/
def tripOf (t : Temps) : Option (Nat × Int) :=
  if 110 ≤ t.die then some (0, t.die)
  else if 105 ≤ Temps.memory t then some (1, Temps.memory t)
  else if 125 ≤ t.stage then some (2, t.stage) else none

/-- THERMAL_TRIP (R30): the trip event posted, THERM_TRIP set and ALERT_N held low until the stage turns off. -/
def execThermalTrip (t : Temps) (s : State) : Outcome :=
  if !s.powered || s.pwr.tripAt.isSome then .next s
  else
    let s := s.readTemps t
    match tripOf t with
    | none => .next s
    | some (k, c) =>
      let s := s.postMgr { typ := 0x0007, cls := 1, source := 0x4000, detail := detail [(0, [byte k, byte (sbyte c)])] }
      .next (({ s with pwr := { s.pwr with tripAt := some s.time } } : State).cause 128)

/-- TRIP_TURN_OFF (R30): 100 µs after the trip the stage turns off and stays latched off. -/
def execTripTurnOff (s : State) : Outcome :=
  match s.pwr.tripAt with
  | none => .next s
  | some t => .next ((s.elapseTo (t + us 100)).turnOff .latchedOff false)

/-- STRAP_RECHECK (R19): a strap that differs from its sampled value sets STRAP_CHANGED. -/
def execStrapRecheck (pins : Straps) (s : State) : Outcome :=
  let s := { s with pwr := { s.pwr with pins := pins } }
  match s.pwr.sampled with
  | none => .next s
  | some p => onlyIf (decide (p ≠ pins)) s fun s => s.cause 64

/-! ### PMBus (R22, R23) -/

/-- SLOT_X as sampled, or as the pins read before the sampling (R20, R22). -/
def State.slotX (s : State) : Nat := (s.pwr.sampled.getD s.pwr.pins).x

/-- The SMBus and PMBus target addresses (R22). -/
def State.smbusAddress (s : State) : Nat := 0x50 + s.slotX % 8
def State.pmbusAddress (s : State) : Nat := 0x60 + s.slotX % 8

/-- Whether the PMBus serves a read or a write of a command code with a page selected (Table 1.8, R23): every other code, and
every write but PAGE and CLEAR_FAULTS, is answered with a NACK. -/
def pmbusServes (code page : Nat) (write : Bool) : Bool :=
  if write then code == 0x00 || code == 0x03
  else if code = 0x88 ∨ code = 0x89 ∨ code = 0x97 then page == 0
  else if code = 0x8B ∨ code = 0x8C ∨ code = 0x96 then page != 0
  else code == 0x00 || code == 0x79 || code == 0x8D

/-- One PMBus transfer of a command code (R22, R23): another target's is none of the module's; before the rails are good nothing
answers; a code not served is NACKed. -/
def State.pmbus (s : State) (x : BusXfer) (code : Nat) (act : State → State) : Outcome :=
  if x.addr ≠ s.pmbusAddress then .next s
  else if s.powered && pmbusServes code s.pwr.page x.write then .next (act s)
  else .next (s.emit .nack)

/-- A value in thousandths over 2ⁿ, and whether the division leaves a rest. -/
def overScale (v n : Int) : Int × Bool :=
  let num := if 0 ≤ n then v else v * 2 ^ n.natAbs
  let den := if 0 ≤ n then 1000 * 2 ^ n.natAbs else 1000
  (num / den, num % den != 0)

/-- The mantissa of a value in thousandths at an exponent; a value between two is given as one of them (assumption 142). -/
def mantissa (v n : Int) : Int :=
  let q := overScale v n
  if q.2 && Config.linearUp v then q.1 + 1 else q.1

/-- The LINEAR16 word of a voltage, exponent −12 (Table 1.8). -/
def linear16 (v : Int) : Nat := unsigned 16 (mantissa v (-12))

/-- The least exponent at which a value's mantissa fits the 11 bits of LINEAR11. -/
def leastExp (v : Int) : Int :=
  Int.ofNat (((List.range 32).find? fun k => let m := mantissa v (Int.ofNat k - 16); -1024 ≤ m && m ≤ 1023).getD 31) - 16

/-- The LINEAR11 word of a value (Table 1.8): a mantissa of 11 bits under an exponent of 5 bits, both signed. -/
def linear11 (v : Int) : Nat :=
  let n := min 15 (max (leastExp v) (Config.linear11Exp v))
  unsigned 5 n * 2 ^ 11 + unsigned 11 (mantissa v n)

/-- A word read over the PMBus. -/
def State.pmbusRead (s : State) (x : BusXfer) (code : Nat) (word : State → Nat) : Outcome :=
  s.pmbus x code fun s => s.emit (.pmbus (word s))

/-- Telemetry of the selected page. -/
def State.telemetry (s : State) : Telemetry := tblGet s.pwr.telemetry s.pwr.page {}

/-- PAGE (R23): a write selects a page 0–7, another value is NACKed; a read answers the page selected. -/
def execPage (x : BusXfer) (page : Nat) (s : State) : Outcome :=
  s.pmbus x 0x00 fun s =>
    if !x.write then s.emit (.pmbus s.pwr.page)
    else if page < 8 then { s with pwr := { s.pwr with page := page } } else s.emit .nack

/-- CLEAR_FAULTS (R23), a send byte. -/
def execClearFaults (x : BusXfer) (s : State) : Outcome :=
  s.pmbus x 0x03 fun s => { s with pwr := { s.pwr with latched := tblDel s.pwr.latched s.pwr.page } }

/-- STATUS_WORD (R23). -/
def execStatusWord (x : BusXfer) (s : State) : Outcome := s.pmbusRead x 0x79 fun s => tblGet s.pwr.latched s.pwr.page 0

/-- READ_VIN (Table 1.8: page 0). -/
def execReadVin (x : BusXfer) (s : State) : Outcome := s.pmbusRead x 0x88 fun s => linear11 s.telemetry.vin

/-- READ_IIN (Table 1.8: page 0). -/
def execReadIin (x : BusXfer) (s : State) : Outcome := s.pmbusRead x 0x89 fun s => linear11 s.telemetry.iin

/-- READ_VOUT (Table 1.8: pages 1–7). -/
def execReadVout (x : BusXfer) (s : State) : Outcome := s.pmbusRead x 0x8B fun s => linear16 s.telemetry.vout

/-- READ_IOUT (Table 1.8: pages 1–7). -/
def execReadIout (x : BusXfer) (s : State) : Outcome := s.pmbusRead x 0x8C fun s => linear11 s.telemetry.iout

/-- READ_TEMPERATURE_1 (Table 1.8). -/
def execReadTemperature1 (x : BusXfer) (s : State) : Outcome := s.pmbusRead x 0x8D fun s => linear11 s.telemetry.temp

/-- READ_POUT (Table 1.8: pages 1–7). -/
def execReadPout (x : BusXfer) (s : State) : Outcome := s.pmbusRead x 0x96 fun s => linear11 s.telemetry.pout

/-- READ_PIN (Table 1.8: page 0). -/
def execReadPin (x : BusXfer) (s : State) : Outcome := s.pmbusRead x 0x97 fun s => linear11 s.telemetry.pin

/-- TELEMETRY_REFRESH (R23): per page 0–7, the measured telemetry and the fault bits found; a latched fault sets
STAGE_FAULT. -/
def execTelemetryRefresh (pages : List (Telemetry × Nat)) (s : State) : Outcome :=
  if !s.powered then .next s
  else
    let xs := (pages.take 8).zipIdx
    let tel := xs.foldl (fun t x => tblPut t x.2 x.1.1) s.pwr.telemetry
    let lat := xs.foldl (fun t x => if x.1.2 = 0 then t else tblPut t x.2 (tblGet t x.2 0 ||| x.1.2)) s.pwr.latched
    let s := { s with pwr := { s.pwr with telemetry := tel, latched := lat } }
    .next (if lat.isEmpty then s else s.cause 32)

/-! ### SMBus (R22, R24) -/

/-- PWR_STATUS (Table 1.15), PWR_TEMPS (Table 1.18) and PWR_STRAPS (Table 1.19). -/
def State.pwrStatusWord (s : State) : Nat := s.pwr.stepTherm * 16 + s.pwr.stepPower * 4 + s.pwr.stepForce
def State.pwrTempsWord (s : State) : Nat :=
  sbyte s.pwr.tempStage * 2 ^ 24 + sbyte s.pwr.tempLpddr * 2 ^ 16 + sbyte s.pwr.tempHbm * 2 ^ 8 + sbyte s.pwr.tempDie
def State.pwrStrapsWord (s : State) : Nat :=
  match s.pwr.sampled with
  | none => 0
  | some p => b2n s.mateFault * 2 ^ 16 + b2n (!p.mateBHigh) * 2 ^ 15 + b2n (!p.mateAHigh) * 2 ^ 14 + p.role % 4 * 2 ^ 12 + s.ep

/-- CHIP_IDREV (Table 4.10). -/
def idrev : Nat := 0x51200000 + Config.rev.toNat * 16 + Config.stepping.toNat

/-- The 256 bytes of Table 1.9. -/
def State.smbusBlock (s : State) : List Byte :=
  ascii "FP-5120         " ++ leBytes 8 Config.serial.toNat ++ leBytes 4 idrev ++ leBytes 4 (s.reg pwrCause).toNat ++
    leBytes 4 s.pwrStrapsWord ++ leBytes 4 s.pwrStatusWord ++ leBytes 4 s.pwrTempsWord ++ zeroBytes 212

/-- SMBUS_BLOCK_READ (R22, R24): bytes from a byte offset, at the module's target address. -/
def execSmbusBlockRead (addr offset len : Nat) (s : State) : Outcome :=
  if addr ≠ s.smbusAddress then .next s
  else .next (s.emit (if s.powered && offset < 256 then .smbus ((s.smbusBlock.drop offset).take len) else .nack))

/-- SMBUS_ALERT_CLEAR (R22, R24): a write of 0x01 to offset 0xFF clears PWR_CAUSE; every other write is NACKed. -/
def execSmbusAlertClear (addr offset value : Nat) (s : State) : Outcome :=
  if addr ≠ s.smbusAddress then .next s
  else if s.powered && offset == 0xFF && value == 1 then .next (s.setReg pwrCause 0) else .next (s.emit .nack)

/-- SMBUS_ALERT_RESPONSE (R22, R24): the module's own address while it holds ALERT_N low. -/
def execSmbusAlertResponse (s : State) : Outcome :=
  .next (s.emit (if s.powered && s.alertLow then .smbus [byte s.smbusAddress] else .nack))

/-! ### Test access port (R25) -/

/-- The instruction register holds `ir`; normal pins unless `driven` says otherwise. -/
def State.tap (s : State) (ir : Nat) (driven : Option Nat) (o : Out) : State :=
  { s with jtag := { s.jtag with ir := ir, driven := driven } }.emit o

/-- IDCODE selects 0x1512_0A9B with the revision in [31:28]. -/
def State.tapIdcode (s : State) : State := s.tap 0 none (.jtag "IDCODE" (Config.rev.toNat * 2 ^ 28 + 0x05120A9B))

/-- BYPASS selects the one-bit bypass register, which captures 0. -/
def State.tapBypass (s : State) : State := s.tap 1 none (.jtag "BYPASS" 0)

/-- The boundary-register instructions act: MOD_RESET_N is held low, or the lock has been removed (R25, R422). -/
def State.boundaryOpen (s : State) : Bool := !s.pwr.resetN || s.ten.debugUnlocked

/-- A boundary-register instruction, or BYPASS while it may not act: it captures the pins and takes the value shifted in. -/
def State.tapBoundary (s : State) (ir pins shifted : Nat) (drive : Bool) : State :=
  if s.boundaryOpen then
    ({ s with jtag := { s.jtag with boundary := shifted } } : State).tap ir (if drive then some shifted else none)
      (.jtag "BOUNDARY" pins)
  else s.tapBypass

/-- JTAG_IDCODE. -/
def execJtagIdcode (s : State) : Outcome := onlyIf s.powered s State.tapIdcode

/-- JTAG_BYPASS. -/
def execJtagBypass (s : State) : Outcome := onlyIf s.powered s State.tapBypass

/-- JTAG_SAMPLE_PRELOAD. -/
def execJtagSamplePreload (pins shifted : Nat) (s : State) : Outcome :=
  onlyIf s.powered s fun s => s.tapBoundary 2 pins shifted false

/-- JTAG_EXTEST. -/
def execJtagExtest (pins shifted : Nat) (s : State) : Outcome := onlyIf s.powered s fun s => s.tapBoundary 3 pins shifted true

/-- JTAG_EXTEST_PULSE. -/
def execJtagExtestPulse (pins shifted : Nat) (s : State) : Outcome :=
  onlyIf s.powered s fun s => s.tapBoundary 4 pins shifted true

/-- JTAG_EXTEST_TRAIN. -/
def execJtagExtestTrain (pins shifted : Nat) (s : State) : Outcome :=
  onlyIf s.powered s fun s => s.tapBoundary 5 pins shifted true

end Sys2Proof.Machine
end

