-- ==== Sys2Proof/Machine/Attest.lean ====
section
/-!
DEFINITION. Attestation (R403–R406): ATTEST, its completion with the Creba report, and ATTEST_CERT; and the firmware
chunks of R420 with their staging.
-/

namespace Sys2Proof.Machine

/-! ### Context commands -/

/-- Rules of a context command: opcode `op` on VC1. -/
def cmdRules (op : Nat) (source : State → Packet → Bool) : Rules := { form := fun p => p.ofCmd op, sourceOk := source }

/-- A context command from the manager, under the manager key (R100). -/
def mgrCmd (op : Nat) : Rules := cmdRules op fun s p => s.fromManager p

/-- A tenant's context command: under a key slot of the context, or the manager's under KEY_ID 0 (R354, R100); context 0
is the manager's alone. -/
def ctxCmd (op : Nat) : Rules := cmdRules op fun s p => p.context != 0 || s.fromManager p

/-- The sender is in a context's membership list (R240, R266, R451). -/
def State.isMember (s : State) (c ep : Nat) : Bool := (s.ctx c).members.contains ep

/-- The sender is a member of the context, or the manager (R240). -/
def State.memberOrMgr (s : State) (v : InSlot) : Bool := s.isMember v.ctx v.src || s.mgr.ep == some v.src

/-- Completes an accepted command with the status that a list of checks gives, or acts. -/
def State.ifOk (s : State) (key status : Nat) (act : State → State) : State :=
  if status = stOk then act s else s.complete key status

/-! ### ATTEST (R404) -/

/-- CONFIG_DIGEST (R405): each page's base and 112 active registers, then each issuer slot's state, classes and key. -/
def State.configDigest (s : State) : Nat :=
  let pages := allBases.flatMap fun b =>
    leBytes 4 b ++ ((List.range 112).flatMap fun i => leBytes 4 (cfgGet s.active (b + 0x40 + 4 * i)).toNat)
  let keys := (List.range 8).flatMap fun n =>
    let v := s.issuer n
    [byte v.st, byte v.perm] ++ leBytes 8 (if v.st = 0 then 0 else keyIdent v.key)
  Config.shake256 256 (pages ++ keys)

/-- MEMBERS_DIGEST (R405). -/
def Context.membersDigest (x : Context) : Nat :=
  Config.shake256 256 (leBytes 2 x.members.length ++ [byte (b2n x.tallyRead)] ++ x.members.flatMap (leBytes 2))

/-- BOOT_STATUS.LEVEL and the boot fields a report carries; role as Table 18.3 codes it. -/
def State.reportRole (s : State) : Nat := if s.mgr.role = 2 then 1 else if s.mgr.role = 1 then 2 else 0

/-- Bytes 0x000–0x72F of the Creba report (Table 18.3). -/
def State.reportBody (s : State) (target : Nat) (tkSet : Bool) (nonce ek ct : List Byte) : List Byte :=
  let x := s.ctx target
  let m := s.boot.measured
  leBytes 4 0xF512CB01 ++ leBytes 2 1 ++ leBytes 2 3120 ++ leBytes 4 idrev ++ leBytes 4 0 ++ leBytes 8 Config.serial.toNat ++
    leBytes 2 s.ep ++ leBytes 2 target ++ [byte s.reportRole, byte s.boot.level, byte (b2n s.ten.debugUnlocked),
      byte (b2n tkSet + 2 * b2n x.tallyRead)] ++ leBytes 8 s.tick.count ++ nonce.take 32 ++ leBytes 64 m.digest ++
    [byte m.key, byte m.slot, byte m.svn, byte s.fuses] ++ leBytes 4 0 ++ leBytes 32 s.configDigest ++
    leBytes 32 (if target = 0 then 0 else x.membersDigest) ++ leBytes 32 (if target = 0 then 0 else x.ekDigest) ++
    leBytes 32 (Config.shake256 256 ek) ++ (ct ++ zeroBytes 1568).take 1568

/-- The checks of R404 on an ATTEST body. -/
def State.attestCheck (s : State) (v : InSlot) : Nat :=
  let b := v.pkt.own
  let target := field b 32 2
  if b.length ≠ 1608 ∨ v.pkt.context ≠ 0 ∨ zeros b 34 6 = false ∨ 1024 ≤ target then stMalformed
  else if target ≠ 0 ∧ (s.ctx target).st = .free then stMalformed
  else if Config.ekValid (b.drop 40) = false then stMalformed
  else if 16 ≤ s.ten.attests.length then stBusy
  else stOk

/-- An ATTEST queued (R404). -/
def State.actAttest (s : State) (key : Nat) : State :=
  match s.slot? key with
  | none => s
  | some v => s.ifOk key (s.attestCheck v) fun s =>
      { s with ten := { s.ten with attests := s.ten.attests ++ [{ slot := key, target := field v.pkt.own 32 2 }] } }

/-- Rules of ATTEST and ATTEST_CERT: any endpoint with SEC = 0, the manager with SEC = 1 (R403). -/
def attestRules (op : Nat) : Rules :=
  { form := fun p => p.ofCmd op, clearOk := fun _ _ => true, sourceOk := fun s p => p.sec.isNone || s.fromManager p }

/-- ATTEST. -/
def execAttest (port : Fin 16) (p : Packet) (s : State) : Outcome :=
  .next (s.arrive (attestRules 0xD0) port p State.actAttest)

/-- Whether an ATTEST may set its target's transport key (R406). -/
def State.mayset (s : State) (v : InSlot) (target : Nat) (ek : List Byte) : Bool :=
  if target = 0 then s.fromManager v.pkt
  else (s.ctx target).st != .free && Config.shake256 256 ek % 2 ^ 256 == (s.ctx target).ekDigest

/-- The first queued ATTEST signed: its transport key set when allowed, its report completed (R404–R406). -/
def State.signReport (s : State) (a : Attest) (v : InSlot) : State :=
  let b := v.pkt.own
  let nonce := b.take 32
  let ek := (b.drop 40).take 1568
  let (r, s) := s.free
  let (ct, ss) := Config.encaps ek r
  let set := s.mayset v a.target ek
  let tk := Config.kmac256 ss (leBytes 8 Config.serial.toNat ++ leBytes 2 a.target ++ nonce) 256 "FRENTO-TK-1" % 2 ^ 256
  let s := if set then s.setCtx a.target { s.ctx a.target with tk := some tk, wrapCtr := 0 } else s
  let body := s.reportBody a.target set nonce ek ct
  let sig := (Config.deviceSign (Config.shake256 512 body) ++ zeroBytes 1280).take 1280
  s.complete a.slot stOk (body ++ sig)

/-- ATTEST_COMPLETE. -/
def execAttestComplete (s : State) : Outcome :=
  match s.ten.attests with
  | [] => .next s
  | a :: t =>
    let s := { s with ten := { s.ten with attests := t } }
    match s.slot? a.slot with
    | none => .next s
    | some v => .next (s.signReport a v)

/-- The certificate of R403 completed. -/
def State.actAttestCert (s : State) (key : Nat) : State :=
  match s.slot? key with
  | none => s
  | some v =>
    let ok := v.pkt.own.length = 8 ∧ zeros v.pkt.own 0 8 ∧ v.pkt.context = 0
    s.ifOk key (if ok then stOk else stMalformed) fun s =>
      s.complete key stOk ((Config.attestCert ++ zeroBytes 3081).take 3081)

/-- ATTEST_CERT. -/
def execAttestCert (port : Fin 16) (p : Packet) (s : State) : Outcome :=
  .next (s.arrive (attestRules 0xD1) port p State.actAttestCert)

/-! ### FW_CHUNK (R420) -/

/-- FW_CHUNK: the manager in SERVICE; any endpoint on the served port in RECOVERY (R43, R420). -/
def fwChunkRules (port : Fin 16) : Rules :=
  { form := fun p => p.ofCmd 0xD8, sourceOk := fun s p => s.fromManager p
    early := fun s _ => s.boot.state == 7 && s.boot.served == some port.val }

/-- The checks of a chunk. -/
def State.chunkCheck (s : State) (v : InSlot) : Nat :=
  let b := v.pkt.own
  let off := field b 0 4
  let n := b.length - 8
  if v.pkt.context ≠ 0 ∨ b.length < 8 ∨ zeros b 4 4 = false ∨ n < 4096 ∨ 32768 < n ∨ n % 4096 ≠ 0 ∨ off % 4096 ≠ 0 then
    stMalformed
  else if s.cc.commit.isSome ∨ s.cc.recovery.isSome then stBusy
  else if off ≠ 0 ∧ off ≠ s.ten.staged.length then stMalformed
  else if s.ten.chunk.isSome then stBusy
  else stOk

/-- A chunk under way: programmed and read back before it completes. -/
def State.actFwChunk (s : State) (key : Nat) : State :=
  match s.slot? key with
  | none => s
  | some v => s.ifOk key (s.chunkCheck v) fun s =>
      let staged := if field v.pkt.own 0 4 = 0 then [] else s.ten.staged
      { s with ten := { s.ten with staged := staged, chunk := some (key, v.pkt.own.drop 8) } }

/-- FW_CHUNK. -/
def execFwChunk (port : Fin 16) (p : Packet) (s : State) : Outcome :=
  .next (s.arrive (fwChunkRules port) port p State.actFwChunk)

/-- FW_CHUNK_WRITTEN: erase, program and read-back finish; a chunk that does not verify completes BUS_ERROR and is not
staged (assumption 17). In SERVICE the bytes go to the flash slot that is not running; in RECOVERY slot A is written by the
firmware update itself (R43). -/
def execFwChunkWritten (ok : Bool) (s : State) : Outcome :=
  match s.ten.chunk with
  | none => .next s
  | some (key, b) =>
    let staged := if ok then s.ten.staged ++ b else s.ten.staged
    let slots := if s.boot.state = 7 then s.flash
      else if s.boot.slot = 0 then { s.flash with slotB := some staged } else { s.flash with slotA := some staged }
    let s := { s with ten := { s.ten with chunk := none, staged := staged }, flash := slots }
    .next (s.complete key (if ok then stOk else stBusError))

end Sys2Proof.Machine
end

