-- ==== Sys2Proof/Machine/Boot.lean ====
section
/-!
DEFINITION. The boot (02_bringup.md): strap sampling, firmware verification, self-test, restoring the committed settings,
training, zero-fill, service entry and the join announcement.
-/

namespace Sys2Proof.Machine

/-- An image passes checks 1–4 of R39; the index of the key hash that verified it. -/
def imageKey (b : List Byte) (fuses : Nat) : Option Nat :=
  if Config.imageLength b ≤ 33550336 ∧ Config.falconOk b ∧ fuses ≤ Config.imageSvn b ∧ Config.imageSvn b ≤ 128 then
    (List.range 4).find? fun i => Config.vendorKeyHash i == Config.imageKeyHash b && Config.keyNotRevoked i
  else none

/-! ### Strap sampling (R11, R19–R21, R35) -/

/-- The role a strap gives before the committed settings are known (Table 1.7). -/
def strapRole (r : Nat) : Nat := if r = 2 then 2 else if r = 3 then 1 else 0

/-- The default MAC address bytes 2–5 of a port (Table 13.16). -/
def macLo (ep p : Nat) : Word := BitVec.ofNat 32 ((ep / 256) * 2 ^ 16 + (ep % 256) * 2 ^ 8 + p)

/-- The default MAC addresses written into both sets. -/
def State.defaultMacs (s : State) : State :=
  (List.range 16).foldl (fun s p => s.setBoth (pageBase .lnk p + 0x058) (macLo s.ep p)) s

/-- STRAP_SAMPLING (R11, R19): 1 ms after the rails are good and MOD_RESET_N is high, straps and presence pins are sampled
and the boot starts from ROM. -/
def execStrapSampling (pins : Straps) (s : State) : Outcome :=
  if !(s.pwr.railsGood && s.pwr.resetN && !s.boot.started) then .next s
  else
    let s := s.elapseTo (max (s.pwr.rampAt + ms 34) s.pwr.releasedAt + ms 1)
    let (v, s) := s.free
    let s := { s with
      pwr := { s.pwr with pins := pins, sampled := some pins }
      boot := { s.boot with state := 0, started := true, phaseAt := s.time, nonce := v % 2 ^ 128 }
      clk := { s.clk with pllLocked := 0x7F, xoPresent := true, tickRefPresent := true }
      mgr := { s.mgr with role := strapRole pins.role } }
    let s := if s.mgr.role = 2 then { s with mgr := { s.mgr with ep := some s.ep } } else s
    .next s.defaultMacs

/-- A boot phase begins. -/
def State.phase (s : State) (n : Nat) : State := { s with boot := { s.boot with state := n, phaseAt := s.time } }

/-! ### ROM (R39–R42) -/

/-- Both retained copies checked (R47). -/
def State.checkCopies (s : State) : State :=
  { s with boot := { s.boot with
      copy0Ok := (s.flash.copy0.map (·.valid)).getD false, copy1Ok := (s.flash.copy1.map (·.valid)).getD false } }

/-- The copy to restore from, with its number (R47). -/
def State.chosenCopy (s : State) : Option (Nat × RetCopy) :=
  let c0 := if s.boot.copy0Ok then s.flash.copy0 else none
  let c1 := if s.boot.copy1Ok then s.flash.copy1 else none
  match c0, c1 with
  | some a, some b => if a.seq < b.seq then some (1, b) else some (0, a)
  | some a, none => some (0, a)
  | none, some b => some (1, b)
  | none, none => none

/-- The slot to try first (R39): FW_SLOT_PREF of the chosen copy, else the header's hint. -/
def State.firstSlot (s : State) : Nat :=
  match s.chosenCopy with
  | none => s.flash.hint % 2
  | some (_, r) => (((r.entries.filter fun e => e.1 == 0x1200 || e.1 == 0x1040).getLast?.map (·.2)).getD 0) % 2

/-- A firmware slot's image. -/
def State.image (s : State) (slot : Nat) : Option (List Byte) := if slot = 0 then s.flash.slotA else s.flash.slotB

/-- The key hash that verifies a slot; none when a check fails. -/
def State.slotKey (s : State) (slot : Nat) : Option Nat := (s.image slot).bind fun b => imageKey b s.fuses

/-- Control passes to the firmware of a slot: measurements locked (R41), every block's clock on for the self-test (R35), that of
the blocks no self-test touches with them (assumption 148). A slot that reached its limit in ROM has passed nothing (R34). -/
def State.runSlot (s : State) (slot key : Nat) (b : List Byte) : State :=
  let s := { s with
    boot := { s.boot with
      slot := slot, keyIndex := key, imageSvn := Config.imageSvn b
      otherValid := !s.boot.romOver && (s.slotKey (1 - slot)).isSome
      measured := { digest := Config.shake256 512 b, key := key, svn := Config.imageSvn b, slot := slot, locked := true } }
    clk := { s.clk with
      enBlk := 0x7FFFF, enPort := 0xFFFFFF, enFrm := 0xFFFFFFFF
      rodEn := (List.range 32).map fun f => (f, 0x7FFFF) } }
  s.phase 1

/-- A port starts to train under its personality (Table 13.6). -/
def State.trainPort (s : State) (p : Nat) : State :=
  s.setPort p { st := .training, since := s.time, eth := s.actBits .lnk p 0x040 1 1 }

/-- The first-row conditions of Table 13.6: clock enabled, EN set, HOLD_DOWN clear; a port held in reset trains never. -/
def State.mayTrain (s : State) (p : Nat) : Bool :=
  bit s.clk.enPort p && wbit (s.act .lnk p 0x040) 0 && !wbit (s.reg (pageBase .lnk p + 0x800)) 0 && !s.mateFault &&
    (s.boot.state != 7 || s.boot.served == some p || (s.boot.served == none && s.boot.turn == p)) &&
    !(s.boot.state == 8 && !s.boot.measured.locked)

/-- It is a port's turn to train in RECOVERY (R42). -/
def State.withTurn (s : State) (p : Nat) : State := { s with boot := { s.boot with turn := p } }

/-- In RECOVERY the next port that may train, from `p` on and round from 15 to 0, trains (R42, assumption 28). -/
def State.trainTurn (s : State) (p : Nat) : State :=
  match ((List.range 16).map fun i => (p + i) % 16).find? fun q => (s.withTurn q).mayTrain q with
  | some q => (s.withTurn q).trainPort q
  | none => s

/-- In RECOVERY a port whose training ended without link-up gives its turn to the next (R42). -/
def State.passTurn (s : State) (p : Nat) : State :=
  if s.boot.state = 7 ∧ s.boot.served = none ∧ s.boot.turn = p then (s.setPort p {}).trainTurn (p + 1) else s

/-- RECOVERY (R42): no valid firmware; the ports train in turn, with what serves them clocked. -/
def State.recover (s : State) : State :=
  let s := { s with clk := { s.clk with enPort := 0xFFFF, enBlk := 0x2E000 } }
  (s.phase 7).trainTurn 0

/-- A slot's number, key hash and image, if it passes; a slot that reached its limit does not (R34). -/
def State.trySlot (s : State) (n : Nat) : Option (Nat × Nat × List Byte) :=
  match s.slotKey n, s.image n with
  | some k, some b => if s.boot.romOver ∧ n = s.firstSlot then none else some (n, k, b)
  | _, _ => none

/-- ROM_PHASE_END (R39, R41, R42, R47). -/
def execRomPhaseEnd (s : State) : Outcome :=
  if !(s.boot.started && s.boot.state == 0) then .next s
  else
    let s := s.checkCopies
    let a := s.firstSlot
    .next (match s.trySlot a with
      | some (n, k, b) => s.runSlot n k b
      | none => match s.trySlot (1 - a) with
        | some (n, k, b) => s.runSlot n k b
        | none => s.recover)

/-- RECOVERY_LINK_TIMEOUT (R42): no port reached link-up within 2 s; no image runs, so the ports stay down (assumption 139). -/
def execRecoveryLinkTimeout (s : State) : Outcome :=
  if s.boot.state = 7 ∧ s.boot.served = none then
    let s := (s.elapseTo (s.boot.phaseAt + ms 2000)).phase 8
    .next ((List.range 16).foldl (fun s p => s.setPort p {}) s)
  else .next s

/-! ### Self-test (R44, Table 2.5) -/

/-- Rods of a frame that fail, as a mask of positions 0–16. -/
def frameBad (rodBad f : Nat) : Nat := bits rodBad (17 * f + 16) (17 * f)

/-- A frame stays in compute service: at most one bad rod and both movers good. -/
def frameServes (rodBad movBad f : Nat) : Bool :=
  let n := (idxs 17 fun i => bit (frameBad rodBad f) i).length
  n ≤ 1 && !bit movBad (2 * f) && !bit movBad (2 * f + 1)

/-- The rod 0–15 of a serving frame that its spare stands in for. -/
def frameSpared (rodBad f : Nat) : Option Nat := (List.range 16).find? fun i => bit (frameBad rodBad f) i

/-- The verdicts of the self-test (Tables 2.3, 2.5), with the clocks of unhealthy units gated (R35). -/
def State.judge (s : State) (r : SelfTest) : State :=
  let okFrames := maskOf 32 fun f => frameServes r.rod r.mover f
  let spared := maskOf 32 fun f => frameServes r.rod r.mover f && (frameSpared r.rod f).isSome
  let ports := maskOf 16 fun p => !bit r.link p && !bit r.aes p
  let fmc := maskOf 8 fun g => !bit r.beadCode (4 + g)
  let nmc := maskOf 4 fun n => !bit r.beadCode n
  let dirs := maskOf 8 fun d => !bit r.dir d
  let fail := b2n (r.beadCode != 0) + 2 * b2n r.beamParity + 4 * b2n (r.link != 0) + 8 * b2n (r.aes != 0) +
    16 * b2n r.crebaKat + 32 * b2n r.trng + 64 * b2n (r.dir != 0 || r.txn) + 128 * b2n r.xlt + 256 * b2n (r.mover != 0) +
    512 * b2n (r.rod != 0)
  let s := { s with
    boot := { s.boot with
      nmcOk := nmc, fmcOk := fmc, portOk := ports, dirOk := dirs, crebaOk := !r.crebaKat && !r.trng
      xltOk := !r.xlt, txnOk := !r.txn, beamOk := !r.beamParity, rodBad := r.rod, movBad := r.mover
      frameOk := okFrames, spareInUse := spared, stFail := fail }
    clk := { s.clk with
      enBlk := nmc + dirs * 2 ^ 4 + b2n (!r.beamParity) * 2 ^ 12 + b2n (!r.txn) * 2 ^ 13 + b2n (!r.xlt) * 2 ^ 14 + 0x78000
      enPort := ports + fmc * 2 ^ 16
      enFrm := okFrames
      rodEn := (List.range 32).map fun f =>
        (f, if bit okFrames f then 0x7FFFF - frameBad r.rod f else 0) } }
  (List.range 32).foldl (fun s f =>
    if bit spared f then s.setFrame f { s.frame f with spareFor := frameSpared r.rod f } else s) s

/-- SELFTEST_END (R44). -/
def execSelftestEnd (r : SelfTest) (s : State) : Outcome :=
  onlyIf (s.boot.started && s.boot.state == 1) s fun s => (s.judge r).phase 2

/-! ### Restore (R47–R49, R65, R97, R463) -/

/-- The issuer slot and entry number an address of R463 names. -/
def issuerEntry (a : Nat) : Option (Nat × Nat) :=
  if 0x4E40 ≤ a ∧ a < 0x5000 then some ((a - 0x4E00) / 0x40, (a - 0x4E00) % 0x40 / 4) else none

/-- Entries of a record addressed to one issuer slot, each with its place in the record. -/
def slotEntries (es : List (Nat × Nat)) (n : Nat) : List (Nat × (Nat × Nat)) :=
  (es.zipIdx.filter fun e => (issuerEntry e.1.1).map (·.1) == some n).map fun e => (e.2, e.1)

/-- The 64 bytes of a slot's record, when its 16 entries stand together in order (R48). -/
def slotRecord (es : List (Nat × Nat)) (n : Nat) : Option (List Byte) :=
  let l := slotEntries es n
  let i0 := (l.headD (0, (0, 0))).1
  if l.length = 16 ∧ (l.zipIdx.all fun e => e.1.1 == i0 + e.2 && e.1.2.1 == 0x4E00 + 0x40 * n + 4 * e.2) then
    some (l.flatMap fun e => leBytes 4 e.2.2)
  else none

/-- CC_MAX (R93). -/
def ccMax : Nat := 2 ^ 64 - 2 ^ 21

/-- A slot EXHAUSTED (R93): its event. -/
def ccExhausted (n : Nat) : Record := { typ := 0x0004, cls := 1, source := 0x4000, detail := detail [(0, [byte n])] }

/-- CC_CTR_WARN (R93). -/
def ccWarn (n last : Nat) : Record :=
  { typ := 0x0003, cls := 2, source := 0x4000, detail := detail [(0, [byte n]), (8, leBytes 8 last)] }

/-- A slot's last accepted counter rises: CC_CTR_WARN when it first exceeds CC_MAX − 2³², and the event of a slot EXHAUSTED (R93). -/
def State.counterRose (s : State) (n was now : Nat) : State :=
  let lim := ccMax - 2 ^ 32
  let s := if was ≤ lim ∧ lim < now then s.postMgr (ccWarn n now) else s
  if ccMax ≤ now then s.postMgr (ccExhausted n) else s

/-- An issuer slot restored from its record and journal entry (R97). -/
def State.restoreIssuer (s : State) (n : Nat) (rec : List Byte) : State :=
  match s.flash.latest n, Config.unwrapRetained (rec.drop 16) with
  | some e, some key =>
    if e.keyId = field rec 8 8 then
      let out := field rec 2 1 = 2 ∨ ccMax ≤ e.floor
      let s := s.setIssuer n { st := if out then 2 else 1, perm := field rec 1 1, key := key, last := e.floor, floor := e.floor }
      if out ∧ e.floor < ccMax then (s.counterRose n 0 e.floor).postMgr (ccExhausted n) else s.counterRose n 0 e.floor
    else s
  | _, _ => s

/-- Slot 0 takes its journalled floor (R97). -/
def State.restoreSlot0 (s : State) : State :=
  let f := ((s.flash.latest 0).map (·.floor)).getD 0
  let s := s.setIssuer 0 { s.issuer 0 with last := f, floor := f, st := if ccMax ≤ f then 2 else 1 }
  s.counterRose 0 0 f

/-- One configuration entry applied to both sets, or skipped (R48). -/
def State.restoreEntry (s : State) (e : Nat × Nat) : State :=
  let off := e.1 % 0x1000
  let off := if 0x200 ≤ off ∧ off < 0x3C0 then off - 0x1C0 else off
  let skip := { s with boot := { s.boot with skipped := atMost 0xFFFF (s.boot.skipped + 1) } }
  match pageOf e.1 with
  | none => skip
  | some (k, i) =>
    if e.1 % 4 ≠ 0 then skip
    else match shReg k off with
      | none => skip
      | some r => s.setBoth (pageBase k i + off) (BitVec.ofNat 32 (shClamp k off (e.2 &&& r.mask)))

/-- A whole record applied. -/
def State.restoreRecord (s : State) (es : List (Nat × Nat)) : State :=
  let s := (es.filter fun e => (issuerEntry e.1).isNone).foldl State.restoreEntry s
  (List.range 7).foldl (fun s i =>
    match slotRecord es (i + 1) with
    | some r => s.restoreIssuer (i + 1) r
    | none => { s with boot := { s.boot with skipped := atMost 0xFFFF (s.boot.skipped + (slotEntries es (i + 1)).length) } }) s

/-- The role of a 0b00 strap, from the committed MGR_HOME (Table 1.7; assumption 18). -/
def State.committedRole (s : State) (es : List (Nat × Nat)) : Nat :=
  if es.any fun e => e.1 == 0x5204 then
    if s.actBits .mgr 0 0x044 27 16 = s.ep then 2 else if s.actBits .mgr 0 0x044 11 0 = s.ep then 1 else 0
  else 0

/-- The beam, port and management domains take the sources CLK_SRC_BOOT asks for, both sources being present (R65, R66). -/
def State.bootSources (s : State) : State :=
  [1, 2, 5].foldl (fun s d =>
    let want := wbit (s.act .clk 0 0x048) d
    let present := s.clk.xoPresent && (bit s.clk.pllLocked d || wbit (s.reg 0x2800) (8 + d))
    if want != bit s.clk.sel d && present then
      { s with clk := { s.clk with sel := setBit s.clk.sel d want, pending := tblPut s.clk.pending d s.time } }
    else s) s

/-- The committed settings applied, from the chosen copy or as defaults (R47, R48). -/
def State.restore (s : State) : State :=
  match s.chosenCopy with
  | none => { s with boot := { s.boot with source := 3, restoreSeq := 0 } }
  | some (n, r) =>
    let s := { s with boot := { s.boot with source := n + 1, restoreSeq := r.seq } }
    let s := s.restoreRecord r.entries
    if (s.pwr.sampled.getD {}).role = 0 then
      let role := s.committedRole r.entries
      { s with mgr := { s.mgr with role := role, ep := if role = 2 then some s.ep else s.mgr.ep } }
    else s

/-- RESTORE ends: floors, sources, then TRAIN. -/
def State.endRestore (s : State) : State := (s.restoreSlot0.bootSources).phase 3

/-- RESTORE_END (R48, R49, R65, R97). -/
def execRestoreEnd (s : State) : Outcome :=
  onlyIf (s.boot.started && s.boot.state == 2) s fun s => s.restore.endRestore

/-! ### Training and zero-fill (R50–R52) -/

/-- A controller. -/
def State.ctlAt (s : State) (c : Nat) : Ctl := tblGet s.ctl c {}

/-- A controller set. -/
def State.setCtl (s : State) (c : Nat) (v : Ctl) : State := { s with ctl := tblPut s.ctl c v }

/-- A unit marked unhealthy: a controller goes out of service and its clock is gated. -/
def State.failCtl (s : State) (c : Nat) : State :=
  if c < 4 then
    { s with boot := { s.boot with nmcOk := setBit s.boot.nmcOk c false }, clk := { s.clk with enBlk := setBit s.clk.enBlk c false } }
  else
    { s with
      boot := { s.boot with fmcOk := setBit s.boot.fmcOk (c - 4) false }
      clk := { s.clk with enPort := setBit s.clk.enPort (12 + c) false } }

end Sys2Proof.Machine

namespace Sys2Proof

open Sys2Proof.Machine

/-- A controller's repair map (R138): at most 64 entries, lane entries in the near tier alone. -/
def repairMap (c : Nat) : List RepairEntry :=
  (((Config.repairMap c).filter fun e => !e.1 || c < 4).take 64).map fun e =>
    if e.1 then .lane e.2.1 e.2.2.1 else .row e.2.1 e.2.2.1 e.2.2.2

/-- The entries of a controller's repair map, each with its check in an attempt. -/
def Attempt.repairs (a : Attempt) (c : Nat) : List (RepairEntry × RepairCheck) :=
  (repairMap c).zipIdx.map fun e => (e.1, a.checks.getD e.2 .good)

/-- An entry passes: a row at first or after a soft repair, a lane at first (R138). -/
def repairPasses (e : RepairEntry × RepairCheck) : Bool :=
  match e with
  | (.row .., k) => k != .bad
  | (.lane .., k) => k == .good

/-- An attempt succeeds when no step fails on a channel and every entry passes (R136, R138). -/
def Attempt.ok (a : Attempt) (c : Nat) : Bool := a.failCh.isNone && (a.repairs c).all repairPasses

/-- The attempts a controller makes: at most three (R50). -/
def TrainResult.tries (r : TrainResult) : List Attempt := r.attempts.take 3

/-- A controller's training has ended: an attempt succeeded, or three failed. -/
def TrainResult.ended (r : TrainResult) (c : Nat) : Bool := r.tries.any (fun a => a.ok c) || r.tries.length == 3

/-- Rows of an attempt that a soft repair replaced. -/
def Attempt.soft (a : Attempt) (c : Nat) : List (Nat × Nat × Nat) :=
  (a.repairs c).filterMap fun e => match e with | (.row u b r, .soft) => some (u, b, r) | _ => none

/-- Row or lane entries of an attempt that passed at their first check. -/
def Attempt.passed (a : Attempt) (c : Nat) (lane : Bool) : Nat :=
  ((a.repairs c).filter fun e => e.2 == .good && (match e.1 with | .lane .. => lane | .row .. => !lane)).length

end Sys2Proof

namespace Sys2Proof.Machine

/-- What training leaves at a controller (Tables 6.14, 6.15): the attempts made, the channel of the last failed one, the repair
map's outcome in the last one, and the temperature at which every channel was trained when it succeeded. -/
def Ctl.trained (v : Ctl) (c : Nat) (r : TrainResult) : Ctl :=
  let n := (r.tries.findIdx? (fun a => a.ok c)).getD (r.tries.length - 1)
  let a := r.tries.getD n {}
  let good := r.tries.any (fun a => a.ok c)
  { v with
    attempts := min (n + 1) r.tries.length
    lastFailCh := ((r.tries.take (n + 1)).filterMap (·.failCh)).getLast?.getD v.lastFailCh
    entries := (repairMap c).length, rowsOk := a.passed c false, lanesOk := a.passed c true
    softRepairs := (a.soft c).length, softRows := a.soft c
    temp := a.temp
    trainedAt := if good then (List.range 16).map fun ch => (ch, a.temp) else v.trainedAt }

/-- The training of one controller ends (R50, R136, R138): it stays healthy if an attempt succeeded. -/
def State.trained (s : State) (c : Nat) (r : TrainResult) : State :=
  if !s.ctlOk c then s
  else
    let period := ms (s.actBits (ctlPage c).1 (ctlPage c).2 0x048 31 16)
    let s := s.setCtl c { (s.ctlAt c).trained c r with since := s.time, idleSince := s.time, nextTrack := s.time + period }
    if r.tries.any (fun a => a.ok c) then { s with boot := { s.boot with trainDone := setBit s.boot.trainDone c true } }
    else s.failCtl c

/-- ZERO starts: the ports whose settings enable it start to train (R52). -/
def State.startZero (s : State) : State :=
  (List.range 16).foldl (fun s p => if s.mayTrain p then s.trainPort p else s) (s.phase 4)

/-- The training of a controller, of a list for controllers 0–11: one not listed has made no attempt. -/
def trainOf (r : List TrainResult) (c : Nat) : TrainResult := r.getD c { attempts := [] }

/-- Every controller's training taken. -/
def State.trainAll (s : State) (r : List TrainResult) : State :=
  (List.range 12).foldl (fun s c => s.trained c (trainOf r c)) s

/-- Every healthy controller's training has ended. -/
def State.allTrained (s : State) (r : List TrainResult) : Bool :=
  (List.range 12).all fun c => !s.ctlOk c || (trainOf r c).ended c

/-- TRAIN_END (R50): the training of each healthy controller has ended. -/
def execTrainEnd (r : List TrainResult) (s : State) : Outcome :=
  onlyIf (s.boot.started && s.boot.state == 3 && s.allTrained r) s fun s => (s.trainAll r).startZero

/-- CONTROLLER_ZERO_DONE (R51): every bead of the controller is zero with clean metadata. -/
def execControllerZeroDone (c : Fin 12) (s : State) : Outcome :=
  onlyIf (s.boot.state == 4 && s.ctlOk c) s fun s =>
    { s with
      mem := s.mem.filter fun m => windowOf m.1 != some c.val
      beads := tblFilter s.beads fun b _ => windowOf (b * 64) != some c.val
      boot := { s.boot with zeroDone := setBit s.boot.zeroDone c true } }

/-- The service level (Table 2.5): 0 when the module is HALTED. The minimum set holds a healthy controller together with the
slice that homes its addresses (R56). -/
def State.serviceLevel (s : State) : Nat :=
  let b := s.boot
  if !b.crebaOk || !b.beamOk || !b.txnOk || !b.xltOk || b.portOk == 0 || s.mateFault ||
      (List.range 12).all (fun c => !s.winOk c) then 0
  else if b.frameOk = 0 then 3
  else if b.portOk == 0xFFFF && b.dirOk == 0xFF && b.nmcOk == 0xF && b.fmcOk == 0xFF && b.rodBad == 0 && b.movBad == 0 then 1
  else 2

/-- ZERO ends: all SRAM is zero, logs are empty, and the level is known; less than the minimum set is HALTED (R51, R57). -/
def State.endZero (s : State) : State :=
  let s := { s with
    frames := tblMap s.frames fun _ f => { f with fb := [], badLines := [] }
    rods := [], dir := [] }
  let l := s.serviceLevel
  let s := { s with boot := { s.boot with level := l } }
  if l = 0 then s.phase 8 else s.phase 5

/-- Every healthy controller has been zeroed. -/
def State.allZeroed (s : State) : Bool := (List.range 12).all fun c => !s.ctlOk c || bit s.boot.zeroDone c

/-- ZERO_END (R51, R57). -/
def execZeroEnd (s : State) : Outcome := onlyIf (s.boot.state == 4 && s.allZeroed) s State.endZero

/-- Limit of the phase in progress, ns (Table 2.1; the ROM limit is one slot's). -/
def phaseLimit (state : Nat) : Option Nat :=
  if state = 0 then some (ms 400) else if state = 1 ∨ state = 2 then some (ms 100)
  else if state = 3 then some (ms 500) else if state = 4 then some (ms 1500) else none

/-- A slot reaches its limit in ROM (R34): the other slot is tried, with a limit of its own, and after it the module is in
RECOVERY. -/
def State.romLimit (s : State) : State :=
  let s := s.checkCopies
  if s.boot.romOver then s.recover else { s with boot := { s.boot with romOver := true, phaseAt := s.time } }

/-- What has not finished its phase at the limit is unhealthy, and the boot goes on (R34): `r` and `t` say what had failed or not
finished its self-test, and the training made. -/
def State.passLimit (s : State) (r : SelfTest) (t : List TrainResult) : State :=
  let st := s.boot.state
  if st = 0 then s.romLimit
  else if st = 1 then (s.judge r).phase 2
  else if st = 2 then ({ s with boot := { s.boot with source := 3, restoreSeq := 0 } } : State).endRestore
  else if st = 3 then (s.trainAll t).startZero
  else if st = 4 then
    ((List.range 12).foldl (fun s c => if bit s.boot.zeroDone c || !s.ctlOk c then s else s.failCtl c) s).endZero
  else s

/-- PHASE_LIMIT (R34). -/
def execPhaseLimit (r : SelfTest) (t : List TrainResult) (s : State) : Outcome :=
  match phaseLimit s.boot.state with
  | none => .next s
  | some l => onlyIf s.boot.started s fun s => (s.elapseTo (s.boot.phaseAt + l)).passLimit r t

/-! ### Service and join (R54, R55) -/

/-- A new MGR_NONCE drawn by the active manager (R419). -/
def State.drawMgrNonce (s : State) : State :=
  let (v, s) := s.free
  let s := { s with mgr := { s.mgr with nonce := v % 2 ^ 128 } }
  s.deriveSelf.deriveCtrl

/-- TICK_LISTEN_END (R54): the listening active manager starts the tick at 0 and counts as locked. -/
def execTickListenEnd (s : State) : Outcome :=
  match s.tick.listenFrom with
  | none => .next s
  | some t =>
    if s.mgr.role ≠ 2 ∨ s.tick.locked then .next s
    else
      let s := s.elapseTo (t + ms (s.actBits .boot 0 0x040 15 8))
      .next ({ s with tick := { s.tick with count := 0, locked := true, first := true, listenFrom := none } } : State).drawMgrNonce

/-- BOOT_STATUS (Table 2.8). -/
def State.bootStatusWord (s : State) : Nat :=
  s.boot.level % 4 * 2 ^ 12 + b2n s.boot.demoted * 2 ^ 9 + b2n s.tick.locked * 2 ^ 8 + s.boot.cause % 16 * 2 ^ 4 + s.boot.state

/-- BOOT_HEALTH_A and BOOT_HEALTH_B (Tables 2.9, 2.10). -/
def State.healthA (s : State) : Nat := s.boot.nmcOk * 2 ^ 24 + s.boot.fmcOk * 2 ^ 16 + s.boot.portOk
def State.healthB (s : State) : Nat :=
  b2n s.boot.crebaOk * 2 ^ 11 + b2n s.boot.xltOk * 2 ^ 10 + b2n s.boot.txnOk * 2 ^ 9 + b2n s.boot.beamOk * 2 ^ 8 + s.boot.dirOk

/-- The fields of a join announcement (R55), laid out as assumption 25 says. -/
def State.joinBody (s : State) : List Byte :=
  let i := s.issuer 1
  leBytes 2 s.ep ++ zeroBytes 2 ++ leBytes 4 idrev ++ leBytes 8 Config.serial.toNat ++ leBytes 4 s.bootStatusWord ++
    leBytes 4 s.healthA ++ leBytes 4 s.healthB ++ leBytes 4 s.boot.frameOk ++ leBytes 4 s.boot.spareInUse ++
    [byte i.st] ++ zeroBytes 3 ++ leBytes 8 s.boot.restoreSeq ++ leBytes 16 s.boot.nonce ++
    leBytes 8 (if i.st = 0 then 0 else keyIdent i.key)

/-- A CMD this module sends: on VC0 for opcodes below 0x80, else on VC1. -/
def State.cmdPacket (s : State) (op dst ctx : Nat) (body : List Byte) : Packet :=
  { typ := tCmd, vc := if op < 0x80 then 0 else 1, dst := dst, form := contextForm s.ep ctx 0
    body := padded (byte op :: zeroBytes 7 ++ body) }

/-- The join announcement sent to the module's manager (R55). -/
def State.sendJoin (s : State) : State :=
  let s := { s with boot := { s.boot with joinAt := some s.time } }
  match s.mgr.ep with
  | none => s
  | some m => (s.issue (s.cmdPacket 0x43 m 0 s.joinBody) .clear .join none).1

/-- SERVICE_ENTRY (R55): ZERO has ended, TICK_LOCKED is set and the module is not HALTED. -/
def execServiceEntry (s : State) : Outcome :=
  onlyIf (s.boot.state == 5 && s.tick.locked) s fun s => (s.phase 6).sendJoin

/-- JOIN_REPEAT (R55). -/
def execJoinRepeat (s : State) : Outcome :=
  match s.boot.joinAt with
  | none => .next s
  | some t => onlyIf (s.inService && !s.boot.joinDone) s fun s => (s.elapseTo (t + ms 100)).sendJoin

end Sys2Proof.Machine
end

