-- ==== Sys2Proof/Machine/Formats.lean ====
section
/-!
DEFINITION. The fifteen number formats (R195–R201), exact values, rounding (R202–R207), conversions (R208–R212), exact
arithmetic of the vector unit (R221), the fixed exponential and reciprocal (R225–R227) and MX quantisation (R219).
-/

namespace Sys2Proof.Machine

/-- An exact value: NaN, an infinity, or ±n·2^e (a zero keeps its sign). -/
inductive Num where
  | nan
  | inf (neg : Bool)
  | fin (neg : Bool) (n : Nat) (e : Int)
deriving DecidableEq, Repr

/-! ### Formats -/

/-- Width of a format in bits; a 6-bit format counts as its byte form (Table 9.1, R208). -/
def fmtWidth (f : Nat) : Nat :=
  if f ≤ 1 then 4 else if f ≤ 8 then 8 else if f ≤ 0xB then 16 else if f ≤ 0xD then 32 else 64

/-- Width of a format in its packed form (R196). -/
def fmtPacked (f : Nat) : Nat := if f = 2 ∨ f = 3 then 6 else fmtWidth f

/-- INT4, INT8, INT16, INT32. -/
def fmtInt (f : Nat) : Bool := f == 0 || f == 4 || f == 9 || f == 0xC

/-- The four IEEE formats. -/
def fmtIeee (f : Nat) : Bool := f == 0xA || f == 0xB || f == 0xD || f == 0xE

/-- The 6-bit formats. -/
def fmtSix (f : Nat) : Bool := f == 2 || f == 3

/-- Exponent and mantissa widths of a floating-point format (Table 9.2). -/
def fmtFields (f : Nat) : Nat × Nat :=
  if f = 1 then (2, 1) else if f = 2 then (3, 2) else if f = 3 then (2, 3) else if f = 5 then (4, 3)
  else if f = 6 then (5, 2) else if f = 0xA then (5, 10) else if f = 0xB then (8, 7) else if f = 0xD then (8, 23)
  else (11, 52)

/-- Bias of a floating-point format: 2^(w−1) − 1 for an exponent field of w bits. -/
def fmtBias (f : Nat) : Nat := 2 ^ ((fmtFields f).1 - 1) - 1

/-- Whether a floating-point format has infinities, and NaNs (Table 9.2). -/
def fmtHasInf (f : Nat) : Bool := fmtIeee f || f == 6
def fmtHasNan (f : Nat) : Bool := fmtHasInf f || f == 5

/-- Magnitude code of the largest finite value. -/
def fmtMax (f : Nat) : Nat :=
  let (e, m) := fmtFields f
  if fmtHasInf f then (2 ^ e - 1) * 2 ^ m - 1 else if f = 5 then 2 ^ (e + m) - 2 else 2 ^ (e + m) - 1

/-- Canonical NaN (Table 9.2; E8M0 and L8 of R199, R201; 0 where the format has none). -/
def fmtNan (f : Nat) : Nat :=
  if f = 0xE then 0x7FF8000000000000 else if f = 0xD then 0x7FC00000 else if f = 0xA then 0x7E00 else if f = 0xB then 0x7FC0
  else if f = 6 ∨ f = 5 then 0x7F else if f = 7 then 0xC0 else if f = 8 then 0xFF else 0

/-! ### Roots -/

/-- Integer square root by bits: the largest r with r² ≤ n, r built from bit `k` down. -/
def isqrtFrom (n : Nat) : (k : Nat) → (r : Nat) → Nat
  | 0, r => if (r + 1) * (r + 1) ≤ n then r + 1 else r
  | k + 1, r => let t := r + 2 ^ (k + 1); isqrtFrom n k (if t * t ≤ n then t else r)

/-- ⌊√n⌋. -/
def isqrt (n : Nat) : Nat := isqrtFrom n (n.log2 / 2 + 1) 0

/-- ⌊2^(L/8) × 2^128⌋ for L > −1024: an eighth root of a power of two. -/
def pow2Eighth (l : Int) : Nat := isqrt (isqrt (isqrt (2 ^ (l + 1024).toNat)))

/-! ### Decoding -/

/-- The exact value of an L8 code. 2^(L/8) with L no multiple of 8 is irrational; it stands midway between two consecutive
multiples of 2⁻¹²⁸, which every rounding of the chapter maps as it maps the value itself (R201, R210). -/
def decodeL8 (c : Nat) : Num :=
  let l := signed 7 c
  let neg := bit c 7
  if l = -64 then (if neg then .nan else .fin false 0 0)
  else if l % 8 = 0 then .fin neg 1 (l / 8)
  else .fin neg (2 * pow2Eighth l + 1) (-129)

/-- The exact value of a code of a floating-point format (R197, R198). -/
def decodeFloat (f c : Nat) : Num :=
  let (ew, mw) := fmtFields f
  let neg := bit c (ew + mw)
  let e := bits c (ew + mw - 1) mw
  let m := c % 2 ^ mw
  if fmtHasInf f && e == 2 ^ ew - 1 then (if m = 0 then .inf neg else .nan)
  else if f = 5 ∧ c % 128 = 127 then .nan
  else if e = 0 then .fin neg m (1 - (fmtBias f : Int) - mw)
  else .fin neg (2 ^ mw + m) ((e : Int) - fmtBias f - mw)

/-- The exact value of a code (R209). -/
def decodeFmt (f c : Nat) : Num :=
  if fmtInt f then let i := signed (fmtWidth f) c; .fin (decide (i < 0)) i.natAbs 0
  else if f = 7 then decodeL8 c
  else if f = 8 then (if c % 256 = 255 then .nan else .fin false 1 ((c % 256 : Nat) - 127))
  else if fmtSix f then decodeFloat f (c % 64)
  else decodeFloat f c

/-! ### Rounding -/

/-- Event bits of Table 9.9: 0 FP_INVALID, 1 FP_DIVZERO, 2 FP_OVERFLOW, 3 FP_UNDERFLOW, 4 FP_INEXACT, 5 FP_SATURATE. -/
structure Rounded where
  code : Nat
  ev : Nat := 0
deriving DecidableEq, Repr

/-- n·2^e in units of 2^q: the integer part, the remainder and its divisor. -/
def scaled (n : Nat) (e q : Int) : Nat × Nat × Nat :=
  if q ≤ e then (n * 2 ^ (e - q).toNat, 0, 1)
  else let d := 2 ^ (q - e).toNat; (n / d, n % d, d)

/-- Whether a magnitude k + r/d rounds up, by mode, sign and draw (R203, R204). -/
def roundsUp (mode : Nat) (neg : Bool) (k r d draw : Nat) : Bool :=
  if r = 0 then false
  else if mode = 0 then decide (d < 2 * r) || (decide (2 * r = d) && k % 2 == 1)
  else if mode = 1 then false
  else if mode = 2 then neg
  else if mode = 3 then !neg
  else if mode = 4 then decide (d ≤ 2 * r)
  else decide (2 ^ 24 ≤ r * 2 ^ 24 / d + draw)

/-- A magnitude rounded to an integer multiple. -/
def roundMag (mode : Nat) (neg : Bool) (x : Nat × Nat × Nat) (draw : Nat) : Nat :=
  x.1 + b2n (roundsUp mode neg x.1 x.2.1 x.2.2 draw)

/-- The sign bit of a floating-point code. -/
def signCode (f : Nat) (neg : Bool) : Nat := let (e, m) := fmtFields f; b2n neg * 2 ^ (e + m)

/-- The code of an overflow (Table 9.5): infinity (a NaN in E4M3) or the largest finite value. -/
def overflowFloat (f mode : Nat) (sat neg : Bool) : Rounded :=
  let max := signCode f neg + fmtMax f
  if !fmtHasNan f || sat then { code := max, ev := 0x34 }
  else if mode = 1 ∨ (mode = 2 ∧ neg = false) ∨ (mode = 3 ∧ neg = true) then { code := max, ev := 0x14 }
  else if f = 5 then { code := fmtNan 5, ev := 0x14 }
  else { code := signCode f neg + fmtMax f + 1, ev := 0x14 }

/-- A finite nonzero value rounded into a floating-point format (R203–R207). -/
def roundFloat (f mode : Nat) (sat : Bool) (draw : Nat) (neg : Bool) (n : Nat) (e : Int) : Rounded :=
  let mw := (fmtFields f).2
  let emin : Int := 1 - (fmtBias f : Int)
  let msb : Int := (n.log2 : Int) + e
  let q := max msb emin - mw
  let x := scaled n e q
  let k := roundMag mode neg x draw
  let code := if msb < emin then k else (msb - emin + 1).toNat * 2 ^ mw + k - 2 ^ mw
  if fmtMax f < code then overflowFloat f mode sat neg
  else
    let inexact := x.2.1 != 0
    let free := roundMag mode neg (scaled n e (msb - mw)) draw
    let tiny := decide (msb < emin) && !(decide (msb = emin - 1) && free == 2 ^ (mw + 1))
    { code := signCode f neg + code, ev := (if inexact then 0x10 else 0) + (if inexact && tiny then 0x08 else 0) }

/-- An infinity into a floating-point format (Table 9.5). -/
def infFloat (f : Nat) (sat neg : Bool) : Rounded :=
  if fmtHasInf f then { code := signCode f neg + fmtMax f + 1 }
  else if f = 5 ∧ sat = false then { code := fmtNan 5 }
  else { code := signCode f neg + fmtMax f, ev := 0x20 }

/-- An integer clamped to the range of a width, as its code. -/
def clampInt (w : Nat) (i : Int) : Nat := unsigned w (max (-(2 ^ (w - 1) : Nat)) (min i ((2 ^ (w - 1) : Nat) - 1)))

/-- A value into a two's-complement integer of `w` bits, saturating (R212). -/
def roundInt (w mode draw : Nat) (v : Num) : Rounded :=
  match v with
  | .nan => { code := 0, ev := 0x01 }
  | .inf neg => { code := clampInt w (if neg then -(2 ^ w : Nat) else (2 ^ w : Nat)), ev := 0x20 }
  | .fin neg n e =>
    let x := scaled n e 0
    let k : Int := roundMag mode neg x draw
    let i := if neg then -k else k
    let c := clampInt w i
    if signed w c = i then { code := c, ev := if x.2.1 = 0 then 0 else 0x10 } else { code := c, ev := 0x34 }

/-- ⌊log2(n^16)⌋ + 16e: sixteen times the binary logarithm, rounded down. -/
def log16 (n : Nat) (e : Int) : Int := ((n ^ 16).log2 : Int) + 16 * e

/-- A value into L8 (R210). -/
def roundL8 (v : Num) : Rounded :=
  match v with
  | .nan => { code := 0xC0 }
  | .inf neg => { code := 0x3F + 0x80 * b2n neg, ev := 0x20 }
  | .fin neg n e =>
    if n = 0 then { code := 0x40 }
    else
      let l := (log16 n e + 1) / 2
      if l ≤ -64 then { code := 0x40, ev := 0x18 }
      else if 63 < l then { code := 0x3F + 0x80 * b2n neg, ev := 0x34 }
      else
        let c := unsigned 7 l + 0x80 * b2n neg
        { code := c, ev := if decodeL8 c = .fin neg n e ∨ (l % 8 = 0 ∧ n * 2 ^ (e - l / 8).toNat = 2 ^ (l / 8 - e).toNat) then 0
                           else 0x10 }

/-- A value into E8M0 (R211). -/
def roundE8M0 (sat : Bool) (v : Num) : Rounded :=
  match v with
  | .nan => { code := 0xFF }
  | .inf _ => if sat then { code := 0xFE, ev := 0x20 } else { code := 0xFF }
  | .fin neg n e =>
    if n = 0 then { code := 0, ev := 0x10 }
    else
      let x := 127 + (n.log2 : Int) + e
      let exact := !neg && n == 2 ^ n.log2
      if x < 0 then { code := 0, ev := 0x18 }
      else if 254 < x then { code := 0xFE, ev := 0x34 }
      else { code := x.toNat, ev := if exact then 0 else 0x10 }

/-- A value rounded once into a format (R203–R212). -/
def roundFmt (f mode : Nat) (sat : Bool) (draw : Nat) (v : Num) : Rounded :=
  if fmtInt f then roundInt (fmtWidth f) mode draw v
  else if f = 7 then roundL8 v
  else if f = 8 then roundE8M0 sat v
  else match v with
    | .nan => { code := fmtNan f, ev := if fmtHasNan f then 0 else 0x01 }
    | .inf neg => infFloat f sat neg
    | .fin neg n e => if n = 0 then { code := signCode f neg } else roundFloat f mode sat draw neg n e

/-! ### Exact arithmetic -/

/-- A sum of two signed magnitudes at one exponent, with IEEE 754's sign of an exact zero. -/
def signedSum (mode : Nat) (na nb : Bool) (a b : Nat) (e : Int) : Num :=
  if na = nb then .fin na (a + b) e
  else if a = b then .fin (mode == 2) 0 e
  else if b < a then .fin na (a - b) e
  else .fin nb (b - a) e

/-- The exact sum (R221). -/
def addNum (mode : Nat) : Num → Num → Num
  | .nan, _ => .nan
  | _, .nan => .nan
  | .inf a, .inf b => if a = b then .inf a else .nan
  | .inf a, .fin _ _ _ => .inf a
  | .fin _ _ _, .inf b => .inf b
  | .fin na a ea, .fin nb b eb =>
    let e := min ea eb
    signedSum mode na nb (a * 2 ^ (ea - e).toNat) (b * 2 ^ (eb - e).toNat) e

/-- The exact product (R221). -/
def mulNum : Num → Num → Num
  | .nan, _ => .nan
  | _, .nan => .nan
  | .inf a, .inf b => .inf (a != b)
  | .inf a, .fin b n _ => if n = 0 then .nan else .inf (a != b)
  | .fin a n _, .inf b => if n = 0 then .nan else .inf (a != b)
  | .fin na a ea, .fin nb b eb => .fin (na != nb) (a * b) (ea + eb)

/-- Whether a value is NaN. -/
def Num.isNan : Num → Bool
  | .nan => true
  | _ => false

/-- The negative of a value. -/
def Num.neg : Num → Num
  | .nan => .nan
  | .inf a => .inf (!a)
  | .fin a n e => .fin (!a) n e

/-- Order of two values, −0 below +0 when `zeros` (R222) and equal otherwise (R224); NaN is never compared. -/
def Num.lt (zeros : Bool) : Num → Num → Bool
  | .inf a, .inf b => a && !b
  | .inf a, .fin _ _ _ => a
  | .fin _ _ _, .inf b => !b
  | .fin na a ea, .fin nb b eb =>
    let e := min ea eb
    let x := a * 2 ^ (ea - e).toNat
    let y := b * 2 ^ (eb - e).toNat
    if x = 0 ∧ y = 0 then zeros && na && !nb
    else if na && !nb then true
    else if !na && nb then false
    else if na then decide (y < x) else decide (x < y)
  | _, _ => false

/-- Values that compare equal (R224). -/
def Num.eqv (a b : Num) : Bool := !a.isNan && !b.isNan && !Num.lt false a b && !Num.lt false b a

/-- An arithmetic result of a vector lane: the exact result rounded, FP_INVALID for a NaN from non-NaN inputs (R221,
R222). -/
def roundOp (f mode : Nat) (sat : Bool) (draw : Nat) (anyNan : Bool) (v : Num) : Rounded :=
  let r := roundFmt f mode sat draw v
  if v.isNan && !anyNan then { r with ev := 0x01 } else r

/-- An integer result modulo 2ⁿ, or saturated (R221). -/
def wrapInt (w : Nat) (sat : Bool) (i : Int) : Rounded :=
  if sat then (let c := clampInt w i; { code := c, ev := if signed w c = i then 0 else 0x20 }) else { code := unsigned w i }

/-! ### The fixed exponential and reciprocal (R225–R227) -/

/-- L2E = log2(e) in units of 2⁻⁶²; C1, C2, C3 = ln 2, (ln 2)²/2, (ln 2)³/6 in units of 2⁻³². -/
def expL2E : Nat := 6653256548922161246
def expC1 : Nat := 2977044472
def expC2 : Nat := 1031764991
def expC3 : Nat := 238388332

/-- T[j] = 2^(j/32) in units of 2⁻³²: a thirty-second root, rounded to nearest. -/
def expT (j : Nat) : Nat := (isqrt (isqrt (isqrt (isqrt (isqrt (2 ^ (j + 33 * 32)))))) + 1) / 2

/-- R[j] = 1 ÷ (1 + (2j + 1)/256) in units of 2⁻¹⁶, rounded to nearest. -/
def rcpR (j : Nat) : Nat := (2 * 256 * 65536 + (257 + 2 * j)) / (2 * (257 + 2 * j))

/-- A finite value times 2^k, rounded down to an integer. -/
def floorAtScale (neg : Bool) (n : Nat) (e : Int) (k : Nat) : Int :=
  let v : Int := if neg then -(n : Int) else n
  let s := e + k
  if 0 ≤ s then v * (2 ^ s.toNat : Nat) else v / (2 ^ (-s).toNat : Nat)

/-- The algorithm of R226 on a finite x between −128 and 128: y = floor_40(x·L2E). -/
def expY (neg : Bool) (n : Nat) (e : Int) : Int := floorAtScale neg (n * expL2E) (e - 62) 40

/-- m of R226 in units of 2⁻³² and n, from y in units of 2⁻⁴⁰. -/
def expMN (y : Int) : Nat × Int :=
  let n := y / (2 ^ 40 : Nat)
  let f := (y % (2 ^ 40 : Nat)).toNat
  let j := f / 2 ^ 35
  let r := f % 2 ^ 35
  let a := r * expC3 / 2 ^ 40
  let b := r * (expC2 + a) / 2 ^ 40
  let c := r * (expC1 + b) / 2 ^ 40
  let p := 2 ^ 32 + c
  (expT j * p / 2 ^ 32, n)

/-- VEXP of one element already widened to an exact value (R226). -/
def expNum (fb mode : Nat) (sat : Bool) (draw : Nat) (x : Num) : Rounded :=
  let big : Rounded := if fb = 7 then { code := 0x3F, ev := 0x34 } else overflowFloat fb mode sat false
  let small : Rounded := if fb = 7 then { code := 0x40, ev := 0x18 } else roundFmt fb mode sat draw (.fin false 1 (-200))
  match x with
  | .nan => roundFmt fb mode sat draw .nan
  | .inf neg => if neg then small else big
  | .fin neg n e =>
    if Num.lt false (.fin neg n e) (.fin false 128 0) = false then big
    else if Num.lt false (.fin true 128 0) (.fin neg n e) = false then small
    else
      let y := expY neg n e
      if fb = 7 then
        let l := (8 * y * 2 + (2 ^ 40 : Nat)) / (2 ^ 41 : Nat)
        if 63 < l then big
        else if l ≤ -64 then { code := 0x40, ev := 0x18 }
        else { code := unsigned 7 l, ev := if 8 * y = l * (2 ^ 40 : Nat) then 0 else 0x10 }
      else
        let (m, k) := expMN y
        roundFmt fb mode sat draw (.fin false m (k - 32))

/-- One Newton step of R227: y in units of 2⁻⁴⁰, s in units of 2⁻ᵏ. -/
def rcpStep (y s k : Nat) : Nat :=
  let t := s * y / 2 ^ k
  y * (2 ^ 41 - t) / 2 ^ 40

/-- VRCP of one element (R227). -/
def rcpNum (fb mode : Nat) (sat : Bool) (draw : Nat) (x : Num) : Rounded :=
  match x with
  | .nan => roundFmt fb mode sat draw .nan
  | .inf neg => { code := signCode fb neg }
  | .fin neg n e =>
    if n = 0 then let r := infFloat fb sat neg; { r with ev := r.ev + 2 }
    else
      let k := n.log2
      let ex := (k : Int) + e
      if n = 2 ^ k then roundFmt fb mode sat draw (.fin neg 1 (-ex))
      else
        let j := (n - 2 ^ k) * 128 / 2 ^ k
        let y := rcpR j * 2 ^ 24
        let y := rcpStep y n k
        let y := rcpStep y n k
        roundFmt fb mode sat draw (.fin neg y (-40 - ex))

/-! ### Elements of byte strings, and MX blocks (R196, R216–R219) -/

/-- Element `i` of width `w` of a bit string. -/
def elem (b : Nat) (w i : Nat) : Nat := b / 2 ^ (w * i) % 2 ^ w

/-- Elements of width `w` laid into a bit string. -/
def elems (w : Nat) : List Nat → Nat
  | [] => 0
  | x :: t => x % 2 ^ w + 2 ^ w * elems w t

/-- A value times 2^k. -/
def Num.scale (v : Num) (k : Int) : Num :=
  match v with
  | .fin neg n e => .fin neg n (e + k)
  | _ => v

/-- ⌊log2⌋ of the largest magnitude of finite values; none when all are 0. -/
def maxLog (xs : List Num) : Option Int :=
  xs.foldl (fun m v => match v with
    | .fin _ n e => if n = 0 then m else
        let l : Int := (n.log2 : Int) + e
        (match m with | some k => some (max k l) | none => some l)
    | _ => m) none

/-- E_max of an MX element format (R219). -/
def mxEmax (f : Nat) : Int := if f = 1 ∨ f = 3 ∨ f = 0 then 2 else if f = 2 then 4 else if f = 4 then 6 else if f = 5 then 8 else 15

/-- Element formats of an MX block (R216). -/
def mxFormat (f : Nat) : Bool := f ≤ 6

/-- 32 values quantised: the scale and the element codes (R219). -/
def quantise (f mode : Nat) (draws : List Nat) (xs : List Num) : Nat × List Nat :=
  let special := xs.any fun v => match v with | .fin _ _ _ => false | _ => true
  if special then (0xFF, xs.map fun _ => 0)
  else match maxLog xs with
    | none => (0, xs.map fun _ => 0)
    | some l =>
      let e := max 0 (min 254 (l - mxEmax f + 127))
      (e.toNat, (List.range xs.length).map fun i =>
        (roundFmt f mode true (draws.getD i 0) ((xs.getD i .nan).scale (127 - e))).code)

/-- Element of an MX block decoded (R216): an element of a block of scale 0xFF is NaN. -/
def mxValue (f scale code : Nat) : Num := if scale = 0xFF then .nan else (decodeFmt f code).scale ((scale : Int) - 127)

/-! ### Atomics on a bead (R282, R376) -/

/-- The bead after an EXACT_ADD (R282). -/
def exactAdd (operand bead : List Byte) : List Byte :=
  let fmt := field operand 0 1
  let wide := field operand 1 1 = 0
  let lanes := if wide then 8 else 16
  let bytes := if wide then 8 else 4
  let frac := field operand 2 1
  let mode := field operand 3 1
  let mask := field operand 4 2
  let es := exactBytes fmt
  (List.range lanes).flatMap fun i =>
    let old := field bead (bytes * i) bytes
    if bit mask i then
      let x := (decodeFmt fmt (field operand (8 + es * i) es)).scale frac
      leBytes bytes (old + (roundInt (8 * bytes) mode 0 x).code)
    else leBytes bytes old
where
  exactBytes (f : Nat) : Nat := fmtWidth f / 8

/-- Field values of an EXACT_ADD operand that Table 11.10 allows. -/
def exactAddOk (b : List Byte) : Bool :=
  let f := field b 0 1
  (f == 0x9 || f == 0xA || f == 0xB || f == 0xC || f == 0xD) && field b 1 1 ≤ 1 && field b 2 1 ≤ 62 && field b 3 1 ≤ 4 &&
    (field b 1 1 == 1 || field b 5 1 == 0) && zeros b 6 2

/-- Field values of a FETCH_ADD, SWAP or CAS operand that Table 16.4 allows. -/
def atomicOk (sub : Nat) (b : List Byte) : Bool :=
  let w := field b 1 1
  let n := 2 ^ w
  (w == 2 || w == 3) && field b 0 1 % n == 0 && field b 0 1 + n ≤ 64 && zeros b 2 6 && (w == 3 || zeros b 12 4) &&
    (if sub = 2 then w == 3 || zeros b 20 4 else zeros b 16 8)

/-- FETCH_ADD, SWAP or CAS on a bead: the new bead and the old value (R376). -/
def atomicField (sub : Nat) (b bead : List Byte) : List Byte × Nat :=
  let n := 2 ^ field b 1 1
  let off := field b 0 1
  let old := field bead off n
  let v := field b 8 n
  let new := if sub = 0 then old + v else if sub = 1 then v else if field b 16 n = old then v else old
  (overlay bead off (leBytes n new), old)

/-- An ATOMIC on a bead: the new bead and the completion's data (R281, R376). -/
def atomicBead (sub : Nat) (operand bead : List Byte) : List Byte × List Byte :=
  if sub = 3 then (exactAdd operand bead, [])
  else let (b, old) := atomicField sub operand bead; (b, leBytes 8 old)

end Sys2Proof.Machine
end

