-- ==== Sys2Proof/Machine/Bead.lean ====
section
/-!
DEFINITION. The bead code (R141–R146), where a bead lies in its controller (R122–R124), the counts of memory errors (R149,
R166) and what an unreadable bead of a coherent extent or of the reserved region means (R374).
-/

namespace Sys2Proof.Machine

/-! ### GF(2¹⁶) and the decoder (R142, R144) -/

/-- A product of GF(2¹⁶), field polynomial x¹⁶ + x¹² + x³ + x + 1, over the low `n` bits of `b`. -/
def gfMul : (n : Nat) → (a b : Nat) → Nat
  | 0, _, _ => 0
  | n + 1, a, b =>
    let a2 := if 32768 ≤ a then (2 * a).xor 0x1100B else 2 * a
    (if b % 2 = 1 then a else 0).xor (gfMul n a2 (b / 2))

/-- α^n. -/
def gfPow : Nat → Nat
  | 0 => 1
  | n + 1 => let a := gfPow n; if 32768 ≤ a then (2 * a).xor 0x1100B else 2 * a

/-- The power of α that stands for a symbol: s0 is the codeword's leading coefficient (assumption 32). -/
def symPower (i : Nat) : Nat := 35 - i

/-- Syndrome `k` of a list of (symbol, difference) pairs. -/
def syndrome (errs : List (Nat × Nat)) (k : Nat) : Nat :=
  errs.foldl (fun a e => a.xor (gfMul 16 e.2 (gfPow (k * symPower e.1)))) 0

/-- Outcome of the decoder with the differences left in what it delivers. -/
inductive Decoded where
  | clean (left : List (Nat × Nat))
  | corrected (left : List (Nat × Nat))
  | uncorrectable (left : List (Nat × Nat))
deriving DecidableEq, Repr

/-- The differences of one bead, one pair a symbol. -/
def mergeErrs (a b : List (Nat × Nat)) : List (Nat × Nat) :=
  ((a ++ b).foldl (fun t e => tblPut t e.1 ((tblGet t e.1 0).xor e.2)) ([] : Tbl Nat)).filter fun e => e.2 != 0

/-- The decoder of R144. -/
def decodeBead (errs : List (Nat × Nat)) : Decoded :=
  let e := mergeErrs errs []
  let s0 := syndrome e 0
  let s1 := syndrome e 1
  let s2 := syndrome e 2
  if s0 = 0 ∧ s1 = 0 ∧ s2 = 0 then .clean e
  else match (List.range 36).find? fun i =>
      s0 != 0 && gfMul 16 s0 (gfPow (symPower i)) == s1 && gfMul 16 s0 (gfPow (2 * symPower i)) == s2 with
    | some i => .corrected (mergeErrs e [(i, s0)])
    | none => .uncorrectable e

/-- Bead data with differences laid over its symbols (R142). -/
def xorSymbols (data : List Byte) (left : List (Nat × Nat)) : List Byte :=
  left.foldl (fun d e => if e.1 < 32 then overlay d (2 * e.1) (leBytes 2 ((field d (2 * e.1) 2).xor e.2)) else d) data

/-- The metadata symbol M (Table 7.2); its bits [15:5] are written 0. -/
def Meta.word (m : Meta) : Nat := b2n m.poison + m.dirState % 4 * 2 + b2n m.dirExt * 8 + b2n m.logged * 16

/-- The fields that a word M gives. -/
def Meta.ofWord (m : Meta) (w : Nat) : Meta := { m with poison := bit w 0, dirState := bits w 2 1, dirExt := bit w 3, logged := bit w 4 }

/-- Metadata with differences laid over symbol s32. -/
def Meta.withLeft (m : Meta) (left : List (Nat × Nat)) : Meta :=
  let l := left.filter fun e => e.1 == 32
  if l.isEmpty then m else m.ofWord (l.foldl (fun w e => w.xor e.2) m.word)

/-- One symbol taken into the division by the generator (x + 1)(x + α)(x + α²) = x³ + 7x² + 14x + 8. -/
def checkStep (r : Nat × Nat × Nat) (sym : Nat) : Nat × Nat × Nat :=
  let f := sym.xor r.1
  (r.2.1.xor (gfMul 16 f 7), r.2.2.xor (gfMul 16 f 14), gfMul 16 f 8)

/-- The check symbols C0, C1 and C2 of 64 bytes of data and a word M (R142, Table 7.1). -/
def checkSymbols (data : List Byte) (m : Nat) : List Nat :=
  let r := (((List.range 32).map fun i => field data (2 * i) 2) ++ [m]).foldl checkStep (0, 0, 0)
  [r.1, r.2.1, r.2.2]

/-- A bead as its DRAM stores it: the 36 symbols of its codeword with the errors they hold (R142). -/
def State.codeword (s : State) (bead : Nat) : List Nat :=
  let d := s.readMem (bead * 64) 64
  let m := s.metaOf bead
  let l := ((List.range 32).map fun i => field d (2 * i) 2) ++ [m.word] ++ checkSymbols d m.word
  m.errs.foldl (fun l e => l.set e.1 ((l.getD e.1 0).xor e.2)) l

/-- The 8 metadata bytes of a bead (Table 7.1). -/
def State.metaBytes (s : State) (bead : Nat) : List Byte := ((s.codeword bead).drop 32).flatMap (leBytes 2)

/-! ### Where a symbol lies (Table 7.3) -/

/-- The symbols of a bead that a failed far-tier DQ pin corrupts: the two data symbols it carries and the metadata symbol whose
four pins include it (R143). -/
def pinSymbols (pin : Nat) : List Nat := [pin, pin + 16, 32 + pin / 4]

/-- The pin, or the first of the four pins, of a far-tier symbol, and the first beat of the data burst it takes. -/
def symbolPin (i : Nat) : Nat := if i < 32 then i % 16 else 4 * (i - 32)
def symbolBeat (i : Nat) : Nat := if i < 32 then 16 * (i / 16) else 0

/-- The symbol that a failed near-tier DQ lane corrupts. -/
def laneSymbol (lane : Nat) : Nat := lane

/-! ### Where a bead lies (Tables 6.2, 6.3) -/

/-- Offset of a physical address in its controller's window. -/
def ctlOffset (pa : Nat) : Nat := pa - windowBase ((windowOf pa).getD 0)

/-- Unit, bank and row of an offset in controller `c`. -/
def unitIn (c o : Nat) : Nat :=
  if c < 4 then (bits o 12 8).xor (bits o 25 21) else (bits o 11 8).xor (bits (bits o 37 19) 7 4)
def bankIn (c o : Nat) : Nat :=
  if c < 4 then (bits o 20 15).xor (bits o 26 21) else (bits o 18 15).xor (bits (bits o 37 19) 3 0)
def rowIn (c o : Nat) : Nat := if c < 4 then bits o 35 21 else let d := bits o 37 19; 9 * (d / 8) + d % 8

/-- Column of an offset in controller `c`: beads of an open row. -/
def colIn (c o : Nat) : Nat := bits o 7 6 + 4 * (if c < 4 then bits o 14 13 else bits o 14 12)

/-- Bank, DRAM row and byte in that row of the metadata of a far-tier bead, in its own channel (R123). -/
def metaBank (o : Nat) : Nat := (bankIn 4 o + 8) % 16
def metaRow (o : Nat) : Nat := 9 * (bits o 37 19 / 8) + 8
def metaByte (o : Nat) : Nat := 256 * (bits o 37 19 % 8) + 8 * colIn 4 o

/-- The metadata bead of a far-tier bead, numbered by data row, bank, channel and eight columns (R123). -/
def metaBead (o : Nat) : Nat := o / 0x80000 * 0x80000 + bits o 18 15 * 0x8000 + bits o 14 12 / 2 * 0x2000 + bits o 11 8 * 0x100

/-- Units of a controller, banks of a unit, channel of a unit (Table 6.1). -/
def unitCount (c : Nat) : Nat := if c < 4 then 32 else 16
def bankCount (c : Nat) : Nat := if c < 4 then 64 else 16
def channelOf (c u : Nat) : Nat := if c < 4 then u / 2 else u

/-- DRAM rows of a far group's bank: 256 GB over 16 channels, 16 banks and rows of 2 KiB (assumption 33). -/
def farRows : Nat := 488281

/-- A physical address names a bead of a far group's reserved region (R124, R166). -/
def inReserved (pa : Nat) : Bool :=
  match windowOf pa with
  | none => false
  | some w => 4 ≤ w && (let o := pa - windowBase w; decide (108480 * 0x200000 ≤ o) && rowIn w o < farRows)

/-! ### Units and controllers -/

/-- A unit of a controller. -/
def State.unitAt (s : State) (c u : Nat) : Unit := tblGet (s.ctlAt c).units u {}

/-- A unit set. -/
def State.setUnit (s : State) (c u : Nat) (v : Unit) : State :=
  let k := s.ctlAt c
  s.setCtl c { k with units := tblPut k.units u v }

/-- An event of a controller counted. -/
def State.tallyCtl (s : State) (c event qual : Nat) (ctx : Option Nat := none) : State :=
  s.tally (ctlPage c).1 (ctlPage c).2 event qual 1 ctx

/-- A PAGE_EVENT bit of a controller. -/
def State.raiseCtl (s : State) (c b : Nat) : State := s.raise (ctlPage c).1 (ctlPage c).2 b

/-- A tracking step starts on a channel at once, or as soon as the controller is ACTIVE and no other run is under way (R136, R143);
never in FAILED. -/
def State.startTracking (s : State) (c ch : Nat) : State :=
  let v := s.ctlAt c
  if v.st = .active ∧ v.tracking = none then s.setCtl c { v with tracking := some ch, run := 1 }
  else if v.st = .failed ∨ v.trackDue.contains ch then s
  else s.setCtl c { v with trackDue := v.trackDue ++ [ch] }

/-- The next tracking step that waits starts. -/
def State.nextTracking (s : State) (c : Nat) : State :=
  let v := s.ctlAt c
  match v.trackDue with
  | [] => s
  | ch :: t => if v.st = .active ∧ v.tracking = none then s.setCtl c { v with tracking := some ch, run := 1, trackDue := t } else s

/-! ### Errors counted (R145, R146, R149) -/

/-- CE_ROW_THRESH. -/
def State.ceThresh (s : State) : Nat := s.actBits .ecc 0 0x040 15 8

/-- A correctable error of a row: the 64 most recent rows are kept; at the threshold MEM_CE_ROW is posted and the row's
count restarts (R149). -/
def State.rowError (s : State) (c u bank row : Nat) : State :=
  let v := s.ctlAt c
  let n := ((v.ceRows.find? fun r => r.1 == u && r.2.1 == bank && r.2.2.1 == row).map fun r => r.2.2.2).getD 0 + 1
  let rest := v.ceRows.filter fun r => !(r.1 == u && r.2.1 == bank && r.2.2.1 == row)
  let hit := s.ceThresh ≤ n
  let s := s.setCtl c { v with ceRows := ((u, bank, row, if hit then 0 else n) :: rest).take 64 }
  if hit then
    let r : Record := { typ := 0x0021, cls := 2, source := 0x4000 + c, detail := detail [(0, leBytes 2 c), (2, leBytes 2 u),
                        (4, leBytes 2 bank), (8, leBytes 4 row)] }
    (s.postMgr r).raise .ecc 0 1
  else s

/-- A correctable error counted (R145, R149). -/
def State.countCe (s : State) (c pa : Nat) : State :=
  let o := ctlOffset pa
  let s := s.bump 0x8080C
  let s := { s with ecc := { s.ecc with ctlCe := tblPut s.ecc.ctlCe c (stick32 (tblGet s.ecc.ctlCe c 0 + 1)) } }
  s.rowError c (unitIn c o) (bankIn c o) (rowIn c o)

/-- A MEM_UE record (Table 7.5): to the manager ring with the PA, to the owner's ring without. -/
def State.postUe (s : State) (c pa : Nat) : State :=
  let e := s.extentAt (pa / 64 * 64) 64
  let r : Record := { typ := 0x0020, cls := 1, source := 0x4000 + c, detail := detail [(0, leBytes 2 c)]
                      ext := (e.map fun x => x.1).getD 0xFFFF, gen := (e.map fun x => x.2.gen).getD 0 }
  let s := s.postMgr { r with detail := overlay r.detail 8 (leBytes 8 (pa / 64 * 64)) }
  match e with
  | some (_, x) => if x.kind = 0 then s.postCtx x.owner r else s
  | none => s

/-- An uncorrectable error counted and reported (R146). -/
def State.countUe (s : State) (c pa : Nat) : State :=
  let s := s.bump 0x80810
  let s := { s with ecc := { s.ecc with ctlUe := tblPut s.ecc.ctlUe c (stick32 (tblGet s.ecc.ctlUe c 0 + 1)) } }
  (s.postUe c pa).raise .ecc 0 0

/-- A far group that finds an uncorrectable bead runs the tracking step of its channel (R143). -/
def State.trackUe (s : State) (c pa : Nat) : State :=
  if 4 ≤ c then s.startTracking c (channelOf c (unitIn c (ctlOffset pa))) else s

/-! ### Directory lines (R368, R371–R374) -/

/-- Home slice of a physical address. -/
def homeOf (pa : Nat) : Nat := sliceOf ((windowOf pa).getD 0)

/-- A slice. -/
def State.slice (s : State) (d : Nat) : Slice := tblGet s.dir d {}

/-- A slice set. -/
def State.setSlice (s : State) (d : Nat) (v : Slice) : State := { s with dir := tblPut s.dir d v }

/-- A line of a slice, by bead number. -/
def State.line (s : State) (d bead : Nat) : Line := tblGet (s.slice d).lines bead {}

/-- The coherence fields of a line in its bead's metadata (Table 16.2). -/
def Line.meta (l : Line) (m : Meta) : Meta :=
  { m with dirState := l.st, dirExt := l.st == 1 && l.sharers.isSome, logged := l.st == 2 && l.owner.isSome }

/-- The coherence fields of a line written into its bead's metadata. -/
def State.writeFields (s : State) (d bead : Nat) : State := s.setMeta bead ((s.line d bead).meta (s.metaOf bead))

/-- A line set; one in I that nothing waits for is not listed. The directory cache holds its state while it covers the line, else the
bead's metadata take it (R371). -/
def State.setLine (s : State) (d bead : Nat) (l : Line) : State :=
  let v := s.slice d
  let plain := l.st = 0 ∧ l.waiting = [] ∧ l.trans = .idle
  let s := s.setSlice d { v with lines := if plain then tblDel v.lines bead else tblPut v.lines bead l }
  if v.cache.contains bead then s else s.setMeta bead (l.meta (s.metaOf bead))

/-- The state of an unreadable line rebuilt from the slice's own structures (R374): a logged owner, else recorded sharers, else
S with none recorded. -/
def State.rebuildLine (s : State) (pa : Nat) : State :=
  match s.extentAt (pa / 64 * 64) 64 with
  | some (_, e) =>
    if e.coh then
      let d := homeOf pa
      let l := s.line d (pa / 64)
      let known := (l.st == 2 && l.owner.isSome) || (l.st == 1 && l.sharers.isSome)
      (s.setLine d (pa / 64) (if known then l else { l with st := 1, sharers := none, owner := none })).writeFields d (pa / 64)
    else s
  | none => s

/-- The coherence fields read with a coherent bead that the directory cache does not cover, where an undetected error changed them
(R144): the home takes the line to be in the state they name, an unknown state as an unreadable line's. -/
def State.lineRead (s : State) (pa : Nat) (was now : Meta) : State :=
  if was.dirState = now.dirState ∧ was.dirExt = now.dirExt ∧ was.logged = now.logged then s
  else match s.extentAt (pa / 64 * 64) 64 with
    | some (_, e) =>
      if !e.coh || (s.slice (homeOf pa)).cache.contains (pa / 64) then s
      else if now.dirState = 3 then s.rebuildLine pa
      else
        let d := homeOf pa
        let l := s.line d (pa / 64)
        s.setLine d (pa / 64) { l with st := now.dirState, sharers := if now.dirExt then l.sharers else none
                                       owner := if now.logged then l.owner else none }
    | none => s

/-- Set of a bead in the store and in the log (R369): PA[23:6] XOR PA[41:24]. -/
def dirSet (pa : Nat) : Nat := (bits pa 23 6).xor (bits pa 41 24)

/-- A store or log bead read poisoned is rewritten empty (R374): the store is taken to fill the first 32 MiB of the reserved
region and the log the next 16 MiB (assumption 35). -/
def State.structureLost (s : State) (pa : Nat) : State :=
  match windowOf pa with
  | none => s
  | some w =>
    let o := pa - windowBase w - 108480 * 0x200000
    let d := w - 4
    let v := s.slice d
    let log := 0x2000000 ≤ o
    let set := if log then (o - 0x2000000) / 64 else o / 128
    if 0x3000000 ≤ o then s
    else
      let lose (b : Nat) (l : Line) : Line :=
        if dirSet (b * 64) ≠ set then l else if log then { l with owner := if l.st = 2 then none else l.owner }
        else { l with sharers := if l.st = 1 then none else l.sharers }
      let s := s.setSlice d { v with lines := tblMap v.lines lose }
      let r : Record := { typ := 0x0093, cls := 1, source := 0x4000 + d,
                          detail := detail [(0, leBytes 2 d), (2, [byte (b2n log)]), (8, leBytes 8 (pa / 64 * 64))] }
      (((s.writeBead pa [] false).postMgr r).bump (pageBase .dir d + 0x830)).raise .dir d 1

/-! ### Reading a bead out of DRAM -/

/-- What a read of DRAM gives. -/
inductive ReadOut where
  /-- The bead and its poison mark. -/
  | data (b : List Byte) (poison : Bool)
  /-- Uncorrectable, on a protected extent: to be repaired from its partners (R162). -/
  | repair
deriving DecidableEq, Repr

/-- Whether a protection policy covers an address (R146). -/
def State.protectedAt (s : State) (pa : Nat) : Option Nat :=
  match s.extentAt (pa / 64 * 64) 64 with
  | some (i, e) => if e.prot ≠ 0 ∧ (e.st = .active ∨ e.st = .draining) then some i else none
  | none => none

/-- One bead read out of DRAM and decoded, with the errors of this read beside those stored: a corrected codeword is written back
(R145), an uncorrectable bead is written back poisoned (R146), and each is counted. On a protected extent it is repaired instead
(R146, R162). -/
def State.readOut (s : State) (pa : Nat) (errs : List (Nat × Nat)) : State × ReadOut :=
  let c := (windowOf pa).getD 0
  let bead := pa / 64
  let m := s.metaOf bead
  let raw := s.readMem (bead * 64) 64
  match decodeBead (mergeErrs m.errs errs) with
  | .clean left =>
    let n := m.withLeft left
    (s.lineRead pa m n, .data (xorSymbols raw left) n.poison)
  | .corrected left =>
    let d := xorSymbols raw left
    let n := m.withLeft left
    let s := (((s.setMeta bead n).writeBead pa d n.poison).countCe c pa).lineRead pa m n
    ((s.tallyCtl c 0x13 0).tallyCtl c 0x18 3, .data d n.poison)
  | .uncorrectable left =>
    if (s.protectedAt pa).isSome then (s.trackUe c pa, .repair)
    else
      let d := xorSymbols raw left
      let s := ((s.writeBead pa d true).countUe c pa).trackUe c pa
      let s := (s.tallyCtl c 0x13 0).tallyCtl c 0x18 3
      let s := if inReserved pa then s.structureLost pa else s.rebuildLine pa
      (s, .data d true)

end Sys2Proof.Machine
end

