-- ==== Sys2Proof/Machine/Sched.lean ====
section
/-!
DEFINITION. What reaches a memory controller and in which order it is served (06_tiers.md): the queues of a unit and the beam
before them (R128–R131), the metadata cache (R123, R125), the request rate of the throttle (R132), and what one of the module's
own units' accesses needs of a controller before it is made.
-/

namespace Sys2Proof.Machine

/-! ### What an operation does to a bead (R147) -/

/-- A merge under a byte mask (R125). -/
def maskMerge (mask : Nat) (new old : List Byte) : List Byte :=
  (List.range 64).map fun i => if bit mask i then new.getD i 0 else old.getD i 0

/-- XOR of two byte strings of 64. -/
def xorBytes (a b : List Byte) : List Byte := (List.range 64).map fun i => (a.getD i 0) ^^^ (b.getD i 0)

/-- The new bead, its POISON mark, and what the completion carries, from the old bead and mark. -/
def BeadOp.apply (op : BeadOp) (old : List Byte) (bad : Bool) : List Byte × Bool × List Byte :=
  match op with
  | .read => (old, bad, old)
  | .write d p => (d, p, [])
  | .part m d p => (maskMerge m d old, p || (bad && m % 2 ^ 64 != 2 ^ 64 - 1), [])
  | .atomic sub x p => let (d, r) := atomicBead sub x old; (d, bad || p, r)
  | .delta d p => (xorBytes old d, bad || p, [])

/-- An operation that changes its bead. -/
def BeadOp.writes : BeadOp → Bool
  | .read => false
  | _ => true

/-! ### A unit's queues (R128, R129, R131) -/

/-- A unit's requests, in the windows the scheduler sees: both queues. -/
def Unit.seen (v : Unit) : List MemReq := v.reads ++ v.writes

/-- The newest older request to the same bead still queued, or on the beam. -/
def Unit.before (v : Unit) (r : MemReq) : Option MemReq :=
  ((v.seen ++ v.beam).filter fun x => x.pa == r.pa && decide (x.seq < r.seq)).foldl
    (fun m x => match m with | none => some x | some y => if y.seq < x.seq then some x else some y) none

/-- A request to the bead waits at the unit, on the beam before it or in DRAM. -/
def Unit.busy (v : Unit) (pa : Nat) : Bool := (v.seen ++ v.beam ++ v.dram).any fun r => r.pa == pa / 64 * 64

/-- A unit without a request, whose place the beam fills. -/
def Unit.without (v : Unit) (r : MemReq) (now : Nat) : Unit :=
  { v with reads := v.reads.filter fun x => x.seq != r.seq, writes := v.writes.filter fun x => x.seq != r.seq }.fromBeam now

/-- A unit holds no request, and none waits for it on the beam. -/
def Unit.empty (v : Unit) : Bool := v.seen.isEmpty && v.beam.isEmpty && v.dram.isEmpty

/-- A controller holds no request. -/
def Ctl.empty (v : Ctl) : Bool := v.units.all fun u => u.2.empty

/-- SR_FORCE of a controller (Table 6.12). -/
def State.srForced (s : State) (c : Nat) : Bool := wbit (s.reg (pageBase (ctlPage c).1 (ctlPage c).2 + 0x800)) 0

/-- A request arrives in ENTERING, which then exits once the entry is complete, or in SELF_REFRESH, which it ends unless
SR_FORCE holds it (R134, R135). -/
def State.wakeCtl (s : State) (c : Nat) : State :=
  let k := s.ctlAt c
  if k.st = .selfRefresh ∧ s.srForced c = false then s.setCtl c { k with st := .exiting, since := s.time }
  else if k.st = .selfRefresh ∨ k.st = .entering then s.setCtl c { k with wake := true }
  else s

/-- A request reaches its unit (R131): the queue of its kind, or while that is full the beam before it. It wakes its controller
(R134). -/
def State.toCtl (s : State) (pa : Nat) (op : BeadOp) (cls : Nat) (origin : Origin) : State :=
  match windowOf pa with
  | none => s
  | some c =>
    let u := unitIn c (ctlOffset pa)
    let v := s.unitAt c u
    let r : MemReq := { pa := pa / 64 * 64, op := op, cls := cls, at_ := s.time, seq := v.nextSeq, origin := origin }
    (s.setUnit c u ({ v with nextSeq := v.nextSeq + 1, beam := v.beam ++ [r] }.fromBeam s.time)).wakeCtl c

/-- A controller in FAILED (R137). -/
def State.ctlFailed (s : State) (pa : Nat) : Bool := (s.ctlAt ((windowOf pa).getD 0)).st == .failed

/-- A channel takes no request: its controller does not serve, or the channel is in RETRAIN or in its tracking step. -/
def State.outOfService (s : State) (c ch : Nat) : Bool :=
  let v := s.ctlAt c
  !(v.st == .active || v.st == .retrain) || (v.st == .retrain && v.retrainCh == ch) || v.tracking == some ch

/-! ### Rows and metadata (R123, R125, R127) -/

/-- A row of a bank is accessed and left open: a row hit or miss counted. -/
def State.touchRow (s : State) (c u bank row : Nat) (ctx : Option Nat) : State :=
  let v := s.unitAt c u
  let s := s.tallyCtl c (if tblGet? v.row bank = some row then 0x10 else 0x11) 0 ctx
  s.setUnit c u { v with row := tblPut v.row bank row }

/-- The metadata bead that covers the bead at offset `m` read from DRAM, or written back to it (R123). -/
def State.metaAccess (s : State) (c m : Nat) (write : Bool) (ctx : Option Nat) : State :=
  (s.touchRow c (unitIn c m) (metaBank m) (metaRow m) ctx).tallyCtl c (if write then 0x13 else 0x12) 0 ctx

/-- The set of the metadata cache that a metadata bead falls in: 512 sets of 8 ways (R125, assumption 37). -/
def metaSet (m : Nat) : Nat := (m / 0x2000 * 16 + bits m 11 8) % 512

/-- The metadata bead of a request used, most recent first: of a full set the least recently used leaves. The flag says that it
was dirty. -/
def Ctl.useMeta (k : Ctl) (m : Nat) (dirty : Bool) : Ctl × Option (Nat × Bool) :=
  let was := (k.mdc.find? fun x => x.1 == m).any (·.2)
  let rest := k.mdc.filter fun x => x.1 != m
  let way := rest.filter fun x => metaSet x.1 == metaSet m
  let out := if way.length < 8 then none else way.getLast?
  ({ k with mdc := (m, was || dirty) :: (match out with | some x => rest.erase x | none => rest) }, out)

/-- A metadata bead used by a request; one that a full set gives up is written back when dirty (R125). -/
def State.useMeta (s : State) (c m : Nat) (dirty : Bool) (ctx : Option Nat) : State :=
  let (k, out) := (s.ctlAt c).useMeta m dirty
  let s := s.setCtl c k
  match out with
  | some (x, true) => s.metaAccess c x true ctx
  | _ => s

/-- The metadata of a far-tier data bead is cached (R125); near-tier metadata comes with the data. -/
def State.metaHit (s : State) (c o : Nat) : Bool := decide (c < 4) || (s.ctlAt c).mdc.any fun x => x.1 == metaBead o

/-- A metadata bead read into the cache for a data bead that waits for it: an SC0 request (R125, R126). -/
def State.fetchMeta (s : State) (c o : Nat) (ctx : Option Nat) : State :=
  (((s.tallyCtl c 0x14 0 ctx).metaAccess c (metaBead o) false ctx).tallyCtl c 0x18 0 ctx).useMeta c (metaBead o) false ctx

/-- A data bead accessed, its metadata being cached: its row and its service class counted (R127, R126). -/
def State.touchBead (s : State) (c pa cls : Nat) (write : Bool) (ctx : Option Nat) : State :=
  let o := ctlOffset pa
  let s := if 4 ≤ c then s.useMeta c (metaBead o) write ctx else s
  (s.touchRow c (unitIn c o) (bankIn c o) (rowIn c o) ctx).tallyCtl c 0x18 cls ctx

/-! ### The request rate of the throttle (R132) -/

/-- Command slots out of four in which a request from outside may be issued (Table 1.11). -/
def State.memRate (s : State) : Nat := if s.pwr.stepForce = 3 then 2 else if s.pwr.stepForce = 2 then 3 else 4

/-- A command slot of a unit passes: at T2 and T3 it gives the unit its share of a request, at most one being saved up. -/
def State.slotCredit (s : State) (c u : Nat) : State :=
  let v := s.unitAt c u
  s.setUnit c u { v with credit := if s.memRate = 4 then 0 else min 4 (v.credit + s.memRate) }

/-- A request made by the controller itself, which the rate does not hold: patrol scrub and the write-backs of R145 and R146. -/
def MemReq.own (r : MemReq) : Bool := r.origin == .scrub || r.origin == .writeback

/-- The rate lets a unit issue a request from outside. -/
def State.mayIssue (s : State) (c u : Nat) : Bool := s.memRate == 4 || 4 ≤ (s.unitAt c u).credit

/-- A request from outside issued, by the rate. -/
def State.spendCredit (s : State) (c u : Nat) : State :=
  let v := s.unitAt c u
  s.setUnit c u { v with credit := v.credit - 4 }

/-! ### Accesses of the module's own units (R126, R128, R132, R134, R135) -/

/-- Whether a bead is being gathered from its partners: nothing else is done to it meanwhile (R160, R162). -/
def State.gathered (s : State) (pa : Nat) : Bool :=
  s.ecc.gathers.any fun g => (match g.want with | .repair _ _ | .inner _ _ => true | _ => false) &&
    (s.extent g.ext).base + g.off == pa / 64 * 64

/-- An access of one of the module's own units reaches its controller when nothing stands before it, and is issued at once
(assumption 156): the controller serves its channel, no older request to the bead waits, and the throttle's rate allows it. The
flag says that it may be made; a controller in self-refresh is woken. -/
def State.unitGo (s : State) (pa cls : Nat) (write : Bool) : State × Bool :=
  match windowOf pa with
  | none => (s, true)
  | some c =>
    let u := unitIn c (ctlOffset pa)
    let st := (s.ctlAt c).st
    if st = .failed then (s, true)
    else if st = .entering ∨ st = .selfRefresh then (s.wakeCtl c, false)
    else if s.outOfService c (channelOf c u) ∨ (s.unitAt c u).busy pa = true ∨ s.gathered pa = true ∨ s.mayIssue c u = false then
      (s, false)
    else
      let s := if s.memRate = 4 then s else s.spendCredit c u
      let s := if s.metaHit c (ctlOffset pa) then s else s.fetchMeta c (ctlOffset pa) none
      let s := (s.touchBead c pa cls write none).tallyCtl c (if write then 0x13 else 0x12) 0
      (s.setCtl c { s.ctlAt c with idleSince := s.time }, true)

/-- A bead that its home writes for no request: at once when nothing stands before it at its controller, else behind what waits
there (R128, R134, R135); not at all at a FAILED controller (R137). -/
def State.homeStore (s : State) (pa : Nat) (data : List Byte) (poison : Bool) : State :=
  if s.ctlFailed pa then s
  else match s.unitGo pa 2 true with
    | (s, true) => s.writeBead pa data poison
    | (s, false) => s.toCtl pa (.write data poison) 2 .store

/-- A bead poisoned at its home, its data as it is. -/
def State.homePoison (s : State) (pa : Nat) : State :=
  if s.ctlFailed pa then s
  else match s.unitGo pa 2 true with
    | (s, true) => (match s.readOut pa [] with
      | (s, .data d _) => s.writeBead pa d true
      | (s, .repair) => s.writeBead pa (s.readMem (pa / 64 * 64) 64) true)
    | (s, false) => s.toCtl pa (.part 0 (zeroBytes 64) true) 2 .store

/-- A list of requests with one more, in order of arrival. -/
def seqIns (r : MemReq) : List MemReq → List MemReq
  | [] => [r]
  | x :: t => if r.seq < x.seq then r :: x :: t else x :: seqIns r t

/-- A bead of the manager's own memory as its firmware reads it: behind what waits for it at its controller (R128); poisoned at a
FAILED controller (R137). -/
def State.beadNow (s : State) (pa : Nat) : List Byte × Bool :=
  let at_ := pa / 64 * 64
  if s.ctlFailed pa then (zeroBytes 64, true)
  else
    let v := match windowOf pa with | some c => s.unitAt c (unitIn c (ctlOffset pa)) | none => {}
    let l := ((v.dram ++ v.seen ++ v.beam).filter fun r => r.pa == at_).foldl (fun l r => seqIns r l) []
    l.foldl (fun (b : List Byte × Bool) r => let (d, p, _) := r.op.apply b.1 b.2; (d, p)) (s.readMem at_ 64, (s.metaOf (at_ / 64)).poison)

/-- Beads of the manager's own memory, from a bead's address on. -/
def State.beadsNow (s : State) (pa n : Nat) : List Byte := (List.range n).flatMap fun i => (s.beadNow (pa + 64 * i)).1

end Sys2Proof.Machine
end

