-- ==== Sys2Proof/Machine/Partner.lean ====
section
/-!
DEFINITION. Requests on their way to a controller, and protection across modules (R156–R165): the stripe descriptor, writes
held for their forward, and the gathering of a bead from its partners.
-/

namespace Sys2Proof.Machine

/-! ### A request's operations -/

/-- The operation of bead `idx` of a request. -/
def beadOp (p : Packet) (idx : Nat) : BeadOp :=
  if p.typ = tWrite ∨ p.typ = tWriteback then .write ((p.body.drop (64 * idx)).take 64) p.poison
  else if p.typ = tWritePartial then .part (field p.body 0 8) ((p.body.drop 8).take 64) p.poison
  else if p.typ = tAtomic then .atomic (p.qual % 4) p.body p.poison
  else .read

/-- Service class of a request of a slot (Table 6.4). -/
def demandClass (op : BeadOp) (yellow : Bool) : Nat :=
  match op with
  | .read | .atomic _ _ _ => if yellow then 2 else 1
  | _ => 2

/-- Physical address of bead `idx` of a slot's request. -/
def InSlot.beadPa (v : InSlot) (idx : Nat) : Nat := v.pa + 64 * idx

/-! ### Stripes -/

/-- Protection record of an extent. -/
def State.prot? (s : State) (ext : Nat) : Option Prot := tblGet? s.ecc.prots ext

/-- A protection record set. -/
def State.setProt (s : State) (ext : Nat) (p : Prot) : State := { s with ecc := { s.ecc with prots := tblPut s.ecc.prots ext p } }

/-- Position `j` is lost. -/
def Prot.isLost (p : Prot) (j : Nat) : Bool := bit p.lost j

/-- This member forwards its writes (R159, R161): a data member whose position K is not lost. -/
def Prot.forwards (p : Prot) : Bool := p.pos != p.k && !p.isLost p.k

/-- The members of a descriptor (Table 7.6). -/
def descMembers (b : List Byte) (k : Nat) : List Member :=
  (List.range (k + 1)).map fun j =>
    let o := 16 + 8 * j
    { ep := field b o 2 % 4096, ext := field b (o + 2) 2 % 16384, gen := field b (o + 4) 2, ctx := field b (o + 6) 2 }

/-- VALID of member `j`. -/
def descValid (b : List Byte) (j : Nat) : Bool := bit (field b (16 + 8 * j) 2) 15

/-- A descriptor read at home memory; none unless it lies in an ACTIVE TABLE extent and reads without poison (R157), which behind
a FAILED controller it does not (R137). -/
def State.readDesc (s : State) (pa : Nat) : State × Option (List Byte) :=
  match s.extentAt pa 128 with
  | some (_, e) =>
    if e.st = .active ∧ e.kind = 1 ∧ pa % 128 = 0 ∧ s.ctlFailed pa = false then
      match s.readOut pa [] with
      | (s, .data a false) => (match s.readOut (pa + 64) [] with
        | (s, .data b false) => (s, some (a ++ b))
        | (s, _) => (s, none))
      | (s, _) => (s, none)
    else (s, none)
  | none => (s, none)

/-- The checks of R157 on a descriptor for the member at `pos` with these identities. -/
def descOk (b : List Byte) (prot pos ep ext gen ctx : Nat) : Bool :=
  let k := field b 0 1
  let ms := descMembers b k
  let m := ms.getD pos { ep := 0, ext := 0, gen := 0, ctx := 0 }
  (if prot = 1 then k == 1 else 2 ≤ k && k ≤ 8) && zeros b 1 15 && pos ≤ k &&
    (m.ep == ep && m.ext == ext && m.gen == gen && m.ctx == ctx) &&
    ((List.range (k + 1)).all fun j => descValid b j) && (ms.map (·.ep)).eraseDups.length == k + 1

/-- POS, FWD_KEYSEL, REBUILD and DESC_PA of PARTNERS (Table 7.7). -/
def partPos (p : Nat) : Nat := bits p 45 42
def partKey (p : Nat) : Nat := bits p 55 46
def partRebuild (p : Nat) : Bool := bit p 56
def partDesc (p : Nat) : Nat := bits p 41 0 * 64

/-- PROT_DEGRADED to the owner and the manager (Table 7.5). -/
def State.degrade (s : State) (ext j cause : Nat) : State :=
  match s.prot? ext with
  | none => s
  | some p =>
    if p.isLost j then s
    else
      let e := s.extent ext
      let p := { p with st := .degraded, lost := setBit p.lost j true, promoted := p.promoted || (p.k == 1 && j == 0 && p.pos == 1) }
      let r : Record := { typ := 0x0024, cls := 1, source := 0x4000, ctx := e.owner, ext := ext, gen := e.gen
                          detail := detail [(0, [byte j]), (1, [byte cause])] }
      ((((s.setProt ext p).post e.owner r).postMgr r)).raise .ecc 0 3

/-! ### Partner commands (Table 7.8; their bodies' byte layout is assumption 36) -/

/-- Body of a PROT_FWD of one bead after its opcode bytes. -/
def fwdBody (m : Member) (off : Nat) (data : List Byte) (poison : Bool) : List Byte :=
  leBytes 2 m.ext ++ leBytes 2 m.gen ++ [1, byte (b2n poison)] ++ zeroBytes 2 ++ leBytes 8 off ++ data

/-- Body of a MEMBER_READ of one bead. -/
def memberBody (m : Member) (off : Nat) : List Byte := leBytes 2 m.ext ++ leBytes 2 m.gen ++ [1] ++ zeroBytes 3 ++ leBytes 8 off

/-- Body of a RECON_READ of one bead in its member form. -/
def reconBody (m : Member) (off lost : Nat) : List Byte :=
  leBytes 2 m.ext ++ leBytes 2 m.gen ++ [1, byte lost, 1, 0] ++ leBytes 8 off

/-- Sends a partner command under the extent's FWD_KEYSEL (R158). -/
def State.sendPartner (s : State) (ext : Nat) (p : Prot) (m : Member) (op : Nat) (body : List Byte) : State × Issued :=
  s.issue (s.cmdPacket op m.ep m.ctx body) (.slot p.keysel) (.partner ext op) (some (s.extent ext).owner)

/-- The member at a position. -/
def Prot.member (p : Prot) (j : Nat) : Member := p.members.getD j { ep := 0, ext := 0, gen := 0, ctx := 0 }

/-! ### Held writes (R159) -/

/-- The held write of a bead. -/
def State.heldAt (s : State) (pa : Nat) : Option HeldWrite := s.ecc.held.find? fun h => h.pa == pa / 64 * 64

/-- A held write changed. -/
def State.setHeld (s : State) (h : HeldWrite) : State :=
  { s with ecc := { s.ecc with held := s.ecc.held.map fun x => if x.pa = h.pa then h else x } }

/-- The forward of a held write sent, or left to be sent again (R159). The flag says that the receiver can no longer be
asked: its key may not send. -/
def State.sendFwd (s : State) (h : HeldWrite) : State × Bool :=
  match s.prot? h.ext with
  | none => (s, true)
  | some p =>
    let m := p.member p.k
    let off := h.pa - (s.extent h.ext).base
    let (s, r) := s.sendPartner h.ext p m 0x90 (fwdBody m off h.fwd h.fwdPoison)
    match r with
    | .sent i => (s.setHeld { h with out := some i, lastSent := s.time }, false)
    | .noKey => (s.setHeld { h with out := none, lastSent := s.time }, true)
    | _ => (s.setHeld { h with out := none, lastSent := s.time }, false)

/-- The bytes forwarded for an old and a new bead (R159): the new bead for a mirror, the delta for parity. -/
def fwdOf (k : Nat) (old new : List Byte) : List Byte := if k = 1 then new else xorBytes old new

/-! ### Gathering (R160, R162, R164) -/

/-- The gather of a bead of an extent. -/
def State.gatherAt (s : State) (ext off : Nat) : Option Gather := s.ecc.gathers.find? fun g => g.ext == ext && g.off == off

/-- A gather changed. -/
def State.setGather (s : State) (g : Gather) : State :=
  { s with ecc := { s.ecc with gathers := s.ecc.gathers.map fun x =>
      if x.ext = g.ext ∧ x.off = g.off ∧ x.want = g.want then g else x } }

/-- Asks the next members of a gather. A member that is lost, or that cannot be asked, leaves the result poisoned. -/
def State.askMembers (s : State) (g : Gather) : (fuel : Nat) → State
  | 0 => s.setGather g
  | fuel + 1 =>
    match g.ask, s.prot? g.ext with
    | j :: t, some p =>
      let m := p.member j
      if p.isLost j then s.askMembers { g with ask := t, poison := true } fuel
      else
        let recon := g.want matches .repair _ _ | .inner _ _ | .rebuild
        let viaK := recon && p.pos != p.k && 2 ≤ p.k
        let (s, r) := if viaK then s.sendPartner g.ext p m 0x92 (reconBody m g.off g.pos)
          else s.sendPartner g.ext p m 0x91 (memberBody m g.off)
        match r with
        | .sent i => s.askMembers { g with ask := t, awaited := g.awaited ++ [i], read := g.read + 1 } fuel
        | .noSlot => s.setGather g
        | _ => s.askMembers { g with ask := t, poison := true } fuel
    | _, _ => s.setGather g

/-- Positions asked to reconstruct this member's own bead (R162, R164). -/
def Prot.sources (p : Prot) : List Nat :=
  if p.k = 1 then [1 - p.pos] else if p.pos = p.k then List.range p.k else [p.k]

/-- A gather started. -/
def State.startGather (s : State) (ext off pos : Nat) (want : GatherFor) (ask : List Nat) (acc : List Byte) (poison : Bool) :
    State :=
  let g : Gather := { ext := ext, off := off, pos := pos, want := want, ask := ask, acc := acc, poison := poison, startAt := s.time }
  let s := { s with ecc := { s.ecc with gathers := s.ecc.gathers ++ [g] } }
  s.askMembers g ask.length

/-- This member's own bead gathered from its partners. -/
def State.gatherOwn (s : State) (ext pa : Nat) (want : GatherFor) : State :=
  match s.prot? ext with
  | none => s
  | some p => s.startGather ext (pa / 64 * 64 - (s.extent ext).base) p.pos want p.sources (zeroBytes 64) false

/-! ### A bead's operation on its way (R159, R164) -/

/-- A replacement's bead that is not yet current (R164). -/
def Prot.missing (p : Prot) (off : Nat) : Bool := p.replacement && p.st == .rebuilding && p.next ≤ off && !p.current.contains off

/-- A request for a bead of a replacement waits until the bead is rebuilt. -/
def State.waitRebuild (s : State) (ext pa key idx : Nat) : State :=
  let off := pa / 64 * 64 - (s.extent ext).base
  match s.gatherAt ext off with
  | some g => s.setGather { g with waiters := g.waiters ++ [(key, idx)] }
  | none =>
    let s := s.gatherOwn ext pa .rebuild
    match s.gatherAt ext off with
    | some g => s.setGather { g with waiters := g.waiters ++ [(key, idx)] }
    | none => s

/-- A bead of a slot's request goes to memory: behind a held write of the bead, after its rebuild, held itself for its
forward, or straight to its controller. -/
def State.performBead (s : State) (key idx : Nat) : State :=
  match s.slot? key with
  | none => s
  | some v =>
    let pa := v.beadPa idx
    let op := beadOp v.pkt idx
    let straight := s.toCtl pa op (demandClass op v.yellow) (.slot key idx)
    match s.heldAt pa with
    | some h => s.setHeld { h with behind := h.behind ++ [(key, idx)] }
    | none =>
      match v.ext with
      | none => straight
      | some (ext, _) =>
        match s.prot? ext with
        | none => straight
        | some p =>
          if p.missing (pa - (s.extent ext).base) then s.waitRebuild ext pa key idx
          else if op.writes && p.forwards then
            let h : HeldWrite := { who := some (key, idx), ext := ext, pa := pa }
            let s := { s with ecc := { s.ecc with held := s.ecc.held ++ [h] } }
            s.toCtl pa .read 2 (.old key idx)
          else straight

end Sys2Proof.Machine
end

