-- ==== Sys2Proof/Machine/Home.lean ====
section
/-!
DEFINITION. The home of a coherent line (16_coherence.md): snoops, the actions of Table 16.5, the directory store and the owner
log, lines of dead owners, and how the module's own units read and write beads.
-/

namespace Sys2Proof.Machine

/-! ### Extents and targets -/

/-- The coherent extent a bead lies in (R368). -/
def State.cohAt (s : State) (pa : Nat) : Option (Nat × Extent) :=
  match s.extentAt (pa / 64 * 64) 64 with
  | some (i, e) => if e.coh then some (i, e) else none
  | none => none

/-- An endpoint is in a slice's dead list (R383). -/
def State.isDead (s : State) (d ep : Nat) : Bool := (s.slice d).dead.contains ep

/-- Endpoints to invalidate for a line in S (R377, R384): the recorded sharers, or the whole membership list, without `but`
and without dead endpoints; none while the extent has no VA base (R370). -/
def State.invTargets (s : State) (d : Nat) (e : Extent) (sharers : Option (List Nat)) (but : Option Nat) : List Nat :=
  if e.vaBase.isNone then []
  else
    let l := match sharers with | some p => p | none => (s.ctx e.owner).members
    l.filter fun t => some t != but && !s.isDead d t

/-- Snoop types by kind: 0 INV, 1 SHARE, 2 COPY. -/
def snoopType (kind : Nat) : Nat := if kind = 0 then tSnoopInv else if kind = 1 then tSnoopShare else tSnoopCopy

/-- How a snoop left. -/
inductive Snooped where
  | sent (out : Nat)
  /-- No outbound slot is free: to be sent once one is (R357). -/
  | later
  /-- No route: it completes LINK_DOWN, and is to be sent again (R334, R378). -/
  | down
  /-- It counts as answered without data: no VA base (R370). -/
  | answered
  /-- Its key may not send (R411): it completes KEY_RETIRED. -/
  | refused
deriving DecidableEq, Repr

/-- One snoop sent (R370): ADDR in the owner context, under the snoop key. -/
def State.snoop (s : State) (d bead kind target : Nat) (e : Extent) (retiring : Bool) : State × Snooped :=
  match e.vaBase, e.snoopKey with
  | some va, some k =>
    let p : Packet := { typ := snoopType kind, dst := target, form := (va + (bead * 64 - e.base)) % 2 ^ 64 }
    let (s, r) := s.issue p (.slot k) (.snoop d bead kind) (some e.owner) retiring
    match r with
    | .sent i => (s.tally .dir d 0x91 kind 1 (some e.owner), .sent i)
    | .noKey => (s, .refused)
    | .noRoute => (s, .down)
    | .noSlot => (s, .later)
  | _, _ => (s, .answered)

/-- Snoops to several targets: the targets still to answer, each with its outbound slot. Of a revoked extent a snoop that cannot leave
counts as answered (R378). -/
def State.snoopAll (s : State) (d bead : Nat) (e : Extent) (retiring : Bool) : List Nat → State × List (Nat × Option Nat)
  | [] => (s, [])
  | t :: ts =>
    let (s, r) := s.snoop d bead 0 t e retiring
    let (s, rest) := s.snoopAll d bead e retiring ts
    match r with
    | .sent i => (s, (t, some i) :: rest)
    | .later => (s, (t, none) :: rest)
    | .down => (s, if retiring then rest else (t, none) :: rest)
    | _ => (s, rest)

/-! ### Use stamps, the store and the log (R372, R373) -/

/-- The next stamp of a slice. -/
def State.stampOf (s : State) (d : Nat) : State × Nat :=
  let v := s.slice d
  (s.setSlice d { v with stamp := v.stamp + 1 }, v.stamp + 1)

/-- Lines of a slice whose record (`log` false) or log entry shares a bead's set. -/
def State.sameSet (s : State) (d bead : Nat) (log : Bool) : List (Nat × Line) :=
  (s.slice d).lines.filter fun l =>
    l.1 != bead && dirSet (l.1 * 64) == dirSet (bead * 64) &&
      (if log then l.2.st == 2 && l.2.owner.isSome else l.2.st == 1 && l.2.sharers.isSome)

/-! ### The directory cache (R371, Table 16.1) -/

/-- Set of a line in the directory cache: 16,384 sets of 16 ways (assumption 164). -/
def cacheSet (bead : Nat) : Nat := bead % 16384

/-- A metadata write of a line's coherence fields, by service class: with its bead in the near tier, through the metadata cache in the
far tier (R123, R125). -/
def State.fieldWrite (s : State) (d bead cls : Nat) : State :=
  let pa := bead * 64
  let s := s.writeFields d bead
  match windowOf pa with
  | none => s
  | some c =>
    let o := ctlOffset pa
    if c < 4 then (s.touchBead c pa cls true none).tallyCtl c 0x13 0
    else ((if s.metaHit c o then s else s.fetchMeta c o none).useMeta c (metaBead o) true none).tallyCtl c 0x18 cls

/-- The directory cache covers a line: of a full set the least recently used entry in no transient state leaves, its fields written
into its bead's metadata. -/
def State.coverLine (s : State) (d bead : Nat) : State :=
  let v := s.slice d
  let rest := v.cache.filter fun b => b != bead
  let way := rest.filter fun b => cacheSet b == cacheSet bead
  let idle := way.filter fun b => let l := s.line d b; l.trans == .idle && !l.serving
  match (if way.length < 16 then none else idle.getLast?) with
  | none => s.setSlice d { v with cache := bead :: rest }
  | some b => (s.setSlice d { v with cache := bead :: rest.erase b }).fieldWrite d b 2

/-- A request looked up by its type: the cache covers its line, and the line's record counts as used. -/
def State.lookup (s : State) (d bead typ : Nat) (ctx : Option Nat) : State :=
  let s := s.tally .dir d 0x90 (typ % 32 * 8 + (s.line d bead).st) 1 ctx
  let s := if (s.slice d).cache.contains bead then s.tally .dir d 0x94 0 else s
  let (s, t) := (s.coverLine d bead).stampOf d
  let l := s.line d bead
  if l.st = 1 ∧ l.sharers.isSome then s.setLine d bead { l with usedAt := t } else s

/-- Room for a store record: a full set loses the record of its least recently used line, whose DIR_EXT a metadata write of SC3
clears (R372). -/
def State.storeRoom (s : State) (d bead : Nat) : State :=
  let set := s.sameSet d bead false
  if set.length < 8 then s
  else match leastBy (·.2.usedAt) set with
    | none => s
    | some (b, l) =>
      let s := (s.setLine d b { l with sharers := none }).tally .dir d 0x93 0
      if (s.slice d).cache.contains b then s else s.fieldWrite d b 3

/-- A line goes to S with its first recorded sharer. -/
def State.openRecord (s : State) (d bead r : Nat) : State :=
  let (s, t) := (s.storeRoom d bead).stampOf d
  s.setLine d bead { s.line d bead with st := 1, sharers := some [r], owner := none, usedAt := t }

/-- A sharer added to a line (R372, R384): a first one opens a record, a fifth one frees it. -/
def State.addSharer (s : State) (d bead r : Nat) : State :=
  let l := s.line d bead
  let (s, t) := s.stampOf d
  if l.st = 0 then s.openRecord d bead r
  else match l.sharers with
    | none => s
    | some p =>
      let p := p.filter fun x => !s.isDead d x
      let p := if p.contains r then p else p ++ [r]
      s.setLine d bead { l with sharers := if 4 < p.length then none else some p, usedAt := t }

/-! ### Lost and reverted lines (R383) -/

/-- A line whose owner is gone: reverted to the memory copy or poisoned, its log entry removed, in I (R378, R383). `owner`
0xFFFF: unknown. -/
def State.recoverLine (s : State) (d bead owner : Nat) : State :=
  let l := s.line d bead
  let s := s.setLine d bead { l with st := 0, owner := none, sharers := none }
  match s.cohAt (bead * 64) with
  | none => s
  | some (i, e) =>
    let r : Record := { typ := if e.revertStale then 0x0091 else 0x0090, cls := if e.revertStale then 2 else 1
                        source := 0x4000 + d, va := (e.vaBase.getD 0) + (bead * 64 - e.base), ext := i, gen := e.gen
                        detail := detail [(0, leBytes 2 owner)] }
    let v := s.slice d
    let s := s.postCtx e.owner r
    if e.revertStale then (s.setSlice d { v with reverted := v.reverted + 1 }).bump (pageBase .dir d + 0x82C)
    else
      let s := s.homePoison (bead * 64)
      ((s.setSlice d { v with lost := v.lost + 1 }).bump (pageBase .dir d + 0x828)).raise .dir d 2

/-! ### The request being served -/

/-- A READ_SHARED, READ_OWN, READ_NOALLOC (or READ) or write. -/
inductive LineReq where
  | shared | own | noalloc | write
deriving DecidableEq, Repr

/-- What a packet asks of a line. -/
def lineReq (typ : Nat) : LineReq :=
  if typ = tReadShared then .shared else if typ = tReadOwn then .own
  else if typ = tRead ∨ typ = tReadNoalloc ∨ typ = tCmd then .noalloc else .write

/-- The first waiting request: who asks, what, and as which source. An inner request's index says 0 read, 1 write. -/
def State.headReq (s : State) (key idx : Nat) : LineReq × Option Nat :=
  if noKey ≤ key then (if idx = 0 then .noalloc else .write, none)
  else match s.slot? key with
    | some v => (lineReq v.pkt.typ, some v.src)
    | none => (.noalloc, none)

/-- The first request's memory work starts: a read of the line, or the write itself. The flag: nothing is to be done. -/
def State.performHead (s : State) (key idx : Nat) : State × Bool :=
  if noKey ≤ key then (s, true)
  else match s.slot? key with
    | none => (s, true)
    | some v =>
      if lineReq v.pkt.typ = .write then (s.performBead key idx, false)
      else
        let pa := v.beadPa idx
        match s.heldAt pa with
        | some h => (s.setHeld { h with behind := h.behind ++ [(key, idx)] }, false)
        | none =>
          let wait := match v.ext with
            | some (x, _) => (match s.prot? x with | some p => p.missing (pa - (s.extent x).base) | none => false)
            | none => false
          if wait then (s.waitRebuild (match v.ext with | some x => x.1 | none => 0) pa key idx, false)
          else (s.toCtl pa .read 1 (.home key idx), false)

/-- The first request of a line goes on with no copy left to recall (the I and S columns of Table 16.5). -/
def State.goOn (s : State) (d bead : Nat) : State × Bool :=
  match (s.line d bead).waiting with
  | [] => (s, true)
  | (key, idx) :: _ => s.performHead key idx

/-- A broadcast or an invalidation of recorded sharers starts (R377); with no target the line is I at once. -/
def State.invalidate (s : State) (d bead : Nat) (e : Extent) (but : Option Nat) : State × Bool :=
  let l := s.line d bead
  let ts := s.invTargets d e l.sharers but
  let s := if l.sharers.isNone && !ts.isEmpty then s.bump (pageBase .dir d + 0x81C) else s
  let (s, wait) := s.snoopAll d bead e false ts
  if wait.isEmpty then (s.setLine d bead { s.line d bead with st := 0, sharers := none }).goOn d bead
  else (s.setLine d bead { s.line d bead with trans := .si wait, retryAt := s.time }, false)

/-- The owner of a line is snooped (R377): a snoop that counts as answered leaves the memory copy current. -/
def State.snoopOwner (s : State) (d bead : Nat) (e : Extent) (kind owner : Nat) : State × Bool :=
  let (s, r) := s.snoop d bead kind owner e false
  let l := s.line d bead
  let mx (o : Option Nat) := s.setLine d bead { l with trans := .mx kind owner o, retryAt := s.time }
  match r with
  | .sent i => (mx (some i), false)
  | .later | .down => (mx none, false)
  | .answered =>
    if kind = 2 then s.goOn d bead
    else if kind = 1 then (s.openRecord d bead owner).goOn d bead
    else (s.setLine d bead { l with st := 0, owner := none, sharers := none }).goOn d bead
  | .refused => (s.recoverLine d bead owner).goOn d bead

/-- A line whose owner is unknown is broadcast for (R373), as R377 broadcasts: not to the requester. -/
def State.seekOwner (s : State) (d bead : Nat) (e : Extent) (but : Option Nat) : State × Bool :=
  let ts := s.invTargets d e none but
  let s := if ts.isEmpty then s else s.bump (pageBase .dir d + 0x81C)
  let (s, wait) := s.snoopAll d bead e false ts
  if wait.isEmpty then (s.recoverLine d bead 0xFFFF).goOn d bead
  else (s.setLine d bead { s.line d bead with trans := .lost wait none, retryAt := s.time }, false)

/-- The first waiting request of a line begins (Table 16.5). The flag: it has ended. -/
def State.startHead (s : State) (d bead key idx : Nat) (e : Extent) : State × Bool :=
  let (what, who) := s.headReq key idx
  let s := match s.slot? key with
    | some v => s.lookup d bead v.pkt.typ (some v.ctx)
    | none => s.coverLine d bead
  let l := s.line d bead
  if key = noKey then (s, true)
  else if who.any (s.isDead d) && (what = .shared || what = .own) then (s.complete key stRevoked, true)
  else if l.st = 2 then
    match l.owner with
    | none => s.seekOwner d bead e who
    | some o =>
      if s.isDead d o then (s.recoverLine d bead o).goOn d bead
      else match what with
        | .own => if who = some o then s.goOn d bead else s.snoopOwner d bead e 0 o
        | .shared => s.snoopOwner d bead e 1 o
        | .noalloc => s.snoopOwner d bead e 2 o
        | .write => s.snoopOwner d bead e 0 o
  else if l.st = 1 ∧ (what = .own ∨ what = .write) then s.invalidate d bead e who
  else s.goOn d bead

/-- Requests of a line served one at a time, in their order (R377). -/
def State.serveLine (s : State) (d bead : Nat) : (fuel : Nat) → State
  | 0 => s
  | fuel + 1 =>
    let l := s.line d bead
    if l.serving || l.trans != .idle then s
    else match l.waiting, s.cohAt (bead * 64) with
      | (key, idx) :: _, some (_, e) =>
        let s := s.setLine d bead { l with serving := true }
        (match s.startHead d bead key idx e with
        | (s, false) => s
        | (s, true) =>
          let l := s.line d bead
          (s.setLine d bead { l with serving := false, waiting := l.waiting.drop 1, trans := .idle }).serveLine d bead fuel)
      | _, _ => s.setLine d bead l

/-- A request joins a line (R377). -/
def State.joinLine (s : State) (d bead key idx : Nat) : State :=
  let l := s.line d bead
  (s.setLine d bead { l with waiting := l.waiting ++ [(key, idx)] }).serveLine d bead (l.waiting.length + 2)

/-- The first request of a line has ended: the next begins. -/
def State.endHead (s : State) (d bead : Nat) : State :=
  let l := s.line d bead
  (s.setLine d bead { l with serving := false, waiting := l.waiting.drop 1, trans := .idle, grant := none }).serveLine d bead
    (l.waiting.length + 1)

/-- The first request goes on; one that ends at once makes way for the next. -/
def State.proceed (s : State) (d bead : Nat) : State :=
  match s.goOn d bead with
  | (s, true) => s.endHead d bead
  | (s, false) => s

/-! ### Grants (R373, R377) -/

/-- A line of data granted to the first request's source. -/
def State.grantLine (s : State) (d bead key : Nat) (data : List Byte) (poison : Bool) : State :=
  (s.complete key (okOrPoison poison) data).endHead d bead

/-- A recall of another line frees a log entry (R373): the least recently written entry of the set whose line is in no transient
state. -/
def State.recallFor (s : State) (d bead : Nat) : State :=
  let can := (s.sameSet d bead true).filter fun l => l.2.trans == .idle && !l.2.serving
  match leastBy (·.2.loggedAt) can with
  | none => s
  | some (b, l) =>
    match s.cohAt (b * 64), l.owner with
    | some (_, e), some o =>
      let s := ((s.bump (pageBase .dir d + 0x824)).raise .dir d 3).coverLine d b
      if s.isDead d o then s.recoverLine d b o
      else
      let (s, r) := s.snoop d b 1 o e false
      let set (t : Trans) (s : State) : State := s.setLine d b { s.line d b with trans := t, retryAt := s.time }
      (match r with
      | .sent i => set (.recall o (some i)) s
      | .later | .down => set (.recall o none) s
      | .answered => s.openRecord d b o
      | .refused => s.recoverLine d b o)
    | _, _ => s

/-- An M grant: the log entry is written first; a full set recalls another line and the grant waits (R373). -/
def State.grantOwn (s : State) (d bead key src : Nat) (data : List Byte) (poison : Bool) (again : Bool) : State :=
  let room (s : State) : Bool := decide ((s.sameSet d bead true).length < 8)
  let give (s : State) : State :=
    let (s, t) := s.stampOf d
    let l := s.line d bead
    (s.setLine d bead { l with st := 2, owner := some src, sharers := none, loggedAt := t }).grantLine d bead key data poison
  if room s then give s
  else
    let s := if again then s.recallFor d bead else s
    if room s then give s
    else s.setLine d bead { s.line d bead with grant := some (data, poison) }

/-- Grants that wait for room in a bead's log set, tried again. -/
def State.retryGrants (s : State) (d bead : Nat) : State :=
  let ls := (s.slice d).lines.filter fun l => l.2.grant.isSome && dirSet (l.1 * 64) == dirSet (bead * 64)
  ls.foldl (fun s l => match l.2.waiting, l.2.grant with
    | (key, _) :: _, some (data, p) => (match s.slot? key with
      | some v => s.grantOwn d l.1 key v.src data p true
      | none => s.endHead d l.1)
    | _, _ => s) s

/-- Beads of a request as one byte string. -/
def State.putBead (s : State) (key idx : Nat) (data : List Byte) (poison : Bool) : State :=
  match s.slot? key with
  | none => s
  | some v =>
    let whole := if v.data.isEmpty then zeroBytes (64 * (match v.phase with | .memory n => n | _ => 1)) else v.data
    s.setSlot key { v with data := overlay whole (64 * idx) data, status := if poison then stPoison else v.status }

/-- One bead of a request is done; with the last the request completes, with the data its type returns. -/
def State.beadDone (s : State) (key : Nat) : State :=
  match s.slot? key with
  | none => s
  | some v => match v.phase with
    | .memory n => if n ≤ 1 then s.complete key v.status v.data else s.setSlot key { v with phase := .memory (n - 1) }
    | _ => s

/-- The line read for the first request of a line reaches its home. -/
def State.homeData (s : State) (key idx : Nat) (data : List Byte) (poison : Bool) : State :=
  match s.slot? key with
  | none => s
  | some v =>
    let pa := v.beadPa idx
    let d := homeOf pa
    let bead := pa / 64
    match lineReq v.pkt.typ with
    | .noalloc => ((s.putBead key idx data poison).beadDone key).endHead d bead
    | .shared => (s.addSharer d bead v.src).grantLine d bead key data poison
    | _ => s.grantOwn d bead key v.src data poison true

/-- A write at the home has been performed: its line makes way for the next request. -/
def State.lineDone (s : State) (pa key idx : Nat) : State :=
  let d := homeOf pa
  let bead := pa / 64
  if (s.line d bead).waiting.head? = some (key, idx) then s.endHead d bead else s

/-! ### Snoop answers (Table 16.5) -/

/-- The data of an answer is written at the home, after its forward on a protected extent. The flag: written. -/
def State.homeWrite (s : State) (pa : Nat) (data : List Byte) (poison : Bool) : State × Bool :=
  if s.ctlFailed pa then (s, true)
  else match s.cohAt pa with
    | some (ext, _) =>
      if (s.prot? ext).any (·.forwards) then
        let h : HeldWrite := { who := none, ext := ext, pa := pa, data := data, poison := poison }
        ({ s with ecc := { s.ecc with held := s.ecc.held ++ [h] } }.toCtl pa .read 2 (.old noKey 0), false)
      else (s.homeStore pa data poison, true)
    | none => (s.homeStore pa data poison, true)

/-- The owner's answer has been taken: INV leaves I, SHARE leaves S with the owner, and the first request goes on. -/
def State.finishMx (s : State) (d bead kind owner : Nat) : State :=
  let s := s.setLine d bead { s.line d bead with trans := .idle, st := 0, owner := none, sharers := none }
  let s := if kind = 1 then s.openRecord d bead owner else s
  (s.proceed d bead).retryGrants d bead

/-- A COPY answer with data completes the first request; memory is not written and the line stays M. -/
def State.finishCopy (s : State) (d bead : Nat) (data : List Byte) (poison : Bool) : State :=
  let l := s.line d bead
  let s := s.setLine d bead { l with trans := .idle }
  match l.waiting with
  | [] => s.endHead d bead
  | (key, idx) :: _ =>
    if key < noKey then ((s.putBead key idx data poison).beadDone key).endHead d bead
    else
      let v := s.slice d
      (s.setSlice d { v with copies := (key, bead, data, poison) :: v.copies }).endHead d bead

/-- A recall has ended: the line is S with its old owner, or recovered; grants of its set go on. -/
def State.finishRecall (s : State) (d bead : Nat) : State :=
  let l := s.line d bead
  ((s.setLine d bead { l with trans := .idle }).serveLine d bead (l.waiting.length + 1)).retryGrants d bead

/-- A snoop of a revoked extent's beads: any completion answers it (R378). -/
def State.zeroingAt (s : State) (bead : Nat) : Bool :=
  match s.cohAt (bead * 64) with
  | some (_, e) => e.st == .zeroing
  | none => false

/-- The data that a search for an unknown owner found is current: the line is I, and its first request goes on. -/
def State.finishLost (s : State) (d bead : Nat) : State :=
  (s.setLine d bead { s.line d bead with trans := .idle, st := 0, owner := none, sharers := none }).proceed d bead

/-- The data of a recall is current: the line is S with its old owner (R373). -/
def State.recalled (s : State) (d bead o : Nat) : State :=
  (s.openRecord d bead o).finishRecall d bead

/-- A snoop answer that its line waited for has been forwarded and stored (R159). -/
def State.answerStored (s : State) (d bead : Nat) : State :=
  match (s.line d bead).trans with
  | .mx kind o none => s.finishMx d bead kind o
  | .recall o none => s.recalled d bead o
  | .lost [] (some _) => s.finishLost d bead
  | _ => s

/-- Every target of an SI or of a search for an unknown owner has answered. -/
def State.finishSi (s : State) (d bead : Nat) : State :=
  let l := s.line d bead
  match l.trans with
  | .si [] =>
    let s := s.setLine d bead { l with trans := .idle, st := 0, owner := none, sharers := none }
    if s.zeroingAt bead then s else (s.proceed d bead)
  | .lost [] none => (((s.setLine d bead { l with trans := .idle }).recoverLine d bead 0xFFFF).proceed d bead)
  | .lost [] (some (data, p)) =>
    if (s.heldAt (bead * 64)).isSome then s
    else match s.homeWrite (bead * 64) data p with
      | (s, true) => s.finishLost d bead
      | (s, false) => s
  | _ => s

/-- A target list without an answered target, and with a refused one to be asked again. -/
def answered (ts : List (Nat × Option Nat)) (out : Nat) : List (Nat × Option Nat) := ts.filter fun t => t.2 != some out
def askAgain (ts : List (Nat × Option Nat)) (out : Nat) : List (Nat × Option Nat) :=
  ts.map fun t => if t.2 = some out then (t.1, none) else t

/-- A snoop of a bead completes (Table 16.5, R378, R379). -/
def State.snoopAnswer (s : State) (d bead out status : Nat) (data : List Byte) (poison : Bool) : State :=
  let good := status = stOk ∨ status = stPoison
  let has := good ∧ data.length = 64
  let s := if good then s.tally .dir d 0x92 (b2n (!has)) 1 ((s.cohAt (bead * 64)).map fun e => e.2.owner) else s
  let l := s.line d bead
  let again := retryable status ∧ s.zeroingAt bead = false
  match l.trans with
  | .si ts =>
    if again then s.setLine d bead { l with trans := .si (askAgain ts out), retryAt := s.time }
    else (s.setLine d bead { l with trans := .si (answered ts out) }).finishSi d bead
  | .lost ts got =>
    if again then s.setLine d bead { l with trans := .lost (askAgain ts out) got, retryAt := s.time }
    else (s.setLine d bead { l with trans := .lost (answered ts out) (if has then some (data, poison) else got) }).finishSi d bead
  | .mx kind o (some i) =>
    if i ≠ out then s
    else if again then s.setLine d bead { l with trans := .mx kind o none, retryAt := s.time }
    else if ¬good then ((((s.setLine d bead { l with trans := .idle }).recoverLine d bead o).proceed d bead)).retryGrants d bead
    else if kind = 2 then
      if has then s.finishCopy d bead data poison
      else ((s.setLine d bead { l with trans := .idle }).proceed d bead)
    else if has then
      match s.homeWrite (bead * 64) data poison with
      | (s, true) => s.finishMx d bead kind o
      | (s, false) => s.setLine d bead { s.line d bead with trans := .mx kind o none }
    else s.finishMx d bead kind o
  | .recall o (some i) =>
    if i ≠ out then s
    else if again then s.setLine d bead { l with trans := .recall o none, retryAt := s.time }
    else if ¬good then ((s.setLine d bead { l with trans := .idle }).recoverLine d bead o).finishRecall d bead
    else if has then
      match s.homeWrite (bead * 64) data poison with
      | (s, true) => s.recalled d bead o
      | (s, false) => s.setLine d bead { s.line d bead with trans := .recall o none }
    else s.recalled d bead o
  | _ => s

/-- DIR_SNOOP_RESENDS counts a snoop sent again, not one that still waits for an outbound slot (R378). -/
def State.countResend (s : State) (d : Nat) (x : Snooped) : State := if x = .later then s else s.bump (pageBase .dir d + 0x820)

/-- Targets asked again: those without a snoop in flight (R378). -/
def State.resendAll (s : State) (d bead : Nat) (e : Extent) : List (Nat × Option Nat) → State × List (Nat × Option Nat)
  | [] => (s, [])
  | (t, some i) :: ts => let (s, r) := s.resendAll d bead e ts; (s, (t, some i) :: r)
  | (t, none) :: ts =>
    let (s, x) := s.snoop d bead 0 t e (e.st == .zeroing)
    let s := s.countResend d x
    let (s, r) := s.resendAll d bead e ts
    match x with
    | .sent i => (s, (t, some i) :: r)
    | .later => (s, (t, none) :: r)
    | .down => (s, if e.st = .zeroing then r else (t, none) :: r)
    | _ => (s, r)

/-- The snoops of a line sent again (R378). -/
def State.resendLine (s : State) (d bead : Nat) : State :=
  match s.cohAt (bead * 64) with
  | none => s
  | some (_, e) =>
    let one (s : State) (kind o : Nat) (mk : Option Nat → Trans) : State :=
      let (s, x) := s.snoop d bead kind o e false
      let s := s.countResend d x
      match x with
      | .sent i => s.setLine d bead { s.line d bead with trans := mk (some i), retryAt := s.time }
      | .later | .down => s.setLine d bead { s.line d bead with retryAt := s.time }
      | _ =>
        let s := (s.setLine d bead { s.line d bead with trans := .idle }).recoverLine d bead o
        match mk none with
        | .recall _ _ => s.finishRecall d bead
        | _ => ((s.proceed d bead)).retryGrants d bead
    match (s.line d bead).trans with
    | .si ts =>
      let (s, ts) := s.resendAll d bead e ts
      (s.setLine d bead { s.line d bead with trans := .si ts, retryAt := s.time }).finishSi d bead
    | .lost ts got =>
      let (s, ts) := s.resendAll d bead e ts
      (s.setLine d bead { s.line d bead with trans := .lost ts got, retryAt := s.time }).finishSi d bead
    | .mx kind o none => if (s.heldAt (bead * 64)).isSome then s else one s kind o fun i => .mx kind o i
    | .recall o none => if (s.heldAt (bead * 64)).isSome then s else one s 1 o fun i => .recall o i
    | _ => s

/-- A snoop waits to be sent again. -/
def Trans.waits : Trans → Bool
  | .si ts => ts.any fun t => t.2.isNone
  | .lost ts _ => ts.any fun t => t.2.isNone
  | .mx _ _ none => true
  | .recall _ none => true
  | _ => false

/-- SNOOP_RETRY (R378): SNOOP_RETRY_US after the refusal. -/
def execSnoopRetry (s : Fin 8) (bead : Nat) (st : State) : Outcome :=
  let l := st.line s bead
  onlyIf l.trans.waits st fun st => (st.elapseTo (l.retryAt + us (st.actBits .dir s 0x040 31 16))).resendLine s bead

/-! ### WRITEBACK (Table 16.5) -/

/-- A WRITEBACK acts in every state: from the owner it is written, from any other endpoint completed and discarded. -/
def State.writeBackLine (s : State) (key : Nat) (v : InSlot) : State :=
  let d := homeOf v.pa
  let bead := v.pa / 64
  let s := s.lookup d bead tWriteback (some v.ctx)
  let l := s.line d bead
  if s.isDead d v.src then s.complete key stRevoked
  else if l.st = 2 ∧ l.owner = some v.src then
    let s := s.performBead key 0
    if l.trans = .idle ∧ l.serving = false then
      (s.setLine d bead { s.line d bead with st := 0, owner := none }).retryGrants d bead
    else s
  else s.complete key stOk

/-! ### Dead endpoints (R383, R384) -/

/-- One line's pending snoop answered on a dead endpoint's behalf. -/
def State.answerDead (s : State) (d bead ep : Nat) : State :=
  let l := s.line d bead
  match l.trans with
  | .si ts => if ts.any (·.1 == ep) then (s.setLine d bead { l with trans := .si (ts.filter (·.1 != ep)) }).finishSi d bead else s
  | .lost ts g =>
    if ts.any (·.1 == ep) then (s.setLine d bead { l with trans := .lost (ts.filter (·.1 != ep)) g }).finishSi d bead else s
  | .mx _ o _ =>
    if o = ep then ((((s.setLine d bead { l with trans := .idle }).recoverLine d bead o).proceed d bead)).retryGrants d bead
    else s
  | .recall o _ =>
    if o = ep then ((s.setLine d bead { l with trans := .idle }).recoverLine d bead o).finishRecall d bead else s
  | .idle => s

/-- A slice learns that an endpoint is dead. -/
def State.sliceDead (s : State) (d ep : Nat) : State :=
  let v := s.slice d
  let v := if v.walking then { v with walkPending := true } else { v with walking := true, lost := 0, reverted := 0 }
  let s := s.setSlice d { v with dead := if v.dead.contains ep then v.dead else v.dead ++ [ep] }
  (v.lines.map (·.1)).foldl (fun s b => s.answerDead d b ep) s

/-- An endpoint declared dead, in every slice. -/
def State.dirDead (s : State) (ep : Nat) : State := (List.range 8).foldl (fun s d => s.sliceDead d ep) s

/-- An endpoint declared alive again. -/
def State.dirAlive (s : State) (ep : Nat) : State :=
  { s with dir := tblMap s.dir fun _ v => { v with dead := v.dead.filter (· != ep) } }

/-- The walk of a slice recovers every line whose entry names a dead endpoint, with a metadata write for each that no cache entry
covers. -/
def State.walkLog (s : State) (d : Nat) : State :=
  let v := s.slice d
  let bad := v.lines.filter fun l => l.2.st == 2 && l.2.trans == .idle && (l.2.owner.map v.dead.contains).getD false
  bad.foldl (fun s l =>
    let s := s.recoverLine d l.1 (l.2.owner.getD 0xFFFF)
    (if (s.slice d).cache.contains l.1 then s else s.fieldWrite d l.1 3).retryGrants d l.1) s

/-- DEAD_WALK_DONE: the walk ends; one more follows a declaration made meanwhile (R383). -/
def execDeadWalkDone (s : Fin 8) (st : State) : Outcome :=
  onlyIf (st.slice s).walking st fun st =>
    let st := st.walkLog s
    let v := st.slice s
    if v.walkPending then st.setSlice s { v with walkPending := false }
    else
      let d := detail [(0, leBytes 2 s), (4, leBytes 4 v.lost), (8, leBytes 4 v.reverted), (12, leBytes 2 v.dead.length)]
      ((st.setSlice s { v with walking := false }).postMgr { typ := 0x0092, cls := 2, source := 0x4000 + s, detail := d }).raise .dir s 0

/-! ### A revoked extent's lines (R114, step 7) -/

/-- The lines of an extent that some cache may hold. -/
def State.cachedLines (s : State) (e : Extent) : List (Nat × Nat × Line) :=
  s.dir.flatMap fun d => (d.2.lines.filter fun l => l.2.st != 0 && e.holds (l.1 * 64) 64).map fun l => (d.1, l.1, l.2)

/-- SNOOP_INV for every bead of a revoked extent with a cached copy, sent once (R378); log entries go. -/
def State.snoopRevoked (s : State) (e : Extent) : State :=
  (s.cachedLines e).foldl (fun s x =>
    let (d, bead, l) := x
    let s := s.coverLine d bead
    let who := match l.st, l.owner with | 2, some o => some [o] | _, _ => if l.st = 2 then none else l.sharers
    let (s, wait) := s.snoopAll d bead e true (s.invTargets d e who none)
    if wait.isEmpty then s.setLine d bead {} else s.setLine d bead { trans := .si wait, st := 1, sharers := some [], retryAt := s.time }) s

/-- No snoop of an extent's beads is unanswered. -/
def State.snoopsDone (s : State) (e : Extent) : Bool :=
  s.dir.all fun d => d.2.lines.all fun l => !(e.holds (l.1 * 64) 64) || l.2.trans == .idle

/-- The directory cleared for an extent. -/
def State.clearLines (s : State) (e : Extent) : State :=
  { s with dir := tblMap s.dir fun _ v => { v with
      lines := tblFilter v.lines fun b _ => !e.holds (b * 64) 64
      cache := v.cache.filter fun b => !e.holds (b * 64) 64
      copies := v.copies.filter fun c => !e.holds (c.2.1 * 64) 64 } }

/-! ### The module's own units (R256, R377) -/

/-- A unit of the module waits at a line, once. -/
def State.innerWait (s : State) (tag pa write : Nat) : State :=
  let d := homeOf pa
  let bead := pa / 64
  if (s.line d bead).waiting.any fun w => w.1 = innerKey tag then s else s.joinLine d bead (innerKey tag) write

/-- Service class of an access of one of the module's own units, by its tag (Table 6.4): run-ahead of a mover and the copies of the
key-value service are SC3; what a rod waits on, and the accesses that the table does not list, are SC2 (assumption 156). -/
def unitClass (tag : Nat) : Nat := if tag / 0x10000 = 5 ∨ (tag / 0x10000 = 3 ∧ 64 ≤ tag % 0x10000) then 3 else 2

/-- A unit's access finds its bead not yet rebuilt (R164): the bead is rebuilt first. None where it may go on. -/
def State.innerMissing (s : State) (pa : Nat) : Option State :=
  match s.protectedAt pa with
  | none => none
  | some ext =>
    let off := pa / 64 * 64 - (s.extent ext).base
    if (s.prot? ext).any (·.missing off) then
      some (if (s.gatherAt ext off).isSome then s else s.gatherOwn ext pa .rebuild)
    else none

/-- The lookup that an access of a unit to a coherent bead makes at its home (R368). -/
def State.unitLookup (s : State) (pa typ : Nat) : State :=
  match s.cohAt pa with
  | some (_, e) => s.lookup (homeOf pa) (pa / 64) typ (some e.owner)
  | none => s

/-- A bead read by one of the module's own units, as READ_NOALLOC: the data and its mark, or none while the home recalls it, it is
gathered from its partners, or something stands before the access at its controller. -/
def State.innerRead (s : State) (tag pa : Nat) : State × Option (List Byte × Bool) :=
  let d := homeOf pa
  let bead := pa / 64
  let v := s.slice d
  match v.copies.find? fun c => c.1 == innerKey tag && c.2.1 == bead with
  | some c => ((s.setSlice d { v with copies := v.copies.erase c }).lookup d bead tReadNoalloc none, some c.2.2)
  | none =>
    let l := s.line d bead
    if (s.cohAt pa).isSome && (l.st == 2 || !l.waiting.isEmpty || l.trans != .idle) then (s.innerWait tag pa 0, none)
    else
      let gather (ext : Nat) (back : Bool) (s : State) : State :=
        if s.ecc.gathers.any fun g => g.want == .inner (innerKey tag) back then s
        else s.gatherOwn ext pa (.inner (innerKey tag) back)
      match s.innerMissing pa with
      | some s => (s, none)
      | none =>
        if s.ctlFailed pa then
          match s.protectedAt pa with
          | some ext => (gather ext false s, none)
          | none => (s, some (zeroBytes 64, true))
        else match s.unitGo pa (unitClass tag) false with
          | (s, false) => (s, none)
          | (s, true) => (match (s.unitLookup pa tReadNoalloc).readOut pa [] with
            | (s, .data b p) => (s, some (b, p))
            | (s, .repair) => (match s.protectedAt pa with
              | some ext => (gather ext true s, none)
              | none => (s, none)))

/-- A unit's write that its partner's forward had held has been made: its bead holds what the operation gives (R159, step 5). -/
def State.wroteHeld (s : State) (tag pa : Nat) (op : BeadOp) : Option (Nat × Nat × List Byte × Bool) :=
  s.ecc.wrote.find? fun w => w.1 == innerKey tag && w.2.1 == pa / 64 * 64 && s.readMem w.2.1 64 == w.2.2.1 &&
    (s.metaOf (w.2.1 / 64)).poison == w.2.2.2 && (op.apply w.2.2.1 w.2.2.2).1 == w.2.2.1 && (op.apply w.2.2.1 w.2.2.2).2.1 == w.2.2.2

/-- A write of a unit on a protected extent: held until its forward completes (R159), or made at once where position K can no longer
be asked. -/
def State.innerForward (s : State) (tag ext pa : Nat) (k : Nat) (old : List Byte) (bad : Bool) (new : List Byte) (poison : Bool) :
    State × Bool :=
  let h : HeldWrite := { who := some (innerKey tag, 0), ext := ext, pa := pa / 64 * 64, data := new, poison := poison, formed := true
                         fwd := fwdOf k old new, fwdPoison := poison || (2 ≤ k && bad) }
  match ({ s with ecc := { s.ecc with held := s.ecc.held ++ [h] } } : State).sendFwd h with
  | (s, false) => (s, false)
  | (s, true) =>
    let s := { s with ecc := { s.ecc with held := s.ecc.held.filter fun x => x.pa != h.pa } }
    ((s.degrade ext k 1).writeBead pa new poison, true)

/-- A bead written by one of the module's own units; the flag is false while the home recalls copies, a forward of the bead is under
way, the bead is still to be rebuilt, or something stands before the access at its controller. -/
def State.innerWrite (s : State) (tag pa : Nat) (op : BeadOp) : State × Bool :=
  let l := s.line (homeOf pa) (pa / 64)
  if (s.cohAt pa).isSome && (l.st != 0 || !l.waiting.isEmpty || l.trans != .idle) then (s.innerWait tag pa 1, false)
  else if s.ctlFailed pa then (s, true)
  else match s.wroteHeld tag pa op, s.innerMissing pa with
    | some w, _ => ({ s with ecc := { s.ecc with wrote := s.ecc.wrote.erase w } }, true)
    | none, some s => (s, false)
    | none, none =>
      if (s.heldAt pa).isSome then (s, false)
      else match s.unitGo pa (unitClass tag) true with
        | (s, false) => (s, false)
        | (s, true) => (match (s.unitLookup pa tWrite).readOut pa [] with
          | (s, .repair) => ((s.innerRead tag pa).1, false)
          | (s, .data old bad) =>
            let (new, p, _) := op.apply old bad
            match s.protectedAt pa with
            | none => (s.writeBead pa new p, true)
            | some ext =>
              match s.prot? ext with
              | none => (s.writeBead pa new p, true)
              | some r => if r.forwards then s.innerForward tag ext pa r.k old bad new p else (s.writeBead pa new p, true))

/-- A unit's operation of several beads that has to wait keeps the writes it has seen made: they stand as made when it is tried
again (R159). -/
def State.keepWrote (s was : State) : State := { s with ecc := { s.ecc with wrote := was.ecc.wrote } }

/-- Beads read by a unit, all or none: a first bead that is not ready keeps the unit waiting. -/
def State.innerReads (s : State) (tag pa : Nat) : (n : Nat) → State × Option (List Byte × Bool)
  | 0 => (s, some ([], false))
  | n + 1 =>
    match s.innerReads tag pa n with
    | (s, none) => (s, none)
    | (s, some (b, p)) => (match s.innerRead tag (pa + 64 * n) with
      | (s, none) => (s, none)
      | (s, some (c, q)) => (s, some (b ++ c, p || q)))

end Sys2Proof.Machine
end

