-- ==== Sys2Proof/Machine/Walk.lean ====
section
/-!
DEFINITION. Translation (05_extents.md): page-table entries (R103), the walk and its checks (R105), lookasides, the verdict rows
of Table 5.4, invalidation (R108, R109) and the event rings' writes (R116–R119).
-/

namespace Sys2Proof.Machine

/-! ### Page-table entries (Table 5.3) -/

/-- V, LEAF and ADDR of an entry. -/
def pteV (e : Nat) : Bool := bit e 0
def pteLeaf (e : Nat) : Bool := bit e 1
def pteAddr (e : Nat) : Nat := bits e 63 24 * 256

/-- Bits of the page that a leaf at a level maps (Table 5.2). -/
def levelShift (level : Nat) : Nat := if level = 0 then 16 else if level = 1 then 21 else 30

/-- Index of a VA at a level, and bytes of a table there (Table 5.2). -/
def levelIndex (level va : Nat) : Nat :=
  if level = 3 then bits va 56 43 else if level = 2 then bits va 42 30 else if level = 1 then bits va 29 21 else bits va 20 16
def levelSize (level : Nat) : Nat := if level = 3 then 0x20000 else if level = 2 then 0x10000 else if level = 1 then 0x1000 else 0x100

/-- An entry read at a level is well formed (R103). -/
def pteOk (level e : Nat) : Bool :=
  if pteLeaf e then
    level != 3 && bits e 23 20 == 0 && bits e 9 8 != 3 && bits e 7 6 ≤ 1 && pteAddr e % 2 ^ levelShift level == 0
  else
    level != 0 && bits e 23 1 == 0 && pteAddr e % levelSize (level - 1) == 0

/-- Outcome of a walk. -/
inductive Walked where
  | ok (e : LkEntry)
  /-- A missing translation (check 3), and a table fault (R105): NO_TRANSLATION. -/
  | missing
  | fault
  /-- Isolation breach. -/
  | breach
  /-- The page's extent is DRAINING or ZEROING. -/
  | revoked
  /-- A table's bead cannot be read yet: something stands before the read at its controller. -/
  | later
deriving DecidableEq, Repr

/-- Status of a walk's outcome (Table 5.4). -/
def Walked.status : Walked → Nat
  | .ok _ => stOk
  | .missing | .fault => stNoTranslation
  | .breach => stPermission
  | .revoked => stRevoked
  | .later => stBusy

/-- A TABLE_FAULT record (Table 5.12). -/
def State.tableFault (s : State) (ctx va check level pa : Nat) : State :=
  (s.postMgr { typ := 0x0013, cls := 1, ctx := ctx, source := 0x3000, va := va, access := 3,
               detail := detail [(0, [byte check]), (1, [byte level]), (8, leBytes 8 pa)] }).raise .xlt 0 0

/-- What a table's entry reads as. -/
inductive Entry where
  | value (e : Nat)
  | poisoned
  | later
deriving DecidableEq, Repr

/-- One entry read out of a table at home memory (R104, R105); `now` reads it whatever stands before the read (assumption 156). -/
def State.readEntry (s : State) (pa : Nat) (now : Bool) : State × Entry :=
  if s.ctlFailed pa then (s, .poisoned)
  else match if now then (s, true) else s.unitGo pa 2 false with
    | (s, false) => (s, .later)
    | (s, true) => (match s.readOut pa [] with
      | (s, .data b false) => (s, .value (field b (pa % 64) 8))
      | (s, _) => (s, .poisoned))

/-- Checks 5 to 7 of R105 and those of R370 on a leaf. -/
def State.leafChecks (s : State) (ctx va level pa e : Nat) : State × Walked :=
  let size := 2 ^ levelShift level
  let page := pteAddr e
  match s.extentAt page size with
  | none => ((s.postMgr { typ := 0x0014, cls := 1, ctx := ctx, source := 0x3000, va := va, access := 3,
                          detail := detail [(8, leBytes 8 page)] }).raise .xlt 0 1, .breach)
  | some (id, x) =>
    if x.kind ≠ 0 ∨ x.owner ≠ ctx then
      ((s.postMgr { typ := 0x0014, cls := 1, ctx := ctx, source := 0x3000, va := va, access := 3,
                    detail := detail [(8, leBytes 8 page)] }).raise .xlt 0 1, .breach)
    else if x.st ≠ .active then (s, .revoked)
    else
      let far := match windowOf page with | some w => decide (4 ≤ w) | none => false
      let key := bits e 19 10
      let base := va / size * size
      let vb := (base + 2 ^ 64 - (page - x.base)) % 2 ^ 64
      if bit e 5 ≠ far ∨ (bits e 7 6 == 1) ≠ x.coh ∨ bits e 9 8 ≠ x.prot then (s.tableFault ctx va 6 level pa, .fault)
      else if (s.keySlot key).st = .empty ∨ (s.keySlot key).owner ≠ ctx then (s.tableFault ctx va 7 level pa, .fault)
      else if x.coh ∧ x.vaBase.isSome ∧ (x.vaBase ≠ some vb ∨ x.snoopKey ≠ some key) then (s.tableFault ctx va 8 level pa, .fault)
      else
        let s := if x.coh && x.vaBase.isNone then s.setExtent id { x with vaBase := some vb, snoopKey := some key } else s
        (s, .ok { ctx := ctx, va := base, size := size, pa := page, keysel := key, r := bit e 2, w := bit e 3, atom := bit e 4
                  coh := x.coh, prot := x.prot, ext := id, gen := x.gen })

/-- One level of a walk (R105): its outcome, or the table below. -/
def State.walkStep (s : State) (ctx va table level : Nat) (now : Bool) : State × (Walked ⊕ Nat) :=
  let pa := table + 8 * levelIndex level va
  let inTable := match s.extentAt table (levelSize level) with
    | some (_, x) => x.st == .active && x.kind == 1
    | none => false
  if !inTable then (s.tableFault ctx va 2 level pa, .inl .fault)
  else match s.readEntry pa now with
    | (s, .later) => (s, .inl .later)
    | (s, .poisoned) => (s.tableFault ctx va 4 level pa, .inl .fault)
    | (s, .value e) =>
      if !pteV e then (s, .inl .missing)
      else if !pteOk level e then (s.tableFault ctx va 4 level pa, .inl .fault)
      else if pteLeaf e then (match s.leafChecks ctx va level pa e with | (s, w) => (s, .inl w))
      else (s, .inr (pteAddr e))

/-- Address bits below the index of a level: an entry there serves 2 to this many bytes (Table 5.2). -/
def pointerShift (level : Nat) : Nat := if level = 1 then 21 else if level = 2 then 30 else 43

/-- A pointer entry of levels 3 to 1 put first in the walk cache of 1,024, the least recently used dropped (R107, assumption 37). -/
def State.keepPointer (s : State) (p : Pointer) : State :=
  { s with xlt := { s.xlt with cache := (p :: s.xlt.cache.filter (· != p)).take 1024 } }

/-- A walk from the table at `table`, whose level is `levels - 1` (R105, checks 2 to 7). -/
def State.walkFrom (s : State) (ctx root va table : Nat) (now : Bool) : (levels : Nat) → State × Walked
  | 0 => (s, .fault)
  | n + 1 => match s.walkStep ctx va table n now with
    | (s, .inl w) => (s, w)
    | (s, .inr t) => (s.keepPointer { ctx := ctx, root := root, level := n, va := va / 2 ^ pointerShift n, table := t }).walkFrom
        ctx root va t now n

/-- The deepest pointer entry of the walk cache that serves an address from a root (R107). -/
def State.pointerFor (s : State) (ctx root va : Nat) : Option Pointer :=
  [1, 2, 3].findSome? fun l => s.xlt.cache.find? fun p =>
    p.ctx == ctx && p.root == root && p.level == l && p.va == va / 2 ^ pointerShift l

/-- A whole walk (R105, R107): from the deepest table that the walk cache names, else from the root. -/
def State.walkTables (s : State) (ctx va : Nat) (now : Bool := false) : State × Walked :=
  let r := s.ring ctx
  let root := wbits r.rootLo 31 17 * 0x20000 + wbits r.rootHi 15 0 * 2 ^ 32
  if !wbit r.rootLo 0 then (s, .fault)
  else match s.pointerFor ctx root va with
    | some p => (s.keepPointer p).walkFrom ctx root va p.table now p.level
    | none => s.walkFrom ctx root va root now 4

/-! ### Lookasides -/

/-- A lookaside entry translates an address. -/
def LkEntry.covers (e : LkEntry) (ctx va : Nat) : Bool := e.ctx == ctx && e.va ≤ va && va < e.va + e.size

/-- The physical address of a VA an entry covers. -/
def LkEntry.at_ (e : LkEntry) (va : Nat) : Nat := e.pa + (va - e.va)

/-- An entry put first in a lookaside of `cap` entries, the least recently used dropped (assumption 37). -/
def lkPut (l : List LkEntry) (cap : Nat) (e : LkEntry) : List LkEntry :=
  (e :: l.filter fun x => !(x.ctx == e.ctx && x.va == e.va && x.size == e.size)).take cap

/-- The set of the tracker's lookaside that an entry falls in: 1,024 sets of 8 ways (R107, assumption 37). -/
def lkSet (e : LkEntry) : Nat := (e.va / 0x10000 + e.ctx) % 1024

/-- An entry put first in the tracker's lookaside; a full set drops its least recently used. -/
def tlbPut (l : List LkEntry) (e : LkEntry) : List LkEntry :=
  let rest := l.filter fun x => !(x.ctx == e.ctx && x.va == e.va && x.size == e.size)
  let way := rest.filter fun x => lkSet x == lkSet e
  e :: (match if way.length < 8 then none else way.getLast? with | some x => rest.erase x | none => rest)

/-- The tracker lookaside filled. -/
def State.fillTlb (s : State) (e : LkEntry) : State := { s with xlt := { s.xlt with tlb := tlbPut s.xlt.tlb e } }

/-! ### Table 5.4 -/

/-- What an access needs of its page (row 5). -/
def permits (typ : Nat) (e : LkEntry) : Bool :=
  if typ = tRead ∨ typ = tReadShared ∨ typ = tReadNoalloc then e.r
  else if typ = tReadOwn then e.r && e.w
  else if typ = tAtomic then e.r && e.w && e.atom
  else e.w

/-- Verdicts of a member at position K (R159, R161): writes and atomics PERMISSION, reads of a coherent extent UNSUPPORTED, until
it is promoted. -/
def State.memberRow (s : State) (typ : Nat) (e : LkEntry) : Nat :=
  match s.prot? e.ext with
  | none => stOk
  | some p =>
    if p.pos ≠ p.k ∨ p.promoted then stOk
    else if typ = tRead ∨ typ = tReadShared ∨ typ = tReadOwn ∨ typ = tReadNoalloc then (if e.coh then stUnsupported else stOk)
    else stPermission

/-- Rows 4 to 6 of Table 5.4 on a lookaside entry, R375's verdict and those of a protected member. `keyOk`: the request came
under the leaf's KEYSEL (R414). -/
def State.accessRow (s : State) (typ qual : Nat) (eth keyOk : Bool) (e : LkEntry) : Nat :=
  let x := s.extent e.ext
  if x.st ≠ .active ∨ x.gen ≠ e.gen then stRevoked
  else if !keyOk || !permits typ e then stPermission
  else if (typ = tReadShared ∨ typ = tReadOwn ∨ typ = tWriteback) ∧ e.coh = false then stUnsupported
  else if typ = tAtomic ∧ qual % 4 ≠ 3 ∧ e.coh ∧ eth = false ∧ (s.ctx x.owner).members.length ≤ x.thresh then stUnsupported
  else s.memberRow typ e

/-- Table 5.4 under context 0 (R100): the VA is the PA, inside an ACTIVE extent of kind TABLE or MGR_STATE. -/
def State.managerRow (s : State) (p : Packet) : Row7 :=
  let n := 64 * p.beads
  if bits p.addr 56 48 ≠ 0 then .refuse stPermission
  else match s.extentAt p.addr n with
    | none => .refuse stPermission
    | some (id, x) =>
      if x.kind = 0 then .refuse stPermission
      else if x.st ≠ .active then .refuse stRevoked
      else if p.typ = tReadShared ∨ p.typ = tReadOwn ∨ p.typ = tWriteback then .refuse stUnsupported
      else .pass (some (id, x.gen)) p.addr

/-- The page of a context is under walk. -/
def State.underWalk (s : State) (ctx va : Nat) : Bool := s.xlt.walks.any fun w => w.ctx == ctx && w.page == va / 0x10000

/-- Row 7 of a memory request (R106): Table 5.4 on a lookaside hit, accept-pending on a miss or behind a walk. -/
def memoryRow (eth : Bool) (s : State) (p : Packet) (ctx : Nat) : Row7 :=
  if ctx = 0 then s.managerRow p
  else if (s.ctx ctx).st ≠ .active then .refuse stContextGone
  else if s.underWalk ctx p.addr then .walk
  else match s.xlt.tlb.find? fun e => e.covers ctx p.addr with
    | none => .walk
    | some e =>
      let st := s.accessRow p.typ p.qual eth (s.keyRef p == .slot e.keysel) e
      if st = stOk then .pass (some (e.ext, e.gen)) (e.at_ p.addr) else .refuse st

/-- Translation for one of the module's own units, which walks when it needs to; `now` as in `State.readEntry`. `look` is its own lookaside; the flag says whether a
walk was made. -/
def State.innerWalk (s : State) (look : List LkEntry) (ctx va : Nat) (now : Bool := false) : State × Walked × Bool :=
  match look.find? fun e => e.covers ctx va with
  | some e => (s, .ok e, false)
  | none => let (s, w) := s.walkTables ctx va now; (s, w, true)

/-! ### INVAL (R108, R109) -/

/-- XLT_INVAL_SRC lists the endpoint a packet comes from (R108). -/
def State.invalListed (s : State) (p : Packet) : Bool :=
  let listed (off : Nat) : Bool :=
    let w := s.act .xlt 0 off
    (wbit w 15 && wbits w 11 0 == p.srcEp) || (wbit w 31 && wbits w 27 16 == p.srcEp)
  listed 0x048 || listed 0x04C

/-- INVAL's source rule: the manager, or an endpoint XLT_INVAL_SRC lists (R108). -/
def State.mayInval (s : State) (p : Packet) : Bool := s.fromManager p || s.invalListed p

/-- The body of an INVAL is well formed (Table 5.5). -/
def invalOk (b : List Byte) : Bool :=
  (field b 2 1 == 2 || field b 0 2 < 1024) && field b 2 1 ≤ 2 && field b 3 1 == 0 && zeros b 16 8 &&
    field b 8 8 % 0x10000 == 0 && field b 8 8 / 2 ^ 57 == 0 && (field b 2 1 != 0 || 1 ≤ field b 4 4)

/-- A range of a context lies in an INVAL's scope. -/
def inScope (b : List Byte) (ctx va size : Nat) : Bool :=
  let scope := field b 2 1
  if scope = 2 then true
  else if scope = 1 then ctx == field b 0 2
  else ctx == field b 0 2 && (va < field b 8 8 + field b 4 4 * 0x10000 && field b 8 8 < va + size)

/-- Movers in frames in compute service (R109). -/
def State.moversInService (s : State) : Nat := ((List.range 64).filter fun m => bit s.boot.frameOk (m / 2)).length

/-- An INVAL drops the entries of its scope and the walk cache's pointers, discards the run-ahead made under them (R257) and waits for the requests that used one. -/
def State.actInval (s : State) (key : Nat) : State :=
  match s.slot? key with
  | none => s
  | some v =>
    let b := v.pkt.body
    if !invalOk b then s.complete key stMalformed
    else
      let hit (e : LkEntry) : Bool := inScope b e.ctx e.va e.size
      let old := s.xlt.tlb.filter hit
      let ptr (p : Pointer) : Bool := inScope b p.ctx (p.va * 2 ^ pointerShift p.level) (2 ^ pointerShift p.level)
      let n := old.length + (s.movers.map fun m => (m.2.lookaside.filter hit).length).sum
      let used := s.txn.slots.filter fun x =>
        memoryForm x.2.pkt.typ && x.2.ctx != 0 && x.2.phase != .walk &&
          (inScope b x.2.ctx x.2.pkt.addr 64 || old.any fun e => e.covers x.2.ctx x.2.pkt.addr)
      let i : Inval := { slot := key, src := v.src, dropped := n, visited := 1 + s.moversInService, waitFor := used.map (·.1) }
      let s := s.discardAhead fun x => x.ahead.any fun a => a.used.any hit
      { s with
        xlt := { s.xlt with
          tlb := s.xlt.tlb.filter fun e => !hit e, cache := s.xlt.cache.filter fun p => !ptr p, invals := s.xlt.invals ++ [i] }
        movers := tblMap s.movers fun _ m => { m with lookaside := m.lookaside.filter fun e => !hit e } }

/-- Rules of INVAL: SEC = 0 is open to the endpoints listed (R419). -/
def invalRules : Rules := { form := fun p => p.ofType tInval, sourceOk := State.mayInval, clearOk := State.invalListed }

/-- INVAL. -/
def execInval (port : Fin 16) (p : Packet) (s : State) : Outcome := .next (s.arrive invalRules port p State.actInval)

/-- INVAL_COMPLETE (R109): every request that used a dropped entry has completed, and no earlier INVAL of the source waits. -/
def execInvalComplete (n : Nat) (s : State) : Outcome :=
  match s.xlt.invals[n]? with
  | none => .next s
  | some i =>
    let first := (s.xlt.invals.take n).all fun j => j.src != i.src
    onlyIf (i.waitFor.isEmpty && first) s fun s =>
      { s with xlt := { s.xlt with invals := s.xlt.invals.eraseIdx n } }.complete i.slot stOk
        (leBytes 4 i.dropped ++ leBytes 4 i.visited)

/-! ### Event rings (R116–R119) -/

/-- The record as its bead (Table 5.11). -/
def Record.bytes (r : Record) (phase seq : Nat) : List Byte :=
  leBytes 2 r.typ ++ [byte r.cls, byte (phase % 2)] ++ leBytes 2 r.ctx ++ leBytes 2 r.source ++ leBytes 8 seq ++ leBytes 8 r.va ++
    [byte r.status, byte r.access] ++ leBytes 2 r.ext ++ leBytes 2 r.gen ++ zeroBytes 2 ++ (r.detail ++ zeroBytes 32).take 32

/-- A ring's tag among the module's units. -/
def ringTag (n : Nat) : Nat := 0x10000 + n

/-- CONSUMER read from the control bead; a poisoned bead makes the ring unreachable (R118, R155). -/
inductive Control where
  | consumer (n : Nat)
  | poisoned
  | wait
deriving DecidableEq, Repr

def State.readControl (s : State) (n : Nat) : State × Control :=
  match s.innerRead (ringTag n) (s.ring n).base with
  | (s, some (b, false)) => (s, .consumer (field b 0 4))
  | (s, some (_, true)) => (s, .poisoned)
  | (s, none) => (s, .wait)

/-- A poisoned control bead disables the ring (R155). -/
def State.controlPoisoned (s : State) (n : Nat) : Bool := (s.metaOf ((s.ring n).base / 64)).poison

/-- Records not yet consumed, modulo 2³² (R118). -/
def Ring.used (r : Ring) : Nat := (r.prod + 2 ^ 32 - r.cons % 2 ^ 32) % 2 ^ 32

/-- The ring's queue without its first record; a held fault record takes the room (R458). -/
def Ring.shift (r : Ring) : Ring :=
  match r.held with
  | [] => { r with queue := r.queue.drop 1 }
  | h :: t => { r with queue := r.queue.drop 1 ++ [h], held := t }

/-- A record that cannot go to its context ring (R119): a fault-class one goes to the manager ring, any other is dropped and
counted. -/
def State.divert (s : State) (n : Nat) (rec : Record) : State :=
  let s := s.setRing n (s.ring n).shift
  if rec.cls = 0 then s.enqueue mgrRing rec
  else
    let s := s.tally .tly 0 0xB1 (ringQual n) 1 (some n)
    s.setRing n { s.ring n with ovf := stick32 ((s.ring n).ovf + 1) }

/-- A partial write of a control bead's field. -/
def controlField (off v : Nat) : BeadOp := .part (0xF * 2 ^ off) (zeroBytes off ++ leBytes 4 v ++ zeroBytes (60 - off)) false

/-- PRODUCER and OVERFLOW written into a ring's control bead where they are owed; the flag says that nothing is owed any more. What
cannot be written yet is written before the ring's next record (R117, R118, R120). -/
def State.flushRing (s : State) (n : Nat) : State × Bool :=
  let r := s.ring n
  match if r.owedProd then s.innerWrite (ringTag n) r.base (controlField 8 r.prod) else (s, true) with
  | (s, false) => (s, false)
  | (s, true) =>
    let s := s.setRing n { s.ring n with owedProd := false }
    match if r.owedOvf then s.innerWrite (ringTag n) r.base (controlField 12 r.overflow) else (s, true) with
    | (s, false) => (s, false)
    | (s, true) => (s.setRing n { s.ring n with owedOvf := false }, true)

/-- One record written as a full bead, then PRODUCER (R117). -/
def State.putRecord (s : State) (n : Nat) (rec : Record) : State :=
  let r := s.ring n
  let slot := r.base + 64 * (1 + r.prod % r.entries)
  match s.innerWrite (ringTag n) slot (.write (rec.bytes (r.prod / r.entries + 1) r.seq) false) with
  | (s, false) => s
  | (s, true) =>
    let s := s.tally .tly 0 0xB0 (ringQual n)
    ((s.setRing n { (s.ring n).shift with prod := (r.prod + 1) % 2 ^ 32, seq := r.seq + 1, owedProd := true }).flushRing n).1

/-- The first record of a full ring: a fault-class one waits, any other is dropped, OVERFLOW rising (R118). -/
def State.ringFull (s : State) (n : Nat) (rec : Record) : State :=
  if rec.cls = 0 then s
  else
    let r := s.ring n
    let o := stick32 (r.overflow + 1)
    let s := s.setRing n { r.shift with overflow := o, ovf := stick32 (r.ovf + 1), owedOvf := true }
    let s := ((s.tally .tly 0 0xB1 (ringQual n)).flushRing n).1
    if n = mgrRing then s.raise .xlt 0 3 else s

/-- The first record of a ring that cannot be reached. -/
def State.ringGone (s : State) (n : Nat) (rec : Record) : State :=
  if n ≠ mgrRing then s.divert n rec
  else if rec.cls = 0 then s
  else
    let r := s.ring n
    ((s.setRing n { r.shift with ovf := stick32 (r.ovf + 1) }).tally .tly 0 0xB1 1).raise .xlt 0 3

/-- The first record of a ring whose control bead is up to date, written or dropped. `poll`: the control bead is read again. -/
def State.ringNext (s : State) (n : Nat) (poll : Bool) : State :=
  let r := s.ring n
  match r.queue with
  | [] => s
  | rec :: _ =>
    if r.used < r.entries && !poll then s.putRecord n rec
    else match s.readControl n with
      | (s, .wait) => s
      | (s, .poisoned) => s.ringGone n rec
      | (s, .consumer c) =>
        let s := s.setRing n { s.ring n with cons := c }
        if (s.ring n).used < r.entries then s.putRecord n rec else s.ringFull n rec

/-- The first record of a ring written, diverted or dropped, after what its control bead is owed. -/
def State.ringStep (s : State) (n : Nat) (poll : Bool) : State :=
  if !s.ringReach n || s.controlPoisoned n then
    (match (s.ring n).queue with
    | [] => s
    | rec :: _ => s.ringGone n rec)
  else match s.flushRing n with
    | (s, false) => s
    | (s, true) => s.ringNext n poll

/-- RING_RECORD_WRITE. -/
def execRingRecordWrite (ring : Fin 1025) (s : State) : Outcome := .next (s.ringStep ring false)

/-- RING_POLL (R118, R119): RING_POLL_NS after the last look, the control bead of a ring whose first record waits is read again. -/
def execRingPoll (ring : Fin 1025) (s : State) : Outcome :=
  onlyIf ((s.ring ring).queue.any (·.cls == 0)) s fun s =>
    (s.elapse (s.actBits .xlt 0 0x044 15 0)).ringStep ring true

end Sys2Proof.Machine
end

