-- ==== Sys2Proof/Machine/Memory.lean ====
section
/-!
DEFINITION. Memory requests from their acceptance to their completion (R106, R147, R159, R377, R380), and the memory controllers
(06_tiers.md): scheduling, refresh, scrub, self-refresh and training.
-/

namespace Sys2Proof.Machine

/-! ### A request's beads go to memory -/

/-- A translated request starts: a coherent bead at its home, any other at its controller; a WRITEBACK at its line's owner
record. -/
def State.startMem (s : State) (key : Nat) : State :=
  match s.slot? key with
  | none => s
  | some v =>
    let coh := (s.cohAt v.pa).isSome
    let n := v.pkt.beads
    let begin_ (ph : Phase) (s : State) : State := s.setSlot key { v with phase := ph }
    if v.pkt.typ = tWriteback then ((begin_ (.memory 1) s).writeBackLine key { v with phase := .memory 1 })
    else if v.pkt.typ = tReadShared ∨ v.pkt.typ = tReadOwn then
      (begin_ .home s).joinLine (homeOf v.pa) (v.pa / 64) key 0
    else if coh then
      (List.range n).foldl (fun s i => s.joinLine (homeOf v.pa) (v.pa / 64 + i) key i) (begin_ (.memory n) s)
    else
      (List.range n).foldl (fun s i => s.performBead key i) ((begin_ (.memory n) s).takeData key)

/-- A request that missed joins the walk of its page, or starts one (R106). -/
def State.joinWalk (s : State) (key : Nat) (v : InSlot) : State :=
  let page := v.pkt.addr / 0x10000
  let ws := if s.underWalk v.ctx v.pkt.addr then
      s.xlt.walks.map fun w => if w.ctx = v.ctx ∧ w.page = page then { w with slots := w.slots ++ [key] } else w
    else s.xlt.walks ++ [{ ctx := v.ctx, page := page, slots := [key] }]
  { s with xlt := { s.xlt with walks := ws } }

/-- A memory request whose tag has verified. -/
def State.actMemory (s : State) (key : Nat) : State :=
  match s.slot? key with
  | none => s
  | some v =>
    let sub := v.pkt.qual % 4
    if v.pkt.typ = tAtomic ∧ (if sub = 3 then exactAddOk v.pkt.body else atomicOk sub v.pkt.body) = false then
      s.complete key stMalformed
    else if v.phase = .walk then s.joinWalk key v
    else s.startMem key

/-- Rules of a memory request on a port: context 0 is the manager's alone (R100); Table 5.4. -/
def memoryRules (form : Packet → Packet) (eth : Bool) : Rules :=
  { form := form
    sourceOk := fun s p => (match p.sec with | some x => x.keyId != 0 | none => false) || s.fromManager p
    row7 := memoryRow eth }

/-- A memory request arrives. -/
def State.arriveMemory (s : State) (form : Packet → Packet) (port : Fin 16) (p : Packet) : Outcome :=
  .next (s.arrive (memoryRules form (s.portEth port)) port p State.actMemory)

/-- READ. -/
def execRead (port : Fin 16) (p : Packet) (s : State) : Outcome := s.arriveMemory (fun p => p.ofType tRead) port p
/-- READ_SHARED. -/
def execReadShared (port : Fin 16) (p : Packet) (s : State) : Outcome := s.arriveMemory (fun p => p.ofType tReadShared) port p
/-- READ_OWN. -/
def execReadOwn (port : Fin 16) (p : Packet) (s : State) : Outcome := s.arriveMemory (fun p => p.ofType tReadOwn) port p
/-- READ_NOALLOC. -/
def execReadNoalloc (port : Fin 16) (p : Packet) (s : State) : Outcome := s.arriveMemory (fun p => p.ofType tReadNoalloc) port p
/-- WRITE. -/
def execWrite (port : Fin 16) (p : Packet) (s : State) : Outcome := s.arriveMemory (fun p => p.ofType tWrite) port p
/-- WRITE_PARTIAL. -/
def execWritePartial (port : Fin 16) (p : Packet) (s : State) : Outcome := s.arriveMemory (fun p => p.ofType tWritePartial) port p
/-- WRITEBACK. -/
def execWriteback (port : Fin 16) (p : Packet) (s : State) : Outcome := s.arriveMemory (fun p => p.ofType tWriteback) port p
/-- ATOMIC_FETCH_ADD. -/
def execAtomicFetchAdd (port : Fin 16) (p : Packet) (s : State) : Outcome := s.arriveMemory (fun p => p.ofAtomic 0) port p
/-- ATOMIC_SWAP. -/
def execAtomicSwap (port : Fin 16) (p : Packet) (s : State) : Outcome := s.arriveMemory (fun p => p.ofAtomic 1) port p
/-- ATOMIC_CAS. -/
def execAtomicCas (port : Fin 16) (p : Packet) (s : State) : Outcome := s.arriveMemory (fun p => p.ofAtomic 2) port p
/-- EXACT_ADD. -/
def execExactAdd (port : Fin 16) (p : Packet) (s : State) : Outcome := s.arriveMemory (fun p => p.ofAtomic 3) port p

/-! ### Snoops to this module (R460) -/

/-- A snoop passes rows 1 to 6 and completes OK without data, as a cache in I. -/
def State.arriveSnoop (s : State) (typ : Nat) (port : Fin 16) (p : Packet) : Outcome :=
  .next (s.arrive { form := fun p => p.ofType typ } port p fun s key => s.complete key stOk)

/-- SNOOP_INV. -/
def execSnoopInv (port : Fin 16) (p : Packet) (s : State) : Outcome := s.arriveSnoop tSnoopInv port p
/-- SNOOP_SHARE. -/
def execSnoopShare (port : Fin 16) (p : Packet) (s : State) : Outcome := s.arriveSnoop tSnoopShare port p
/-- SNOOP_COPY. -/
def execSnoopCopy (port : Fin 16) (p : Packet) (s : State) : Outcome := s.arriveSnoop tSnoopCopy port p

/-! ### Walks end (R105–R107) -/

/-- A waiting request takes its verdict from the entry a walk filled (Table 5.4, rows 4 to 7). -/
def State.walked (s : State) (key : Nat) (e : LkEntry) : State :=
  match s.slot? key with
  | none => s
  | some v =>
    let st := s.accessRow v.pkt.typ v.pkt.qual v.eth (v.key == .slot e.keysel) e
    if st = stOk then (s.setSlot key { v with ext := some (e.ext, e.gen), pa := e.at_ v.pkt.addr, phase := .unit }).startMem key
    else s.complete key st

/-- WALK_COMPLETE: one of the 128 walks under way ends (the walks beyond them have not begun, R107); its requests take their verdicts in order of arrival. -/
def execWalkComplete (n : Nat) (s : State) : Outcome :=
  match (s.xlt.walks.take 128)[n]? with
  | none => .next s
  | some w =>
    let ended (s : State) : State := { s with xlt := { s.xlt with walks := s.xlt.walks.eraseIdx n } }
    let all (st : Nat) (s : State) : State := w.slots.foldl (fun s k => s.complete k st) (ended s)
    if (s.ctx w.ctx).st ≠ .active then .next (all stContextGone s)
    else match s.walkTables w.ctx (w.page * 0x10000) with
      | (s, .ok e) => .next (w.slots.foldl (fun s k => s.walked k e) ((ended s).fillTlb e))
      | (s, .later) => .next s
      | (s, x) => .next (all x.status s)

/-! ### A bead's operation performed -/

/-- Context a queued request works for. -/
def State.reqCtx (s : State) (r : MemReq) : Option Nat :=
  match r.origin with
  | .slot k _ | .home k _ | .old k _ => (s.slot? k).map (·.ctx)
  | _ => none

/-- A changing operation of a slot's bead is done: an atomic's result and mark go to its completion, the line to the next
request. -/
def State.wrote (s : State) (key idx pa : Nat) (res : List Byte) (bad : Bool) : State :=
  match s.slot? key with
  | none => s.lineDone pa key idx
  | some v =>
    let s := if v.pkt.typ = tAtomic then
        let s := if v.pkt.qual % 4 = 3 then s.tally .kvs 0 0x53 0 1 (some v.ctx) else s
        s.setSlot key { v with data := if res.isEmpty then v.data else res, status := if bad then stPoison else v.status }
      else s
    (s.beadDone key).lineDone pa key idx

/-- A request to a bead goes on after a held write or a rebuild of the bead. -/
def State.goBead (s : State) (key idx : Nat) : State :=
  match s.slot? key with
  | none => s
  | some v =>
    let pa := v.beadPa idx
    if v.pkt.typ = tCmd then s.toCtl pa .read 2 (.slot key idx)
    else if (s.cohAt pa).isSome then (s.performHead key idx).1
    else s.performBead key idx

/-- A held write is written and its bead released (R159, steps 4 and 5); the bead's later requests go on in order. -/
def State.releaseHeld (s : State) (h : HeldWrite) : State :=
  let s := { s with ecc := { s.ecc with held := s.ecc.held.filter fun x => x.pa != h.pa } }
  let d := homeOf h.pa
  let bead := h.pa / 64
  let s := match h.who with
    | some (key, idx) =>
      if key < noKey then s.toCtl h.pa (.write h.data h.poison) 2 (.slot key idx)
      else if key = noKey then s
      else
        let s := s.homeStore h.pa h.data h.poison
        { s with ecc := { s.ecc with wrote := s.ecc.wrote ++ [(key, h.pa, h.data, h.poison)] } }
    | none => (s.homeStore h.pa h.data h.poison).answerStored d bead
  h.behind.foldl (fun s b => s.goBead b.1 b.2) s

/-- The old bead of a held write has been read: the forward is formed and sent (R159, steps 1 and 2). -/
def State.formHeld (s : State) (pa : Nat) (old : List Byte) (bad : Bool) : State :=
  match s.heldAt pa with
  | none => s
  | some h =>
    if h.formed then s
    else
      let op : Option BeadOp := match h.who with
        | none => some (.write h.data h.poison)
        | some (key, idx) => (s.slot? key).map fun v => beadOp v.pkt idx
      match op with
      | none => s.releaseHeld { h with who := some (noKey, 0) }
      | some op =>
        let (new, p, res) := op.apply old bad
        let k := match s.prot? h.ext with | some x => x.k | none => 1
        let h := { h with data := new, poison := p, formed := true, fwd := fwdOf k old new, fwdPoison := p || (2 ≤ k && bad) }
        let s := match h.who with
          | some (key, _) => (match s.slot? key with
            | some v =>
              if v.pkt.typ = tAtomic then s.setSlot key { v with data := res, status := if p then stPoison else v.status } else s
            | none => s)
          | none => s
        let s := s.setHeld h
        if (s.prot? h.ext).any (·.forwards) then
          (match s.sendFwd h with
          | (s, true) => (s.degrade h.ext k 1).releaseHeld h
          | (s, false) => s)
        else s.releaseHeld h

/-- What a read of DRAM gives reaches the request it was made for; a partial write, an atomic or a delta is performed in the
same visit (R125). -/
def State.deliver (s : State) (r : MemReq) (data : List Byte) (poison : Bool) : State :=
  match r.origin with
  | .slot key idx => (match r.op with
    | .read => (s.putBead key idx data poison).beadDone key
    | op =>
      let (new, p, res) := op.apply data poison
      ((s.writeBead r.pa new p).tallyCtl ((windowOf r.pa).getD 0) 0x13 0 (s.reqCtx r)).wrote key idx r.pa res p)
  | .home key idx => s.homeData key idx data poison
  | .old _ _ => s.formHeld r.pa data poison
  | .store => let (new, p, _) := r.op.apply data poison; s.writeBead r.pa new p
  | _ => s

/-! ### Units -/

/-- A read that takes its data from a waiting write (R128). -/
def Unit.forwarded (v : Unit) (r : MemReq) : Option (List Byte × Bool) :=
  match r.op, v.before r with
  | .read, some w => (match w.op with
    | .write d p => if v.writes.any (·.seq == w.seq) then some (d, p) else none
    | _ => none)
  | _, _ => none

/-- A request may be issued: no older request to its bead is waiting or in DRAM (R128). -/
def Unit.ready (v : Unit) (r : MemReq) : Bool :=
  (v.forwarded r).isSome || ((v.before r).isNone && !(v.dram.any fun x => x.pa == r.pa))

/-- A forward for a bead under reconstruction or rebuild waits until the result has been formed (R160), and every request for a bead
that is being repaired until it is back (R162). -/
def State.reqBlocked (s : State) (r : MemReq) : Bool :=
  s.gathered r.pa ||
    (match r.origin with
    | .slot key _ => (s.slot? key).any fun v => v.pkt.typ == tCmd && v.pkt.opcode == 0x90 && (v.ext.any fun x =>
        (s.gatherAt x.1 (r.pa - (s.extent x.1).base)).isSome)
    | _ => false)

/-- A request may be issued now. -/
def State.reqReady (s : State) (v : Unit) (r : MemReq) : Bool := v.ready r && !s.reqBlocked r

/-- A request to an open row. -/
def Unit.hits (v : Unit) (c : Nat) (r : MemReq) : Bool :=
  let o := ctlOffset r.pa
  (v.forwarded r).isSome || tblGet? v.row (bankIn c o) == some (rowIn c o)

/-- Order of issue (R127, R129, R130): a lower number first. -/
def Unit.rank (v : Unit) (c : Nat) (drain : Bool) (r : MemReq) : Nat :=
  let hit := if v.hits c r then 0 else 1
  if r.cls = 0 then r.seq
  else ((if drain && r.isWrite then 1 else 2) * 16 + r.cls * 2 + hit) * 2 ^ 64 + r.seq

/-- WR_HI and WR_LO. -/
def State.wrHi (s : State) (c : Nat) : Nat := s.actBits (ctlPage c).1 (ctlPage c).2 0x040 15 8
def State.wrLo (s : State) (c : Nat) : Nat := s.actBits (ctlPage c).1 (ctlPage c).2 0x040 7 0

/-- Whether the unit is in write drain now (R129). -/
def State.drains (s : State) (c : Nat) (v : Unit) : Bool :=
  let w := v.writes.length
  s.wrHi c ≤ w || !(v.reads.any (s.reqReady v)) || (v.drain && s.wrLo c < w)

/-- The request a unit of controller `c` issues next: at T2 and T3 one from outside only by the rate of R132. -/
def State.pick (s : State) (c u : Nat) (v : Unit) : Option MemReq :=
  let drain := s.drains c v
  leastBy (v.rank c drain) (v.seen.filter fun r =>
    s.reqReady v r && (drain || !r.isWrite || r.cls == 0) && (r.own || s.mayIssue c u))

/-- A controller enters ENTERING: its dirty metadata beads are written back (R125). -/
def State.enterSr (s : State) (c : Nat) : State :=
  let s := ((s.ctlAt c).mdc.filter (·.2)).foldl (fun s m => s.metaAccess c m.1 true none) s
  let v := s.ctlAt c
  s.setCtl c { v with st := .entering, since := s.time, wake := false, deferred := false, mdc := v.mdc.map fun m => (m.1, false) }

/-- Under SR_FORCE a controller whose queues are empty enters self-refresh (R135). -/
def State.forceSr (s : State) (c : Nat) : State :=
  let v := s.ctlAt c
  if s.srForced c && v.st == .active && v.tracking.isNone && v.empty then s.enterSr c else s

/-- After a request has left: the time since when the controller holds none (R134), and entry under SR_FORCE. -/
def State.settle (s : State) (c : Nat) : State :=
  let v := s.ctlAt c
  if v.empty then (s.setCtl c { v with idleSince := s.time }).forceSr c else s

/-! ### A controller in FAILED (R137, R162) -/

/-- A queued request answered without an access to DRAM. -/
def State.failReq (s : State) (r : MemReq) : State :=
  let poisoned (key idx : Nat) (s : State) : State :=
    match s.slot? key with
    | none => s.lineDone r.pa key idx
    | some v => ((s.setSlot key { v with status := stPoison, data := [] }).beadDone key).lineDone r.pa key idx
  match r.origin, r.op with
  | .slot _ _, .read | .home _ _, _ => (match s.protectedAt r.pa with
    | some ext => s.gatherOwn ext r.pa (.repair r false)
    | none => s.deliver r (zeroBytes 64) true)
  | .slot key idx, _ => poisoned key idx s
  | .old _ _, _ => (match s.heldAt r.pa with
    | none => s
    | some h =>
      let s := { s with ecc := { s.ecc with held := s.ecc.held.filter fun x => x.pa != h.pa } }
      let s := match h.who with
        | some (key, idx) => poisoned key idx s
        | none => s.answerStored (homeOf h.pa) (h.pa / 64)
      h.behind.foldl (fun s b => s.goBead b.1 b.2) s)
  | _, _ => s

/-- The oldest queued request of a unit of a FAILED controller is answered. -/
def State.failSlot (s : State) (c u : Nat) : State :=
  let v := s.unitAt c u
  match leastBy (·.seq) (v.reads ++ v.writes) with
  | none => s
  | some r => ((s.setUnit c u (v.without r s.time)).failReq r).settle c

/-! ### A command slot (R127) -/

/-- A refresh of a bank issued: its debt falls and its row closes. -/
def State.refreshBank (s : State) (c u bank : Nat) (forced : Bool) : State :=
  let v := s.unitAt c u
  let s := s.setUnit c u { v with debt := tblPut v.debt bank (tblGet v.debt bank 0 - 1), row := tblDel v.row bank }
  if forced then
    let k := s.ctlAt c
    (s.setCtl c { k with forced := min 0xFFFF (k.forced + 1) }).tallyCtl c 0x16 0
  else s.tallyCtl c 0x15 0

/-- Bytes of DRAM a controller scrubs: the populated length, and in a far group every data row (R148). -/
def scrubBytes (c : Nat) : Nat := if c < 4 then 17166 * 0x200000 else (farRows / 9 * 8 + farRows % 9) * 0x80000

/-- The scrub period, ns. -/
def State.scrubPeriod (s : State) : Nat := s.actBits .ecc 0 0x040 31 16 * 60000000000

/-- The scrub read of a unit, if its turn has come: the pass is paced evenly over the period. -/
def State.queueScrub (s : State) (c u : Nat) : State :=
  let k := s.ctlAt c
  let v := s.unitAt c u
  let due := k.scrubAt + s.scrubPeriod * k.scrubPos / scrubBytes c
  let pa := windowBase c + k.scrubPos
  let under := (v.seen ++ v.beam ++ v.dram).any fun r => r.origin == .scrub
  if k.st == .active && !k.scrubDone && s.inService && unitIn c k.scrubPos == u && decide (due ≤ s.time) && !under then
    s.toCtl pa .read 3 .scrub
  else s

/-- The scrub pass goes on to the next bead. -/
def State.scrubbed (s : State) (c : Nat) : State :=
  let k := s.ctlAt c
  if k.scrubPos + 64 < scrubBytes c then s.setCtl c { k with scrubPos := k.scrubPos + 64 }
  else s.setCtl c { k with scrubPos := 0, scrubDone := true, scrubPasses := min 0x7FFF (k.scrubPasses + 1) }

/-- The request picked is issued: a read goes to DRAM, a write takes effect. A far-tier bead whose metadata is not cached first has
it read (R125). -/
def State.issueReq (s : State) (c u : Nat) (r : MemReq) : State :=
  let v := s.unitAt c u
  let o := ctlOffset r.pa
  let ctx := s.reqCtx r
  match v.forwarded r with
  | some (d, p) =>
    let s := (s.setUnit c u (v.without r s.time)).tallyCtl c 0x18 r.cls ctx
    if r.origin = .scrub then (s.scrubbed c).settle c else (s.deliver r d p).settle c
  | none =>
    if !s.metaHit c o then s.fetchMeta c o ctx
    else
      let s := if r.own || s.memRate == 4 then s else s.spendCredit c u
      let s := (s.touchBead c r.pa r.cls r.op.writes ctx).tallyCtl c (if r.isWrite then 0x13 else 0x12) 0 ctx
      let v := (s.unitAt c u).without r s.time
      match r.op with
      | .write d p =>
        let s := (s.setUnit c u v).writeBead r.pa d p
        (match r.origin with
        | .slot key idx => s.wrote key idx r.pa [] p
        | _ => s).settle c
      | _ => s.setUnit c u { v with dram := v.dram ++ [r] }

/-- A bank that a refresh may be placed into: with debt, and no queued request. -/
def Unit.idleBank (v : Unit) (c : Nat) : Option Nat :=
  let due := v.debt.filter fun b => 0 < b.2 && !(v.seen.any fun r => bankIn c (ctlOffset r.pa) == b.1)
  (due.foldl (fun m x => match m with | none => some x | some y => if y.2 < x.2 then some x else some y)
    (none : Option (Nat × Nat))).map (·.1)

/-- What a command slot issues. -/
def State.commandSlot (s : State) (c u : Nat) : State :=
  let s := (s.queueScrub c u).slotCredit c u
  let v := s.unitAt c u
  match v.debt.find? fun b => 4 ≤ b.2 with
  | some b => s.refreshBank c u b.1 true
  | none =>
    let next := s.pick c u v
    let s := s.setUnit c u { v with drain := s.drains c v }
    match next with
    | some r => s.issueReq c u r
    | none => match v.idleBank c with
      | some b => s.refreshBank c u b false
      | none => s

/-- SCHEDULER_SLOT. -/
def execSchedulerSlot (c : Fin 12) (unit : Fin 32) (s : State) : Outcome :=
  let st := (s.ctlAt c).st
  if (unitCount c ≤ unit.val || !s.ctlOk c || !s.clocked (ctlPage c).1 (ctlPage c).2) = true then .next s
  else if st = .failed then .next (s.failSlot c unit)
  else onlyIf (!s.outOfService c (channelOf c unit)) s fun s => s.commandSlot c unit

/-- AGE_LIMIT_NS. -/
def State.ageLimit (s : State) (c : Nat) : Nat := s.actBits (ctlPage c).1 (ctlPage c).2 0x040 31 16

/-- Promotion of a request and every older one to its bead (R128, R130). -/
def Unit.promote (v : Unit) (r : MemReq) : Unit :=
  let up (x : MemReq) : MemReq := if x.pa = r.pa ∧ x.seq ≤ r.seq then { x with cls := 0 } else x
  { v with reads := v.reads.map up, writes := v.writes.map up }

/-- AGE_PROMOTE (R130): AGE_LIMIT_NS after its arrival, the oldest request not yet promoted goes to SC0. -/
def execAgePromote (c : Fin 12) (unit : Fin 32) (s : State) : Outcome :=
  let v := s.unitAt c unit
  match leastBy (·.seq) (v.seen.filter fun r => r.cls != 0) with
  | none => .next s
  | some r =>
    let s := s.elapseTo (r.at_ + s.ageLimit c)
    .next (s.setUnit c unit (v.promote r))

/-- DRAM_READ_DONE: the oldest read of a unit returns and is decoded (R144–R146); an uncorrectable bead of a protected extent
is gathered from its partners (R162). -/
def execDramReadDone (c : Fin 12) (unit : Fin 32) (errs : List (Fin 36 × BitVec 16)) (s : State) : Outcome :=
  let v := s.unitAt c unit
  match v.dram with
  | [] => .next s
  | r :: t =>
    let s := s.setUnit c unit { v with dram := t }
    if (s.ctlAt c).st = .failed then .next ((s.failReq r).settle c)
    else
      let s := if r.origin = .scrub then s.scrubbed c else s
      (match s.readOut r.pa (errs.map fun e => (e.1.val, e.2.toNat)) with
      | (s, .data d p) => .next ((s.deliver r d p).settle c)
      | (s, .repair) => .next (((match s.protectedAt r.pa with
        | some ext => s.gatherOwn ext r.pa (.repair r true)
        | none => s)).settle c))

/-- REFRESH_DUE (R133): a bank's debt rises; at 4 its refresh is forced. A controller in self-refresh or FAILED refreshes
nothing itself. -/
def execRefreshDue (c : Fin 12) (unit : Fin 32) (bank : Fin 64) (s : State) : Outcome :=
  let k := s.ctlAt c
  let v := s.unitAt c unit
  let d := min 4 (tblGet v.debt bank 0 + 1)
  onlyIf (decide (unit.val < unitCount c) && decide (bank.val < bankCount c) && s.ctlOk c && k.st != .selfRefresh && k.st != .failed)
    s fun s =>
      let s := s.setUnit c unit { v with debt := tblPut v.debt bank d }
      let k := s.ctlAt c
      let s := s.setCtl c { k with debtMax := max k.debtMax d }
      if d = 4 then s.raiseCtl c 2 else s

/-- SCRUB_PERIOD_END (R148, R149): the next pass starts, and the counts of rows restart. -/
def execScrubPeriodEnd (c : Fin 12) (s : State) : Outcome :=
  let k := s.ctlAt c
  onlyIf (s.inService && s.ctlOk c && k.st != .failed) s fun s =>
    let s := s.elapseTo (k.scrubAt + s.scrubPeriod)
    let s := if k.scrubDone then s else s.raise .ecc 0 5
    s.setCtl c { s.ctlAt c with scrubPos := 0, scrubDone := false, scrubAt := s.time, ceRows := [] }

/-! ### Self-refresh (R134, R135) -/

/-- SR_IDLE_US. -/
def State.srIdleUs (s : State) (c : Nat) : Nat := s.actBits (ctlPage c).1 (ctlPage c).2 0x044 31 16

/-- Scrub and training that a stay of SR_MAX_MS in self-refresh deferred are still to be done (R134). -/
def State.owesWork (s : State) (c : Nat) : Bool :=
  let v := s.ctlAt c
  v.deferred && (decide (v.nextTrack ≤ s.time) || v.trackCh != 0 || !v.trackDue.isEmpty ||
    (!v.scrubDone && decide (v.scrubAt + s.scrubPeriod * v.scrubPos / scrubBytes c ≤ s.time)))

/-- SR_IDLE_ENTER: SR_IDLE_US without a request and with the deferred work done, or SR_FORCE with the queues empty. -/
def execSrIdleEnter (c : Fin 12) (s : State) : Outcome :=
  let v := s.ctlAt c
  if !(s.ctlOk c && v.st == .active && v.tracking.isNone && v.empty) then .next s
  else if s.srForced c then .next (s.enterSr c)
  else
    let t := s.elapseTo (v.idleSince + us (s.srIdleUs c))
    onlyIf (s.srIdleUs c != 0 && !t.owesWork c) s fun _ => t.enterSr c

/-- SR_ENTRY_DONE: every channel is in self-refresh; a request that arrived meanwhile ends it at once. -/
def execSrEntryDone (c : Fin 12) (s : State) : Outcome :=
  let v := s.ctlAt c
  onlyIf (v.st == .entering) s fun s =>
    s.setCtl c { v with st := if v.wake && !s.srForced c then .exiting else .selfRefresh, since := s.time
                        units := tblMap v.units fun _ u => { u with row := [], debt := [] } }

/-- SR_EXIT_DONE: the controller serves again. -/
def execSrExitDone (c : Fin 12) (s : State) : Outcome :=
  let v := s.ctlAt c
  onlyIf (v.st == .exiting) s fun s => ((s.setCtl c { v with st := .active, wake := false, since := s.time }).nextTracking c).forceSr c

/-- SR_MAX_EXPIRY: after SR_MAX_MS the controller leaves for its deferred work; SR_FORCE holds it. -/
def execSrMaxExpiry (c : Fin 12) (s : State) : Outcome :=
  let v := s.ctlAt c
  onlyIf (v.st == .selfRefresh && !s.srForced c) s fun s =>
    let s := s.elapseTo (v.since + ms (s.actBits (ctlPage c).1 (ctlPage c).2 0x044 15 0))
    (s.setCtl c { s.ctlAt c with st := .exiting, since := s.time, deferred := true }).raiseCtl c 3

/-- A write of NMC_CTRL or FMC_CTRL (R135): SR_FORCE enters self-refresh once the queues are empty, and its clearing releases
it. -/
def State.writeSrForce (s : State) (c : Nat) (w : Word) : State :=
  let s := s.setReg (pageBase (ctlPage c).1 (ctlPage c).2 + 0x800) (w &&& 1)
  let v := s.ctlAt c
  if wbit w 0 then (if s.ctlOk c then s.forceSr c else s)
  else if v.st = .selfRefresh then s.setCtl c { v with st := .exiting, since := s.time }
  else if v.st = .entering then s.setCtl c { v with wake := true }
  else s

/-! ### Training in service (R136, R137) -/

/-- TRACKING_STEP: every TRAIN_PERIOD_MS one step on each channel in turn, from channel 0 to 15; deferred while the controller is in
self-refresh. -/
def execTrackingStep (c : Fin 12) (ch : Fin 16) (s : State) : Outcome :=
  let v := s.ctlAt c
  onlyIf (s.ctlOk c && v.st == .active && v.tracking.isNone && v.trackCh == ch.val) s fun s =>
    let s := if ch.val = 0 then s.elapseTo v.nextTrack else s
    let period := ms (s.actBits (ctlPage c).1 (ctlPage c).2 0x048 31 16)
    (s.setCtl c { s.ctlAt c with
      trackCh := (ch.val + 1) % 16, nextTrack := if ch.val = 0 then s.time + period else v.nextTrack }).startTracking c ch

/-- TRAIN_DELTA_C. -/
def State.trainDelta (s : State) (c : Nat) : Nat := s.actBits (ctlPage c).1 (ctlPage c).2 0x048 15 8

/-- FULL_RETRAIN_START: the controller's DRAM reads `temp`; a channel whose temperature has moved TRAIN_DELTA_C since its last
full training enters RETRAIN. -/
def execFullRetrainStart (c : Fin 12) (ch : Fin 16) (temp : Int) (s : State) : Outcome :=
  let v := s.ctlAt c
  let moved := match tblGet? v.trainedAt ch with
    | some t => decide (s.trainDelta c ≤ (temp - t).natAbs)
    | none => true
  let v := { v with temp := temp, ref2x := decide (85 < temp) }
  onlyIf (s.ctlOk c && v.st != .failed && v.st != .selfRefresh) s fun s =>
    if moved && v.st == .active && v.tracking.isNone then
      s.setCtl c { v with st := .retrain, retrainCh := ch, run := 1, since := s.time }
    else s.setCtl c v

/-- A controller goes out of service (R137). -/
def State.failController (s : State) (c ch : Nat) : State :=
  let s := s.setCtl c { s.ctlAt c with st := .failed, tracking := none, trackDue := [], since := s.time }
  (s.raiseCtl c 0).postMgr { typ := 0x0005, cls := 1, source := 0x4000 + c, detail := detail [(0, leBytes 2 c), (2, [byte ch])] }

/-- RETRAIN_DONE (R137): a run ends; a failed one is repeated at most twice. -/
def execRetrainDone (c : Fin 12) (ok : Bool) (s : State) : Outcome :=
  let v := s.ctlAt c
  let ch? := if v.st = .retrain then some v.retrainCh else v.tracking
  match ch? with
  | none => .next s
  | some ch =>
    if ok then
      if v.st = .retrain then
        .next (((s.setCtl c { v with st := .active, retrains := min 0xFFFF (v.retrains + 1), since := s.time
                                     trainedAt := tblPut v.trainedAt ch v.temp }).nextTracking c).forceSr c)
      else .next (((s.setCtl c { v with tracking := none }).nextTracking c).forceSr c)
    else if v.run < 3 then
      .next ((s.setCtl c { v with run := v.run + 1, retries := min 0xFF (v.retries + 1), lastFailCh := ch }).raiseCtl c 1)
    else .next ((s.setCtl c { v with lastFailCh := ch }).failController c ch)

end Sys2Proof.Machine
end

