-- ==== Sys2Proof/Machine/Stripe.lean ====
section
/-!
DEFINITION. Protection across modules as the partner commands act (R158–R165): forwards, member reads, reconstruction, rebuild,
the reload of a descriptor and the loss of a member. The bodies' byte layout is assumption 36.
-/

namespace Sys2Proof.Machine

/-! ### Bodies -/

/-- EXTENT_ID, GEN, number of beads and byte offset of a partner command. -/
def parExt (p : Packet) : Nat := field p.own 0 2
def parGen (p : Packet) : Nat := field p.own 2 2
def parBeads (p : Packet) : Nat := field p.own 4 1
def parOff (p : Packet) : Nat := field p.own 8 8

/-- POISON flags of a PROT_FWD, a bit a bead; the data of bead `i`. -/
def parFlag (p : Packet) (i : Nat) : Bool := bit (field p.own 5 1) i
def parData (p : Packet) (i : Nat) : List Byte := (p.own.drop (16 + 64 * i)).take 64

/-- Lost position and member form of a RECON_READ. -/
def parLost (p : Packet) : Nat := field p.own 5 1
def parMember (p : Packet) : Bool := field p.own 6 1 == 1

/-- The body of a partner command is well formed: 1 to 4 beads, aligned. -/
def parShape (p : Packet) : Bool :=
  let n := parBeads p
  1 ≤ n && n ≤ 4 && parOff p % 64 == 0 &&
    (if p.opcode = 0x90 then parFlag p 4 == false && field p.own 5 1 < 16 && zeros p.own 6 2 && p.own.length == 16 + 64 * n
     else if p.opcode = 0x91 then zeros p.own 5 3 && p.own.length == 16
     else field p.own 6 1 < 2 && zeros p.own 7 1 && p.own.length == 16)

/-- The three conditions of R158. -/
def State.partnerOk (s : State) (p : Packet) : Bool :=
  let e := s.extent (parExt p)
  e.st == .active && e.gen == parGen p && (match s.prot? (parExt p) with
    | some r => r.members.any fun m => m.ep == p.srcEp
    | none => false)

/-- Rules of a partner command. -/
def partnerRules (op : Nat) : Rules := { form := fun p => p.ofCmd op, sourceOk := fun _ p => p.context != 0 }

/-- Checks of an accepted partner command: its shape, its context, and the conditions of R158, which a RECON_READ by VA does
not name. -/
def State.partnerCheck (s : State) (v : InSlot) : Nat :=
  if parShape v.pkt = false then stMalformed
  else if (s.ctx v.ctx).st ≠ .active then stContextGone
  else if v.pkt.opcode = 0x92 ∧ parMember v.pkt = false then stOk
  else if s.partnerOk v.pkt = false then stRevoked
  else stOk

/-- The extent and address of an accepted partner command noted in its slot. -/
def State.partnerSlot (s : State) (v : InSlot) : InSlot :=
  { v with ext := some (parExt v.pkt, parGen v.pkt), pa := (s.extent (parExt v.pkt)).base + parOff v.pkt
           phase := .memory (parBeads v.pkt) }

/-- The beads of an accepted partner command lie in its extent. -/
def State.parInside (s : State) (ext off n : Nat) : Bool := decide (off + 64 * n ≤ (s.extent ext).bytes)

/-! ### A bead becomes current at a replacement (R164) -/

/-- The first bytes of the extent that are not current, once `next` has passed the beads made current out of order. -/
def advance (current : List Nat) (next : Nat) : (fuel : Nat) → List Nat × Nat
  | 0 => (current, next)
  | fuel + 1 => if current.contains next then advance (current.erase next) (next + 64) fuel else (current, next)

/-- A replacement whose every bead is current returns to NORMAL and posts REBUILD_DONE. -/
def State.rebuildDone (s : State) (ext : Nat) (p : Prot) : State :=
  let e := s.extent ext
  let r : Record := { typ := 0x0025, cls := 2, source := 0x4000, ctx := e.owner, ext := ext, gen := e.gen
                      detail := detail [(0, leBytes 4 e.len2m)] }
  ((s.setProt ext { p with st := .normal, replacement := false, current := [] }).post e.owner r).postMgr r

/-- A survivor's bead read by a partner while the stripe is under rebuild: with every bead read since the RELOAD the rebuild is taken
as complete and the member returns to NORMAL (R164, assumption 56). -/
def State.servedBead (s : State) (ext off : Nat) : State :=
  match s.prot? ext with
  | none => s
  | some p =>
    if p.st = .rebuilding ∧ p.replacement = false ∧ p.next ≤ off ∧ p.current.contains off = false then
      let (c, n) := advance (off :: p.current) p.next (p.current.length + 2)
      s.setProt ext (if (s.extent ext).bytes ≤ n then { p with st := .normal, current := [], next := 0 }
        else { p with current := c, next := n })
    else s

/-- A bead of a replacement is current. -/
def State.makeCurrent (s : State) (ext off : Nat) : State :=
  match s.prot? ext with
  | none => s
  | some p =>
    if p.missing off then
      let (c, n) := advance (off :: p.current) p.next (p.current.length + 2)
      let p := { p with current := c, next := n }
      if (s.extent ext).bytes ≤ n then s.rebuildDone ext p else s.setProt ext p
    else s

/-! ### PROT_FWD (R159, R160) -/

/-- One bead of a PROT_FWD at position K. -/
def State.fwdBead (s : State) (key idx : Nat) : State :=
  match s.slot? key with
  | none => s
  | some v =>
    let ext := parExt v.pkt
    match s.prot? ext with
    | none => s.beadDone key
    | some p =>
      let off := parOff v.pkt + 64 * idx
      let pa := v.beadPa idx
      let d := parData v.pkt idx
      let q := parFlag v.pkt idx
      if p.k = 1 ∧ p.missing off then (s.makeCurrent ext off).toCtl pa (.write d q) 2 (.slot key idx)
      else match s.gatherAt ext off with
        | some g => s.setGather { g with fwds := g.fwds ++ [key] }
        | none =>
          if p.missing off then s.beadDone key
          else s.toCtl pa (if p.k = 1 then .write d q else .delta d q) 2 (.slot key idx)

/-- A PROT_FWD accepted. -/
def State.actProtFwd (s : State) (key : Nat) : State :=
  match s.slot? key with
  | none => s
  | some v =>
    let ext := parExt v.pkt
    let n := parBeads v.pkt
    s.ifOk key (s.partnerCheck v) fun s =>
      if !s.parInside ext (parOff v.pkt) n then s.complete key stMalformed
      else if !((s.prot? ext).any fun p => p.pos == p.k) then s.complete key stRevoked
      else (List.range n).foldl (fun s i => s.fwdBead key i) (s.setSlot key (s.partnerSlot v))

/-- PROT_FWD. -/
def execProtFwd (port : Fin 16) (p : Packet) (s : State) : Outcome := .next (s.arrive (partnerRules 0x90) port p State.actProtFwd)

/-! ### MEMBER_READ (R160) -/

/-- A MEMBER_READ accepted: memory's copy of each bead, a held write not yet in it. -/
def State.actMemberRead (s : State) (key : Nat) : State :=
  match s.slot? key with
  | none => s
  | some v =>
    let ext := parExt v.pkt
    let n := parBeads v.pkt
    let v' := s.partnerSlot v
    s.ifOk key (s.partnerCheck v) fun s =>
      if !s.parInside ext (parOff v.pkt) n then s.complete key stMalformed
      else (List.range n).foldl (fun s i =>
        if (s.prot? ext).any fun p => p.missing (parOff v.pkt + 64 * i) then s.waitRebuild ext (v'.beadPa i) key i
        else (s.toCtl (v'.beadPa i) .read 2 (.slot key i)).servedBead ext (parOff v.pkt + 64 * i)) (s.setSlot key v')

/-- MEMBER_READ. -/
def execMemberRead (port : Fin 16) (p : Packet) (s : State) : Outcome :=
  .next (s.arrive (partnerRules 0x91) port p State.actMemberRead)

/-! ### Gathers end (R162) -/

/-- The bead of a gather's result is written back here, and BEAD_REPAIRED posted. A bead that could not be repaired is poisoned, which
is an uncorrectable error as on an unprotected bead (R146, R162; assumption 157). -/
def State.repaired (s : State) (pa : Nat) (g : Gather) (back : Bool) : State :=
  if back then
    let s := s.writeBead pa g.acc g.poison
    if g.poison then (s.countUe ((windowOf pa).getD 0) pa).rebuildLine pa
    else (s.bump 0x80814).postMgr { typ := 0x0022, cls := 2, source := 0x4000
                                    detail := detail [(8, leBytes 8 pa), (16, [byte g.read])] }
  else s

/-- A gather has its result, and is taken out: what wanted the bead goes on, then the forwards that waited, then the requests. -/
def State.finishGather (s : State) (g : Gather) : State :=
  let s := { s with ecc := { s.ecc with gathers := s.ecc.gathers.filter fun x => !(x.ext == g.ext && x.off == g.off && x.want == g.want) } }
  let pa := (s.extent g.ext).base + g.off
  let s := match g.want with
    | .repair r back => (s.repaired pa g back).deliver r g.acc g.poison
    | .inner tag back =>
      if back then s.repaired pa g true
      else
        let d := homeOf pa
        let v := s.slice d
        s.setSlice d { v with copies := (tag, pa / 64, g.acc, g.poison) :: v.copies }
    | .recon key idx => (s.putBead key idx g.acc g.poison).beadDone key
    | .rebuild =>
      if (s.prot? g.ext).any fun p => p.missing g.off then (s.writeBead pa g.acc g.poison).makeCurrent g.ext g.off else s
  let s := g.fwds.foldl (fun s key => match s.slot? key with
    | some v => s.fwdBead key ((g.off - parOff v.pkt) / 64)
    | none => s) s
  g.waiters.foldl (fun s w => s.goBead w.1 w.2) s

/-- A gather with nobody left to ask or to hear from has its result. -/
def State.tryFinish (s : State) (ext off : Nat) (want : GatherFor) : State :=
  match s.ecc.gathers.find? fun g => g.ext == ext && g.off == off && g.want == want with
  | none => s
  | some g => if g.ask.isEmpty && g.awaited.isEmpty then s.finishGather g else s

/-- A member has answered a MEMBER_READ or RECON_READ of a gather: an answer without the bead leaves the result poisoned. -/
def State.gatherAnswer (s : State) (out status : Nat) (data : List Byte) (poison : Bool) : State :=
  match s.ecc.gathers.find? fun g => g.awaited.contains out with
  | none => s
  | some g =>
    let good := (status = stOk ∨ status = stPoison) ∧ data.length = 64
    let g := { g with awaited := g.awaited.erase out, acc := if good then xorBytes g.acc data else g.acc
                      poison := g.poison || poison || status == stPoison || !good }
    let s := if g.ask.isEmpty then s.setGather g else s.askMembers g g.ask.length
    s.tryFinish g.ext g.off g.want

/-- RECON_TIMEOUT (R162): RECON_TIMEOUT_US after a gather began, a member still silent leaves the bead poisoned. -/
def execReconTimeout (n : Nat) (s : State) : Outcome :=
  match s.ecc.gathers[n]? with
  | none => .next s
  | some g =>
    if g.ask.isEmpty && g.awaited.isEmpty then .next (s.finishGather g)
    else
      let s := s.elapseTo (g.startAt + us (s.actBits .ecc 0 0x044 15 0))
      .next (s.finishGather { g with ask := [], awaited := [], poison := true })

/-! ### RECON_READ (R162, R163) -/

/-- The extent and byte offset a RECON_READ names: by a member, or by a VA of the requester's context. -/
def State.reconTarget (s : State) (v : InSlot) : State × (Nat × Nat ⊕ Nat) :=
  if parMember v.pkt then (s, .inl (parExt v.pkt, parOff v.pkt))
  else match s.innerWalk s.xlt.tlb v.ctx (parOff v.pkt) true with
    | (s, .ok e, walked) =>
      let s := if walked then s.fillTlb e else s
      let st := s.extent e.ext
      if st.st ≠ .active ∨ st.gen ≠ e.gen then (s, .inr stRevoked)
      else if !e.r then (s, .inr stPermission)
      else (s, .inl (e.ext, e.at_ (parOff v.pkt) - st.base))
    | (s, x, _) => (s, .inr x.status)

/-- Deltas of a bead that have gone to DRAM and are not performed go back to the head of their queue: while the bead is Gathering
they wait for its result (R160). -/
def State.recallDeltas (s : State) (pa : Nat) : State :=
  match windowOf pa with
  | none => s
  | some c =>
    let u := unitIn c (ctlOffset pa)
    let v := s.unitAt c u
    let mine (r : MemReq) : Bool := r.pa == pa / 64 * 64 && (match r.op with | .delta _ _ => true | _ => false)
    s.setUnit c u { v with dram := v.dram.filter fun r => !mine r, reads := v.dram.filter mine ++ v.reads }

/-- The bead of a RECON_READ gathered: this member's own first, and rebuilt from the others where it cannot be read (R162). -/
def State.reconGather (s : State) (key idx ext off lost : Nat) (p : Prot) : State :=
  let pa := (s.extent ext).base + off
  let want := GatherFor.recon key idx
  match if s.ctlFailed pa then (s, ReadOut.repair) else s.readOut pa [] with
  | (s, .data d q) =>
    (s.startGather ext off lost want ((List.range p.k).filter (· != lost)) d (q || p.missing off)).tryFinish ext off want
  | (s, .repair) =>
    let s := (s.startGather ext off lost want [lost] (zeroBytes 64) (p.missing off)).tryFinish ext off want
    if s.ctlFailed pa then s
    else s.gatherOwn ext pa (.repair { pa := pa, op := .read, cls := 2, at_ := s.time, seq := 0, origin := .discard } true)

/-- One bead of a RECON_READ: this position's own bead, and every surviving data member's but the lost one's. Where the own bead is
uncorrectable its repair from every data member starts (R162), and what the lost position's own member still holds is asked for,
since the repaired parity would give nothing else. -/
def State.reconBead (s : State) (key idx ext off lost : Nat) (p : Prot) : State :=
  ((s.recallDeltas ((s.extent ext).base + off)).servedBead ext off).reconGather key idx ext off lost p

/-- A RECON_READ accepted, at position K of a stripe of two or more data members. -/
def State.actReconRead (s : State) (key : Nat) : State :=
  match s.slot? key with
  | none => s
  | some v =>
    let n := parBeads v.pkt
    s.ifOk key (s.partnerCheck v) fun s => match s.reconTarget v with
      | (s, .inr st) => s.complete key st
      | (s, .inl (ext, off)) => (match s.prot? ext with
        | none => s.complete key stMalformed
        | some p =>
          let v := { v with ext := some (ext, (s.extent ext).gen), pa := (s.extent ext).base + off, phase := .memory n }
          if !(p.pos == p.k && 2 ≤ p.k && decide (parLost v.pkt < p.k) && s.parInside ext off n) then s.complete key stMalformed
          else (List.range n).foldl (fun s i => s.reconBead key i ext (off + 64 * i) (parLost v.pkt) p) (s.setSlot key v))

/-- RECON_READ. -/
def execReconRead (port : Fin 16) (p : Packet) (s : State) : Outcome :=
  .next (s.arrive (partnerRules 0x92) port p State.actReconRead)

/-! ### Forwards (R159, R161) -/

/-- Every held write of an extent whose position K is lost goes on. -/
def State.releaseLost (s : State) (ext : Nat) : State :=
  (s.ecc.held.filter fun h => h.ext == ext && h.formed).foldl (fun s h => s.releaseHeld h) s

/-- A forward completes (R159): OK writes the bead, TIMEOUT and LINK_DOWN leave it to be sent again, a refusal makes the extent
DEGRADED. -/
def State.fwdAnswer (s : State) (out status : Nat) : State :=
  match s.ecc.held.find? fun h => h.out == some out with
  | none => s
  | some h =>
    if status = stOk then s.releaseHeld h
    else if retryable status then s.setHeld { h with out := none, lastSent := s.time }
    else
      let k := match s.prot? h.ext with | some p => p.k | none => 1
      (s.degrade h.ext k 1).releaseLost h.ext

/-- PROT_FWD_RESEND: 10 µs after a forward that did not get through, it is sent again. -/
def execProtFwdResend (n : Nat) (s : State) : Outcome :=
  match s.ecc.held[n]? with
  | none => .next s
  | some h =>
    onlyIf (h.formed && h.out.isNone && (s.prot? h.ext).any (·.forwards)) s fun s =>
      match (s.elapseTo (h.lastSent + us 10)).sendFwd h with
      | (s, true) =>
        let k := match s.prot? h.ext with | some p => p.k | none => 1
        (s.degrade h.ext k 1).releaseLost h.ext
      | (s, false) => s

/-- An endpoint declared dead (R161): every extent with a member there is DEGRADED with that position lost. -/
def State.protDead (s : State) (ep : Nat) : State :=
  (s.ecc.prots.map (·.1)).foldl (fun s ext => match s.prot? ext with
    | none => s
    | some p =>
      let js := (List.range (p.k + 1)).filter fun j => j != p.pos && (p.member j).ep == ep
      let s := js.foldl (fun s j => s.degrade ext j 0) s
      if js.contains p.k then s.releaseLost ext else s) s

/-! ### Reload and rebuild (R157, R164) -/

/-- The position of this module's extent in a descriptor. -/
def State.ownPosition (s : State) (ms : List Member) (ext : Nat) : Option Nat :=
  let e := s.extent ext
  let j := ms.findIdx fun m => m.ep == s.ep && m.ext == ext && m.gen == e.gen && m.ctx == e.owner
  if j < ms.length then some j else none

/-- RELOAD of an extent's descriptor: the status of the write, and the record with the new members. A lost position named anew is
under rebuild. -/
def State.reload (s : State) (ext : Nat) : State × Nat :=
  let e := s.extent ext
  if e.st ≠ .active ∨ e.prot = 0 then (s, stMalformed)
  else match s.prot? ext with
    | none => (s, stMalformed)
    | some p => (match s.readDesc (partDesc e.partners) with
      | (s, none) => (s, stMalformed)
      | (s, some b) =>
        let k := field b 0 1
        let ms := descMembers b k
        (match s.ownPosition ms ext with
        | none => (s, stMalformed)
        | some pos =>
          if !(descOk b e.prot pos s.ep ext e.gen e.owner && (s.keySlot p.keysel).st != .empty &&
              (s.keySlot p.keysel).owner == e.owner) then (s, stMalformed)
          else
            let lost := maskOf (k + 1) fun j => p.isLost j && j != pos && ms[j]? == p.members[j]?
            let named := p.lost != 0 && lost == 0
            let st : ProtState := if lost ≠ 0 then .degraded else if named || (p.replacement && p.st == .rebuilding) then .rebuilding
              else .normal
            let fresh := st == .rebuilding && !p.replacement
            (s.setProt ext { p with
              k := k, pos := pos, members := ms, lost := lost, st := st, promoted := false
              next := if fresh then 0 else p.next, current := if fresh then [] else p.current }, stOk)))

/-- REBUILD_BEAD: the next bead of a replacement in address order is gathered. -/
def execRebuildBead (id : Fin 16384) (s : State) : Outcome :=
  match s.prot? id with
  | none => .next s
  | some p =>
    onlyIf (p.replacement && p.st == .rebuilding && (s.extent id).st == .active && (s.gatherAt id p.next).isNone) s fun s =>
      (s.gatherOwn id ((s.extent id).base + p.next) .rebuild).tryFinish id p.next .rebuild

end Sys2Proof.Machine
end

