-- ==== Sys2Proof/Machine/Sync.lean ====
section
/-!
DEFINITION. Clocks and the fabric tick (03_clocks.md): references lost and found, clock multiplexers, and the TICK_SYNC
exchange.
-/

namespace Sys2Proof.Machine

/-! ### References and multiplexers (R64–R67, R72) -/

/-- TICK_LOCKED cleared (R71): a lock that was set raises PAGE_EVENT bit 1. -/
def State.tickUnlock (s : State) : State :=
  let t := { s with tick := { s.tick with locked := false, good := 0 } }
  if s.tick.locked then t.raise .clk 0 1 else t

/-- The tick PLL of this module follows TICK_REF (R17, R68). -/
def State.followsTickRef (s : State) : Bool := s.mgr.role != 2

/-- What the TICK_OUT pins carry (R17): nothing unpowered; the module's own reference in the active manager; else TICK_REF, while
it shows edges; or what the boundary register drives on them (R25). -/
inductive TickOut where
  | undriven | own | repeated | silent | boundary
deriving DecidableEq, Repr

/-- TICK_OUT (R17, R25). -/
def State.tickOut (s : State) : TickOut :=
  if !s.powered then .undriven
  else if s.jtag.driven.isSome then .boundary
  else if !s.followsTickRef then .own
  else if s.clk.tickRefPresent then .repeated else .silent

/-- REF_LOSS (R64, R72): the PLL coasts, REF_LOST and PAGE_EVENT bit 0 are set; a tick PLL that lost TICK_REF is unlocked. -/
def execRefLoss (pll : Fin 7) (s : State) : Outcome :=
  if !s.boot.started then .next s
  else
    let tick := pll.val = 6 ∧ s.followsTickRef
    let s := { s with clk := { s.clk with
      pllLocked := setBit s.clk.pllLocked pll false, coasting := setBit s.clk.coasting pll true
      xoPresent := if tick then s.clk.xoPresent else false
      tickRefPresent := if tick then false else s.clk.tickRefPresent } }
    let s := (s.setReg 0x2800 (wset (s.reg 0x2800) (8 + pll) (8 + pll) 1)).raise .clk 0 0
    .next (if tick then s.tickUnlock else s)

/-- PLL_RELOCK (R64): after 1 ms of clean edges the PLL is back at nominal; REF_LOST stays until cleared. -/
def execPllRelock (pll : Fin 7) (s : State) : Outcome :=
  let tick := pll.val = 6 ∧ s.followsTickRef
  onlyIf (s.boot.started && bit s.clk.coasting pll) s fun s =>
    { s with clk := { s.clk with
      pllLocked := setBit s.clk.pllLocked pll true, coasting := setBit s.clk.coasting pll false
      xoPresent := if tick then s.clk.xoPresent else true
      tickRefPresent := if tick then true else s.clk.tickRefPresent } }

/-- MUX_SWITCH_DONE (R66): with both clocks running the switch of a domain completes and PENDING clears. -/
def execMuxSwitchDone (d : Fin 6) (s : State) : Outcome :=
  onlyIf ((tblGet? s.clk.pending d).isSome && s.clk.xoPresent) s fun s =>
    { s with clk := { s.clk with pending := tblDel s.clk.pending d } }

/-- A domain's datapath state at its reset value (R67): rods, frame buffers and movers; what waits on the beam; the ports and
their queues; the queues of a memory tier. A reset of the management domain leaves what it holds and lasts as long as a free
value says (assumption 151). -/
def State.resetDomain (s : State) (d : Nat) : State :=
  if d = 1 then
    { s with ctl := tblMap s.ctl fun _ v => { v with units := tblMap v.units fun _ u => { u with beam := [] } } }
  else if d = 2 then
    { s with ports := [], rtr := { s.rtr with queues := [], held := [] } }
  else if d = 5 then
    let (v, s) := s.free
    { s with clk := { s.clk with mgmtUntil := s.time + v } }
  else if d = 0 then
    { s with rods := [], movers := []
             frames := tblMap s.frames fun _ f => { f with fb := [], badLines := [], check := none } }
  else if d = 3 ∨ d = 4 then
    { s with ctl := tblMap s.ctl fun c v => if (c < 4) = (d = 3) then { v with units := [] } else v }
  else s

/-- MUX_WATCHDOG (R67): PENDING has stayed set for MUX_WDOG_US; the domain is reset onto the new source. -/
def execMuxWatchdog (d : Fin 6) (s : State) : Outcome :=
  match tblGet? s.clk.pending d with
  | none => .next s
  | some t =>
    let s := s.elapseTo (t + us (s.actBits .clk 0 0x040 31 24))
    let s := { s with clk := { s.clk with pending := tblDel s.clk.pending d } }
    let s := (s.resetDomain d).raise .clk 0 2
    .next (s.postMgr { typ := 0x0006, cls := 1, source := 0x4000, detail := detail [(0, [byte d])] })

/-! ### TICK_SYNC messages (R69, R462, Table 3.2) -/

/-- A TICK_SYNC body (assumption 16): KIND, SEQ, MGR_EP, T_ORIGIN, CORRECTION, c1, t2 and MGR_NONCE. -/
def syncBody (kind seq mgr origin corr c1 t2 nonce : Nat) : List Byte :=
  [byte kind, 0] ++ leBytes 2 seq ++ leBytes 2 mgr ++ zeroBytes 2 ++ leBytes 8 origin ++ leBytes 4 corr ++ leBytes 4 c1 ++
    leBytes 8 t2 ++ leBytes 16 nonce

/-- The fields of a TICK_SYNC body. -/
def syncKind (b : List Byte) : Nat := field b 0 1
def syncSeq (b : List Byte) : Nat := field b 2 2
def syncMgr (b : List Byte) : Nat := field b 4 2 % 4096
def syncOrigin (b : List Byte) : Nat := field b 8 8
def syncCorr (b : List Byte) : Nat := field b 16 4
def syncC1 (b : List Byte) : Nat := field b 20 4
def syncT2 (b : List Byte) : Nat := field b 24 8
def syncNonce (b : List Byte) : Nat := field b 32 16

/-- The packet a TICK_SYNC row of one kind receives. -/
def syncForm (p : Packet) (kind : Nat) : Packet := { p with typ := tTickSync, body := byte kind :: p.body.drop 1 }

/-- A TICK_SYNC packet of this module. -/
def State.syncPacket (s : State) (dst : Nat) (body : List Byte) : Packet :=
  Packet.sized { typ := tTickSync, vc := 0, dst := dst, epoch := s.rtr.inject, form := contextForm s.ep 0 0, body := body }

/-- An ANNOUNCE put on one port for its link neighbour (R462). -/
def State.announceOn (s : State) (p : Nat) (pkt : Packet) (came : Option Nat) : State :=
  (s.toQueue p 0 { pkt := pkt, mac := 2 ^ 48 - 1, came := came }).emit (.packet (some p) pkt)

/-- An ANNOUNCE put on every up port but one. -/
def State.announceAll (s : State) (pkt : Packet) (but : Option Nat) (came : Option Nat) : State :=
  ((List.range 16).filter fun p => s.portUp p && but != some p).foldl (fun s p => s.announceOn p pkt came) s

/-- SYNC_PERIOD_US and STEP_LIMIT. -/
def State.syncPeriod (s : State) : Nat := us (s.actBits .clk 0 0x044 15 0)
def State.stepLimit (s : State) : Int := (s.actBits .clk 0 0x044 31 16 : Nat)

/-- ANNOUNCE_SEND (R69): every SYNC_PERIOD_US the active manager announces on every up port. -/
def execAnnounceSend (s : State) : Outcome :=
  if !(s.boot.started && s.mgr.role == 2 && s.tick.locked) then .next s
  else
    let s := s.elapseTo (s.tick.sentAt + s.syncPeriod)
    let p := s.syncPacket 0xFFF (syncBody 0 s.tick.nextSeq s.ep 0 0 0 0 s.mgr.nonce)
    let s := { s with tick := { s.tick with sentAt := s.time, nextSeq := (s.tick.nextSeq + 1) % 65536 } }
    .next (s.announceAll p none none)

/-- A listening active manager that receives a TICK_SYNC joins as a worker (R54). -/
def State.demote (s : State) (m : Nat) : State :=
  { s.leaveKeys with
    mgr := { s.mgr with role := 0, ep := some m }
    boot := { s.boot with demoted := true }
    tick := { s.tick with listenFrom := none } }

/-- A manager's nonce taken from its ANNOUNCE: the manager key is derived again when it is new (R419). -/
def State.takeNonce (s : State) (nonce : Nat) : State :=
  if s.ten.own.isSome ∧ s.mgr.nonce = nonce then s
  else State.deriveOwn { s with mgr := { s.mgr with nonce := nonce } }

/-- A SEQ not announced before: none of the latest ones acted on (assumption 31). -/
def State.newSeq (s : State) (seq : Nat) : Bool := !s.tick.seqs.contains seq

/-- The first copy of a new SEQ names the upstream port (R336). -/
def State.noteUpstream (s : State) (port : Nat) (p : Packet) : State :=
  { s with
    tick := { s.tick with seqs := (syncSeq p.body :: s.tick.seqs).take 1024 }
    rtr := { s.rtr with annEp := syncMgr p.body, upstream := some (port, if s.portEth port then p.mac else 0) } }

/-- The first copy of a new SEQ (R69): a locked module forwards it, and a DELAY_REQ goes to the manager. -/
def State.firstCopy (s : State) (port : Nat) (p : Packet) : State :=
  let b := p.body
  let m := syncMgr b
  let s := s.noteUpstream port p
  let s := { s with tick := { s.tick with req := some (syncSeq b, s.tick.count) } }
  let s := if s.tick.locked then s.announceAll { p with hops := 0 } (some port) (some s.tick.count) else s
  (s.send (s.syncPacket m (syncBody 1 (syncSeq b) m 0 0 0 0 0)) none false).1

/-- An ANNOUNCE of a module that joins the tick (R54, R69, R419, R426, R462). It alone, of the TICK_SYNC kinds, demotes a listening
manager, and a module without a manager follows the first announcer it hears (assumption 152). -/
def State.joinTick (s : State) (port : Nat) (p : Packet) : State :=
  let m := syncMgr p.body
  let s := if s.mgr.role = 2 ∧ s.tick.listenFrom.isSome ∧ !s.tick.locked then s.demote m else s
  if s.mgr.role = 2 then s
  else
    let s := if s.mgr.ep.isNone then { s with mgr := { s.mgr with ep := some m } } else s
    if s.mgr.ep ≠ some m then s
    else
      let fresh := s.newSeq (syncSeq p.body)
      let s := { s with tick := { s.tick with lastAnn := s.time }, mgr := { s.mgr with blocked := false } }
      let s := s.takeNonce (syncNonce p.body)
      if fresh then s.firstCopy port p else s

/-- An ANNOUNCE taken at its port. In RECOVERY the module does not join the tick (R43). -/
def State.onAnnounce (s : State) (port : Nat) (p : Packet) : State :=
  if s.boot.state ≠ 7 then s.joinTick port p
  else if s.newSeq (syncSeq p.body) then s.noteUpstream port p else s

/-- A TICK_SYNC of the right shape. -/
def syncShaped (p : Packet) : Bool := p.wellShaped && p.sec.isNone && p.body.length == 48

/-- ANNOUNCE: taken at the arrival port whatever its DST_EP. -/
def execAnnounce (port : Fin 16) (p : Packet) (s : State) : Outcome :=
  let p := syncForm p 0
  onlyIf (s.portUp port && syncShaped p) s fun s => (s.received port p none).onAnnounce port p

/-- A DELAY_REQ or DELAY_RESP arrives: forwarded, or given to `act`. -/
def State.arriveSync (s : State) (port : Nat) (p : Packet) (act : State → State) : State :=
  let s := (s.received port p none).learn port p
  if p.dst ≠ s.ep then s.transit port p else act s

/-- DELAY_REQ (R69, R432): the active manager captures it, answers, and notes its worker's life. -/
def execDelayReq (port : Fin 16) (p : Packet) (s : State) : Outcome :=
  let p := syncForm p 1
  onlyIf (s.portUp port && syncShaped p) s fun s => s.arriveSync port p fun s =>
    if s.mgr.role ≠ 2 then s
    else
      let s := match tblGet? s.mgr.roster p.src with
        | some m => { s with mgr := { s.mgr with roster := tblPut s.mgr.roster p.src { m with lastReq := s.time, silent := false } } }
        | none => s
      let b := syncBody 2 (syncSeq p.body) s.ep 0 0 (syncCorr p.body) s.tick.count 0
      (s.send (s.syncPacket p.src b) none false).1

/-- Delay and offset of an exchange (R70); each halving rounds toward −∞. -/
def exchange (t1 c1 t2 t3 c2 t4 : Int) : Int × Int :=
  let a := t2 - t1 - c1
  let b := t4 - t3 - c2
  ((a + b) / 2, (a - b) / 2)

/-- A bandwidth window in progress is disturbed by a step or hold (R454). -/
def State.disturb (s : State) : State := { s with tly := { s.tly with disturbed := true } }

/-- The lock of R71 after an exchange within, or outside, ±4 ticks. -/
def State.lockRule (s : State) (offset : Int) : State :=
  if offset.natAbs ≤ 4 then
    let g := s.tick.good + 1
    { s with tick := { s.tick with good := min g 3, locked := s.tick.locked || 3 ≤ g } }
  else s.tickUnlock

/-- An exchange applied (R70, R71). A correction it makes takes the place of the one under way, a hold included (assumption 153). -/
def State.applyExchange (s : State) (t1 c1 t2 t3 c2 : Int) : State :=
  let (delay, offset) := exchange t1 c1 t2 t3 c2 s.tick.count
  let s := { s with tick := { s.tick with req := none, lastResp := s.time, offset := offset } }
  if !s.tick.first then
    ({ s with tick := { s.tick with first := true, count := (t3 + c2 + delay).toNat, slew := 0, hold := 0, good := 0 } } : State).disturb
  else if s.stepLimit < offset then
    ({ s with tick := { s.tick with count := s.tick.count + offset.toNat, slew := 0, phase := 0, hold := 0 } } : State).disturb.tickUnlock.raise .clk 0 3
  else if offset < -s.stepLimit then
    ({ s with tick := { s.tick with hold := offset.natAbs, slew := 0, phase := 0 } } : State).disturb.tickUnlock.raise .clk 0 3
  else State.lockRule { s with tick := { s.tick with slew := offset, phase := 0, hold := 0 } } offset

/-- DELAY_RESP (R70, R71): the answer from the manager to this module's latest DELAY_REQ. -/
def execDelayResp (port : Fin 16) (p : Packet) (s : State) : Outcome :=
  let p := syncForm p 2
  onlyIf (s.portUp port && syncShaped p) s fun s => s.arriveSync port p fun s =>
    match s.tick.req with
    | none => s
    | some (seq, t1) =>
      if seq = syncSeq p.body ∧ s.mgr.ep = some p.src ∧ s.mgr.role ≠ 2 then
        s.applyExchange t1 (syncC1 p.body) (syncT2 p.body) (syncOrigin p.body) (syncCorr p.body)
      else s

/-- TICK_HOLD_RELEASE (R70): the offset is met and the count runs on. -/
def execTickHoldRelease (s : State) : Outcome := onlyIf (decide (0 < s.tick.hold)) s fun s => s.elapse (s.nsForCycles s.tick.hold)

/-- TICK_SYNC_TIMEOUT (R71): no DELAY_RESP for 4 × SYNC_PERIOD_US. -/
def execTickSyncTimeout (s : State) : Outcome :=
  onlyIf (s.tick.locked && s.mgr.role != 2) s fun s => (s.elapseTo (s.tick.lastResp + 4 * s.syncPeriod)).tickUnlock

end Sys2Proof.Machine
end

