-- ==== Sys2Proof/Machine/Crit.lean ====
section
/-!
DEFINITION. Critical commands (R90–R95): their layout, the completion kept for copies, the rules for a named tick (R74) and the
order of events at one tick (R75).
-/

namespace Sys2Proof.Machine

/-! ### Layout (Table 4.12) -/

/-- The payload of a critical command. -/
def critOf (p : Packet) : Crit :=
  let b := p.body
  { op := field b 0 1, issuer := field b 1 1 % 8, counter := field b 8 8, exec := field b 0x10 8, ctx := field b 0x1A 2
    body := (b.drop 0x20).take (field b 2 2), tag := field b (0x20 + field b 2 2) 32 }

/-- Step 2 of Table 4.15 for the fields every command has. -/
def critShape (ep : Nat) (p : Packet) : Bool :=
  let b := p.body
  let n := field b 2 2
  field b 1 1 < 8 && n % 8 == 0 && n ≤ 4032 && zeros b 4 4 && zeros b 0x1C 4 && field b 0x18 2 == ep && b.length == 0x40 + n &&
    (field b 0x1A 2 < 1024 || field b 0x1A 2 == 0xFFFF)

/-- The tag of R91 under an issuer key: over CHIP_SERIAL and the payload up to the tag. -/
def critTag (key : Nat) (p : Packet) : Nat :=
  Config.kmac256 key (leBytes 8 Config.serial.toNat ++ p.body.take (0x20 + field p.body 2 2)) 256 "FRENTO-CC-1" % 2 ^ 256

/-! ### Outcomes -/

/-- AUTH_FAIL of a critical command at a step of Table 4.15: counted and reported (R92). -/
def State.authFail (s : State) (c : Crit) (step key : Nat) : State :=
  let s := { s with cc := { s.cc with authFails := stick32 (s.cc.authFails + 1) } }
  let s := s.postMgr { typ := 0x0002, cls := 1, source := 0x4000, status := stAuthFail
                       detail := detail [(0, [byte c.issuer, byte step, byte c.op]), (8, leBytes 8 c.counter)] }
  s.complete key stAuthFail

/-- A critical command refused at a step. -/
def State.refuseCrit (s : State) (c : Crit) (step key status : Nat) : State :=
  if status = stAuthFail then s.authFail c step key else s.complete key status

/-- The action of an accepted command is done: its completion is kept for copies, and those that waited receive it (R94). -/
def State.critDone (s : State) (r : CritRef) (status : Nat) (data : List Byte := []) : State :=
  let s := s.complete r.slot status data
  let i := s.issuer r.issuer
  let s := if i.last = r.counter ∧ i.acting then s.setIssuer r.issuer { i with stored := some (status, data), acting := false } else s
  let mine (x : Nat × Nat × Nat) : Bool := x.1 == r.issuer && x.2.1 == r.counter
  let l := s.cc.copies.filter mine
  let s := { s with cc := { s.cc with copies := s.cc.copies.filter fun x => !mine x } }
  l.foldl (fun s x => s.complete x.2.2 status data) s

/-- The reference of an accepted command. -/
def Crit.ref (c : Crit) (key : Nat) : CritRef := { slot := key, issuer := c.issuer, counter := c.counter }

/-! ### Ticks (R74, R75) -/

/-- R74 on a named tick. -/
def State.tickRule (s : State) (tick : Nat) : Nat :=
  if tick < s.tick.count + s.actBits .clk 0 0x040 15 0 * 1000 then stMalformed
  else if !s.tick.locked then stBusy
  else stOk

/-- Place of a critical opcode in the order of R75. -/
def eventRank (op : Nat) : Nat :=
  if op = 0x0A then 0 else if op = 0x0C then 1 else if op = 0x08 then 2 else if op = 0x09 then 3 else if op = 0x0D then 4 else 5

/-- Order of an armed command among those armed: its tick, then R75. -/
def Armed.order (a : Armed) : Nat := a.tick * 16 + eventRank a.cmd.op

/-- An armed command put in its place among others, behind its equals. -/
def armedIns (a : Armed) : List Armed → List Armed
  | [] => [a]
  | b :: t => if a.order < b.order then a :: b :: t else b :: armedIns a t

/-- Armed commands in the order in which they fire. -/
def armedSorted : List Armed → List Armed
  | [] => []
  | l => l.foldl (fun t a => armedIns a t) []

/-- Something is armed that fires before place `rank` of tick `tick` (R75): ranks 0–5 tenancy, 6 swap, 7 flip, 8 boards. -/
def State.dueBefore (s : State) (tick rank : Nat) : Bool :=
  let at_ := tick * 16 + rank
  (s.cc.armed.any fun a => decide (a.order < at_)) || (s.cc.swap.any fun x => decide (x.2 * 16 + 6 < at_)) ||
    (s.rtr.flipArmed.any fun t => decide (t * 16 + 7 < at_)) || (s.rtr.boardArmed.any fun t => decide (t * 16 + 8 < at_))

/-- Shadow and active sets exchanged; the books of the swap area (R84, Table 4.9). -/
def State.exchange (s : State) (id tick : Nat) : State :=
  { s with
    shadow := s.active
    active := s.shadow
    cc := { s.cc with swap := none, swapCount := (s.cc.swapCount + 1) % 65536, swapId := id, lastTick := tick } }

end Sys2Proof.Machine
end

