-- ==== Sys2Proof/Machine/Rods.lean ====
section
/-!
DEFINITION. What every rod instruction shares: registers, their poison flags and parity (R168), writes of scratch (R169, R171), the
undo log, held writes and signatures of a checked tile (R295), the draw function (R291, R292), the instruction word and its opcodes
(Tables 8.2, 8.3) and the issue of one instruction (R172–R174).
-/

namespace Sys2Proof.Machine

/-! ### Registers -/

/-- S, V and D registers and accumulators, by number. -/
def RodRegs.getS (r : RodRegs) (n : Nat) : Nat := tblGet r.s n 0
def RodRegs.getV (r : RodRegs) (n : Nat) : Nat := tblGet r.v n 0
def RodRegs.getD (r : RodRegs) (n : Nat) : Nat := tblGet r.d n 0
def RodRegs.getAcc (r : RodRegs) (n : Nat) : Acc := tblGet r.acc n {}
def RodRegs.setS (r : RodRegs) (n v : Nat) (p : Bool) : RodRegs := { r with s := tblPut r.s n (v % 2 ^ 64), pS := setBit r.pS n p, eS := setBit r.eS n false }
def RodRegs.setV (r : RodRegs) (n v : Nat) (p : Bool) : RodRegs := { r with v := tblPut r.v n (v % 2 ^ 1024), pV := setBit r.pV n p, eV := setBit r.eV n false }
def RodRegs.setD (r : RodRegs) (n v : Nat) (p : Bool) : RodRegs := { r with d := tblPut r.d n (v % 2 ^ 64), pD := setBit r.pD n p, eD := setBit r.eD n false }
def RodRegs.setAcc (r : RodRegs) (n : Nat) (a : Acc) : RodRegs := { r with acc := tblPut r.acc n a, eAcc := setBit r.eAcc n false }

/-- The registers of a rod changed. -/
def State.setRegs (s : State) (i : Nat) (f : RodRegs → RodRegs) : State :=
  s.setRod i { s.rod i with regs := f (s.rod i).regs }

/-- The registers an instruction reads, as masks over S, V, ACC and D. -/
structure Reads where
  s : Nat := 0
  v : Nat := 0
  acc : Nat := 0
  d : Nat := 0
deriving DecidableEq, Repr

/-- Registers about to be read: each that holds a parity error is found, counted in ROD_REG_PAR, and its value is poisoned (R168). -/
def State.checkParity (s : State) (i : Nat) (x : Reads) : State :=
  let g := (s.rod i).regs
  let hit (n e r : Nat) : List Nat := idxs n fun k => bit e k && bit r k
  let hS := hit 32 g.eS x.s
  let hV := hit 32 g.eV x.v
  let hA := hit 16 g.eAcc x.acc
  let hD := hit 8 g.eD x.d
  let n := hS.length + hV.length + hA.length + hD.length
  if n = 0 then s
  else
    let marks (p : Nat) (l : List Nat) : Nat := l.foldl (fun p k => setBit p k true) p
    let clears (e : Nat) (l : List Nat) : Nat := l.foldl (fun e k => setBit e k false) e
    let a := pageBase .rod i + 0x810
    (s.setRegs i fun g => { g with
      pS := marks g.pS hS, pV := marks g.pV hV, pD := marks g.pD hD, eS := clears g.eS hS, eV := clears g.eV hV, eD := clears g.eD hD
      eAcc := clears g.eAcc hA, acc := hA.foldl (fun t k => tblPut t k { tblGet t k {} with poison := true }) g.acc }).setReg a
      (BitVec.ofNat 32 (stick32 ((s.reg a).toNat + n)))

/-! ### Signatures (R295) -/

/-- One byte taken into a CRC-64 whose polynomial has the given low 64 bits, most significant bit first. -/
def sigByte (poly c : Nat) (b : Byte) : Nat :=
  (List.range 8).foldl (fun c _ => if bit c 63 then (c * 2 % 2 ^ 64).xor poly else c * 2) (c.xor (b.toNat * 2 ^ 56))

/-- A signature goes on over bytes: two CRC-64s, of ECMA-182 and of ISO 3309 (assumption 159). -/
def signOn (x : Nat × Nat) (b : List Byte) : Nat × Nat :=
  (b.foldl (sigByte 0x42F0E1EBA9EA3693) x.1, b.foldl (sigByte 0x1B) x.2)

/-- The 128 bits of a signature. -/
def sigWord (x : Nat × Nat) : Nat := x.1 * 2 ^ 64 + x.2

/-- A write of a tile taken into its execution's signature: its 4-byte address, its data and a poison byte. -/
def signWrite (x : Nat × Nat) (addr : Nat) (b : List Byte) (poison : Bool) : Nat × Nat :=
  signOn x (leBytes 4 addr ++ b ++ [byte (b2n poison)])

/-! ### Writes of a tile (R295, R298) -/

/-- The lines of a checked tile not yet in the undo log, put there; a full log abandons the check, and so does an uncorrectable error in
the spare's scratch, where the log stands (R295, R297). -/
def State.logLines (s : State) (i off n : Nat) : State :=
  match s.checkOf i with
  | none => s
  | some k =>
    let r := s.rod i
    let f := rodFrame i
    let new := (linesOf off n).filter fun l => !k.undo.any fun u => u.1 == l
    let log := new.map fun l => (l, cellRead r.scratch (64 * l) 64, r.badLines.contains l)
    let s := if new.isEmpty then s else s.checkScratch (17 * f + 16) 0 0x80000
    if 6912 < k.undo.length + log.length ∨ (s.rod (17 * f + 16)).badLines ≠ [] then s.endCheck f
    else s.setCheck f (some { k with undo := log.reverse ++ k.undo })

/-- A write of a rod counted: in a tile under check, or in the signature of a vote's third rod. -/
def State.noteWrite (s : State) (i addr : Nat) (b : List Byte) (poison : Bool) : State :=
  let f := rodFrame i
  match (s.frame f).check with
  | none => s
  | some k =>
    if (s.checkOf i).isSome then s.setCheck f (some { k with made := k.made + 1 })
    else if s.runsVote i then
      s.setCheck f (some { k with thirdMade := k.thirdMade + 1, thirdSig := signWrite k.thirdSig addr b poison })
    else s

/-- Bytes written to a rod's scratch by its own instruction. -/
def State.scratchWrite (s : State) (i off : Nat) (b : List Byte) (poison : Bool) : State :=
  let s := (s.logLines i off b.length).noteWrite i off b poison
  let r := s.rod i
  s.setRod i (r.write off b (poison || r.poisonTile))

/-- Bytes laid over a line of an undo log. -/
def undoLine (off : Nat) (b : List Byte) (poison : Bool) (u : Nat × List Byte × Bool) : Nat × List Byte × Bool :=
  if (linesOf off b.length).contains u.1 then
    (u.1, (List.range 64).map (fun n =>
      let a := 64 * u.1 + n
      if off ≤ a ∧ a < off + b.length then b.getD (a - off) 0 else u.2.1.getD n 0),
      poison || (u.2.2 && !decide (off ≤ 64 * u.1 ∧ 64 * u.1 + 64 ≤ off + b.length)))
  else u

/-- Bytes written to a rod's scratch by another unit: no write of its tile, so that a vote's return to the tile start keeps them. -/
def State.scratchStore (s : State) (i off : Nat) (b : List Byte) (poison : Bool) : State :=
  let s := match s.checkOf i with
    | some k => s.setCheck (rodFrame i) (some { k with undo := k.undo.map (undoLine off b poison) })
    | none => s
  s.setRod i ((s.rod i).write off b poison)

/-- An outgoing write of a rod, to an address: held under a check; not performed by a vote's third rod, nor where it repeats one
performed before a vote (R298, steps 4 and 7); performed otherwise. -/
def State.outgoing (s : State) (i addr : Nat) (w : OutWrite) (b : List Byte) (poison : Bool) : State :=
  let s := s.noteWrite i addr b poison
  let r := s.rod i
  let s := s.setRod i { r with writes := r.writes + 1 }
  let f := rodFrame i
  if r.writes < r.skip ∨ s.runsVote i ∨ r.st = .checking then s
  else match s.checkOf i with
    | some k => s.setCheck f (some { k with held := k.held ++ [(k.made, w)] })
    | none => s.perform f w

/-- What the frame buffer or a stream gave a rod, kept while its tile is under check (R295). -/
def State.hear (s : State) (i : Nat) (b : List Byte) (poison : Bool) : State :=
  match s.checkOf i with
  | some k => s.setCheck (rodFrame i) (some { k with heard := k.heard ++ [(b, poison)] })
  | none => s

/-- The next thing that the frame buffer or a stream gave the tile when it ran before, if it runs again. -/
def State.rehear (s : State) (i : Nat) : Option (State × List Byte × Bool) :=
  let r := s.rod i
  match r.replay with
  | [] => none
  | (b, p) :: t => some (s.setRod i { r with replay := t }, b, p)

/-! ### Draws (R291, R292) -/

/-- Ten rounds of the draw function on counter words and key words. -/
def drawRounds : (n : Nat) → (c0 c1 c2 c3 k0 k1 : Nat) → List Nat
  | 0, c0, c1, c2, c3, _, _ => [c0, c1, c2, c3]
  | n + 1, c0, c1, c2, c3, k0, k1 =>
    let p0 := 0xD2511F53 * c0
    let p1 := 0xCD9E8D57 * c2
    drawRounds n ((p1 / 2 ^ 32).xor c1 |>.xor k0) (p1 % 2 ^ 32) ((p0 / 2 ^ 32).xor c3 |>.xor k1) (p0 % 2 ^ 32)
      ((k0 + 0x9E3779B9) % 2 ^ 32) ((k1 + 0xBB67AE85) % 2 ^ 32)

/-- Draw `i` under a seed: word i mod 4 of the output for counter words c0 = i ÷ 4 and c1 to c3, bits [31:8]. -/
def drawOf (seed i hi1 hi2 c3 : Nat) : Nat :=
  (drawRounds 10 (i / 4 % 2 ^ 32) (hi1 % 2 ^ 32) (hi2 % 2 ^ 32) c3 (seed % 2 ^ 32) (seed / 2 ^ 32 % 2 ^ 32)).getD (i % 4) 0 / 256

/-- The draws of an instruction of a rod with generator `gen`, by index (Table 12.2). -/
def State.rodDraw (s : State) (r : Rod) (gen i : Nat) : Nat :=
  match r.job with
  | none => 0
  | some (j, stage, k) =>
    let seed := match tblGet? s.jobs j with | some v => v.seed | none => 0
    drawOf seed i (r.regs.step % 2 ^ 32) (r.regs.step / 2 ^ 32) (gen % 256 * 2 ^ 24 + stage % 64 * 16 + k % 16)

/-- DRAW of a step counter, and TILE. -/
def drawField (step : Nat) : Nat := step % 2 ^ 20
def tileField (step : Nat) : Nat := step / 2 ^ 20

/-! ### Issue -/

/-- What an instruction comes to. -/
inductive Did where
  /-- Done, with the exceptions of Table 9.9 it raised and where the pc goes if not to the next instruction. -/
  | done (s : State) (ev : Nat) (pc : Option Nat)
  /-- Done, the pc already moved: the rod may have gone on to a switch. -/
  | ended (s : State)
  /-- A fault of Table 8.9, or poison consumed (R153). -/
  | fault (code : Nat)
  | poison
  /-- It begins to wait on a stream (R235). -/
  | hold (s : State)
  /-- No progress yet: its frame-buffer unit is under zeroing (R185). -/
  | stall

/-- The rod works: clocked, running or the third rod of a vote, not halted, not waiting on a stream, not stopped by a vote. -/
def State.rodReady (s : State) (i : Nat) : Bool :=
  let r := s.rod i
  s.clocked .rod i && (r.st == .running || r.st == .toTileEnd || s.runsVote i) && !r.regs.halted && r.wait.isNone && !s.inVote i

/-- The registers after an instruction: the pc at `pc`, or past the instruction, a loop's last instruction leading back to
its first while runs are left (Table 8.3). -/
def RodRegs.advance (r : RodRegs) (pc : Option Nat) : RodRegs :=
  match pc with
  | some p => { r with pc := p }
  | none =>
    let next := (r.pc + 8) % 2 ^ 32
    match r.loop with
    | some (first, length, left) =>
      if next = first + 8 * length then
        if left = 0 then { r with pc := next, loop := none } else { r with pc := first, loop := some (first, length, left - 1) }
      else { r with pc := next }
    | none => { r with pc := next }

/-- The exceptions of an instruction counted once each (R228). -/
def State.countEvents (s : State) (i ev : Nat) (c : Nat) : State :=
  (List.range 6).foldl (fun s e => if bit ev e then s.tally .rod i (0x20 + e) 0 1 (some c) else s) s

/-- After an instruction of a checked rod: S has it still to execute. -/
def State.behind (s : State) (i : Nat) : State :=
  match s.checkOf i with
  | some k => s.setCheck (rodFrame i) (some { k with lag := k.lag ++ [((s.rod i).regs, k.made)] })
  | none => s

/-- What an instruction came to, at the rod that issued it. -/
def State.did (s : State) (i c : Nat) : Did → State
  | .stall => s
  | .hold s => s
  | .ended s => s.tally .rod i 0x26 0 1 (some c)
  | .fault code => s.rodFault i code
  | .poison => s.rodPoison i
  | .done s ev pc => (((s.setRegs i fun g => g.advance pc).behind i).tally .rod i 0x26 0 1 (some c)).countEvents i ev c

/-- The fields of an instruction word below its opcode (Table 8.2). -/
def RodWord.ofBits (n : Nat) : RodWord :=
  { d := bits n 55 51, a := bits n 50 46, b := bits n 45 41, fa := bits n 40 37, fb := bits n 36 33, rsv := bits n 32 32, imm := bits n 31 0 }

/-- The opcodes of Table 8.3. -/
def rodOpcodes : List Nat :=
  [0x00, 0x01, 0x02, 0x03, 0x04, 0x05, 0x06, 0x07, 0x08, 0x09, 0x0A, 0x10, 0x11, 0x12, 0x13, 0x14, 0x20, 0x21, 0x22, 0x23, 0x24,
   0x40, 0x41, 0x42, 0x43, 0x48, 0x49, 0x4A, 0x4B, 0x4C, 0x4D, 0x4E, 0x50, 0x51, 0x52, 0x53, 0x54, 0x60, 0x61, 0x70, 0x71, 0x72]

/-- The instruction word at a rod's pc. -/
def Rod.word (r : Rod) : Nat := leNat (cellRead r.scratch r.regs.pc 8)

/-- The registers that the instruction with an opcode and fields reads. -/
def rodReads (op : Nat) (w : RodWord) : Reads :=
  let a := 2 ^ w.a
  let b := 2 ^ w.b
  if 0x01 ≤ op ∧ op ≤ 0x0A ∧ op ≠ 0x09 then { s := Nat.lor a (if w.imm = 0 then b else 0) }
  else if op = 0x11 then { s := Nat.lor a b }
  else if op = 0x10 ∨ op = 0x12 ∨ op = 0x13 ∨ op = 0x40 ∨ op = 0x42 then { s := a }
  else if op = 0x21 then
    { s := Nat.lor (Nat.lor a b) (if bit w.imm 16 then 2 ^ w.d else 0)
      acc := if w.fa = 0xE then 0 else 0xFFFF, d := if w.fa = 0xE then 0xFF else 0 }
  else if op = 0x22 then { acc := if w.fa = 0xE then 0 else 0xFFFF, d := if w.fa = 0xE then 0xFF else 0 }
  else if op = 0x23 ∨ op = 0x24 then { s := a, acc := 0xFFFF }
  else if op = 0x41 ∨ op = 0x43 then { s := a, v := b }
  else if op = 0x50 ∨ op = 0x51 ∨ op = 0x52 then { v := Nat.lor a (2 ^ w.d) }
  else if op = 0x53 ∨ op = 0x61 then { v := a }
  else if op = 0x4D ∨ op = 0x4E then { v := Nat.lor (Nat.lor a b) (2 ^ w.d) }
  else if 0x48 ≤ op ∧ op ≤ 0x54 then { v := Nat.lor a b }
  else {}

/-- Scratch bytes that a load or ACC_ADDREC is about to read: offset and count. -/
def rodSpan (op : Nat) (w : RodWord) (g : RodRegs) : Option (Nat × Nat) :=
  if op = 0x10 then some (g.getS w.a, 8) else if op = 0x40 then some (g.getS w.a, 128)
  else if op = 0x24 then some (g.getS w.a, 2048) else none

/-- The instruction word at a rod's pc read: upsets in it are found. -/
def State.fetched (s : State) (i : Nat) : State := s.checkScratch i (s.rod i).regs.pc 8

/-- What an instruction reads checked before it acts, its registers and then the scratch it loads; a spare that follows a checked rod
then catches up. -/
def State.readied (s : State) (i op : Nat) (w : RodWord) : State :=
  let s := s.checkParity i (rodReads op w)
  let s := match rodSpan op w (s.rod i).regs with | some x => s.checkScratch i x.1 x.2 | none => s
  s.catchUp i

/-- One instruction issued by a rod (R172–R174). It is fetched from scratch, so that a pc outside it or on a poisoned line faults, and
an opcode that Table 8.3 does not list is ILLEGAL_OP. `op` and `w` say which instruction this row is: another word at the pc is not
issued by it (assumption 90). -/
def State.rodIssue (s : State) (i op : Nat) (w : RodWord) (act : State → Rod → Did) : State :=
  if s.rodReady i then
    let s := s.fetched i
    if 0x80000 ≤ (s.rod i).regs.pc then s.rodFault i 2
    else if badAt (s.rod i).badLines (s.rod i).regs.pc 8 then s.rodPoison i
    else
      let n := (s.rod i).word
      if !rodOpcodes.contains (n / 2 ^ 56) then s.rodFault i 1
      else if n / 2 ^ 56 ≠ op ∨ RodWord.ofBits n ≠ w then s
      else
        let c := (s.rod i).ctx
        let s := s.readied i op w
        s.did i c (act s (s.rod i))
  else s

/-- An instruction row: the rod that is ready issues the instruction at its pc, if that is this one. -/
def rodRow (i : Fin 544) (op : Nat) (w : RodWord) (act : State → Rod → Did) (s : State) : Outcome := .next (s.rodIssue i op w act)

/-- An instruction all of whose unused fields are 0: RSV and whatever else `unused` adds up (R172). -/
def legal (w : RodWord) (unused : Nat) (act : Did) : Did := if w.rsv + unused = 0 then act else .fault 1

/-- Registers written, nothing else. -/
def State.didRegs (s : State) (i : Nat) (f : RodRegs → RodRegs) (ev : Nat := 0) : Did := .done (s.setRegs i f) ev none

/-- A scratch range of an instruction: bounds before alignment; a write must stay clear of the code region (R169, R171,
R173). -/
def Rod.scratchFault (r : Rod) (off n align : Nat) (write : Bool) : Option Nat :=
  if 0x80000 < off + n ∨ (write ∧ off < r.regs.codeBytes) then some 2
  else if off % align ≠ 0 then some 3 else none

end Sys2Proof.Machine
end

