-- ==== Sys2Proof/Machine/Inner.lean ====
section
/-!
DEFINITION. Accesses the module's own units make in a context's memory, translated through a mover's lookaside (R107, R191,
R244, R251): rods' save and restore, the load engine, movers and the key-value service.
-/

namespace Sys2Proof.Machine

/-- Tags of the units: rods, movers, the load engine, the key-value service. -/
def rodTag (i : Nat) : Nat := 0x20000 + i
def moverTag (m : Nat) : Nat := 0x30000 + m
def loadTag : Nat := 0x40000
def kvsTag : Nat := 0x50000

/-- What a unit's access came to: done, not ready yet (a copy is recalled, a bead gathered), or refused with a status; `missing`
marks a missing translation (R105, check 3). -/
inductive Access where
  | done
  | wait
  | failed (status : Nat) (missing : Bool) (va : Nat)
deriving DecidableEq, Repr

/-- The number under which the key-value service, which has no lookaside (R107), stands in place of a mover. -/
def kvsUnit : Nat := 64

/-- A VA translated through mover `m`'s lookaside of 256 entries, for an access of a type (Table 5.4). -/
def State.unitTranslate (s : State) (m ctx va typ : Nat) : State × (Nat ⊕ Access) :=
  match s.innerWalk (if m < 64 then (s.mover m).lookaside else []) ctx va with
  | (s, .ok e, walked) =>
    let s := if walked && m < 64 then
        (s.setMover m { s.mover m with lookaside := lkPut (s.mover m).lookaside 256 e }).tally .mov m 0x42 0 1 (some ctx) else s
    let st := s.accessRow typ 0 false true e
    if st = stOk then (s, .inl (e.at_ va)) else (s, .inr (.failed st false va))
  | (s, .later, _) => (s, .inr .wait)
  | (s, w, _) => (if m < 64 then s.tally .mov m 0x42 0 1 (some ctx) else s, .inr (.failed w.status (w == .missing) va))

/-- Whole beads written from a VA on, in order: each its 64 bytes and mark. -/
def State.unitWrites (s : State) (m tag ctx va : Nat) : List (List Byte × Bool) → State × Access
  | [] => (s, .done)
  | b :: t =>
    match s.unitTranslate m ctx va tWrite with
    | (s, .inr a) => (s, a)
    | (s, .inl pa) => (match s.innerWrite tag pa (.write b.1 b.2) with
      | (s, false) => (s, .wait)
      | (s', true) => (match s'.unitWrites m tag ctx (va + 64) t with
        | (s', .wait) => (s'.keepWrote s, .wait)
        | x => x))

/-- Part of one bead written at a VA. -/
def State.unitPart (s : State) (m tag ctx va : Nat) (b : List Byte) (poison : Bool) : State × Access :=
  match s.unitTranslate m ctx (va / 64 * 64) tWrite with
  | (s, .inr a) => (s, a)
  | (s, .inl pa) =>
    let o := va % 64
    match s.innerWrite tag pa (.part ((2 ^ b.length - 1) * 2 ^ o) ((zeroBytes o ++ b ++ zeroBytes 64).take 64) poison) with
    | (s, false) => (s, .wait)
    | (s, true) => (s, .done)

/-- Bytes written from a VA on, by parts of beads; `fuel` bounds the beads. -/
def State.unitBytes (s : State) (m tag ctx va : Nat) (b : List Byte) (poison : Bool) : (fuel : Nat) → State × Access
  | 0 => (s, .done)
  | fuel + 1 =>
    if b.isEmpty then (s, .done)
    else
      let n := min b.length (64 - va % 64)
      match if n = 64 then s.unitWrites m tag ctx va [(b.take 64, poison)] else s.unitPart m tag ctx va (b.take n) poison with
      | (s', .done) => (match s'.unitBytes m tag ctx (va + n) (b.drop n) poison fuel with
        | (s', .wait) => (s'.keepWrote s, .wait)
        | x => x)
      | x => x

/-- `n` beads read from a VA on: their data and marks, first to last, or why not. -/
def State.unitReads (s : State) (m tag ctx va : Nat) : (n : Nat) → State × List (List Byte × Bool) × Access
  | 0 => (s, [], .done)
  | n + 1 =>
    match s.unitTranslate m ctx va tReadNoalloc with
    | (s, .inr a) => (s, [], a)
    | (s, .inl pa) => (match s.innerRead tag pa with
      | (s, none) => (s, [], .wait)
      | (s, some b) => (match s.unitReads m tag ctx (va + 64) n with
        | (s, l, .done) => (s, b :: l, .done)
        | x => x))

/-- Bytes to write in one bead at a VA: mask, 64 bytes and mark. -/
abbrev BeadPart := Nat × List Byte × Bool

/-- Bytes at a VA gathered by bead: a later byte wins, a poisoned one marks its bead. -/
def gatherParts (t : Tbl BeadPart) (va : Nat) : List (Byte × Bool) → Tbl BeadPart
  | [] => t
  | (b, p) :: l =>
    let (mask, data, bad) := tblGet t (va / 64 * 64) (0, zeroBytes 64, false)
    gatherParts (tblPut t (va / 64 * 64) (setBit mask (va % 64) true, data.set (va % 64) b, bad || p)) (va + 1) l

/-- Unmarked bytes as `gatherParts` takes them. -/
def plain (b : List Byte) : List (Byte × Bool) := b.map fun x => (x, false)

/-- One bead written whole or in part. -/
def State.unitBead (s : State) (m tag ctx va : Nat) (w : BeadPart) : State × Access :=
  match s.unitTranslate m ctx va tWrite with
  | (s, .inr a) => (s, a)
  | (s, .inl pa) => match s.innerWrite tag pa (if w.1 = 2 ^ 64 - 1 then .write w.2.1 w.2.2 else .part w.1 w.2.1 w.2.2) with
    | (s, false) => (s, .wait)
    | (s, true) => (s, .done)

/-- Beads written in order of address; the bead that stands in the way, if one does. -/
def State.unitBeads (s : State) (m tag ctx : Nat) : Tbl BeadPart → State × Access × Option (Nat × BeadPart)
  | [] => (s, .done, none)
  | (va, w) :: t => match s.unitBead m tag ctx va w with
    | (s, .done) => s.unitBeads m tag ctx t
    | (s, a) => (s, a, some (va, w))

/-- Beads written all or none: where one must wait or cannot be reached, its copies are recalled or its walk reported, and nothing is
written. -/
def State.unitCommit (s : State) (m tag ctx : Nat) (t : Tbl BeadPart) : State × Access :=
  match s.unitBeads m tag ctx t with
  | (s, .done, _) => (s, .done)
  | (_, a, some (va, w)) => (match s.unitBead m tag ctx va w with
    | (_, .done) => (s, a)
    | (s, _) => (s, a))
  | (_, a, none) => (s, a)

/-- `n` bytes read from a VA on, and whether a bead of them is poisoned. -/
def State.unitData (s : State) (m tag ctx va n : Nat) : State × List Byte × Bool × Access :=
  let lo := va / 64 * 64
  match s.unitReads m tag ctx lo ((va + n + 63 - lo) / 64) with
  | (s, l, .done) => (s, ((l.flatMap (·.1)).drop (va - lo)).take n, l.any (·.2), .done)
  | (s, _, a) => (s, [], false, a)

end Sys2Proof.Machine
end

