-- ==== Sys2Proof/Machine/RodMatrix.lean ====
section
/-!
DEFINITION. The matrix unit and the long accumulator: ACC_CLEAR, MMV, ACC_DRAIN, ACC_SPILL and ACC_ADDREC (R176–R182,
R213–R218).
-/

namespace Sys2Proof.Machine

/-! ### The long accumulator (R178, R179) -/

/-- One product deposited: added exactly, or its flag set. -/
def Acc.deposit (a : Acc) (v : Num) : Acc :=
  match v with
  | .nan => { a with nan := true }
  | .inf neg => if neg then { a with negInf := true } else { a with posInf := true }
  | .fin neg n e =>
    let m : Int := (n * 2 ^ (e + 320).toNat : Nat)
    { a with val := a.val + BitVec.ofInt 640 (if neg then -m else m) }

/-- The exact value held. -/
def Acc.num (a : Acc) : Num := .fin (decide (a.val.toInt < 0)) a.val.toInt.natAbs (-320)

/-- The 128-byte record of an accumulator (Table 8.5). -/
def Acc.record (a : Acc) : List Byte :=
  leBytes 80 a.val.toNat ++ [byte (b2n a.nan + 2 * b2n a.posInf + 4 * b2n a.negInf + 8 * b2n a.poison)] ++ zeroBytes 47

/-- The accumulator a record stands for; none when a reserved bit or byte is not 0. -/
def Acc.ofRecord (b : List Byte) : Option Acc :=
  let f := field b 80 1
  if f / 16 = 0 ∧ zeros b 81 47 = true then
    some { val := BitVec.ofNat 640 (field b 0 80), nan := bit f 0, posInf := bit f 1, negInf := bit f 2, poison := bit f 3 }
  else none

/-- A record's accumulator added exactly, flags ORed (R181). -/
def Acc.merge (a b : Acc) : Acc :=
  { val := a.val + b.val, nan := a.nan || b.nan, posInf := a.posInf || b.posInf, negInf := a.negInf || b.negInf,
    poison := a.poison || b.poison }

/-! ### Draws of an instruction (R205, R288) -/

/-- The rounding-control fields of IMM (Table 9.3). -/
def immMode (imm : Nat) : Nat := bits imm 6 4
def immSat (imm : Nat) : Bool := bit imm 3
def immGen (imm : Nat) : Nat := bits imm 15 8
def immOp (imm : Nat) : Nat := imm % 8
def immP (imm : Nat) : Nat := bits imm 19 16
def immQ (imm : Nat) : Nat := bits imm 23 20

/-- The step counter after an instruction that drew. -/
def RodRegs.drew (r : RodRegs) (mode : Nat) : RodRegs := if mode = 5 then { r with step := r.step + 1 } else r

/-- A drawing instruction at the last DRAW is illegal (R288). -/
def drawSpent (r : RodRegs) (mode : Nat) : Bool := mode == 5 && drawField r.step == 0xFFFFF

/-! ### MMV (R176, R182, R213, R218) -/

/-- K per step per column of a format's class (Table 8.4). -/
def mmvK (f : Nat) : Nat :=
  let w := fmtPacked f
  if w = 4 then 32 else if w = 6 ∨ w = 8 then 16 else if w = 16 then 8 else if w = 32 then 2 else 1

/-- A matrix operand format (R176). -/
def mmvFormat (f : Nat) : Bool := f != 7 && f != 8 && f != 0xC && f < 0xF

/-- Whether an MMV's field values are allowed. -/
def mmvOk (w : RodWord) : Bool :=
  let mx := bit w.imm 16
  mmvFormat w.fa && mmvFormat w.fb && ((w.fa == 0xE) == (w.fb == 0xE)) && w.imm % 65536 != 0 && w.imm / 2 ^ 17 == 0 &&
    w.rsv == 0 && (if mx then fmtPacked w.fa ≤ 8 && fmtPacked w.fb ≤ 8 else w.d == 0)

/-- The value of a product with its scales (R213). -/
def mxProduct (mx : Bool) (ea eb : Nat) (v : Num) : Num :=
  if !mx then v
  else match v with
    | .nan => .nan
    | .inf neg => if ea = 255 ∨ eb = 255 then .nan else .inf neg
    | .fin neg n e =>
      if ea = 255 ∨ eb = 255 then .nan
      else if 254 + 238 < ea + eb then .inf neg
      else .fin neg n (e + ((ea + eb : Nat) : Int) - 254)

/-- The operands of an MMV: offsets, formats, K and the scale records' offset. -/
structure Mmv where
  a : Nat
  b : Nat
  fa : Nat
  fb : Nat
  k : Nat
  mx : Bool
  scale : Nat
deriving DecidableEq, Repr

/-- Bytes that `n` elements of a format from element `i` of an array at `off` touch: first offset and count. -/
def elemSpan (off f i n : Nat) : Nat × Nat :=
  let w := fmtPacked f
  let lo := w * i / 8
  (off + lo, (w * (i + n) + 7) / 8 - lo)

/-- `n` elements of a format from element `i` of an array in scratch, and whether they carry poison. -/
def Rod.elements (r : Rod) (off f i n : Nat) : List Nat × Bool :=
  let w := fmtPacked f
  let (lo, len) := elemSpan off f i n
  let x := leNat (cellRead r.scratch lo len) / 2 ^ (w * i % 8)
  ((List.range n).map fun j => elem x w j, badAt r.badLines lo len)

/-- Scales of step `i` for column `c`, and whether they carry poison (Table 9.6). -/
def Rod.scales (r : Rod) (m : Mmv) (i c : Nat) : Nat × Nat × Bool :=
  if m.mx then
    let rec_ := m.scale + 32 * (i * m.k / 32)
    ((cellGet r.scratch rec_).toNat, (cellGet r.scratch (rec_ + 1 + c)).toNat,
      badAt r.badLines rec_ 1 || badAt r.badLines (rec_ + 1 + c) 1)
  else (127, 127, false)

/-- Column `c` of step `i`: the exact products of its K terms, and whether an operand carries poison. -/
def Rod.column (r : Rod) (m : Mmv) (i c : Nat) : List Num × Bool :=
  let (xa, pa) := r.elements m.a m.fa (i * m.k) m.k
  let (xb, pb) := r.elements m.b m.fb (i * 16 * m.k + c * m.k) m.k
  let (ea, eb, ps) := r.scales m i c
  ((xa.zip xb).map fun x => mxProduct m.mx ea eb (mulNum (decodeFmt m.fa x.1) (decodeFmt m.fb x.2)), pa || pb || ps)

/-- One step of the long-accumulator path. -/
def Rod.mmvStep (r : Rod) (m : Mmv) (g : RodRegs) (i : Nat) : RodRegs :=
  (List.range 16).foldl (fun g c =>
    let (xs, p) := r.column m i c
    let a := xs.foldl Acc.deposit (g.getAcc c)
    g.setAcc c { a with poison := a.poison || p }) g

/-- One step of the binary64 path, columns 0–7: D_c ← fma(a, b_c, D_c), to nearest even (R182), with its exceptions. -/
def Rod.fmaStep (r : Rod) (m : Mmv) (x : RodRegs × Nat) (i : Nat) : RodRegs × Nat :=
  (List.range 8).foldl (fun x c =>
    let (xa, pa) := r.elements m.a 0xE i 1
    let (xb, pb) := r.elements m.b 0xE (i * 8 + c) 1
    let a := decodeFmt 0xE (xa.headD 0)
    let b := decodeFmt 0xE (xb.headD 0)
    let d := decodeFmt 0xE (x.1.getD c)
    let v := roundOp 0xE 0 false 0 (a.isNan || b.isNan || d.isNan) (addNum 0 (mulNum a b) d)
    (x.1.setD c v.code (bit x.1.pD c || pa || pb), Nat.lor x.2 v.ev)) x

/-- Columns of a class. -/
def mmvColumns (fa : Nat) : Nat := if fa = 0xE then 8 else 16

/-- Where an MMV's operands lie out of bounds or its scales misaligned. -/
def mmvFault (m : Mmv) (n : Nat) : Option Nat :=
  let endOf (off f count : Nat) : Nat := (elemSpan off f 0 count).1 + (elemSpan off f 0 count).2
  if 0x80000 < endOf m.a m.fa (n * m.k) ∨ 0x80000 < endOf m.b m.fb (n * m.k * mmvColumns m.fa) then some 2
  else if m.mx ∧ 0x80000 < m.scale + 32 * ((n - 1) * m.k / 32) + 32 then some 2
  else if m.mx ∧ m.scale % 32 ≠ 0 then some 3 else none

/-- The registers after N steps, with the exceptions raised. -/
def Rod.mmv (r : Rod) (m : Mmv) (n : Nat) : RodRegs × Nat :=
  if m.fa = 0xE then (List.range n).foldl (r.fmaStep m) (r.regs, 0)
  else ((List.range n).foldl (r.mmvStep m) r.regs, 0)

/-- MMV. -/
def execMmv (rod : Fin 544) (w : RodWord) (s : State) : Outcome :=
  rodRow rod 0x21 w (fun s r =>
    let g := r.regs
    let mx := bit w.imm 16
    let n := w.imm % 65536
    let m : Mmv := { a := g.getS w.a, b := g.getS w.b, fa := w.fa, fb := w.fb, k := min (mmvK w.fa) (mmvK w.fb), mx := mx,
                     scale := if mx then g.getS w.d else 0 }
    if !mmvOk w then .fault 1
    else if bit g.pS w.a || bit g.pS w.b || (mx && bit g.pS w.d) then .poison
    else match mmvFault m n with
      | some c => .fault c
      | none =>
        let (la, na) := elemSpan m.a m.fa 0 (n * m.k)
        let (lb, nb) := elemSpan m.b m.fb 0 (n * m.k * mmvColumns m.fa)
        let s := (s.checkScratch rod la na).checkScratch rod lb nb
        let s := if mx then s.checkScratch rod m.scale (32 * ((n - 1) * m.k / 32) + 32) else s
        let (g, ev) := (s.rod rod).mmv m n
        .done ((s.setRegs rod fun _ => g).tally .frm (rodFrame rod) 0x31 0 n (some r.ctx)) ev none) s

/-! ### Clearing, draining, spilling and adding records -/

/-- ACC_CLEAR: the accumulators in IMM[15:0], and D0–D7 with IMM[16] (R179). -/
def execAccClear (rod : Fin 544) (w : RodWord) (s : State) : Outcome :=
  rodRow rod 0x20 w (fun s _ =>
    legal w (w.d + w.a + w.b + w.fa + w.fb + w.imm / 2 ^ 17)
      (s.didRegs rod fun g =>
        let g := (idxs 16 fun c => bit w.imm c).foldl (fun g c => g.setAcc c {}) g
        if bit w.imm 16 then (List.range 8).foldl (fun g c => g.setD c 0 false) g else g)) s

/-- One column drained into a format (R214). -/
def drainColumn (fb mode : Nat) (sat : Bool) (draw : Nat) (a : Acc) : Rounded :=
  if a.nan || (a.posInf && a.negInf) then { code := (roundFmt fb mode sat draw .nan).code, ev := 1 }
  else if a.posInf || a.negInf then
    let r := roundFmt fb mode sat draw (.inf a.negInf)
    { r with ev := Nat.lor r.ev 4 }
  else if a.val = 0 then { code := (roundFmt fb mode sat draw (.fin false 0 0)).code }
  else roundFmt fb mode sat draw a.num

/-- Whether an ACC_DRAIN's field values are allowed (R180, R202, R214). -/
def drainOk (w : RodWord) : Bool :=
  w.a + w.b + w.rsv == 0 &&
    (if w.fa = 0xE then w.fb + w.imm == 0
     else w.fa == 0 && w.fb != 8 && w.fb < 0xF && w.imm / 65536 == 0 && immMode w.imm ≤ 5 && immOp w.imm == 0)

/-- The 16 results of a drain laid into a vector register, their exceptions and poison. -/
def State.drain (s : State) (r : Rod) (w : RodWord) : Nat × Nat × Bool :=
  let mode := immMode w.imm
  let rs := (List.range 16).map fun c => drainColumn w.fb mode (immSat w.imm)
    (if mode = 5 then s.rodDraw r (immGen w.imm) c else 0) (r.regs.getAcc c)
  (elems (fmtWidth w.fb) (rs.map (·.code)), rs.foldl (fun e x => Nat.lor e x.ev) 0,
    (List.range 16).any fun c => (r.regs.getAcc c).poison)

/-- ACC_DRAIN: the 16 sums rounded once into V[D], and the accumulators cleared unless IMM[7]; or D0–D7 copied (R180). -/
def execAccDrain (rod : Fin 544) (w : RodWord) (s : State) : Outcome :=
  rodRow rod 0x22 w (fun s r =>
    let f := rodFrame rod
    if !drainOk w || drawSpent r.regs (immMode w.imm) then .fault 1
    else
      let s := s.tally .frm f 0x32 0 1 (some r.ctx)
      if w.fa = 0xE then
        s.didRegs rod fun g => g.setV w.d (elems 64 ((List.range 8).map g.getD)) (g.pD % 256 != 0)
      else
        let (v, ev, p) := s.drain r w
        s.didRegs rod (fun g =>
          let g := (g.setV w.d v p).drew (immMode w.imm)
          if bit w.imm 7 then g else { g with acc := [], eAcc := 0 }) ev) s

/-- ACC_SPILL: 16 records to scratch at S[A], then cleared with IMM[0] (R181). -/
def execAccSpill (rod : Fin 544) (w : RodWord) (s : State) : Outcome :=
  rodRow rod 0x23 w (fun s r =>
    let a := r.regs.getS w.a
    legal w (w.d + w.b + w.fa + w.fb + w.imm / 2)
      (if bit r.regs.pS w.a then .poison
       else match r.scratchFault a 2048 128 true with
        | some c => .fault c
        | none =>
          let s := (List.range 16).foldl (fun s c =>
            s.scratchWrite rod (a + 128 * c) (r.regs.getAcc c).record (r.regs.getAcc c).poison) s
          .done (if bit w.imm 0 then s.setRegs rod fun g => { g with acc := [], eAcc := 0 } else s) 0 none)) s

/-- The 16 accumulators that records at an offset stand for; none when one has a nonzero reserved byte. -/
def Rod.records (r : Rod) (off : Nat) : Option (List Acc) :=
  (List.range 16).foldr (fun c l =>
    match l, Acc.ofRecord (cellRead r.scratch (off + 128 * c) 128) with
    | some l, some a => some ({ a with poison := a.poison || badAt r.badLines (off + 128 * c) 128 } :: l)
    | _, _ => none) (some [])

/-- ACC_ADDREC: 16 records at S[A] added exactly (R181). -/
def execAccAddrec (rod : Fin 544) (w : RodWord) (s : State) : Outcome :=
  rodRow rod 0x24 w (fun s r =>
    let a := r.regs.getS w.a
    legal w (w.d + w.b + w.fa + w.fb + w.imm)
      (if bit r.regs.pS w.a then .poison
       else match r.scratchFault a 2048 128 false with
        | some c => .fault c
        | none => match r.records a with
          | none => .fault 1
          | some l => s.didRegs rod fun g =>
              (List.range 16).foldl (fun g c => g.setAcc c ((g.getAcc c).merge (l.getD c {}))) g)) s

end Sys2Proof.Machine
end

