-- ==== Sys2Proof/Machine/Slices.lean ====
section
/-!
DEFINITION. Time-sharing: save records (Table 8.7), slice switches (R188–R193), tile boundaries (R288, R290, R294), stand-ins
(R187), and the zeroing of scratch and frame buffers (R185, R191).
-/

namespace Sys2Proof.Machine

/-! ### Save records (Tables 8.5, 8.7; R239) -/

/-- A stream cursor of 32 bytes: base, size, count, peer's count, flags. -/
def Cursor.bytes (c : Cursor) : List Byte :=
  leBytes 4 c.base ++ leBytes 4 c.size ++ leBytes 8 c.count ++ leBytes 8 c.peer ++
    [byte (b2n c.valid + 2 * b2n c.send + 4 * b2n c.closed)] ++ zeroBytes 7

/-- The cursor 32 bytes hold. -/
def Cursor.ofBytes (b : List Byte) : Cursor :=
  let f := field b 24 1
  { base := field b 0 4, size := field b 4 4, count := field b 8 8, peer := field b 16 8, valid := bit f 0, send := bit f 1,
    closed := bit f 2 }

/-- The loop-state word. -/
def loopWord (l : Option (Nat × Nat × Nat)) : Nat := match l with | some x => Config.packLoop x % 2 ^ 32 | none => 0

/-- A mask of accumulators with POISON set. -/
def RodRegs.accPoison (r : RodRegs) : Nat := maskOf 16 fun c => (r.getAcc c).poison

/-- The first 8 KiB of a save record. -/
def RodRegs.record (r : RodRegs) : List Byte :=
  leBytes 4 1 ++ leBytes 4 idrev ++ leBytes 8 r.step ++ leBytes 4 r.pc ++ leBytes 4 (b2n r.halted) ++ leBytes 4 r.codeBytes ++
    leBytes 4 (loopWord r.loop) ++ leBytes 16 (r.pS % 2 ^ 32 + r.pV % 2 ^ 32 * 2 ^ 32 + r.accPoison * 2 ^ 64 + r.pD % 256 * 2 ^ 80) ++
    zeroBytes 208 ++ ((List.range 32).flatMap fun n => leBytes 8 (r.getS n)) ++ ((List.range 8).flatMap fun n => leBytes 8 (r.getD n)) ++
    zeroBytes 448 ++ ((List.range 16).flatMap fun n => (r.getAcc n).record) ++
    ((List.range 32).flatMap fun n => leBytes 128 (r.getV n)) ++ (List.range 32).flatMap fun n => (tblGet r.cursors n {}).bytes

/-- Bytes cut into beads, all with one mark. -/
def beadsOf (b : List Byte) : (n : Nat) → List (List Byte × Bool)
  | 0 => []
  | n + 1 => (b.take 64, false) :: beadsOf (b.drop 64) n

/-- A rod's save record with `live` bytes of scratch, as beads with their marks: a line's poison goes with it (R152). -/
def Rod.saveBeads (r : Rod) (live : Nat) : List (List Byte × Bool) :=
  beadsOf r.regs.record 128 ++ (List.range (live / 64)).map fun l => (cellRead r.scratch (64 * l) 64, r.badLines.contains l)

/-- The registers the first 8 KiB of a record stand for. -/
def RodRegs.ofRecord (b : List Byte) : RodRegs :=
  let p := field b 0x20 16
  let word := field b 0x1C 4
  { step := field b 0x08 8, pc := field b 0x10 4, halted := bit (field b 0x14 4) 0, codeBytes := field b 0x18 4,
    loop := if word = 0 then none else Config.unpackLoop word
    pS := p % 2 ^ 32, pV := p / 2 ^ 32 % 2 ^ 32, pD := p / 2 ^ 80 % 256
    s := (List.range 32).map fun n => (n, field b (0x100 + 8 * n) 8)
    d := (List.range 8).map fun n => (n, field b (0x200 + 8 * n) 8)
    acc := (List.range 16).map fun n =>
      let a := (Acc.ofRecord ((b.drop (0x400 + 128 * n)).take 128)).getD {}
      (n, { a with poison := a.poison || bit p (64 + n) })
    v := (List.range 32).map fun n => (n, field b (0xC00 + 128 * n) 128)
    cursors := (List.range 32).map fun n => (n, Cursor.ofBytes ((b.drop (0x1C00 + 32 * n)).take 32)) }

/-! ### Where records lie -/

/-- The record VA and live bytes of a logical rod under a schedule entry (R191). -/
def State.slotOf (s : State) (f e k : Nat) : Nat × Nat := (s.entSave f e + k * (0x2000 + s.entLive f e), s.entLive f e)

/-- The record VA and live bytes of a rod for the context it holds: its context's entry, or the one it was restored under. -/
def State.recordOf (s : State) (i : Nat) : Option (Nat × Nat) :=
  let f := rodFrame i
  match s.logicalOf i, s.entryOf f (s.rod i).ctx with
  | some k, some e => some (s.slotOf f e k)
  | _, _ => (s.rod i).home

/-- A rod's record written to its slot (R191, step 1). -/
def State.saveRod (s : State) (i : Nat) : State × Access :=
  let r := s.rod i
  let f := rodFrame i
  match s.recordOf i with
  | none => (s, .failed stNoTranslation false 0)
  | some (va, live) =>
    let s := (s.checkParity i { s := 2 ^ 32 - 1, v := 2 ^ 32 - 1, acc := 0xFFFF, d := 0xFF }).checkScratch i 0 live
    let b := (s.rod i).saveBeads live
    match s.unitWrites (2 * f) (rodTag i) r.ctx va b with
    | (s, .done) => (s.tally .frm f 0x34 0 b.length (some r.ctx), .done)
    | x => x

/-- The job, stage and index within the stage that hold a logical rod of a frame for a context, once launched. -/
def State.jobAt (s : State) (f ctx k : Nat) : Option (Nat × Nat × Nat) :=
  s.jobs.findSome? fun j =>
    if j.2.ctx = ctx ∧ j.2.launched then
      ((List.range j.2.places.length).findSome? fun st =>
        let p := j.2.places.getD st (0, [])
        if p.1 = f then (p.2.findIdx? fun l => l == k).map fun n => (j.1, st, n) else none)
    else none

/-- The cursors the loader gives a rod of a stage (R239). -/
def Job.cursorsOf (j : Job) (stage n : Nat) : Tbl Cursor :=
  (j.endsOf stage n).foldl (fun t x =>
    tblPut t x.2.1 { base := j.rings.getD x.1 0, size := strDepth (mStream j.manifest x.1), valid := true, send := x.2.2 }) []

/-- A restored cursor agrees with the loader's placement in VALID, SEND and base. -/
def cursorsAgree (placed got : Tbl Cursor) : Bool :=
  (List.range 32).all fun n =>
    let a := tblGet placed n {}
    let b := tblGet got n {}
    a.valid == b.valid && a.send == b.send && a.base == b.base

/-! ### Tile starts (R290, R294) -/

/-- The spare can check: it passed self-test and is not QUARANTINED. -/
def State.spareOk (s : State) (f : Nat) : Bool := !bit s.boot.rodBad (17 * f + 16) && (s.rod (17 * f + 16)).st != .quarantined

/-- CHECK_DIV of a frame, and FRM_STATUS.CHECK_ON. -/
def State.checkDiv (s : State) (f : Nat) : Nat := s.actBits .frm f 0x040 15 0
def State.checkOn (s : State) (f : Nat) : Bool := s.checkDiv f != 0 && s.spareOk f && (s.frame f).spareFor.isNone

/-- A tile start counted; the one after CHECK_DIV starts, while the spare is free, is sampled: a spare promised to a stand-in is
not free (R294, R297). The spare takes a copy of the rod's architectural state (R295). -/
def State.sampleTile (s : State) (i : Nat) : State :=
  let f := rodFrame i
  let v := s.frame f
  match s.logicalOf i with
  | none => s
  | some k =>
    if !s.checkOn f then s
    else if s.checkDiv f ≤ v.tiles ∧ v.check.isNone ∧ v.request.isNone ∧ (s.rod (17 * f + 16)).st = .idle then
      let r := s.rod i
      let s := s.setRod (17 * f + 16) { st := .checking, ctx := r.ctx, job := r.job, regs := r.regs }
      s.setFrame f { v with tiles := 1, check := some { logical := k, snapshot := r.regs } }
    else s.setFrame f { v with tiles := v.tiles + 1 }

/-- A rod is about to start a tile: it halts and saves at STOP_TILE (R290), or the tile starts (R294). -/
def State.tileStart (s : State) (i : Nat) : State :=
  let r := s.rod i
  let stop := match r.job with
    | some (j, _, _) => (match tblGet? s.jobs j with | some v => v.stop | none => none)
    | none => none
  if stop = some (tileField r.regs.step) then
    s.setRod i { r with st := .saving, stepping := true, regs := { r.regs with halted := true } }
  else (s.setRod i { r with writes := 0, skip := 0, replay := [], poisonTile := false }).sampleTile i

/-! ### Switches -/

/-- A rod with nothing more to do before a switch: it saves. A wait on a stream ends a check, and its restore will be no tile
start (R237, R294, R297). -/
def State.saveForSwitch (s : State) (i : Nat) : State :=
  let f := rodFrame i
  let s := if (s.checkOf i).isSome then s.endCheck f else s
  let r := s.rod i
  let s := match s.logicalOf i with
    | some k => if r.wait.isSome then s.setFrame f { s.frame f with waited := (k, r.ctx) :: (s.frame f).waited } else s
    | none => s
  s.setRod i { s.rod i with st := .saving, wait := none }

/-- The spare takes a logical rod's place (R187): the replaced rod is zeroed and QUARANTINED; the spare, zeroed, restores. -/
def State.substitute (s : State) (f k cause : Nat) (entry : Option Nat) : State :=
  let i := 17 * f + k
  let v := s.frame f
  let s := s.setFrame f { v with spareFor := some k, request := none }
  let s := s.setRod i { st := .zeroing, leaving := true }
  let s := s.setRod (17 * f + 16) { st := .zeroing, incoming := entry }
  let s := s.postMgr { typ := 0x0031, cls := 2, source := 0x4000 + f,
                       detail := detail [(0, leBytes 2 f), (2, [byte k]), (3, [byte k]), (4, [byte cause])] }
  (s.raise .frm f 2).raise .rod i 3

/-- What a switch to an entry asks of the physical rod of logical rod `k` (R189, R190): a check of its tile ends (R297), and the grace
of a switch that it has not yet answered goes on. -/
def State.switchRod (s : State) (f : Nat) (cur : Option Nat) (k : Nat) : State :=
  let i := s.physRod f k
  if (s.rod i).st = .quarantined ∨ s.inVote i then s
  else
    let s := if (s.checkOf i).isSome then s.endCheck f else s
    let r := s.rod i
    let s := s.setRod i { r with incoming := cur, switching := true, switchAt := if r.st = .toTileEnd then r.switchAt else s.time }
    match r.st with
    | .running =>
      if r.regs.halted || r.wait.isSome then s.saveForSwitch i
      else s.setRod i { s.rod i with st := .toTileEnd }
    | .toTileEnd | .saving | .zeroing | .checking | .quarantined => s
    | .idle | .restoring =>
      match (s.frame f).request with
      | some (l, cause) => if l = k then s.substitute f k cause cur else s.setRod i { s.rod i with st := .zeroing }
      | none => s.setRod i { s.rod i with st := .zeroing }

/-- A switch to the current entry of a frame reaches its rods. -/
def State.switchAll (s : State) (f : Nat) : State :=
  (List.range 16).foldl (fun s k => s.switchRod f (s.frame f).cur k) s

/-- A slice switch starts in a frame: the entry current at this tick comes in, after the outcome of a vote under way (R298). -/
def State.startSwitch (s : State) (f : Nat) : State :=
  let cur := s.currentAt f s.tick.count
  let s := s.setFrame f { s.frame f with cur := cur }
  let s := s.tally .frm f 0x30 0
  if s.voting f then s.setFrame f { s.frame f with heldSwitch := true } else s.switchAll f

/-- SLICE_BOUNDARY (event 5 of R75): the next boundary's tick comes, or one already passed fires. -/
def execSliceBoundary (f : Fin 32) (s : State) : Outcome :=
  if s.clocked .frm f then
    if (s.frame f).cur ≠ s.currentAt f s.tick.count then
      onlyIf (!s.dueBefore s.tick.count 9) s fun s => s.startSwitch f
    else match s.nextBoundary f s.tick.count with
      | none => .next s
      | some t => onlyIf (!s.dueBefore t 9) s fun s => (s.elapseToTick t).startSwitch f
  else .next s

/-- A rod's context lost its rods, or its switch failed, while it was saving or restoring: it goes on to be zeroed. -/
def State.startRodZero (s : State) (i : Nat) : State :=
  let r := s.rod i
  if r.st = .quarantined then s
  else s.setRod i { st := .zeroing, incoming := r.incoming, switching := r.switching, leaving := r.leaving, switchAt := r.switchAt }

/-- SAVE_FAIL (Table 8.9), charged to a context. -/
def State.saveFail (s : State) (i : Nat) : State := ((s.raise .frm (rodFrame i) 4).rodFault i 7).startRodZero i

/-- STEP_STOPPED (Table 12.5). -/
def State.stepStopped (s : State) (i : Nat) : State :=
  let r := s.rod i
  match r.job with
  | none => s
  | some (j, st, n) =>
    s.postCtx r.ctx { typ := 0x0062, cls := 2, source := 0x4000,
                      detail := detail [(0, leBytes 2 j), (2, [byte st]), (3, [byte n]), (8, leBytes 8 r.regs.step)] }

/-- A vote of the frame waits for a third rod, and this rod may be it (R298, step 3). -/
def State.wantsThird (s : State) (i : Nat) : Bool :=
  match (s.frame (rodFrame i)).check with
  | some k => k.phase == 3 && k.third.isNone && some k.logical != s.logicalOf i && i % 17 != 16
  | none => false

/-- A rod becomes the third rod of its frame's vote. -/
def State.takeThird (s : State) (f pos : Nat) : State :=
  match (s.frame f).check with
  | some k => s.setCheck f (some { k with third := some pos })
  | none => s

/-- The third rod has loaded the tile's start: R's registers and live scratch, under R's identity (R298, steps 3 and 4). -/
def State.loadThird (s : State) (f pos : Nat) : State :=
  match (s.frame f).check with
  | none => s
  | some k =>
    let i := 17 * f + pos
    let p := s.physRod f k.logical
    let live := match s.recordOf p with | some x => x.2 | none => 0
    let r := s.rod p
    let own := s.rod i
    s.setRod i { st := .checking, ctx := r.ctx, job := r.job, regs := k.snapshot, replay := k.heard
                 scratch := r.scratch.filter (fun c => decide (c.1 < live)) ++ own.scratch.filter fun c => decide (live ≤ c.1)
                 badLines := r.badLines.filter (fun l => decide (64 * l < live)) ++ own.badLines.filter fun l => decide (live ≤ 64 * l)
                 upsets := own.upsets.filter fun u => decide (live ≤ 8 * u.1) }

/-- A rod goes idle; a vote that waits for a third rod takes it. -/
def State.restIdle (s : State) (i : Nat) : State :=
  let s := s.setRod i {}
  if s.wantsThird i then (s.takeThird (rodFrame i) (i % 17)).loadThird (rodFrame i) (i % 17) else s

/-- A rod's record has been written and nothing takes the rod: it is zeroed for its switch, or goes on with its next tile. -/
def State.resumeSaved (s : State) (i : Nat) (r : Rod) : State :=
  let s := s.setRod i r
  if r.switching then s.startRodZero i
  else
    let s := s.setRod i { r with st := .running }
    if r.regs.halted then s else s.tileStart i

/-- A rod's record has been written: it is zeroed for a switch, gives way to the spare, becomes a vote's third rod, or stays
halted at its STOP_TILE. -/
def State.saved (s : State) (i : Nat) : State :=
  let r := s.rod i
  let f := rodFrame i
  let v := s.frame f
  let k := s.logicalOf i
  let s := if r.stepping then s.stepStopped i else s
  let r := { r with stepping := false }
  if (v.check.any fun c => c.third == some (i % 17)) then s.loadThird f (i % 17)
  else match k, v.request with
    | some k, some (l, cause) =>
      if k = l ∧ i % 17 ≠ 16 then s.substitute f k cause (if r.switching then r.incoming else s.entryOf f r.ctx)
      else s.resumeSaved i r
    | _, _ => s.resumeSaved i r

/-- ROD_SAVE_DONE. -/
def execRodSaveDone (rod : Fin 544) (s : State) : Outcome :=
  onlyIf (s.clocked .rod rod && (s.rod rod).st == .saving) s fun s =>
    match s.saveRod rod with
    | (s, .wait) => s
    | (s, .failed _ _ _) => s.saveFail rod
    | (s, .done) => s.saved rod

/-- A stand-in requested for the logical rod that a rod holds: the logical rod and the cause. -/
def State.standIn (s : State) (i : Nat) : Option (Nat × Nat) :=
  match s.logicalOf i, (s.frame (rodFrame i)).request with
  | some k, some (l, cause) => if k = l ∧ i % 17 ≠ 16 then some (k, cause) else none
  | _, _ => none

/-- ROD_ZERO_DONE: scratch reads zero, and the incoming record is restored if its context has work here (R191, R192); a
stand-in requested meanwhile is made now (R193). -/
def execRodZeroDone (rod : Fin 544) (s : State) : Outcome :=
  let r := s.rod rod
  let f := rodFrame rod
  onlyIf (s.clocked .rod rod && r.st == .zeroing) s fun s =>
    if r.leaving then s.setRod rod { st := .quarantined }
    else match s.standIn rod with
      | some (k, cause) => s.substitute f k cause r.incoming
      | none => match r.incoming, s.logicalOf rod with
        | some e, some k =>
          let c := s.entCtx f e
          if s.entValid f e && (s.ctx c).st == .active then
            match s.jobAt f c k with
            | some j =>
              s.setRod rod { st := .restoring, ctx := c, job := some j, incoming := r.incoming, switching := true
                             home := some (s.slotOf f e k) }
            | none => s.restIdle rod
          else s.restIdle rod
        | _, _ => s.restIdle rod

/-- A record read back, checked (R191, R239). -/
def State.restored (s : State) (i : Nat) (l : List (List Byte × Bool)) : State :=
  let r := s.rod i
  let f := rodFrame i
  let b := (l.take 128).flatMap (·.1)
  let g := RodRegs.ofRecord b
  if field b 0 4 ≠ 1 ∨ field b 4 4 ≠ idrev ∨ (l.take 128).any (·.2) then s.saveFail i
  else
    let placed := match r.job with
      | some (j, st, n) => (match tblGet? s.jobs j with | some v => v.cursorsOf st n | none => [])
      | none => []
    if !cursorsAgree placed g.cursors then s.rodFault i 8
    else
      let live := l.drop 128
      let bad := (List.range live.length).filter fun n => (live.getD n ([], false)).2
      let s := s.setRod i { r with st := .running, regs := g, scratch := cellPuts [] 0 (live.flatMap (·.1)), badLines := bad,
                                   incoming := none, switching := false }
      let s := s.tally .frm f 0x34 1 l.length (some r.ctx)
      match s.logicalOf i with
      | none => s
      | some k =>
        if (s.frame f).waited.contains (k, r.ctx) then
          s.setFrame f { s.frame f with waited := (s.frame f).waited.erase (k, r.ctx) }
        else if g.halted then s
        else match (s.frame f).redo.find? fun x => x.logical == k && x.ctx == r.ctx with
          | none => s.tileStart i
          | some x =>
            let s := s.setFrame f { s.frame f with redo := (s.frame f).redo.erase x }
            s.setRod i { s.rod i with writes := 0, skip := x.skip, poisonTile := x.poison, replay := x.replay }

/-- ROD_RESTORE_DONE; a stand-in requested during the restore is made before the rod runs, the record being restored onto the spare
(R193). -/
def execRodRestoreDone (rod : Fin 544) (s : State) : Outcome :=
  onlyIf (s.clocked .rod rod && (s.rod rod).st == .restoring) s fun s =>
    match (s.rod rod).home with
    | none => s.saveFail rod
    | some (va, live) =>
      match s.unitReads (2 * rodFrame rod) (rodTag rod) (s.rod rod).ctx va (128 + live / 64) with
      | (s, _, .wait) => s
      | (s, _, .failed _ _ _) => s.saveFail rod
      | (s, l, .done) => match s.standIn rod with
        | some (k, cause) =>
          s.substitute (rodFrame rod) k cause ((s.rod rod).incoming.or (s.entryOf (rodFrame rod) (s.rod rod).ctx))
        | none => s.restored rod l

/-- TILE_OVERRUN: GRACE_US after the switch started. -/
def execTileOverrun (rod : Fin 544) (s : State) : Outcome :=
  let f := rodFrame rod
  onlyIf ((s.rod rod).st == .toTileEnd && !s.inVote rod) s fun s =>
    let s := s.elapseTo ((s.rod rod).switchAt + us (s.actBits .frm f 0x040 31 16))
    (((s.bump (pageBase .frm f + 0x814)).raise .frm f 1).rodFault rod 6).startRodZero rod

/-- FB_ZERO_DONE: every unit under zeroing reads zero. -/
def execFbZeroDone (f : Fin 32) (s : State) : Outcome :=
  onlyIf (s.clocked .frm f) s fun s =>
    let v := s.frame f
    let v := v.zeroing.foldl (fun v u => v.zeroUnit u) v
    s.setFrame f { v with zeroing := [], owners := v.owners.filter fun o => !(s.frame f).zeroing.contains o.1 }

/-! ### Jobs removed (R250) -/

/-- A rod of a job still has a tile to end. -/
def Rod.inTile (r : Rod) : Bool := (r.st == .running || r.st == .toTileEnd) && !r.regs.halted && r.wait.isNone

/-- The job's rings zeroed, in the partitions they lie in. -/
def State.zeroRings (s : State) (j : Job) : State :=
  (List.range (mStreams j.manifest)).foldl (fun s i =>
    let f := j.ringFrame i
    match s.partition f j.ctx with
    | none => s
    | some (b, _) =>
      let v := s.frame f
      let lo := b + j.rings.getD i 0
      let hi := lo + strDepth (mStream j.manifest i)
      s.setFrame f { v with fb := v.fb.filter fun c => decide (c.1 < lo ∨ hi ≤ c.1)
                            badLines := v.badLines.filter fun l => decide (64 * l < lo ∨ hi ≤ 64 * l) }) s

/-- A job whose removal waits and whose rods have all stopped is released and its JOB_REMOVE completed. -/
def State.tryRemove (s : State) (id : Nat) : State :=
  match tblGet? s.jobs id with
  | none => s
  | some j =>
    if j.removing.isSome ∧ (s.rods.any fun r => (r.2.job.any fun x => x.1 == id) && r.2.inTile) = false then
      (s.zeroRings j).dropJob id
    else s

/-- Every removal that can end. -/
def State.tryRemoves (s : State) : State := s.jobs.foldl (fun s j => s.tryRemove j.1) s

end Sys2Proof.Machine
end

