-- ==== Sys2Proof/Machine/Stream.lean ====
section
/-!
DEFINITION. SRECV, SSEND and their waits (R235–R238), TILE_END (R288, R296) and HALT.
-/

namespace Sys2Proof.Machine

/-- The job and index of the stream a rod names by its local ID, at the given end. -/
def State.streamOf (s : State) (r : Rod) (sid : Nat) (send : Bool) : Option (Nat × Nat) :=
  match r.job with
  | none => none
  | some (j, st, n) =>
    match tblGet? s.jobs j with
    | none => none
    | some v => ((v.endsOf st n).find? fun x => x.2.1 == sid && x.2.2 == send).map fun x => (j, x.1)

/-- A rod begins to wait: the spare of a check catches up, and a rod that was to reach TILE_END counts as having reached it
(R237). -/
def State.waitOn (s : State) (i : Nat) (w : RodWord) (send : Bool) : State :=
  let s := if (s.checkOf i).isSome then s.followAll (rodFrame i) else s
  let s := s.setRod i { s.rod i with wait := some (w, send) }
  if (s.rod i).stopping then (s.setRod i (s.rod i).clear).tryRemoves
  else if (s.rod i).st = .toTileEnd then s.saveForSwitch i else s

/-- A cursor of a rod changed. -/
def State.setCursor (s : State) (i sid : Nat) (f : Cursor → Cursor) : State :=
  s.setRegs i fun g => { g with cursors := tblPut g.cursors sid (f (tblGet g.cursors sid {})) }

/-- SSEND of V[A] to stream `k` of job `j`. -/
def State.sendElement (s : State) (i : Nat) (w : RodWord) (r : Rod) (j k : Nat) : Did :=
  let sid := w.imm % 32
  let c := tblGet r.regs.cursors sid {}
  let v := s.stream j k
  let size := match tblGet? s.jobs j with | some x => x.ringSize k | none => 0
  if v.taken + size ≤ c.count then .hold (s.waitOn i w true)
  else match s.ringOpen j k c.count with
    | (_, _, .bounds) => .fault 4
    | (_, _, .wait) => .stall
    | (s, _, .open_ _) =>
      let b := leBytes 128 (r.regs.getV w.a)
      let p := bit r.regs.pV w.a || r.poisonTile
      let s := s.outgoing i sid (.stream j k c.count b p) b p
      .done (s.setCursor i sid fun c => { c with count := c.count + 1, peer := v.taken }) 0 none

/-- SRECV of the next element of stream `k` of job `j` into V[D]; a tile that runs again after a vote is given what it received before. -/
def State.recvElement (s : State) (i : Nat) (w : RodWord) (r : Rod) (j k : Nat) : Did :=
  let sid := w.imm % 32
  let c := tblGet r.regs.cursors sid {}
  let v := s.stream j k
  let take (s : State) (b : List Byte) (p : Bool) : Did :=
    .done ((s.setCursor i sid fun c => { c with count := c.count + 1, peer := v.written }).setRegs i fun g => g.setV w.d (leNat b) p) 0 none
  match s.rehear i with
  | some (s, b, p) => take s b p
  | none =>
  if v.closed.any fun n => n ≤ c.count then
    .done (((s.hear i (zeroBytes 128) true).setCursor i sid fun c => { c with closed := true, peer := v.written }).setRegs i fun g =>
      g.setV w.d 0 true) 0 none
  else if v.written ≤ c.count then .hold (s.waitOn i w false)
  else match s.ringOpen j k c.count with
    | (_, _, .bounds) => .fault 4
    | (_, _, .wait) => .stall
    | (s, f, .open_ a) =>
      let s := s.checkFb f a 128
      let (b, p) := (s.frame f).read a 128
      let s := s.setStream j k { s.stream j k with taken := max v.taken (c.count + 1) }
      take (s.hear i b p) b p

/-- SSEND or SRECV: a stream the stage does not hold at that end is a STREAM fault (R238). -/
def State.streamOp (s : State) (i : Nat) (w : RodWord) (send : Bool) (r : Rod) : Did :=
  let c := tblGet r.regs.cursors (w.imm % 32) {}
  match s.streamOf r (w.imm % 32) send with
  | none => .fault 8
  | some (j, k) =>
    if !c.valid || c.send != send then .fault 8
    else if send then s.sendElement i w r j k else s.recvElement i w r j k

/-- SSEND. -/
def execSsend (rod : Fin 544) (w : RodWord) (s : State) : Outcome :=
  rodRow rod 0x61 w (fun s r => legal w (w.d + w.b + w.fa + w.fb + w.imm / 32) (s.streamOp rod w true r)) s

/-- SRECV. -/
def execSrecv (rod : Fin 544) (w : RodWord) (s : State) : Outcome :=
  rodRow rod 0x60 w (fun s r => legal w (w.a + w.b + w.fa + w.fb + w.imm / 32) (s.streamOp rod w false r)) s

/-- STREAM_WAIT_RESUME: the waiting instruction looks again, and proceeds when it finds an element or room. -/
def execStreamWaitResume (rod : Fin 544) (s : State) : Outcome :=
  match (s.rod rod).wait with
  | none => .next s
  | some (w, send) =>
    let t := s.setRod rod { s.rod rod with wait := none }
    onlyIf (t.rodReady rod) s fun _ => t.rodIssue rod (if send then 0x61 else 0x60) w fun s r => s.streamOp rod w send r

/-! ### Tile boundaries -/

/-- A check passes: S has executed the tile too, and every write, register and flag compared alike; the spare is free (R296). -/
def State.checkPassed (s : State) (i : Nat) : State :=
  if (s.checkOf i).isSome then
    let f := rodFrame i
    (((s.followAll f).setCheck f none).freeSpare f).bump (pageBase .frm f + 0x81C)
  else s

/-- Registers at the end of a tile that had no majority: every one carries poison (R299). -/
def RodRegs.poisoned (r : RodRegs) : RodRegs :=
  { r with pS := 2 ^ 32 - 1, pV := 2 ^ 32 - 1, pD := 255,
           acc := (List.range 16).map fun c => (c, { r.getAcc c with poison := true }) }

/-- What follows a TILE_END: the rod stops for a JOB_REMOVE, saves for a switch, a stand-in or a vote, or starts its next
tile. -/
def State.afterTile (s : State) (i : Nat) : State :=
  let r := s.rod i
  let f := rodFrame i
  if r.stopping then (s.setRod i r.clear).tryRemoves
  else if s.wantsThird i then (s.takeThird f (i % 17)).setRod i { r with st := .saving }
  else if r.st = .toTileEnd then s.saveForSwitch i
  else if ((s.frame f).request.map (·.1)) = s.logicalOf i ∧ (s.frame f).request.isSome then s.setRod i { r with st := .saving }
  else s.tileStart i

/-- The third rod reaches the end of the tile: its registers go into its signature, and it stops (R295, R298). -/
def State.thirdEnds (s : State) (i : Nat) : State :=
  let f := rodFrame i
  match (s.frame f).check with
  | some k => s.setCheck f (some { k with thirdEnd := true, thirdSig := signOn k.thirdSig (s.rod i).regs.record })
  | none => s

/-- TILE_END: DRAW 0, TILE one up (modulo 2⁴⁴), and what the boundary brings. -/
def execTileEnd (rod : Fin 544) (w : RodWord) (s : State) : Outcome :=
  rodRow rod 0x70 w (fun s r =>
    legal w (w.d + w.a + w.b + w.fa + w.fb + w.imm)
      (let s := s.setRegs rod fun g => ({ g with step := (tileField g.step + 1) % 2 ^ 44 * 2 ^ 20 } : RodRegs).advance none
       let s := if r.poisonTile then s.setRegs rod RodRegs.poisoned else s
       .ended (if s.runsVote rod then s.thirdEnds rod else (s.checkPassed rod).afterTile rod))) s

/-- HALT: the rod's work ends; under a switch it saves at once (R190). -/
def execHalt (rod : Fin 544) (w : RodWord) (s : State) : Outcome :=
  rodRow rod 0x72 w (fun s _ =>
    legal w (w.d + w.a + w.b + w.fa + w.fb + w.imm)
      (let s := if (s.checkOf rod).isSome then s.followAll (rodFrame rod) else s
       let s := s.setRegs rod fun g => { g.advance none with halted := true }
       .ended (if s.runsVote rod then s.thirdEnds rod
               else if (s.rod rod).stopping then (s.setRod rod (s.rod rod).clear).tryRemoves
               else if s.wantsThird rod then (s.takeThird (rodFrame rod) (rod % 17)).setRod rod { s.rod rod with st := .saving }
               else if (s.rod rod).st = .toTileEnd then s.saveForSwitch rod
               else s))) s

end Sys2Proof.Machine
end

