-- ==== Sys2Proof/Machine/Jobs.lean ====
section
/-!
DEFINITION. Jobs at their target (R244, R245, R250, R289): JOB_PLACE, JOB_STEP, JOB_LAUNCH and JOB_REMOVE.
-/

namespace Sys2Proof.Machine

/-! ### The placement record (assumption 38) -/

/-- Bytes of a placement record: job, launch tick, function IDs, the manifest, then per stage its frame and logical rods and per
stream its ring base. -/
def Job.record (j : Job) (id : Nat) : List Byte :=
  leBytes 2 id ++ zeroBytes 6 ++ leBytes 8 j.launch ++ ((List.range 16).flatMap fun i => leBytes 2 (j.fns.getD i 0xFFFF)) ++
    j.manifest ++ (j.places.flatMap fun p => byte p.1 :: zeroBytes 15 ++ (List.range 16).map fun i => byte (p.2.getD i 0xFF)) ++
    j.rings.flatMap (leBytes 4)

/-- Offset of the stage placements in a placement record, and its length. -/
def placeStages (b : List Byte) : Nat := 48 + mLength (b.drop 48)
def placeLength (b : List Byte) : Nat := placeStages b + 32 * mStages (b.drop 48) + 4 * mStreams (b.drop 48)

/-- The job a placement record describes. -/
def jobOfRecord (ctx : Nat) (b : List Byte) : Job :=
  let m := (b.drop 48).take (mLength (b.drop 48))
  let at_ := placeStages b
  { ctx := ctx, launch := field b 8 8, manifest := m
    places := (List.range (mStages m)).map fun i =>
      let e := b.drop (at_ + 32 * i)
      (field e 0 1, (List.range (stgRods (mStage m i))).map fun k => field e (16 + k) 1)
    rings := (List.range (mStreams m)).map fun i => field b (at_ + 32 * mStages m + 4 * i) 4
    fns := (List.range (mFuncs m)).map fun i => field b (16 + 2 * i) 2 }

/-- The frame of the job's first stage. -/
def Job.frame (j : Job) : Nat := (j.places.getD 0 (0, [])).1

/-! ### Sections and initial records (R244) -/

/-- What reading the job's sections came to. -/
inductive Sections where
  | ok (l : List (List (List Byte × Bool)))
  | wait
  /-- A section not wholly translatable: its index and the byte offset in 64 KiB units. -/
  | missing (index off : Nat)
deriving DecidableEq, Repr

/-- The sections from `i` on read through mover 0 of the job's first frame, under its context. -/
def State.readSections (s : State) (j : Job) : (i n : Nat) → State × Sections
  | _, 0 => (s, .ok [])
  | i, n + 1 =>
    let e := mSection j.manifest i
    match s.unitReads (2 * j.frame) loadTag j.ctx (secVa e) (secLen e / 64) with
    | (s, _, .wait) => (s, .wait)
    | (s, _, .failed _ _ va) => (s, .missing i ((va - secVa e) / 0x10000))
    | (s, l, .done) => (match s.readSections j (i + 1) n with
      | (s, .ok t) => (s, .ok (l :: t))
      | x => x)

/-- The first section whose digest differs. -/
def badDigest (m : List Byte) (l : List (List (List Byte × Bool))) : Option Nat :=
  (List.range l.length).find? fun i =>
    Config.shake256 256 ((l.getD i []).flatMap (·.1)) % 2 ^ 256 != secDigest (mSection m i)

/-- A bead of an image put into scratch at byte `at_`, which may be any: into one line or two. -/
def scratchBead (t : Tbl (List Byte × Bool)) (at_ : Nat) (b : List Byte × Bool) : Tbl (List Byte × Bool) :=
  let r := at_ % 64
  if r = 0 then tblPut t (at_ / 64) b
  else
    let old (k : Nat) : List Byte × Bool := tblGet t k (zeroBytes 64, false)
    let a := old (at_ / 64)
    let c := old (at_ / 64 + 1)
    tblPut (tblPut t (at_ / 64) (a.1.take r ++ b.1.take (64 - r), a.2 || b.2)) (at_ / 64 + 1)
      (b.1.drop (64 - r) ++ c.1.drop r, b.2 || c.2)

/-- Scratch of a stage built from its kind-0 sections: the beads by line. -/
def stageScratch (m : List Byte) (l : List (List (List Byte × Bool))) (stage : Nat) : Tbl (List Byte × Bool) :=
  (List.range l.length).foldl (fun t i =>
    let e := mSection m i
    if secKind e = 0 ∧ secStage e = stage then
      let beads := l.getD i []
      (List.range beads.length).foldl (fun t k => scratchBead t (secOffset e + 64 * k) (beads.getD k (zeroBytes 64, false))) t
    else t) []

/-- The initial save record of rod `n` of a stage, as beads. -/
def Job.initial (j : Job) (l : List (List (List Byte × Bool))) (stage n live : Nat) : List (List Byte × Bool) :=
  let e := mStage j.manifest stage
  let g : RodRegs := { pc := stgPc e, codeBytes := stgCode e, cursors := j.cursorsOf stage n }
  let t := stageScratch j.manifest l stage
  beadsOf g.record 128 ++ (List.range (live / 64)).map fun k => tblGet t k (zeroBytes 64, false)

/-- Where a logical rod's record lies for a context: under its active schedule entry, or under the shadow one a swap is to
bring. -/
def State.placeSlot (s : State) (f ctx k : Nat) : Option (Nat × Nat) :=
  match s.entryOf f ctx with
  | some e => some (s.slotOf f e k)
  | none =>
    let t : State := { s with active := s.shadow }
    (t.entryOf f ctx).map fun e => t.slotOf f e k

/-- The logical rods a job uses: stage, index within it, frame and logical rod. -/
def Job.rodsOf (j : Job) : List (Nat × Nat × Nat × Nat) :=
  (List.range j.places.length).flatMap fun st =>
    let p := j.places.getD st (0, [])
    (List.range p.2.length).map fun n => (st, n, p.1, p.2.getD n 0)

/-- The initial records of a list of rods written. -/
def State.writeRecords (s : State) (j : Job) (l : List (List (List Byte × Bool))) :
    List (Nat × Nat × Nat × Nat) → State × Access
  | [] => (s, .done)
  | (st, n, f, k) :: t =>
    match s.placeSlot f j.ctx k with
    | none => (s, .failed stRefusedLoad false 0)
    | some (va, live) =>
      match s.unitWrites (2 * f) loadTag j.ctx va (j.initial l st n live) with
      | (s, .done) => s.writeRecords j l t
      | x => x

/-- Completion of a JOB_PLACE or JOB_LOAD with REFUSED_LOAD: reason, index and detail of Table 10.7. -/
def State.refuseLoad (s : State) (key reason index count : Nat) : State :=
  s.complete key stRefusedLoad ([byte reason, byte index] ++ leBytes 2 count ++ zeroBytes 4)

/-! ### JOB_PLACE -/

/-- A command the load engine or the key-value service cannot finish yet, kept until a completion lets it look again. -/
def State.engineWait (s : State) (key : Nat) : State :=
  let s := match s.slot? key with
    | some v => s.setSlot key { v with accepted := some (v.accepted.getD (s.tick.count, s.tick.locked)) }
    | none => s
  if s.placing.contains key then s else { s with placing := s.placing ++ [key] }

/-- The tick at which a command was accepted, and whether TICK_LOCKED was set then: now, unless it has waited. -/
def State.acceptedAt (s : State) (v : InSlot) : Nat × Bool := v.accepted.getD (s.tick.count, s.tick.locked)

/-- A placed job recorded with its functions LOADED. -/
def State.addJob (s : State) (id : Nat) (j : Job) : State :=
  let s := s.setJob id j
  (List.range j.fns.length).foldl (fun s i => s.setFn (j.fns.getD i 0) { job := id, index := i }) s

/-- JOB_PLACE acted on: reasons 0x0F to 0x11 in order, TICK_LOCKED, then the records (R242, R244, R74). The launch tick is compared
with the count at acceptance. -/
def State.actJobPlace (s : State) (key : Nat) : State :=
  match s.slot? key with
  | none => s
  | some v =>
    let b := v.pkt.own
    let id := field b 0 2
    if b.length < 112 ∨ b.length < placeLength b ∨ zeros b 2 6 = false ∨ 1024 ≤ id ∨ (tblGet? s.jobs id).isSome then
      s.complete key stMalformed
    else if (s.ctx v.ctx).st ≠ .active then s.complete key stContextGone
    else
      let j := jobOfRecord v.ctx b
      match s.readSections j 0 (mSections j.manifest) with
      | (s, .wait) => s.engineWait key
      | (s, .missing i off) => s.refuseLoad key 0x0F i off
      | (s, .ok l) =>
        match badDigest j.manifest l with
        | some i => s.refuseLoad key 0x10 i 0
        | none =>
          if j.launch < (s.acceptedAt v).1 + s.actBits .clk 0 0x040 15 0 * 1000 then s.refuseLoad key 0x11 0xFF 0
          else if !(s.acceptedAt v).2 then s.complete key stBusy
          else match s.writeRecords j l j.rodsOf with
            | (s, .wait) => s.engineWait key
            | (s, .failed _ _ _) => s.refuseLoad key 0x08 0xFF 0
            | (s, .done) => (s.addJob id j).complete key stOk

/-- JOB_PLACE. -/
def execJobPlace (port : Fin 16) (p : Packet) (s : State) : Outcome := .next (s.arrive (mgrCmd 0xA2) port p State.actJobPlace)

/-! ### JOB_STEP (R289) -/

/-- The checks of JOB_STEP, made at its acceptance. -/
def State.stepCheck (s : State) (v : InSlot) : Nat :=
  let b := v.pkt.own
  if (s.ctx v.ctx).st ≠ .active then stContextGone
  else if v.accepted.isSome then stOk
  else if !s.memberOrMgr v then stPermission
  else match tblGet? s.jobs (field b 0 2) with
    | none => stFnDisabled
    | some j =>
      if j.ctx ≠ v.ctx then stFnDisabled
      else if b.length ≠ 32 ∨ zeros b 2 6 = false ∨ j.launched ∨ j.launch < s.tick.count + s.actBits .clk 0 0x040 15 0 * 1000 ∨
          field b 16 8 % 2 ^ 20 ≠ 0 ∨ bits (field b 24 8) 62 44 ≠ 0 then stMalformed
      else stOk

/-- STEP0 written into the step counter of the initial records of a list of rods. -/
def State.writeSteps (s : State) (ctx step0 : Nat) : List (Nat × Nat × Nat × Nat) → State × Access
  | [] => (s, .done)
  | (_, _, f, k) :: t =>
    match s.placeSlot f ctx k with
    | none => (s, .failed stNoTranslation false 0)
    | some (va, _) =>
      match s.unitPart (2 * f) loadTag ctx (va + 8) (leBytes 8 step0) false with
      | (s, .done) => s.writeSteps ctx step0 t
      | x => x

/-- JOB_STEP acted on. -/
def State.actJobStep (s : State) (key : Nat) : State :=
  match s.slot? key with
  | none => s
  | some v => s.ifOk key (s.stepCheck v) fun s =>
      let b := v.pkt.own
      match tblGet? s.jobs (field b 0 2) with
      | none => s.complete key stFnDisabled
      | some j =>
        match s.writeSteps j.ctx (field b 16 8) j.rodsOf with
        | (s, .wait) => s.engineWait key
        | (s, .failed st _ _) => s.complete key st
        | (s, .done) =>
          let stop := field b 24 8
          (s.setJob (field b 0 2) { j with seed := field b 8 8, step0 := field b 16 8
                                           stop := if bit stop 63 then some (stop % 2 ^ 44) else none }).complete key stOk

/-- JOB_STEP. -/
def execJobStep (port : Fin 16) (p : Packet) (s : State) : Outcome := .next (s.arrive (ctxCmd 0xA7) port p State.actJobStep)

/-! ### JOB_LAUNCH (R245) -/

/-- A rod of a job launched: restored at once when its context's entry is current and the rod is idle. -/
def State.launchRod (s : State) (id : Nat) (j : Job) (x : Nat × Nat × Nat × Nat) : State :=
  let (st, n, f, k) := x
  let i := s.physRod f k
  match (s.frame f).cur with
  | none => s
  | some e =>
    if s.entCtx f e = j.ctx ∧ (s.rod i).st = .idle ∧ s.inVote i = false then
      s.setRod i { st := .restoring, ctx := j.ctx, job := some (id, st, n), home := some (s.slotOf f e k) }
    else s

/-- A time-slice boundary or a pipeline launch, events 5 and 6 of R75, is due at a tick or before it and has not happened. -/
def State.rodsDue (s : State) (tick : Nat) : Bool :=
  ((List.range 32).any fun f => s.clocked .frm f && (s.frame f).cur != s.currentAt f tick) ||
    s.jobs.any fun j => !j.2.launched && decide (j.2.launch ≤ tick)

/-- JOB_LAUNCH: event 6 of R75, after the boundaries of the same tick. -/
def execJobLaunch (job : Nat) (s : State) : Outcome :=
  match tblGet? s.jobs job with
  | none => .next s
  | some j =>
    let t := s.elapseToTick j.launch
    let due := t.dueBefore j.launch 10 || j.places.any fun p => (t.frame p.1).cur != t.currentAt p.1 t.tick.count
    onlyIf (!j.launched && !due) s fun _ =>
      let s := t.setJob job { j with launched := true }
      let s := { s with fns := tblMap s.fns fun _ f => if f.job = job ∧ f.st = .loaded then { f with st := .enabled } else f }
      j.rodsOf.foldl (fun s x => s.launchRod job j x) s

/-! ### JOB_REMOVE (R250) -/

/-- A rod of a removed job: it stops at its next TILE_END, and at once when it is halted, waiting or between slices. -/
def Rod.stopFor (r : Rod) (id : Nat) : Rod :=
  if (r.job.map (·.1)) ≠ some id ∨ r.st = .quarantined ∨ r.st = .idle ∨ r.st = .zeroing ∨ r.st = .checking then r
  else if r.inTile then { r with stopping := true } else r.clear

/-- JOB_REMOVE acted on: rods stop at their next TILE_END, and those halted, waiting or between slices at once. -/
def State.actJobRemove (s : State) (key : Nat) : State :=
  match s.slot? key with
  | none => s
  | some v =>
    let b := v.pkt.own
    let id := field b 0 2
    match tblGet? s.jobs id with
    | none => s.complete key stFnDisabled
    | some j =>
      if b.length ≠ 8 ∨ zeros b 2 6 = false then s.complete key stMalformed
      else if j.ctx ≠ v.ctx then s.complete key stFnDisabled
      else
        let s := s.setJob id { j with removing := some key }
        let s := { s with rods := tblMap s.rods fun _ r => r.stopFor id }
        s.tryRemove id

/-- JOB_REMOVE. -/
def execJobRemove (port : Fin 16) (p : Packet) (s : State) : Outcome := .next (s.arrive (mgrCmd 0xA3) port p State.actJobRemove)

end Sys2Proof.Machine
end

