-- ==== Sys2Proof/Machine/Functions.lean ====
section
/-!
DEFINITION. Functions and their calls (R246–R249): INVOKE, entering the pipeline, reply groups (R247, R277), FN_DISABLE,
FN_ENABLE and FN_STATUS.
-/

namespace Sys2Proof.Machine

/-! ### Streams with a function end -/

/-- Elements a stream's ring has room for, and holds. -/
def State.ringRoom (s : State) (job i : Nat) : Nat :=
  match tblGet? s.jobs job with
  | some j => let v := s.stream job i; j.ringSize i - (v.written - v.taken)
  | none => 0
def State.ringHeld (s : State) (job i : Nat) : Nat := let v := s.stream job i; v.written - v.taken

/-- Bytes written to a stream as consecutive elements; none where its partition cannot take all of them now. -/
def State.pushElements (s : State) (job i : Nat) (b : List Byte) (poison : Bool) : (n : Nat) → Option State
  | 0 => some s
  | n + 1 =>
    let k := (s.stream job i).written
    match s.ringOpen job i k with
    | (s, f, .open_ a) => (s.putElement job i k f a (b.take 128) poison).pushElements job i (b.drop 128) poison n
    | _ => none

/-- The next element of a stream lies outside its context's partition. -/
def State.ringLost (s : State) (job i : Nat) : Bool :=
  match s.ringOpen job i (s.stream job i).written with
  | (_, _, .bounds) => true
  | _ => false

/-- The next element of a stream taken: of a closed one, zeros marked poisoned (R238); none when there is none. -/
def State.popElement (s : State) (job i : Nat) : State × Option (List Byte × Bool) :=
  let v := s.stream job i
  if v.closed.any fun n => n ≤ v.taken then (s, some (zeroBytes 128, true))
  else if v.written ≤ v.taken then (s, none)
  else match s.ringOpen job i v.taken with
    | (s, f, .open_ a) =>
      let s := s.checkFb f a 128
      (s.setStream job i { s.stream job i with taken := v.taken + 1 }, some ((s.frame f).read a 128))
    | (s, _, _) => (s, none)

/-! ### INVOKE (R246, R247) -/

/-- A function of a context. -/
def State.fnOf (s : State) (n ctx : Nat) : Option Fn :=
  match tblGet? s.fns n with
  | some v => if s.fnCtx v = ctx then some v else none
  | none => none

/-- Rows of R246 from the state of the function on. -/
def State.callRow (s : State) (v : Fn) : Row7 :=
  match v.st with
  | .loaded => .refuse stBusy
  | .disabling | .disabled => .refuse stFnDisabled
  | .enabled => if fnDepth (s.fnEntryOf v) ≤ v.waiting.length then .refuse stBusy else .pass none 0

/-- The rows of R246. -/
def State.invokeRow (s : State) (p : Packet) (ctx : Nat) : Row7 :=
  if (s.ctx ctx).st ≠ .active then .refuse stContextGone
  else match s.fnOf (p.arg % 1024) ctx with
    | none => .refuse stFnDisabled
    | some v => if p.body.length ≠ fnArgBytes (s.fnEntryOf v) then .refuse stMalformed else s.callRow v

/-- A call waits at a function. -/
def State.addCall (s : State) (n : Nat) (c : Call) : State :=
  match tblGet? s.fns n with
  | none => s
  | some v => s.setFn n { v with waiting := v.waiting ++ [c] }

/-- INVOKE acted on. -/
def State.actInvoke (s : State) (key : Nat) : State :=
  match s.slot? key with
  | none => s
  | some v => s.addCall (v.pkt.arg % 1024) { slot := key, entry := v.pkt.body, poison := v.poison }

/-- Rules of INVOKE. -/
def invokeRules : Rules :=
  { form := fun p => p.ofType tInvoke, sourceOk := fun s p => p.context != 0 || s.fromManager p, row7 := State.invokeRow
    reply := fun s p => match s.fnOf (p.arg % 1024) p.context with | some v => fnReplyBytes (s.fnEntryOf v) | none => 0 }

/-- INVOKE. -/
def execInvoke (port : Fin 16) (p : Packet) (s : State) : Outcome := .next (s.arrive invokeRules port p State.actInvoke)

/-- CALL_ENTER: the first waiting call enters once the entry stream has room for all of it and its arguments stand there. -/
def execCallEnter (fn : Fin 1024) (s : State) : Outcome :=
  match tblGet? s.fns fn with
  | none => .next s
  | some v =>
    match v.waiting with
    | [] => .next s
    | c :: t =>
      let i := fnEntry (s.fnEntryOf v)
      let n := (c.entry.length + 127) / 128
      onlyIf (c.ready && n ≤ s.ringRoom v.job i) s fun s =>
        match s.pushElements v.job i c.entry c.poison n with
        | none => s
        | some s => s.setFn fn { v with waiting := t, inPipe := v.inPipe ++ [{ c with entry := [] }] }

/-! ### Replies (R247, R277) -/

/-- Bytes of the ML and O parts of an ATTEND reply, each padded to 128, from its request's body and the head dimension. -/
def attendMl (b : List Byte) : Nat := (field b 0x10 2 * field b 7 1 * 8 + 127) / 128 * 128
def attendO (b : List Byte) (d : Nat) : Nat := (field b 0x10 2 * field b 7 1 * d * (fmtWidth (field b 0x13 1) / 8) + 127) / 128 * 128

/-- Head dimension of a context's profile. -/
def State.kvD (s : State) (ctx : Nat) : Nat := match tblGet? s.kvs.profiles ctx with | some p => 32 * p.d32 | none => 0

/-- The group of an ATTEND is as R277 has it: MARKER, and EXTRA for its request. -/
def State.groupOk (s : State) (v : InSlot) (g : List Byte) : Bool :=
  field g 0 4 == 0xA77E0002 && field g 4 4 == (attendMl v.pkt.body + attendO v.pkt.body (s.kvD v.ctx)) / 128

/-- Elements of the reply stream a call needs in all, as far as those taken tell. -/
def State.replyNeed (s : State) (f : Fn) (c : Call) : Nat :=
  let n := fnReplyBytes (s.fnEntryOf f) / 128
  if !c.attend ∨ c.reply.length < 128 * n then n
  else n + (match s.slot? c.slot with
    | some v => if s.groupOk v c.reply then field c.reply 4 4 else min (field c.reply 4 4) 65536
    | none => min (field c.reply 4 4) 65536)

/-- Elements taken for a call until it has what it needs or the stream holds no more. -/
def State.takeReply (s : State) (f : Fn) (c : Call) : (fuel : Nat) → State × Call
  | 0 => (s, c)
  | fuel + 1 =>
    if s.replyNeed f c ≤ c.reply.length / 128 then (s, c)
    else match s.popElement f.job (fnReply (s.fnEntryOf f)) with
      | (s, none) => (s, c)
      | (s, some (b, p)) => s.takeReply f { c with reply := c.reply ++ b, badReply := c.badReply || p } fuel

/-- FN_EMPTY once a DISABLING function has no call left (R248). -/
def State.fnSettled (s : State) (n : Nat) : State :=
  match tblGet? s.fns n with
  | none => s
  | some v =>
    if v.st = .disabling ∧ v.waiting.isEmpty ∧ v.inPipe.isEmpty then
      (s.setFn n { v with st := .disabled }).postCtx (s.fnCtx v)
        { typ := 0x0041, cls := 2, source := 0x4000, detail := detail [(0, leBytes 2 n), (2, [byte v.mode])] }
    else s

/-- An ATTEND's reply group complete (R277). -/
def State.attendReply (s : State) (n : Nat) (f : Fn) (c : Call) (v : InSlot) : State :=
  let size := fnReplyBytes (s.fnEntryOf f)
  if !s.groupOk v c.reply then
    let s := ((s.bump 0xE0824).raise .kvs 0 1).postCtx v.ctx
      { typ := 0x0053, cls := 1, source := 0x4000, detail := detail [(0, leBytes 2 n), (8, (v.pkt.body.drop 0x20).take 8)] }
    s.abortCall c stMalformed
  else
    let st := field c.reply 8 1
    let status := if c.badReply then stPoison else if 1 ≤ st ∧ st ≤ 0x11 then st else stOk
    if status = stOk ∨ status = stPoison then
      s.endCall c status (attendHead v.pkt.body c.blocks ++ c.reply.drop size)
    else s.abortCall c status

/-- REPLY_GROUP_READY: the module takes what the reply stream holds for the oldest call in the pipeline, and completes the call
when its group is whole; a discarded call's group is dropped (R247, R248). -/
def execReplyGroupReady (fn : Fin 1024) (s : State) : Outcome :=
  match tblGet? s.fns fn with
  | none => .next s
  | some f =>
    match f.inPipe with
    | [] => .next s
    | c :: t =>
      onlyIf (s.ringHeld f.job (fnReply (s.fnEntryOf f)) != 0 || (s.stream f.job (fnReply (s.fnEntryOf f))).closed.isSome) s fun s =>
        let (s, c) := s.takeReply f c (65536 + 4096)
        if c.reply.length / 128 < s.replyNeed f c then s.setFn fn { f with inPipe := c :: t }
        else
          let s := if c.discarded then s
            else match s.slot? c.slot with
              | none => s
              | some v => if c.attend then s.attendReply fn f c v else s.endCall c (okOrPoison c.badReply) c.reply
          (s.setFn fn { f with inPipe := t }).fnSettled fn

/-! ### FN_DISABLE, FN_ENABLE, FN_STATUS (R240, R248, R249) -/

/-- Checks common to the commands on a function: context, sender, a body of 8 bytes of which `used` have a meaning, function. -/
def State.fnCheck (s : State) (v : InSlot) (used : Nat) : Nat :=
  let b := v.pkt.own
  if (s.ctx v.ctx).st ≠ .active then stContextGone
  else if !s.memberOrMgr v then stPermission
  else if b.length ≠ 8 ∨ zeros b used (8 - used) = false then stMalformed
  else if (s.fnOf (field b 0 2) v.ctx).isNone then stFnDisabled
  else stOk

/-- FN_DISABLE acted on. -/
def State.actFnDisable (s : State) (key : Nat) : State :=
  match s.slot? key with
  | none => s
  | some v => s.ifOk key (s.fnCheck v 3) fun s =>
      let n := field v.pkt.own 0 2
      let mode := field v.pkt.own 2 1
      match tblGet? s.fns n with
      | none => s
      | some f =>
        if 1 < mode then s.complete key stMalformed
        else match f.st with
          | .loaded => s.complete key stBusy
          | .disabling | .disabled => s.complete key stOk
          | .enabled =>
            let s := s.setFn n { f with st := .disabling, mode := mode, waiting := if mode = 1 then [] else f.waiting
                                        inPipe := if mode = 1 then f.inPipe.map fun c => { c with discarded := true } else f.inPipe }
            let s := if mode = 1 then s.abortCalls f stFnDisabled else s
            (s.fnSettled n).complete key stOk

/-- FN_DISABLE. -/
def execFnDisable (port : Fin 16) (p : Packet) (s : State) : Outcome := .next (s.arrive (ctxCmd 0xA4) port p State.actFnDisable)

/-- FN_ENABLE acted on. -/
def State.actFnEnable (s : State) (key : Nat) : State :=
  match s.slot? key with
  | none => s
  | some v => s.ifOk key (s.fnCheck v 2) fun s =>
      let n := field v.pkt.own 0 2
      match tblGet? s.fns n with
      | none => s
      | some f => match f.st with
        | .disabled => (s.setFn n { f with st := .enabled }).complete key stOk
        | .enabled => s.complete key stOk
        | .loaded | .disabling => s.complete key stBusy

/-- FN_ENABLE. -/
def execFnEnable (port : Fin 16) (p : Packet) (s : State) : Outcome := .next (s.arrive (ctxCmd 0xA5) port p State.actFnEnable)

/-- Codes of a function's state in FN_STATUS, in the order of R248. -/
def FnState.code : FnState → Nat
  | .loaded => 0
  | .enabled => 1
  | .disabling => 2
  | .disabled => 3

/-- FN_STATUS acted on. -/
def State.actFnStatus (s : State) (key : Nat) : State :=
  match s.slot? key with
  | none => s
  | some v => s.ifOk key (s.fnCheck v 2) fun s =>
      match tblGet? s.fns (field v.pkt.own 0 2) with
      | none => s
      | some f => s.complete key stOk (leBytes 2 f.st.code ++ leBytes 2 f.waiting.length ++ leBytes 4 f.inPipe.length)

/-- FN_STATUS. -/
def execFnStatus (port : Fin 16) (p : Packet) (s : State) : Outcome := .next (s.arrive (ctxCmd 0xA6) port p State.actFnStatus)

end Sys2Proof.Machine
end

