-- ==== Sys2Proof/Machine/Kv.lean ====
section
/-!
DEFINITION. Key-value sessions (R262–R273): profiles and pools, the session commands, expiry and release, and the move engine.
-/

namespace Sys2Proof.Machine

/-! ### Profiles and pools (R262, R263) -/

/-- A profile from a KV_SETUP body (Table 11.1). -/
def profileOf (b : List Byte) : Profile :=
  { layers := field b 0 2, heads := field b 2 1, d32 := field b 3 1, tokens := field b 4 2, nearFmt := field b 6 1, farFmt := field b 7 1
    fn := field b 8 2, demote := bit (field b 0x0A 1) 0, promote := bit (field b 0x0A 1) 1, farMx := bit (field b 0x0A 1) 2
    high := field b 0x0C 1, low := field b 0x0D 1, nearVa := field b 0x10 8, nearSlots := field b 0x18 4, farVa := field b 0x20 8
    farSlots := field b 0x28 4 }

/-- The formats of a near block. -/
def nearFormat (f : Nat) : Bool := f == 4 || f == 5 || f == 6 || f == 0xA || f == 0xB

/-- Every field of a KV_SETUP body lies in its range. -/
def profileOk (b : List Byte) : Bool :=
  let p := profileOf b
  b.length == 64 && 1 ≤ p.layers && p.layers ≤ 512 && 1 ≤ p.heads && p.heads ≤ 64 && 1 ≤ p.d32 && p.d32 ≤ 8 &&
    [16, 32, 64, 128].contains p.tokens && nearFormat p.nearFmt && (if p.farMx then mxFormat p.farFmt else nearFormat p.farFmt) &&
    p.fn < 1024 && field b 0x0A 1 < 8 && zeros b 0x0B 1 && 50 ≤ p.high && p.high ≤ 99 && 10 ≤ p.low && p.low + 5 ≤ p.high &&
    zeros b 0x0E 2 && p.nearVa % 0x10000 == 0 && 1 ≤ p.nearSlots && zeros b 0x1C 4 && p.farVa % 0x10000 == 0 &&
    (p.demote || (p.farVa == 0 && p.farSlots == 0)) && zeros b 0x2C 20

/-- D, and the bytes of a head segment near and far (R263). -/
def Profile.d (p : Profile) : Nat := 32 * p.d32
def Profile.segN (p : Profile) : Nat := 2 * p.tokens * p.d * fmtPacked p.nearFmt / 8
def Profile.segF (p : Profile) : Nat := 2 * p.tokens * p.d * fmtPacked p.farFmt / 8 + if p.farMx then 2 * p.tokens * p.d / 32 else 0

/-- Bytes rounded up to a multiple. -/
def roundUp (n k : Nat) : Nat := (n + k - 1) / k * k

/-- Slot strides, bitmap sizes and slot addresses of a profile's pools: near, or far. -/
def Profile.stride (p : Profile) (far : Bool) : Nat :=
  if far then roundUp (p.heads * p.segF) 4096 else roundUp (max (p.heads * p.segN) (p.heads * p.segF)) 4096
def Profile.slots (p : Profile) (far : Bool) : Nat := if far then p.farSlots else p.nearSlots
def Profile.poolVa (p : Profile) (far : Bool) : Nat := if far then p.farVa else p.nearVa
def Profile.mapBytes (p : Profile) (far : Bool) : Nat := (p.slots far + 7) / 8
def Profile.slotVa (p : Profile) (far : Bool) (i : Nat) : Nat :=
  p.poolVa far + roundUp (p.mapBytes far) 0x10000 + i * p.stride far
def Profile.poolBytes (p : Profile) (far : Bool) : Nat :=
  if p.slots far = 0 then 0 else roundUp (p.mapBytes far) 0x10000 + p.slots far * p.stride far

/-- The slot of a pool that an address names. -/
def Profile.slotAt (p : Profile) (far : Bool) (va : Nat) : Option Nat :=
  let base := p.slotVa far 0
  let i := (va - base) / p.stride far
  if base ≤ va ∧ (va - base) % p.stride far = 0 ∧ i < p.slots far then some i else none

/-- Every 64 KiB of a range is translatable with the permission `ok`. -/
def State.rangeOk (s : State) (ctx va n : Nat) (ok : LkEntry → Bool) : State × Bool :=
  (List.range ((va + n + 0xFFFF) / 0x10000 - va / 0x10000)).foldl (fun (a : State × Bool) i =>
    if a.2 then match a.1.innerWalk [] ctx ((va / 0x10000 + i) * 0x10000) with
      | (s, .ok e, _) => (s, ok e)
      | (s, _, _) => (s, false)
    else a) (s, true)

/-- A profile's pools are wholly translatable with R and W, each in its tier, and do not overlap (R262). -/
def State.poolsOk (s : State) (ctx : Nat) (p : Profile) : State × Bool :=
  let tier (far : Bool) (e : LkEntry) : Bool := e.r && e.w && (decide (2 ^ 40 ≤ e.pa) == far)
  match s.rangeOk ctx p.nearVa (p.poolBytes false) (tier false) with
  | (s, false) => (s, false)
  | (s, true) => match s.rangeOk ctx p.farVa (p.poolBytes true) (tier true) with
    | (s, a) => (s, a && decide (p.nearVa + p.poolBytes false ≤ p.farVa ∨ p.farVa + p.poolBytes true ≤ p.nearVa ∨ p.slots true = 0))

/-- A free-slot bitmap with every slot free: bit i of the bitmap stands for slot i and is 1 while the slot is free (assumption 40). -/
def freshMap (slots : Nat) : List Byte := leBytes ((slots + 7) / 8) (2 ^ slots - 1)

/-! ### Access to tables and bitmaps -/

/-- The profile of a context. -/
def State.profile (s : State) (ctx : Nat) : Option Profile := tblGet? s.kvs.profiles ctx

/-- Bytes read by the key-value service under a context. -/
def State.kvRead (s : State) (ctx va n : Nat) : State × List Byte × Bool × Access := s.unitData kvsUnit kvsTag ctx va n

/-- Bytes written by it, all or none. -/
def State.kvWrite (s : State) (ctx : Nat) (t : Tbl BeadPart) : State × Access := s.unitCommit kvsUnit kvsTag ctx t

/-- A free-slot bitmap as a number. -/
def State.kvMap (s : State) (ctx : Nat) (p : Profile) (far : Bool) : State × Nat × Access :=
  match s.kvRead ctx (p.poolVa far) (p.mapBytes far) with
  | (s, b, _, a) => (s, leNat b % 2 ^ p.slots far, a)

/-- The bytes of a bitmap that differ from an old one, as writes. -/
def mapParts (t : Tbl BeadPart) (va n old new : Nat) : Tbl BeadPart :=
  (List.range n).foldl (fun t i => if bits old (8 * i + 7) (8 * i) = bits new (8 * i + 7) (8 * i) then t
    else gatherParts t (va + i) (plain [byte (bits new (8 * i + 7) (8 * i))])) t

/-- One block-table entry (Table 11.4). -/
structure KvEntry where
  addr : Nat := 0
  kind : Nat := 0
  fmt : Nat := 0
  flags : Nat := 0
  owner : Nat := 0
deriving DecidableEq, Repr

def kvEntryOf (b : List Byte) : KvEntry :=
  { addr := field b 0 8, kind := field b 8 1, fmt := field b 9 1, flags := field b 0x0A 1, owner := field b 0x0C 2 }
def KvEntry.bytes (e : KvEntry) : List Byte :=
  leBytes 8 e.addr ++ [byte e.kind, byte e.fmt, byte e.flags, 0] ++ leBytes 2 e.owner ++ [0, 0]

/-- VA of the entry of flat index `i` = layer × MAX_BLOCKS + block (R267). -/
def Session.entryVa (v : Session) (i : Nat) : Nat := v.btab + 16 * i

/-- Entries from a flat index on. -/
def State.kvEntries (s : State) (v : Session) (i n : Nat) : State × List KvEntry × Bool × Access :=
  match s.kvRead v.ctx (v.entryVa i) (16 * n) with
  | (s, b, bad, a) => (s, (List.range n).map fun k => kvEntryOf (b.drop (16 * k)), bad, a)

/-- Slots in use raised or lowered. -/
def State.useSlots (s : State) (ctx : Nat) (far : Bool) (d : Int) : State :=
  let t := if far then s.kvs.farUsed else s.kvs.nearUsed
  let n := ((tblGet t ctx 0 : Nat) + d).toNat
  let s : State := { s with kvs := if far then { s.kvs with farUsed := tblPut t ctx n } else { s.kvs with nearUsed := tblPut t ctx n } }
  if far ∧ d < 0 then { s with kvs := { s.kvs with farFull := s.kvs.farFull.erase ctx } } else s

/-- Near slots of a context in use. -/
def State.nearUsed (s : State) (ctx : Nat) : Nat := tblGet s.kvs.nearUsed ctx 0

/-- Occupancy of the near pool against a percentage. -/
def State.nearAbove (s : State) (ctx pct : Nat) (p : Profile) : Bool := decide (pct * p.nearSlots < s.nearUsed ctx * 100)
def State.nearBelow (s : State) (ctx pct : Nat) (p : Profile) : Bool := decide (s.nearUsed ctx * 100 < pct * p.nearSlots)

/-- Occupancy looked at: above HIGH_PCT demotion starts, at LOW_PCT or below it stops; promotion stops at LOW_PCT (R270). -/
def State.watchNear (s : State) (ctx : Nat) : State :=
  match s.profile ctx with
  | none => s
  | some p =>
    let s : State := if s.nearBelow ctx p.low p then s
      else { s with kvs := { s.kvs with promoting := s.kvs.promoting.filter fun i => (tblGet s.kvs.sessions i {}).ctx != ctx } }
    if s.nearAbove ctx p.high p then
      let s := s.raise .kvs 0 2
      { s with kvs := { s.kvs with demoting := if p.demote && !s.kvs.demoting.contains ctx then s.kvs.demoting ++ [ctx] else s.kvs.demoting } }
    else if s.nearAbove ctx p.low p then s
    else { s with kvs := { s.kvs with demoting := s.kvs.demoting.erase ctx } }

/-! ### Handles and standing checks (R264, R266, R269) -/

/-- Handle of a session. -/
def Session.handle (v : Session) (i : Nat) : Nat := v.gen * 65536 + i

/-- The session a handle names in a context at tick `now`; past its EXPIRE_TICK none. -/
def State.sessionAt (s : State) (now ctx h : Nat) : Option (Nat × Session) :=
  let i := h % 16384
  let v := s.session i
  if bits h 15 14 = 0 ∧ v.st ≠ .free ∧ v.ctx = ctx ∧ v.gen = h / 65536 ∧ !(v.expire.any fun t => t ≤ now) then some (i, v) else none

/-- The session a handle names in a context now. -/
def State.sessionOf (s : State) (ctx h : Nat) : Option (Nat × Session) := s.sessionAt s.tick.count ctx h

/-- The session that a command names, by the tick of its acceptance. -/
def State.sessionFor (s : State) (v : InSlot) (h : Nat) : Option (Nat × Session) := s.sessionAt (s.acceptedAt v).1 v.ctx h

/-- The key-value service runs. -/
def State.kvRuns (s : State) : Bool := s.clocked .kvs 0 && s.boot.level != 3

/-- The checks every session command passes before its own, made at its acceptance. -/
def State.kvCheck (s : State) (v : InSlot) (setup : Bool) (size : Nat) : Nat :=
  if (s.ctx v.ctx).st ≠ .active then stContextGone
  else if v.accepted.isSome then stOk
  else if !s.isMember v.ctx v.src then stPermission
  else if !s.kvRuns || (!setup && (s.profile v.ctx).isNone) then stFnDisabled
  else if v.pkt.own.length ≠ size then stMalformed
  else stOk

/-- Sessions of a context that are not FREE. -/
def State.sessionsOf (s : State) (ctx : Nat) : Nat := tblCount s.kvs.sessions fun _ v => v.ctx == ctx && v.st != .free

/-- KV_SETUP acted on (R262). -/
def State.actKvSetup (s : State) (key : Nat) : State :=
  match s.slot? key with
  | none => s
  | some v => s.ifOk key (s.kvCheck v true 64) fun s =>
      let p := profileOf v.pkt.own
      if s.sessionsOf v.ctx ≠ 0 then s.complete key stBusy
      else if !profileOk v.pkt.own then s.complete key stMalformed
      else match s.poolsOk v.ctx p with
        | (s, false) => s.complete key stMalformed
        | (s, true) =>
          let near := gatherParts [] p.nearVa (plain (freshMap p.nearSlots))
          let all := if p.farSlots = 0 then near else gatherParts near p.farVa (plain (freshMap p.farSlots))
          match s.kvWrite v.ctx all with
          | (s, .wait) => s.engineWait key
          | (s, .failed st _ _) => s.complete key st
          | (s, .done) =>
            State.complete { s with kvs := { s.kvs with
              profiles := tblPut s.kvs.profiles v.ctx p, nearUsed := tblDel s.kvs.nearUsed v.ctx, farUsed := tblDel s.kvs.farUsed v.ctx
              farFull := s.kvs.farFull.erase v.ctx, demoting := s.kvs.demoting.erase v.ctx
              moves := s.kvs.moves.filter fun m => m.ctx != v.ctx } } key stOk

/-- KV_SETUP. -/
def execKvSetup (port : Fin 16) (p : Packet) (s : State) : Outcome := .next (s.arrive (ctxCmd 0xB0) port p State.actKvSetup)

/-! ### SESSION_OPEN and SESSION_FORK (R266, R268) -/

/-- EXPIRE_TICK for the LIFETIME of a command: from its acceptance on. -/
def State.expiry (s : State) (v : InSlot) (life : Nat) : Option Nat := if life = 0 then none else some ((s.acceptedAt v).1 + life)

/-- A FREE record, which of them being a free value; none raises SESSIONS_FULL. -/
def State.freeRecord (s : State) : State × Option Nat :=
  match idxs 16384 fun i => (s.session i).st == .free with
  | [] => (s.raise .kvs 0 3, none)
  | i :: t =>
    let (r, s) := s.free
    (s, some ((i :: t).getD (r % (t.length + 1)) i))

/-- Checks of a new session's table, made at acceptance: the range of MAX_BLOCKS, its translation with W, then the context's limit. -/
def State.tableCheck (s : State) (v : InSlot) (p : Profile) (btab maxBlocks : Nat) : State × Nat :=
  let ctx := v.ctx
  if v.accepted.isSome then (s, stOk)
  else if maxBlocks = 0 ∨ 65536 < maxBlocks then (s, stMalformed)
  else match s.rangeOk ctx btab (p.layers * maxBlocks * 16) fun e => e.w with
    | (s, false) => (s, stMalformed)
    | (s, true) => (s, if tblGet s.kvs.limits ctx 0 ≤ s.sessionsOf ctx then stQuota else stOk)

/-- A new session's table written and its record opened. -/
def State.openSession (s : State) (key : Nat) (v : Session) (table : List KvEntry) : State :=
  match s.freeRecord with
  | (s, none) => s.complete key stBusy
  | (s, some i) =>
    match s.kvWrite v.ctx (gatherParts [] v.btab (plain (table.flatMap KvEntry.bytes))) with
    | (s, .wait) => s.engineWait key
    | (s, .failed st _ _) => s.complete key st
    | (s, .done) =>
      let g := (s.session i).gen
      let v := { v with gen := if g = 0xFFFF then 1 else g + 1, st := .opened }
      let s := s.setSession i v
      let s := match v.parent with
        | some q => s.setSession q { s.session q with refs := (s.session q).refs + 1 }
        | none => s
      s.complete key stOk (leBytes 4 (v.handle i))

/-- SESSION_OPEN acted on. -/
def State.actSessionOpen (s : State) (key : Nat) : State :=
  match s.slot? key with
  | none => s
  | some v => s.ifOk key (s.kvCheck v false 24) fun s =>
      let b := v.pkt.own
      match s.profile v.ctx with
      | none => s
      | some p =>
        if zeros b 12 4 = false then s.complete key stMalformed
        else
          let n := field b 8 4
          match s.tableCheck v p (field b 0 8) n with
          | (s, st) => s.ifOk key st fun s =>
              s.openSession key { ctx := v.ctx, btab := field b 0 8, maxBlocks := n, lastTick := (s.acceptedAt v).1, expire := s.expiry v (field b 16 8) }
                (List.replicate (p.layers * n) {})

/-- SESSION_OPEN. -/
def execSessionOpen (port : Fin 16) (p : Packet) (s : State) : Outcome := .next (s.arrive (ctxCmd 0xB1) port p State.actSessionOpen)

/-- The child's entry for a source entry (R268): it names the entry of the block's owner. -/
def sharedEntry (va : Nat) (e : KvEntry) : KvEntry := { addr := if e.kind = 3 then e.addr else va, kind := 3, owner := e.owner }

/-- The child's table: SHARED below `blocks` blocks of each layer, EMPTY above. -/
def State.forkTable (s : State) (src : Session) (blocks maxBlocks : Nat) : (layers : List Nat) → State × List KvEntry × Access
  | [] => (s, [], .done)
  | l :: t =>
    match s.kvEntries src (l * src.maxBlocks) blocks with
    | (s, es, _, .done) =>
      let mine := (List.range blocks).map fun b => sharedEntry (src.entryVa (l * src.maxBlocks + b)) (es.getD b {})
      (match s.forkTable src blocks maxBlocks t with
        | (s, rest, a) => (s, mine ++ List.replicate (maxBlocks - blocks) {} ++ rest, a))
    | (s, _, _, a) => (s, [], a)

/-- SESSION_FORK acted on. -/
def State.actSessionFork (s : State) (key : Nat) : State :=
  match s.slot? key with
  | none => s
  | some v => s.ifOk key (s.kvCheck v false 32) fun s =>
      let b := v.pkt.own
      match s.profile v.ctx, s.sessionFor v (field b 0 4) with
      | none, _ => s.complete key stFnDisabled
      | some _, none => s.complete key stRevoked
      | some p, some (q, src) =>
        let n := field b 4 4
        let blocks := n / p.tokens
        let maxBlocks := field b 16 4
        if src.st ≠ .opened ∧ v.accepted = none then s.complete key stRevoked
        else if n % p.tokens ≠ 0 ∨ n < p.tokens ∨ src.valid < n ∨ maxBlocks < blocks ∨ zeros b 20 4 = false then s.complete key stMalformed
        else match s.tableCheck v p (field b 8 8) maxBlocks with
          | (s, st) => s.ifOk key st fun s => match s.forkTable src blocks maxBlocks (List.range p.layers) with
            | (s, _, .wait) => s.engineWait key
            | (s, _, .failed st _ _) => s.complete key st
            | (s, table, .done) =>
              s.openSession key { ctx := v.ctx, btab := field b 8 8, maxBlocks := maxBlocks, valid := n, cap := n, shared := n
                                  parent := some q, lastTick := (s.acceptedAt v).1, expire := s.expiry v (field b 24 8) } table

/-- SESSION_FORK. -/
def execSessionFork (port : Fin 16) (p : Packet) (s : State) : Outcome := .next (s.arrive (ctxCmd 0xB2) port p State.actSessionFork)

/-! ### Candidates for demotion (R270) -/

/-- Blocks of a session, by flat index, that are candidates for demotion. -/
def State.candidatesOf (s : State) (p : Profile) (i : Nat) (v : Session) : State × List Nat :=
  let whole := v.valid / p.tokens
  (List.range p.layers).foldl (fun (a : State × List Nat) l =>
    match a.1.kvEntries v (l * v.maxBlocks) whole with
    | (s, es, _, .done) =>
      let ok (b : Nat) : Bool :=
        let e := es.getD b {}
        e.kind == 1 && e.owner == i && !bit e.flags 2 && e.fmt == p.nearFmt
      (s, a.2 ++ (idxs whole ok).map fun b => l * v.maxBlocks + b)
    | (s, _, _, _) => (s, a.2)) (s, [])

/-- Sessions of a context not FREE, by LAST_TICK, oldest first. -/
def insertByTick (x : Nat × Session) : List (Nat × Session) → List (Nat × Session)
  | [] => [x]
  | y :: t => if x.2.lastTick < y.2.lastTick then x :: y :: t else y :: insertByTick x t
def State.byAge (s : State) (ctx : Nat) : List (Nat × Session) :=
  (s.kvs.sessions.filter fun v => v.2.ctx == ctx && v.2.st != .free).foldl (fun l x => insertByTick x l) []

/-- The next block to demote in a context: session and flat index. -/
def State.nextDemotion (s : State) (p : Profile) : (sessions : List (Nat × Session)) → State × Option (Nat × Nat)
  | [] => (s, none)
  | (i, v) :: t => match s.candidatesOf p i v with
    | (s, []) => s.nextDemotion p t
    | (s, b :: _) => (s, some (i, b))

/-- A move under way: it has not written its entry (R272). -/
def Move.copying (m : Move) : Bool := m.waitFor.isNone

/-! ### SESSION_EXTEND (R266) -/

/-- Flat indexes of the EMPTY blocks that an extension to `blocks` blocks allocates. -/
def State.emptyBlocks (s : State) (p : Profile) (v : Session) (blocks : Nat) : (layers : List Nat) → State × List Nat × Access
  | [] => (s, [], .done)
  | l :: t =>
    let first := v.shared / p.tokens
    match s.kvEntries v (l * v.maxBlocks + first) (blocks - first) with
    | (s, es, _, .done) =>
      let mine := (idxs (blocks - first) fun b => (es.getD b {}).kind == 0).map fun b => l * v.maxBlocks + first + b
      (match s.emptyBlocks p v blocks t with
        | (s, rest, a) => (s, mine ++ rest, a))
    | (s, _, _, a) => (s, [], a)

/-- SESSION_EXTEND acted on. -/
def State.actSessionExtend (s : State) (key : Nat) : State :=
  match s.slot? key with
  | none => s
  | some v => s.ifOk key (s.kvCheck v false 8) fun s =>
      let b := v.pkt.own
      match s.profile v.ctx, s.sessionFor v (field b 0 4) with
      | none, _ => s.complete key stFnDisabled
      | some _, none => s.complete key stRevoked
      | some p, some (i, x) =>
        let n := field b 4 4
        if n < x.cap ∨ x.maxBlocks * p.tokens < n then s.complete key stMalformed
        else match s.emptyBlocks p x ((n + p.tokens - 1) / p.tokens) (List.range p.layers) with
          | (s, _, .wait) => s.engineWait key
          | (s, _, .failed st _ _) => s.complete key st
          | (s, need, .done) => match s.kvMap v.ctx p false with
            | (s, _, .wait) => s.engineWait key
            | (s, _, .failed st _ _) => s.complete key st
            | (s, map, .done) =>
              let open_ := idxs p.nearSlots fun k => bit map k
              if open_.length < need.length then
                let (s, next) := s.nextDemotion p (s.byAge v.ctx)
                s.complete key (if p.demote && next.isSome then stBusy else stQuota)
              else
                let (r, s) := s.free
                let k := r % max 1 open_.length
                let take := (open_.drop k ++ open_.take k).take need.length
                let map' := take.foldl (fun m k => setBit m k false) map
                let parts := (List.range need.length).foldl (fun t k =>
                  let e : KvEntry := { addr := p.slotVa false (take.getD k 0), kind := 1, fmt := p.nearFmt, owner := i }
                  gatherParts t (x.entryVa (need.getD k 0)) (plain e.bytes)) (mapParts [] p.nearVa (p.mapBytes false) map map')
                match s.kvWrite v.ctx parts with
                | (s, .wait) => s.engineWait key
                | (s, .failed st _ _) => s.complete key st
                | (s, .done) =>
                  let s := (s.useSlots v.ctx false need.length).setSession i { x with cap := n }
                  (s.watchNear v.ctx).complete key stOk

/-- SESSION_EXTEND. -/
def execSessionExtend (port : Fin 16) (p : Packet) (s : State) : Outcome := .next (s.arrive (ctxCmd 0xB3) port p State.actSessionExtend)

/-! ### The other session commands -/

/-- A session command on a handle, once its standing checks pass. -/
def State.onSession (s : State) (key size : Nat) (act : State → InSlot → Nat → Session → State) : State :=
  match s.slot? key with
  | none => s
  | some v => s.ifOk key (s.kvCheck v false size) fun s => match s.sessionFor v (field v.pkt.own 0 4) with
    | none => s.complete key stRevoked
    | some (i, x) => act s v i x

/-- SESSION_COMMIT acted on. -/
def State.actSessionCommit (s : State) (key : Nat) : State :=
  s.onSession key 8 fun s v i x =>
    let n := field v.pkt.own 4 4
    if n < x.valid ∨ x.cap < n then s.complete key stMalformed else (s.setSession i { x with valid := n }).complete key stOk

/-- SESSION_COMMIT. -/
def execSessionCommit (port : Fin 16) (p : Packet) (s : State) : Outcome := .next (s.arrive (ctxCmd 0xB4) port p State.actSessionCommit)

/-- SESSION_CLOSE acted on. -/
def State.actSessionClose (s : State) (key : Nat) : State :=
  s.onSession key 8 fun s v i x =>
    if zeros v.pkt.own 4 4 = false then s.complete key stMalformed
    else (s.setSession i { x with st := .closing }).complete key stOk

/-- SESSION_CLOSE. -/
def execSessionClose (port : Fin 16) (p : Packet) (s : State) : Outcome := .next (s.arrive (ctxCmd 0xB5) port p State.actSessionClose)

/-- SESSION_RENEW acted on: only on an OPEN session. -/
def State.actSessionRenew (s : State) (key : Nat) : State :=
  s.onSession key 16 fun s v i x =>
    if zeros v.pkt.own 4 4 = false then s.complete key stMalformed
    else if x.st ≠ .opened then s.complete key stRevoked
    else (s.setSession i { x with expire := s.expiry v (field v.pkt.own 8 8) }).complete key stOk

/-- SESSION_RENEW. -/
def execSessionRenew (port : Fin 16) (p : Packet) (s : State) : Outcome := .next (s.arrive (ctxCmd 0xB6) port p State.actSessionRenew)

/-- Blocks a session owns near and far, by its table. -/
def State.ownedBlocks (s : State) (p : Profile) (i : Nat) (v : Session) : State × List KvEntry × Access :=
  match s.kvEntries v 0 (p.layers * v.maxBlocks) with
  | (s, es, _, a) => (s, es.filter fun e => (e.kind == 1 || e.kind == 2) && e.owner == i, a)

/-- Codes of a session's state in KV_STATUS, in the order of R265. -/
def SessState.code : SessState → Nat
  | .free => 0
  | .opened => 1
  | .closing => 2

/-- KV_STATUS acted on. -/
def State.actKvStatus (s : State) (key : Nat) : State :=
  s.onSession key 8 fun s v i x =>
    match s.profile v.ctx with
    | none => s
    | some p =>
      if zeros v.pkt.own 4 4 = false then s.complete key stMalformed
      else match s.ownedBlocks p i x with
        | (s, _, .wait) => s.engineWait key
        | (s, _, .failed st _ _) => s.complete key st
        | (s, es, .done) =>
          let n (k : Nat) : Nat := (es.filter fun e => e.kind == k).length
          s.complete key stOk ([byte x.st.code, 0, 0, 0] ++ leBytes 2 x.refs ++ leBytes 2 x.calls ++ leBytes 4 x.valid ++ leBytes 4 x.cap ++
            leBytes 4 x.shared ++ leBytes 4 (n 1) ++ leBytes 4 (n 2) ++ leBytes 4 (x.expire.getD 0))

/-- KV_STATUS. -/
def execKvStatus (port : Fin 16) (p : Packet) (s : State) : Outcome := .next (s.arrive (ctxCmd 0xB7) port p State.actKvStatus)

/-! ### Expiry and release (R265, R269) -/

/-- A record with a session's handle (Table 11.11). -/
def sessionRecord (typ : Nat) (v : Session) (i : Nat) : Record :=
  { typ := typ, cls := 2, source := 0x4000, detail := detail [(0, leBytes 4 (v.handle i))] }

/-- SESSION_EXPIRE. -/
def execSessionExpire (session : Fin 16384) (s : State) : Outcome :=
  let v := s.session session
  match v.expire with
  | none => .next s
  | some t => onlyIf (v.st == .opened) s fun s =>
      let s := (s.elapseToTick t).setSession session { v with st := .closing }
      s.postCtx v.ctx (sessionRecord 0x0050 v session)

/-- The slots of a list of entries returned to their bitmaps. -/
def State.returnSlots (s : State) (ctx : Nat) (p : Profile) (es : List KvEntry) : State × Access :=
  let slotsOf (far : Bool) : List Nat := (es.filter fun e => e.kind == if far then 2 else 1).filterMap fun e => p.slotAt far e.addr
  match s.kvMap ctx p false with
  | (s, near, .done) => (match if p.farSlots = 0 then (s, 0, .done) else s.kvMap ctx p true with
    | (s, far, .done) =>
      let put (m : Nat) (l : List Nat) : Nat := l.foldl (fun m k => setBit m k true) m
      let t := mapParts [] p.nearVa (p.mapBytes false) near (put near (slotsOf false))
      let t := mapParts t p.farVa (p.mapBytes true) far (put far (slotsOf true))
      (match s.kvWrite ctx t with
        | (s, .done) => ((s.useSlots ctx false (-(slotsOf false).length)).useSlots ctx true (-(slotsOf true).length), .done)
        | (s, a) => (s, a))
    | (s, _, a) => (s, a))
  | (s, _, a) => (s, a)

/-- SESSION_FREE: owned slots go back to their pools, the parent loses a reference, SESSION_FREE is posted. Slots whose table or
bitmap can no longer be reached are not returned. -/
def execSessionFree (session : Fin 16384) (s : State) : Outcome :=
  let v := s.session session
  onlyIf (v.st == .closing && v.calls == 0 && v.refs == 0 && !(s.kvs.moves.any fun m => m.session == session.val && m.copying)) s fun s =>
    let i := session.val
    let release (s : State) : State :=
      let s := s.setSession i { gen := v.gen }
      let s := match v.parent with
        | some q => s.setSession q { s.session q with refs := (s.session q).refs - 1 }
        | none => s
      let s : State := { s with kvs := { s.kvs with promoting := s.kvs.promoting.erase i } }
      (s.watchNear v.ctx).postCtx v.ctx (sessionRecord 0x0051 v i)
    match s.profile v.ctx with
    | none => release s
    | some p => match s.ownedBlocks p i v with
      | (s, _, .wait) => s
      | (s, _, .failed _ _ _) => release s
      | (s, es, .done) => match s.returnSlots v.ctx p es with
        | (s, .wait) => s
        | (s, _) => release s

/-! ### Moves (R270–R273) -/

/-- Whether the KVS may start a move of a block: the block's move is the one the engine makes next, and no move is under way. -/
def State.moveDue (s : State) (i : Nat) (block : Nat) (promote : Bool) : State × Bool :=
  let v := s.session i
  match s.profile v.ctx with
  | none => (s, false)
  | some p =>
    if v.st = .free ∨ !s.kvRuns ∨ s.kvs.moves.any Move.copying ∨ (s.ctx v.ctx).st ≠ .active then (s, false)
    else if promote then
      if !p.promote ∨ !s.kvs.promoting.contains i ∨ !s.nearBelow v.ctx p.low p then (s, false)
      else match s.kvEntries v 0 (p.layers * v.maxBlocks) with
        | (s, es, _, .done) =>
          let ok (b : Nat) : Bool := let e := es.getD b {}; e.kind == 2 && e.owner == i && !bit e.flags 2
          (s, (idxs es.length ok).head? == some block)
        | (s, _, _, _) => (s, false)
    else if !p.demote ∨ !s.kvs.demoting.contains v.ctx ∨ s.kvs.farFull.contains v.ctx then (s, false)
    else match s.nextDemotion p (s.byAge v.ctx) with
      | (s, next) => (s, next == some (i, block))

/-- A block that cannot be moved (R273): NOMOVE is set in its entry, where the entry can be read, and KV_MOVE_FAIL posted. -/
def State.noMove (s : State) (i layer block : Nat) (promote : Bool) (v : Session) (e : Option KvEntry) : State :=
  let s := match e with
    | some e => (s.kvWrite v.ctx (gatherParts [] (v.entryVa (layer * v.maxBlocks + block))
        (plain (KvEntry.bytes { e with flags := setBit e.flags 2 true })))).1
    | none => s
  let d := detail [(0, leBytes 4 (v.handle i)), (4, leBytes 2 layer), (8, leBytes 4 block), (12, [byte (b2n promote)])]
  ((s.bump 0xE0820).raise .kvs 0 0).postCtx v.ctx { typ := 0x0052, cls := 1, source := 0x4000, detail := d }

/-- KV_MOVE_START: `block` is the flat index layer × MAX_BLOCKS + block. The new slot is taken; a full far pool ends the move. An
entry that names no slot of its pool has no source to move. -/
def execKvMoveStart (session : Fin 16384) (block : Nat) (promote : Bool) (s : State) : Outcome :=
  let v := s.session session
  match s.profile v.ctx, s.moveDue session block promote with
  | some p, (s', true) =>
    let far := !promote
    match s'.kvEntries v block 1, s'.kvMap v.ctx p far with
    | (_, [e], _, .done), (s, map, .done) => (match p.slotAt promote e.addr, idxs (p.slots far) fun k => bit map k with
      | _, [] =>
        .next (if far then { s with kvs := { s.kvs with farFull := if s.kvs.farFull.contains v.ctx then s.kvs.farFull else s.kvs.farFull ++ [v.ctx] } } else s)
      | none, _ => .next (s.noMove session (block / max 1 v.maxBlocks) (block % max 1 v.maxBlocks) promote v (some e))
      | some old, x :: t =>
        let (r, s) := s.free
        let new := (x :: t).getD (r % (t.length + 1)) x
        match s.kvWrite v.ctx (mapParts [] (p.poolVa far) (p.mapBytes far) map (setBit map new false)) with
        | (s, .done) =>
          let m : Move := { ctx := v.ctx, session := session, layer := block / max 1 v.maxBlocks, block := block % max 1 v.maxBlocks, promote := promote
                            old := old, new := new }
          .next ((State.useSlots { s with kvs := { s.kvs with moves := s.kvs.moves ++ [m] } } v.ctx far 1).watchNear v.ctx)
        | (s, _) => .next s)
    | _, (s, _, _) => .next s
  | _, (s', _) => .next s'

/-- Bytes with their marks, from the beads of a block. -/
def markedBytes (l : List (List Byte × Bool)) : List (Byte × Bool) := l.flatMap fun b => b.1.map fun x => (x, b.2)

/-- Whether any of a run of bytes is marked, and the bytes. -/
def runBytes (l : List (Byte × Bool)) (off n : Nat) : List Byte × Bool :=
  let r := (l.drop off).take n
  (r.map (·.1), r.any (·.2))

/-- 32 elements of a near block re-encoded for the far tier (R271): scale (used under MX), element bytes, mark. -/
def demoteGroup (p : Profile) (b : List Byte) (bad : Bool) : Nat × List (Byte × Bool) :=
  let w := fmtPacked p.nearFmt
  let xs := (List.range 32).map fun i => decodeFmt p.nearFmt (elem (leNat b) w i)
  let wf := fmtPacked p.farFmt
  let (scale, codes) := if p.farMx then quantise p.farFmt 0 [] xs else (0, xs.map fun v => (roundFmt p.farFmt 0 true 0 v).code)
  (scale, (leBytes (4 * wf) (elems wf codes)).map fun x => (x, bad))

/-- A head segment demoted (Table 11.2, R271). -/
def demoteSeg (p : Profile) (seg : List (Byte × Bool)) : List (Byte × Bool) :=
  let n := 4 * fmtPacked p.nearFmt
  let groups := (List.range (2 * p.tokens * p.d / 32)).map fun g =>
    let (b, bad) := runBytes seg (g * n) n
    let (scale, out) := demoteGroup p b bad
    (byte scale, bad, out)
  groups.flatMap (fun g => g.2.2) ++ if p.farMx then groups.map fun g => (g.1, g.2.1) else []

/-- A move leaves the block's encoding as it is: a promotion, or a demotion of a block that was demoted before (R271). -/
def keepsCode (promote : Bool) (e : KvEntry) : Bool := promote || bit e.flags 1

/-- The bytes of a block in its new slot. -/
def movedBytes (p : Profile) (keep : Bool) (old : List (Byte × Bool)) : List (Byte × Bool) :=
  if keep then old else (List.range p.heads).flatMap fun h => demoteSeg p ((old.drop (h * p.segN)).take p.segN)

/-- A slot returned to its bitmap, if the bitmap can be reached. -/
def State.returnSlot (s : State) (ctx : Nat) (p : Profile) (far : Bool) (k : Nat) : State × Access :=
  match s.kvMap ctx p far with
  | (s, map, .done) => (match s.kvWrite ctx (mapParts [] (p.poolVa far) (p.mapBytes far) map (setBit map k true)) with
    | (s, .done) => (s.useSlots ctx far (-1), .done)
    | x => x)
  | (s, _, a) => (s, a)

/-- The moves with one changed or gone. -/
def State.setMove (s : State) (n : Nat) (m : Option Move) : State :=
  { s with kvs := { s.kvs with moves := match m with | some m => s.kvs.moves.set n m | none => s.kvs.moves.eraseIdx n } }

/-- A write of the key-value service that its controller, being FAILED, would not perform (R137, R273). -/
def State.deadEnd (s : State) (ctx : Nat) (t : Tbl BeadPart) : Bool :=
  t.any fun w => match (s.unitTranslate kvsUnit ctx w.1 tWrite).2 with
    | .inl pa => s.ctlFailed pa
    | .inr _ => false

/-- A move ends without its entry (R273): NOMOVE set, KV_MOVE_FAIL posted, the new slot freed. -/
def State.moveFails (s : State) (n : Nat) (m : Move) (v : Session) (p : Profile) (e : Option KvEntry) : State :=
  let s := s.noMove m.session m.layer m.block m.promote v e
  ((s.returnSlot v.ctx p (!m.promote) m.new).1).setMove n none

/-- Calls of a context accepted and not completed: their inbound slots. -/
def State.attendsOf (s : State) (ctx : Nat) : List Nat :=
  (s.txn.slots.filter fun x => x.2.ctx == ctx && x.2.pkt.typ == tAttend && x.2.phase == .unit).map (·.1)

/-- KV_MOVE_DONE: move `n` writes its new slot and then its entry, or ends without it (R271–R273). -/
def execKvMoveDone (n : Nat) (s : State) : Outcome :=
  match s.kvs.moves[n]? with
  | none => .next s
  | some m =>
    let v := { s.session m.session with ctx := m.ctx }
    match s.profile m.ctx with
    | none => .next (s.setMove n none)
    | some p => onlyIf m.copying s fun s =>
      if v.st = .free then match s.returnSlot v.ctx p (!m.promote) m.new with
        | (s, .wait) => s
        | (s, _) => s.setMove n none
      else
        let flat := m.layer * v.maxBlocks + m.block
        match s.kvEntries v flat 1 with
        | (s, [e], _, .done) =>
          let len := if keepsCode m.promote e then p.heads * p.segF else p.heads * p.segN
          (match s.unitReads kvsUnit kvsTag v.ctx (p.slotVa m.promote m.old) ((len + 63) / 64) with
            | (s, _, .wait) => s
            | (s, _, .failed _ _ _) => s.moveFails n m v p (some e)
            | (s, l, .done) =>
              let bytes := movedBytes p (keepsCode m.promote e) ((markedBytes l).take len)
              let e' : KvEntry := if m.promote then { e with addr := p.slotVa false m.new, kind := 1 }
                else if keepsCode m.promote e then { e with addr := p.slotVa true m.new, kind := 2 }
                else { e with addr := p.slotVa true m.new, kind := 2, fmt := p.farFmt
                              flags := setBit (setBit e.flags 0 p.farMx) 1 true }
              let parts := gatherParts (gatherParts [] (p.slotVa (!m.promote) m.new) bytes) (v.entryVa flat) (plain e'.bytes)
              if s.deadEnd v.ctx parts then s.moveFails n m v p (some e)
              else match s.kvWrite v.ctx parts with
              | (s, .wait) => s
              | (s, .failed _ _ _) => s.moveFails n m v p (some e)
              | (s, .done) =>
                let s := s.tally .kvs 0 0x52 (b2n m.promote) len (some v.ctx)
                s.setMove n (some { m with waitFor := some (s.attendsOf v.ctx) }))
        | (s, _, _, .wait) => s
        | (s, _, _, _) => s.moveFails n m v p none

/-- KV_OLD_SLOT_RELEASE: every call accepted before move `n` wrote its entry has completed (R272). -/
def execKvOldSlotRelease (n : Nat) (s : State) : Outcome :=
  match s.kvs.moves[n]? with
  | none => .next s
  | some m =>
    let ctx := m.ctx
    onlyIf (m.waitFor == some []) s fun s => match s.profile ctx with
      | none => s.setMove n none
      | some p => match s.returnSlot ctx p m.promote m.old with
        | (s, .wait) => s
        | (s, _) => (s.setMove n none).watchNear ctx

end Sys2Proof.Machine
end

