-- ==== Sys2Proof/Machine/Attend.lean ====
section
/-!
DEFINITION. ATTEND (R274–R276): its verdict, its acceptance and the resolving of its blocks.
-/

namespace Sys2Proof.Machine

/-! ### The request (Table 11.5) -/

def atLayer (b : List Byte) : Nat := field b 4 2
def atQh (b : List Byte) : Nat := field b 7 1
def atStart (b : List Byte) : Nat := field b 8 4
def atEnd (b : List Byte) : Nat := field b 0x0C 4
def atTok (b : List Byte) : Nat := field b 0x10 2
def atQf (b : List Byte) : Nat := field b 0x12 1
def atOf (b : List Byte) : Nat := field b 0x13 1

/-- Query bytes of a request, padded to 128. -/
def queryBytes (p : Profile) (b : List Byte) : Nat := roundUp (atTok b * atQh b * p.d * (fmtWidth (atQf b) / 8)) 128

/-- N_BLOCKS (R275). -/
def blockCount (p : Profile) (b : List Byte) : Nat := (atEnd b + p.tokens - 1) / p.tokens - atStart b / p.tokens

/-- Row 3 of Table 11.6 passes. -/
def attendShape (p : Profile) (b : List Byte) : Bool :=
  64 ≤ b.length && atLayer b < p.layers && field b 6 1 < p.heads && 1 ≤ atQh b && atQh b ≤ 16 && atStart b < atEnd b &&
    1 ≤ atTok b && atTok b ≤ 256 && [0xA, 0xB, 5].contains (atQf b) && [0xD, 0xA, 0xB].contains (atOf b) && field b 0x14 1 < 2 &&
    zeros b 0x15 3 && zeros b 0x28 24 && queryBytes p b ≤ 65536 && b.length == 64 + queryBytes p b && blockCount p b ≤ 16384

/-- Bytes of the entry a call puts on the entry stream (R275). -/
def entryBytes (p : Profile) (arg : Nat) (b : List Byte) : Nat := roundUp (arg + 16 * blockCount p b) 128 + queryBytes p b

/-- Rows 6 to 10 of Table 11.6. -/
def State.attendFnRow (s : State) (p : Profile) (ctx : Nat) (b : List Byte) : Row7 :=
  match s.fnOf p.fn ctx with
  | none => .refuse stFnDisabled
  | some f =>
    let e := s.fnEntryOf f
    if !fnAttend e then .refuse stFnDisabled
    else match f.st with
      | .loaded => .refuse stBusy
      | .disabling | .disabled => .refuse stFnDisabled
      | .enabled =>
        let depth := match tblGet? s.jobs f.job with | some j => strDepth (mStream j.manifest (fnEntry e)) | none => 0
        if depth < entryBytes p (fnArgBytes e) b then .refuse stMalformed
        else if fnDepth e ≤ f.waiting.length then .refuse stBusy
        else .pass none 0

/-- The rows of Table 11.6. -/
def State.attendRow (s : State) (q : Packet) (ctx : Nat) : Row7 :=
  let b := q.body
  if (s.ctx ctx).st ≠ .active then .refuse stContextGone
  else if !s.kvRuns then .refuse stFnDisabled
  else match s.profile ctx with
    | none => .refuse stFnDisabled
    | some p =>
      if !attendShape p b then .refuse stMalformed
      else match s.sessionOf ctx (field b 0 4) with
        | none => .refuse stRevoked
        | some (_, v) =>
          if v.st ≠ .opened then .refuse stRevoked
          else if v.valid < atEnd b then .refuse stMalformed
          else s.attendFnRow p ctx b

/-- An accepted ATTEND: the session's CALLS and LAST_TICK, the promotion it queues, and the call that waits for its blocks. -/
def State.actAttend (s : State) (key : Nat) : State :=
  match s.slot? key with
  | none => s
  | some x =>
    let b := x.pkt.body
    let i := field b 0 4 % 16384
    let v := s.session i
    match s.profile x.ctx with
    | none => s
    | some p =>
      let s := s.setSession i { v with calls := v.calls + 1, lastTick := s.tick.count }
      let s := s.tally .kvs 0 0x50 0 1 (some x.ctx)
      let s := if p.promote && s.nearBelow x.ctx p.low p && !s.kvs.promoting.contains i then
          { s with kvs := { s.kvs with promoting := s.kvs.promoting ++ [i] } } else s
      s.addCall p.fn { slot := key, attend := true, ready := false, poison := x.poison, session := i, blocks := blockCount p b }

/-- Rules of an ATTEND request. -/
def attendRules : Rules :=
  { form := fun p => { p.ofType tAttend with qual := setBit p.qual 0 false }
    sourceOk := fun s p => p.context != 0 || s.fromManager p, row7 := State.attendRow }

/-- ATTEND. -/
def execAttend (port : Fin 16) (p : Packet) (s : State) : Outcome := .next (s.arrive attendRules port p State.actAttend)

/-! ### Resolving blocks (R276) -/

/-- The binary32 code nearest 1/√D, for D from 32 to 256. -/
def rsqrtCode (d : Nat) : Nat :=
  let e := if d ≤ 64 then 3 else 4
  let m := (isqrt (2 ^ (2 * (23 + e) + 2) / d) + 1) / 2
  (127 - e) * 2 ^ 23 + (m - 2 ^ 23)

/-- The call header (Table 11.7). -/
def callHeader (p : Profile) (b : List Byte) (n arg : Nat) : List Byte :=
  leBytes 4 0xA77E0001 ++ (b.drop 4).take 4 ++ (b.drop 8).take 8 ++ (b.drop 0x10).take 4 ++ [byte (field b 0x14 1), 0] ++
    leBytes 2 p.d ++ (b.drop 0x18).take 4 ++ leBytes 4 (if field b 0x1C 4 = 0 then rsqrtCode p.d else field b 0x1C 4) ++
    leBytes 4 (atStart b / p.tokens) ++ leBytes 4 n ++ leBytes 2 p.tokens ++ [byte p.heads, 0] ++ leBytes 4 p.segN ++
    leBytes 4 p.segF ++ leBytes 4 ((roundUp (arg + 16 * n) 128 - arg) / 128) ++ leBytes 4 (queryBytes p b / 128) ++ zeroBytes 4

/-- One item of the block list. -/
def listItem (e : KvEntry) : List Byte := leBytes 8 e.addr ++ [byte e.kind, byte e.fmt, byte e.flags] ++ zeroBytes 5

/-- Entries followed one step where SHARED: those that reach a slot, in order, and whether any byte read carried poison; none when an
entry leads to no slot, and so when what it names cannot be read. -/
def State.resolve (s : State) (ctx : Nat) : List KvEntry → State × Option (List KvEntry) × Bool × Access
  | [] => (s, some [], false, .done)
  | e :: t =>
    let slot (x : KvEntry) : Bool := x.kind == 1 || x.kind == 2
    let step : State × KvEntry × Bool × Access :=
      if e.kind = 3 then (match s.kvRead ctx e.addr 16 with
        | (s, _, _, .failed _ _ _) => (s, {}, false, .done)
        | (s, b, bad, a) => (s, kvEntryOf b, bad, a))
      else (s, e, false, .done)
    match step with
    | (s, x, bad, .done) =>
      if slot x then (match s.resolve ctx t with
        | (s, l, bad', a) => (s, l.map (x :: ·), bad || bad', a))
      else (s, none, bad, .done)
    | (s, _, _, a) => (s, none, false, a)

/-- The function at which an ATTEND waits for its blocks: its number, and the call. -/
def State.unresolved (s : State) (key : Nat) : Option (Nat × Call) :=
  s.fns.findSome? fun f => (f.2.waiting.find? fun c => c.slot == key && c.attend && !c.ready).map fun c => (f.1, c)

/-- A waiting call taken out of its function. -/
def State.dropCall (s : State) (n key : Nat) : State :=
  match tblGet? s.fns n with
  | none => s
  | some f => (s.setFn n { f with waiting := f.waiting.filter fun c => c.slot != key }).fnSettled n

/-- The entry of a call whose blocks are resolved. -/
def Call.resolved (c : Call) (entry : List Byte) (poison : Bool) : Call := { c with ready := true, entry := entry, poison := c.poison || poison }

/-- The same at its function, for the call of inbound slot `key`. -/
def Fn.resolved (f : Fn) (key : Nat) (entry : List Byte) (poison : Bool) : Fn :=
  { f with waiting := f.waiting.map fun y => if y.slot = key then y.resolved entry poison else y }

/-- ATTEND_BLOCKS_RESOLVED: the blocks of the call in inbound slot `n` are read and its entry is made; one that names no slot
completes the call MALFORMED. -/
def execAttendBlocksResolved (n : Nat) (s : State) : Outcome :=
  match s.unresolved n, s.slot? n with
  | some (f, c), some x =>
    let b := x.pkt.body
    let v := s.session c.session
    (match s.profile x.ctx, tblGet? s.fns f with
      | some p, some fn =>
        let arg := fnArgBytes (s.fnEntryOf fn)
        let fail (s : State) (st : Nat) : State := (s.abortCall c st).dropCall f n
        (match s.kvEntries v (atLayer b * v.maxBlocks + atStart b / p.tokens) c.blocks with
          | (s, _, _, .wait) => .next s
          | (s, _, _, .failed st _ _) => .next (fail s st)
          | (s, es, bad, .done) => match s.resolve x.ctx es with
            | (s, _, _, .wait) => .next s
            | (s, _, _, .failed st _ _) => .next (fail s st)
            | (s, none, _, .done) => .next (fail s stMalformed)
            | (s, some l, bad', .done) =>
              let head := (callHeader p b c.blocks arg ++ zeroBytes arg).take arg
              let body := head ++ l.flatMap listItem
              let entry := body ++ zeroBytes (roundUp body.length 128 - body.length) ++ b.drop 64
              let s := s.tally .kvs 0 0x51 0 c.blocks (some x.ctx)
              match tblGet? s.fns f with
              | none => .next s
              | some fn => .next (s.setFn f (fn.resolved n entry (bad || bad'))))
      | _, _ => .next s)
  | _, _ => .next s

end Sys2Proof.Machine
end

