-- ==== Sys2Proof/Machine/Qos.lean ====
section
/-!
DEFINITION. Traffic control (17_qos.md): meter, host and queue-shaper records with their held values and commits (R387, R395,
R396), host-shaper release (R397), the token resets of a swap (R395) and the QOS page.
-/
namespace Sys2Proof.Machine

/-! ### Records -/

/-- A meter, host and queue-shaper record. -/
def State.meter (s : State) (i : Nat) : Meter := tblGet s.qos.meters i {}
def State.host (s : State) (i : Nat) : HostRec := tblGet s.qos.hosts i {}
def State.shaper (s : State) (i : Nat) : QShaper := tblGet s.qos.qsh i {}
def State.setShaper (s : State) (i : Nat) (v : QShaper) : State := { s with qos := { s.qos with qsh := tblPut s.qos.qsh i v } }

/-- The selected record of each kind (Tables 17.8–17.10). -/
def State.mtrIndex (s : State) : Nat := s.regBits 0x90800 11 0
def State.hostIndex (s : State) : Nat := s.regBits 0x90820 8 0
def State.qshIndex (s : State) : Nat := s.regBits 0x90840 7 0

/-- A burst as stored (R386). -/
def storedBurst (b : Nat) : Nat := if b < 320 then 320 else b

/-- Two meter keys name the same packets in the same way (R387). -/
def sameMeterKey (a b : Word) : Bool :=
  wbit a 30 == wbit b 30 && wbits a 21 12 == wbits b 21 12 && (wbit a 30 || wbits a 11 0 == wbits b 11 0)

/-- A write of QOS_MTR_KEY commits the held values (R395, R396); a second valid record with the key is refused (R387). -/
def State.commitMeter (s : State) (w : Word) : State × Nat :=
  let key := w &&& 0xE03FFFFF
  let i := s.mtrIndex
  let m := s.meter i
  if wbit key 31 ∧ s.qos.meters.any (fun x => x.1 != i && wbit x.2.key 31 && sameMeterKey x.2.key key) then (s, stMalformed)
  else
    let (c, p, b) := s.qos.mtrHeld
    let cir := rateOf c
    let pir := max (rateOf p) cir
    let bursts := BitVec.ofNat 32 (storedBurst (bits b 31 16) * 65536 + storedBurst (bits b 15 0))
    let m' : Meter := { m with key := key, cir := cir, pir := pir, bursts := bursts }
    let full := wbit key 29
    let m' := if m.cir = cir ∧ m.pir = pir ∧ m.bursts = bursts then m' else
      { m' with tc := Bucket.restart full (wbits bursts 15 0) s.time, tp := Bucket.restart full (wbits bursts 31 16) s.time }
    ({ s with qos := { s.qos with meters := tblPut s.qos.meters i m', mtrHeld := (cir, pir, bursts.toNat) } }, stOk)

/-- A write of QOS_HOST_KEY commits a host record (R396); a second valid record for the endpoint is refused. -/
def State.commitHost (s : State) (w : Word) : State × Nat :=
  let key := w &&& 0xA0000FFF
  let i := s.hostIndex
  let h := s.host i
  if wbit key 31 ∧ s.qos.hosts.any (fun x => x.1 != i && wbit x.2.key 31 && wbits x.2.key 11 0 == wbits key 11 0) then
    (s, stMalformed)
  else
    let rate := rateOf s.qos.hostHeld.1
    let burst := storedBurst s.qos.hostHeld.2
    let h' : HostRec := { h with key := key, rate := rate, burst := burst }
    let h' := if h.rate = rate ∧ h.burst = burst then h' else { h' with bucket := Bucket.restart (wbit key 29) burst s.time }
    ({ s with qos := { s.qos with hosts := tblPut s.qos.hosts i h', hostHeld := (rate, burst) } }, stOk)

/-- A write of QOS_QSH_CTL commits a queue shaper (R396). -/
def State.commitShaper (s : State) (w : Word) : State × Nat :=
  let ctl := w &&& 0xA0000000
  let i := s.qshIndex
  let q := s.shaper i
  let rate := rateOf s.qos.qshHeld.1
  let burst := storedBurst s.qos.qshHeld.2
  let q' : QShaper := { q with ctl := ctl, rate := rate, burst := burst }
  let q' := if q.rate = rate ∧ q.burst = burst then q' else { q' with bucket := Bucket.restart (wbit ctl 29) burst s.time }
  let s := s.setShaper i q'
  ({ s with qos := { s.qos with qshHeld := (rate, burst) } }, stOk)

/-! ### The QOS page -/

/-- A block-specific register of the QOS page as it reads, by offset: rates and bursts read the values in force. -/
def State.readQos (s : State) (off : Nat) : Word :=
  let m := s.meter s.mtrIndex
  let h := s.host s.hostIndex
  let q := s.shaper s.qshIndex
  let n (v : Nat) : Word := BitVec.ofNat 32 v
  if off = 0x804 then m.key
  else if off = 0x808 then n m.cir
  else if off = 0x80C then n m.pir
  else if off = 0x810 then m.bursts
  else if off = 0x814 then n (stick32 m.red)
  else if off = 0x824 then h.key
  else if off = 0x828 then n h.rate
  else if off = 0x82C then n h.burst
  else if off = 0x830 then n (if wbit h.key 31 then s.hostLevel h else 0)
  else if off = 0x834 then n (stick32 h.backlog)
  else if off = 0x844 then q.ctl
  else if off = 0x848 then n q.rate
  else if off = 0x84C then n q.burst
  else if off = 0x854 then n (s.classOf (s.regBits 0x90850 9 0))
  else s.reg (0x90000 + off)

/-- A write to a block-specific register of the QOS page, by offset (R396). -/
def State.writeQos (s : State) (off : Nat) (w : Word) : State × Nat :=
  let v := w.toNat
  let a := 0x90000 + off
  if off = 0x800 then
    let s := s.setReg a (BitVec.ofNat 32 (bits v 11 0))
    let m := s.meter s.mtrIndex
    ({ s with qos := { s.qos with mtrHeld := (m.cir, m.pir, m.bursts.toNat) } }, stOk)
  else if off = 0x804 then s.commitMeter w
  else if off = 0x808 then ({ s with qos := { s.qos with mtrHeld := (bits v 19 0, s.qos.mtrHeld.2) } }, stOk)
  else if off = 0x80C then ({ s with qos := { s.qos with mtrHeld := (s.qos.mtrHeld.1, bits v 19 0, s.qos.mtrHeld.2.2) } }, stOk)
  else if off = 0x810 then ({ s with qos := { s.qos with mtrHeld := (s.qos.mtrHeld.1, s.qos.mtrHeld.2.1, v) } }, stOk)
  else if off = 0x820 then
    let s := s.setReg a (BitVec.ofNat 32 (bits v 8 0))
    let h := s.host s.hostIndex
    ({ s with qos := { s.qos with hostHeld := (h.rate, h.burst) } }, stOk)
  else if off = 0x824 then s.commitHost w
  else if off = 0x828 then ({ s with qos := { s.qos with hostHeld := (bits v 19 0, s.qos.hostHeld.2) } }, stOk)
  else if off = 0x82C then ({ s with qos := { s.qos with hostHeld := (s.qos.hostHeld.1, bits v 15 0) } }, stOk)
  else if off = 0x840 then
    let q := bits v 3 0
    let s := s.setReg a (BitVec.ofNat 32 (bits v 7 4 * 16 + if q < 4 then 4 else q))
    let x := s.shaper s.qshIndex
    ({ s with qos := { s.qos with qshHeld := (x.rate, x.burst) } }, stOk)
  else if off = 0x844 then s.commitShaper w
  else if off = 0x848 then ({ s with qos := { s.qos with qshHeld := (bits v 19 0, s.qos.qshHeld.2) } }, stOk)
  else if off = 0x84C then ({ s with qos := { s.qos with qshHeld := (s.qos.qshHeld.1, bits v 15 0) } }, stOk)
  else if off = 0x850 then (s.setReg a (BitVec.ofNat 32 (bits v 9 0)), stOk)
  else if off = 0x854 then
    ({ s with qos := { s.qos with classes := tblPut s.qos.classes (s.regBits 0x90850 9 0) (bits v 1 0) } }, stOk)
  else (s, stOk)

/-! ### Host shapers (R397) -/

/-- Nanoseconds until a bucket holds more than 0 tokens. -/
def Bucket.wait (b : Bucket) (rate : Nat) : Nat :=
  if b.positive then 0 else ((125 - b.tokens).toNat + rateOf rate * 1024 - 1) / (rateOf rate * 1024)

/-- The oldest completion that waits at a host shaper leaves; with its request's last packet its slot is freed. -/
def State.leaveHost (s : State) (i : Nat) : State :=
  let h := s.host i
  match h.waiting with
  | [] => s
  | (p, key) :: t =>
    let load := s.loadFor p.dst
    let t := if p.dataOff = 0 then t.map fun x => if x.2 = key then (withLoad x.1 load, x.2) else x else t
    let s := { s with qos := { s.qos with hosts := tblPut s.qos.hosts i { h with waiting := t } } }
    match s.slot? key with
    | none => s
    | some v =>
      let b := (p.body.length + 63) / 64
      let s := s.setSlot key { v with dbuf := v.dbuf - b }
      let s := { s with txn := { s.txn with dbufUsed := s.txn.dbufUsed - b } }
      let s := s.sendCompletion p v.key (some v.ctx)
      if p.last then (s.keepRecord v p.status p.body).freeSlot key else s

/-- HOST_SHAPER_RELEASE: the shaper holds tokens again, or its record is no longer in use, and the oldest completion
leaves. -/
def execHostShaperRelease (host : Fin 512) (s : State) : Outcome :=
  onlyIf (!(s.host host).waiting.isEmpty) s fun s =>
    let h := s.host host
    if wbit h.key 31 then
      let b := h.bucket.fill h.rate h.burst s.time
      (s.elapse (b.wait h.rate)).leaveHost host
    else s.leaveHost host

/-! ### Token resets of a swap (R395) -/

/-- A queue shaper and a host shaper reset as QOS_CFG.RESET_FULL says. -/
def State.resetPortBuckets (s : State) (full : Bool) (p : Nat) : State :=
  let burst := s.actBits .qos 0 0x048 15 0
  { s with qos := { s.qos with
      qsh := tblMap s.qos.qsh fun i q => if i / 16 = p then { q with bucket := Bucket.restart full q.burst s.time } else q
      policer := tblPut s.qos.policer p (Bucket.restart full burst s.time) } }

/-- What a swap that changed the active set from `old` resets (R395). -/
def State.qosSwapped (s : State) (old : RegMap) : State :=
  let was (off : Nat) : Word := cfgGet old (0x90000 + off)
  let full := wbit (s.act .qos 0 0x040) 31
  let burst := s.actBits .qos 0 0x048 15 0
  let s := (List.range 16).foldl (fun s p =>
    if wbits (was (0x060 + 4 * p)) 31 24 ≠ s.portOvh p then s.resetPortBuckets full p else s) s
  let s := if was 0x044 ≠ s.act .qos 0 0x044 ∨ was 0x048 ≠ s.act .qos 0 0x048 then
      (List.range 16).foldl (fun s p =>
        { s with qos := { s.qos with policer := tblPut s.qos.policer p (Bucket.restart full burst s.time) } }) s
    else s
  let s := if wbits (was 0x040) 23 16 ≠ s.hostOvh then
      { s with qos := { s.qos with
          hosts := tblMap s.qos.hosts fun _ h => { h with bucket := Bucket.restart full h.burst s.time } } }
    else s
  (List.range 16).foldl (fun s p =>
    if (List.range 3).any (fun k => was (0x0A0 + 12 * p + 4 * k) != s.act .qos 0 (0x0A0 + 12 * p + 4 * k)) then
      { s with qos := { s.qos with deficit := tblFilter s.qos.deficit fun k _ => k / 16 != p } }
    else s) s

end Sys2Proof.Machine
end

