-- ==== Sys2Proof/Machine/Extents.lean ====
section
/-!
DEFINITION. Extents granted and revoked (R110–R115), the removal of a context with its extents (R424), and the walker-window
words (R120).
-/

namespace Sys2Proof.Machine

/-! ### EXTENT_GRANT (R111, R112) -/

/-- Fields of a grant's body (Table 5.7). -/
def Crit.extId (c : Crit) : Nat := field c.body 0 2
def Crit.kind (c : Crit) : Nat := field c.body 2 1
def Crit.flags (c : Crit) : Nat := field c.body 3 1
def Crit.coh (c : Crit) : Bool := bit c.flags 0
def Crit.prot (c : Crit) : Nat := bits c.flags 2 1
def Crit.stale (c : Crit) : Bool := bit c.flags 3
def Crit.base2m (c : Crit) : Nat := field c.body 4 4
def Crit.len2m (c : Crit) : Nat := field c.body 8 4
def Crit.partners (c : Crit) : Nat := field c.body 0x10 8

/-- The generation a grant of an ID issues (Table 5.6). -/
def State.nextGen (s : State) (id : Nat) : Nat := let g := (s.extent id).gen; if g = 0xFFFF then 1 else g + 1

/-- KIND known, reserved bits 0 and the settings a kind allows (Table 5.8, first check). -/
def grantShape (c : Crit) : Bool :=
  c.extId < 16384 && c.kind ≤ 2 && c.flags < 16 && c.prot != 3 && !(c.stale && !c.coh) &&
    (c.kind == 0 || (!c.coh && c.prot == 0)) && c.base2m < 2 ^ 27 && c.len2m < 2 ^ 27 && 1 ≤ c.len2m && zeros c.body 0x0D 3 &&
    zeros c.body 0x18 8

/-- The range lies in the populated part of one window. -/
def State.inWindow (s : State) (base2m len2m : Nat) : Bool :=
  match windowOf (base2m * 0x200000) with
  | none => false
  | some w => decide (base2m + len2m ≤ windowBase w / 0x200000 + s.winLen w)

/-- Two ranges of 2 MiB units overlap. -/
def overlap (a n b m : Nat) : Bool := decide (a < b + m ∧ b < a + n)

/-- STORE_OK of the slice that homes a window (R369). -/
def State.storeOk (s : State) (d : Nat) : Bool := s.ctlOk (4 + d)

/-- The partners check of R157. -/
def State.partnersOk (s : State) (c : Crit) : Bool :=
  if c.prot = 0 then c.partners == 0
  else
    let p := c.partners
    let k := s.keySlot (partKey p)
    p / 2 ^ 57 == 0 && k.st != .empty && k.owner == c.ctx &&
      (match (s.readDesc (partDesc p)).2 with
      | some b => descOk b c.prot (partPos p) s.ep c.extId (s.nextGen c.extId) c.ctx
      | none => false)

/-- The checks of Table 5.8 in order, with R369's for a coherent grant. -/
def checkGrant (s : State) (c : Crit) : Nat :=
  let held := s.cc.armed.filter fun a => a.cmd.op == 0x0C
  let e := s.extent c.extId
  let hits (st : ExtState → Bool) : Bool := s.xlt.extents.any fun x => st x.2.st && overlap c.base2m c.len2m x.2.base2m x.2.len2m
  if grantShape c = false then stMalformed
  else if (c.kind = 0 ∧ (c.ctx = 0 ∨ 1024 ≤ c.ctx)) ∨ (c.kind ≠ 0 ∧ c.ctx ≠ 0) then stMalformed
  else if c.kind = 0 ∧ (s.ctx c.ctx).st = .free then stMalformed
  else if c.kind = 0 ∧ (s.ctx c.ctx).st ≠ .active then stContextGone
  else if e.st ≠ .free ∨ held.any (fun a => a.cmd.extId == c.extId) then stBusy
  else if e.freedAt.any (fun t => decide (s.time < t + us (s.actBits .xlt 0 0x040 31 24))) then stBusy
  else if s.inWindow c.base2m c.len2m = false then stMalformed
  else if hits (fun t => t == .active || t == .draining) ∨
      held.any (fun a => overlap c.base2m c.len2m a.cmd.base2m a.cmd.len2m) then stMalformed
  else if hits (fun t => t == .zeroing) then stBusy
  else if c.coh ∧ s.storeOk (homeOf (c.base2m * 0x200000)) = false then stMalformed
  else if s.partnersOk c = false then stMalformed
  else stOk

/-- The extent becomes ACTIVE with its new generation (R111), a protected one with its stripe's members (R156). -/
def State.grantExtent (s : State) (c : Crit) : State :=
  let gen := s.nextGen c.extId
  let s := s.setExtent c.extId
    { st := .active, owner := if c.kind = 0 then c.ctx else 0, kind := c.kind, base2m := c.base2m, len2m := c.len2m, coh := c.coh
      revertStale := c.stale, thresh := field c.body 0x0C 1, prot := c.prot, partners := c.partners, gen := gen }
  if c.prot = 0 then s
  else match s.readDesc (partDesc c.partners) with
    | (s, some b) =>
      let k := field b 0 1
      s.setProt c.extId
        { k := k, pos := partPos c.partners, members := descMembers b k, keysel := partKey c.partners
          st := if partRebuild c.partners then .rebuilding else .normal, replacement := partRebuild c.partners }
    | (s, none) => s

/-! ### Revoking (R113, R114) -/

/-- Requests in flight to an extent (Table 5.20). -/
def State.inFlight (s : State) (id : Nat) : List Nat :=
  (s.txn.slots.filter fun v => (v.2.ext.map (·.1)) == some id).map (·.1)

/-- The checks of R113. -/
def checkRevoke (s : State) (c : Crit) : Nat :=
  let e := s.extent c.extId
  if 16384 ≤ c.extId ∨ c.ctx ≠ e.owner ∨ field c.body 2 2 ≠ e.gen then stMalformed else stOk

/-- Steps 1 to 3: DRAINING, the lookasides' entries and the run-ahead made under them dropped (R257), EXTENT_REVOKED posted. -/
def State.startRevoke (s : State) (id drainUs : Nat) (ref : Option CritRef) : State :=
  let e := s.extent id
  let drain := if drainUs = 0 then s.actBits .xlt 0 0x040 15 0 else drainUs
  let s := s.setExtent id { e with st := .draining, deadline := s.time + us drain, revoke := ref }
  let s := s.discardAhead fun x => x.ahead.any fun a => a.used.any (·.ext == id)
  let s := { s with
    xlt := { s.xlt with tlb := s.xlt.tlb.filter fun x => x.ext != id }
    movers := tblMap s.movers fun _ m => { m with lookaside := m.lookaside.filter fun x => x.ext != id } }
  s.postCtx e.owner { typ := 0x0011, cls := 2, source := 0x3000, ext := id, gen := e.gen }

/-- Step 6 and the snoops of step 7: ZEROING, and the command completes. -/
def State.toZeroing (s : State) (id : Nat) : State :=
  let e := s.extent id
  let s := s.setExtent id { e with st := .zeroing, revoke := none }
  let s := match e.revoke with
    | some r => s.critDone r stOk
    | none => s
  if e.coh then s.snoopRevoked (s.extent id) else s

/-- EXTENT_DRAIN_END: no request is in flight. -/
def execExtentDrainEnd (id : Fin 16384) (s : State) : Outcome :=
  onlyIf ((s.extent id).st == .draining && (s.inFlight id).isEmpty) s fun s => s.toZeroing id

/-- EXTENT_DRAIN_DEADLINE: the requests still in flight complete ACCESS_REVOKED (R114, step 5). -/
def execExtentDrainDeadline (id : Fin 16384) (s : State) : Outcome :=
  onlyIf ((s.extent id).st == .draining) s fun s =>
    let s := s.elapseTo (s.extent id).deadline
    let l := s.inFlight id
    let s := l.foldl (fun s k => s.force k stRevoked) s
    let s := if l.isEmpty then s
      else (s.postMgr { typ := 0x0015, cls := 1, source := 0x3000, ctx := (s.extent id).owner, ext := id, gen := (s.extent id).gen
                        detail := detail [(0, leBytes 4 l.length)] }).raise .xlt 0 2
    s.toZeroing id

/-- EXTENT_ZEROING_DONE: every bead zero and clean, the directory cleared; FREE, the record keeping what a later revoke compares
(R113; R114, steps 7 and 8). A FAILED controller makes no access to its DRAM (R137). -/
def execExtentZeroingDone (id : Fin 16384) (s : State) : Outcome :=
  onlyIf ((s.extent id).st == .zeroing && s.snoopsDone (s.extent id)) s fun s =>
    let e := s.extent id
    let s := s.clearLines e
    let s := if s.ctlFailed e.base then s else s.zeroBeads e.base e.bytes
    let s := { s with ecc := { s.ecc with
      prots := tblDel s.ecc.prots id
      held := s.ecc.held.filter fun h => h.ext != id.val
      gathers := s.ecc.gathers.filter fun g => g.ext != id.val } }
    let s := s.setExtent id { e with st := .free, freedAt := some s.time, vaBase := none, snoopKey := none, deadline := 0, revoke := none }
    s.postMgr { typ := 0x0012, cls := 2, source := 0x3000, ctx := e.owner, ext := id, gen := e.gen }

/-! ### Removal of a context (R424) -/

/-- A context's removal at T1, with the snoops of its coherent extents (R114, step 7). -/
def State.removeAll (s : State) (c : Nat) : State :=
  let es := (s.extentsOf c).filter fun e => e.2.coh && e.2.st != .zeroing
  let refs := (s.extentsOf c).filterMap fun e => e.2.revoke
  let s := s.removeContext c
  let s := es.foldl (fun s e => s.snoopRevoked (s.extent e.1)) s
  refs.foldl (fun s r => s.critDone r stOk) s

/-- CONTEXT_DRAIN_END: the quiescing context, destroyed by command, holds no inbound slot (R424). -/
def execContextDrainEnd (ctx : Fin 1024) (s : State) : Outcome :=
  let x := s.ctx ctx
  onlyIf (x.st == .quiescing && x.cause == 1 && (s.heldBy ctx).isEmpty) s fun s => s.removeAll ctx

/-- CONTEXT_DRAIN_DEADLINE: DRAIN_US has passed (R424). -/
def execContextDrainDeadline (ctx : Fin 1024) (s : State) : Outcome :=
  let x := s.ctx ctx
  onlyIf (x.st == .quiescing && x.cause == 1) s fun s => (s.elapseTo x.drainEnd).removeAll ctx

/-! ### Walker window (R120) -/

/-- A write of a root word: address bits change only while ROOT_VALID is clear. The status of the write. -/
def State.writeRoot (s : State) (n : Nat) (hi : Bool) (w : Word) : State × Nat :=
  let r := s.ring n
  if n = mgrRing then (s, stOk)
  else if hi then
    let w := w &&& 0xFFFF
    if wbit r.rootLo 0 && w != r.rootHi then (s, stBusy) else (s.setRing n { r with rootHi := w }, stOk)
  else
    let w := w &&& 0xFFFE0001
    if wbit r.rootLo 0 && wbits w 31 17 != wbits r.rootLo 31 17 then (s, stBusy) else (s.setRing n { r with rootLo := w }, stOk)

/-- A ring restarts when RING_EN is set: its counts are 0, and PRODUCER and OVERFLOW of its control bead are written 0, at once or
before its first record (R120). -/
def State.restartRing (s : State) (n : Nat) : State :=
  let s := s.setRing n { s.ring n with prod := 0, ovf := 0, overflow := 0, seq := 0, cons := 0, owedProd := true, owedOvf := true }
  if s.ringReach n && !s.controlPoisoned n then (s.flushRing n).1 else s

/-- A write of a ring's base words. -/
def State.writeRing (s : State) (n : Nat) (hi : Bool) (w : Word) : State × Nat :=
  let r := s.ring n
  if hi then
    let w := w &&& 0x000FFFFF
    let w := if wbits w 19 16 < 6 then wset w 19 16 12 else w
    if r.enabled && w != r.ringHi then (s, stBusy) else (s.setRing n { r with ringHi := w }, stOk)
  else
    let w := w &&& 0xFFFFFFC1
    if r.enabled && wbits w 31 6 != wbits r.ringLo 31 6 then (s, stBusy)
    else
      let s := s.setRing n { r with ringLo := w }
      (if wbit w 0 && !r.enabled then s.restartRing n else s, stOk)

end Sys2Proof.Machine
end

