-- ==== Sys2Proof/Machine/Critical.lean ====
section
/-!
DEFINITION. The critical commands (R84–R98, R459, R40, R43, R421, R422, R427): what each checks and does, the steps of Table 4.15,
the counter floors (R49), and the commands armed for a tick.
-/

namespace Sys2Proof.Machine

/-! ### Issuer keys (R96) -/

/-- Target slot and class mask of an issuer command. -/
def Crit.target (c : Crit) : Nat := field c.body 0 1
def Crit.mask (c : Crit) : Nat := field c.body 1 1

/-- Checks of an ISSUER_KEY_INSTALL before its key is unwrapped. -/
def checkIssuerInstall (s : State) (c : Crit) : Nat :=
  if s.ten.debugUnlocked then stUnsupported
  else if c.target = 0 then stMalformed
  else if (List.range 8).any fun b => bit c.mask b && !bit (s.issuer c.issuer).perm b then stPermission
  else stOk

/-- The slot becomes VALID with last counter 0, and a journal entry with floor 0 is written. -/
def State.installIssuer (s : State) (c : Crit) (key : Nat) : State :=
  let s := s.changeIssuer c.target { st := 1, perm := c.mask, key := key }
  { s with flash := s.flash.journalFloor c.target (keyIdent key) 0 }

/-! ### COMMIT (R45, R46, R89) -/

/-- Configuration registers that exist, by the offset of their shadow. -/
def configOffsets : List Nat :=
  allPages.flatMap fun p => ((List.range 112).filter fun i => (shReg p.1 (0x40 + 4 * i)).isSome).map fun i =>
    pageBase p.1 p.2 + 0x40 + 4 * i

/-- The 64-byte record of an issuer slot (Table 2.4a) as its 16 entries (R463). -/
def issuerEntries (n : Nat) (i : Issuer) : List (Nat × Nat) :=
  let b := [byte n, byte i.perm, byte i.st] ++ zeroBytes 5 ++ leBytes 8 (keyIdent i.key) ++
    (Config.wrapRetained i.key ++ zeroBytes 48).take 48
  (List.range 16).map fun j => (0x4E00 + 0x40 * n + 4 * j, field b (4 * j) 4)

/-- What the retained record holds (R45): the active set of every page, then the issuer key records. -/
def State.commitEntries (s : State) : List (Nat × Nat) :=
  (configOffsets.map fun a => (a + 0x1C0, (cfgGet s.active a).toNat)) ++
    ((List.range 7).map (· + 1)).flatMap fun n => if (s.issuer n).st = 0 then [] else issuerEntries n (s.issuer n)

/-- Copy and sequence number of the next record (R46). -/
def State.nextCopy (s : State) : Nat × Nat :=
  let v (c : Option RetCopy) : Option Nat := match c with | some r => if r.valid then some r.seq else none | none => none
  match v s.flash.copy0, v s.flash.copy1 with
  | none, none => (0, 1)
  | some a, none => (1, a + 1)
  | none, some b => (0, b + 1)
  | some a, some b => if a < b then (0, b + 1) else (1, a + 1)

/-- A COMMIT starts: the copies of the active sets and issuer records are those taken at its acceptance (R89). -/
def State.startCommit (s : State) (ref : CritRef) (activate : Bool) : State :=
  let (copy, seq) := s.nextCopy
  let r : RetCopy := { seq := seq, entries := s.cc.taken.getD s.commitEntries }
  let c : Commit := { ref := ref, record := { r with tag := r.tagOf }, copy := copy, startAt := s.time, activate := activate
                      svn := s.boot.imageSvn }
  { s with cc := { s.cc with commit := some c, commitState := 1 } }

/-- A COMMIT ends: verified, the fuses are raised (R40) and an ACTIVATE resets the module (R421); or it fails. -/
def State.endCommit (s : State) (c : Commit) (ok : Bool) : State :=
  let r := if ok then some c.record else none
  let s := { s with
    flash := if c.copy = 0 then { s.flash with copy0 := r } else { s.flash with copy1 := r }
    cc := { s.cc with commit := none, commitState := if ok then 2 else 3 }
    boot := if ok then { s.boot with fuseSvn := max s.boot.fuseSvn c.svn } else s.boot }
  let s := s.critDone c.ref (if ok then stOk else stBusError)
  if ok && c.activate then s.selfReset 2 else s

/-- COMMIT_COMPLETE: the read-back has verified, or has not. -/
def execCommitComplete (ok : Bool) (s : State) : Outcome :=
  match s.cc.commit with
  | none => .next s
  | some c => .next (s.endCommit c ok)

/-- COMMIT_TIMEOUT: 10 s have passed. -/
def execCommitTimeout (s : State) : Outcome :=
  match s.cc.commit with
  | none => .next s
  | some c => .next ((s.elapseTo (c.startAt + 10000000000)).endCommit c false)

/-! ### Firmware (R43, R421) -/

/-- The slot that is not running. -/
def State.stagingSlot (s : State) : Nat := 1 - s.boot.slot

/-- Body of FW_UPDATE. -/
def fwShape (c : Crit) : Bool := c.body.length == 72 && field c.body 4 1 < 2 && zeros c.body 5 3

/-- LENGTH and DIGEST match the bytes staged. -/
def State.stagedMatches (s : State) (c : Crit) : Bool :=
  field c.body 0 4 == s.ten.staged.length && field c.body 8 64 == Config.shake256 512 s.ten.staged % 2 ^ 512

/-- The checks of R421. -/
def checkFwUpdate (s : State) (c : Crit) : Nat :=
  let busyCtx := s.ten.ctxs.any fun x => x.1 != 0 && x.2.st != .free
  if s.cc.commit.isSome ∨ s.ten.chunk.isSome then stBusy
  else if s.swapArmed ∨ (bit (field c.body 4 1) 0 ∧ busyCtx) then stBusy
  else if s.stagedMatches c = false then stMalformed
  else if (imageKey s.ten.staged s.fuses).isNone then stAuthFail
  else stOk

/-- FW_SLOT_PREF names the staging slot in both sets, then a COMMIT runs. -/
def State.startFwUpdate (s : State) (c : Crit) (ref : CritRef) : State :=
  (s.setBothField 0x1040 0 0 s.stagingSlot).startCommit ref (bit (field c.body 4 1) 0)

/-- FW_UPDATE in RECOVERY (R43): tag under the factory key, then the checks of R39 on the image. -/
def State.recoverFw (s : State) (key : Nat) (p : Packet) : State :=
  let c := critOf p
  if !(critShape s.ep p && fwShape c && c.exec == 0) then s.complete key stMalformed
  else if critTag Config.factoryIssuerKey p ≠ c.tag then s.authFail c 4 key
  else if s.cc.recovery.isSome ∨ s.ten.chunk.isSome then s.complete key stBusy
  else if s.stagedMatches c = false then s.complete key stMalformed
  else if (imageKey s.ten.staged s.fuses).isNone then s.authFail c 10 key
  else { s with cc := { s.cc with recovery := some key } }

/-- RECOVERY_SLOT_WRITE_DONE (R43): slot A is written and verified; the module completes the command and resets itself. A write
that does not verify completes BUS_ERROR and leaves slot A without an image (assumption 149). -/
def execRecoverySlotWriteDone (ok : Bool) (s : State) : Outcome :=
  match s.cc.recovery with
  | none => .next s
  | some key =>
    let s := { s with
      flash := { s.flash with slotA := if ok then some s.ten.staged else none }
      cc := { s.cc with recovery := none } }
    if ok then .next ((s.complete key stOk).selfReset 2) else .next (s.complete key stBusError)

/-! ### DEBUG_UNLOCK (R422) -/

/-- Contexts and extents are all FREE. -/
def checkUnlock (s : State) (_ : Crit) : Nat :=
  if (s.ten.ctxs.any fun x => x.1 != 0 && x.2.st != .free) ∨ (s.xlt.extents.any fun e => e.2.st != .free) then stBusy else stOk

/-- Every key slot, every transport key and issuer slots 1–7 zeroized. -/
def State.startUnlock (s : State) (ref : CritRef) : State :=
  State.deriveSelf { s with
    ten := { s.ten with
      unlocking := some ref
      keys := tblMap s.ten.keys fun _ k => { kgen := k.kgen }
      windows := s.ten.windows.filter fun w => w.slot == 1024
      ctxs := tblMap s.ten.ctxs fun _ c => { c with tk := none } }
    cc := { s.cc with issuers := tblFilter s.cc.issuers fun n _ => n == 0 } }

/-- Every bead and every SRAM zero, as the ZERO phase leaves them (R51): memory with clean metadata, scratch, frame buffers, directory
caches and owner logs. -/
def State.zeroAll (s : State) : State :=
  { s with
    mem := [], beads := []
    dir := tblMap s.dir fun _ d => { d with lines := [], cache := [], copies := [] }
    rods := tblMap s.rods fun _ r => { r with regs := {}, scratch := [], badLines := [], upsets := [] }
    frames := tblMap s.frames fun _ f => { f with fb := [], badLines := [], upsets := [], owners := [], zeroing := [] } }

/-- DEBUG_UNLOCK_DONE: all memory is zero and the module unlocked. -/
def execDebugUnlockDone (s : State) : Outcome :=
  match s.ten.unlocking with
  | none => .next s
  | some ref =>
    .next (State.critDone { s.zeroAll with ten := { s.ten with unlocking := none, debugUnlocked := true } } ref stOk)

/-! ### ROLE_CHANGE (R427) -/

/-- Body of ROLE_CHANGE (Table 19.1) but for ROLE and RSV. -/
def roleShape (c : Crit) : Bool := c.body.length == 16 && field c.body 2 2 < 4096 && field c.body 8 2 < 4096

/-- Its checks. -/
def checkRole (s : State) (c : Crit) : Nat :=
  let gen := field c.body 4 4
  if 2 ≤ field c.body 0 1 ∨ zeros c.body 1 1 = false ∨ zeros c.body 0x0A 6 = false then stMalformed
  else if gen < s.mgr.gen ∨ (gen = s.mgr.gen ∧ s.mgr.ep ≠ some (field c.body 2 2)) then stMalformed
  else stOk

/-- Its four actions, and the role fence of a module that was active. MGR_HOME is written in both sets (R427) whether or not a
swap is armed (assumption 150). -/
def State.changeRole (s : State) (c : Crit) (ref : CritRef) : State :=
  let was := s.mgr.role
  let s := { s with mgr := { s.mgr with role := field c.body 0 1, ep := some (field c.body 2 2), gen := field c.body 4 4 } }
  let s := s.setBothField 0x5044 11 0 (field c.body 8 2)
  let s := s.tickUnlock
  let s := { s with tick := { s.tick with seqs := [], req := none, good := 0, lastAnn := s.time } }
  let s := s.critDone ref stOk
  if was = 2 then s.selfReset 3 else s

/-! ### The table of critical commands (Table 4.13) -/

/-- What Table 4.15 and R459 need to know of one opcode. -/
structure CritOp where
  /-- Class bit. -/
  cls : Nat
  /-- BODY_LEN, reserved bytes and CONTEXT of step 2. -/
  shape : Crit → Bool
  /-- A nonzero EXEC_TICK is allowed. -/
  tickOk : Crit → Bool := fun _ => false
  /-- Step 10 before the unwrap of R407. -/
  check : State → Crit → Nat
  /-- It carries a wrapped key. -/
  wraps : Bool := false
  /-- Step 10 after the unwrap. -/
  after : State → Crit → Nat → Nat := fun _ _ _ => stOk
  /-- It acts, with the unwrapped key, and completes now or later. -/
  act : State → Crit → Nat → CritRef → State
  /-- What it takes when armed, with the unwrapped key. -/
  hold : State → Crit → Nat → State := fun s _ _ => s
  /-- Data of the completion that arms it, from the projected state. -/
  data : State → Crit → List Byte := fun _ _ => []
  /-- It is still to fire. -/
  alive : State → Crit → Bool := fun _ _ => true
  /-- Its effect at its tick. -/
  fire : State → Crit → State := fun s _ => s
  /-- What it held, released. -/
  release : State → Crit → State := fun s _ => s

/-- An armed key's slot still holds it. -/
def armedKey (s : State) (c : Crit) : Bool :=
  let k := s.keySlot c.slot
  k.st == .armed && k.keyId == c.keyId && k.owner == c.ctx

/-- R408's checks, with an armed command's own slot as not taken. -/
def checkInstallAt (s : State) (c : Crit) : Nat :=
  if armedKey s c then checkKeyInstall (s.setKey c.slot {}) c else checkKeyInstall s c

/-- The rows of Table 4.13. -/
def critOp : (op : Nat) → Option CritOp
  | 0x01 => some
    { cls := 7, wraps := true, check := checkIssuerInstall
      shape := fun c => c.body.length == 56 && c.target < 8 && zeros c.body 2 6 && c.ctx == 0
      after := fun s c k => if (s.issuer c.target).st ≠ 0 ∧ (s.issuer c.target).key = k then stMalformed else stOk
      act := fun s c k r => (s.installIssuer c k).critDone r stOk }
  | 0x02 => some
    { cls := 7
      shape := fun c => c.body.length == 8 && c.target < 8 && zeros c.body 1 7 && c.ctx == 0xFFFF
      check := fun _ c => if c.target = 0 then stMalformed else stOk
      act := fun s c _ r => (s.changeIssuer c.target {}).critDone r stOk }
  | 0x03 => some
    { cls := 3
      shape := fun c => c.body.length == 8 && field c.body 4 4 < 2
      tickOk := fun c => field c.body 4 4 == 0
      check := fun s c =>
        if field c.body 4 4 = 1 then (if (s.cc.swap.map (·.1)) = some (field c.body 0 4) then stOk else stMalformed)
        else if s.cc.swap.isSome then stBusy else stOk
      act := fun s c _ r =>
        let sw := if field c.body 4 4 = 1 then none
          else some (field c.body 0 4, if c.exec = 0 then s.tick.count + 1 else c.exec)
        { s with cc := { s.cc with swap := sw } }.critDone r stOk }
  | 0x04 => some
    { cls := 3
      shape := fun c => c.body.isEmpty
      check := fun s _ => if s.cc.commit.isSome then stBusy else stOk
      act := fun s _ _ r => s.startCommit r false }
  | 0x08 => some
    { cls := 0, wraps := true, check := checkInstallAt, alive := armedKey
      shape := fun c => c.body.length == 56 && c.slot < 1024 && zeros c.body 2 2
      tickOk := fun _ => true
      act := fun s c k r => (s.takeKey c k .active).critDone r stOk
      hold := fun s c k => s.takeKey c k .armed
      fire := fun s c => s.setKey c.slot { s.keySlot c.slot with st := .active }
      release := fun s c => s.zeroize c.slot .empty }
  | 0x09 => some
    { cls := 0, check := checkKeyRetire
      shape := fun c => c.body.length == 8 && c.slot < 1024 && zeros c.body 2 2
      tickOk := fun _ => true
      act := fun s c _ r => (s.retireKey c.slot (field c.body 4 4)).critDone r stOk
      fire := fun s c => s.retireKey c.slot (field c.body 4 4) }
  | 0x0A => some
    { cls := 2, check := checkContextCreate
      shape := fun c => createShape c
      tickOk := fun _ => true
      act := fun s c _ r => (s.createContext c).critDone r stOk
      fire := fun s c => s.createContext c }
  | 0x0B => some
    { cls := 2, check := checkContextDestroy
      shape := fun c => c.body.length == 8
      tickOk := fun _ => true
      act := fun s c _ r => (s.destroyContext c).critDone r stOk
      fire := fun s c => s.destroyContext c }
  | 0x0C => some
    { cls := 1, check := checkGrant
      shape := fun c => c.body.length == 32 && zeros c.body 0x0D 3 && zeros c.body 0x18 8
      tickOk := fun _ => true
      data := fun s c => leBytes 4 (s.nextGen c.extId)
      act := fun s c _ r => (s.grantExtent c).critDone r stOk (leBytes 4 (s.nextGen c.extId))
      fire := fun s c => s.grantExtent c }
  | 0x0D => some
    { cls := 1, check := checkRevoke
      shape := fun c => c.body.length == 16 && zeros c.body 8 8
      tickOk := fun _ => true
      act := fun s c _ r =>
        if (s.extent c.extId).st = .active then s.startRevoke c.extId (field c.body 4 4) (some r) else s.critDone r stOk
      fire := fun s c => if (s.extent c.extId).st = .active then s.startRevoke c.extId (field c.body 4 4) none else s }
  | 0x10 => some
    { cls := 4, shape := fwShape, check := checkFwUpdate, act := fun s c _ r => s.startFwUpdate c r }
  | 0x11 => some
    { cls := 5, shape := roleShape, check := checkRole, act := fun s c _ r => s.changeRole c r }
  | 0x12 => some
    { cls := 6, shape := fun c => c.body.length == 8 && zeros c.body 0 8, check := checkUnlock, act := fun s _ _ r => s.startUnlock r }
  | _ => none

/-! ### Armed commands fire (R459) -/

/-- ARMED_DROPPED (Table 20.4). -/
def State.armedDropped (s : State) (c : Crit) (st : Nat) : State :=
  s.postMgr { typ := 0x0008, cls := 1, source := 0x4000, status := st
              detail := detail [(0, [byte c.op, byte st, byte c.issuer]), (4, leBytes 2 c.ctx), (8, leBytes 8 c.exec)] }

/-- An armed command, taken off the list, is checked again and acts, or releases what it held and is dropped (R459, rule 3). What it
held may be gone: a KEY_RETIRE emptied its slot, which ends it, or its context's removal did, for which its checks fail. -/
def State.fireArmed (s : State) (a : Armed) : State :=
  match critOp a.cmd.op with
  | none => s
  | some o =>
    let st := o.check s a.cmd
    if !o.alive s a.cmd then (if st = stOk then s else s.armedDropped a.cmd st)
    else if st = stOk then o.fire s a.cmd
    else (o.release s a.cmd).armedDropped a.cmd st

/-- The armed swap fires in a projection if its place comes before `at_` (R75, R84). -/
def State.swapBefore (s : State) (at_ : Nat) : State :=
  match s.cc.swap with
  | some (id, t) => if t * 16 + 6 ≤ at_ then (s.elapseToTick t).exchange id t else s
  | none => s

/-- The state in which an armed command is checked (R459, rule 1): those armed for its tick or before it, the armed swap among
them, have acted. -/
def State.projected (s : State) (c : Crit) : State :=
  let me := c.exec * 16 + eventRank c.op
  let before := (armedSorted s.cc.armed).filter fun a => decide (a.order ≤ me)
  let s := before.foldl (fun s a =>
    let s := s.swapBefore a.order
    ({ s with cc := { s.cc with armed := s.cc.armed.filter fun x => x != a } }.elapseToTick a.tick).fireArmed a) s
  (s.swapBefore me).elapseToTick c.exec

/-- The first armed command of an opcode fires at its tick, unless something is armed to fire before it (R73, R75). -/
def State.fireNext (s : State) (op : Nat) : State :=
  match (armedSorted s.cc.armed).find? fun a => a.cmd.op == op with
  | none => s
  | some a =>
    if s.dueBefore a.tick (eventRank op) then s
    else ({ s with cc := { s.cc with armed := s.cc.armed.erase a } }.elapseToTick a.tick).fireArmed a

/-- CONTEXT_CREATE_FIRE. -/
def execContextCreateFire (s : State) : Outcome := .next (s.fireNext 0x0A)
/-- EXTENT_GRANT_FIRE. -/
def execExtentGrantFire (s : State) : Outcome := .next (s.fireNext 0x0C)
/-- KEY_ACTIVATE. -/
def execKeyActivate (s : State) : Outcome := .next (s.fireNext 0x08)
/-- KEY_RETIRE_FIRE. -/
def execKeyRetireFire (s : State) : Outcome := .next (s.fireNext 0x09)
/-- EXTENT_REVOKE_FIRE. -/
def execExtentRevokeFire (s : State) : Outcome := .next (s.fireNext 0x0D)
/-- CONTEXT_DESTROY_FIRE. -/
def execContextDestroyFire (s : State) : Outcome := .next (s.fireNext 0x0B)

/-! ### The steps of Table 4.15 -/

/-- An accepted command: its counter is the slot's last, and it acts or is armed (R92–R95). -/
def State.critGo (s : State) (key : Nat) (c : Crit) (k : Nat) : State :=
  let i := s.issuer c.issuer
  let s := s.counterRose c.issuer i.last c.counter
  let i' : Issuer :=
    { i with last := c.counter, lastTag := some c.tag, stored := none, acting := true, st := if ccMax ≤ c.counter then 2 else i.st }
  let s := if i'.st = i.st then s.setIssuer c.issuer i' else s.changeIssuer c.issuer i'
  match critOp c.op with
  | none => s
  | some o =>
    if c.exec = 0 ∨ c.op = 0x03 then o.act s c k (c.ref key)
    else
      let d := o.data (s.projected c) c
      let s := o.hold s c k
      let s : State := { s with cc := { s.cc with armed := s.cc.armed ++ [{ tick := c.exec, cmd := c, gen := leNat d }] } }
      s.critDone (c.ref key) stOk d

/-- Steps 9 and 10: the tick, the opcode's checks in the projected state, the unwrap. The key unwrapped, or where it failed. -/
def State.critChecks (s : State) (c : Crit) (o : CritOp) : State × (Nat ⊕ Nat × Nat) :=
  if c.exec ≠ 0 ∧ o.tickOk c = false then (s, .inr (9, stMalformed))
  else if c.exec ≠ 0 ∧ s.tickRule c.exec ≠ stOk then (s, .inr (9, s.tickRule c.exec))
  else
    let t := if c.exec = 0 ∨ c.op = 0x03 then s else s.projected c
    let st := o.check t c
    if st ≠ stOk then (s, .inr (10, st))
    else if o.wraps then
      (match s.unwrapped c with
      | none => (s, .inr (10, stAuthFail))
      | some k =>
        let s := s.advanceWrap c.ctx
        let st := o.after t c k
        if st ≠ stOk then (s, .inr (10, st)) else (s, .inl k))
    else (s, .inl 0)

/-- The steps of Table 4.15 from step 2 on, and the floor of R49. -/
def State.tryCrit (s : State) (key : Nat) (p : Packet) : State :=
  let c := critOf p
  let i := s.issuer c.issuer
  match critOp c.op with
  | none => s.complete key stMalformed
  | some o =>
    if !(critShape s.ep p && o.shape c) then s.complete key stMalformed
    else if i.st = 0 then s.authFail c 3 key
    else if critTag i.key p ≠ c.tag then s.authFail c 4 key
    else if c.counter = i.last ∧ i.lastTag = some c.tag then
      (match i.stored with
      | some (st, d) => s.complete key st d
      | none => { s with cc := { s.cc with copies := s.cc.copies ++ [(c.issuer, c.counter, key)] } })
    else if c.counter ≤ i.last then s.authFail c 6 key
    else if i.st = 2 ∨ ccMax < c.counter then (s.postMgr (ccExhausted c.issuer)).authFail c 7 key
    else if bit i.perm o.cls = false then s.complete key stPermission
    else match s.critChecks c o with
      | (s, .inr (step, st)) => s.refuseCrit c step key st
      | (s, .inl k) =>
        if i.floor ≤ c.counter then
            { s with cc := { s.cc with
              floorWait := some (key, c, k), taken := if c.op = 0x04 then some s.commitEntries else none } }
          else s.critGo key c k

/-- A critical command whose packet has been accepted; it waits behind one whose floor is being written. -/
def State.actCrit (s : State) (key : Nat) : State :=
  match s.slot? key with
  | none => s
  | some v =>
    if s.cc.floorWait.isSome then { s with cc := { s.cc with behind := s.cc.behind ++ [key] } }
    else s.tryCrit key v.pkt

/-- COUNTER_FLOOR_WRITTEN (R49): the floor verified, the command acts; else it completes BUS_ERROR and consumes no counter. -/
def execCounterFloorWritten (ok : Bool) (s : State) : Outcome :=
  match s.cc.floorWait with
  | none => .next s
  | some (key, c, k) =>
    let l := s.cc.behind
    let s := { s with cc := { s.cc with floorWait := none, behind := [] } }
    let i := s.issuer c.issuer
    let floor := c.counter + 2 ^ 20
    let s := if ok then
        let s := { s with flash := s.floorWritten c }
        (s.setIssuer c.issuer { i with floor := floor }).critGo key c k
      else s.complete key stBusError
    let s := { s with cc := { s.cc with taken := none } }
    .next (l.foldl (fun s k => s.actCrit k) s)

/-! ### Arrival -/

/-- Rules of a critical opcode: any source, SEC = 0 or 1 (R91, R419). -/
def critRules (op : Nat) : Rules := { form := fun p => p.ofCmd op, clearOk := fun _ _ => true }

/-- A critical command arrives. -/
def State.arriveCrit (s : State) (op : Nat) (port : Fin 16) (p : Packet) : Outcome :=
  .next (s.arrive (critRules op) port p State.actCrit)

/-- The firmware-update command, which RECOVERY accepts on the served port (R43). -/
def State.arriveFw (s : State) (port : Fin 16) (p : Packet) : Outcome :=
  let r : Rules := { critRules 0x10 with early := fun s _ => s.boot.state == 7 && s.boot.served == some port.val }
  .next (s.arrive r port p fun s key =>
    if s.boot.state = 7 then (match s.slot? key with | some v => s.recoverFw key v.pkt | none => s) else s.actCrit key)

/-- ISSUER_KEY_INSTALL. -/
def execIssuerKeyInstall (port : Fin 16) (p : Packet) (s : State) : Outcome := s.arriveCrit 0x01 port p
/-- ISSUER_KEY_RETIRE. -/
def execIssuerKeyRetire (port : Fin 16) (p : Packet) (s : State) : Outcome := s.arriveCrit 0x02 port p
/-- SWAP. -/
def execSwap (port : Fin 16) (p : Packet) (s : State) : Outcome := s.arriveCrit 0x03 port p
/-- SWAP_CANCEL. -/
def execSwapCancel (port : Fin 16) (p : Packet) (s : State) : Outcome := s.arriveCrit 0x03 port p
/-- COMMIT. -/
def execCommit (port : Fin 16) (p : Packet) (s : State) : Outcome := s.arriveCrit 0x04 port p
/-- KEY_INSTALL. -/
def execKeyInstall (port : Fin 16) (p : Packet) (s : State) : Outcome := s.arriveCrit 0x08 port p
/-- KEY_RETIRE. -/
def execKeyRetire (port : Fin 16) (p : Packet) (s : State) : Outcome := s.arriveCrit 0x09 port p
/-- CONTEXT_CREATE. -/
def execContextCreate (port : Fin 16) (p : Packet) (s : State) : Outcome := s.arriveCrit 0x0A port p
/-- CONTEXT_DESTROY. -/
def execContextDestroy (port : Fin 16) (p : Packet) (s : State) : Outcome := s.arriveCrit 0x0B port p
/-- EXTENT_GRANT. -/
def execExtentGrant (port : Fin 16) (p : Packet) (s : State) : Outcome := s.arriveCrit 0x0C port p
/-- EXTENT_REVOKE. -/
def execExtentRevoke (port : Fin 16) (p : Packet) (s : State) : Outcome := s.arriveCrit 0x0D port p
/-- FW_UPDATE. -/
def execFwUpdate (port : Fin 16) (p : Packet) (s : State) : Outcome := s.arriveFw port p
/-- RECOVERY_FW_UPDATE. -/
def execRecoveryFwUpdate (port : Fin 16) (p : Packet) (s : State) : Outcome := s.arriveFw port p
/-- ROLE_CHANGE. -/
def execRoleChange (port : Fin 16) (p : Packet) (s : State) : Outcome := s.arriveCrit 0x11 port p
/-- DEBUG_UNLOCK. -/
def execDebugUnlock (port : Fin 16) (p : Packet) (s : State) : Outcome := s.arriveCrit 0x12 port p

end Sys2Proof.Machine
end

