-- ==== Sys2Proof/Machine/Routing.lean ====
section
/-!
DEFINITION. The router (14_routing.md): transit packets, the routing-table window and the epoch flip, the counting board and
its bank switch, and the release of throttled requests.
-/
namespace Sys2Proof.Machine

/-! ### Transit (R332, R334) -/

/-- An unnamed packet for this module (assumption 140): MALFORMED at row 2 of Table 15.5, at step 2 of Table 4.15 for a critical
opcode, and on acceptance for a context opcode. -/
def State.arriveUnnamed (s : State) (port : Fin 16) (p : Packet) : State :=
  if p.critical then s.arrive (critRules p.opcode) port p State.actCrit
  else s.arrive { form := id } port p fun s key => s.complete key stMalformed

/-- TRANSIT_PACKET: a packet for another endpoint arrives on a port that is UP. An ANNOUNCE is never routed (R331). -/
def execTransitPacket (port : Fin 16) (p : Packet) (s : State) : Outcome :=
  if p.dst = s.ep ∧ p.unnamed then .next (s.arriveUnnamed port p)
  else onlyIf (s.portUp port && p.dst != s.ep && !(p.typ == tTickSync && field p.body 0 1 == 0)) s fun s =>
    (s.received port p none).policed port p fun s => (s.learn port p).transit port p

/-! ### The routing-table window (R337) -/

/-- Packets of an epoch in the router: queued for a port, held at their unit with their bit set, or part sent (Table
14.11). -/
def State.occupancy (s : State) (epoch : Nat) : Nat :=
  let n (l : List Queued) : Nat := (l.filter fun x => x.pkt.epoch % 2 == epoch).length
  (s.rtr.queues.map fun q => if q.1 < selfQueue * 16 then n q.2 else 0).sum + (s.rtr.held.map fun q => n q.2).sum +
    (s.rtr.beam.map fun q => if q.1 < selfQueue * 8 then n (q.2.map (·.2)) else 0).sum +
    (s.ports.map fun p => n (p.2.txNow.map (·.2))).sum

/-- Writable bits of a word of a routing entry (Table 14.3). -/
def routeMask (off : Nat) : Nat :=
  if off % 16 = 0 then 0x8C00FFFF else if off % 16 = 4 then 0xFFF else if off % 16 = 8 then 0xFFFFFFFF else 0xFFFF

/-- A write to the routing-table window at window offset `a` (R337). -/
def State.writeRoute (s : State) (a : Nat) (w : Word) : State × Nat :=
  let v := (a - 0x800000) / 0x40000
  if v = s.rtr.inject ∨ s.rtr.flipArmed.isSome ∨ !s.rtr.oldWritable then (s, stBusy)
  else if a % 0x40000 < 0x700 then
    ({ s with rtr := { s.rtr with table := wordPut s.rtr.table a (w &&& BitVec.ofNat 32 (routeMask a)) } }, stOk)
  else (s, stOk)

/-- OLD_WRITABLE_SET (R337): EPOCH_GUARD_US after the last flip, the other version unoccupied. -/
def execOldWritableSet (s : State) : Outcome :=
  if s.rtr.oldWritable then .next s
  else
    let s := s.elapseTo (s.rtr.flipAt + us (s.actBits .rtr 0 0x040 31 16))
    onlyIf (s.occupancy (1 - s.rtr.inject) == 0) s fun s => { s with rtr := { s.rtr with oldWritable := true } }

/-! ### The flip (R338) -/

/-- RTR_FLIP_CTL written: CANCEL first, then ARM (R338). -/
def State.writeFlipCtl (s : State) (w : Word) : State × Nat :=
  let arm (s : State) : State × Nat :=
    let t := s.regTick 0x20804 0x20808
    if !wbit w 0 then (s, stOk)
    else if s.rtr.flipArmed.isSome then (s, stBusy)
    else if s.tickRule t ≠ stOk then (s, s.tickRule t)
    else ({ s with rtr := { s.rtr with flipArmed := some t } }, stOk)
  if wbit w 1 then
    if s.rtr.flipArmed.isNone then (s, stMalformed) else arm { s with rtr := { s.rtr with flipArmed := none } }
  else arm s

/-- EPOCH_FLIP: event 3 of R75. INJECT toggles, its LOADED bit is set and OLD_WRITABLE is cleared (R337, R338). -/
def execEpochFlip (s : State) : Outcome :=
  match s.rtr.flipArmed with
  | none => .next s
  | some t => onlyIf (!s.dueBefore t 7) s fun s =>
      let s := s.elapseToTick t
      let v := 1 - s.rtr.inject
      let s := { s with rtr := { s.rtr with
        inject := v, v0Loaded := s.rtr.v0Loaded || v == 0, v1Loaded := s.rtr.v1Loaded || v == 1
        oldWritable := false, flipAt := s.time, flipArmed := none } }
      s.raise .rtr 0 1

/-! ### The counting board (R344, R345, R347) -/

/-- PERIOD and ANCHOR of a bank. -/
def State.boardPeriod (s : State) (b : Nat) : Nat := (s.reg (0x20818 + 0xC * b)).toNat
def State.boardAnchor (s : State) (b : Nat) : Nat := s.regTick (0x2081C + 0xC * b) (0x20820 + 0xC * b)

/-- Two windows overlap. -/
def BoardWin.overlaps (a b : BoardWin) : Bool := decide (a.start < b.start + b.len ∧ b.start < a.start + a.len)

/-- A window of a bank of period `period` fails the check of R347, among the others of its port. -/
def BoardWin.bad (w : BoardWin) (period : Nat) (ws : List BoardWin) : Bool :=
  w.len == 0 || decide (period < w.start + w.len) || w.mask % 64 == 0 || bit w.mask 0 || bit w.mask 2 || bit w.mask 3 ||
    ws.any (fun x => x.index != w.index && w.overlaps x)

/-- The first failing port and window of a bank (R347). -/
def State.boardFail (s : State) (b : Nat) : Option (Nat × Nat) :=
  let fails := (List.range 16).filterMap fun p =>
    let ws := s.boardWins p b
    (ws.find? fun w => w.bad (s.boardPeriod b) ws).map fun w => (p, w.index)
  fails.head?

/-- RTR_BOARD_CTL written: CANCEL first, then ARM, which checks the inactive bank (R347). -/
def State.writeBoardCtl (s : State) (w : Word) : State × Nat :=
  let arm (s : State) : State × Nat :=
    let t := s.regTick 0x20834 0x20838
    if !wbit w 0 then (s, stOk)
    else if s.rtr.boardArmed.isSome then (s, stBusy)
    else if s.tickRule t ≠ stOk then (s, s.tickRule t)
    else match s.boardFail (1 - s.rtr.boardActive) with
      | some (p, n) =>
        let s := { s with rtr := { s.rtr with boardBad := true, badPort := p, badWindow := n } }
        (s.raise .rtr 0 3, stMalformed)
      | none => ({ s with rtr := { s.rtr with boardArmed := some t, boardBad := false } }, stOk)
  if wbit w 1 then
    if s.rtr.boardArmed.isNone then (s, stMalformed) else arm { s with rtr := { s.rtr with boardArmed := none } }
  else arm s

/-- Writable bits of a word of a counting-board window (Table 14.5). -/
def boardMask (a : Nat) : Nat := if a % 16 = 0 then 0x803F03FF else if a % 16 = 4 then 0xC0000FFF else 0xFFFFFFFF

/-- A write to a counting-board window at window offset `a` (R347). -/
def State.writeBoard (s : State) (a : Nat) (w : Word) : State × Nat :=
  if a % 0x8000 / 0x4000 = s.rtr.boardActive ∨ s.rtr.boardArmed.isSome then (s, stBusy)
  else ({ s with rtr := { s.rtr with board := wordPut s.rtr.board a (w &&& BitVec.ofNat 32 (boardMask a)) } }, stOk)

/-- BOARD_SWITCH: event 4 of R75. -/
def execBoardSwitch (s : State) : Outcome :=
  match s.rtr.boardArmed with
  | none => .next s
  | some t => onlyIf (!s.dueBefore t 8) s fun s =>
      let s := s.elapseToTick t
      State.raise { s with rtr := { s.rtr with boardActive := 1 - s.rtr.boardActive, boardArmed := none } } .rtr 0 2

/-- The open window of a port and the ticks left until it closes (R345); a port in Ethernet personality has none (R346). -/
def State.openWindow (s : State) (p : Nat) : Option (BoardWin × Nat) :=
  let b := s.rtr.boardActive
  let period := s.boardPeriod b
  if s.portEth p ∨ period = 0 ∨ s.tick.count < s.boardAnchor b then none
  else
    let ph := (s.tick.count - s.boardAnchor b) % period
    ((s.boardWins p b).find? fun w => decide (w.start ≤ ph ∧ ph < w.start + w.len)).map fun w => (w, w.start + w.len - ph)

/-! ### Throttling (R343) -/

/-- Held requests of a port and VC injected, oldest first, while the queue is below HI_KIB; the rest go on waiting. -/
def State.unhold (s : State) (port vc : Nat) : List Queued → State
  | [] => { s with rtr := { s.rtr with held := tblDel s.rtr.held (port * 8 + vc) } }
  | x :: t =>
    if s.throttled port vc && decide (s.throttleHi ≤ s.qdepth port vc) then
      { s with rtr := { s.rtr with held := tblPut s.rtr.held (port * 8 + vc) (x :: t) } }
    else (s.toQueue port (queueOf x.pkt (match x.ctx with | some c => s.classOf c | none => 0)) x).unhold port vc t

/-- THROTTLE_RELEASE: the queue has fallen to LO_KIB. -/
def execThrottleRelease (port : Fin 16) (vc : Fin 6) (s : State) : Outcome :=
  onlyIf (decide (s.qdepth port vc ≤ s.throttleLo)) s fun s => s.unhold port vc (tblGet s.rtr.held (port * 8 + vc) [])

/-! ### The RTR page (Tables 14.10–14.13) -/

/-- A block-specific register of the RTR page as it reads, by offset. -/
def State.readRtr (s : State) (off : Nat) : Word :=
  let r := s.rtr
  let sel := s.reg 0x20850
  let v : Nat :=
    if off = 0x800 then
      b2n r.v1Loaded * 16 + b2n r.v0Loaded * 8 + b2n r.oldWritable * 4 + b2n r.flipArmed.isSome * 2 + r.inject % 2
    else if off = 0x80C ∨ off = 0x83C then 0
    else if off = 0x810 then min (s.occupancy 1) 0xFFFF * 65536 + min (s.occupancy 0) 0xFFFF
    else if off = 0x814 then
      (match r.upstream with | some (p, _) => 2 ^ 31 + p % 16 * 65536 | none => 0) + r.annEp % 4096
    else if off = 0x840 then
      r.badPort % 16 * 65536 + r.badWindow % 1024 * 64 + b2n r.boardBad * 4 + b2n r.boardArmed.isSome * 2 + r.boardActive % 2
    else if off = 0x854 then s.qdepth (wbits sel 6 3) (wbits sel 2 0)
    else if off = 0x858 then
      max (tblGet r.depthMax (wbits sel 6 3 * 8 + wbits sel 2 0) 0) (s.qdepth (wbits sel 6 3) (wbits sel 2 0))
    else (s.reg (0x20000 + off)).toNat
  BitVec.ofNat 32 v

/-- A read of QDEPTH_MAX clears it (Table 14.13). -/
def State.clearDepthMax (s : State) : State :=
  let sel := s.reg 0x20850
  { s with rtr := { s.rtr with depthMax := tblDel s.rtr.depthMax (wbits sel 6 3 * 8 + wbits sel 2 0) } }

/-- A write to a block-specific register of the RTR page, by offset. -/
def State.writeRtr (s : State) (off : Nat) (w : Word) : State × Nat :=
  let a := 0x20000 + off
  if off = 0x804 ∨ off = 0x808 then (if s.rtr.flipArmed.isSome then (s, stBusy) else (s.setReg a w, stOk))
  else if off = 0x80C then s.writeFlipCtl w
  else if off = 0x818 ∨ off = 0x81C ∨ off = 0x820 ∨ off = 0x824 ∨ off = 0x828 ∨ off = 0x82C then
    let b := (off - 0x818) / 0xC
    if b ≠ s.rtr.boardActive ∧ s.rtr.boardArmed.isSome then (s, stBusy) else (s.setReg a w, stOk)
  else if off = 0x830 then (s.setReg a (BitVec.ofNat 32 (max 1 (wbits w 15 0))), stOk)
  else if off = 0x834 ∨ off = 0x838 then (if s.rtr.boardArmed.isSome then (s, stBusy) else (s.setReg a w, stOk))
  else if off = 0x83C then s.writeBoardCtl w
  else if off = 0x850 then (s.setReg a (BitVec.ofNat 32 (wbits w 6 0)), stOk)
  else (s, stOk)

end Sys2Proof.Machine
end

