-- ==== Sys2Proof/Machine/Link.lean ====
section
/-!
DEFINITION. The link ports (13_link.md): flits with their CRC, reception, replay, on/off flow control, the link states, what a
port does as it goes DOWN, and the choice of what a flit slot carries (R346, R392, R393).
-/
namespace Sys2Proof.Machine

/-! ### Flits (Tables 13.1, 13.2) -/

/-- One bit of the IEEE 802.3 frame check sequence, least significant bit first. -/
def crcBit (c : Nat) : Nat := if c % 2 = 1 then Nat.xor (c / 2) 0xEDB88320 else c / 2

/-- One byte of it. -/
def crcByte (c : Nat) (b : Byte) : Nat := (List.range 8).foldl (fun c _ => crcBit c) (Nat.xor c b.toNat)

/-- The CRC-32 of a byte string (R305). -/
def crc32 (b : List Byte) : Nat := Nat.xor (b.foldl crcByte 0xFFFFFFFF) 0xFFFFFFFF

/-- The link header (Table 13.2). -/
structure FlitHdr where
  ftype : Nat
  vc : Nat
  pstart : Nat
  rr : Nat
  seq : Nat
  ack : Nat
  xoff : Nat
deriving DecidableEq, Repr

/-- A link header read from bytes 0–7. -/
def flitHdr (f : List Byte) : FlitHdr :=
  let n := field f 0 8
  { ftype := bits n 3 0, vc := bits n 6 4, pstart := bits n 13 8, rr := bits n 15 14, seq := bits n 31 16
    ack := bits n 47 32, xoff := bits n 53 48 }

/-- Payload of a flit. -/
def flitPayload (f : List Byte) : List Byte := (f.drop 8).take 244

/-- A good flit (R305, R306): 256 bytes, its CRC right, FTYPE 0–2 and a DATA flit's VC 0–5. -/
def flitGood (f : List Byte) : Bool :=
  let h := flitHdr f
  f.length == 256 && crc32 (f.take 252) == field f 252 4 && h.ftype ≤ 2 && (h.ftype != 1 || h.vc ≤ 5)

/-- A flit made of header fields and a payload, reserved bits 0. -/
def makeFlit (ftype vc pstart rr seq ack xoff : Nat) (payload : List Byte) : List Byte :=
  let h := ftype % 16 + vc % 8 * 2 ^ 4 + pstart % 64 * 2 ^ 8 + rr % 4 * 2 ^ 14 + seq % 65536 * 2 ^ 16 + ack % 65536 * 2 ^ 32 +
    xoff % 64 * 2 ^ 48
  let b := leBytes 8 h ++ (payload ++ zeroBytes 244).take 244
  b ++ leBytes 4 (crc32 b)

/-- The payload of a CTRL flit of this module (Table 13.7). -/
def State.ctrlPayload (s : State) (p kind flags : Nat) : List Byte :=
  leBytes 2 kind ++ leBytes 2 s.ep ++ leBytes 4 idrev ++ [byte p, byte flags]

/-- A flit sent on a port: counted and logged. -/
def State.sendFlit (s : State) (p ftype vc pstart seq : Nat) (payload : List Byte) : State :=
  let v := s.port p
  let s := s.tally .lnk p 0x60 (ftype * 16 + vc)
  let s := if ftype = 1 then s.tally .lnk p 0x62 0 244 else s
  s.emit (.flit p vc (makeFlit ftype vc pstart v.rr seq v.ack v.xoffTx payload))

/-! ### DOWN (R323, R325) -/

/-- Packets a port had still to deliver to its partner: in the replay buffer, in progress, queued, and held at their unit
for it. -/
def State.portPackets (s : State) (p : Nat) : List Packet :=
  let v := s.port p
  v.replay.flatMap (·.packets) ++ v.txNow.map (·.2.pkt) ++ (List.range 16).flatMap (fun q => (s.queue p q).map (·.pkt)) ++
    (List.range 8).flatMap (fun c => (s.onBeam p c).map (·.2.pkt)) ++ (List.range 8).flatMap fun c => (tblGet s.rtr.held (p * 8 + c) []).map (·.pkt)

/-- The requester, its tag, the endpoint it asked, and the completion type a dropped packet's synthetic completion takes. -/
def Packet.answerTo (p : Packet) : Nat × Nat × Nat × Nat :=
  if p.isCompletion then (p.dst, p.tag, p.srcEp, p.typ) else (p.src, p.tag, p.dst, p.typ)

/-- A synthetic LINK_DOWN completion sent; the flag says whether it had a route (R323). -/
def State.sendSynthetic (s : State) (a : Nat × Nat × Nat × Nat) : State × Bool :=
  let (dst, tag, src, typ) := a
  let c := s.completion typ dst tag stLinkDown [] true false 0
  let c := Packet.sized { c with form := completionForm src stLinkDown (s.loadFor dst) true true false 0 }
  let (s, _, ok) := (s.chargeHost dst c.bytes).send c none false
  (s, ok)

/-- Synthetic completions for dropped packets, one for each request and each completion. -/
def State.synthesise (s : State) (p : Nat) (ps : List Packet) : State :=
  let as_ := ((ps.filter fun x => x.typ != tTickSync).map Packet.answerTo).eraseDups
  as_.foldl (fun s a =>
    match s.sendSynthetic a with
    | (s, true) => s.bump (pageBase .lnk p + 0x838)
    | (s, false) => s) s

/-- A port leaves UP for `st` (R323): its buffers are freed, what it had to send is dropped and answered for. -/
def State.leaveUp (s : State) (p : Nat) (st : LinkState) : State :=
  let v := s.port p
  let ps := s.portPackets p
  let s := s.setPort p { st := st, since := s.time, eth := v.eth, laneLock := v.laneLock, delivered := v.delivered }
  let s := (List.range 16).foldl (fun s q => s.setQueue p q []) s
  let s := { s with rtr := { s.rtr with
    held := tblFilter s.rtr.held (fun k _ => k / 8 != p), beam := tblFilter s.rtr.beam fun k _ => k / 8 != p } }
  let s := s.synthesise p ps
  (s.bumpHalf (pageBase .lnk p + 0x830) 31 16).raise .lnk p 0

/-- A port goes DOWN from any state: R323 applies only from UP. -/
def State.portDown (s : State) (p : Nat) : State :=
  let v := s.port p
  match v.st with
  | .up => s.leaveUp p .down
  | .training | .init => s.setPort p { st := .down, since := s.time, eth := v.eth, laneLock := v.laneLock }
  | _ => s

/-- 16 CTRL flits of kind DOWN (R325); none in Ethernet personality or before UP. -/
def State.downNotice (s : State) (p : Nat) : State :=
  if s.portUp p && !s.portEth p then
    (List.range 16).foldl (fun s _ => s.sendFlit p 2 0 0 0 (s.ctrlPayload p 2 0)) s
  else s

/-- The port takes the link DOWN by its own decision (Table 13.6). -/
def State.takeDown (s : State) (p : Nat) : State := (s.downNotice p).portDown p

/-- The port's clock is gated (Table 13.6, last row). -/
def State.portOff (s : State) (p : Nat) : State :=
  let s := if s.portUp p then s.leaveUp p .disabled else s
  s.setPort p {}

/-- A DISABLED port whose conditions hold starts to train; not before ZERO (R52). -/
def State.tryTrain (s : State) (p : Nat) : State :=
  if (s.port p).st == .disabled && s.mayTrain p && 4 ≤ s.boot.state then s.trainPort p else s

/-! ### UP (R320, R321, R42, R54) -/

/-- A port goes UP: sequence numbers start as R313 sets out; RECOVERY is served on the first port, an active manager begins
to listen. -/
def State.portGoesUp (s : State) (p : Nat) : State :=
  let v := s.port p
  let s := s.setPort p { st := .up, since := s.time, eth := v.eth, laneLock := v.laneLock, peer := v.peer }
  let s := if s.mgr.role = 2 ∧ s.tick.listenFrom.isNone ∧ !s.tick.locked ∧ s.boot.state < 6 then
      { s with tick := { s.tick with listenFrom := some s.time } } else s
  let s := if s.boot.state = 7 ∧ s.boot.served.isNone then
      { s with boot := { s.boot with served := some p }
               ports := tblMap s.ports fun i q => if i = p then q else ({} : Port) } else s
  s.raise .lnk p 1

/-- LINK_TRAINING_DONE: negotiation, training, alignment and FEC lock are done. -/
def execLinkTrainingDone (port : Fin 16) (s : State) : Outcome :=
  onlyIf ((s.port port).st == .training) s fun s =>
    let v := s.port port
    let s := s.setPort port { v with laneLock := 0xF, st := .init, since := s.time, initGood := 0, readySeen := false }
    if v.eth = 1 then s.portGoesUp port else s

/-- TRAINING_TIMEOUT: not done within 500 ms; training restarts, in RECOVERY at the next port (R42). -/
def execTrainingTimeout (port : Fin 16) (s : State) : Outcome :=
  onlyIf ((s.port port).st == .training) s fun s =>
    let s := s.elapseTo ((s.port port).since + ms 500)
    let s := s.setPort port { s.port port with since := s.time }
    ((s.bumpHalf (pageBase .lnk port + 0x830) 15 0).raise .lnk port 3).passTurn port

/-- INIT_TIMEOUT: not done within 1 ms; the link goes DOWN, and in RECOVERY the next port trains (R42). -/
def execInitTimeout (port : Fin 16) (s : State) : Outcome :=
  onlyIf ((s.port port).st == .init) s fun s => ((s.elapseTo ((s.port port).since + ms 1)).portDown port).passTurn port

/-- LOCKLOSS_US and DOWN_HOLD_US. -/
def State.lockLossNs (s : State) (p : Nat) : Nat := us (s.actBits .lnk p 0x040 15 8)
def State.downHoldNs (s : State) (p : Nat) : Nat := us (s.actBits .lnk p 0x040 31 16)

/-- LOCK_LOSS (R322): symbol lock has been lost on a lane for LOCKLOSS_US. -/
def execLockLoss (port : Fin 16) (lanes lostNs : Nat) (s : State) : Outcome :=
  onlyIf (s.portUp port && lanes % 16 != 0 && decide (s.lockLossNs port ≤ lostNs)) s fun s =>
    let s := s.elapse lostNs
    let v := s.port port
    (s.setPort port { v with laneLock := v.laneLock - (v.laneLock &&& lanes % 16) }).portDown port

/-- LOCK_BLIP (R322): lock came back sooner; the link stays UP. -/
def execLockBlip (port : Fin 16) (lanes lostNs : Nat) (s : State) : Outcome :=
  onlyIf (s.portUp port && lanes % 16 != 0 && decide (lostNs < s.lockLossNs port)) s fun s =>
    (s.elapse lostNs).bump (pageBase .lnk port + 0x834)

/-- DOWN_HOLD_EXPIRY: the port trains again, or is DISABLED. -/
def execDownHoldExpiry (port : Fin 16) (s : State) : Outcome :=
  onlyIf ((s.port port).st == .down) s fun s =>
    let s := s.elapseTo ((s.port port).since + s.downHoldNs port)
    if s.mayTrain port then s.trainPort port else s.setPort port {}

/-- A write of LNK_CTRL (Table 13.17): RETRAIN takes the link DOWN, HOLD_DOWN holds it there; without HOLD_DOWN a DISABLED port may
train. -/
def State.writeLnkCtrl (s : State) (p : Nat) (w : Word) : State × Nat :=
  let s := s.setReg (pageBase .lnk p + 0x800) (w &&& 1)
  let s := if wbit w 0 ∨ wbit w 1 then s.takeDown p else s
  (if wbit w 0 then s else s.tryTrain p, stOk)

/-- A swap that changed PERSONALITY, MEDIUM or EN restarts the link (R303). -/
def State.lnkSwapped (s : State) (old : RegMap) : State :=
  (List.range 16).foldl (fun s p =>
    if wbits (cfgGet old (pageBase .lnk p + 0x040)) 3 0 ≠ s.actBits .lnk p 0x040 3 0 then (s.takeDown p).tryTrain p else s) s

/-! ### Replay (R315–R317) -/

/-- REPLAY_TIMEOUT_NS and REPLAY_LIMIT. -/
def State.replayNs (s : State) (p : Nat) : Nat := s.actBits .lnk p 0x048 31 16
def State.replayLimit (s : State) (p : Nat) : Nat := s.actBits .lnk p 0x048 15 8

/-- A replay starts from the oldest held flit; after REPLAY_LIMIT of them without a freeing ACK the link goes DOWN. -/
def State.startReplay (s : State) (p : Nat) : State :=
  let v := s.port p
  if v.replay.isEmpty then s
  else if v.resend.isSome then s.setPort p { v with again := true, oldestAt := s.time }
  else if s.replayLimit p ≤ v.replays then (s.raise .lnk p 2).portDown p
  else
    (s.setPort p { v with resend := some v.replay, again := false, replays := v.replays + 1, oldestAt := s.time }).bump
      (pageBase .lnk p + 0x820)

/-- REPLAY_TIMEOUT: the oldest held flit has waited REPLAY_TIMEOUT_NS without an ACK that frees a flit. -/
def execReplayTimeout (port : Fin 16) (s : State) : Outcome :=
  onlyIf (s.portUp port && !(s.port port).replay.isEmpty) s fun s =>
    (s.elapseTo ((s.port port).oldestAt + s.replayNs port)).startReplay port

/-- WAIT_TIMEOUT: the receiver still waits and raises RR again. -/
def execWaitTimeout (port : Fin 16) (s : State) : Outcome :=
  match (s.port port).wait with
  | none => .next s
  | some t =>
    let s := s.elapseTo (t + s.replayNs port)
    let v := s.port port
    .next (s.setPort port { v with rr := (v.rr + 1) % 4, wait := some s.time })

/-- Flits an ACK frees (R316): none for a stale value. -/
def Port.freed (v : Port) (ack : Nat) : Nat :=
  match v.replay with
  | [] => 0
  | h :: _ =>
    let n := (ack + 65537 - h.seq) % 65536
    if n ≤ v.replay.length then n else 0

/-- The ACK, RR and XOFF of a good header act (R310, R316). -/
def State.onHeader (s : State) (p : Nat) (h : FlitHdr) : State :=
  let v := s.port p
  let n := v.freed h.ack
  let gone := (v.replay.take n).map (·.seq)
  let v := { v with xoffRx := h.xoff, replay := v.replay.drop n }
  let v := if n = 0 then v else
    { v with replays := 0, oldestAt := s.time
             resend := (v.resend.map fun l => l.filter fun x => !gone.contains x.seq).filter fun l => !l.isEmpty }
  if v.rrActed = h.rr then s.setPort p v else (s.setPort p { v with rrActed := h.rr }).startReplay p

/-! ### Reception (R307–R314) -/

/-- The receive side of a VC. -/
def Port.rxVc (v : Port) (vc : Nat) : RxVc := tblGet v.rx vc {}

/-- XOFF_AT and XON_AT. -/
def State.xoffAt (s : State) (p : Nat) : Nat := s.actBits .lnk p 0x044 15 8
def State.xonAt (s : State) (p : Nat) : Nat := s.actBits .lnk p 0x044 7 0

/-- The XOFF bits of a port after its buffers changed (R310). -/
def State.updateXoff (s : State) (p : Nat) : State :=
  let v := s.port p
  let on (c : Nat) : Bool :=
    let u := (v.rxVc c).units
    if s.xoffAt p ≤ u then true else if u ≤ s.xonAt p then false else bit v.xoffTx c
  s.setPort p { v with xoffTx := maskOf 6 on }

/-- The transaction layer takes bytes out of the receive buffers at a pace the spec leaves open: a free value says how many
units of each VC it has taken by now (assumption 14). -/
def State.drainRx (s : State) (p : Nat) : State :=
  let (n, s) := s.free
  let v := s.port p
  (s.setPort p { v with rx := tblMap v.rx fun c x => { x with units := x.units - n / 256 ^ c % (x.units + 1) } }).updateXoff p

/-- What packets a byte string holds from a packet start on: the whole packets, the rest of one cut off, and whether a length
below 4 units was met (R307, R308). -/
def packetsIn : (fuel : Nat) → List Byte → List (List Byte) × Option (List Byte) × Bool
  | 0, _ => ([], none, false)
  | fuel + 1, b =>
    match b with
    | [] => ([], none, false)
    | t :: _ =>
      let n := field b 2 2
      if t = 0 then ([], none, false)
      else if n < 4 then ([], none, true)
      else if 4 * n ≤ b.length then
        let (ps, rest, bad) := packetsIn fuel (b.drop (4 * n))
        (b.take (4 * n) :: ps, rest, bad)
      else ([], some b, false)

/-- A framing error of a port (R308). -/
def State.framing (s : State) (p : Nat) : State := (s.bump (pageBase .lnk p + 0x82C)).raise .lnk p 5

/-- The receive state of a VC set. -/
def State.setRx (s : State) (p vc : Nat) (x : RxVc) : State :=
  let v := s.port p
  s.setPort p { v with rx := tblPut v.rx vc x }

/-- Whole packets of a VC handed to the transaction layer, with the MAC address they came from. -/
def State.handOver (s : State) (p vc mac : Nat) (ps : List (List Byte)) : State :=
  let v := s.port p
  s.setPort p { v with delivered := v.delivered ++ ps.map fun b => (vc, mac, b) }

/-- The payload of an accepted DATA flit joins its VC's stream (R307, R308). With PSTART 63 the packet in progress may end in the
flit, and what follows it is padding. A packet that its PSTART cuts short is discarded with a framing error (assumption 163). -/
def State.takePayload (s : State) (p vc pstart : Nat) (b : List Byte) : State :=
  let x := (s.port p).rxVc vc
  if pstart = 61 ∨ pstart = 62 then (s.setRx p vc { x with partialPkt := none }).framing p
  else
    let cut := if pstart = 63 then 244 else 4 * pstart
    let head := b.take cut
    let (done, part, bad) : List (List Byte) × Option (List Byte) × Bool :=
      match x.partialPkt with
      | none => ([], none, false)
      | some q =>
        let q := q ++ head
        let n := 4 * field q 2 2
        if n ≤ q.length then ([q.take n], none, false)
        else if pstart = 63 then ([], some q, false)
        else ([], none, true)
    let (ps, rest, bad') := if pstart = 63 then ([], part, false) else packetsIn 64 (b.drop cut)
    let s := (s.setRx p vc { x with partialPkt := rest }).handOver p vc 0 (done ++ ps)
    if bad || bad' then s.framing p else s

/-- A flit that is no good INIT flit ends a run of them in INIT that has not reached 8 (R321). -/
def State.breakRun (s : State) (p : Nat) : State :=
  let v := s.port p
  if v.st = .init ∧ v.initGood < 8 then s.setPort p { v with initGood := 0 } else s

/-- Codewords that the FEC of a port has corrected, and those it could not correct, counted (R304). -/
def State.fecCount (s : State) (p corr uncorr : Nat) : State :=
  (s.bump (pageBase .lnk p + 0x818) corr).bump (pageBase .lnk p + 0x81C) uncorr

/-- A bad flit is dropped whole (R304, R305). -/
def State.badFlit (s : State) (p : Nat) : State := (s.bump (pageBase .lnk p + 0x814)).breakRun p

/-- Both conditions of R321 hold. -/
def State.tryUp (s : State) (p : Nat) : State :=
  let v := s.port p
  if v.st == .init && 8 ≤ v.initGood && v.readySeen then s.portGoesUp p else s

/-- A flit of one type arrives on a port in flit personality, the FEC having corrected `corr` codewords since the one before: a bad
one is dropped, a good one's header acts, then `act`. -/
def State.arriveFlit (s : State) (port : Nat) (ftype corr : Nat) (f : List Byte) (act : State → FlitHdr → State) : Outcome :=
  let v := s.port port
  if !(v.eth = 0 ∧ (v.st = .up ∨ v.st = .init)) then .next s
  else if !flitGood f then .next ((s.fecCount port corr 0).badFlit port)
  else
    let h := flitHdr f
    onlyIf (h.ftype == ftype) s fun s =>
      let s := s.fecCount port corr 0
      let s := s.tally .lnk port 0x61 (h.ftype * 16 + if h.ftype = 1 then h.vc else 0)
      act ((s.onHeader port h).drainRx port) h

/-- A good IDLE or DATA flit in INIT counts as READY = 1, and is no INIT flit (R321). -/
def State.seenReady (s : State) (p : Nat) : State :=
  let s := s.breakRun p
  let v := s.port p
  if v.st = .init then (s.setPort p { v with readySeen := true }).tryUp p else s

/-- The receiver enters WAIT (R315). -/
def State.enterWait (s : State) (p : Nat) : State :=
  let v := s.port p
  if v.wait.isSome then s else s.setPort p { v with rr := (v.rr + 1) % 4, wait := some s.time }

/-- R314 on a good DATA flit. -/
def State.onData (s : State) (p : Nat) (h : FlitHdr) (b : List Byte) : State :=
  let v := s.port p
  let d := (h.seq + 65536 - v.exp) % 65536
  let x := v.rxVc h.vc
  if d = 0 then
    if 192 ≤ x.units then ((s.bump (pageBase .lnk p + 0x828)).raise .lnk p 4).enterWait p
    else
      let s := s.tally .lnk p 0x62 1 244
      let s := s.setPort p { v with exp := (v.exp + 1) % 65536, ack := h.seq, wait := none
                                    rx := tblPut v.rx h.vc { x with units := x.units + 1 } }
      (s.takePayload p h.vc h.pstart b).updateXoff p
  else if d < 32768 then s.enterWait p
  else s.bump (pageBase .lnk p + 0x824)

/-- A DATA flit arrives: what it does before its packets are delivered. -/
def State.arriveData (s : State) (port : Nat) (corr : Nat) (f : List Byte) : Outcome :=
  s.arriveFlit port 1 corr f fun s h =>
    let s := s.seenReady port
    if s.portUp port then s.onData port h (flitPayload f) else s

/-- IDLE_FLIT_RECEIVE. -/
def execIdleFlitReceive (port : Fin 16) (corr : Nat) (f : List Byte) (s : State) : Outcome :=
  s.arriveFlit port 0 corr f fun s _ => s.seenReady port

/-- INIT_FLIT_RECEIVE (R321): the partner is recorded, the run of good INIT flits and READY are noted. -/
def execInitFlitReceive (port : Fin 16) (corr : Nat) (f : List Byte) (s : State) : Outcome :=
  s.arriveFlit port 2 corr f fun s _ =>
    let b := flitPayload f
    let v := s.port port
    if v.st = .init ∧ field b 0 2 = 1 then
      (s.setPort port { v with
        initGood := min 8 (v.initGood + 1), readySeen := v.readySeen || bit (field b 9 1) 0
        peer := some (field b 2 2 % 4096, field b 8 1 % 16, field b 4 4) }).tryUp port
    else s.breakRun port

/-- DOWN_FLIT_RECEIVE (R325). -/
def execDownFlitReceive (port : Fin 16) (corr : Nat) (f : List Byte) (s : State) : Outcome :=
  s.arriveFlit port 2 corr f fun s _ =>
    if s.portUp port ∧ field (flitPayload f) 0 2 = 2 then s.portDown port else s.breakRun port

/-- BAD_FLIT_RECEIVE (R304, R305): a flit whose CRC fails, or that touches a codeword the FEC could not correct; `corr` and `uncorr`
count the codewords corrected and found uncorrectable since the flit before. -/
def execBadFlitReceive (port : Fin 16) (corr uncorr : Nat) (s : State) : Outcome :=
  let v := s.port port
  onlyIf (v.eth == 0 && (v.st == .up || v.st == .init)) s fun s => (s.fecCount port corr uncorr).badFlit port

/-! ### What a slot carries (R346, R392, R393) -/

/-- Quantum in bytes and shaper of a weighted queue. -/
def State.quantum (s : State) (p q : Nat) : Nat :=
  let w := s.act .qos 0 (0x0A0 + 12 * p + 4 * ((q - 4) / 4))
  max 1 (wbits w (8 * (q % 4) + 7) (8 * (q % 4))) * 256

/-- Counted length of a packet on a port (R393). -/
def State.counted (s : State) (p : Nat) (x : Queued) : Nat := x.pkt.bytes + s.portOvh p

/-- A weighted queue's shaper lets a packet start (R394). -/
def State.shaperOpen (s : State) (p q : Nat) : Bool :=
  let v := s.shaper (p * 16 + q)
  !wbit v.ctl 31 || (v.bucket.fill v.rate v.burst s.time).positive

/-- The shaper of a weighted queue charged for a start. -/
def State.chargeShaper (s : State) (p q n : Nat) : State :=
  let v := s.shaper (p * 16 + q)
  if wbit v.ctl 31 then s.setShaper (p * 16 + q) { v with bucket := (v.bucket.fill v.rate v.burst s.time).take n } else s

/-- A weighted queue is eligible (R393). -/
def State.eligible (s : State) (p q : Nat) : Bool := !(s.queue p q).isEmpty && s.shaperOpen p q

/-- A deficit of a queue. -/
def State.deficit (s : State) (p q : Nat) : Nat := tblGet s.qos.deficit (p * 16 + q) 0
def State.setDeficit (s : State) (p q n : Nat) : State :=
  { s with qos := { s.qos with deficit := tblPut s.qos.deficit (p * 16 + q) n } }

/-- Deficit round robin over the four queues of a VC (R393), from queue number `i` of the round: the queue whose head starts.
A visit adds the quantum; `fresh` says that this visit is new, and `may` gives the packet that an eligible queue may start. -/
def State.drr (s : State) (p vc : Nat) (may : Nat → Option Queued) : (fuel : Nat) → (i : Nat) → (fresh : Bool) → State × Option Nat
  | 0, _, _ => (s, none)
  | fuel + 1, i, fresh =>
    match (queuesOfVc vc)[i]? with
    | none => (s, none)
    | some q =>
      let next (s : State) := s.drr p vc may fuel ((i + 1) % 4) true
      match may q with
      | none => next s
      | some x =>
        let d := s.deficit p q + if fresh then s.quantum p q else 0
        let n := s.counted p x
        let s := { s with qos := { s.qos with turn := tblPut s.qos.turn (p * 8 + vc) i } }
        if n ≤ d then (s.setDeficit p q (d - n), some q) else next (s.setDeficit p q d)

/-- Fuel of the round: enough visits for the smallest quantum to reach the longest packet. -/
def drrFuel : Nat := 1100

/-- A VC is off for sending: the partner's XOFF, or a paused priority in Ethernet personality (R310, R329). -/
def State.vcOff (s : State) (p vc : Nat) : Bool :=
  let v := s.port p
  if v.eth = 1 then (tblGet? v.pfcRx (wbits (s.act .lnk p 0x054) (3 * vc + 2) (3 * vc))).any fun t => decide (s.time < t)
  else bit v.xoffRx vc

/-- A VC runs scheduled on a port (R342). -/
def State.scheduled (s : State) (p vc : Nat) : Bool :=
  (vc == 1 || vc == 4 || vc == 5) && wbit (s.act .rtr 0 0x044) vc && !s.portEth p

/-- The context a queued packet is matched by: its own, or the one a transit packet's header names; in the memory form the owner of
the key slot that its prefix names, where this module holds that key, and 0 under KEY_ID 0 (R353). -/
def State.contextIn (s : State) (x : Queued) : Option Nat :=
  match x.ctx with
  | some c => some c
  | none =>
    if x.pkt.isCompletion then none
    else if memoryForm x.pkt.typ then (match x.pkt.sec with
      | some k => if k.keyId = 0 then some 0 else (s.slotOfKeyId k.keyId).map fun n => (s.keySlot n).owner
      | none => none)
    else some x.pkt.context

/-- A packet matches a window. -/
def State.matchesWin (s : State) (w : BoardWin) (x : Queued) : Bool :=
  bit w.mask x.pkt.channel && (w.anyCtx || s.contextIn x == some w.context) && (w.anyDst || x.pkt.dst == w.dst)

/-- Flit slots of 2.56 ns in a number of ticks, and those a packet needs. -/
def slotsIn (ticks : Nat) : Nat := ticks * 100 / 256
def Queued.slots (x : Queued) : Nat := (x.pkt.bytes + 243) / 244

/-- How a packet may start in an open window with `left` ticks to go (R346): it fits, or (an overrun) it is longer than every
matching window and the window has just opened. -/
def State.windowStart (s : State) (p : Nat) (w : BoardWin) (left : Nat) (x : Queued) : Option Bool :=
  if !s.matchesWin w x then none
  else if x.slots ≤ slotsIn left then some false
  else if w.len < left + 3 ∧ (s.boardWins p s.rtr.boardActive).all (fun v => !s.matchesWin v x || slotsIn v.len < x.slots) then some true
  else none

/-- The packets of one flow: the same source, destination and context. -/
def State.sameFlow (s : State) (x y : Queued) : Bool :=
  x.pkt.src == y.pkt.src && x.pkt.dst == y.pkt.dst && s.contextIn x == s.contextIn y

/-- The first packet of a list that satisfies `f` with no earlier packet of its flow, and the list without it. -/
def pickFlow (same : Queued → Queued → Bool) (f : Queued → Bool) : (seen : List Queued) → List Queued → Option (Queued × List Queued)
  | _, [] => none
  | seen, x :: t =>
    if f x && !seen.any (same x) then some (x, seen.reverse ++ t) else pickFlow same f (x :: seen) t

/-- The packet of a queue of a scheduled VC that may start in an open window: itself, what stays queued, and whether it runs over. -/
def State.pickScheduled (s : State) (p q : Nat) (w : BoardWin) (left : Nat) : Option (Queued × List Queued × Bool) :=
  if s.shaperOpen p q then
    (pickFlow s.sameFlow (fun x => (s.windowStart p w left x).isSome) [] (s.queue p q)).map fun r =>
      (r.1, r.2, s.windowStart p w left r.1 == some true)
  else none

/-- The next weighted packet of a VC by its round, which goes on from where it stands. -/
def State.round (s : State) (p vc : Nat) (may : Nat → Option Queued) : State × Option Nat :=
  let turn := tblGet? s.qos.turn (p * 8 + vc)
  s.drr p vc may drrFuel (turn.getD 0) turn.isNone

/-- The tick fields of a TICK_SYNC as its first flit crosses the port (R69): T_ORIGIN of this module's own, residence added to
CORRECTION of a transit one; a DELAY_REQ's t1 is kept. -/
def State.stampSync (s : State) (x : Queued) : State × Queued :=
  if x.pkt.typ ≠ tTickSync then (s, x)
  else
    let b := x.pkt.body
    match x.came with
    | some t =>
      let corr := leBytes 4 (syncCorr b + (s.tick.count - t))
      (s, { x with pkt := { x.pkt with body := overlay b 16 corr } })
    | none =>
      let s := match s.tick.req with
        | some (seq, _) =>
          if syncKind b = 1 ∧ seq = syncSeq b then { s with tick := { s.tick with req := some (seq, s.tick.count) } } else s
        | none => s
      (s, { x with pkt := { x.pkt with body := overlay b 8 (leBytes 8 s.tick.count) } })

/-- A packet starts on a VC of a port: it leaves its queue and is charged (R393, R394). -/
def State.startPacket (s : State) (p q vc : Nat) (x : Queued) (rest : List Queued) : State :=
  let s := (s.setQueue p q rest).fromBeam p vc
  let s := if q < 4 then s else
    let s := s.chargeShaper p q (s.counted p x)
    let s := (s.tally .qos 0 0xA1 (p * 16 + q)).tally .qos 0 0xA2 (p * 16 + q) x.pkt.bytes
    if rest.isEmpty then s.setDeficit p q 0 else s
  let (s, x) := s.stampSync x
  let v := s.port p
  s.setPort p { v with txNow := tblPut v.txNow vc { x with sent := 0 } }

/-- A queue's head starts. -/
def State.beginHead (s : State) (p vc q : Nat) : State :=
  match s.queue p q with
  | [] => s
  | x :: t => s.startPacket p q vc x t

/-- The next packet of a VC starts, if one may, given the open window. -/
def State.startNext (s : State) (p vc : Nat) (win : Option (BoardWin × Nat)) : State :=
  if s.scheduled p vc then
    match win with
    | none => s
    | some (w, left) => match s.round p vc fun q => (s.pickScheduled p q w left).map (·.1) with
      | (s, none) => s
      | (s, some q) => match s.pickScheduled p q w left with
        | none => s
        | some (x, rest, late) => (if late then s.bump 0x2084C else s).startPacket p q vc x rest
  else if vc = 1 ∨ vc = 4 ∨ vc = 5 then
    match s.round p vc fun q => if s.eligible p q then (s.queue p q).head? else none with
    | (s, some q) => s.beginHead p vc q
    | (s, none) => s
  else match (queuesOfVc vc).find? fun q => !(s.queue p q).isEmpty with
    | some q => s.beginHead p vc q
    | none => s

/-- The packet of a VC in progress. -/
def State.inProgress (s : State) (p vc : Nat) : Option Queued := tblGet? (s.port p).txNow vc

/-- A packet is wholly sent: counted, no longer in progress (R453, Table 14.14). -/
def State.packetSent (s : State) (p vc : Nat) (x : Queued) : State :=
  let v := s.port p
  let s := s.setPort p { v with txNow := tblDel v.txNow vc }
  let s := (s.tally .rtr 0 0x70 (p * 16 + vc) 1 x.ctx).tally .rtr 0 0x72 (p * 16 + vc) x.pkt.bytes x.ctx
  { s with tly := { s.tly with now := tblPut s.tly.now (2 * p) (tblGet s.tly.now (2 * p) 0 + x.pkt.bytes) } }

/-- A flit's payload filled from a VC's stream (R307): state, payload, PSTART, and the packets it ends. -/
def State.fill (s : State) (p vc : Nat) (win : Option (BoardWin × Nat)) :
    (fuel : Nat) → (acc : List Byte) → (pstart : Nat) → (ends : List Packet) → State × List Byte × Nat × List Packet
  | 0, acc, pstart, ends => (s, acc, pstart, ends)
  | fuel + 1, acc, pstart, ends =>
    if 244 ≤ acc.length then (s, acc, pstart, ends)
    else
      let s := if (s.inProgress p vc).isSome then s else s.startNext p vc win
      match s.inProgress p vc with
      | none => (s, acc, pstart, ends)
      | some x =>
        let pstart := if x.sent = 0 ∧ pstart = 63 then acc.length / 4 else pstart
        let b := (x.pkt.onWire.drop x.sent).take (244 - acc.length)
        let x' := { x with sent := x.sent + b.length }
        if x.pkt.wire ≤ x'.sent then
          (s.packetSent p vc x).fill p vc win fuel (acc ++ b) pstart (ends ++ [x.pkt])
        else
          let v := s.port p
          (s.setPort p { v with txNow := tblPut v.txNow vc x' }, acc ++ b, pstart, ends)

/-- A new DATA flit of a VC: sent, and held in the replay buffer (R313, R316). -/
def State.sendData (s : State) (p vc : Nat) (win : Option (BoardWin × Nat)) : State :=
  let (s, b, pstart, ends) := s.fill p vc win 16 [] 63 []
  let v := s.port p
  let h : Held := { seq := v.nextSeq, vc := vc, pstart := pstart, payload := b, packets := ends }
  let s := s.setPort p { v with
    nextSeq := (v.nextSeq + 1) % 65536, replay := v.replay ++ [h]
    oldestAt := if v.replay.isEmpty then s.time else v.oldestAt }
  s.sendFlit p 1 vc pstart h.seq b

/-- A VC has something for this slot: a packet in progress, or one that may start. -/
def State.ready (s : State) (p vc : Nat) (win : Option (BoardWin × Nat)) : Bool :=
  !s.vcOff p vc &&
    ((s.inProgress p vc).isSome ||
      (if s.scheduled p vc then (match win with
        | some (w, left) => (queuesOfVc vc).any fun q => (s.pickScheduled p q w left).isSome
        | none => false)
       else if vc = 1 ∨ vc = 4 ∨ vc = 5 then (queuesOfVc vc).any (s.eligible p)
       else (queuesOfVc vc).any fun q => !(s.queue p q).isEmpty))

/-- Rank of a strict VC's candidate (R392): the queue of its packet in progress, or of its head. -/
def State.strictRank (s : State) (p vc : Nat) : Nat :=
  match s.inProgress p vc with
  | some x => queueOf x.pkt 0
  | none => ((queuesOfVc vc).find? fun q => !(s.queue p q).isEmpty).getD 16

/-- Round robin of the weighted group among the VCs that are ready (R392). -/
def State.weightedTurn (s : State) (p : Nat) (vcs : List Nat) : Option Nat :=
  let last := tblGet s.qos.rr p 5
  let order := if last = 1 then [4, 5, 1] else if last = 4 then [5, 1, 4] else [1, 4, 5]
  order.find? vcs.contains

/-- The VC of the next new flit or frame: the open window's first (R346), then strict rank, then round robin (R392). -/
def State.pickVc (s : State) (p : Nat) (win : Option (BoardWin × Nat)) : Option Nat :=
  let windowed : List Nat := match win with
    | none => []
    | some (w, _) => [1, 4, 5].filter fun c => s.scheduled p c && bit w.mask c && s.ready p c win
  match s.weightedTurn p windowed with
  | some c => some c
  | none =>
    let strict := [0, 2, 3].filter fun c => s.ready p c win
    match strict.foldl (fun m c => match m with
        | none => some c
        | some d => if s.strictRank p c < s.strictRank p d then some c else some d) (none : Option Nat) with
    | some c => some c
    | none => s.weightedTurn p ([1, 4, 5].filter fun c => s.ready p c win)

/-- The weighted group remembers the VC it served. -/
def State.served (s : State) (p vc : Nat) : State :=
  if vc = 1 ∨ vc = 4 ∨ vc = 5 then { s with qos := { s.qos with rr := tblPut s.qos.rr p vc } } else s

/-- The next held flit of a replay (R316): it waits while its VC is off. -/
def State.resendFlit (s : State) (p : Nat) (l : List Held) : State :=
  let v := s.port p
  match l with
  | [] => s.setPort p { v with resend := none }
  | h :: t =>
    if s.vcOff p h.vc then s.sendFlit p 0 0 0 0 []
    else
      let s := s.setPort p { v with resend := if t.isEmpty then none else some t }
      let s := s.sendFlit p 1 h.vc h.pstart h.seq h.payload
      if t.isEmpty && v.again then s.startReplay p else s

/-! ### Ethernet frames (R326–R329) -/

/-- A number as `n` bytes, most significant first. -/
def beBytes (n v : Nat) : List Byte := (leBytes n v).reverse
/-- The number a byte string holds, most significant byte first. -/
def beNat (b : List Byte) : Nat := leNat b.reverse

/-- LNK_ETH_MAC of a port, as a 48-bit number whose most significant byte is byte 0. -/
def State.portMac (s : State) (p : Nat) : Nat := (s.act .lnk p 0x058).toNat + s.actBits .lnk p 0x05C 15 0 * 2 ^ 32
/-- The priority of a VC, ETYPE and MAX_PAYLOAD in bytes. -/
def State.pcpOf (s : State) (p vc : Nat) : Nat := wbits (s.act .lnk p 0x054) (3 * vc + 2) (3 * vc)
def State.etype (s : State) (p : Nat) : Nat := s.actBits .lnk p 0x04C 31 16
def State.maxPayload (s : State) (p : Nat) : Nat := s.actBits .lnk p 0x04C 15 2 * 4

/-- One frame (Tables 13.8, 13.9). -/
def State.ethFrame (s : State) (p vc mac : Nat) (first last : Bool) (off : Nat) (b : List Byte) : List Byte :=
  let f := beBytes 6 mac ++ beBytes 6 (s.portMac p) ++ beBytes 2 0x8100 ++
    beBytes 2 (s.pcpOf p vc * 2 ^ 13 + s.actBits .lnk p 0x050 11 0) ++ beBytes 2 (s.etype p) ++
    [byte (1 + vc * 16), byte (b2n first + 2 * b2n last)] ++ leBytes 2 s.ep ++ leBytes 4 off ++ b
  f ++ leBytes 4 (crc32 f)

/-- Whole packets of a VC to one MAC address packed behind `acc` while they fit (R327). -/
def State.pack (s : State) (p vc mac : Nat) : (fuel : Nat) → (acc : List Byte) → State × List Byte
  | 0, acc => (s, acc)
  | fuel + 1, acc =>
    let head := match (queuesOfVc vc).find? fun q => !(s.queue p q).isEmpty with
      | some q => (s.queue p q).head?
      | none => none
    match head with
    | none => (s, acc)
    | some x =>
      let weighted := vc == 1 || vc == 4 || vc == 5
      if weighted || x.mac != mac || s.maxPayload p < acc.length + x.pkt.wire then (s, acc)
      else
        let s := s.startNext p vc none
        match s.inProgress p vc with
        | none => (s, acc)
        | some y => (s.packetSent p vc y).pack p vc mac fuel (acc ++ y.pkt.onWire)

/-- One frame of a VC sent: a segment of a long packet, or whole packets (R327). -/
def State.sendFrame (s : State) (p vc : Nat) : State :=
  let s := if (s.inProgress p vc).isSome then s else s.startNext p vc none
  match s.inProgress p vc with
  | none => s
  | some x =>
    let m := s.maxPayload p
    if x.pkt.wire ≤ m ∧ x.sent = 0 then
      let (s, b) := (s.packetSent p vc x).pack p vc x.mac 64 x.pkt.onWire
      (s.tally .lnk p 0x62 0 b.length).emit (.frame p (s.ethFrame p vc x.mac true true 0 b))
    else
      let b := (x.pkt.onWire.drop x.sent).take m
      let done := decide (x.pkt.wire ≤ x.sent + b.length)
      let f := s.ethFrame p vc x.mac (x.sent == 0) done x.sent b
      let s := (s.tally .lnk p 0x62 0 b.length).emit (.frame p f)
      if done then s.packetSent p vc x
      else
        let v := s.port p
        s.setPort p { v with txNow := tblPut v.txNow vc { x with sent := x.sent + b.length } }

/-! ### FLIT_SLOT -/

/-- One slot of a port that is UP. -/
def State.slotUp (s : State) (p : Nat) : State :=
  let v := s.port p
  if v.eth = 1 then
    match s.pickVc p none with
    | some c => (s.sendFrame p c).served p c
    | none => s
  else match v.resend with
    | some l => s.resendFlit p l
    | none =>
      let win := s.openWindow p
      if 512 ≤ v.replay.length then s.sendFlit p 0 0 0 0 []
      else match s.pickVc p win with
        | some c => (s.sendData p c win).served p c
        | none => s.sendFlit p 0 0 0 0 []

/-- FLIT_SLOT: in INIT a CTRL flit of kind INIT, in UP one flit or frame; no other state sends. -/
def execFlitSlot (port : Fin 16) (s : State) : Outcome :=
  let v := s.port port
  match v.st with
  | .init => .next (s.sendFlit port 2 0 0 0 (s.ctrlPayload port 1 (b2n (8 ≤ v.initGood))))
  | .up => .next (s.slotUp port)
  | _ => .next s

/-! ### Ethernet reception (R328, R329) -/

/-- A PFC frame of IEEE 802.1Qbb for one priority. -/
def State.pfcFrame (s : State) (p prio quanta : Nat) : List Byte :=
  let f := beBytes 6 0x0180C2000001 ++ beBytes 6 (s.portMac p) ++ beBytes 2 0x8808 ++ beBytes 2 0x0101 ++ beBytes 2 (2 ^ prio) ++
    ((List.range 8).flatMap fun i => beBytes 2 (if i = prio then quanta else 0)) ++ zeroBytes 26
  f ++ leBytes 4 (crc32 f)

/-- VCs mapped to a priority. -/
def State.vcsOfPrio (s : State) (p prio : Nat) : List Nat := (List.range 6).filter fun c => s.pcpOf p c == prio

/-- PFC frames sent as buffers fill and drain (R329). -/
def State.updatePfc (s : State) (p : Nat) : State :=
  (List.range 8).foldl (fun s prio =>
    let v := s.port p
    let cs := s.vcsOfPrio p prio
    let off := (tblGet? v.pfcTx prio).isSome
    if !off && cs.any (fun c => decide (s.xoffAt p ≤ (v.rxVc c).units)) then
      (s.setPort p { v with pfcTx := tblPut v.pfcTx prio s.time }).emit (.frame p (s.pfcFrame p prio 0xFFFF))
    else if off && cs.all (fun c => decide ((v.rxVc c).units ≤ s.xonAt p)) then
      (s.setPort p { v with pfcTx := tblDel v.pfcTx prio }).emit (.frame p (s.pfcFrame p prio 0))
    else s) s

/-- The payload of a frame is one ANNOUNCE and nothing else (R328, R462). -/
def onlyAnnounce (b : List Byte) : Bool :=
  field b 0 1 == tTickSync && 4 * field b 2 2 == b.length && field b 16 1 == 0

/-- The header checks of R328. -/
def State.frameOk (s : State) (p : Nat) (f : List Byte) : Bool :=
  let b := (f.drop 26).take (f.length - 30)
  let dst := beNat (f.take 6)
  let h := field f 18 1
  30 ≤ f.length && beNat ((f.drop 12).take 2) == 0x8100 && beNat ((f.drop 16).take 2) == s.etype p &&
    (dst == s.portMac p || (dst == 2 ^ 48 - 1 && onlyAnnounce b)) && h % 16 == 1 && bits h 6 4 ≤ 5

/-- A segment of a packet of (SRC_EP, VC) (R328). -/
def State.takeSegment (s : State) (p src vc mac off : Nat) (first last : Bool) (b : List Byte) : State :=
  let v := s.port p
  let old := v.reasm.find? fun r => r.src == src && r.vc == vc
  let others := v.reasm.filter fun r => !(r.src == src && r.vc == vc)
  let s := s.setPort p { v with reasm := others }
  let so : Option (List Byte) := if first then (if off = 0 then some b else none) else
    match old with
    | some r => if r.bytes.length = off then some (r.bytes ++ b) else none
    | none => none
  match so with
  | none => s
  | some q =>
    if last then s.handOver p vc mac [q]
    else
      let v := s.port p
      s.setPort p { v with reasm := v.reasm ++ [{ src := src, vc := vc, bytes := q }] }

/-- An Ethernet frame arrives, the FEC having corrected `corr` codewords and met `uncorr` that it could not correct since the one
before: what it does before its packets are delivered. -/
def State.arriveFrame (s : State) (port : Nat) (corr uncorr : Nat) (f : List Byte) (fcsOk : Bool) : Outcome :=
  onlyIf (s.portUp port && s.portEth port) s fun s =>
    let s := (s.drainRx port).fecCount port corr uncorr
    if !(fcsOk && s.frameOk port f) then s.bump (pageBase .lnk port + 0x83C)
    else
      let b := (f.drop 26).take (f.length - 30)
      let vc := bits (field f 18 1) 6 4
      let fl := field f 19 1
      let src := field f 20 2 % 4096
      let off := field f 22 4
      let v := s.port port
      let x := v.rxVc vc
      let n := (b.length + 255) / 256
      if 192 < x.units + n then (s.bump (pageBase .lnk port + 0x828)).raise .lnk port 4
      else
        let s := s.tally .lnk port 0x62 1 b.length
        let s := s.setRx port vc { x with units := x.units + n }
        let s := if bit fl 0 && bit fl 1 then
            let (ps, rest, bad) := packetsIn 1024 b
            let s := s.handOver port vc (beNat ((f.drop 6).take 6)) ps
            if bad || rest.isSome then s.framing port else s
          else s.takeSegment port src vc (beNat ((f.drop 6).take 6)) off (bit fl 0) (bit fl 1) b
        (s.updateXoff port).updatePfc port

/-- The end of a pause of `q` quanta of 512 bit times at 800 Gb/s, 0.64 ns each. -/
def State.pauseEnd (s : State) (q : Nat) : Nat := s.time + (q * 64 + 99) / 100

/-- PFC_FRAME_RECEIVE: each priority it names pauses, or with quanta 0 is released. -/
def execPfcFrameReceive (port : Fin 16) (quanta : List (Fin 8 × BitVec 16)) (s : State) : Outcome :=
  onlyIf (s.portUp port && s.portEth port) s fun s =>
    let v := s.port port
    s.setPort port { v with pfcRx := quanta.foldl (fun t q =>
      if q.2.toNat = 0 then tblDel t q.1.val else tblPut t q.1.val (s.pauseEnd q.2.toNat)) v.pfcRx }

/-- The least value of a table. -/
def tblMin (t : Tbl Nat) : Option Nat := t.foldl (fun m x => match m with | none => some x.2 | some y => some (min x.2 y)) none

/-- PFC_PAUSE_EXPIRY: the quanta that run out first have run out. -/
def execPfcPauseExpiry (port : Fin 16) (s : State) : Outcome :=
  match tblMin (s.port port).pfcRx with
  | none => .next s
  | some t =>
    let s := s.elapseTo t
    let v := s.port port
    .next (s.setPort port { v with pfcRx := tblFilter v.pfcRx fun _ e => decide (s.time < e) })

/-- PFC_REFRESH: 20 µs after it was last sent, the frame of an off priority is sent again. -/
def execPfcRefresh (port : Fin 16) (s : State) : Outcome :=
  match tblMin (s.port port).pfcTx with
  | none => .next s
  | some t =>
    let s := s.elapseTo (t + us 20)
    let s := s.drainRx port
    let s := s.updatePfc port
    let due := (s.port port).pfcTx.filter fun x => decide (x.2 + us 20 ≤ s.time)
    .next (due.foldl (fun s x =>
      let v := s.port port
      (s.setPort port { v with pfcTx := tblPut v.pfcTx x.1 s.time }).emit (.frame port (s.pfcFrame port x.1 0xFFFF))) s)

/-! ### The LNK page (Tables 13.18–13.21) -/

/-- Code of a link state in LNK_STATUS. -/
def LinkState.code : LinkState → Nat
  | .disabled => 0 | .training => 1 | .init => 2 | .up => 3 | .down => 4

/-- A block-specific register of an LNK page as it reads, by offset. -/
def State.readLnk (s : State) (p off : Nat) : Word :=
  let v := s.port p
  let n : Nat :=
    if off = 0x800 then (s.reg (pageBase .lnk p + off)).toNat % 2
    else if off = 0x804 then
      b2n v.wait.isSome * 2 ^ 21 + b2n v.resend.isSome * 2 ^ 20 + v.xoffTx % 64 * 2 ^ 14 +
        maskOf 6 (fun c => s.vcOff p c) * 2 ^ 8 + v.laneLock % 16 * 2 ^ 4 + v.eth % 2 * 2 ^ 3 + v.st.code
    else if off = 0x808 then
      (match v.peer with | some (e, q, _) => 2 ^ 31 + q % 16 * 4096 + e % 4096 | none => 0)
    else if off = 0x80C then (match v.peer with | some (_, _, i) => i | none => 0)
    else if off = 0x810 then v.nextSeq * 65536 + v.replay.length % 1024
    else (s.reg (pageBase .lnk p + off)).toNat
  BitVec.ofNat 32 n

end Sys2Proof.Machine
end

