-- ==== Sys2Proof/Machine/Cmpl.lean ====
section
/-!
DEFINITION. Completions of the module's own requests as they arrive: the prefix checks of Table 18.6 that apply to them, the
match against outbound slots (R357) and the release of the slot.
-/

namespace Sys2Proof.Machine

/-- A final completion that matched an outbound slot: the slot, the request and what it was for, and what the completion
brings. -/
structure Answer where
  out : Nat
  req : Packet
  what : Purpose
  status : Nat
  data : List Byte
  poison : Bool
deriving DecidableEq, Repr

/-- The outbound slot whose index and reuse count a completion's tag names (R357). -/
def State.outMatch (s : State) (p : Packet) : Option (OutSlot × Packet × Purpose) :=
  let o := s.outSlot (p.tag % 16384)
  match o.req with
  | some (req, what) => if o.reuse = p.tag / 16384 then some (o, req, what) else none
  | none => none

/-- The shape of a completion (R352, R355). -/
def completionShape (p : Packet) : Bool :=
  p.length * 4 == p.wire && p.length ≤ 16448 && bits p.form 31 23 == 0 && p.qual == 0 &&
    (match p.sec with | some x => x.rsv == 0 && x.sender / 8192 == 0 | none => true)

/-- A completion with SEC = 0 is one of those R419 names: of a request without a prefix, or without data and a refusal of rows
1–3, a KEY_RETIRED of R411 and R415, or a synthetic LINK_DOWN. -/
def clearAnswerOk (o : OutSlot) (p : Packet) : Bool :=
  o.key == .clear || (p.body.isEmpty && (p.status == stKeyRetired || p.status == stMalformed || p.status == stUnsupported ||
    p.status == stBusy || (p.status == stLinkDown && bit p.form 21)))

/-- The key a completion's prefix names, for a completion of the request of an outbound slot: KEY_ID 0 is the manager key the
request was sent under (R419). -/
def State.answerKey (s : State) (o : OutSlot) (x : Prefix) : Option Nat :=
  if x.keyId = 0 then
    match o.key with
    | .manager ep k => if s.canSeal (.manager ep k) then some k else none
    | _ => (s.mgrKey x.ep).map (·.key)
  else (s.slotOfKeyId x.keyId).map fun n => (s.keySlot n).key

/-- The state of the slot a KEY_ID names is ARMED. -/
def State.keyArmed (s : State) (x : Prefix) : Bool :=
  x.keyId != 0 && (match s.slotOfKeyId x.keyId with | some n => (s.keySlot n).st == .armed | none => false)

/-- The state of the slot a KEY_ID names is RETIRING. -/
def State.keyRetiring (s : State) (x : Prefix) : Bool :=
  x.keyId != 0 && (match s.slotOfKeyId x.keyId with | some n => (s.keySlot n).st == .retiring | none => false)

/-- A completion that matches no held slot (R357); one for a request that has timed out gives its quota back (R363). -/
def State.lateCmpl (s : State) (p : Packet) : State :=
  let o := s.outSlot (p.tag % 16384)
  let s := if o.guard.isSome && o.reuse == p.tag / 16384 then s.quotaBack p.srcEp else s
  (s.bump 0x30820).raise .txn 0 1

/-- A completion's prefix checks, in the order of Table 18.6, then its match and its tag (R415, R416): the state with its counts,
and the answer when it is accepted. Its outbound slot is freed. -/
def State.takeCmpl (s : State) (port : Option Nat) (p : Packet) : State × Option Answer :=
  let accept (s : State) (req : Packet) (what : Purpose) : State × Option Answer :=
    let i := p.tag % 16384
    ((s.quotaBack req.dst).freeOutSlot i, some { out := i, req := req, what := what, status := p.status, data := p.body, poison := p.poison })
  if !completionShape p || !p.last then (s, none)
  else match p.sec with
    | none => (match s.outMatch p with
      | none => (s.lateCmpl p, none)
      | some (o, req, what) => if clearAnswerOk o p then accept s req what else (s, none))
    | some x =>
      match s.answerKey (s.outSlot (p.tag % 16384)) x with
      | none => (s.bump 0x4834, none)
      | some key =>
        if s.keyArmed x then (s, none)
        else if s.keyRetiring x && (s.outMatch p).isNone then (s.bump 0x4830, none)
        else if !x.dir then (s, none)
        else match s.outMatch p with
          | none => (s.lateCmpl p, none)
          | some (_, req, what) =>
            if p.gcm = p.tagUnder key then accept s req what
            else
              let s := (s.bump 0x4828).raise .sec 0 0
              (if s.tagEvents then s.postMgr (keyRecord 0x00A1 x port) else s, none)

/-- A completion arrives, from this module's own units or on a port that is UP; `act` is given the answer it makes. -/
def State.arriveCmpl (s : State) (port : Fin 16) (p : Packet) (act : State → Answer → State) : State :=
  let p := p.ofType tCmpl
  let take (s : State) (q : Option Nat) : State := match s.takeCmpl q p with
    | (s, some a) => act s a
    | (s, none) => s
  match s.takeLocal p with
  | some s => take s none
  | none =>
    if s.portUp port then
      let s := (s.received port p none).learn port p
      if p.dst ≠ s.ep then s.transit port p else take s (some port.val)
    else s

end Sys2Proof.Machine
end

