-- ==== Sys2Proof/Machine/Journal.lean ====
section
/-!
DEFINITION. What the manager firmware writes and sends: the journal and its mirror (R433), the changes it journals, critical
commands under issuer slot 1 (R434), EP_STATE and MGR_NOTICE (R430, R431), and a declaration from its first command to its last.
-/

namespace Sys2Proof.Machine

/-! ### The journal (Table 19.3, R433) -/

/-- Base PA of the local copy, when one exists inside an ACTIVE MGR_STATE extent, and the extent's end (Table 19.13). -/
def State.jrnl (s : State) : Option (Nat × Nat) :=
  let pa := s.regBits 0x5810 15 0 * 2 ^ 32 + s.regBits 0x580C 31 6 * 64
  if wbit (s.reg 0x580C) 0 then
    (match s.extentAt pa 64 with
    | some (_, e) => if e.st = .active ∧ e.kind = 2 then some (pa, e.base + e.bytes) else none
    | none => none)
  else none

/-- Bead 0 of the local copy; one that reads poisoned tells nothing. -/
def State.jrnlHead (s : State) : List Byte :=
  match s.jrnl with
  | some (pa, _) => if (s.beadNow pa).2 then zeroBytes 64 else (s.beadNow pa).1
  | none => zeroBytes 64

/-- COPY_STATE and VERSION of the local copy; COPY_STATE of no copy is 0. -/
def State.copyState (s : State) : Nat := field s.jrnlHead 6 1
def State.copyVersion (s : State) : Nat := field s.jrnlHead 4 2

/-- The standby of the domain. -/
def State.standby (s : State) : Nat := s.actBits .mgr 0 0x044 11 0

/-- A write to the standby's copy has failed (R433): MIRROR_OK is cleared and MIRROR_LOST posted. -/
def State.mirrorFail (s : State) (status : Nat) : State :=
  let s := { s with mgr := { s.mgr with mirrorOk := false, mirrorLost := true, copying := false } }
  (s.postMgr { typ := 0x00B3, cls := 1, source := 0x4000, status := status
               detail := detail [(0, leBytes 2 s.standby), (2, [byte status])] }).raise .mgr 0 2

/-- A WRITE of whole beads under context 0 and the manager key (R100, R419). -/
def writePacket (dst pa : Nat) (b : List Byte) : Packet := { typ := tWrite, qual := b.length / 64 - 1, dst := dst, form := pa, body := b }

/-- Beads written to the standby's copy: the outbound slot, or none when the write failed at once. -/
def State.mirror (s : State) (peer off : Nat) (b : List Byte) (what : Purpose) : State × Option Nat :=
  match s.issue (writePacket peer (s.mgr.mirrorPa + off) b) (s.mgrKeyRef peer) what (some 0) with
  | (s, .sent i) => (s, some i)
  | (s, .noSlot) => (s.mirrorFail stBusy, none)
  | (s, .noRoute) => (s.mirrorFail stLinkDown, none)
  | (s, .noKey) => (s.mirrorFail stKeyRetired, none)

/-- Records go to the standby's copy too: while it is current, and while it is being copied (R433, R439). -/
def State.mirrored (s : State) : Bool := s.mgr.mirrorOk || s.mgr.copying

/-- A record of one bead and the header's HEAD_SEQ written to both copies; its outbound slots, or none when a write to the standby
failed at once. The body is the manager firmware's own (assumption 41). -/
def State.journal (s : State) (kind : Nat) : State × Option (List Nat) :=
  match s.jrnl with
  | none => (s, some [])
  | some (pa, limit) =>
    let h := s.jrnlHead
    let seq := field h 0x10 8 + 1
    let off := (field h 0x28 8 + 64 * (seq % max 1 (field h 0x30 4))) / 64 * 64
    if off = 0 ∨ limit < pa + off + 64 then (s, some [])
    else
      let (r, s) := s.free
      let rec_ := leBytes 8 seq ++ leBytes 2 kind ++ leBytes 2 1 ++ zeroBytes 4 ++ leBytes 48 r
      let head := overlay h 0x10 (leBytes 8 seq)
      let s := (s.homeStore (pa + off) rec_ false).homeStore pa head false
      if !s.mirrored then (s, some [])
      else
        let peer := s.standby
        match s.mirror peer off rec_ (.manager 3 kind) with
        | (s, none) => (s, none)
        | (s, some a) => match s.mirror peer 0 head (.manager 3 kind) with
          | (s, none) => (s, none)
          | (s, some b) => (s, some [a, b])

/-! ### Changes (R433, R440) -/

/-- New changes are refused: a mirror write has failed, or a takeback is armed at the manager. -/
def State.changesRefused (s : State) : Bool := s.mgr.mirrorLost || (s.mgr.role == 2 && s.mgr.takeback.isSome)

/-- What may be said of a change just asked for. -/
inductive Started where
  | refused | waiting | go
deriving DecidableEq, Repr

/-- A change asked for: refused, waiting for its INTENT, or free to start. -/
def State.openChange (s : State) (c : Change) : State × Started :=
  if s.changesRefused then (s, .refused)
  else match s.journal 1 with
    | (s, none) => (s, .refused)
    | (s, some outs) =>
      let s := { s with mgr := { s.mgr with changes := s.mgr.changes + 1 } }
      if outs.isEmpty then (s, .go)
      else ({ s with mgr := { s.mgr with openings := s.mgr.openings ++ [{ what := c, outs := outs }] } }, .waiting)

/-- A change ends: DONE is written to both copies. -/
def State.closeChange (s : State) : State :=
  let s := { s with mgr := { s.mgr with changes := s.mgr.changes - 1 } }
  (s.journal 2).1

/-- A change that a command in a slot asks for: refused BUSY_RETRY, started by `act`, or left to wait. -/
def State.change (s : State) (key : Nat) (act : State → State) : State :=
  match s.openChange (.slot key) with
  | (s, .refused) => s.complete key stBusy
  | (s, .waiting) => s
  | (s, .go) => act s

/-- The command of a change completes, which ends the change. -/
def State.endChange (s : State) (key status : Nat) (data : List Byte := []) : State := (s.complete key status data).closeChange

/-- A write to the standby's copy has completed (R433). An INTENT whose writes all completed OK frees its change; the change of one
that failed is refused. What may start now is answered. -/
def State.mirrorAnswer (s : State) (out status : Nat) : State × List Change :=
  if status = stOk then
    let step (o : Opening) : Opening := { o with outs := o.outs.erase out }
    let l := s.mgr.openings.map step
    let ready := l.filter fun o => o.outs.isEmpty
    ({ s with mgr := { s.mgr with openings := l.filter fun o => !o.outs.isEmpty } }, ready.map (·.what))
  else
    let bad := s.mgr.openings.filter fun o => o.outs.contains out
    let good := s.mgr.openings.filter fun o => !o.outs.contains out
    let s := ({ s with mgr := { s.mgr with openings := good, changes := s.mgr.changes - bad.length } } : State).mirrorFail status
    (bad.foldl (fun s o => match o.what with | .slot key => s.complete key stBusy | .silent _ => s) s, [])

/-! ### Critical commands the manager sends (R428, R434) -/

/-- Key the manager holds for a module: its issuer slot 1's when VALID, else its slot 0's (R419). -/
def Module.key (m : Module) : Nat := Config.moduleKey m.serial (if m.slot1 = 1 then m.slot1Id else 0)

/-- A critical command to a module under issuer slot 1 (Table 4.12, R91), for action at `tick`: 0 for action on acceptance. -/
def State.critPacket (s : State) (m : Module) (ep op ctx counter : Nat) (body : List Byte) (tick : Nat := 0) : Packet :=
  let pay := [byte op, 1] ++ leBytes 2 body.length ++ zeroBytes 4 ++ leBytes 8 counter ++ leBytes 8 tick ++ leBytes 2 ep ++
    leBytes 2 ctx ++ zeroBytes 4 ++ body
  let tag := Config.kmac256 m.key (leBytes 8 m.serial ++ pay) 256 "FRENTO-CC-1" % 2 ^ 256
  { typ := tCmd, vc := 0, dst := ep, form := contextForm s.ep 0 0, body := pay ++ leBytes 32 tag }

/-- The next counter toward a module; a new block of 2²⁰ is reserved in the journal first (R434). -/
def State.nextCounter (s : State) (ep : Nat) : State × Nat :=
  let n := tblGet s.mgr.counters ep 0 + 1
  let s := if n % 2 ^ 20 = 1 then (s.journal 3).1 else s
  ({ s with mgr := { s.mgr with counters := tblPut s.mgr.counters ep n } }, n)

/-- Body of ROLE_CHANGE (Table 19.1). -/
def roleBody (role ep gen standby : Nat) : List Byte :=
  [byte role, 0] ++ leBytes 2 ep ++ leBytes 4 gen ++ leBytes 2 standby ++ zeroBytes 6

/-! ### Notices and declarations (R430, R431) -/

/-- MGR_NOTICE to every non-module endpoint of the journal's list (R431). -/
def State.notify (s : State) (kind ep tick version : Nat) : State :=
  let b := [byte kind, 0] ++ leBytes 2 ep ++ leBytes 4 s.mgr.gen ++ leBytes 8 tick ++ [byte version] ++ zeroBytes 7
  s.mgr.others.foldl (fun s t => (s.issue (s.cmdPacket 0xC2 t 0 b) .clear (.manager 2 t) none).1) s

/-- An accepted EP_STATE acts on this module (R161, R383, R384). -/
def State.applyEpState (s : State) (ep : Nat) (dead : Bool) : State := if dead then (s.protDead ep).dirDead ep else s.dirAlive ep

/-- EP_STATE sent to one module. -/
def State.sendEpState (s : State) (ep : Nat) (dead : Bool) (peer : Nat) : State :=
  (s.issue (s.cmdPacket 0xC1 peer 0 (leBytes 2 ep ++ [byte (b2n dead)] ++ zeroBytes 5)) (s.mgrKeyRef peer) (.manager 1 ep) none).1

/-- A module of the roster that a declaration must reach. -/
def State.declareTo (s : State) (ep : Nat) : List Nat :=
  ((s.mgr.roster.filter fun m => m.1 != s.ep && m.1 != ep && !m.2.dead)).map (·.1)

/-- A declaration with nothing left to wait for is complete: the control host's command completes and the change ends. -/
def State.settleDeclarations (s : State) : State :=
  let done := s.mgr.declaring.filter fun d => d.awaiting.isEmpty
  let s := { s with mgr := { s.mgr with declaring := s.mgr.declaring.filter fun d => !d.awaiting.isEmpty } }
  done.foldl (fun s d => match d.slot with | some key => s.endChange key stOk | none => s.closeChange) s

/-- What a declaration still waits for, without an endpoint declared dead. -/
def Declaration.without (d : Declaration) (ep : Nat) : Declaration := { d with awaiting := d.awaiting.filter (· != ep) }

/-- The roster, the resends and the declarations under way with an endpoint marked dead or alive. -/
def Mgr.mark (m : Mgr) (ep : Nat) (dead : Bool) : Mgr :=
  let setDead (e : Nat) (x : Module) : Module := if e = ep then { x with dead := dead } else x
  let m := { m with roster := tblMap m.roster setDead }
  if dead then { m with roleSent := tblDel m.roleSent ep, declaring := m.declaring.map fun d => d.without ep } else m

/-- The manager declares an endpoint dead or alive (R430): EP_STATE to every module, its own effect, and the notices. -/
def State.declare (s : State) (ep : Nat) (dead : Bool) (slot : Option Nat) : State :=
  let s := ({ s with mgr := s.mgr.mark ep dead } : State).applyEpState ep dead
  let peers := s.declareTo ep
  let s := peers.foldl (fun (s : State) t => s.sendEpState ep dead t) s
  let s := s.notify (if dead then 3 else 4) ep 0 0
  State.settleDeclarations { s with mgr := { s.mgr with
    declaring := s.mgr.declaring ++ [{ ep := ep, dead := dead, awaiting := peers, slot := slot }] } }

/-- A module has completed the manager's EP_STATE; one that completes other than OK is sent it again. -/
def State.epStateAnswer (s : State) (ep src status : Nat) : State :=
  if status = stOk then
    let took (d : Declaration) : Declaration := if d.ep = ep then d.without src else d
    State.settleDeclarations { s with mgr := { s.mgr with declaring := s.mgr.declaring.map took } }
  else match s.mgr.declaring.find? fun d => d.ep == ep && d.awaiting.contains src with
    | some d => s.sendEpState ep d.dead src
    | none => s

end Sys2Proof.Machine
end

