-- ==== Sys2Proof/Machine/Placing.lean ====
section
/-!
DEFINITION. The loader's checks of a manifest (Table 10.7, 0x01–0x05) and its placement of a job on its own module (R243,
R236, R348; checks 0x06–0x0E).
-/

namespace Sys2Proof.Machine

/-! ### Checks 0x01 to 0x05 -/

/-- Check 0x01 on the header (Table 10.1). -/
def headerOk (m : List Byte) : Bool :=
  field m 0 4 == 0xF51210B0 && field m 4 2 == 1 && 1 ≤ mStages m && mStages m ≤ 64 && 1 ≤ mFuncs m && mFuncs m ≤ 16 &&
    1 ≤ mSections m && mSections m ≤ 64 && zeros m 0x11 3 && mDescs m ≤ 65536 && mPosrec m % 8192 == 0 &&
    m.length == mLength m && (mKeys m).all fun k => k == 0xFFFF || k < 1024

/-- Check 0x01 on a stage, stream, function and section entry (Tables 10.2–10.5). -/
def stageOk (e : List Byte) : Bool :=
  1 ≤ stgRods e && stgRods e ≤ 16 && stgPlace e < 16 && stgMovers e ≤ 2 && stgCode e % 64 == 0 && 1 ≤ stgLive e &&
    stgLive e ≤ 128 && 1 ≤ stgTriggers e && stgTriggers e ≤ 16 && zeros e 0x0E 2 && zeros e 0x18 8
def streamOk (m e : List Byte) : Bool :=
  let fnEnd := strProd e == 0xFE || strCons e == 0xFE
  strProdSid e < 32 && strConsSid e < 32 && (strProd e < 0xFD || strProdSid e == 0) && (strCons e < 0xFD || strConsSid e == 0) &&
    (if fnEnd then strFn e < mFuncs m else strFn e == 0) && zeros e 0x07 1 && zeros e 0x0C 4 &&
    strDepth e % 1024 == 0 && 1024 ≤ strDepth e && strDepth e ≤ 0x400000
def fnOk (m e : List Byte) : Bool :=
  let size (n : Nat) : Bool := n % 128 == 0 && 128 ≤ n && n ≤ 4096
  fnEntry e < mStreams m && fnReply e < mStreams m && 1 ≤ fnDepth e && zeros e 0x08 8 && field e 0x03 1 < 2 &&
    size (fnArgBytes e) && size (fnReplyBytes e)
def sectionOk (m e : List Byte) : Bool :=
  secVa e % 64 == 0 && secLen e % 64 == 0 && secKind e ≤ 2 && (if secKind e = 0 then secStage e < mStages m else secStage e == 0) &&
    zeros e 0x0E 2 && zeros e 0x14 12 && (secKind e != 1 || secLen e == 128 * mDescs m)

/-- Check 0x01. -/
def manifestOk (m : List Byte) : Bool :=
  headerOk m && ((List.range (mStages m)).all fun i => stageOk (mStage m i)) &&
    ((List.range (mStreams m)).all fun i => streamOk m (mStream m i)) &&
    ((List.range (mFuncs m)).all fun i => fnOk m (mFunc m i)) &&
    ((List.range (mSections m)).all fun i => sectionOk m (mSection m i)) &&
    ((idxs (mSections m) fun i => secKind (mSection m i) == 1).length ≤ 1)

/-- The rod ends of a stream: stage, rod and local stream ID. -/
def rodEnds (e : List Byte) : List (Nat × Nat × Nat) :=
  (if strProd e < 0xFD then [(strProd e, strProdRod e, strProdSid e)] else []) ++
    if strCons e < 0xFD then [(strCons e, strConsRod e, strConsSid e)] else []

/-- A stream of check 0x04: its ends exist, one of them is a rod, and a mover end has a mover of its frame that the stage at the
other end triggers. -/
def streamGraphOk (m e : List Byte) : Bool :=
  let endOk (st rod other : Nat) : Bool :=
    if st < 0xFD then st < mStages m && rod < stgRods (mStage m st)
    else if st = 0xFD then other < 0xFD && rod < 2 && 0 < stgMovers (mStage m other) else st == 0xFE
  endOk (strProd e) (strProdRod e) (strCons e) && endOk (strCons e) (strConsRod e) (strProd e) && !(rodEnds e).isEmpty

/-- The first stream or function that fails check 0x04. -/
def graphFault (m : List Byte) : Option Nat :=
  let es := (List.range (mStreams m)).map (mStream m)
  let ends := es.flatMap rodEnds
  let twice (e : List Byte) : Bool := (rodEnds e).any fun x => 1 < (ends.filter (· == x)).length
  let entry (f : Nat) : List Nat := idxs es.length fun i => let e := es.getD i []; strProd e == 0xFE && strFn e == f
  let reply (f : Nat) : List Nat := idxs es.length fun i => let e := es.getD i []; strCons e == 0xFE && strFn e == f
  match (List.range es.length).find? fun i => !streamGraphOk m (es.getD i []) || twice (es.getD i []) with
  | some i => some i
  | none => (List.range (mFuncs m)).find? fun f => entry f != [fnEntry (mFunc m f)] || reply f != [fnReply (mFunc m f)]

/-- The first stage or section that fails check 0x05. -/
def scratchFault (m : List Byte) : Option Nat :=
  match (List.range (mStages m)).find? fun i => let e := mStage m i; decide (stgLive e * 4096 < stgCode e) with
  | some i => some i
  | none =>
    let kind0 := idxs (mSections m) fun i => secKind (mSection m i) == 0
    kind0.find? fun i =>
      let e := mSection m i
      let st := mStage m (secStage e)
      stgLive st * 4096 < secOffset e + secLen e || kind0.any fun j =>
        let d := mSection m j
        j != i && secStage d == secStage e &&
          decide (max (secOffset d) (secOffset e) < min (min (secOffset d + secLen d) (secOffset e + secLen e)) (stgCode st))

/-- Checks 0x01 to 0x05 against a target whose CHIP_IDREV has the REV given: the reason and index of the first that fails. -/
def manifestFault (m : List Byte) (rev : Nat) : Option (Nat × Nat) :=
  if !manifestOk m then some (1, 0xFF)
  else if field m 6 2 ≠ 0x5120 ∨ field m 8 1 ≠ rev then some (2, 0xFF)
  else if field m 9 1 ≠ 16 ∨ field m 10 2 ≠ 640 ∨ field m 12 1 ≠ 16 then some (3, 0xFF)
  else match graphFault m with
    | some i => some (4, i)
    | none => (scratchFault m).map fun i => (5, i)

/-! ### What the loader holds as free on its own module -/

/-- Rings of a job in a frame: base and size. -/
def Job.ringsIn (j : Job) (f : Nat) : List (Nat × Nat) :=
  (idxs j.rings.length fun i => j.ringFrame i == f).map fun i => (j.rings.getD i 0, strDepth (mStream j.manifest i))

/-- Frame-buffer bytes of a list of stages beside their rings. -/
def fbBytes (m : List Byte) (stages : List Nat) : Nat := (stages.map fun i => stgFb (mStage m i) * 0x10000).sum

/-- Trigger entries a list of stages reserves on mover `k` (0 or 1) of their frame. -/
def triggersOf (m : List Byte) (stages : List Nat) (k : Nat) : Nat :=
  (stages.map fun i => if k < stgMovers (mStage m i) then stgTriggers (mStage m i) else 0).sum

/-- Logical rods of a frame that a context's jobs hold. -/
def State.rodsHeld (s : State) (ctx f : Nat) : List Nat :=
  s.heldJobs.flatMap fun j => if j.2.ctx = ctx then (j.2.stagesIn f).flatMap fun i => (j.2.places.getD i (0, [])).2 else []

/-- Rings and other frame-buffer bytes of a context's jobs in a frame. -/
def State.ringsHeld (s : State) (ctx f : Nat) : List (Nat × Nat) :=
  s.heldJobs.flatMap fun j => if j.2.ctx = ctx then j.2.ringsIn f else []
def State.fbHeld (s : State) (ctx f : Nat) : Nat :=
  (s.heldJobs.map fun j => if j.2.ctx = ctx then fbBytes j.2.manifest (j.2.stagesIn f) else 0).sum

/-- Trigger entries reserved on a mover of a frame. -/
def State.triggersHeld (s : State) (f k : Nat) : Nat := (s.heldJobs.map fun j => triggersOf j.2.manifest (j.2.stagesIn f) k).sum

/-- A logical rod of a frame can run: its physical rod is not quarantined. -/
def State.rodUsable (s : State) (f k : Nat) : Bool := (s.rod (s.physRod f k)).st != .quarantined

/-- Free logical rods of a frame for a context, rising. -/
def State.rodsFree (s : State) (ctx f : Nat) : List Nat :=
  let held := s.rodsHeld ctx f
  idxs 16 fun k => s.rodUsable f k && !held.contains k

/-! ### Schedules (R243, rules 3 and 4) -/

/-- The free schedule entry of a frame with the lowest number: not VALID in either set. -/
def State.freeEntry (s : State) (f : Nat) : Option Nat :=
  (List.range 8).find? fun n => !wbit (s.entCtxWord f n) 31 && !wbit (cfgGet s.shadow (pageBase .frm f + 0x060 + 16 * n)) 31

/-- A context's schedule entry in a frame, or the free one the loader would fill. -/
def State.entryFor (s : State) (f ctx : Nat) : Option Nat :=
  match s.entryOf f ctx with
  | some n => some n
  | none => s.freeEntry f

/-- The slice word of a context: that of a frame whose schedule holds it, else a new one. -/
def State.sliceWord (s : State) (ctx new : Nat) : Nat :=
  match (List.range 32).filterMap fun f => (s.entryOf f ctx).map fun n => (s.entCtxWord f n).toNat with
  | w :: _ => w
  | [] => 2 ^ 31 + ctx * 65536 + max 1 (new % 65536)

/-- A frame's schedule and anchor once the context has its entry. -/
def State.scheduleWith (s : State) (f ctx word : Nat) : List Nat :=
  let n := s.entryFor f ctx
  s.anchor f :: (List.range 8).map fun i =>
    let w := (s.entCtxWord f i).toNat
    if n = some i then word else if bit w 31 then w else 0

/-- Live scratch an existing entry gives is enough for a list of stages; a new one is made large enough. -/
def State.liveOk (s : State) (f ctx : Nat) (m : List Byte) (stages : List Nat) : Bool :=
  match s.entryOf f ctx with
  | some n => stages.all fun i => stgLive (mStage m i) * 4096 ≤ s.entLive f n
  | none => true

/-- Frame `f` passes check 0x06 for a stage: its longest tile at the slowest issue fits three quarters of the grace. -/
def State.graceOk (s : State) (f : Nat) (e : List Byte) : Bool := 4 * stgTile e * 4 ≤ 3 * us (s.actBits .frm f 0x040 31 16)

/-! ### Placement (R243) -/

/-- Stages that go to one frame together: those with an equal FRAME_GROUP, and each stage with none by itself. -/
def groupsOf (m : List Byte) : List (List Nat) :=
  let g (i : Nat) : Nat := stgGroup (mStage m i)
  (List.range (mStages m)).filterMap fun i =>
    if g i = 0xFF then some [i]
    else if (List.range i).any fun k => g k == g i then none
    else some (idxs (mStages m) fun k => g k == g i)

/-- A frame may take a stage under rule 2 of R243, and is of the quadrant the stage prefers. -/
def strictOk (e : List Byte) (f : Nat) : Bool := bit (stgPlace e) 3 || !bit (stgPlace e) 2 || f / 8 == stgPlace e % 4
def preferred (e : List Byte) (f : Nat) : Bool := bit (stgPlace e) 3 || f / 8 == stgPlace e % 4

/-- Frames in the order in which they are tried for a group: those of the preferred quadrant first. -/
def framesFor (m : List Byte) (order g : List Nat) : List Nat :=
  let ok := order.filter fun f => g.all fun i => strictOk (mStage m i) f
  let first := ok.filter fun f => g.all fun i => preferred (mStage m i) f
  first ++ ok.filter fun f => !first.contains f

/-- The lowest free rods of a frame given to the stages of a group in order; none if they do not suffice. -/
def giveRods (m : List Byte) (f : Nat) : (stages free : List Nat) → Option (List (Nat × Nat × List Nat))
  | [], _ => some []
  | i :: t, free =>
    let n := stgRods (mStage m i)
    if free.length < n then none else (giveRods m f t (free.drop n)).map fun l => (i, f, free.take n) :: l

/-- A placement by stage number. -/
def placesOf (n : Nat) (l : List (Nat × Nat × List Nat)) : List (Nat × List Nat) :=
  (List.range n).map fun i => ((l.find? fun p => p.1 == i).map (·.2)).getD (0, [])

/-- The frames of a placement. -/
def framesOf (places : List (Nat × List Nat)) : List Nat := idxs 32 fun f => places.any fun p => p.1 == f

/-- Searches frames for every group, in order; `good` judges a full placement. -/
def State.search (s : State) (ctx : Nat) (m : List Byte) (order : List Nat) (frameOk : Nat → List Nat → Bool)
    (good : List (Nat × List Nat) → Bool) : (groups : List (List Nat)) → (acc : List (Nat × Nat × List Nat)) →
    Option (List (Nat × List Nat))
  | [], acc => let p := placesOf (mStages m) acc; if good p then some p else none
  | g :: t, acc =>
    (framesFor m order g).findSome? fun f =>
      if !frameOk f g then none
      else
        let taken := (acc.filter fun p => p.2.1 == f).flatMap fun p => p.2.2
        match giveRods m f g ((s.rodsFree ctx f).filter fun k => !taken.contains k) with
        | none => none
        | some l => s.search ctx m order frameOk good t (acc ++ l)

/-- The streams whose ring lies in a frame under a placement. -/
def ringsOfFrame (j : Job) (f : Nat) : List Nat := idxs (mStreams j.manifest) fun i => j.ringFrame i == f

/-- Bytes of a frame's partition a placed job needs. -/
def Job.fbNeed (j : Job) (f : Nat) : Nat :=
  ((ringsOfFrame j f).map fun i => strDepth (mStream j.manifest i)).sum + fbBytes j.manifest (j.stagesIn f)

/-- Bytes of the context's partition in a frame; for an entry still to be filled, the most that lies free between the partitions
of the others. -/
def State.partitionRoom (s : State) (f ctx : Nat) : Nat :=
  match s.partition f ctx with
  | some (_, l) => l
  | none =>
    let owned (u : Nat) : Bool := !(s.unitOwners f u).isEmpty
    let runs := (List.range 129).foldl (fun a u => if u < 128 ∧ owned u = false then (a.1 + 1, max a.2 (a.1 + 1)) else (0, a.2)) (0, 0)
    runs.2 * 0x10000

/-- The lowest base, in units, of a free run of `n` units of a frame buffer. -/
def State.partitionBase (s : State) (f n : Nat) : Nat :=
  ((List.range (129 - n)).find? fun b => (List.range n).all fun i => (s.unitOwners f (b + i)).isEmpty).getD 0

/-- A ring of `size` bytes placed as high as it fits beside others in a partition of `len` bytes. -/
def ringFit (len size : Nat) (others : List (Nat × Nat)) : Option Nat :=
  let cands := (len :: others.map (·.1)).filterMap fun e => if size ≤ e then some (e - size) else none
  let ok := cands.filter fun b => others.all fun o => decide (b + size ≤ o.1 ∨ o.1 + o.2 ≤ b)
  match ok with
  | [] => none
  | b :: t => some (t.foldl max b)

/-- Ring bases of a job's streams in stream order (R236). -/
def State.ringBases (s : State) (j : Job) (len : Nat → Nat) : (streams : List Nat) → (done : List (Nat × Nat × Nat)) →
    Option (List Nat)
  | [], _ => some []
  | i :: t, done =>
    let f := j.ringFrame i
    let size := strDepth (mStream j.manifest i)
    let others := s.ringsHeld j.ctx f ++ (done.filter fun d => d.1 == f).map (·.2)
    match ringFit (len f) size others with
    | none => none
    | some b => (s.ringBases j len t (done ++ [(f, b, size)])).map (b :: ·)

/-- Bytes of the partition a placed job will have in a frame: what it is, or what the new entry is made with. -/
def State.partitionLen (s : State) (j : Job) (f : Nat) : Nat :=
  match s.partition f j.ctx with | some (_, l) => l | none => (j.fbNeed f + 0xFFFF) / 0x10000 * 0x10000

/-- A placed job fits its partitions (check 0x0A): its ring bases. -/
def State.fbFit (s : State) (j : Job) : Option (List Nat) :=
  if (framesOf j.places).all fun f => s.fbHeld j.ctx f + ((s.ringsHeld j.ctx f).map (·.2)).sum + j.fbNeed f ≤ s.partitionRoom f j.ctx then
    s.ringBases j (fun f => s.partitionLen j f) (List.range (mStreams j.manifest)) []
  else none

/-- A placed job's trigger entries fit its frames' movers (check 0x0B). -/
def State.triggersFit (s : State) (j : Job) : Bool :=
  (framesOf j.places).all fun f => [0, 1].all fun k => s.triggersHeld f k + triggersOf j.manifest (j.stagesIn f) k ≤ 64

/-! ### Counting-board windows (R348) -/

/-- The windows of the active bank, as (start, length), with those a load adds, that a candidate must not overlap. -/
def State.windowFree (s : State) (p start len : Nat) (added : List (Nat × Nat)) : Bool :=
  ((s.boardWins p s.rtr.boardActive).all fun w => decide (w.start + w.len ≤ start ∨ start + len ≤ w.start)) &&
    added.all fun a => a.1 != p || decide (a.2 + len ≤ start ∨ start + len ≤ a.2)

/-- Candidate slots on the route to an endpoint, lowest first: those of the first hop, and of them those that later hops let
through, which are free values. -/
def State.slotCandidates (s : State) (p : Nat) (direct : Bool) (added : List (Nat × Nat)) : State × List Nat :=
  let period := s.boardPeriod s.rtr.boardActive
  let len := max 1 (s.regBits 0x20830 15 0)
  let first := ((List.range (period / len)).map fun i => i * len).filter fun b => s.windowFree p b len added
  if direct then (s, first)
  else
    let (r, s) := s.free
    (s, first.filter fun b => bit r (b / len))

/-- The egress port toward an endpoint, and whether the endpoint is at its other end. -/
def State.firstHop (s : State) (ep : Nat) : Option (Nat × Bool) :=
  (s.route ep s.ep s.rtr.inject).map fun x => (x.1, ((s.port x.1).peer.map (·.1)) == some ep)

/-- Windows for every entry of a manifest, as (port, start); or the windows short. -/
def State.chooseWindows (s : State) (hop : Nat → Option (Nat × Bool)) :
    (wins : List Nat) → (added : List (Nat × Nat)) → State × (List (Nat × Nat) ⊕ Nat)
  | [], added => (s, .inl added)
  | w :: t, added =>
    let ep := w % 4096
    let n := w / 4096
    if n = 0 ∨ ep = s.ep then s.chooseWindows hop t added
    else match hop ep with
      | none => (s, .inr n)
      | some (p, direct) =>
        let (s, c) := s.slotCandidates p direct added
        if c.length < n then (s, .inr (n - c.length)) else s.chooseWindows hop t (added ++ (c.take n).map fun b => (p, b))

/-- One window added to the inactive bank at its lowest unused index. -/
def State.addWindow (s : State) (p start ctx ep : Nat) : State :=
  let base := boardBase p (1 - s.rtr.boardActive)
  match (List.range 1024).find? fun i => !wbit (s.boardWord (base + 16 * i)) 31 with
  | none => s
  | some i =>
    let mask := wbits (s.act .rtr 0 0x044) 5 0 &&& 0x32
    let put (m : RegMap) (k v : Nat) : RegMap := wordPut m (base + 16 * i + k) (BitVec.ofNat 32 v)
    { s with rtr := { s.rtr with
        board := put (put (put (put s.rtr.board 0 (2 ^ 31 + mask * 65536 + ctx)) 4 ep) 8 start) 12 (max 1 (s.regBits 0x20830 15 0)) } }

/-! ### What the loader holds of another module (R242) -/

/-- Item `n` of kind `k` in the loader's reading `d` of another module. -/
def known (d k n : Nat) : Nat := Config.known d (n * 16 + k)

/-- Shadow registers of a frame that a placement depends on: GRACE_US, the anchor, and the schedule. -/
def frameOffs : List Nat := [0x040, 0x044, 0x048] ++ (List.range 32).map fun i => 0x060 + 4 * i

/-- The configuration of another module that the loader read. -/
def knownRegs (d : Nat) : RegMap :=
  let put (m : RegMap) (a : Nat) : RegMap := cfgPut m a (BitVec.ofNat 32 (known d 0 a))
  put ((List.range 32).foldl (fun m f => frameOffs.foldl (fun m o => put m (pageBase .frm f + o)) m) []) 0x20044

/-- The counting-board words of another module that the loader read. -/
def knownBoard (d : Nat) : RegMap :=
  (List.range 16).foldl (fun m p => (List.range (known d 1 p % 1025)).foldl (fun m i =>
    let a := boardBase p (known d 1 16 % 2) + 16 * i
    [0, 4, 8, 12].foldl (fun m o => wordPut m (a + o) (BitVec.ofNat 32 (known d 0 (a + o)))) m) m) []

/-- The context that a command to the loader names, as the loader holds it: its state and its membership list. -/
def knownCtx (d c : Nat) : Context :=
  { st := if known d 2 c % 2 = 1 then .active else if known d 2 c % 4 = 2 then .quiescing else .free
    members := (List.range (known d 3 c % 65)).map fun i => known d 4 (c * 64 + i) % 4096 }

/-- A key slot as the loader holds it. -/
def knownKey (d k : Nat) : KeySlot :=
  { st := if known d 5 k % 2 = 1 then .active else .empty, owner := known d 6 k % 1024 }

/-- Another module as the loader sees it for a load: what reading `d` gives of its registers, rods, the context and the keys
concerned, and the jobs that the loader itself holds there. -/
def State.asSeen (s : State) (target d ctx : Nat) (keys : List Nat) : State :=
  let board := knownBoard d
  let s' : State :=
    { s with
      pwr := { s.pwr with sampled := some { x := target % 16, y := target / 16 % 16, z := target / 256 } }
      boot := { s.boot with frameOk := known d 7 0 % 2 ^ 32 }
      active := knownRegs d, shadow := knownRegs d
      rods := ((List.range 544).filter fun i => known d 8 i % 2 == 1).map fun i => (i, { st := .quarantined })
      frames := [], ports := []
      ten := { s.ten with ctxs := [(ctx, knownCtx d ctx)], keys := (keys.filter (· < 1024)).foldl (fun m k => tblPut m k (knownKey d k)) [] }
      rtr := { board := board, boardActive := known d 1 16 % 2 }
      jobs := ((s.loads.filter fun l => l.target == target).map fun l => (l.job, if l.phase = .clearing then { ctx := l.ctx, manifest := [] } else l.asJob)).foldl
        (fun m j => tblPut m j.1 j.2) []
      loads := [] }
  [0x20818, 0x2081C, 0x20820, 0x20824, 0x20828, 0x2082C, 0x20830].foldl
    (fun s a => s.setReg a (BitVec.ofNat 32 (if a = 0x20830 then max 1 (known d 9 a % 0x10000) else known d 9 a))) s'

/-- The egress port of another module toward an endpoint. -/
def seenHop (d ep : Nat) : Option (Nat × Bool) :=
  if known d 10 ep % 17 = 16 then none else some (known d 10 ep % 17, known d 11 ep % 2 == 1)

/-- Register writes by which another module gets the schedule entries of a load and its windows, from the module as seen before and
with them (R243, R348): each word of the entries, and each word of the inactive bank with its PERIOD and ANCHOR. -/
def loadWrites (entries : List (Nat × Nat)) (windows : Bool) (after : State) : List LoadStep :=
  let bank := 1 - after.rtr.boardActive
  let reg (a : Nat) (w : Word) : LoadStep := .write a w.toNat
  (if entries.isEmpty then [] else .sync :: entries.flatMap fun e => [0x060, 0x064, 0x068, 0x06C].map fun o =>
      let a := pageBase .frm e.1 + o + 16 * e.2
      reg a (cfgGet after.shadow a)) ++
    (if windows then (after.rtr.board.filter fun w => w.1 % 0x8000 / 0x4000 == bank).map (fun w => reg w.1 w.2) ++
        [0, 4, 8].map fun o => reg (0x20818 + 0xC * bank + o) (after.reg (0x20818 + 0xC * bank + o))
      else [])

/-- Requests that arm a bank switch at a tick: SW_TICK, then ARM (R347). -/
def armSteps (tick : Nat) : List LoadStep := [.write 0x20834 (tick % 2 ^ 32), .write 0x20838 (tick / 2 ^ 32), .write 0x2083C 1]

end Sys2Proof.Machine
end

