-- ==== Sys2Proof/Machine/Loader.lean ====
section
/-!
DEFINITION. The loader of the active manager (R240–R243, R250, R348): JOB_LOAD, the result of its JOB_PLACE, and JOB_UNLOAD.
Its choices that no rule fixes are free values (assumption 39).
-/

namespace Sys2Proof.Machine

/-! ### Reservations -/

/-- What a load reserves, or the reason, index and detail of Table 10.7 that refuses it. -/
abbrev Verdict := Load ⊕ (Nat × Nat × Nat)

/-- Checks 0x06 to 0x0B: a placement that passes them all, or the first that no placement passes (R242, R243). Among the equal
schedules in which the job fits, one with the fewest stages outside their quadrant is taken. -/
def State.placement (s : State) (ctx : Nat) (m : List Byte) (order : List Nat) (word : Nat) :
    List (Nat × List Nat) ⊕ (Nat × Nat × Nat) :=
  let groups := groupsOf m
  let grace (f : Nat) (g : List Nat) : Bool := g.all fun i => s.graceOk f (mStage m i)
  let slot (f : Nat) (g : List Nat) : Bool := grace f g && (s.entryFor f ctx).isSome && s.liveOk f ctx m g
  let classes := (order.map fun f => s.scheduleWith f ctx word).eraseDups
  let inClass (c : List Nat) (f : Nat) (g : List Nat) : Bool := slot f g && s.scheduleWith f ctx word == c
  let jobOf (p : List (Nat × List Nat)) : Job := { ctx := ctx, manifest := m, places := p }
  let away (p : List (Nat × List Nat)) : Nat := (idxs p.length fun i => !preferred (mStage m i) (p.getD i (0, [])).1).length
  let best (good : List (Nat × List Nat) → Bool) :=
    (classes.filterMap fun c => s.search ctx m order (inClass c) good groups []).foldl (fun b p => match b with
      | none => some p
      | some q => some (if away p < away q then p else q)) none
  let fits (p : List (Nat × List Nat)) : Bool := (s.fbFit (jobOf p)).isSome
  match (List.range groups.length).find? fun k => !(framesFor m order (groups.getD k [])).any fun f => grace f (groups.getD k []) with
  | some k =>
    let g := groups.getD k []
    .inr (6, g.headD 0xFF, (order.filter fun f => !grace f g).length)
  | none =>
    if ctx = 0 ∨ (s.ctx ctx).st ≠ .active then .inr (7, 0xFF, 0)
    else if !classes.any fun c => groups.all fun g => (framesFor m order g).any fun f => inClass c f g then
      .inr (8, 0xFF, (order.filter fun f => !groups.all fun g => slot f g).length)
    else match best fun _ => true with
      | none =>
        let need := ((List.range (mStages m)).map fun i => stgRods (mStage m i)).sum
        .inr (9, 0xFF, max 1 (need - (order.map fun f => (s.rodsFree ctx f).length).sum))
      | some p => match best fits with
        | none =>
          let j := jobOf p
          .inr (0x0A, 0xFF, ((framesOf p).map fun f =>
            let used := s.fbHeld ctx f + ((s.ringsHeld ctx f).map (·.2)).sum + j.fbNeed f
            (used - s.partitionRoom f ctx + 0xFFFF) / 0x10000).sum)
        | some p => match best fun p => fits p && s.triggersFit (jobOf p) with
          | none => .inr (0x0B, 0xFF, ((framesOf p).map fun f => ([0, 1].map fun k =>
              s.triggersHeld f k + triggersOf m ((jobOf p).stagesIn f) k - 64).sum).sum)
          | some p => .inl p

/-- The frames in service, in an order that no rule fixes. -/
def State.frameOrder (s : State) : State × List Nat :=
  let (r, s) := s.free
  let l := idxs 32 fun f => bit s.boot.frameOk f
  let k := r % max 1 l.length
  (s, l.drop k ++ l.take k)

/-- A launch tick for a load (R242): the manifest's, or one at least 2 × TICK_LEAD_US × 1,000 ticks ahead. -/
def State.launchTick (s : State) (m : List Byte) : State × Nat :=
  if mLaunch m ≠ 0 then (s, mLaunch m)
  else
    let (r, s) := s.free
    (s, s.tick.count + 2 * (s.actBits .clk 0 0x040 15 0 * 1000) + r)

/-- Function IDs not in use or reserved, rising; and how many functions a context has. -/
def State.fnsFree (s : State) : List Nat := idxs 1024 fun n => !s.heldJobs.any fun j => j.2.fns.contains n
def State.fnsOf (s : State) (ctx : Nat) : Nat := (s.heldJobs.map fun j => if j.2.ctx = ctx then j.2.fns.length else 0).sum

/-- Checks 0x06 to 0x0E on the state of the target (R242), and what passes them reserves. `hop` gives the egress port toward an
endpoint. -/
def State.loadAt (s : State) (hop : Nat → Option (Nat × Bool)) (key ctx : Nat) (m : List Byte) : State × Verdict :=
  let (s, order) := s.frameOrder
  let (w, s) := s.free
  match s.placement ctx m order (s.sliceWord ctx w) with
  | .inr x => (s, .inr x)
  | .inl places =>
    let j : Job := { ctx := ctx, manifest := m, places := places }
    if (mKeys m).any (fun k => k != 0xFFFF && ((s.keySlot k).st != .active || (s.keySlot k).owner != ctx)) then (s, .inr (0x0C, 0xFF, 0))
    else match s.chooseWindows hop (mWindows m) [] with
      | (s, .inr n) => (s, .inr (0x0D, 0xFF, n))
      | (s, .inl windows) =>
        if s.fnsFree.length < mFuncs m ∨ 64 < s.fnsOf ctx + mFuncs m then (s, .inr (0x0E, 0xFF, 0))
        else
          let (s, launch) := s.launchTick m
          (s, .inl { slot := key, target := s.ep, job := tblFree s.heldJobs 1024 0, ctx := ctx, launch := launch, manifest := m
                     places := places, rings := (s.fbFit j).getD [], fns := s.fnsFree.take (mFuncs m), windows := windows })

/-! ### Schedule changes (R243, R88) -/

/-- The free entry of a frame filled for a job in the shadow set; its save area is a free value. -/
def State.fillEntry (s : State) (l : Load) (word f n : Nat) : State :=
  let j := l.asJob
  let units := (j.fbNeed f + 0xFFFF) / 0x10000
  let live := ((j.stagesIn f).map fun i => stgLive (mStage l.manifest i)).foldl max 0
  let (lo, s) := s.free
  let (hi, s) := s.free
  let s := (s.putShadow f (0x060 + 16 * n) word).putShadow f (0x064 + 16 * n) (s.partitionBase f units + units * 256 + live * 2 ^ 24)
  (s.putShadow f (0x068 + 16 * n) (lo % 2 ^ 19 * 2 ^ 13)).putShadow f (0x06C + 16 * n) (hi % 2 ^ 25)

/-- Entries a load on this module must fill: the frames whose schedules do not hold the context. -/
def State.entriesNeeded (s : State) (l : Load) : List (Nat × Nat) :=
  (framesOf l.places).filterMap fun f => if (s.entryOf f l.ctx).isSome then none else (s.freeEntry f).map fun n => (f, n)

/-- Shadow entries and windows of a load on a module written, the shadow sets being synced first (R243, R88, R348). -/
def State.reserve (s : State) (l : Load) : State × Load :=
  let need := s.entriesNeeded l
  let s := if need.isEmpty then s else { s with shadow := s.active }
  let (w, s) := s.free
  let word := s.sliceWord l.ctx w
  let s := need.foldl (fun s e => s.fillEntry l word e.1 e.2) s
  let s := if l.windows.isEmpty then s
    else
      let eps := (mWindows l.manifest).flatMap fun x => List.replicate (if x % 4096 = s.ep then 0 else x / 4096) (x % 4096)
      (List.range l.windows.length).foldl (fun s i =>
        let x := l.windows.getD i (0, 0)
        s.addWindow x.1 x.2 l.ctx (eps.getD i 0)) s.copyBoard
  (s, { l with entries := need })

/-! ### Requests made of another module (R242, R243, R348) -/

/-- The first request still to be made of a load's module issued. The SWAP travels as a critical command under the manager's issuer
slot; whether it was sent, and if not the status. -/
def State.sendLoadStep (s : State) (l : Load) : State × Nat :=
  let cmd (op : Nat) (body : List Byte) : Packet := s.cmdPacket op l.target 0 body
  let (s, p, k, what) : State × Packet × KeyRef × Purpose := match l.todo with
    | .sync :: _ => (s, cmd 0x42 (zeroBytes 8), s.mgrKeyRef l.target, .loader 2 l.job)
    | .write a v :: _ => (s, cmd 0x41 (leBytes 4 a ++ leBytes 4 v), s.mgrKeyRef l.target, .loader 2 l.job)
    | .swap t :: _ =>
      let (id, s) := s.free
      let (s, n) := s.nextCounter l.target
      (s, s.critPacket (tblGet s.mgr.roster l.target {}) l.target 0x03 0xFFFF n (leBytes 4 (id % 2 ^ 32) ++ zeroBytes 4) t, .clear,
        .loader 2 l.job)
    | _ => (s, s.cmdPacket 0xA2 l.target l.ctx (l.asJob.record l.job), s.mgrKeyRef l.target, .loader 0 l.job)
  match s.issue p k what (some l.ctx) with
  | (s, .sent _) => (s, stOk)
  | (s, .noSlot) => (s, stBusy)
  | (s, .noRoute) => (s, stLinkDown)
  | (s, .noKey) => (s, stKeyRetired)

/-- A load put in place of the one of the same target and job. -/
def State.putLoad (s : State) (l : Load) : State :=
  { s with loads := (s.loads.filter fun x => !(x.target == l.target && x.job == l.job)) ++ [l] }

/-- A load whose clearing is over leaves. -/
def State.dropLoad (s : State) (l : Load) : State :=
  { s with loads := s.loads.filter fun x => !(x.target == l.target && x.job == l.job) }

/-- Requests for a module whose job is placed or gone: the first is issued; one that cannot be ends them. -/
def State.runTodo (s : State) (l : Load) : State :=
  if l.todo.isEmpty then (if l.phase = .clearing then s.dropLoad l else s.putLoad l)
  else match s.sendLoadStep l with
    | (s, st) => if st = stOk then s.putLoad l
      else if l.phase = .clearing then s.dropLoad l else s.putLoad { l with todo := [] }

/-- Reservations on another module released: the entries it filled there are cleared and the windows removed again, by writes, a swap
and a switch (R250, R348). Nothing is written for what the module was not yet told of. -/
def State.releaseThere (s : State) (l : Load) : State :=
  let heir (f : Nat) : Bool := s.loads.any fun j => j.target == l.target && j.job != l.job && j.ctx == l.ctx && j.phase != .clearing &&
    !(j.asJob.stagesIn f).isEmpty
  let gone := l.entries.filter fun e => !heir e.1
  let (s, t) := s.tickBefore 0
  let clear := gone.flatMap fun e => [0x060, 0x064, 0x068, 0x06C].map fun o =>
    LoadStep.write (pageBase .frm e.1 + o + 16 * e.2) (if o = 0x060 then 0x3E8 else 0)
  let (d, s) := s.free
  let seen := s.asSeen l.target d l.ctx []
  let banked := (l.windows.foldl (fun (v : State) w => v.dropWindow w) seen.copyBoard)
  let told := l.phase != .placing
  s.runTodo { l with
    phase := .clearing, slot := noKey
    todo := (if gone.isEmpty then [] else .sync :: clear ++ (if told then [.swap t] else [])) ++
      (if told && !l.windows.isEmpty then loadWrites [] true banked ++ armSteps t else []) }

/-- A job's reservations released (R250). -/
def State.releaseLoad (s : State) (l : Load) : State := if l.target = s.ep then s.releaseHere l else s.releaseThere l

/-! ### JOB_LOAD -/

/-- The loader's standing checks of a command about a context on a target: the active manager serves it, and only for a member of
that context (R240). Another module's membership list is what the loader read of it (assumption 161). -/
def State.loaderCheck (s : State) (v : InSlot) (target : Nat) : State × Nat :=
  if s.mgr.role ≠ 2 then (s, stUnsupported)
  else if target = s.ep then (s, if s.isMember v.ctx v.src then stOk else stPermission)
  else
    let (d, s) := s.free
    (s, if (s.asSeen target d v.ctx []).isMember v.ctx v.src then stOk else stPermission)

/-- A load's schedule entries would meet another's that are written and not yet in force, or its windows a switch that is armed. -/
def State.loadClash (s : State) (l : Load) : Bool :=
  ((s.swapArmed || s.loads.any fun x => x.target == s.ep && x.phase == .placing && !x.entries.isEmpty) && !(s.entriesNeeded l).isEmpty) ||
    (s.rtr.boardArmed.isSome && !l.windows.isEmpty)

/-- JOB_PLACE sent for a load of this module that passed its checks. -/
def State.sendPlace (s : State) (key : Nat) (l : Load) : State :=
  if s.loadClash l then s.endChange key stBusy
  else match s.sendLoadStep { l with todo := [.place] } with
    | (s, st) => if st = stOk then (let (s, l) := s.reserve l; s.putLoad l) else s.endChange key st

/-- A load of another module goes on: the register writes that reserve its entries and windows there, then its JOB_PLACE. -/
def State.placeThere (s : State) (l : Load) : State :=
  match s.sendLoadStep l with
  | (s, st) => if st = stOk then s.putLoad l else (s.releaseLoad l).endChange l.slot st

/-- The same checks for a job on another module, against what the loader holds of it; a load that passes them starts with its writes
there. -/
def State.loadThere (s : State) (key target ctx : Nat) (m : List Byte) (d : Nat) : State :=
  let seen := s.asSeen target d ctx (mKeys m)
  match seen.loadAt (seenHop d) key ctx m with
  | (v, .inr (reason, i, n)) => (({ s with freeCtr := v.freeCtr } : State).refuseLoad key reason i n).closeChange
  | (v, .inl l) =>
    if s.loads.any fun x => x.target == target && x.phase == .placing && !x.entries.isEmpty then
      ({ s with freeCtr := v.freeCtr } : State).endChange key stBusy
    else
      let (v, l) := v.reserve l
      State.placeThere { s with freeCtr := v.freeCtr } { l with todo := loadWrites l.entries (!l.windows.isEmpty) v ++ [.place] }

/-- A load starts, its INTENT written (R241, R242, R433). -/
def State.startLoad (s : State) (key : Nat) : State :=
  match s.slot? key with
  | none => s.closeChange
  | some v =>
    let target := field v.pkt.own 0 2
    let m := v.pkt.own.drop 8
    let (d, s) := s.free
    match manifestFault m (if target = s.ep then Config.rev.toNat else known d 12 0 % 16) with
    | some (reason, i) => (s.refuseLoad key reason i 0).closeChange
    | none =>
      if target ≠ s.ep then s.loadThere key target v.ctx m d
      else match s.loadAt s.firstHop key v.ctx m with
        | (s, .inr (reason, i, n)) => (s.refuseLoad key reason i n).closeChange
        | (s, .inl l) => s.sendPlace key l

/-- JOB_LOAD acted on: a change to the domain (R433). -/
def State.actJobLoad (s : State) (key : Nat) : State :=
  match s.slot? key with
  | none => s
  | some v =>
    let b := v.pkt.own
    let target := field b 0 2
    match s.loaderCheck v target with
    | (s, st) => s.ifOk key st fun s =>
      if b.length < 8 ∨ 16392 < b.length ∨ zeros b 2 6 = false ∨ 4096 ≤ target then s.complete key stMalformed
      else s.change key fun s => s.startLoad key

/-- JOB_LOAD. -/
def execJobLoad (port : Fin 16) (p : Packet) (s : State) : Outcome := .next (s.arrive (ctxCmd 0xA0) port p State.actJobLoad)

/-! ### The placement's result -/

/-- The load that an answer of the target is about. -/
def State.answeredLoad (s : State) (a : Answer) (job : Nat) : Option Load := s.loads.find? fun l => l.target == a.req.dst && l.job == job

/-- A load's command ended with its job placed. -/
def Load.settled (x l : Load) : Load :=
  if x.target = l.target ∧ x.job = l.job then { x with phase := .placed, slot := noKey } else x
def State.settleLoad (s : State) (l : Load) : State := { s with loads := s.loads.map fun x => x.settled l }

/-- Data of an OK JOB_LOAD (R241). -/
def Load.reply (l : Load) : List Byte :=
  leBytes 2 l.job ++ zeroBytes 6 ++ leBytes 8 l.launch ++ (List.range 16).flatMap fun i => leBytes 2 (l.fns.getD i 0xFFFF)

/-- The result of a JOB_PLACE (R242). -/
def State.placeAnswer (s : State) (a : Answer) (job : Nat) : State :=
  match s.answeredLoad a job with
  | none => s
  | some l =>
    if l.phase ≠ .placing then s
    else if a.status = stOk then
      let s := s.settleLoad l
      let (s, t) := s.tickBefore l.launch
      if l.target = s.ep then
        let s := if l.entries.isEmpty then s else s.armSwap t
        let s := if l.windows.isEmpty then s else s.armBoard t
        s.endChange l.slot stOk l.reply
      else
        let todo := (if l.entries.isEmpty then [] else [LoadStep.swap t]) ++ if l.windows.isEmpty then [] else armSteps t
        (s.endChange l.slot stOk l.reply).runTodo { l with phase := .placed, slot := noKey, todo := todo }
    else
      let s := s.releaseLoad l
      if a.status = stRefusedLoad then s.endChange l.slot stRefusedLoad (a.data.take 8) else s.endChange l.slot a.status

/-- The result of a JOB_REMOVE (R250). -/
def State.removeAnswer (s : State) (a : Answer) (job : Nat) : State :=
  match s.answeredLoad a job with
  | none => s
  | some l =>
    if l.phase ≠ .removing then s
    else if a.status = stOk then (s.releaseLoad l).endChange l.slot stOk
    else (s.settleLoad l).endChange l.slot a.status

/-- A request to another module has completed: the next follows, the same again after a retryable status; any other status ends a
placement, and of a job placed or gone what was still to be asked. -/
def State.stepAnswer (s : State) (a : Answer) (job : Nat) : State :=
  match s.answeredLoad a job with
  | none => s
  | some l =>
    let l := { l with todo := if a.status = stOk then l.todo.drop 1 else if a.status = stBusy then l.todo else [] }
    if l.phase ≠ .placing then s.runTodo l
    else if a.status = stOk ∨ a.status = stBusy then s.placeThere l
    else (s.releaseLoad l).endChange l.slot a.status

/-! ### JOB_UNLOAD -/

/-- Every function of a job of this module is DISABLED and no transfer of it is parked (R250). -/
def State.unloadable (s : State) (job : Nat) : Bool :=
  (s.fns.all fun f => f.2.job != job || f.2.st == .disabled) &&
    s.movers.all fun m => m.2.xfers.all fun x => x.job != job || x.st != .parked

/-- The same of a job on another module, as the loader reads the states of its functions and its parked transfers there. -/
def Load.unloadableThere (l : Load) (d : Nat) : Bool := (l.fns.all fun f => known d 13 f % 4 == 3) && known d 14 l.job % 2 == 0

/-- The load a JOB_UNLOAD names: one of the loader's, or a job of this module it did not load. -/
def State.loadNamed (s : State) (target job ctx : Nat) : Option Load :=
  match s.loads.find? fun l => l.target == target && l.job == job && l.ctx == ctx with
  | some l => some l
  | none => ((tblGet? s.jobs job).filter fun j => target == s.ep && j.ctx == ctx).map fun j =>
      { phase := .placed, slot := noKey, target := target, job := job, ctx := ctx, launch := j.launch, manifest := j.manifest
        places := j.places, rings := j.rings, fns := j.fns }

/-- An unload starts, its INTENT written (R250, R433). -/
def State.startUnload (s : State) (key : Nat) : State :=
  match s.slot? key with
  | none => s.closeChange
  | some v =>
    let target := field v.pkt.own 0 2
    let job := field v.pkt.own 2 2
    match s.loadNamed target job v.ctx with
    | none => s.endChange key stFnDisabled
    | some l =>
      if target = s.ep ∧ (tblGet? s.jobs job).any (fun j => j.ctx == v.ctx) = false then s.endChange key stFnDisabled
      else
        let (d, s) := s.free
        if l.phase ≠ .placed ∨ (if target = s.ep then s.unloadable job else l.unloadableThere d) = false then s.endChange key stBusy
        else match s.issue (s.cmdPacket 0xA3 target l.ctx (leBytes 2 job ++ zeroBytes 6)) (s.mgrKeyRef target) (.loader 1 job) (some l.ctx) with
          | (s, .sent _) => { s with loads := (s.loads.filter fun x => !(x.target == target && x.job == job)) ++
              [{ l with phase := .removing, slot := key }] }
          | (s, .noSlot) => s.endChange key stBusy
          | (s, .noRoute) => s.endChange key stLinkDown
          | (s, .noKey) => s.endChange key stKeyRetired

/-- JOB_UNLOAD acted on: a change to the domain (R433). -/
def State.actJobUnload (s : State) (key : Nat) : State :=
  match s.slot? key with
  | none => s
  | some v =>
    let b := v.pkt.own
    match s.loaderCheck v (field b 0 2) with
    | (s, st) => s.ifOk key st fun s =>
      if b.length ≠ 8 ∨ zeros b 4 4 = false ∨ 4096 ≤ field b 0 2 then s.complete key stMalformed
      else s.change key fun s => s.startUnload key

/-- JOB_UNLOAD. -/
def execJobUnload (port : Fin 16) (p : Packet) (s : State) : Outcome := .next (s.arrive (ctxCmd 0xA1) port p State.actJobUnload)

end Sys2Proof.Machine
end

