-- ==== Sys2Proof/Machine/Engine.lean ====
section
/-!
DEFINITION. The load engine's and the key-value service's commands that wait for a copy of a modified line (R380): taken up again
when what they wait for may have come.
-/

namespace Sys2Proof.Machine

/-- A waiting command acted on again, by its opcode. -/
def State.engineAct (s : State) (key : Nat) : State :=
  match s.slot? key with
  | none => s
  | some v =>
    let op := v.pkt.opcode
    if op = 0xA2 then s.actJobPlace key
    else if op = 0xA7 then s.actJobStep key
    else if op = 0xB0 then s.actKvSetup key
    else if op = 0xB1 then s.actSessionOpen key
    else if op = 0xB2 then s.actSessionFork key
    else if op = 0xB3 then s.actSessionExtend key
    else if op = 0xB7 then s.actKvStatus key
    else s

/-- Every waiting command tried again, in the order in which they came. -/
def State.engineRetry (s : State) : State :=
  s.placing.foldl (fun s key => s.engineAct key) { s with placing := [] }

end Sys2Proof.Machine
end

