-- ==== Sys2Proof/Machine/Manager.lean ====
section
/-!
DEFINITION. Roles (19_hierarchy.md): JOIN (R55, R439), EP_STATE (R430), silent workers (R432), the takeover (R436–R438) and the
return of control (R440).
-/

namespace Sys2Proof.Machine

/-! ### JOIN (R55, R419, R439) -/

/-- The fields of a join announcement (assumption 25). -/
def joinEp (b : List Byte) : Nat := field b 0 2 % 4096
def joinModule (b : List Byte) (now : Nat) : Module :=
  { serial := field b 8 8, nonce := field b 48 16, slot1 := field b 36 1, slot1Id := field b 64 8, announced := b, lastReq := now }

/-- A module's manager key derived by the active manager (R419); its own from its own issuer slots. -/
def State.deriveFor (s : State) (ep : Nat) (m : Module) : State :=
  if ep = s.ep then s.deriveSelf else s.putRoster ep (mkOf m.key m.serial m.nonce s.mgr.nonce)

/-- The steps by which the manager makes the returning home module its standby (R439): the grant, its MGR_JRNL, the role, and the
copy. Extent ID, range and the beads of the snapshot are the firmware's choice (assumption 42). -/
def State.homeSteps (s : State) (ep : Nat) : State × Nat × List HomeStep :=
  let (a, s) := s.free
  let (b, s) := s.free
  let (n, s) := s.free
  let id := a % 16384
  let base := b % 2 ^ 27
  let pa := base * 0x200000
  let h := s.jrnlHead
  (s, pa, [
    .crit 0x0C (leBytes 2 id ++ [2, 0] ++ leBytes 4 base ++ leBytes 4 (n % 2 ^ 10 + 1) ++ zeroBytes 20),
    .regWrite 0x580C (pa % 2 ^ 32 + 1), .regWrite 0x5810 (pa / 2 ^ 32),
    .crit 0x11 (roleBody 1 s.ep s.mgr.gen ep),
    .header 1, .copy (field h 0x20 8) (n / 2 ^ 10 % 2 ^ 20), .copy (field h 0x28 8) (field h 0x30 4), .header 2])

/-- The header of the local copy with a COPY_STATE, as written to the standby's copy. -/
def State.headerFor (s : State) (state : Nat) : List Byte := overlay s.jrnlHead 6 [byte state]

/-- The steps of R439 end before the last of them: the copy is not made, and the change ends (R433). -/
def State.dropHome (s : State) : State := State.closeChange { s with mgr := { s.mgr with home := none, copying := false } }

/-- Issues the first of the steps still to make; a step that cannot be sent ends the copy (R433). -/
def State.sendStep (s : State) (ep : Nat) (h : HomeStep) : State :=
  let what : Purpose := .manager 5 ep
  let send (s : State) (p : Packet) (k : KeyRef) : State := match s.issue p k what (some 0) with
    | (s, .sent _) => s
    | (s, _) => s.dropHome
  let pa := match s.jrnl with | some (pa, _) => pa | none => 0
  match h with
  | .crit op body =>
    let (s, n) := s.nextCounter ep
    send s (s.critPacket (tblGet s.mgr.roster ep {}) ep op (if op = 0x0C then 0 else 0xFFFF) n body) .clear
  | .regWrite a v => send s (s.cmdPacket 0x41 ep 0 (leBytes 4 a ++ leBytes 4 v)) (s.mgrKeyRef ep)
  | .header st => send s (writePacket ep s.mgr.mirrorPa (s.headerFor st)) (s.mgrKeyRef ep)
  | .copy off n => send s (writePacket ep (s.mgr.mirrorPa + off) (s.beadsNow (pa + off) (min 8 n))) (s.mgrKeyRef ep)

/-- Whether a step has nothing to send. -/
def HomeStep.empty : HomeStep → Bool
  | .copy _ 0 => true
  | _ => false

/-- What is left of a step whose request has completed. -/
def HomeStep.rest : HomeStep → List HomeStep
  | .copy off n => if n ≤ 8 then [] else [.copy (off + 512) (n - 8)]
  | _ => []

/-- The steps go on; after the last the mirror is good (R439, step 5) and the change ends. -/
def State.runHome (s : State) (ep : Nat) (l : List HomeStep) : State :=
  match l.filter fun h => !h.empty with
  | [] => State.closeChange { s with mgr := { s.mgr with home := none, copying := false, mirrorOk := true, mirrorLost := false } }
  | h :: t => State.sendStep { s with mgr := { s.mgr with home := some (ep, h :: t), copying := s.mgr.copying || h == .header 1 } } ep h

/-- A request of R439 has completed: the next follows, the same again after a retryable status, and any other status ends the
copy. -/
def State.homeAnswer (s : State) (ep status : Nat) : State :=
  match s.mgr.home with
  | none => s
  | some (_, []) => s
  | some (_, h :: t) =>
    if status = stOk then s.runHome ep (h.rest ++ t)
    else if retryable status then s.sendStep ep h
    else s.dropHome

/-- A returning home module is made the standby, as one change (R433); one declared dead is declared alive first (R439). -/
def State.startHome (s : State) (ep : Nat) (wasDead : Bool) : State :=
  let s := if wasDead then s.declare ep false none else s
  let (s, pa, l) := s.homeSteps ep
  let m : Mgr := { s.mgr with mirrorPa := pa, mirrorOk := false, mirrorLost := false, changes := s.mgr.changes + b2n wasDead + 1 }
  (({ s with mgr := m } : State).journal 1).1.runHome ep l

/-- A join announcement reaches the active manager: it records the module and derives its manager key. -/
def State.actJoin (s : State) (key : Nat) : State :=
  match s.slot? key with
  | none => s
  | some v =>
    let b := v.pkt.own
    if s.mgr.role ≠ 2 then s.complete key stUnsupported
    else if b.length ≠ 72 ∨ joinEp b ≠ v.src then s.complete key stMalformed
    else
      let ep := joinEp b
      let old := tblGet? s.mgr.roster ep
      let m : Module := { joinModule b s.time with dead := (old.map (·.dead)).getD false }
      let s : State := { s with mgr := { s.mgr with roster := tblPut s.mgr.roster ep m } }
      let s := (s.deriveFor ep m).complete key stOk
      if ep = s.actBits .mgr 0 0x044 27 16 ∧ ep ≠ s.ep ∧ s.mgr.home = none ∧ !(s.mgr.mirrorOk && s.standby == ep) ∧ s.changesRefused = false
      then s.startHome ep m.dead
      else s

/-- Rules of the join announcement (R55, R100): open at the active manager, the manager's alone at any other module. -/
def joinRules : Rules :=
  { form := fun p => p.ofCmd 0x43, clearOk := fun s _ => s.mgr.role == 2
    sourceOk := fun s p => s.mgr.role == 2 || s.fromManager p }

/-- JOIN. -/
def execJoin (port : Fin 16) (p : Packet) (s : State) : Outcome :=
  .next (s.arrive joinRules port p State.actJoin)

/-! ### EP_STATE (R429, R430) -/

/-- The control host speaks to the active manager on its port, under MK_CTRL (R419, R429). -/
def State.fromHost (s : State) (port : Nat) (p : Packet) : Bool :=
  s.mgr.role == 2 && wbit (s.act .mgr 0 0x048) 31 && s.actBits .mgr 0 0x048 19 16 == port &&
    (match p.sec with | some x => x.keyId == 0 && x.ep == s.actBits .mgr 0 0x048 11 0 | none => false)

/-- Checks of EP_STATE. -/
def State.epStateCheck (s : State) (v : InSlot) : Nat :=
  let b := v.pkt.own
  let ep := field b 0 2
  if b.length ≠ 8 ∨ v.pkt.context ≠ 0 ∨ 4096 ≤ ep ∨ 2 ≤ field b 2 1 ∨ zeros b 3 5 = false then stMalformed
  else if ep = s.ep ∨ s.mgr.ep = some ep then stMalformed
  else stOk

/-- A declaration that the control host has asked for starts, its INTENT written. -/
def State.startDeclare (s : State) (key : Nat) : State :=
  match s.slot? key with
  | none => s.closeChange
  | some v => s.declare (field v.pkt.own 0 2) (field v.pkt.own 2 1 == 1) (some key)

/-- EP_STATE acted on: on a module, its effect; at the active manager, a declaration (R430). -/
def State.actEpState (s : State) (key : Nat) : State :=
  match s.slot? key with
  | none => s
  | some v => s.ifOk key (s.epStateCheck v) fun s =>
      let s := { s with mgr := { s.mgr with declared := stick32 (s.mgr.declared + 1) } }
      if s.mgr.role = 2 then s.change key fun s => s.startDeclare key
      else (s.applyEpState (field v.pkt.own 0 2) (field v.pkt.own 2 1 == 1)).complete key stOk

/-- EP_STATE. -/
def execEpState (port : Fin 16) (p : Packet) (s : State) : Outcome :=
  .next (s.arrive (cmdRules 0xC1 fun s p => s.fromManager p || s.fromHost port p) port p fun s key => (s.actEpState key).engineRetry)

/-! ### Silent workers (R432) -/

/-- The manager's declaration of a silent module starts, its INTENT written. -/
def State.startSilent (s : State) (ep : Nat) : State := s.declare ep true none

/-- WORKER_SILENT: no DELAY_REQ from a module for WORKER_MISS_MS. -/
def execWorkerSilent (ep : Nat) (s : State) : Outcome :=
  match tblGet? s.mgr.roster ep with
  | none => .next s
  | some m =>
    if s.mgr.role ≠ 2 ∨ ep = s.ep ∨ m.silent ∨ m.dead then .next s
    else
      let s := s.elapseTo (m.lastReq + ms (s.actBits .mgr 0 0x04C 15 0))
      let s := { s with mgr := { s.mgr with roster := tblPut s.mgr.roster ep { m with silent := true } } }
      let auto := wbit (s.act .mgr 0 0x04C) 31 && !s.changesRefused
      let s := (s.postMgr { typ := 0x00B4, cls := 1, source := 0x4000
                            detail := detail [(0, leBytes 2 ep), (2, [byte (b2n auto)])] }).raise .mgr 0 3
      .next (if auto then (match s.openChange (.silent ep) with
        | (s, .go) => s.startSilent ep
        | (s, _) => s) else s)

/-! ### Taking control (R437, Table 19.4) -/

/-- The roster a new manager reads in its journal (assumption 41), without itself, and with the former manager in it. -/
def State.journalRoster (s : State) (former : Option Nat) : State × Tbl Module :=
  let (r, s) := s.free
  let read := ((Config.journalRoster r).take 63).filter fun x => x.1 % 4096 != s.ep
  let add (t : Tbl Module) (x : Nat × Nat × Nat × Nat) : Tbl Module :=
    tblPut t (x.1 % 4096) { serial := x.2.1, nonce := x.2.2.1, slot1 := b2n (x.2.2.2 != 0), slot1Id := x.2.2.2, lastReq := s.time }
  let t := read.foldl add []
  match former with
  | none => (s, t)
  | some f => (s, if (tblGet? t f).isSome ∨ f = s.ep then t else tblPut t f { lastReq := s.time })

/-- ROLE_CHANGE sent to one module of the roster, and kept until it completes. -/
def State.sendRole (s : State) (ep role standby : Nat) : State :=
  let (s, n) := s.nextCounter ep
  let p := s.critPacket (tblGet s.mgr.roster ep {}) ep 0x11 0xFFFF n (roleBody role s.ep s.mgr.gen standby)
  let s := (s.issue p .clear (.manager 0 ep) none).1
  { s with mgr := { s.mgr with roleSent := tblPut s.mgr.roleSent ep { pkt := p, at_ := s.time } } }

/-- The change of a takeover ends at once when there is no module to tell. -/
def State.roleToldNone (s : State) : State := if s.mgr.roleSent.isEmpty then s.closeChange else s

/-- A counter toward each module above every block reserved before (R434): the blocks are in the journal (assumption 41). -/
def State.freshCounters (s : State) : State :=
  s.mgr.roster.foldl (fun s m =>
    let (r, s) := s.free
    { s with mgr := { s.mgr with counters := tblPut s.mgr.counters m.1 (r % 2 ^ 43 * 2 ^ 20) } }) s

/-- Steps 1 and 2: the role, generation, own reference and lock, a new MGR_NONCE, and the journal. -/
def State.becomeActive (s : State) (former : Option Nat) : State :=
  let s := { s with
    mgr := { s.mgr with
      role := 2, gen := field s.jrnlHead 8 4 + 1, ep := some s.ep, mirrorOk := false, mirrorLost := false, copying := false, home := none
      takeback := none, tbSent := none, tbRefused := none, openings := [], declaring := [], changes := 1, roleSent := [] }
    tick := { s.tick with locked := true, req := none, seqs := [], listenFrom := none, hold := 0, slew := 0, sentAt := s.time - s.syncPeriod } }
  let (s, t) := s.journalRoster former
  let (r, s) := s.free
  let s := { s.leaveKeys with mgr := { s.mgr with roster := t, others := (Config.journalOthers r).map (· % 4096) } }
  let s := s.drawMgrNonce.freshCounters
  let s := s.mgr.roster.foldl (fun (s : State) m => s.deriveFor m.1 m.2) s
  (s.journal 1).1

/-- Each INTENT without a DONE is finished or undone, and its DONE written (step 5). How many the journal holds, and what the reads of
their targets give, lie in record bodies of the firmware's own (assumption 41). -/
def State.finishIntents (s : State) : State :=
  let (r, s) := s.free
  (List.range r).foldl (fun (s : State) _ => (s.journal 2).1) s

/-- A takeover (R437): Table 19.4 in order. -/
def State.takeOver (s : State) : State :=
  let former := s.mgr.ep
  let s := s.becomeActive former
  let s := (s.mgr.roster.foldl (fun (s : State) m => s.sendRole m.1 0 s.ep) s).roleToldNone
  let s := s.notify 2 s.ep 0 0
  let s := match former with
    | some f => s.declare f true none
    | none => s
  let s := { s with mgr := { s.mgr with takeovers := min 0xFFFF (s.mgr.takeovers + 1), changes := s.mgr.changes + b2n former.isSome } }
  let d := detail [(0, leBytes 2 (former.getD 0xFFFF)), (4, leBytes 4 s.mgr.gen)]
  (s.finishIntents.postMgr { typ := 0x00B0, cls := 2, source := 0x4000, detail := d }).raise .mgr 0 0

/-- TAKEOVER_BLOCKED (R436), once in a silence. -/
def State.takeoverBlocked (s : State) : State :=
  if s.mgr.blocked then s
  else State.postMgr { s with mgr := { s.mgr with blocked := true } }
    { typ := 0x00B2, cls := 1, source := 0x4000, detail := detail [(0, [4])] }

/-- TAKEOVER (R436): no ANNOUNCE from its manager for HB_MISS_US, takeovers enabled, a port UP, and a current copy. It is event 7 of
its tick (R75). -/
def execTakeover (s : State) : Outcome :=
  let t := s.elapseTo (s.tick.lastAnn + us (s.actBits .mgr 0 0x040 31 16))
  if !(s.inService && s.mgr.role == 1 && wbit (s.act .mgr 0 0x044) 31 && (List.range 16).any fun p => s.portUp p) then .next s
  else if t.dueBefore t.tick.count 11 ∨ t.rodsDue t.tick.count then .next s
  else if s.copyState = 2 ∧ s.copyVersion = 1 then .next t.takeOver
  else .next t.takeoverBlocked

/-- ROLE_CHANGE_RESEND: the ROLE_CHANGE sent longest ago, and due, is sent again. -/
def execRoleChangeResend (s : State) : Outcome :=
  match leastBy (·.2.at_) s.mgr.roleSent with
  | none => .next s
  | some (ep, m) =>
    let s := s.elapseTo (m.at_ + s.syncPeriod)
    let s := (s.issue m.pkt .clear (.manager 0 ep) none).1
    .next { s with mgr := { s.mgr with roleSent := tblPut s.mgr.roleSent ep { m with at_ := s.time } } }

/-- A ROLE_CHANGE has completed: it is sent no more, unless its status may be retried. With the last the change ends. -/
def State.roleAnswer (s : State) (ep status : Nat) : State :=
  if retryable status ∨ (tblGet? s.mgr.roleSent ep).isNone then s
  else
    let s := { s with mgr := { s.mgr with roleSent := tblDel s.mgr.roleSent ep } }
    if s.mgr.roleSent.isEmpty then s.closeChange else s

/-! ### Giving control back (R440) -/

/-- A T_B far enough ahead for the standby's own rule and the manager's (R74, R440): how far no rule fixes. -/
def State.backTick (s : State) : State × Nat :=
  let (r, s) := s.free
  (s, s.tick.count + s.actBits .mgr 0 0x040 15 0 * 1000 + r)

/-- This standby may take control back: it is the home module, takebacks are enabled and its copy is current. -/
def State.mayTakeBack (s : State) : Bool :=
  s.inService && s.mgr.role == 1 && s.actBits .mgr 0 0x044 27 16 == s.ep && wbit (s.act .mgr 0 0x044) 30 && s.copyState == 2

/-- TAKEBACK sent to the manager. -/
def State.sendTakeBack (s : State) : State :=
  match s.mgr.ep with
  | none => s
  | some m =>
    let (s, t) := s.backTick
    match s.issue (s.cmdPacket 0xC3 m 0 (leBytes 8 t)) (s.mgrKeyRef m) (.manager 4 m) none with
    | (s, .sent _) => { s with mgr := { s.mgr with tbSent := some t, tbRefused := none } }
    | (s, _) => { s with mgr := { s.mgr with tbSent := none, tbRefused := some s.time } }

/-- TAKEBACK_REQUEST. -/
def execTakebackRequest (s : State) : Outcome :=
  onlyIf (s.mayTakeBack && s.mgr.tbSent.isNone && s.mgr.tbRefused.isNone && s.mgr.takeback.isNone) s State.sendTakeBack

/-- TAKEBACK_RESEND: SYNC_PERIOD_US after the refusal. -/
def execTakebackResend (s : State) : Outcome :=
  match s.mgr.tbRefused with
  | none => .next s
  | some t => onlyIf s.mayTakeBack s fun s => (s.elapseTo (t + s.syncPeriod)).sendTakeBack

/-- The manager's answer: accepted, the takeback is armed here too. -/
def State.takeBackAnswer (s : State) (m status : Nat) : State :=
  match s.mgr.tbSent with
  | none => s
  | some t =>
    if status = stOk then { s with mgr := { s.mgr with tbSent := none, takeback := some (m, t) } }
    else { s with mgr := { s.mgr with tbSent := none, tbRefused := some s.time } }

/-- Checks of TAKEBACK at the manager. -/
def State.takeBackCheck (s : State) (v : InSlot) : Nat :=
  let b := v.pkt.own
  if s.mgr.role ≠ 2 then stUnsupported
  else if b.length ≠ 8 ∨ v.pkt.context ≠ 0 then stMalformed
  else if s.tickRule (field b 0 8) ≠ stOk then s.tickRule (field b 0 8)
  else if !s.mgr.mirrorOk ∨ 0 < s.mgr.changes ∨ s.mgr.takeback.isSome then stBusy
  else stOk

/-- TAKEBACK acted on. -/
def State.actTakeback (s : State) (key : Nat) : State :=
  match s.slot? key with
  | none => s
  | some v => s.ifOk key (s.takeBackCheck v) fun s =>
      State.complete { s with mgr := { s.mgr with takeback := some (v.src, field v.pkt.own 0 8) } } key stOk

/-- TAKEBACK, from the standby under its manager key. -/
def execTakeback (port : Fin 16) (p : Packet) (s : State) : Outcome :=
  .next (s.arrive (cmdRules 0xC3 fun s p => (match p.sec with | some x => x.keyId == 0 && (s.mgr.role != 2 || x.ep == s.standby) | none => false))
    port p State.actTakeback)

/-- The record, the event and the count of a takeback. -/
def State.tookBack (s : State) (other gen tick : Nat) : State :=
  let s := { s with mgr := { s.mgr with takebacks := min 0xFFFF (s.mgr.takebacks + 1) } }
  (s.postMgr { typ := 0x00B1, cls := 2, source := 0x4000
               detail := detail [(0, leBytes 2 other), (4, leBytes 4 gen), (8, leBytes 8 tick)] }).raise .mgr 0 1

/-- At T_B the manager becomes standby. -/
def State.stepDown (s : State) (other tick : Nat) : State :=
  State.tookBack { s.leaveKeys with mgr := { s.mgr with role := 1, takeback := none, home := none, copying := false } } other (s.mgr.gen + 1) tick

/-- At T_B the returning module takes control: steps 1 and 3 to 6 of Table 19.4, without EP_STATE. -/
def State.takeBack (s : State) (other tick : Nat) : State :=
  let s := s.becomeActive (some other)
  let s := s.mgr.roster.foldl (fun (s : State) m => s.sendRole m.1 (if m.1 = other then 1 else 0) other) s
  ((s.roleToldNone.notify 2 s.ep 0 0).finishIntents).tookBack other s.mgr.gen tick

/-- TAKEBACK_FIRE, event 7 of R75 at T_B. -/
def execTakebackFire (s : State) : Outcome :=
  match s.mgr.takeback with
  | none => .next s
  | some (other, t) =>
    if s.dueBefore t 11 ∨ s.rodsDue t then .next s
    else
      let s := s.elapseToTick t
      .next (if s.mgr.role = 2 then s.stepDown other t else s.takeBack other t)

end Sys2Proof.Machine
end

