-- ==== Sys2Proof/Machine/Movers.lean ====
section
/-!
DEFINITION. Movers (R251–R261): descriptors, pieces and their delivery, faults, errors and the position record; TRIGGER_READ,
PIECE_DELIVER, MOVER_PREEMPT, MOV_RESUME and MOV_CANCEL.
-/

namespace Sys2Proof.Machine

/-! ### Descriptors and triggers (R251, R253) -/

/-- A descriptor under its trigger: OUTER and the address adjustments applied. -/
structure Desc where
  ndim : Nat
  srcKind : Nat
  dstKind : Nat
  flags : Nat
  srcFmt : Nat
  dstFmt : Nat
  mode : Nat
  sat : Bool
  gen : Nat
  src : Nat
  dst : Nat
  ep : Nat
  counts : List Nat
  srcStep : List Int
  dstStep : List Int
  scale : Nat
deriving DecidableEq, Repr

/-- Fields of a trigger (Table 10.10). -/
def trgDesc (t : List Byte) : Nat := field t 0 4
def trgDone (t : List Byte) : Bool := bit (field t 4 1) 0
def trgStream (t : List Byte) : Nat := field t 5 1
def trgOuter (t : List Byte) : Nat := field t 0x18 4

/-- The descriptor in 128 bytes, under a trigger (Tables 10.8, 10.10). -/
def descOf (b t : List Byte) : Desc :=
  let ndim := field b 1 1
  let counts := (List.range 5).map fun i => field b (0x20 + 4 * i) 4
  { ndim := ndim, srcKind := field b 2 1 % 16, dstKind := field b 2 1 / 16, flags := field b 3 1, srcFmt := field b 4 1 % 16
    dstFmt := field b 4 1 / 16, mode := field b 5 1 % 8, sat := bit (field b 5 1) 3, gen := field b 6 1
    src := (field b 8 8 + field t 8 8) % 2 ^ 64, dst := (field b 0x10 8 + field t 0x10 8) % 2 ^ 64, ep := field b 0x18 4 % 4096
    counts := if trgOuter t = 0 then counts else counts.set (ndim - 1) (trgOuter t)
    srcStep := (List.range 4).map fun i => signed 64 (field b (0x38 + 8 * i) 8)
    dstStep := (List.range 4).map fun i => signed 64 (field b (0x58 + 8 * i) 8), scale := field b 0x78 8 }

def Desc.mxIn (d : Desc) : Bool := bit d.flags 2
def Desc.mxOut (d : Desc) : Bool := bit d.flags 3

/-- Bits of an element on a side: packed unless its BYTEFORM flag is set (R196, R251). -/
def Desc.srcBits (d : Desc) : Nat := if bit d.flags 0 then fmtWidth d.srcFmt else fmtPacked d.srcFmt
def Desc.dstBits (d : Desc) : Nat := if bit d.flags 1 then fmtWidth d.dstFmt else fmtPacked d.dstFmt

/-- COUNT[0]. -/
def Desc.row (d : Desc) : Nat := d.counts.getD 0 0

/-- Rows of a transfer. -/
def Desc.rows (d : Desc) : Nat := ((d.counts.take d.ndim).drop 1).foldl (· * ·) 1

/-- A stream that mover `m`'s frame lets it write: its producer is this mover. -/
def Job.moverStream (j : Job) (m i : Nat) : Bool :=
  let e := mStream j.manifest i
  i < mStreams j.manifest && strProd e == 0xFD && strProdRod e == m % 2 && j.ringFrame i == m / 2

/-- The descriptor and its transfer keep R251. -/
def moverDescOk (j : Job) (m : Nat) (b : List Byte) (d : Desc) : Bool :=
  let raw := (List.range 5).map fun i => field b (0x20 + 4 * i) 4
  field b 0 1 == 1 && 1 ≤ d.ndim && d.ndim ≤ 5 && d.srcKind ≤ 4 && d.srcKind != 3 && d.dstKind ≤ 4 && d.flags < 16 &&
    d.srcFmt < 15 && d.dstFmt < 15 && d.mode ≤ 5 && field b 5 1 < 16 && zeros b 7 1 && field b 0x18 4 / 2 ^ 26 == 0 &&
    bits (field b 0x18 4) 15 12 == 0 && 1 ≤ raw.getD 0 0 && ((raw.drop d.ndim).all (· == 0)) && zeros b 0x34 4 &&
    d.row * d.srcBits % 8 == 0 && d.row * d.dstBits % 8 == 0 &&
    (if d.mxIn || d.mxOut then d.row % 32 == 0 else true) && (!d.mxIn || mxFormat d.srcFmt) && (!d.mxOut || mxFormat d.dstFmt) &&
    (if d.dstKind = 3 then j.moverStream m d.dst && d.dstStep.all (· == 0) && d.row * d.dstBits / 8 % 128 == 0 && !d.mxOut else true)

/-- A trigger keeps R253. -/
def triggerOk (j : Job) (m : Nat) (t : List Byte) : Bool :=
  trgDesc t < mDescs j.manifest && field t 4 1 < 2 && zeros t 6 2 && zeros t 0x1C 100 && (!trgDone t || j.moverStream m (trgStream t))

/-! ### Pieces (R254) -/

/-- Elements of a piece that is not the last of its row: as many as 256 destination bytes hold in whole bytes, and whole blocks under
MX_OUT. -/
def Desc.pieceElems (d : Desc) : Nat :=
  let unit := if d.mxOut then 32 else if d.dstBits = 6 then 4 else if d.dstBits = 4 then 2 else 1
  2048 / d.dstBits / unit * unit

/-- Pieces of a row and of a transfer. -/
def Desc.rowPieces (d : Desc) : Nat := (d.row + d.pieceElems - 1) / d.pieceElems
def Desc.pieces (d : Desc) : Nat := d.rows * d.rowPieces

/-- Element index in each dimension of the first element of piece `k` (CTR, Table 10.11). -/
def ctrDigits : (counts : List Nat) → (r : Nat) → List Nat
  | [], _ => []
  | c :: t, r => r % max 1 c :: ctrDigits t (r / max 1 c)
def Desc.ctr (d : Desc) (k : Nat) : List Nat := k % d.rowPieces * d.pieceElems :: ctrDigits (d.counts.drop 1) (k / d.rowPieces)

/-- One piece: its first element in its row and in the transfer, its elements, and the addresses of its row. -/
structure Piece where
  first : Nat
  index : Nat
  count : Nat
  src : Nat
  dst : Nat
deriving DecidableEq, Repr

/-- Piece `k` of a transfer. -/
def Desc.piece (d : Desc) (k : Nat) : Piece :=
  let first := k % d.rowPieces * d.pieceElems
  let digits := ctrDigits (d.counts.drop 1) (k / d.rowPieces)
  let at_ (base : Nat) (steps : List Int) : Nat :=
    unsigned 64 ((base : Int) + ((List.range 4).map fun i => steps.getD i 0 * (digits.getD i 0 : Nat)).sum)
  { first := first, index := k / d.rowPieces * d.row + first, count := min d.pieceElems (d.row - first)
    src := at_ d.src d.srcStep, dst := at_ d.dst d.dstStep }

/-- First byte and length of a piece's elements on a side. -/
def Desc.srcSpan (d : Desc) (p : Piece) : Nat × Nat :=
  let lo := p.first * d.srcBits / 8
  ((p.src + lo) % 2 ^ 64, ((p.first + p.count) * d.srcBits + 7) / 8 - lo)
def Desc.dstSpan (d : Desc) (p : Piece) : Nat × Nat := ((p.dst + p.first * d.dstBits / 8) % 2 ^ 64, p.count * d.dstBits / 8)

/-- First byte and number of the scale bytes a piece uses. -/
def Desc.scaleSpan (d : Desc) (p : Piece) : Nat × Nat :=
  ((d.scale + p.index / 32) % 2 ^ 64, (p.index + p.count + 31) / 32 - p.index / 32)

/-- Draw of element `e` of a transfer (R252, Table 12.2). -/
def xferDraw (seed : Nat) (x : Xfer) (d : Desc) (e : Nat) : Nat :=
  drawOf seed e (x.number % 2 ^ 32) (x.number / 2 ^ 32 % 2 ^ 16 * 2 ^ 16 + e / 4 / 2 ^ 32 % 2 ^ 16)
    (d.gen * 2 ^ 24 + 2 ^ 23 + x.stream % 256)

/-- The bytes a piece becomes, and its scale bytes under MX_OUT (R252). -/
def convertPiece (seed : Nat) (x : Xfer) (d : Desc) (p : Piece) (data scales : List Byte) : List Byte × List Byte :=
  let skip := p.first * d.srcBits % 8
  let raw := leNat data / 2 ^ skip
  let mask := 2 ^ fmtPacked d.srcFmt
  let value (i : Nat) : Num :=
    let c := elem raw d.srcBits i % mask
    if d.mxIn then mxValue d.srcFmt (field scales ((p.index + i) / 32 - p.index / 32) 1) c else decodeFmt d.srcFmt c
  let draw (i : Nat) : Nat := if d.mode = 5 then xferDraw seed x d (p.index + i) else 0
  let n := p.count * d.dstBits / 8
  if d.mxOut then
    let blocks := (List.range (p.count / 32)).map fun b =>
      quantise d.dstFmt d.mode ((List.range 32).map fun i => draw (32 * b + i)) ((List.range 32).map fun i => value (32 * b + i))
    (leBytes n (elems d.dstBits (blocks.flatMap (·.2))), blocks.map fun b => byte b.1)
  else (leBytes n (elems d.dstBits ((List.range p.count).map fun i => (roundFmt d.dstFmt d.mode d.sat (draw i) (value i)).code)), [])

/-! ### Ends (Table 10.9) -/

/-- The rod a SCRATCH address names is resident for a context: it runs the context's slice. -/
def State.resident (s : State) (m ctx addr : Nat) : Bool :=
  let r := s.rod (s.physRod (m / 2) (addr / 2 ^ 60))
  r.ctx == ctx && (r.st == .running || r.st == .toTileEnd)

/-- A SCRATCH range lies outside the code region and below 0x8_0000 (R261). -/
def State.scratchOk (s : State) (m addr n : Nat) : Bool :=
  let off := addr % 2 ^ 60
  let r := s.rod (s.physRod (m / 2) (addr / 2 ^ 60))
  off + n ≤ 0x80000 && r.regs.codeBytes ≤ off

/-- Bytes read from a MEM, FB or SCRATCH end. -/
def State.endRead (s : State) (m ctx kind addr n : Nat) : State × List Byte × Bool × Access :=
  if kind = 0 then s.unitData m (moverTag m) ctx addr n
  else if kind = 1 then
    match s.fbOpen (m / 2) ctx addr n with
    | (s, .open_ a) =>
      let s := s.checkFb (m / 2) a n
      let (b, p) := (s.frame (m / 2)).read a n
      (s, b, p, .done)
    | (s, .wait) => (s, [], false, .wait)
    | (s, .bounds) => (s, [], false, .failed stPermission false 0)
  else if !s.resident m ctx addr then (s, [], false, .wait)
  else if !s.scratchOk m addr n then (s, [], false, .failed stPermission false 0)
  else
    let i := s.physRod (m / 2) (addr / 2 ^ 60)
    let s := s.checkScratch i (addr % 2 ^ 60) n
    let (b, p) := (s.rod i).read (addr % 2 ^ 60) n
    (s, b, p, .done)

/-- Bytes written to a MEM, FB or SCRATCH end. -/
def State.endWrite (s : State) (m ctx kind addr : Nat) (b : List Byte) (poison : Bool) : State × Access :=
  if kind = 0 then s.unitBytes m (moverTag m) ctx addr b poison (b.length + 1)
  else if kind = 1 then
    match s.fbOpen (m / 2) ctx addr b.length with
    | (s, .open_ a) => (s.setFrame (m / 2) ((s.frame (m / 2)).write a b poison), .done)
    | (s, .wait) => (s, .wait)
    | (s, .bounds) => (s, .failed stPermission false 0)
  else if !s.resident m ctx addr then (s, .wait)
  else if !s.scratchOk m addr b.length then (s, .failed stPermission false 0)
  else (s.scratchStore (s.physRod (m / 2) (addr / 2 ^ 60)) (addr % 2 ^ 60) b poison, .done)

/-! ### REMOTE ends -/

/-- Requests for a byte range: bead-aligned address and beads, within 4 KiB blocks (R353). -/
def readChunks (fuel addr n : Nat) : List (Nat × Nat) :=
  match fuel with
  | 0 => []
  | fuel + 1 =>
    if n = 0 then []
    else
      let lo := addr / 64 * 64
      let beads := min (min 8 ((addr + n + 63 - lo) / 64)) ((4096 - lo % 4096) / 64)
      let got := lo + 64 * beads - addr
      (lo, beads) :: readChunks fuel (addr + got) (n - got)

/-- Writes for a byte range: bead-aligned address and the bytes with their place in it; whole beads together, up to 8. -/
def writeChunks (fuel addr : Nat) (b : List Byte) : List (Nat × List Byte) :=
  match fuel with
  | 0 => []
  | fuel + 1 =>
    if b.isEmpty then []
    else
      let n := if addr % 64 = 0 ∧ 64 ≤ b.length then min (min 512 (b.length / 64 * 64)) (4096 - addr % 4096) else min b.length (64 - addr % 64)
      (addr, b.take n) :: writeChunks fuel (addr + n) (b.drop n)

/-- The packet of one REMOTE write: a mover's payload travels on VC5 BULK (Table 0.6). -/
def remoteWrite (ep addr : Nat) (b : List Byte) (poison : Bool) : Packet :=
  let n := b.length
  if addr % 64 = 0 ∧ n % 64 = 0 then
    { typ := tWrite, vc := 5, dst := ep, qual := n / 64 - 1, form := addr, poison := poison, body := b }
  else
    let o := addr % 64
    { typ := tWritePartial, vc := 5, dst := ep, form := addr / 64 * 64, poison := poison
      body := leBytes 8 ((2 ^ n - 1) * 2 ^ o) ++ (zeroBytes o ++ b ++ zeroBytes 64).take 64 }

/-- The key slot of a REMOTE end (R414): the leaf's KEYSEL at a local MEM address, else the job's first KEYS entry. -/
def State.remoteKey (s : State) (m ctx : Nat) (local_ : Option Nat) (j : Job) : State × (Nat ⊕ Access) :=
  match local_ with
  | none => (s, .inl ((mKeys j.manifest).getD 0 0xFFFF))
  | some va => match s.innerWalk (s.mover m).lookaside ctx va with
    | (s, .ok e, walked) =>
      (if walked then s.setMover m { s.mover m with lookaside := lkPut (s.mover m).lookaside 256 e } else s, .inl e.keysel)
    | (s, w, _) => (s, .inr (.failed w.status (w == .missing) va))

/-! ### The position record (R259) -/

/-- A position record (Table 10.11). -/
def Xfer.record (x : Xfer) (state side status fault : Nat) : List Byte :=
  let ctr := if x.desc.isEmpty then [0, 0, 0, 0, 0] else (descOf x.desc x.trigger).ctr x.delivered
  [byte 1, byte state, byte side, byte status] ++ zeroBytes 4 ++ (x.trigger ++ zeroBytes 32).take 32 ++
    ((List.range 5).flatMap fun i => leBytes 4 (ctr.getD i 0)) ++ zeroBytes 4 ++ leBytes 8 x.delivered ++ leBytes 8 x.bytes ++
    leBytes 8 fault ++ leBytes 8 x.doneWrites ++ zeroBytes 32

/-- VA of the position record of a job on a mover. -/
def Job.posVa (j : Job) (m : Nat) : Nat := mPosrec j.manifest + 128 * m

/-- Writes a transfer's position record, two full beads in order under its context; the flag says that it waits for a copy to be
recalled first. -/
def State.writePos (s : State) (m : Nat) (j : Job) (x : Xfer) (state side status fault : Nat) : State × Bool :=
  let b := x.record state side status fault
  match s.unitWrites m (moverTag m) x.ctx (j.posVa m) [(b.take 64, false), (b.drop 64, false)] with
  | (s, .wait) => (s, true)
  | (s, _) => (s, false)

/-! ### Turns (R255) -/

/-- The transfer a mover runs for a context: the first in order that is not parked and that no earlier one of its job holds up. -/
def Mover.candidate (v : Mover) (ctx : Nat) : Option Xfer :=
  (v.xfers.find? fun x => x.ctx == ctx && x.st != .parked &&
    !v.xfers.any fun y => y.job == x.job && y.st == .parked)

/-- Contexts with a transfer to run. -/
def Mover.ready (v : Mover) : List Nat := ((v.xfers.map (·.ctx)).eraseDups.filter fun c => (v.candidate c).isSome)

/-- The context of the next turn after `c`, round-robin. -/
def Mover.nextTurn (v : Mover) (c : Nat) : Option Nat :=
  let above := v.ready.filter fun x => decide (c < x)
  match if above.isEmpty then v.ready else above with
  | [] => none
  | x :: t => some (t.foldl min x)

/-- Transfers of one mover differ by job, stream and number. -/
def Xfer.same (x y : Xfer) : Bool := y.job == x.job && y.stream == x.stream && y.number == x.number

/-- A transfer replaced in its mover. -/
def State.setXfer (s : State) (m : Nat) (x : Xfer) : State :=
  let v := s.mover m
  s.setMover m { v with xfers := v.xfers.map fun y => if x.same y then x else y }

/-- A transfer's entry freed. -/
def State.dropXfer (s : State) (m : Nat) (x : Xfer) : State :=
  let v := s.mover m
  s.setMover m { v with xfers := v.xfers.filter fun y => !x.same y }

/-- A ring that takes no record now: full by the copy of CONSUMER, or not to be reached (R118, R119). -/
def State.ringStuck (s : State) (n : Nat) : Bool := decide ((s.ring n).entries ≤ (s.ring n).used) || !s.ringReach n

/-- The job of a mover whose PAGE_FAULT record waits for room in its ring or in the on-die queue: the mover holds, its transfer not yet
parked (R118, R258, R458). -/
def State.holdingJob (s : State) (m : Nat) : Option Nat :=
  let mine (l : List Record) : Option Nat := (l.find? fun x => x.source == 0x1000 + m && x.typ == 0x0010).map fun x => field x.detail 2 2
  s.xlt.rings.findSome? fun r => (mine r.2.held).or (if s.ringStuck r.1 then mine r.2.queue else none)

/-- A mover holds on a PAGE_FAULT record. -/
def State.moverHeld (s : State) (m : Nat) : Bool := (s.holdingJob m).isSome

/-- A transfer is parked: its record is in the ring (R258). -/
def State.parkedAt (s : State) (m : Nat) (x : Xfer) : Bool := x.st == .parked && s.holdingJob m != some x.job

/-- The turn of a mover passes to a context. -/
def State.setTurn (s : State) (m c : Nat) : State := s.setMover m { s.mover m with turn := c, turnBytes := 0 }

/-- The current transfer is preempted for another context's turn: its record is written once with state PREEMPTED (R255, R259). -/
def State.preempt (s : State) (m : Nat) (j : Job) (x : Xfer) (next : Option Nat) : State :=
  let turn (s : State) : State := match next with | some c => s.setTurn m c | none => s
  if x.st = .preempted then turn s
  else match s.writePos m j x 2 0 0 0 with
    | (s, true) => s
    | (s, false) => turn (((s.setXfer m { x with st := .preempted }).discardAt m x.same).bump (pageBase .mov m + 0x814))

/-- A context's delivery of the turn has reached QUANTUM_64K × 64 KiB. -/
def State.spent (s : State) (m : Nat) : Bool := max 1 (s.actBits .mov m 0x040 15 8) * 0x10000 ≤ (s.mover m).turnBytes

/-- The turn passes on from a transfer: to another context, the transfer preempted, or to its own again. -/
def State.yieldTurn (s : State) (m : Nat) (x : Xfer) : State :=
  match tblGet? s.jobs x.job, (s.mover m).nextTurn x.ctx with
  | some j, some c => if c ≠ x.ctx then s.preempt m j x (some c) else s.setTurn m c
  | _, _ => s

/-! ### Ends of a transfer (R254, R258, R261) -/

/-- The done element sent once it can stand in the ring, and the entry freed; until then the transfer stays. A ring outside its
context's partition takes none. -/
def State.finish (s : State) (m : Nat) (j : Job) (x : Xfer) (status : Nat) : State :=
  let k := trgStream x.trigger
  if !(trgDone x.trigger && j.moverStream m k) || s.ringLost x.job k then s.dropXfer m x
  else
    let e := leBytes 4 (trgDesc x.trigger) ++ leBytes 8 x.delivered ++ [byte status] ++ zeroBytes 115
    match if s.ringRoom x.job k = 0 then none else s.pushElements x.job k e false 1 with
    | some s => s.dropXfer m x
    | none => s.setXfer m { x with ending := some status }

/-- A STREAM destination that the mover feeds closed from the first element not delivered on (R238). -/
def State.closeDst (s : State) (m : Nat) (j : Job) (x : Xfer) : State :=
  if x.desc.isEmpty then s
  else
    let d := descOf x.desc x.trigger
    if d.dstKind = 3 ∧ j.moverStream m d.dst = true then
      let v := s.stream x.job d.dst
      s.setStream x.job d.dst { v with closed := some (v.closed.getD v.written) }
    else s

/-- A transfer ends as an error with a status (R261). -/
def State.xferError (s : State) (m : Nat) (j : Job) (x : Xfer) (side status fault : Nat) : State :=
  match s.writePos m j x 3 side status fault with
  | (s, true) => s
  | (s, false) =>
    let s := s.postCtx x.ctx { typ := 0x0040, cls := 1, source := 0x1000 + m, status := status
                               detail := detail [(0, leBytes 2 m), (2, leBytes 2 x.job), (8, leBytes 8 (j.posVa m))] }
    let s := (s.bump (pageBase .mov m + 0x80C)).raise .mov m 1
    (s.closeDst m j x).finish m j x status

/-- A transfer parks on a missing translation (R258): at once, or when the mover's hold on its record ends (`parkedAt`). -/
def State.park (s : State) (m : Nat) (j : Job) (x : Xfer) (side va : Nat) : State :=
  match s.writePos m j x 1 side stNoTranslation va with
  | (s, true) => s
  | (s, false) =>
    let r : Record := { typ := 0x0010, cls := 0, source := 0x1000 + m, va := va, status := stNoTranslation, access := 3,
                        detail := detail [(0, leBytes 2 m), (2, leBytes 2 x.job), (4, [byte side]), (8, leBytes 8 (j.posVa m))] }
    let s := (s.setXfer m x).discardAt m x.same
    let s := (s.postCtx x.ctx r).setXfer m { x.discard with st := .parked, parts := 0 }
    (s.bump (pageBase .mov m + 0x808)).raise .mov m 0

/-- An end that could not be reached: park, end as an error, or wait. -/
def State.blocked (s : State) (m : Nat) (j : Job) (x : Xfer) (side : Nat) (a : Access) : State :=
  match a with
  | .failed _ true va => s.park m j x side va
  | .failed st false va => s.xferError m j x side st va
  | _ => s

/-- The destination is not ready: another context takes its turn, if there is one (R255). -/
def State.destWait (s : State) (m : Nat) (j : Job) (x : Xfer) : State :=
  match (s.mover m).nextTurn x.ctx with
  | some c => if c = x.ctx then s else s.preempt m j x (some c)
  | none => s

/-! ### Delivery -/

/-- The next piece counted as delivered (R254). -/
def State.delivered (s : State) (m : Nat) (j : Job) (x : Xfer) (d : Desc) (n : Nat) : State :=
  let x := { x with st := .ready, delivered := x.delivered + 1, bytes := x.bytes + n, parts := 0, ahead := x.ahead.drop 1
                    doneWrites := if d.dstKind = 0 then x.doneWrites + 1 else x.doneWrites }
  let v := s.mover m
  let s := s.setMover m { v with turn := x.ctx, turnBytes := v.turnBytes + n }
  let s := (s.tally .mov m 0x40 0 1 (some x.ctx)).tally .mov m 0x41 d.dstKind n (some x.ctx)
  if x.delivered = d.pieces ∧ x.flight = [] then s.finish m j x 0 else s.setXfer m x

/-- The REMOTE reads a piece needs, each with its side: its data, then its scales. -/
def Desc.remoteReads (d : Desc) (p : Piece) : List (Nat × Nat × Nat) :=
  let (a, n) := d.srcSpan p
  let (b, k) := d.scaleSpan p
  (readChunks (n + 1) a n).map (fun c => (0, c)) ++ if d.mxIn then (readChunks (k + 1) b k).map (fun c => (2, c)) else []

/-- The local MEM address that names the key of a REMOTE end. -/
def Desc.localVa (d : Desc) (p : Piece) : Option Nat :=
  if d.srcKind = 0 then some (d.srcSpan p).1 else if d.dstKind = 0 then some (d.dstSpan p).1 else none

/-- One REMOTE read of piece `k` issued (R412, R414). -/
def State.remoteReadStart (s : State) (m : Nat) (j : Job) (x : Xfer) (d : Desc) (k : Nat) (c : Nat × Nat × Nat) : State :=
  match s.remoteKey m x.ctx (d.localVa (d.piece k)) j with
  | (s, .inr a) => s.blocked m j x 1 a
  | (s, .inl key) =>
    match s.issue { typ := tReadNoalloc, dst := d.ep, qual := c.2.2 - 1, form := c.2.1 } (.slot key) (.mover m) (some x.ctx) with
    | (s, .sent i) => s.setXfer m { x with reading := some { out := i, piece := k, side := c.1, va := c.2.1 } }
    | (s, .noSlot) => s.setXfer m x
    | (s, .noRoute) => s.xferError m j x c.1 stLinkDown c.2.1
    | (s, .noKey) => s.xferError m j x c.1 stKeyRetired c.2.1

/-- The first piece, counted from the next one, that has not been read. -/
def Xfer.unread (x : Xfer) : Nat := (x.ahead.takeWhile (·.read)).length

/-- What a piece's REMOTE reads brought, once they are complete, kept as read ahead. -/
def Xfer.takeGot (x : Xfer) (d : Desc) : Xfer :=
  let i := x.unread
  let p := d.piece (x.delivered + i)
  if x.reads < (d.remoteReads p).length ∨ x.reading.isSome then x
  else
    let (a, n) := d.srcSpan p
    let (b, k) := d.scaleSpan p
    let lo := ((readChunks (n + 1) a n).map fun c => 64 * c.2).sum
    let old := x.ahead.getD i { src := n, size := (d.dstSpan p).2 }
    let new := { old with read := true, data := (x.got.drop (a % 64)).take n, scales := ((x.got.drop lo).drop (b % 64)).take k, bad := x.gotBad }
    { x with ahead := x.ahead.take i ++ new :: x.ahead.drop (i + 1), reads := 0, got := [], gotBad := false }

/-- A REMOTE source goes on with the first piece not read; its transfer with what has come. -/
def State.fetchRemote (s : State) (m : Nat) (j : Job) (x : Xfer) (d : Desc) : State :=
  let k := x.delivered + x.unread
  if x.reading.isSome then s.setXfer m x
  else match (d.remoteReads (d.piece k))[x.reads]? with
    | some c => s.remoteReadStart m j x d k c
    | none => s.setXfer m x

/-- The data and scales of a piece read here; the side that stands in the way. -/
def State.pieceData (s : State) (m : Nat) (x : Xfer) (d : Desc) (p : Piece) : State × List Byte × List Byte × Bool × Nat × Access :=
  let (a, n) := d.srcSpan p
  let (b, k) := d.scaleSpan p
  match s.endRead m x.ctx d.srcKind a n with
    | (s, data, bad, .done) =>
      if d.mxIn then match s.endRead m x.ctx d.srcKind b k with
        | (s, sc, bad', .done) => (s, data, sc, bad || bad', 2, .done)
        | (s, _, _, acc) => (s, [], [], false, 2, acc)
      else (s, data, [], bad, 0, .done)
    | (s, _, _, acc) => (s, [], [], false, 0, acc)

/-- The next piece's bytes: read ahead (R256), or read now; one with a pending miss is walked again (R258). -/
def State.nextData (s : State) (m : Nat) (x : Xfer) (d : Desc) (p : Piece) : State × List Byte × List Byte × Bool × Nat × Access :=
  match x.ahead with
  | a :: _ => if a.read then (s, a.data, a.scales, a.bad, 0, .done) else s.pieceData m x d p
  | [] => s.pieceData m x d p

/-- REMOTE writes of the next piece issued, as many as the window and the slots let through (R261); the piece is delivered once all
are issued. -/
def State.remoteWrites (s : State) (m : Nat) (j : Job) (x : Xfer) (d : Desc) (k n : Nat) (poison : Bool) :
    List (Nat × Nat × List Byte) → State
  | [] => s.delivered m j x d n
  | c :: t =>
    if max 1 (s.actBits .mov m 0x040 7 0) ≤ x.flight.length then s.setXfer m x
    else match s.issue (remoteWrite d.ep c.2.1 c.2.2 poison) (.slot k) (.mover m) (some x.ctx) with
      | (s, .sent i) =>
        let w : Remote := { out := i, piece := x.delivered, side := c.1, va := c.2.1 }
        s.remoteWrites m j { x with flight := x.flight ++ [w], parts := x.parts + 1 } d k n poison t
      | (s, .noSlot) => s.setXfer m x
      | (s, .noRoute) => s.xferError m j x c.1 stLinkDown c.2.1
      | (s, .noKey) => s.xferError m j x c.1 stKeyRetired c.2.1

/-- The next piece put into its destination (R254). -/
def State.pieceOut (s : State) (m : Nat) (j : Job) (x : Xfer) (d : Desc) (p : Piece) (data scales : List Byte) (poison : Bool) : State :=
  let (a, n) := d.dstSpan p
  let (b, _) := d.scaleSpan p
  if d.dstKind = 4 then
    match s.remoteKey m x.ctx (d.localVa p) j with
    | (s, .inr acc) => s.blocked m j x 0 acc
    | (s, .inl k) =>
      let parts := (writeChunks (n + 1) a data).map (fun c => (1, c)) ++ (writeChunks (n + 1) b scales).map fun c => (2, c)
      s.remoteWrites m j x d k n poison (parts.drop x.parts)
  else if d.dstKind = 3 then
    if s.ringLost x.job d.dst then s.xferError m j x 1 stPermission 0
    else match if s.ringRoom x.job d.dst < n / 128 then none else s.pushElements x.job d.dst data poison (n / 128) with
      | some s => s.delivered m j x d n
      | none => s.destWait m j x
  else match s.endWrite m x.ctx d.dstKind a data poison with
    | (s, .done) =>
      if scales.isEmpty then s.delivered m j x d n
      else match s.endWrite m x.ctx d.dstKind b scales poison with
        | (s, .done) => s.delivered m j x d n
        | (s, .wait) => s.destWait m j x
        | (s, acc) => s.blocked m j x 2 acc
    | (s, .wait) => s.destWait m j x
    | (s, acc) => s.blocked m j x 1 acc

/-- A transfer whose descriptor is read goes on with its next piece. -/
def State.nextPiece (s : State) (m : Nat) (j : Job) (x : Xfer) : State :=
  let d := descOf x.desc x.trigger
  if d.pieces ≤ x.delivered then (if x.flight.isEmpty then s.finish m j x 0 else s)
  else
    let p := d.piece x.delivered
    let x := if d.srcKind = 4 then x.takeGot d else x
    if d.srcKind = 4 ∧ x.unread = 0 then s.fetchRemote m j x d
    else match s.nextData m x d p with
      | (s, data, scales, bad, _, .done) =>
        let seed := j.seed
        let (out, sc) := convertPiece seed x d p data scales
        s.pieceOut m j x d p out sc bad
      | (s, _, _, _, side, a) => s.blocked m j x side a

/-- VA of a job's descriptor table, if it has one. -/
def Job.descVa (j : Job) : Option Nat :=
  ((List.range (mSections j.manifest)).find? fun i => secKind (mSection j.manifest i) == 1).map fun i => secVa (mSection j.manifest i)

/-- The transfer starts, or goes on: trigger and descriptor are checked before the first piece. A poisoned trigger or descriptor
terminates the context (R153). -/
def State.runXfer (s : State) (m : Nat) (x : Xfer) : State :=
  match tblGet? s.jobs x.job with
  | none => s
  | some j =>
    match x.ending, x.error with
    | some st, _ => s.finish m j x st
    | none, some (side, st, va) => s.xferError m j x side st va
    | none, none =>
      if !x.desc.isEmpty then s.nextPiece m j x
      else if x.bad then s.poisonConsumed x.ctx 1 m 1
      else match if triggerOk j m x.trigger then j.descVa else none with
        | none => s.xferError m j x 0 stMalformed 0
        | some va =>
          match s.unitData m (moverTag m) x.ctx (va + 128 * trgDesc x.trigger) 128 with
          | (s, b, bad, .done) =>
            if bad then s.poisonConsumed x.ctx 1 m 1
            else if moverDescOk j m b (descOf b x.trigger) then
              let x := { x with desc := b }
              (s.setXfer m x).nextPiece m j x
            else s.xferError m j { x with desc := b } 0 stMalformed 0
          | (s, _, _, a) => s.blocked m j x 0 a

/-! ### Run-ahead (R256) -/

/-- RUNAHEAD_KIB of a transfer. -/
def State.runaheadKib (s : State) (m : Nat) (x : Xfer) : Nat :=
  if field x.desc 0x1C 4 = 0 then s.actBits .mov m 0x040 31 16 else field x.desc 0x1C 4

/-- Destination bytes that a mover's staging buffer holds: STREAM pieces stand in their ring's free slots instead. -/
def Mover.staged (v : Mover) : Nat :=
  ((v.xfers.filter fun x => (descOf x.desc x.trigger).dstKind != 3).map fun x => ((x.ahead.filter (·.read)).map (·.size)).sum).sum

/-- Room to read ahead piece `i` from the next one: in the ring at its own place, or in the 64 KiB of staging. -/
def State.aheadRoom (s : State) (m : Nat) (x : Xfer) (d : Desc) (i : Nat) : Bool :=
  if d.dstKind = 3 then ((x.ahead.take (i + 1)).map (·.size)).sum ≤ 128 * s.ringRoom x.job d.dst
  else (s.mover m).staged + ((x.ahead.drop i).take 1 |>.map (·.size)).sum ≤ 65536

/-- The lookaside entries under which a piece is read and will be written. -/
def State.aheadUses (s : State) (m : Nat) (x : Xfer) (d : Desc) (p : Piece) : List LkEntry :=
  let spans := (if d.srcKind = 0 then [d.srcSpan p] else []) ++ (if d.dstKind = 0 then [d.dstSpan p] else []) ++
    (if (d.mxIn && d.srcKind == 0) || (d.mxOut && d.dstKind == 0) then [d.scaleSpan p] else [])
  (s.mover m).lookaside.filter fun e => e.ctx == x.ctx && spans.any fun r => decide (e.va < r.1 + r.2 ∧ r.1 < e.va + e.size)

/-- The first and the last bead of a span translated; nothing of a walk that fails stays but its count. -/
def State.aheadSpan (s : State) (m ctx : Nat) (a : Nat × Nat) (typ : Nat) : State × Access :=
  if a.2 = 0 then (s, .done)
  else match s.unitTranslate m ctx (a.1 / 64 * 64) typ with
    | (t, .inl _) => (match t.unitTranslate m ctx ((a.1 + a.2 - 1) / 64 * 64) typ with
      | (u, .inl _) => (u, .done)
      | (_, .inr f) => (t, f))
    | (_, .inr f) => (s, f)

/-- A piece translated ahead, side by side: the failed translation of one is kept as its pending miss, with the walk counted. -/
def State.aheadSides (s : State) (m : Nat) (x : Xfer) (a : Ahead) : List (Nat × (Nat × Nat) × Nat) → State × Option Ahead
  | [] => (s, some a)
  | (side, span, typ) :: t =>
    match s.aheadSpan m x.ctx span typ with
    | (s, .done) => s.aheadSides m x a t
    | (s, .wait) => (s, none)
    | (s, .failed _ _ _) =>
      ((s.tally .mov m 0x42 0 1 (some x.ctx)).tally .mov m 0x43 0 1 (some x.ctx), some { a with miss := some side })

/-- The sides of a piece that lie in memory here: source, scales, destination. -/
def Desc.sides (d : Desc) (p : Piece) : List (Nat × (Nat × Nat) × Nat) :=
  (if d.srcKind = 0 then [(0, d.srcSpan p, tReadNoalloc)] else []) ++
    (if d.mxIn ∧ d.srcKind = 0 then [(2, d.scaleSpan p, tReadNoalloc)] else []) ++
    (if d.dstKind = 0 then [(1, d.dstSpan p, tWrite)] else []) ++
    (if d.mxOut ∧ d.dstKind = 0 then [(2, d.scaleSpan p, tWrite)] else [])

/-- Translation run-ahead: at most `n` pieces more, up to RUNAHEAD_KIB of source bytes. -/
def State.translateAhead (s : State) (m : Nat) (x : Xfer) (d : Desc) : (n : Nat) → State × Xfer
  | 0 => (s, x)
  | n + 1 =>
    let k := x.delivered + x.ahead.length
    let p := d.piece k
    let a : Ahead := { src := (d.srcSpan p).2, size := (d.dstSpan p).2 }
    if d.pieces ≤ k ∨ s.runaheadKib m x * 1024 < (x.ahead.map (·.src)).sum + a.src then (s, x)
    else match s.aheadSides m x a (d.sides p) with
      | (s, none) => (s, x)
      | (s, some a) => s.translateAhead m { x with ahead := x.ahead ++ [{ a with used := s.aheadUses m x d p }] } d n

/-- The first piece run ahead that is to be read: not read yet and its source translated. -/
def Xfer.toRead (x : Xfer) : Option Nat := x.ahead.findIdx? fun a => !a.read && (a.miss.isNone || a.miss == some 1)

/-- Data run-ahead: at most `n` pieces more, those beyond a pending miss too (Table 10.13). What cannot be reached stays for its turn:
nothing is raised. -/
def State.readAhead (s : State) (m : Nat) (x : Xfer) (d : Desc) : (n : Nat) → State
  | 0 => s.setXfer m x
  | n + 1 =>
    match x.toRead with
    | none => s.setXfer m x
    | some i =>
      let t := s.setXfer m x
      if !t.aheadRoom m x d i then t
      else match t.pieceData m x d (d.piece (x.delivered + i)) with
        | (u, data, scales, bad, _, .done) =>
          let old := x.ahead.getD i { src := 0, size := 0 }
          u.readAhead m { x with ahead := x.ahead.set i { old with read := true, data := data, scales := scales, bad := bad } } d n
        | _ => t

/-- The transfer of the turn runs ahead (R256), how far being a free value; of a REMOTE source one read at a time. -/
def State.runAhead (s : State) (m : Nat) : State :=
  match (s.mover m).candidate (s.mover m).turn with
  | none => s
  | some x =>
    let d := descOf x.desc x.trigger
    match tblGet? s.jobs x.job with
    | none => s
    | some j =>
      if x.desc.isEmpty || x.st != .ready || x.ending.isSome || x.error.isSome then s
      else
        let (n, s) := s.free
        let (s, x) := s.translateAhead m x d (n % 1025)
        let (n, s) := s.free
        if d.srcKind ≠ 4 then s.readAhead m x d (n % 1025)
        else
          let x := x.takeGot d
          if n % 2 = 1 ∧ x.unread < x.ahead.length ∧ s.aheadRoom m x d x.unread = true then s.fetchRemote m j x d else s.setXfer m x

/-- The mover works: clocked and not held on a full ring. -/
def State.moverReady (s : State) (m : Nat) : Bool := s.clocked .mov m && !s.moverHeld m

/-- PIECE_DELIVER: the transfer of the current turn goes on, and runs ahead (R256); a context whose quantum is spent gives up its turn to
another that waits, and so does one with nothing to run (R255). -/
def execPieceDeliver (m : Fin 64) (s : State) : Outcome :=
  onlyIf (s.moverReady m) s fun s =>
    let v := s.mover m
    match v.candidate v.turn with
    | some x =>
      if s.spent m && (v.nextTurn x.ctx).any (· != x.ctx) then s.yieldTurn m x else (s.runXfer m x).runAhead m
    | none => match v.nextTurn v.turn with
      | none => s
      | some c => match v.candidate c with
        | some x => ((s.setTurn m c).runXfer m x).runAhead m
        | none => s

/-- A completion of one of a mover's REMOTE requests (R254, R261). -/
def Xfer.answered (x : Xfer) (a : Answer) : Xfer :=
  if x.reading.any (·.out == a.out) then
    let w := x.reading.getD { out := 0, piece := 0, side := 0, va := 0 }
    let x := { x with reading := none }
    if a.status = stOk ∨ a.status = stPoison then
      { x with reads := x.reads + 1, got := x.got ++ a.data, gotBad := x.gotBad || a.poison || a.status == stPoison }
    else { x with error := some (w.side, a.status, w.va) }
  else match x.flight.find? fun f => f.out == a.out with
    | none => x
    | some f =>
      let left := x.flight.filter fun g => g.out != a.out
      let x := { x with flight := left }
      if a.status ≠ stOk then { x with error := some (f.side, a.status, f.va) }
      else if (left.any fun g => g.piece == f.piece) || x.delivered ≤ f.piece then x
      else { x with doneWrites := x.doneWrites + 1 }

/-- The same for mover `m`. -/
def State.moverAnswer (s : State) (m : Nat) (a : Answer) : State :=
  let v := s.mover m
  s.setMover m { v with xfers := v.xfers.map fun x => x.answered a }

/-! ### Triggers (R253) -/

/-- Trigger streams of a mover with an element to read: job and stream. -/
def State.triggerRings (s : State) (m : Nat) : List (Nat × Nat) :=
  s.jobs.flatMap fun j =>
    (idxs (mStreams j.2.manifest) fun i =>
      let e := mStream j.2.manifest i
      strCons e == 0xFD && strConsRod e == m % 2 && j.2.frameOf (strProd e) == m / 2 && j.2.launched &&
        (s.ctx j.2.ctx).st == .active && decide (0 < s.ringHeld j.1 i)).map fun i => (j.1, i)

/-- The stage of a trigger stream holds a free reserved entry on the mover. -/
def State.entryFree (s : State) (m : Nat) (t : Nat × Nat) : Bool :=
  match tblGet? s.jobs t.1 with
  | none => false
  | some j =>
    let st := strProd (mStream j.manifest t.2)
    ((s.mover m).xfers.filter fun x => x.job == t.1 && x.stage == st).length < stgTriggers (mStage j.manifest st)

/-- TRIGGER_READ: one trigger read off a ring, which of several being a free value; a ring whose stage has no free entry keeps it. -/
def execTriggerRead (m : Fin 64) (s : State) : Outcome :=
  onlyIf (s.moverReady m) s fun s =>
    let rings := s.triggerRings m
    let open_ := rings.filter fun t => s.entryFree m t
    if rings.isEmpty then s
    else if open_.isEmpty then s.raise .mov m 3
    else
      let (r, s) := s.free
      let t := open_.getD (r % open_.length) (0, 0)
      let n := (s.stream t.1 t.2).taken
      match tblGet? s.jobs t.1, s.popElement t.1 t.2 with
      | some j, (s, some (b, bad)) =>
        let v := s.mover m
        s.setMover m { v with xfers := v.xfers ++
          [{ job := t.1, ctx := j.ctx, stage := strProd (mStream j.manifest t.2), stream := t.2, number := n, trigger := b, bad := bad }] }
      | _, (s, none) => s
      | none, (s, _) => s

/-- MOVER_PREEMPT: the turn's quantum has been delivered, or a SCRATCH destination's rod has left its slice. -/
def execMoverPreempt (m : Fin 64) (s : State) : Outcome :=
  let v := s.mover m
  match v.candidate v.turn with
  | none => .next s
  | some x =>
    let d := descOf x.desc x.trigger
    let away := !x.desc.isEmpty && d.dstKind == 2 && !s.resident m x.ctx (d.piece x.delivered).dst && x.st != .preempted
    onlyIf (s.moverReady m && (away || s.spent m)) s fun s =>
      match tblGet? s.jobs x.job with
      | some j => if away ∧ v.nextTurn x.ctx = some x.ctx then s.preempt m j x none else s.yieldTurn m x
      | none => s

/-! ### MOV_RESUME and MOV_CANCEL (R260) -/

/-- The checks of MOV_RESUME and MOV_CANCEL: status, or the parked transfer. -/
def State.parkedOf (s : State) (v : InSlot) : Nat ⊕ (Nat × Job × Xfer) :=
  let b := v.pkt.own
  let m := field b 0 1
  let id := field b 2 2
  if (s.ctx v.ctx).st ≠ .active then .inl stContextGone
  else if !s.memberOrMgr v then .inl stPermission
  else if b.length ≠ 8 ∨ zeros b 1 1 = false ∨ zeros b 4 4 = false then .inl stMalformed
  else match tblGet? s.jobs id with
    | none => .inl stFnDisabled
    | some j =>
      if j.ctx ≠ v.ctx ∨ 64 ≤ m ∨ !(j.places.any fun p => p.1 == m / 2) then .inl stFnDisabled
      else match (s.mover m).xfers.find? fun x => x.job == id && s.parkedAt m x with
        | none => .inl stMalformed
        | some x => .inr (m, j, x)

/-- A position record matches the parked transfer and its descriptor (R260). -/
def Xfer.recordOk (x : Xfer) (d : Desc) (b : List Byte) : Bool :=
  field b 0 1 == 1 && field b 1 1 == 1 && (b.drop 8).take 32 == x.trigger.take 32 && field b 0x40 8 < d.pieces &&
    (List.range 5).all fun i => field b (0x28 + 4 * i) 4 == (d.ctr (field b 0x40 8)).getD i 0

/-- A resumed transfer goes behind the mover's other jobs' transfers, with those of its own job behind it. -/
def Mover.requeue (v : Mover) (x : Xfer) : Mover :=
  let mine := v.xfers.filter fun y => y.job == x.job
  { v with xfers := v.xfers.filter (fun y => y.job != x.job) ++
      mine.map fun y => if y.stream = x.stream ∧ y.number = x.number then x else y }

/-- MOV_RESUME acted on. -/
def State.actMovResume (s : State) (key : Nat) : State :=
  match s.slot? key with
  | none => s
  | some v => match s.parkedOf v with
    | .inl st => s.complete key st
    | .inr (m, j, x) =>
      match s.unitData m (moverTag m) x.ctx (j.posVa m) 128 with
      | (s, _, _, .wait) => s.complete key stBusy
      | (s, _, _, .failed st _ _) => s.complete key st
      | (s, b, bad, .done) =>
        if bad then (s.poisonConsumed x.ctx 1 m 1).complete key stContextGone
        else match s.unitData m (moverTag m) x.ctx (j.descVa.getD 0 + 128 * trgDesc x.trigger) 128 with
          | (s, _, _, .wait) => s.complete key stBusy
          | (s, _, _, .failed st miss va) => (s.blocked m j { x with st := .ready } 0 (.failed st miss va)).complete key stOk
          | (s, db, dbad, .done) =>
            let d := descOf db x.trigger
            if dbad then (s.poisonConsumed x.ctx 1 m 1).complete key stContextGone
            else if moverDescOk j m db d && x.recordOk d b then
              let y := { x with st := .ready, desc := db, delivered := field b 0x40 8, bytes := field b 0x48 8, doneWrites := field b 0x58 8 }
              (s.setMover m ((s.mover m).requeue y)).complete key stOk
            else (s.xferError m j { x with st := .ready, desc := if x.desc.isEmpty then db else x.desc } 0 stMalformed 0).complete key stOk

/-- MOV_RESUME. -/
def execMovResume (port : Fin 16) (p : Packet) (s : State) : Outcome := .next (s.arrive (ctxCmd 0xA8) port p State.actMovResume)

/-- MOV_CANCEL acted on. -/
def State.actMovCancel (s : State) (key : Nat) : State :=
  match s.slot? key with
  | none => s
  | some v => match s.parkedOf v with
    | .inl st => s.complete key st
    | .inr (m, j, x) => match s.writePos m j x 4 0 0 0 with
      | (s, true) => s.complete key stBusy
      | (s, false) => ((s.closeDst m j x).dropXfer m x).complete key stOk

/-- MOV_CANCEL. -/
def execMovCancel (port : Fin 16) (p : Packet) (s : State) : Outcome := .next (s.arrive (ctxCmd 0xA9) port p State.actMovCancel)

end Sys2Proof.Machine
end

