-- ==== Sys2Proof/Machine/Completion.lean ====
section
/-!
DEFINITION. How the module's own requests end (R357, R364, R411): their completion, its absence, their resend, the retirement of
their key; and the end of done records (R365).
-/

namespace Sys2Proof.Machine

/-- A journalled change starts (R433). -/
def State.startChange (s : State) (c : Change) : State :=
  match c with
  | .silent ep => s.startSilent ep
  | .slot key => match s.slot? key with
    | none => s.closeChange
    | some v =>
      if v.pkt.opcode = 0xA0 then s.startLoad key
      else if v.pkt.opcode = 0xA1 then s.startUnload key
      else s.startDeclare key

/-- A firmware request of the manager or standby has ended. -/
def State.managerAnswer (s : State) (kind target : Nat) (a : Answer) : State :=
  if kind = 0 then s.roleAnswer target a.status
  else if kind = 1 then s.epStateAnswer target a.req.dst a.status
  else if kind = 3 then
    let (s, ready) := s.mirrorAnswer a.out a.status
    ready.foldl State.startChange s
  else if kind = 4 then s.takeBackAnswer target a.status
  else if kind = 5 then s.homeAnswer target a.status
  else s

/-- A request has ended, with a completion or without one: its unit acts on the answer (R357). -/
def State.answer (s : State) (a : Answer) : State :=
  match a.what with
  | .snoop d bead _ => s.snoopAnswer d bead a.out a.status a.data a.poison
  | .mover m => s.moverAnswer m a
  | .partner _ op => if op = 0x90 then s.fwdAnswer a.out a.status else s.gatherAnswer a.out a.status a.data a.poison
  | .loader kind job => if kind = 0 then s.placeAnswer a job else if kind = 1 then s.removeAnswer a job else s.stepAnswer a job
  | .join => if a.status = stOk then { s with boot := { s.boot with joinDone := true } } else s
  | .manager kind target => s.managerAnswer kind target a
  | .unit _ _ => s

/-- An answer acted on, then the engines' waiting commands. -/
def State.answered (s : State) (a : Answer) : State := (s.answer a).engineRetry

/-- CMPL (R357). -/
def execCmpl (port : Fin 16) (p : Packet) (s : State) : Outcome := .next (s.arriveCmpl port p State.answered)

/-- JOB_PLACE_COMPLETE (R242): the completion of the loader's JOB_PLACE. -/
def execJobPlaceComplete (port : Fin 16) (p : Packet) (s : State) : Outcome :=
  let loads := match s.outMatch (p.ofType tCmpl) with
    | some (_, _, .loader 0 _) => true
    | _ => false
  onlyIf loads s fun s => s.arriveCmpl port p State.answered

/-! ### Requests that end without a completion -/

/-- What a request that ends with a status of the module's own brings its unit. -/
def ended (out : Nat) (req : Packet) (what : Purpose) (status : Nat) : Answer :=
  { out := out, req := req, what := what, status := status, data := [], poison := false }

/-- A request that completes to its unit with a status of the module's own; its slot enters the reuse guard. -/
def State.endRequest (s : State) (i : Nat) (req : Packet) (what : Purpose) (status : Nat) : State :=
  (s.guardOutSlot i).answered (ended i req what status)

/-- TXN_TIMEOUTS counted. -/
def State.timedOut (s : State) (i : Nat) (req : Packet) (what : Purpose) : State :=
  (s.bump 0x30830).endRequest i req what stTimeout

/-- OUTBOUND_TIMEOUT: no completion for CMPL_TIMEOUT_US. -/
def execOutboundTimeout (slot : Fin 16384) (s : State) : Outcome :=
  let o := s.outSlot slot
  match o.req with
  | none => .next s
  | some (req, what) => .next ((s.elapseTo (o.sentAt + us (s.actBits .txn 0 0x040 31 16))).timedOut slot req what)

/-- OUTBOUND_GUARD_END: the slot may be used again, under the next reuse count. -/
def execOutboundGuardEnd (slot : Fin 16384) (s : State) : Outcome :=
  match (s.outSlot slot).guard with
  | none => .next s
  | some t => .next ((s.elapseTo t).freeOutSlot slot)

/-- A request that R364 resends. -/
def retriedType (p : Packet) : Bool :=
  p.typ == tRead || p.typ == tReadNoalloc || p.typ == tWrite || p.typ == tWritePartial || p.typ == tAtomic || p.typ == tAttend ||
    (p.typ == tCmd && ((0x40 ≤ p.opcode && p.opcode ≤ 0x42) || p.critical))

/-- A request sent again with the same tag and RETRY = 1, sealed anew. -/
def State.resend (s : State) (i : Nat) (o : OutSlot) (req : Packet) (what : Purpose) : State :=
  let (s, p) := s.seal o.key false { req with qual := setBits req.qual 3 3 1 }
  let (s, port, _) := s.send p o.ctx true
  (s.setOut i { o with req := some (p, what), port := port, resends := o.resends + 1 }).bump 0x3082C

/-- E2E_RETRY (R364): RETRY_US after the last copy of a request that left on an Ethernet port it is resent; after RETRIES resends it
completes TIMEOUT. -/
def execE2eRetry (slot : Fin 16384) (s : State) : Outcome :=
  let o := s.outSlot slot
  match o.req with
  | none => .next s
  | some (req, what) =>
    if !(retriedType req && (o.port.map s.portEth).getD false) then .next s
    else
      let s := s.elapseTo (o.sentAt + (o.resends + 1) * us (s.actBits .txn 0 0x044 27 16))
      if s.actBits .txn 0 0x044 31 28 ≤ o.resends then .next (s.timedOut slot req what)
      else if !s.mayRequest o.key false then .next (s.endRequest slot req what stKeyRetired)
      else .next (s.resend slot o req what)

/-- KEY_RETIRE_DEADLINE (R411): the slot's dynamic references end, then it is zeroized: EMPTY without references, else DEAD. -/
def execKeyRetireDeadline (slot : Fin 1024) (s : State) : Outcome :=
  if (s.keySlot slot).st ≠ .retiring then .next s
  else
    let s := s.elapseTo (s.keySlot slot).deadline
    let (s, outs) := s.endKeyRefs slot
    let s := s.zeroize slot (if s.staticRefs slot = 0 then .empty else .dead)
    .next (outs.foldl (fun s o => s.answered (ended o.1 o.2.1 o.2.2 stKeyRetired)) s)

/-- DONE_RECORD_EXPIRE (R365). -/
def execDoneRecordExpire (src tag : Nat) (s : State) : Outcome :=
  match s.txn.records.find? fun d => d.src == src && d.tag == tag with
  | none => .next s
  | some d =>
    let s := s.elapseTo d.expires
    .next { s with txn := { s.txn with records := s.txn.records.erase d } }

/-! ### Beam headers (R151) -/

/-- What a unit does whose transfer's header was dropped: its request ends TIMEOUT (assumption 160). A mover's transfer ends as an
error, a rod's save or restore fails, a walk fails every request that waits for it, and any other unit's work is the request of an
inbound slot. -/
def State.headerLost (s : State) (unit key : Nat) : State :=
  let n := unit % 0x1000
  if unit / 0x1000 = 1 then
    match (s.mover n).candidate (s.mover n).turn with
    | none => s
    | some x => match tblGet? s.jobs x.job with
      | none => s
      | some j => s.xferError n j x 0 stTimeout 0
  else if unit / 0x1000 = 2 then
    (match (s.rod n).st with
    | .saving | .restoring => s.saveFail n
    | _ => s)
  else if unit / 0x1000 = 3 then
    match s.xlt.walks.find? fun w => w.slots.contains key with
    | none => s.force key stTimeout
    | some w => w.slots.foldl (fun s k => s.force k stTimeout)
        { s with xlt := { s.xlt with walks := s.xlt.walks.filter fun v => v != w } }
  else s.force key stTimeout

/-- BEAM_HDR_ERROR: the header is dropped, a BEAM_HDR record is posted and bit 4 of the ECC PAGE_EVENT set; the issuer's request
completes TIMEOUT. `unit` names the issuer as SOURCE of Table 5.11 does, and `src` and `tag` the request it works for. -/
def execBeamHdrError (unit src tag : Nat) (s : State) : Outcome :=
  let s := (s.postMgr { typ := 0x0026, cls := 1, source := unit, detail := detail [(0, leBytes 2 unit)] }).raise .ecc 0 4
  .next (s.headerLost unit (slotKey src tag))

end Sys2Proof.Machine
end

