-- ==== Sys2Proof/Machine/Status.lean ====
section
/-!
DEFINITION. PAGE_STATUS.IDLE of every page (R63) as its chapter states it, and the ledgers of Table 15.7 with their recounts
and quiet values (R366, R367).
-/
namespace Sys2Proof.Machine

/-! ### PAGE_STATUS.IDLE -/

/-- How many of the lowest `n` bits of a mask are set. -/
def ones (n m : Nat) : Nat := (idxs n fun i => bit m i).length

/-- A rod's state as its page shows it (Table 8.11). -/
def State.rodCode (s : State) (i : Nat) : Nat :=
  match (s.rod i).st with
  | .idle => 0
  | .running => 1
  | .toTileEnd => 2
  | .saving => 3
  | .zeroing => 4
  | .restoring => 5
  | .checking => 6
  | .quarantined => 7

/-- A rod in a state of 1 to 6. -/
def State.rodBusy (s : State) (i : Nat) : Bool := s.rodCode i != 0 && s.rodCode i != 7

/-- No request at a controller and no refresh forced. -/
def State.ctlIdle (s : State) (c : Nat) : Bool :=
  (s.ctlAt c).units.all fun u => u.2.empty && u.2.debt.all fun d => d.2 < 4

/-- No call of a function from an ATTEND in flight, and no move under way. -/
def State.kvsIdle (s : State) : Bool :=
  s.kvs.moves.isEmpty && s.fns.all fun f => (f.2.waiting ++ f.2.inPipe).all fun c => !c.attend

/-- Inbound slots that hold a translated memory request. -/
def State.extInflight (s : State) : Nat := (s.txn.slots.filter fun v => v.2.ext.isSome).length

/-- PAGE_STATUS.IDLE of a page. XLT, ECC, CHIP, BOOT, CLK and PWR have no rule of their own: idle with none of the work in
their state (assumption 62). -/
def State.idle (s : State) : PageKind → Nat → Bool
  | .txn, _ => s.txn.inUsed == 0 && s.txn.outUsed == 0 && s.txn.dbufUsed == 0
  | .lnk, p => (s.port p).st == .disabled || (s.port p).st == .down
  | .rtr, _ => (s.rtr.queues.all fun q => q.2.isEmpty) && (s.rtr.beam.all fun q => q.2.isEmpty) && s.rtr.held.all fun q => q.2.isEmpty
  | .nmc, n => s.ctlIdle n
  | .fmc, g => s.ctlIdle (4 + g)
  | .rod, i => !s.rodBusy i
  | .frm, f => (List.range 17).all fun k => !s.rodBusy (17 * f + k)
  | .mov, m => (s.mover m).xfers.isEmpty
  | .kvs, _ => s.kvsIdle
  | .dir, d => (s.slice d).lines.all (fun l => l.2.trans == .idle) && !(s.slice d).walking
  | .qos, _ => s.qos.hosts.all fun h => h.2.waiting.isEmpty
  | .sec, _ => s.ten.keys.all (fun k => k.2.st != .retiring) && s.ten.attests.isEmpty
  | .mgr, _ => s.mgr.takeback.isNone && s.txn.outs.all fun o =>
      (match o.2.req with | some (_, .manager 3 _) => false | _ => true)
  | .xlt, _ => s.xlt.walks.isEmpty && s.xlt.invals.isEmpty && s.extInflight == 0
  | .ecc, _ => s.ecc.held.isEmpty && s.ecc.gathers.isEmpty
  | .chip, _ => s.cc.commit.isNone && s.cc.floorWait.isNone
  | .clk, _ => s.clk.pending.isEmpty
  | .boot, _ => s.boot.state == 6 || s.boot.state == 7 || s.boot.state == 8
  | .pwr, _ => s.pwr.stepDue.isNone
  | .tly, _ => true

/-! ### Ledgers (Table 15.7) -/

/-- One ledger: its value, the recount from the block's own structures, and its quiet value. -/
structure Ledger where
  value : Nat
  recount : Nat
  quiet : Nat
deriving DecidableEq, Repr

/-- How many ledgers a page has. -/
def ledgerCount : PageKind → Nat
  | .txn => 6 | .lnk => 7 | .xlt => 1 | .dir => 1 | .sec => 1 | .mov => 2 | .frm => 3 | .kvs => 4
  | _ => 0

/-- Slots of a free-slot bitmap that are in use: the recount of NEAR_USED or FAR_USED of a context; a bitmap that cannot be
read is taken as counted. -/
def State.mapUsed (s : State) (far : Bool) (x : Nat × Profile) : Nat :=
  match s.kvMap x.1 x.2 far with
  | (_, m, .done) => x.2.slots far - ones (x.2.slots far) m
  | _ => tblGet (if far then s.kvs.farUsed else s.kvs.nearUsed) x.1 0

/-- KiB of rings, and 4 KiB units of live scratch, that the loaded jobs hold in a frame. -/
def State.ringKib (s : State) (f : Nat) : Nat := ((s.jobs.flatMap fun j => j.2.ringsIn f).map (·.2)).sum / 1024
def State.liveUnits (s : State) (f : Nat) : Nat :=
  (s.jobs.flatMap fun j => (j.2.stagesIn f).map fun i => stgLive (mStage j.2.manifest i)).sum

/-- Frame-buffer units of the valid entries of a frame. -/
def State.fbUnits (s : State) (f : Nat) : Nat := ((s.entries f).map fun n => wbits (s.entMemWord f n) 15 8).sum

/-- Sharer pointers of a slice. -/
def State.pointers (s : State) (d : Nat) : Nat :=
  ((s.slice d).lines.map fun l => (match l.2.sharers with | some x => x.length | none => 0)).sum

/-- A ledger whose recount is the structure it is read from. -/
def held (n quiet : Nat) : Ledger := { value := n, recount := n, quiet := quiet }

/-- The tracker's ledgers; `own` is the BALANCE_CHECK's own slot, which IN_SLOTS and QUOTA_HELD leave out (R367). -/
def State.txnLedger (s : State) (n : Nat) (own : Option Nat) : Ledger :=
  let mine := own.bind s.slot?
  let d := b2n mine.isSome
  let q := b2n ((mine.map fun v => v.port.isSome).getD false)
  if n = 0 then { value := s.txn.inUsed - d, recount := s.txn.slots.length - d, quiet := 0 }
  else if n = 1 then
    { value := s.txn.outUsed, recount := (s.txn.outs.filter fun o => o.2.req.isSome || o.2.guard.isSome).length, quiet := 0 }
  else if n = 2 then { value := s.txn.dbufUsed, recount := (s.txn.slots.map fun v => v.2.dbuf).sum, quiet := 0 }
  else if n = 3 then
    { value := s.txn.quotaHeld - q, recount := (s.txn.slots.filter fun v => v.2.port.isSome).length - q, quiet := 0 }
  else if n = 4 then held s.refusals 0
  else held s.txn.records.length ((s.txn.records.filter fun r => s.time < r.expires).length)

/-- Ledger `n` of a page. -/
def State.ledger (s : State) (k : PageKind) (i n : Nat) (own : Option Nat) : Ledger :=
  match k with
  | .txn => s.txnLedger n own
  | .lnk =>
    if n = 0 then held (s.port i).replay.length 0 else held (tblGet (s.port i).rx (n - 1) {}).units 0
  | .xlt => held s.extInflight 0
  | .dir => held (s.pointers i) (s.pointers i)
  | .sec => held ((List.range 1024).map s.keyRefs).sum ((List.range 1024).map s.staticRefs).sum
  | .mov =>
    if n = 0 then held (s.mover i).xfers.length 0
    else held (((s.mover i).xfers.map fun x => (x.ahead.map (·.size)).sum).sum / 1024) 0
  | .frm =>
    if n = 0 then held (s.fbUnits i) (s.fbUnits i)
    else if n = 1 then held (s.ringKib i) (s.ringKib i) else held (s.liveUnits i) (s.liveUnits i)
  | .kvs =>
    let sessions := tblCount s.kvs.sessions fun _ v => v.st != .free
    let calls := (s.kvs.sessions.map fun v => v.2.calls).sum
    let near := (s.kvs.nearUsed.map (·.2)).sum
    let far := (s.kvs.farUsed.map (·.2)).sum
    let nearMap := (s.kvs.profiles.map (s.mapUsed false)).sum
    let farMap := (s.kvs.profiles.map (s.mapUsed true)).sum
    if n = 0 then held sessions sessions
    else if n = 1 then held calls 0
    else if n = 2 then { value := near, recount := nearMap, quiet := nearMap }
    else { value := far, recount := farMap, quiet := farMap }
  | _ => held 0 0

/-- A ledger balances: value, recount and quiet value agree. -/
def Ledger.ok (l : Ledger) : Bool := l.value == l.recount && l.recount == l.quiet

/-- The cross equation of QUOTA_HELD (Table 15.7): IN_SLOTS minus the slots of the module's own units. -/
def State.crossOk (s : State) (own : Option Nat) : Bool :=
  (s.txnLedger 0 own).value == (s.txnLedger 3 own).value + (s.txn.slots.filter fun v => v.2.port.isNone).length

end Sys2Proof.Machine
end

