-- ==== Sys2Proof/Machine/Tally.lean ====
section
/-!
DEFINITION. Tallies (20_tallies.md): selections with their checks (R446–R448), snapshots (R445), TALLY_READ (R451, R452) and
the port bandwidth window (R453, R454).
-/
namespace Sys2Proof.Machine

/-! ### Events (Table 20.2) -/

/-- Which events a block type has, their QUAL ranges, and whether they can be scoped. -/
def eventRange (k : PageKind) (event qual : Nat) : Bool :=
  let lo := qual % 16
  let vc := qual % 8
  let portVc := !bit qual 3 && vc != 6
  match k with
  | .nmc | .fmc =>
    if event = 0x17 then qual ≤ 5
    else if event = 0x18 then qual ≤ 3
    else if event = 0x14 then k == .fmc && qual == 0
    else 0x10 ≤ event && event ≤ 0x16 && qual == 0
  | .rod => 0x20 ≤ event && event ≤ 0x27 && qual == 0
  | .frm => if event = 0x34 then qual ≤ 1 else 0x30 ≤ event && event ≤ 0x33 && qual == 0
  | .mov => if event = 0x41 then qual ≤ 4 else 0x40 ≤ event && event ≤ 0x43 && qual == 0
  | .kvs => if event = 0x52 then qual ≤ 1 else 0x50 ≤ event && event ≤ 0x53 && qual == 0
  | .lnk =>
    if event = 0x60 ∨ event = 0x61 then portVc && qual / 16 ≤ 2
    else if event = 0x62 then qual ≤ 1 else event == 0x63 && qual ≤ 5
  | .rtr => if 0x70 ≤ event ∧ event ≤ 0x77 then portVc else (event == 0x78 || event == 0x79) && qual == 0
  | .txn =>
    if event = 0x80 then qual ≤ 0x11
    else if event = 0x81 then knownType qual
    else if event = 0x82 then qual ≤ 5 else (event == 0x83 || event == 0x84) && qual == 0
  | .dir =>
    if event = 0x90 then !bit qual 2 && knownType (qual / 8) && qual % 4 ≤ 2
    else if event = 0x91 then qual ≤ 2
    else if event = 0x92 then qual ≤ 1 else (event == 0x93 || event == 0x94) && qual == 0
  | .qos =>
    if event = 0xA0 then lo ≤ 2
    else if event = 0xA1 ∨ event = 0xA2 then 4 ≤ lo
    else if event = 0xA3 then true else event == 0xA4 && qual == 0
  | .tly => if event = 0xB2 then qual == 0 else (event == 0xB0 || event == 0xB1) && qual ≤ 1
  | _ => false

/-- Events marked "Yes" in the Context column. -/
def scopable (event : Nat) : Bool :=
  (0x10 ≤ event && event ≤ 0x14) || event == 0x18 || (0x20 ≤ event && event ≤ 0x27) || (0x31 ≤ event && event ≤ 0x34) ||
    (0x40 ≤ event && event ≤ 0x43) || (0x50 ≤ event && event ≤ 0x53) || (0x70 ≤ event && event ≤ 0x73) ||
    (0x80 ≤ event && event ≤ 0x83) || (0x90 ≤ event && event ≤ 0x92) || event == 0xA0

/-- A selection word that a page takes (R448); EVENT = 0 counts nothing and cannot be scoped. -/
def selOk (k : PageKind) (w : Word) : Bool :=
  let e := wbits w 7 0
  (e == 0 || eventRange k e (wbits w 15 8)) && (!wbit w 31 || scopable e)

/-! ### The tally area (Table 20.1) -/

/-- The tally area of a page. -/
def State.tallyPage (s : State) (base : Nat) : TallyPage := tblGet s.tly.pages base {}
/-- The tally area of a page set. -/
def State.setTallyPage (s : State) (base : Nat) (t : TallyPage) : State :=
  { s with tly := { s.tly with pages := tblPut s.tly.pages base t } }

/-- A counter set to 0 with its OVF bit. -/
def TallyPage.restart (t : TallyPage) (n : Nat) : TallyPage := { t with val := tblDel t.val n, ovf := setBit t.ovf n false }

/-- A selection written (R446–R448): a change of SCOPE to 1, or of CONTEXT while it is 1, restarts the counter. -/
def State.writeSel (s : State) (k : PageKind) (base n : Nat) (w : Word) : State × Nat :=
  let w := w &&& 0x83FFFFFF
  if selOk k w then
    let t := s.tallyPage base
    let old := (tblGet? t.sel n).getD 0
    let bound := wbit w 31 && (!wbit old 31 || wbits old 25 16 != wbits w 25 16)
    let t := if bound then t.restart n else t
    (s.setTallyPage base { t with sel := tblPut t.sel n w }, stOk)
  else (s, stMalformed)

/-- Every counter of a page and OVF copied (R445). -/
def State.snapshot (s : State) (base : Nat) : State :=
  let t := s.tallyPage base
  s.setTallyPage base { t with snap := t.val, snapOvf := t.ovf }

/-- A register of the tally area as it reads, by offset. -/
def State.readTally (s : State) (base off : Nat) : Word :=
  let t := s.tallyPage base
  let n := (off - 0x410) / 16
  let v : Nat :=
    if off = 0x404 then t.ovf
    else if off = 0x408 then t.snapOvf
    else if off < 0x410 ∨ 0x610 ≤ off then 0
    else if off % 16 = 0 then ((tblGet? t.sel n).getD 0).toNat
    else if off % 16 = 4 then tblGet t.snap n 0 % 2 ^ 32
    else if off % 16 = 8 then tblGet t.snap n 0 / 2 ^ 32
    else 0
  BitVec.ofNat 32 v

/-- A write to the tally area, by offset. -/
def State.writeTally (s : State) (k : PageKind) (base off : Nat) (w : Word) : State × Nat :=
  if off = 0x400 then (if wbit w 0 then s.snapshot base else s, stOk)
  else if off = 0x404 then
    let t := s.tallyPage base
    (s.setTallyPage base { t with ovf := t.ovf - (t.ovf &&& w.toNat) }, stOk)
  else if 0x410 ≤ off ∧ off < 0x610 ∧ off % 16 = 0 then s.writeSel k base ((off - 0x410) / 16) w
  else (s, stOk)

/-! ### TALLY_READ (R451, R452) -/

/-- The 16 bytes that one entry of a TALLY_READ returns. -/
def State.tallyEntry (s : State) (ctx : Nat) (e : List Byte) : List Byte :=
  let base := field e 0 3
  let n := field e 3 1
  let none_ (st : Nat) : List Byte := byte st :: zeroBytes 15
  match (if base % 0x1000 = 0 then pageOf base else none) with
  | none => none_ stMalformed
  | some (k, i) =>
    if 31 < n then none_ stMalformed
    else
      let t := s.tallyPage base
      let sel := (tblGet? t.sel n).getD 0
      if !wbit sel 31 || wbits sel 25 16 != ctx then none_ stPermission
      else if !s.clocked k i then none_ stBusError
      else [byte stOk, byte (b2n (bit t.ovf n))] ++ leBytes 6 (tblGet t.val n 0) ++ leBytes 4 sel.toNat ++ zeroBytes 4

/-- An accepted TALLY_READ (R451). -/
def State.tallyRead (s : State) (key : Nat) : State :=
  match s.slot? key with
  | none => s
  | some v =>
    let b := v.pkt.own
    let n := field b 0 1
    let x := s.ctx v.ctx
    if !(s.isMember v.ctx v.src && x.st == .active && x.tallyRead) then s.complete key stPermission
    else if n = 0 ∨ 16 < n ∨ !zeros b 1 7 ∨ b.length ≠ 8 + 4 * n then s.complete key stMalformed
    else
      let data := (List.range n).flatMap fun i => s.tallyEntry v.ctx (b.drop (8 + 4 * i))
      (s.tally .tly 0 0xB2 0).complete key stOk data

/-- TALLY_READ: under a key slot of its context. -/
def execTallyRead (port : Fin 16) (p : Packet) (s : State) : Outcome :=
  .next (s.arrive (cmdRules 0xC5 fun _ p => p.sec.any fun x => x.keyId != 0) port p State.tallyRead)

/-! ### Port bandwidth (R453, R454) -/

/-- WINDOW_TICKS and the anchor. -/
def State.bwWindow (s : State) : Nat := (s.act .tly 0 0x040).toNat
def State.bwAnchor (s : State) : Nat := (s.act .tly 0 0x044).toNat + (s.act .tly 0 0x048).toNat * 2 ^ 32

/-- The first window end after a tick. -/
def State.bwEnd (s : State) (after : Nat) : Nat :=
  let a := s.bwAnchor
  let w := max s.bwWindow 1
  if after < a then a else a + ((after - a) / w + 1) * w

/-- BW_WINDOW_END: the bytes of every port are latched and TLY_BW_SEQ rises; a window that was not W ticks long sets IRREG.
After a swap that changed the setting the bytes up to here are dropped and counting starts again. -/
def execBwWindowEnd (s : State) : Outcome :=
  if !s.boot.started then .next s
  else
    let from_ := s.tly.endTick
    let e := s.bwEnd from_
    let s := s.elapseToTick e
    let t := { s.tly with now := [], disturbed := false, discard := false, endTick := s.tick.count }
    if s.tly.discard then .next { s with tly := t }
    else
      let irreg := s.tly.disturbed || e - from_ != s.bwWindow
      let s : State := { s with tly := { t with last := s.tly.now, seq := (s.tly.seq + 1) % 65536, irreg := irreg } }
      .next (if irreg then s.raise .tly 0 0 else s)

/-- A swap that changed WINDOW_TICKS or the anchor discards the bytes of the window in progress (R454). -/
def State.bwSwapped (s : State) (old : RegMap) : State :=
  if [0x040, 0x044, 0x048].any (fun o => cfgGet old (0x6000 + o) != s.act .tly 0 o) then
    { s with tly := { s.tly with now := [], discard := true, endTick := s.tick.count } }
  else s

/-- A block-specific register of the TLY page as it reads (Tables 20.8, 20.9). -/
def State.readTly (s : State) (off : Nat) : Word :=
  let v : Nat :=
    if off = 0x800 then b2n s.tly.irreg * 65536 + s.tly.seq % 65536
    else if 0x810 ≤ off ∧ off < 0x910 then
      let p := (off - 0x810) / 16
      let d := off % 16
      let n := tblGet s.tly.last (2 * p + b2n (8 ≤ d)) 0 % 2 ^ 48
      if d % 8 = 0 then n % 2 ^ 32 else if d % 8 = 4 then n / 2 ^ 32 else 0
    else 0
  BitVec.ofNat 32 v

end Sys2Proof.Machine
end

