-- ==== Sys2Proof/Machine/Swap.lean ====
section
/-!
DEFINITION. The swap that fires (R84–R88) with everything its chapters hang on it, and REG_SHADOW_SYNC's copy (R87).
-/
namespace Sys2Proof.Machine

/-- SWAP_FIRED raised in every page (R84). -/
def State.swapFired (s : State) : State := allPages.foldl (fun s p => s.raise p.1 p.2 31) s

/-- The new limits and floor of the throttle: the counts of R26 restart, and the step is decided again (R28, R31). -/
def State.pwrSwapped (s : State) : State :=
  State.decideStep { s with pwr := { s.pwr with aboveRun := 0, belowRun := 0 } }

/-- Requests held for a VC that is no longer throttled are released (R342). -/
def State.rtrSwapped (s : State) : State :=
  (List.range 16).foldl (fun s p =>
    (List.range 6).foldl (fun s c => if s.throttled p c then s else s.unhold p c (tblGet s.rtr.held (p * 8 + c) [])) s) s

/-- The context that the current entry of a frame names in a configuration set. -/
def State.curCtx (s : State) (f : Nat) : Option Nat := (s.frame f).cur.map fun n => s.entCtx f n

/-- The frame after a swap: a changed CHECK_DIV restarts the count of tile starts (R294), and a change of the context that the
current entry names starts a switch (R189). -/
def State.frmSwapped (s : State) (was : State) (f : Nat) : State :=
  let s := if s.checkDiv f ≠ was.checkDiv f then s.setFrame f { s.frame f with tiles := 0 } else s
  let now := (s.currentAt f s.tick.count).map fun n => s.entCtx f n
  if s.clocked .frm f then
    (if now ≠ was.curCtx f then s.startSwitch f else s.setFrame f { s.frame f with cur := s.currentAt f s.tick.count })
  else s

/-- Everything a swap does in the blocks, from the new active set on; `was` is the state before it. -/
def State.swapEffects (s : State) (was : State) : State :=
  let s := s.pwrSwapped
  let s := s.lnkSwapped was.active
  let s := s.rtrSwapped
  let s := s.qosSwapped was.active
  let s := s.bwSwapped was.active
  let s := (List.range 32).foldl (fun s f => s.frmSwapped was f) s
  s.deriveCtrl.loaderClear

/-- The swap of `id` at `tick`. -/
def State.fireSwap (s : State) (id tick : Nat) : State := ((s.exchange id tick).swapFired).swapEffects s

/-- SWAP_FIRE: event 2 of R75, at the armed tick. -/
def execSwapFire (s : State) : Outcome :=
  match s.cc.swap with
  | none => .next s
  | some (id, t) => onlyIf (!s.dueBefore t 6) s fun s => (s.elapseToTick t).fireSwap id (s.elapseToTick t).tick.count

/-- Every active register copied into its shadow (R87). -/
def State.shadowSync (s : State) : State := { s with shadow := s.active }

/-- Every shadow register of a page equals its active mirror (Table 4.5). -/
def State.synced (s : State) (base : Nat) : Bool :=
  (List.range 112).all fun n => cfgGet s.shadow (base + 0x40 + 4 * n) == cfgGet s.active (base + 0x40 + 4 * n)

end Sys2Proof.Machine
end

