-- ==== Sys2Proof/Machine/Balance.lean ====
section
/-!
DEFINITION. BALANCE_CHECK (R366, R367): the audit of every ledger, page by page in order of base.
-/
namespace Sys2Proof.Machine

/-- The pages of Table 15.7 in order of base. -/
def balancePages : List Nat := (allPages.filter fun p => 0 < ledgerCount p.1).map fun p => pageBase p.1 p.2

/-- A BALANCE_CHECK's record set. -/
def State.setBalance (s : State) (b : Option Balance) : State := { s with txn := { s.txn with balance := b } }

/-- IDLE of a page for the audit: for TXN the command's own slot is left out (R367). -/
def State.idleFor (s : State) (b : Balance) (k : PageKind) (i : Nat) : Bool :=
  match k with
  | .txn => s.txn.inUsed - b2n (s.slot? b.slot).isSome == 0 && s.txn.outUsed == 0 && s.txn.dbufUsed == 0
  | k => s.idle k i

/-- The 32 bytes of Table 15.8. -/
def Balance.data (b : Balance) : List Byte :=
  let (page, index, value, recount, quiet) := b.first.getD (0, 0, 0, 0, 0)
  leBytes 2 b.checked ++ leBytes 2 b.notIdle ++ leBytes 2 b.failed ++ leBytes 2 b.gated ++ leBytes 4 page ++ [byte index] ++
    zeroBytes 3 ++ leBytes 4 value ++ leBytes 4 recount ++ leBytes 4 quiet ++ zeroBytes 4

/-- Gated pages at the head of the list are skipped at once and counted; then the next page is held if it is idle, else waited
for; with no page left the command completes (R367). -/
def State.nextPage (s : State) (b : Balance) : (pages : List Nat) → State
  | [] =>
    let s := s.setBalance none
    let s : State := { s with txn := { s.txn with balFailed := b.failed } }
    s.complete b.slot stOk b.data
  | p :: t =>
    match pageOf p with
    | none => s.nextPage b t
    | some (k, i) =>
      if s.clocked k i then
        s.setBalance (some { b with pages := p :: t, since := s.time, held := s.idleFor b k i })
      else s.nextPage { b with gated := b.gated + 1 } t

/-- LEDGER_MISMATCH (Table 15.9): a ledger that differs, or breaks its cross equation. -/
def State.mismatch (s : State) (base n : Nat) (l : Ledger) : State :=
  (s.raise .txn 0 2).postMgr { typ := 0x0080, cls := 1, source := 0x4000, detail := detail [(0, leBytes 4 base), (4, [byte n]),
    (8, leBytes 4 l.value), (12, leBytes 4 l.recount), (16, leBytes 4 l.quiet)] }

/-- One ledger of a held page recounted. -/
def State.auditLedger (s : State) (b : Balance) (k : PageKind) (i base n : Nat) : State × Balance :=
  let l := s.ledger k i n (some b.slot)
  let b := { b with checked := b.checked + 1 }
  if l.ok && (k != .txn || n != 3 || s.crossOk (some b.slot)) then (s, b)
  else (s.mismatch base n l,
    { b with failed := b.failed + 1, first := b.first.or (some (base, n, l.value, l.recount, l.quiet)) })

/-- Every ledger of a held page recounted. -/
def State.auditPage (s : State) (b : Balance) (k : PageKind) (i base : Nat) : State × Balance :=
  (List.range (ledgerCount k)).foldl (fun (a : State × Balance) n => a.1.auditLedger a.2 k i base n) (s, b)

/-- An accepted BALANCE_CHECK: one at a time (R367). -/
def State.actBalance (s : State) (key : Nat) : State :=
  match s.slot? key with
  | none => s
  | some v =>
    let b := v.pkt.own
    if b.length ≠ 8 ∨ zeros b 4 4 = false ∨ v.pkt.context ≠ 0 then s.complete key stMalformed
    else if s.txn.balance.isSome then s.complete key stBusy
    else s.nextPage { slot := key, waitNs := us (field b 0 4), pages := [], since := s.time } balancePages

/-- BALANCE_CHECK. -/
def execBalanceCheck (port : Fin 16) (p : Packet) (s : State) : Outcome := .next (s.arrive (mgrCmd 0xC0) port p State.actBalance)

/-- The page a running BALANCE_CHECK waits for has become idle: it is held for the audit. -/
def State.holdPage (s : State) (b : Balance) (base : Nat) : Option Balance :=
  match pageOf base with
  | some (k, i) => if b.held || s.idleFor b k i then some { b with held := true } else none
  | none => none

/-- BALANCE_WAIT_EXPIRY: a page not idle within WAIT_US is skipped. -/
def execBalanceWaitExpiry (s : State) : Outcome :=
  match s.txn.balance with
  | none => .next s
  | some b => onlyIf (!b.held) s fun s =>
      match b.pages with
      | [] => s.nextPage b []
      | p :: t =>
        let s := s.elapseTo (b.since + b.waitNs)
        match s.holdPage b p with
        | some b => s.setBalance (some b)
        | none => s.nextPage { b with notIdle := b.notIdle + 1 } t

/-- BALANCE_PAGE_AUDIT_DONE: the page is idle, or was when it was taken; its ledgers are recounted and the block is released. -/
def execBalancePageAuditDone (s : State) : Outcome :=
  match s.txn.balance with
  | none => .next s
  | some b => match b.pages with
    | [] => .next (s.nextPage b [])
    | p :: t => match s.holdPage b p, pageOf p with
      | some b, some (k, i) =>
        let (s, b) := s.auditPage b k i p
        .next (s.nextPage { b with held := false } t)
      | _, _ => .next s

end Sys2Proof.Machine
end

