-- ==== Sys2Proof/Machine/Checking.lean ====
section
/-!
DEFINITION. A sampled check that differs, and the vote of a third rod (R298, R299).
-/

namespace Sys2Proof.Machine

/-- The undo log written back, newest line first (R298, step 2). -/
def Rod.undo (r : Rod) (log : List (Nat × List Byte × Bool)) : Rod := log.foldl (fun r u => r.write (64 * u.1) u.2.1 u.2.2) r

/-- A third rod for a vote on logical rod `k`: an idle or halted rod of the frame, if there is one. -/
def State.thirdRod (s : State) (f k : Nat) : Option Nat :=
  (List.range 16).find? fun l =>
    let i := s.physRod f l
    l != k && s.clocked .rod i && ((s.rod i).st == .idle || ((s.rod i).st == .running && (s.rod i).regs.halted))

/-- R stands at its TILE_END, where registers are compared. -/
def State.atTileEnd (s : State) (i : Nat) : Bool := (s.rod i).word / 2 ^ 56 == 0x70

/-- CHECK_MISMATCH: a comparison of the check under way differs: at the next write that S has to produce, or at TILE_END. The
signatures of both executions up to there, which only the hardware has, are the row's. The writes held are dropped, R goes back to its
tile start with the writes already performed noted, and a third rod is sought (R298, steps 1 to 3). -/
def execCheckMismatch (f : Fin 32) (sigR sigS : Nat) (s : State) : Outcome :=
  match (s.frame f).check with
  | none => .next s
  | some k =>
    let i := s.physRod f k.logical
    onlyIf (k.phase == 1 && sigR != sigS && (decide (k.produced < k.made) || s.atTileEnd i)) s fun s =>
      let r := (s.rod i).undo k.undo
      let s := s.setRod i { r with regs := k.snapshot, wait := none, skip := k.performed, writes := 0, replay := k.heard }
      let s := s.setCheck f (some { k with
        phase := 3, held := [], undo := [], lag := [], sigR := sigR, sigS := sigS
        target := if k.produced < k.made then some (k.produced + 1) else none })
      match s.thirdRod f k.logical with
      | none => s
      | some x =>
        let p := s.position f x
        let s := s.takeThird f p
        let t := s.rod (17 * f + p)
        if t.st = .idle then s.loadThird f p else s.setRod (17 * f + p) { t with st := .saving }

/-- CHECK_VOTE (Table 12.5). -/
def State.postVote (s : State) (f k outcome posR posX : Nat) : State :=
  let s := s.bump (pageBase .frm f + 0x824)
  let s := s.raise .frm f 5
  s.postMgr { typ := 0x0060, cls := 1, source := 0x4000 + f,
              detail := detail [(0, leBytes 2 f), (2, [byte k]), (3, [byte outcome]), (4, [byte posR]), (5, [byte posX])] }

/-- Logical rod `k` has its tile to run again in its context's next slice, or on the spare. -/
def State.keepRedo (s : State) (f k : Nat) (r : Rod) : State :=
  s.setFrame f { s.frame f with
    redo := { logical := k, ctx := r.ctx, skip := r.skip, poison := r.poisonTile, replay := r.replay } :: (s.frame f).redo }

/-- What a vote's outcome does to R and the spare (Table 12.3): a rod that loses is quarantined, R by a stand-in of cause 1 from its
tile-start state, which it saves. -/
def State.voted (s : State) (f k posR : Nat) (snapshot : RodRegs) (outcome : Nat) : State :=
  let i := 17 * f + posR
  let r := s.rod i
  if outcome = 0 then
    let s := s.bumpHalf (pageBase .rod i + 0x80C) 31 16
    let s := (s.raise .rod i 2).keepRedo f k r
    (s.setFrame f { s.frame f with request := some (k, 1) }).setRod i { r with st := .saving }
  else if outcome = 1 then (s.setRod (17 * f + 16) { st := .quarantined }).raise .rod (17 * f + 16) 3
  else
    let s := s.setRod i { r with poisonTile := true }
    let s := s.bump (pageBase .frm f + 0x828)
    let s := s.raise .frm f 6
    match r.job with
    | none => s
    | some (j, st, n) =>
      s.postCtx r.ctx { typ := 0x0061, cls := 1, source := 0x4000,
                        detail := detail [(0, leBytes 2 j), (2, [byte st]), (3, [byte n]), (8, leBytes 8 snapshot.step)] }

/-- A slice switch that waited for a vote reaches the frame's rods: logical rod `k` switches from its tile-start state, its tile to run
again in its context's next slice (R298). -/
def State.afterVote (s : State) (f k : Nat) : State :=
  if (s.frame f).heldSwitch then
    let s := s.setFrame f { s.frame f with heldSwitch := false }
    let i := s.physRod f k
    let r := s.rod i
    let s := if r.st = .running then
        (s.keepRedo f k r).setRod i { r with st := .saving, incoming := (s.frame f).cur, switching := true, switchAt := s.time }
      else s
    s.switchAll f
  else s

/-- VOTE_DONE: the third rod has run the tile as far as the vote compares; the three signatures are compared (R298, step 5; Table 12.3):
0 R lost, 1 the spare lost, 2 no majority. -/
def execVoteDone (f : Fin 32) (s : State) : Outcome :=
  match (s.frame f).check with
  | none => .next s
  | some k =>
    match k.third with
    | none => .next s
    | some x =>
      onlyIf (k.phase == 3 && k.thirdDone && (s.rod (17 * f + x)).st == .checking) s fun s =>
        let sigX := sigWord k.thirdSig
        let outcome := if sigX = k.sigS then 0 else if sigX = k.sigR then 1 else 2
        let posR := s.position f k.logical
        let s := s.postVote f k.logical outcome posR x
        let s := ((s.returnThird f x).setCheck f none).freeSpare f
        (s.voted f k.logical posR k.snapshot outcome).afterVote f k.logical

end Sys2Proof.Machine
end

