-- ==== Sys2Proof/Machine/RegRead.lean ====
section
/-!
DEFINITION. What every register of the window reads as (R76–R83 and the register tables of every chapter), page by page, with
the reads that sample other registers or clear the one read.
-/
namespace Sys2Proof.Machine

/-! ### The common layout (Tables 4.3–4.9) -/

/-- Low and high half of a 64-bit value. -/
def loHalf (n : Nat) : Nat := n % 2 ^ 32
def hiHalf (n : Nat) : Nat := n / 2 ^ 32 % 2 ^ 32

/-- PAGE_STATUS. -/
def State.pageStatus (s : State) (k : PageKind) (i : Nat) : Nat :=
  let b := pageBase k i
  b2n ((s.reg (b + 8) &&& ~~~ s.reg (b + 0xC)) != 0) * 8 + b2n (s.synced b) * 4 + b2n s.cc.swap.isSome * 2 + b2n (s.idle k i)

/-- PAGE_LEDGER_SEL and PAGE_LEDGER_VAL. -/
def State.ledgerSel (s : State) (k : PageKind) (i : Nat) : Nat := wbits (s.reg (pageBase k i + 0x10)) 7 0
def State.ledgerValid (s : State) (k : PageKind) (i : Nat) : Bool := s.ledgerSel k i < ledgerCount k
def State.ledgerVal (s : State) (k : PageKind) (i : Nat) : Nat :=
  if s.ledgerValid k i then (s.ledger k i (s.ledgerSel k i) none).value else 0

/-- The swap area. -/
def State.swapArea (s : State) (off : Nat) : Nat :=
  let t := match s.cc.swap with | some (_, t) => t | none => 0
  if off = 0x3C0 then loHalf t
  else if off = 0x3C4 then hiHalf t
  else if off = 0x3C8 then s.cc.swapCount * 65536 + b2n s.cc.swap.isSome
  else if off = 0x3CC then (match s.cc.swap with | some (i, _) => i | none => s.cc.swapId)
  else if off = 0x3D0 then loHalf s.cc.lastTick
  else if off = 0x3D4 then hiHalf s.cc.lastTick
  else 0

/-! ### CHIP (Tables 4.10–4.12b) -/

/-- Frames in compute service. -/
def State.frames' (s : State) : Nat := ones 32 s.boot.frameOk

/-- Near stacks, and far groups, that CHIP_SIZES counts (R58, R368). -/
def State.nearStacks (s : State) : Nat := (idxs 4 s.winOk).length
def State.farGroups (s : State) : Nat := (idxs 8 fun g => s.winOk (4 + g)).length

/-- CHIP_SIZES (Table 4.11, R58): set at the end of the boot, 0 before and in RECOVERY, which a boot enters before it can set
them (assumption 81). -/
def State.sizes (s : State) (off : Nat) : Nat :=
  if s.boot.state < 6 ∨ s.boot.state = 7 then 0
  else if off = 0x800 then 16 * s.frames' * 65536 + s.frames' * 256 + 16
  else if off = 0x804 then
    ones 16 s.boot.portOk * 2 ^ 24 + s.nearStacks * 2 ^ 20 + s.farGroups * 2 ^ 16 + 2 * s.frames' * 256 + ones 8 s.boot.dirOk
  else if off = 0x808 then 1024 * 65536 + 1024
  else if off = 0x80C then 65536
  else if off = 0x810 then 16384
  else if off = 0x814 then 512 * 65536 + 8192
  else if off = 0x818 then 2275 * s.farGroups * 65536 + 360 * s.nearStacks
  else 16 * 65536 + 640

/-- A block-specific register of the CHIP page. CC_PERM, CC_STATE and CC_LAST read 0 of a slot that RESTORE has not yet given
anything (Table 4.12a). -/
def State.readChip (s : State) (off : Nat) : Nat :=
  let v := tblGet s.cc.issuers (s.regBits 0x820 2 0) {}
  if off = 0x020 then idrev
  else if off = 0x024 then loHalf Config.serial.toNat
  else if off = 0x028 then hiHalf Config.serial.toNat
  else if 0x800 ≤ off ∧ off < 0x820 then s.sizes off
  else if off = 0x820 then s.regBits 0x820 2 0
  else if off = 0x824 then v.perm % 256 * 256 + v.st % 4
  else if off = 0x828 then loHalf v.last
  else if off = 0x82C then hiHalf v.last
  else if off = 0x830 then stick32 s.cc.authFails
  else if off = 0x834 then s.cc.commitState % 4
  else if 0x838 ≤ off ∧ off < 0x848 then s.boot.nonce / 2 ^ (8 * (off - 0x838)) % 2 ^ 32
  else 0

/-! ### PWR, BOOT and CLK (Tables 1.15–1.20, 2.8–2.18, 3.5–3.13) -/

/-- PIN_AVG_DW: the mean of the samples held. -/
def State.pinAvg (s : State) : Nat := s.pwr.samples.sum / max 1 s.pwr.samples.length

/-- A block-specific register of the PWR page. -/
def State.readPwr (s : State) (off : Nat) : Nat :=
  if off = 0x800 then s.pwrStatusWord
  else if off = 0x804 then s.pwr.vinMv % 65536 * 65536 + s.pwr.pinDw % 65536
  else if off = 0x808 then s.pwr.pinMax % 65536 * 65536 + s.pinAvg % 65536
  else if off = 0x80C then s.pwrTempsWord
  else if off = 0x810 then s.pwrStrapsWord
  else if off = 0x814 then s.regBits pwrCause 7 0
  else 0

/-- A block-specific register of the BOOT page. -/
def State.readBoot (s : State) (off : Nat) : Nat :=
  let b := s.boot
  let floor := (s.issuer (s.regBits 0x1828 2 0)).floor
  if off = 0x800 then s.bootStatusWord
  else if off = 0x804 then s.healthA
  else if off = 0x808 then s.healthB
  else if off = 0x80C then b.frameOk
  else if off = 0x810 then b.spareInUse
  else if off = 0x814 then b.stFail
  else if off = 0x818 then
    b.keyIndex % 4 * 2 ^ 24 + s.fuses % 256 * 65536 + b.imageSvn % 256 * 256 + b2n b.otherValid * 2 + b.slot % 2
  else if off = 0x81C then b.skipped % 65536 * 65536 + b.source % 4
  else if off = 0x820 then loHalf b.restoreSeq
  else if off = 0x824 then hiHalf b.restoreSeq
  else if off = 0x828 then s.regBits 0x1828 2 0
  else if off = 0x82C then loHalf floor
  else if off = 0x830 then hiHalf floor
  else 0

/-- A block-specific register of the CLK page. -/
def State.readClk (s : State) (off : Nat) : Nat :=
  let c := s.clk
  if off = 0x800 then
    b2n c.tickRefPresent * 2 ^ 17 + b2n s.tick.locked * 2 ^ 16 + s.regBits 0x2800 14 8 * 256 + b2n c.xoPresent * 128 +
      c.pllLocked % 128
  else if off = 0x804 then maskOf 6 (fun d => (tblGet? c.pending d).isSome) * 65536 + c.sel % 64
  else if off = 0x808 then c.enBlk
  else if off = 0x80C then c.enPort
  else if off = 0x810 then c.enFrm
  else if off = 0x814 then s.regBits 0x2814 4 0
  else if off = 0x818 then s.rodEn (s.regBits 0x2814 4 0)
  else if off = 0x81C then loHalf s.tick.count
  else if off = 0x820 then hiHalf s.tick.count
  else if off = 0x824 then unsigned 32 s.tick.offset
  else 0

/-! ### SEC and MGR (Tables 18.12–18.15, 19.12, 19.13) -/

/-- Codes of Tables 18.13 and 18.14. -/
def KeyState.code : KeyState → Nat
  | .empty => 0 | .armed => 1 | .active => 2 | .retiring => 3 | .dead => 4
def CtxState.code : CtxState → Nat
  | .free => 0 | .active => 1 | .quiescing => 2 | .removing => 3

/-- Contexts not FREE, context 0 included. -/
def State.contextsUsed (s : State) : Nat := (idxs 1024 fun c => (s.ctx c).st != .free).length

/-- Slots a context holds, not EMPTY. -/
def State.keysOf (s : State) (c : Nat) : Nat := (s.ten.keys.filter fun k => k.2.st != .empty && k.2.owner == c).length

/-- The higher transmit counter of a key slot. -/
def KeySlot.txHigh (k : KeySlot) : Nat := max k.tx0 k.tx1

/-- A block-specific register of the SEC page. -/
def State.readSec (s : State) (off : Nat) : Nat :=
  let n := s.regBits 0x4804 9 0
  let k := s.keySlot n
  let c := s.regBits 0x481C 9 0
  let x := s.ctx c
  if off = 0x800 then
    s.contextsUsed * 2 ^ 19 + (s.ten.keys.filter fun k => k.2.st != .empty).length * 256 + s.ten.attests.length * 8 +
      b2n (s.ctx 0).tk.isSome * 4 + b2n s.ten.debugUnlocked
  else if off = 0x804 then n
  else if off = 0x808 then k.kgen % 65536 * 65536 + k.st.code * 8192 + b2n k.exhausted * 4096 + k.owner % 1024
  else if off = 0x80C then (if k.st = .empty ∨ k.st = .dead then 0 else k.keyId)
  else if off = 0x810 then s.keyRefs n
  else if off = 0x814 then loHalf k.txHigh
  else if off = 0x818 then hiHalf k.txHigh
  else if off = 0x81C then c
  else if off = 0x820 then
    s.keysOf c * 2 ^ 17 + x.members.length * 256 + x.cause % 8 * 32 + b2n x.tallyRead * 16 + b2n x.tk.isSome * 8 + x.st.code
  else if off = 0x824 then (s.txn.slots.filter fun v => v.2.ctx == c).length
  else if off = 0x83C then s.ten.windows.length
  else (s.reg (0x4000 + off)).toNat

/-- HEAD_SEQ of the local copy. -/
def State.headSeq (s : State) : Nat := field s.jrnlHead 0x10 8

/-- T_B of an armed takeback. -/
def State.takebackTick (s : State) : Nat := match s.mgr.takeback with | some (_, t) => t | none => 0

/-- A block-specific register of the MGR page. -/
def State.readMgr (s : State) (off : Nat) : Nat :=
  let m := s.mgr
  if off = 0x800 then
    m.role % 4 * 2 ^ 30 + b2n m.mirrorOk * 2 ^ 29 + b2n (s.copyState == 2) * 2 ^ 28 + b2n m.takeback.isSome * 2 ^ 27 + m.ep.getD 0 % 4096
  else if off = 0x804 then m.gen
  else if off = 0x808 then (if m.role = 2 then 0 else stick32 ((s.time - s.tick.lastAnn) / 1000))
  else if off = 0x814 then loHalf s.headSeq
  else if off = 0x818 then hiHalf s.headSeq
  else if off = 0x81C then loHalf s.takebackTick
  else if off = 0x820 then hiHalf s.takebackTick
  else if off = 0x824 then min m.takeovers 0xFFFF * 65536 + min m.takebacks 0xFFFF
  else if off = 0x828 then stick32 m.declared
  else (s.reg (0x5000 + off)).toNat

/-! ### TXN, DIR and XLT (Tables 15.13–15.16, 16.11–16.14, 5.16–5.22) -/

/-- A block-specific register of the TXN page. -/
def State.readTxn (s : State) (off : Nat) : Nat :=
  let x := s.source (s.regBits 0x30808 11 0)
  if off = 0x800 then s.txn.outUsed * 2 ^ 17 + s.txn.inUsed
  else if off = 0x804 then s.txn.records.length * 2 ^ 17 + s.txn.dbufUsed
  else if off = 0x808 then s.regBits 0x30808 11 0
  else if off = 0x80C then b2n x.block * 65536 + x.limit % 65536
  else if off = 0x810 then min x.count 0xFFFF
  else if off = 0x814 then s.loadBase
  else if off = 0x834 then s.txn.balFailed % 65536 * 65536 + b2n s.txn.balance.isSome
  else (s.reg (0x30000 + off)).toNat

/-- A block-specific register of DIR page `d` (Tables 16.11–16.14). -/
def State.readDir (s : State) (d off : Nat) : Nat :=
  let v := s.slice d
  let w := s.regBits (pageBase .dir d + 0x814) 6 0
  if off = 0x800 then v.dead.length * 65536 + b2n (bit s.boot.fmcOk d) * 4 + b2n v.walkPending * 2 + b2n v.walking
  else if off = 0x804 then v.cache.length
  else if off = 0x808 then (v.lines.filter fun l => l.2.trans != .idle).length
  else if off = 0x80C then (v.lines.filter fun l => l.2.st == 1 && l.2.sharers.isSome).length
  else if off = 0x810 then (v.lines.filter fun l => l.2.st == 2 && l.2.owner.isSome).length
  else if off = 0x814 then w
  else if off = 0x818 then maskOf 32 fun i => v.dead.contains (32 * w + i)
  else (s.reg (pageBase .dir d + off)).toNat

/-- Codes of Table 5.17. -/
def ExtState.code : ExtState → Nat
  | .free => 0 | .active => 1 | .draining => 2 | .zeroing => 3

/-- A block-specific register of the XLT page. -/
def State.readXlt (s : State) (off : Nat) : Nat :=
  let id := s.regBits 0x50800 13 0
  let e := s.extent id
  if off = 0x800 then id
  else if off = 0x804 then e.gen % 65536 * 65536 + e.st.code * 1024 + e.owner % 1024
  else if off = 0x808 then e.base2m % 2 ^ 27
  else if off = 0x80C then e.kind % 4 * 2 ^ 27 + e.len2m % 2 ^ 27
  else if off = 0x810 then
    e.thresh % 256 * 2 ^ 21 + b2n e.revertStale * 2 ^ 20 + e.prot % 4 * 2 ^ 18 + b2n e.coh * 2 ^ 17 +
      (s.txn.slots.filter fun v => (v.2.ext.map (·.1)) == some id).length
  else if off = 0x814 then (s.xlt.extents.filter fun e => e.2.st != .free).length * 65536 + min 128 s.xlt.walks.length
  else if 0x820 ≤ off ∧ off < 0x850 then s.winLen ((off - 0x820) / 4)
  else 0

/-! ### Controllers and integrity (Tables 6.12–6.17, 7.12–7.20) -/

/-- Codes of Table 6.6. -/
def CtlState.code : CtlState → Nat
  | .active => 0 | .entering => 1 | .selfRefresh => 2 | .exiting => 3 | .retrain => 4 | .failed => 5

/-- A block-specific register of the page of controller `c`. -/
def State.readCtl (s : State) (c off : Nat) : Nat :=
  let v := s.ctlAt c
  if off = 0x804 then
    sbyte v.temp * 65536 + b2n v.ref2x * 512 + b2n (v.units.any fun u => u.2.drain) * 256 + v.retrainCh % 32 * 8 + v.st.code
  else if off = 0x808 then v.retrains % 65536 * 65536 + v.retries % 256 * 256 + v.attempts % 8 * 32 + v.lastFailCh % 32
  else if off = 0x80C then v.entries % 256 * 2 ^ 24 + v.rowsOk % 256 * 65536 + v.lanesOk % 256 * 256 + v.softRepairs % 256
  else if off = 0x810 then v.forced % 65536 * 65536 + v.debtMax % 8
  else if off = 0x814 then (if c < 4 then 0 else (v.mdc.filter (·.2)).length)
  else (s.reg (pageBase (ctlPage c).1 (ctlPage c).2 + off)).toNat

/-- Codes of Table 7.18. -/
def ProtState.code : ProtState → Nat
  | .normal => 1 | .degraded => 2 | .rebuilding => 3

/-- ECC_PROT_STATE.LOST. -/
def lostField (m : Nat) : Nat := if m % 512 = 0 then 0 else if m = 1 ∨ m = 2 ∨ m = 4 ∨ m = 8 then m else 0xF

/-- A block-specific register of the ECC page. -/
def State.readEcc (s : State) (off : Nat) : Nat :=
  let c := s.regBits 0x80820 3 0
  let p := s.prot? (s.regBits 0x80830 13 0)
  if off = 0x824 then stick32 (tblGet s.ecc.ctlCe c 0)
  else if off = 0x828 then stick32 (tblGet s.ecc.ctlUe c 0)
  else if off = 0x82C then min (s.ctlAt c).scrubPasses 0x7FFF * 2 ^ 17 + (s.ctlAt c).scrubPos / 0x200000 % 2 ^ 17
  else if off = 0x834 then
    (match p with
    | some p => p.k % 16 * 4096 + p.pos % 16 * 256 + lostField p.lost * 16 + b2n p.promoted * 8 + p.st.code
    | none => 0)
  else if off = 0x838 then (match p with | some p => if p.replacement then p.next / 0x200000 else 0 | none => 0)
  else if off = 0x83C then (match p with | some p => p.lost % 512 | none => 0)
  else if off = 0x840 then 0
  else (s.reg (0x80000 + off)).toNat

/-! ### Movers, key-value sessions, frames, rods (Tables 10.15–10.17, 11.13–11.18, 8.11–8.25, 12.6, 12.7) -/

/-- The transfer of a mover's turn. -/
def State.currentXfer (s : State) (m : Nat) : Option Xfer := (s.mover m).candidate (s.mover m).turn

/-- The destination of the turn's transfer is not ready: a full ring, or a rod that is away (R255). -/
def State.destBlocked (s : State) (m : Nat) : Bool :=
  match s.currentXfer m with
  | none => false
  | some x =>
    let d := descOf x.desc x.trigger
    if x.desc.isEmpty || decide (d.pieces ≤ x.delivered) then false
    else
      let (a, n) := d.dstSpan (d.piece x.delivered)
      if d.dstKind = 3 then decide (s.ringRoom x.job d.dst < n / 128)
      else if d.dstKind = 4 then false
      else (match s.endWrite m x.ctx d.dstKind a (zeroBytes n) false with | (_, .wait) => true | _ => false)

/-- MOV_STATE.STATE. DISCARDING is never shown: a discard is one step. -/
def State.moverCode (s : State) (m : Nat) : Nat :=
  if (s.mover m).xfers.isEmpty then 0
  else if s.moverHeld m then 3
  else if (s.currentXfer m).isNone && (s.mover m).ready.isEmpty then 0
  else if s.destBlocked m then 2 else 1

/-- A block-specific register of MOV page `m`. -/
def State.readMov (s : State) (m off : Nat) : Nat :=
  let v := s.mover m
  if off = 0x800 then
    ((s.currentXfer m).map (·.ctx)).getD 0 % 1024 * 65536 + (v.xfers.filter (s.parkedAt m)).length * 256 + v.xfers.length
  else if off = 0x804 then v.lookaside.length * 65536 + s.moverCode m
  else if off = 0x810 then stick32 (v.discarded / 1024)
  else (s.reg (pageBase .mov m + off)).toNat

/-- A block-specific register of the KVS page. -/
def State.readKvs (s : State) (off : Nat) : Nat :=
  let c := s.regBits 0xE0800 9 0
  let p := s.profile c
  if off = 0x800 then c
  else if off = 0x804 then tblGet s.kvs.limits c 0
  else if off = 0x808 then
    s.sessionsOf c * 2 ^ 17 + (match p with
      | some p => 8 + b2n p.farMx * 4 + b2n p.promote * 2 + b2n p.demote
      | none => 0)
  else if off = 0x80C then s.nearUsed c
  else if off = 0x810 then ((p.map (·.nearSlots)).getD 0)
  else if off = 0x814 then tblGet s.kvs.farUsed c 0
  else if off = 0x818 then ((p.map (·.farSlots)).getD 0)
  else if off = 0x81C then tblCount s.kvs.sessions (fun _ v => v.st != .free) * 2 ^ 17 + b2n (!s.kvs.moves.isEmpty)
  else (s.reg (0xE0000 + off)).toNat

/-- A rod of a frame is on its way through a switch. -/
def State.switching (s : State) (f : Nat) : Bool :=
  (List.range 17).any fun k => decide (2 ≤ s.rodCode (17 * f + k) ∧ s.rodCode (17 * f + k) ≤ 5)

/-- A block-specific register of FRM page `f`. -/
def State.readFrm (s : State) (f off : Nat) : Nat :=
  let v := s.frame f
  if off = 0x800 then
    v.spareFor.getD 0 % 16 * 256 + b2n v.spareFor.isSome * 128 + b2n (s.checkOn f) * 64 + b2n (s.switching f) * 32 +
      b2n v.cur.isSome * 16 + v.cur.getD 0 % 8
  else if off = 0x808 then 0
  else if off = 0x80C then maskOf 17 fun k => bit s.boot.rodBad (17 * f + k) || (s.rod (17 * f + k)).st == .quarantined
  else if off = 0x818 then (match v.check with | some c => c.logical % 16 * 16 + c.phase % 8 | none => 0)
  else (s.reg (pageBase .frm f + off)).toNat

/-- A block-specific register of ROD page `i`. -/
def State.readRod (s : State) (i off : Nat) : Nat :=
  if off = 0x800 then
    (match s.logicalOf i with | some k => 2 ^ 24 + k % 16 * 2 ^ 20 | none => 0) + (s.rod i).ctx % 1024 * 1024 + s.rodCode i
  else (s.reg (pageBase .rod i + off)).toNat

/-! ### A register of a page, and the table windows -/

/-- A block-specific or identity register of a page, by offset. -/
def State.readBlock (s : State) (k : PageKind) (i off : Nat) : Nat :=
  match k with
  | .chip => s.readChip off
  | .boot => s.readBoot off
  | .clk => s.readClk off
  | .pwr => s.readPwr off
  | .sec => s.readSec off
  | .mgr => s.readMgr off
  | .tly => (s.readTly off).toNat
  | .lnk => (s.readLnk i off).toNat
  | .rtr => (s.readRtr off).toNat
  | .txn => s.readTxn off
  | .dir => s.readDir i off
  | .xlt => s.readXlt off
  | .nmc => s.readCtl i off
  | .fmc => s.readCtl (4 + i) off
  | .ecc => s.readEcc off
  | .qos => (s.readQos off).toNat
  | .mov => s.readMov i off
  | .kvs => s.readKvs off
  | .frm => s.readFrm i off
  | .rod => s.readRod i off

/-- A register of a page as it stands, by offset (Table 4.3). -/
def State.readPage (s : State) (k : PageKind) (i off : Nat) : Nat :=
  let b := pageBase k i
  if off = 0x000 then blockType k * 65536 + i
  else if off = 0x004 then s.pageStatus k i
  else if off = 0x008 ∨ off = 0x00C then (s.reg (b + off)).toNat
  else if off = 0x010 then b2n (s.ledgerValid k i) * 2 ^ 31 + s.ledgerSel k i
  else if off = 0x014 then s.ledgerVal k i
  else if off < 0x040 then (if k = .chip then s.readChip off else 0)
  else if off < 0x200 then (cfgGet s.shadow (b + off)).toNat
  else if off < 0x3C0 then (cfgGet s.active (b + off - 0x1C0)).toNat
  else if off < 0x400 then s.swapArea off
  else if off < 0x800 then (s.readTally b off).toNat
  else s.readBlock k i off

/-- A word of the walker window (Table 5.23). -/
def State.readWalker (s : State) (a : Nat) : Nat :=
  let n := (a - 0x900000) / 32
  let r := s.ring n
  let off := a % 32
  if 1024 < n then 0
  else if off = 0x00 then (if n = mgrRing then 0 else r.rootLo.toNat)
  else if off = 0x04 then (if n = mgrRing then 0 else r.rootHi.toNat)
  else if off = 0x08 then r.ringLo.toNat
  else if off = 0x0C then r.ringHi.toNat
  else if off = 0x10 then r.prod % 2 ^ 32
  else if off = 0x14 then stick32 r.ovf
  else 0

/-- What an address of the window names (R79, R80). -/
inductive Target where
  | page (k : PageKind) (i off : Nat)
  | route
  | board
  | walker
deriving DecidableEq, Repr

/-- What an address of the window names; none where it names nothing. -/
def targetOf (a : Nat) : Option Target :=
  match pageOf a with
  | some (k, i) => some (.page k i (a % 0x1000))
  | none =>
    if 0x800000 ≤ a ∧ a < 0x880000 then some .route
    else if 0x880000 ≤ a ∧ a < 0x900000 then some .board
    else if 0x900000 ≤ a ∧ a < 0x910000 then some .walker
    else none

/-- The block that a target belongs to has its clock (R6, R80). -/
def State.reachable (s : State) : Target → Bool
  | .page k i _ => s.clocked k i
  | .route | .board => s.clocked .rtr 0
  | .walker => s.clocked .xlt 0

/-- A register as it stands. -/
def State.readAt (s : State) (a : Nat) : Target → Nat
  | .page k i off => s.readPage k i off
  | .route => (s.routeWord a).toNat
  | .board => (s.boardWord a).toNat
  | .walker => s.readWalker a

/-! ### Sampling and clearing reads -/

/-- Offsets that a read of an offset samples. -/
def samples (k : PageKind) (off : Nat) : List Nat :=
  if off = 0x3C0 then [0x3C4]
  else if off = 0x3D0 then [0x3D4]
  else match k with
    | .chip => if off = 0x828 then [0x82C] else []
    | .boot => if off = 0x82C then [0x830] else []
    | .clk => if off = 0x81C then [0x820] else []
    | .sec => if off = 0x808 then [0x80C, 0x810, 0x814, 0x818] else []
    | .mgr => if off = 0x814 then [0x818] else if off = 0x81C then [0x820] else []
    | .xlt => if off = 0x804 then [0x808, 0x80C, 0x810] else []
    | .ecc => if off = 0x834 then [0x838] else []
    | _ => []

/-- An offset that reads what was last sampled. -/
def sampled (k : PageKind) (off : Nat) : Bool :=
  off == 0x3C4 || off == 0x3D4 ||
    (match k with
    | .chip => off == 0x82C
    | .boot => off == 0x830
    | .clk => off == 0x820
    | .sec => off == 0x80C || off == 0x810 || off == 0x814 || off == 0x818
    | .mgr => off == 0x818 || off == 0x820
    | .xlt => off == 0x808 || off == 0x80C || off == 0x810
    | .ecc => off == 0x838
    | _ => false)

/-- The registers a read samples, taken now. -/
def State.takeSamples (s : State) (k : PageKind) (i off : Nat) : State :=
  (samples k off).foldl (fun (s : State) o =>
    { s with snaps := tblPut s.snaps (pageBase k i + o) (BitVec.ofNat 32 (s.readPage k i o)) }) s

/-- What a read clears: PIN_MAX_DW, DEBT_MAX, QDEPTH_MAX (Tables 1.17, 6.16, 14.13). -/
def State.clearByRead (s : State) (k : PageKind) (i off : Nat) : State :=
  match k with
  | .pwr => if off = 0x808 then { s with pwr := { s.pwr with pinMax := 0 } } else s
  | .nmc => if off = 0x810 then s.setCtl i { s.ctlAt i with debtMax := 0 } else s
  | .fmc => if off = 0x810 then s.setCtl (4 + i) { s.ctlAt (4 + i) with debtMax := 0 } else s
  | .rtr => if off = 0x858 then s.clearDepthMax else s
  | _ => s

/-- A register read: its value, and the state the read leaves. -/
def State.readReg (s : State) (a : Nat) (t : Target) : State × Nat :=
  match t with
  | .page k i off =>
    if sampled k off then (s, ((tblGet? s.snaps a).getD 0).toNat)
    else ((s.takeSamples k i off).clearByRead k i off, s.readPage k i off)
  | t => (s, s.readAt a t)

end Sys2Proof.Machine
end

