-- ==== Sys2Proof/Machine/RegWrite.lean ====
section
/-!
DEFINITION. What a write to every register of the window does (R7, R63, R65, R84–R87, R120, R135, R157, R166, R187, R337–R347,
R396, R446), and the register commands that carry reads and writes (R76–R78), each row of the opcode table that is a register
access being one.
-/
namespace Sys2Proof.Machine

/-! ### Clocks (R63, R65) -/

/-- A block enable bit: the page it gates. The beam, bit 12, has none. -/
def enBlkPage (b : Nat) : Option (PageKind × Nat) :=
  if b < 4 then some (.nmc, b) else if b < 12 then some (.dir, b - 4) else if b = 13 then some (.txn, 0)
  else if b = 14 then some (.xlt, 0) else if b = 15 then some (.rtr, 0) else if b = 16 then some (.ecc, 0)
  else if b = 17 then some (.qos, 0) else if b = 18 then some (.kvs, 0) else none

/-- The page an enable bit of CLK_EN_PORT or CLK_EN_FRM or of a frame's CLK_ROD_EN gates. -/
def enPortPage (b : Nat) : Option (PageKind × Nat) := if b < 16 then some (.lnk, b) else if b < 24 then some (.fmc, b - 16) else none
def enFrmPage (b : Nat) : Option (PageKind × Nat) := if b < 32 then some (.frm, b) else none
def rodEnPage (f b : Nat) : Option (PageKind × Nat) :=
  if b < 17 then some (.rod, 17 * f + b) else if b < 19 then some (.mov, 2 * f + (b - 17)) else none

/-- The block was marked unhealthy at this boot. -/
def State.unhealthy (s : State) : PageKind → Nat → Bool
  | .nmc, n => !bit s.boot.nmcOk n
  | .fmc, g => !bit s.boot.fmcOk g
  | .dir, d => !bit s.boot.dirOk d
  | .txn, _ => !s.boot.txnOk
  | .xlt, _ => !s.boot.xltOk
  | .lnk, p => !bit s.boot.portOk p
  | .frm, f => !bit s.boot.frameOk f
  | .rod, i => bit s.boot.rodBad i
  | .mov, m => bit s.boot.movBad m
  | _, _ => false

/-- The health and idleness of an enable bit's block; the beam has no page that could show it idle (assumption 63). -/
def State.bitBad (s : State) : Option (PageKind × Nat) → Bool
  | some (k, i) => s.unhealthy k i
  | none => !s.boot.beamOk
def State.bitIdle (s : State) : Option (PageKind × Nat) → Bool
  | some (k, i) => s.idle k i
  | none => false

/-- An enable word written bit by bit (R63): the word that comes of it, and the worst status. -/
def State.enableBits (s : State) (n : Nat) (page : Nat → Option (PageKind × Nat)) (old new : Nat) : Nat × Nat :=
  (List.range n).foldl (fun (a : Nat × Nat) b =>
    if bit old b = bit new b then a
    else if bit new b then (if s.bitBad (page b) then (a.1, stUnsupported) else (setBit a.1 b true, a.2))
    else if s.bitIdle (page b) then (setBit a.1 b false, a.2)
    else (a.1, if a.2 = stUnsupported then stUnsupported else stBusy)) (old, stOk)

/-- CLK_EN_PORT written: a gated port is DISABLED, an enabled one may train (Table 13.6). -/
def State.setEnPort (s : State) (w : Nat) : State :=
  let old := s.clk.enPort
  let s : State := { s with clk := { s.clk with enPort := w } }
  (List.range 16).foldl (fun s p =>
    if bit old p = bit w p then s else if bit w p then s.tryTrain p else s.portOff p) s

/-- A write of CLK_EN_BLK, CLK_EN_PORT, CLK_EN_FRM or CLK_ROD_EN. -/
def State.writeEnable (s : State) (off v : Nat) : State × Nat :=
  let f := s.regBits 0x2814 4 0
  if off = 0x808 then
    let (w, st) := s.enableBits 19 enBlkPage s.clk.enBlk v
    ({ s with clk := { s.clk with enBlk := w } }, st)
  else if off = 0x80C then
    let (w, st) := s.enableBits 24 enPortPage s.clk.enPort v
    (s.setEnPort w, st)
  else if off = 0x810 then
    let (w, st) := s.enableBits 32 enFrmPage s.clk.enFrm v
    ({ s with clk := { s.clk with enFrm := w } }, st)
  else
    let (w, st) := s.enableBits 19 (rodEnPage f) (s.rodEn f) v
    ({ s with clk := { s.clk with rodEn := tblPut s.clk.rodEn f w } }, st)

/-- The condition of a running switch of a domain (R65): no context on any rod and every mover idle; every controller of the tier
in self-refresh; the other domains never. -/
def State.domainQuiet (s : State) (d : Nat) : Bool :=
  if d = 0 then s.rods.all (fun r => r.2.ctx == 0) && s.movers.all fun m => m.2.xfers.isEmpty
  else if d = 3 then (List.range 4).all fun n => !s.ctlOk n || (s.ctlAt n).st == .selfRefresh
  else if d = 4 then (List.range 8).all fun g => !s.ctlOk (4 + g) || (s.ctlAt (4 + g)).st == .selfRefresh
  else false

/-- A write of CLK_SRC.SEL (R65, R66). A SEL bit written again while its domain's switch is still PENDING is accepted, and the
watchdog's time starts anew (assumption 154). -/
def State.writeSource (s : State) (v : Nat) : State × Nat :=
  let changed := idxs 6 fun d => bit s.clk.sel d != bit v d
  if changed.all s.domainQuiet then
    ({ s with clk := { s.clk with
        sel := v % 64, pending := changed.foldl (fun t d => tblPut t d s.time) s.clk.pending } }, stOk)
  else (s, stBusy)

/-! ### Block-specific registers -/

/-- A write-one-to-clear register: the bits of `mask` written 1 are cleared. -/
def State.writeW1c (s : State) (a mask : Nat) (w : Word) : State :=
  s.setReg a (s.reg a &&& ~~~ (w &&& BitVec.ofNat 32 mask))

/-- A register that stores the bits of `mask`. -/
def State.writeRw (s : State) (a mask : Nat) (w : Word) : State := s.setReg a (w &&& BitVec.ofNat 32 mask)

/-- ECC_INJECT may be armed for a bead: in an ACTIVE MGR_STATE extent, or in a reserved region (R166). -/
def State.mayInject (s : State) (pa : Nat) : Bool :=
  inReserved pa || (match s.extentAt pa 64 with | some (_, e) => e.st == .active && e.kind == 2 | none => false)

/-- The bead that PA words name. -/
def injectPa (lo hi : Word) : Nat := wbits lo 31 6 * 64 + wbits hi 15 0 * 2 ^ 32

/-- A write of ECC_INJECT or of its address words; an address moved while armed must be one that could be armed
(assumption 64). -/
def State.writeInject (s : State) (off : Nat) (w : Word) : State × Nat :=
  let lo := if off = 0x804 then w else s.reg 0x80804
  let hi := if off = 0x808 then w else s.reg 0x80808
  let armed := if off = 0x800 then wbit w 0 else wbit (s.reg 0x80800) 0
  if armed && !s.mayInject (injectPa lo hi) then (s, stPermission)
  else (s.writeRw (0x80000 + off) (if off = 0x800 then 7 else if off = 0x804 then 0xFFFFFFC0 else 0xFFFF) w, stOk)

/-- A write to a block-specific register of the ECC page. -/
def State.writeEcc (s : State) (off : Nat) (w : Word) : State × Nat :=
  if off = 0x800 ∨ off = 0x804 ∨ off = 0x808 then s.writeInject off w
  else if off = 0x820 then (s.writeRw 0x80820 0xF w, stOk)
  else if off = 0x830 then (s.writeRw 0x80830 0x3FFF w, stOk)
  else if off = 0x840 ∧ wbit w 31 then s.reload (wbits w 13 0)
  else (s, stOk)

/-- FRM_SPARE_CTL written: GO asks for a stand-in (R187), which ends a check of the frame (R297); a vote goes on. -/
def State.writeSpare (s : State) (f : Nat) (w : Word) : State × Nat :=
  let v := s.frame f
  if !wbit w 31 then (s, stOk)
  else if v.spareFor.isSome ∨ v.request.isSome then (s, stBusy)
  else if !s.spareOk f then (s, stUnsupported)
  else
    let s := if s.voting f then s else s.endCheck f
    (s.setFrame f { s.frame f with request := some (wbits w 3 0, 2) }, stOk)

/-- A write of RTR_FLIP_CTL; at the active manager an armed flip is announced to the non-module endpoints (R338, R431). -/
def State.writeFlip (s : State) (w : Word) : State × Nat :=
  match s.writeFlipCtl w with
  | (s, st) =>
    match s.rtr.flipArmed with
    | some t => (if wbit w 0 && st == stOk && s.mgr.role == 2 then s.notify 1 s.ep t (1 - s.rtr.inject) else s, st)
    | none => (s, st)

/-- A write to a block-specific register of a page. -/
def State.writeBlock (s : State) (k : PageKind) (i off : Nat) (w : Word) : State × Nat :=
  let a := pageBase k i + off
  match k with
  | .chip => (if off = 0x820 then s.writeRw a 7 w else s, stOk)
  | .boot => (if off = 0x828 then s.writeRw a 7 w else s, stOk)
  | .clk =>
    if off = 0x800 then (s.writeW1c a 0x7F00 w, stOk)
    else if off = 0x804 then s.writeSource w.toNat
    else if off = 0x808 ∨ off = 0x80C ∨ off = 0x810 ∨ off = 0x818 then s.writeEnable off w.toNat
    else (if off = 0x814 then s.writeRw a 0x1F w else s, stOk)
  | .pwr => (if off = 0x814 then s.writeW1c a 0xFF w else s, stOk)
  | .sec => (if off = 0x804 ∨ off = 0x81C then s.writeRw a 0x3FF w else s, stOk)
  | .mgr => (if off = 0x80C then s.writeRw a 0xFFFFFFC1 w else if off = 0x810 then s.writeRw a 0xFFFF w else s, stOk)
  | .tly => (s, stOk)
  | .lnk => if off = 0x800 then s.writeLnkCtrl i w else (s, stOk)
  | .rtr => if off = 0x80C then s.writeFlip w else s.writeRtr off w
  | .txn =>
    if off = 0x808 then (s.writeRw a 0xFFF w, stOk)
    else if off = 0x80C then
      let e := s.regBits 0x30808 11 0
      let x : Source := { s.source e with block := wbit w 16, limit := wbits w 15 0 }
      ({ s with txn := { s.txn with sources := tblPut s.txn.sources e x } }, stOk)
    else (s, stOk)
  | .dir => (if off = 0x814 then s.writeRw a 0x7F w else s, stOk)
  | .xlt => (if off = 0x800 then s.writeRw a 0x3FFF w else s, stOk)
  | .nmc => (if off = 0x800 then s.writeSrForce i w else s, stOk)
  | .fmc => (if off = 0x800 then s.writeSrForce (4 + i) w else s, stOk)
  | .ecc => s.writeEcc off w
  | .qos => s.writeQos off w
  | .mov => (s, stOk)
  | .kvs =>
    if off = 0x800 then (s.writeRw a 0x3FF w, stOk)
    else if off = 0x804 then
      ({ s with kvs := { s.kvs with limits := tblPut s.kvs.limits (s.regBits 0xE0800 9 0) (wbits w 14 0) } }, stOk)
    else (s, stOk)
  | .frm => if off = 0x808 then s.writeSpare i w else (s, stOk)
  | .rod => (s, stOk)

/-! ### A register of a page, and the table windows -/

/-- A shadow register written: refused while a swap is armed; reserved bits dropped, fields clamped (R81, R85, R86). -/
def State.writeShadow (s : State) (k : PageKind) (i off : Nat) (w : Word) : State × Nat :=
  if s.swapArmed then (s, stBusy)
  else match shReg k off with
    | some r =>
      let v := BitVec.ofNat 32 (shClamp k off (w.toNat &&& r.mask))
      ({ s with shadow := cfgPut s.shadow (pageBase k i + off) v }, stOk)
    | none => (s, stOk)

/-- A register of a page written, by offset (Table 4.3): a read-only one does nothing and completes OK (R7). -/
def State.writePage (s : State) (k : PageKind) (i off : Nat) (w : Word) : State × Nat :=
  let b := pageBase k i
  if off = 0x008 then (s.writeW1c (b + 8) 0xFFFFFFFF w, stOk)
  else if off = 0x00C then (s.writeRw (b + 0xC) 0xFFFFFFFF w, stOk)
  else if off = 0x010 then (s.writeRw (b + 0x10) 0xFF w, stOk)
  else if 0x040 ≤ off ∧ off < 0x200 then s.writeShadow k i off w
  else if 0x400 ≤ off ∧ off < 0x800 then s.writeTally k b off w
  else if 0x800 ≤ off then s.writeBlock k i off w
  else (s, stOk)

/-- A word of the walker window written (R120). -/
def State.writeWalker (s : State) (a : Nat) (w : Word) : State × Nat :=
  let n := (a - 0x900000) / 32
  let off := a % 32
  if 1024 < n then (s, stOk)
  else if off = 0x00 ∨ off = 0x04 then s.writeRoot n (off == 0x04) w
  else if off = 0x08 ∨ off = 0x0C then s.writeRing n (off == 0x0C) w
  else (s, stOk)

/-- A register write: the state it leaves and its status. -/
def State.writeReg (s : State) (a : Nat) (t : Target) (w : Word) : State × Nat :=
  match t with
  | .page k i off => s.writePage k i off w
  | .route => s.writeRoute a w
  | .board => s.writeBoard a w
  | .walker => s.writeWalker a w

/-! ### The register commands (R76–R79) -/

/-- ADDR and VALUE of a register command. -/
def Packet.regAddr (p : Packet) : Nat := field p.own 0 4
def Packet.regValue (p : Packet) : Word := BitVec.ofNat 32 (field p.own 4 4)

/-- A register that any endpoint may read (R77). -/
def openReg (a : Nat) : Bool :=
  match targetOf a with
  | some (.page k _ off) => off == 0 || (k == .chip && (off == 0x020 || (0x800 ≤ off && off < 0x820) || (0x838 ≤ off && off < 0x848)))
  | _ => false

/-- A register read accepted before SERVICE: of the CHIP, BOOT and PWR pages (R37). -/
def earlyReg (a : Nat) : Bool := match pageOf a with | some (.chip, _) | some (.boot, _) | some (.pwr, _) => true | _ => false

/-- Rules of a register command: during a reset of the management domain it completes BUSY_RETRY (R67). -/
def regRules (op : Nat) (isRead : Bool) : Rules :=
  { form := fun p => p.ofCmd op
    clearOk := fun _ p => isRead && openReg (Packet.regAddr p)
    sourceOk := fun s p => (isRead && openReg (Packet.regAddr p)) || s.fromManager p
    early := fun _ p => isRead && earlyReg (Packet.regAddr p)
    row7 := fun s _ _ => if s.time < s.clk.mgmtUntil then .refuse stBusy else .pass none 0
    register := true
    read := isRead }

/-- What a register command of `n` own bytes names, or the status that refuses it (R6, R76, R79). -/
def State.regTarget (s : State) (p : Packet) (n : Nat) : Nat ⊕ Target :=
  if p.own.length ≠ n ∨ Packet.regAddr p % 4 ≠ 0 ∨ 0x1000000 ≤ Packet.regAddr p then .inl stMalformed
  else match targetOf (Packet.regAddr p) with
    | none => .inl stBusError
    | some t => if s.reachable t then .inr t else .inl stBusError

/-- An accepted REG_READ. -/
def State.actRegRead (s : State) (key : Nat) : State :=
  match s.slot? key with
  | none => s
  | some v => match s.regTarget v.pkt 4 with
    | .inl st => s.complete key st
    | .inr t =>
      let (s, n) := s.readReg (Packet.regAddr v.pkt) t
      s.complete key stOk (leBytes 4 n)

/-- An accepted REG_WRITE: the completion follows once the write has acted (R76). -/
def State.actRegWrite (s : State) (key : Nat) : State :=
  match s.slot? key with
  | none => s
  | some v => match s.regTarget v.pkt 8 with
    | .inl st => s.complete key st
    | .inr t =>
      let (s, st) := s.writeReg (Packet.regAddr v.pkt) t (Packet.regValue v.pkt)
      s.complete key st

/-- An accepted REG_SHADOW_SYNC (R85, R87). -/
def State.actSync (s : State) (key : Nat) : State :=
  match s.slot? key with
  | none => s
  | some v =>
    if v.pkt.own.length ≠ 0 then s.complete key stMalformed
    else if s.swapArmed then s.complete key stBusy
    else s.shadowSync.complete key stOk

/-- A register read arrives. -/
def State.arriveRead (s : State) (port : Fin 16) (p : Packet) : State := s.arrive (regRules 0x40 true) port p State.actRegRead

/-- A register write arrives. -/
def State.arriveWrite (s : State) (port : Fin 16) (p : Packet) : State := s.arrive (regRules 0x41 false) port p State.actRegWrite

/-- REG_READ. -/
def execRegRead (port : Fin 16) (p : Packet) (s : State) : Outcome := .next (s.arriveRead port p)
/-- PIN_MAX_READ: PWR_PIN_AVG is read. -/
def execPinMaxRead (port : Fin 16) (p : Packet) (s : State) : Outcome := .next (s.arriveRead port p)
/-- REF_DEBT_READ: NMC_REF_DEBT or FMC_REF_DEBT is read. -/
def execRefDebtRead (port : Fin 16) (p : Packet) (s : State) : Outcome := .next (s.arriveRead port p)
/-- QDEPTH_MAX_READ: QDEPTH_MAX is read. -/
def execQdepthMaxRead (port : Fin 16) (p : Packet) (s : State) : Outcome := .next (s.arriveRead port p)

/-- REG_SHADOW_SYNC. -/
def execRegShadowSync (port : Fin 16) (p : Packet) (s : State) : Outcome := .next (s.arrive (regRules 0x42 false) port p State.actSync)

/-- REG_WRITE. The rows below are REG_WRITEs whose ADDR names a register with a behaviour of its own; the packet's ADDR decides
(assumption 65). -/
def execRegWrite (port : Fin 16) (p : Packet) (s : State) : Outcome := .next (s.arriveWrite port p)
/-- CLOCK_ENABLE_WRITE (R63). -/
def execClockEnableWrite (port : Fin 16) (p : Packet) (s : State) : Outcome := .next (s.arriveWrite port p)
/-- CLOCK_SOURCE_SELECT (R65). -/
def execClockSourceSelect (port : Fin 16) (p : Packet) (s : State) : Outcome := .next (s.arriveWrite port p)
/-- WALKER_ROOT_WRITE (R120). -/
def execWalkerRootWrite (port : Fin 16) (p : Packet) (s : State) : Outcome := .next (s.arriveWrite port p)
/-- RING_ENABLE_WRITE (R120). -/
def execRingEnableWrite (port : Fin 16) (p : Packet) (s : State) : Outcome := .next (s.arriveWrite port p)
/-- SR_FORCE_WRITE (R135). -/
def execSrForceWrite (port : Fin 16) (p : Packet) (s : State) : Outcome := .next (s.arriveWrite port p)
/-- ECC_INJECT_ARM (R166). -/
def execEccInjectArm (port : Fin 16) (p : Packet) (s : State) : Outcome := .next (s.arriveWrite port p)
/-- PROT_RELOAD (R157). -/
def execProtReload (port : Fin 16) (p : Packet) (s : State) : Outcome := .next (s.arriveWrite port p)
/-- SPARE_STAND_IN_REQUEST (R187). -/
def execSpareStandInRequest (port : Fin 16) (p : Packet) (s : State) : Outcome := .next (s.arriveWrite port p)
/-- LINK_RETRAIN (R320). -/
def execLinkRetrain (port : Fin 16) (p : Packet) (s : State) : Outcome := .next (s.arriveWrite port p)
/-- LINK_HOLD_DOWN (R320). -/
def execLinkHoldDown (port : Fin 16) (p : Packet) (s : State) : Outcome := .next (s.arriveWrite port p)
/-- ROUTING_TABLE_WRITE (R337). -/
def execRoutingTableWrite (port : Fin 16) (p : Packet) (s : State) : Outcome := .next (s.arriveWrite port p)
/-- FLIP_ARM (R338). -/
def execFlipArm (port : Fin 16) (p : Packet) (s : State) : Outcome := .next (s.arriveWrite port p)
/-- FLIP_CANCEL (R338). -/
def execFlipCancel (port : Fin 16) (p : Packet) (s : State) : Outcome := .next (s.arriveWrite port p)
/-- BOARD_WINDOW_WRITE (R347). -/
def execBoardWindowWrite (port : Fin 16) (p : Packet) (s : State) : Outcome := .next (s.arriveWrite port p)
/-- BOARD_ARM (R347). -/
def execBoardArm (port : Fin 16) (p : Packet) (s : State) : Outcome := .next (s.arriveWrite port p)
/-- BOARD_CANCEL (R347). -/
def execBoardCancel (port : Fin 16) (p : Packet) (s : State) : Outcome := .next (s.arriveWrite port p)
/-- METER_COMMIT (R396). -/
def execMeterCommit (port : Fin 16) (p : Packet) (s : State) : Outcome := .next (s.arriveWrite port p)
/-- HOST_RECORD_COMMIT (R396). -/
def execHostRecordCommit (port : Fin 16) (p : Packet) (s : State) : Outcome := .next (s.arriveWrite port p)
/-- QUEUE_SHAPER_COMMIT (R396). -/
def execQueueShaperCommit (port : Fin 16) (p : Packet) (s : State) : Outcome := .next (s.arriveWrite port p)
/-- TALLY_SNAPSHOT (R445). -/
def execTallySnapshot (port : Fin 16) (p : Packet) (s : State) : Outcome := .next (s.arriveWrite port p)
/-- TALLY_SELECT_WRITE (R447). -/
def execTallySelectWrite (port : Fin 16) (p : Packet) (s : State) : Outcome := .next (s.arriveWrite port p)

end Sys2Proof.Machine
end

