-- ==== Sys2Proof/Machine/Deliver.lean ====
section
/-!
DEFINITION. What a port receives whole reaches the transaction layer (R309, R314, R328): the packet that a byte string spells, the row
that acts on it, and the flits and frames whose payload ends packets.
-/

namespace Sys2Proof

open Sys2Proof.Machine

/-- The packet that the bytes of a whole packet spell, received on a VC from a MAC address (Tables 15.1–15.4, 18.5). -/
def packetOf (vc mac : Nat) (b : List Byte) : Packet :=
  let h := field b 0 8
  let sec := bit h 15
  let body := b.drop (if sec then 32 else 16)
  { typ := bits h 7 0, vc := vc, hops := bits h 12 8, epoch := bits h 13 13, poison := bit h 14, length := bits h 31 16
    dst := bits h 43 32, qual := bits h 47 44, tag := bits h 63 48, form := field b 8 8
    sec := if sec then some { keyId := field b 16 4, sender := field b 20 2, rsv := field b 22 2, counter := field b 24 8 } else none
    body := if sec then body.take (body.length - 16) else body
    gcm := if sec then field (body.drop (body.length - 16)) 0 16 else 0
    mac := mac }

end Sys2Proof

namespace Sys2Proof.Machine

/-- A memory request or a snoop delivered. -/
def State.deliverMemory (s : State) (port : Fin 16) (p : Packet) : Outcome :=
  if p.typ = tRead then execRead port p s
  else if p.typ = tReadShared then execReadShared port p s
  else if p.typ = tReadOwn then execReadOwn port p s
  else if p.typ = tReadNoalloc then execReadNoalloc port p s
  else if p.typ = tWrite then execWrite port p s
  else if p.typ = tWritePartial then execWritePartial port p s
  else if p.typ = tWriteback then execWriteback port p s
  else if p.typ = tAtomic then s.arriveMemory (fun p => p.ofAtomic (p.qual % 4)) port p
  else s.arriveSnoop p.typ port p

/-- A CMD of an opcode from 0x90 on delivered: partner, job, session and manager commands. -/
def State.deliverCommand (s : State) (port : Fin 16) (p : Packet) : Outcome :=
  let op := p.opcode
  if op = 0x90 then execProtFwd port p s
  else if op = 0x91 then execMemberRead port p s
  else if op = 0x92 then execReconRead port p s
  else if op = 0xA0 then execJobLoad port p s
  else if op = 0xA1 then execJobUnload port p s
  else if op = 0xA2 then execJobPlace port p s
  else if op = 0xA3 then execJobRemove port p s
  else if op = 0xA4 then execFnDisable port p s
  else if op = 0xA5 then execFnEnable port p s
  else if op = 0xA6 then execFnStatus port p s
  else if op = 0xA7 then execJobStep port p s
  else if op = 0xA8 then execMovResume port p s
  else if op = 0xA9 then execMovCancel port p s
  else if op = 0xB0 then execKvSetup port p s
  else if op = 0xB1 then execSessionOpen port p s
  else if op = 0xB2 then execSessionFork port p s
  else if op = 0xB3 then execSessionExtend port p s
  else if op = 0xB4 then execSessionCommit port p s
  else if op = 0xB5 then execSessionClose port p s
  else if op = 0xB6 then execSessionRenew port p s
  else if op = 0xB7 then execKvStatus port p s
  else if op = 0xC0 then execBalanceCheck port p s
  else if op = 0xC1 then execEpState port p s
  else if op = 0xC3 then execTakeback port p s
  else if op = 0xC5 then execTallyRead port p s
  else if op = 0xD0 then execAttest port p s
  else if op = 0xD1 then execAttestCert port p s
  else execJoin port p s

/-- A CMD delivered, by its opcode (Table 4.1): critical commands, register accesses, firmware chunks, and the rest. -/
def State.deliverCmd (s : State) (port : Fin 16) (p : Packet) : Outcome :=
  let op := p.opcode
  if op = 0x10 then s.arriveFw port p
  else if p.critical then s.arriveCrit op port p
  else if op = 0x40 then execRegRead port p s
  else if op = 0x41 then execRegWrite port p s
  else if op = 0x42 then execRegShadowSync port p s
  else if op = 0x43 then execFwChunk port p s
  else s.deliverCommand port p

/-- A whole packet delivered to the transaction layer: routed on when it is for another endpoint, else acted on by its row. -/
def State.deliverPacket (s : State) (port : Fin 16) (p : Packet) : Outcome :=
  if p.typ = tTickSync then
    (if field p.body 0 1 = 0 then execAnnounce port p s
    else if field p.body 0 1 = 1 then execDelayReq port p s
    else if field p.body 0 1 = 2 then execDelayResp port p s
    else .next s)
  else if p.dst ≠ s.ep ∨ p.unnamed then execTransitPacket port p s
  else if p.isCompletion then execCmpl port p s
  else if memoryForm p.typ then s.deliverMemory port p
  else if p.typ = tInval then execInval port p s
  else if p.typ = tAttend then execAttend port p s
  else if p.typ = tInvoke then execInvoke port p s
  else s.deliverCmd port p

/-- Packets delivered one after the other; a stop ends the run. -/
def State.deliverAll (s : State) (port : Fin 16) : List (Nat × Nat × List Byte) → Outcome
  | [] => .next s
  | (vc, mac, b) :: t =>
    match s.deliverPacket port (packetOf vc mac b) with
    | .next s => s.deliverAll port t
    | o => o

/-- What a port has received whole is delivered, oldest first (R309, R314). -/
def State.handUp (s : State) (port : Fin 16) : Outcome :=
  let v := s.port port
  if v.delivered.isEmpty then .next s
  else (s.setPort port { v with delivered := [] }).deliverAll port v.delivered

/-- An arrival at a port, then the delivery of the packets it completed. -/
def delivers (port : Fin 16) (o : Outcome) : Outcome :=
  match o with
  | .next s => s.handUp port
  | o => o

/-- DATA_FLIT_RECEIVE. -/
def execDataFlitReceive (port : Fin 16) (corr : Nat) (f : List Byte) (s : State) : Outcome :=
  delivers port (s.arriveData port corr f)

/-- ETH_FRAME_RECEIVE. -/
def execEthFrameReceive (port : Fin 16) (corr uncorr : Nat) (f : List Byte) (fcsOk : Bool) (s : State) : Outcome :=
  delivers port (s.arriveFrame port corr uncorr f fcsOk)

end Sys2Proof.Machine
end

