-- ==== Sys2Proof/Machine/RodScalar.lean ====
section
/-!
DEFINITION. The scalar instructions of a rod: NOP to MUL, LD, ST, BR, LOOP, STEPCTR and FENCE (R173, Table 8.3).
-/

namespace Sys2Proof.Machine

/-- IMM as a 64-bit value. -/
def immOf (w : RodWord) : Nat := if Config.immSigned then unsigned 64 (signed 32 w.imm) else w.imm % 2 ^ 32

/-- The second operand of a scalar instruction, S[B] or IMM, with its poison flag; none when both fields are used. -/
def RodRegs.operand (r : RodRegs) (w : RodWord) : Option (Nat × Bool) :=
  if w.b ≠ 0 ∧ w.imm ≠ 0 then none
  else if w.b = 0 ∧ (w.imm ≠ 0 ∨ Config.zeroIsImmediate = true) then some ((immOf w), false)
  else some (r.getS w.b, bit r.pS w.b)

/-- S[D] ← S[A] op S[B] or IMM, poisoned when an operand is (R152). -/
def scalarOp (op : Nat → Nat → Nat) (i : Nat) (w : RodWord) (s : State) (r : Rod) : Did :=
  legal w (w.fa + w.fb) (match r.regs.operand w with
    | none => .fault 1
    | some (b, pb) => s.didRegs i fun g => g.setS w.d (op (g.getS w.a) b) (bit g.pS w.a || pb))

/-- Shift left. -/
def shlOp (a n : Nat) : Nat := if n < 64 then a * 2 ^ n else Config.shiftBeyond false a n

/-- Shift right; whether the sign comes in is open. -/
def shrOp (a n : Nat) : Nat :=
  if 64 ≤ n then Config.shiftBeyond true a n
  else if Config.shrArithmetic then unsigned 64 (signed 64 a / (2 ^ n : Nat)) else a / 2 ^ n

/-- NOP. -/
def execNop (rod : Fin 544) (w : RodWord) (s : State) : Outcome :=
  rodRow rod 0x00 w (fun s _ => legal w (w.d + w.a + w.b + w.fa + w.fb + w.imm) (.done s 0 none)) s

/-- ADD, modulo 2⁶⁴. -/
def execAdd (rod : Fin 544) (w : RodWord) (s : State) : Outcome := rodRow rod 0x01 w (scalarOp (fun a b => a + b) rod w) s

/-- SUB, modulo 2⁶⁴. -/
def execSub (rod : Fin 544) (w : RodWord) (s : State) : Outcome :=
  rodRow rod 0x02 w (scalarOp (fun a b => a + 2 ^ 64 - b % 2 ^ 64) rod w) s

/-- AND. -/
def execAnd (rod : Fin 544) (w : RodWord) (s : State) : Outcome := rodRow rod 0x03 w (scalarOp Nat.land rod w) s

/-- OR. -/
def execOr (rod : Fin 544) (w : RodWord) (s : State) : Outcome := rodRow rod 0x04 w (scalarOp Nat.lor rod w) s

/-- XOR. -/
def execXor (rod : Fin 544) (w : RodWord) (s : State) : Outcome := rodRow rod 0x05 w (scalarOp Nat.xor rod w) s

/-- SHL. -/
def execShl (rod : Fin 544) (w : RodWord) (s : State) : Outcome := rodRow rod 0x06 w (scalarOp shlOp rod w) s

/-- SHR. -/
def execShr (rod : Fin 544) (w : RodWord) (s : State) : Outcome := rodRow rod 0x07 w (scalarOp shrOp rod w) s

/-- CMP: which value a comparison gives is open. -/
def execCmp (rod : Fin 544) (w : RodWord) (s : State) : Outcome := rodRow rod 0x08 w (scalarOp Config.cmp rod w) s

/-- LI: S[D] ← IMM. -/
def execLi (rod : Fin 544) (w : RodWord) (s : State) : Outcome :=
  rodRow rod 0x09 w (fun s _ => legal w (w.a + w.b + w.fa + w.fb) (s.didRegs rod fun g => g.setS w.d (immOf w) false)) s

/-- MUL: the low half of the product. -/
def execMul (rod : Fin 544) (w : RodWord) (s : State) : Outcome := rodRow rod 0x0A w (scalarOp (fun a b => a * b) rod w) s

/-- LD: 8 bytes of scratch at S[A] into S[D]. -/
def execLd (rod : Fin 544) (w : RodWord) (s : State) : Outcome :=
  rodRow rod 0x10 w (fun s r =>
    let a := r.regs.getS w.a
    legal w (w.b + w.fa + w.fb + w.imm)
      (if bit r.regs.pS w.a then .poison
       else match r.scratchFault a 8 8 false with
        | some c => .fault c
        | none => let (b, p) := r.read a 8; s.didRegs rod fun g => g.setS w.d (leNat b) p)) s

/-- ST: S[B] to 8 bytes of scratch at S[A]. -/
def execSt (rod : Fin 544) (w : RodWord) (s : State) : Outcome :=
  rodRow rod 0x11 w (fun s r =>
    let a := r.regs.getS w.a
    legal w (w.d + w.fa + w.fb + w.imm)
      (if bit r.regs.pS w.a then .poison
       else match r.scratchFault a 8 8 true with
        | some c => .fault c
        | none => .done (s.scratchWrite rod a (leBytes 8 (r.regs.getS w.b)) (bit r.regs.pS w.b)) 0 none)) s

/-- BR: to the instruction at IMM when S[A] is not 0. -/
def execBr (rod : Fin 544) (w : RodWord) (s : State) : Outcome :=
  rodRow rod 0x12 w (fun s r =>
    legal w (w.d + w.b + w.fa + w.fb)
      (if bit r.regs.pS w.a then .poison
       else .done s 0 (if r.regs.getS w.a = 0 then none else some (w.imm % 2 ^ 32)))) s

/-- LOOP: the next IMM[15:0] instructions run S[A] times; with S[A] or the count 0 none of them runs. -/
def execLoop (rod : Fin 544) (w : RodWord) (s : State) : Outcome :=
  rodRow rod 0x13 w (fun s r =>
    let n := w.imm % 65536
    let times := r.regs.getS w.a
    let first := r.regs.pc + 8
    legal w (w.d + w.b + w.fa + w.fb + w.imm / 65536)
      (if bit r.regs.pS w.a then .poison
       else if times = 0 ∨ n = 0 then .done s 0 (some ((first + 8 * n) % 2 ^ 32))
       else .done (s.setRegs rod fun g => { g with loop := some (first, n, times - 1) }) 0 (some first))) s

/-- STEPCTR: S[D] ← the step counter (R288). -/
def execStepctr (rod : Fin 544) (w : RodWord) (s : State) : Outcome :=
  rodRow rod 0x14 w (fun s _ =>
    legal w (w.a + w.b + w.fa + w.fb + w.imm) (s.didRegs rod fun g => g.setS w.d g.step false)) s

/-- FENCE: every unit is idle once each instruction before it has ended, which in this model it has. -/
def execFence (rod : Fin 544) (w : RodWord) (s : State) : Outcome :=
  rodRow rod 0x71 w (fun s _ => legal w (w.d + w.a + w.b + w.fa + w.fb + w.imm) (.done s 0 none)) s

end Sys2Proof.Machine
end

