-- ==== Sys2Proof/Machine/RodVector.lean ====
section
/-!
DEFINITION. The vector unit: loads and stores of scratch and of the frame buffer (R173, R185), lane arithmetic (R220–R224),
conversions and the two fixed functions (R208–R212, R225–R227).
-/

namespace Sys2Proof.Machine

/-! ### Loads and stores -/

/-- VLD: 128 bytes of scratch at S[A] into V[D]. -/
def execVld (rod : Fin 544) (w : RodWord) (s : State) : Outcome :=
  rodRow rod 0x40 w (fun s r =>
    let a := r.regs.getS w.a
    legal w (w.b + w.fa + w.fb + w.imm)
      (if bit r.regs.pS w.a then .poison
       else match r.scratchFault a 128 128 false with
        | some c => .fault c
        | none => let (b, p) := r.read a 128; s.didRegs rod fun g => g.setV w.d (leNat b) p)) s

/-- VST: V[B] to scratch at S[A]. -/
def execVst (rod : Fin 544) (w : RodWord) (s : State) : Outcome :=
  rodRow rod 0x41 w (fun s r =>
    let a := r.regs.getS w.a
    legal w (w.d + w.fa + w.fb + w.imm)
      (if bit r.regs.pS w.a then .poison
       else match r.scratchFault a 128 128 true with
        | some c => .fault c
        | none => .done (s.scratchWrite rod a (leBytes 128 (r.regs.getV w.b)) (bit r.regs.pV w.b)) 0 none)) s

/-- VLDF: 128 bytes of the context's partition at S[A] into V[D]; a held write of the rod is performed first (R174). A tile that runs
again after a vote is given what it read before. -/
def execVldf (rod : Fin 544) (w : RodWord) (s : State) : Outcome :=
  rodRow rod 0x42 w (fun s r =>
    legal w (w.b + w.fa + w.fb + w.imm)
      (if bit r.regs.pS w.a then .poison
       else match s.rehear rod with
        | some (s, b, p) => s.didRegs rod fun g => g.setV w.d (leNat b) p
        | none =>
          let f := rodFrame rod
          let s := if (s.checkOf rod).isSome then s.followAll f else s
          match s.fbOpen f r.ctx (r.regs.getS w.a) 128 with
          | (_, .bounds) => .fault 4
          | (_, .wait) => .stall
          | (s, .open_ o) =>
            let s := s.checkFb f o 128
            let (b, p) := (s.frame f).read o 128
            (s.hear rod b p).didRegs rod fun g => g.setV w.d (leNat b) p)) s

/-- VSTF: V[B] to the context's partition at S[A]. -/
def execVstf (rod : Fin 544) (w : RodWord) (s : State) : Outcome :=
  rodRow rod 0x43 w (fun s r =>
    legal w (w.d + w.fa + w.fb + w.imm)
      (if bit r.regs.pS w.a then .poison
       else match s.fbOpen (rodFrame rod) r.ctx (r.regs.getS w.a) 128 with
        | (_, .bounds) => .fault 4
        | (_, .wait) => .stall
        | (s, .open_ o) =>
          let b := leBytes 128 (r.regs.getV w.b)
          let p := bit r.regs.pV w.b || r.poisonTile
          .done (s.outgoing rod o (.fb o b p) b p) 0 none)) s

/-! ### Lane arithmetic -/

/-- The lanes of a register in a format's width. -/
def lanes (f v : Nat) : List Nat := (List.range (1024 / fmtWidth f)).map fun i => elem v (fmtWidth f) i

/-- Formats of VADD, VMUL, VFMA and the sum of VRED (Table 9.8). -/
def arithFormat (f : Nat) : Bool := fmtIeee f || fmtInt f

/-- Rounding control of an instruction that rounds without P and Q (Table 9.3). -/
def roundImmOk (imm : Nat) : Bool := imm / 65536 == 0 && !bit imm 7 && immMode imm ≤ 5

/-- One lane of an addition, multiplication or fused multiply-add (R221): exact, then rounded once or taken modulo 2ⁿ. -/
def laneArith (f mode : Nat) (sat : Bool) (draw : Nat) (anyNan : Bool) (exact : Num) : Rounded :=
  if fmtInt f then
    match exact with
    | .fin neg n e => wrapInt (fmtWidth f) sat (if neg then -((n * 2 ^ e.toNat : Nat) : Int) else (n * 2 ^ e.toNat : Nat))
    | _ => { code := 0 }
  else roundOp f mode sat draw anyNan exact

/-- The lanes of an arithmetic instruction: each result of `op` on the operands' exact values, with its draw. `readsD`: V[D]
is an operand. -/
def State.arith (s : State) (r : Rod) (w : RodWord) (readsD : Bool) (op : Nat → Num → Num → Num → Num) : Nat × Nat :=
  let f := w.fa
  let mode := immMode w.imm
  let va := lanes f (r.regs.getV w.a)
  let vb := lanes f (r.regs.getV w.b)
  let vd := lanes f (r.regs.getV w.d)
  let rs := (List.range (1024 / fmtWidth f)).map fun i =>
    let a := decodeFmt f (va.getD i 0)
    let b := decodeFmt f (vb.getD i 0)
    let d := decodeFmt f (vd.getD i 0)
    laneArith f mode (immSat w.imm) (if mode = 5 then s.rodDraw r (immGen w.imm) i else 0)
      (a.isNan || b.isNan || (readsD && d.isNan)) (op mode a b d)
  (elems (fmtWidth f) (rs.map (·.code)), rs.foldl (fun e x => Nat.lor e x.ev) 0)

/-- An arithmetic instruction. -/
def vectorArith (readsD : Bool) (op : Nat → Num → Num → Num → Num) (i : Nat) (w : RodWord) (s : State) (r : Rod) : Did :=
  if w.rsv + w.fb ≠ 0 ∨ arithFormat w.fa = false ∨ roundImmOk w.imm = false ∨ immOp w.imm ≠ 0 ∨
      drawSpent r.regs (immMode w.imm) = true then .fault 1
  else
    let (v, ev) := s.arith r w readsD op
    s.didRegs i (fun g =>
      (g.setV w.d v (bit g.pV w.a || bit g.pV w.b || (readsD && bit g.pV w.d))).drew (immMode w.imm)) ev

/-- VADD. -/
def execVadd (rod : Fin 544) (w : RodWord) (s : State) : Outcome :=
  rodRow rod 0x48 w (vectorArith false (fun mode a b _ => addNum mode a b) rod w) s

/-- VMUL. -/
def execVmul (rod : Fin 544) (w : RodWord) (s : State) : Outcome :=
  rodRow rod 0x49 w (vectorArith false (fun _ a b _ => mulNum a b) rod w) s

/-- VFMA: V[A] × V[B] + V[D]. -/
def execVfma (rod : Fin 544) (w : RodWord) (s : State) : Outcome :=
  rodRow rod 0x4E w (vectorArith true (fun mode a b d => addNum mode (mulNum a b) d) rod w) s

/-- A lane of a 6-bit format without the bits it ignores. -/
def laneCode (f c : Nat) : Nat := if fmtSix f then c % 64 else c

/-- VMAX and VMIN of two lanes (R222). -/
def laneMax (greatest : Bool) (f a b : Nat) : Nat :=
  let x := decodeFmt f a
  let y := decodeFmt f b
  if x.isNan || y.isNan then fmtNan f
  else laneCode f (if (if greatest then Num.lt true x y else Num.lt true y x) then b else a)

/-- VCMP of two lanes (R224). -/
def laneCmp (op f a b : Nat) : Bool :=
  let x := decodeFmt f a
  let y := decodeFmt f b
  let nan := x.isNan || y.isNan
  if op = 0 then x.eqv y else if op = 1 then !nan && Num.lt false x y
  else if op = 2 then !nan && (Num.lt false x y || x.eqv y) else if op = 3 then nan else nan || !x.eqv y

/-- A per-lane instruction that does not round: the result of `op` on the lanes of V[D], V[A] and V[B], without the bits that a 6-bit
format ignores (R196). -/
def vectorLanes (ops : Nat) (readsD : Bool) (op : Nat → Nat → Nat → Nat) (i : Nat) (w : RodWord) (s : State) : Did :=
  if w.rsv + w.fb ≠ 0 ∨ 0xF ≤ w.fa ∨ w.imm / 8 ≠ 0 ∨ ops ≤ immOp w.imm then .fault 1
  else s.didRegs i fun g =>
    let codes (n : Nat) : List Nat := (lanes w.fa (g.getV n)).map (laneCode w.fa)
    let va := codes w.a
    let vb := codes w.b
    let vd := codes w.d
    let out := (List.range va.length).map fun k => op (vd.getD k 0) (va.getD k 0) (vb.getD k 0)
    g.setV w.d (elems (fmtWidth w.fa) out) (bit g.pV w.a || bit g.pV w.b || (readsD && bit g.pV w.d))

/-- VMAX. -/
def execVmax (rod : Fin 544) (w : RodWord) (s : State) : Outcome :=
  rodRow rod 0x4A w (fun s _ => vectorLanes 1 false (fun _ a b => laneMax true w.fa a b) rod w s) s

/-- VMIN. -/
def execVmin (rod : Fin 544) (w : RodWord) (s : State) : Outcome :=
  rodRow rod 0x4B w (fun s _ => vectorLanes 1 false (fun _ a b => laneMax false w.fa a b) rod w s) s

/-- VCMP: all ones where the predicate holds. -/
def execVcmp (rod : Fin 544) (w : RodWord) (s : State) : Outcome :=
  rodRow rod 0x4C w (fun s _ => vectorLanes 5 false
    (fun _ a b => if laneCmp (immOp w.imm) w.fa a b then 2 ^ fmtWidth w.fa - 1 else 0) rod w s) s

/-- VSEL: each lane is V[A]'s or V[B]'s; what selects is open. -/
def execVsel (rod : Fin 544) (w : RodWord) (s : State) : Outcome :=
  rodRow rod 0x4D w (fun s _ => vectorLanes 1 Config.selectReadsD (fun d a b => if Config.selectsA d a b then a else b) rod w s) s

/-- VSHUF: each lane is some lane of V[A]; which one is open. No field of Table 9.3 is its own, so IMM must be 0 (R202). -/
def execVshuf (rod : Fin 544) (w : RodWord) (s : State) : Outcome :=
  rodRow rod 0x54 w (fun s r =>
    if w.rsv ≠ 0 ∨ 0xF ≤ w.fa ∨ 0xF ≤ w.fb ∨ w.imm ≠ 0 then .fault 1
    else
      let va := (lanes w.fa (r.regs.getV w.a)).map (laneCode w.fa)
      let vb := r.regs.getV w.b
      let out := (List.range va.length).map fun k =>
        va.getD (Config.shuffleSource w.fa w.fb w.b w.imm vb k % va.length) 0
      s.didRegs rod fun g =>
        g.setV w.d (elems (fmtWidth w.fa) out) (bit g.pV w.a || (Config.shuffleReadsB && bit g.pV w.b))) s

/-! ### Reduction (R223) -/

/-- One level: neighbouring pairs combined, the draws numbered on from `k`. -/
def redLevel (op : Nat → Nat → Nat → Rounded) : (k : Nat) → List Nat → List Rounded
  | k, a :: b :: t => op k a b :: redLevel op (k + 1) t
  | _, _ => []

/-- The levels until one element remains; the exceptions met. -/
def redTree (op : Nat → Nat → Nat → Rounded) : (fuel : Nat) → (k ev : Nat) → List Nat → Nat × Nat
  | 0, _, ev, l => (l.headD 0, ev)
  | fuel + 1, k, ev, l =>
    if l.length ≤ 1 then (l.headD 0, ev)
    else
      let rs := redLevel op k l
      redTree op fuel (k + rs.length) (rs.foldl (fun e x => Nat.lor e x.ev) ev) (rs.map (·.code))

/-- VRED: OP 0 the sum, 1 the maximum, into lane 0 of V[D]. -/
def execVred (rod : Fin 544) (w : RodWord) (s : State) : Outcome :=
  rodRow rod 0x53 w (fun s r =>
    let f := w.fa
    let sum := immOp w.imm = 0
    let mode := if sum then immMode w.imm else 0
    if w.rsv + w.b + w.fb ≠ 0 ∨ 0xF ≤ f ∨ 1 < immOp w.imm ∨ (sum ∧ arithFormat f = false) ∨ roundImmOk w.imm = false ∨
        drawSpent r.regs mode = true then .fault 1
    else
      let op (k a b : Nat) : Rounded :=
        if sum then
          let x := decodeFmt f a
          let y := decodeFmt f b
          laneArith f mode (immSat w.imm) (if mode = 5 then s.rodDraw r (immGen w.imm) k else 0) (x.isNan || y.isNan)
            (addNum mode x y)
        else { code := laneMax true f a b }
      let (v, ev) := redTree op 8 0 0 (lanes f (r.regs.getV w.a))
      s.didRegs rod (fun g => (g.setV w.d v (bit g.pV w.a)).drew mode) ev) s

/-! ### Conversions and fixed functions -/

/-- Lanes of an instruction that converts (R208). -/
def cvtLanes (fa fb : Nat) : Nat := 1024 / max (fmtWidth fa) (fmtWidth fb)

/-- Whether the fields of VCVT, VEXP or VRCP are allowed, apart from the formats. -/
def cvtOk (w : RodWord) : Bool :=
  let n := cvtLanes w.fa w.fb
  w.rsv + w.b == 0 && w.imm / 2 ^ 24 == 0 && !bit w.imm 7 && immMode w.imm ≤ 5 && immOp w.imm == 0 &&
    n * (immP w.imm + 1) ≤ 1024 / fmtWidth w.fa && n * (immQ w.imm + 1) ≤ 1024 / fmtWidth w.fb

/-- Part P of V[A] through `op` into part Q of V[D], the other elements kept (R208). -/
def vectorCvt (formats : Bool) (op : (mode : Nat) → (sat : Bool) → (draw : Nat) → Num → Rounded) (i : Nat) (w : RodWord)
    (s : State) (r : Rod) : Did :=
  if formats = false ∨ cvtOk w = false ∨ drawSpent r.regs (immMode w.imm) = true then .fault 1
  else
    let n := cvtLanes w.fa w.fb
    let mode := immMode w.imm
    let va := lanes w.fa (r.regs.getV w.a)
    let vd := lanes w.fb (r.regs.getV w.d)
    let rs := (List.range n).map fun k =>
      op mode (immSat w.imm) (if mode = 5 then s.rodDraw r (immGen w.imm) k else 0)
        (decodeFmt w.fa (va.getD (n * immP w.imm + k) 0))
    let q := n * immQ w.imm
    let out := vd.take q ++ rs.map (·.code) ++ vd.drop (q + n)
    s.didRegs i (fun g =>
      (g.setV w.d (elems (fmtWidth w.fb) out) (bit g.pV w.a || bit g.pV w.d)).drew mode)
      (rs.foldl (fun e x => Nat.lor e x.ev) 0)

/-- VCVT (R209). -/
def execVcvt (rod : Fin 544) (w : RodWord) (s : State) : Outcome :=
  rodRow rod 0x50 w (vectorCvt (w.fa < 0xF && w.fb < 0xF) (roundFmt w.fb) rod w) s

/-- The three formats VEXP and VRCP read. -/
def smallFloat (f : Nat) : Bool := f == 0xA || f == 0xB || f == 0xD

/-- VEXP (R226). -/
def execVexp (rod : Fin 544) (w : RodWord) (s : State) : Outcome :=
  rodRow rod 0x51 w (vectorCvt (smallFloat w.fa && (smallFloat w.fb || w.fb == 7)) (expNum w.fb) rod w) s

/-- VRCP (R227). -/
def execVrcp (rod : Fin 544) (w : RodWord) (s : State) : Outcome :=
  rodRow rod 0x52 w (vectorCvt (smallFloat w.fa && smallFloat w.fb) (rcpNum w.fb) rod w) s

end Sys2Proof.Machine
end

