-- ==== Sys2Proof/Machine/Dispatch.lean ====
section
/-!
DEFINITION. One arm per command: each calls the meaning of its row.
-/

namespace Sys2Proof.Machine

/-- A command's effect on everything but the queue, by its row of spec/opcode_table.json. -/
def exec (i : Instr) (s : State) : Host.Outcome State Fault Refusal :=
  match i with
  | .powerInputRise mv heldMs => Sys2Proof.Machine.execPowerInputRise mv heldMs s
  | .hotSwapPinChange mated => Sys2Proof.Machine.execHotSwapPinChange mated s
  | .brownOutTurnOff mv ns => Sys2Proof.Machine.execBrownOutTurnOff mv ns s
  | .overVoltageTurnOff mv ns => Sys2Proof.Machine.execOverVoltageTurnOff mv ns s
  | .railOutOfBand page => Sys2Proof.Machine.execRailOutOfBand page s
  | .moduleReset lowNs released => Sys2Proof.Machine.execModuleReset lowNs released s
  | .strapSampling pins => Sys2Proof.Machine.execStrapSampling pins s
  | .strapRecheck pins => Sys2Proof.Machine.execStrapRecheck pins s
  | .powerSample mv dw => Sys2Proof.Machine.execPowerSample mv dw s
  | .throttleStepTakesEffect => Sys2Proof.Machine.execThrottleStepTakesEffect s
  | .thermalThresholdCross t => Sys2Proof.Machine.execThermalThresholdCross t s
  | .thermalStepFall t => Sys2Proof.Machine.execThermalStepFall t s
  | .thermalTrip t => Sys2Proof.Machine.execThermalTrip t s
  | .tripTurnOff => Sys2Proof.Machine.execTripTurnOff s
  | .page x page => Sys2Proof.Machine.execPage x page s
  | .clearFaults x => Sys2Proof.Machine.execClearFaults x s
  | .statusWord x => Sys2Proof.Machine.execStatusWord x s
  | .readVin x => Sys2Proof.Machine.execReadVin x s
  | .readIin x => Sys2Proof.Machine.execReadIin x s
  | .readVout x => Sys2Proof.Machine.execReadVout x s
  | .readIout x => Sys2Proof.Machine.execReadIout x s
  | .readTemperature1 x => Sys2Proof.Machine.execReadTemperature1 x s
  | .readPout x => Sys2Proof.Machine.execReadPout x s
  | .readPin x => Sys2Proof.Machine.execReadPin x s
  | .telemetryRefresh pages => Sys2Proof.Machine.execTelemetryRefresh pages s
  | .smbusBlockRead addr offset len => Sys2Proof.Machine.execSmbusBlockRead addr offset len s
  | .smbusAlertClear addr offset value => Sys2Proof.Machine.execSmbusAlertClear addr offset value s
  | .smbusAlertResponse => Sys2Proof.Machine.execSmbusAlertResponse s
  | .jtagIdcode => Sys2Proof.Machine.execJtagIdcode s
  | .jtagBypass => Sys2Proof.Machine.execJtagBypass s
  | .jtagSamplePreload pins shifted => Sys2Proof.Machine.execJtagSamplePreload pins shifted s
  | .jtagExtest pins shifted => Sys2Proof.Machine.execJtagExtest pins shifted s
  | .jtagExtestPulse pins shifted => Sys2Proof.Machine.execJtagExtestPulse pins shifted s
  | .jtagExtestTrain pins shifted => Sys2Proof.Machine.execJtagExtestTrain pins shifted s
  | .romPhaseEnd => Sys2Proof.Machine.execRomPhaseEnd s
  | .recoveryLinkTimeout => Sys2Proof.Machine.execRecoveryLinkTimeout s
  | .selftestEnd r => Sys2Proof.Machine.execSelftestEnd r s
  | .restoreEnd => Sys2Proof.Machine.execRestoreEnd s
  | .trainEnd r => Sys2Proof.Machine.execTrainEnd r s
  | .controllerZeroDone c => Sys2Proof.Machine.execControllerZeroDone c s
  | .zeroEnd => Sys2Proof.Machine.execZeroEnd s
  | .phaseLimit r t => Sys2Proof.Machine.execPhaseLimit r t s
  | .tickListenEnd => Sys2Proof.Machine.execTickListenEnd s
  | .serviceEntry => Sys2Proof.Machine.execServiceEntry s
  | .joinRepeat => Sys2Proof.Machine.execJoinRepeat s
  | .join port p => Sys2Proof.Machine.execJoin port p s
  | .refLoss pll => Sys2Proof.Machine.execRefLoss pll s
  | .pllRelock pll => Sys2Proof.Machine.execPllRelock pll s
  | .clockEnableWrite port p => Sys2Proof.Machine.execClockEnableWrite port p s
  | .clockSourceSelect port p => Sys2Proof.Machine.execClockSourceSelect port p s
  | .muxSwitchDone d => Sys2Proof.Machine.execMuxSwitchDone d s
  | .muxWatchdog d => Sys2Proof.Machine.execMuxWatchdog d s
  | .announceSend => Sys2Proof.Machine.execAnnounceSend s
  | .announce port p => Sys2Proof.Machine.execAnnounce port p s
  | .delayReq port p => Sys2Proof.Machine.execDelayReq port p s
  | .delayResp port p => Sys2Proof.Machine.execDelayResp port p s
  | .tickHoldRelease => Sys2Proof.Machine.execTickHoldRelease s
  | .tickSyncTimeout => Sys2Proof.Machine.execTickSyncTimeout s
  | .regRead port p => Sys2Proof.Machine.execRegRead port p s
  | .regWrite port p => Sys2Proof.Machine.execRegWrite port p s
  | .regShadowSync port p => Sys2Proof.Machine.execRegShadowSync port p s
  | .pinMaxRead port p => Sys2Proof.Machine.execPinMaxRead port p s
  | .refDebtRead port p => Sys2Proof.Machine.execRefDebtRead port p s
  | .qdepthMaxRead port p => Sys2Proof.Machine.execQdepthMaxRead port p s
  | .issuerKeyInstall port p => Sys2Proof.Machine.execIssuerKeyInstall port p s
  | .issuerKeyRetire port p => Sys2Proof.Machine.execIssuerKeyRetire port p s
  | .counterFloorWritten ok => Sys2Proof.Machine.execCounterFloorWritten ok s
  | .swap port p => Sys2Proof.Machine.execSwap port p s
  | .swapCancel port p => Sys2Proof.Machine.execSwapCancel port p s
  | .swapFire => Sys2Proof.Machine.execSwapFire s
  | .commit port p => Sys2Proof.Machine.execCommit port p s
  | .commitComplete ok => Sys2Proof.Machine.execCommitComplete ok s
  | .commitTimeout => Sys2Proof.Machine.execCommitTimeout s
  | .keyInstall port p => Sys2Proof.Machine.execKeyInstall port p s
  | .keyActivate => Sys2Proof.Machine.execKeyActivate s
  | .keyRetire port p => Sys2Proof.Machine.execKeyRetire port p s
  | .keyRetireFire => Sys2Proof.Machine.execKeyRetireFire s
  | .keyRefsZero slot => Sys2Proof.Machine.execKeyRefsZero slot s
  | .keyRetireDeadline slot => Sys2Proof.Machine.execKeyRetireDeadline slot s
  | .contextCreate port p => Sys2Proof.Machine.execContextCreate port p s
  | .contextCreateFire => Sys2Proof.Machine.execContextCreateFire s
  | .contextDestroy port p => Sys2Proof.Machine.execContextDestroy port p s
  | .contextDestroyFire => Sys2Proof.Machine.execContextDestroyFire s
  | .contextDrainEnd ctx => Sys2Proof.Machine.execContextDrainEnd ctx s
  | .contextDrainDeadline ctx => Sys2Proof.Machine.execContextDrainDeadline ctx s
  | .contextFree ctx => Sys2Proof.Machine.execContextFree ctx s
  | .extentGrant port p => Sys2Proof.Machine.execExtentGrant port p s
  | .extentGrantFire => Sys2Proof.Machine.execExtentGrantFire s
  | .extentRevoke port p => Sys2Proof.Machine.execExtentRevoke port p s
  | .extentRevokeFire => Sys2Proof.Machine.execExtentRevokeFire s
  | .extentDrainEnd id => Sys2Proof.Machine.execExtentDrainEnd id s
  | .extentDrainDeadline id => Sys2Proof.Machine.execExtentDrainDeadline id s
  | .extentZeroingDone id => Sys2Proof.Machine.execExtentZeroingDone id s
  | .fwUpdate port p => Sys2Proof.Machine.execFwUpdate port p s
  | .recoveryFwUpdate port p => Sys2Proof.Machine.execRecoveryFwUpdate port p s
  | .roleChange port p => Sys2Proof.Machine.execRoleChange port p s
  | .debugUnlock port p => Sys2Proof.Machine.execDebugUnlock port p s
  | .debugUnlockDone => Sys2Proof.Machine.execDebugUnlockDone s
  | .fwChunk port p => Sys2Proof.Machine.execFwChunk port p s
  | .fwChunkWritten ok => Sys2Proof.Machine.execFwChunkWritten ok s
  | .read port p => Sys2Proof.Machine.execRead port p s
  | .readShared port p => Sys2Proof.Machine.execReadShared port p s
  | .readOwn port p => Sys2Proof.Machine.execReadOwn port p s
  | .readNoalloc port p => Sys2Proof.Machine.execReadNoalloc port p s
  | .write port p => Sys2Proof.Machine.execWrite port p s
  | .writePartial port p => Sys2Proof.Machine.execWritePartial port p s
  | .writeback port p => Sys2Proof.Machine.execWriteback port p s
  | .atomicFetchAdd port p => Sys2Proof.Machine.execAtomicFetchAdd port p s
  | .atomicSwap port p => Sys2Proof.Machine.execAtomicSwap port p s
  | .atomicCas port p => Sys2Proof.Machine.execAtomicCas port p s
  | .exactAdd port p => Sys2Proof.Machine.execExactAdd port p s
  | .snoopInv port p => Sys2Proof.Machine.execSnoopInv port p s
  | .snoopShare port p => Sys2Proof.Machine.execSnoopShare port p s
  | .snoopCopy port p => Sys2Proof.Machine.execSnoopCopy port p s
  | .inval port p => Sys2Proof.Machine.execInval port p s
  | .invalComplete n => Sys2Proof.Machine.execInvalComplete n s
  | .walkComplete n => Sys2Proof.Machine.execWalkComplete n s
  | .cmpl port p => Sys2Proof.Machine.execCmpl port p s
  | .outboundTimeout slot => Sys2Proof.Machine.execOutboundTimeout slot s
  | .outboundGuardEnd slot => Sys2Proof.Machine.execOutboundGuardEnd slot s
  | .e2eRetry slot => Sys2Proof.Machine.execE2eRetry slot s
  | .doneRecordExpire src tag => Sys2Proof.Machine.execDoneRecordExpire src tag s
  | .ringRecordWrite ring => Sys2Proof.Machine.execRingRecordWrite ring s
  | .ringPoll ring => Sys2Proof.Machine.execRingPoll ring s
  | .walkerRootWrite port p => Sys2Proof.Machine.execWalkerRootWrite port p s
  | .ringEnableWrite port p => Sys2Proof.Machine.execRingEnableWrite port p s
  | .schedulerSlot c unit => Sys2Proof.Machine.execSchedulerSlot c unit s
  | .agePromote c unit => Sys2Proof.Machine.execAgePromote c unit s
  | .dramReadDone c unit errs => Sys2Proof.Machine.execDramReadDone c unit errs s
  | .refreshDue c unit bank => Sys2Proof.Machine.execRefreshDue c unit bank s
  | .scrubPeriodEnd c => Sys2Proof.Machine.execScrubPeriodEnd c s
  | .srIdleEnter c => Sys2Proof.Machine.execSrIdleEnter c s
  | .srEntryDone c => Sys2Proof.Machine.execSrEntryDone c s
  | .srExitDone c => Sys2Proof.Machine.execSrExitDone c s
  | .srMaxExpiry c => Sys2Proof.Machine.execSrMaxExpiry c s
  | .srForceWrite port p => Sys2Proof.Machine.execSrForceWrite port p s
  | .trackingStep c ch => Sys2Proof.Machine.execTrackingStep c ch s
  | .fullRetrainStart c ch temp => Sys2Proof.Machine.execFullRetrainStart c ch temp s
  | .retrainDone c ok => Sys2Proof.Machine.execRetrainDone c ok s
  | .eccInjectArm port p => Sys2Proof.Machine.execEccInjectArm port p s
  | .beamHdrError unit src tag => Sys2Proof.Machine.execBeamHdrError unit src tag s
  | .protFwd port p => Sys2Proof.Machine.execProtFwd port p s
  | .protFwdResend n => Sys2Proof.Machine.execProtFwdResend n s
  | .memberRead port p => Sys2Proof.Machine.execMemberRead port p s
  | .reconRead port p => Sys2Proof.Machine.execReconRead port p s
  | .reconTimeout n => Sys2Proof.Machine.execReconTimeout n s
  | .protReload port p => Sys2Proof.Machine.execProtReload port p s
  | .rebuildBead id => Sys2Proof.Machine.execRebuildBead id s
  | .nop rod w => Sys2Proof.Machine.execNop rod w s
  | .add rod w => Sys2Proof.Machine.execAdd rod w s
  | .sub rod w => Sys2Proof.Machine.execSub rod w s
  | .and rod w => Sys2Proof.Machine.execAnd rod w s
  | .or rod w => Sys2Proof.Machine.execOr rod w s
  | .xor rod w => Sys2Proof.Machine.execXor rod w s
  | .shl rod w => Sys2Proof.Machine.execShl rod w s
  | .shr rod w => Sys2Proof.Machine.execShr rod w s
  | .cmp rod w => Sys2Proof.Machine.execCmp rod w s
  | .li rod w => Sys2Proof.Machine.execLi rod w s
  | .mul rod w => Sys2Proof.Machine.execMul rod w s
  | .ld rod w => Sys2Proof.Machine.execLd rod w s
  | .st rod w => Sys2Proof.Machine.execSt rod w s
  | .br rod w => Sys2Proof.Machine.execBr rod w s
  | .loop rod w => Sys2Proof.Machine.execLoop rod w s
  | .stepctr rod w => Sys2Proof.Machine.execStepctr rod w s
  | .accClear rod w => Sys2Proof.Machine.execAccClear rod w s
  | .mmv rod w => Sys2Proof.Machine.execMmv rod w s
  | .accDrain rod w => Sys2Proof.Machine.execAccDrain rod w s
  | .accSpill rod w => Sys2Proof.Machine.execAccSpill rod w s
  | .accAddrec rod w => Sys2Proof.Machine.execAccAddrec rod w s
  | .vld rod w => Sys2Proof.Machine.execVld rod w s
  | .vst rod w => Sys2Proof.Machine.execVst rod w s
  | .vldf rod w => Sys2Proof.Machine.execVldf rod w s
  | .vstf rod w => Sys2Proof.Machine.execVstf rod w s
  | .vadd rod w => Sys2Proof.Machine.execVadd rod w s
  | .vmul rod w => Sys2Proof.Machine.execVmul rod w s
  | .vmax rod w => Sys2Proof.Machine.execVmax rod w s
  | .vmin rod w => Sys2Proof.Machine.execVmin rod w s
  | .vcmp rod w => Sys2Proof.Machine.execVcmp rod w s
  | .vsel rod w => Sys2Proof.Machine.execVsel rod w s
  | .vfma rod w => Sys2Proof.Machine.execVfma rod w s
  | .vcvt rod w => Sys2Proof.Machine.execVcvt rod w s
  | .vexp rod w => Sys2Proof.Machine.execVexp rod w s
  | .vrcp rod w => Sys2Proof.Machine.execVrcp rod w s
  | .vred rod w => Sys2Proof.Machine.execVred rod w s
  | .vshuf rod w => Sys2Proof.Machine.execVshuf rod w s
  | .srecv rod w => Sys2Proof.Machine.execSrecv rod w s
  | .ssend rod w => Sys2Proof.Machine.execSsend rod w s
  | .streamWaitResume rod => Sys2Proof.Machine.execStreamWaitResume rod s
  | .tileEnd rod w => Sys2Proof.Machine.execTileEnd rod w s
  | .fence rod w => Sys2Proof.Machine.execFence rod w s
  | .halt rod w => Sys2Proof.Machine.execHalt rod w s
  | .checkMismatch f sigR sigS => Sys2Proof.Machine.execCheckMismatch f sigR sigS s
  | .voteDone f => Sys2Proof.Machine.execVoteDone f s
  | .spareStandInRequest port p => Sys2Proof.Machine.execSpareStandInRequest port p s
  | .sliceBoundary f => Sys2Proof.Machine.execSliceBoundary f s
  | .tileOverrun rod => Sys2Proof.Machine.execTileOverrun rod s
  | .rodSaveDone rod => Sys2Proof.Machine.execRodSaveDone rod s
  | .rodZeroDone rod => Sys2Proof.Machine.execRodZeroDone rod s
  | .rodRestoreDone rod => Sys2Proof.Machine.execRodRestoreDone rod s
  | .fbZeroDone f => Sys2Proof.Machine.execFbZeroDone f s
  | .jobLoad port p => Sys2Proof.Machine.execJobLoad port p s
  | .jobPlace port p => Sys2Proof.Machine.execJobPlace port p s
  | .jobPlaceComplete port p => Sys2Proof.Machine.execJobPlaceComplete port p s
  | .jobUnload port p => Sys2Proof.Machine.execJobUnload port p s
  | .jobRemove port p => Sys2Proof.Machine.execJobRemove port p s
  | .jobStep port p => Sys2Proof.Machine.execJobStep port p s
  | .jobLaunch job => Sys2Proof.Machine.execJobLaunch job s
  | .fnDisable port p => Sys2Proof.Machine.execFnDisable port p s
  | .fnEnable port p => Sys2Proof.Machine.execFnEnable port p s
  | .fnStatus port p => Sys2Proof.Machine.execFnStatus port p s
  | .invoke port p => Sys2Proof.Machine.execInvoke port p s
  | .callEnter fn => Sys2Proof.Machine.execCallEnter fn s
  | .replyGroupReady fn => Sys2Proof.Machine.execReplyGroupReady fn s
  | .movResume port p => Sys2Proof.Machine.execMovResume port p s
  | .movCancel port p => Sys2Proof.Machine.execMovCancel port p s
  | .triggerRead m => Sys2Proof.Machine.execTriggerRead m s
  | .pieceDeliver m => Sys2Proof.Machine.execPieceDeliver m s
  | .moverPreempt m => Sys2Proof.Machine.execMoverPreempt m s
  | .kvSetup port p => Sys2Proof.Machine.execKvSetup port p s
  | .sessionOpen port p => Sys2Proof.Machine.execSessionOpen port p s
  | .sessionFork port p => Sys2Proof.Machine.execSessionFork port p s
  | .sessionExtend port p => Sys2Proof.Machine.execSessionExtend port p s
  | .sessionCommit port p => Sys2Proof.Machine.execSessionCommit port p s
  | .sessionClose port p => Sys2Proof.Machine.execSessionClose port p s
  | .sessionRenew port p => Sys2Proof.Machine.execSessionRenew port p s
  | .kvStatus port p => Sys2Proof.Machine.execKvStatus port p s
  | .sessionExpire session => Sys2Proof.Machine.execSessionExpire session s
  | .sessionFree session => Sys2Proof.Machine.execSessionFree session s
  | .kvMoveStart session block promote => Sys2Proof.Machine.execKvMoveStart session block promote s
  | .kvMoveDone n => Sys2Proof.Machine.execKvMoveDone n s
  | .kvOldSlotRelease n => Sys2Proof.Machine.execKvOldSlotRelease n s
  | .attend port p => Sys2Proof.Machine.execAttend port p s
  | .attendBlocksResolved n => Sys2Proof.Machine.execAttendBlocksResolved n s
  | .flitSlot port => Sys2Proof.Machine.execFlitSlot port s
  | .dataFlitReceive port corr flit => Sys2Proof.Machine.execDataFlitReceive port corr flit s
  | .idleFlitReceive port corr flit => Sys2Proof.Machine.execIdleFlitReceive port corr flit s
  | .initFlitReceive port corr flit => Sys2Proof.Machine.execInitFlitReceive port corr flit s
  | .downFlitReceive port corr flit => Sys2Proof.Machine.execDownFlitReceive port corr flit s
  | .waitTimeout port => Sys2Proof.Machine.execWaitTimeout port s
  | .replayTimeout port => Sys2Proof.Machine.execReplayTimeout port s
  | .linkTrainingDone port => Sys2Proof.Machine.execLinkTrainingDone port s
  | .trainingTimeout port => Sys2Proof.Machine.execTrainingTimeout port s
  | .initTimeout port => Sys2Proof.Machine.execInitTimeout port s
  | .lockLoss port lanes lostNs => Sys2Proof.Machine.execLockLoss port lanes lostNs s
  | .lockBlip port lanes lostNs => Sys2Proof.Machine.execLockBlip port lanes lostNs s
  | .downHoldExpiry port => Sys2Proof.Machine.execDownHoldExpiry port s
  | .linkRetrain port p => Sys2Proof.Machine.execLinkRetrain port p s
  | .linkHoldDown port p => Sys2Proof.Machine.execLinkHoldDown port p s
  | .ethFrameReceive port corr uncorr frame fcsOk => Sys2Proof.Machine.execEthFrameReceive port corr uncorr frame fcsOk s
  | .pfcFrameReceive port quanta => Sys2Proof.Machine.execPfcFrameReceive port quanta s
  | .pfcRefresh port => Sys2Proof.Machine.execPfcRefresh port s
  | .transitPacket port p => Sys2Proof.Machine.execTransitPacket port p s
  | .routingTableWrite port p => Sys2Proof.Machine.execRoutingTableWrite port p s
  | .oldWritableSet => Sys2Proof.Machine.execOldWritableSet s
  | .flipArm port p => Sys2Proof.Machine.execFlipArm port p s
  | .flipCancel port p => Sys2Proof.Machine.execFlipCancel port p s
  | .epochFlip => Sys2Proof.Machine.execEpochFlip s
  | .boardWindowWrite port p => Sys2Proof.Machine.execBoardWindowWrite port p s
  | .boardArm port p => Sys2Proof.Machine.execBoardArm port p s
  | .boardCancel port p => Sys2Proof.Machine.execBoardCancel port p s
  | .boardSwitch => Sys2Proof.Machine.execBoardSwitch s
  | .throttleRelease port vc => Sys2Proof.Machine.execThrottleRelease port vc s
  | .hostShaperRelease host => Sys2Proof.Machine.execHostShaperRelease host s
  | .meterCommit port p => Sys2Proof.Machine.execMeterCommit port p s
  | .hostRecordCommit port p => Sys2Proof.Machine.execHostRecordCommit port p s
  | .queueShaperCommit port p => Sys2Proof.Machine.execQueueShaperCommit port p s
  | .balanceCheck port p => Sys2Proof.Machine.execBalanceCheck port p s
  | .snoopRetry d bead => Sys2Proof.Machine.execSnoopRetry d bead s
  | .epState port p => Sys2Proof.Machine.execEpState port p s
  | .deadWalkDone d => Sys2Proof.Machine.execDeadWalkDone d s
  | .attest port p => Sys2Proof.Machine.execAttest port p s
  | .attestComplete => Sys2Proof.Machine.execAttestComplete s
  | .attestCert port p => Sys2Proof.Machine.execAttestCert port p s
  | .mgrKeyExpire => Sys2Proof.Machine.execMgrKeyExpire s
  | .takeover => Sys2Proof.Machine.execTakeover s
  | .roleChangeResend => Sys2Proof.Machine.execRoleChangeResend s
  | .takebackRequest => Sys2Proof.Machine.execTakebackRequest s
  | .takeback port p => Sys2Proof.Machine.execTakeback port p s
  | .takebackResend => Sys2Proof.Machine.execTakebackResend s
  | .takebackFire => Sys2Proof.Machine.execTakebackFire s
  | .workerSilent ep => Sys2Proof.Machine.execWorkerSilent ep s
  | .tallyRead port p => Sys2Proof.Machine.execTallyRead port p s
  | .tallySnapshot port p => Sys2Proof.Machine.execTallySnapshot port p s
  | .tallySelectWrite port p => Sys2Proof.Machine.execTallySelectWrite port p s
  | .bwWindowEnd => Sys2Proof.Machine.execBwWindowEnd s
  | .railsGood => Sys2Proof.Machine.execRailsGood s
  | .badFlitReceive port corr uncorr => Sys2Proof.Machine.execBadFlitReceive port corr uncorr s
  | .pfcPauseExpiry port => Sys2Proof.Machine.execPfcPauseExpiry port s
  | .recoverySlotWriteDone ok => Sys2Proof.Machine.execRecoverySlotWriteDone ok s
  | .balanceWaitExpiry => Sys2Proof.Machine.execBalanceWaitExpiry s
  | .balancePageAuditDone => Sys2Proof.Machine.execBalancePageAuditDone s

end Sys2Proof.Machine
end

