-- ==== Sys2Proof/Machine/Step.lean ====
section
/-!
DEFINITION. One step of the block: the command at the front of the queue runs, or 1 ns passes.
-/

namespace Sys2Proof.Machine

/-- The state with the first waiting command taken off the queue. -/
def State.withQueue (s : State) (q : List Instr) : State := { s with pending := q }

/-- One step: the command at the front of the queue runs with the rest still waiting; with nothing waiting, one management
cycle of 1 ns passes (assumption 1). -/
def step (s : State) : Host.Outcome State Fault Refusal :=
  match s.pending with
  | [] => .next (s.elapse 1)
  | c :: q => exec c (s.withQueue q)

/-- The state with the command that a word spells put at the front of the queue. -/
def State.withFetchWord (s : State) (nbits w : Nat) : State :=
  match decodeTableWord nbits w with
  | some c => s.withQueue (c :: s.pending)
  | none => s

end Sys2Proof.Machine
end

