-- ==== Sys2Proof/Safety.lean ====
section
/-!
DEFINITION. The terms the claims are stated in: a command that runs, a packet that is admitted, and the forms every step
keeps.
-/

namespace Sys2Proof.Machine

/-- A command runs from a state: it answers a next state, neither a fault nor a refusal. -/
def Runs (i : Instr) (s : State) : Prop := ∃ t, exec i s = .next t

/-- The packet a row makes of `p` passes every check of the tracker in state `s`, arriving on `port` (none: from the
module's own units), and `t` is the state in which its unit acts: slot taken, tag verified (R360, R413). -/
def State.Accepts (s : State) (r : Rules) (port : Option Nat) (p : Packet) (t : State) : Prop :=
  ∃ u yellow row, s.verdict r port p = (u, .accept yellow row) ∧ (u.accept r port p yellow row).tagOk p = true ∧
    t = (u.accept r port p yellow row).verified p

/-- A command packet of a row is admitted: it comes from the module's own units, or arrives for this module on a port that is
up and passes the policer, and it is accepted; `t` is the state in which its unit acts. -/
def State.Admits (s : State) (r : Rules) (port : Fin 16) (p : Packet) (t : State) : Prop :=
  (∃ u, s.takeLocal (r.form p) = some u ∧ u.Accepts r none (r.form p) t) ∨
  (s.takeLocal (r.form p) = none ∧ s.portUp port = true ∧
    ∃ u, (s.received port (r.form p) none).police (some port.val) (r.form p) = some u ∧
      (r.form p).dst = (u.learn port (r.form p)).ep ∧ (u.learn port (r.form p)).Accepts r (some port.val) (r.form p) t)

/-- The inbound slot of the packet a row makes of `p`. -/
def Rules.slot (r : Rules) (p : Packet) : Nat := slotKey (r.form p).src (r.form p).tag

/-- The inbound slot of a CMD packet of an opcode. -/
def cmdSlot (op : Nat) (p : Packet) : Nat := slotKey (p.ofCmd op).src (p.ofCmd op).tag

/-- A REG_READ of the register `g` is admitted, and `t` is the state in which it acts (R76, R77). -/
def State.AdmitsRead (s : State) (port : Fin 16) (p : Packet) (g : Target) (t : State) : Prop :=
  s.Admits (regRules 0x40 true) port p t ∧ t.regTarget (p.ofCmd 0x40) 4 = .inr g

/-- A REG_WRITE of the value `w` to the register `g` is admitted, and `t` is the state in which it acts (R76, R77). -/
def State.AdmitsWrite (s : State) (port : Fin 16) (p : Packet) (g : Target) (w : Word) (t : State) : Prop :=
  s.Admits (regRules 0x41 false) port p t ∧ t.regTarget (p.ofCmd 0x41) 8 = .inr g ∧ Packet.regValue (p.ofCmd 0x41) = w

/-- A command of a context (R240, R266) is admitted, and waits in the inbound slot `v` of the state `t` in which it acts. -/
def State.AdmitsCtx (s : State) (op : Nat) (port : Fin 16) (p : Packet) (t : State) (v : InSlot) : Prop :=
  s.Admits (ctxCmd op) port p t ∧ t.slot? (cmdSlot op p) = some v

/-- The same for a command of the manager. -/
def State.AdmitsMgr (s : State) (op : Nat) (port : Fin 16) (p : Packet) (t : State) (v : InSlot) : Prop :=
  s.Admits (mgrCmd op) port p t ∧ t.slot? (cmdSlot op p) = some v

/-- The earliest tick a command may name at this one (R74). -/
def State.leadTick (s : State) : Nat := s.tick.count + s.actBits .clk 0 0x040 15 0 * 1000

/-- The rules under which a firmware-update command arrives (R43, R421). -/
def fwRules (port : Fin 16) : Rules :=
  { critRules 0x10 with early := fun s _ => s.boot.state == 7 && s.boot.served == some port.val }

/-- The critical command that a packet of an opcode carries. -/
def critIn (op : Nat) (p : Packet) : Crit := critOf (p.ofCmd op)

/-- A critical command is admitted and passes steps 2 to 8 of Table 4.15 in `t`: its shape, its issuer's slot, its tag, its
counter and its class bit; `o` is its row of Table 4.13. -/
def State.PassesCrit (s : State) (r : Rules) (op : Nat) (port : Fin 16) (p : Packet) (o : CritOp) (t : State) : Prop :=
  let c := critIn op p
  s.Admits r port p t ∧ t.cc.floorWait = none ∧ critOp op = some o ∧ c.op = op ∧ critShape t.ep (p.ofCmd op) = true ∧ o.shape c = true ∧
    (t.issuer c.issuer).st = 1 ∧ critTag (t.issuer c.issuer).key (p.ofCmd op) = c.tag ∧ (t.issuer c.issuer).last < c.counter ∧
    c.counter ≤ ccMax ∧ bit (t.issuer c.issuer).perm o.cls = true

/-- The counter of an accepted command is its issuer's last (R92, R94). -/
def State.counts (s : State) (c : Crit) : State :=
  s.setIssuer c.issuer { s.issuer c.issuer with last := c.counter, lastTag := some c.tag, stored := none, acting := true }

/-- A critical command passes every step of Table 4.15, the tick's and its own checks among them, below its issuer's floor and
before the warning of R93; `v` is the state in which it acts, `k` its unwrapped key. -/
def State.AcceptsCrit (s : State) (r : Rules) (op : Nat) (port : Fin 16) (p : Packet) (v : State) (k : Nat) : Prop :=
  let c := critIn op p
  ∃ o t u, s.PassesCrit r op port p o t ∧ t.critChecks c o = (u, .inl k) ∧ c.counter < (t.issuer c.issuer).floor ∧
    c.counter ≤ ccMax - 2 ^ 32 ∧ v = u.counts c

/-- The rod is ready, the instruction word at its pc lies in scratch on clean lines (R173), it is the one with this opcode and these
fields, and `u` is the state in which it acts. -/
def State.Issues (s : State) (i op : Nat) (w : RodWord) (u : State) : Prop :=
  s.rodReady i = true ∧ ((s.fetched i).rod i).regs.pc < 0x80000 ∧
    badAt ((s.fetched i).rod i).badLines ((s.fetched i).rod i).regs.pc 8 = false ∧
    ((s.fetched i).rod i).word / 2 ^ 56 = op ∧ RodWord.ofBits ((s.fetched i).rod i).word = w ∧ u = (s.fetched i).readied i op w

/-- A rod whose registers an instruction changed by `f`: its pc moved past the instruction, or to `pc`, and the instruction and its
exceptions counted for context `c`; a spare that follows it is one instruction further behind. -/
def State.ran (s : State) (i c : Nat) (f : RodRegs → RodRegs) (ev : Nat := 0) (pc : Option Nat := none) : State :=
  ((((s.setRegs i f).setRegs i fun g => g.advance pc).behind i).tally .rod i 0x26 0 1 (some c)).countEvents i ev c

/-- The rows of the rods' instructions, each with its opcode of Table 8.3. -/
def rodRows : List (Nat × (Fin 544 → RodWord → Instr)) :=
  [(0x00, .nop), (0x01, .add), (0x02, .sub), (0x03, .and), (0x04, .or), (0x05, .xor), (0x06, .shl), (0x07, .shr), (0x08, .cmp),
   (0x09, .li), (0x0A, .mul), (0x10, .ld), (0x11, .st), (0x12, .br), (0x13, .loop), (0x14, .stepctr)] ++
  [(0x20, .accClear), (0x21, .mmv), (0x22, .accDrain), (0x23, .accSpill), (0x24, .accAddrec), (0x40, .vld), (0x41, .vst),
   (0x42, .vldf), (0x43, .vstf), (0x48, .vadd), (0x49, .vmul), (0x4A, .vmax), (0x4B, .vmin), (0x4C, .vcmp), (0x4D, .vsel)] ++
  [(0x4E, .vfma), (0x50, .vcvt), (0x51, .vexp), (0x52, .vrcp), (0x53, .vred), (0x54, .vshuf), (0x60, .srecv), (0x61, .ssend),
   (0x70, .tileEnd), (0x71, .fence), (0x72, .halt)]

/-- Pins are driven from the boundary register only under an EXTEST instruction (R25). -/
def Jtag.Sound (j : Jtag) : Prop := j.driven.isSome = true → 3 ≤ j.ir ∧ j.ir ≤ 5

/-- The forms every step keeps: the memory list is canonical (addresses rising, no byte at its unlisted value), and the test
port drives pins only under EXTEST (R25). -/
def State.Inv (s : State) : Prop := Memory.wf s.mem = true ∧ s.jtag.Sound

end Sys2Proof.Machine
end

