-- ==== Sys2Proof/Certificates/Slice0/Obligations.lean ====
section
/-!
DEFINITION. The statements for the provers, from the numbered rules of the spec: each says what a command, an operation or the
whole block does.
-/

open Sys2Proof Sys2Proof.Machine

/-- A step runs the command at the front of the queue, with the queue's rest still waiting. With nothing waiting, a step lets 1 ns
of model time pass and changes nothing else but the tick, which from boot start on runs one cycle of its PLL; a coasting PLL makes
9,999 cycles in 10,000 ns (Table 3.1). (Assumption 1: the model's choice.) -/
def Obligations.StepTakesTheFront : Prop :=
  (∀ (s : State) (c : Instr) (q : List Instr),
     step { s with pending := c :: q } = exec c { s with pending := q }) ∧
  (∀ s : State, s.pending = [] →
     step s = .next { s with
       time := s.time + 1
       tick :=
         if s.boot.started = false then s.tick
         else if bit s.clk.coasting 6 = false then s.tick.pass 1
         else { s.tick.pass ((s.tick.frac + 9999) / 10000) with frac := (s.tick.frac + 9999) % 10000 } })

/-- The forms every step keeps hold after reset, where no memory byte is listed, no command waits, nothing has been sent, the
power stage is off and no boot has begun. -/
def Obligations.ResetHasForms : Prop :=
  State.reset.Inv ∧ State.reset.mem = [] ∧ State.reset.pending = [] ∧ State.reset.out = [] ∧ State.reset.pwr.stage = .off ∧
    State.reset.boot.started = false

/-- Every step keeps the memory list canonical, and keeps the pins undriven outside EXTEST (R25). -/
def Obligations.StepKeepsForms : Prop := ∀ s t : State, s.Inv → step s = .next t → t.Inv

/-- Every command answers a next state from every state, leaving the queue as it was; what had been sent stays sent, and neither
model time nor the count of free values drawn runs back. No command lowers the anti-rollback fuse count (R40), and none writes the
flash header's slot hint (R38). -/
def Obligations.CommandsAnswerAndKeep : Prop :=
  (∀ (c : Instr) (s : State), ∃ t, exec c s = .next t ∧ t.pending = s.pending ∧ s.out <+: t.out ∧ s.time ≤ t.time ∧
     s.freeCtr ≤ t.freeCtr) ∧
  (∀ (c : Instr) (s t : State), exec c s = .next t →
     s.boot.fuseSvn ≤ t.boot.fuseSvn ∧ t.flash.hint = s.flash.hint)

/-- The endpoint ID is the sampled SLOT straps, Z above Y above X; a strap left open reads 1; two states with the same sampled
straps have the same endpoint ID, whatever their settings (R20). -/
def Obligations.EndpointFromStraps : Prop :=
  (∀ (s : State) (p : Straps), s.pwr.sampled = some p → p.x < 16 → p.y < 16 → p.z < 16 →
    s.ep < 4096 ∧ s.ep / 256 = p.z ∧ s.ep / 16 % 16 = p.y ∧ s.ep % 16 = p.x) ∧
  (({} : Straps).x = 15 ∧ ({} : Straps).y = 15 ∧ ({} : Straps).z = 15 ∧ ({} : Straps).role = 3) ∧
  (∀ s t : State, s.pwr.sampled = t.pwr.sampled → s.ep = t.ep)

/-- Power comes up (R12–R14, R30, Table 1.5): with PWR_EN_N held at RTN, the stage off and nothing holding it off, an input of
44.0 V or more starts the ramp; held off after a turn-off, it starts once the input has been inside 44.0–59.5 V for 10 ms. With
PWR_EN_N open no input starts it, and none below 44.0 V does. A thermal latch ends when an input below 44.0 V has risen to it
again (assumption 143), and the ramp starts where PWR_EN_N allows it. 34 ms after the ramp started the rails are good and PWR_GOOD
is high (assumption 141); it is high again once every rail is back in its band. -/
def Obligations.PowerComesUp : Prop :=
  ∀ s : State,
    let ramp (mv : Nat) (e : Bool) : State := { s with
      pwr := { s.pwr with inputMv := mv, enLow := e, stage := .ramping, rampAt := s.time, heldOff := false }
      boot := { s.boot with cause := 0 } }
    (∀ mv held, s.pwr.stage = .off → s.pwr.enLow = true → 44000 ≤ mv → s.pwr.heldOff = false →
      exec (.powerInputRise mv held) s = .next (ramp mv true)) ∧
    (∀ mv held, s.pwr.stage = .off → s.pwr.enLow = true → 44000 ≤ mv → mv ≤ 59500 → 10 ≤ held →
      exec (.powerInputRise mv held) s = .next (ramp mv true)) ∧
    (∀ mv held, s.pwr.stage = .off → s.pwr.enLow = false ∨ mv < 44000 →
      exec (.powerInputRise mv held) s = .next { s with pwr := { s.pwr with inputMv := mv } }) ∧
    (∀ mv held, s.pwr.stage = .latchedOff → s.pwr.inputMv < 44000 → 44000 ≤ mv → s.pwr.heldOff = false →
      (s.pwr.enLow = true → exec (.powerInputRise mv held) s = .next (ramp mv true)) ∧
      (s.pwr.enLow = false →
        exec (.powerInputRise mv held) s = .next { s with pwr := { s.pwr with inputMv := mv, stage := .off } })) ∧
    (s.pwr.stage = .off → s.pwr.heldOff = false → 44000 ≤ s.pwr.inputMv →
      exec (.hotSwapPinChange true) s = .next (ramp s.pwr.inputMv true)) ∧
    (s.pwr.stage = .ramping →
      let u := s.elapseTo (s.pwr.rampAt + 34000000)
      exec .railsGood s = .next { u with pwr := { u.pwr with stage := .conducting, railsGood := true, pwrGood := true } }) ∧
    (s.pwr.stage = .conducting → exec .railsGood s = .next { s with pwr := { s.pwr with pwrGood := true } })

/-- The module turns off (R12–R14, R30): when PWR_EN_N opens, on a brown-out below 42.0 V longer than 100 µs, on an over-voltage
above 60.5 V longer than 10 µs, and 100 µs after a thermal trip. Every part of it is then as after reset, memory and settings with
it, but for the flash (which changes only where a write to it was in progress, and whose slot hint stands), the fuse count and the
outside of its pins. After a trip the stage is latched off; after a brown-out or over-voltage it is held off until the input has
been inside its range. -/
def Obligations.TurnOffLosesEverything : Prop :=
  ∀ s : State,
    let off (u : State) (fl : Flash) (st : Stage) (held : Bool) : State := {
      time := u.time, flash := fl, out := u.out, freeCtr := u.freeCtr + 1, pending := u.pending
      boot := { cause := 0, fuseSvn := u.boot.fuseSvn }
      pwr := { inputMv := u.pwr.inputMv, stage := st, enLow := u.pwr.enLow, heldOff := held, resetN := u.pwr.resetN
               releasedAt := u.pwr.releasedAt, pins := u.pwr.pins } }
    let kept (fl : Flash) : Prop := fl.hint = s.flash.hint ∧
      (s.cc.floorWait = none → s.cc.commit = none → s.cc.recovery = none → fl = s.flash)
    (s.on = true → ∃ fl, kept fl ∧
      exec (.hotSwapPinChange false) s = .next (off { s with pwr := { s.pwr with enLow := false } } fl .off false)) ∧
    (∀ mv ns, s.on = true → mv < 42000 → 100000 < ns → ∃ fl, kept fl ∧
      exec (.brownOutTurnOff mv ns) s = .next (off { s with pwr := { s.pwr with inputMv := mv } } fl .off true)) ∧
    (∀ mv ns, s.on = true → 60500 < mv → 10000 < ns → ∃ fl, kept fl ∧
      exec (.overVoltageTurnOff mv ns) s = .next (off { s with pwr := { s.pwr with inputMv := mv } } fl .off true)) ∧
    (∀ at_, s.pwr.tripAt = some at_ → ∃ fl, kept fl ∧
      exec .tripTurnOff s = .next (off (s.elapseTo (at_ + 100000)) fl .latchedOff false)) ∧
    (s.on = false → exec (.hotSwapPinChange false) s = .next { s with pwr := { s.pwr with enLow := false } }) ∧
    (∀ mv ns, 42000 ≤ mv ∨ ns ≤ 100000 →
      exec (.brownOutTurnOff mv ns) s = .next { s with pwr := { s.pwr with inputMv := mv } }) ∧
    (∀ mv ns, mv ≤ 60500 ∨ ns ≤ 10000 →
      exec (.overVoltageTurnOff mv ns) s = .next { s with pwr := { s.pwr with inputMv := mv } })

/-- A low of MOD_RESET_N shorter than 10 µs changes nothing; one of 10 µs or more resets a module that is powered, leaving the
power stage, PWR_GOOD, a trip that is to turn it off, the PMBus telemetry, the fuse count, the test access port and the flash
(which changes only where a write to it was in progress, and whose slot hint stands); a boundary-register instruction in force as
the pin goes high is BYPASS from there on and drives no pin (R25). 10 ms of it end a thermal latch, and the ramp starts if
PWR_EN_N is at RTN and the input at 44.0 V or more (R12, R13, R18, R30). -/
def Obligations.ModuleResetKeepsPower : Prop :=
  ∀ (s : State) (low : Nat) (rel : Bool),
    let released (r : Nat) : Nat := if rel then s.time else r
    (low < 10000 → exec (.moduleReset low rel) s = .next s) ∧
    (10000 ≤ low → s.on = true → ∃ fl : Flash, fl.hint = s.flash.hint ∧
      (s.cc.floorWait = none → s.cc.commit = none → s.cc.recovery = none → fl = s.flash) ∧
      exec (.moduleReset low rel) s = .next {
        time := s.time, flash := fl, out := s.out, freeCtr := s.freeCtr + 1, pending := s.pending
        jtag := if rel = true ∧ 2 ≤ s.jtag.ir then { s.jtag with ir := 1, driven := none } else s.jtag
        boot := { cause := if s.boot.started then 1 else s.boot.cause, fuseSvn := s.boot.fuseSvn }
        pwr := {
          inputMv := s.pwr.inputMv, stage := s.pwr.stage, rampAt := s.pwr.rampAt, enLow := s.pwr.enLow, heldOff := s.pwr.heldOff
          railsGood := s.pwr.railsGood, pwrGood := s.pwr.pwrGood, resetN := rel, releasedAt := released s.pwr.releasedAt
          pins := s.pwr.pins, page := s.pwr.page, telemetry := s.pwr.telemetry, latched := s.pwr.latched
          tripAt := s.pwr.tripAt } }) ∧
    (10000000 ≤ low → s.pwr.stage = .latchedOff → ∃ t, exec (.moduleReset low rel) s = .next t ∧ t.time = s.time ∧ t.mem = s.mem ∧
      t.pwr.resetN = rel ∧ t.pwr.releasedAt = released s.pwr.releasedAt ∧
      (s.pwr.enLow = true → 44000 ≤ s.pwr.inputMv → t.pwr.stage = .ramping ∧ t.pwr.rampAt = s.time ∧ t.boot.cause = 0) ∧
      (s.pwr.enLow = false ∨ s.pwr.inputMv < 44000 → t.pwr.stage = .off)) ∧
    (10000 ≤ low → low < 10000000 → s.on = false → ∃ j, exec (.moduleReset low rel) s =
      .next { s with pwr := { s.pwr with resetN := rel, releasedAt := released s.pwr.releasedAt }, jtag := j })

/-- PWR_GOOD falls when a rail leaves its band (R15), and nothing else changes. A strap that differs from its sample sets
STRAP_CHANGED, bit 6 of PWR_CAUSE (R19), and leaves the endpoint ID as sampled; straps that read as sampled set nothing. A trip
temperature (R30, Table 1.18) starts the trip: THERM_TRIP, bit 7 of PWR_CAUSE, is set, the time is noted and ALERT_N is low. With
refreshed telemetry (R23) each page's values are those measured and its latched bits gather the new ones; a latched bit anywhere
sets STAGE_FAULT, bit 5 of PWR_CAUSE; a page not measured keeps its values and bits. No memory changes. -/
def Obligations.HealthEventsReport : Prop :=
  (∀ (s : State) (page : Fin 8), s.pwr.stage = .conducting →
     exec (.railOutOfBand page) s = .next { s with pwr := { s.pwr with pwrGood := false } }) ∧
  (∀ (s : State) (pins p : Straps), s.pwr.sampled = some p →
     (p ≠ pins → ∃ t, exec (.strapRecheck pins) s = .next t ∧ (t.reg pwrCause).toNat = (s.reg pwrCause).toNat ||| 64 ∧
       t.ep = s.ep ∧ t.pwr = { s.pwr with pins := pins } ∧ t.mem = s.mem) ∧
     (p = pins → exec (.strapRecheck pins) s = .next { s with pwr := { s.pwr with pins := pins } })) ∧
  (∀ (s : State) (c : Temps), s.pwr.stage = .conducting → s.pwr.tripAt = none →
     (110 ≤ c.die ∨ 105 ≤ max c.hbm c.lpddr ∨ 125 ≤ c.stage) →
     ∃ t, exec (.thermalTrip c) s = .next t ∧ t.pwr = { s.pwr with tempDie := c.die, tempHbm := c.hbm, tempLpddr := c.lpddr
                                                                   tempStage := c.stage, tripAt := some s.time } ∧
       (t.reg pwrCause).toNat = (s.reg pwrCause).toNat ||| 128 ∧ t.alertLow = true ∧ t.mem = s.mem) ∧
  (∀ (s : State) (pages : List (Telemetry × Nat)), s.pwr.stage = .conducting → pages.length ≤ 8 →
     ∃ t, exec (.telemetryRefresh pages) s = .next t ∧ t.mem = s.mem ∧
       (∀ n v bits, pages[n]? = some (v, bits) → tblGet t.pwr.telemetry n {} = v ∧
         tblGet t.pwr.latched n 0 = tblGet s.pwr.latched n 0 ||| bits) ∧
       (∀ n, pages.length ≤ n → tblGet t.pwr.telemetry n {} = tblGet s.pwr.telemetry n {} ∧
         tblGet t.pwr.latched n 0 = tblGet s.pwr.latched n 0) ∧
       (t.pwr.latched ≠ [] → (t.reg pwrCause).toNat = (s.reg pwrCause).toNat ||| 32) ∧
       (t.pwr.latched = [] → t.reg pwrCause = s.reg pwrCause) ∧
       ((∃ x ∈ pages, x.2 ≠ 0) → t.pwr.latched ≠ []))

/-- A power sample (R26), with the limits of the active set: a sample above the peak limit asks for step 2 or more; the 1,000th
sample running above the average limit raises the step by one, the 10,000th running at 95 % of it or less lowers it by one, and no
other sample moves it; the highest sample since the last read is kept. A step that differs from the one in force comes into force
1 µs after the sample that decided it. The throttle step (R27, R28, Table 1.10): in force is then the highest of the power-derived
step, the thermal-derived step and the floor; a hotter sensor raises the thermal step to the one its temperature asks for, and 3
°C below the step's threshold it falls by one. -/
def Obligations.ThrottleFollowsPowerAndHeat : Prop :=
  (∀ (s : State) (mv dw : Nat), s.pwr.stage = .conducting →
     let avg := s.actBits .pwr 0 0x040 15 0 * 10
     let peak := s.actBits .pwr 0 0x040 31 16 * 10
     ∃ t, exec (.powerSample mv dw) s = .next t ∧ t.pwr.pinDw = dw ∧ t.pwr.vinMv = mv ∧ t.pwr.pinMax = max s.pwr.pinMax dw ∧
       t.mem = s.mem ∧ t.pwr.stepForce = s.pwr.stepForce ∧ t.pwr.stepTherm = s.pwr.stepTherm ∧
       (peak < dw → 2 ≤ t.pwr.stepPower) ∧
       (dw ≤ peak → avg < dw → 1000 ≤ s.pwr.aboveRun + 1 → t.pwr.stepPower = min 3 (s.pwr.stepPower + 1)) ∧
       (dw ≤ peak → 20 * dw ≤ 19 * avg → 10000 ≤ s.pwr.belowRun + 1 → t.pwr.stepPower = s.pwr.stepPower - 1) ∧
       (dw ≤ peak → ¬ (avg < dw ∧ 1000 ≤ s.pwr.aboveRun + 1) → ¬ (20 * dw ≤ 19 * avg ∧ 10000 ≤ s.pwr.belowRun + 1) →
         t.pwr.stepPower = s.pwr.stepPower) ∧
       (s.pwr.stepDue = none → t.pwr.stepDue =
         if max (max t.pwr.stepPower s.pwr.stepTherm) s.stepFloor = s.pwr.stepForce then none else some (s.time + 1000))) ∧
  (∀ s : State,
     (∀ due, s.pwr.stepDue = some due →
       let u := s.elapseTo due
       exec .throttleStepTakesEffect s = .next { u with
         pwr := { u.pwr with stepForce := max (max u.pwr.stepPower u.pwr.stepTherm) u.stepFloor, stepDue := none } }) ∧
     (∀ c : Temps, s.pwr.stage = .conducting → s.pwr.stepTherm < max (thermStep c.die s.dieT1) (thermStep (max c.hbm c.lpddr) s.memT1) →
       ∃ t, exec (.thermalThresholdCross c) s = .next t ∧
         t.pwr.stepTherm = max (thermStep c.die s.dieT1) (thermStep (max c.hbm c.lpddr) s.memT1) ∧ t.pwr.tempDie = c.die ∧
         t.pwr.stepPower = s.pwr.stepPower ∧ t.mem = s.mem) ∧
     (∀ (c : Temps) (n : Nat), s.pwr.stage = .conducting → s.pwr.stepTherm = n + 1 → c.die ≤ (s.dieT1 : Int) + 5 * n - 3 →
       max c.hbm c.lpddr ≤ (s.memT1 : Int) + 5 * n - 3 →
       ∃ t, exec (.thermalStepFall c) s = .next t ∧ t.pwr.stepTherm = n ∧ t.pwr.stepPower = s.pwr.stepPower ∧ t.mem = s.mem))

/-- The PMBus (R22, R23, Table 1.8), at the module's own target address while it is powered: a write of PAGE selects a page below
8 and another value is NACKed, a read of it answers the page; CLEAR_FAULTS clears the page's latched bits; the reads answer the
page's values, on page 0 the input's and on the others the rail group's, and change nothing else; every other code and every other
write is NACKed, as everything is while the module is not powered. At another address no row of the PMBus does anything. LINEAR16
is the voltage times 2¹², to within one. The SMBus (R22, R24): at the module's own address a byte-offset read serves the 256-byte
block, an alert clear empties PWR_CAUSE, and any other write is NACKed; the Alert Response Address answers the module's own while
ALERT_N is low; unpowered, all are NACKed, and at another address nothing happens. -/
def Obligations.SidebandCommandsAnswer : Prop :=
  (∀ (s : State) (x : BusXfer) (n : Nat),
     let T := tblGet s.pwr.telemetry s.pwr.page {}
     let sends (o : Out) : Outcome := .next { s with out := s.out ++ [o] }
     let rows : List (Nat × Instr × Nat) := [(0x79, .statusWord x, tblGet s.pwr.latched s.pwr.page 0), (0x88, .readVin x, linear11 T.vin),
       (0x89, .readIin x, linear11 T.iin), (0x8B, .readVout x, linear16 T.vout), (0x8C, .readIout x, linear11 T.iout),
       (0x8D, .readTemperature1 x, linear11 T.temp), (0x96, .readPout x, linear11 T.pout), (0x97, .readPin x, linear11 T.pin)]
     (x.addr = 0x60 + s.slotX % 8 →
       (s.pwr.stage = .conducting →
         (x.write = true →
           (n < 8 → exec (.page x n) s = .next { s with pwr := { s.pwr with page := n } }) ∧
           (8 ≤ n → exec (.page x n) s = sends .nack) ∧
           exec (.clearFaults x) s = .next { s with pwr := { s.pwr with latched := tblDel s.pwr.latched s.pwr.page } } ∧
           ∀ r ∈ rows, exec r.2.1 s = sends .nack) ∧
         (x.write = false →
           exec (.page x n) s = sends (.pmbus s.pwr.page) ∧ exec (.clearFaults x) s = sends .nack ∧
           ∀ r ∈ rows, exec r.2.1 s = sends (if
               (if s.pwr.page = 0 then r.1 ≠ 0x8B ∧ r.1 ≠ 0x8C ∧ r.1 ≠ 0x96 else r.1 ≠ 0x88 ∧ r.1 ≠ 0x89 ∧ r.1 ≠ 0x97)
             then .pmbus r.2.2 else .nack))) ∧
       (s.pwr.stage ≠ .conducting →
         exec (.page x n) s = sends .nack ∧ exec (.clearFaults x) s = sends .nack ∧ ∀ r ∈ rows, exec r.2.1 s = sends .nack)) ∧
     (x.addr ≠ 0x60 + s.slotX % 8 →
       exec (.page x n) s = .next s ∧ exec (.clearFaults x) s = .next s ∧ ∀ r ∈ rows, exec r.2.1 s = .next s)) ∧
  (∀ v : Int, ∃ m : Int, linear16 v = unsigned 16 m ∧ m * 1000 - 1000 < v * 4096 ∧ v * 4096 < m * 1000 + 1000) ∧
  (∀ (s : State) (addr off len v : Nat),
     let sends (o : Out) : Outcome := .next { s with out := s.out ++ [o] }
     let own := 0x50 + s.slotX % 8
     (s.pwr.stage = .conducting →
       (off < 256 → exec (.smbusBlockRead own off len) s = sends (.smbus ((s.smbusBlock.drop off).take len))) ∧
       (256 ≤ off → exec (.smbusBlockRead own off len) s = sends .nack) ∧
       s.smbusBlock.length = 256 ∧
       exec (.smbusAlertClear own 0xFF 1) s = .next (s.setReg pwrCause 0) ∧
       ((off, v) ≠ (0xFF, 1) → exec (.smbusAlertClear own off v) s = sends .nack) ∧
       exec .smbusAlertResponse s = sends (if s.alertLow then .smbus [byte own] else .nack)) ∧
     (s.pwr.stage ≠ .conducting →
       exec (.smbusBlockRead own off len) s = sends .nack ∧ exec (.smbusAlertClear own off v) s = sends .nack ∧
       exec .smbusAlertResponse s = sends .nack) ∧
     (addr ≠ own → exec (.smbusBlockRead addr off len) s = .next s ∧ exec (.smbusAlertClear addr off v) s = .next s))

/-- The test access port (R25), once the module is powered: IDCODE and BYPASS always act; the boundary instructions act while
MOD_RESET_N is low or debug is unlocked, driving the pins only under the EXTESTs, and are BYPASS otherwise. Nothing but the port
and its answer changes; unpowered, nothing does. -/
def Obligations.JtagInstructions : Prop :=
  (∀ s : State, s.pwr.stage = .conducting →
    let bypass : Outcome := .next { s with jtag := { s.jtag with ir := 1, driven := none }, out := s.out ++ [.jtag "BYPASS" 0] }
    let acts (ir pins shifted : Nat) (d : Option Nat) : Outcome := .next { s with
      jtag := { ir := ir, boundary := shifted, driven := d }, out := s.out ++ [.jtag "BOUNDARY" pins] }
    exec .jtagIdcode s = .next { s with
      jtag := { s.jtag with ir := 0, driven := none }
      out := s.out ++ [.jtag "IDCODE" (Config.rev.toNat * 2 ^ 28 + 0x05120A9B)] } ∧
    exec .jtagBypass s = bypass ∧
    (∀ a b, s.pwr.resetN = false ∨ s.ten.debugUnlocked = true →
      exec (.jtagSamplePreload a b) s = acts 2 a b none ∧ exec (.jtagExtest a b) s = acts 3 a b (some b) ∧
      exec (.jtagExtestPulse a b) s = acts 4 a b (some b) ∧ exec (.jtagExtestTrain a b) s = acts 5 a b (some b)) ∧
    (∀ a b, s.pwr.resetN = true → s.ten.debugUnlocked = false →
      exec (.jtagSamplePreload a b) s = bypass ∧ exec (.jtagExtest a b) s = bypass ∧ exec (.jtagExtestPulse a b) s = bypass ∧
      exec (.jtagExtestTrain a b) s = bypass)) ∧
  ∀ (s : State) (a b : Nat), s.pwr.stage ≠ .conducting →
    ∀ c ∈ [Instr.jtagIdcode, .jtagBypass, .jtagSamplePreload a b, .jtagExtest a b, .jtagExtestPulse a b, .jtagExtestTrain a b],
      exec c s = .next s

/-- Strap sampling starts the boot (R11, R19, R35): with the rails good and MOD_RESET_N high, 1 ms after both the pins are
sampled, the ROM phase begins, the role is the strap's (Table 1.7) and every PLL is locked; a manager by strap is its own manager
endpoint. Memory and flash stand. -/
def Obligations.StrapSamplingStartsBoot : Prop :=
  ∀ (s : State) (pins : Straps), s.pwr.railsGood = true → s.pwr.resetN = true → s.boot.started = false →
    ∃ t, exec (.strapSampling pins) s = .next t ∧ t.boot.started = true ∧ t.boot.state = 0 ∧ t.pwr.sampled = some pins ∧
      t.pwr.pins = pins ∧ t.mgr.role = (if pins.role = 2 then 2 else if pins.role = 3 then 1 else 0) ∧
      (pins.role = 2 → t.mgr.ep = some t.ep) ∧ t.clk.pllLocked = 0x7F ∧
      t.time = max s.time (max (s.pwr.rampAt + 34000000) s.pwr.releasedAt + 1000000) ∧ t.boot.phaseAt = t.time ∧
      t.mem = s.mem ∧ t.flash = s.flash

/-- The ROM (R34, R39, R41, R42): an image that passes has a valid signature, a length within its slot, a security version between
the fuse count and 128 and an unrevoked key hash; the preferred slot that passes runs, else the other, with its measurement
written and locked; a preferred slot that reached its limit is not run. With neither, the module is in RECOVERY. -/
def Obligations.RomRunsVerifiedImage : Prop :=
  (∀ (b : List Byte) (fuses k : Nat), imageKey b fuses = some k →
    Config.falconOk b = true ∧ Config.imageLength b ≤ 33550336 ∧ fuses ≤ Config.imageSvn b ∧ Config.imageSvn b ≤ 128 ∧
      k < 4 ∧ Config.vendorKeyHash k = Config.imageKeyHash b ∧ Config.keyNotRevoked k = true) ∧
  (∀ (s : State), s.boot.started = true → s.boot.state = 0 →
    let a := s.checkCopies.firstSlot
    let runs (t : State) (slot k : Nat) (b : List Byte) : Prop := t.boot.state = 1 ∧ t.boot.phaseAt = s.time ∧
      t.boot.slot = slot ∧
      t.boot.keyIndex = k ∧ t.boot.imageSvn = Config.imageSvn b ∧
      t.boot.measured = { digest := Config.shake256 512 b, key := k, svn := Config.imageSvn b, slot := slot, locked := true } ∧
      t.mem = s.mem ∧ t.regs = s.regs
    (∀ k b, s.boot.romOver = false → s.slotKey a = some k → s.image a = some b → ∃ t, exec .romPhaseEnd s = .next t ∧
      runs t a k b) ∧
    (∀ k b, s.slotKey a = none ∨ s.boot.romOver = true → s.slotKey (1 - a) = some k → s.image (1 - a) = some b →
      ∃ t, exec .romPhaseEnd s = .next t ∧ runs t (1 - a) k b) ∧
    (s.slotKey a = none ∨ s.boot.romOver = true → s.slotKey (1 - a) = none → ∃ t, exec .romPhaseEnd s = .next t ∧
      t.boot.state = 7 ∧ t.boot.phaseAt = s.time ∧ t.mem = s.mem))

/-- The self-test's verdicts (R44, Tables 2.3 and 2.5): RESTORE begins with each unit healthy that passed, and a frame serves with
at most one bad rod and both movers good. RESTORE (R47): the settings come from the valid copy of the higher sequence number, the
only valid one, or the defaults where none is valid; which it was and its number are noted, and training follows. -/
def Obligations.SelftestAndRestoreDecide : Prop :=
  (∀ (s : State) (r : SelfTest), s.boot.started = true → s.boot.state = 1 →
     ∃ t, exec (.selftestEnd r) s = .next t ∧ t.boot.state = 2 ∧ t.boot.phaseAt = s.time ∧ t.mem = s.mem ∧ t.regs = s.regs ∧
       (∀ p, p < 16 → bit t.boot.portOk p = (!bit r.link p && !bit r.aes p)) ∧
       (∀ n, n < 4 → bit t.boot.nmcOk n = !bit r.beadCode n) ∧ (∀ g, g < 8 → bit t.boot.fmcOk g = !bit r.beadCode (4 + g)) ∧
       (∀ d, d < 8 → bit t.boot.dirOk d = !bit r.dir d) ∧
       (∀ f, f < 32 → bit t.boot.frameOk f = frameServes r.rod r.mover f) ∧
       t.boot.beamOk = !r.beamParity ∧ t.boot.txnOk = !r.txn ∧ t.boot.xltOk = !r.xlt ∧
       t.boot.crebaOk = (!r.crebaKat && !r.trng)) ∧
  (∀ rodBad movBad f : Nat, frameServes rodBad movBad f = true ↔
     ((List.range 17).filter fun i => bit rodBad (17 * f + i)).length ≤ 1 ∧ bit movBad (2 * f) = false ∧
       bit movBad (2 * f + 1) = false) ∧
  (∀ s : State, s.boot.started = true → s.boot.state = 2 →
     (s.chosenCopy = none → ∃ t, exec .restoreEnd s = .next t ∧ t.boot.source = 3 ∧ t.boot.restoreSeq = 0 ∧ t.boot.state = 3 ∧
       t.boot.phaseAt = s.time ∧ t.mem = s.mem) ∧
     (∀ n r, s.chosenCopy = some (n, r) → ∃ t, exec .restoreEnd s = .next t ∧ t.boot.source = n + 1 ∧
       t.boot.restoreSeq = r.seq ∧ t.boot.state = 3 ∧ t.boot.phaseAt = s.time ∧ t.mem = s.mem) ∧
     (∀ a b, s.boot.copy0Ok = true → s.boot.copy1Ok = true → s.flash.copy0 = some a → s.flash.copy1 = some b →
       s.chosenCopy = some (if a.seq < b.seq then (1, b) else (0, a))) ∧
     (∀ a, s.boot.copy0Ok = true → s.boot.copy1Ok = false → s.flash.copy0 = some a → s.chosenCopy = some (0, a)) ∧
     (∀ b, s.boot.copy0Ok = false → s.boot.copy1Ok = true → s.flash.copy1 = some b → s.chosenCopy = some (1, b)) ∧
     (s.boot.copy0Ok = false → s.boot.copy1Ok = false → s.chosenCopy = none))

/-- Training and zero-fill (R50, R51, R57): once the training of every healthy controller has ended, in one to three attempts, one
that succeeded stays in service and one that failed three times leaves it; a controller zeroed holds no listed byte of its window
and no other byte changes; when all are zeroed the rods, the frame buffers and the directories are empty, and the module is HALTED
if its service level is 0. Service (R55): with ZERO ended and the tick locked the module enters SERVICE and announces itself to
its manager, in a free outbound slot; until it is answered the announcement is sent again every 100 ms. Boot timers: a phase that
reaches its limit ends (R34, Table 2.1): what has not finished is unhealthy, and in ROM the other slot has a limit of its own,
after which the module is in RECOVERY; RECOVERY without a link for 2 s is HALTED (R42); a manager that has listened
BOOT_LISTEN.LISTEN_MS without a TICK_SYNC starts the tick at 0, locked (R54). -/
def Obligations.BootPhasesEnd : Prop :=
  (∀ s : State,
     (∀ r : List TrainResult, s.boot.started = true → s.boot.state = 3 →
       (∀ c, c < 12 → s.ctlOk c = true → ∃ x, r[c]? = some x ∧ ((∃ a ∈ x.tries, a.ok c = true) ∨ x.tries.length = 3)) →
       ∃ t, exec (.trainEnd r) s = .next t ∧ t.boot.state = 4 ∧ t.boot.phaseAt = s.time ∧ t.mem = s.mem ∧
         ∀ c, c < 12 → t.ctlOk c = (s.ctlOk c && (trainOf r c).tries.any fun a => a.ok c)) ∧
     (∀ c : Fin 12, s.boot.state = 4 → s.ctlOk c = true → ∃ t, exec (.controllerZeroDone c) s = .next t ∧
       bit t.boot.zeroDone c = true ∧ t.regs = s.regs ∧
       (∀ a, windowOf a = some c.val → t.byteAt a = 0) ∧ (∀ a, windowOf a ≠ some c.val → t.byteAt a = s.byteAt a)) ∧
     (s.boot.state = 4 → s.allZeroed = true → ∃ t, exec .zeroEnd s = .next t ∧ t.rods = [] ∧ t.dir = [] ∧
       (∀ f, (t.frame f).fb = []) ∧ t.boot.level = s.serviceLevel ∧ t.boot.state = (if s.serviceLevel = 0 then 8 else 5) ∧
       t.mem = s.mem)) ∧
  (∀ (s : State) (m i : Nat), s.mgr.ep = some m → s.freeOut = some i →
     m = s.ep ∨ ((s.route m s.ep s.rtr.inject).isSome = true ∧ tblGet s.txn.sentTo m 0 < Config.quotaAt m) →
     (s.boot.state = 5 → s.tick.locked = true → ∃ t, exec .serviceEntry s = .next t ∧ t.boot.state = 6 ∧
       t.boot.joinAt = some s.time ∧ (t.outSlot i).req.map (·.2) = some .join ∧ t.txn.outUsed = s.txn.outUsed + 1) ∧
     (∀ at_, s.boot.joinAt = some at_ → s.inService = true → s.boot.joinDone = false →
       ∃ t, exec .joinRepeat s = .next t ∧ t.boot.joinAt = some (max s.time (at_ + 100000000)) ∧
         (t.outSlot i).req.map (·.2) = some .join ∧ t.txn.outUsed = s.txn.outUsed + 1)) ∧
  (∀ (s : State) (r : SelfTest) (l : List TrainResult), s.boot.started = true →
     let limit (n : Nat) (t : State) : Prop := exec (.phaseLimit r l) s = .next t ∧ t.time = max s.time (s.boot.phaseAt + n) ∧
       t.mem = s.mem
     (s.boot.state = 0 → s.boot.romOver = false → ∃ t, limit 400000000 t ∧ t.boot.state = 0 ∧ t.boot.romOver = true ∧
       t.boot.phaseAt = t.time) ∧
     (s.boot.state = 0 → s.boot.romOver = true → ∃ t, limit 400000000 t ∧ t.boot.state = 7 ∧ t.boot.phaseAt = t.time) ∧
     (s.boot.state = 1 → ∃ t, limit 100000000 t ∧ t.boot.state = 2 ∧
       (∀ n, n < 4 → bit t.boot.nmcOk n = !bit r.beadCode n) ∧ (∀ g, g < 8 → bit t.boot.fmcOk g = !bit r.beadCode (4 + g)) ∧
       (∀ p, p < 16 → bit t.boot.portOk p = (!bit r.link p && !bit r.aes p)) ∧ (∀ d, d < 8 → bit t.boot.dirOk d = !bit r.dir d)) ∧
     (s.boot.state = 2 → ∃ t, limit 100000000 t ∧ t.boot.state = 3 ∧ t.boot.source = 3) ∧
     (s.boot.state = 3 → ∃ t, limit 500000000 t ∧ t.boot.state = 4 ∧
       ∀ c, c < 12 → t.ctlOk c = (s.ctlOk c && (trainOf l c).tries.any fun a => a.ok c)) ∧
     (s.boot.state = 4 → ∃ t, limit 1500000000 t ∧ (t.boot.state = 5 ∨ t.boot.state = 8) ∧
       ∀ c, c < 12 → t.ctlOk c = (s.ctlOk c && bit s.boot.zeroDone c))) ∧
  (∀ s : State,
     (s.boot.state = 7 → s.boot.served = none → ∃ t, exec .recoveryLinkTimeout s = .next t ∧ t.boot.state = 8 ∧
       t.time = max s.time (s.boot.phaseAt + 2000000000) ∧ t.mem = s.mem ∧ ∀ p, p < 16 → t.port p = {}) ∧
     (∀ from_, s.tick.listenFrom = some from_ → s.mgr.role = 2 → s.tick.locked = false →
       ∃ t, exec .tickListenEnd s = .next t ∧ t.tick.count = 0 ∧ t.tick.locked = true ∧ t.tick.first = true ∧
         t.tick.listenFrom = none ∧ t.time = max s.time (from_ + s.actBits .boot 0 0x040 15 8 * 1000000) ∧ t.mem = s.mem))

/-- Clock references and multiplexers (R64, R66, R67, R72): a lost reference leaves its PLL coasting with REF_LOST set; after
clean edges it is locked again; a switch with both clocks running ends, and one still pending after MUX_WDOG_US ends with its
domain reset and a record: rods, frame buffers and movers; what waits on the beam; ports and their queues; the queues of a memory
tier; the management domain for as long as a free value says (assumption 151). Clock enables and sources (R63, R65): an enable bit
set of an unhealthy block, or cleared of one not idle, does not change, and every other bit takes its value; the selected sources
change together, when every changed domain is quiet (R65), else none does and the write completes BUSY_RETRY. -/
def Obligations.ClocksFollowEventsAndWrites : Prop :=
  (∀ s : State, s.boot.started = true →
     (∀ pll : Fin 7, ∃ t, exec (.refLoss pll) s = .next t ∧ bit t.clk.pllLocked pll = false ∧ bit t.clk.coasting pll = true ∧
       wbit (t.reg 0x2800) (8 + pll) = true ∧ wbit (t.reg 0x2008) 0 = true ∧ t.mem = s.mem ∧
       (pll.val = 6 → s.mgr.role ≠ 2 → t.clk.tickRefPresent = false ∧ t.tick.locked = false) ∧
       (pll.val ≠ 6 ∨ s.mgr.role = 2 → t.clk.xoPresent = false ∧ t.tick = s.tick)) ∧
     (∀ pll : Fin 7, bit s.clk.coasting pll = true → ∃ t, exec (.pllRelock pll) s = .next t ∧
       bit t.clk.pllLocked pll = true ∧ bit t.clk.coasting pll = false ∧ t.regs = s.regs ∧ t.mem = s.mem) ∧
     (∀ (d : Fin 6) (at_ : Nat), tblGet? s.clk.pending d = some at_ → s.clk.xoPresent = true →
       exec (.muxSwitchDone d) s = .next { s with clk := { s.clk with pending := tblDel s.clk.pending d } }) ∧
     (∀ (d : Fin 6) (at_ : Nat), tblGet? s.clk.pending d = some at_ → ∃ t, exec (.muxWatchdog d) s = .next t ∧
       tblGet? t.clk.pending d = none ∧ t.time = max s.time (at_ + s.actBits .clk 0 0x040 31 24 * 1000) ∧ t.mem = s.mem ∧
       wbit (t.reg 0x2008) 2 = true ∧ (d.val = 0 → t.rods = [] ∧ t.movers = [] ∧ ∀ f, (t.frame f).fb = []) ∧
       (d.val = 1 → ∀ c u, (t.unitAt c u).beam = []) ∧
       (d.val = 2 → t.ports = [] ∧ t.rtr.queues = [] ∧ t.rtr.held = []) ∧
       (d.val = 3 → ∀ c, c < 4 → (t.ctlAt c).units = []) ∧ (d.val = 4 → ∀ c, 4 ≤ c → (t.ctlAt c).units = []) ∧
       (d.val = 5 → t.clk.mgmtUntil = t.time + Config.free s.freeCtr))) ∧
  (∀ (s t : State) (port : Fin 16) (p : Packet) (w : Word),
     (s.AdmitsWrite port p (.page .clk 0 0x808) w t → ∃ n st, exec (.clockEnableWrite port p) s =
         .next (State.complete { t with clk := { t.clk with enBlk := n } } (cmdSlot 0x41 p) st) ∧
       ∀ b, b < 19 → bit n b =
         (if bit t.clk.enBlk b = bit w.toNat b then bit t.clk.enBlk b
          else if bit w.toNat b then !t.bitBad (enBlkPage b) else !t.bitIdle (enBlkPage b))) ∧
     (s.AdmitsWrite port p (.page .clk 0 0x804) w t →
       let changed := idxs 6 fun d => bit t.clk.sel d != bit w.toNat d
       (changed.all t.domainQuiet = true → ∃ q, exec (.clockSourceSelect port p) s = .next (State.complete { t with
           clk := { t.clk with sel := w.toNat % 64, pending := q } } (cmdSlot 0x41 p) stOk) ∧
         (∀ d ∈ changed, tblGet? q d = some t.time) ∧ (∀ d, d ∉ changed → tblGet? q d = tblGet? t.clk.pending d)) ∧
       (changed.all t.domainQuiet = false →
         exec (.clockSourceSelect port p) s = .next (t.complete (cmdSlot 0x41 p) stBusy))))

/-- TICK_SYNC messages (R43, R69, R71, R73, Table 3.2): the manager announces on every up port with the next SEQ; a module that
hears a SEQ it has not acted on (assumption 31) in an ANNOUNCE from its manager notes the arrival port and asks, and a later copy
of a SEQ it has acted on raises no second DELAY_REQ; in RECOVERY it only notes the port and joins nothing; the manager answers a
DELAY_REQ; a held count is released when its hold is over; without an answer for 4 × SYNC_PERIOD_US the lock is lost. -/
def Obligations.TickMessages : Prop :=
  ∀ s : State,
    (s.boot.started = true → s.mgr.role = 2 → s.tick.locked = true → ∃ t, exec .announceSend s = .next t ∧
      t.tick.nextSeq = (s.tick.nextSeq + 1) % 65536 ∧ t.tick.sentAt = t.time ∧
      t.time = max s.time (s.tick.sentAt + s.syncPeriod) ∧ t.mem = s.mem ∧
      ∀ q, q < 16 → s.portUp q = true → ∃ p, .packet (some q) p ∈ t.out ∧ p.typ = tTickSync ∧ p.dst = 0xFFF ∧
        syncKind p.body = 0 ∧
        syncSeq p.body = s.tick.nextSeq % 65536) ∧
    (∀ (port : Fin 16) (p : Packet) (m : Nat), s.portUp port = true → syncShaped (syncForm p 0) = true → s.mgr.role ≠ 2 →
      s.boot.state ≠ 7 → s.mgr.ep = some m → syncMgr p.body = m →
      (syncSeq p.body ∉ s.tick.seqs →
        ∃ t, exec (.announce port p) s = .next t ∧ t.tick.seqs = (syncSeq p.body :: s.tick.seqs).take 1024 ∧
          t.tick.lastAnn = s.time ∧ t.tick.req = some (syncSeq p.body, s.tick.count) ∧ t.rtr.annEp = m ∧
          t.rtr.upstream.map (·.1) = some port.val ∧ t.time = s.time ∧ t.mem = s.mem) ∧
      (syncSeq p.body ∈ s.tick.seqs →
        ∃ t, exec (.announce port p) s = .next t ∧ t.tick = { s.tick with lastAnn := s.time } ∧ t.rtr = s.rtr ∧ t.out = s.out ∧
          t.mem = s.mem)) ∧
    (∀ (port : Fin 16) (p : Packet), s.portUp port = true → syncShaped (syncForm p 0) = true → s.boot.state = 7 →
      ∃ t, exec (.announce port p) s = .next t ∧ t.mgr = s.mgr ∧ t.tick.req = s.tick.req ∧ t.tick.lastAnn = s.tick.lastAnn ∧
        (syncSeq p.body ∉ s.tick.seqs → t.tick.seqs = (syncSeq p.body :: s.tick.seqs).take 1024 ∧ t.rtr.annEp = syncMgr p.body ∧
          t.rtr.upstream.map (·.1) = some port.val) ∧
        t.time = s.time) ∧
    (∀ (port : Fin 16) (p : Packet), s.portUp port = true → syncShaped (syncForm p 1) = true → s.mgr.role = 2 → p.dst = s.ep →
      let q := syncForm p 1
      let u := (s.received port q none).learn port q
      let v := match tblGet? s.mgr.roster q.src with
        | some m => { u with mgr := { u.mgr with roster := tblPut s.mgr.roster q.src { m with lastReq := s.time, silent := false } } }
        | none => u
      exec (.delayReq port p) s = .next (v.send (v.syncPacket q.src
        (syncBody 2 (syncSeq q.body) s.ep 0 0 (syncCorr q.body) s.tick.count 0)) none false).1) ∧
    (0 < s.tick.hold → ∃ t, exec .tickHoldRelease s = .next t ∧ t.time = s.time + s.nsForCycles s.tick.hold ∧ t.mem = s.mem ∧
      (bit s.clk.coasting 6 = false → t.time = s.time + s.tick.hold) ∧
      (s.boot.started = true → s.tick.frac < 10000 → t.tick.hold = 0 ∧ t.tick.count = s.tick.count)) ∧
    (s.tick.locked = true → s.mgr.role ≠ 2 → ∃ t, exec .tickSyncTimeout s = .next t ∧ t.tick.locked = false ∧
      t.time = max s.time (s.tick.lastResp + 4 * s.syncPeriod) ∧ wbit (t.reg 0x2008) 1 = true ∧ t.mem = s.mem)

/-- An exchange (R70, R71): delay and offset are the halved sum and difference, rounded down; the first sets the count, an offset
beyond STEP_LIMIT steps or holds it and unlocks, a smaller one slews it, and the correction takes the place of the one under way
(assumption 153); the third in a row within 4 ticks locks. Cycles to a tick (R70, R73): the number of cycles after which a count
that may be held and slewed has risen by `d` is exact: it has risen by `d` then, and had not one cycle before. -/
def Obligations.TickFollowsExchanges : Prop :=
  ((∀ t1 c1 t2 t3 c2 t4 : Int,
     2 * (exchange t1 c1 t2 t3 c2 t4).1 ≤ (t2 - t1 - c1) + (t4 - t3 - c2) ∧
     (t2 - t1 - c1) + (t4 - t3 - c2) < 2 * (exchange t1 c1 t2 t3 c2 t4).1 + 2 ∧
     2 * (exchange t1 c1 t2 t3 c2 t4).2 ≤ (t2 - t1 - c1) - (t4 - t3 - c2) ∧
     (t2 - t1 - c1) - (t4 - t3 - c2) < 2 * (exchange t1 c1 t2 t3 c2 t4).2 + 2) ∧
   ∀ (s : State) (port : Fin 16) (p : Packet) (t1 : Nat), s.portUp port = true → syncShaped (syncForm p 2) = true →
     s.mgr.role ≠ 2 → s.mgr.ep = some (syncForm p 2).src → p.dst = s.ep → s.tick.req = some (syncSeq p.body, t1) →
     let (delay, offset) := exchange t1 (syncC1 p.body) (syncT2 p.body) (syncOrigin p.body) (syncCorr p.body) s.tick.count
     ∃ t, exec (.delayResp port p) s = .next t ∧ t.tick.req = none ∧ t.tick.offset = offset ∧ t.tick.lastResp = s.time ∧
       t.mem = s.mem ∧
       (s.tick.first = false → t.tick.first = true ∧ t.tick.slew = 0 ∧ t.tick.hold = 0 ∧
         t.tick.count = ((syncOrigin p.body : Int) + syncCorr p.body + delay).toNat) ∧
       (s.tick.first = true → s.stepLimit < offset → t.tick.count = s.tick.count + offset.toNat ∧ t.tick.locked = false ∧
         t.tick.slew = 0 ∧ t.tick.hold = 0) ∧
       (s.tick.first = true → offset < -s.stepLimit →
         t.tick.hold = offset.natAbs ∧ t.tick.slew = 0 ∧ t.tick.count = s.tick.count ∧ t.tick.locked = false) ∧
       (s.tick.first = true → offset.natAbs ≤ s.stepLimit.natAbs → t.tick.slew = offset ∧ t.tick.hold = 0 ∧
         t.tick.count = s.tick.count ∧
         (4 < offset.natAbs → t.tick.locked = false) ∧
         (offset.natAbs ≤ 4 → 2 ≤ s.tick.good → t.tick.locked = true) ∧
         (offset.natAbs ≤ 4 → s.tick.good < 2 → t.tick.locked = s.tick.locked ∧ t.tick.good = s.tick.good + 1))) ∧
  (∀ (t : Tick) (d : Nat), t.phase < 64 → 0 < d →
     t.count + d ≤ (t.pass (t.hold + t.cyclesFor d)).count ∧ (t.pass (t.hold + t.cyclesFor d - 1)).count < t.count + d)

/-- Register reads (R76, R79): an admitted REG_READ of a register completes OK with the register's four bytes, in the state the
read leaves; PIN_MAX_READ, REF_DEBT_READ and QDEPTH_MAX_READ are such reads, and leave the highest values they read cleared
(Tables 1.17, 6.16, 14.13). Register writes (R76, R79): an admitted REG_WRITE acts on the register it names and then completes
with the write's status; every register-write row is one. A read or write whose body has another length than the command's, or
whose address is not aligned or beyond the window, is MALFORMED; one of no block, or of a block without clock, is BUS_ERROR; both
have no effect but their completion. -/
def Obligations.RegisterCommandsAct : Prop :=
  let reads := [Instr.regRead, .pinMaxRead, .refDebtRead, .qdepthMaxRead]
  let writes := [Instr.regWrite, .clockEnableWrite, .clockSourceSelect, .walkerRootWrite, .ringEnableWrite, .srForceWrite,
    .eccInjectArm, .protReload, .spareStandInRequest, .linkRetrain, .linkHoldDown, .routingTableWrite, .flipArm, .flipCancel,
    .boardWindowWrite, .boardArm, .boardCancel, .meterCommit, .hostRecordCommit, .queueShaperCommit, .tallySnapshot,
    .tallySelectWrite]
  (∀ (s t : State) (port : Fin 16) (p : Packet) (g : Target), s.AdmitsRead port p g t →
     let k := cmdSlot 0x40 p
     (∀ row ∈ reads,
       exec (row port p) s = .next ((t.readReg (Packet.regAddr (p.ofCmd 0x40)) g).1.complete k stOk
         (leBytes 4 (t.readReg (Packet.regAddr (p.ofCmd 0x40)) g).2))) ∧
     (g = .page .pwr 0 0x808 → exec (.pinMaxRead port p) s =
       .next (State.complete { t with pwr := { t.pwr with pinMax := 0 } } k stOk (leBytes 4 (t.readPage .pwr 0 0x808)))) ∧
     (∀ n, g = .page .nmc n 0x810 → exec (.refDebtRead port p) s =
       .next ((t.setCtl n { t.ctlAt n with debtMax := 0 }).complete k stOk (leBytes 4 (t.readPage .nmc n 0x810)))) ∧
     (∀ n, g = .page .fmc n 0x810 → exec (.refDebtRead port p) s =
       .next ((t.setCtl (4 + n) { t.ctlAt (4 + n) with debtMax := 0 }).complete k stOk (leBytes 4 (t.readPage .fmc n 0x810)))) ∧
     (g = .page .rtr 0 0x858 → exec (.qdepthMaxRead port p) s =
       .next (t.clearDepthMax.complete k stOk (leBytes 4 (t.readPage .rtr 0 0x858)))) ∧
     (∀ kind i, g = .page kind i 0 → exec (.regRead port p) s =
       .next (t.complete k stOk (leBytes 4 (blockType kind * 65536 + i))))) ∧
  (∀ (s t : State) (port : Fin 16) (p : Packet) (g : Target) (w : Word), s.AdmitsWrite port p g w t →
     let r := t.writeReg (Packet.regAddr (p.ofCmd 0x41)) g w
     ∀ row ∈ writes, exec (row port p) s = .next (r.1.complete (cmdSlot 0x41 p) r.2)) ∧
  (∀ (s t : State) (port : Fin 16) (p : Packet),
     ∀ x ∈ ([(0x40, 4, reads), (0x41, 8, writes)] : List (Nat × Nat × List (Fin 16 → Packet → Instr))),
       s.Admits (regRules x.1 (x.1 == 0x40)) port p t →
       let q := p.ofCmd x.1
       let a := Packet.regAddr q
       (q.own.length ≠ x.2.1 ∨ a % 4 ≠ 0 ∨ 0x1000000 ≤ a →
         ∀ row ∈ x.2.2, exec (row port p) s = .next (t.complete (cmdSlot x.1 p) stMalformed)) ∧
       (q.own.length = x.2.1 → a % 4 = 0 → a < 0x1000000 →
         targetOf a = none ∨ (∃ g, targetOf a = some g ∧ t.reachable g = false) →
         ∀ row ∈ x.2.2, exec (row port p) s = .next (t.complete (cmdSlot x.1 p) stBusError)))

/-- Shadow registers (R81, R85): a write keeps only the register's shadow fields and leaves the active set alone; while a swap is
armed it is refused BUSY_RETRY. REG_SHADOW_SYNC (R87) copies the active set into the shadow and sets SHADOW_SYNCED in every page;
a swap of equal sets leaves both as they were. A swap fires (R75, R84): at its tick, with nothing due before it, the shadow and
active sets of every register change places, its ID and tick and the count of swaps are recorded, and no swap is armed. -/
def Obligations.ShadowAndActiveSetsChange : Prop :=
  (∀ (s t : State) (port : Fin 16) (p : Packet),
     (∀ kind i off w r, s.AdmitsWrite port p (.page kind i off) w t → 0x040 ≤ off → off < 0x200 → shReg kind off = some r →
       (t.swapArmed = false → exec (.regWrite port p) s = .next (State.complete { t with
         shadow := cfgPut t.shadow (pageBase kind i + off) (BitVec.ofNat 32 (shClamp kind off (w.toNat &&& r.mask))) }
         (cmdSlot 0x41 p) stOk)) ∧
       (t.swapArmed = true → exec (.regWrite port p) s = .next (t.complete (cmdSlot 0x41 p) stBusy))) ∧
     (s.Admits (regRules 0x42 false) port p t → (p.ofCmd 0x42).own = [] → t.swapArmed = false →
       exec (.regShadowSync port p) s = .next (t.shadowSync.complete (cmdSlot 0x42 p) stOk)) ∧
     (t.shadowSync.shadow = t.active ∧ t.shadowSync.active = t.active ∧
       ∀ (k : PageKind) (i : Nat), bit (t.shadowSync.pageStatus k i) 2 = true) ∧
     (∀ (u : State) (id tick : Nat), t.shadow = t.active → t.cc.swap = some (id, tick) → t.dueBefore tick 6 = false →
       exec .swapFire t = .next u → u.active = t.active ∧ u.shadow = t.shadow)) ∧
  (∀ (s : State) (id tick : Nat), s.cc.swap = some (id, tick) → s.dueBefore tick 6 = false →
     ∃ t, exec .swapFire s = .next t ∧ t.shadow = s.active ∧ t.active = s.shadow ∧ t.cc.swap = none ∧ t.cc.swapId = id ∧
       t.cc.swapCount = (s.cc.swapCount + 1) % 65536 ∧ t.cc.lastTick = (s.elapseToTick tick).tick.count)

/-- LNK_CTRL (R320, Table 13.17): RETRAIN and HOLD_DOWN take the link down; HOLD_DOWN stays as written, RETRAIN reads 0; with
HOLD_DOWN clear a DISABLED port that may train does. Page roots and rings (R120): the address of a valid root, or of an enabled
ring, does not change; otherwise the written word is stored, and a ring being enabled restarts with its counts at 0. -/
def Obligations.LinkAndWalkerWrites : Prop :=
  (∀ (s t : State) (port : Fin 16) (p : Packet) (q : Nat) (w : Word), s.AdmitsWrite port p (.page .lnk q 0x800) w t →
     let u := t.setReg (pageBase .lnk q + 0x800) (w &&& 1)
     ∀ row ∈ [Instr.linkRetrain, .linkHoldDown],
       (wbit w 0 = true → exec (row port p) s = .next ((u.takeDown q).complete (cmdSlot 0x41 p) stOk)) ∧
       (wbit w 0 = false → wbit w 1 = true →
         exec (row port p) s = .next (((u.takeDown q).tryTrain q).complete (cmdSlot 0x41 p) stOk)) ∧
       (wbit w 0 = false → wbit w 1 = false → exec (row port p) s = .next ((u.tryTrain q).complete (cmdSlot 0x41 p) stOk))) ∧
  (∀ (u : State) (q : Nat), (u.takeDown q).portUp q = false ∧ (∀ i, i ≠ q → ((u.takeDown q).port i).st = (u.port i).st) ∧
     ((u.port q).st = .disabled → u.mayTrain q = true → 4 ≤ u.boot.state → ((u.tryTrain q).port q).st = .training) ∧
     ((u.port q).st ≠ .disabled ∨ u.mayTrain q = false ∨ u.boot.state < 4 → u.tryTrain q = u)) ∧
  (∀ (s t : State) (port : Fin 16) (p : Packet) (w : Word) (n : Nat), s.AdmitsWrite port p .walker w t → n < 1024 →
     let k := cmdSlot 0x41 p
     let r := t.ring n
     (Packet.regAddr (p.ofCmd 0x41) = 0x900000 + 32 * n →
       (wbit r.rootLo 0 = false ∨ wbits w 31 17 = wbits r.rootLo 31 17 → exec (.walkerRootWrite port p) s =
         .next ((t.setRing n { r with rootLo := w &&& 0xFFFE0001 }).complete k stOk)) ∧
       (wbit r.rootLo 0 = true → wbits w 31 17 ≠ wbits r.rootLo 31 17 →
         exec (.walkerRootWrite port p) s = .next (t.complete k stBusy))) ∧
     (Packet.regAddr (p.ofCmd 0x41) = 0x900000 + 32 * n + 8 →
       (r.enabled = false → wbit w 0 = true → exec (.ringEnableWrite port p) s =
         .next (((t.setRing n { r with ringLo := w &&& 0xFFFFFFC1 }).restartRing n).complete k stOk)) ∧
       (r.enabled = false → wbit w 0 = false → exec (.ringEnableWrite port p) s =
         .next ((t.setRing n { r with ringLo := w &&& 0xFFFFFFC1 }).complete k stOk)) ∧
       (r.enabled = true → wbits w 31 6 ≠ wbits r.ringLo 31 6 →
         exec (.ringEnableWrite port p) s = .next (t.complete k stBusy)) ∧
       (r.enabled = true → wbits w 31 6 = wbits r.ringLo 31 6 → exec (.ringEnableWrite port p) s =
         .next ((t.setRing n { r with ringLo := w &&& 0xFFFFFFC1 }).complete k stOk)))) ∧
  (∀ (u : State) (n : Nat), ((u.restartRing n).ring n).prod = 0 ∧ ((u.restartRing n).ring n).cons = 0 ∧
     ((u.restartRing n).ring n).seq = 0 ∧ ((u.restartRing n).ring n).overflow = 0)

/-- Memory controls (R135, R157, R166, R187): SR_FORCE written 1 starts the entry to self-refresh of an active, empty controller
with no training under way, and written 0 ends a self-refresh; an injection is armed only where it may be; a RELOAD of an extent
without protection is MALFORMED, and one whose descriptor passes its checks takes the members it names; a stand-in request is
taken when the spare is free and good, ending a check that is no vote, and refused otherwise. -/
def Obligations.MemoryControlsWrite : Prop :=
  (∀ (s t : State) (port : Fin 16) (p : Packet) (w : Word),
    let k := cmdSlot 0x41 p
    (∀ c, c < 12 → s.AdmitsWrite port p (.page (ctlPage c).1 (ctlPage c).2 0x800) w t →
      let u := t.setReg (pageBase (ctlPage c).1 (ctlPage c).2 + 0x800) (w &&& 1)
      (wbit w 0 = true → t.ctlOk c = true → (t.ctlAt c).st = .active → (t.ctlAt c).tracking = none → (t.ctlAt c).empty = true →
        exec (.srForceWrite port p) s = .next ((u.enterSr c).complete k stOk)) ∧
      (wbit w 0 = true → (t.ctlAt c).st ≠ .active ∨ (t.ctlAt c).empty = false → exec (.srForceWrite port p) s =
        .next (u.complete k stOk)) ∧
      (wbit w 0 = false → (t.ctlAt c).st = .selfRefresh → exec (.srForceWrite port p) s =
        .next ((u.setCtl c { t.ctlAt c with st := .exiting, since := t.time }).complete k stOk)) ∧
      (wbit w 0 = false → (t.ctlAt c).st = .active → exec (.srForceWrite port p) s = .next (u.complete k stOk))) ∧
    (s.AdmitsWrite port p (.page .ecc 0 0x800) w t → wbit w 0 = true →
      (t.mayInject (injectPa (t.reg 0x80804) (t.reg 0x80808)) = true → exec (.eccInjectArm port p) s =
        .next ((t.setReg 0x80800 (w &&& 7)).complete k stOk)) ∧
      (t.mayInject (injectPa (t.reg 0x80804) (t.reg 0x80808)) = false →
        exec (.eccInjectArm port p) s = .next (t.complete k stPermission))) ∧
    (s.AdmitsWrite port p (.page .ecc 0 0x840) w t → wbit w 31 = true →
      ((t.extent (wbits w 13 0)).st ≠ .active ∨ (t.extent (wbits w 13 0)).prot = 0 →
        exec (.protReload port p) s = .next (t.complete k stMalformed)) ∧
      (∀ q u b pos, (t.extent (wbits w 13 0)).st = .active → (t.extent (wbits w 13 0)).prot ≠ 0 →
        t.prot? (wbits w 13 0) = some q → t.readDesc (partDesc (t.extent (wbits w 13 0)).partners) = (u, some b) →
        u.ownPosition (descMembers b (field b 0 1)) (wbits w 13 0) = some pos →
        descOk b (t.extent (wbits w 13 0)).prot pos u.ep (wbits w 13 0) (t.extent (wbits w 13 0)).gen
          (t.extent (wbits w 13 0)).owner = true →
        (u.keySlot q.keysel).st ≠ .empty → (u.keySlot q.keysel).owner = (t.extent (wbits w 13 0)).owner →
        ∃ q', exec (.protReload port p) s = .next ((u.setProt (wbits w 13 0) q').complete k stOk) ∧ q'.k = field b 0 1 ∧
          q'.pos = pos ∧ q'.members = descMembers b (field b 0 1) ∧ q'.keysel = q.keysel)) ∧
    (∀ f, s.AdmitsWrite port p (.page .frm f 0x808) w t →
      (wbit w 31 = true → (t.frame f).spareFor = none → (t.frame f).request = none → t.spareOk f = true →
        let u := if t.voting f then t else t.endCheck f
        exec (.spareStandInRequest port p) s =
          .next ((u.setFrame f { u.frame f with request := some (wbits w 3 0, 2) }).complete k stOk)) ∧
      (wbit w 31 = true → (t.frame f).spareFor = none → (t.frame f).request = none → t.spareOk f = false →
        exec (.spareStandInRequest port p) s = .next (t.complete k stUnsupported)) ∧
      (wbit w 31 = true → (t.frame f).spareFor ≠ none ∨ (t.frame f).request ≠ none →
        exec (.spareStandInRequest port p) s = .next (t.complete k stBusy)) ∧
      (wbit w 31 = false → exec (.spareStandInRequest port p) s = .next (t.complete k stOk)))) ∧
  ∀ (u : State) (c : Nat), ((u.enterSr c).ctlAt c).st = .entering ∧ ((u.enterSr c).ctlAt c).since = u.time ∧
    ((u.enterSr c).ctlAt c).wake = false ∧ (u.enterSr c).mem = u.mem ∧
    ∀ m ∈ ((u.enterSr c).ctlAt c).mdc, m.2 = false

/-- Routing tables and the epoch flip (R337, R338, R431): only the version not injected is written, and not while a flip is armed
or before it may be; ARM arms the flip for a tick that R74 lets pass, announced by an active manager, is refused with R74's status
for another, and is busy while one is armed; CANCEL disarms it. Counting boards (R347): only the inactive bank is written, and not
while a switch is armed; ARM checks the inactive bank and arms the switch, or names the first failing port and window and
completes MALFORMED; CANCEL disarms it. A CANCEL with nothing armed is MALFORMED. -/
def Obligations.RouterRegistersWrite : Prop :=
  (∀ (s t : State) (port : Fin 16) (p : Packet) (w : Word),
     let k := cmdSlot 0x41 p
     let a := Packet.regAddr (p.ofCmd 0x41)
     (s.AdmitsWrite port p .route w t →
       ((a - 0x800000) / 0x40000 ≠ t.rtr.inject → t.rtr.flipArmed = none → t.rtr.oldWritable = true → a % 0x40000 < 0x700 →
         exec (.routingTableWrite port p) s = .next (State.complete { t with rtr := { t.rtr with
           table := wordPut t.rtr.table a (w &&& BitVec.ofNat 32 (routeMask a)) } } k stOk)) ∧
       ((a - 0x800000) / 0x40000 = t.rtr.inject ∨ t.rtr.flipArmed ≠ none ∨ t.rtr.oldWritable = false →
         exec (.routingTableWrite port p) s = .next (t.complete k stBusy))) ∧
     (s.AdmitsWrite port p (.page .rtr 0 0x80C) w t →
       let tick := t.regTick 0x20804 0x20808
       let armed : State := { t with rtr := { t.rtr with flipArmed := some tick } }
       (wbit w 0 = true → wbit w 1 = false → t.rtr.flipArmed = none → t.tickRule tick = stOk →
         exec (.flipArm port p) s = .next (State.complete
           (if t.mgr.role = 2 then armed.notify 1 t.ep tick (1 - t.rtr.inject) else armed) k stOk)) ∧
       (wbit w 0 = true → wbit w 1 = false → t.rtr.flipArmed = none → t.tickRule tick ≠ stOk →
         exec (.flipArm port p) s = .next (t.complete k (t.tickRule tick))) ∧
       (wbit w 0 = true → wbit w 1 = false → t.rtr.flipArmed ≠ none → exec (.flipArm port p) s = .next (t.complete k stBusy)) ∧
       (wbit w 0 = false → wbit w 1 = true → t.rtr.flipArmed ≠ none →
         exec (.flipCancel port p) s = .next (State.complete { t with rtr := { t.rtr with flipArmed := none } } k stOk)) ∧
       (wbit w 1 = true → t.rtr.flipArmed = none → exec (.flipCancel port p) s = .next (t.complete k stMalformed)))) ∧
  (∀ (s t : State) (port : Fin 16) (p : Packet) (w : Word),
     let k := cmdSlot 0x41 p
     let a := Packet.regAddr (p.ofCmd 0x41)
     (s.AdmitsWrite port p .board w t →
       (a % 0x8000 / 0x4000 ≠ t.rtr.boardActive → t.rtr.boardArmed = none →
         exec (.boardWindowWrite port p) s = .next (State.complete { t with rtr := { t.rtr with
           board := wordPut t.rtr.board a (w &&& BitVec.ofNat 32 (boardMask a)) } } k stOk)) ∧
       (a % 0x8000 / 0x4000 = t.rtr.boardActive ∨ t.rtr.boardArmed ≠ none →
         exec (.boardWindowWrite port p) s = .next (t.complete k stBusy))) ∧
     (s.AdmitsWrite port p (.page .rtr 0 0x83C) w t →
       let tick := t.regTick 0x20834 0x20838
       (wbit w 0 = true → wbit w 1 = false → t.rtr.boardArmed = none → t.tickRule tick = stOk →
         (t.boardFail (1 - t.rtr.boardActive) = none → exec (.boardArm port p) s =
           .next (State.complete { t with rtr := { t.rtr with boardArmed := some tick, boardBad := false } } k stOk)) ∧
         (∀ q n, t.boardFail (1 - t.rtr.boardActive) = some (q, n) → exec (.boardArm port p) s =
           .next (State.complete (State.raise { t with rtr := { t.rtr with boardBad := true, badPort := q, badWindow := n } }
             .rtr 0 3) k stMalformed))) ∧
       (wbit w 0 = true → wbit w 1 = false → t.rtr.boardArmed = none → t.tickRule tick ≠ stOk →
         exec (.boardArm port p) s = .next (t.complete k (t.tickRule tick))) ∧
       (wbit w 0 = true → wbit w 1 = false → t.rtr.boardArmed ≠ none → exec (.boardArm port p) s = .next (t.complete k stBusy)) ∧
       (wbit w 0 = false → wbit w 1 = true → t.rtr.boardArmed ≠ none →
         exec (.boardCancel port p) s = .next (State.complete { t with rtr := { t.rtr with boardArmed := none } } k stOk)) ∧
       (wbit w 1 = true → t.rtr.boardArmed = none → exec (.boardCancel port p) s = .next (t.complete k stMalformed))))

/-- Commits of rate records (R386, R387, R395, R396): the held values take effect in the selected record with rates of at least 1
and bursts of at least 320, its buckets restarting when a rate or burst changes and running on when none does, and are held as
they took effect; a meter or host record with the key of another valid record is refused MALFORMED. Tally counters (R445–R448):
SNAPSHOT copies every counter and the overflow bits, and the counters run on; a selection the page has is stored, its counter
restarting when it is bound to another context and running on when it is not scoped; one it has not is MALFORMED. -/
def Obligations.RateAndTallyWrites : Prop :=
  (∀ (s t : State) (port : Fin 16) (p : Packet) (w : Word),
     let k := cmdSlot 0x41 p
     (s.AdmitsWrite port p (.page .qos 0 0x804) w t →
       let m := t.meter t.mtrIndex
       let taken := t.qos.meters.any fun x => x.1 != t.mtrIndex && wbit x.2.key 31 && sameMeterKey x.2.key (w &&& 0xE03FFFFF)
       let lo := storedBurst (bits t.qos.mtrHeld.2.2 15 0)
       let hi := storedBurst (bits t.qos.mtrHeld.2.2 31 16)
       let cir := rateOf t.qos.mtrHeld.1
       let pir := max (rateOf t.qos.mtrHeld.2.1) cir
       let n : Meter := { m with key := w &&& 0xE03FFFFF, cir := cir, pir := pir, bursts := BitVec.ofNat 32 (hi * 65536 + lo) }
       let done (x : Meter) : State := State.complete { t with qos := { t.qos with
         meters := tblPut t.qos.meters t.mtrIndex x, mtrHeld := (x.cir, x.pir, x.bursts.toNat) } } k stOk
       (wbit w 31 = true → taken = true → exec (.meterCommit port p) s = .next (t.complete k stMalformed)) ∧
       (wbit w 31 = false ∨ taken = false →
         (m.cir = cir → m.pir = pir → m.bursts = n.bursts → exec (.meterCommit port p) s = .next (done n)) ∧
         (¬(m.cir = cir ∧ m.pir = pir ∧ m.bursts = n.bursts) → exec (.meterCommit port p) s = .next (done
           { n with tc := Bucket.restart (wbit w 29) lo t.time, tp := Bucket.restart (wbit w 29) hi t.time })) ∧
         1 ≤ cir ∧ cir ≤ pir ∧ 320 ≤ lo ∧ 320 ≤ hi)) ∧
     (s.AdmitsWrite port p (.page .qos 0 0x824) w t →
       let h := t.host t.hostIndex
       let taken := t.qos.hosts.any fun x => x.1 != t.hostIndex && wbit x.2.key 31 && wbits x.2.key 11 0 == wbits w 11 0
       let n : HostRec := { h with key := w &&& 0xA0000FFF, rate := rateOf t.qos.hostHeld.1, burst := storedBurst t.qos.hostHeld.2 }
       let done (x : HostRec) : State := State.complete { t with qos := { t.qos with
         hosts := tblPut t.qos.hosts t.hostIndex x, hostHeld := (x.rate, x.burst) } } k stOk
       (wbit w 31 = true → taken = true → exec (.hostRecordCommit port p) s = .next (t.complete k stMalformed)) ∧
       (wbit w 31 = false ∨ taken = false → exec (.hostRecordCommit port p) s = .next (done
         (if h.rate = n.rate ∧ h.burst = n.burst then n
          else { n with bucket := Bucket.restart (wbit w 29) n.burst t.time })))) ∧
     (s.AdmitsWrite port p (.page .qos 0 0x844) w t →
       let q := t.shaper t.qshIndex
       let n : QShaper := { q with ctl := w &&& 0xA0000000, rate := rateOf t.qos.qshHeld.1, burst := storedBurst t.qos.qshHeld.2 }
       exec (.queueShaperCommit port p) s = .next (State.complete { t with qos := { t.qos with
         qsh := tblPut t.qos.qsh t.qshIndex (if q.rate = n.rate ∧ q.burst = n.burst then n
           else { n with bucket := Bucket.restart (wbit w 29) n.burst t.time })
         qshHeld := (n.rate, n.burst) } } k stOk))) ∧
  (∀ (s t : State) (port : Fin 16) (p : Packet) (kind : PageKind) (i : Nat) (w : Word),
     let k := cmdSlot 0x41 p
     let T := t.tallyPage (pageBase kind i)
     let sel := w &&& 0x83FFFFFF
     (s.AdmitsWrite port p (.page kind i 0x400) w t → wbit w 0 = true → exec (.tallySnapshot port p) s =
       .next ((t.setTallyPage (pageBase kind i) { T with snap := T.val, snapOvf := T.ovf }).complete k stOk)) ∧
     (∀ n, n < 32 → s.AdmitsWrite port p (.page kind i (0x410 + 16 * n)) w t →
       let old := (tblGet? T.sel n).getD 0
       let set (x : TallyPage) : State := t.setTallyPage (pageBase kind i) { x with sel := tblPut T.sel n sel }
       (selOk kind sel = false → exec (.tallySelectWrite port p) s = .next (t.complete k stMalformed)) ∧
       (selOk kind sel = true → wbit w 31 = true → wbit old 31 = false ∨ wbits old 25 16 ≠ wbits w 25 16 →
         exec (.tallySelectWrite port p) s =
           .next ((set { T with val := tblDel T.val n, ovf := setBit T.ovf n false }).complete k stOk)) ∧
       (selOk kind sel = true → wbit w 31 = false ∨ (wbit old 31 = true ∧ wbits old 25 16 = wbits w 25 16) →
         exec (.tallySelectWrite port p) s = .next ((set T).complete k stOk))))

/-- Critical commands refused (R91–R95, Table 4.15), with no floor being written: an admitted command of wrong shape is MALFORMED;
of an EMPTY issuer slot, with a wrong tag, or with a counter not above the last, it is AUTH_FAIL; a copy of the last accepted
command gets its completion again, or waits for it while the command acts; a command of an exhausted slot, or with a counter above
the largest, is reported and AUTH_FAIL; one without its class bit is PERMISSION; one that fails the checks of its tick or its
opcode completes with their status. While a floor is being written a command waits. No refusal changes an issuer slot. -/
def Obligations.CriticalStepsRefuse : Prop :=
  ∀ (s t : State) (op : Nat) (port : Fin 16) (p : Packet) (o : CritOp) (row : Fin 16 → Packet → Instr),
    (op, row) ∈ [(0x01, Instr.issuerKeyInstall), (0x02, .issuerKeyRetire), (0x03, .swap), (0x03, .swapCancel), (0x04, .commit),
      (0x08, .keyInstall), (0x09, .keyRetire), (0x0A, .contextCreate), (0x0B, .contextDestroy), (0x0C, .extentGrant),
      (0x0D, .extentRevoke), (0x11, .roleChange), (0x12, .debugUnlock)] →
    s.Admits (critRules op) port p t →
    let c := critIn op p
    let k := cmdSlot op p
    let i := t.issuer c.issuer
    (t.cc.floorWait ≠ none → exec (row port p) s = .next { t with cc := { t.cc with behind := t.cc.behind ++ [k] } }) ∧
    (t.cc.floorWait = none → critOp op = some o → c.op = op →
      (critShape t.ep (p.ofCmd op) = false ∨ o.shape c = false → exec (row port p) s = .next (t.complete k stMalformed)) ∧
      (critShape t.ep (p.ofCmd op) = true → o.shape c = true →
        (i.st = 0 → exec (row port p) s = .next (t.authFail c 3 k)) ∧
        (i.st ≠ 0 → critTag i.key (p.ofCmd op) ≠ c.tag → exec (row port p) s = .next (t.authFail c 4 k)) ∧
        (i.st ≠ 0 → critTag i.key (p.ofCmd op) = c.tag →
          (∀ st d, c.counter = i.last → i.lastTag = some c.tag → i.stored = some (st, d) →
            exec (row port p) s = .next (t.complete k st d)) ∧
          (c.counter = i.last → i.lastTag = some c.tag → i.stored = none →
            exec (row port p) s = .next { t with cc := { t.cc with copies := t.cc.copies ++ [(c.issuer, c.counter, k)] } }) ∧
          (c.counter ≤ i.last → ¬(c.counter = i.last ∧ i.lastTag = some c.tag) →
            exec (row port p) s = .next (t.authFail c 6 k)) ∧
          (i.last < c.counter → i.st = 2 ∨ ccMax < c.counter →
            exec (row port p) s = .next ((t.postMgr (ccExhausted c.issuer)).authFail c 7 k)) ∧
          (i.last < c.counter → i.st ≠ 2 → c.counter ≤ ccMax → bit i.perm o.cls = false →
            exec (row port p) s = .next (t.complete k stPermission)) ∧
          (i.last < c.counter → i.st ≠ 2 → c.counter ≤ ccMax → bit i.perm o.cls = true →
            ∀ u step st, t.critChecks c o = (u, .inr (step, st)) →
            (st ≠ stAuthFail → exec (row port p) s = .next (u.complete k st)) ∧
            (st = stAuthFail → exec (row port p) s = .next (u.authFail c step k)))))) ∧
    (∀ (u : State) (n step st : Nat) (d : List Byte), (u.authFail c step k).issuer n = u.issuer n ∧
      ((u.postMgr (ccExhausted c.issuer)).authFail c 7 k).issuer n = u.issuer n ∧ (u.complete k st d).issuer n = u.issuer n)

/-- Critical commands accepted (R49, R92, R94): a command that passes every step acts at once below its issuer's journalled floor,
its counter its slot's last and no other slot changed; one with a tick is armed instead, completing OK. At the floor or above it
the command waits for a new floor to be written, a COMMIT with the configuration of that moment; the floor written, 2²⁰ above its
counter, it acts; if the write fails it completes BUS_ERROR and consumes no counter. Either way those that waited behind it are
then looked at in turn. -/
def Obligations.CriticalCountersAdvance : Prop :=
  (∀ (s t u : State) (op : Nat) (port : Fin 16) (p : Packet) (o : CritOp) (k : Nat) (row : Fin 16 → Packet → Instr),
    (op, row) ∈ [(0x01, Instr.issuerKeyInstall), (0x02, .issuerKeyRetire), (0x03, .swap), (0x03, .swapCancel), (0x04, .commit),
      (0x08, .keyInstall), (0x09, .keyRetire), (0x0A, .contextCreate), (0x0B, .contextDestroy), (0x0C, .extentGrant),
      (0x0D, .extentRevoke), (0x11, .roleChange), (0x12, .debugUnlock)] →
    s.PassesCrit (critRules op) op port p o t → t.critChecks (critIn op p) o = (u, .inl k) →
    ((critIn op p).counter < (t.issuer (critIn op p).issuer).floor →
      exec (row port p) s = .next (u.critGo (cmdSlot op p) (critIn op p) k)) ∧
    ((t.issuer (critIn op p).issuer).floor ≤ (critIn op p).counter →
      exec (row port p) s = .next { u with cc := { u.cc with
        floorWait := some (cmdSlot op p, critIn op p, k), taken := if op = 0x04 then some u.commitEntries else none } })) ∧
  (∀ (s : State) (slot k : Nat) (c : Crit), s.cc.floorWait = some (slot, c, k) →
    let w : State := { s with cc := { s.cc with floorWait := none, behind := [] } }
    let f : State := State.setIssuer { w with flash := w.floorWritten c } c.issuer { s.issuer c.issuer with floor := c.counter + 2 ^ 20 }
    let rest (x : State) : State := s.cc.behind.foldl (fun x k => x.actCrit k) { x with cc := { x.cc with taken := none } }
    exec (.counterFloorWritten false) s = .next (rest (w.complete slot stBusError)) ∧
    exec (.counterFloorWritten true) s = .next (rest (f.critGo slot c k)) ∧
    ∀ n, (w.complete slot stBusError).issuer n = s.issuer n) ∧
  (∀ (u : State) (c : Crit) (o : CritOp) (slot k : Nat), critOp c.op = some o → (u.issuer c.issuer).st = 1 →
    c.counter ≤ ccMax - 2 ^ 32 →
    (c.exec = 0 ∨ c.op = 0x03 → u.critGo slot c k = o.act (u.counts c) c k (c.ref slot)) ∧
    (c.exec ≠ 0 → c.op ≠ 0x03 →
      let v := u.counts c
      let d := o.data (v.projected c) c
      let h := o.hold v c k
      u.critGo slot c k = State.critDone { h with
        cc := { h.cc with armed := h.cc.armed ++ [{ tick := c.exec, cmd := c, gen := leNat d }] } } (c.ref slot) stOk d) ∧
    ((u.counts c).issuer c.issuer).last = c.counter ∧ ((u.counts c).issuer c.issuer).acting = true ∧
    ∀ n, n ≠ c.issuer → (u.counts c).issuer n = u.issuer n)

/-- Issuer keys, swaps and commits (R84, R85, R89, R96): an accepted install makes its slot VALID with its class bits, a retire
EMPTY; a SWAP arms the swap for its tick, or the next one, and its CANCEL disarms it; a COMMIT takes the record of the active sets
and the issuer slots and is in progress; each but COMMIT then completes OK. Keys and contexts (R402, R408, R409, R423): an
accepted KEY_INSTALL without a tick makes its slot ACTIVE with the unwrapped key, its KEY_ID, owner and the next generation; a
KEY_RETIRE makes an ACTIVE slot RETIRING with its deadline, zeroizes an ARMED one and leaves any other; a CONTEXT_CREATE makes its
context ACTIVE with its members; a CONTEXT_DESTROY makes an ACTIVE one QUIESCING with its drain's end; with a tick each is armed
and completes OK. -/
def Obligations.KeyContextAndSwapCommandsAct : Prop :=
  (∀ (s v : State) (port : Fin 16) (p : Packet) (k : Nat),
     (s.AcceptsCrit (critRules 0x01) 0x01 port p v k → let c := critIn 0x01 p
       exec (.issuerKeyInstall port p) s = .next ((v.installIssuer c k).critDone (c.ref (cmdSlot 0x01 p)) stOk) ∧
       (v.installIssuer c k).issuer c.target = { st := 1, perm := c.mask, key := k }) ∧
     (s.AcceptsCrit (critRules 0x02) 0x02 port p v k → let c := critIn 0x02 p
       exec (.issuerKeyRetire port p) s = .next ((v.changeIssuer c.target {}).critDone (c.ref (cmdSlot 0x02 p)) stOk) ∧
       (v.changeIssuer c.target {}).issuer c.target = {} ∧
       ∀ n, n ≠ c.target → (v.changeIssuer c.target {}).issuer n = v.issuer n) ∧
     (s.AcceptsCrit (critRules 0x03) 0x03 port p v k → let c := critIn 0x03 p
       (field c.body 4 4 = 0 → exec (.swap port p) s = .next (State.critDone { v with
         cc := { v.cc with swap := some (field c.body 0 4, if c.exec = 0 then v.tick.count + 1 else c.exec) } }
         (c.ref (cmdSlot 0x03 p)) stOk)) ∧
       (field c.body 4 4 = 1 → exec (.swapCancel port p) s = .next (State.critDone { v with cc := { v.cc with swap := none } }
         (c.ref (cmdSlot 0x03 p)) stOk))) ∧
     (s.AcceptsCrit (critRules 0x04) 0x04 port p v k → v.cc.taken = none →
       ∃ m, exec (.commit port p) s = .next { v with cc := { v.cc with commit := some m, commitState := 1 } } ∧
         m.ref = (critIn 0x04 p).ref (cmdSlot 0x04 p) ∧ m.record.entries = v.commitEntries ∧
         (m.copy, m.record.seq) = v.nextCopy ∧ m.startAt = v.time ∧ m.activate = false ∧ m.svn = v.boot.imageSvn)) ∧
  (∀ (s v : State) (port : Fin 16) (p : Packet) (k : Nat),
     (s.AcceptsCrit (critRules 0x08) 0x08 port p v k → let c := critIn 0x08 p
       let key (st : KeyState) : State := v.setKey c.slot
         { st := st, key := k, keyId := c.keyId, owner := c.ctx, kgen := ((v.keySlot c.slot).kgen + 1) % 65536 }
       (c.exec = 0 → exec (.keyInstall port p) s = .next ((key .active).critDone (c.ref (cmdSlot 0x08 p)) stOk)) ∧
       (c.exec ≠ 0 → exec (.keyInstall port p) s = .next (State.critDone { (key .armed) with
         cc := { v.cc with armed := v.cc.armed ++ [{ tick := c.exec, cmd := c }] } } (c.ref (cmdSlot 0x08 p)) stOk))) ∧
     (s.AcceptsCrit (critRules 0x09) 0x09 port p v k → let c := critIn 0x09 p
       let end_ := v.time + 1000 * (if field c.body 4 4 = 0 then v.actBits .sec 0 0x040 31 16 else field c.body 4 4)
       let done (x : State) := exec (.keyRetire port p) s = .next (x.critDone (c.ref (cmdSlot 0x09 p)) stOk)
       (c.exec = 0 → (v.keySlot c.slot).st = .active →
         done (v.setKey c.slot { v.keySlot c.slot with st := .retiring, deadline := end_ })) ∧
       (c.exec = 0 → (v.keySlot c.slot).st = .armed → done (v.zeroize c.slot .empty)) ∧
       (c.exec = 0 → (v.keySlot c.slot).st ≠ .active → (v.keySlot c.slot).st ≠ .armed → done v) ∧
       (c.exec ≠ 0 → done { v with cc := { v.cc with armed := v.cc.armed ++ [{ tick := c.exec, cmd := c }] } })) ∧
     (s.AcceptsCrit (critRules 0x0A) 0x0A port p v k → let c := critIn 0x0A p
       let x : Context :=
         { st := .active, members := c.members, ekDigest := field c.body 8 32, tallyRead := bit (field c.body 2 1) 0 }
       (c.exec = 0 → exec (.contextCreate port p) s = .next ((v.setCtx c.ctx x).critDone (c.ref (cmdSlot 0x0A p)) stOk)) ∧
       (c.exec ≠ 0 → exec (.contextCreate port p) s = .next (State.critDone { v with
         cc := { v.cc with armed := v.cc.armed ++ [{ tick := c.exec, cmd := c }] } } (c.ref (cmdSlot 0x0A p)) stOk))) ∧
     (s.AcceptsCrit (critRules 0x0B) 0x0B port p v k → let c := critIn 0x0B p
       let drain := if field c.body 0 4 = 0 then v.actBits .xlt 0 0x040 15 0 else field c.body 0 4
       (c.exec = 0 → exec (.contextDestroy port p) s = .next ((v.destroyContext c).critDone (c.ref (cmdSlot 0x0B p)) stOk) ∧
         ((v.ctx c.ctx).st = .active → ((v.destroyContext c).ctx c.ctx).st = .quiescing ∧
           ((v.destroyContext c).ctx c.ctx).cause = 1 ∧ ((v.destroyContext c).ctx c.ctx).drainEnd = v.time + 1000 * drain)) ∧
       (c.exec ≠ 0 → exec (.contextDestroy port p) s = .next (State.critDone { v with
         cc := { v.cc with armed := v.cc.armed ++ [{ tick := c.exec, cmd := c }] } } (c.ref (cmdSlot 0x0B p)) stOk))))

/-- Extents (R111, R112, R114): a granted extent is ACTIVE with the next generation of its ID, 1 after 65,535, which its
completion returns, and no other extent changes; a revoked one is DRAINING with its deadline, its translations dropped, and its
command completes later; a revoke of an extent already draining completes at once; with a tick each is armed. Firmware, role and
debug (R43, R421, R422, R427): an accepted FW_UPDATE prefers the staging slot and commits; in RECOVERY the update is taken on the
factory tag and a matching valid image, and else refused; a ROLE_CHANGE sets role, manager and generation, takes the home and
unlocks the tick, and a module that was the active manager resets itself; a DEBUG_UNLOCK empties every key slot, transport key and
issuer slot 1–7. -/
def Obligations.ExtentAndFirmwareCommandsAct : Prop :=
  (∀ (s v : State) (port : Fin 16) (p : Packet) (k : Nat),
     (s.AcceptsCrit (critRules 0x0C) 0x0C port p v k → let c := critIn 0x0C p
       (c.exec = 0 → exec (.extentGrant port p) s =
         .next ((v.grantExtent c).critDone (c.ref (cmdSlot 0x0C p)) stOk (leBytes 4 (v.nextGen c.extId)))) ∧
       (c.exec ≠ 0 → let d := leBytes 4 ((v.projected c).nextGen c.extId)
         exec (.extentGrant port p) s = .next (State.critDone { v with
           cc := { v.cc with armed := v.cc.armed ++ [{ tick := c.exec, cmd := c, gen := leNat d }] } }
           (c.ref (cmdSlot 0x0C p)) stOk d)) ∧
       (∀ id, id ≠ c.extId → (v.grantExtent c).extent id = v.extent id) ∧
       let e := (v.grantExtent c).extent c.extId
       e.st = .active ∧ e.base2m = c.base2m ∧ e.len2m = c.len2m ∧ e.kind = c.kind ∧ e.coh = c.coh ∧ e.prot = c.prot ∧
         e.gen = (if (v.extent c.extId).gen = 0xFFFF then 1 else (v.extent c.extId).gen + 1) ∧
         e.owner = if c.kind = 0 then c.ctx else 0) ∧
     (s.AcceptsCrit (critRules 0x0D) 0x0D port p v k → let c := critIn 0x0D p
       (c.exec = 0 → (v.extent c.extId).st = .active → ∃ t, exec (.extentRevoke port p) s = .next t ∧
         (t.extent c.extId).st = .draining ∧ (t.extent c.extId).revoke = some (c.ref (cmdSlot 0x0D p)) ∧
         (t.extent c.extId).deadline = v.time + 1000 * (if field c.body 4 4 = 0 then v.actBits .xlt 0 0x040 15 0 else field c.body 4 4) ∧
         (∀ x ∈ t.xlt.tlb, x.ext ≠ c.extId) ∧ ∀ id, id ≠ c.extId → t.extent id = v.extent id) ∧
       (c.exec = 0 → (v.extent c.extId).st ≠ .active →
         exec (.extentRevoke port p) s = .next (v.critDone (c.ref (cmdSlot 0x0D p)) stOk)) ∧
       (c.exec ≠ 0 → exec (.extentRevoke port p) s = .next (State.critDone { v with
         cc := { v.cc with armed := v.cc.armed ++ [{ tick := c.exec, cmd := c }] } } (c.ref (cmdSlot 0x0D p)) stOk)))) ∧
  (∀ (s v : State) (port : Fin 16) (p : Packet) (k : Nat),
     (s.AcceptsCrit (fwRules port) 0x10 port p v k → v.boot.state ≠ 7 → v.cc.taken = none → let c := critIn 0x10 p
       ∃ t m, exec (.fwUpdate port p) s = .next t ∧ t.cc.commit = some m ∧ t.cc.commitState = 1 ∧
         m.activate = bit (field c.body 4 1) 0 ∧ m.ref = c.ref (cmdSlot 0x10 p) ∧ m.record.entries = t.commitEntries ∧
         wbit (cfgGet t.active 0x1040) 0 = decide (v.stagingSlot = 1) ∧
         wbit (cfgGet t.shadow 0x1040) 0 = decide (v.stagingSlot = 1)) ∧
     (∀ t, s.Admits (fwRules port) port p t → t.boot.state = 7 → let c := critIn 0x10 p
       let key := cmdSlot 0x10 p
       let shaped := critShape t.ep (p.ofCmd 0x10) && fwShape c && c.exec == 0
       let tagged := critTag Config.factoryIssuerKey (p.ofCmd 0x10) = c.tag
       let idle := t.cc.recovery = none ∧ t.ten.chunk = none
       (shaped = false → exec (.recoveryFwUpdate port p) s = .next (t.complete key stMalformed)) ∧
       (shaped = true → ¬tagged → exec (.recoveryFwUpdate port p) s = .next (t.authFail c 4 key)) ∧
       (shaped = true → tagged → ¬idle → exec (.recoveryFwUpdate port p) s = .next (t.complete key stBusy)) ∧
       (shaped = true → tagged → idle → t.stagedMatches c = false →
         exec (.recoveryFwUpdate port p) s = .next (t.complete key stMalformed)) ∧
       (shaped = true → tagged → idle → t.stagedMatches c = true → imageKey t.ten.staged t.fuses = none →
         exec (.recoveryFwUpdate port p) s = .next (t.authFail c 10 key)) ∧
       (shaped = true → tagged → idle → t.stagedMatches c = true → imageKey t.ten.staged t.fuses ≠ none →
         exec (.recoveryFwUpdate port p) s = .next { t with cc := { t.cc with recovery := some key } })) ∧
     (s.AcceptsCrit (critRules 0x11) 0x11 port p v k → let c := critIn 0x11 p
       exec (.roleChange port p) s = .next (v.changeRole c (c.ref (cmdSlot 0x11 p))) ∧
       (v.mgr.role ≠ 2 → let t := v.changeRole c (c.ref (cmdSlot 0x11 p))
         t.mgr.role = field c.body 0 1 ∧ t.mgr.ep = some (field c.body 2 2) ∧ t.mgr.gen = field c.body 4 4 ∧
           t.tick.locked = false ∧
         wbits (cfgGet t.active 0x5044) 11 0 = field c.body 8 2 % 4096 ∧
           wbits (cfgGet t.shadow 0x5044) 11 0 = field c.body 8 2 % 4096) ∧
       (v.mgr.role = 2 → (v.changeRole c (c.ref (cmdSlot 0x11 p))).boot.started = false)) ∧
     (s.AcceptsCrit (critRules 0x12) 0x12 port p v k → let c := critIn 0x12 p
       ∃ t, exec (.debugUnlock port p) s = .next t ∧ t.ten.unlocking = some (c.ref (cmdSlot 0x12 p)) ∧
         (∀ n, (t.keySlot n).st = .empty ∧ (t.keySlot n).key = 0) ∧ (∀ n, (t.ctx n).tk = none) ∧ (∀ n, 0 < n → t.issuer n = {}) ∧
         t.ten.debugUnlocked = v.ten.debugUnlocked))

/-- Firmware and debug completions (R40, R43, R89, R421, R422): a COMMIT that verifies writes its copy, raises the fuse count to
the running image's security version and completes OK, and that of an ACTIVATE resets the module; one that fails, or runs for 10
s, leaves its copy without a record and completes BUS_ERROR; the recovery image goes to slot A, completes OK and the module
resets, or, when it does not verify, BUS_ERROR; an unlock ends with memory zero and the module unlocked; a chunk that verifies is
staged and completes OK, another BUS_ERROR; replaced manager keys end with their time (R419). Attestation and firmware chunks
(R403–R406, R420): an admitted ATTEST that passes its checks is queued, and signed in its turn, its report completing OK and
setting its target's transport key where it may; a certificate request gets the certificate's 3,081 bytes; a chunk that passes its
checks is taken to be written; each completes with the status of the check it fails. -/
def Obligations.LongCommandsEnd : Prop :=
  (∀ s : State,
     (∀ m, s.cc.commit = some m →
       let fin (x : State) (ok : Bool) : State := State.critDone { x with
         flash := if m.copy = 0 then { x.flash with copy0 := if ok then some m.record else none }
           else { x.flash with copy1 := if ok then some m.record else none }
         cc := { x.cc with commit := none, commitState := if ok then 2 else 3 }
         boot := if ok then { x.boot with fuseSvn := max x.boot.fuseSvn m.svn } else x.boot } m.ref (if ok then stOk else stBusError)
       (m.activate = false → exec (.commitComplete true) s = .next (fin s true)) ∧
       (m.activate = true → exec (.commitComplete true) s = .next ((fin s true).selfReset 2)) ∧
       exec (.commitComplete false) s = .next (fin s false) ∧
       exec .commitTimeout s = .next (fin (s.elapseTo (m.startAt + 10000000000)) false)) ∧
     (∀ slot, s.cc.recovery = some slot →
       let fin (x : Option (List Byte)) : State :=
         { s with flash := { s.flash with slotA := x }, cc := { s.cc with recovery := none } }
       exec (.recoverySlotWriteDone true) s = .next (((fin (some s.ten.staged)).complete slot stOk).selfReset 2) ∧
       exec (.recoverySlotWriteDone false) s = .next ((fin none).complete slot stBusError)) ∧
     (∀ ref, s.ten.unlocking = some ref → exec .debugUnlockDone s = .next (State.critDone { s.zeroAll with
       ten := { s.ten with unlocking := none, debugUnlocked := true } } ref stOk) ∧ s.zeroAll.mem = [] ∧ s.zeroAll.beads = [] ∧
       (∀ i, (s.zeroAll.rod i).scratch = []) ∧ ∀ f, (s.zeroAll.frame f).fb = []) ∧
     (∀ x b, s.ten.chunk = some (x, b) →
       let fin (l : List Byte) : State := { s with
         ten := { s.ten with chunk := none, staged := l }
         flash := if s.boot.state = 7 then s.flash
           else if s.boot.slot = 0 then { s.flash with slotB := some l } else { s.flash with slotA := some l } }
       exec (.fwChunkWritten true) s = .next ((fin (s.ten.staged ++ b)).complete x stOk) ∧
       exec (.fwChunkWritten false) s = .next ((fin s.ten.staged).complete x stBusError)) ∧
     (∀ key at_, leastBy (·.2) s.ten.previous = some (key, at_) →
       let u := s.elapseTo at_
       exec .mgrKeyExpire s = .next { u with ten := { u.ten with previous := u.ten.previous.filter fun x => u.time < x.2 } })) ∧
  ((∀ (s t : State) (port : Fin 16) (p : Packet) (v : InSlot),
     (s.Admits (attestRules 0xD0) port p t → t.slot? (cmdSlot 0xD0 p) = some v →
       (t.attestCheck v = stOk → exec (.attest port p) s = .next { t with ten := { t.ten with
         attests := t.ten.attests ++ [{ slot := cmdSlot 0xD0 p, target := field v.pkt.own 32 2 }] } }) ∧
       (t.attestCheck v ≠ stOk → exec (.attest port p) s = .next (t.complete (cmdSlot 0xD0 p) (t.attestCheck v)))) ∧
     (s.Admits (attestRules 0xD1) port p t → t.slot? (cmdSlot 0xD1 p) = some v →
       (v.pkt.own = zeroBytes 8 → v.pkt.context = 0 → exec (.attestCert port p) s =
         .next (t.complete (cmdSlot 0xD1 p) stOk ((Config.attestCert ++ zeroBytes 3081).take 3081))) ∧
       (v.pkt.own ≠ zeroBytes 8 ∨ v.pkt.context ≠ 0 →
         exec (.attestCert port p) s = .next (t.complete (cmdSlot 0xD1 p) stMalformed))) ∧
     (s.Admits (fwChunkRules port) port p t → t.slot? (cmdSlot 0xD8 p) = some v →
       (t.chunkCheck v = stOk → exec (.fwChunk port p) s = .next { t with ten := { t.ten with
         staged := if field v.pkt.own 0 4 = 0 then [] else t.ten.staged, chunk := some (cmdSlot 0xD8 p, v.pkt.own.drop 8) } }) ∧
       (t.chunkCheck v ≠ stOk → exec (.fwChunk port p) s = .next (t.complete (cmdSlot 0xD8 p) (t.chunkCheck v))))) ∧
   ∀ (s : State) (a : Attest) (q : List Attest) (v : InSlot), s.ten.attests = a :: q → s.slot? a.slot = some v →
     let u : State := { s with ten := { s.ten with attests := q }, freeCtr := s.freeCtr + 1 }
     let ek := (v.pkt.own.drop 40).take 1568
     let sets := s.mayset v a.target ek
     ∃ (ct sig : List Byte) (ss tk : Nat), sig.length = 1280 ∧
       let w := if sets then u.setCtx a.target { u.ctx a.target with tk := some tk, wrapCtr := 0 } else u
       exec .attestComplete s =
         .next (w.complete a.slot stOk (w.reportBody a.target sets (v.pkt.own.take 32) ek ct ++ sig)) ∧
       tk = Config.kmac256 ss (leBytes 8 Config.serial.toNat ++ leBytes 2 a.target ++
         v.pkt.own.take 32) 256 "FRENTO-TK-1" % 2 ^ 256)

/-- Armed commands fire (R75, R459): the first armed command of its kind waits while something is due before it; else, at its
tick, it takes its effect when its checks hold there, and when they do not it is dropped with a record, a key install releasing
its slot. A key install whose slot no longer holds its key has no effect, nor has a revoke of an extent that is no longer ACTIVE.
-/
def Obligations.ArmedCommandsFire : Prop :=
  ∀ (s : State) (a : Armed) (op : Nat), (armedSorted s.cc.armed).find? (fun x => x.cmd.op == op) = some a →
    (s.dueBefore a.tick (eventRank op) = true → ∀ row, (op, row) ∈ [(0x0A, Instr.contextCreateFire), (0x0B, .contextDestroyFire),
      (0x0C, .extentGrantFire), (0x0D, .extentRevokeFire), (0x08, .keyActivate), (0x09, .keyRetireFire)] → exec row s = .next s) ∧
    (s.dueBefore a.tick (eventRank op) = false →
      let u := State.elapseToTick { s with cc := { s.cc with armed := s.cc.armed.erase a } } a.tick
      let c := a.cmd
      let fires (row : Instr) (st : Nat) (done dropped : State) : Prop :=
        (st = stOk → exec row s = .next done) ∧ (st ≠ stOk → exec row s = .next (dropped.armedDropped c st))
      (op = 0x0A → fires .contextCreateFire (checkContextCreate u c) (u.createContext c) u) ∧
      (op = 0x0B → fires .contextDestroyFire (checkContextDestroy u c) (u.destroyContext c) u) ∧
      (op = 0x0C → fires .extentGrantFire (checkGrant u c) (u.grantExtent c) u) ∧
      (op = 0x0D → fires .extentRevokeFire (checkRevoke u c)
        (if (u.extent c.extId).st = .active then u.startRevoke c.extId (field c.body 4 4) none else u) u) ∧
      (op = 0x08 → armedKey u c = true → fires .keyActivate (checkInstallAt u c)
        (u.setKey c.slot { u.keySlot c.slot with st := .active }) (u.zeroize c.slot .empty)) ∧
      (op = 0x08 → armedKey u c = false → fires .keyActivate (checkInstallAt u c) u u) ∧
      (op = 0x09 → fires .keyRetireFire (checkKeyRetire u c) (u.retireKey c.slot (field c.body 4 4)) u) ∧
      ∀ (x : State) (st : Nat), ∃ r, x.armedDropped c st = x.postMgr r ∧ r.typ = 0x0008 ∧ r.status = st)

/-- Extents drain and end (R112–R114): once no request is in flight, or at the deadline, where those in flight complete
ACCESS_REVOKED, a draining extent is ZEROING; zeroed and with its snoops answered, it is FREE, its record keeping what a later
revoke compares (R113), and its bytes read 0; bytes outside it stay, and all of them behind a FAILED controller. Contexts and keys
end (R411, R423, R424): a destroyed context that holds no request, or has reached its deadline, is REMOVING and its extents
ZEROING; with nothing left it is FREE, its root and ring forgotten; a retiring key without references is zeroized at once, a dead
one without static references too, and a retiring one at its deadline EMPTY or, while static references stand, DEAD, its requests
ended KEY_RETIRED. -/
def Obligations.ExtentsContextsAndKeysEnd : Prop :=
  (∀ (s : State) (id : Fin 16384),
     ((s.extent id).st = .draining → s.inFlight id = [] → ∃ t, exec (.extentDrainEnd id) s = .next t ∧
       (t.extent id).st = .zeroing ∧ (t.extent id).gen = (s.extent id).gen ∧ t.time = s.time) ∧
     ((s.extent id).st = .draining →
       let u := s.elapseTo (s.extent id).deadline
       let v := (u.inFlight id).foldl (fun x k => x.force k stRevoked) u
       ∃ r, exec (.extentDrainDeadline id) s =
           .next ((if u.inFlight id = [] then v else (v.postMgr r).raise .xlt 0 2).toZeroing id) ∧ r.typ = 0x0015 ∧
         ∀ x : State, (x.toZeroing id).time = x.time ∧ ((x.toZeroing id).extent id).st = .zeroing) ∧
     ((s.extent id).st = .zeroing → s.snoopsDone (s.extent id) = true → ∃ t, exec (.extentZeroingDone id) s = .next t ∧
       t.extent id =
         { s.extent id with st := .free, freedAt := some s.time, vaBase := none, snoopKey := none, deadline := 0, revoke := none } ∧
       (∀ n, n ≠ id.val → t.extent n = s.extent n) ∧
       (s.ctlFailed (s.extent id).base = true → t.mem = s.mem) ∧
       (s.ctlFailed (s.extent id).base = false → ∀ a,
         t.byteAt a = if (s.extent id).base ≤ a ∧ a < (s.extent id).base + (s.extent id).bytes then 0 else s.byteAt a))) ∧
  (∀ (s : State) (n : Fin 1024),
     (∀ (row : Instr) (end_ : Nat), (row = .contextDrainEnd n ∧ s.heldBy n = [] ∧ end_ = s.time) ∨
         (row = .contextDrainDeadline n ∧ end_ = max s.time (s.ctx n).drainEnd) →
       (s.ctx n).st = .quiescing → (s.ctx n).cause = 1 → ∃ t, exec row s = .next t ∧ (t.ctx n).st = .removing ∧ t.time = end_ ∧
         ∀ id, (s.extent id).st ≠ .free → (s.extent id).kind = 0 → (s.extent id).owner = n.val → (t.extent id).st = .zeroing) ∧
     ((s.ctx n).st = .removing → s.removalDone n = true → ∃ t, exec (.contextFree n) s = .next t ∧ t.ctx n = {} ∧
       t.ring n = {} ∧ t.mem = s.mem) ∧
     ((s.keySlot n).st = .retiring ∧ s.keyRefs n = 0 ∨ (s.keySlot n).st = .dead ∧ s.staticRefs n = 0 →
       ∃ t, exec (.keyRefsZero n) s = .next t ∧ t.keySlot n = { kgen := (s.keySlot n).kgen } ∧
         (∀ w ∈ t.ten.windows, w.slot ≠ n.val) ∧ t.mem = s.mem ∧ ∀ m, m ≠ n.val → t.keySlot m = s.keySlot m) ∧
     ((s.keySlot n).st = .retiring →
       let u := (s.elapseTo (s.keySlot n).deadline).endKeyRefs n
       exec (.keyRetireDeadline n) s = .next (u.2.foldl (fun s o => s.answered (ended o.1 o.2.1 o.2.2 stKeyRetired))
         (u.1.zeroize n (if u.1.staticRefs n = 0 then .empty else .dead)))))

/-- The manager's commands (R55, R367, R383, R430, R440, R451): a JOIN at the active manager enters the module in the roster and
completes, and that of the returning home module then makes it the standby (R439); an EP_STATE on a module takes effect, at the
active manager it is a change; a TAKEBACK that passes its checks is armed; a BALANCE_CHECK runs alone; a TALLY_READ by a member of
an active context that may read answers 16 bytes for each entry; each refused one completes with its status. Balance audits
(R367): a page not idle within WAIT_US is skipped and counted, one that is idle is held; the audit of a held page takes every
ledger of it and goes on with the next, and after the last the command completes with its counts. -/
def Obligations.ManagerCommandsAndAudits : Prop :=
  (∀ (s t : State) (port : Fin 16) (p : Packet) (v : InSlot),
     (s.Admits joinRules port p t → t.slot? (cmdSlot 0x43 p) = some v →
       let k := cmdSlot 0x43 p
       let ep := v.src
       let m : Module := { joinModule v.pkt.own t.time with dead := ((tblGet? t.mgr.roster ep).map (·.dead)).getD false }
       let u := (State.deriveFor { t with mgr := { t.mgr with roster := tblPut t.mgr.roster ep m } } ep m).complete k stOk
       let home := ep = u.actBits .mgr 0 0x044 27 16 ∧ ep ≠ u.ep ∧ u.mgr.home = none ∧
         ¬(u.mgr.mirrorOk = true ∧ u.standby = ep) ∧ u.changesRefused = false
       (t.mgr.role ≠ 2 → exec (.join port p) s = .next (t.complete k stUnsupported)) ∧
       (t.mgr.role = 2 → v.pkt.own.length ≠ 72 ∨ joinEp v.pkt.own ≠ ep → exec (.join port p) s =
         .next (t.complete k stMalformed)) ∧
       (t.mgr.role = 2 → v.pkt.own.length = 72 → joinEp v.pkt.own = ep →
         (¬home → exec (.join port p) s = .next u) ∧ (home → exec (.join port p) s = .next (u.startHome ep m.dead)) ∧
         tblGet? u.mgr.roster ep = some m ∧ m.announced = v.pkt.own ∧ m.serial = field v.pkt.own 8 8 ∧
         m.nonce = field v.pkt.own 48 16 ∧ m.lastReq = t.time ∧
         ∀ n, n ≠ ep → tblGet? u.mgr.roster n = tblGet? t.mgr.roster n)) ∧
     (s.Admits (cmdRules 0xC1 fun s p => s.fromManager p || s.fromHost port p) port p t → t.slot? (cmdSlot 0xC1 p) = some v →
       let k := cmdSlot 0xC1 p
       let u : State := { t with mgr := { t.mgr with declared := stick32 (t.mgr.declared + 1) } }
       (t.epStateCheck v ≠ stOk → exec (.epState port p) s = .next (t.complete k (t.epStateCheck v)).engineRetry) ∧
       (t.epStateCheck v = stOk → t.mgr.role ≠ 2 → exec (.epState port p) s =
         .next ((u.applyEpState (field v.pkt.own 0 2) (field v.pkt.own 2 1 == 1)).complete k stOk).engineRetry) ∧
       (t.epStateCheck v = stOk → t.mgr.role = 2 →
         exec (.epState port p) s = .next (u.change k fun x => x.startDeclare k).engineRetry)) ∧
     (s.Admits (cmdRules 0xC3 fun s p => (match p.sec with
         | some x => x.keyId == 0 && (s.mgr.role != 2 || x.ep == s.standby)
         | none => false)) port p t → t.slot? (cmdSlot 0xC3 p) = some v →
       (t.takeBackCheck v ≠ stOk → exec (.takeback port p) s = .next (t.complete (cmdSlot 0xC3 p) (t.takeBackCheck v))) ∧
       (t.takeBackCheck v = stOk → exec (.takeback port p) s = .next (State.complete { t with mgr := { t.mgr with
         takeback := some (v.src, field v.pkt.own 0 8) } } (cmdSlot 0xC3 p) stOk))) ∧
     (s.Admits (mgrCmd 0xC0) port p t → t.slot? (cmdSlot 0xC0 p) = some v →
       let shaped := v.pkt.own.length = 8 ∧ zeros v.pkt.own 4 4 = true ∧ v.pkt.context = 0
       (¬shaped → exec (.balanceCheck port p) s = .next (t.complete (cmdSlot 0xC0 p) stMalformed)) ∧
       (shaped → t.txn.balance ≠ none → exec (.balanceCheck port p) s = .next (t.complete (cmdSlot 0xC0 p) stBusy)) ∧
       (shaped → t.txn.balance = none → exec (.balanceCheck port p) s = .next (t.nextPage
         { slot := cmdSlot 0xC0 p, waitNs := 1000 * field v.pkt.own 0 4, pages := [], since := t.time } balancePages))) ∧
     (s.Admits (cmdRules 0xC5 fun _ p => p.sec.any fun x => x.keyId != 0) port p t → t.slot? (cmdSlot 0xC5 p) = some v →
       let reads := t.isMember v.ctx v.src = true ∧ (t.ctx v.ctx).st = .active ∧ (t.ctx v.ctx).tallyRead = true
       let n := field v.pkt.own 0 1
       let shaped := 0 < n ∧ n ≤ 16 ∧ zeros v.pkt.own 1 7 = true ∧ v.pkt.own.length = 8 + 4 * n
       let data := (List.range n).flatMap fun i => t.tallyEntry v.ctx (v.pkt.own.drop (8 + 4 * i))
       (¬reads → exec (.tallyRead port p) s = .next (t.complete (cmdSlot 0xC5 p) stPermission)) ∧
       (reads → ¬shaped → exec (.tallyRead port p) s = .next (t.complete (cmdSlot 0xC5 p) stMalformed)) ∧
       (reads → shaped → exec (.tallyRead port p) s = .next ((t.tally .tly 0 0xB2 0).complete (cmdSlot 0xC5 p) stOk data) ∧
         data.length = 16 * n))) ∧
  (∀ (s : State) (b : Balance) (base : Nat) (rest : List Nat), s.txn.balance = some b → b.pages = base :: rest →
     (b.held = false →
       let u := s.elapseTo (b.since + b.waitNs)
       (u.holdPage b base = none →
         exec .balanceWaitExpiry s = .next (u.nextPage { b with notIdle := b.notIdle + 1 } rest)) ∧
       (∀ b', u.holdPage b base = some b' → exec .balanceWaitExpiry s = .next (u.setBalance (some b')) ∧
         b' = { b with held := true })) ∧
     (s.holdPage b base = none → exec .balancePageAuditDone s = .next s) ∧
     (∀ b' k i, s.holdPage b base = some b' → pageOf base = some (k, i) →
       exec .balancePageAuditDone s =
         .next ((s.auditPage b' k i base).1.nextPage { (s.auditPage b' k i base).2 with held := false } rest) ∧
       (s.auditPage b' k i base).2.checked = b.checked + ledgerCount k) ∧
     s.nextPage b [] =
       State.complete { s with txn := { s.txn with balance := none, balFailed := b.failed } } b.slot stOk b.data)

/-- Roles change hands (R75, R432, R436, R437, R440): a worker silent for WORKER_MISS_MS is reported, and declared dead where that
is automatic; a standby that hears no ANNOUNCE for HB_MISS_US, with a current copy, becomes the active manager of a new
generation, after everything due before event 7; without one it reports the takeover blocked; the ROLE_CHANGE sent longest ago is
sent again; a takeback is asked for, asked for again, and at its tick the manager steps down to standby and the home module
becomes the active manager. -/
def Obligations.RolesChangeHands : Prop :=
  ∀ s : State,
    (∀ ep m, tblGet? s.mgr.roster ep = some m → s.mgr.role = 2 → ep ≠ s.ep → m.silent = false → m.dead = false →
      let u := s.elapseTo (m.lastReq + s.actBits .mgr 0 0x04C 15 0 * 1000000)
      let w : State := { u with mgr := { u.mgr with roster := tblPut u.mgr.roster ep { m with silent := true } } }
      let auto := wbit (w.act .mgr 0 0x04C) 31 = true ∧ w.changesRefused = false
      ∃ r, r.typ = 0x00B4 ∧
        let x := (w.postMgr r).raise .mgr 0 3
        wbit (x.reg 0x5008) 3 = true ∧ (¬auto → exec (.workerSilent ep) s = .next x) ∧
        ∀ y st, auto → x.openChange (.silent ep) = (y, st) →
          exec (.workerSilent ep) s = .next (if st = .go then y.startSilent ep else y)) ∧
    (let ready := s.inService = true ∧ s.mgr.role = 1 ∧ wbit (s.act .mgr 0 0x044) 31 = true ∧
       ((List.range 16).any fun p => s.portUp p) = true
     let u := s.elapseTo (s.tick.lastAnn + s.actBits .mgr 0 0x040 31 16 * 1000)
     let due := u.dueBefore u.tick.count 11 = true ∨ u.rodsDue u.tick.count = true
     (¬ready ∨ due → exec .takeover s = .next s) ∧
     (ready → ¬due → s.copyState = 2 ∧ s.copyVersion = 1 → ∃ t, exec .takeover s = .next t ∧ t.mgr.role = 2 ∧
       t.mgr.ep = some s.ep ∧ t.mgr.gen = field s.jrnlHead 8 4 + 1 ∧ t.tick.locked = true ∧
       t.mgr.takeovers = min 0xFFFF (s.mgr.takeovers + 1)) ∧
     (ready → ¬due → ¬(s.copyState = 2 ∧ s.copyVersion = 1) →
       (s.mgr.blocked = true → exec .takeover s = .next u) ∧
       (s.mgr.blocked = false → ∃ r, r.typ = 0x00B2 ∧
         exec .takeover s = .next (State.postMgr { u with mgr := { u.mgr with blocked := true } } r)))) ∧
    (∀ ep m, leastBy (·.2.at_) s.mgr.roleSent = some (ep, m) →
      let u := ((s.elapseTo (m.at_ + s.syncPeriod)).issue m.pkt .clear (.manager 0 ep) none).1
      exec .roleChangeResend s =
        .next { u with mgr := { u.mgr with roleSent := tblPut u.mgr.roleSent ep { m with at_ := u.time } } }) ∧
    (let free := s.mgr.tbSent = none ∧ s.mgr.tbRefused = none ∧ s.mgr.takeback = none
     (s.mayTakeBack = true → free → exec .takebackRequest s = .next s.sendTakeBack) ∧
     (s.mayTakeBack = false ∨ ¬free → exec .takebackRequest s = .next s) ∧
     ∀ m i, s.mgr.ep = some m → s.freeOut = some i → (s.route m s.ep s.rtr.inject).isSome = true → m ≠ s.ep →
       tblGet s.txn.sentTo m 0 < Config.quotaAt m →
       (∃ x, s.route m s.ep s.rtr.inject = some x ∧ s.portEth x.1 = false) →
       s.sendTakeBack.mgr.tbSent.isSome = true ∧ (s.sendTakeBack.outSlot i).req.map (·.2) = some (.manager 4 m)) ∧
    (∀ at_, s.mgr.tbRefused = some at_ → s.mayTakeBack = true →
      exec .takebackResend s = .next (s.elapseTo (at_ + s.syncPeriod)).sendTakeBack) ∧
    (∀ other tick, s.mgr.takeback = some (other, tick) →
      let due := s.dueBefore tick 11 = true ∨ s.rodsDue tick = true
      (due → exec .takebackFire s = .next s) ∧
      (¬due → s.mgr.role = 2 → ∃ t, exec .takebackFire s = .next t ∧ t.mgr.role = 1 ∧ t.mgr.takeback = none ∧
        t.mgr.ep = s.mgr.ep ∧
        t.mgr.takebacks = min 0xFFFF (s.mgr.takebacks + 1) ∧ wbit (t.reg 0x5008) 1 = true ∧ t.mem = s.mem) ∧
      (¬due → s.mgr.role ≠ 2 → ∃ t, exec .takebackFire s = .next t ∧ t.mgr.role = 2 ∧ t.mgr.ep = some s.ep ∧
        t.mgr.gen = field s.jrnlHead 8 4 + 1 ∧ t.mgr.takebacks = min 0xFFFF (s.mgr.takebacks + 1)))

/-- The bead code (R142, R144): a bead without differences decodes clean, and one bad symbol, whichever and however bad, is
corrected. -/
def Obligations.OneSymbolIsCorrected : Prop :=
  decodeBead [] = .clean [] ∧
  ∀ i e : Nat, i < 36 → 0 < e → e < 65536 → decodeBead [(i, e)] = .corrected []

/-- The bead code has distance 4 (R142): two bad symbols are never taken for a clean bead or for one bad symbol. -/
def Obligations.TwoSymbolsAreDetected : Prop :=
  ∀ i j e f : Nat, i < j → j < 36 → 0 < e → e < 65536 → 0 < f → f < 65536 →
    ∃ left, decodeBead [(i, e), (j, f)] = .uncorrectable left

/-- Beads (R145, R147): a bead written whole, with no injection armed for it, reads back as written with its POISON flag and no
error, and every other byte of memory and every other bead's metadata stand; a bead without stored error reads out as memory holds
it; a masked write takes the masked bytes and keeps the others. -/
def Obligations.BeadsReadAsWritten : Prop :=
  ∀ (s : State) (pa : Nat) (data : List Byte) (poison : Bool), Memory.wf s.mem = true →
    (s.injecting pa = false → data.length = 64 →
      let t := s.writeBead pa data poison
      t.readMem (pa / 64 * 64) 64 = data ∧ (∀ a, a < pa / 64 * 64 ∨ pa / 64 * 64 + 64 ≤ a → t.byteAt a = s.byteAt a) ∧
        (t.metaOf (pa / 64)).poison = poison ∧ (t.metaOf (pa / 64)).errs = [] ∧
        (∀ b, b ≠ pa / 64 → t.metaOf b = s.metaOf b) ∧
        t.readOut pa [] = (t, .data data poison)) ∧
    ((s.metaOf (pa / 64)).errs = [] →
      s.readOut pa [] = (s, .data (s.readMem (pa / 64 * 64) 64) (s.metaOf (pa / 64)).poison)) ∧
    (∀ (mask : Nat) (old : List Byte) (bad : Bool) (i : Nat), i < 64 →
      ((BeadOp.part mask data poison).apply old bad).1.getD i 0 = (if bit mask i then data.getD i 0 else old.getD i 0)) ∧
    (∀ (old : List Byte) (bad : Bool), (BeadOp.part (2 ^ 64 - 1) data false).apply old bad = (maskMerge (2 ^ 64 - 1) data old, false, []))

/-- Memory requests accepted (R106, R380): an admitted one that missed the lookaside joins its page's walk, one that hit starts;
an ATOMIC of a wrong shape is MALFORMED. A started request of one bead outside every coherent and protected extent (R128, R129,
R131) comes to its unit with its operation and class, numbered behind all there, and with an empty beam and room enters its queue
at the end; memory and every other unit stand. -/
def Obligations.MemoryRequestsAreQueued : Prop :=
  (∀ (s t : State) (port : Fin 16) (p : Packet) (v : InSlot) (form : Packet → Packet) (row : Fin 16 → Packet → Instr),
     let r := memoryRules form (s.portEth port)
     s.Admits r port p t → t.slot? (r.slot p) = some v →
     ((form, row) ∈ [((fun p => p.ofType tRead), Instr.read), ((fun p => p.ofType tReadShared), .readShared),
         ((fun p => p.ofType tReadOwn), .readOwn), ((fun p => p.ofType tReadNoalloc), .readNoalloc),
         ((fun p => p.ofType tWrite), .write), ((fun p => p.ofType tWritePartial), .writePartial),
         ((fun p => p.ofType tWriteback), .writeback)] →
       v.pkt.typ ≠ tAtomic →
       (v.phase = .walk → exec (row port p) s = .next (t.joinWalk (r.slot p) v)) ∧
       (v.phase ≠ .walk → exec (row port p) s = .next (t.startMem (r.slot p)))) ∧
     ((form, row) ∈ [((fun p => p.ofAtomic 0), Instr.atomicFetchAdd), ((fun p => p.ofAtomic 1), .atomicSwap),
         ((fun p => p.ofAtomic 2), .atomicCas), ((fun p => p.ofAtomic 3), .exactAdd)] →
       v.pkt.typ = tAtomic →
       let ok := if v.pkt.qual % 4 = 3 then exactAddOk v.pkt.body else atomicOk (v.pkt.qual % 4) v.pkt.body
       (ok = false → exec (row port p) s = .next (t.complete (r.slot p) stMalformed)) ∧
       (ok = true → v.phase = .walk → exec (row port p) s = .next (t.joinWalk (r.slot p) v)) ∧
       (ok = true → v.phase ≠ .walk → exec (row port p) s = .next (t.startMem (r.slot p))))) ∧
  (∀ (s : State) (key c : Nat) (v : InSlot), s.slot? key = some v → v.pkt.beads = 1 → s.cohAt v.pa = none →
     s.heldAt v.pa = none → (∀ e g, v.ext = some (e, g) → s.prot? e = none) → windowOf v.pa = some c →
     v.pkt.typ ≠ tWriteback → v.pkt.typ ≠ tReadShared → v.pkt.typ ≠ tReadOwn →
     let t := s.startMem key
     let u := unitIn c (ctlOffset v.pa)
     let x := s.unitAt c u
     let q : MemReq :=
       { pa := v.pa / 64 * 64, op := beadOp v.pkt 0, cls := demandClass (beadOp v.pkt 0) v.yellow, at_ := s.time
         seq := x.nextSeq, origin := .slot key 0 }
     t.mem = s.mem ∧ (t.slot? key).map (·.phase) = some (.memory 1) ∧
       t.unitAt c u = Unit.fromBeam { x with nextSeq := x.nextSeq + 1, beam := x.beam ++ [q] } s.time ∧
       (x.beam = [] → x.room q = true → t.unitAt c u = if q.isWrite
         then { x with nextSeq := x.nextSeq + 1, writes := x.writes ++ [q] }
         else { x with nextSeq := x.nextSeq + 1, reads := x.reads ++ [q] }) ∧
       ∀ d y, (d, y) ≠ (c, u) → t.unitAt d y = s.unitAt d y)

/-- The choice of a command slot (R127–R130, R132): the request picked may issue, and no other that may issue comes before it in
the order of service; promoted requests come first. A command slot of a serving channel (R127, R133) issues a forced refresh, else
the request picked, else a refresh of an idle bank; a unit of a FAILED controller answers its oldest request (R137), and a channel
out of service issues nothing. The oldest unpromoted request is promoted at its age limit with every older one to its bead (R130);
a finished DRAM read goes to the request it was made for, or the bead is repaired; a bank's refresh debt rises, to at most 4, and
is reported there. -/
def Obligations.SlotsIssueByRank : Prop :=
  (∀ (s : State) (c u : Nat) (v : Machine.Unit) (r : MemReq), s.pick c u v = some r →
     let may (x : MemReq) : Prop := x ∈ v.seen ∧ s.reqReady v x = true ∧
       (s.drains c v = true ∨ x.isWrite = false ∨ x.cls = 0) ∧ (x.own = true ∨ s.mayIssue c u = true)
     may r ∧ (∀ x, may x → v.rank c (s.drains c v) r ≤ v.rank c (s.drains c v) x) ∧
     (∀ x, may x → x.cls = 0 → x.seq < 2 ^ 64 → r.cls = 0)) ∧
  (∀ (s : State) (c : Fin 12) (u : Fin 32),
     (let serves := u.val < unitCount c ∧ s.ctlOk c = true ∧ s.clocked (ctlPage c).1 (ctlPage c).2 = true
      (¬serves → exec (.schedulerSlot c u) s = .next s) ∧
      (serves → (s.ctlAt c).st = .failed → exec (.schedulerSlot c u) s = .next (s.failSlot c u)) ∧
      (serves → (s.ctlAt c).st ≠ .failed → s.outOfService c (channelOf c u) = true → exec (.schedulerSlot c u) s = .next s) ∧
      (serves → (s.ctlAt c).st ≠ .failed → s.outOfService c (channelOf c u) = false →
        let w := (s.queueScrub c u).slotCredit c u
        let v := w.unitAt c u
        let x := w.setUnit c u { v with drain := w.drains c v }
        (∀ b, v.debt.find? (fun b => 4 ≤ b.2) = some b → exec (.schedulerSlot c u) s = .next (w.refreshBank c u b.1 true)) ∧
        (v.debt.find? (fun b => 4 ≤ b.2) = none →
          (∀ r, w.pick c u v = some r → exec (.schedulerSlot c u) s = .next (x.issueReq c u r)) ∧
          (∀ b, w.pick c u v = none → v.idleBank c = some b → exec (.schedulerSlot c u) s = .next (x.refreshBank c u b false)) ∧
          (w.pick c u v = none → v.idleBank c = none → exec (.schedulerSlot c u) s = .next x)))) ∧
     (∀ r, leastBy (·.seq) ((s.unitAt c u).seen.filter fun r => r.cls != 0) = some r →
       ∃ t, exec (.agePromote c u) s = .next t ∧ t.time = max s.time (r.at_ + s.ageLimit c) ∧ t.mem = s.mem ∧
         (∀ x ∈ (t.unitAt c u).seen, x.pa = r.pa → x.seq ≤ r.seq → x.cls = 0) ∧
         ∀ d y, (d, y) ≠ (c.val, u.val) → t.unitAt d y = s.unitAt d y) ∧
     (∀ errs r rest, (s.unitAt c u).dram = r :: rest →
       let v := s.setUnit c u { s.unitAt c u with dram := rest }
       let x := if r.origin = .scrub then v.scrubbed c else v
       let e := errs.map fun e : Fin 36 × BitVec 16 => (e.1.val, e.2.toNat)
       ((s.ctlAt c).st = .failed → exec (.dramReadDone c u errs) s = .next ((v.failReq r).settle c)) ∧
       ((s.ctlAt c).st ≠ .failed →
         (∀ w b q, x.readOut r.pa e = (w, .data b q) → exec (.dramReadDone c u errs) s = .next ((w.deliver r b q).settle c)) ∧
         (∀ w id, x.readOut r.pa e = (w, .repair) → w.protectedAt r.pa = some id →
           exec (.dramReadDone c u errs) s = .next ((w.gatherOwn id r.pa (.repair r true)).settle c)))) ∧
     (∀ b : Fin 64, u.val < unitCount c → b.val < bankCount c → s.ctlOk c = true → (s.ctlAt c).st ≠ .selfRefresh →
       (s.ctlAt c).st ≠ .failed →
       let d := min 4 (tblGet (s.unitAt c u).debt b.val 0 + 1)
       ∃ t, exec (.refreshDue c u b) s = .next t ∧ tblGet (t.unitAt c u).debt b.val 0 = d ∧
         (t.ctlAt c).debtMax = max (s.ctlAt c).debtMax d ∧ t.mem = s.mem ∧
         (d = 4 → wbit (t.reg (pageBase (ctlPage c).1 (ctlPage c).2 + 8)) 2 = true) ∧ (d < 4 → t.regs = s.regs)))

/-- Scrub, self-refresh and training (R134–R137, R148): each event moves its controller as Tables 6.5 and 6.6 say, at its time;
self-refresh is entered after SR_IDLE_US without a request, with no deferred work left, or at once under SR_FORCE; tracking steps
take the channels in turn; a controller fails at the third failed run, with a record. Where its conditions do not hold an event
does nothing, but that a retraining temperature is always taken. -/
def Obligations.ControllerStatesMove : Prop :=
  ∀ (s : State) (c : Fin 12),
    let k := s.ctlAt c
    let pg := ctlPage c
    (s.inService = true → s.ctlOk c = true → k.st ≠ .failed → ∃ t, exec (.scrubPeriodEnd c) s = .next t ∧
      (t.ctlAt c).scrubPos = 0 ∧ (t.ctlAt c).scrubDone = false ∧ (t.ctlAt c).ceRows = [] ∧
      t.time = max s.time (k.scrubAt + s.scrubPeriod) ∧ t.mem = s.mem ∧ (k.scrubDone = false → wbit (t.reg 0x80008) 5 = true)) ∧
    (let may := s.ctlOk c = true ∧ k.st = .active ∧ k.tracking = none ∧ k.empty = true
     let u := s.elapseTo (k.idleSince + 1000 * s.srIdleUs c)
     (¬may → exec (.srIdleEnter c) s = .next s) ∧
     (may → s.srForced c = true → exec (.srIdleEnter c) s = .next (s.enterSr c)) ∧
     (may → s.srForced c = false → s.srIdleUs c ≠ 0 → u.owesWork c = false → exec (.srIdleEnter c) s = .next (u.enterSr c)) ∧
     (may → s.srForced c = false → s.srIdleUs c = 0 ∨ u.owesWork c = true → exec (.srIdleEnter c) s = .next s)) ∧
    (k.st = .entering → ∃ t, exec (.srEntryDone c) s = .next t ∧ t.mem = s.mem ∧
      (t.ctlAt c).st = (if k.wake = true ∧ s.srForced c = false then .exiting else .selfRefresh) ∧
      ∀ x, (t.unitAt c x).debt = [] ∧ (t.unitAt c x).row = [] ∧ (t.unitAt c x).reads = (s.unitAt c x).reads) ∧
    (k.st = .exiting → exec (.srExitDone c) s =
      .next (((s.setCtl c { k with st := .active, wake := false, since := s.time }).nextTracking c).forceSr c)) ∧
    (k.st = .selfRefresh → s.srForced c = false → ∃ t, exec (.srMaxExpiry c) s = .next t ∧
      (t.ctlAt c).st = .exiting ∧ (t.ctlAt c).deferred = true ∧ t.mem = s.mem ∧
      wbit (t.reg (pageBase pg.1 pg.2 + 8)) 3 = true ∧ t.time = max s.time (k.since + s.actBits pg.1 pg.2 0x044 15 0 * 1000000)) ∧
    (∀ ch : Fin 16, s.ctlOk c = true → k.st = .active → k.tracking = none → k.trackCh = ch.val →
      ∃ t, exec (.trackingStep c ch) s = .next t ∧ (t.ctlAt c).tracking = some ch.val ∧ t.mem = s.mem ∧
        (t.ctlAt c).trackCh = (ch.val + 1) % 16 ∧ t.time = (if ch.val = 0 then max s.time k.nextTrack else s.time) ∧
        (t.ctlAt c).nextTrack = if ch.val = 0 then t.time + s.actBits pg.1 pg.2 0x048 31 16 * 1000000 else k.nextTrack) ∧
    (∀ (ch : Fin 16) (temp : Int), s.ctlOk c = true → k.st ≠ .failed → k.st ≠ .selfRefresh →
      let moved := ∀ old, tblGet? k.trainedAt ch = some old → s.trainDelta c ≤ (temp - old).natAbs
      let w : Ctl := { k with temp := temp, ref2x := decide (85 < temp) }
      (moved → k.st = .active → k.tracking = none → exec (.fullRetrainStart c ch temp) s =
        .next (s.setCtl c { w with st := .retrain, retrainCh := ch, run := 1, since := s.time })) ∧
      (¬moved ∨ k.st ≠ .active ∨ k.tracking ≠ none → exec (.fullRetrainStart c ch temp) s = .next (s.setCtl c w))) ∧
    (∀ ch, (if k.st = .retrain then some k.retrainCh else k.tracking) = some ch →
      let done : Ctl := if k.st = .retrain then { k with st := .active, retrains := min 0xFFFF (k.retrains + 1), since := s.time
                                                         trainedAt := tblPut k.trainedAt ch k.temp }
        else { k with tracking := none }
      exec (.retrainDone c true) s = .next (((s.setCtl c done).nextTracking c).forceSr c) ∧
      (k.run < 3 → ∃ t, exec (.retrainDone c false) s = .next t ∧
        t.ctlAt c = { k with run := k.run + 1, retries := min 0xFF (k.retries + 1), lastFailCh := ch } ∧ t.mem = s.mem ∧
        wbit (t.reg (pageBase pg.1 pg.2 + 8)) 1 = true) ∧
      (3 ≤ k.run → ∃ t, exec (.retrainDone c false) s = .next t ∧ (t.ctlAt c).st = .failed ∧ t.mem = s.mem ∧
        wbit (t.reg (pageBase pg.1 pg.2 + 8)) 0 = true ∧
        ∃ x r, t = State.postMgr x r ∧ r.typ = 0x0005)) ∧
    ((if k.st = .retrain then some k.retrainCh else k.tracking) = none → ∀ ok, exec (.retrainDone c ok) s = .next s)

/-- Walks and invalidations end (R105, R107–R109, R151): the requests of a walk under way take their verdicts from the page found,
or all complete with the walk's status; an INVAL drops the entries and the pointers in its scope and no others, waits for the
requests in its scope or under a dropped entry, and completes, with the counts, once none is left and no earlier one of its source
waits; a dropped beam header is reported, and what it was for ends TIMEOUT: a request, every request of a walk, a mover's
transfer, a rod's save. -/
def Obligations.WalksAndInvalidationsEnd : Prop :=
  ∀ s : State,
    (∀ n w, (s.xlt.walks.take 128)[n]? = some w →
      let u : State := { s with xlt := { s.xlt with walks := s.xlt.walks.eraseIdx n } }
      let ended (x : State) : State := { x with xlt := { x.xlt with walks := x.xlt.walks.eraseIdx n } }
      ((s.ctx w.ctx).st ≠ .active →
        exec (.walkComplete n) s = .next (w.slots.foldl (fun s k => s.complete k stContextGone) u)) ∧
      ((s.ctx w.ctx).st = .active → ∀ x y, s.walkTables w.ctx (w.page * 0x10000) = (x, y) →
        (∀ e, y = .ok e → exec (.walkComplete n) s = .next (w.slots.foldl (fun s k => s.walked k e) ((ended x).fillTlb e))) ∧
        (y = .later → exec (.walkComplete n) s = .next x) ∧
        ((∀ e, y ≠ .ok e) → y ≠ .later →
          exec (.walkComplete n) s = .next (w.slots.foldl (fun s k => s.complete k y.status) (ended x))))) ∧
    (∀ (t : State) (port : Fin 16) (p : Packet) (v : InSlot), s.Admits invalRules port p t →
      t.slot? (invalRules.slot p) = some v →
      let b := v.pkt.body
      let hit (e : LkEntry) : Bool := inScope b e.ctx e.va e.size
      let ptr (x : Pointer) : Bool := inScope b x.ctx (x.va * 2 ^ pointerShift x.level) (2 ^ pointerShift x.level)
      (invalOk b = false → exec (.inval port p) s = .next (t.complete (invalRules.slot p) stMalformed)) ∧
      (invalOk b = true → ∃ u i, exec (.inval port p) s = .next u ∧ u.xlt.invals = t.xlt.invals ++ [i] ∧
        i.slot = invalRules.slot p ∧ i.src = v.src ∧ u.xlt.tlb = t.xlt.tlb.filter (fun e => !hit e) ∧
        u.xlt.cache = t.xlt.cache.filter (fun x => !ptr x) ∧
        i.dropped = (t.xlt.tlb.filter hit).length + (t.movers.map fun m => (m.2.lookaside.filter hit).length).sum ∧
        (∀ k x, (k, x) ∈ t.txn.slots → memoryForm x.pkt.typ = true → x.ctx ≠ 0 → x.phase ≠ .walk →
          (inScope b x.ctx x.pkt.addr 64 = true ∨ ∃ e ∈ t.xlt.tlb, hit e = true ∧ e.covers x.ctx x.pkt.addr = true) →
          k ∈ i.waitFor) ∧ u.mem = t.mem)) ∧
    (∀ n i, s.xlt.invals[n]? = some i →
      let may := i.waitFor = [] ∧ ((s.xlt.invals.take n).all fun j => j.src != i.src) = true
      (may → exec (.invalComplete n) s = .next (State.complete { s with xlt := { s.xlt with invals := s.xlt.invals.eraseIdx n } }
        i.slot stOk (leBytes 4 i.dropped ++ leBytes 4 i.visited))) ∧
      (¬may → exec (.invalComplete n) s = .next s)) ∧
    (∀ unit src tag, ∃ r, r.typ = 0x0026 ∧ r.source = unit ∧
      let u := (s.postMgr r).raise .ecc 0 4
      exec (.beamHdrError unit src tag) s = .next (u.headerLost unit (slotKey src tag)) ∧ wbit (u.reg 0x80008) 4 = true) ∧
    (∀ (u : State) (unit k : Nat),
      (unit / 0x1000 ∉ [1, 2, 3] → u.headerLost unit k = u.force k stTimeout) ∧
      (unit / 0x1000 = 3 → u.xlt.walks.find? (fun w => w.slots.contains k) = none → u.headerLost unit k = u.force k stTimeout) ∧
      (unit / 0x1000 = 3 → ∀ w, u.xlt.walks.find? (fun w => w.slots.contains k) = some w → u.headerLost unit k =
        w.slots.foldl (fun s k => s.force k stTimeout) { u with xlt := { u.xlt with walks := u.xlt.walks.filter fun v => v != w } }) ∧
      (unit / 0x1000 = 1 → ∀ x j, (u.mover (unit % 0x1000)).candidate (u.mover (unit % 0x1000)).turn = some x →
        tblGet? u.jobs x.job = some j → u.headerLost unit k = u.xferError (unit % 0x1000) j x 0 stTimeout 0) ∧
      (unit / 0x1000 = 2 → (u.rod (unit % 0x1000)).st = .saving ∨ (u.rod (unit % 0x1000)).st = .restoring →
        u.headerLost unit k = u.saveFail (unit % 0x1000)))

/-- Event rings (R116–R120, R155): with its control bead up to date, the first record of a reachable ring with room is written,
and PRODUCER rises by 1 and is written to the control bead; a full ring's CONSUMER is read again first, and without room a
fault-class record waits and any other is dropped; the record of a ring that cannot be reached, or whose control bead is poisoned,
waits when it is of fault class, at the manager ring, and otherwise leaves. A poll reads CONSUMER again for a waiting fault-class
record. -/
def Obligations.RingRecordsAreWritten : Prop :=
  ∀ (s : State) (n : Fin 1025),
    let gone := s.ringReach n = false ∨ s.controlPoisoned n = true
    (∀ r rest, (s.ring n).queue = r :: rest → gone → exec (.ringRecordWrite n) s = .next (s.ringGone n r) ∧
      (n.val = mgrRing → r.cls = 0 → exec (.ringRecordWrite n) s = .next s)) ∧
    (¬gone → ∀ u, s.flushRing n = (u, false) → exec (.ringRecordWrite n) s = .next u) ∧
    (¬gone → ∀ u r rest, s.flushRing n = (u, true) → (u.ring n).queue = r :: rest →
      ((u.ring n).used < (u.ring n).entries → exec (.ringRecordWrite n) s = .next (u.putRecord n r)) ∧
      ((u.ring n).entries ≤ (u.ring n).used →
        (∀ w, u.readControl n = (w, .wait) → exec (.ringRecordWrite n) s = .next w) ∧
        (∀ w, u.readControl n = (w, .poisoned) → exec (.ringRecordWrite n) s = .next (w.ringGone n r)) ∧
        (∀ w c, u.readControl n = (w, .consumer c) →
          let v := w.setRing n { w.ring n with cons := c }
          ((v.ring n).used < (v.ring n).entries → exec (.ringRecordWrite n) s = .next (v.putRecord n r)) ∧
          ((v.ring n).entries ≤ (v.ring n).used → exec (.ringRecordWrite n) s = .next (v.ringFull n r)) ∧
          (r.cls = 0 → v.ringFull n r = v)))) ∧
    ((s.ring n).queue.any (·.cls == 0) = true →
      exec (.ringPoll n) s = .next ((s.elapse (s.actBits .xlt 0 0x044 15 0)).ringStep n true)) ∧
    ((s.ring n).queue.any (·.cls == 0) = false → exec (.ringPoll n) s = .next s) ∧
    (∀ u r, let x := s.ring n
      s.innerWrite (ringTag n) (x.base + 64 * (1 + x.prod % x.entries))
        (.write (r.bytes (x.prod / x.entries + 1) x.seq) false) = (u, true) →
      let w := u.tally .tly 0 0xB0 (ringQual n)
      s.putRecord n r = ((w.setRing n { (w.ring n).shift with
        prod := (x.prod + 1) % 2 ^ 32, seq := x.seq + 1, owedProd := true }).flushRing n).1) ∧
    (∀ u, (s.ring n).owedProd = true → (s.ring n).owedOvf = false →
      s.innerWrite (ringTag n) (s.ring n).base (controlField 8 (s.ring n).prod) = (u, true) →
      s.flushRing n = (u.setRing n { u.ring n with owedProd := false }, true))

/-- Snoops and partners (R158–R164, R378, R381, R383): a snoop of this module completes OK; unanswered snoops are sent again after
their time; a finished walk of the dead list sets its event, and one asked for meanwhile follows; partner commands that fail their
checks complete with their status, one past its extent MALFORMED, and the others act on the beads they name; gathers, forwards and
rebuilds go on at their events. -/
def Obligations.SnoopsAndPartnersAct : Prop :=
  (∀ (s t : State) (port : Fin 16) (p : Packet) (typ : Nat) (row : Fin 16 → Packet → Instr),
    (typ, row) ∈ [(tSnoopInv, Instr.snoopInv), (tSnoopShare, .snoopShare), (tSnoopCopy, .snoopCopy)] →
    s.Admits { form := fun p => p.ofType typ } port p t →
      exec (row port p) s = .next (t.complete (slotKey (p.ofType typ).src p.tag) stOk)) ∧
  (∀ (s : State) (d : Fin 8) (bead : Nat),
    ((s.line d bead).trans.waits = true → exec (.snoopRetry d bead) s =
      .next ((s.elapseTo ((s.line d bead).retryAt + us (s.actBits .dir d 0x040 31 16))).resendLine d bead)) ∧
    ((s.line d bead).trans.waits = false → exec (.snoopRetry d bead) s = .next s)) ∧
  (∀ (s : State) (d : Fin 8),
    let u := s.walkLog d
    ((s.slice d).walking = false → exec (.deadWalkDone d) s = .next s) ∧
    ((s.slice d).walking = true → (u.slice d).walkPending = true →
      exec (.deadWalkDone d) s = .next (u.setSlice d { u.slice d with walkPending := false })) ∧
    ((s.slice d).walking = true → (u.slice d).walkPending = false → ∃ r, r.typ = 0x0092 ∧
      let t := ((u.setSlice d { u.slice d with walking := false }).postMgr r).raise .dir d 0
      exec (.deadWalkDone d) s = .next t ∧ wbit (t.reg (pageBase .dir d + 8)) 0 = true)) ∧
  (∀ (s t : State) (port : Fin 16) (p : Packet) (v : InSlot) (op : Nat) (row : Fin 16 → Packet → Instr),
    (op, row) ∈ [(0x90, Instr.protFwd), (0x91, .memberRead), (0x92, .reconRead)] → s.Admits (partnerRules op) port p t →
    t.slot? (cmdSlot op p) = some v →
    let ext := parExt v.pkt
    let off := parOff v.pkt
    let n := parBeads v.pkt
    let k := cmdSlot op p
    let w := t.partnerSlot v
    (t.partnerCheck v ≠ stOk → exec (row port p) s = .next (t.complete k (t.partnerCheck v))) ∧
    (t.partnerCheck v = stOk →
      (op ≠ 0x92 → t.parInside ext off n = false → exec (row port p) s = .next (t.complete k stMalformed)) ∧
      (op = 0x90 → t.parInside ext off n = true →
        ((t.prot? ext).any (fun q => q.pos == q.k) = true →
          exec (.protFwd port p) s = .next ((List.range n).foldl (fun s i => s.fwdBead k i) (t.setSlot k w))) ∧
        ((t.prot? ext).any (fun q => q.pos == q.k) = false → exec (.protFwd port p) s = .next (t.complete k stRevoked))) ∧
      (op = 0x91 → t.parInside ext off n = true → exec (.memberRead port p) s = .next ((List.range n).foldl
        (fun s i => if (s.prot? ext).any fun q => q.missing (off + 64 * i) then s.waitRebuild ext (w.beadPa i) k i
          else (s.toCtl (w.beadPa i) .read 2 (.slot k i)).servedBead ext (off + 64 * i)) (t.setSlot k w))) ∧
      (op = 0x92 →
        (∀ u st, t.reconTarget v = (u, .inr st) → exec (.reconRead port p) s = .next (u.complete k st)) ∧
        (∀ u e o, t.reconTarget v = (u, .inl (e, o)) →
          (u.prot? e = none → exec (.reconRead port p) s = .next (u.complete k stMalformed)) ∧
          (∀ q, u.prot? e = some q →
            let may := q.pos = q.k ∧ 2 ≤ q.k ∧ parLost v.pkt < q.k ∧ u.parInside e o n = true
            (¬may → exec (.reconRead port p) s = .next (u.complete k stMalformed)) ∧
            (may → exec (.reconRead port p) s = .next ((List.range n).foldl
              (fun s i => s.reconBead k i e (o + 64 * i) (parLost v.pkt) q)
              (u.setSlot k { v with ext := some (e, (u.extent e).gen), pa := (u.extent e).base + o, phase := .memory n }))))) ∧
        (parMember v.pkt = true → t.reconTarget v = (t, .inl (ext, off)))))) ∧
  (∀ (s : State) (n : Nat) (g : Gather), s.ecc.gathers[n]? = some g →
    (g.ask = [] → g.awaited = [] → exec (.reconTimeout n) s = .next (s.finishGather g)) ∧
    (g.ask ≠ [] ∨ g.awaited ≠ [] → exec (.reconTimeout n) s =
      .next ((s.elapseTo (g.startAt + us (s.actBits .ecc 0 0x044 15 0))).finishGather
        { g with ask := [], awaited := [], poison := true }))) ∧
  (∀ (s u : State) (n : Nat) (h : HeldWrite) (gone : Bool), s.ecc.held[n]? = some h →
    let may := h.formed = true ∧ h.out = none ∧ (s.prot? h.ext).any (·.forwards) = true
    (¬may → exec (.protFwdResend n) s = .next s) ∧
    (may → (s.elapseTo (h.lastSent + 10000)).sendFwd h = (u, gone) → exec (.protFwdResend n) s = .next
      (if gone then (u.degrade h.ext (match u.prot? h.ext with | some p => p.k | none => 1) 1).releaseLost h.ext else u))) ∧
  (∀ (s : State) (id : Fin 16384) (q : Prot), s.prot? id = some q →
    let may := q.replacement = true ∧ q.st = .rebuilding ∧ (s.extent id).st = .active ∧ s.gatherAt id q.next = none
    (¬may → exec (.rebuildBead id) s = .next s) ∧
    (may → exec (.rebuildBead id) s =
      .next ((s.gatherOwn id ((s.extent id).base + q.next) .rebuild).tryFinish id q.next .rebuild)))

/-- Rods issue (R168, R169, R172–R174, Table 8.9), for every rod instruction: a rod that is not ready does nothing; one that is
reads its instruction from scratch, a pc outside it being a BOUNDS fault, a poisoned line consuming poison, and an opcode that
Table 8.3 does not list an ILLEGAL_OP; a row acts only where the word at the pc is its own, and with RSV not 0 that word is an
ILLEGAL_OP. Reading changes nothing where no upset, parity error or check is met. An instruction that is done changes the rod's
registers, moves its pc and changes no other rod, no scratch, no memory and, unless its tile is under check, no frame. -/
def Obligations.RodsIssueOrStop : Prop :=
  (∀ (s : State) (i : Fin 544) (w : RodWord), ∀ x ∈ rodRows,
    let v := s.fetched i
    let r := v.rod i
    (s.rodReady i = false → exec (x.2 i w) s = .next s) ∧
    (s.rodReady i = true →
      (0x80000 ≤ r.regs.pc → exec (x.2 i w) s = .next (v.rodFault i 2)) ∧
      (r.regs.pc < 0x80000 → badAt r.badLines r.regs.pc 8 = true → exec (x.2 i w) s = .next (v.rodPoison i)) ∧
      (r.regs.pc < 0x80000 → badAt r.badLines r.regs.pc 8 = false →
        (r.word / 2 ^ 56 ∉ rodRows.map (·.1) → exec (x.2 i w) s = .next (v.rodFault i 1)) ∧
        (r.word / 2 ^ 56 ∈ rodRows.map (·.1) → r.word / 2 ^ 56 ≠ x.1 ∨ RodWord.ofBits r.word ≠ w →
          exec (x.2 i w) s = .next v))) ∧
    (∀ u, s.Issues i x.1 w u → w.rsv ≠ 0 → exec (x.2 i w) s = .next (u.rodFault i 1))) ∧
  (∀ (s : State) (i op : Nat) (w : RodWord), let r := s.rod i
    (r.upsets = [] → s.fetched i = s) ∧
    (r.upsets = [] → r.regs.eS = 0 → r.regs.eV = 0 → r.regs.eAcc = 0 → r.regs.eD = 0 → s.checkOf i = none →
      s.readied i op w = s)) ∧
  ∀ (u : State) (i c ev : Nat) (pc : Option Nat) (f : RodRegs → RodRegs),
    let t := u.ran i c f ev pc
    t.rod i = { u.rod i with regs := (f (u.rod i).regs).advance pc } ∧ (∀ j, j ≠ i → t.rod j = u.rod j) ∧ t.mem = u.mem ∧
      (u.checkOf i = none → t.frames = u.frames) ∧ t.jobs = u.jobs ∧ t.streams = u.streams ∧ t.out = u.out ∧ t.regs = u.regs

/-- Scalar arithmetic (R152, R172, R173, Table 8.3): each instruction writes S[D] with its result on S[A] and S[B] or IMM, modulo
2⁶⁴, poisoned when an operand is, and no other register; with both B and IMM used, or an unused field not 0, it is illegal. LI
writes IMM, STEPCTR the step counter. What CMP gives, and a shift by 64 or more, are free values. Scalar loads, stores and control
(R169, R171, R173): LD and ST move 8 bytes of scratch, out of bounds or misaligned ones fault, and a store into the code region
too; a poisoned address consumes poison, as does a poisoned S[A] of BR or LOOP. BR goes to IMM when S[A] is not 0; LOOP runs the
next instructions S[A] times; NOP and FENCE only go on. A write of scratch of a rod not under check changes those bytes and no
others. -/
def Obligations.ScalarInstructionsAct : Prop :=
  (∀ (s : State) (i : Fin 544) (w : RodWord) (u : State),
    let g := (u.rod i).regs
    let c := ((s.fetched i).rod i).ctx
    let ops : List (Nat × (BitVec 64 → BitVec 64 → BitVec 64) × (Fin 544 → RodWord → Instr)) :=
      [(0x01, (fun x y => x + y), .add), (0x02, (fun x y => x - y), .sub), (0x03, (fun x y => x &&& y), .and),
       (0x04, (fun x y => x ||| y), .or), (0x05, (fun x y => x ^^^ y), .xor), (0x0A, (fun x y => x * y), .mul)]
    let rows : List (Nat × (Fin 544 → RodWord → Instr)) :=
      ops.map (fun x => (x.1, x.2.2)) ++ [(0x06, .shl), (0x07, .shr), (0x08, .cmp)]
    (∀ b p, w.rsv + w.fa + w.fb = 0 → g.operand w = some (b, p) →
      let sets (v : Nat) : State := u.ran i c fun r => r.setS w.d v (bit g.pS w.a || p)
      (∀ x ∈ ops, s.Issues i x.1 w u → exec (x.2.2 i w) s =
        .next (sets (x.2.1 (BitVec.ofNat 64 (g.getS w.a)) (BitVec.ofNat 64 b)).toNat)) ∧
      (s.Issues i 0x06 w u →
        (b < 64 → exec (.shl i w) s = .next (sets (g.getS w.a * 2 ^ b))) ∧
        (64 ≤ b → exec (.shl i w) s = .next (sets (Config.shiftBeyond false (g.getS w.a) b)))) ∧
      (s.Issues i 0x07 w u →
        (b < 64 → exec (.shr i w) s = .next (sets
          (if Config.shrArithmetic then unsigned 64 (signed 64 (g.getS w.a) / (2 ^ b : Nat)) else g.getS w.a / 2 ^ b))) ∧
        (64 ≤ b → exec (.shr i w) s = .next (sets (Config.shiftBeyond true (g.getS w.a) b)))) ∧
      (s.Issues i 0x08 w u → exec (.cmp i w) s = .next (sets (Config.cmp (g.getS w.a) b)))) ∧
    (w.b ≠ 0 ∧ w.imm ≠ 0 ∨ w.fa ≠ 0 ∨ w.fb ≠ 0 → ∀ x ∈ rows, s.Issues i x.1 w u →
      exec (x.2 i w) s = .next (u.rodFault i 1)) ∧
    (s.Issues i 0x09 w u →
      (w.rsv + (w.a + w.b + w.fa + w.fb) = 0 → exec (.li i w) s = .next (u.ran i c fun r => r.setS w.d (immOf w) false)) ∧
      (w.rsv + (w.a + w.b + w.fa + w.fb) ≠ 0 → exec (.li i w) s = .next (u.rodFault i 1))) ∧
    (s.Issues i 0x14 w u →
      (w.rsv + (w.a + w.b + w.fa + w.fb + w.imm) = 0 →
        exec (.stepctr i w) s = .next (u.ran i c fun r => r.setS w.d g.step false)) ∧
      (w.rsv + (w.a + w.b + w.fa + w.fb + w.imm) ≠ 0 → exec (.stepctr i w) s = .next (u.rodFault i 1)))) ∧
  (∀ (g : RodRegs) (w : RodWord),
    (w.b = 0 → w.imm ≠ 0 → g.operand w = some (immOf w, false)) ∧
    (w.b ≠ 0 → w.imm = 0 → g.operand w = some (g.getS w.b, bit g.pS w.b)) ∧
    (w.b = 0 → w.imm = 0 → g.operand w = some (if Config.zeroIsImmediate then (immOf w, false) else (g.getS 0, bit g.pS 0))) ∧
    (w.b ≠ 0 → w.imm ≠ 0 → g.operand w = none)) ∧
  (∀ (g : RodRegs) (n v : Nat) (p : Bool), n < 32 →
    (g.setS n v p).getS n = v % 2 ^ 64 ∧ bit (g.setS n v p).pS n = p ∧
      (∀ m, m ≠ n → (g.setS n v p).getS m = g.getS m ∧ bit (g.setS n v p).pS m = bit g.pS m) ∧ (g.setS n v p).v = g.v ∧
      (g.setS n v p).acc = g.acc ∧ (g.setS n v p).d = g.d ∧ (g.setS n v p).step = g.step ∧ (g.setS n v p).pc = g.pc ∧
      (g.setS n v p).loop = g.loop ∧ (g.setS n v p).cursors = g.cursors) ∧
  (∀ (s : State) (i : Fin 544) (w : RodWord) (u : State),
    let r := u.rod i
    let g := r.regs
    let a := g.getS w.a
    let c := ((s.fetched i).rod i).ctx
    (∀ x ∈ [((0x00 : Nat), (Instr.nop : Fin 544 → RodWord → Instr)), (0x71, .fence)], s.Issues i x.1 w u →
      (w.rsv + (w.d + w.a + w.b + w.fa + w.fb + w.imm) = 0 → exec (x.2 i w) s = .next (u.ran i c id)) ∧
      (w.rsv + (w.d + w.a + w.b + w.fa + w.fb + w.imm) ≠ 0 → exec (x.2 i w) s = .next (u.rodFault i 1))) ∧
    (s.Issues i 0x10 w u →
      (w.rsv + (w.b + w.fa + w.fb + w.imm) ≠ 0 → exec (.ld i w) s = .next (u.rodFault i 1)) ∧
      (w.rsv + (w.b + w.fa + w.fb + w.imm) = 0 → bit g.pS w.a = true → exec (.ld i w) s = .next (u.rodPoison i)) ∧
      (w.rsv + (w.b + w.fa + w.fb + w.imm) = 0 → bit g.pS w.a = false →
        (0x80000 < a + 8 → exec (.ld i w) s = .next (u.rodFault i 2)) ∧
        (a + 8 ≤ 0x80000 → a % 8 ≠ 0 → exec (.ld i w) s = .next (u.rodFault i 3)) ∧
        (a + 8 ≤ 0x80000 → a % 8 = 0 → exec (.ld i w) s =
          .next (u.ran i c fun g => g.setS w.d (leNat (cellRead r.scratch a 8)) (badAt r.badLines a 8))))) ∧
    (s.Issues i 0x11 w u →
      (w.rsv + (w.d + w.fa + w.fb + w.imm) ≠ 0 → exec (.st i w) s = .next (u.rodFault i 1)) ∧
      (w.rsv + (w.d + w.fa + w.fb + w.imm) = 0 → bit g.pS w.a = true → exec (.st i w) s = .next (u.rodPoison i)) ∧
      (w.rsv + (w.d + w.fa + w.fb + w.imm) = 0 → bit g.pS w.a = false →
        (0x80000 < a + 8 ∨ a < g.codeBytes → exec (.st i w) s = .next (u.rodFault i 2)) ∧
        (a + 8 ≤ 0x80000 → g.codeBytes ≤ a → a % 8 ≠ 0 → exec (.st i w) s = .next (u.rodFault i 3)) ∧
        (a + 8 ≤ 0x80000 → g.codeBytes ≤ a → a % 8 = 0 → exec (.st i w) s =
          .next ((u.scratchWrite i a (leBytes 8 (g.getS w.b)) (bit g.pS w.b)).ran i c id)))) ∧
    (s.Issues i 0x12 w u →
      (w.rsv + (w.d + w.b + w.fa + w.fb) ≠ 0 → exec (.br i w) s = .next (u.rodFault i 1)) ∧
      (w.rsv + (w.d + w.b + w.fa + w.fb) = 0 →
        (bit g.pS w.a = true → exec (.br i w) s = .next (u.rodPoison i)) ∧
        (bit g.pS w.a = false → a = 0 → exec (.br i w) s = .next (u.ran i c id)) ∧
        (bit g.pS w.a = false → a ≠ 0 → exec (.br i w) s = .next (u.ran i c id 0 (some (w.imm % 2 ^ 32)))))) ∧
    (s.Issues i 0x13 w u →
      let n := w.imm % 65536
      (w.rsv + (w.d + w.b + w.fa + w.fb + w.imm / 65536) ≠ 0 → exec (.loop i w) s = .next (u.rodFault i 1)) ∧
      (w.rsv + (w.d + w.b + w.fa + w.fb + w.imm / 65536) = 0 →
        (bit g.pS w.a = true → exec (.loop i w) s = .next (u.rodPoison i)) ∧
        (bit g.pS w.a = false → a ≠ 0 → n ≠ 0 → exec (.loop i w) s =
          .next (u.ran i c (fun g => { g with loop := some (g.pc + 8, n, a - 1) }) 0 (some (g.pc + 8)))) ∧
        (bit g.pS w.a = false → a = 0 ∨ n = 0 → exec (.loop i w) s =
          .next (u.ran i c id 0 (some ((g.pc + 8 + 8 * n) % 2 ^ 32))))))) ∧
  (∀ (u : State) (i off : Nat) (b : List Byte) (p : Bool), u.checkOf i = none →
    let t := u.scratchWrite i off b p
    t.rod i = (u.rod i).write off b (p || (u.rod i).poisonTile) ∧ (∀ j, j ≠ i → t.rod j = u.rod j) ∧ t.mem = u.mem) ∧
  ∀ (r : Rod) (off : Nat) (b : List Byte) (p : Bool),
    cellRead (r.write off b p).scratch off b.length = b ∧ (r.write off b p).regs = r.regs ∧
      ∀ x, x < off ∨ off + b.length ≤ x → cellGet (r.write off b p).scratch x = cellGet r.scratch x

/-- The long accumulator (R172, R178–R182, R213–R218): ACC_CLEAR clears what IMM names; MMV adds every column's products to its
own accumulator, exactly, and in binary64 rounds each fused multiply-add; ACC_DRAIN rounds each accumulator once into V[D] and
clears it unless told to keep it, or copies D0–D7; ACC_SPILL stores 16 records, which read back as the accumulators they were made
of, and ACC_ADDREC adds records exactly. Illegal fields, a poisoned address, bounds and alignment stop each as the spec says. -/
def Obligations.MatrixInstructionsAct : Prop :=
  (∀ a : Acc, Acc.ofRecord a.record = some a ∧ a.record.length = 128) ∧
  (∀ (r : Rod) (m : Mmv) (n k : Nat),
    (m.fa ≠ 0xE → k < 16 → (r.mmv m n).1.getAcc k = (List.range n).foldl (fun x step =>
      let x := (r.column m step k).1.foldl Acc.deposit x
      { x with poison := x.poison || (r.column m step k).2 }) (r.regs.getAcc k)) ∧
    (m.fa = 0xE → k < 8 → (r.mmv m n).1.getD k = (List.range n).foldl (fun x step =>
      let a := decodeFmt 0xE ((r.elements m.a 0xE step 1).1.headD 0)
      let b := decodeFmt 0xE ((r.elements m.b 0xE (step * 8 + k) 1).1.headD 0)
      let d := decodeFmt 0xE x
      (roundOp 0xE 0 false 0 (a.isNan || b.isNan || d.isNan) (addNum 0 (mulNum a b) d)).code % 2 ^ 64) (r.regs.getD k))) ∧
  ∀ (s : State) (i : Fin 544) (w : RodWord) (u : State),
    let r := u.rod i
    let g := r.regs
    let a := g.getS w.a
    let c := ((s.fetched i).rod i).ctx
    let f := rodFrame i
    let bad (op : Nat) (row : Fin 544 → RodWord → Instr) (unused : Nat) : Prop :=
      s.Issues i op w u → (w.rsv + unused ≠ 0 → exec (row i w) s = .next (u.rodFault i 1)) ∧
        (w.rsv + unused = 0 → op ≠ 0x20 → bit g.pS w.a = true → exec (row i w) s = .next (u.rodPoison i)) ∧
        (w.rsv + unused = 0 → op ≠ 0x20 → bit g.pS w.a = false →
          (0x80000 < a + 2048 ∨ op = 0x23 ∧ a < g.codeBytes → exec (row i w) s = .next (u.rodFault i 2)) ∧
          (a + 2048 ≤ 0x80000 → (op = 0x23 → g.codeBytes ≤ a) → a % 128 ≠ 0 → exec (row i w) s = .next (u.rodFault i 3)))
    bad 0x20 .accClear (w.d + w.a + w.b + w.fa + w.fb + w.imm / 2 ^ 17) ∧
    bad 0x23 .accSpill (w.d + w.b + w.fa + w.fb + w.imm / 2) ∧
    bad 0x24 .accAddrec (w.d + w.b + w.fa + w.fb + w.imm) ∧
    (s.Issues i 0x20 w u → w.rsv + (w.d + w.a + w.b + w.fa + w.fb + w.imm / 2 ^ 17) = 0 → ∃ f : RodRegs → RodRegs,
      exec (.accClear i w) s = .next (u.ran i c f) ∧
      (∀ n, n < 16 → (f g).getAcc n = if bit w.imm n then {} else g.getAcc n) ∧
      (∀ n, n < 8 → (f g).getD n = if bit w.imm 16 then 0 else g.getD n) ∧ (f g).s = g.s ∧ (f g).v = g.v ∧
      (f g).step = g.step ∧ (f g).loop = g.loop ∧ (f g).cursors = g.cursors) ∧
    (s.Issues i 0x21 w u →
      let mx := bit w.imm 16
      let n := w.imm % 65536
      let m : Mmv := { a := a, b := g.getS w.b, fa := w.fa, fb := w.fb, k := min (mmvK w.fa) (mmvK w.fb), mx := mx,
                       scale := if mx then g.getS w.d else 0 }
      let poisoned := bit g.pS w.a || bit g.pS w.b || (mx && bit g.pS w.d)
      let sa := elemSpan m.a m.fa 0 (n * m.k)
      let sb := elemSpan m.b m.fb 0 (n * m.k * mmvColumns m.fa)
      let x := (u.checkScratch i sa.1 sa.2).checkScratch i sb.1 sb.2
      let y := if mx then x.checkScratch i m.scale (32 * ((n - 1) * m.k / 32) + 32) else x
      let z := (y.rod i).mmv m n
      (mmvOk w = false → exec (.mmv i w) s = .next (u.rodFault i 1)) ∧
      (mmvOk w = true → poisoned = true → exec (.mmv i w) s = .next (u.rodPoison i)) ∧
      (mmvOk w = true → poisoned = false → ∀ code, mmvFault m n = some code → exec (.mmv i w) s = .next (u.rodFault i code)) ∧
      (mmvOk w = true → poisoned = false → mmvFault m n = none → exec (.mmv i w) s =
        .next (((y.setRegs i fun _ => z.1).tally .frm f 0x31 0 n (some c)).ran i c id z.2))) ∧
    (s.Issues i 0x22 w u →
      let mode := immMode w.imm
      let x := u.tally .frm f 0x32 0 1 (some c)
      let rs := (List.range 16).map fun k => drainColumn w.fb mode (immSat w.imm)
        (if mode = 5 then u.rodDraw r (immGen w.imm) k else 0) (g.getAcc k)
      (drainOk w = false ∨ drawSpent g mode = true → exec (.accDrain i w) s = .next (u.rodFault i 1)) ∧
      (drainOk w = true → drawSpent g mode = false →
        (w.fa = 0xE → exec (.accDrain i w) s = .next (x.ran i c fun g =>
          g.setV w.d (elems 64 ((List.range 8).map g.getD)) (g.pD % 256 != 0))) ∧
        (w.fa ≠ 0xE → exec (.accDrain i w) s = .next (x.ran i c (fun g =>
          let g := (g.setV w.d (elems (fmtWidth w.fb) (rs.map (·.code))) ((List.range 16).any fun k => (r.regs.getAcc k).poison)).drew mode
          if bit w.imm 7 then g else { g with acc := [], eAcc := 0 }) (rs.foldl (fun e x => Nat.lor e x.ev) 0))))) ∧
    (s.Issues i 0x23 w u → w.rsv + (w.d + w.b + w.fa + w.fb + w.imm / 2) = 0 → bit g.pS w.a = false → a + 2048 ≤ 0x80000 →
      g.codeBytes ≤ a → a % 128 = 0 →
      let x := (List.range 16).foldl (fun x k => x.scratchWrite i (a + 128 * k) (g.getAcc k).record (g.getAcc k).poison) u
      exec (.accSpill i w) s = .next (x.ran i c fun g => if bit w.imm 0 then { g with acc := [], eAcc := 0 } else g) ∧
        (u.checkOf i = none → x.mem = u.mem ∧ (∀ k, k < 16 → cellRead (x.rod i).scratch (a + 128 * k) 128 = (g.getAcc k).record) ∧
          ∀ b, b < a ∨ a + 2048 ≤ b → cellGet (x.rod i).scratch b = cellGet r.scratch b)) ∧
    (s.Issues i 0x24 w u → w.rsv + (w.d + w.b + w.fa + w.fb + w.imm) = 0 → bit g.pS w.a = false → a + 2048 ≤ 0x80000 →
      a % 128 = 0 →
      (r.records a = none → exec (.accAddrec i w) s = .next (u.rodFault i 1)) ∧
      (∀ l, r.records a = some l → ∃ f : RodRegs → RodRegs, exec (.accAddrec i w) s = .next (u.ran i c f) ∧
        (∀ n, n < 16 → (f g).getAcc n = (g.getAcc n).merge (l.getD n {})) ∧ (f g).s = g.s ∧ (f g).v = g.v ∧ (f g).d = g.d ∧
          (f g).step = g.step))

/-- Vector instructions (R172, R173, R185, R196, R202, R208–R212, R220–R227, R295): loads and stores move 128 bytes of scratch or
of the context's partition, a tile that runs again being given what it read before, and a store of a rod not under check is
performed; arithmetic computes each lane exactly and rounds it once, with one draw each in mode 5; the lane instructions, the
reduction and the conversions write V[D] with their lanes and the operands' poison. Illegal fields, a poisoned address, bounds and
alignment stop each as the spec says. What VSEL selects by and VSHUF takes are free values. -/
def Obligations.VectorInstructionsAct : Prop :=
  (∀ (f n : Nat) (l : List Nat), f < 15 → n < l.length → l.length ≤ 1024 / fmtWidth f →
    (lanes f (elems (fmtWidth f) l % 2 ^ 1024)).getD n 0 = l.getD n 0 % 2 ^ fmtWidth f) ∧
  (∀ (u : State) (i addr : Nat) (o : OutWrite) (b : List Byte) (p : Bool),
    let f := rodFrame i
    let r := u.rod i
    let x := u.setRod i { r with writes := r.writes + 1 }
    r.skip ≤ r.writes → r.st ≠ .checking →
      ((u.frame f).check = none → u.outgoing i addr o b p = x.perform f o) ∧
      (∀ k, u.checkOf i = some k → u.outgoing i addr o b p =
        x.setCheck f (some { k with made := k.made + 1, held := k.held ++ [(k.made + 1, o)] }))) ∧
  ∀ (s : State) (i : Fin 544) (w : RodWord) (u : State),
    let r := u.rod i
    let g := r.regs
    let a := g.getS w.a
    let c := ((s.fetched i).rod i).ctx
    let f := rodFrame i
    let mode := immMode w.imm
    let sat := immSat w.imm
    let draw (k : Nat) : Nat := if mode = 5 then u.rodDraw r (immGen w.imm) k else 0
    let load := w.rsv + (w.b + w.fa + w.fb + w.imm)
    let store := w.rsv + (w.d + w.fa + w.fb + w.imm)
    (∀ x ∈ [((0x40 : Nat), load, (Instr.vld : Fin 544 → RodWord →
      Instr)), (0x42, load, .vldf), (0x41, store, .vst), (0x43, store, .vstf)],
      s.Issues i x.1 w u →
        (x.2.1 ≠ 0 → exec (x.2.2 i w) s = .next (u.rodFault i 1)) ∧
        (x.2.1 = 0 → bit g.pS w.a = true → exec (x.2.2 i w) s = .next (u.rodPoison i))) ∧
    (s.Issues i 0x40 w u → load = 0 → bit g.pS w.a = false →
      (0x80000 < a + 128 → exec (.vld i w) s = .next (u.rodFault i 2)) ∧
      (a + 128 ≤ 0x80000 → a % 128 ≠ 0 → exec (.vld i w) s = .next (u.rodFault i 3)) ∧
      (a + 128 ≤ 0x80000 → a % 128 = 0 → exec (.vld i w) s =
        .next (u.ran i c fun g => g.setV w.d (leNat (cellRead r.scratch a 128)) (badAt r.badLines a 128)))) ∧
    (s.Issues i 0x42 w u → load = 0 → bit g.pS w.a = false →
      (∀ x b p, u.rehear i = some (x, b, p) → exec (.vldf i w) s = .next (x.ran i c fun g => g.setV w.d (leNat b) p)) ∧
      (u.rehear i = none → ∀ y, let x := if (u.checkOf i).isSome then u.followAll f else u
        (x.fbOpen f r.ctx a 128 = (y, .bounds) → exec (.vldf i w) s = .next (u.rodFault i 4)) ∧
        (x.fbOpen f r.ctx a 128 = (y, .wait) → exec (.vldf i w) s = .next u) ∧
        (∀ o, x.fbOpen f r.ctx a 128 = (y, .open_ o) →
          let z := y.checkFb f o 128
          let d := (z.frame f).read o 128
          exec (.vldf i w) s = .next ((z.hear i d.1 d.2).ran i c fun g => g.setV w.d (leNat d.1) d.2)))) ∧
    (s.Issues i 0x41 w u → store = 0 → bit g.pS w.a = false →
      (0x80000 < a + 128 ∨ a < g.codeBytes → exec (.vst i w) s = .next (u.rodFault i 2)) ∧
      (a + 128 ≤ 0x80000 → g.codeBytes ≤ a → a % 128 ≠ 0 → exec (.vst i w) s = .next (u.rodFault i 3)) ∧
      (a + 128 ≤ 0x80000 → g.codeBytes ≤ a → a % 128 = 0 → exec (.vst i w) s =
        .next ((u.scratchWrite i a (leBytes 128 (g.getV w.b)) (bit g.pV w.b)).ran i c id))) ∧
    (s.Issues i 0x43 w u → store = 0 → bit g.pS w.a = false → ∀ y,
      let b := leBytes 128 (g.getV w.b)
      let p := bit g.pV w.b || r.poisonTile
      (u.fbOpen f r.ctx a 128 = (y, .bounds) → exec (.vstf i w) s = .next (u.rodFault i 4)) ∧
      (u.fbOpen f r.ctx a 128 = (y, .wait) → exec (.vstf i w) s = .next u) ∧
      (∀ o, u.fbOpen f r.ctx a 128 = (y, .open_ o) → exec (.vstf i w) s =
        .next ((y.outgoing i o (.fb o b p) b p).ran i c id))) ∧
    (let legal := w.rsv + w.fb = 0 ∧ arithFormat w.fa = true ∧ roundImmOk w.imm = true ∧ immOp w.imm = 0 ∧
      drawSpent g mode = false
     ∀ (x : Nat × Bool × (Nat → Machine.Num → Machine.Num → Machine.Num → Machine.Num) × (Fin 544 → RodWord → Instr)),
      x ∈ [(0x48, false, (fun m x y _ => addNum m x y), Instr.vadd), (0x49, false, (fun _ x y _ => mulNum x y), .vmul),
        (0x4E, true, (fun m x y z => addNum m (mulNum x y) z), .vfma)] → s.Issues i x.1 w u →
      let y := u.arith r w x.2.1 x.2.2.1
      (¬legal → exec (x.2.2.2 i w) s = .next (u.rodFault i 1)) ∧
      (legal → exec (x.2.2.2 i w) s = .next (u.ran i c (fun g =>
        (g.setV w.d y.1 (bit g.pV w.a || bit g.pV w.b || (x.2.1 && bit g.pV w.d))).drew mode) y.2))) ∧
    (let codes (n : Nat) : List Nat := (lanes w.fa (g.getV n)).map (laneCode w.fa)
     let va := codes w.a
     let vb := codes w.b
     let vd := codes w.d
     (∀ (x : Nat × Nat × Bool × (Nat → Nat → Nat → Nat) × (Fin 544 → RodWord → Instr)),
      x ∈ [(0x4A, 1, false, (fun _ x y => laneMax true w.fa x y), Instr.vmax), (0x4B, 1, false, (fun _ x y => laneMax false w.fa x y), .vmin),
        (0x4C, 5, false, (fun _ x y => if laneCmp w.imm w.fa x y then 2 ^ fmtWidth w.fa - 1 else 0), .vcmp),
        (0x4D, 1, Config.selectReadsD, (fun d x y => if Config.selectsA d x y then x else y), .vsel)] → s.Issues i x.1 w u →
      (w.rsv + w.fb ≠ 0 ∨ 15 ≤ w.fa ∨ x.2.1 ≤ w.imm → exec (x.2.2.2.2 i w) s = .next (u.rodFault i 1)) ∧
      (w.rsv + w.fb = 0 → w.fa < 15 → w.imm < x.2.1 → exec (x.2.2.2.2 i w) s = .next (u.ran i c fun g =>
        g.setV w.d (elems (fmtWidth w.fa) ((List.range va.length).map fun k => x.2.2.2.1 (vd.getD k 0) (va.getD k 0) (vb.getD k 0)))
          (bit g.pV w.a || bit g.pV w.b || (x.2.2.1 && bit g.pV w.d))))) ∧
     (s.Issues i 0x54 w u →
      (w.rsv ≠ 0 ∨ 15 ≤ w.fa ∨ 15 ≤ w.fb ∨ w.imm ≠ 0 → exec (.vshuf i w) s = .next (u.rodFault i 1)) ∧
      (w.rsv = 0 → w.fa < 15 → w.fb < 15 → w.imm = 0 → exec (.vshuf i w) s = .next (u.ran i c fun g =>
        g.setV w.d (elems (fmtWidth w.fa) ((List.range va.length).map fun k =>
          va.getD (Config.shuffleSource w.fa w.fb w.b 0 (r.regs.getV w.b) k % va.length) 0))
          (bit g.pV w.a || (Config.shuffleReadsB && bit g.pV w.b)))))) ∧
    (s.Issues i 0x53 w u →
      let legal := w.rsv + w.b + w.fb = 0 ∧ w.fa < 15 ∧ roundImmOk w.imm = true ∧
        (immOp w.imm = 1 ∨ immOp w.imm = 0 ∧ arithFormat w.fa = true ∧ drawSpent g mode = false)
      let most := redTree (fun _ x y => { code := laneMax true w.fa x y }) 8 0 0 (lanes w.fa (g.getV w.a))
      let sum := redTree (fun k x y => laneArith w.fa mode sat (draw k) ((decodeFmt w.fa x).isNan || (decodeFmt w.fa y).isNan)
        (addNum mode (decodeFmt w.fa x) (decodeFmt w.fa y))) 8 0 0 (lanes w.fa (g.getV w.a))
      (¬legal → exec (.vred i w) s = .next (u.rodFault i 1)) ∧
      (legal → immOp w.imm = 1 → exec (.vred i w) s = .next (u.ran i c (fun g => g.setV w.d most.1 (bit g.pV w.a)) most.2)) ∧
      (legal → immOp w.imm = 0 → exec (.vred i w) s =
        .next (u.ran i c (fun g => (g.setV w.d sum.1 (bit g.pV w.a)).drew mode) sum.2))) ∧
    (∀ (x : Nat × Bool × (Nat → Bool → Nat → Machine.Num → Rounded) × (Fin 544 → RodWord → Instr)),
      x ∈ [(0x50, (w.fa < 0xF && w.fb < 0xF), roundFmt w.fb, Instr.vcvt),
        (0x51, (smallFloat w.fa && (smallFloat w.fb || w.fb == 7)), expNum w.fb, .vexp),
        (0x52, (smallFloat w.fa && smallFloat w.fb), rcpNum w.fb, .vrcp)] → s.Issues i x.1 w u →
      let n := cvtLanes w.fa w.fb
      let rs := (List.range n).map fun k => x.2.2.1 mode sat (draw k)
        (decodeFmt w.fa ((lanes w.fa (g.getV w.a)).getD (n * immP w.imm + k) 0))
      let vd := lanes w.fb (g.getV w.d)
      (x.2.1 = false ∨ cvtOk w = false ∨ drawSpent g mode = true → exec (x.2.2.2 i w) s = .next (u.rodFault i 1)) ∧
      (x.2.1 = true → cvtOk w = true → drawSpent g mode = false → exec (x.2.2.2 i w) s = .next (u.ran i c (fun g =>
        (g.setV w.d (elems (fmtWidth w.fb) (vd.take (n * immQ w.imm) ++ rs.map (·.code) ++ vd.drop (n * immQ w.imm + n)))
          (bit g.pV w.a || bit g.pV w.d)).drew mode) (rs.foldl (fun e x => Nat.lor e x.ev) 0))))

/-- Streams and tiles (R172, R235–R238, R288, R296, R298): a stream the stage does not hold at that end is a fault; SSEND waits
while the ring is full and else writes the next element; SRECV gives a tile that runs again what it received before, waits while
the ring is empty, gives zeros with poison once it is closed, and else reads the next element; a waiting instruction looks again,
and is issued when its rod is ready. TILE_END zeroes DRAW, raises TILE and brings what the boundary brings, the next tile where
nothing else waits; HALT halts. The third rod of a vote stops at either. -/
def Obligations.StreamsAndTilesAct : Prop :=
  (∀ (s : State) (i : Fin 544) (w : RodWord) (u : State),
    let r := u.rod i
    let c := ((s.fetched i).rod i).ctx
    let sid := w.imm % 32
    let cur := tblGet r.regs.cursors sid {}
    let moved (f : Cursor → Cursor) (g : RodRegs) : RodRegs := { g with cursors := tblPut g.cursors sid (f (tblGet g.cursors sid {})) }
    let unused (send : Bool) : Nat := w.rsv + ((if send then w.d else w.a) + w.b + w.fa + w.fb + w.imm / 32)
    (∀ send : Bool, s.Issues i (if send then 0x61 else 0x60) w u →
      let row := if send then Instr.ssend i w else .srecv i w
      (unused send ≠ 0 → exec row s = .next (u.rodFault i 1)) ∧
      (unused send = 0 → u.streamOf r sid send = none ∨ cur.valid = false ∨ cur.send ≠ send → exec row s =
        .next (u.rodFault i 8))) ∧
    (∀ j k x, s.Issues i 0x61 w u → unused true = 0 → u.streamOf r sid true = some (j, k) → cur.valid = true → cur.send = true →
      tblGet? u.jobs j = some x →
      ((u.stream j k).taken + x.ringSize k ≤ cur.count → exec (.ssend i w) s = .next (u.waitOn i w true)) ∧
      (cur.count < (u.stream j k).taken + x.ringSize k → ∀ v f,
        (u.ringOpen j k cur.count = (v, f, .bounds) → exec (.ssend i w) s = .next (u.rodFault i 4)) ∧
        (u.ringOpen j k cur.count = (v, f, .wait) → exec (.ssend i w) s = .next u) ∧
        (∀ a, u.ringOpen j k cur.count = (v, f, .open_ a) →
          let b := leBytes 128 (r.regs.getV w.a)
          let p := bit r.regs.pV w.a || r.poisonTile
          exec (.ssend i w) s = .next ((v.outgoing i sid (.stream j k cur.count b p) b p).ran i c
            (moved fun c => { c with count := c.count + 1, peer := (u.stream j k).taken }))))) ∧
    (∀ j k, s.Issues i 0x60 w u → unused false = 0 → u.streamOf r sid false = some (j, k) → cur.valid = true → cur.send = false →
      let given (y : State) (b : List Byte) (p : Bool) : State := y.ran i c fun g =>
        (moved (fun c => { c with count := c.count + 1, peer := (u.stream j k).written }) g).setV w.d (leNat b) p
      (∀ x b p, u.rehear i = some (x, b, p) → exec (.srecv i w) s = .next (given x b p)) ∧
      (u.rehear i = none →
        (∀ n, (u.stream j k).closed = some n → n ≤ cur.count → exec (.srecv i w) s =
          .next ((u.hear i (zeroBytes 128) true).ran i c fun g =>
            (moved (fun c => { c with closed := true, peer := (u.stream j k).written }) g).setV w.d 0 true)) ∧
        ((∀ n, (u.stream j k).closed = some n → cur.count < n) →
          ((u.stream j k).written ≤ cur.count → exec (.srecv i w) s = .next (u.waitOn i w false)) ∧
          (cur.count < (u.stream j k).written → ∀ v f,
            (u.ringOpen j k cur.count = (v, f, .bounds) → exec (.srecv i w) s = .next (u.rodFault i 4)) ∧
            (u.ringOpen j k cur.count = (v, f, .wait) → exec (.srecv i w) s = .next u) ∧
            (∀ a, u.ringOpen j k cur.count = (v, f, .open_ a) →
              let z := v.checkFb f a 128
              let d := (z.frame f).read a 128
              let y := z.setStream j k { z.stream j k with taken := max (u.stream j k).taken (cur.count + 1) }
              exec (.srecv i w) s = .next (given (y.hear i d.1 d.2) d.1 d.2)))))) ∧
    (s.Issues i 0x70 w u →
      let x := u.setRegs i fun g => RodRegs.advance { g with step := (tileField g.step + 1) % 2 ^ 44 * 2 ^ 20 } none
      let y := if r.poisonTile then x.setRegs i RodRegs.poisoned else x
      let ended (z : State) : State := z.tally .rod i 0x26 0 1 (some c)
      (w.rsv + (w.d + w.a + w.b + w.fa + w.fb + w.imm) ≠ 0 → exec (.tileEnd i w) s = .next (u.rodFault i 1)) ∧
      (w.rsv + (w.d + w.a + w.b + w.fa + w.fb + w.imm) = 0 →
        (y.runsVote i = true → exec (.tileEnd i w) s = .next (ended (y.thirdEnds i))) ∧
        (y.runsVote i = false → exec (.tileEnd i w) s = .next (ended ((y.checkPassed i).afterTile i))) ∧
        drawField (y.rod i).regs.step = 0 ∧ tileField (y.rod i).regs.step = (tileField r.regs.step + 1) % 2 ^ 44)) ∧
    (s.Issues i 0x72 w u →
      let x := if (u.checkOf i).isSome then u.followAll (rodFrame i) else u
      let y := x.setRegs i fun g => { g.advance none with halted := true }
      let t := y.rod i
      let ended (z : State) : State := z.tally .rod i 0x26 0 1 (some c)
      (w.rsv + (w.d + w.a + w.b + w.fa + w.fb + w.imm) ≠ 0 → exec (.halt i w) s = .next (u.rodFault i 1)) ∧
      (w.rsv + (w.d + w.a + w.b + w.fa + w.fb + w.imm) = 0 →
        t.regs.halted = true ∧
        (y.runsVote i = true → exec (.halt i w) s = .next (ended (y.thirdEnds i))) ∧
        (y.runsVote i = false →
          (t.stopping = true → exec (.halt i w) s = .next (ended (y.setRod i t.clear).tryRemoves)) ∧
          (t.stopping = false → y.wantsThird i = true → exec (.halt i w) s =
            .next (ended ((y.takeThird (rodFrame i) (i % 17)).setRod i { t with st := .saving }))) ∧
          (t.stopping = false → y.wantsThird i = false → t.st = .toTileEnd → exec (.halt i w) s =
            .next (ended (y.saveForSwitch i))) ∧
          (t.stopping = false → y.wantsThird i = false → t.st ≠ .toTileEnd → exec (.halt i w) s = .next (ended y)))))) ∧
  (∀ (u : State) (i : Nat) (w : RodWord) (send : Bool), (u.frame (rodFrame i)).check = none → (u.rod i).stopping = false →
    (u.rod i).st = .running →
    u.waitOn i w send = u.setRod i { u.rod i with wait := some (w, send) } ∧
    (u.wantsThird i = false → (u.frame (rodFrame i)).request = none → (u.checkPassed i).afterTile i = u.tileStart i)) ∧
  ∀ (s : State) (i : Fin 544),
    ((s.rod i).wait = none → exec (.streamWaitResume i) s = .next s) ∧
    (∀ v send, (s.rod i).wait = some (v, send) →
      let x := s.setRod i { s.rod i with wait := none }
      let op := if send then 0x61 else 0x60
      (x.rodReady i = true → exec (.streamWaitResume i) s = .next (x.rodIssue i op v fun s r => s.streamOp i v send r)) ∧
      (∀ u, x.Issues i op v u → exec (.streamWaitResume i) s =
        .next (u.did i ((x.fetched i).rod i).ctx (u.streamOp i v send (u.rod i)))) ∧
      (x.rodReady i = false → exec (.streamWaitResume i) s = .next s))

/-- Slices and votes (R75, R185, R187–R193, R239, R297–R299, Table 8.7). A boundary, after what is due before it, makes the entry
of its tick current and, unless a vote is under way, asks every rod to switch: one that is halted or waits saves, another goes on
to its TILE_END, within the grace of the first switch. A rod saves, is zeroed and restores its record, a stand-in being made on
the way where one is requested; a record that cannot be written or read, that is poisoned or of another version or device, is a
SAVE_FAIL, one whose cursors differ from the placement a STREAM fault. A tile that overruns faults its rod; zeroed units read 0. A
check's mismatch takes the rod back to its tile start with the held writes dropped and a third rod sought; the vote's outcome, by
the three signatures, ends the check: the rod that lost gives way, or the tile is run again poisoned. -/
def Obligations.SlicesAndVotesAct : Prop :=
  (∀ g : RodRegs, g.record.length = 0x2000 ∧ field g.record 0 4 = 1 ∧ field g.record 4 4 = idrev ∧
    field g.record 8 8 = g.step % 2 ^ 64 ∧ field g.record 0x10 4 = g.pc % 2 ^ 32 ∧
    (∀ n, n < 32 → field g.record (0x100 + 8 * n) 8 = g.getS n % 2 ^ 64 ∧
      field g.record (0xC00 + 128 * n) 128 = g.getV n % 2 ^ 1024) ∧
    ∀ n, n < 16 → (g.record.drop (0x400 + 128 * n)).take 128 = (g.getAcc n).record) ∧
  (∀ (s : State) (f : Fin 32),
    let now := s.tick.count
    (s.clocked .frm f = false → exec (.sliceBoundary f) s = .next s ∧ exec (.fbZeroDone f) s = .next s) ∧
    (s.clocked .frm f = true →
      ((s.frame f).cur ≠ s.currentAt f now →
        (s.dueBefore now 9 = false → exec (.sliceBoundary f) s = .next (s.startSwitch f)) ∧
        (s.dueBefore now 9 = true → exec (.sliceBoundary f) s = .next s)) ∧
      ((s.frame f).cur = s.currentAt f now →
        (s.nextBoundary f now = none → exec (.sliceBoundary f) s = .next s) ∧
        (∀ tick, s.nextBoundary f now = some tick →
          (s.dueBefore tick 9 = false → exec (.sliceBoundary f) s = .next ((s.elapseToTick tick).startSwitch f)) ∧
          (s.dueBefore tick 9 = true → exec (.sliceBoundary f) s = .next s))) ∧
      (∃ t, exec (.fbZeroDone f) s = .next t ∧ (t.frame f).zeroing = [] ∧ t.mem = s.mem ∧ t.rods = s.rods ∧
        ∀ a, cellGet (t.frame f).fb a =
          if (s.frame f).zeroing.contains (a / 0x10000) then 0 else cellGet (s.frame f).fb a)) ∧
    ((s.startSwitch f).frame f).cur = s.currentAt f now ∧
    (s.voting f = true → ((s.startSwitch f).frame f).heldSwitch = true ∧ (s.startSwitch f).rods = s.rods)) ∧
  (∀ (s : State) (f k : Nat) (cur : Option Nat),
    let i := s.physRod f k
    let r := s.rod i
    let t := s.switchRod f cur k
    (r.st = .quarantined ∨ s.inVote i = true → t = s) ∧
    (s.inVote i = false → s.checkOf i = none →
      (∀ j, j ≠ i → r.st = .running → t.rod j = s.rod j) ∧
      (r.st = .running → r.regs.halted = false → r.wait = none →
        t.rod i = { r with incoming := cur, switching := true, switchAt := s.time, st := .toTileEnd }) ∧
      (r.st = .running → r.regs.halted = true ∨ r.wait.isSome = true →
        t.rod i = { r with incoming := cur, switching := true, switchAt := s.time, st := .saving, wait := none }) ∧
      (r.st = .toTileEnd → t = s.setRod i { r with incoming := cur, switching := true }))) ∧
  (∀ (s : State) (i : Fin 544),
    let r := s.rod i
    let f := rodFrame i
    (s.clocked .rod i = false ∨ r.st ≠ .saving → exec (.rodSaveDone i) s = .next s) ∧
    (s.clocked .rod i = false ∨ r.st ≠ .zeroing → exec (.rodZeroDone i) s = .next s) ∧
    (s.clocked .rod i = false ∨ r.st ≠ .restoring → exec (.rodRestoreDone i) s = .next s) ∧
    (s.clocked .rod i = true →
      (r.st = .saving → ∀ u,
        (s.saveRod i = (u, .done) → exec (.rodSaveDone i) s = .next (u.saved i)) ∧
        (s.saveRod i = (u, .wait) → exec (.rodSaveDone i) s = .next u) ∧
        (∀ a b c, s.saveRod i = (u, .failed a b c) → exec (.rodSaveDone i) s = .next (u.saveFail i))) ∧
      (r.st = .zeroing →
        let may (e : Nat) : Prop := s.entValid f e = true ∧ (s.ctx (s.entCtx f e)).st = .active
        (r.leaving = true → exec (.rodZeroDone i) s = .next (s.setRod i { st := .quarantined })) ∧
        (r.leaving = false →
          (∀ k cause, s.standIn i = some (k, cause) → exec (.rodZeroDone i) s = .next (s.substitute f k cause r.incoming)) ∧
          (s.standIn i = none →
            (∀ e k j, r.incoming = some e → s.logicalOf i = some k → may e → s.jobAt f (s.entCtx f e) k = some j →
              exec (.rodZeroDone i) s = .next (s.setRod i { st := .restoring, ctx := s.entCtx f e, job := some j, incoming := some e
                                                            switching := true, home := some (s.slotOf f e k) })) ∧
            (r.incoming = none ∨ s.logicalOf i = none ∨ (∀ e, r.incoming = some e → ¬may e) ∨
                (∀ e k, r.incoming = some e → s.logicalOf i = some k → s.jobAt f (s.entCtx f e) k = none) →
              exec (.rodZeroDone i) s = .next (s.restIdle i))))) ∧
      (r.st = .restoring →
        (r.home = none → exec (.rodRestoreDone i) s = .next (s.saveFail i)) ∧
        (∀ va live, r.home = some (va, live) → ∀ u l,
          let read := s.unitReads (2 * f) (rodTag i) r.ctx va (128 + live / 64)
          (read = (u, l, .wait) → exec (.rodRestoreDone i) s = .next u) ∧
          (∀ a b c, read = (u, l, .failed a b c) → exec (.rodRestoreDone i) s = .next (u.saveFail i)) ∧
          (read = (u, l, .done) →
            (u.standIn i = none → exec (.rodRestoreDone i) s = .next (u.restored i l)) ∧
            (∀ k cause, u.standIn i = some (k, cause) → exec (.rodRestoreDone i) s =
              .next (u.substitute f k cause ((u.rod i).incoming.or (u.entryOf f (u.rod i).ctx)))))))) ∧
    (r.st = .toTileEnd → s.inVote i = false →
      let u := s.elapseTo (r.switchAt + us (s.actBits .frm f 0x040 31 16))
      exec (.tileOverrun i) s = .next ((((u.bump (pageBase .frm f + 0x814)).raise .frm f 1).rodFault i 6).startRodZero i)) ∧
    (r.st ≠ .toTileEnd ∨ s.inVote i = true → exec (.tileOverrun i) s = .next s)) ∧
  (∀ (s : State) (i : Nat) (l : List (List Byte × Bool)) (g : RodRegs),
    let r := s.rod i
    let b := (l.take 128).flatMap (·.1)
    let bad := field b 0 4 ≠ 1 ∨ field b 4 4 ≠ idrev ∨ (l.take 128).any (·.2) = true
    let placed := match r.job with
      | some (j, st, n) => (match tblGet? s.jobs j with | some v => v.cursorsOf st n | none => [])
      | none => []
    g = RodRegs.ofRecord b →
      (bad → s.restored i l = s.saveFail i) ∧
      (¬bad → cursorsAgree placed g.cursors = false → s.restored i l = s.rodFault i 8) ∧
      (¬bad → cursorsAgree placed g.cursors = true → s.logicalOf i = none →
        let t := s.restored i l
        (t.rod i).st = .running ∧ (t.rod i).regs = g ∧ (t.rod i).switching = false ∧
          (t.rod i).scratch = cellPuts [] 0 ((l.drop 128).flatMap (·.1)))) ∧
  (∀ (s : State) (i : Nat),
    let r := s.rod i
    r.stepping = false → r.switching = true → (s.frame (rodFrame i)).check = none → (s.frame (rodFrame i)).request = none →
      ((s.saved i).rod i).st = (if r.st = .quarantined then .quarantined else .zeroing) ∧ ∀ j, j ≠ i →
        (s.saved i).rod j = s.rod j) ∧
  (∀ (s : State) (f : Fin 32) (sigR sigS : Nat),
    ((s.frame f).check = none → exec (.checkMismatch f sigR sigS) s = .next s ∧ exec (.voteDone f) s = .next s) ∧
    (∀ k, (s.frame f).check = some k →
      let i := s.physRod f k.logical
      let differs := k.phase = 1 ∧ sigR ≠ sigS ∧ (k.produced < k.made ∨ s.atTileEnd i = true)
      let r := (s.rod i).undo k.undo
      let x := s.setRod i { r with regs := k.snapshot, wait := none, skip := k.performed, writes := 0, replay := k.heard }
      let y := x.setCheck f (some { k with
        phase := 3, held := [], undo := [], lag := [], sigR := sigR, sigS := sigS
        target := if k.produced < k.made then some (k.produced + 1) else none })
      (¬differs → exec (.checkMismatch f sigR sigS) s = .next s) ∧
      (differs →
        (y.thirdRod f k.logical = none → exec (.checkMismatch f sigR sigS) s = .next y) ∧
        (∀ l, y.thirdRod f k.logical = some l →
          let p := y.position f l
          let z := y.takeThird f p
          ((z.rod (17 * f + p)).st = .idle → exec (.checkMismatch f sigR sigS) s = .next (z.loadThird f p)) ∧
          ((z.rod (17 * f + p)).st ≠ .idle → exec (.checkMismatch f sigR sigS) s =
            .next (z.setRod (17 * f + p) { z.rod (17 * f + p) with st := .saving })))) ∧
      (k.third = none → exec (.voteDone f) s = .next s) ∧
      (∀ l, k.third = some l →
        let may := k.phase = 3 ∧ k.thirdDone = true ∧ (s.rod (17 * f + l)).st = .checking
        let posR := s.position f k.logical
        let ends (outcome : Nat) : State :=
          let u := (((s.postVote f k.logical outcome posR l).returnThird f l).setCheck f none).freeSpare f
          (u.voted f k.logical posR k.snapshot outcome).afterVote f k.logical
        (¬may → exec (.voteDone f) s = .next s) ∧
        (may → sigWord k.thirdSig = k.sigS → exec (.voteDone f) s = .next (ends 0)) ∧
        (may → sigWord k.thirdSig ≠ k.sigS → sigWord k.thirdSig = k.sigR → exec (.voteDone f) s = .next (ends 1)) ∧
        (may → sigWord k.thirdSig ≠ k.sigS → sigWord k.thirdSig ≠ k.sigR → exec (.voteDone f) s = .next (ends 2))))) ∧
  ∀ (s : State) (f k posR : Nat) (snapshot : RodRegs),
    let i := 17 * f + posR
    ((s.voted f k posR snapshot 0).rod i = { s.rod i with st := .saving } ∧
      ((s.voted f k posR snapshot 0).frame f).request = some (k, 1)) ∧
    ((s.voted f k posR snapshot 1).rod (17 * f + 16)).st = .quarantined ∧
    ((s.voted f k posR snapshot 2).rod i).poisonTile = true

/-- Jobs at their target (R74, R75, R242, R244, R245, R250, R289): JOB_PLACE reads and checks the sections, checks the launch tick
against the count at acceptance, and the lock of the tick, writes every rod's first record and then holds the job; what waits for
a line of another's goes on later. JOB_STEP, checked at acceptance, sets the seed, the first step, also in the records, and the
stop tile. At its launch tick, after what is due before it, the job's functions are ENABLED and its rods restore. JOB_REMOVE stops
the rods and ends the job when none is in a tile. -/
def Obligations.JobsArePlacedAndRun : Prop :=
  (∀ (s t : State) (port : Fin 16) (p : Packet) (v : InSlot), s.AdmitsMgr 0xA2 port p t v →
    let b := v.pkt.own
    let id := field b 0 2
    let j := jobOfRecord v.ctx b
    let k := cmdSlot 0xA2 p
    let bad := b.length < 112 ∨ b.length < placeLength b ∨ zeros b 2 6 = false ∨ 1024 ≤ id ∨ (tblGet? t.jobs id).isSome = true
    (bad → exec (.jobPlace port p) s = .next (t.complete k stMalformed)) ∧
    (¬bad → (t.ctx v.ctx).st ≠ .active → exec (.jobPlace port p) s = .next (t.complete k stContextGone)) ∧
    (¬bad → (t.ctx v.ctx).st = .active → ∀ u,
      (t.readSections j 0 (mSections j.manifest) = (u, .wait) → exec (.jobPlace port p) s = .next (u.engineWait k)) ∧
      (∀ i off, t.readSections j 0 (mSections j.manifest) = (u, .missing i off) →
        exec (.jobPlace port p) s = .next (u.refuseLoad k 0x0F i off)) ∧
      (∀ l, t.readSections j 0 (mSections j.manifest) = (u, .ok l) →
        (∀ i, badDigest j.manifest l = some i → exec (.jobPlace port p) s = .next (u.refuseLoad k 0x10 i 0)) ∧
        (badDigest j.manifest l = none →
          let lead := (u.acceptedAt v).1 + u.actBits .clk 0 0x040 15 0 * 1000
          (j.launch < lead → exec (.jobPlace port p) s = .next (u.refuseLoad k 0x11 0xFF 0)) ∧
          (lead ≤ j.launch → (u.acceptedAt v).2 = false → exec (.jobPlace port p) s = .next (u.complete k stBusy)) ∧
          (lead ≤ j.launch → (u.acceptedAt v).2 = true → ∀ w,
            (u.writeRecords j l j.rodsOf = (w, .wait) → exec (.jobPlace port p) s = .next (w.engineWait k)) ∧
            (∀ a b c, u.writeRecords j l j.rodsOf = (w, .failed a b c) →
              exec (.jobPlace port p) s = .next (w.refuseLoad k 0x08 0xFF 0)) ∧
            (u.writeRecords j l j.rodsOf = (w, .done) →
              exec (.jobPlace port p) s = .next ((w.addJob id j).complete k stOk) ∧
                tblGet? (w.addJob id j).jobs id = some j)))))) ∧
  (∀ (s t : State) (port : Fin 16) (p : Packet) (v : InSlot), s.AdmitsCtx 0xA7 port p t v →
    let b := v.pkt.own
    let id := field b 0 2
    let k := cmdSlot 0xA7 p
    (t.stepCheck v ≠ stOk → exec (.jobStep port p) s = .next (t.complete k (t.stepCheck v))) ∧
    (t.stepCheck v = stOk → ∀ j, tblGet? t.jobs id = some j → ∀ u,
      (t.writeSteps j.ctx (field b 16 8) j.rodsOf = (u, .wait) → exec (.jobStep port p) s = .next (u.engineWait k)) ∧
      (∀ st x y, t.writeSteps j.ctx (field b 16 8) j.rodsOf = (u, .failed st x y) →
        exec (.jobStep port p) s = .next (u.complete k st)) ∧
      (t.writeSteps j.ctx (field b 16 8) j.rodsOf = (u, .done) → exec (.jobStep port p) s =
        .next ((u.setJob id { j with
          seed := field b 8 8, step0 := field b 16 8
          stop := if bit (field b 24 8) 63 then some (field b 24 8 % 2 ^ 44) else none }).complete k stOk)))) ∧
  (∀ (t : State) (v : InSlot), v.accepted = none →
    let b := v.pkt.own
    ((t.ctx v.ctx).st ≠ .active → t.stepCheck v = stContextGone) ∧
    ((t.ctx v.ctx).st = .active →
      (t.memberOrMgr v = false → t.stepCheck v = stPermission) ∧
      (t.memberOrMgr v = true →
        ((∀ j, tblGet? t.jobs (field b 0 2) = some j → j.ctx ≠ v.ctx) → t.stepCheck v = stFnDisabled) ∧
        (∀ j, tblGet? t.jobs (field b 0 2) = some j → j.ctx = v.ctx →
          let ok := b.length = 32 ∧ zeros b 2 6 = true ∧ j.launched = false ∧ t.leadTick ≤ j.launch ∧
            field b 16 8 % 2 ^ 20 = 0 ∧ bits (field b 24 8) 62 44 = 0
          (ok → t.stepCheck v = stOk) ∧ (¬ok → t.stepCheck v = stMalformed))))) ∧
  (∀ (s : State) (id : Nat),
    (tblGet? s.jobs id = none → exec (.jobLaunch id) s = .next s) ∧
    (∀ j, tblGet? s.jobs id = some j →
      let t := s.elapseToTick j.launch
      let due := t.dueBefore j.launch 10 = true ∨ ∃ q ∈ j.places, (t.frame q.1).cur ≠ t.currentAt q.1 t.tick.count
      (j.launched = true ∨ due → exec (.jobLaunch id) s = .next s) ∧
      (j.launched = false → ¬due → ∃ u, exec (.jobLaunch id) s = .next u ∧
        tblGet? u.jobs id = some { j with launched := true } ∧ u.mem = t.mem ∧
        (∀ n f, tblGet? t.fns n = some f →
          tblGet? u.fns n = some (if f.job = id ∧ f.st = .loaded then { f with st := .enabled } else f)) ∧
        ∀ i, u.rod i = t.rod i ∨ (t.rod i).st = .idle ∧ (u.rod i).st = .restoring ∧ (u.rod i).ctx = j.ctx))) ∧
  ∀ (s t : State) (port : Fin 16) (p : Packet) (v : InSlot), s.AdmitsMgr 0xA3 port p t v →
    let id := field v.pkt.own 0 2
    let k := cmdSlot 0xA3 p
    (tblGet? t.jobs id = none → exec (.jobRemove port p) s = .next (t.complete k stFnDisabled)) ∧
    (∀ j, tblGet? t.jobs id = some j →
      let ok := v.pkt.own.length = 8 ∧ zeros v.pkt.own 2 6 = true
      (¬ok → exec (.jobRemove port p) s = .next (t.complete k stMalformed)) ∧
      (ok → j.ctx ≠ v.ctx → exec (.jobRemove port p) s = .next (t.complete k stFnDisabled)) ∧
      (ok → j.ctx = v.ctx →
        let j' : Job := { j with removing := some k }
        let u : State := { (t.setJob id j') with rods := tblMap t.rods fun _ r => r.stopFor id }
        let inTile := (u.rods.any fun r => (r.2.job.any fun x => x.1 == id) && r.2.inTile)
        (inTile = true → exec (.jobRemove port p) s = .next u) ∧
        (inTile = false → exec (.jobRemove port p) s = .next ((u.zeroRings j').dropJob id))))

/-- The loader (R240–R243, R250, R433): only the active manager serves JOB_LOAD and JOB_UNLOAD, and only for a member of the
context, by the list of the target; an accepted one is a journalled change. A manifest at fault is refused with its reason, and so
is a job that fails a check on the target; what passes them is reserved and its JOB_PLACE sent. JOB_PLACE_COMPLETE is the
completion of the loader's JOB_PLACE: an OK one ends the load with the job's number, any other releases what it reserved. An
unload needs a placed job whose functions are all DISABLED and sends its JOB_REMOVE. -/
def Obligations.LoaderServesMembers : Prop :=
  (∀ (s t u : State) (port : Fin 16) (p : Packet) (v : InSlot) (st : Nat),
    let b := v.pkt.own
    let target := field b 0 2
    t.loaderCheck v target = (u, st) →
      (s.AdmitsCtx 0xA0 port p t v →
        let k := cmdSlot 0xA0 p
        let ok := 8 ≤ b.length ∧ b.length ≤ 16392 ∧ zeros b 2 6 = true ∧ target < 4096
        (st ≠ stOk → exec (.jobLoad port p) s = .next (u.complete k st)) ∧
        (st = stOk → ¬ok → exec (.jobLoad port p) s = .next (u.complete k stMalformed)) ∧
        (st = stOk → ok → exec (.jobLoad port p) s = .next (u.change k fun s => s.startLoad k))) ∧
      (s.AdmitsCtx 0xA1 port p t v →
        let k := cmdSlot 0xA1 p
        let ok := b.length = 8 ∧ zeros b 4 4 = true ∧ target < 4096
        (st ≠ stOk → exec (.jobUnload port p) s = .next (u.complete k st)) ∧
        (st = stOk → ¬ok → exec (.jobUnload port p) s = .next (u.complete k stMalformed)) ∧
        (st = stOk → ok → exec (.jobUnload port p) s = .next (u.change k fun s => s.startUnload k)))) ∧
  (∀ (t : State) (v : InSlot) (target : Nat),
    (t.mgr.role ≠ 2 → t.loaderCheck v target = (t, stUnsupported)) ∧
    (t.mgr.role = 2 → target = t.ep → t.loaderCheck v target = (t, if t.isMember v.ctx v.src then stOk else stPermission)) ∧
    (t.mgr.role = 2 → target ≠ t.ep → t.loaderCheck v target = (t.free.2,
      if (t.free.2.asSeen target t.free.1 v.ctx []).isMember v.ctx v.src then stOk else stPermission))) ∧
  (∀ (s : State) (k : Nat) (v : InSlot), s.slot? k = some v →
    let target := field v.pkt.own 0 2
    let m := v.pkt.own.drop 8
    let u := s.free.2
    let fault := manifestFault m (if target = u.ep then Config.rev.toNat else known s.free.1 12 0 % 16)
    (∀ reason i, fault = some (reason, i) → s.startLoad k = (u.refuseLoad k reason i 0).closeChange) ∧
    (fault = none →
      (target ≠ u.ep → s.startLoad k = u.loadThere k target v.ctx m s.free.1) ∧
      (target = u.ep → ∀ x,
        (∀ reason i n, u.loadAt u.firstHop k v.ctx m = (x, .inr (reason, i, n)) →
          s.startLoad k = (x.refuseLoad k reason i n).closeChange) ∧
        (∀ l, u.loadAt u.firstHop k v.ctx m = (x, .inl l) →
          (x.loadClash l = true → s.startLoad k = x.endChange k stBusy) ∧
          (x.loadClash l = false → ∀ y st, x.sendLoadStep { l with todo := [.place] } = (y, st) →
            (st = stOk → s.startLoad k = (y.reserve l).1.putLoad (y.reserve l).2) ∧
            (st ≠ stOk → s.startLoad k = y.endChange k st)))))) ∧
  (∀ (s : State) (port : Fin 16) (p : Packet), let q := p.ofType tCmpl
    ((∀ o req job, s.outMatch q ≠ some (o, req, .loader 0 job)) → exec (.jobPlaceComplete port p) s = .next s) ∧
    (∀ o req job, s.outMatch q = some (o, req, .loader 0 job) →
      (∀ u w a, s.takeLocal q = some u → u.takeCmpl none q = (w, some a) → exec (.jobPlaceComplete port p) s =
        .next (w.answered a)) ∧
      (∀ u w, s.takeLocal q = some u → u.takeCmpl none q = (w, none) → exec (.jobPlaceComplete port p) s = .next w) ∧
      (s.takeLocal q = none → s.portUp port = false → exec (.jobPlaceComplete port p) s = .next s) ∧
      (s.takeLocal q = none → s.portUp port = true →
        let v := (s.received port q none).learn port q
        (q.dst ≠ v.ep → exec (.jobPlaceComplete port p) s = .next (v.transit port q)) ∧
        (q.dst = v.ep → ∀ w,
          (∀ a, v.takeCmpl (some port.val) q = (w, some a) → exec (.jobPlaceComplete port p) s = .next (w.answered a)) ∧
          (v.takeCmpl (some port.val) q = (w, none) → exec (.jobPlaceComplete port p) s = .next w))))) ∧
  (∀ (s : State) (a : Answer) (job : Nat) (l : Load), s.answeredLoad a job = some l → l.phase = .placing →
    (a.status = stOk → l.target = s.ep → l.entries = [] → l.windows = [] →
      ∃ u : State, s.placeAnswer a job = u.endChange l.slot stOk (leBytes 2 l.job ++ zeroBytes 6 ++ leBytes 8 l.launch ++
        (List.range 16).flatMap fun i => leBytes 2 (l.fns.getD i 0xFFFF)) ∧ u.loads = s.loads.map fun x => x.settled l) ∧
    (a.status = stRefusedLoad → s.placeAnswer a job = (s.releaseLoad l).endChange l.slot stRefusedLoad (a.data.take 8)) ∧
    (a.status ≠ stOk → a.status ≠ stRefusedLoad → s.placeAnswer a job = (s.releaseLoad l).endChange l.slot a.status)) ∧
  ∀ (s : State) (k : Nat) (v : InSlot), s.slot? k = some v →
    let target := field v.pkt.own 0 2
    let job := field v.pkt.own 2 2
    (s.loadNamed target job v.ctx = none → s.startUnload k = s.endChange k stFnDisabled) ∧
    (∀ l, s.loadNamed target job v.ctx = some l → target = s.ep → (tblGet? s.jobs job).any (fun j => j.ctx == v.ctx) = true →
      let u := s.free.2
      let may := l.phase = .placed ∧ u.unloadable job = true
      (¬may → s.startUnload k = u.endChange k stBusy) ∧
      (may → ∀ w n, u.issue (u.cmdPacket 0xA3 target l.ctx (leBytes 2 job ++ zeroBytes 6)) (u.mgrKeyRef target) (.loader 1 job)
          (some l.ctx) = (w, .sent n) →
        ∃ x : State, s.startUnload k = x ∧ x.mem = w.mem ∧ x.loads = (w.loads.filter fun y => !(y.target == target && y.job == job)) ++
          [{ l with phase := .removing, slot := k }]))

/-- Functions and their calls (R240, R246–R249, R274–R277): an admitted INVOKE or ATTEND waits at its function; the first waiting
call that is ready enters once the entry stream has room for all of it and takes it; what the reply stream holds is taken for the
oldest call, a whole group completes it, a discarded call's group is dropped; FN_DISABLE drains or aborts, FN_ENABLE enables a
DISABLED function, FN_STATUS reports it; an ATTEND's blocks, once read and resolved, make its entry, and one whose table or blocks
cannot be read ends. -/
def Obligations.FunctionsServeCalls : Prop :=
  (∀ (s : State) (p : Packet) (c : Nat), ((s.ctx c).st ≠ .active → s.invokeRow p c = .refuse stContextGone) ∧
    ((s.ctx c).st = .active → (s.fnOf (p.arg % 1024) c = none → s.invokeRow p c = .refuse stFnDisabled) ∧
      ∀ f, s.fnOf (p.arg % 1024) c = some f →
        (p.body.length ≠ fnArgBytes (s.fnEntryOf f) → s.invokeRow p c = .refuse stMalformed) ∧
        (p.body.length = fnArgBytes (s.fnEntryOf f) → (f.st = .loaded → s.invokeRow p c = .refuse stBusy) ∧
          (f.st = .disabling ∨ f.st = .disabled → s.invokeRow p c = .refuse stFnDisabled) ∧
          (f.st = .enabled → fnDepth (s.fnEntryOf f) ≤ f.waiting.length → s.invokeRow p c = .refuse stBusy) ∧
          (f.st = .enabled → f.waiting.length < fnDepth (s.fnEntryOf f) → s.invokeRow p c = .pass none 0)))) ∧
  (∀ (s t : State) (port : Fin 16) (p : Packet) (v : InSlot) (f : Fn),
    (s.Admits invokeRules port p t → t.slot? (invokeRules.slot p) = some v → tblGet? t.fns (v.pkt.arg % 1024) = some f →
      exec (.invoke port p) s = .next (t.setFn (v.pkt.arg % 1024) { f with
        waiting := f.waiting ++ [{ slot := invokeRules.slot p, entry := v.pkt.body, poison := v.poison }] })) ∧
    (s.Admits attendRules port p t → t.slot? (attendRules.slot p) = some v → ∀ q, t.profile v.ctx = some q →
      let i := field v.pkt.body 0 4 % 16384
      let call : Call := { slot := attendRules.slot p, attend := true, ready := false, poison := v.poison, session := i
                           blocks := blockCount q v.pkt.body }
      ∃ u : State, exec (.attend port p) s = .next (u.addCall q.fn call) ∧
        u.session i = { t.session i with calls := (t.session i).calls + 1, lastTick := t.tick.count } ∧ u.fns = t.fns ∧
        u.mem = t.mem)) ∧
  (∀ (s : State) (n : Fin 1024),
    (tblGet? s.fns n = none → exec (.callEnter n) s = .next s ∧ exec (.replyGroupReady n) s = .next s) ∧
    (∀ f, tblGet? s.fns n = some f →
      let entry := fnEntry (s.fnEntryOf f)
      let reply := fnReply (s.fnEntryOf f)
      (f.waiting = [] → exec (.callEnter n) s = .next s) ∧
      (f.inPipe = [] → exec (.replyGroupReady n) s = .next s) ∧
      (∀ c q, f.waiting = c :: q →
        let size := (c.entry.length + 127) / 128
        (c.ready = false ∨ s.ringRoom f.job entry < size → exec (.callEnter n) s = .next s) ∧
        (c.ready = true → size ≤ s.ringRoom f.job entry →
          (s.pushElements f.job entry c.entry c.poison size = none → exec (.callEnter n) s = .next s) ∧
          (∀ u, s.pushElements f.job entry c.entry c.poison size = some u → exec (.callEnter n) s =
            .next (u.setFn n { f with waiting := q, inPipe := f.inPipe ++ [{ c with entry := [] }] })))) ∧
      (∀ c q, f.inPipe = c :: q →
        let some_ := s.ringHeld f.job reply ≠ 0 ∨ (s.stream f.job reply).closed.isSome = true
        (¬some_ → exec (.replyGroupReady n) s = .next s) ∧
        (some_ → ∀ u c', s.takeReply f c 69632 = (u, c') →
          (c'.reply.length / 128 < u.replyNeed f c' → exec (.replyGroupReady n) s =
            .next (u.setFn n { f with inPipe := c' :: q })) ∧
          (u.replyNeed f c' ≤ c'.reply.length / 128 →
            let left (x : State) : State := (x.setFn n { f with inPipe := q }).fnSettled n
            (c'.discarded = true ∨ u.slot? c'.slot = none → exec (.replyGroupReady n) s = .next (left u)) ∧
            (∀ v, c'.discarded = false → u.slot? c'.slot = some v →
              (c'.attend = false → exec (.replyGroupReady n) s = .next (left (u.endCall c' (okOrPoison c'.badReply) c'.reply))) ∧
              (c'.attend = true → exec (.replyGroupReady n) s = .next (left (u.attendReply n f c' v))))))))) ∧
  (∀ (s : State) (n : Nat) (f : Fn), tblGet? s.fns n = some f → f.st = .disabling → f.waiting = [] → f.inPipe = [] →
    tblGet? (s.fnSettled n).fns n = some { f with st := .disabled }) ∧
  (∀ (s t : State) (port : Fin 16) (p : Packet) (v : InSlot),
    let n := field v.pkt.own 0 2
    let mode := field v.pkt.own 2 1
    (s.AdmitsCtx 0xA4 port p t v →
      let k := cmdSlot 0xA4 p
      (t.fnCheck v 3 ≠ stOk → exec (.fnDisable port p) s = .next (t.complete k (t.fnCheck v 3))) ∧
      (∀ f, t.fnCheck v 3 = stOk → tblGet? t.fns n = some f →
        (1 < mode → exec (.fnDisable port p) s = .next (t.complete k stMalformed)) ∧
        (mode ≤ 1 → f.st = .loaded → exec (.fnDisable port p) s = .next (t.complete k stBusy)) ∧
        (mode ≤ 1 → f.st = .disabling ∨ f.st = .disabled → exec (.fnDisable port p) s = .next (t.complete k stOk)) ∧
        (mode = 0 → f.st = .enabled → exec (.fnDisable port p) s =
          .next (((t.setFn n { f with st := .disabling, mode := 0 }).fnSettled n).complete k stOk)) ∧
        (mode = 1 → f.st = .enabled → exec (.fnDisable port p) s = .next ((((t.setFn n { f with
          st := .disabling, mode := 1, waiting := [], inPipe := f.inPipe.map fun c => { c with discarded := true } }).abortCalls f
            stFnDisabled).fnSettled n).complete k stOk)))) ∧
    (s.AdmitsCtx 0xA5 port p t v →
      let k := cmdSlot 0xA5 p
      (t.fnCheck v 2 ≠ stOk → exec (.fnEnable port p) s = .next (t.complete k (t.fnCheck v 2))) ∧
      (∀ f, t.fnCheck v 2 = stOk → tblGet? t.fns n = some f →
        (f.st = .disabled → exec (.fnEnable port p) s = .next ((t.setFn n { f with st := .enabled }).complete k stOk)) ∧
        (f.st = .enabled → exec (.fnEnable port p) s = .next (t.complete k stOk)) ∧
        (f.st = .loaded ∨ f.st = .disabling → exec (.fnEnable port p) s = .next (t.complete k stBusy)))) ∧
    (s.AdmitsCtx 0xA6 port p t v →
      let k := cmdSlot 0xA6 p
      (t.fnCheck v 2 ≠ stOk → exec (.fnStatus port p) s = .next (t.complete k (t.fnCheck v 2))) ∧
      (∀ f, t.fnCheck v 2 = stOk → tblGet? t.fns n = some f → exec (.fnStatus port p) s = .next (t.complete k stOk
        (leBytes 2 f.st.code ++ leBytes 2 f.waiting.length ++ leBytes 4 f.inPipe.length))))) ∧
  ∀ (s : State) (n : Nat),
    (s.unresolved n = none → exec (.attendBlocksResolved n) s = .next s) ∧
    (∀ k c x q f, s.unresolved n = some (k, c) → s.slot? n = some x → s.profile x.ctx = some q → tblGet? s.fns k = some f →
      let b := x.pkt.body
      let r := s.kvEntries (s.session c.session) (atLayer b * (s.session c.session).maxBlocks + atStart b / q.tokens) c.blocks
      (∀ u es bad st miss va, r = (u, es, bad, .failed st miss va) →
        exec (.attendBlocksResolved n) s = .next ((u.abortCall c st).dropCall k n)) ∧
      (∀ u es bad, r = (u, es, bad, .wait) → exec (.attendBlocksResolved n) s = .next u) ∧
      (∀ u es bad w bad', r = (u, es, bad, .done) →
        (u.resolve x.ctx es = (w, none, bad', .done) →
          exec (.attendBlocksResolved n) s = .next ((w.abortCall c stMalformed).dropCall k n)) ∧
        (∀ l, u.resolve x.ctx es = (w, some l, bad', .done) →
          let y := w.tally .kvs 0 0x51 0 c.blocks (some x.ctx)
          let arg := fnArgBytes (s.fnEntryOf f)
          ∀ f', tblGet? y.fns k = some f' → ∃ entry, exec (.attendBlocksResolved n) s =
              .next (y.setFn k (f'.resolved n entry (bad || bad'))) ∧
            entry.drop (roundUp (arg + 16 * l.length) 128) = b.drop 64 ∧
            ∀ i e, l[i]? = some e → (entry.drop (arg + 16 * i)).take 16 = listItem e)))

/-- Movers (R153, R251–R261): a trigger is read off a ring whose stage has a free entry; a mover that is ready goes on with the
transfer of its turn, checking its trigger and descriptor first, or with the next context's, and a spent turn passes on; each
piece is at most 256 bytes of one row, delivered from the bytes read ahead where there are some, and one whose end cannot be
reached waits, parks or ends the transfer; a discard drops run-ahead and the translations it used and nothing else; MOV_CANCEL
drops a parked transfer, its stream destination closed, and MOV_RESUME checks the record and the descriptor again and takes up the
position the record names. -/
def Obligations.MoversTransfer : Prop :=
  (∀ (d : Desc) (k : Nat), 1 ≤ d.row → d.dstFmt < 15 → k < d.pieces →
    0 < (d.piece k).count ∧ (d.piece k).count * d.dstBits ≤ 2048 ∧ (d.piece k).first + (d.piece k).count ≤ d.row) ∧
  (∀ (s : State) (m : Fin 64),
    let v := s.mover m
    (s.moverReady m = false → ∀ row ∈ [Instr.triggerRead, .pieceDeliver, .moverPreempt], exec (row m) s = .next s) ∧
    (s.moverReady m = true →
      let rings := s.triggerRings m
      let open_ := rings.filter fun t => s.entryFree m t
      (rings = [] → exec (.triggerRead m) s = .next s) ∧
      (rings ≠ [] → open_ = [] → exec (.triggerRead m) s = .next (s.raise .mov m 3)) ∧
      (open_ ≠ [] →
        let x := open_.getD (s.free.1 % open_.length) (0, 0)
        ∀ j w, tblGet? s.jobs x.1 = some j →
          (s.free.2.popElement x.1 x.2 = (w, none) → exec (.triggerRead m) s = .next w) ∧
          (∀ b bad, s.free.2.popElement x.1 x.2 = (w, some (b, bad)) →
            exec (.triggerRead m) s = .next (w.setMover m { w.mover m with xfers := (w.mover m).xfers ++
              [{ job := x.1, ctx := j.ctx, stage := strProd (mStream j.manifest x.2), stream := x.2
                 number := (s.stream x.1 x.2).taken, trigger := b, bad := bad }] }))) ∧
      (∀ x, v.candidate v.turn = some x →
        let passes := s.spent m = true ∧ ∃ c, v.nextTurn x.ctx = some c ∧ c ≠ x.ctx
        (passes → exec (.pieceDeliver m) s = .next (s.yieldTurn m x)) ∧
        (¬passes → exec (.pieceDeliver m) s = .next ((s.runXfer m x).runAhead m))) ∧
      (v.candidate v.turn = none →
        (v.nextTurn v.turn = none → exec (.pieceDeliver m) s = .next s) ∧
        (∀ c x, v.nextTurn v.turn = some c → v.candidate c = some x →
          exec (.pieceDeliver m) s = .next (((s.setTurn m c).runXfer m x).runAhead m))) ∧
      (v.candidate v.turn = none → exec (.moverPreempt m) s = .next s) ∧
      (∀ x j, v.candidate v.turn = some x → tblGet? s.jobs x.job = some j →
        let d := descOf x.desc x.trigger
        let away := x.desc ≠ [] ∧ d.dstKind = 2 ∧ s.resident m x.ctx (d.piece x.delivered).dst = false ∧ x.st ≠ .preempted
        (¬away → s.spent m = false → exec (.moverPreempt m) s = .next s) ∧
        (away → v.nextTurn x.ctx = some x.ctx → exec (.moverPreempt m) s = .next (s.preempt m j x none)) ∧
        (away ∧ v.nextTurn x.ctx ≠ some x.ctx ∨ ¬away ∧ s.spent m = true →
          exec (.moverPreempt m) s = .next (s.yieldTurn m x))))) ∧
  (∀ (s : State) (m : Nat) (x : Xfer) (j : Job) (c : Nat), tblGet? s.jobs x.job = some j → (s.mover m).nextTurn x.ctx = some c →
    (c ≠ x.ctx → s.yieldTurn m x = s.preempt m j x (some c)) ∧
    (c = x.ctx → s.yieldTurn m x = s.setMover m { s.mover m with turn := c, turnBytes := 0 })) ∧
  (∀ (s : State) (m : Nat) (x : Xfer) (j : Job), tblGet? s.jobs x.job = some j →
    (∀ st, x.ending = some st → s.runXfer m x = s.finish m j x st) ∧
    (∀ side st va, x.ending = none → x.error = some (side, st, va) → s.runXfer m x = s.xferError m j x side st va) ∧
    (x.ending = none → x.error = none → x.desc = [] →
      (x.bad = true → s.runXfer m x = s.poisonConsumed x.ctx 1 m 1) ∧
      (x.bad = false → triggerOk j m x.trigger = false ∨ j.descVa = none → s.runXfer m x = s.xferError m j x 0 stMalformed 0) ∧
      (∀ va w b, x.bad = false → triggerOk j m x.trigger = true → j.descVa = some va →
        let read := s.unitData m (moverTag m) x.ctx (va + 128 * trgDesc x.trigger) 128
        let x' : Xfer := { x with desc := b }
        (read = (w, b, true, .done) → s.runXfer m x = w.poisonConsumed x.ctx 1 m 1) ∧
        (read = (w, b, false, .done) →
          (moverDescOk j m b (descOf b x.trigger) = true → s.runXfer m x = (w.setXfer m x').nextPiece m j x') ∧
          (moverDescOk j m b (descOf b x.trigger) = false → s.runXfer m x = w.xferError m j x' 0 stMalformed 0)))) ∧
    (x.ending = none → x.error = none → x.desc ≠ [] →
      let d := descOf x.desc x.trigger
      let p := d.piece x.delivered
      (d.pieces ≤ x.delivered → x.flight = [] → s.runXfer m x = s.finish m j x 0) ∧
      (d.pieces ≤ x.delivered → x.flight ≠ [] → s.runXfer m x = s) ∧
      (x.delivered < d.pieces → d.srcKind ≠ 4 → ∀ w data sc bad side,
        (s.nextData m x d p = (w, data, sc, bad, side, .wait) → s.runXfer m x = w) ∧
        (∀ st va, s.nextData m x d p = (w, data, sc, bad, side, .failed st true va) → s.runXfer m x = w.park m j x side va) ∧
        (∀ st va, s.nextData m x d p = (w, data, sc, bad, side, .failed st false va) →
          s.runXfer m x = w.xferError m j x side st va) ∧
        (s.nextData m x d p = (w, data, sc, bad, side, .done) → d.dstKind < 3 → d.mxOut = false → ∀ y,
          let write := w.endWrite m x.ctx d.dstKind (d.dstSpan p).1 (convertPiece j.seed x d p data sc).1 bad
          (write = (y, .done) → s.runXfer m x = y.delivered m j x d (d.dstSpan p).2) ∧
          (write = (y, .wait) → s.runXfer m x = y.destWait m j x) ∧
          (∀ st va, write = (y, .failed st true va) → s.runXfer m x = y.park m j x 1 va) ∧
          (∀ st va, write = (y, .failed st false va) → s.runXfer m x = y.xferError m j x 1 st va))))) ∧
  (∀ (s : State) (m : Nat) (x : Xfer) (d : Desc) (p : Piece),
    (x.ahead = [] → s.nextData m x d p = s.pieceData m x d p) ∧
    ∀ a l, x.ahead = a :: l →
      (a.read = true → s.nextData m x d p = (s, a.data, a.scales, a.bad, 0, .done)) ∧
      (a.read = false → s.nextData m x d p = s.pieceData m x d p)) ∧
  (∀ (s : State) (m n : Nat) (gone : Xfer → Bool),
    let t := s.discardAt m gone
    (t.mover m).xfers = (s.mover m).xfers.map (fun x => if gone x then x.discard else x) ∧
    (∀ e ∈ (t.mover m).lookaside, e ∈ (s.mover m).lookaside) ∧ (n ≠ m → t.mover n = s.mover n) ∧ t.mem = s.mem ∧
      t.frames = s.frames) ∧
  ∀ (s t : State) (port : Fin 16) (p : Packet) (v : InSlot),
    (s.AdmitsCtx 0xA8 port p t v →
      let k := cmdSlot 0xA8 p
      (∀ st, t.parkedOf v = .inl st → exec (.movResume port p) s = .next (t.complete k st)) ∧
      (∀ m j x, t.parkedOf v = .inr (m, j, x) → ∀ u b,
        let pos := t.unitData m (moverTag m) x.ctx (j.posVa m) 128
        (∀ bad, pos = (u, b, bad, .wait) → exec (.movResume port p) s = .next (u.complete k stBusy)) ∧
        (∀ bad st miss va, pos = (u, b, bad, .failed st miss va) → exec (.movResume port p) s = .next (u.complete k st)) ∧
        (pos = (u, b, true, .done) → exec (.movResume port p) s =
          .next ((u.poisonConsumed x.ctx 1 m 1).complete k stContextGone)) ∧
        (pos = (u, b, false, .done) → ∀ w db,
          let desc := u.unitData m (moverTag m) x.ctx (j.descVa.getD 0 + 128 * trgDesc x.trigger) 128
          let d := descOf db x.trigger
          let ok := moverDescOk j m db d = true ∧ x.recordOk d b = true
          (∀ bad, desc = (w, db, bad, .wait) → exec (.movResume port p) s = .next (w.complete k stBusy)) ∧
          (∀ bad st miss va, desc = (w, db, bad, .failed st miss va) → exec (.movResume port p) s =
            .next ((w.blocked m j { x with st := .ready } 0 (.failed st miss va)).complete k stOk)) ∧
          (desc = (w, db, true, .done) → exec (.movResume port p) s =
            .next ((w.poisonConsumed x.ctx 1 m 1).complete k stContextGone)) ∧
          (desc = (w, db, false, .done) → ok → exec (.movResume port p) s = .next ((w.setMover m ((w.mover m).requeue { x with
            st := .ready, desc := db, delivered := field b 0x40 8, bytes := field b 0x48 8, doneWrites := field b 0x58 8 })).complete
            k stOk)) ∧
          (desc = (w, db, false, .done) → ¬ok → exec (.movResume port p) s = .next ((w.xferError m j { x with
            st := .ready, desc := if x.desc = [] then db else x.desc } 0 stMalformed 0).complete k stOk))))) ∧
    (s.AdmitsCtx 0xA9 port p t v →
      let k := cmdSlot 0xA9 p
      (∀ st, t.parkedOf v = .inl st → exec (.movCancel port p) s = .next (t.complete k st)) ∧
      (∀ m j x u, t.parkedOf v = .inr (m, j, x) →
        (t.writePos m j x 4 0 0 0 = (u, true) → exec (.movCancel port p) s = .next (u.complete k stBusy)) ∧
        (t.writePos m j x 4 0 0 0 = (u, false) →
          exec (.movCancel port p) s = .next (((u.closeDst m j x).dropXfer m x).complete k stOk))))

/-- Session commands (R262–R269): each is checked in the order of R266, the handle and the tick being those of its acceptance.
KV_SETUP sets a context's profile when it has no session and every field and pool is right; SESSION_OPEN and SESSION_FORK open a
free record of the next generation over a written table; SESSION_EXTEND allocates near slots, or says that none is left;
SESSION_COMMIT, SESSION_CLOSE and SESSION_RENEW change their record; KV_STATUS reports it. What waits for a line of another's goes
on later, and an access that fails ends its command with that status. Which record or slot is taken is a free value. -/
def Obligations.SessionCommandsAct : Prop :=
  (∀ (s t : State) (port : Fin 16) (p : Packet) (v : InSlot), s.AdmitsCtx 0xB0 port p t v →
    let k := cmdSlot 0xB0 p
    let q := profileOf v.pkt.own
    let near := gatherParts [] q.nearVa (plain (freshMap q.nearSlots))
    let maps := if q.farSlots = 0 then near else gatherParts near q.farVa (plain (freshMap q.farSlots))
    (t.kvCheck v true 64 ≠ stOk → exec (.kvSetup port p) s = .next (t.complete k (t.kvCheck v true 64))) ∧
    (t.kvCheck v true 64 = stOk →
      (t.sessionsOf v.ctx ≠ 0 → exec (.kvSetup port p) s = .next (t.complete k stBusy)) ∧
      (t.sessionsOf v.ctx = 0 → profileOk v.pkt.own = false → exec (.kvSetup port p) s = .next (t.complete k stMalformed)) ∧
      (t.sessionsOf v.ctx = 0 → profileOk v.pkt.own = true → ∀ u,
        (t.poolsOk v.ctx q = (u, false) → exec (.kvSetup port p) s = .next (u.complete k stMalformed)) ∧
        (t.poolsOk v.ctx q = (u, true) → ∀ w,
          (u.kvWrite v.ctx maps = (w, .wait) → exec (.kvSetup port p) s = .next (w.engineWait k)) ∧
          (∀ st a b, u.kvWrite v.ctx maps = (w, .failed st a b) → exec (.kvSetup port p) s = .next (w.complete k st)) ∧
          (u.kvWrite v.ctx maps = (w, .done) → ∃ kv : Kvs,
            exec (.kvSetup port p) s = .next (State.complete { w with kvs := kv } k stOk) ∧
            tblGet? kv.profiles v.ctx = some q ∧ tblGet? kv.nearUsed v.ctx = none ∧ kv.sessions = w.kvs.sessions))))) ∧
  (∀ (s t : State) (port : Fin 16) (p : Packet) (v : InSlot), s.AdmitsCtx 0xB1 port p t v →
    let k := cmdSlot 0xB1 p
    let b := v.pkt.own
    (t.kvCheck v false 24 ≠ stOk → exec (.sessionOpen port p) s = .next (t.complete k (t.kvCheck v false 24))) ∧
    (t.kvCheck v false 24 = stOk → ∀ q, t.profile v.ctx = some q →
      (zeros b 12 4 = false → exec (.sessionOpen port p) s = .next (t.complete k stMalformed)) ∧
      (zeros b 12 4 = true → ∀ u st, t.tableCheck v q (field b 0 8) (field b 8 4) = (u, st) →
        (st ≠ stOk → exec (.sessionOpen port p) s = .next (u.complete k st)) ∧
        (st = stOk → exec (.sessionOpen port p) s = .next (u.openSession k
          { ctx := v.ctx, btab := field b 0 8, maxBlocks := field b 8 4, lastTick := (u.acceptedAt v).1
            expire := u.expiry v (field b 16 8) } (List.replicate (q.layers * field b 8 4) {})))))) ∧
  (∀ (s : State) (k : Nat) (v : Session) (table : List KvEntry),
    (∀ w, s.freeRecord = (w, none) → s.openSession k v table = w.complete k stBusy) ∧
    (∀ w i, s.freeRecord = (w, some i) → ∀ y,
      let write := w.kvWrite v.ctx (gatherParts [] v.btab (plain (table.flatMap KvEntry.bytes)))
      (write = (y, .wait) → s.openSession k v table = y.engineWait k) ∧
      (∀ st a b, write = (y, .failed st a b) → s.openSession k v table = y.complete k st) ∧
      (write = (y, .done) →
        let g := (y.session i).gen
        let x : Session := { v with gen := if g = 0xFFFF then 1 else g + 1, st := .opened }
        let z := y.setSession i x
        (v.parent = none → s.openSession k v table = z.complete k stOk (leBytes 4 (x.handle i))) ∧
        (∀ n, v.parent = some n → s.openSession k v table =
          (z.setSession n { z.session n with refs := (z.session n).refs + 1 }).complete k stOk (leBytes 4 (x.handle i))))) ∧
    (∀ w i, s.freeRecord = (w, some i) → i < 16384 ∧ (s.session i).st = .free)) ∧
  (∀ (s t : State) (port : Fin 16) (p : Packet) (v : InSlot), s.AdmitsCtx 0xB2 port p t v →
    let k := cmdSlot 0xB2 p
    let b := v.pkt.own
    let n := field b 4 4
    let most := field b 16 4
    (t.kvCheck v false 32 ≠ stOk → exec (.sessionFork port p) s = .next (t.complete k (t.kvCheck v false 32))) ∧
    (t.kvCheck v false 32 = stOk → ∀ q, t.profile v.ctx = some q →
      (t.sessionFor v (field b 0 4) = none → exec (.sessionFork port p) s = .next (t.complete k stRevoked)) ∧
      (∀ i src, t.sessionFor v (field b 0 4) = some (i, src) →
        let closed := src.st ≠ .opened ∧ v.accepted = none
        let ok := n % q.tokens = 0 ∧ q.tokens ≤ n ∧ n ≤ src.valid ∧ n / q.tokens ≤ most ∧ zeros b 20 4 = true
        (closed → exec (.sessionFork port p) s = .next (t.complete k stRevoked)) ∧
        (¬closed → ¬ok → exec (.sessionFork port p) s = .next (t.complete k stMalformed)) ∧
        (¬closed → ok → ∀ u st, t.tableCheck v q (field b 8 8) most = (u, st) →
          (st ≠ stOk → exec (.sessionFork port p) s = .next (u.complete k st)) ∧
          (st = stOk → ∀ w table,
            let fork := u.forkTable src (n / q.tokens) most (List.range q.layers)
            (fork = (w, table, .wait) → exec (.sessionFork port p) s = .next (w.engineWait k)) ∧
            (∀ e a b, fork = (w, table, .failed e a b) → exec (.sessionFork port p) s = .next (w.complete k e)) ∧
            (fork = (w, table, .done) → exec (.sessionFork port p) s = .next (w.openSession k
              { ctx := v.ctx, btab := field b 8 8, maxBlocks := most, valid := n, cap := n, shared := n, parent := some i
                lastTick := (w.acceptedAt v).1, expire := w.expiry v (field b 24 8) } table))))))) ∧
  (∀ (s t : State) (port : Fin 16) (p : Packet) (v : InSlot), s.AdmitsCtx 0xB3 port p t v →
    let k := cmdSlot 0xB3 p
    let n := field v.pkt.own 4 4
    (t.kvCheck v false 8 ≠ stOk → exec (.sessionExtend port p) s = .next (t.complete k (t.kvCheck v false 8))) ∧
    (t.kvCheck v false 8 = stOk → ∀ q, t.profile v.ctx = some q →
      (t.sessionFor v (field v.pkt.own 0 4) = none → exec (.sessionExtend port p) s = .next (t.complete k stRevoked)) ∧
      (∀ i x, t.sessionFor v (field v.pkt.own 0 4) = some (i, x) →
        (n < x.cap ∨ x.maxBlocks * q.tokens < n → exec (.sessionExtend port p) s = .next (t.complete k stMalformed)) ∧
        (x.cap ≤ n → n ≤ x.maxBlocks * q.tokens → ∀ u need,
          let empty := t.emptyBlocks q x ((n + q.tokens - 1) / q.tokens) (List.range q.layers)
          (empty = (u, need, .wait) → exec (.sessionExtend port p) s = .next (u.engineWait k)) ∧
          (∀ st a b, empty = (u, need, .failed st a b) → exec (.sessionExtend port p) s = .next (u.complete k st)) ∧
          (empty = (u, need, .done) → ∀ w map,
            (u.kvMap v.ctx q false = (w, map, .wait) → exec (.sessionExtend port p) s = .next (w.engineWait k)) ∧
            (∀ st a b, u.kvMap v.ctx q false = (w, map, .failed st a b) → exec (.sessionExtend port p) s =
              .next (w.complete k st)) ∧
            (u.kvMap v.ctx q false = (w, map, .done) →
              let free := idxs q.nearSlots fun k => bit map k
              let at_ := w.free.1 % max 1 free.length
              let take := (free.drop at_ ++ free.take at_).take need.length
              let entry (b : Nat) : KvEntry := { addr := q.slotVa false (take.getD b 0), kind := 1, fmt := q.nearFmt, owner := i }
              let parts := (List.range need.length).foldl
                (fun parts b => gatherParts parts (x.entryVa (need.getD b 0)) (plain (entry b).bytes))
                (mapParts [] q.nearVa (q.mapBytes false) map (take.foldl (fun m b => setBit m b false) map))
              (free.length < need.length → ∀ y next, w.nextDemotion q (w.byAge v.ctx) = (y, next) →
                exec (.sessionExtend port p) s = .next (y.complete k (if q.demote && next.isSome then stBusy else stQuota))) ∧
              (need.length ≤ free.length → take.length = need.length ∧ ∀ y,
                (w.free.2.kvWrite v.ctx parts = (y, .wait) → exec (.sessionExtend port p) s = .next (y.engineWait k)) ∧
                (∀ st a b, w.free.2.kvWrite v.ctx parts = (y, .failed st a b) →
                  exec (.sessionExtend port p) s = .next (y.complete k st)) ∧
                (w.free.2.kvWrite v.ctx parts = (y, .done) → exec (.sessionExtend port p) s = .next
                  ((((y.useSlots v.ctx false need.length).setSession i { x with cap := n }).watchNear v.ctx).complete k stOk))))))))) ∧
  ∀ (s t : State) (port : Fin 16) (p : Packet) (v : InSlot),
    let h := field v.pkt.own 0 4
    let n := field v.pkt.own 4 4
    (∀ x ∈ [(0xB4, 8, Instr.sessionCommit port p), (0xB5, 8, .sessionClose port p), (0xB6, 16, .sessionRenew port p),
        (0xB7, 8, .kvStatus port p)], s.AdmitsCtx x.1 port p t v →
      (t.kvCheck v false x.2.1 ≠ stOk → exec x.2.2 s = .next (t.complete (cmdSlot x.1 p) (t.kvCheck v false x.2.1))) ∧
      (t.kvCheck v false x.2.1 = stOk → t.sessionFor v h = none → exec x.2.2 s = .next (t.complete (cmdSlot x.1 p) stRevoked))) ∧
    (∀ i x, t.sessionFor v h = some (i, x) →
      (s.AdmitsCtx 0xB4 port p t v → t.kvCheck v false 8 = stOk →
        (x.valid ≤ n → n ≤ x.cap → exec (.sessionCommit port p) s =
          .next ((t.setSession i { x with valid := n }).complete (cmdSlot 0xB4 p) stOk)) ∧
        (n < x.valid ∨ x.cap < n → exec (.sessionCommit port p) s = .next (t.complete (cmdSlot 0xB4 p) stMalformed))) ∧
      (s.AdmitsCtx 0xB5 port p t v → t.kvCheck v false 8 = stOk →
        (zeros v.pkt.own 4 4 = true → exec (.sessionClose port p) s =
          .next ((t.setSession i { x with st := .closing }).complete (cmdSlot 0xB5 p) stOk)) ∧
        (zeros v.pkt.own 4 4 = false → exec (.sessionClose port p) s = .next (t.complete (cmdSlot 0xB5 p) stMalformed))) ∧
      (s.AdmitsCtx 0xB6 port p t v → t.kvCheck v false 16 = stOk →
        (zeros v.pkt.own 4 4 = false → exec (.sessionRenew port p) s = .next (t.complete (cmdSlot 0xB6 p) stMalformed)) ∧
        (zeros v.pkt.own 4 4 = true → x.st ≠ .opened → exec (.sessionRenew port p) s =
          .next (t.complete (cmdSlot 0xB6 p) stRevoked)) ∧
        (zeros v.pkt.own 4 4 = true → x.st = .opened → exec (.sessionRenew port p) s = .next ((t.setSession i { x with
          expire := if field v.pkt.own 8 8 = 0 then none else some ((t.acceptedAt v).1 + field v.pkt.own 8 8) }).complete
          (cmdSlot 0xB6 p) stOk))) ∧
      (s.AdmitsCtx 0xB7 port p t v → t.kvCheck v false 8 = stOk → ∀ q, t.profile v.ctx = some q →
        let k := cmdSlot 0xB7 p
        (zeros v.pkt.own 4 4 = false → exec (.kvStatus port p) s = .next (t.complete k stMalformed)) ∧
        (zeros v.pkt.own 4 4 = true → ∀ u es,
          (t.ownedBlocks q i x = (u, es, .wait) → exec (.kvStatus port p) s = .next (u.engineWait k)) ∧
          (∀ st a b, t.ownedBlocks q i x = (u, es, .failed st a b) → exec (.kvStatus port p) s = .next (u.complete k st)) ∧
          (t.ownedBlocks q i x = (u, es, .done) → exec (.kvStatus port p) s = .next (u.complete k stOk
            ([byte x.st.code, 0, 0, 0] ++ leBytes 2 x.refs ++ leBytes 2 x.calls ++ leBytes 4 x.valid ++ leBytes 4 x.cap ++
              leBytes 4 x.shared ++ leBytes 4 (es.filter fun e => e.kind == 1).length ++
              leBytes 4 (es.filter fun e => e.kind == 2).length ++ leBytes 4 (x.expire.getD 0)))))))

/-- Sessions end and blocks move (R265, R269–R273): past its tick an OPEN session is CLOSING; a CLOSING one without calls and
references is FREE with its generation kept, its slots back in their pools. A move takes a slot of the other tier; a full far pool
stops demotion, and an entry that names no slot of its pool fails. A move that can reach its block writes it, in a first demotion
re-encoded, else as it was, and then its entry, and frees the old slot once every call accepted before has completed; one that
cannot sets NOMOVE, is reported and gives its new slot back. -/
def Obligations.SessionsEndAndBlocksMove : Prop :=
  (∀ (s : State) (n : Fin 16384), let v := s.session n
    (v.expire = none ∨ v.st ≠ .opened → exec (.sessionExpire n) s = .next s) ∧
    (∀ tick, v.expire = some tick → v.st = .opened → exec (.sessionExpire n) s =
      .next (((s.elapseToTick tick).setSession n { v with st := .closing }).postCtx v.ctx (sessionRecord 0x0050 v n))) ∧
    (let may := v.st = .closing ∧ v.calls = 0 ∧ v.refs = 0 ∧ ∀ m ∈ s.kvs.moves, m.session = n.val → m.copying = false
     let freed (x y : State) : Prop :=
      (v.parent = none → y.session n = { gen := v.gen } ∧ ∀ i, i ≠ n.val → y.session i = x.session i) ∧
      (∀ i, v.parent = some i → i ≠ n.val → y.session n = { gen := v.gen } ∧ (y.session i).refs = (x.session i).refs - 1)
     (¬may → exec (.sessionFree n) s = .next s) ∧
     (may → s.profile v.ctx = none → ∃ t, exec (.sessionFree n) s = .next t ∧ freed s t) ∧
     (may → ∀ q u es, s.profile v.ctx = some q →
      (s.ownedBlocks q n v = (u, es, .wait) → exec (.sessionFree n) s = .next u) ∧
      (∀ a b c, s.ownedBlocks q n v = (u, es, .failed a b c) → ∃ t, exec (.sessionFree n) s = .next t ∧ freed u t) ∧
      (s.ownedBlocks q n v = (u, es, .done) → ∀ w a, u.returnSlots v.ctx q es = (w, a) →
        (a = .wait → exec (.sessionFree n) s = .next w) ∧
        (a ≠ .wait → ∃ t, exec (.sessionFree n) s = .next t ∧ freed w t))))) ∧
  (∀ (s : State) (n : Fin 16384) (block : Nat) (promote : Bool),
    let v := s.session n
    let layer := block / max 1 v.maxBlocks
    let b := block % max 1 v.maxBlocks
    (s.profile v.ctx = none → ∃ t, exec (.kvMoveStart n block promote) s = .next t) ∧
    (∀ q u, s.profile v.ctx = some q →
      (s.moveDue n block promote = (u, false) → exec (.kvMoveStart n block promote) s = .next u) ∧
      (s.moveDue n block promote = (u, true) → ∀ a e bad w map, u.kvEntries v block 1 = (a, [e], bad, .done) →
        u.kvMap v.ctx q (!promote) = (w, map, .done) →
        let open_ := idxs (q.slots (!promote)) fun k => bit map k
        (open_ = [] → promote = true → exec (.kvMoveStart n block promote) s = .next w) ∧
        (open_ = [] → promote = false → ∃ t, exec (.kvMoveStart n block promote) s = .next t ∧
          t.kvs.farFull.contains v.ctx = true ∧ t.kvs.moves = w.kvs.moves) ∧
        (open_ ≠ [] → q.slotAt promote e.addr = none → exec (.kvMoveStart n block promote) s =
          .next (w.noMove n layer b promote v (some e))) ∧
        (∀ old x l y, q.slotAt promote e.addr = some old → open_ = x :: l →
          let new := (x :: l).getD (w.free.1 % (l.length + 1)) x
          w.free.2.kvWrite v.ctx (mapParts [] (q.poolVa (!promote)) (q.mapBytes (!promote)) map (setBit map new false)) = (y, .done) →
          exec (.kvMoveStart n block promote) s = .next ((State.useSlots { y with kvs := { y.kvs with moves := y.kvs.moves ++
            [{ ctx := v.ctx, session := n, layer := layer, block := b, promote := promote, old := old, new := new }] } }
            v.ctx (!promote) 1).watchNear v.ctx))))) ∧
  ∀ (s : State) (n : Nat),
    (s.kvs.moves[n]? = none → exec (.kvMoveDone n) s = .next s ∧ exec (.kvOldSlotRelease n) s = .next s) ∧
    (∀ m, s.kvs.moves[n]? = some m →
      let v : Session := { s.session m.session with ctx := m.ctx }
      let flat := m.layer * v.maxBlocks + m.block
      (m.waitFor ≠ some [] → exec (.kvOldSlotRelease n) s = .next s) ∧
      (m.waitFor = some [] →
        (s.profile m.ctx = none → exec (.kvOldSlotRelease n) s = .next (s.setMove n none)) ∧
        (∀ q u a, s.profile m.ctx = some q → s.returnSlot m.ctx q m.promote m.old = (u, a) →
          (a = .wait → exec (.kvOldSlotRelease n) s = .next u) ∧
          (a ≠ .wait → exec (.kvOldSlotRelease n) s = .next ((u.setMove n none).watchNear m.ctx)))) ∧
      (s.profile m.ctx = none → exec (.kvMoveDone n) s = .next (s.setMove n none)) ∧
      (∀ q, s.profile m.ctx = some q →
        (m.waitFor ≠ none → exec (.kvMoveDone n) s = .next s) ∧
        (m.waitFor = none → v.st = .free → ∀ u a, s.returnSlot m.ctx q (!m.promote) m.new = (u, a) →
          (a = .wait → exec (.kvMoveDone n) s = .next u) ∧ (a ≠ .wait → exec (.kvMoveDone n) s = .next (u.setMove n none))) ∧
        (m.waitFor = none → v.st ≠ .free → ∀ u es bad,
          (s.kvEntries v flat 1 = (u, es, bad, .wait) → exec (.kvMoveDone n) s = .next u) ∧
          (∀ a b c, s.kvEntries v flat 1 = (u, es, bad, .failed a b c) → exec (.kvMoveDone n) s =
            .next (u.moveFails n m v q none)) ∧
          (∀ e, s.kvEntries v flat 1 = (u, [e], bad, .done) →
            let keep := m.promote = true ∨ bit e.flags 1 = true
            let len := if keep then q.heads * q.segF else q.heads * q.segN
            let e' : KvEntry := if m.promote then { e with addr := q.slotVa false m.new, kind := 1 }
              else if keep then { e with addr := q.slotVa true m.new, kind := 2 }
              else { e with addr := q.slotVa true m.new, kind := 2, fmt := q.farFmt, flags := setBit (setBit e.flags 0 q.farMx) 1 true }
            let read := u.unitReads kvsUnit kvsTag m.ctx (q.slotVa m.promote m.old) ((len + 63) / 64)
            ∀ w l,
              let bytes := (markedBytes l).take len
              let block := if keep then bytes else (List.range q.heads).flatMap fun h => demoteSeg q ((bytes.drop (h * q.segN)).take q.segN)
              let parts := gatherParts (gatherParts [] (q.slotVa (!m.promote) m.new) block) (v.entryVa flat) (plain e'.bytes)
              (read = (w, l, .wait) → exec (.kvMoveDone n) s = .next w) ∧
              (∀ a b c, read = (w, l, .failed a b c) → exec (.kvMoveDone n) s = .next (w.moveFails n m v q (some e))) ∧
              (read = (w, l, .done) → w.deadEnd m.ctx parts = true →
                exec (.kvMoveDone n) s = .next (w.moveFails n m v q (some e))) ∧
              (read = (w, l, .done) → w.deadEnd m.ctx parts = false → ∀ y,
                (w.kvWrite m.ctx parts = (y, .wait) → exec (.kvMoveDone n) s = .next y) ∧
                (∀ a b c, w.kvWrite m.ctx parts = (y, .failed a b c) →
                  exec (.kvMoveDone n) s = .next (y.moveFails n m v q (some e))) ∧
                (w.kvWrite m.ctx parts = (y, .done) → exec (.kvMoveDone n) s = .next
                  ((y.tally .kvs 0 0x52 (b2n m.promote) len (some m.ctx)).setMove n (some { m with
                    waitFor := some ((y.tally .kvs 0 0x52 (b2n m.promote) len (some m.ctx)).attendsOf m.ctx) }))))))))

/-- The module's own requests (R357, R363–R365, R411, R415): a completion for another endpoint goes on; one for this module that
is misshapen or no final one is discarded, one whose prefix fails a check is discarded and counted as that check says, one that
matches no outbound slot is late; one that passes frees its slot under the next reuse count and is answered. Without a completion
a request completes TIMEOUT and its slot is guarded; one that left on an Ethernet port is sent again; done records and guards end.
-/
def Obligations.OutboundRequestsEnd : Prop :=
  (∀ (s : State) (port : Fin 16) (p : Packet),
    let q := p.ofType tCmpl
    let done (u : State) (by_ : Option Nat) (t : State) : Prop :=
      (∀ w, u.takeCmpl by_ q = (w, none) → t = w) ∧ ∀ w a, u.takeCmpl by_ q = (w, some a) → t = w.answered a
    (∀ u, s.takeLocal q = some u → ∃ t, exec (.cmpl port p) s = .next t ∧ done u none t) ∧
    (s.takeLocal q = none → s.portUp port = false → exec (.cmpl port p) s = .next s) ∧
    (s.takeLocal q = none → s.portUp port = true →
      let v := (s.received port q none).learn port q
      (q.dst ≠ v.ep → exec (.cmpl port p) s = .next (v.transit port q)) ∧
      (q.dst = v.ep → ∃ t, exec (.cmpl port p) s = .next t ∧ done v (some port.val) t))) ∧
  (∀ (s : State) (port : Option Nat) (p : Packet),
    let i := p.tag % 16384
    let m := s.outMatch p
    let taken (req : Packet) (what : Purpose) : State × Option Answer := ((s.quotaBack req.dst).freeOutSlot i,
      some { out := i, req := req, what := what, status := p.status, data := p.body, poison := p.poison })
    (completionShape p = false ∨ p.last = false → s.takeCmpl port p = (s, none)) ∧
    (completionShape p = true → p.last = true →
      (p.sec = none →
        (m = none → s.takeCmpl port p = (s.lateCmpl p, none)) ∧
        (∀ o req what, m = some (o, req, what) →
          (clearAnswerOk o p = true → s.takeCmpl port p = taken req what) ∧
          (clearAnswerOk o p = false → s.takeCmpl port p = (s, none)))) ∧
      (∀ x, p.sec = some x →
        (s.answerKey (s.outSlot i) x = none → s.takeCmpl port p = (s.bump 0x4834, none)) ∧
        (∀ key, s.answerKey (s.outSlot i) x = some key →
          (s.keyArmed x = true → s.takeCmpl port p = (s, none)) ∧
          (s.keyArmed x = false → s.keyRetiring x = true → m = none → s.takeCmpl port p = (s.bump 0x4830, none)) ∧
          (s.keyArmed x = false → s.keyRetiring x = false ∨ m ≠ none →
            (x.dir = false → s.takeCmpl port p = (s, none)) ∧
            (x.dir = true → m = none → s.takeCmpl port p = (s.lateCmpl p, none)) ∧
            (∀ o req what, x.dir = true → m = some (o, req, what) →
              (p.gcm = p.tagUnder key → s.takeCmpl port p = taken req what) ∧
              (p.gcm ≠ p.tagUnder key → let u := (s.bump 0x4828).raise .sec 0 0
                s.takeCmpl port p = (if u.tagEvents then u.postMgr (keyRecord 0x00A1 x port) else u, none)))))))) ∧
  (∀ (s : State) (p : Packet), let o := s.outSlot (p.tag % 16384)
    let u := if o.guard.isSome ∧ o.reuse = p.tag / 16384 then s.quotaBack p.srcEp else s
    s.lateCmpl p = (u.bump 0x30820).raise .txn 0 1) ∧
  (∀ (s : State) (n i : Nat), let o := s.outSlot n
    (s.freeOutSlot n).outSlot n = { reuse := (o.reuse + 1) % 4 } ∧ (i ≠ n → (s.freeOutSlot n).outSlot i = s.outSlot i) ∧
    (s.freeOutSlot n).txn.outUsed = s.txn.outUsed - 1 ∧
    (s.guardOutSlot n).outSlot n = { reuse := o.reuse, guard := some (s.time + 2 * (s.actBits .txn 0 0x040 31 16 * 1000)) } ∧
    (i ≠ n → (s.guardOutSlot n).outSlot i = s.outSlot i)) ∧
  (∀ (s : State) (n : Fin 16384), let o := s.outSlot n
    let resendAt := s.elapseTo (o.sentAt + (o.resends + 1) * (s.actBits .txn 0 0x044 27 16 * 1000))
    let ends (u : State) (req : Packet) (what : Purpose) (st : Nat) : State :=
      (u.guardOutSlot n).answered { out := n, req := req, what := what, status := st, data := [], poison := false }
    (o.req = none → exec (.outboundTimeout n) s = .next s ∧ exec (.e2eRetry n) s = .next s) ∧
    (∀ req what, o.req = some (req, what) →
      exec (.outboundTimeout n) s =
        .next (ends ((s.elapseTo (o.sentAt + s.actBits .txn 0 0x040 31 16 * 1000)).bump 0x30830) req what stTimeout) ∧
      let again := retriedType req = true ∧ ∃ q, o.port = some q ∧ s.portEth q = true
      (¬again → exec (.e2eRetry n) s = .next s) ∧
      (again → resendAt.actBits .txn 0 0x044 31 28 ≤ o.resends →
        exec (.e2eRetry n) s = .next (ends (resendAt.bump 0x30830) req what stTimeout)) ∧
      (again → o.resends < resendAt.actBits .txn 0 0x044 31 28 → resendAt.mayRequest o.key false = false →
        exec (.e2eRetry n) s = .next (ends resendAt req what stKeyRetired)) ∧
      (again → o.resends < resendAt.actBits .txn 0 0x044 31 28 → resendAt.mayRequest o.key false = true →
        ∀ u x w q ok, resendAt.seal o.key false { req with qual := setBits req.qual 3 3 1 } = (u, x) →
          u.send x o.ctx true = (w, q, ok) → exec (.e2eRetry n) s =
            .next ((w.setOut n { o with req := some (x, what), port := q, resends := o.resends + 1 }).bump 0x3082C))) ∧
    (o.guard = none → exec (.outboundGuardEnd n) s = .next s) ∧
    (∀ at_, o.guard = some at_ → exec (.outboundGuardEnd n) s = .next ((s.elapseTo at_).freeOutSlot n))) ∧
  ∀ (s : State) (src tag : Nat), let r := s.txn.records.find? fun d => d.src == src && d.tag == tag
    (r = none → exec (.doneRecordExpire src tag) s = .next s) ∧
    (∀ d, r = some d → let u := s.elapseTo d.expires
      exec (.doneRecordExpire src tag) s = .next { u with txn := { u.txn with records := u.txn.records.erase d } })

/-- Flits and replay (R304–R308, R310, R313–R317, R321, R325, Tables 13.1, 13.2): a flit made by the module reads back with its
header and payload and its check passes; a flit row acts on a port in flit personality that is UP or in INIT, a bad flit is
dropped and counted, a good one's header acts and then the flit by its type: DATA in sequence is taken once and the packets it
completes are delivered, a gap or a full buffer asks for a replay, a copy is dropped. WAIT and the oldest held flit ask again. A
slot of a port that is UP sends one flit or frame, in INIT a CTRL flit, else nothing; a DATA flit is held until it is
acknowledged. -/
def Obligations.FlitsAreCarried : Prop :=
  (∀ (ftype vc pstart rr seq ack xoff : Nat) (payload : List Byte),
    let f := makeFlit ftype vc pstart rr seq ack xoff payload
    flitHdr f = ⟨ftype % 16, vc % 8, pstart % 64, rr % 4, seq % 65536, ack % 65536, xoff % 64⟩ ∧
    (payload.length = 244 → flitPayload f = payload) ∧ (ftype ≤ 2 → vc ≤ 5 → flitGood f = true)) ∧
  (∀ (s : State) (port : Fin 16) (corr uncorr : Nat) (f : List Byte),
    let rows : List (Nat × Instr) := [(1, .dataFlitReceive port corr f), (0, .idleFlitReceive port corr f),
      (2, .initFlitReceive port corr f), (2, .downFlitReceive port corr f)]
    let open_ := (s.port port).eth = 0 ∧ ((s.port port).st = .up ∨ (s.port port).st = .init)
    (¬open_ → exec (.badFlitReceive port corr uncorr) s = .next s ∧ ∀ r ∈ rows, exec r.2 s = .next s) ∧
    (open_ →
      exec (.badFlitReceive port corr uncorr) s = .next ((s.fecCount port corr uncorr).badFlit port) ∧
      (flitGood f = false → ∀ r ∈ rows, exec r.2 s = .next ((s.fecCount port corr 0).badFlit port)) ∧
      (flitGood f = true →
        let h := flitHdr f
        let b := flitPayload f
        let n := h.ftype * 16 + if h.ftype = 1 then h.vc else 0
        let u := ((((s.fecCount port corr 0).tally .lnk port 0x61 n).onHeader port h).drainRx port)
        let v := u.port port
        (∀ r ∈ rows, h.ftype ≠ r.1 → exec r.2 s = .next s) ∧
        (h.ftype = 1 → let w := u.seenReady port
          (w.portUp port = true → exec (.dataFlitReceive port corr f) s = (w.onData port h b).handUp port) ∧
          (w.portUp port = false → exec (.dataFlitReceive port corr f) s = w.handUp port)) ∧
        (h.ftype = 0 → exec (.idleFlitReceive port corr f) s = .next (u.seenReady port)) ∧
        (h.ftype = 2 →
          (v.st = .init → field b 0 2 = 1 → exec (.initFlitReceive port corr f) s = .next ((u.setPort port { v with
            initGood := min 8 (v.initGood + 1), readySeen := v.readySeen || bit (field b 9 1) 0,
            peer := some (field b 2 2 % 4096, field b 8 1 % 16, field b 4 4) }).tryUp port)) ∧
          (v.st ≠ .init ∨ field b 0 2 ≠ 1 → exec (.initFlitReceive port corr f) s = .next (u.breakRun port)) ∧
          (v.st = .up → field b 0 2 = 2 → exec (.downFlitReceive port corr f) s = .next (u.portDown port)) ∧
          (v.st ≠ .up ∨ field b 0 2 ≠ 2 → exec (.downFlitReceive port corr f) s = .next (u.breakRun port)))))) ∧
  (∀ (s : State) (p : Nat), let v := s.port p
    (v.st = .init → v.initGood < 8 → s.breakRun p = s.setPort p { v with initGood := 0 }) ∧
    (v.st ≠ .init ∨ 8 ≤ v.initGood → s.breakRun p = s) ∧
    s.badFlit p = (s.bump (pageBase .lnk p + 0x814)).breakRun p ∧
    (v.st = .init → v.readySeen = true → (8 ≤ v.initGood → s.tryUp p = s.portGoesUp p) ∧ (v.initGood < 8 → s.tryUp p = s)) ∧
    (v.st ≠ .init ∨ v.readySeen = false → s.tryUp p = s) ∧ (v.st ≠ .init → s.seenReady p = s)) ∧
  (∀ (s : State) (port : Fin 16),
    ((s.port port).delivered = [] → s.handUp port = .next s) ∧ (∃ t, s.handUp port = .next t) ∧
    (∀ vc mac b rest, (s.port port).delivered = (vc, mac, b) :: rest →
      ∃ t, (s.setPort port { s.port port with delivered := [] }).deliverPacket port (packetOf vc mac b) = .next t ∧
        s.handUp port = t.deliverAll port rest)) ∧
  (∀ (s : State) (p : Nat) (h : FlitHdr) (b : List Byte),
    let v := s.port p
    let d := (h.seq + 65536 - v.exp) % 65536
    let x := v.rxVc h.vc
    (d = 0 → x.units < 192 → s.onData p h b = (((s.tally .lnk p 0x62 1 244).setPort p { v with
      exp := (v.exp + 1) % 65536, ack := h.seq, wait := none
      rx := tblPut v.rx h.vc { x with units := x.units + 1 } }).takePayload p h.vc h.pstart b).updateXoff p) ∧
    (d = 0 → 192 ≤ x.units → s.onData p h b = ((s.bump (pageBase .lnk p + 0x828)).raise .lnk p 4).enterWait p) ∧
    (0 < d → d < 32768 → s.onData p h b = s.enterWait p) ∧
    (32768 ≤ d → s.onData p h b = s.bump (pageBase .lnk p + 0x824)) ∧
    (v.wait = none → s.enterWait p = s.setPort p { v with rr := (v.rr + 1) % 4, wait := some s.time }) ∧
    (v.wait ≠ none → s.enterWait p = s)) ∧
  (∀ (s : State) (p vc : Nat) (x : RxVc) (b : List Byte), (s.port p).rxVc vc = x →
    (∀ n ∈ [61, 62], s.takePayload p vc n b = (s.setRx p vc { x with partialPkt := none }).framing p) ∧
    (∀ n ps rest bad, n ≤ 60 → packetsIn 64 (b.drop (4 * n)) = (ps, rest, bad) →
      let got (l : List (List Byte)) := (s.setRx p vc { x with partialPkt := rest }).handOver p vc 0 (l ++ ps)
      (x.partialPkt = none → s.takePayload p vc n b = if bad then (got []).framing p else got []) ∧
      (∀ q, x.partialPkt = some q → let w := q ++ b.take (4 * n)
        (4 * field w 2 2 ≤ w.length →
          s.takePayload p vc n b = let u := got [w.take (4 * field w 2 2)]
            if bad then u.framing p else u) ∧
        (w.length < 4 * field w 2 2 → s.takePayload p vc n b = (got []).framing p))) ∧
    (x.partialPkt = none → s.takePayload p vc 63 b = (s.setRx p vc x).handOver p vc 0 []) ∧
    (∀ q, x.partialPkt = some q → let w := q ++ b.take 244
      (4 * field w 2 2 ≤ w.length → s.takePayload p vc 63 b =
        (s.setRx p vc { x with partialPkt := none }).handOver p vc 0 [w.take (4 * field w 2 2)]) ∧
      (w.length < 4 * field w 2 2 → s.takePayload p vc 63 b =
        (s.setRx p vc { x with partialPkt := some w }).handOver p vc 0 []))) ∧
  (∀ (s : State) (port : Fin 16), let v := s.port port
    (v.wait = none → exec (.waitTimeout port) s = .next s) ∧
    (∀ at_, v.wait = some at_ → let u := s.elapseTo (at_ + s.replayNs port)
      exec (.waitTimeout port) s = .next (u.setPort port { v with rr := (v.rr + 1) % 4, wait := some u.time })) ∧
    (v.st ≠ .up ∨ v.replay = [] → exec (.replayTimeout port) s = .next s) ∧
    (v.st = .up → v.replay ≠ [] → let u := s.elapseTo (v.oldestAt + s.replayNs port)
      (∀ l, v.resend = some l → exec (.replayTimeout port) s =
        .next (u.setPort port { v with again := true, oldestAt := u.time })) ∧
      (v.resend = none → v.replays < s.replayLimit port → exec (.replayTimeout port) s =
        .next ((u.setPort port { v with
          resend := some v.replay, again := false, replays := v.replays + 1, oldestAt := u.time }).bump
          (pageBase .lnk port + 0x820))) ∧
      (v.resend = none → s.replayLimit port ≤ v.replays → exec (.replayTimeout port) s =
        .next ((u.raise .lnk port 2).portDown port))) ∧
    (v.st ≠ .init → v.st ≠ .up → exec (.flitSlot port) s = .next s) ∧
    (v.st = .init → exec (.flitSlot port) s =
      .next (s.sendFlit port 2 0 0 0 (s.ctrlPayload port 1 (if 8 ≤ v.initGood then 1 else 0)))) ∧
    (v.st = .up → v.eth ≠ 1 →
      let c := s.pickVc port (s.openWindow port)
      (v.resend = some [] → exec (.flitSlot port) s = .next (s.setPort port { v with resend := none })) ∧
      (∀ h l, v.resend = some (h :: l) →
        (s.vcOff port h.vc = true → exec (.flitSlot port) s = .next (s.sendFlit port 0 0 0 0 [])) ∧
        (s.vcOff port h.vc = false →
          let u := (s.setPort port { v with resend := if l = [] then none else some l }).sendFlit
            port 1 h.vc h.pstart h.seq h.payload
          exec (.flitSlot port) s = .next (if l = [] ∧ v.again = true then u.startReplay port else u))) ∧
      (v.resend = none → 512 ≤ v.replay.length ∨ c = none → exec (.flitSlot port) s = .next (s.sendFlit port 0 0 0 0 [])) ∧
      (∀ k u b pstart ends, v.resend = none → v.replay.length < 512 → c = some k →
        s.fill port k (s.openWindow port) 16 [] 63 [] = (u, b, pstart, ends) →
        let w := u.port port
        exec (.flitSlot port) s = .next (((u.setPort port { w with
          nextSeq := (w.nextSeq + 1) % 65536
          replay := w.replay ++ [{ seq := w.nextSeq, vc := k, pstart := pstart, payload := b, packets := ends }]
          oldestAt := if w.replay = [] then u.time else w.oldestAt }).sendFlit port 1 k pstart w.nextSeq b).served port k))) ∧
    (v.st = .up → v.eth = 1 →
      (s.pickVc port none = none → exec (.flitSlot port) s = .next s) ∧
      (∀ k, s.pickVc port none = some k → exec (.flitSlot port) s = .next ((s.sendFrame port k).served port k))))

/-- Link states and Ethernet (R42, R320–R329, Table 13.6): each event moves its port as the table says, and has no effect on a
port in another state; a port that leaves UP drops what it had to send and answers for it. A frame that fails a check or finds no
room is counted; of one that passes, whole packets are handed over and segments joined in order, and what is complete is
delivered. PFC quanta pause and release priorities, and an off priority's frame is sent again every 20 µs. -/
def Obligations.PortsChangeState : Prop :=
  (∀ (s : State) (port : Fin 16), let v := s.port port
    let u := s.setPort port { v with laneLock := 0xF, st := .init, since := s.time, initGood := 0, readySeen := false }
    let late := s.elapseTo (v.since + 500000000)
    let held := s.elapseTo (v.since + s.downHoldNs port)
    (v.st ≠ .training → exec (.linkTrainingDone port) s = .next s ∧ exec (.trainingTimeout port) s = .next s) ∧
    (v.st = .training →
      (v.eth ≠ 1 → exec (.linkTrainingDone port) s = .next u) ∧
      (v.eth = 1 → exec (.linkTrainingDone port) s = .next (u.portGoesUp port)) ∧
      exec (.trainingTimeout port) s = .next ((((late.setPort port { v with since := late.time }).bumpHalf
        (pageBase .lnk port + 0x830) 15 0).raise .lnk port 3).passTurn port)) ∧
    (v.st ≠ .init → exec (.initTimeout port) s = .next s) ∧
    (v.st = .init → exec (.initTimeout port) s = .next (((s.elapseTo (v.since + 1000000)).portDown port).passTurn port)) ∧
    (∀ lanes lost,
      (v.st ≠ .up ∨ lanes % 16 = 0 → exec (.lockLoss port lanes lost) s = .next s ∧ exec (.lockBlip port lanes lost) s =
        .next s) ∧
      (v.st = .up → lanes % 16 ≠ 0 →
        (s.lockLossNs port ≤ lost → exec (.lockBlip port lanes lost) s = .next s ∧ exec (.lockLoss port lanes lost) s =
          .next (((s.elapse lost).setPort port { v with laneLock := v.laneLock - (v.laneLock &&& lanes % 16) }).portDown port)) ∧
        (lost < s.lockLossNs port → exec (.lockLoss port lanes lost) s = .next s ∧
          exec (.lockBlip port lanes lost) s = .next ((s.elapse lost).bump (pageBase .lnk port + 0x834))))) ∧
    (v.st ≠ .down → exec (.downHoldExpiry port) s = .next s) ∧
    (v.st = .down →
      (held.mayTrain port = true → exec (.downHoldExpiry port) s =
        .next (held.setPort port { st := .training, since := held.time, eth := held.actBits .lnk port 0x040 1 1 })) ∧
      (held.mayTrain port = false → exec (.downHoldExpiry port) s = .next (held.setPort port {})))) ∧
  (∀ (s : State) (port : Fin 16), let v := s.port port
    let mine := s.boot.state = 7 ∧ s.boot.served = none ∧ s.boot.turn = port
    (v.st = .up → s.portDown port = s.leaveUp port .down) ∧
    (v.st = .training ∨ v.st = .init →
      s.portDown port = s.setPort port { st := .down, since := s.time, eth := v.eth, laneLock := v.laneLock }) ∧
    (v.st = .down ∨ v.st = .disabled → s.portDown port = s) ∧
    (mine → s.passTurn port = (s.setPort port {}).trainTurn (port + 1)) ∧ (¬mine → s.passTurn port = s) ∧
    (let up := s.setPort port { st := .up, since := s.time, eth := v.eth, laneLock := v.laneLock, peer := v.peer }
     let listens := s.mgr.role = 2 ∧ s.tick.listenFrom = none ∧ s.tick.locked = false ∧ s.boot.state < 6
     let serves := s.boot.state = 7 ∧ s.boot.served = none
     (listens → s.portGoesUp port = { up with tick := { up.tick with listenFrom := some s.time } }.raise .lnk port 1) ∧
     (serves → s.portGoesUp port = State.raise { up with
       boot := { up.boot with served := some port.val }
       ports := tblMap up.ports fun i q => if i = port.val then q else ({} : Port) } .lnk port 1) ∧
     (¬listens → ¬serves → s.portGoesUp port = up.raise .lnk port 1)) ∧
    (∀ st, ∃ d : State, s.leaveUp port st =
        ((d.synthesise port (s.portPackets port)).bumpHalf (pageBase .lnk port + 0x830) 31 16).raise .lnk port 0 ∧
      d.port port = { st := st, since := s.time, eth := v.eth, laneLock := v.laneLock, delivered := v.delivered } ∧
      (∀ i, i ≠ port.val → d.port i = s.port i) ∧ d.mem = s.mem ∧ d.time = s.time ∧ d.regs = s.regs ∧
      (∀ q, q < 16 → d.queue port q = []) ∧ (∀ i q, q < 16 → i ≠ port.val → d.queue i q = s.queue i q) ∧
      ∀ c, c < 8 → d.onBeam port c = [] ∧ tblGet d.rtr.held (port * 8 + c) [] = []) ∧
    s.synthesise port [] = s ∧
    (∀ x, x.typ = tTickSync → s.synthesise port [x] = s) ∧
    (∀ x u ok, x.typ ≠ tTickSync → s.sendSynthetic (Packet.answerTo x) = (u, ok) →
      s.synthesise port [x] = if ok then u.bump (pageBase .lnk port + 0x838) else u)) ∧
  (∀ (s : State) (port : Fin 16) (corr uncorr : Nat) (f : List Byte) (ok : Bool), let v := s.port port
    (v.st ≠ .up ∨ v.eth ≠ 1 → exec (.ethFrameReceive port corr uncorr f ok) s = s.handUp port) ∧
    (v.st = .up → v.eth = 1 →
      let b := (f.drop 26).take (f.length - 30)
      let vc := bits (field f 18 1) 6 4
      let first := bit (field f 19 1) 0
      let last := bit (field f 19 1) 1
      let from_ := beNat ((f.drop 6).take 6)
      let w := (s.drainRx port).fecCount port corr uncorr
      let x := (w.port port).rxVc vc
      let n := x.units + (b.length + 255) / 256
      let y := (w.tally .lnk port 0x62 1 b.length).setRx port vc { x with units := n }
      let takes (z : State) : Host.Outcome State Fault Refusal := ((z.updateXoff port).updatePfc port).handUp port
      (ok = false ∨ w.frameOk port f = false →
        exec (.ethFrameReceive port corr uncorr f ok) s = (w.bump (pageBase .lnk port + 0x83C)).handUp port) ∧
      (ok = true → w.frameOk port f = true →
        (192 < n → exec (.ethFrameReceive port corr uncorr f ok) s =
          ((w.bump (pageBase .lnk port + 0x828)).raise .lnk port 4).handUp port) ∧
        (n ≤ 192 → first = true → last = true → ∀ ps rest bad, packetsIn 1024 b = (ps, rest, bad) →
          let z := y.handOver port vc from_ ps
          exec (.ethFrameReceive port corr uncorr f ok) s = takes (if bad = true ∨ rest ≠ none then z.framing port else z)) ∧
        (n ≤ 192 → first = false ∨ last = false → exec (.ethFrameReceive port corr uncorr f ok) s =
          takes (y.takeSegment port (field f 20 2 % 4096) vc from_ (field f 22 4) first last b))))) ∧
  (∀ (s : State) (p src vc mac off : Nat) (first last : Bool) (b : List Byte), let v := s.port p
    let mine (r : Reasm) : Bool := r.src == src && r.vc == vc
    let others := v.reasm.filter fun r => !mine r
    let u := s.setPort p { v with reasm := others }
    let joins (q : List Byte) : Prop := (last = true → s.takeSegment p src vc mac off first last b = u.handOver p vc mac [q]) ∧
      (last = false → s.takeSegment p src vc mac off first last b =
        u.setPort p { v with reasm := others ++ [{ src := src, vc := vc, bytes := q }] })
    (first = true → (off = 0 → joins b) ∧ (off ≠ 0 → s.takeSegment p src vc mac off first last b = u)) ∧
    (first = false →
      (v.reasm.find? mine = none → s.takeSegment p src vc mac off first last b = u) ∧
      (∀ r, v.reasm.find? mine = some r → (r.bytes.length = off → joins (r.bytes ++ b)) ∧
        (r.bytes.length ≠ off → s.takeSegment p src vc mac off first last b = u)))) ∧
  ∀ (s : State) (port : Fin 16), let v := s.port port
    (∀ l, v.st ≠ .up ∨ v.eth ≠ 1 → exec (.pfcFrameReceive port l) s = .next s) ∧
    (v.st = .up → v.eth = 1 → exec (.pfcFrameReceive port []) s = .next s) ∧
    (∀ (i : Fin 8) (n : BitVec 16), v.st = .up → v.eth = 1 → exec (.pfcFrameReceive port [(i, n)]) s = .next (s.setPort port
      { v with pfcRx := if n = 0 then tblDel v.pfcRx i else tblPut v.pfcRx i (s.time + (n.toNat * 64 + 99) / 100) })) ∧
    (tblMin v.pfcRx = none → exec (.pfcPauseExpiry port) s = .next s) ∧
    (∀ at_, tblMin v.pfcRx = some at_ → let u := s.elapseTo at_
      exec (.pfcPauseExpiry port) s = .next (u.setPort port { v with pfcRx := v.pfcRx.filter fun x => decide (u.time < x.2) })) ∧
    (tblMin v.pfcTx = none → exec (.pfcRefresh port) s = .next s) ∧
    (∀ at_, tblMin v.pfcTx = some at_ → let u := ((s.elapseTo (at_ + 20000)).drainRx port).updatePfc port
      ∃ t, exec (.pfcRefresh port) s = .next t ∧ t.time = u.time ∧ t.mem = s.mem ∧
        ∀ i, ((∀ x ∈ (u.port port).pfcTx, x.1 = i → u.time < x.2 + 20000) →
            tblGet? (t.port port).pfcTx i = tblGet? (u.port port).pfcTx i) ∧
          ∀ x ∈ (u.port port).pfcTx, x.1 = i → x.2 + 20000 ≤ u.time →
            tblGet? (t.port port).pfcTx i = some u.time ∧ .frame port (u.pfcFrame port i 0xFFFF) ∈ t.out)

/-- The router, the shapers and the bandwidth window (R332, R334, R337, R338, R343, R347, R390, R397, R453): a transit packet that
its policer lets through leaves on its route one hop up, waiting on the beam while the queue has no room, or is dropped; one for
this module that names no command it has is refused. An epoch flip and a board switch take place at their ticks; the old version
becomes writable once unoccupied; held requests are injected while the queue is below HI_KIB; a host shaper lets its oldest
completion go; a window's counts become the last window's. -/
def Obligations.RouterAndShapersMove : Prop :=
  (∀ (s : State) (port : Fin 16) (p : Packet),
    let passes := s.portUp port = true ∧ p.dst ≠ s.ep ∧ ¬(p.typ = tTickSync ∧ field p.body 0 1 = 0)
    let r := s.received port p none
    (p.dst = s.ep → p.unnamed = true → exec (.transitPacket port p) s = .next (s.arriveUnnamed port p)) ∧
    (p.dst ≠ s.ep ∨ p.unnamed = false →
      (¬passes → exec (.transitPacket port p) s = .next s) ∧
      (passes → r.police (some port.val) p = none →
        exec (.transitPacket port p) s = .next ((r.bump 0x90868).raise .qos 0 0)) ∧
      (∀ u, passes → r.police (some port.val) p = some u →
        exec (.transitPacket port p) s = .next ((u.learn port p).transit port p)))) ∧
  (∀ (s : State) (port q mac : Nat) (p : Packet), let way := s.route p.dst p.src p.epoch
    let limit := s.actBits .rtr 0 0x040 15 8
    let out := { p with hops := p.hops + 1 }
    (way = none → s.transit port p = s.routeDrop p false (some port)) ∧
    (way = some (q, mac) →
      (s.notCarried q p = true → s.transit port p = s.routeDrop p false (some port)) ∧
      (s.notCarried q p = false → limit ≤ p.hops → s.transit port p = s.routeDrop p true (some port)) ∧
      (s.notCarried q p = false → p.hops < limit →
        let u := if p.epoch % 2 ≠ s.rtr.inject then s.tally .rtr 0 0x78 0 else s
        let w := if p.epoch = 0 ∧ s.rtr.v0Loaded = false then u.tally .rtr 0 0x79 0 else u
        s.transit port p = (w.toQueue q (queueOf out (s.actBits .qos 0 (0x060 + 4 * q) 1 0))
          { pkt := out, mac := mac, came := if p.typ = tTickSync then some s.tick.count else none }).emit
          (.packet (some q) out)))) ∧
  (∀ (s : State) (port q : Nat) (x : Queued), let vc := x.pkt.channel
    (s.egressFull port x = false → s.onBeam port vc = [] → s.toQueue port q x = s.enqueueAt port q x ∧
      (s.enqueueAt port q x).queue port q = s.queue port q ++ [x]) ∧
    (s.egressFull port x = true ∨ s.onBeam port vc ≠ [] → s.toQueue port q x = s.setBeam port vc (s.onBeam port vc ++ [(q, x)])) ∧
    (s.egressFull port x = true ↔ port < 16 ∧ 0 < s.qdepth port vc ∧ 65536 < s.qdepth port vc + x.pkt.bytes)) ∧
  (∀ s : State,
    (s.rtr.oldWritable = true → exec .oldWritableSet s = .next s) ∧
    (s.rtr.oldWritable = false →
      let u := s.elapseTo (s.rtr.flipAt + s.actBits .rtr 0 0x040 31 16 * 1000)
      (u.occupancy (1 - u.rtr.inject) = 0 → exec .oldWritableSet s = .next { u with rtr := { u.rtr with oldWritable := true } }) ∧
      (u.occupancy (1 - u.rtr.inject) ≠ 0 → exec .oldWritableSet s = .next u)) ∧
    (s.rtr.flipArmed = none → exec .epochFlip s = .next s) ∧
    (∀ tick, s.rtr.flipArmed = some tick → let u := s.elapseToTick tick
      (s.dueBefore tick 7 = true → exec .epochFlip s = .next s) ∧
      (s.dueBefore tick 7 = false → exec .epochFlip s = .next (State.raise { u with rtr := { u.rtr with
        inject := 1 - s.rtr.inject, v0Loaded := s.rtr.v0Loaded || decide (1 ≤ s.rtr.inject)
        v1Loaded := s.rtr.v1Loaded || s.rtr.inject == 0, oldWritable := false, flipAt := u.time, flipArmed := none } } .rtr 0 1))) ∧
    (s.rtr.boardArmed = none → exec .boardSwitch s = .next s) ∧
    (∀ tick, s.rtr.boardArmed = some tick → let u := s.elapseToTick tick
      (s.dueBefore tick 8 = true → exec .boardSwitch s = .next s) ∧
      (s.dueBefore tick 8 = false → exec .boardSwitch s = .next (State.raise { u with rtr := { u.rtr with
        boardActive := 1 - s.rtr.boardActive, boardArmed := none } } .rtr 0 2))) ∧
    (∀ (port : Fin 16) (vc : Fin 6),
      (s.throttleLo < s.qdepth port vc → exec (.throttleRelease port vc) s = .next s) ∧
      (s.qdepth port vc ≤ s.throttleLo →
        exec (.throttleRelease port vc) s = .next (s.unhold port vc (tblGet s.rtr.held (port.val * 8 + vc.val) [])))) ∧
    (∀ (port vc : Nat) (x : Queued) (l : List Queued),
      let wait := s.throttled port vc = true ∧ s.throttleHi ≤ s.qdepth port vc
      s.unhold port vc [] = { s with rtr := { s.rtr with held := tblDel s.rtr.held (port * 8 + vc) } } ∧
      (wait → s.unhold port vc (x :: l) = { s with rtr := { s.rtr with held := tblPut s.rtr.held (port * 8 + vc) (x :: l) } }) ∧
      (¬wait → s.unhold port vc (x :: l) =
        (s.toQueue port (queueOf x.pkt ((x.ctx.map s.classOf).getD 0)) x).unhold port vc l)) ∧
    (∀ n : Fin 512, let h := s.host n
      (h.waiting = [] → exec (.hostShaperRelease n) s = .next s) ∧
      (h.waiting ≠ [] →
        (wbit h.key 31 = true → exec (.hostShaperRelease n) s =
          .next ((s.elapse ((h.bucket.fill h.rate h.burst s.time).wait h.rate)).leaveHost n)) ∧
        (wbit h.key 31 = false → exec (.hostShaperRelease n) s = .next (s.leaveHost n)))) ∧
    (∀ n p key l, (s.host n).waiting = (p, key) :: l →
      let rest := if p.dataOff = 0 then l.map fun x => if x.2 = key then (withLoad x.1 (s.loadFor p.dst), x.2) else x else l
      let u := { s with qos := { s.qos with hosts := tblPut s.qos.hosts n { s.host n with waiting := rest } } }
      (u.slot? key = none → s.leaveHost n = u) ∧
      (∀ v, u.slot? key = some v →
        let beads := (p.body.length + 63) / 64
        let w := u.setSlot key { v with dbuf := v.dbuf - beads }
        let y := State.sendCompletion { w with txn := { w.txn with dbufUsed := w.txn.dbufUsed - beads } } p v.key (some v.ctx)
        (p.last = false → s.leaveHost n = y) ∧
        (p.last = true → s.leaveHost n = (y.keepRecord v p.status p.body).freeSlot key))) ∧
    (s.boot.started = false → exec .bwWindowEnd s = .next s) ∧
    (s.boot.started = true → let at_ := s.bwEnd s.tly.endTick
      let u := s.elapseToTick at_
      let next := { s.tly with now := [], disturbed := false, discard := false, endTick := u.tick.count }
      let odd := s.tly.disturbed || at_ - s.tly.endTick != s.bwWindow
      let w := { u with tly := { next with last := s.tly.now, seq := (s.tly.seq + 1) % 65536, irreg := odd } }
      (s.tly.discard = true → exec .bwWindowEnd s = .next { u with tly := next }) ∧
      (s.tly.discard = false → exec .bwWindowEnd s = .next (if odd then w.raise .tly 0 0 else w)))) ∧
  ∀ (b : Bucket) (rate burst now : Nat), 0 < rate →
    ((b.fill rate burst now).tokens ≤ burstOf burst ∧ (b.fill rate burst now).at_ = now ∧
      (b.at_ ≤ now → b.tokens ≤ burstOf burst → b.tokens ≤ (b.fill rate burst now).tokens)) ∧
    (b.at_ + b.wait rate = now → 1 ≤ burst → (b.fill rate burst now).positive = true)

/-- A window of the counting board is open while its phase is (R345): at tick t, with t at or after ANCHOR, the phase of the
active bank is (t − ANCHOR) mod PERIOD, and window w is open while the phase lies in [START, START + LEN), with the ticks left
until it closes; before ANCHOR, on a port of Ethernet personality (R346) and with PERIOD 0 (assumption 66), which an armed bank
has only without valid windows (R347), none is. -/
def Obligations.WindowsOpenByPhase : Prop :=
  ∀ (s : State) (p : Nat),
    let b := s.rtr.boardActive
    (s.tick.count < s.boardAnchor b → s.openWindow p = none) ∧
    (s.portEth p = true → s.openWindow p = none) ∧ (s.boardPeriod b = 0 → s.openWindow p = none) ∧
    (∀ d, s.tick.count = s.boardAnchor b + d → 0 < s.boardPeriod b → s.portEth p = false →
      (∀ (w : BoardWin) (left : Nat), s.openWindow p = some (w, left) → w ∈ s.boardWins p b ∧
        w.start ≤ d % s.boardPeriod b ∧ d % s.boardPeriod b + left = w.start + w.len ∧ 0 < left) ∧
      (∀ w ∈ s.boardWins p b, w.start ≤ d % s.boardPeriod b → d % s.boardPeriod b < w.start + w.len →
        (∀ x ∈ s.boardWins p b, x ≠ w → x.overlaps w = false) →
        s.openWindow p = some (w, w.start + w.len - d % s.boardPeriod b)) ∧
      ((∀ w ∈ s.boardWins p b, d % s.boardPeriod b < w.start ∨ w.start + w.len ≤ d % s.boardPeriod b) → s.openWindow p = none))
end

