-- ==== Sys2Proof/Laws/Tables.lean ====
section
/-!
SUPPORT. Tables by key: what reads back after a put, a deletion and a map.
-/

namespace Sys2Proof.Machine

variable {α : Type}

@[simp] theorem tblGet?_put (t : Tbl α) (k j : Nat) (v : α) : tblGet? (tblPut t k v) j = if j = k then some v else tblGet? t j := by
  induction t with
  | nil => by_cases h : j = k <;> simp [tblPut, tblGet?, h]
  | cons x t ih =>
    obtain ⟨k', v'⟩ := x
    unfold tblPut
    split
    · by_cases h : j = k <;> simp [tblGet?, h]
    · split
      · rename_i h1 h2; subst h2
        by_cases h : j = k <;> simp [tblGet?, h]
      · rename_i h1 h2
        by_cases h : j = k' <;> simp only [tblGet?, h, if_true, if_false, ih]
        · rw [if_neg (fun e => h2 e.symm)]

@[simp] theorem tblGet_put (t : Tbl α) (k j : Nat) (v d : α) :
    tblGet (tblPut t k v) j d = if j = k then v else tblGet t j d := by
  unfold tblGet
  rw [tblGet?_put]
  split <;> rfl

@[simp] theorem tblGet?_del (t : Tbl α) (k j : Nat) : tblGet? (tblDel t k) j = if j = k then none else tblGet? t j := by
  induction t with
  | nil => simp [tblDel, tblGet?]
  | cons x t ih =>
    obtain ⟨k', v'⟩ := x
    unfold tblDel
    by_cases h : k = k'
    · subst h
      rw [if_pos rfl, ih]
      by_cases e : j = k <;> simp [tblGet?, e]
    · rw [if_neg h]
      by_cases e : j = k'
      · subst e; rw [if_neg fun e => h e.symm]; simp [tblGet?]
      · simp only [tblGet?, e, if_false, ih]

@[simp] theorem tblGet_del (t : Tbl α) (k j : Nat) (d : α) :
    tblGet (tblDel t k) j d = if j = k then d else tblGet t j d := by
  unfold tblGet
  rw [tblGet?_del]
  split <;> rfl

@[simp] theorem tblGet?_map (t : Tbl α) (f : Nat → α → α) (j : Nat) : tblGet? (tblMap t f) j = (tblGet? t j).map (f j) := by
  induction t with
  | nil => rfl
  | cons x t ih =>
    obtain ⟨k', v'⟩ := x
    unfold tblMap at ih ⊢
    by_cases h : j = k'
    · subst h; simp [tblGet?]
    · simp only [List.map_cons, tblGet?, h, if_false, ih]

end Sys2Proof.Machine
end

