-- ==== Sys2Proof/Laws/Arrive.lean ====
section
/-!
SUPPORT. An admitted command packet reaches its unit: for the register commands, the register it names.
-/

namespace Sys2Proof.Machine

theorem serve_of_accepts {s t : State} {r : Rules} {port : Option Nat} {p : Packet} (h : s.Accepts r port p t)
    (act : State → Nat → State) : s.serve r port p act = act t (slotKey p.src p.tag) := by
  obtain ⟨u, y, row, hv, ht, rfl⟩ := h
  unfold State.serve
  rw [hv]
  simp [ht]

/-- The unit acts on an admitted packet, in the state admission leaves, with the packet's slot. -/
theorem arrive_of_admits {s t : State} {r : Rules} {port : Fin 16} {p : Packet} (h : s.Admits r port p t)
    (act : State → Nat → State) : s.arrive r port p act = act t (r.slot p) := by
  unfold State.arrive
  dsimp only
  rcases h with ⟨u, hu, ha⟩ | ⟨hn, hp, u, hu, hd, ha⟩
  · rw [hu]
    exact serve_of_accepts ha act
  · rw [hn]
    simp only [hp, if_true, State.policed, hu, hd, ne_eq, not_true, if_false]
    exact serve_of_accepts ha act

theorem verified_slot? (s : State) (p : Packet) (k : Nat) : (s.verified p).slot? k = s.slot? k := by
  unfold State.verified State.markWindow
  repeat' split
  all_goals rfl

/-- An accepted packet waits in its inbound slot. -/
theorem accept_slot? (s : State) (r : Rules) (port : Option Nat) (p : Packet) (y : Bool) (x : Row7) :
    ((s.accept r port p y x).slot? (slotKey p.src p.tag)).map (·.pkt) = some p := by
  unfold State.accept State.slot?
  simp

/-- An admitted packet waits in its inbound slot, in the form its row gives it. -/
theorem slot?_of_admits {s t : State} {r : Rules} {port : Fin 16} {p : Packet} (h : s.Admits r port p t) :
    ∃ v, t.slot? (r.slot p) = some v ∧ v.pkt = r.form p := by
  have main : ∀ {a b : State} {q : Option Nat}, a.Accepts r q (r.form p) b →
      ∃ v, b.slot? (r.slot p) = some v ∧ v.pkt = r.form p := by
    rintro a b q ⟨u, y, row, -, -, rfl⟩
    exact Option.map_eq_some_iff.mp (by rw [verified_slot?]; exact accept_slot? u r q (r.form p) y row)
  rcases h with ⟨u, -, h⟩ | ⟨-, -, u, -, -, h⟩ <;> exact main h

/-- An admitted register write acts on the register it names, and completes with the write's status. -/
theorem arriveWrite_of_admits {s t : State} {port : Fin 16} {p : Packet} {g : Target} {w : Word}
    (h : s.AdmitsWrite port p g w t) :
    s.arriveWrite port p = (t.writeReg (Packet.regAddr (p.ofCmd 0x41)) g w).1.complete (cmdSlot 0x41 p)
      (t.writeReg (Packet.regAddr (p.ofCmd 0x41)) g w).2 := by
  obtain ⟨ha, ht, rfl⟩ := h
  obtain ⟨v, hv, hp⟩ := slot?_of_admits ha
  replace hp : v.pkt = p.ofCmd 0x41 := hp
  rw [State.arriveWrite, arrive_of_admits ha, State.actRegWrite, hv]
  simp only [hp, ht]
  rfl

/-- An admitted register read answers the register it names. -/
theorem arriveRead_of_admits {s t : State} {port : Fin 16} {p : Packet} {g : Target} (h : s.AdmitsRead port p g t) :
    s.arriveRead port p = (t.readReg (Packet.regAddr (p.ofCmd 0x40)) g).1.complete (cmdSlot 0x40 p) stOk
      (leBytes 4 (t.readReg (Packet.regAddr (p.ofCmd 0x40)) g).2) := by
  obtain ⟨ha, ht⟩ := h
  obtain ⟨v, hv, hp⟩ := slot?_of_admits ha
  replace hp : v.pkt = p.ofCmd 0x40 := hp
  rw [State.arriveRead, arrive_of_admits ha, State.actRegRead, hv]
  simp only [hp, ht]
  rfl

end Sys2Proof.Machine
end

