-- ==== Sys2Proof/Laws/State.lean ====
section
/-!
SUPPORT. What the shared updates leave alone: for each, every field of the state it does not touch reads as before.
-/

namespace Sys2Proof.Machine

/-- A register of `regs` set: the rest of the state stands. -/
@[simp] theorem setReg_keeps (s : State) (a : Nat) (w : Word) :
    (s.setReg a w).time = s.time ∧ (s.setReg a w).tick = s.tick ∧ (s.setReg a w).clk = s.clk ∧
    (s.setReg a w).pwr = s.pwr ∧ (s.setReg a w).jtag = s.jtag ∧ (s.setReg a w).boot = s.boot ∧
    (s.setReg a w).flash = s.flash ∧ (s.setReg a w).cc = s.cc ∧ (s.setReg a w).shadow = s.shadow ∧
    (s.setReg a w).active = s.active ∧ (s.setReg a w).snaps = s.snaps ∧ (s.setReg a w).mem = s.mem ∧
    (s.setReg a w).beads = s.beads ∧ (s.setReg a w).xlt = s.xlt ∧ (s.setReg a w).ctl = s.ctl ∧
    (s.setReg a w).ecc = s.ecc ∧ (s.setReg a w).dir = s.dir ∧ (s.setReg a w).txn = s.txn ∧
    (s.setReg a w).ten = s.ten ∧ (s.setReg a w).mgr = s.mgr ∧ (s.setReg a w).rtr = s.rtr ∧
    (s.setReg a w).ports = s.ports ∧ (s.setReg a w).qos = s.qos ∧ (s.setReg a w).rods = s.rods ∧
    (s.setReg a w).frames = s.frames ∧ (s.setReg a w).streams = s.streams ∧ (s.setReg a w).jobs = s.jobs ∧
    (s.setReg a w).fns = s.fns ∧ (s.setReg a w).movers = s.movers ∧ (s.setReg a w).loads = s.loads ∧
    (s.setReg a w).placing = s.placing ∧ (s.setReg a w).kvs = s.kvs ∧ (s.setReg a w).tly = s.tly ∧
    (s.setReg a w).out = s.out ∧ (s.setReg a w).freeCtr = s.freeCtr ∧ (s.setReg a w).pending = s.pending := by
  repeat' apply And.intro
  all_goals rfl

/-- Shadow and active set written: the rest of the state stands. -/
@[simp] theorem setBoth_keeps (s : State) (a : Nat) (w : Word) :
    (s.setBoth a w).time = s.time ∧ (s.setBoth a w).tick = s.tick ∧ (s.setBoth a w).clk = s.clk ∧
    (s.setBoth a w).pwr = s.pwr ∧ (s.setBoth a w).jtag = s.jtag ∧ (s.setBoth a w).boot = s.boot ∧
    (s.setBoth a w).flash = s.flash ∧ (s.setBoth a w).cc = s.cc ∧ (s.setBoth a w).regs = s.regs ∧
    (s.setBoth a w).snaps = s.snaps ∧ (s.setBoth a w).mem = s.mem ∧ (s.setBoth a w).beads = s.beads ∧
    (s.setBoth a w).xlt = s.xlt ∧ (s.setBoth a w).ctl = s.ctl ∧ (s.setBoth a w).ecc = s.ecc ∧
    (s.setBoth a w).dir = s.dir ∧ (s.setBoth a w).txn = s.txn ∧ (s.setBoth a w).ten = s.ten ∧
    (s.setBoth a w).mgr = s.mgr ∧ (s.setBoth a w).rtr = s.rtr ∧ (s.setBoth a w).ports = s.ports ∧
    (s.setBoth a w).qos = s.qos ∧ (s.setBoth a w).rods = s.rods ∧ (s.setBoth a w).frames = s.frames ∧
    (s.setBoth a w).streams = s.streams ∧ (s.setBoth a w).jobs = s.jobs ∧ (s.setBoth a w).fns = s.fns ∧
    (s.setBoth a w).movers = s.movers ∧ (s.setBoth a w).loads = s.loads ∧ (s.setBoth a w).placing = s.placing ∧
    (s.setBoth a w).kvs = s.kvs ∧ (s.setBoth a w).tly = s.tly ∧ (s.setBoth a w).out = s.out ∧
    (s.setBoth a w).freeCtr = s.freeCtr ∧ (s.setBoth a w).pending = s.pending := by
  repeat' apply And.intro
  all_goals rfl

/-- A free value drawn: the rest of the state stands. -/
@[simp] theorem free_keeps (s : State) :
    (s.free.2).time = s.time ∧ (s.free.2).tick = s.tick ∧ (s.free.2).clk = s.clk ∧ (s.free.2).pwr = s.pwr ∧
    (s.free.2).jtag = s.jtag ∧ (s.free.2).boot = s.boot ∧ (s.free.2).flash = s.flash ∧ (s.free.2).cc = s.cc ∧
    (s.free.2).shadow = s.shadow ∧ (s.free.2).active = s.active ∧ (s.free.2).regs = s.regs ∧
    (s.free.2).snaps = s.snaps ∧ (s.free.2).mem = s.mem ∧ (s.free.2).beads = s.beads ∧ (s.free.2).xlt = s.xlt ∧
    (s.free.2).ctl = s.ctl ∧ (s.free.2).ecc = s.ecc ∧ (s.free.2).dir = s.dir ∧ (s.free.2).txn = s.txn ∧
    (s.free.2).ten = s.ten ∧ (s.free.2).mgr = s.mgr ∧ (s.free.2).rtr = s.rtr ∧ (s.free.2).ports = s.ports ∧
    (s.free.2).qos = s.qos ∧ (s.free.2).rods = s.rods ∧ (s.free.2).frames = s.frames ∧
    (s.free.2).streams = s.streams ∧ (s.free.2).jobs = s.jobs ∧ (s.free.2).fns = s.fns ∧
    (s.free.2).movers = s.movers ∧ (s.free.2).loads = s.loads ∧ (s.free.2).placing = s.placing ∧
    (s.free.2).kvs = s.kvs ∧ (s.free.2).tly = s.tly ∧ (s.free.2).out = s.out ∧ (s.free.2).pending = s.pending := by
  repeat' apply And.intro
  all_goals rfl

/-- Time passes: the rest of the state stands. -/
@[simp] theorem elapse_keeps (s : State) (n : Nat) :
    (s.elapse n).clk = s.clk ∧ (s.elapse n).pwr = s.pwr ∧ (s.elapse n).jtag = s.jtag ∧ (s.elapse n).boot = s.boot ∧
    (s.elapse n).flash = s.flash ∧ (s.elapse n).cc = s.cc ∧ (s.elapse n).shadow = s.shadow ∧
    (s.elapse n).active = s.active ∧ (s.elapse n).regs = s.regs ∧ (s.elapse n).snaps = s.snaps ∧
    (s.elapse n).mem = s.mem ∧ (s.elapse n).beads = s.beads ∧ (s.elapse n).xlt = s.xlt ∧ (s.elapse n).ctl = s.ctl ∧
    (s.elapse n).ecc = s.ecc ∧ (s.elapse n).dir = s.dir ∧ (s.elapse n).txn = s.txn ∧ (s.elapse n).ten = s.ten ∧
    (s.elapse n).mgr = s.mgr ∧ (s.elapse n).rtr = s.rtr ∧ (s.elapse n).ports = s.ports ∧ (s.elapse n).qos = s.qos ∧
    (s.elapse n).rods = s.rods ∧ (s.elapse n).frames = s.frames ∧ (s.elapse n).streams = s.streams ∧
    (s.elapse n).jobs = s.jobs ∧ (s.elapse n).fns = s.fns ∧ (s.elapse n).movers = s.movers ∧
    (s.elapse n).loads = s.loads ∧ (s.elapse n).placing = s.placing ∧ (s.elapse n).kvs = s.kvs ∧
    (s.elapse n).tly = s.tly ∧ (s.elapse n).out = s.out ∧ (s.elapse n).freeCtr = s.freeCtr ∧
    (s.elapse n).pending = s.pending := by
  repeat' apply And.intro
  all_goals rfl

/-- Time passes to an instant: the rest of the state stands. -/
@[simp] theorem elapseTo_keeps (s : State) (t : Nat) :
    (s.elapseTo t).clk = s.clk ∧ (s.elapseTo t).pwr = s.pwr ∧ (s.elapseTo t).jtag = s.jtag ∧
    (s.elapseTo t).boot = s.boot ∧ (s.elapseTo t).flash = s.flash ∧ (s.elapseTo t).cc = s.cc ∧
    (s.elapseTo t).shadow = s.shadow ∧ (s.elapseTo t).active = s.active ∧ (s.elapseTo t).regs = s.regs ∧
    (s.elapseTo t).snaps = s.snaps ∧ (s.elapseTo t).mem = s.mem ∧ (s.elapseTo t).beads = s.beads ∧
    (s.elapseTo t).xlt = s.xlt ∧ (s.elapseTo t).ctl = s.ctl ∧ (s.elapseTo t).ecc = s.ecc ∧
    (s.elapseTo t).dir = s.dir ∧ (s.elapseTo t).txn = s.txn ∧ (s.elapseTo t).ten = s.ten ∧
    (s.elapseTo t).mgr = s.mgr ∧ (s.elapseTo t).rtr = s.rtr ∧ (s.elapseTo t).ports = s.ports ∧
    (s.elapseTo t).qos = s.qos ∧ (s.elapseTo t).rods = s.rods ∧ (s.elapseTo t).frames = s.frames ∧
    (s.elapseTo t).streams = s.streams ∧ (s.elapseTo t).jobs = s.jobs ∧ (s.elapseTo t).fns = s.fns ∧
    (s.elapseTo t).movers = s.movers ∧ (s.elapseTo t).loads = s.loads ∧ (s.elapseTo t).placing = s.placing ∧
    (s.elapseTo t).kvs = s.kvs ∧ (s.elapseTo t).tly = s.tly ∧ (s.elapseTo t).out = s.out ∧
    (s.elapseTo t).freeCtr = s.freeCtr ∧ (s.elapseTo t).pending = s.pending := by
  unfold State.elapseTo
  repeat' apply And.intro
  all_goals (repeat' split) <;> rfl

/-- Time passes to a tick: the rest of the state stands. -/
@[simp] theorem elapseToTick_keeps (s : State) (t : Nat) :
    (s.elapseToTick t).clk = s.clk ∧ (s.elapseToTick t).pwr = s.pwr ∧ (s.elapseToTick t).jtag = s.jtag ∧
    (s.elapseToTick t).boot = s.boot ∧ (s.elapseToTick t).flash = s.flash ∧ (s.elapseToTick t).cc = s.cc ∧
    (s.elapseToTick t).shadow = s.shadow ∧ (s.elapseToTick t).active = s.active ∧ (s.elapseToTick t).regs = s.regs ∧
    (s.elapseToTick t).snaps = s.snaps ∧ (s.elapseToTick t).mem = s.mem ∧ (s.elapseToTick t).beads = s.beads ∧
    (s.elapseToTick t).xlt = s.xlt ∧ (s.elapseToTick t).ctl = s.ctl ∧ (s.elapseToTick t).ecc = s.ecc ∧
    (s.elapseToTick t).dir = s.dir ∧ (s.elapseToTick t).txn = s.txn ∧ (s.elapseToTick t).ten = s.ten ∧
    (s.elapseToTick t).mgr = s.mgr ∧ (s.elapseToTick t).rtr = s.rtr ∧ (s.elapseToTick t).ports = s.ports ∧
    (s.elapseToTick t).qos = s.qos ∧ (s.elapseToTick t).rods = s.rods ∧ (s.elapseToTick t).frames = s.frames ∧
    (s.elapseToTick t).streams = s.streams ∧ (s.elapseToTick t).jobs = s.jobs ∧ (s.elapseToTick t).fns = s.fns ∧
    (s.elapseToTick t).movers = s.movers ∧ (s.elapseToTick t).loads = s.loads ∧
    (s.elapseToTick t).placing = s.placing ∧ (s.elapseToTick t).kvs = s.kvs ∧ (s.elapseToTick t).tly = s.tly ∧
    (s.elapseToTick t).out = s.out ∧ (s.elapseToTick t).freeCtr = s.freeCtr ∧
    (s.elapseToTick t).pending = s.pending := by
  unfold State.elapseToTick
  repeat' apply And.intro
  all_goals (repeat' split) <;> rfl

/-- Something sent: the rest of the state stands. -/
@[simp] theorem emit_keeps (s : State) (o : Out) :
    (s.emit o).time = s.time ∧ (s.emit o).tick = s.tick ∧ (s.emit o).clk = s.clk ∧ (s.emit o).pwr = s.pwr ∧
    (s.emit o).jtag = s.jtag ∧ (s.emit o).boot = s.boot ∧ (s.emit o).flash = s.flash ∧ (s.emit o).cc = s.cc ∧
    (s.emit o).shadow = s.shadow ∧ (s.emit o).active = s.active ∧ (s.emit o).regs = s.regs ∧
    (s.emit o).snaps = s.snaps ∧ (s.emit o).mem = s.mem ∧ (s.emit o).beads = s.beads ∧ (s.emit o).xlt = s.xlt ∧
    (s.emit o).ctl = s.ctl ∧ (s.emit o).ecc = s.ecc ∧ (s.emit o).dir = s.dir ∧ (s.emit o).txn = s.txn ∧
    (s.emit o).ten = s.ten ∧ (s.emit o).mgr = s.mgr ∧ (s.emit o).rtr = s.rtr ∧ (s.emit o).ports = s.ports ∧
    (s.emit o).qos = s.qos ∧ (s.emit o).rods = s.rods ∧ (s.emit o).frames = s.frames ∧
    (s.emit o).streams = s.streams ∧ (s.emit o).jobs = s.jobs ∧ (s.emit o).fns = s.fns ∧
    (s.emit o).movers = s.movers ∧ (s.emit o).loads = s.loads ∧ (s.emit o).placing = s.placing ∧
    (s.emit o).kvs = s.kvs ∧ (s.emit o).tly = s.tly ∧ (s.emit o).freeCtr = s.freeCtr ∧
    (s.emit o).pending = s.pending := by
  repeat' apply And.intro
  all_goals rfl

/-- Pool memory written: the rest of the state stands. -/
@[simp] theorem writeMem_keeps (s : State) (a : Nat) (b : List Byte) :
    (s.writeMem a b).time = s.time ∧ (s.writeMem a b).tick = s.tick ∧ (s.writeMem a b).clk = s.clk ∧
    (s.writeMem a b).pwr = s.pwr ∧ (s.writeMem a b).jtag = s.jtag ∧ (s.writeMem a b).boot = s.boot ∧
    (s.writeMem a b).flash = s.flash ∧ (s.writeMem a b).cc = s.cc ∧ (s.writeMem a b).shadow = s.shadow ∧
    (s.writeMem a b).active = s.active ∧ (s.writeMem a b).regs = s.regs ∧ (s.writeMem a b).snaps = s.snaps ∧
    (s.writeMem a b).beads = s.beads ∧ (s.writeMem a b).xlt = s.xlt ∧ (s.writeMem a b).ctl = s.ctl ∧
    (s.writeMem a b).ecc = s.ecc ∧ (s.writeMem a b).dir = s.dir ∧ (s.writeMem a b).txn = s.txn ∧
    (s.writeMem a b).ten = s.ten ∧ (s.writeMem a b).mgr = s.mgr ∧ (s.writeMem a b).rtr = s.rtr ∧
    (s.writeMem a b).ports = s.ports ∧ (s.writeMem a b).qos = s.qos ∧ (s.writeMem a b).rods = s.rods ∧
    (s.writeMem a b).frames = s.frames ∧ (s.writeMem a b).streams = s.streams ∧ (s.writeMem a b).jobs = s.jobs ∧
    (s.writeMem a b).fns = s.fns ∧ (s.writeMem a b).movers = s.movers ∧ (s.writeMem a b).loads = s.loads ∧
    (s.writeMem a b).placing = s.placing ∧ (s.writeMem a b).kvs = s.kvs ∧ (s.writeMem a b).tly = s.tly ∧
    (s.writeMem a b).out = s.out ∧ (s.writeMem a b).freeCtr = s.freeCtr ∧ (s.writeMem a b).pending = s.pending := by
  repeat' apply And.intro
  all_goals rfl

/-- Bead metadata set: the rest of the state stands. -/
@[simp] theorem setMeta_keeps (s : State) (b : Nat) (m : Meta) :
    (s.setMeta b m).time = s.time ∧ (s.setMeta b m).tick = s.tick ∧ (s.setMeta b m).clk = s.clk ∧
    (s.setMeta b m).pwr = s.pwr ∧ (s.setMeta b m).jtag = s.jtag ∧ (s.setMeta b m).boot = s.boot ∧
    (s.setMeta b m).flash = s.flash ∧ (s.setMeta b m).cc = s.cc ∧ (s.setMeta b m).shadow = s.shadow ∧
    (s.setMeta b m).active = s.active ∧ (s.setMeta b m).regs = s.regs ∧ (s.setMeta b m).snaps = s.snaps ∧
    (s.setMeta b m).mem = s.mem ∧ (s.setMeta b m).xlt = s.xlt ∧ (s.setMeta b m).ctl = s.ctl ∧
    (s.setMeta b m).ecc = s.ecc ∧ (s.setMeta b m).dir = s.dir ∧ (s.setMeta b m).txn = s.txn ∧
    (s.setMeta b m).ten = s.ten ∧ (s.setMeta b m).mgr = s.mgr ∧ (s.setMeta b m).rtr = s.rtr ∧
    (s.setMeta b m).ports = s.ports ∧ (s.setMeta b m).qos = s.qos ∧ (s.setMeta b m).rods = s.rods ∧
    (s.setMeta b m).frames = s.frames ∧ (s.setMeta b m).streams = s.streams ∧ (s.setMeta b m).jobs = s.jobs ∧
    (s.setMeta b m).fns = s.fns ∧ (s.setMeta b m).movers = s.movers ∧ (s.setMeta b m).loads = s.loads ∧
    (s.setMeta b m).placing = s.placing ∧ (s.setMeta b m).kvs = s.kvs ∧ (s.setMeta b m).tly = s.tly ∧
    (s.setMeta b m).out = s.out ∧ (s.setMeta b m).freeCtr = s.freeCtr ∧ (s.setMeta b m).pending = s.pending := by
  repeat' apply And.intro
  all_goals rfl

/-- An event counted: the rest of the state stands. -/
@[simp] theorem tally_keeps (s : State) (k : PageKind) (i event qual amount : Nat) (c : Option Nat) :
    (s.tally k i event qual amount c).time = s.time ∧ (s.tally k i event qual amount c).tick = s.tick ∧
    (s.tally k i event qual amount c).clk = s.clk ∧ (s.tally k i event qual amount c).pwr = s.pwr ∧
    (s.tally k i event qual amount c).jtag = s.jtag ∧ (s.tally k i event qual amount c).boot = s.boot ∧
    (s.tally k i event qual amount c).flash = s.flash ∧ (s.tally k i event qual amount c).cc = s.cc ∧
    (s.tally k i event qual amount c).shadow = s.shadow ∧ (s.tally k i event qual amount c).active = s.active ∧
    (s.tally k i event qual amount c).regs = s.regs ∧ (s.tally k i event qual amount c).snaps = s.snaps ∧
    (s.tally k i event qual amount c).mem = s.mem ∧ (s.tally k i event qual amount c).beads = s.beads ∧
    (s.tally k i event qual amount c).xlt = s.xlt ∧ (s.tally k i event qual amount c).ctl = s.ctl ∧
    (s.tally k i event qual amount c).ecc = s.ecc ∧ (s.tally k i event qual amount c).dir = s.dir ∧
    (s.tally k i event qual amount c).txn = s.txn ∧ (s.tally k i event qual amount c).ten = s.ten ∧
    (s.tally k i event qual amount c).mgr = s.mgr ∧ (s.tally k i event qual amount c).rtr = s.rtr ∧
    (s.tally k i event qual amount c).ports = s.ports ∧ (s.tally k i event qual amount c).qos = s.qos ∧
    (s.tally k i event qual amount c).rods = s.rods ∧ (s.tally k i event qual amount c).frames = s.frames ∧
    (s.tally k i event qual amount c).streams = s.streams ∧ (s.tally k i event qual amount c).jobs = s.jobs ∧
    (s.tally k i event qual amount c).fns = s.fns ∧ (s.tally k i event qual amount c).movers = s.movers ∧
    (s.tally k i event qual amount c).loads = s.loads ∧ (s.tally k i event qual amount c).placing = s.placing ∧
    (s.tally k i event qual amount c).kvs = s.kvs ∧ (s.tally k i event qual amount c).out = s.out ∧
    (s.tally k i event qual amount c).freeCtr = s.freeCtr ∧
    (s.tally k i event qual amount c).pending = s.pending := by
  unfold State.tally
  repeat' apply And.intro
  all_goals (repeat' split) <;> rfl

/-- A ring set: the rest of the state stands. -/
@[simp] theorem setRing_keeps (s : State) (r : Nat) (v : Ring) :
    (s.setRing r v).time = s.time ∧ (s.setRing r v).tick = s.tick ∧ (s.setRing r v).clk = s.clk ∧
    (s.setRing r v).pwr = s.pwr ∧ (s.setRing r v).jtag = s.jtag ∧ (s.setRing r v).boot = s.boot ∧
    (s.setRing r v).flash = s.flash ∧ (s.setRing r v).cc = s.cc ∧ (s.setRing r v).shadow = s.shadow ∧
    (s.setRing r v).active = s.active ∧ (s.setRing r v).regs = s.regs ∧ (s.setRing r v).snaps = s.snaps ∧
    (s.setRing r v).mem = s.mem ∧ (s.setRing r v).beads = s.beads ∧ (s.setRing r v).ctl = s.ctl ∧
    (s.setRing r v).ecc = s.ecc ∧ (s.setRing r v).dir = s.dir ∧ (s.setRing r v).txn = s.txn ∧
    (s.setRing r v).ten = s.ten ∧ (s.setRing r v).mgr = s.mgr ∧ (s.setRing r v).rtr = s.rtr ∧
    (s.setRing r v).ports = s.ports ∧ (s.setRing r v).qos = s.qos ∧ (s.setRing r v).rods = s.rods ∧
    (s.setRing r v).frames = s.frames ∧ (s.setRing r v).streams = s.streams ∧ (s.setRing r v).jobs = s.jobs ∧
    (s.setRing r v).fns = s.fns ∧ (s.setRing r v).movers = s.movers ∧ (s.setRing r v).loads = s.loads ∧
    (s.setRing r v).placing = s.placing ∧ (s.setRing r v).kvs = s.kvs ∧ (s.setRing r v).tly = s.tly ∧
    (s.setRing r v).out = s.out ∧ (s.setRing r v).freeCtr = s.freeCtr ∧ (s.setRing r v).pending = s.pending := by
  repeat' apply And.intro
  all_goals rfl

/-- An extent record set: the rest of the state stands. -/
@[simp] theorem setExtent_keeps (s : State) (id : Nat) (e : Extent) :
    (s.setExtent id e).time = s.time ∧ (s.setExtent id e).tick = s.tick ∧ (s.setExtent id e).clk = s.clk ∧
    (s.setExtent id e).pwr = s.pwr ∧ (s.setExtent id e).jtag = s.jtag ∧ (s.setExtent id e).boot = s.boot ∧
    (s.setExtent id e).flash = s.flash ∧ (s.setExtent id e).cc = s.cc ∧ (s.setExtent id e).shadow = s.shadow ∧
    (s.setExtent id e).active = s.active ∧ (s.setExtent id e).regs = s.regs ∧ (s.setExtent id e).snaps = s.snaps ∧
    (s.setExtent id e).mem = s.mem ∧ (s.setExtent id e).beads = s.beads ∧ (s.setExtent id e).ctl = s.ctl ∧
    (s.setExtent id e).ecc = s.ecc ∧ (s.setExtent id e).dir = s.dir ∧ (s.setExtent id e).txn = s.txn ∧
    (s.setExtent id e).ten = s.ten ∧ (s.setExtent id e).mgr = s.mgr ∧ (s.setExtent id e).rtr = s.rtr ∧
    (s.setExtent id e).ports = s.ports ∧ (s.setExtent id e).qos = s.qos ∧ (s.setExtent id e).rods = s.rods ∧
    (s.setExtent id e).frames = s.frames ∧ (s.setExtent id e).streams = s.streams ∧ (s.setExtent id e).jobs = s.jobs ∧
    (s.setExtent id e).fns = s.fns ∧ (s.setExtent id e).movers = s.movers ∧ (s.setExtent id e).loads = s.loads ∧
    (s.setExtent id e).placing = s.placing ∧ (s.setExtent id e).kvs = s.kvs ∧ (s.setExtent id e).tly = s.tly ∧
    (s.setExtent id e).out = s.out ∧ (s.setExtent id e).freeCtr = s.freeCtr ∧
    (s.setExtent id e).pending = s.pending := by
  repeat' apply And.intro
  all_goals rfl

/-- A record dropped: the rest of the state stands. -/
@[simp] theorem dropRecord_keeps (s : State) (n : Nat) :
    (s.dropRecord n).time = s.time ∧ (s.dropRecord n).tick = s.tick ∧ (s.dropRecord n).clk = s.clk ∧
    (s.dropRecord n).pwr = s.pwr ∧ (s.dropRecord n).jtag = s.jtag ∧ (s.dropRecord n).boot = s.boot ∧
    (s.dropRecord n).flash = s.flash ∧ (s.dropRecord n).cc = s.cc ∧ (s.dropRecord n).shadow = s.shadow ∧
    (s.dropRecord n).active = s.active ∧ (s.dropRecord n).regs = s.regs ∧ (s.dropRecord n).snaps = s.snaps ∧
    (s.dropRecord n).mem = s.mem ∧ (s.dropRecord n).beads = s.beads ∧ (s.dropRecord n).ctl = s.ctl ∧
    (s.dropRecord n).ecc = s.ecc ∧
    (s.dropRecord n).dir = s.dir ∧ (s.dropRecord n).txn = s.txn ∧ (s.dropRecord n).ten = s.ten ∧
    (s.dropRecord n).mgr = s.mgr ∧ (s.dropRecord n).rtr = s.rtr ∧ (s.dropRecord n).ports = s.ports ∧
    (s.dropRecord n).qos = s.qos ∧ (s.dropRecord n).rods = s.rods ∧ (s.dropRecord n).frames = s.frames ∧
    (s.dropRecord n).streams = s.streams ∧ (s.dropRecord n).jobs = s.jobs ∧ (s.dropRecord n).fns = s.fns ∧
    (s.dropRecord n).movers = s.movers ∧ (s.dropRecord n).loads = s.loads ∧ (s.dropRecord n).placing = s.placing ∧
    (s.dropRecord n).kvs = s.kvs ∧ (s.dropRecord n).out = s.out ∧ (s.dropRecord n).freeCtr = s.freeCtr ∧
    (s.dropRecord n).pending = s.pending := by
  unfold State.dropRecord
  repeat' apply And.intro
  all_goals (dsimp only; (repeat' split) <;> simp)

/-- A record queued: the rest of the state stands. -/
@[simp] theorem enqueue_keeps (s : State) (n : Nat) (r : Record) :
    (s.enqueue n r).time = s.time ∧ (s.enqueue n r).tick = s.tick ∧ (s.enqueue n r).clk = s.clk ∧
    (s.enqueue n r).pwr = s.pwr ∧ (s.enqueue n r).jtag = s.jtag ∧ (s.enqueue n r).boot = s.boot ∧
    (s.enqueue n r).flash = s.flash ∧ (s.enqueue n r).cc = s.cc ∧ (s.enqueue n r).shadow = s.shadow ∧
    (s.enqueue n r).active = s.active ∧ (s.enqueue n r).regs = s.regs ∧ (s.enqueue n r).snaps = s.snaps ∧
    (s.enqueue n r).mem = s.mem ∧ (s.enqueue n r).beads = s.beads ∧ (s.enqueue n r).ctl = s.ctl ∧
    (s.enqueue n r).ecc = s.ecc ∧
    (s.enqueue n r).dir = s.dir ∧ (s.enqueue n r).txn = s.txn ∧ (s.enqueue n r).ten = s.ten ∧
    (s.enqueue n r).mgr = s.mgr ∧ (s.enqueue n r).rtr = s.rtr ∧ (s.enqueue n r).ports = s.ports ∧
    (s.enqueue n r).qos = s.qos ∧ (s.enqueue n r).rods = s.rods ∧ (s.enqueue n r).frames = s.frames ∧
    (s.enqueue n r).streams = s.streams ∧ (s.enqueue n r).jobs = s.jobs ∧ (s.enqueue n r).fns = s.fns ∧
    (s.enqueue n r).movers = s.movers ∧ (s.enqueue n r).loads = s.loads ∧ (s.enqueue n r).placing = s.placing ∧
    (s.enqueue n r).kvs = s.kvs ∧ (s.enqueue n r).out = s.out ∧ (s.enqueue n r).freeCtr = s.freeCtr ∧
    (s.enqueue n r).pending = s.pending := by
  unfold State.enqueue
  repeat' apply And.intro
  all_goals (dsimp only; (repeat' split) <;> simp)

/-- A PAGE_EVENT bit raised: the rest of the state stands. -/
@[simp] theorem raise_keeps (s : State) (k : PageKind) (i b : Nat) :
    (s.raise k i b).time = s.time ∧ (s.raise k i b).tick = s.tick ∧ (s.raise k i b).clk = s.clk ∧
    (s.raise k i b).pwr = s.pwr ∧ (s.raise k i b).jtag = s.jtag ∧ (s.raise k i b).boot = s.boot ∧
    (s.raise k i b).flash = s.flash ∧ (s.raise k i b).cc = s.cc ∧ (s.raise k i b).shadow = s.shadow ∧
    (s.raise k i b).active = s.active ∧ (s.raise k i b).snaps = s.snaps ∧ (s.raise k i b).mem = s.mem ∧
    (s.raise k i b).beads = s.beads ∧
    (s.raise k i b).ctl = s.ctl ∧ (s.raise k i b).ecc = s.ecc ∧ (s.raise k i b).dir = s.dir ∧
    (s.raise k i b).txn = s.txn ∧ (s.raise k i b).ten = s.ten ∧ (s.raise k i b).mgr = s.mgr ∧
    (s.raise k i b).rtr = s.rtr ∧ (s.raise k i b).ports = s.ports ∧ (s.raise k i b).qos = s.qos ∧
    (s.raise k i b).rods = s.rods ∧ (s.raise k i b).frames = s.frames ∧ (s.raise k i b).streams = s.streams ∧
    (s.raise k i b).jobs = s.jobs ∧ (s.raise k i b).fns = s.fns ∧ (s.raise k i b).movers = s.movers ∧
    (s.raise k i b).loads = s.loads ∧ (s.raise k i b).placing = s.placing ∧ (s.raise k i b).kvs = s.kvs ∧
    (s.raise k i b).out = s.out ∧ (s.raise k i b).freeCtr = s.freeCtr ∧ (s.raise k i b).pending = s.pending := by
  unfold State.raise
  repeat' apply And.intro
  all_goals (dsimp only; (repeat' split) <;> simp)

/-- A record posted: the rest of the state stands. -/
@[simp] theorem post_keeps (s : State) (n : Nat) (r : Record) :
    (s.post n r).time = s.time ∧ (s.post n r).tick = s.tick ∧ (s.post n r).clk = s.clk ∧ (s.post n r).pwr = s.pwr ∧
    (s.post n r).jtag = s.jtag ∧ (s.post n r).boot = s.boot ∧ (s.post n r).flash = s.flash ∧ (s.post n r).cc = s.cc ∧
    (s.post n r).shadow = s.shadow ∧ (s.post n r).active = s.active ∧ (s.post n r).snaps = s.snaps ∧
    (s.post n r).mem = s.mem ∧ (s.post n r).beads = s.beads ∧ (s.post n r).ctl = s.ctl ∧ (s.post n r).ecc = s.ecc ∧
    (s.post n r).dir = s.dir ∧
    (s.post n r).txn = s.txn ∧ (s.post n r).ten = s.ten ∧ (s.post n r).mgr = s.mgr ∧ (s.post n r).rtr = s.rtr ∧
    (s.post n r).ports = s.ports ∧ (s.post n r).qos = s.qos ∧ (s.post n r).rods = s.rods ∧
    (s.post n r).frames = s.frames ∧ (s.post n r).streams = s.streams ∧ (s.post n r).jobs = s.jobs ∧
    (s.post n r).fns = s.fns ∧ (s.post n r).movers = s.movers ∧ (s.post n r).loads = s.loads ∧
    (s.post n r).placing = s.placing ∧ (s.post n r).kvs = s.kvs ∧ (s.post n r).out = s.out ∧
    (s.post n r).freeCtr = s.freeCtr ∧ (s.post n r).pending = s.pending := by
  unfold State.post
  repeat' apply And.intro
  all_goals (dsimp only; (repeat' split) <;> simp)

/-- A record posted to the manager ring: the rest of the state stands. -/
@[simp] theorem postMgr_keeps (s : State) (r : Record) :
    (s.postMgr r).time = s.time ∧ (s.postMgr r).tick = s.tick ∧ (s.postMgr r).clk = s.clk ∧
    (s.postMgr r).pwr = s.pwr ∧ (s.postMgr r).jtag = s.jtag ∧ (s.postMgr r).boot = s.boot ∧
    (s.postMgr r).flash = s.flash ∧ (s.postMgr r).cc = s.cc ∧ (s.postMgr r).shadow = s.shadow ∧
    (s.postMgr r).active = s.active ∧ (s.postMgr r).snaps = s.snaps ∧ (s.postMgr r).mem = s.mem ∧
    (s.postMgr r).beads = s.beads ∧
    (s.postMgr r).ctl = s.ctl ∧ (s.postMgr r).ecc = s.ecc ∧ (s.postMgr r).dir = s.dir ∧ (s.postMgr r).txn = s.txn ∧
    (s.postMgr r).ten = s.ten ∧ (s.postMgr r).mgr = s.mgr ∧ (s.postMgr r).rtr = s.rtr ∧
    (s.postMgr r).ports = s.ports ∧ (s.postMgr r).qos = s.qos ∧ (s.postMgr r).rods = s.rods ∧
    (s.postMgr r).frames = s.frames ∧ (s.postMgr r).streams = s.streams ∧ (s.postMgr r).jobs = s.jobs ∧
    (s.postMgr r).fns = s.fns ∧ (s.postMgr r).movers = s.movers ∧ (s.postMgr r).loads = s.loads ∧
    (s.postMgr r).placing = s.placing ∧ (s.postMgr r).kvs = s.kvs ∧ (s.postMgr r).out = s.out ∧
    (s.postMgr r).freeCtr = s.freeCtr ∧ (s.postMgr r).pending = s.pending := by
  simp [State.postMgr]

/-- A record posted to a context ring: the rest of the state stands. -/
@[simp] theorem postCtx_keeps (s : State) (c : Nat) (r : Record) :
    (s.postCtx c r).time = s.time ∧ (s.postCtx c r).tick = s.tick ∧ (s.postCtx c r).clk = s.clk ∧
    (s.postCtx c r).pwr = s.pwr ∧ (s.postCtx c r).jtag = s.jtag ∧ (s.postCtx c r).boot = s.boot ∧
    (s.postCtx c r).flash = s.flash ∧ (s.postCtx c r).cc = s.cc ∧ (s.postCtx c r).shadow = s.shadow ∧
    (s.postCtx c r).active = s.active ∧ (s.postCtx c r).snaps = s.snaps ∧ (s.postCtx c r).mem = s.mem ∧
    (s.postCtx c r).beads = s.beads ∧
    (s.postCtx c r).ctl = s.ctl ∧ (s.postCtx c r).ecc = s.ecc ∧ (s.postCtx c r).dir = s.dir ∧
    (s.postCtx c r).txn = s.txn ∧ (s.postCtx c r).ten = s.ten ∧ (s.postCtx c r).mgr = s.mgr ∧
    (s.postCtx c r).rtr = s.rtr ∧ (s.postCtx c r).ports = s.ports ∧ (s.postCtx c r).qos = s.qos ∧
    (s.postCtx c r).rods = s.rods ∧ (s.postCtx c r).frames = s.frames ∧ (s.postCtx c r).streams = s.streams ∧
    (s.postCtx c r).jobs = s.jobs ∧ (s.postCtx c r).fns = s.fns ∧ (s.postCtx c r).movers = s.movers ∧
    (s.postCtx c r).loads = s.loads ∧ (s.postCtx c r).placing = s.placing ∧ (s.postCtx c r).kvs = s.kvs ∧
    (s.postCtx c r).out = s.out ∧ (s.postCtx c r).freeCtr = s.freeCtr ∧ (s.postCtx c r).pending = s.pending := by
  simp [State.postCtx]

/-- A port set: the rest of the state stands. -/
@[simp] theorem setPort_keeps (s : State) (p : Nat) (v : Port) :
    (s.setPort p v).time = s.time ∧ (s.setPort p v).tick = s.tick ∧ (s.setPort p v).clk = s.clk ∧
    (s.setPort p v).pwr = s.pwr ∧ (s.setPort p v).jtag = s.jtag ∧ (s.setPort p v).boot = s.boot ∧
    (s.setPort p v).flash = s.flash ∧ (s.setPort p v).cc = s.cc ∧ (s.setPort p v).shadow = s.shadow ∧
    (s.setPort p v).active = s.active ∧ (s.setPort p v).regs = s.regs ∧ (s.setPort p v).snaps = s.snaps ∧
    (s.setPort p v).mem = s.mem ∧ (s.setPort p v).beads = s.beads ∧ (s.setPort p v).xlt = s.xlt ∧
    (s.setPort p v).ctl = s.ctl ∧ (s.setPort p v).ecc = s.ecc ∧ (s.setPort p v).dir = s.dir ∧
    (s.setPort p v).txn = s.txn ∧ (s.setPort p v).ten = s.ten ∧ (s.setPort p v).mgr = s.mgr ∧
    (s.setPort p v).rtr = s.rtr ∧ (s.setPort p v).qos = s.qos ∧ (s.setPort p v).rods = s.rods ∧
    (s.setPort p v).frames = s.frames ∧ (s.setPort p v).streams = s.streams ∧ (s.setPort p v).jobs = s.jobs ∧
    (s.setPort p v).fns = s.fns ∧ (s.setPort p v).movers = s.movers ∧ (s.setPort p v).loads = s.loads ∧
    (s.setPort p v).placing = s.placing ∧ (s.setPort p v).kvs = s.kvs ∧ (s.setPort p v).tly = s.tly ∧
    (s.setPort p v).out = s.out ∧ (s.setPort p v).freeCtr = s.freeCtr ∧ (s.setPort p v).pending = s.pending := by
  repeat' apply And.intro
  all_goals rfl

/-- An egress queue set: the rest of the state stands. -/
@[simp] theorem setQueue_keeps (s : State) (p q : Nat) (l : List Queued) :
    (s.setQueue p q l).time = s.time ∧ (s.setQueue p q l).tick = s.tick ∧ (s.setQueue p q l).clk = s.clk ∧
    (s.setQueue p q l).pwr = s.pwr ∧ (s.setQueue p q l).jtag = s.jtag ∧ (s.setQueue p q l).boot = s.boot ∧
    (s.setQueue p q l).flash = s.flash ∧ (s.setQueue p q l).cc = s.cc ∧ (s.setQueue p q l).shadow = s.shadow ∧
    (s.setQueue p q l).active = s.active ∧ (s.setQueue p q l).regs = s.regs ∧ (s.setQueue p q l).snaps = s.snaps ∧
    (s.setQueue p q l).mem = s.mem ∧ (s.setQueue p q l).beads = s.beads ∧ (s.setQueue p q l).xlt = s.xlt ∧
    (s.setQueue p q l).ctl = s.ctl ∧ (s.setQueue p q l).ecc = s.ecc ∧ (s.setQueue p q l).dir = s.dir ∧
    (s.setQueue p q l).txn = s.txn ∧ (s.setQueue p q l).ten = s.ten ∧ (s.setQueue p q l).mgr = s.mgr ∧
    (s.setQueue p q l).ports = s.ports ∧ (s.setQueue p q l).qos = s.qos ∧ (s.setQueue p q l).rods = s.rods ∧
    (s.setQueue p q l).frames = s.frames ∧ (s.setQueue p q l).streams = s.streams ∧ (s.setQueue p q l).jobs = s.jobs ∧
    (s.setQueue p q l).fns = s.fns ∧ (s.setQueue p q l).movers = s.movers ∧ (s.setQueue p q l).loads = s.loads ∧
    (s.setQueue p q l).placing = s.placing ∧ (s.setQueue p q l).kvs = s.kvs ∧ (s.setQueue p q l).tly = s.tly ∧
    (s.setQueue p q l).out = s.out ∧ (s.setQueue p q l).freeCtr = s.freeCtr ∧
    (s.setQueue p q l).pending = s.pending := by
  repeat' apply And.intro
  all_goals rfl

/-- A key slot set: the rest of the state stands. -/
@[simp] theorem setKey_keeps (s : State) (n : Nat) (k : KeySlot) :
    (s.setKey n k).time = s.time ∧ (s.setKey n k).tick = s.tick ∧ (s.setKey n k).clk = s.clk ∧
    (s.setKey n k).pwr = s.pwr ∧ (s.setKey n k).jtag = s.jtag ∧ (s.setKey n k).boot = s.boot ∧
    (s.setKey n k).flash = s.flash ∧ (s.setKey n k).cc = s.cc ∧ (s.setKey n k).shadow = s.shadow ∧
    (s.setKey n k).active = s.active ∧ (s.setKey n k).regs = s.regs ∧ (s.setKey n k).snaps = s.snaps ∧
    (s.setKey n k).mem = s.mem ∧ (s.setKey n k).beads = s.beads ∧ (s.setKey n k).xlt = s.xlt ∧
    (s.setKey n k).ctl = s.ctl ∧ (s.setKey n k).ecc = s.ecc ∧ (s.setKey n k).dir = s.dir ∧
    (s.setKey n k).txn = s.txn ∧ (s.setKey n k).mgr = s.mgr ∧ (s.setKey n k).rtr = s.rtr ∧
    (s.setKey n k).ports = s.ports ∧ (s.setKey n k).qos = s.qos ∧ (s.setKey n k).rods = s.rods ∧
    (s.setKey n k).frames = s.frames ∧ (s.setKey n k).streams = s.streams ∧ (s.setKey n k).jobs = s.jobs ∧
    (s.setKey n k).fns = s.fns ∧ (s.setKey n k).movers = s.movers ∧ (s.setKey n k).loads = s.loads ∧
    (s.setKey n k).placing = s.placing ∧ (s.setKey n k).kvs = s.kvs ∧ (s.setKey n k).tly = s.tly ∧
    (s.setKey n k).out = s.out ∧ (s.setKey n k).freeCtr = s.freeCtr ∧ (s.setKey n k).pending = s.pending := by
  repeat' apply And.intro
  all_goals rfl

/-- A context set: the rest of the state stands. -/
@[simp] theorem setCtx_keeps (s : State) (c : Nat) (v : Context) :
    (s.setCtx c v).time = s.time ∧ (s.setCtx c v).tick = s.tick ∧ (s.setCtx c v).clk = s.clk ∧
    (s.setCtx c v).pwr = s.pwr ∧ (s.setCtx c v).jtag = s.jtag ∧ (s.setCtx c v).boot = s.boot ∧
    (s.setCtx c v).flash = s.flash ∧ (s.setCtx c v).cc = s.cc ∧ (s.setCtx c v).shadow = s.shadow ∧
    (s.setCtx c v).active = s.active ∧ (s.setCtx c v).regs = s.regs ∧ (s.setCtx c v).snaps = s.snaps ∧
    (s.setCtx c v).mem = s.mem ∧ (s.setCtx c v).beads = s.beads ∧ (s.setCtx c v).xlt = s.xlt ∧
    (s.setCtx c v).ctl = s.ctl ∧ (s.setCtx c v).ecc = s.ecc ∧ (s.setCtx c v).dir = s.dir ∧
    (s.setCtx c v).txn = s.txn ∧ (s.setCtx c v).mgr = s.mgr ∧ (s.setCtx c v).rtr = s.rtr ∧
    (s.setCtx c v).ports = s.ports ∧ (s.setCtx c v).qos = s.qos ∧ (s.setCtx c v).rods = s.rods ∧
    (s.setCtx c v).frames = s.frames ∧ (s.setCtx c v).streams = s.streams ∧ (s.setCtx c v).jobs = s.jobs ∧
    (s.setCtx c v).fns = s.fns ∧ (s.setCtx c v).movers = s.movers ∧ (s.setCtx c v).loads = s.loads ∧
    (s.setCtx c v).placing = s.placing ∧ (s.setCtx c v).kvs = s.kvs ∧ (s.setCtx c v).tly = s.tly ∧
    (s.setCtx c v).out = s.out ∧ (s.setCtx c v).freeCtr = s.freeCtr ∧ (s.setCtx c v).pending = s.pending := by
  repeat' apply And.intro
  all_goals rfl

/-- An outbound slot set: the rest of the state stands. -/
@[simp] theorem setOut_keeps (s : State) (i : Nat) (o : OutSlot) :
    (s.setOut i o).time = s.time ∧ (s.setOut i o).tick = s.tick ∧ (s.setOut i o).clk = s.clk ∧
    (s.setOut i o).pwr = s.pwr ∧ (s.setOut i o).jtag = s.jtag ∧ (s.setOut i o).boot = s.boot ∧
    (s.setOut i o).flash = s.flash ∧ (s.setOut i o).cc = s.cc ∧ (s.setOut i o).shadow = s.shadow ∧
    (s.setOut i o).active = s.active ∧ (s.setOut i o).regs = s.regs ∧ (s.setOut i o).snaps = s.snaps ∧
    (s.setOut i o).mem = s.mem ∧ (s.setOut i o).beads = s.beads ∧ (s.setOut i o).xlt = s.xlt ∧
    (s.setOut i o).ctl = s.ctl ∧ (s.setOut i o).ecc = s.ecc ∧ (s.setOut i o).dir = s.dir ∧
    (s.setOut i o).ten = s.ten ∧ (s.setOut i o).mgr = s.mgr ∧ (s.setOut i o).rtr = s.rtr ∧
    (s.setOut i o).ports = s.ports ∧ (s.setOut i o).qos = s.qos ∧ (s.setOut i o).rods = s.rods ∧
    (s.setOut i o).frames = s.frames ∧ (s.setOut i o).streams = s.streams ∧ (s.setOut i o).jobs = s.jobs ∧
    (s.setOut i o).fns = s.fns ∧ (s.setOut i o).movers = s.movers ∧ (s.setOut i o).loads = s.loads ∧
    (s.setOut i o).placing = s.placing ∧ (s.setOut i o).kvs = s.kvs ∧ (s.setOut i o).tly = s.tly ∧
    (s.setOut i o).out = s.out ∧ (s.setOut i o).freeCtr = s.freeCtr ∧ (s.setOut i o).pending = s.pending := by
  repeat' apply And.intro
  all_goals rfl

/-- An inbound slot set: the rest of the state stands. -/
@[simp] theorem setSlot_keeps (s : State) (k : Nat) (v : InSlot) :
    (s.setSlot k v).time = s.time ∧ (s.setSlot k v).tick = s.tick ∧ (s.setSlot k v).clk = s.clk ∧
    (s.setSlot k v).pwr = s.pwr ∧ (s.setSlot k v).jtag = s.jtag ∧ (s.setSlot k v).boot = s.boot ∧
    (s.setSlot k v).flash = s.flash ∧ (s.setSlot k v).cc = s.cc ∧ (s.setSlot k v).shadow = s.shadow ∧
    (s.setSlot k v).active = s.active ∧ (s.setSlot k v).regs = s.regs ∧ (s.setSlot k v).snaps = s.snaps ∧
    (s.setSlot k v).mem = s.mem ∧ (s.setSlot k v).beads = s.beads ∧ (s.setSlot k v).xlt = s.xlt ∧
    (s.setSlot k v).ctl = s.ctl ∧ (s.setSlot k v).ecc = s.ecc ∧ (s.setSlot k v).dir = s.dir ∧
    (s.setSlot k v).ten = s.ten ∧ (s.setSlot k v).mgr = s.mgr ∧ (s.setSlot k v).rtr = s.rtr ∧
    (s.setSlot k v).ports = s.ports ∧ (s.setSlot k v).qos = s.qos ∧ (s.setSlot k v).rods = s.rods ∧
    (s.setSlot k v).frames = s.frames ∧ (s.setSlot k v).streams = s.streams ∧ (s.setSlot k v).jobs = s.jobs ∧
    (s.setSlot k v).fns = s.fns ∧ (s.setSlot k v).movers = s.movers ∧ (s.setSlot k v).loads = s.loads ∧
    (s.setSlot k v).placing = s.placing ∧ (s.setSlot k v).kvs = s.kvs ∧ (s.setSlot k v).tly = s.tly ∧
    (s.setSlot k v).out = s.out ∧ (s.setSlot k v).freeCtr = s.freeCtr ∧ (s.setSlot k v).pending = s.pending := by
  repeat' apply And.intro
  all_goals rfl

/-- A rod set: the rest of the state stands. -/
@[simp] theorem setRod_keeps (s : State) (i : Nat) (r : Rod) :
    (s.setRod i r).time = s.time ∧ (s.setRod i r).tick = s.tick ∧ (s.setRod i r).clk = s.clk ∧
    (s.setRod i r).pwr = s.pwr ∧ (s.setRod i r).jtag = s.jtag ∧ (s.setRod i r).boot = s.boot ∧
    (s.setRod i r).flash = s.flash ∧ (s.setRod i r).cc = s.cc ∧ (s.setRod i r).shadow = s.shadow ∧
    (s.setRod i r).active = s.active ∧ (s.setRod i r).regs = s.regs ∧ (s.setRod i r).snaps = s.snaps ∧
    (s.setRod i r).mem = s.mem ∧ (s.setRod i r).beads = s.beads ∧ (s.setRod i r).xlt = s.xlt ∧
    (s.setRod i r).ctl = s.ctl ∧ (s.setRod i r).ecc = s.ecc ∧ (s.setRod i r).dir = s.dir ∧
    (s.setRod i r).txn = s.txn ∧ (s.setRod i r).ten = s.ten ∧ (s.setRod i r).mgr = s.mgr ∧
    (s.setRod i r).rtr = s.rtr ∧ (s.setRod i r).ports = s.ports ∧ (s.setRod i r).qos = s.qos ∧
    (s.setRod i r).frames = s.frames ∧ (s.setRod i r).streams = s.streams ∧ (s.setRod i r).jobs = s.jobs ∧
    (s.setRod i r).fns = s.fns ∧ (s.setRod i r).movers = s.movers ∧ (s.setRod i r).loads = s.loads ∧
    (s.setRod i r).placing = s.placing ∧ (s.setRod i r).kvs = s.kvs ∧ (s.setRod i r).tly = s.tly ∧
    (s.setRod i r).out = s.out ∧ (s.setRod i r).freeCtr = s.freeCtr ∧ (s.setRod i r).pending = s.pending := by
  repeat' apply And.intro
  all_goals rfl

/-- A frame set: the rest of the state stands. -/
@[simp] theorem setFrame_keeps (s : State) (f : Nat) (v : Frame) :
    (s.setFrame f v).time = s.time ∧ (s.setFrame f v).tick = s.tick ∧ (s.setFrame f v).clk = s.clk ∧
    (s.setFrame f v).pwr = s.pwr ∧ (s.setFrame f v).jtag = s.jtag ∧ (s.setFrame f v).boot = s.boot ∧
    (s.setFrame f v).flash = s.flash ∧ (s.setFrame f v).cc = s.cc ∧ (s.setFrame f v).shadow = s.shadow ∧
    (s.setFrame f v).active = s.active ∧ (s.setFrame f v).regs = s.regs ∧ (s.setFrame f v).snaps = s.snaps ∧
    (s.setFrame f v).mem = s.mem ∧ (s.setFrame f v).beads = s.beads ∧ (s.setFrame f v).xlt = s.xlt ∧
    (s.setFrame f v).ctl = s.ctl ∧ (s.setFrame f v).ecc = s.ecc ∧ (s.setFrame f v).dir = s.dir ∧
    (s.setFrame f v).txn = s.txn ∧ (s.setFrame f v).ten = s.ten ∧ (s.setFrame f v).mgr = s.mgr ∧
    (s.setFrame f v).rtr = s.rtr ∧ (s.setFrame f v).ports = s.ports ∧ (s.setFrame f v).qos = s.qos ∧
    (s.setFrame f v).rods = s.rods ∧ (s.setFrame f v).streams = s.streams ∧ (s.setFrame f v).jobs = s.jobs ∧
    (s.setFrame f v).fns = s.fns ∧ (s.setFrame f v).movers = s.movers ∧ (s.setFrame f v).loads = s.loads ∧
    (s.setFrame f v).placing = s.placing ∧ (s.setFrame f v).kvs = s.kvs ∧ (s.setFrame f v).tly = s.tly ∧
    (s.setFrame f v).out = s.out ∧ (s.setFrame f v).freeCtr = s.freeCtr ∧ (s.setFrame f v).pending = s.pending := by
  repeat' apply And.intro
  all_goals rfl

/-- A job set: the rest of the state stands. -/
@[simp] theorem setJob_keeps (s : State) (j : Nat) (v : Job) :
    (s.setJob j v).time = s.time ∧ (s.setJob j v).tick = s.tick ∧ (s.setJob j v).clk = s.clk ∧
    (s.setJob j v).pwr = s.pwr ∧ (s.setJob j v).jtag = s.jtag ∧ (s.setJob j v).boot = s.boot ∧
    (s.setJob j v).flash = s.flash ∧ (s.setJob j v).cc = s.cc ∧ (s.setJob j v).shadow = s.shadow ∧
    (s.setJob j v).active = s.active ∧ (s.setJob j v).regs = s.regs ∧ (s.setJob j v).snaps = s.snaps ∧
    (s.setJob j v).mem = s.mem ∧ (s.setJob j v).beads = s.beads ∧ (s.setJob j v).xlt = s.xlt ∧
    (s.setJob j v).ctl = s.ctl ∧ (s.setJob j v).ecc = s.ecc ∧ (s.setJob j v).dir = s.dir ∧
    (s.setJob j v).txn = s.txn ∧ (s.setJob j v).ten = s.ten ∧ (s.setJob j v).mgr = s.mgr ∧
    (s.setJob j v).rtr = s.rtr ∧ (s.setJob j v).ports = s.ports ∧ (s.setJob j v).qos = s.qos ∧
    (s.setJob j v).rods = s.rods ∧ (s.setJob j v).frames = s.frames ∧ (s.setJob j v).streams = s.streams ∧
    (s.setJob j v).fns = s.fns ∧ (s.setJob j v).movers = s.movers ∧ (s.setJob j v).loads = s.loads ∧
    (s.setJob j v).placing = s.placing ∧ (s.setJob j v).kvs = s.kvs ∧ (s.setJob j v).tly = s.tly ∧
    (s.setJob j v).out = s.out ∧ (s.setJob j v).freeCtr = s.freeCtr ∧ (s.setJob j v).pending = s.pending := by
  repeat' apply And.intro
  all_goals rfl

/-- A function set: the rest of the state stands. -/
@[simp] theorem setFn_keeps (s : State) (n : Nat) (v : Fn) :
    (s.setFn n v).time = s.time ∧ (s.setFn n v).tick = s.tick ∧ (s.setFn n v).clk = s.clk ∧
    (s.setFn n v).pwr = s.pwr ∧ (s.setFn n v).jtag = s.jtag ∧ (s.setFn n v).boot = s.boot ∧
    (s.setFn n v).flash = s.flash ∧ (s.setFn n v).cc = s.cc ∧ (s.setFn n v).shadow = s.shadow ∧
    (s.setFn n v).active = s.active ∧ (s.setFn n v).regs = s.regs ∧ (s.setFn n v).snaps = s.snaps ∧
    (s.setFn n v).mem = s.mem ∧ (s.setFn n v).beads = s.beads ∧ (s.setFn n v).xlt = s.xlt ∧
    (s.setFn n v).ctl = s.ctl ∧ (s.setFn n v).ecc = s.ecc ∧ (s.setFn n v).dir = s.dir ∧ (s.setFn n v).txn = s.txn ∧
    (s.setFn n v).ten = s.ten ∧ (s.setFn n v).mgr = s.mgr ∧ (s.setFn n v).rtr = s.rtr ∧
    (s.setFn n v).ports = s.ports ∧ (s.setFn n v).qos = s.qos ∧ (s.setFn n v).rods = s.rods ∧
    (s.setFn n v).frames = s.frames ∧ (s.setFn n v).streams = s.streams ∧ (s.setFn n v).jobs = s.jobs ∧
    (s.setFn n v).movers = s.movers ∧ (s.setFn n v).loads = s.loads ∧ (s.setFn n v).placing = s.placing ∧
    (s.setFn n v).kvs = s.kvs ∧ (s.setFn n v).tly = s.tly ∧ (s.setFn n v).out = s.out ∧
    (s.setFn n v).freeCtr = s.freeCtr ∧ (s.setFn n v).pending = s.pending := by
  repeat' apply And.intro
  all_goals rfl

/-- A mover set: the rest of the state stands. -/
@[simp] theorem setMover_keeps (s : State) (m : Nat) (v : Mover) :
    (s.setMover m v).time = s.time ∧ (s.setMover m v).tick = s.tick ∧ (s.setMover m v).clk = s.clk ∧
    (s.setMover m v).pwr = s.pwr ∧ (s.setMover m v).jtag = s.jtag ∧ (s.setMover m v).boot = s.boot ∧
    (s.setMover m v).flash = s.flash ∧ (s.setMover m v).cc = s.cc ∧ (s.setMover m v).shadow = s.shadow ∧
    (s.setMover m v).active = s.active ∧ (s.setMover m v).regs = s.regs ∧ (s.setMover m v).snaps = s.snaps ∧
    (s.setMover m v).mem = s.mem ∧ (s.setMover m v).beads = s.beads ∧ (s.setMover m v).xlt = s.xlt ∧
    (s.setMover m v).ctl = s.ctl ∧ (s.setMover m v).ecc = s.ecc ∧ (s.setMover m v).dir = s.dir ∧
    (s.setMover m v).txn = s.txn ∧ (s.setMover m v).ten = s.ten ∧ (s.setMover m v).mgr = s.mgr ∧
    (s.setMover m v).rtr = s.rtr ∧ (s.setMover m v).ports = s.ports ∧ (s.setMover m v).qos = s.qos ∧
    (s.setMover m v).rods = s.rods ∧ (s.setMover m v).frames = s.frames ∧ (s.setMover m v).streams = s.streams ∧
    (s.setMover m v).jobs = s.jobs ∧ (s.setMover m v).fns = s.fns ∧ (s.setMover m v).loads = s.loads ∧
    (s.setMover m v).placing = s.placing ∧ (s.setMover m v).kvs = s.kvs ∧ (s.setMover m v).tly = s.tly ∧
    (s.setMover m v).out = s.out ∧ (s.setMover m v).freeCtr = s.freeCtr ∧ (s.setMover m v).pending = s.pending := by
  repeat' apply And.intro
  all_goals rfl

/-- A session set: the rest of the state stands. -/
@[simp] theorem setSession_keeps (s : State) (i : Nat) (v : Session) :
    (s.setSession i v).time = s.time ∧ (s.setSession i v).tick = s.tick ∧ (s.setSession i v).clk = s.clk ∧
    (s.setSession i v).pwr = s.pwr ∧ (s.setSession i v).jtag = s.jtag ∧ (s.setSession i v).boot = s.boot ∧
    (s.setSession i v).flash = s.flash ∧ (s.setSession i v).cc = s.cc ∧ (s.setSession i v).shadow = s.shadow ∧
    (s.setSession i v).active = s.active ∧ (s.setSession i v).regs = s.regs ∧ (s.setSession i v).snaps = s.snaps ∧
    (s.setSession i v).mem = s.mem ∧ (s.setSession i v).beads = s.beads ∧ (s.setSession i v).xlt = s.xlt ∧
    (s.setSession i v).ctl = s.ctl ∧ (s.setSession i v).ecc = s.ecc ∧ (s.setSession i v).dir = s.dir ∧
    (s.setSession i v).txn = s.txn ∧ (s.setSession i v).ten = s.ten ∧ (s.setSession i v).mgr = s.mgr ∧
    (s.setSession i v).rtr = s.rtr ∧ (s.setSession i v).ports = s.ports ∧ (s.setSession i v).qos = s.qos ∧
    (s.setSession i v).rods = s.rods ∧ (s.setSession i v).frames = s.frames ∧ (s.setSession i v).streams = s.streams ∧
    (s.setSession i v).jobs = s.jobs ∧ (s.setSession i v).fns = s.fns ∧ (s.setSession i v).movers = s.movers ∧
    (s.setSession i v).loads = s.loads ∧ (s.setSession i v).placing = s.placing ∧ (s.setSession i v).tly = s.tly ∧
    (s.setSession i v).out = s.out ∧ (s.setSession i v).freeCtr = s.freeCtr ∧
    (s.setSession i v).pending = s.pending := by
  repeat' apply And.intro
  all_goals rfl

/-- A memory controller set: the rest of the state stands. -/
@[simp] theorem setCtl_keeps (s : State) (c : Nat) (v : Ctl) :
    (s.setCtl c v).time = s.time ∧ (s.setCtl c v).tick = s.tick ∧ (s.setCtl c v).clk = s.clk ∧
    (s.setCtl c v).pwr = s.pwr ∧ (s.setCtl c v).jtag = s.jtag ∧ (s.setCtl c v).boot = s.boot ∧
    (s.setCtl c v).flash = s.flash ∧ (s.setCtl c v).cc = s.cc ∧ (s.setCtl c v).shadow = s.shadow ∧
    (s.setCtl c v).active = s.active ∧ (s.setCtl c v).regs = s.regs ∧ (s.setCtl c v).snaps = s.snaps ∧
    (s.setCtl c v).mem = s.mem ∧ (s.setCtl c v).beads = s.beads ∧ (s.setCtl c v).xlt = s.xlt ∧
    (s.setCtl c v).ecc = s.ecc ∧ (s.setCtl c v).dir = s.dir ∧ (s.setCtl c v).txn = s.txn ∧
    (s.setCtl c v).ten = s.ten ∧ (s.setCtl c v).mgr = s.mgr ∧ (s.setCtl c v).rtr = s.rtr ∧
    (s.setCtl c v).ports = s.ports ∧ (s.setCtl c v).qos = s.qos ∧ (s.setCtl c v).rods = s.rods ∧
    (s.setCtl c v).frames = s.frames ∧ (s.setCtl c v).streams = s.streams ∧ (s.setCtl c v).jobs = s.jobs ∧
    (s.setCtl c v).fns = s.fns ∧ (s.setCtl c v).movers = s.movers ∧ (s.setCtl c v).loads = s.loads ∧
    (s.setCtl c v).placing = s.placing ∧ (s.setCtl c v).kvs = s.kvs ∧ (s.setCtl c v).tly = s.tly ∧
    (s.setCtl c v).out = s.out ∧ (s.setCtl c v).freeCtr = s.freeCtr ∧ (s.setCtl c v).pending = s.pending := by
  repeat' apply And.intro
  all_goals rfl

/-- A directory slice set: the rest of the state stands. -/
@[simp] theorem setSlice_keeps (s : State) (d : Nat) (v : Slice) :
    (s.setSlice d v).time = s.time ∧ (s.setSlice d v).tick = s.tick ∧ (s.setSlice d v).clk = s.clk ∧
    (s.setSlice d v).pwr = s.pwr ∧ (s.setSlice d v).jtag = s.jtag ∧ (s.setSlice d v).boot = s.boot ∧
    (s.setSlice d v).flash = s.flash ∧ (s.setSlice d v).cc = s.cc ∧ (s.setSlice d v).shadow = s.shadow ∧
    (s.setSlice d v).active = s.active ∧ (s.setSlice d v).regs = s.regs ∧ (s.setSlice d v).snaps = s.snaps ∧
    (s.setSlice d v).mem = s.mem ∧ (s.setSlice d v).beads = s.beads ∧ (s.setSlice d v).xlt = s.xlt ∧
    (s.setSlice d v).ctl = s.ctl ∧ (s.setSlice d v).ecc = s.ecc ∧ (s.setSlice d v).txn = s.txn ∧
    (s.setSlice d v).ten = s.ten ∧ (s.setSlice d v).mgr = s.mgr ∧ (s.setSlice d v).rtr = s.rtr ∧
    (s.setSlice d v).ports = s.ports ∧ (s.setSlice d v).qos = s.qos ∧ (s.setSlice d v).rods = s.rods ∧
    (s.setSlice d v).frames = s.frames ∧ (s.setSlice d v).streams = s.streams ∧ (s.setSlice d v).jobs = s.jobs ∧
    (s.setSlice d v).fns = s.fns ∧ (s.setSlice d v).movers = s.movers ∧ (s.setSlice d v).loads = s.loads ∧
    (s.setSlice d v).placing = s.placing ∧ (s.setSlice d v).kvs = s.kvs ∧ (s.setSlice d v).tly = s.tly ∧
    (s.setSlice d v).out = s.out ∧ (s.setSlice d v).freeCtr = s.freeCtr ∧ (s.setSlice d v).pending = s.pending := by
  repeat' apply And.intro
  all_goals rfl

/-- An issuer slot set: the rest of the state stands. -/
@[simp] theorem setIssuer_keeps (s : State) (n : Nat) (v : Issuer) :
    (s.setIssuer n v).time = s.time ∧ (s.setIssuer n v).tick = s.tick ∧ (s.setIssuer n v).clk = s.clk ∧
    (s.setIssuer n v).pwr = s.pwr ∧ (s.setIssuer n v).jtag = s.jtag ∧ (s.setIssuer n v).boot = s.boot ∧
    (s.setIssuer n v).flash = s.flash ∧ (s.setIssuer n v).shadow = s.shadow ∧ (s.setIssuer n v).active = s.active ∧
    (s.setIssuer n v).regs = s.regs ∧ (s.setIssuer n v).snaps = s.snaps ∧ (s.setIssuer n v).mem = s.mem ∧
    (s.setIssuer n v).beads = s.beads ∧ (s.setIssuer n v).xlt = s.xlt ∧ (s.setIssuer n v).ctl = s.ctl ∧
    (s.setIssuer n v).ecc = s.ecc ∧ (s.setIssuer n v).dir = s.dir ∧ (s.setIssuer n v).txn = s.txn ∧
    (s.setIssuer n v).ten = s.ten ∧ (s.setIssuer n v).mgr = s.mgr ∧ (s.setIssuer n v).rtr = s.rtr ∧
    (s.setIssuer n v).ports = s.ports ∧ (s.setIssuer n v).qos = s.qos ∧ (s.setIssuer n v).rods = s.rods ∧
    (s.setIssuer n v).frames = s.frames ∧ (s.setIssuer n v).streams = s.streams ∧ (s.setIssuer n v).jobs = s.jobs ∧
    (s.setIssuer n v).fns = s.fns ∧ (s.setIssuer n v).movers = s.movers ∧ (s.setIssuer n v).loads = s.loads ∧
    (s.setIssuer n v).placing = s.placing ∧ (s.setIssuer n v).kvs = s.kvs ∧ (s.setIssuer n v).tly = s.tly ∧
    (s.setIssuer n v).out = s.out ∧ (s.setIssuer n v).freeCtr = s.freeCtr ∧
    (s.setIssuer n v).pending = s.pending := by
  repeat' apply And.intro
  all_goals rfl

/-- PWR_CAUSE bits set: the rest of the state stands. -/
@[simp] theorem cause_keeps (s : State) (n : Nat) :
    (s.cause n).time = s.time ∧ (s.cause n).tick = s.tick ∧ (s.cause n).clk = s.clk ∧ (s.cause n).pwr = s.pwr ∧
    (s.cause n).jtag = s.jtag ∧ (s.cause n).boot = s.boot ∧ (s.cause n).flash = s.flash ∧ (s.cause n).cc = s.cc ∧
    (s.cause n).shadow = s.shadow ∧ (s.cause n).active = s.active ∧ (s.cause n).snaps = s.snaps ∧
    (s.cause n).mem = s.mem ∧ (s.cause n).beads = s.beads ∧ (s.cause n).ctl = s.ctl ∧ (s.cause n).ecc = s.ecc ∧
    (s.cause n).dir = s.dir ∧
    (s.cause n).txn = s.txn ∧ (s.cause n).ten = s.ten ∧ (s.cause n).mgr = s.mgr ∧ (s.cause n).rtr = s.rtr ∧
    (s.cause n).ports = s.ports ∧ (s.cause n).qos = s.qos ∧ (s.cause n).rods = s.rods ∧
    (s.cause n).frames = s.frames ∧ (s.cause n).streams = s.streams ∧ (s.cause n).jobs = s.jobs ∧
    (s.cause n).fns = s.fns ∧ (s.cause n).movers = s.movers ∧ (s.cause n).loads = s.loads ∧
    (s.cause n).placing = s.placing ∧ (s.cause n).kvs = s.kvs ∧ (s.cause n).out = s.out ∧
    (s.cause n).freeCtr = s.freeCtr ∧ (s.cause n).pending = s.pending := by
  unfold State.cause
  split <;> simp

/-! What the updates do to the field they touch. -/

@[simp] theorem setReg_reg (s : State) (a b : Nat) (w : Word) : (s.setReg a w).reg b = if b = a then w else s.reg b := by
  unfold State.setReg State.reg
  by_cases h : w = regReset a <;> by_cases e : b = a <;> simp [h, e]

@[simp] theorem elapse_time (s : State) (n : Nat) : (s.elapse n).time = s.time + n := rfl

@[simp] theorem elapseTo_time (s : State) (t : Nat) : (s.elapseTo t).time = max s.time t := by
  unfold State.elapseTo
  split
  · rw [elapse_time]; omega
  · omega

@[simp] theorem emit_out (s : State) (o : Out) : (s.emit o).out = s.out ++ [o] := rfl

@[simp] theorem setPort_port (s : State) (p q : Nat) (v : Port) : (s.setPort p v).port q = if q = p then v else s.port q := by
  simp [State.port, State.setPort]

@[simp] theorem setRod_rod (s : State) (i j : Nat) (r : Rod) : (s.setRod i r).rod j = if j = i then r else s.rod j := by
  simp [State.rod, State.setRod]

@[simp] theorem setFrame_frame (s : State) (f g : Nat) (v : Frame) :
    (s.setFrame f v).frame g = if g = f then v else s.frame g := by
  simp [State.frame, State.setFrame]

@[simp] theorem setKey_keySlot (s : State) (n m : Nat) (k : KeySlot) :
    (s.setKey n k).keySlot m = if m = n then k else s.keySlot m := by
  simp [State.keySlot, State.setKey]

@[simp] theorem setExtent_extent (s : State) (i j : Nat) (e : Extent) :
    (s.setExtent i e).extent j = if j = i then e else s.extent j := by
  simp [State.extent, State.setExtent]

@[simp] theorem setRing_ring (s : State) (i j : Nat) (r : Ring) : (s.setRing i r).ring j = if j = i then r else s.ring j := by
  simp [State.ring, State.setRing]

@[simp] theorem setCtl_ctlAt (s : State) (c d : Nat) (v : Ctl) : (s.setCtl c v).ctlAt d = if d = c then v else s.ctlAt d := by
  simp [State.ctlAt, State.setCtl]

@[simp] theorem setSlice_slice (s : State) (d e : Nat) (v : Slice) :
    (s.setSlice d v).slice e = if e = d then v else s.slice e := by
  simp [State.slice, State.setSlice]

@[simp] theorem setOut_outSlot (s : State) (i j : Nat) (o : OutSlot) :
    (s.setOut i o).outSlot j = if j = i then o else s.outSlot j := by
  simp [State.outSlot, State.setOut]

@[simp] theorem setSlot_slot? (s : State) (k j : Nat) (v : InSlot) :
    (s.setSlot k v).slot? j = if j = k then some v else s.slot? j := by
  simp [State.slot?, State.setSlot]

@[simp] theorem setIssuer_issuer (s : State) (n m : Nat) (v : Issuer) :
    (s.setIssuer n v).issuer m = if m = n then v else s.issuer m := by
  simp [State.issuer, State.setIssuer]

@[simp] theorem setSession_session (s : State) (i j : Nat) (v : Session) :
    (s.setSession i v).session j = if j = i then v else s.session j := by
  simp [State.session, State.setSession]

@[simp] theorem setMover_mover (s : State) (m n : Nat) (v : Mover) : (s.setMover m v).mover n = if n = m then v else s.mover n := by
  simp [State.mover, State.setMover]

/-- A PAGE_EVENT bit raised leaves every register but the page's PAGE_EVENT. -/
theorem raise_reg (s : State) (k : PageKind) (i b a : Nat) (h : a ≠ pageBase k i + 8) : (s.raise k i b).reg a = s.reg a := by
  have hq : ∀ (u : State) (n : Nat) (r : Record), (u.enqueue n r).reg a = u.reg a := fun u n r => by
    simp [State.reg]
  unfold State.raise
  dsimp only
  split
  · rfl
  · split
    · simp [h]
    · rw [hq]; simp [h]

end Sys2Proof.Machine
end

