-- ==== Sys2Proof/Laws/Complete.lean ====
section
/-!
SUPPORT. What sending a completion leaves alone: every part of the state but the tracker, the router, the keys' counters, the
shapers, the records and the counts.
-/

namespace Sys2Proof.Machine

/-- The state without the parts that sending changes. -/
def State.still (s : State) : State :=
  { s with xlt := {}, regs := [], txn := {}, ten := {}, rtr := {}, qos := {}, kvs := {}, tly := {}, out := [] }

/-- Two states with the same still part agree in every field of it. -/
theorem State.still_fields {s t : State} (h : s.still = t.still) :
    s.time = t.time ∧ s.tick = t.tick ∧ s.clk = t.clk ∧ s.pwr = t.pwr ∧ s.jtag = t.jtag ∧ s.boot = t.boot ∧ s.flash = t.flash ∧
    s.cc = t.cc ∧ s.shadow = t.shadow ∧ s.active = t.active ∧ s.snaps = t.snaps ∧ s.mem = t.mem ∧ s.beads = t.beads ∧
    s.ctl = t.ctl ∧ s.ecc = t.ecc ∧ s.dir = t.dir ∧ s.mgr = t.mgr ∧ s.ports = t.ports ∧ s.rods = t.rods ∧ s.frames = t.frames ∧
    s.streams = t.streams ∧ s.jobs = t.jobs ∧ s.fns = t.fns ∧ s.movers = t.movers ∧ s.loads = t.loads ∧ s.placing = t.placing ∧
    s.freeCtr = t.freeCtr ∧ s.pending = t.pending := by
  repeat' apply And.intro
  · exact congrArg (·.time) h
  · exact congrArg (·.tick) h
  · exact congrArg (·.clk) h
  · exact congrArg (·.pwr) h
  · exact congrArg (·.jtag) h
  · exact congrArg (·.boot) h
  · exact congrArg (·.flash) h
  · exact congrArg (·.cc) h
  · exact congrArg (·.shadow) h
  · exact congrArg (·.active) h
  · exact congrArg (·.snaps) h
  · exact congrArg (·.mem) h
  · exact congrArg (·.beads) h
  · exact congrArg (·.ctl) h
  · exact congrArg (·.ecc) h
  · exact congrArg (·.dir) h
  · exact congrArg (·.mgr) h
  · exact congrArg (·.ports) h
  · exact congrArg (·.rods) h
  · exact congrArg (·.frames) h
  · exact congrArg (·.streams) h
  · exact congrArg (·.jobs) h
  · exact congrArg (·.fns) h
  · exact congrArg (·.movers) h
  · exact congrArg (·.loads) h
  · exact congrArg (·.placing) h
  · exact congrArg (·.freeCtr) h
  · exact congrArg (·.pending) h

@[simp] theorem still_setReg (s : State) (a : Nat) (w : Word) : (s.setReg a w).still = s.still := rfl
@[simp] theorem still_bump (s : State) (a n c : Nat) : (s.bump a n c).still = s.still := rfl
@[simp] theorem still_emit (s : State) (o : Out) : (s.emit o).still = s.still := rfl
@[simp] theorem still_setQueue (s : State) (p q : Nat) (l : List Queued) : (s.setQueue p q l).still = s.still := rfl
@[simp] theorem still_setBeam (s : State) (p v : Nat) (l : List (Nat × Queued)) : (s.setBeam p v l).still = s.still := rfl
@[simp] theorem still_enqueueAt (s : State) (p q : Nat) (x : Queued) : (s.enqueueAt p q x).still = s.still := rfl
@[simp] theorem still_setKey (s : State) (n : Nat) (k : KeySlot) : (s.setKey n k).still = s.still := rfl
@[simp] theorem still_setSlot (s : State) (k : Nat) (v : InSlot) : (s.setSlot k v).still = s.still := rfl
@[simp] theorem still_holdAtHost (s : State) (i : Nat) (h : HostRec) (k : Nat) (v : InSlot) (l : List Packet) :
    (s.holdAtHost i h k v l).still = s.still := rfl

@[simp] theorem still_tally (s : State) (k : PageKind) (i e q n : Nat) (c : Option Nat) : (s.tally k i e q n c).still = s.still := by
  unfold State.tally; (repeat' split) <;> rfl

@[simp] theorem still_postMgr (s : State) (r : Record) : (s.postMgr r).still = s.still := by
  simp [State.still]

@[simp] theorem still_postCtx (s : State) (c : Nat) (r : Record) : (s.postCtx c r).still = s.still := by
  simp [State.still]

@[simp] theorem still_raise (s : State) (k : PageKind) (i b : Nat) : (s.raise k i b).still = s.still := by
  simp [State.still]

@[simp] theorem still_toQueue (s : State) (p q : Nat) (x : Queued) : (s.toQueue p q x).still = s.still := by
  unfold State.toQueue; dsimp only; split <;> simp

@[simp] theorem still_inject (s : State) (p : Nat) (x : Queued) (b : Bool) : (s.inject p x b).still = s.still := by
  unfold State.inject; dsimp only; split
  · rfl
  · simp

@[simp] theorem still_routeDrop (s : State) (p : Packet) (h : Bool) (o : Option Nat) : (s.routeDrop p h o).still = s.still := by
  simp [State.routeDrop]

/-- A packet of a local unit sent leaves the still part alone. -/
@[simp] theorem still_send (s : State) (p : Packet) (c : Option Nat) (b : Bool) : (s.send p c b).1.still = s.still := by
  unfold State.send; dsimp only; (repeat' split) <;> simp

@[simp] theorem still_useCounter (s : State) (n : Nat) (d : Bool) : (s.useCounter n d).still = s.still := by
  unfold State.useCounter; dsimp only; (repeat' split) <;> simp

@[simp] theorem still_seal (s : State) (k : KeyRef) (d : Bool) (p : Packet) : (s.seal k d p).1.still = s.still := by
  unfold State.seal; dsimp only; (repeat' split) <;> first | rfl | simp

@[simp] theorem still_chargeHost (s : State) (e n : Nat) : (s.chargeHost e n).still = s.still := by
  unfold State.chargeHost; (repeat' split) <;> rfl

@[simp] theorem still_sendCompletion (s : State) (p : Packet) (k : KeyRef) (c : Option Nat) :
    (s.sendCompletion p k c).still = s.still := by
  simp [State.sendCompletion]

@[simp] theorem still_keepRecord (s : State) (v : InSlot) (st : Nat) (d : List Byte) : (s.keepRecord v st d).still = s.still := by
  unfold State.keepRecord; dsimp only; (repeat' split) <;> first | rfl | (simp; rfl)

@[simp] theorem still_freeSlot (s : State) (k : Nat) : (s.freeSlot k).still = s.still := by
  unfold State.freeSlot; (repeat' split) <;> rfl

theorem still_sendAll (l : List Packet) (k : KeyRef) (c : Option Nat) (s : State) :
    (l.foldl (fun s p => s.sendCompletion p k c) s).still = s.still := by
  induction l generalizing s with
  | nil => rfl
  | cons p t ih => simp [ih]

/-- A completion sent leaves the still part alone. -/
@[simp] theorem still_complete (s : State) (k st : Nat) (d : List Byte) : (s.complete k st d).still = s.still := by
  unfold State.complete; dsimp only; (repeat' split) <;> simp [still_sendAll]

/-- A completion sent changes none of these. -/
@[simp] theorem complete_keeps (s : State) (k st : Nat) (d : List Byte) :
    (s.complete k st d).time = s.time ∧ (s.complete k st d).tick = s.tick ∧ (s.complete k st d).clk = s.clk ∧
    (s.complete k st d).pwr = s.pwr ∧ (s.complete k st d).jtag = s.jtag ∧ (s.complete k st d).boot = s.boot ∧
    (s.complete k st d).flash = s.flash ∧ (s.complete k st d).cc = s.cc ∧ (s.complete k st d).shadow = s.shadow ∧
    (s.complete k st d).active = s.active ∧ (s.complete k st d).snaps = s.snaps ∧ (s.complete k st d).mem = s.mem ∧
    (s.complete k st d).beads = s.beads ∧ (s.complete k st d).ctl = s.ctl ∧ (s.complete k st d).ecc = s.ecc ∧
    (s.complete k st d).dir = s.dir ∧ (s.complete k st d).mgr = s.mgr ∧ (s.complete k st d).ports = s.ports ∧
    (s.complete k st d).rods = s.rods ∧ (s.complete k st d).frames = s.frames ∧ (s.complete k st d).streams = s.streams ∧
    (s.complete k st d).jobs = s.jobs ∧ (s.complete k st d).fns = s.fns ∧ (s.complete k st d).movers = s.movers ∧
    (s.complete k st d).loads = s.loads ∧ (s.complete k st d).placing = s.placing ∧ (s.complete k st d).freeCtr = s.freeCtr ∧
    (s.complete k st d).pending = s.pending :=
  State.still_fields (still_complete s k st d)

end Sys2Proof.Machine
end

