-- ==== Sys2Proof/Laws/Memory.lean ====
section
/-!
SUPPORT. Every operation on memory keeps its canonical form.
-/

namespace Sys2Proof.Machine

/-! ### Memory keeps its canonical form -/

theorem cellsFrom_le {lo lo' : Nat} {m : List Host.Cell} (h : cellsFrom lo m = true) (hl : lo' ≤ lo) : cellsFrom lo' m = true := by
  cases m with
  | nil => rfl
  | cons c t => simp only [cellsFrom, Bool.and_eq_true, decide_eq_true_eq] at *; exact ⟨⟨by omega, h.1.2⟩, h.2⟩

theorem cellDel_from {lo : Nat} {m : List Host.Cell} (a : Nat) (h : cellsFrom lo m = true) : cellsFrom lo (cellDel m a) = true := by
  induction m generalizing lo with
  | nil => rfl
  | cons c t ih =>
    simp only [cellsFrom, Bool.and_eq_true, decide_eq_true_eq] at h
    simp only [cellDel]
    split
    · exact cellsFrom_le (ih h.2) (by omega)
    · simp only [cellsFrom, Bool.and_eq_true, decide_eq_true_eq]; exact ⟨h.1, ih h.2⟩

theorem cellIns_from {lo : Nat} {m : List Host.Cell} {a : Nat} {b : Byte} (hb : b ≠ 0) (ha : lo ≤ a)
    (h : cellsFrom lo m = true) : cellsFrom lo (cellIns m a b) = true := by
  induction m generalizing lo with
  | nil => simp only [cellIns, cellsFrom, Bool.and_eq_true, decide_eq_true_eq]; exact ⟨⟨ha, hb⟩, trivial⟩
  | cons c t ih =>
    simp only [cellsFrom, Bool.and_eq_true, decide_eq_true_eq] at h
    simp only [cellIns]
    split
    · simp only [cellsFrom, Bool.and_eq_true, decide_eq_true_eq]
      exact ⟨⟨ha, hb⟩, ⟨by omega, h.1.2⟩, h.2⟩
    · split
      · rename_i h1
        simp only [cellsFrom, Bool.and_eq_true, decide_eq_true_eq]
        exact ⟨⟨ha, hb⟩, h1 ▸ h.2⟩
      · simp only [cellsFrom, Bool.and_eq_true, decide_eq_true_eq]
        exact ⟨h.1, ih (by omega) h.2⟩

/-- A byte written keeps the canonical form. -/
theorem Memory.wf_put {m : List Host.Cell} (a : Nat) (b : Byte) (h : Memory.wf m = true) : Memory.wf (cellPut m a b) = true := by
  unfold cellPut
  split
  · exact cellDel_from a h
  · rename_i hb; exact cellIns_from hb (Nat.zero_le _) h

/-- Bytes written keep the canonical form. -/
theorem Memory.wf_puts {m : List Host.Cell} (a : Nat) (b : List Byte) (h : Memory.wf m = true) :
    Memory.wf (cellPuts m a b) = true := by
  induction b generalizing m a with
  | nil => exact h
  | cons x t ih => exact ih _ (Memory.wf_put a x h)

theorem cellsFrom_filter {lo : Nat} {m : List Host.Cell} (p : Host.Cell → Bool) (h : cellsFrom lo m = true) :
    cellsFrom lo (m.filter p) = true := by
  induction m generalizing lo with
  | nil => rfl
  | cons c t ih =>
    simp only [cellsFrom, Bool.and_eq_true, decide_eq_true_eq] at h
    simp only [List.filter]
    split
    · simp only [cellsFrom, Bool.and_eq_true, decide_eq_true_eq]; exact ⟨h.1, ih h.2⟩
    · exact cellsFrom_le (ih h.2) (by omega)

/-- Cells taken out of memory leave the canonical form. -/
theorem Memory.wf_filter {m : List Host.Cell} (p : Host.Cell → Bool) (h : Memory.wf m = true) : Memory.wf (m.filter p) = true :=
  cellsFrom_filter p h

end Sys2Proof.Machine
end

