-- ==== Sys2Proof/Laws/Follows.lean ====
section
/-!
SUPPORT. What any operation of the machine can do to the parts that few operations touch, said once: `State.Follows a s`.
-/

namespace Sys2Proof.Machine

/-- Pins are driven from the boundary register only under an EXTEST instruction (R25). -/
def Jtag.ok (j : Jtag) : Prop := j.driven.isSome = true → 3 ≤ j.ir ∧ j.ir ≤ 5

/-- A fact on the way to another. -/
theorem and_of {p q : Prop} (hp : p) (hq : p → q) : q := hq hp

/-- The parts of a state, beside another state, that `State.Follows` speaks of. -/
def Side (a : State) (pending : List Instr) (out : List Out) (time fuse ctr : Nat) (mem : List Host.Cell) (jtag : Jtag)
    (hint : Nat) : Prop :=
  pending = a.pending ∧ a.out <+: out ∧ a.time ≤ time ∧ a.boot.fuseSvn ≤ fuse ∧ a.freeCtr ≤ ctr ∧
    (Memory.wf a.mem = true → Memory.wf mem = true) ∧ (a.jtag.ok → jtag.ok) ∧ hint = a.flash.hint

/-- `s` is reached from `a` by what the machine may do: the queue is `a`'s, what `a` has sent is still sent, time and the fuse
count have not run back, no free value is drawn again, memory and test port keep their forms, the flash header stands. -/
def State.Follows (a s : State) : Prop := Side a s.pending s.out s.time s.boot.fuseSvn s.freeCtr s.mem s.jtag s.flash.hint

theorem State.Follows.refl (s : State) : s.Follows s :=
  ⟨rfl, List.prefix_refl _, Nat.le_refl _, Nat.le_refl _, Nat.le_refl _, id, id, rfl⟩

theorem State.Follows.trans {a b c : State} (h : a.Follows b) (k : b.Follows c) : a.Follows c := by
  obtain ⟨h1, h2, h3, h4, h5, h6, h7, h8⟩ := h
  obtain ⟨k1, k2, k3, k4, k5, k6, k7, k8⟩ := k
  exact ⟨k1.trans h1, h2.trans k2, h3.trans k3, h4.trans k4, h5.trans k5, k6 ∘ h6, k7 ∘ h7, k8.trans h8⟩

theorem follows_mk {a : State} {x1 x2 x3 x4 x5 x6 x7 x8 x9 x10 x11 x12 x13 x14 x15 x16 x17 x18 x19 x20 x21 x22 x23
    x24 x25 x26 x27 x28 x29 x30 x31 x32 x33 x34 x35 x36 x37} (h : Side a x37 x35 x1 x6.fuseSvn x36 x13 x5 x7.hint) :
    a.Follows (State.mk x1 x2 x3 x4 x5 x6 x7 x8 x9 x10 x11 x12 x13 x14 x15 x16 x17 x18 x19 x20 x21 x22 x23
    x24 x25 x26 x27 x28 x29 x30 x31 x32 x33 x34 x35 x36 x37) := h

theorem side_of {a s : State} (h : a.Follows s) :
    Side a s.pending s.out s.time s.boot.fuseSvn s.freeCtr s.mem s.jtag s.flash.hint := h

/-- A choice between two states. -/
theorem follows_ite {a x y : State} {c : Prop} {_ : Decidable c} (hx : a.Follows x) (hy : a.Follows y) :
    a.Follows (if c then x else y) := by split <;> assumption

/-- A choice between two states, each beside a value. -/
theorem follows_ite_fst {α : Type} {a : State} {x y : State × α} {c : Prop} {_ : Decidable c} (hx : a.Follows x.1)
    (hy : a.Follows y.1) : a.Follows (if c then x else y).1 := by split <;> assumption

/-- A fold of operations over a list. -/
theorem follows_foldl {α : Type} {a : State} {g : State → α → State} {l : List α} {s : State} (h : a.Follows s)
    (hg : ∀ s x, a.Follows s → a.Follows (g s x)) : a.Follows (l.foldl g s) := by
  induction l generalizing s with
  | nil => exact h
  | cons x t ih => exact ih (hg s x h)

/-- The same with an accumulator whose first part is the state. -/
theorem follows_foldl_fst {α β : Type} {a : State} {g : State × β → α → State × β} {l : List α} {s : State × β}
    (h : a.Follows s.1) (hg : ∀ s x, a.Follows s.1 → a.Follows (g s x).1) : a.Follows (l.foldl g s).1 := by
  induction l generalizing s with
  | nil => exact h
  | cons x t ih => exact ih (hg s x h)

/-- An operation that may give no state: the state it gives follows `a`. -/
structure State.May (a : State) (o : Option State) : Prop where
  of : ∀ t, o = some t → a.Follows t

theorem may_none {a : State} : a.May none := ⟨fun _ h => nomatch h⟩

theorem may_some {a s : State} (h : a.Follows s) : a.May (some s) := ⟨fun _ e => Option.some.inj e ▸ h⟩

theorem may_ite {a : State} {x y : Option State} {c : Prop} {_ : Decidable c} (hx : a.May x) (hy : a.May y) :
    a.May (if c then x else y) := by split <;> assumption

theorem follows_of_may {a t : State} {o : Option State} (e : o = some t) (h : a.May o) : a.Follows t := h.of t e

theorem follows_of_fst {α : Type} {a s : State} {x : State × α} {y : α} (e : x = (s, y)) (h : a.Follows x.1) : a.Follows s := by
  subst e; exact h

theorem follows_of_snd {α : Type} {a s : State} {x : α × State} {y : α} (e : x = (y, s)) (h : a.Follows x.2) : a.Follows s := by
  subst e; exact h

/-- A choice between two states, each after a value. -/
theorem follows_ite_snd {α : Type} {a : State} {x y : α × State} {c : Prop} {_ : Decidable c} (hx : a.Follows x.2)
    (hy : a.Follows y.2) : a.Follows (if c then x else y).2 := by split <;> assumption

/-- A command's outcome: a next state that follows `a`. -/
def State.Goes (a : State) (o : Outcome) : Prop := ∃ t, o = .next t ∧ a.Follows t

theorem goes_next {a s : State} (h : a.Follows s) : a.Goes (.next s) := ⟨s, rfl, h⟩

theorem goes_ite {a : State} {x y : Outcome} {c : Prop} {_ : Decidable c} (hx : a.Goes x) (hy : a.Goes y) :
    a.Goes (if c then x else y) := by split <;> assumption

end Sys2Proof.Machine
end

