-- ==== Sys2Proof/Laws/KeepPages.lean ====
section
/-!
SUPPORT. What the operations of Machine/Pages.lean can do to the parts that `State.Follows` speaks of.
-/

namespace Sys2Proof.Machine

set_option linter.unusedTactic false
set_option linter.unreachableTactic false
set_option linter.tactic.unusedName false

theorem follows_setReg {b₀ s : State} (h : b₀.Follows s) (x1 : Nat) (w : Word) :
    b₀.Follows (State.setReg s x1 w) := by
  unfold State.setReg
  repeat' first
    | with_reducible (first
        | assumption | refine follows_ite ?_ ?_)
    | (intro _; try beta_reduce)
    | fail_if_no_progress (with_reducible refine follows_mk (side_of ?_))
    | with_reducible (first
        | refine follows_foldl ?_ ?_ | refine follows_ite_fst ?_ ?_ | refine follows_foldl_fst ?_ ?_)

theorem follows_bump {b₀ s : State} (h : b₀.Follows s) (x1 n cap : Nat) :
    b₀.Follows (State.bump s x1 n cap) := by
  unfold State.bump
  repeat' first
    | with_reducible (first
        | assumption | refine follows_ite ?_ ?_ | apply follows_setReg)
    | (intro _; try beta_reduce)

theorem follows_bumpHalf {b₀ s : State} (h : b₀.Follows s) (x1 hi lo : Nat) :
    b₀.Follows (State.bumpHalf s x1 hi lo) := by
  unfold State.bumpHalf
  repeat' first
    | with_reducible (first
        | assumption | refine follows_ite ?_ ?_ | apply follows_setReg)
    | (intro _; try beta_reduce)

theorem follows_setBoth {b₀ s : State} (h : b₀.Follows s) (x1 : Nat) (w : Word) :
    b₀.Follows (State.setBoth s x1 w) := by
  unfold State.setBoth
  repeat' first
    | with_reducible (first
        | assumption | refine follows_ite ?_ ?_)
    | (intro _; try beta_reduce)
    | fail_if_no_progress (with_reducible refine follows_mk (side_of ?_))
    | with_reducible (first
        | refine follows_foldl ?_ ?_ | refine follows_ite_fst ?_ ?_ | refine follows_foldl_fst ?_ ?_)

theorem follows_setBothField {b₀ s : State} (h : b₀.Follows s) (a hi lo v : Nat) :
    b₀.Follows (State.setBothField s a hi lo v) := by
  unfold State.setBothField
  exact follows_mk (side_of h)

theorem follows_free {b₀ s : State} (h : b₀.Follows s) :
    b₀.Follows (State.free s).2 := by
  obtain ⟨h1, h2, h3, h4, h5, h6, h7, h8⟩ := h
  exact ⟨h1, h2, h3, h4, Nat.le_succ_of_le h5, h6, h7, h8⟩

end Sys2Proof.Machine
end

