-- ==== Sys2Proof/Laws/KeepOps.lean ====
section
/-!
SUPPORT. What the operations of Machine/Ops.lean can do to the parts that `State.Follows` speaks of.
-/

namespace Sys2Proof.Machine

set_option linter.unusedTactic false
set_option linter.unreachableTactic false
set_option linter.tactic.unusedName false

theorem follows_onlyIf {b₀ s : State} {c : Bool} {f : State → State} (h : b₀.Follows s) (hf : b₀.Follows (f s)) :
    b₀.Goes (onlyIf c s f) := by
  unfold onlyIf
  cases c
  · exact goes_next h
  · exact goes_next hf

theorem follows_elapse {b₀ s : State} (h : b₀.Follows s) (n : Nat) :
    b₀.Follows (State.elapse s n) := by
  obtain ⟨h1, h2, h3, h4, h5, h6, h7, h8⟩ := h
  exact ⟨h1, h2, Nat.le_trans h3 (Nat.le_add_right _ _), h4, h5, h6, h7, h8⟩

theorem follows_elapseTo {b₀ s : State} (h : b₀.Follows s) (t : Nat) :
    b₀.Follows (State.elapseTo s t) := by
  unfold State.elapseTo
  repeat' first
    | with_reducible (first
        | assumption | refine follows_ite ?_ ?_ | apply follows_elapse)
    | (intro _; try beta_reduce)

theorem follows_elapseToTick {b₀ s : State} (h : b₀.Follows s) (tick : Nat) :
    b₀.Follows (State.elapseToTick s tick) := by
  unfold State.elapseToTick
  repeat' first
    | with_reducible (first
        | assumption | refine follows_ite ?_ ?_ | apply follows_elapse)
    | (intro _; try beta_reduce)

theorem follows_writeMem {b₀ s : State} (h : b₀.Follows s) (a : Nat) (b : List Byte) :
    b₀.Follows (State.writeMem s a b) := by
  obtain ⟨h1, h2, h3, h4, h5, h6, h7, h8⟩ := h
  exact ⟨h1, h2, h3, h4, h5, fun w => Memory.wf_puts _ _ (h6 w), h7, h8⟩

theorem follows_zeroMem {b₀ s : State} (h : b₀.Follows s) (a n : Nat) :
    b₀.Follows (State.zeroMem s a n) := by
  obtain ⟨h1, h2, h3, h4, h5, h6, h7, h8⟩ := h
  exact ⟨h1, h2, h3, h4, h5, fun w => Memory.wf_filter _ (h6 w), h7, h8⟩

theorem follows_setMeta {b₀ s : State} (h : b₀.Follows s) (bead : Nat) (m : Meta) :
    b₀.Follows (State.setMeta s bead m) := by
  unfold State.setMeta
  repeat' first
    | with_reducible (first
        | assumption | refine follows_ite ?_ ?_)
    | (intro _; try beta_reduce)
    | fail_if_no_progress (with_reducible refine follows_mk (side_of ?_))
    | with_reducible (first
        | refine follows_foldl ?_ ?_ | refine follows_ite_fst ?_ ?_ | refine follows_foldl_fst ?_ ?_)

theorem follows_inject_ {b₀ s : State} (h : b₀.Follows s) (m : Meta) :
    b₀.Follows (State.inject' s m).1 := by
  unfold State.inject'
  repeat' first
    | with_reducible (first
        | assumption | refine follows_ite ?_ ?_ | apply follows_free | apply follows_setReg)
    | (intro _; try beta_reduce)
    | fail_if_no_progress (with_reducible refine follows_mk (side_of ?_))
    | with_reducible (first
        | refine follows_foldl ?_ ?_ | refine follows_ite_fst ?_ ?_ | refine follows_foldl_fst ?_ ?_
        | refine follows_ite_snd ?_ ?_)

theorem follows_writeBead {b₀ s : State} (h : b₀.Follows s) (pa : Nat) (data : List Byte) (poison : Bool) :
    b₀.Follows (State.writeBead s pa data poison) := by
  unfold State.writeBead
  repeat' first
    | with_reducible (first
        | assumption | refine follows_ite ?_ ?_ | apply follows_inject_ | apply follows_setMeta | apply follows_writeMem)
    | (intro _; try beta_reduce)

theorem follows_zeroBeads {b₀ s : State} (h : b₀.Follows s) (x1 n : Nat) :
    b₀.Follows (State.zeroBeads s x1 n) := by
  unfold State.zeroBeads
  repeat' first
    | with_reducible (first
        | assumption | refine follows_ite ?_ ?_ | apply follows_writeBead | apply follows_zeroMem)
    | (intro _; try beta_reduce)
    | fail_if_no_progress (with_reducible refine follows_mk (side_of ?_))
    | with_reducible (first
        | refine follows_foldl ?_ ?_ | refine follows_ite_fst ?_ ?_ | refine follows_foldl_fst ?_ ?_)

theorem follows_tally {b₀ s : State} (h : b₀.Follows s) (k : PageKind) (i event qual amount : Nat) (ctx : Option Nat) :
    b₀.Follows (State.tally s k i event qual amount ctx) := by
  unfold State.tally
  repeat' first
    | with_reducible (first
        | assumption | refine follows_ite ?_ ?_)
    | (intro _; try beta_reduce)
    | (extract_lets +onlyGivenNames x_; first
        | (refine and_of (p := b₀.Follows x_) ?_ (fun h_ => ?_); (on_goal 2 => clear_value x_); (on_goal 1 => (unfold x_; clear x_)))
        | ((first | (have t_ : Boot := x_; clear t_) | (have t_ : Flash := x_; clear t_) | (have t_ : Jtag := x_; clear t_)); unfold x_; clear x_)
        | clear_value x_)
    | fail_if_no_progress (with_reducible refine follows_mk (side_of ?_))
    | with_reducible (first
        | refine follows_foldl ?_ ?_ | refine follows_ite_fst ?_ ?_ | refine follows_foldl_fst ?_ ?_
        | refine follows_of_fst (by assumption) ?_)
    | (split <;> try (rename_i e_; first
        | (refine and_of (follows_of_fst (a := b₀) e_ ?_) (fun h_ => ?_); clear e_)))

theorem follows_setRing {b₀ s : State} (h : b₀.Follows s) (r : Nat) (v : Ring) :
    b₀.Follows (State.setRing s r v) := by
  unfold State.setRing
  repeat' first
    | with_reducible (first
        | assumption | refine follows_ite ?_ ?_)
    | (intro _; try beta_reduce)
    | fail_if_no_progress (with_reducible refine follows_mk (side_of ?_))
    | with_reducible (first
        | refine follows_foldl ?_ ?_ | refine follows_ite_fst ?_ ?_ | refine follows_foldl_fst ?_ ?_)

theorem follows_setExtent {b₀ s : State} (h : b₀.Follows s) (id : Nat) (e : Extent) :
    b₀.Follows (State.setExtent s id e) := by
  unfold State.setExtent
  repeat' first
    | with_reducible (first
        | assumption | refine follows_ite ?_ ?_)
    | (intro _; try beta_reduce)
    | fail_if_no_progress (with_reducible refine follows_mk (side_of ?_))
    | with_reducible (first
        | refine follows_foldl ?_ ?_ | refine follows_ite_fst ?_ ?_ | refine follows_foldl_fst ?_ ?_)

theorem follows_dropRecord {b₀ s : State} (h : b₀.Follows s) (n : Nat) :
    b₀.Follows (State.dropRecord s n) := by
  unfold State.dropRecord
  repeat' first
    | with_reducible (first
        | assumption | refine follows_ite ?_ ?_ | apply follows_setRing | apply follows_tally)
    | (intro _; try beta_reduce)

theorem follows_enqueue {b₀ s : State} (h : b₀.Follows s) (n : Nat) (rec : Record) :
    b₀.Follows (State.enqueue s n rec) := by
  unfold State.enqueue
  repeat' first
    | with_reducible (first
        | assumption | refine follows_ite ?_ ?_ | apply follows_dropRecord | apply follows_setRing)
    | (intro _; try beta_reduce)

theorem follows_raise {b₀ s : State} (h : b₀.Follows s) (k : PageKind) (i b : Nat) :
    b₀.Follows (State.raise s k i b) := by
  unfold State.raise
  repeat' first
    | with_reducible (first
        | assumption | refine follows_ite ?_ ?_ | apply follows_enqueue | apply follows_setReg)
    | (intro _; try beta_reduce)

theorem follows_post {b₀ s : State} (h : b₀.Follows s) (n : Nat) (rec : Record) :
    b₀.Follows (State.post s n rec) := by
  unfold State.post
  repeat' first
    | with_reducible (first
        | assumption | refine follows_ite ?_ ?_ | apply follows_enqueue | apply follows_raise)
    | (intro _; try beta_reduce)

theorem follows_postMgr {b₀ s : State} (h : b₀.Follows s) (rec : Record) :
    b₀.Follows (State.postMgr s rec) := by
  unfold State.postMgr
  repeat' first
    | with_reducible (first
        | assumption | refine follows_ite ?_ ?_ | apply follows_post)
    | (intro _; try beta_reduce)

theorem follows_postCtx {b₀ s : State} (h : b₀.Follows s) (ctx : Nat) (rec : Record) :
    b₀.Follows (State.postCtx s ctx rec) := by
  unfold State.postCtx
  repeat' first
    | with_reducible (first
        | assumption | refine follows_ite ?_ ?_ | apply follows_post)
    | (intro _; try beta_reduce)

theorem follows_emit {b₀ s : State} (h : b₀.Follows s) (o : Out) :
    b₀.Follows (State.emit s o) := by
  obtain ⟨h1, h2, h3, h4, h5, h6, h7, h8⟩ := h
  exact ⟨h1, h2.trans (List.prefix_append _ _), h3, h4, h5, h6, h7, h8⟩

end Sys2Proof.Machine
end

