-- ==== Sys2Proof/Laws/KeepSend.lean ====
section
/-!
SUPPORT. What the operations of Machine/Send.lean can do to the parts that `State.Follows` speaks of.
-/

namespace Sys2Proof.Machine

set_option linter.unusedTactic false
set_option linter.unreachableTactic false
set_option linter.tactic.unusedName false

theorem follows_setPort {b₀ s : State} (h : b₀.Follows s) (p : Nat) (v : Port) :
    b₀.Follows (State.setPort s p v) := by
  unfold State.setPort
  repeat' first
    | with_reducible (first
        | assumption | refine follows_ite ?_ ?_)
    | (intro _; try beta_reduce)
    | fail_if_no_progress (with_reducible refine follows_mk (side_of ?_))
    | with_reducible (first
        | refine follows_foldl ?_ ?_ | refine follows_ite_fst ?_ ?_ | refine follows_foldl_fst ?_ ?_)

theorem follows_setQueue {b₀ s : State} (h : b₀.Follows s) (port q : Nat) (l : List Queued) :
    b₀.Follows (State.setQueue s port q l) := by
  unfold State.setQueue
  repeat' first
    | with_reducible (first
        | assumption | refine follows_ite ?_ ?_)
    | (intro _; try beta_reduce)
    | fail_if_no_progress (with_reducible refine follows_mk (side_of ?_))
    | with_reducible (first
        | refine follows_foldl ?_ ?_ | refine follows_ite_fst ?_ ?_ | refine follows_foldl_fst ?_ ?_)

theorem follows_enqueueAt {b₀ s : State} (h : b₀.Follows s) (port q : Nat) (x : Queued) :
    b₀.Follows (State.enqueueAt s port q x) := by
  unfold State.enqueueAt
  repeat' first
    | with_reducible (first
        | assumption | refine follows_ite ?_ ?_ | apply follows_setQueue)
    | (intro _; try beta_reduce)
    | fail_if_no_progress (with_reducible refine follows_mk (side_of ?_))
    | with_reducible (first
        | refine follows_foldl ?_ ?_ | refine follows_ite_fst ?_ ?_ | refine follows_foldl_fst ?_ ?_)

theorem follows_setBeam {b₀ s : State} (h : b₀.Follows s) (port vc : Nat) (l : List (Nat × Queued)) :
    b₀.Follows (State.setBeam s port vc l) := by
  unfold State.setBeam
  repeat' first
    | with_reducible (first
        | assumption | refine follows_ite ?_ ?_)
    | (intro _; try beta_reduce)
    | fail_if_no_progress (with_reducible refine follows_mk (side_of ?_))
    | with_reducible (first
        | refine follows_foldl ?_ ?_ | refine follows_ite_fst ?_ ?_ | refine follows_foldl_fst ?_ ?_)

theorem follows_toQueue {b₀ s : State} (h : b₀.Follows s) (port q : Nat) (x : Queued) :
    b₀.Follows (State.toQueue s port q x) := by
  unfold State.toQueue
  repeat' first
    | with_reducible (first
        | assumption | refine follows_ite ?_ ?_ | apply follows_enqueueAt | apply follows_setBeam)
    | (intro _; try beta_reduce)

theorem follows_fromBeam {b₀ s : State} (h : b₀.Follows s) (port vc : Nat) :
    b₀.Follows (State.fromBeam s port vc) := by
  unfold State.fromBeam
  repeat' first
    | with_reducible (first
        | assumption | refine follows_ite ?_ ?_ | apply follows_enqueueAt | apply follows_setBeam)
    | (intro _; try beta_reduce)
    | fail_if_no_progress (with_reducible refine follows_mk (side_of ?_))
    | with_reducible (first
        | refine follows_foldl ?_ ?_ | refine follows_ite_fst ?_ ?_ | refine follows_foldl_fst ?_ ?_)

theorem follows_inject {b₀ s : State} (h : b₀.Follows s) (port : Nat) (x : Queued) (isReq : Bool) :
    b₀.Follows (State.inject s port x isReq) := by
  unfold State.inject
  repeat' first
    | with_reducible (first
        | assumption | refine follows_ite ?_ ?_ | apply follows_toQueue)
    | (intro _; try beta_reduce)
    | fail_if_no_progress (with_reducible refine follows_mk (side_of ?_))
    | with_reducible (first
        | refine follows_foldl ?_ ?_ | refine follows_ite_fst ?_ ?_ | refine follows_foldl_fst ?_ ?_)

theorem follows_routeDrop {b₀ s : State} (h : b₀.Follows s) (p : Packet) (hop : Bool) (port : Option Nat) :
    b₀.Follows (State.routeDrop s p hop port) := by
  unfold State.routeDrop
  repeat' first
    | with_reducible (first
        | assumption | refine follows_ite ?_ ?_ | apply follows_bump | apply follows_postMgr | apply follows_raise)
    | (intro _; try beta_reduce)

theorem follows_send {b₀ s : State} (h : b₀.Follows s) (p : Packet) (ctx : Option Nat) (isReq : Bool) :
    b₀.Follows (State.send s p ctx isReq).1 := by
  unfold State.send
  repeat' first
    | with_reducible (first
        | assumption | refine follows_ite ?_ ?_ | apply follows_emit | apply follows_inject | apply follows_routeDrop
        | apply follows_tally | apply follows_toQueue)
    | (intro _; try beta_reduce)
    | (extract_lets +onlyGivenNames x_; first
        | (refine and_of (p := b₀.Follows x_) ?_ (fun h_ => ?_); (on_goal 2 => clear_value x_); (on_goal 1 => (unfold x_; clear x_)))
        | ((first | (have t_ : Boot := x_; clear t_) | (have t_ : Flash := x_; clear t_) | (have t_ : Jtag := x_; clear t_)); unfold x_; clear x_)
        | clear_value x_)
    | fail_if_no_progress (with_reducible refine follows_mk (side_of ?_))
    | with_reducible (first
        | refine follows_foldl ?_ ?_ | refine follows_ite_fst ?_ ?_ | refine follows_foldl_fst ?_ ?_
        | refine follows_of_fst (by assumption) ?_)
    | (split <;> try (rename_i e_; first
        | (refine and_of (follows_of_fst (a := b₀) e_ ?_) (fun h_ => ?_); clear e_)))

theorem follows_setKey {b₀ s : State} (h : b₀.Follows s) (n : Nat) (k : KeySlot) :
    b₀.Follows (State.setKey s n k) := by
  unfold State.setKey
  repeat' first
    | with_reducible (first
        | assumption | refine follows_ite ?_ ?_)
    | (intro _; try beta_reduce)
    | fail_if_no_progress (with_reducible refine follows_mk (side_of ?_))
    | with_reducible (first
        | refine follows_foldl ?_ ?_ | refine follows_ite_fst ?_ ?_ | refine follows_foldl_fst ?_ ?_)

theorem follows_setCtx {b₀ s : State} (h : b₀.Follows s) (c : Nat) (v : Context) :
    b₀.Follows (State.setCtx s c v) := by
  unfold State.setCtx
  repeat' first
    | with_reducible (first
        | assumption | refine follows_ite ?_ ?_)
    | (intro _; try beta_reduce)
    | fail_if_no_progress (with_reducible refine follows_mk (side_of ?_))
    | with_reducible (first
        | refine follows_foldl ?_ ?_ | refine follows_ite_fst ?_ ?_ | refine follows_foldl_fst ?_ ?_)

theorem follows_useCounter {b₀ s : State} (h : b₀.Follows s) (n : Nat) (dir : Bool) :
    b₀.Follows (State.useCounter s n dir) := by
  unfold State.useCounter
  repeat' first
    | with_reducible (first
        | assumption | refine follows_ite ?_ ?_ | apply follows_postCtx | apply follows_postMgr | apply follows_raise
        | apply follows_setKey)
    | (intro _; try beta_reduce)

theorem follows_seal {b₀ s : State} (h : b₀.Follows s) (k : KeyRef) (dir : Bool) (p : Packet) :
    b₀.Follows (State.seal s k dir p).1 := by
  unfold State.seal
  repeat' first
    | with_reducible (first
        | assumption | refine follows_ite ?_ ?_ | apply follows_useCounter)
    | (intro _; try beta_reduce)
    | (extract_lets +onlyGivenNames x_; first
        | (refine and_of (p := b₀.Follows x_) ?_ (fun h_ => ?_); (on_goal 2 => clear_value x_); (on_goal 1 => (unfold x_; clear x_)))
        | ((first | (have t_ : Boot := x_; clear t_) | (have t_ : Flash := x_; clear t_) | (have t_ : Jtag := x_; clear t_)); unfold x_; clear x_)
        | clear_value x_)
    | fail_if_no_progress (with_reducible refine follows_mk (side_of ?_))
    | with_reducible (first
        | refine follows_foldl ?_ ?_ | refine follows_ite_fst ?_ ?_ | refine follows_foldl_fst ?_ ?_
        | refine follows_of_fst (by assumption) ?_)
    | (split <;> try (rename_i e_; first
        | (refine and_of (follows_of_fst (a := b₀) e_ ?_) (fun h_ => ?_); clear e_)))

theorem follows_setOut {b₀ s : State} (h : b₀.Follows s) (i : Nat) (o : OutSlot) :
    b₀.Follows (State.setOut s i o) := by
  unfold State.setOut
  repeat' first
    | with_reducible (first
        | assumption | refine follows_ite ?_ ?_)
    | (intro _; try beta_reduce)
    | fail_if_no_progress (with_reducible refine follows_mk (side_of ?_))
    | with_reducible (first
        | refine follows_foldl ?_ ?_ | refine follows_ite_fst ?_ ?_ | refine follows_foldl_fst ?_ ?_)

theorem follows_issue {b₀ s : State} (h : b₀.Follows s) (p : Packet) (k : KeyRef) (what : Purpose) (ctx : Option Nat) (retiring
    : Bool) :
    b₀.Follows (State.issue s p k what ctx retiring).1 := by
  unfold State.issue
  repeat' first
    | with_reducible (first
        | assumption | refine follows_ite ?_ ?_ | apply follows_routeDrop | apply follows_seal | apply follows_send
        | apply follows_setOut)
    | (intro _; try beta_reduce)
    | (extract_lets +onlyGivenNames x_; first
        | (refine and_of (p := b₀.Follows x_) ?_ (fun h_ => ?_); (on_goal 2 => clear_value x_); (on_goal 1 => (unfold x_; clear x_)))
        | ((first | (have t_ : Boot := x_; clear t_) | (have t_ : Flash := x_; clear t_) | (have t_ : Jtag := x_; clear t_)); unfold x_; clear x_)
        | clear_value x_)
    | fail_if_no_progress (with_reducible refine follows_mk (side_of ?_))
    | with_reducible (first
        | refine follows_foldl ?_ ?_ | refine follows_ite_fst ?_ ?_ | refine follows_foldl_fst ?_ ?_
        | refine follows_of_fst (by assumption) ?_)
    | (split <;> try (rename_i e_; first
        | (refine and_of (follows_of_fst (a := b₀) e_ ?_) (fun h_ => ?_); clear e_)))

theorem follows_freeOutSlot {b₀ s : State} (h : b₀.Follows s) (i : Nat) :
    b₀.Follows (State.freeOutSlot s i) := by
  unfold State.freeOutSlot
  repeat' first
    | with_reducible (first
        | assumption | refine follows_ite ?_ ?_ | apply follows_setOut)
    | (intro _; try beta_reduce)
    | fail_if_no_progress (with_reducible refine follows_mk (side_of ?_))
    | with_reducible (first
        | refine follows_foldl ?_ ?_ | refine follows_ite_fst ?_ ?_ | refine follows_foldl_fst ?_ ?_)

theorem follows_quotaBack {b₀ s : State} (h : b₀.Follows s) (ep : Nat) :
    b₀.Follows (State.quotaBack s ep) := by
  unfold State.quotaBack
  repeat' first
    | with_reducible (first
        | assumption | refine follows_ite ?_ ?_)
    | (intro _; try beta_reduce)
    | (extract_lets +onlyGivenNames x_; first
        | (refine and_of (p := b₀.Follows x_) ?_ (fun h_ => ?_); (on_goal 2 => clear_value x_); (on_goal 1 => (unfold x_; clear x_)))
        | ((first | (have t_ : Boot := x_; clear t_) | (have t_ : Flash := x_; clear t_) | (have t_ : Jtag := x_; clear t_)); unfold x_; clear x_)
        | clear_value x_)
    | fail_if_no_progress (with_reducible refine follows_mk (side_of ?_))
    | with_reducible (first
        | refine follows_foldl ?_ ?_ | refine follows_ite_fst ?_ ?_ | refine follows_foldl_fst ?_ ?_
        | refine follows_of_fst (by assumption) ?_)
    | (split <;> try (rename_i e_; first
        | (refine and_of (follows_of_fst (a := b₀) e_ ?_) (fun h_ => ?_); clear e_)))

theorem follows_guardOutSlot {b₀ s : State} (h : b₀.Follows s) (i : Nat) :
    b₀.Follows (State.guardOutSlot s i) := by
  unfold State.guardOutSlot
  repeat' first
    | with_reducible (first
        | assumption | refine follows_ite ?_ ?_ | apply follows_setOut)
    | (intro _; try beta_reduce)

end Sys2Proof.Machine
end

