-- ==== Sys2Proof/Laws/KeepTxn.lean ====
section
/-!
SUPPORT. What the operations of Machine/Txn.lean can do to the parts that `State.Follows` speaks of.
-/

namespace Sys2Proof.Machine

set_option linter.unusedTactic false
set_option linter.unreachableTactic false
set_option linter.tactic.unusedName false

theorem follows_setSlot {b₀ s : State} (h : b₀.Follows s) (key : Nat) (v : InSlot) :
    b₀.Follows (State.setSlot s key v) := by
  unfold State.setSlot
  repeat' first
    | with_reducible (first
        | assumption | refine follows_ite ?_ ?_)
    | (intro _; try beta_reduce)
    | fail_if_no_progress (with_reducible refine follows_mk (side_of ?_))
    | with_reducible (first
        | refine follows_foldl ?_ ?_ | refine follows_ite_fst ?_ ?_ | refine follows_foldl_fst ?_ ?_)

theorem follows_takeData {b₀ s : State} (h : b₀.Follows s) (key : Nat) :
    b₀.Follows (State.takeData s key) := by
  unfold State.takeData
  repeat' first
    | with_reducible (first
        | assumption | refine follows_ite ?_ ?_ | apply follows_setSlot)
    | (intro _; try beta_reduce)
    | (extract_lets +onlyGivenNames x_; first
        | (refine and_of (p := b₀.Follows x_) ?_ (fun h_ => ?_); (on_goal 2 => clear_value x_); (on_goal 1 => (unfold x_; clear x_)))
        | ((first | (have t_ : Boot := x_; clear t_) | (have t_ : Flash := x_; clear t_) | (have t_ : Jtag := x_; clear t_)); unfold x_; clear x_)
        | clear_value x_)
    | fail_if_no_progress (with_reducible refine follows_mk (side_of ?_))
    | with_reducible (first
        | refine follows_foldl ?_ ?_ | refine follows_ite_fst ?_ ?_ | refine follows_foldl_fst ?_ ?_
        | refine follows_of_fst (by assumption) ?_)
    | (split <;> try (rename_i e_; first
        | (refine and_of (follows_of_fst (a := b₀) e_ ?_) (fun h_ => ?_); clear e_)))

theorem follows_freeSlot {b₀ s : State} (h : b₀.Follows s) (key : Nat) :
    b₀.Follows (State.freeSlot s key) := by
  unfold State.freeSlot
  repeat' first
    | with_reducible (first
        | assumption | refine follows_ite ?_ ?_)
    | (intro _; try beta_reduce)
    | (extract_lets +onlyGivenNames x_; first
        | (refine and_of (p := b₀.Follows x_) ?_ (fun h_ => ?_); (on_goal 2 => clear_value x_); (on_goal 1 => (unfold x_; clear x_)))
        | ((first | (have t_ : Boot := x_; clear t_) | (have t_ : Flash := x_; clear t_) | (have t_ : Jtag := x_; clear t_)); unfold x_; clear x_)
        | clear_value x_)
    | fail_if_no_progress (with_reducible refine follows_mk (side_of ?_))
    | with_reducible (first
        | refine follows_foldl ?_ ?_ | refine follows_ite_fst ?_ ?_ | refine follows_foldl_fst ?_ ?_
        | refine follows_of_fst (by assumption) ?_)
    | (split <;> try (rename_i e_; first
        | (refine and_of (follows_of_fst (a := b₀) e_ ?_) (fun h_ => ?_); clear e_)))

theorem follows_chargeHost {b₀ s : State} (h : b₀.Follows s) (ep bytes : Nat) :
    b₀.Follows (State.chargeHost s ep bytes) := by
  unfold State.chargeHost
  repeat' first
    | with_reducible (first
        | assumption | refine follows_ite ?_ ?_)
    | (intro _; try beta_reduce)
    | (extract_lets +onlyGivenNames x_; first
        | (refine and_of (p := b₀.Follows x_) ?_ (fun h_ => ?_); (on_goal 2 => clear_value x_); (on_goal 1 => (unfold x_; clear x_)))
        | ((first | (have t_ : Boot := x_; clear t_) | (have t_ : Flash := x_; clear t_) | (have t_ : Jtag := x_; clear t_)); unfold x_; clear x_)
        | clear_value x_)
    | fail_if_no_progress (with_reducible refine follows_mk (side_of ?_))
    | with_reducible (first
        | refine follows_foldl ?_ ?_ | refine follows_ite_fst ?_ ?_ | refine follows_foldl_fst ?_ ?_
        | refine follows_of_fst (by assumption) ?_)
    | (split <;> try (rename_i e_; first
        | (refine and_of (follows_of_fst (a := b₀) e_ ?_) (fun h_ => ?_); clear e_)))

theorem follows_sendCompletion {b₀ s : State} (h : b₀.Follows s) (p : Packet) (k : KeyRef) (ctx : Option Nat) :
    b₀.Follows (State.sendCompletion s p k ctx) := by
  unfold State.sendCompletion
  repeat' first
    | with_reducible (first
        | assumption | refine follows_ite ?_ ?_ | apply follows_chargeHost | apply follows_seal | apply follows_send)
    | (intro _; try beta_reduce)

theorem follows_keepRecord {b₀ s : State} (h : b₀.Follows s) (v : InSlot) (status : Nat) (data : List Byte) :
    b₀.Follows (State.keepRecord s v status data) := by
  unfold State.keepRecord
  repeat' first
    | with_reducible (first
        | assumption | refine follows_ite ?_ ?_ | apply follows_raise)
    | (intro _; try beta_reduce)
    | fail_if_no_progress (with_reducible refine follows_mk (side_of ?_))
    | with_reducible (first
        | refine follows_foldl ?_ ?_ | refine follows_ite_fst ?_ ?_ | refine follows_foldl_fst ?_ ?_)

theorem follows_holdAtHost {b₀ s : State} (h : b₀.Follows s) (i : Nat) (x2 : HostRec) (key : Nat) (v : InSlot) (ps
    : List Packet) :
    b₀.Follows (State.holdAtHost s i x2 key v ps) := by
  unfold State.holdAtHost
  repeat' first
    | with_reducible (first
        | assumption | refine follows_ite ?_ ?_ | apply follows_setSlot)
    | (intro _; try beta_reduce)
    | fail_if_no_progress (with_reducible refine follows_mk (side_of ?_))
    | with_reducible (first
        | refine follows_foldl ?_ ?_ | refine follows_ite_fst ?_ ?_ | refine follows_foldl_fst ?_ ?_)

theorem follows_complete {b₀ s : State} (h : b₀.Follows s) (key status : Nat) (data : List Byte) :
    b₀.Follows (State.complete s key status data) := by
  unfold State.complete
  repeat' first
    | with_reducible (first
        | assumption | refine follows_ite ?_ ?_ | apply follows_freeSlot | apply follows_holdAtHost | apply follows_keepRecord
        | apply follows_sendCompletion)
    | (intro _; try beta_reduce)
    | (extract_lets +onlyGivenNames x_; first
        | (refine and_of (p := b₀.Follows x_) ?_ (fun h_ => ?_); (on_goal 2 => clear_value x_); (on_goal 1 => (unfold x_; clear x_)))
        | ((first | (have t_ : Boot := x_; clear t_) | (have t_ : Flash := x_; clear t_) | (have t_ : Jtag := x_; clear t_)); unfold x_; clear x_)
        | clear_value x_)
    | fail_if_no_progress (with_reducible refine follows_mk (side_of ?_))
    | with_reducible (first
        | refine follows_foldl ?_ ?_ | refine follows_ite_fst ?_ ?_ | refine follows_foldl_fst ?_ ?_
        | refine follows_of_fst (by assumption) ?_)
    | (split <;> try (rename_i e_; first
        | (refine and_of (follows_of_fst (a := b₀) e_ ?_) (fun h_ => ?_); clear e_)))

theorem follows_markLast {b₀ s : State} (h : b₀.Follows s) (port q vc : Nat) :
    b₀.Follows (State.markLast s port q vc) := by
  unfold State.markLast
  repeat' first
    | with_reducible (first
        | assumption | refine follows_ite ?_ ?_ | apply follows_setBeam | apply follows_setQueue)
    | (intro _; try beta_reduce)
    | (extract_lets +onlyGivenNames x_; first
        | (refine and_of (p := b₀.Follows x_) ?_ (fun h_ => ?_); (on_goal 2 => clear_value x_); (on_goal 1 => (unfold x_; clear x_)))
        | ((first | (have t_ : Boot := x_; clear t_) | (have t_ : Flash := x_; clear t_) | (have t_ : Jtag := x_; clear t_)); unfold x_; clear x_)
        | clear_value x_)
    | fail_if_no_progress (with_reducible refine follows_mk (side_of ?_))
    | with_reducible (first
        | refine follows_foldl ?_ ?_ | refine follows_ite_fst ?_ ?_ | refine follows_foldl_fst ?_ ?_
        | refine follows_of_fst (by assumption) ?_)
    | (split <;> try (rename_i e_; first
        | (refine and_of (follows_of_fst (a := b₀) e_ ?_) (fun h_ => ?_); clear e_)))

theorem follows_refuse {b₀ s : State} (h : b₀.Follows s) (port : Option Nat) (p : Packet) (ctx status : Nat) (k : KeyRef) :
    b₀.Follows (State.refuse s port p ctx status k) := by
  unfold State.refuse
  repeat' first
    | with_reducible (first
        | assumption | refine follows_ite ?_ ?_ | apply follows_bump | apply follows_chargeHost | apply follows_markLast
        | apply follows_raise | apply follows_seal | apply follows_send | apply follows_tally)
    | (intro _; try beta_reduce)
    | (extract_lets +onlyGivenNames x_; first
        | (refine and_of (p := b₀.Follows x_) ?_ (fun h_ => ?_); (on_goal 2 => clear_value x_); (on_goal 1 => (unfold x_; clear x_)))
        | ((first | (have t_ : Boot := x_; clear t_) | (have t_ : Flash := x_; clear t_) | (have t_ : Jtag := x_; clear t_)); unfold x_; clear x_)
        | clear_value x_)
    | fail_if_no_progress (with_reducible refine follows_mk (side_of ?_))
    | with_reducible (first
        | refine follows_foldl ?_ ?_ | refine follows_ite_fst ?_ ?_ | refine follows_foldl_fst ?_ ?_
        | refine follows_of_fst (by assumption) ?_)
    | (split <;> try (rename_i e_; first
        | (refine and_of (follows_of_fst (a := b₀) e_ ?_) (fun h_ => ?_); clear e_)))

theorem follows_markWindow {b₀ s : State} (h : b₀.Follows s) (slot ep c : Nat) :
    b₀.Follows (State.markWindow s slot ep c) := by
  unfold State.markWindow
  repeat' first
    | with_reducible (first
        | assumption | refine follows_ite ?_ ?_)
    | (intro _; try beta_reduce)
    | fail_if_no_progress (with_reducible refine follows_mk (side_of ?_))
    | with_reducible (first
        | refine follows_foldl ?_ ?_ | refine follows_ite_fst ?_ ?_ | refine follows_foldl_fst ?_ ?_)

theorem follows_prefixCheck {b₀ s : State} (h : b₀.Follows s) (r : Rules) (port : Option Nat) (p : Packet) :
    b₀.Follows (State.prefixCheck s r port p).1 := by
  unfold State.prefixCheck
  repeat' first
    | with_reducible (first
        | assumption | refine follows_ite ?_ ?_ | apply follows_bump | apply follows_postMgr | apply follows_raise)
    | (intro _; try beta_reduce)
    | (extract_lets +onlyGivenNames x_; first
        | (refine and_of (p := b₀.Follows x_) ?_ (fun h_ => ?_); (on_goal 2 => clear_value x_); (on_goal 1 => (unfold x_; clear x_)))
        | ((first | (have t_ : Boot := x_; clear t_) | (have t_ : Flash := x_; clear t_) | (have t_ : Jtag := x_; clear t_)); unfold x_; clear x_)
        | clear_value x_)
    | fail_if_no_progress (with_reducible refine follows_mk (side_of ?_))
    | with_reducible (first
        | refine follows_foldl ?_ ?_ | refine follows_ite_fst ?_ ?_ | refine follows_foldl_fst ?_ ?_
        | refine follows_of_fst (by assumption) ?_)
    | (split <;> try (rename_i e_; first
        | (refine and_of (follows_of_fst (a := b₀) e_ ?_) (fun h_ => ?_); clear e_)))

theorem follows_chargeMeter {b₀ s : State} (h : b₀.Follows s) (r : Rules) (port : Option Nat) (p : Packet) (ctx : Nat) (yellow
    : Bool) :
    b₀.Follows (State.chargeMeter s r port p ctx yellow) := by
  unfold State.chargeMeter
  repeat' first
    | with_reducible (first
        | assumption | refine follows_ite ?_ ?_)
    | (intro _; try beta_reduce)
    | (extract_lets +onlyGivenNames x_; first
        | (refine and_of (p := b₀.Follows x_) ?_ (fun h_ => ?_); (on_goal 2 => clear_value x_); (on_goal 1 => (unfold x_; clear x_)))
        | ((first | (have t_ : Boot := x_; clear t_) | (have t_ : Flash := x_; clear t_) | (have t_ : Jtag := x_; clear t_)); unfold x_; clear x_)
        | clear_value x_)
    | fail_if_no_progress (with_reducible refine follows_mk (side_of ?_))
    | with_reducible (first
        | refine follows_foldl ?_ ?_ | refine follows_ite_fst ?_ ?_ | refine follows_foldl_fst ?_ ?_
        | refine follows_of_fst (by assumption) ?_)
    | (split <;> try (rename_i e_; first
        | (refine and_of (follows_of_fst (a := b₀) e_ ?_) (fun h_ => ?_); clear e_)))

theorem follows_countRed {b₀ s : State} (h : b₀.Follows s) (p : Packet) (ctx : Nat) :
    b₀.Follows (State.countRed s p ctx) := by
  unfold State.countRed
  repeat' first
    | with_reducible (first
        | assumption | refine follows_ite ?_ ?_ | apply follows_bump | apply follows_raise)
    | (intro _; try beta_reduce)
    | (extract_lets +onlyGivenNames x_; first
        | (refine and_of (p := b₀.Follows x_) ?_ (fun h_ => ?_); (on_goal 2 => clear_value x_); (on_goal 1 => (unfold x_; clear x_)))
        | ((first | (have t_ : Boot := x_; clear t_) | (have t_ : Flash := x_; clear t_) | (have t_ : Jtag := x_; clear t_)); unfold x_; clear x_)
        | clear_value x_)
    | fail_if_no_progress (with_reducible refine follows_mk (side_of ?_))
    | with_reducible (first
        | refine follows_foldl ?_ ?_ | refine follows_ite_fst ?_ ?_ | refine follows_foldl_fst ?_ ?_
        | refine follows_of_fst (by assumption) ?_)
    | (split <;> try (rename_i e_; first
        | (refine and_of (follows_of_fst (a := b₀) e_ ?_) (fun h_ => ?_); clear e_)))

theorem follows_verdict {b₀ s : State} (h : b₀.Follows s) (r : Rules) (port : Option Nat) (p : Packet) :
    b₀.Follows (State.verdict s r port p).1 := by
  unfold State.verdict
  repeat' first
    | with_reducible (first
        | assumption | refine follows_ite ?_ ?_ | apply follows_bump | apply follows_countRed | apply follows_prefixCheck
        | apply follows_tally)
    | (intro _; try beta_reduce)
    | (extract_lets +onlyGivenNames x_; first
        | (refine and_of (p := b₀.Follows x_) ?_ (fun h_ => ?_); (on_goal 2 => clear_value x_); (on_goal 1 => (unfold x_; clear x_)))
        | ((first | (have t_ : Boot := x_; clear t_) | (have t_ : Flash := x_; clear t_) | (have t_ : Jtag := x_; clear t_)); unfold x_; clear x_)
        | clear_value x_)
    | fail_if_no_progress (with_reducible refine follows_mk (side_of ?_))
    | with_reducible (first
        | refine follows_foldl ?_ ?_ | refine follows_ite_fst ?_ ?_ | refine follows_foldl_fst ?_ ?_
        | refine follows_of_fst (by assumption) ?_)
    | (split <;> try (rename_i e_; first
        | (refine and_of (follows_of_fst (a := b₀) e_ ?_) (fun h_ => ?_); clear e_)))

theorem follows_police {b₀ s : State} (h : b₀.Follows s) (port : Option Nat) (p : Packet) :
    b₀.May (State.police s port p) := by
  unfold State.police
  repeat' first
    | with_reducible (first
        | assumption | refine follows_ite ?_ ?_)
    | (intro _; try beta_reduce)
    | (extract_lets +onlyGivenNames x_; first
        | (refine and_of (p := b₀.Follows x_) ?_ (fun h_ => ?_); (on_goal 2 => clear_value x_); (on_goal 1 => (unfold x_; clear x_)))
        | ((first | (have t_ : Boot := x_; clear t_) | (have t_ : Flash := x_; clear t_) | (have t_ : Jtag := x_; clear t_)); unfold x_; clear x_)
        | clear_value x_)
    | fail_if_no_progress (with_reducible refine follows_mk (side_of ?_))
    | with_reducible (first
        | refine follows_foldl ?_ ?_ | refine follows_ite_fst ?_ ?_ | refine follows_foldl_fst ?_ ?_ | refine may_ite ?_ ?_
        | refine may_some ?_ | exact may_none | refine follows_of_fst (by assumption) ?_)
    | (split <;> try (rename_i e_; first
        | (refine and_of (follows_of_fst (a := b₀) e_ ?_) (fun h_ => ?_); clear e_)))

theorem follows_policed {b₀ s : State} (h : b₀.Follows s) (port : Nat) (p : Packet) (go : State → State) (hgo
    : ∀ s, b₀.Follows s → b₀.Follows (go s)) :
    b₀.Follows (State.policed s port p go) := by
  unfold State.policed
  repeat' first
    | with_reducible (first
        | assumption | refine follows_ite ?_ ?_ | apply hgo | apply follows_bump | apply follows_police | apply follows_raise)
    | (intro _; try beta_reduce)
    | (extract_lets +onlyGivenNames x_; first
        | (refine and_of (p := b₀.Follows x_) ?_ (fun h_ => ?_); (on_goal 2 => clear_value x_); (on_goal 1 => (unfold x_; clear x_)))
        | ((first | (have t_ : Boot := x_; clear t_) | (have t_ : Flash := x_; clear t_) | (have t_ : Jtag := x_; clear t_)); unfold x_; clear x_)
        | clear_value x_)
    | fail_if_no_progress (with_reducible refine follows_mk (side_of ?_))
    | with_reducible (first
        | refine follows_foldl ?_ ?_ | refine follows_ite_fst ?_ ?_ | refine follows_foldl_fst ?_ ?_ | refine may_ite ?_ ?_
        | refine may_some ?_ | exact may_none | refine follows_of_fst (by assumption) ?_)
    | (split <;> try (rename_i e_; first
        | (refine and_of (follows_of_fst (a := b₀) e_ ?_) (fun h_ => ?_); clear e_)
        | (refine and_of (follows_of_may (a := b₀) e_ ?_) (fun h_ => ?_); clear e_)))

theorem follows_learn {b₀ s : State} (h : b₀.Follows s) (port : Nat) (p : Packet) :
    b₀.Follows (State.learn s port p) := by
  unfold State.learn
  repeat' first
    | with_reducible (first
        | assumption | refine follows_ite ?_ ?_)
    | (intro _; try beta_reduce)
    | fail_if_no_progress (with_reducible refine follows_mk (side_of ?_))
    | with_reducible (first
        | refine follows_foldl ?_ ?_ | refine follows_ite_fst ?_ ?_ | refine follows_foldl_fst ?_ ?_)

theorem follows_received {b₀ s : State} (h : b₀.Follows s) (port : Nat) (p : Packet) (ctx : Option Nat) :
    b₀.Follows (State.received s port p ctx) := by
  unfold State.received
  repeat' first
    | with_reducible (first
        | assumption | refine follows_ite ?_ ?_ | apply follows_tally)
    | (intro _; try beta_reduce)
    | fail_if_no_progress (with_reducible refine follows_mk (side_of ?_))
    | with_reducible (first
        | refine follows_foldl ?_ ?_ | refine follows_ite_fst ?_ ?_ | refine follows_foldl_fst ?_ ?_)

theorem follows_transit {b₀ s : State} (h : b₀.Follows s) (port : Nat) (p : Packet) :
    b₀.Follows (State.transit s port p) := by
  unfold State.transit
  repeat' first
    | with_reducible (first
        | assumption | refine follows_ite ?_ ?_ | apply follows_emit | apply follows_routeDrop | apply follows_tally
        | apply follows_toQueue)
    | (intro _; try beta_reduce)
    | (extract_lets +onlyGivenNames x_; first
        | (refine and_of (p := b₀.Follows x_) ?_ (fun h_ => ?_); (on_goal 2 => clear_value x_); (on_goal 1 => (unfold x_; clear x_)))
        | ((first | (have t_ : Boot := x_; clear t_) | (have t_ : Flash := x_; clear t_) | (have t_ : Jtag := x_; clear t_)); unfold x_; clear x_)
        | clear_value x_)
    | fail_if_no_progress (with_reducible refine follows_mk (side_of ?_))
    | with_reducible (first
        | refine follows_foldl ?_ ?_ | refine follows_ite_fst ?_ ?_ | refine follows_foldl_fst ?_ ?_
        | refine follows_of_fst (by assumption) ?_)
    | (split <;> try (rename_i e_; first
        | (refine and_of (follows_of_fst (a := b₀) e_ ?_) (fun h_ => ?_); clear e_)))

theorem follows_takeLocal {b₀ s : State} (h : b₀.Follows s) (p : Packet) :
    b₀.May (State.takeLocal s p) := by
  unfold State.takeLocal
  repeat' first
    | with_reducible (first
        | assumption | refine follows_ite ?_ ?_ | apply follows_setQueue)
    | (intro _; try beta_reduce)
    | fail_if_no_progress (with_reducible refine follows_mk (side_of ?_))
    | with_reducible (first
        | refine follows_foldl ?_ ?_ | refine follows_ite_fst ?_ ?_ | refine follows_foldl_fst ?_ ?_ | refine may_ite ?_ ?_
        | refine may_some ?_ | exact may_none)

theorem follows_accept {b₀ s : State} (h : b₀.Follows s) (r : Rules) (port : Option Nat) (p : Packet) (yellow : Bool) (t : Row7)
    :
    b₀.Follows (State.accept s r port p yellow t) := by
  unfold State.accept
  repeat' first
    | with_reducible (first
        | assumption | refine follows_ite ?_ ?_ | apply follows_chargeMeter | apply follows_tally)
    | (intro _; try beta_reduce)
    | fail_if_no_progress (with_reducible refine follows_mk (side_of ?_))
    | with_reducible (first
        | refine follows_foldl ?_ ?_ | refine follows_ite_fst ?_ ?_ | refine follows_foldl_fst ?_ ?_)

theorem follows_tagFailed {b₀ s : State} (h : b₀.Follows s) (port : Option Nat) (p : Packet) :
    b₀.Follows (State.tagFailed s port p) := by
  unfold State.tagFailed
  repeat' first
    | with_reducible (first
        | assumption | refine follows_ite ?_ ?_ | apply follows_bump | apply follows_freeSlot | apply follows_postMgr
        | apply follows_raise)
    | (intro _; try beta_reduce)
    | (extract_lets +onlyGivenNames x_; first
        | (refine and_of (p := b₀.Follows x_) ?_ (fun h_ => ?_); (on_goal 2 => clear_value x_); (on_goal 1 => (unfold x_; clear x_)))
        | ((first | (have t_ : Boot := x_; clear t_) | (have t_ : Flash := x_; clear t_) | (have t_ : Jtag := x_; clear t_)); unfold x_; clear x_)
        | clear_value x_)
    | fail_if_no_progress (with_reducible refine follows_mk (side_of ?_))
    | with_reducible (first
        | refine follows_foldl ?_ ?_ | refine follows_ite_fst ?_ ?_ | refine follows_foldl_fst ?_ ?_
        | refine follows_of_fst (by assumption) ?_)
    | (split <;> try (rename_i e_; first
        | (refine and_of (follows_of_fst (a := b₀) e_ ?_) (fun h_ => ?_); clear e_)))

theorem follows_verified {b₀ s : State} (h : b₀.Follows s) (p : Packet) :
    b₀.Follows (State.verified s p) := by
  unfold State.verified
  repeat' first
    | with_reducible (first
        | assumption | refine follows_ite ?_ ?_ | apply follows_markWindow)
    | (intro _; try beta_reduce)
    | (extract_lets +onlyGivenNames x_; first
        | (refine and_of (p := b₀.Follows x_) ?_ (fun h_ => ?_); (on_goal 2 => clear_value x_); (on_goal 1 => (unfold x_; clear x_)))
        | ((first | (have t_ : Boot := x_; clear t_) | (have t_ : Flash := x_; clear t_) | (have t_ : Jtag := x_; clear t_)); unfold x_; clear x_)
        | clear_value x_)
    | fail_if_no_progress (with_reducible refine follows_mk (side_of ?_))
    | with_reducible (first
        | refine follows_foldl ?_ ?_ | refine follows_ite_fst ?_ ?_ | refine follows_foldl_fst ?_ ?_
        | refine follows_of_fst (by assumption) ?_)
    | (split <;> try (rename_i e_; first
        | (refine and_of (follows_of_fst (a := b₀) e_ ?_) (fun h_ => ?_); clear e_)))

theorem follows_resendRecord {b₀ s : State} (h : b₀.Follows s) (d : DoneRec) :
    b₀.Follows (State.resendRecord s d) := by
  unfold State.resendRecord
  repeat' first
    | with_reducible (first
        | assumption | refine follows_ite ?_ ?_ | apply follows_bump | apply follows_sendCompletion)
    | (intro _; try beta_reduce)

theorem follows_serve {b₀ s : State} (h : b₀.Follows s) (r : Rules) (port : Option Nat) (p : Packet) (act : State → Nat → State)
    (hact : ∀ s y1, b₀.Follows s → b₀.Follows (act s y1)) :
    b₀.Follows (State.serve s r port p act) := by
  unfold State.serve
  repeat' first
    | with_reducible (first
        | assumption | refine follows_ite ?_ ?_ | apply hact | apply follows_accept | apply follows_refuse
        | apply follows_resendRecord | apply follows_tagFailed | apply follows_verdict | apply follows_verified)
    | (intro _; try beta_reduce)
    | (extract_lets +onlyGivenNames x_; first
        | (refine and_of (p := b₀.Follows x_) ?_ (fun h_ => ?_); (on_goal 2 => clear_value x_); (on_goal 1 => (unfold x_; clear x_)))
        | ((first | (have t_ : Boot := x_; clear t_) | (have t_ : Flash := x_; clear t_) | (have t_ : Jtag := x_; clear t_)); unfold x_; clear x_)
        | clear_value x_)
    | fail_if_no_progress (with_reducible refine follows_mk (side_of ?_))
    | with_reducible (first
        | refine follows_foldl ?_ ?_ | refine follows_ite_fst ?_ ?_ | refine follows_foldl_fst ?_ ?_
        | refine follows_of_fst (by assumption) ?_)
    | (split <;> try (rename_i e_; first
        | (refine and_of (follows_of_fst (a := b₀) e_ ?_) (fun h_ => ?_); clear e_)))

theorem follows_arrive {b₀ s : State} (h : b₀.Follows s) (r : Rules) (port : Fin 16) (p : Packet) (act : State → Nat → State)
    (hact : ∀ s y1, b₀.Follows s → b₀.Follows (act s y1)) :
    b₀.Follows (State.arrive s r port p act) := by
  unfold State.arrive
  repeat' first
    | with_reducible (first
        | assumption | refine follows_ite ?_ ?_ | apply hact | apply follows_learn | apply follows_policed
        | apply follows_received | apply follows_serve | apply follows_takeLocal | apply follows_transit)
    | (intro _; try beta_reduce)
    | (extract_lets +onlyGivenNames x_; first
        | (refine and_of (p := b₀.Follows x_) ?_ (fun h_ => ?_); (on_goal 2 => clear_value x_); (on_goal 1 => (unfold x_; clear x_)))
        | ((first | (have t_ : Boot := x_; clear t_) | (have t_ : Flash := x_; clear t_) | (have t_ : Jtag := x_; clear t_)); unfold x_; clear x_)
        | clear_value x_)
    | fail_if_no_progress (with_reducible refine follows_mk (side_of ?_))
    | with_reducible (first
        | refine follows_foldl ?_ ?_ | refine follows_ite_fst ?_ ?_ | refine follows_foldl_fst ?_ ?_ | refine may_ite ?_ ?_
        | refine may_some ?_ | exact may_none | refine follows_of_fst (by assumption) ?_)
    | (split <;> try (rename_i e_; first
        | (refine and_of (follows_of_fst (a := b₀) e_ ?_) (fun h_ => ?_); clear e_)
        | (refine and_of (follows_of_may (a := b₀) e_ ?_) (fun h_ => ?_); clear e_)))

end Sys2Proof.Machine
end

