-- ==== Sys2Proof/Laws/KeepQos.lean ====
section
/-!
SUPPORT. What the operations of Machine/Qos.lean can do to the parts that `State.Follows` speaks of.
-/

namespace Sys2Proof.Machine

set_option linter.unusedTactic false
set_option linter.unreachableTactic false
set_option linter.tactic.unusedName false

theorem follows_setShaper {b₀ s : State} (h : b₀.Follows s) (i : Nat) (v : QShaper) :
    b₀.Follows (State.setShaper s i v) := by
  unfold State.setShaper
  repeat' first
    | with_reducible (first
        | assumption | refine follows_ite ?_ ?_)
    | (intro _; try beta_reduce)
    | fail_if_no_progress (with_reducible refine follows_mk (side_of ?_))
    | with_reducible (first
        | refine follows_foldl ?_ ?_ | refine follows_ite_fst ?_ ?_ | refine follows_foldl_fst ?_ ?_)

theorem follows_commitMeter {b₀ s : State} (h : b₀.Follows s) (w : Word) :
    b₀.Follows (State.commitMeter s w).1 := by
  unfold State.commitMeter
  repeat' first
    | with_reducible (first
        | assumption | refine follows_ite ?_ ?_)
    | (intro _; try beta_reduce)
    | fail_if_no_progress (with_reducible refine follows_mk (side_of ?_))
    | with_reducible (first
        | refine follows_foldl ?_ ?_ | refine follows_ite_fst ?_ ?_ | refine follows_foldl_fst ?_ ?_)

theorem follows_commitHost {b₀ s : State} (h : b₀.Follows s) (w : Word) :
    b₀.Follows (State.commitHost s w).1 := by
  unfold State.commitHost
  repeat' first
    | with_reducible (first
        | assumption | refine follows_ite ?_ ?_)
    | (intro _; try beta_reduce)
    | fail_if_no_progress (with_reducible refine follows_mk (side_of ?_))
    | with_reducible (first
        | refine follows_foldl ?_ ?_ | refine follows_ite_fst ?_ ?_ | refine follows_foldl_fst ?_ ?_)

theorem follows_commitShaper {b₀ s : State} (h : b₀.Follows s) (w : Word) :
    b₀.Follows (State.commitShaper s w).1 := by
  unfold State.commitShaper
  repeat' first
    | with_reducible (first
        | assumption | refine follows_ite ?_ ?_ | apply follows_setShaper)
    | (intro _; try beta_reduce)
    | fail_if_no_progress (with_reducible refine follows_mk (side_of ?_))
    | with_reducible (first
        | refine follows_foldl ?_ ?_ | refine follows_ite_fst ?_ ?_ | refine follows_foldl_fst ?_ ?_)

theorem follows_writeQos {b₀ s : State} (h : b₀.Follows s) (off : Nat) (w : Word) :
    b₀.Follows (State.writeQos s off w).1 := by
  unfold State.writeQos
  repeat' first
    | with_reducible (first
        | assumption | refine follows_ite ?_ ?_ | apply follows_commitHost | apply follows_commitMeter
        | apply follows_commitShaper | apply follows_setReg)
    | (intro _; try beta_reduce)
    | fail_if_no_progress (with_reducible refine follows_mk (side_of ?_))
    | with_reducible (first
        | refine follows_foldl ?_ ?_ | refine follows_ite_fst ?_ ?_ | refine follows_foldl_fst ?_ ?_)

theorem follows_leaveHost {b₀ s : State} (h : b₀.Follows s) (i : Nat) :
    b₀.Follows (State.leaveHost s i) := by
  unfold State.leaveHost
  repeat' first
    | with_reducible (first
        | assumption | refine follows_ite ?_ ?_ | apply follows_freeSlot | apply follows_keepRecord
        | apply follows_sendCompletion | apply follows_setSlot)
    | (intro _; try beta_reduce)
    | (extract_lets +onlyGivenNames x_; first
        | (refine and_of (p := b₀.Follows x_) ?_ (fun h_ => ?_); (on_goal 2 => clear_value x_); (on_goal 1 => (unfold x_; clear x_)))
        | ((first | (have t_ : Boot := x_; clear t_) | (have t_ : Flash := x_; clear t_) | (have t_ : Jtag := x_; clear t_)); unfold x_; clear x_)
        | clear_value x_)
    | fail_if_no_progress (with_reducible refine follows_mk (side_of ?_))
    | with_reducible (first
        | refine follows_foldl ?_ ?_ | refine follows_ite_fst ?_ ?_ | refine follows_foldl_fst ?_ ?_
        | refine follows_of_fst (by assumption) ?_)
    | (split <;> try (rename_i e_; first
        | (refine and_of (follows_of_fst (a := b₀) e_ ?_) (fun h_ => ?_); clear e_)))

theorem follows_execHostShaperRelease {b₀ s : State} (h : b₀.Follows s) (host : Fin 512) :
    b₀.Goes (execHostShaperRelease host s) := by
  unfold execHostShaperRelease
  repeat' first
    | with_reducible (first
        | assumption | refine follows_ite ?_ ?_ | refine goes_next ?_ | apply follows_elapse | apply follows_leaveHost
        | apply follows_onlyIf)
    | (intro _; try beta_reduce)

theorem follows_resetPortBuckets {b₀ s : State} (h : b₀.Follows s) (full : Bool) (p : Nat) :
    b₀.Follows (State.resetPortBuckets s full p) := by
  unfold State.resetPortBuckets
  repeat' first
    | with_reducible (first
        | assumption | refine follows_ite ?_ ?_)
    | (intro _; try beta_reduce)
    | fail_if_no_progress (with_reducible refine follows_mk (side_of ?_))
    | with_reducible (first
        | refine follows_foldl ?_ ?_ | refine follows_ite_fst ?_ ?_ | refine follows_foldl_fst ?_ ?_)

theorem follows_qosSwapped {b₀ s : State} (h : b₀.Follows s) (old : RegMap) :
    b₀.Follows (State.qosSwapped s old) := by
  unfold State.qosSwapped
  repeat' first
    | with_reducible (first
        | assumption | refine follows_ite ?_ ?_ | apply follows_resetPortBuckets)
    | (intro _; try beta_reduce)
    | fail_if_no_progress (with_reducible refine follows_mk (side_of ?_))
    | with_reducible (first
        | refine follows_foldl ?_ ?_ | refine follows_ite_fst ?_ ?_ | refine follows_foldl_fst ?_ ?_)

end Sys2Proof.Machine
end

