-- ==== Sys2Proof/Laws/Flash.lean ====
section
/-!
SUPPORT. The counter journal leaves the flash header (R38).
-/

namespace Sys2Proof.Machine

theorem Flash.hint_put (f : Flash) (e : JEntry) : (f.put e).hint = f.hint := by
  unfold Flash.put; split <;> rfl

theorem Flash.hint_makeRoom (f : Flash) : f.makeRoom.hint = f.hint := by
  unfold Flash.makeRoom
  split
  · rfl
  · split
    · rfl
    · split
      · rfl
      · dsimp only
        generalize (List.filter _ _) = l
        have : ∀ g : Flash, (l.foldl (fun f e => f.put (f.makeEntry e.slot e.keyId e.floor)) g).hint = g.hint := by
          induction l with
          | nil => intro g; rfl
          | cons x t ih => intro g; exact (ih _).trans (Flash.hint_put _ _)
        exact this _

/-- Journalling a counter floor leaves the flash header. -/
theorem Flash.hint_journalFloor (f : Flash) (slot keyId floor : Nat) : (f.journalFloor slot keyId floor).hint = f.hint :=
  (Flash.hint_put _ _).trans (Flash.hint_makeRoom _)

/-- The same as a step of the machine. -/
theorem follows_journalFloor {b₀ s : State} (h : b₀.Follows s) (slot keyId floor : Nat) :
    b₀.Follows { s with flash := s.flash.journalFloor slot keyId floor } :=
  ⟨h.1, h.2.1, h.2.2.1, h.2.2.2.1, h.2.2.2.2.1, h.2.2.2.2.2.1, h.2.2.2.2.2.2.1,
    (Flash.hint_journalFloor _ _ _ _).trans h.2.2.2.2.2.2.2⟩

end Sys2Proof.Machine
end

