-- ==== Sys2Proof/Laws/KeepImage.lean ====
section
/-!
SUPPORT. What the operations of Machine/Image.lean can do to the parts that `State.Follows` speaks of.
-/

namespace Sys2Proof.Machine

set_option linter.unusedTactic false
set_option linter.unreachableTactic false
set_option linter.tactic.unusedName false

theorem follows_setRod {b₀ s : State} (h : b₀.Follows s) (i : Nat) (r : Rod) :
    b₀.Follows (State.setRod s i r) := by
  unfold State.setRod
  repeat' first
    | with_reducible (first
        | assumption | refine follows_ite ?_ ?_)
    | (intro _; try beta_reduce)
    | fail_if_no_progress (with_reducible refine follows_mk (side_of ?_))
    | with_reducible (first
        | refine follows_foldl ?_ ?_ | refine follows_ite_fst ?_ ?_ | refine follows_foldl_fst ?_ ?_)

theorem follows_setFrame {b₀ s : State} (h : b₀.Follows s) (f : Nat) (v : Frame) :
    b₀.Follows (State.setFrame s f v) := by
  unfold State.setFrame
  repeat' first
    | with_reducible (first
        | assumption | refine follows_ite ?_ ?_)
    | (intro _; try beta_reduce)
    | fail_if_no_progress (with_reducible refine follows_mk (side_of ?_))
    | with_reducible (first
        | refine follows_foldl ?_ ?_ | refine follows_ite_fst ?_ ?_ | refine follows_foldl_fst ?_ ?_)

theorem follows_setJob {b₀ s : State} (h : b₀.Follows s) (j : Nat) (v : Job) :
    b₀.Follows (State.setJob s j v) := by
  unfold State.setJob
  repeat' first
    | with_reducible (first
        | assumption | refine follows_ite ?_ ?_)
    | (intro _; try beta_reduce)
    | fail_if_no_progress (with_reducible refine follows_mk (side_of ?_))
    | with_reducible (first
        | refine follows_foldl ?_ ?_ | refine follows_ite_fst ?_ ?_ | refine follows_foldl_fst ?_ ?_)

theorem follows_setMover {b₀ s : State} (h : b₀.Follows s) (m : Nat) (v : Mover) :
    b₀.Follows (State.setMover s m v) := by
  unfold State.setMover
  repeat' first
    | with_reducible (first
        | assumption | refine follows_ite ?_ ?_)
    | (intro _; try beta_reduce)
    | fail_if_no_progress (with_reducible refine follows_mk (side_of ?_))
    | with_reducible (first
        | refine follows_foldl ?_ ?_ | refine follows_ite_fst ?_ ?_ | refine follows_foldl_fst ?_ ?_)

theorem follows_setFn {b₀ s : State} (h : b₀.Follows s) (n : Nat) (v : Fn) :
    b₀.Follows (State.setFn s n v) := by
  unfold State.setFn
  repeat' first
    | with_reducible (first
        | assumption | refine follows_ite ?_ ?_)
    | (intro _; try beta_reduce)
    | fail_if_no_progress (with_reducible refine follows_mk (side_of ?_))
    | with_reducible (first
        | refine follows_foldl ?_ ?_ | refine follows_ite_fst ?_ ?_ | refine follows_foldl_fst ?_ ?_)

theorem follows_setSession {b₀ s : State} (h : b₀.Follows s) (i : Nat) (v : Session) :
    b₀.Follows (State.setSession s i v) := by
  unfold State.setSession
  repeat' first
    | with_reducible (first
        | assumption | refine follows_ite ?_ ?_)
    | (intro _; try beta_reduce)
    | fail_if_no_progress (with_reducible refine follows_mk (side_of ?_))
    | with_reducible (first
        | refine follows_foldl ?_ ?_ | refine follows_ite_fst ?_ ?_ | refine follows_foldl_fst ?_ ?_)

theorem follows_setStream {b₀ s : State} (h : b₀.Follows s) (job i : Nat) (v : StreamSt) :
    b₀.Follows (State.setStream s job i v) := by
  unfold State.setStream
  repeat' first
    | with_reducible (first
        | assumption | refine follows_ite ?_ ?_)
    | (intro _; try beta_reduce)
    | fail_if_no_progress (with_reducible refine follows_mk (side_of ?_))
    | with_reducible (first
        | refine follows_foldl ?_ ?_ | refine follows_ite_fst ?_ ?_ | refine follows_foldl_fst ?_ ?_)

end Sys2Proof.Machine
end

