-- ==== Sys2Proof/Laws/KeepFrames.lean ====
section
/-!
SUPPORT. What the operations of Machine/Frames.lean can do to the parts that `State.Follows` speaks of.
-/

namespace Sys2Proof.Machine

set_option linter.unusedTactic false
set_option linter.unreachableTactic false
set_option linter.tactic.unusedName false

theorem follows_bumpErrors {b₀ s : State} (h : b₀.Follows s) (x1 ce ue : Nat) :
    b₀.Follows (State.bumpErrors s x1 ce ue) := by
  unfold State.bumpErrors
  repeat' first
    | with_reducible (first
        | assumption | refine follows_ite ?_ ?_ | apply follows_setReg)
    | (intro _; try beta_reduce)

theorem follows_checkScratch {b₀ s : State} (h : b₀.Follows s) (i off n : Nat) :
    b₀.Follows (State.checkScratch s i off n) := by
  unfold State.checkScratch
  repeat' first
    | with_reducible (first
        | assumption | refine follows_ite ?_ ?_ | apply follows_bumpErrors | apply follows_raise | apply follows_setRod)
    | (intro _; try beta_reduce)

theorem follows_checkFb {b₀ s : State} (h : b₀.Follows s) (f off n : Nat) :
    b₀.Follows (State.checkFb s f off n) := by
  unfold State.checkFb
  repeat' first
    | with_reducible (first
        | assumption | refine follows_ite ?_ ?_ | apply follows_bumpErrors | apply follows_raise | apply follows_setFrame)
    | (intro _; try beta_reduce)

theorem follows_fbOpen {b₀ s : State} (h : b₀.Follows s) (f ctx off n : Nat) :
    b₀.Follows (State.fbOpen s f ctx off n).1 := by
  unfold State.fbOpen
  repeat' first
    | with_reducible (first
        | assumption | refine follows_ite ?_ ?_ | apply follows_setFrame)
    | (intro _; try beta_reduce)
    | (extract_lets +onlyGivenNames x_; first
        | (refine and_of (p := b₀.Follows x_) ?_ (fun h_ => ?_); (on_goal 2 => clear_value x_); (on_goal 1 => (unfold x_; clear x_)))
        | ((first | (have t_ : Boot := x_; clear t_) | (have t_ : Flash := x_; clear t_) | (have t_ : Jtag := x_; clear t_)); unfold x_; clear x_)
        | clear_value x_)
    | fail_if_no_progress (with_reducible refine follows_mk (side_of ?_))
    | with_reducible (first
        | refine follows_foldl ?_ ?_ | refine follows_ite_fst ?_ ?_ | refine follows_foldl_fst ?_ ?_
        | refine follows_of_fst (by assumption) ?_)
    | (split <;> try (rename_i e_; first
        | (refine and_of (follows_of_fst (a := b₀) e_ ?_) (fun h_ => ?_); clear e_)))

theorem follows_putElement {b₀ s : State} (h : b₀.Follows s) (job i n f abs : Nat) (data : List Byte) (poison : Bool) :
    b₀.Follows (State.putElement s job i n f abs data poison) := by
  unfold State.putElement
  repeat' first
    | with_reducible (first
        | assumption | refine follows_ite ?_ ?_ | apply follows_setFrame | apply follows_setStream)
    | (intro _; try beta_reduce)

theorem follows_ringOpen {b₀ s : State} (h : b₀.Follows s) (job i n : Nat) :
    b₀.Follows (State.ringOpen s job i n).1 := by
  unfold State.ringOpen
  repeat' first
    | with_reducible (first
        | assumption | refine follows_ite ?_ ?_ | apply follows_fbOpen)
    | (intro _; try beta_reduce)
    | (extract_lets +onlyGivenNames x_; first
        | (refine and_of (p := b₀.Follows x_) ?_ (fun h_ => ?_); (on_goal 2 => clear_value x_); (on_goal 1 => (unfold x_; clear x_)))
        | ((first | (have t_ : Boot := x_; clear t_) | (have t_ : Flash := x_; clear t_) | (have t_ : Jtag := x_; clear t_)); unfold x_; clear x_)
        | clear_value x_)
    | fail_if_no_progress (with_reducible refine follows_mk (side_of ?_))
    | with_reducible (first
        | refine follows_foldl ?_ ?_ | refine follows_ite_fst ?_ ?_ | refine follows_foldl_fst ?_ ?_
        | refine follows_of_fst (by assumption) ?_)
    | (split <;> try (rename_i e_; first
        | (refine and_of (follows_of_fst (a := b₀) e_ ?_) (fun h_ => ?_); clear e_)))

theorem follows_perform {b₀ s : State} (h : b₀.Follows s) (f : Nat) (w : OutWrite) :
    b₀.Follows (State.perform s f w) := by
  unfold State.perform
  repeat' first
    | with_reducible (first
        | assumption | refine follows_ite ?_ ?_ | apply follows_putElement | apply follows_ringOpen | apply follows_setFrame)
    | (intro _; try beta_reduce)
    | (extract_lets +onlyGivenNames x_; first
        | (refine and_of (p := b₀.Follows x_) ?_ (fun h_ => ?_); (on_goal 2 => clear_value x_); (on_goal 1 => (unfold x_; clear x_)))
        | ((first | (have t_ : Boot := x_; clear t_) | (have t_ : Flash := x_; clear t_) | (have t_ : Jtag := x_; clear t_)); unfold x_; clear x_)
        | clear_value x_)
    | fail_if_no_progress (with_reducible refine follows_mk (side_of ?_))
    | with_reducible (first
        | refine follows_foldl ?_ ?_ | refine follows_ite_fst ?_ ?_ | refine follows_foldl_fst ?_ ?_
        | refine follows_of_fst (by assumption) ?_)
    | (split <;> try (rename_i e_; first
        | (refine and_of (follows_of_fst (a := b₀) e_ ?_) (fun h_ => ?_); clear e_)))

theorem follows_setCheck {b₀ s : State} (h : b₀.Follows s) (f : Nat) (k : Option Check) :
    b₀.Follows (State.setCheck s f k) := by
  unfold State.setCheck
  repeat' first
    | with_reducible (first
        | assumption | refine follows_ite ?_ ?_ | apply follows_setFrame)
    | (intro _; try beta_reduce)

theorem follows_produce {b₀ s : State} (h : b₀.Follows s) (f n : Nat) :
    b₀.Follows (State.produce s f n) := by
  unfold State.produce
  repeat' first
    | with_reducible (first
        | assumption | refine follows_ite ?_ ?_ | apply follows_perform | apply follows_setCheck)
    | (intro _; try beta_reduce)
    | (extract_lets +onlyGivenNames x_; first
        | (refine and_of (p := b₀.Follows x_) ?_ (fun h_ => ?_); (on_goal 2 => clear_value x_); (on_goal 1 => (unfold x_; clear x_)))
        | ((first | (have t_ : Boot := x_; clear t_) | (have t_ : Flash := x_; clear t_) | (have t_ : Jtag := x_; clear t_)); unfold x_; clear x_)
        | clear_value x_)
    | fail_if_no_progress (with_reducible refine follows_mk (side_of ?_))
    | with_reducible (first
        | refine follows_foldl ?_ ?_ | refine follows_ite_fst ?_ ?_ | refine follows_foldl_fst ?_ ?_
        | refine follows_of_fst (by assumption) ?_)
    | (split <;> try (rename_i e_; first
        | (refine and_of (follows_of_fst (a := b₀) e_ ?_) (fun h_ => ?_); clear e_)))

theorem follows_follow {b₀ s : State} (h : b₀.Follows s) (f n : Nat) :
    b₀.Follows (State.follow s f n) := by
  unfold State.follow
  repeat' first
    | with_reducible (first
        | assumption | refine follows_ite ?_ ?_ | apply follows_produce | apply follows_setCheck | apply follows_setRod)
    | (intro _; try beta_reduce)
    | (extract_lets +onlyGivenNames x_; first
        | (refine and_of (p := b₀.Follows x_) ?_ (fun h_ => ?_); (on_goal 2 => clear_value x_); (on_goal 1 => (unfold x_; clear x_)))
        | ((first | (have t_ : Boot := x_; clear t_) | (have t_ : Flash := x_; clear t_) | (have t_ : Jtag := x_; clear t_)); unfold x_; clear x_)
        | clear_value x_)
    | fail_if_no_progress (with_reducible refine follows_mk (side_of ?_))
    | with_reducible (first
        | refine follows_foldl ?_ ?_ | refine follows_ite_fst ?_ ?_ | refine follows_foldl_fst ?_ ?_
        | refine follows_of_fst (by assumption) ?_)
    | (split <;> try (rename_i e_; first
        | (refine and_of (follows_of_fst (a := b₀) e_ ?_) (fun h_ => ?_); clear e_)))

theorem follows_followAll {b₀ s : State} (h : b₀.Follows s) (f : Nat) :
    b₀.Follows (State.followAll s f) := by
  unfold State.followAll
  repeat' first
    | with_reducible (first
        | assumption | refine follows_ite ?_ ?_ | apply follows_follow | apply follows_produce)
    | (intro _; try beta_reduce)
    | (extract_lets +onlyGivenNames x_; first
        | (refine and_of (p := b₀.Follows x_) ?_ (fun h_ => ?_); (on_goal 2 => clear_value x_); (on_goal 1 => (unfold x_; clear x_)))
        | ((first | (have t_ : Boot := x_; clear t_) | (have t_ : Flash := x_; clear t_) | (have t_ : Jtag := x_; clear t_)); unfold x_; clear x_)
        | clear_value x_)
    | fail_if_no_progress (with_reducible refine follows_mk (side_of ?_))
    | with_reducible (first
        | refine follows_foldl ?_ ?_ | refine follows_ite_fst ?_ ?_ | refine follows_foldl_fst ?_ ?_
        | refine follows_of_fst (by assumption) ?_)
    | (split <;> try (rename_i e_; first
        | (refine and_of (follows_of_fst (a := b₀) e_ ?_) (fun h_ => ?_); clear e_)))

theorem follows_catchUp {b₀ s : State} (h : b₀.Follows s) (i : Nat) :
    b₀.Follows (State.catchUp s i) := by
  unfold State.catchUp
  repeat' first
    | with_reducible (first
        | assumption | refine follows_ite ?_ ?_ | apply follows_follow | apply follows_free)
    | (intro _; try beta_reduce)
    | (extract_lets +onlyGivenNames x_; first
        | (refine and_of (p := b₀.Follows x_) ?_ (fun h_ => ?_); (on_goal 2 => clear_value x_); (on_goal 1 => (unfold x_; clear x_)))
        | ((first | (have t_ : Boot := x_; clear t_) | (have t_ : Flash := x_; clear t_) | (have t_ : Jtag := x_; clear t_)); unfold x_; clear x_)
        | clear_value x_)
    | fail_if_no_progress (with_reducible refine follows_mk (side_of ?_))
    | with_reducible (first
        | refine follows_foldl ?_ ?_ | refine follows_ite_fst ?_ ?_ | refine follows_foldl_fst ?_ ?_
        | refine follows_ite_snd ?_ ?_ | refine follows_of_fst (by assumption) ?_)
    | (split <;> try (rename_i e_; first
        | (refine and_of (follows_of_fst (a := b₀) e_ ?_) (fun h_ => ?_); clear e_)
        | (refine and_of (follows_of_snd (a := b₀) e_ ?_) (fun h_ => ?_); clear e_)))

theorem follows_freeSpare {b₀ s : State} (h : b₀.Follows s) (f : Nat) :
    b₀.Follows (State.freeSpare s f) := by
  unfold State.freeSpare
  repeat' first
    | with_reducible (first
        | assumption | refine follows_ite ?_ ?_ | apply follows_setRod)
    | (intro _; try beta_reduce)

theorem follows_returnThird {b₀ s : State} (h : b₀.Follows s) (f pos : Nat) :
    b₀.Follows (State.returnThird s f pos) := by
  unfold State.returnThird
  repeat' first
    | with_reducible (first
        | assumption | refine follows_ite ?_ ?_ | apply follows_setRod)
    | (intro _; try beta_reduce)

theorem follows_abandonCheck {b₀ s : State} (h : b₀.Follows s) (f : Nat) :
    b₀.Follows (State.abandonCheck s f) := by
  unfold State.abandonCheck
  repeat' first
    | with_reducible (first
        | assumption | refine follows_ite ?_ ?_ | apply follows_bump | apply follows_freeSpare | apply follows_returnThird
        | apply follows_setCheck)
    | (intro _; try beta_reduce)
    | (extract_lets +onlyGivenNames x_; first
        | (refine and_of (p := b₀.Follows x_) ?_ (fun h_ => ?_); (on_goal 2 => clear_value x_); (on_goal 1 => (unfold x_; clear x_)))
        | ((first | (have t_ : Boot := x_; clear t_) | (have t_ : Flash := x_; clear t_) | (have t_ : Jtag := x_; clear t_)); unfold x_; clear x_)
        | clear_value x_)
    | fail_if_no_progress (with_reducible refine follows_mk (side_of ?_))
    | with_reducible (first
        | refine follows_foldl ?_ ?_ | refine follows_ite_fst ?_ ?_ | refine follows_foldl_fst ?_ ?_
        | refine follows_of_fst (by assumption) ?_)
    | (split <;> try (rename_i e_; first
        | (refine and_of (follows_of_fst (a := b₀) e_ ?_) (fun h_ => ?_); clear e_)))

theorem follows_endCheck {b₀ s : State} (h : b₀.Follows s) (f : Nat) :
    b₀.Follows (State.endCheck s f) := by
  unfold State.endCheck
  repeat' first
    | with_reducible (first
        | assumption | refine follows_ite ?_ ?_ | apply follows_abandonCheck | apply follows_followAll)
    | (intro _; try beta_reduce)

end Sys2Proof.Machine
end

