-- ==== Sys2Proof/Laws/KeepLoads.lean ====
section
/-!
SUPPORT. What the operations of Machine/Loads.lean can do to the parts that `State.Follows` speaks of.
-/

namespace Sys2Proof.Machine

set_option linter.unusedTactic false
set_option linter.unreachableTactic false
set_option linter.tactic.unusedName false

theorem follows_putShadow {b₀ s : State} (h : b₀.Follows s) (f off v : Nat) :
    b₀.Follows (State.putShadow s f off v) := by
  unfold State.putShadow
  repeat' first
    | with_reducible (first
        | assumption | refine follows_ite ?_ ?_)
    | (intro _; try beta_reduce)
    | fail_if_no_progress (with_reducible refine follows_mk (side_of ?_))
    | with_reducible (first
        | refine follows_foldl ?_ ?_ | refine follows_ite_fst ?_ ?_ | refine follows_foldl_fst ?_ ?_)

theorem follows_tickBefore {b₀ s : State} (h : b₀.Follows s) (launch : Nat) :
    b₀.Follows (State.tickBefore s launch).1 := by
  unfold State.tickBefore
  repeat' first
    | with_reducible (first
        | assumption | refine follows_ite ?_ ?_ | apply follows_free)
    | (intro _; try beta_reduce)

theorem follows_armSwap {b₀ s : State} (h : b₀.Follows s) (tick : Nat) :
    b₀.Follows (State.armSwap s tick) := by
  unfold State.armSwap
  repeat' first
    | with_reducible (first
        | assumption | refine follows_ite ?_ ?_ | apply follows_free)
    | (intro _; try beta_reduce)
    | fail_if_no_progress (with_reducible refine follows_mk (side_of ?_))
    | with_reducible (first
        | refine follows_foldl ?_ ?_ | refine follows_ite_fst ?_ ?_ | refine follows_foldl_fst ?_ ?_
        | refine follows_ite_snd ?_ ?_)

theorem follows_armBoard {b₀ s : State} (h : b₀.Follows s) (tick : Nat) :
    b₀.Follows (State.armBoard s tick) := by
  unfold State.armBoard
  repeat' first
    | with_reducible (first
        | assumption | refine follows_ite ?_ ?_)
    | (intro _; try beta_reduce)
    | fail_if_no_progress (with_reducible refine follows_mk (side_of ?_))
    | with_reducible (first
        | refine follows_foldl ?_ ?_ | refine follows_ite_fst ?_ ?_ | refine follows_foldl_fst ?_ ?_)

theorem follows_copyBoard {b₀ s : State} (h : b₀.Follows s) :
    b₀.Follows (State.copyBoard s) := by
  unfold State.copyBoard
  repeat' first
    | with_reducible (first
        | assumption | refine follows_ite ?_ ?_ | apply follows_setReg)
    | (intro _; try beta_reduce)
    | fail_if_no_progress (with_reducible refine follows_mk (side_of ?_))
    | with_reducible (first
        | refine follows_foldl ?_ ?_ | refine follows_ite_fst ?_ ?_ | refine follows_foldl_fst ?_ ?_)

theorem follows_dropWindow {b₀ s : State} (h : b₀.Follows s) (w : Nat × Nat) :
    b₀.Follows (State.dropWindow s w) := by
  unfold State.dropWindow
  repeat' first
    | with_reducible (first
        | assumption | refine follows_ite ?_ ?_)
    | (intro _; try beta_reduce)
    | (extract_lets +onlyGivenNames x_; first
        | (refine and_of (p := b₀.Follows x_) ?_ (fun h_ => ?_); (on_goal 2 => clear_value x_); (on_goal 1 => (unfold x_; clear x_)))
        | ((first | (have t_ : Boot := x_; clear t_) | (have t_ : Flash := x_; clear t_) | (have t_ : Jtag := x_; clear t_)); unfold x_; clear x_)
        | clear_value x_)
    | fail_if_no_progress (with_reducible refine follows_mk (side_of ?_))
    | with_reducible (first
        | refine follows_foldl ?_ ?_ | refine follows_ite_fst ?_ ?_ | refine follows_foldl_fst ?_ ?_
        | refine follows_of_fst (by assumption) ?_)
    | (split <;> try (rename_i e_; first
        | (refine and_of (follows_of_fst (a := b₀) e_ ?_) (fun h_ => ?_); clear e_)))

theorem follows_loaderClear {b₀ s : State} (h : b₀.Follows s) :
    b₀.Follows (State.loaderClear s) := by
  unfold State.loaderClear
  repeat' first
    | with_reducible (first
        | assumption | refine follows_ite ?_ ?_ | apply follows_armBoard | apply follows_armSwap | apply follows_copyBoard
        | apply follows_dropWindow | apply follows_putShadow | apply follows_tickBefore)
    | (intro _; try beta_reduce)
    | fail_if_no_progress (with_reducible refine follows_mk (side_of ?_))
    | with_reducible (first
        | refine follows_foldl ?_ ?_ | refine follows_ite_fst ?_ ?_ | refine follows_foldl_fst ?_ ?_)

theorem follows_releaseHere {b₀ s : State} (h : b₀.Follows s) (l : Load) :
    b₀.Follows (State.releaseHere s l) := by
  unfold State.releaseHere
  repeat' first
    | with_reducible (first
        | assumption | refine follows_ite ?_ ?_ | apply follows_loaderClear)
    | (intro _; try beta_reduce)
    | fail_if_no_progress (with_reducible refine follows_mk (side_of ?_))
    | with_reducible (first
        | refine follows_foldl ?_ ?_ | refine follows_ite_fst ?_ ?_ | refine follows_foldl_fst ?_ ?_)

theorem follows_releaseCtx {b₀ s : State} (h : b₀.Follows s) (c : Nat) :
    b₀.Follows (State.releaseCtx s c) := by
  unfold State.releaseCtx
  repeat' first
    | with_reducible (first
        | assumption | refine follows_ite ?_ ?_ | apply follows_releaseHere)
    | (intro _; try beta_reduce)
    | fail_if_no_progress (with_reducible refine follows_mk (side_of ?_))
    | with_reducible (first
        | refine follows_foldl ?_ ?_ | refine follows_ite_fst ?_ ?_ | refine follows_foldl_fst ?_ ?_)

end Sys2Proof.Machine
end

