-- ==== Sys2Proof/Laws/KeepStop.lean ====
section
/-!
SUPPORT. What the operations of Machine/Stop.lean can do to the parts that `State.Follows` speaks of.
-/

namespace Sys2Proof.Machine

set_option linter.unusedTactic false
set_option linter.unreachableTactic false
set_option linter.tactic.unusedName false

theorem follows_detach {b₀ s : State} (h : b₀.Follows s) (key : Nat) :
    b₀.Follows (State.detach s key) := by
  unfold State.detach
  repeat' first
    | with_reducible (first
        | assumption | refine follows_ite ?_ ?_)
    | (intro _; try beta_reduce)
    | fail_if_no_progress (with_reducible refine follows_mk (side_of ?_))
    | with_reducible (first
        | refine follows_foldl ?_ ?_ | refine follows_ite_fst ?_ ?_ | refine follows_foldl_fst ?_ ?_)

theorem follows_force {b₀ s : State} (h : b₀.Follows s) (key status : Nat) :
    b₀.Follows (State.force s key status) := by
  unfold State.force
  repeat' first
    | with_reducible (first
        | assumption | refine follows_ite ?_ ?_ | apply follows_complete | apply follows_detach)
    | (intro _; try beta_reduce)

theorem follows_stopChecked {b₀ s : State} (h : b₀.Follows s) (i : Nat) :
    b₀.Follows (State.stopChecked s i) := by
  unfold State.stopChecked
  repeat' first
    | with_reducible (first
        | assumption | refine follows_ite ?_ ?_ | apply follows_abandonCheck | apply follows_endCheck | apply follows_setCheck)
    | (intro _; try beta_reduce)
    | (extract_lets +onlyGivenNames x_; first
        | (refine and_of (p := b₀.Follows x_) ?_ (fun h_ => ?_); (on_goal 2 => clear_value x_); (on_goal 1 => (unfold x_; clear x_)))
        | ((first | (have t_ : Boot := x_; clear t_) | (have t_ : Flash := x_; clear t_) | (have t_ : Jtag := x_; clear t_)); unfold x_; clear x_)
        | clear_value x_)
    | fail_if_no_progress (with_reducible refine follows_mk (side_of ?_))
    | with_reducible (first
        | refine follows_foldl ?_ ?_ | refine follows_ite_fst ?_ ?_ | refine follows_foldl_fst ?_ ?_
        | refine follows_of_fst (by assumption) ?_)
    | (split <;> try (rename_i e_; first
        | (refine and_of (follows_of_fst (a := b₀) e_ ?_) (fun h_ => ?_); clear e_)))

theorem follows_clearRods {b₀ s : State} (h : b₀.Follows s) (c : Nat) :
    b₀.Follows (State.clearRods s c) := by
  unfold State.clearRods
  repeat' first
    | with_reducible (first
        | assumption | refine follows_ite ?_ ?_ | apply follows_stopChecked)
    | (intro _; try beta_reduce)
    | fail_if_no_progress (with_reducible refine follows_mk (side_of ?_))
    | with_reducible (first
        | refine follows_foldl ?_ ?_ | refine follows_ite_fst ?_ ?_ | refine follows_foldl_fst ?_ ?_)

theorem follows_zeroPartitions {b₀ s : State} (h : b₀.Follows s) (c : Nat) :
    b₀.Follows (State.zeroPartitions s c) := by
  unfold State.zeroPartitions
  repeat' first
    | with_reducible (first
        | assumption | refine follows_ite ?_ ?_ | apply follows_setFrame)
    | (intro _; try beta_reduce)
    | (extract_lets +onlyGivenNames x_; first
        | (refine and_of (p := b₀.Follows x_) ?_ (fun h_ => ?_); (on_goal 2 => clear_value x_); (on_goal 1 => (unfold x_; clear x_)))
        | ((first | (have t_ : Boot := x_; clear t_) | (have t_ : Flash := x_; clear t_) | (have t_ : Jtag := x_; clear t_)); unfold x_; clear x_)
        | clear_value x_)
    | fail_if_no_progress (with_reducible refine follows_mk (side_of ?_))
    | with_reducible (first
        | refine follows_foldl ?_ ?_ | refine follows_ite_fst ?_ ?_ | refine follows_foldl_fst ?_ ?_
        | refine follows_of_fst (by assumption) ?_)
    | (split <;> try (rename_i e_; first
        | (refine and_of (follows_of_fst (a := b₀) e_ ?_) (fun h_ => ?_); clear e_)))

theorem follows_endCall {b₀ s : State} (h : b₀.Follows s) (c : Call) (status : Nat) (data : List Byte) :
    b₀.Follows (State.endCall s c status data) := by
  unfold State.endCall
  repeat' first
    | with_reducible (first
        | assumption | refine follows_ite ?_ ?_ | apply follows_complete | apply follows_setSession)
    | (intro _; try beta_reduce)

theorem follows_abortCall {b₀ s : State} (h : b₀.Follows s) (c : Call) (status : Nat) :
    b₀.Follows (State.abortCall s c status) := by
  unfold State.abortCall
  repeat' first
    | with_reducible (first
        | assumption | refine follows_ite ?_ ?_ | apply follows_endCall)
    | (intro _; try beta_reduce)

theorem follows_abortCalls {b₀ s : State} (h : b₀.Follows s) (v : Fn) (status : Nat) :
    b₀.Follows (State.abortCalls s v status) := by
  unfold State.abortCalls
  repeat' first
    | with_reducible (first
        | assumption | refine follows_ite ?_ ?_ | apply follows_abortCall)
    | (intro _; try beta_reduce)
    | fail_if_no_progress (with_reducible refine follows_mk (side_of ?_))
    | with_reducible (first
        | refine follows_foldl ?_ ?_ | refine follows_ite_fst ?_ ?_ | refine follows_foldl_fst ?_ ?_)

theorem follows_dropJob {b₀ s : State} (h : b₀.Follows s) (j : Nat) :
    b₀.Follows (State.dropJob s j) := by
  unfold State.dropJob
  repeat' first
    | with_reducible (first
        | assumption | refine follows_ite ?_ ?_ | apply follows_complete)
    | (intro _; try beta_reduce)
    | (extract_lets +onlyGivenNames x_; first
        | (refine and_of (p := b₀.Follows x_) ?_ (fun h_ => ?_); (on_goal 2 => clear_value x_); (on_goal 1 => (unfold x_; clear x_)))
        | ((first | (have t_ : Boot := x_; clear t_) | (have t_ : Flash := x_; clear t_) | (have t_ : Jtag := x_; clear t_)); unfold x_; clear x_)
        | clear_value x_)
    | fail_if_no_progress (with_reducible refine follows_mk (side_of ?_))
    | with_reducible (first
        | refine follows_foldl ?_ ?_ | refine follows_ite_fst ?_ ?_ | refine follows_foldl_fst ?_ ?_
        | refine follows_of_fst (by assumption) ?_)
    | (split <;> try (rename_i e_; first
        | (refine and_of (follows_of_fst (a := b₀) e_ ?_) (fun h_ => ?_); clear e_)))

theorem follows_discardAt {b₀ s : State} (h : b₀.Follows s) (m : Nat) (gone : Xfer → Bool) :
    b₀.Follows (State.discardAt s m gone) := by
  unfold State.discardAt
  repeat' first
    | with_reducible (first
        | assumption | refine follows_ite ?_ ?_ | apply follows_raise | apply follows_setMover)
    | (intro _; try beta_reduce)

theorem follows_discardAhead {b₀ s : State} (h : b₀.Follows s) (gone : Xfer → Bool) :
    b₀.Follows (State.discardAhead s gone) := by
  unfold State.discardAhead
  repeat' first
    | with_reducible (first
        | assumption | refine follows_ite ?_ ?_ | apply follows_discardAt)
    | (intro _; try beta_reduce)
    | fail_if_no_progress (with_reducible refine follows_mk (side_of ?_))
    | with_reducible (first
        | refine follows_foldl ?_ ?_ | refine follows_ite_fst ?_ ?_ | refine follows_foldl_fst ?_ ?_)

theorem follows_stopWork {b₀ s : State} (h : b₀.Follows s) (c : Nat) :
    b₀.Follows (State.stopWork s c) := by
  unfold State.stopWork
  repeat' first
    | with_reducible (first
        | assumption | refine follows_ite ?_ ?_ | apply follows_abortCalls | apply follows_clearRods
        | apply follows_discardAhead | apply follows_dropJob | apply follows_releaseCtx | apply follows_zeroPartitions)
    | (intro _; try beta_reduce)
    | fail_if_no_progress (with_reducible refine follows_mk (side_of ?_))
    | with_reducible (first
        | refine follows_foldl ?_ ?_ | refine follows_ite_fst ?_ ?_ | refine follows_foldl_fst ?_ ?_)

theorem follows_quiesce {b₀ s : State} (h : b₀.Follows s) (c cause : Nat) :
    b₀.Follows (State.quiesce s c cause) := by
  unfold State.quiesce
  repeat' first
    | with_reducible (first
        | assumption | refine follows_ite ?_ ?_ | apply follows_setCtx | apply follows_stopWork)
    | (intro _; try beta_reduce)

theorem follows_poisonConsumed {b₀ s : State} (h : b₀.Follows s) (c point who kind : Nat) :
    b₀.Follows (State.poisonConsumed s c point who kind) := by
  unfold State.poisonConsumed
  repeat' first
    | with_reducible (first
        | assumption | refine follows_ite ?_ ?_ | apply follows_bump | apply follows_post | apply follows_postMgr
        | apply follows_quiesce | apply follows_raise)
    | (intro _; try beta_reduce)

theorem follows_noteRodFault {b₀ s : State} (h : b₀.Follows s) (i code : Nat) :
    b₀.Follows (State.noteRodFault s i code) := by
  unfold State.noteRodFault
  repeat' first
    | with_reducible (first
        | assumption | refine follows_ite ?_ ?_ | apply follows_post | apply follows_postMgr | apply follows_raise
        | apply follows_setReg)
    | (intro _; try beta_reduce)

theorem follows_rodFault {b₀ s : State} (h : b₀.Follows s) (i code : Nat) :
    b₀.Follows (State.rodFault s i code) := by
  unfold State.rodFault
  repeat' first
    | with_reducible (first
        | assumption | refine follows_ite ?_ ?_ | apply follows_noteRodFault | apply follows_quiesce)
    | (intro _; try beta_reduce)

theorem follows_poisonPoint {b₀ s : State} (h : b₀.Follows s) (i : Nat) :
    b₀.Follows (State.poisonPoint s i).2 := by
  unfold State.poisonPoint
  repeat' first
    | with_reducible (first
        | assumption | refine follows_ite ?_ ?_ | apply follows_free)
    | (intro _; try beta_reduce)
    | fail_if_no_progress (with_reducible refine follows_mk (side_of ?_))
    | with_reducible (first
        | refine follows_foldl ?_ ?_ | refine follows_ite_fst ?_ ?_ | refine follows_foldl_fst ?_ ?_
        | refine follows_ite_snd ?_ ?_)

theorem follows_rodPoison {b₀ s : State} (h : b₀.Follows s) (i : Nat) :
    b₀.Follows (State.rodPoison s i) := by
  unfold State.rodPoison
  repeat' first
    | with_reducible (first
        | assumption | refine follows_ite ?_ ?_ | apply follows_noteRodFault | apply follows_poisonConsumed
        | apply follows_poisonPoint)
    | (intro _; try beta_reduce)

end Sys2Proof.Machine
end

