-- ==== Sys2Proof/Laws/KeepTenancy.lean ====
section
/-!
SUPPORT. What the operations of Machine/Tenancy.lean can do to the parts that `State.Follows` speaks of.
-/

namespace Sys2Proof.Machine

set_option linter.unusedTactic false
set_option linter.unreachableTactic false
set_option linter.tactic.unusedName false

theorem follows_zeroize {b₀ s : State} (h : b₀.Follows s) (n : Nat) (st : KeyState) :
    b₀.Follows (State.zeroize s n st) := by
  unfold State.zeroize
  repeat' first
    | with_reducible (first
        | assumption | refine follows_ite ?_ ?_ | apply follows_setKey)
    | (intro _; try beta_reduce)
    | fail_if_no_progress (with_reducible refine follows_mk (side_of ?_))
    | with_reducible (first
        | refine follows_foldl ?_ ?_ | refine follows_ite_fst ?_ ?_ | refine follows_foldl_fst ?_ ?_)

theorem follows_endKeyRefs {b₀ s : State} (h : b₀.Follows s) (n : Nat) :
    b₀.Follows (State.endKeyRefs s n).1 := by
  unfold State.endKeyRefs
  repeat' first
    | with_reducible (first
        | assumption | refine follows_ite ?_ ?_ | apply follows_force | apply follows_guardOutSlot | apply follows_setSlot)
    | (intro _; try beta_reduce)
    | fail_if_no_progress (with_reducible refine follows_mk (side_of ?_))
    | with_reducible (first
        | refine follows_foldl ?_ ?_ | refine follows_ite_fst ?_ ?_ | refine follows_foldl_fst ?_ ?_)

theorem follows_advanceWrap {b₀ s : State} (h : b₀.Follows s) (c : Nat) :
    b₀.Follows (State.advanceWrap s c) := by
  unfold State.advanceWrap
  repeat' first
    | with_reducible (first
        | assumption | refine follows_ite ?_ ?_ | apply follows_setCtx)
    | (intro _; try beta_reduce)

theorem follows_takeKey {b₀ s : State} (h : b₀.Follows s) (c : Crit) (key : Nat) (st : KeyState) :
    b₀.Follows (State.takeKey s c key st) := by
  unfold State.takeKey
  repeat' first
    | with_reducible (first
        | assumption | refine follows_ite ?_ ?_ | apply follows_setKey)
    | (intro _; try beta_reduce)

theorem follows_retireKey {b₀ s : State} (h : b₀.Follows s) (n zeroizeUs : Nat) :
    b₀.Follows (State.retireKey s n zeroizeUs) := by
  unfold State.retireKey
  repeat' first
    | with_reducible (first
        | assumption | refine follows_ite ?_ ?_ | apply follows_setKey | apply follows_zeroize)
    | (intro _; try beta_reduce)

theorem follows_createContext {b₀ s : State} (h : b₀.Follows s) (c : Crit) :
    b₀.Follows (State.createContext s c) := by
  unfold State.createContext
  repeat' first
    | with_reducible (first
        | assumption | refine follows_ite ?_ ?_ | apply follows_setCtx)
    | (intro _; try beta_reduce)

theorem follows_destroyContext {b₀ s : State} (h : b₀.Follows s) (c : Crit) :
    b₀.Follows (State.destroyContext s c) := by
  unfold State.destroyContext
  repeat' first
    | with_reducible (first
        | assumption | refine follows_ite ?_ ?_ | apply follows_quiesce | apply follows_setCtx)
    | (intro _; try beta_reduce)

theorem follows_removeContext {b₀ s : State} (h : b₀.Follows s) (c : Nat) :
    b₀.Follows (State.removeContext s c) := by
  unfold State.removeContext
  repeat' first
    | with_reducible (first
        | assumption | refine follows_ite ?_ ?_ | apply follows_force | apply follows_setCtx | apply follows_setExtent
        | apply follows_setKey | apply follows_zeroize)
    | (intro _; try beta_reduce)
    | fail_if_no_progress (with_reducible refine follows_mk (side_of ?_))
    | with_reducible (first
        | refine follows_foldl ?_ ?_ | refine follows_ite_fst ?_ ?_ | refine follows_foldl_fst ?_ ?_)

theorem follows_unbindTallies {b₀ s : State} (h : b₀.Follows s) (c : Nat) :
    b₀.Follows (State.unbindTallies s c) := by
  unfold State.unbindTallies
  repeat' first
    | with_reducible (first
        | assumption | refine follows_ite ?_ ?_)
    | (intro _; try beta_reduce)
    | fail_if_no_progress (with_reducible refine follows_mk (side_of ?_))
    | with_reducible (first
        | refine follows_foldl ?_ ?_ | refine follows_ite_fst ?_ ?_ | refine follows_foldl_fst ?_ ?_)

theorem follows_freeContext {b₀ s : State} (h : b₀.Follows s) (c : Nat) :
    b₀.Follows (State.freeContext s c) := by
  unfold State.freeContext
  repeat' first
    | with_reducible (first
        | assumption | refine follows_ite ?_ ?_ | apply follows_postMgr | apply follows_setCtx | apply follows_unbindTallies)
    | (intro _; try beta_reduce)
    | fail_if_no_progress (with_reducible refine follows_mk (side_of ?_))
    | with_reducible (first
        | refine follows_foldl ?_ ?_ | refine follows_ite_fst ?_ ?_ | refine follows_foldl_fst ?_ ?_)

theorem follows_execContextFree {b₀ s : State} (h : b₀.Follows s) (ctx : Fin 1024) :
    b₀.Goes (execContextFree ctx s) := by
  unfold execContextFree
  repeat' first
    | with_reducible (first
        | assumption | refine follows_ite ?_ ?_ | refine goes_next ?_ | apply follows_freeContext | apply follows_onlyIf)
    | (intro _; try beta_reduce)

theorem follows_execKeyRefsZero {b₀ s : State} (h : b₀.Follows s) (slot : Fin 1024) :
    b₀.Goes (execKeyRefsZero slot s) := by
  unfold execKeyRefsZero
  repeat' first
    | with_reducible (first
        | assumption | refine follows_ite ?_ ?_ | refine goes_next ?_ | apply follows_onlyIf | apply follows_zeroize)
    | (intro _; try beta_reduce)

theorem follows_setIssuer {b₀ s : State} (h : b₀.Follows s) (n : Nat) (v : Issuer) :
    b₀.Follows (State.setIssuer s n v) := by
  unfold State.setIssuer
  repeat' first
    | with_reducible (first
        | assumption | refine follows_ite ?_ ?_)
    | (intro _; try beta_reduce)
    | fail_if_no_progress (with_reducible refine follows_mk (side_of ?_))
    | with_reducible (first
        | refine follows_foldl ?_ ?_ | refine follows_ite_fst ?_ ?_ | refine follows_foldl_fst ?_ ?_)

theorem follows_leaveKeys {b₀ s : State} (h : b₀.Follows s) :
    b₀.Follows (State.leaveKeys s) := by
  unfold State.leaveKeys
  repeat' first
    | with_reducible (first
        | assumption | refine follows_ite ?_ ?_)
    | (intro _; try beta_reduce)
    | fail_if_no_progress (with_reducible refine follows_mk (side_of ?_))
    | with_reducible (first
        | refine follows_foldl ?_ ?_ | refine follows_ite_fst ?_ ?_ | refine follows_foldl_fst ?_ ?_)

theorem follows_deriveOwn {b₀ s : State} (h : b₀.Follows s) :
    b₀.Follows (State.deriveOwn s) := by
  unfold State.deriveOwn
  repeat' first
    | with_reducible (first
        | assumption | refine follows_ite ?_ ?_)
    | (intro _; try beta_reduce)
    | fail_if_no_progress (with_reducible refine follows_mk (side_of ?_))
    | with_reducible (first
        | refine follows_foldl ?_ ?_ | refine follows_ite_fst ?_ ?_ | refine follows_foldl_fst ?_ ?_)

theorem follows_putRoster {b₀ s : State} (h : b₀.Follows s) (ep key : Nat) :
    b₀.Follows (State.putRoster s ep key) := by
  unfold State.putRoster
  repeat' first
    | with_reducible (first
        | assumption | refine follows_ite ?_ ?_)
    | (intro _; try beta_reduce)
    | fail_if_no_progress (with_reducible refine follows_mk (side_of ?_))
    | with_reducible (first
        | refine follows_foldl ?_ ?_ | refine follows_ite_fst ?_ ?_ | refine follows_foldl_fst ?_ ?_)

theorem follows_deriveSelf {b₀ s : State} (h : b₀.Follows s) :
    b₀.Follows (State.deriveSelf s) := by
  unfold State.deriveSelf
  repeat' first
    | with_reducible (first
        | assumption | refine follows_ite ?_ ?_ | apply follows_deriveOwn | apply follows_putRoster)
    | (intro _; try beta_reduce)

theorem follows_changeIssuer {b₀ s : State} (h : b₀.Follows s) (n : Nat) (v : Issuer) :
    b₀.Follows (State.changeIssuer s n v) := by
  unfold State.changeIssuer
  repeat' first
    | with_reducible (first
        | assumption | refine follows_ite ?_ ?_ | apply follows_deriveSelf | apply follows_setIssuer)
    | (intro _; try beta_reduce)

theorem follows_deriveCtrl {b₀ s : State} (h : b₀.Follows s) :
    b₀.Follows (State.deriveCtrl s) := by
  unfold State.deriveCtrl
  repeat' first
    | with_reducible (first
        | assumption | refine follows_ite ?_ ?_ | apply follows_putRoster)
    | (intro _; try beta_reduce)

theorem follows_execMgrKeyExpire {b₀ s : State} (h : b₀.Follows s) :
    b₀.Goes (execMgrKeyExpire s) := by
  unfold execMgrKeyExpire
  repeat' first
    | with_reducible (first
        | assumption | refine follows_ite ?_ ?_ | refine goes_next ?_ | apply follows_elapseTo)
    | (intro _; try beta_reduce)
    | (extract_lets +onlyGivenNames x_; first
        | (refine and_of (p := b₀.Follows x_) ?_ (fun h_ => ?_); (on_goal 2 => clear_value x_); (on_goal 1 => (unfold x_; clear x_)))
        | ((first | (have t_ : Boot := x_; clear t_) | (have t_ : Flash := x_; clear t_) | (have t_ : Jtag := x_; clear t_)); unfold x_; clear x_)
        | clear_value x_)
    | fail_if_no_progress (with_reducible refine follows_mk (side_of ?_))
    | with_reducible (first
        | refine follows_foldl ?_ ?_ | refine follows_ite_fst ?_ ?_ | refine follows_foldl_fst ?_ ?_ | refine goes_ite ?_ ?_
        | refine follows_of_fst (by assumption) ?_)
    | (split <;> try (rename_i e_; first
        | (refine and_of (follows_of_fst (a := b₀) e_ ?_) (fun h_ => ?_); clear e_)))

end Sys2Proof.Machine
end

