-- ==== Sys2Proof/Laws/KeepPower.lean ====
section
/-!
SUPPORT. What the operations of Machine/Power.lean can do to the parts that `State.Follows` speaks of.
-/

namespace Sys2Proof.Machine

set_option linter.unusedTactic false
set_option linter.unreachableTactic false
set_option linter.tactic.unusedName false

theorem follows_abandonFlash {b₀ s : State} (h : b₀.Follows s) : b₀.Follows (State.abandonFlash s) := by
  obtain ⟨h1, h2, h3, h4, h5, h6, h7, h8⟩ := follows_free h
  unfold State.abandonFlash
  refine ⟨h1, h2, h3, h4, h5, h6, h7, ?_⟩
  rw [← h8]
  dsimp only
  repeat' split
  all_goals first
    | rfl
    | exact Flash.hint_journalFloor _ _ _ _

theorem follows_resetModule {b₀ s : State} (h : b₀.Follows s) (cause : Nat) :
    b₀.Follows (State.resetModule s cause) := by
  have k := follows_abandonFlash h
  unfold State.resetModule
  exact ⟨k.1, k.2.1, k.2.2.1, k.2.2.2.1, k.2.2.2.2.1, fun _ => rfl, k.2.2.2.2.2.2.1, k.2.2.2.2.2.2.2⟩

theorem follows_selfReset {b₀ s : State} (h : b₀.Follows s) (cause : Nat) :
    b₀.Follows (State.selfReset s cause) := by
  unfold State.selfReset
  repeat' first
    | with_reducible (first
        | assumption | refine follows_ite ?_ ?_ | apply follows_emit | apply follows_resetModule)
    | (intro _; try beta_reduce)
    | fail_if_no_progress (with_reducible refine follows_mk (side_of ?_))
    | with_reducible (first
        | refine follows_foldl ?_ ?_ | refine follows_ite_fst ?_ ?_ | refine follows_foldl_fst ?_ ?_)

theorem follows_turnOff {b₀ s : State} (h : b₀.Follows s) (st : Stage) (held : Bool) :
    b₀.Follows (State.turnOff s st held) := by
  have k := follows_resetModule h 0
  unfold State.turnOff
  exact ⟨k.1, k.2.1, k.2.2.1, k.2.2.2.1, k.2.2.2.2.1, k.2.2.2.2.2.1, fun _ e => (nomatch e), k.2.2.2.2.2.2.2⟩

theorem follows_startRamp {b₀ s : State} (h : b₀.Follows s) :
    b₀.Follows (State.startRamp s) := by
  unfold State.startRamp
  repeat' first
    | with_reducible (first
        | assumption | refine follows_ite ?_ ?_)
    | (intro _; try beta_reduce)
    | fail_if_no_progress (with_reducible refine follows_mk (side_of ?_))
    | with_reducible (first
        | refine follows_foldl ?_ ?_ | refine follows_ite_fst ?_ ?_ | refine follows_foldl_fst ?_ ?_)

theorem follows_unlatch {b₀ s : State} (h : b₀.Follows s) :
    b₀.Follows (State.unlatch s) := by
  unfold State.unlatch
  repeat' first
    | with_reducible (first
        | assumption | refine follows_ite ?_ ?_)
    | (intro _; try beta_reduce)
    | fail_if_no_progress (with_reducible refine follows_mk (side_of ?_))
    | with_reducible (first
        | refine follows_foldl ?_ ?_ | refine follows_ite_fst ?_ ?_ | refine follows_foldl_fst ?_ ?_)

theorem follows_execPowerInputRise {b₀ s : State} (h : b₀.Follows s) (mv heldMs : Nat) :
    b₀.Goes (execPowerInputRise mv heldMs s) := by
  unfold execPowerInputRise
  repeat' first
    | with_reducible (first
        | assumption | refine follows_ite ?_ ?_ | refine goes_next ?_ | apply follows_onlyIf | apply follows_startRamp
        | apply follows_unlatch)
    | (intro _; try beta_reduce)
    | fail_if_no_progress (with_reducible refine follows_mk (side_of ?_))
    | with_reducible (first
        | refine follows_foldl ?_ ?_ | refine follows_ite_fst ?_ ?_ | refine follows_foldl_fst ?_ ?_ | refine goes_ite ?_ ?_)

theorem follows_execHotSwapPinChange {b₀ s : State} (h : b₀.Follows s) (mated : Bool) :
    b₀.Goes (execHotSwapPinChange mated s) := by
  unfold execHotSwapPinChange
  repeat' first
    | with_reducible (first
        | assumption | refine follows_ite ?_ ?_ | refine goes_next ?_ | apply follows_onlyIf | apply follows_startRamp
        | apply follows_turnOff)
    | (intro _; try beta_reduce)
    | fail_if_no_progress (with_reducible refine follows_mk (side_of ?_))
    | with_reducible (first
        | refine follows_foldl ?_ ?_ | refine follows_ite_fst ?_ ?_ | refine follows_foldl_fst ?_ ?_ | refine goes_ite ?_ ?_)

theorem follows_execBrownOutTurnOff {b₀ s : State} (h : b₀.Follows s) (mv ns : Nat) :
    b₀.Goes (execBrownOutTurnOff mv ns s) := by
  unfold execBrownOutTurnOff
  repeat' first
    | with_reducible (first
        | assumption | refine follows_ite ?_ ?_ | refine goes_next ?_ | apply follows_onlyIf | apply follows_turnOff)
    | (intro _; try beta_reduce)
    | fail_if_no_progress (with_reducible refine follows_mk (side_of ?_))
    | with_reducible (first
        | refine follows_foldl ?_ ?_ | refine follows_ite_fst ?_ ?_ | refine follows_foldl_fst ?_ ?_ | refine goes_ite ?_ ?_)

theorem follows_execOverVoltageTurnOff {b₀ s : State} (h : b₀.Follows s) (mv ns : Nat) :
    b₀.Goes (execOverVoltageTurnOff mv ns s) := by
  unfold execOverVoltageTurnOff
  repeat' first
    | with_reducible (first
        | assumption | refine follows_ite ?_ ?_ | refine goes_next ?_ | apply follows_onlyIf | apply follows_turnOff)
    | (intro _; try beta_reduce)
    | fail_if_no_progress (with_reducible refine follows_mk (side_of ?_))
    | with_reducible (first
        | refine follows_foldl ?_ ?_ | refine follows_ite_fst ?_ ?_ | refine follows_foldl_fst ?_ ?_ | refine goes_ite ?_ ?_)

theorem follows_execRailOutOfBand {b₀ s : State} (h : b₀.Follows s) (_page : Fin 8) :
    b₀.Goes (execRailOutOfBand _page s) := by
  unfold execRailOutOfBand
  repeat' first
    | with_reducible (first
        | assumption | refine follows_ite ?_ ?_ | refine goes_next ?_ | apply follows_onlyIf)
    | (intro _; try beta_reduce)
    | fail_if_no_progress (with_reducible refine follows_mk (side_of ?_))
    | with_reducible (first
        | refine follows_foldl ?_ ?_ | refine follows_ite_fst ?_ ?_ | refine follows_foldl_fst ?_ ?_ | refine goes_ite ?_ ?_)

theorem follows_execRailsGood {b₀ s : State} (h : b₀.Follows s) :
    b₀.Goes (execRailsGood s) := by
  unfold execRailsGood
  repeat' first
    | with_reducible (first
        | assumption | refine follows_ite ?_ ?_ | refine goes_next ?_ | apply follows_elapseTo | apply follows_onlyIf)
    | (intro _; try beta_reduce)
    | fail_if_no_progress (with_reducible refine follows_mk (side_of ?_))
    | with_reducible (first
        | refine follows_foldl ?_ ?_ | refine follows_ite_fst ?_ ?_ | refine follows_foldl_fst ?_ ?_ | refine goes_ite ?_ ?_)

theorem follows_setResetN {b₀ s : State} (h : b₀.Follows s) (high : Bool) : b₀.Follows (State.setResetN s high) := by
  unfold State.setResetN
  refine ⟨h.1, h.2.1, h.2.2.1, h.2.2.2.1, h.2.2.2.2.1, h.2.2.2.2.2.1, fun k => ?_, h.2.2.2.2.2.2.2⟩
  dsimp only
  split
  · exact fun e => nomatch e
  · exact h.2.2.2.2.2.2.1 k

theorem follows_execModuleReset {b₀ s : State} (h : b₀.Follows s) (lowNs : Nat) (released : Bool) :
    b₀.Goes (execModuleReset lowNs released s) := by
  unfold execModuleReset
  repeat' first
    | with_reducible (first
        | assumption | refine follows_ite ?_ ?_ | refine goes_next ?_ | apply follows_onlyIf | apply follows_resetModule
        | apply follows_setResetN | apply follows_startRamp | apply follows_unlatch)
    | (intro _; try beta_reduce)
    | fail_if_no_progress (with_reducible refine follows_mk (side_of ?_))
    | with_reducible (first
        | refine follows_foldl ?_ ?_ | refine follows_ite_fst ?_ ?_ | refine follows_foldl_fst ?_ ?_ | refine goes_ite ?_ ?_)

theorem follows_cause {b₀ s : State} (h : b₀.Follows s) (bits : Nat) :
    b₀.Follows (State.cause s bits) := by
  unfold State.cause
  repeat' first
    | with_reducible (first
        | assumption | refine follows_ite ?_ ?_ | apply follows_raise | apply follows_setReg)
    | (intro _; try beta_reduce)

theorem follows_decideStep {b₀ s : State} (h : b₀.Follows s) :
    b₀.Follows (State.decideStep s) := by
  unfold State.decideStep
  repeat' first
    | with_reducible (first
        | assumption | refine follows_ite ?_ ?_)
    | (intro _; try beta_reduce)
    | fail_if_no_progress (with_reducible refine follows_mk (side_of ?_))
    | with_reducible (first
        | refine follows_foldl ?_ ?_ | refine follows_ite_fst ?_ ?_ | refine follows_foldl_fst ?_ ?_)

theorem follows_execPowerSample {b₀ s : State} (h : b₀.Follows s) (mv dw : Nat) :
    b₀.Goes (execPowerSample mv dw s) := by
  unfold execPowerSample
  repeat' first
    | with_reducible (first
        | assumption | refine follows_ite ?_ ?_ | refine goes_next ?_ | apply follows_cause | apply follows_decideStep)
    | (intro _; try beta_reduce)
    | fail_if_no_progress (with_reducible refine follows_mk (side_of ?_))
    | with_reducible (first
        | refine follows_foldl ?_ ?_ | refine follows_ite_fst ?_ ?_ | refine follows_foldl_fst ?_ ?_ | refine goes_ite ?_ ?_)

theorem follows_execThrottleStepTakesEffect {b₀ s : State} (h : b₀.Follows s) :
    b₀.Goes (execThrottleStepTakesEffect s) := by
  unfold execThrottleStepTakesEffect
  repeat' first
    | with_reducible (first
        | assumption | refine follows_ite ?_ ?_ | refine goes_next ?_ | apply follows_elapseTo)
    | (intro _; try beta_reduce)
    | (extract_lets +onlyGivenNames x_; first
        | (refine and_of (p := b₀.Follows x_) ?_ (fun h_ => ?_); (on_goal 2 => clear_value x_); (on_goal 1 => (unfold x_; clear x_)))
        | ((first | (have t_ : Boot := x_; clear t_) | (have t_ : Flash := x_; clear t_) | (have t_ : Jtag := x_; clear t_)); unfold x_; clear x_)
        | clear_value x_)
    | fail_if_no_progress (with_reducible refine follows_mk (side_of ?_))
    | with_reducible (first
        | refine follows_foldl ?_ ?_ | refine follows_ite_fst ?_ ?_ | refine follows_foldl_fst ?_ ?_ | refine goes_ite ?_ ?_
        | refine follows_of_fst (by assumption) ?_)
    | (split <;> try (rename_i e_; first
        | (refine and_of (follows_of_fst (a := b₀) e_ ?_) (fun h_ => ?_); clear e_)))

theorem follows_readTemps {b₀ s : State} (h : b₀.Follows s) (t : Temps) :
    b₀.Follows (State.readTemps s t) := by
  unfold State.readTemps
  repeat' first
    | with_reducible (first
        | assumption | refine follows_ite ?_ ?_)
    | (intro _; try beta_reduce)
    | fail_if_no_progress (with_reducible refine follows_mk (side_of ?_))
    | with_reducible (first
        | refine follows_foldl ?_ ?_ | refine follows_ite_fst ?_ ?_ | refine follows_foldl_fst ?_ ?_)

theorem follows_execThermalThresholdCross {b₀ s : State} (h : b₀.Follows s) (t : Temps) :
    b₀.Goes (execThermalThresholdCross t s) := by
  unfold execThermalThresholdCross
  repeat' first
    | with_reducible (first
        | assumption | refine follows_ite ?_ ?_ | refine goes_next ?_ | apply follows_cause | apply follows_decideStep
        | apply follows_onlyIf | apply follows_readTemps)
    | (intro _; try beta_reduce)
    | fail_if_no_progress (with_reducible refine follows_mk (side_of ?_))
    | with_reducible (first
        | refine follows_foldl ?_ ?_ | refine follows_ite_fst ?_ ?_ | refine follows_foldl_fst ?_ ?_ | refine goes_ite ?_ ?_)

theorem follows_execThermalStepFall {b₀ s : State} (h : b₀.Follows s) (t : Temps) :
    b₀.Goes (execThermalStepFall t s) := by
  unfold execThermalStepFall
  repeat' first
    | with_reducible (first
        | assumption | refine follows_ite ?_ ?_ | refine goes_next ?_ | apply follows_decideStep | apply follows_onlyIf
        | apply follows_readTemps)
    | (intro _; try beta_reduce)
    | fail_if_no_progress (with_reducible refine follows_mk (side_of ?_))
    | with_reducible (first
        | refine follows_foldl ?_ ?_ | refine follows_ite_fst ?_ ?_ | refine follows_foldl_fst ?_ ?_ | refine goes_ite ?_ ?_)

theorem follows_execThermalTrip {b₀ s : State} (h : b₀.Follows s) (t : Temps) :
    b₀.Goes (execThermalTrip t s) := by
  unfold execThermalTrip
  repeat' first
    | with_reducible (first
        | assumption | refine follows_ite ?_ ?_ | refine goes_next ?_ | apply follows_cause | apply follows_postMgr
        | apply follows_readTemps)
    | (intro _; try beta_reduce)
    | (extract_lets +onlyGivenNames x_; first
        | (refine and_of (p := b₀.Follows x_) ?_ (fun h_ => ?_); (on_goal 2 => clear_value x_); (on_goal 1 => (unfold x_; clear x_)))
        | ((first | (have t_ : Boot := x_; clear t_) | (have t_ : Flash := x_; clear t_) | (have t_ : Jtag := x_; clear t_)); unfold x_; clear x_)
        | clear_value x_)
    | fail_if_no_progress (with_reducible refine follows_mk (side_of ?_))
    | with_reducible (first
        | refine follows_foldl ?_ ?_ | refine follows_ite_fst ?_ ?_ | refine follows_foldl_fst ?_ ?_ | refine goes_ite ?_ ?_
        | refine follows_of_fst (by assumption) ?_)
    | (split <;> try (rename_i e_; first
        | (refine and_of (follows_of_fst (a := b₀) e_ ?_) (fun h_ => ?_); clear e_)))

theorem follows_execTripTurnOff {b₀ s : State} (h : b₀.Follows s) :
    b₀.Goes (execTripTurnOff s) := by
  unfold execTripTurnOff
  repeat' first
    | with_reducible (first
        | assumption | refine follows_ite ?_ ?_ | refine goes_next ?_ | apply follows_elapseTo | apply follows_turnOff)
    | (intro _; try beta_reduce)
    | (extract_lets +onlyGivenNames x_; first
        | (refine and_of (p := b₀.Follows x_) ?_ (fun h_ => ?_); (on_goal 2 => clear_value x_); (on_goal 1 => (unfold x_; clear x_)))
        | ((first | (have t_ : Boot := x_; clear t_) | (have t_ : Flash := x_; clear t_) | (have t_ : Jtag := x_; clear t_)); unfold x_; clear x_)
        | clear_value x_)
    | fail_if_no_progress (with_reducible refine follows_mk (side_of ?_))
    | with_reducible (first
        | refine follows_foldl ?_ ?_ | refine follows_ite_fst ?_ ?_ | refine follows_foldl_fst ?_ ?_ | refine goes_ite ?_ ?_
        | refine follows_of_fst (by assumption) ?_)
    | (split <;> try (rename_i e_; first
        | (refine and_of (follows_of_fst (a := b₀) e_ ?_) (fun h_ => ?_); clear e_)))

theorem follows_execStrapRecheck {b₀ s : State} (h : b₀.Follows s) (pins : Straps) :
    b₀.Goes (execStrapRecheck pins s) := by
  unfold execStrapRecheck
  repeat' first
    | with_reducible (first
        | assumption | refine follows_ite ?_ ?_ | refine goes_next ?_ | apply follows_cause | apply follows_onlyIf)
    | (intro _; try beta_reduce)
    | (extract_lets +onlyGivenNames x_; first
        | (refine and_of (p := b₀.Follows x_) ?_ (fun h_ => ?_); (on_goal 2 => clear_value x_); (on_goal 1 => (unfold x_; clear x_)))
        | ((first | (have t_ : Boot := x_; clear t_) | (have t_ : Flash := x_; clear t_) | (have t_ : Jtag := x_; clear t_)); unfold x_; clear x_)
        | clear_value x_)
    | fail_if_no_progress (with_reducible refine follows_mk (side_of ?_))
    | with_reducible (first
        | refine follows_foldl ?_ ?_ | refine follows_ite_fst ?_ ?_ | refine follows_foldl_fst ?_ ?_ | refine goes_ite ?_ ?_
        | refine follows_of_fst (by assumption) ?_)
    | (split <;> try (rename_i e_; first
        | (refine and_of (follows_of_fst (a := b₀) e_ ?_) (fun h_ => ?_); clear e_)))

theorem follows_pmbus {b₀ s : State} (h : b₀.Follows s) (x : BusXfer) (code : Nat) (act : State → State) (hact
    : ∀ s, b₀.Follows s → b₀.Follows (act s)) :
    b₀.Goes (State.pmbus s x code act) := by
  unfold State.pmbus
  repeat' first
    | with_reducible (first
        | assumption | refine follows_ite ?_ ?_ | refine goes_next ?_ | apply hact | apply follows_emit)
    | (intro _; try beta_reduce)
    | fail_if_no_progress (with_reducible refine follows_mk (side_of ?_))
    | with_reducible (first
        | refine follows_foldl ?_ ?_ | refine follows_ite_fst ?_ ?_ | refine follows_foldl_fst ?_ ?_ | refine goes_ite ?_ ?_)

theorem follows_pmbusRead {b₀ s : State} (h : b₀.Follows s) (x : BusXfer) (code : Nat) (word : State → Nat) :
    b₀.Goes (State.pmbusRead s x code word) := by
  unfold State.pmbusRead
  repeat' first
    | with_reducible (first
        | assumption | refine follows_ite ?_ ?_ | refine goes_next ?_ | apply follows_emit | apply follows_pmbus)
    | (intro _; try beta_reduce)

theorem follows_execPage {b₀ s : State} (h : b₀.Follows s) (x : BusXfer) (page : Nat) :
    b₀.Goes (execPage x page s) := by
  unfold execPage
  repeat' first
    | with_reducible (first
        | assumption | refine follows_ite ?_ ?_ | refine goes_next ?_ | apply follows_emit | apply follows_pmbus)
    | (intro _; try beta_reduce)
    | fail_if_no_progress (with_reducible refine follows_mk (side_of ?_))
    | with_reducible (first
        | refine follows_foldl ?_ ?_ | refine follows_ite_fst ?_ ?_ | refine follows_foldl_fst ?_ ?_ | refine goes_ite ?_ ?_)

theorem follows_execClearFaults {b₀ s : State} (h : b₀.Follows s) (x : BusXfer) :
    b₀.Goes (execClearFaults x s) := by
  unfold execClearFaults
  repeat' first
    | with_reducible (first
        | assumption | refine follows_ite ?_ ?_ | refine goes_next ?_ | apply follows_pmbus)
    | (intro _; try beta_reduce)
    | fail_if_no_progress (with_reducible refine follows_mk (side_of ?_))
    | with_reducible (first
        | refine follows_foldl ?_ ?_ | refine follows_ite_fst ?_ ?_ | refine follows_foldl_fst ?_ ?_ | refine goes_ite ?_ ?_)

theorem follows_execStatusWord {b₀ s : State} (h : b₀.Follows s) (x : BusXfer) :
    b₀.Goes (execStatusWord x s) := by
  unfold execStatusWord
  repeat' first
    | with_reducible (first
        | assumption | refine follows_ite ?_ ?_ | refine goes_next ?_ | apply follows_pmbusRead)
    | (intro _; try beta_reduce)

theorem follows_execReadVin {b₀ s : State} (h : b₀.Follows s) (x : BusXfer) :
    b₀.Goes (execReadVin x s) := by
  unfold execReadVin
  repeat' first
    | with_reducible (first
        | assumption | refine follows_ite ?_ ?_ | refine goes_next ?_ | apply follows_pmbusRead)
    | (intro _; try beta_reduce)

theorem follows_execReadIin {b₀ s : State} (h : b₀.Follows s) (x : BusXfer) :
    b₀.Goes (execReadIin x s) := by
  unfold execReadIin
  repeat' first
    | with_reducible (first
        | assumption | refine follows_ite ?_ ?_ | refine goes_next ?_ | apply follows_pmbusRead)
    | (intro _; try beta_reduce)

theorem follows_execReadVout {b₀ s : State} (h : b₀.Follows s) (x : BusXfer) :
    b₀.Goes (execReadVout x s) := by
  unfold execReadVout
  repeat' first
    | with_reducible (first
        | assumption | refine follows_ite ?_ ?_ | refine goes_next ?_ | apply follows_pmbusRead)
    | (intro _; try beta_reduce)

theorem follows_execReadIout {b₀ s : State} (h : b₀.Follows s) (x : BusXfer) :
    b₀.Goes (execReadIout x s) := by
  unfold execReadIout
  repeat' first
    | with_reducible (first
        | assumption | refine follows_ite ?_ ?_ | refine goes_next ?_ | apply follows_pmbusRead)
    | (intro _; try beta_reduce)

theorem follows_execReadTemperature1 {b₀ s : State} (h : b₀.Follows s) (x : BusXfer) :
    b₀.Goes (execReadTemperature1 x s) := by
  unfold execReadTemperature1
  repeat' first
    | with_reducible (first
        | assumption | refine follows_ite ?_ ?_ | refine goes_next ?_ | apply follows_pmbusRead)
    | (intro _; try beta_reduce)

theorem follows_execReadPout {b₀ s : State} (h : b₀.Follows s) (x : BusXfer) :
    b₀.Goes (execReadPout x s) := by
  unfold execReadPout
  repeat' first
    | with_reducible (first
        | assumption | refine follows_ite ?_ ?_ | refine goes_next ?_ | apply follows_pmbusRead)
    | (intro _; try beta_reduce)

theorem follows_execReadPin {b₀ s : State} (h : b₀.Follows s) (x : BusXfer) :
    b₀.Goes (execReadPin x s) := by
  unfold execReadPin
  repeat' first
    | with_reducible (first
        | assumption | refine follows_ite ?_ ?_ | refine goes_next ?_ | apply follows_pmbusRead)
    | (intro _; try beta_reduce)

theorem follows_execTelemetryRefresh {b₀ s : State} (h : b₀.Follows s) (pages : List (Telemetry × Nat)) :
    b₀.Goes (execTelemetryRefresh pages s) := by
  unfold execTelemetryRefresh
  repeat' first
    | with_reducible (first
        | assumption | refine follows_ite ?_ ?_ | refine goes_next ?_ | apply follows_cause)
    | (intro _; try beta_reduce)
    | fail_if_no_progress (with_reducible refine follows_mk (side_of ?_))
    | with_reducible (first
        | refine follows_foldl ?_ ?_ | refine follows_ite_fst ?_ ?_ | refine follows_foldl_fst ?_ ?_ | refine goes_ite ?_ ?_)

theorem follows_execSmbusBlockRead {b₀ s : State} (h : b₀.Follows s) (addr offset len : Nat) :
    b₀.Goes (execSmbusBlockRead addr offset len s) := by
  unfold execSmbusBlockRead
  repeat' first
    | with_reducible (first
        | assumption | refine follows_ite ?_ ?_ | refine goes_next ?_ | apply follows_emit)
    | (intro _; try beta_reduce)
    | fail_if_no_progress (with_reducible refine follows_mk (side_of ?_))
    | with_reducible (first
        | refine follows_foldl ?_ ?_ | refine follows_ite_fst ?_ ?_ | refine follows_foldl_fst ?_ ?_ | refine goes_ite ?_ ?_)

theorem follows_execSmbusAlertClear {b₀ s : State} (h : b₀.Follows s) (addr offset value : Nat) :
    b₀.Goes (execSmbusAlertClear addr offset value s) := by
  unfold execSmbusAlertClear
  repeat' first
    | with_reducible (first
        | assumption | refine follows_ite ?_ ?_ | refine goes_next ?_ | apply follows_emit | apply follows_setReg)
    | (intro _; try beta_reduce)
    | fail_if_no_progress (with_reducible refine follows_mk (side_of ?_))
    | with_reducible (first
        | refine follows_foldl ?_ ?_ | refine follows_ite_fst ?_ ?_ | refine follows_foldl_fst ?_ ?_ | refine goes_ite ?_ ?_)

theorem follows_execSmbusAlertResponse {b₀ s : State} (h : b₀.Follows s) :
    b₀.Goes (execSmbusAlertResponse s) := by
  unfold execSmbusAlertResponse
  repeat' first
    | with_reducible (first
        | assumption | refine follows_ite ?_ ?_ | refine goes_next ?_ | apply follows_emit)
    | (intro _; try beta_reduce)

theorem follows_tap {b₀ s : State} (h : b₀.Follows s) (ir : Nat) (driven : Option Nat) (o : Out)
    (hd : driven.isSome = true → 3 ≤ ir ∧ ir ≤ 5) : b₀.Follows (State.tap s ir driven o) := by
  unfold State.tap
  refine follows_emit ?_ o
  exact ⟨h.1, h.2.1, h.2.2.1, h.2.2.2.1, h.2.2.2.2.1, h.2.2.2.2.2.1, fun _ => hd, h.2.2.2.2.2.2.2⟩

theorem follows_tapIdcode {b₀ s : State} (h : b₀.Follows s) :
    b₀.Follows (State.tapIdcode s) := by
  exact follows_tap h _ _ _ fun e => nomatch e

theorem follows_tapBypass {b₀ s : State} (h : b₀.Follows s) :
    b₀.Follows (State.tapBypass s) := by
  exact follows_tap h _ _ _ fun e => nomatch e

theorem follows_tapBoundary {b₀ s : State} (h : b₀.Follows s) (ir pins shifted : Nat) (drive : Bool)
    (hd : drive = true → 3 ≤ ir ∧ ir ≤ 5) : b₀.Follows (State.tapBoundary s ir pins shifted drive) := by
  unfold State.tapBoundary
  refine follows_ite ?_ (follows_tapBypass h)
  unfold State.tap
  refine follows_emit ?_ _
  refine ⟨h.1, h.2.1, h.2.2.1, h.2.2.2.1, h.2.2.2.2.1, h.2.2.2.2.2.1, fun _ => ?_, h.2.2.2.2.2.2.2⟩
  cases drive
  · exact fun e => nomatch e
  · exact fun _ => hd rfl

theorem follows_execJtagIdcode {b₀ s : State} (h : b₀.Follows s) :
    b₀.Goes (execJtagIdcode s) := by
  unfold execJtagIdcode
  repeat' first
    | with_reducible (first
        | assumption | refine follows_ite ?_ ?_ | refine goes_next ?_ | apply follows_onlyIf | apply follows_tapIdcode)
    | (intro _; try beta_reduce)

theorem follows_execJtagBypass {b₀ s : State} (h : b₀.Follows s) :
    b₀.Goes (execJtagBypass s) := by
  unfold execJtagBypass
  repeat' first
    | with_reducible (first
        | assumption | refine follows_ite ?_ ?_ | refine goes_next ?_ | apply follows_onlyIf | apply follows_tapBypass)
    | (intro _; try beta_reduce)

theorem follows_execJtagSamplePreload {b₀ s : State} (h : b₀.Follows s) (pins shifted : Nat) :
    b₀.Goes (execJtagSamplePreload pins shifted s) := by
  exact follows_onlyIf h (follows_tapBoundary h _ _ _ _ fun e => nomatch e)

theorem follows_execJtagExtest {b₀ s : State} (h : b₀.Follows s) (pins shifted : Nat) :
    b₀.Goes (execJtagExtest pins shifted s) := by
  exact follows_onlyIf h (follows_tapBoundary h _ _ _ _ fun _ => by decide)

theorem follows_execJtagExtestPulse {b₀ s : State} (h : b₀.Follows s) (pins shifted : Nat) :
    b₀.Goes (execJtagExtestPulse pins shifted s) := by
  exact follows_onlyIf h (follows_tapBoundary h _ _ _ _ fun _ => by decide)

theorem follows_execJtagExtestTrain {b₀ s : State} (h : b₀.Follows s) (pins shifted : Nat) :
    b₀.Goes (execJtagExtestTrain pins shifted s) := by
  exact follows_onlyIf h (follows_tapBoundary h _ _ _ _ fun _ => by decide)

end Sys2Proof.Machine
end

