-- ==== Sys2Proof/Laws/KeepAttest.lean ====
section
/-!
SUPPORT. What the operations of Machine/Attest.lean can do to the parts that `State.Follows` speaks of.
-/

namespace Sys2Proof.Machine

set_option linter.unusedTactic false
set_option linter.unreachableTactic false
set_option linter.tactic.unusedName false

theorem follows_ifOk {b₀ s : State} (h : b₀.Follows s) (key status : Nat) (act : State → State) (hact
    : ∀ s, b₀.Follows s → b₀.Follows (act s)) :
    b₀.Follows (State.ifOk s key status act) := by
  unfold State.ifOk
  repeat' first
    | with_reducible (first
        | assumption | refine follows_ite ?_ ?_ | apply hact | apply follows_complete)
    | (intro _; try beta_reduce)

theorem follows_actAttest {b₀ s : State} (h : b₀.Follows s) (key : Nat) :
    b₀.Follows (State.actAttest s key) := by
  unfold State.actAttest
  repeat' first
    | with_reducible (first
        | assumption | refine follows_ite ?_ ?_ | apply follows_ifOk)
    | (intro _; try beta_reduce)
    | (extract_lets +onlyGivenNames x_; first
        | (refine and_of (p := b₀.Follows x_) ?_ (fun h_ => ?_); (on_goal 2 => clear_value x_); (on_goal 1 => (unfold x_; clear x_)))
        | ((first | (have t_ : Boot := x_; clear t_) | (have t_ : Flash := x_; clear t_) | (have t_ : Jtag := x_; clear t_)); unfold x_; clear x_)
        | clear_value x_)
    | fail_if_no_progress (with_reducible refine follows_mk (side_of ?_))
    | with_reducible (first
        | refine follows_foldl ?_ ?_ | refine follows_ite_fst ?_ ?_ | refine follows_foldl_fst ?_ ?_
        | refine follows_of_fst (by assumption) ?_)
    | (split <;> try (rename_i e_; first
        | (refine and_of (follows_of_fst (a := b₀) e_ ?_) (fun h_ => ?_); clear e_)))

theorem follows_execAttest {b₀ s : State} (h : b₀.Follows s) (port : Fin 16) (p : Packet) :
    b₀.Goes (execAttest port p s) := by
  unfold execAttest
  repeat' first
    | with_reducible (first
        | assumption | refine follows_ite ?_ ?_ | refine goes_next ?_ | apply follows_actAttest | apply follows_arrive)
    | (intro _; try beta_reduce)

theorem follows_signReport {b₀ s : State} (h : b₀.Follows s) (x1 : Attest) (v : InSlot) :
    b₀.Follows (State.signReport s x1 v) := by
  unfold State.signReport
  repeat' first
    | with_reducible (first
        | assumption | refine follows_ite ?_ ?_ | apply follows_complete | apply follows_free | apply follows_setCtx)
    | (intro _; try beta_reduce)

theorem follows_execAttestComplete {b₀ s : State} (h : b₀.Follows s) :
    b₀.Goes (execAttestComplete s) := by
  unfold execAttestComplete
  repeat' first
    | with_reducible (first
        | assumption | refine follows_ite ?_ ?_ | refine goes_next ?_ | apply follows_signReport)
    | (intro _; try beta_reduce)
    | (extract_lets +onlyGivenNames x_; first
        | (refine and_of (p := b₀.Follows x_) ?_ (fun h_ => ?_); (on_goal 2 => clear_value x_); (on_goal 1 => (unfold x_; clear x_)))
        | ((first | (have t_ : Boot := x_; clear t_) | (have t_ : Flash := x_; clear t_) | (have t_ : Jtag := x_; clear t_)); unfold x_; clear x_)
        | clear_value x_)
    | fail_if_no_progress (with_reducible refine follows_mk (side_of ?_))
    | with_reducible (first
        | refine follows_foldl ?_ ?_ | refine follows_ite_fst ?_ ?_ | refine follows_foldl_fst ?_ ?_ | refine goes_ite ?_ ?_
        | refine follows_of_fst (by assumption) ?_)
    | (split <;> try (rename_i e_; first
        | (refine and_of (follows_of_fst (a := b₀) e_ ?_) (fun h_ => ?_); clear e_)))

theorem follows_actAttestCert {b₀ s : State} (h : b₀.Follows s) (key : Nat) :
    b₀.Follows (State.actAttestCert s key) := by
  unfold State.actAttestCert
  repeat' first
    | with_reducible (first
        | assumption | refine follows_ite ?_ ?_ | apply follows_complete | apply follows_ifOk)
    | (intro _; try beta_reduce)
    | (extract_lets +onlyGivenNames x_; first
        | (refine and_of (p := b₀.Follows x_) ?_ (fun h_ => ?_); (on_goal 2 => clear_value x_); (on_goal 1 => (unfold x_; clear x_)))
        | ((first | (have t_ : Boot := x_; clear t_) | (have t_ : Flash := x_; clear t_) | (have t_ : Jtag := x_; clear t_)); unfold x_; clear x_)
        | clear_value x_)
    | fail_if_no_progress (with_reducible refine follows_mk (side_of ?_))
    | with_reducible (first
        | refine follows_foldl ?_ ?_ | refine follows_ite_fst ?_ ?_ | refine follows_foldl_fst ?_ ?_
        | refine follows_of_fst (by assumption) ?_)
    | (split <;> try (rename_i e_; first
        | (refine and_of (follows_of_fst (a := b₀) e_ ?_) (fun h_ => ?_); clear e_)))

theorem follows_execAttestCert {b₀ s : State} (h : b₀.Follows s) (port : Fin 16) (p : Packet) :
    b₀.Goes (execAttestCert port p s) := by
  unfold execAttestCert
  repeat' first
    | with_reducible (first
        | assumption | refine follows_ite ?_ ?_ | refine goes_next ?_ | apply follows_actAttestCert | apply follows_arrive)
    | (intro _; try beta_reduce)

theorem follows_actFwChunk {b₀ s : State} (h : b₀.Follows s) (key : Nat) :
    b₀.Follows (State.actFwChunk s key) := by
  unfold State.actFwChunk
  repeat' first
    | with_reducible (first
        | assumption | refine follows_ite ?_ ?_ | apply follows_ifOk)
    | (intro _; try beta_reduce)
    | (extract_lets +onlyGivenNames x_; first
        | (refine and_of (p := b₀.Follows x_) ?_ (fun h_ => ?_); (on_goal 2 => clear_value x_); (on_goal 1 => (unfold x_; clear x_)))
        | ((first | (have t_ : Boot := x_; clear t_) | (have t_ : Flash := x_; clear t_) | (have t_ : Jtag := x_; clear t_)); unfold x_; clear x_)
        | clear_value x_)
    | fail_if_no_progress (with_reducible refine follows_mk (side_of ?_))
    | with_reducible (first
        | refine follows_foldl ?_ ?_ | refine follows_ite_fst ?_ ?_ | refine follows_foldl_fst ?_ ?_
        | refine follows_of_fst (by assumption) ?_)
    | (split <;> try (rename_i e_; first
        | (refine and_of (follows_of_fst (a := b₀) e_ ?_) (fun h_ => ?_); clear e_)))

theorem follows_execFwChunk {b₀ s : State} (h : b₀.Follows s) (port : Fin 16) (p : Packet) :
    b₀.Goes (execFwChunk port p s) := by
  unfold execFwChunk
  repeat' first
    | with_reducible (first
        | assumption | refine follows_ite ?_ ?_ | refine goes_next ?_ | apply follows_actFwChunk | apply follows_arrive)
    | (intro _; try beta_reduce)

theorem follows_execFwChunkWritten {b₀ s : State} (h : b₀.Follows s) (ok : Bool) :
    b₀.Goes (execFwChunkWritten ok s) := by
  unfold execFwChunkWritten
  repeat' first
    | with_reducible (first
        | assumption | refine follows_ite ?_ ?_ | refine goes_next ?_ | apply follows_complete)
    | (intro _; try beta_reduce)
    | (extract_lets +onlyGivenNames x_; first
        | (refine and_of (p := b₀.Follows x_) ?_ (fun h_ => ?_); (on_goal 2 => clear_value x_); (on_goal 1 => (unfold x_; clear x_)))
        | ((first | (have t_ : Boot := x_; clear t_) | (have t_ : Flash := x_; clear t_) | (have t_ : Jtag := x_; clear t_)); unfold x_; clear x_)
        | clear_value x_)
    | fail_if_no_progress (with_reducible refine follows_mk (side_of ?_))
    | with_reducible (first
        | refine follows_foldl ?_ ?_ | refine follows_ite_fst ?_ ?_ | refine follows_foldl_fst ?_ ?_ | refine goes_ite ?_ ?_
        | refine follows_of_fst (by assumption) ?_)
    | (split <;> try (rename_i e_; first
        | (refine and_of (follows_of_fst (a := b₀) e_ ?_) (fun h_ => ?_); clear e_)))

end Sys2Proof.Machine
end

