-- ==== Sys2Proof/Laws/KeepBoot.lean ====
section
/-!
SUPPORT. What the operations of Machine/Boot.lean can do to the parts that `State.Follows` speaks of.
-/

namespace Sys2Proof.Machine

set_option linter.unusedTactic false
set_option linter.unreachableTactic false
set_option linter.tactic.unusedName false

theorem follows_defaultMacs {b₀ s : State} (h : b₀.Follows s) :
    b₀.Follows (State.defaultMacs s) := by
  unfold State.defaultMacs
  repeat' first
    | with_reducible (first
        | assumption | refine follows_ite ?_ ?_ | apply follows_setBoth)
    | (intro _; try beta_reduce)
    | fail_if_no_progress (with_reducible refine follows_mk (side_of ?_))
    | with_reducible (first
        | refine follows_foldl ?_ ?_ | refine follows_ite_fst ?_ ?_ | refine follows_foldl_fst ?_ ?_)

theorem follows_execStrapSampling {b₀ s : State} (h : b₀.Follows s) (pins : Straps) :
    b₀.Goes (execStrapSampling pins s) := by
  unfold execStrapSampling
  split
  · exact goes_next h
  · extract_lets x
    have k : b₀.Follows x.free.2 :=
      follows_free (follows_elapseTo h (max (s.pwr.rampAt + ms 34) s.pwr.releasedAt + ms 1))
    clear_value x
    split
    rename_i v z e
    rw [e] at k
    dsimp only at k
    refine goes_next (follows_defaultMacs ?_)
    split <;> exact side_of k

theorem follows_phase {b₀ s : State} (h : b₀.Follows s) (n : Nat) :
    b₀.Follows (State.phase s n) := by
  unfold State.phase
  repeat' first
    | with_reducible (first
        | assumption | refine follows_ite ?_ ?_)
    | (intro _; try beta_reduce)
    | fail_if_no_progress (with_reducible refine follows_mk (side_of ?_))
    | with_reducible (first
        | refine follows_foldl ?_ ?_ | refine follows_ite_fst ?_ ?_ | refine follows_foldl_fst ?_ ?_)

theorem follows_checkCopies {b₀ s : State} (h : b₀.Follows s) :
    b₀.Follows (State.checkCopies s) := by
  unfold State.checkCopies
  repeat' first
    | with_reducible (first
        | assumption | refine follows_ite ?_ ?_)
    | (intro _; try beta_reduce)
    | fail_if_no_progress (with_reducible refine follows_mk (side_of ?_))
    | with_reducible (first
        | refine follows_foldl ?_ ?_ | refine follows_ite_fst ?_ ?_ | refine follows_foldl_fst ?_ ?_)

theorem follows_runSlot {b₀ s : State} (h : b₀.Follows s) (slot key : Nat) (b : List Byte) :
    b₀.Follows (State.runSlot s slot key b) := by
  unfold State.runSlot
  repeat' first
    | with_reducible (first
        | assumption | refine follows_ite ?_ ?_ | apply follows_phase)
    | (intro _; try beta_reduce)
    | fail_if_no_progress (with_reducible refine follows_mk (side_of ?_))
    | with_reducible (first
        | refine follows_foldl ?_ ?_ | refine follows_ite_fst ?_ ?_ | refine follows_foldl_fst ?_ ?_)

theorem follows_trainPort {b₀ s : State} (h : b₀.Follows s) (p : Nat) :
    b₀.Follows (State.trainPort s p) := by
  unfold State.trainPort
  repeat' first
    | with_reducible (first
        | assumption | refine follows_ite ?_ ?_ | apply follows_setPort)
    | (intro _; try beta_reduce)

theorem follows_withTurn {b₀ s : State} (h : b₀.Follows s) (p : Nat) :
    b₀.Follows (State.withTurn s p) := by
  unfold State.withTurn
  repeat' first
    | with_reducible (first
        | assumption | refine follows_ite ?_ ?_)
    | (intro _; try beta_reduce)
    | fail_if_no_progress (with_reducible refine follows_mk (side_of ?_))
    | with_reducible (first
        | refine follows_foldl ?_ ?_ | refine follows_ite_fst ?_ ?_ | refine follows_foldl_fst ?_ ?_)

theorem follows_trainTurn {b₀ s : State} (h : b₀.Follows s) (p : Nat) :
    b₀.Follows (State.trainTurn s p) := by
  unfold State.trainTurn
  repeat' first
    | with_reducible (first
        | assumption | refine follows_ite ?_ ?_ | apply follows_trainPort | apply follows_withTurn)
    | (intro _; try beta_reduce)
    | (extract_lets +onlyGivenNames x_; first
        | (refine and_of (p := b₀.Follows x_) ?_ (fun h_ => ?_); (on_goal 2 => clear_value x_); (on_goal 1 => (unfold x_; clear x_)))
        | ((first | (have t_ : Boot := x_; clear t_) | (have t_ : Flash := x_; clear t_) | (have t_ : Jtag := x_; clear t_)); unfold x_; clear x_)
        | clear_value x_)
    | fail_if_no_progress (with_reducible refine follows_mk (side_of ?_))
    | with_reducible (first
        | refine follows_foldl ?_ ?_ | refine follows_ite_fst ?_ ?_ | refine follows_foldl_fst ?_ ?_
        | refine follows_of_fst (by assumption) ?_)
    | (split <;> try (rename_i e_; first
        | (refine and_of (follows_of_fst (a := b₀) e_ ?_) (fun h_ => ?_); clear e_)))

theorem follows_passTurn {b₀ s : State} (h : b₀.Follows s) (p : Nat) :
    b₀.Follows (State.passTurn s p) := by
  unfold State.passTurn
  repeat' first
    | with_reducible (first
        | assumption | refine follows_ite ?_ ?_ | apply follows_setPort | apply follows_trainTurn)
    | (intro _; try beta_reduce)

theorem follows_recover {b₀ s : State} (h : b₀.Follows s) :
    b₀.Follows (State.recover s) := by
  unfold State.recover
  repeat' first
    | with_reducible (first
        | assumption | refine follows_ite ?_ ?_ | apply follows_phase | apply follows_trainTurn)
    | (intro _; try beta_reduce)
    | fail_if_no_progress (with_reducible refine follows_mk (side_of ?_))
    | with_reducible (first
        | refine follows_foldl ?_ ?_ | refine follows_ite_fst ?_ ?_ | refine follows_foldl_fst ?_ ?_)

theorem follows_execRomPhaseEnd {b₀ s : State} (h : b₀.Follows s) :
    b₀.Goes (execRomPhaseEnd s) := by
  unfold execRomPhaseEnd
  repeat' first
    | with_reducible (first
        | assumption | refine follows_ite ?_ ?_ | refine goes_next ?_ | apply follows_checkCopies | apply follows_recover
        | apply follows_runSlot)
    | (intro _; try beta_reduce)
    | (extract_lets +onlyGivenNames x_; first
        | (refine and_of (p := b₀.Follows x_) ?_ (fun h_ => ?_); (on_goal 2 => clear_value x_); (on_goal 1 => (unfold x_; clear x_)))
        | ((first | (have t_ : Boot := x_; clear t_) | (have t_ : Flash := x_; clear t_) | (have t_ : Jtag := x_; clear t_)); unfold x_; clear x_)
        | clear_value x_)
    | fail_if_no_progress (with_reducible refine follows_mk (side_of ?_))
    | with_reducible (first
        | refine follows_foldl ?_ ?_ | refine follows_ite_fst ?_ ?_ | refine follows_foldl_fst ?_ ?_ | refine goes_ite ?_ ?_
        | refine follows_of_fst (by assumption) ?_)
    | (split <;> try (rename_i e_; first
        | (refine and_of (follows_of_fst (a := b₀) e_ ?_) (fun h_ => ?_); clear e_)))

theorem follows_execRecoveryLinkTimeout {b₀ s : State} (h : b₀.Follows s) :
    b₀.Goes (execRecoveryLinkTimeout s) := by
  unfold execRecoveryLinkTimeout
  repeat' first
    | with_reducible (first
        | assumption | refine follows_ite ?_ ?_ | refine goes_next ?_ | apply follows_elapseTo | apply follows_phase
        | apply follows_setPort)
    | (intro _; try beta_reduce)
    | fail_if_no_progress (with_reducible refine follows_mk (side_of ?_))
    | with_reducible (first
        | refine follows_foldl ?_ ?_ | refine follows_ite_fst ?_ ?_ | refine follows_foldl_fst ?_ ?_ | refine goes_ite ?_ ?_)

theorem follows_judge {b₀ s : State} (h : b₀.Follows s) (r : SelfTest) :
    b₀.Follows (State.judge s r) := by
  unfold State.judge
  repeat' first
    | with_reducible (first
        | assumption | refine follows_ite ?_ ?_ | apply follows_setFrame)
    | (intro _; try beta_reduce)
    | fail_if_no_progress (with_reducible refine follows_mk (side_of ?_))
    | with_reducible (first
        | refine follows_foldl ?_ ?_ | refine follows_ite_fst ?_ ?_ | refine follows_foldl_fst ?_ ?_)

theorem follows_execSelftestEnd {b₀ s : State} (h : b₀.Follows s) (r : SelfTest) :
    b₀.Goes (execSelftestEnd r s) := by
  unfold execSelftestEnd
  repeat' first
    | with_reducible (first
        | assumption | refine follows_ite ?_ ?_ | refine goes_next ?_ | apply follows_judge | apply follows_onlyIf
        | apply follows_phase)
    | (intro _; try beta_reduce)

theorem follows_counterRose {b₀ s : State} (h : b₀.Follows s) (n was now : Nat) :
    b₀.Follows (State.counterRose s n was now) := by
  unfold State.counterRose
  repeat' first
    | with_reducible (first
        | assumption | refine follows_ite ?_ ?_ | apply follows_postMgr)
    | (intro _; try beta_reduce)

theorem follows_restoreIssuer {b₀ s : State} (h : b₀.Follows s) (n : Nat) (rec : List Byte) :
    b₀.Follows (State.restoreIssuer s n rec) := by
  unfold State.restoreIssuer
  repeat' first
    | with_reducible (first
        | assumption | refine follows_ite ?_ ?_ | apply follows_counterRose | apply follows_postMgr | apply follows_setIssuer)
    | (intro _; try beta_reduce)
    | (extract_lets +onlyGivenNames x_; first
        | (refine and_of (p := b₀.Follows x_) ?_ (fun h_ => ?_); (on_goal 2 => clear_value x_); (on_goal 1 => (unfold x_; clear x_)))
        | ((first | (have t_ : Boot := x_; clear t_) | (have t_ : Flash := x_; clear t_) | (have t_ : Jtag := x_; clear t_)); unfold x_; clear x_)
        | clear_value x_)
    | fail_if_no_progress (with_reducible refine follows_mk (side_of ?_))
    | with_reducible (first
        | refine follows_foldl ?_ ?_ | refine follows_ite_fst ?_ ?_ | refine follows_foldl_fst ?_ ?_
        | refine follows_of_fst (by assumption) ?_)
    | (split <;> try (rename_i e_; first
        | (refine and_of (follows_of_fst (a := b₀) e_ ?_) (fun h_ => ?_); clear e_)))

theorem follows_restoreSlot0 {b₀ s : State} (h : b₀.Follows s) :
    b₀.Follows (State.restoreSlot0 s) := by
  unfold State.restoreSlot0
  repeat' first
    | with_reducible (first
        | assumption | refine follows_ite ?_ ?_ | apply follows_counterRose | apply follows_setIssuer)
    | (intro _; try beta_reduce)

theorem follows_restoreEntry {b₀ s : State} (h : b₀.Follows s) (e : Nat × Nat) :
    b₀.Follows (State.restoreEntry s e) := by
  unfold State.restoreEntry
  repeat' first
    | with_reducible (first
        | assumption | refine follows_ite ?_ ?_ | apply follows_setBoth)
    | (intro _; try beta_reduce)
    | (extract_lets +onlyGivenNames x_; first
        | (refine and_of (p := b₀.Follows x_) ?_ (fun h_ => ?_); (on_goal 2 => clear_value x_); (on_goal 1 => (unfold x_; clear x_)))
        | ((first | (have t_ : Boot := x_; clear t_) | (have t_ : Flash := x_; clear t_) | (have t_ : Jtag := x_; clear t_)); unfold x_; clear x_)
        | clear_value x_)
    | fail_if_no_progress (with_reducible refine follows_mk (side_of ?_))
    | with_reducible (first
        | refine follows_foldl ?_ ?_ | refine follows_ite_fst ?_ ?_ | refine follows_foldl_fst ?_ ?_
        | refine follows_of_fst (by assumption) ?_)
    | (split <;> try (rename_i e_; first
        | (refine and_of (follows_of_fst (a := b₀) e_ ?_) (fun h_ => ?_); clear e_)))

theorem follows_restoreRecord {b₀ s : State} (h : b₀.Follows s) (es : List (Nat × Nat)) :
    b₀.Follows (State.restoreRecord s es) := by
  unfold State.restoreRecord
  repeat' first
    | with_reducible (first
        | assumption | refine follows_ite ?_ ?_ | apply follows_restoreEntry | apply follows_restoreIssuer)
    | (intro _; try beta_reduce)
    | (extract_lets +onlyGivenNames x_; first
        | (refine and_of (p := b₀.Follows x_) ?_ (fun h_ => ?_); (on_goal 2 => clear_value x_); (on_goal 1 => (unfold x_; clear x_)))
        | ((first | (have t_ : Boot := x_; clear t_) | (have t_ : Flash := x_; clear t_) | (have t_ : Jtag := x_; clear t_)); unfold x_; clear x_)
        | clear_value x_)
    | fail_if_no_progress (with_reducible refine follows_mk (side_of ?_))
    | with_reducible (first
        | refine follows_foldl ?_ ?_ | refine follows_ite_fst ?_ ?_ | refine follows_foldl_fst ?_ ?_
        | refine follows_of_fst (by assumption) ?_)
    | (split <;> try (rename_i e_; first
        | (refine and_of (follows_of_fst (a := b₀) e_ ?_) (fun h_ => ?_); clear e_)))

theorem follows_bootSources {b₀ s : State} (h : b₀.Follows s) :
    b₀.Follows (State.bootSources s) := by
  unfold State.bootSources
  repeat' first
    | with_reducible (first
        | assumption | refine follows_ite ?_ ?_)
    | (intro _; try beta_reduce)
    | fail_if_no_progress (with_reducible refine follows_mk (side_of ?_))
    | with_reducible (first
        | refine follows_foldl ?_ ?_ | refine follows_ite_fst ?_ ?_ | refine follows_foldl_fst ?_ ?_)

theorem follows_restore {b₀ s : State} (h : b₀.Follows s) :
    b₀.Follows (State.restore s) := by
  unfold State.restore
  repeat' first
    | with_reducible (first
        | assumption | refine follows_ite ?_ ?_ | apply follows_restoreRecord)
    | (intro _; try beta_reduce)
    | (extract_lets +onlyGivenNames x_; first
        | (refine and_of (p := b₀.Follows x_) ?_ (fun h_ => ?_); (on_goal 2 => clear_value x_); (on_goal 1 => (unfold x_; clear x_)))
        | ((first | (have t_ : Boot := x_; clear t_) | (have t_ : Flash := x_; clear t_) | (have t_ : Jtag := x_; clear t_)); unfold x_; clear x_)
        | clear_value x_)
    | fail_if_no_progress (with_reducible refine follows_mk (side_of ?_))
    | with_reducible (first
        | refine follows_foldl ?_ ?_ | refine follows_ite_fst ?_ ?_ | refine follows_foldl_fst ?_ ?_
        | refine follows_of_fst (by assumption) ?_)
    | (split <;> try (rename_i e_; first
        | (refine and_of (follows_of_fst (a := b₀) e_ ?_) (fun h_ => ?_); clear e_)))

theorem follows_endRestore {b₀ s : State} (h : b₀.Follows s) :
    b₀.Follows (State.endRestore s) := by
  unfold State.endRestore
  repeat' first
    | with_reducible (first
        | assumption | refine follows_ite ?_ ?_ | apply follows_bootSources | apply follows_phase | apply follows_restoreSlot0)
    | (intro _; try beta_reduce)

theorem follows_execRestoreEnd {b₀ s : State} (h : b₀.Follows s) :
    b₀.Goes (execRestoreEnd s) := by
  unfold execRestoreEnd
  repeat' first
    | with_reducible (first
        | assumption | refine follows_ite ?_ ?_ | refine goes_next ?_ | apply follows_endRestore | apply follows_onlyIf
        | apply follows_restore)
    | (intro _; try beta_reduce)

theorem follows_setCtl {b₀ s : State} (h : b₀.Follows s) (c : Nat) (v : Ctl) :
    b₀.Follows (State.setCtl s c v) := by
  unfold State.setCtl
  repeat' first
    | with_reducible (first
        | assumption | refine follows_ite ?_ ?_)
    | (intro _; try beta_reduce)
    | fail_if_no_progress (with_reducible refine follows_mk (side_of ?_))
    | with_reducible (first
        | refine follows_foldl ?_ ?_ | refine follows_ite_fst ?_ ?_ | refine follows_foldl_fst ?_ ?_)

theorem follows_failCtl {b₀ s : State} (h : b₀.Follows s) (c : Nat) :
    b₀.Follows (State.failCtl s c) := by
  unfold State.failCtl
  repeat' first
    | with_reducible (first
        | assumption | refine follows_ite ?_ ?_)
    | (intro _; try beta_reduce)
    | fail_if_no_progress (with_reducible refine follows_mk (side_of ?_))
    | with_reducible (first
        | refine follows_foldl ?_ ?_ | refine follows_ite_fst ?_ ?_ | refine follows_foldl_fst ?_ ?_)

theorem follows_trained {b₀ s : State} (h : b₀.Follows s) (c : Nat) (r : TrainResult) :
    b₀.Follows (State.trained s c r) := by
  unfold State.trained
  repeat' first
    | with_reducible (first
        | assumption | refine follows_ite ?_ ?_ | apply follows_failCtl | apply follows_setCtl)
    | (intro _; try beta_reduce)
    | fail_if_no_progress (with_reducible refine follows_mk (side_of ?_))
    | with_reducible (first
        | refine follows_foldl ?_ ?_ | refine follows_ite_fst ?_ ?_ | refine follows_foldl_fst ?_ ?_)

theorem follows_startZero {b₀ s : State} (h : b₀.Follows s) :
    b₀.Follows (State.startZero s) := by
  unfold State.startZero
  repeat' first
    | with_reducible (first
        | assumption | refine follows_ite ?_ ?_ | apply follows_phase | apply follows_trainPort)
    | (intro _; try beta_reduce)
    | fail_if_no_progress (with_reducible refine follows_mk (side_of ?_))
    | with_reducible (first
        | refine follows_foldl ?_ ?_ | refine follows_ite_fst ?_ ?_ | refine follows_foldl_fst ?_ ?_)

theorem follows_trainAll {b₀ s : State} (h : b₀.Follows s) (r : List TrainResult) :
    b₀.Follows (State.trainAll s r) := by
  unfold State.trainAll
  repeat' first
    | with_reducible (first
        | assumption | refine follows_ite ?_ ?_ | apply follows_trained)
    | (intro _; try beta_reduce)
    | fail_if_no_progress (with_reducible refine follows_mk (side_of ?_))
    | with_reducible (first
        | refine follows_foldl ?_ ?_ | refine follows_ite_fst ?_ ?_ | refine follows_foldl_fst ?_ ?_)

theorem follows_execTrainEnd {b₀ s : State} (h : b₀.Follows s) (r : List TrainResult) :
    b₀.Goes (execTrainEnd r s) := by
  unfold execTrainEnd
  repeat' first
    | with_reducible (first
        | assumption | refine follows_ite ?_ ?_ | refine goes_next ?_ | apply follows_onlyIf | apply follows_startZero
        | apply follows_trainAll)
    | (intro _; try beta_reduce)

theorem follows_execControllerZeroDone {b₀ s : State} (h : b₀.Follows s) (c : Fin 12) :
    b₀.Goes (execControllerZeroDone c s) := by
  unfold execControllerZeroDone
  refine follows_onlyIf h ?_
  obtain ⟨h1, h2, h3, h4, h5, h6, h7, h8⟩ := h
  exact ⟨h1, h2, h3, h4, h5, fun w => Memory.wf_filter _ (h6 w), h7, h8⟩

theorem follows_endZero {b₀ s : State} (h : b₀.Follows s) :
    b₀.Follows (State.endZero s) := by
  unfold State.endZero
  repeat' first
    | with_reducible (first
        | assumption | refine follows_ite ?_ ?_ | apply follows_phase)
    | (intro _; try beta_reduce)
    | fail_if_no_progress (with_reducible refine follows_mk (side_of ?_))
    | with_reducible (first
        | refine follows_foldl ?_ ?_ | refine follows_ite_fst ?_ ?_ | refine follows_foldl_fst ?_ ?_)

theorem follows_execZeroEnd {b₀ s : State} (h : b₀.Follows s) :
    b₀.Goes (execZeroEnd s) := by
  unfold execZeroEnd
  repeat' first
    | with_reducible (first
        | assumption | refine follows_ite ?_ ?_ | refine goes_next ?_ | apply follows_endZero | apply follows_onlyIf)
    | (intro _; try beta_reduce)

theorem follows_romLimit {b₀ s : State} (h : b₀.Follows s) :
    b₀.Follows (State.romLimit s) := by
  unfold State.romLimit
  repeat' first
    | with_reducible (first
        | assumption | refine follows_ite ?_ ?_ | apply follows_checkCopies | apply follows_recover)
    | (intro _; try beta_reduce)
    | fail_if_no_progress (with_reducible refine follows_mk (side_of ?_))
    | with_reducible (first
        | refine follows_foldl ?_ ?_ | refine follows_ite_fst ?_ ?_ | refine follows_foldl_fst ?_ ?_)

theorem follows_passLimit {b₀ s : State} (h : b₀.Follows s) (r : SelfTest) (t : List TrainResult) :
    b₀.Follows (State.passLimit s r t) := by
  unfold State.passLimit
  repeat' first
    | with_reducible (first
        | assumption | refine follows_ite ?_ ?_ | apply follows_endRestore | apply follows_endZero | apply follows_failCtl
        | apply follows_judge | apply follows_phase | apply follows_romLimit | apply follows_startZero | apply follows_trainAll)
    | (intro _; try beta_reduce)
    | fail_if_no_progress (with_reducible refine follows_mk (side_of ?_))
    | with_reducible (first
        | refine follows_foldl ?_ ?_ | refine follows_ite_fst ?_ ?_ | refine follows_foldl_fst ?_ ?_)

theorem follows_execPhaseLimit {b₀ s : State} (h : b₀.Follows s) (r : SelfTest) (t : List TrainResult) :
    b₀.Goes (execPhaseLimit r t s) := by
  unfold execPhaseLimit
  repeat' first
    | with_reducible (first
        | assumption | refine follows_ite ?_ ?_ | refine goes_next ?_ | apply follows_elapseTo | apply follows_onlyIf
        | apply follows_passLimit)
    | (intro _; try beta_reduce)
    | (extract_lets +onlyGivenNames x_; first
        | (refine and_of (p := b₀.Follows x_) ?_ (fun h_ => ?_); (on_goal 2 => clear_value x_); (on_goal 1 => (unfold x_; clear x_)))
        | ((first | (have t_ : Boot := x_; clear t_) | (have t_ : Flash := x_; clear t_) | (have t_ : Jtag := x_; clear t_)); unfold x_; clear x_)
        | clear_value x_)
    | fail_if_no_progress (with_reducible refine follows_mk (side_of ?_))
    | with_reducible (first
        | refine follows_foldl ?_ ?_ | refine follows_ite_fst ?_ ?_ | refine follows_foldl_fst ?_ ?_ | refine goes_ite ?_ ?_
        | refine follows_of_fst (by assumption) ?_)
    | (split <;> try (rename_i e_; first
        | (refine and_of (follows_of_fst (a := b₀) e_ ?_) (fun h_ => ?_); clear e_)))

theorem follows_drawMgrNonce {b₀ s : State} (h : b₀.Follows s) :
    b₀.Follows (State.drawMgrNonce s) := by
  unfold State.drawMgrNonce
  repeat' first
    | with_reducible (first
        | assumption | refine follows_ite ?_ ?_ | apply follows_deriveCtrl | apply follows_deriveSelf | apply follows_free)
    | (intro _; try beta_reduce)
    | fail_if_no_progress (with_reducible refine follows_mk (side_of ?_))
    | with_reducible (first
        | refine follows_foldl ?_ ?_ | refine follows_ite_fst ?_ ?_ | refine follows_foldl_fst ?_ ?_
        | refine follows_ite_snd ?_ ?_)

theorem follows_execTickListenEnd {b₀ s : State} (h : b₀.Follows s) :
    b₀.Goes (execTickListenEnd s) := by
  unfold execTickListenEnd
  repeat' first
    | with_reducible (first
        | assumption | refine follows_ite ?_ ?_ | refine goes_next ?_ | apply follows_drawMgrNonce | apply follows_elapseTo)
    | (intro _; try beta_reduce)
    | (extract_lets +onlyGivenNames x_; first
        | (refine and_of (p := b₀.Follows x_) ?_ (fun h_ => ?_); (on_goal 2 => clear_value x_); (on_goal 1 => (unfold x_; clear x_)))
        | ((first | (have t_ : Boot := x_; clear t_) | (have t_ : Flash := x_; clear t_) | (have t_ : Jtag := x_; clear t_)); unfold x_; clear x_)
        | clear_value x_)
    | fail_if_no_progress (with_reducible refine follows_mk (side_of ?_))
    | with_reducible (first
        | refine follows_foldl ?_ ?_ | refine follows_ite_fst ?_ ?_ | refine follows_foldl_fst ?_ ?_ | refine goes_ite ?_ ?_
        | refine follows_of_fst (by assumption) ?_)
    | (split <;> try (rename_i e_; first
        | (refine and_of (follows_of_fst (a := b₀) e_ ?_) (fun h_ => ?_); clear e_)))

theorem follows_sendJoin {b₀ s : State} (h : b₀.Follows s) :
    b₀.Follows (State.sendJoin s) := by
  unfold State.sendJoin
  repeat' first
    | with_reducible (first
        | assumption | refine follows_ite ?_ ?_ | apply follows_issue)
    | (intro _; try beta_reduce)
    | (extract_lets +onlyGivenNames x_; first
        | (refine and_of (p := b₀.Follows x_) ?_ (fun h_ => ?_); (on_goal 2 => clear_value x_); (on_goal 1 => (unfold x_; clear x_)))
        | ((first | (have t_ : Boot := x_; clear t_) | (have t_ : Flash := x_; clear t_) | (have t_ : Jtag := x_; clear t_)); unfold x_; clear x_)
        | clear_value x_)
    | fail_if_no_progress (with_reducible refine follows_mk (side_of ?_))
    | with_reducible (first
        | refine follows_foldl ?_ ?_ | refine follows_ite_fst ?_ ?_ | refine follows_foldl_fst ?_ ?_
        | refine follows_of_fst (by assumption) ?_)
    | (split <;> try (rename_i e_; first
        | (refine and_of (follows_of_fst (a := b₀) e_ ?_) (fun h_ => ?_); clear e_)))

theorem follows_execServiceEntry {b₀ s : State} (h : b₀.Follows s) :
    b₀.Goes (execServiceEntry s) := by
  unfold execServiceEntry
  repeat' first
    | with_reducible (first
        | assumption | refine follows_ite ?_ ?_ | refine goes_next ?_ | apply follows_onlyIf | apply follows_phase
        | apply follows_sendJoin)
    | (intro _; try beta_reduce)

theorem follows_execJoinRepeat {b₀ s : State} (h : b₀.Follows s) :
    b₀.Goes (execJoinRepeat s) := by
  unfold execJoinRepeat
  repeat' first
    | with_reducible (first
        | assumption | refine follows_ite ?_ ?_ | refine goes_next ?_ | apply follows_elapseTo | apply follows_onlyIf
        | apply follows_sendJoin)
    | (intro _; try beta_reduce)
    | (extract_lets +onlyGivenNames x_; first
        | (refine and_of (p := b₀.Follows x_) ?_ (fun h_ => ?_); (on_goal 2 => clear_value x_); (on_goal 1 => (unfold x_; clear x_)))
        | ((first | (have t_ : Boot := x_; clear t_) | (have t_ : Flash := x_; clear t_) | (have t_ : Jtag := x_; clear t_)); unfold x_; clear x_)
        | clear_value x_)
    | fail_if_no_progress (with_reducible refine follows_mk (side_of ?_))
    | with_reducible (first
        | refine follows_foldl ?_ ?_ | refine follows_ite_fst ?_ ?_ | refine follows_foldl_fst ?_ ?_ | refine goes_ite ?_ ?_
        | refine follows_of_fst (by assumption) ?_)
    | (split <;> try (rename_i e_; first
        | (refine and_of (follows_of_fst (a := b₀) e_ ?_) (fun h_ => ?_); clear e_)))

end Sys2Proof.Machine
end

