-- ==== Sys2Proof/Laws/KeepBead.lean ====
section
/-!
SUPPORT. What the operations of Machine/Bead.lean can do to the parts that `State.Follows` speaks of.
-/

namespace Sys2Proof.Machine

set_option linter.unusedTactic false
set_option linter.unreachableTactic false
set_option linter.tactic.unusedName false

theorem follows_setUnit {b₀ s : State} (h : b₀.Follows s) (c u : Nat) (v : Unit) :
    b₀.Follows (State.setUnit s c u v) := by
  unfold State.setUnit
  repeat' first
    | with_reducible (first
        | assumption | refine follows_ite ?_ ?_ | apply follows_setCtl)
    | (intro _; try beta_reduce)

theorem follows_tallyCtl {b₀ s : State} (h : b₀.Follows s) (c event qual : Nat) (ctx : Option Nat) :
    b₀.Follows (State.tallyCtl s c event qual ctx) := by
  unfold State.tallyCtl
  repeat' first
    | with_reducible (first
        | assumption | refine follows_ite ?_ ?_ | apply follows_tally)
    | (intro _; try beta_reduce)

theorem follows_raiseCtl {b₀ s : State} (h : b₀.Follows s) (c b : Nat) :
    b₀.Follows (State.raiseCtl s c b) := by
  unfold State.raiseCtl
  repeat' first
    | with_reducible (first
        | assumption | refine follows_ite ?_ ?_ | apply follows_raise)
    | (intro _; try beta_reduce)

theorem follows_startTracking {b₀ s : State} (h : b₀.Follows s) (c ch : Nat) :
    b₀.Follows (State.startTracking s c ch) := by
  unfold State.startTracking
  repeat' first
    | with_reducible (first
        | assumption | refine follows_ite ?_ ?_ | apply follows_setCtl)
    | (intro _; try beta_reduce)

theorem follows_nextTracking {b₀ s : State} (h : b₀.Follows s) (c : Nat) :
    b₀.Follows (State.nextTracking s c) := by
  unfold State.nextTracking
  repeat' first
    | with_reducible (first
        | assumption | refine follows_ite ?_ ?_ | apply follows_setCtl)
    | (intro _; try beta_reduce)
    | (extract_lets +onlyGivenNames x_; first
        | (refine and_of (p := b₀.Follows x_) ?_ (fun h_ => ?_); (on_goal 2 => clear_value x_); (on_goal 1 => (unfold x_; clear x_)))
        | ((first | (have t_ : Boot := x_; clear t_) | (have t_ : Flash := x_; clear t_) | (have t_ : Jtag := x_; clear t_)); unfold x_; clear x_)
        | clear_value x_)
    | fail_if_no_progress (with_reducible refine follows_mk (side_of ?_))
    | with_reducible (first
        | refine follows_foldl ?_ ?_ | refine follows_ite_fst ?_ ?_ | refine follows_foldl_fst ?_ ?_
        | refine follows_of_fst (by assumption) ?_)
    | (split <;> try (rename_i e_; first
        | (refine and_of (follows_of_fst (a := b₀) e_ ?_) (fun h_ => ?_); clear e_)))

theorem follows_rowError {b₀ s : State} (h : b₀.Follows s) (c u bank row : Nat) :
    b₀.Follows (State.rowError s c u bank row) := by
  unfold State.rowError
  repeat' first
    | with_reducible (first
        | assumption | refine follows_ite ?_ ?_ | apply follows_postMgr | apply follows_raise | apply follows_setCtl)
    | (intro _; try beta_reduce)

theorem follows_countCe {b₀ s : State} (h : b₀.Follows s) (c pa : Nat) :
    b₀.Follows (State.countCe s c pa) := by
  unfold State.countCe
  repeat' first
    | with_reducible (first
        | assumption | refine follows_ite ?_ ?_ | apply follows_bump | apply follows_rowError)
    | (intro _; try beta_reduce)
    | fail_if_no_progress (with_reducible refine follows_mk (side_of ?_))
    | with_reducible (first
        | refine follows_foldl ?_ ?_ | refine follows_ite_fst ?_ ?_ | refine follows_foldl_fst ?_ ?_)

theorem follows_postUe {b₀ s : State} (h : b₀.Follows s) (c pa : Nat) :
    b₀.Follows (State.postUe s c pa) := by
  unfold State.postUe
  repeat' first
    | with_reducible (first
        | assumption | refine follows_ite ?_ ?_ | apply follows_postCtx | apply follows_postMgr)
    | (intro _; try beta_reduce)
    | (extract_lets +onlyGivenNames x_; first
        | (refine and_of (p := b₀.Follows x_) ?_ (fun h_ => ?_); (on_goal 2 => clear_value x_); (on_goal 1 => (unfold x_; clear x_)))
        | ((first | (have t_ : Boot := x_; clear t_) | (have t_ : Flash := x_; clear t_) | (have t_ : Jtag := x_; clear t_)); unfold x_; clear x_)
        | clear_value x_)
    | fail_if_no_progress (with_reducible refine follows_mk (side_of ?_))
    | with_reducible (first
        | refine follows_foldl ?_ ?_ | refine follows_ite_fst ?_ ?_ | refine follows_foldl_fst ?_ ?_
        | refine follows_of_fst (by assumption) ?_)
    | (split <;> try (rename_i e_; first
        | (refine and_of (follows_of_fst (a := b₀) e_ ?_) (fun h_ => ?_); clear e_)))

theorem follows_countUe {b₀ s : State} (h : b₀.Follows s) (c pa : Nat) :
    b₀.Follows (State.countUe s c pa) := by
  unfold State.countUe
  repeat' first
    | with_reducible (first
        | assumption | refine follows_ite ?_ ?_ | apply follows_bump | apply follows_postUe | apply follows_raise)
    | (intro _; try beta_reduce)
    | fail_if_no_progress (with_reducible refine follows_mk (side_of ?_))
    | with_reducible (first
        | refine follows_foldl ?_ ?_ | refine follows_ite_fst ?_ ?_ | refine follows_foldl_fst ?_ ?_)

theorem follows_trackUe {b₀ s : State} (h : b₀.Follows s) (c pa : Nat) :
    b₀.Follows (State.trackUe s c pa) := by
  unfold State.trackUe
  repeat' first
    | with_reducible (first
        | assumption | refine follows_ite ?_ ?_ | apply follows_startTracking)
    | (intro _; try beta_reduce)

theorem follows_setSlice {b₀ s : State} (h : b₀.Follows s) (d : Nat) (v : Slice) :
    b₀.Follows (State.setSlice s d v) := by
  unfold State.setSlice
  repeat' first
    | with_reducible (first
        | assumption | refine follows_ite ?_ ?_)
    | (intro _; try beta_reduce)
    | fail_if_no_progress (with_reducible refine follows_mk (side_of ?_))
    | with_reducible (first
        | refine follows_foldl ?_ ?_ | refine follows_ite_fst ?_ ?_ | refine follows_foldl_fst ?_ ?_)

theorem follows_writeFields {b₀ s : State} (h : b₀.Follows s) (d bead : Nat) :
    b₀.Follows (State.writeFields s d bead) := by
  unfold State.writeFields
  repeat' first
    | with_reducible (first
        | assumption | refine follows_ite ?_ ?_ | apply follows_setMeta)
    | (intro _; try beta_reduce)

theorem follows_setLine {b₀ s : State} (h : b₀.Follows s) (d bead : Nat) (l : Line) :
    b₀.Follows (State.setLine s d bead l) := by
  unfold State.setLine
  repeat' first
    | with_reducible (first
        | assumption | refine follows_ite ?_ ?_ | apply follows_setMeta | apply follows_setSlice)
    | (intro _; try beta_reduce)

theorem follows_rebuildLine {b₀ s : State} (h : b₀.Follows s) (pa : Nat) :
    b₀.Follows (State.rebuildLine s pa) := by
  unfold State.rebuildLine
  repeat' first
    | with_reducible (first
        | assumption | refine follows_ite ?_ ?_ | apply follows_setLine | apply follows_writeFields)
    | (intro _; try beta_reduce)
    | (extract_lets +onlyGivenNames x_; first
        | (refine and_of (p := b₀.Follows x_) ?_ (fun h_ => ?_); (on_goal 2 => clear_value x_); (on_goal 1 => (unfold x_; clear x_)))
        | ((first | (have t_ : Boot := x_; clear t_) | (have t_ : Flash := x_; clear t_) | (have t_ : Jtag := x_; clear t_)); unfold x_; clear x_)
        | clear_value x_)
    | fail_if_no_progress (with_reducible refine follows_mk (side_of ?_))
    | with_reducible (first
        | refine follows_foldl ?_ ?_ | refine follows_ite_fst ?_ ?_ | refine follows_foldl_fst ?_ ?_
        | refine follows_of_fst (by assumption) ?_)
    | (split <;> try (rename_i e_; first
        | (refine and_of (follows_of_fst (a := b₀) e_ ?_) (fun h_ => ?_); clear e_)))

theorem follows_lineRead {b₀ s : State} (h : b₀.Follows s) (pa : Nat) (was now : Meta) :
    b₀.Follows (State.lineRead s pa was now) := by
  unfold State.lineRead
  repeat' first
    | with_reducible (first
        | assumption | refine follows_ite ?_ ?_ | apply follows_rebuildLine | apply follows_setLine)
    | (intro _; try beta_reduce)
    | (extract_lets +onlyGivenNames x_; first
        | (refine and_of (p := b₀.Follows x_) ?_ (fun h_ => ?_); (on_goal 2 => clear_value x_); (on_goal 1 => (unfold x_; clear x_)))
        | ((first | (have t_ : Boot := x_; clear t_) | (have t_ : Flash := x_; clear t_) | (have t_ : Jtag := x_; clear t_)); unfold x_; clear x_)
        | clear_value x_)
    | fail_if_no_progress (with_reducible refine follows_mk (side_of ?_))
    | with_reducible (first
        | refine follows_foldl ?_ ?_ | refine follows_ite_fst ?_ ?_ | refine follows_foldl_fst ?_ ?_
        | refine follows_of_fst (by assumption) ?_)
    | (split <;> try (rename_i e_; first
        | (refine and_of (follows_of_fst (a := b₀) e_ ?_) (fun h_ => ?_); clear e_)))

theorem follows_structureLost {b₀ s : State} (h : b₀.Follows s) (pa : Nat) :
    b₀.Follows (State.structureLost s pa) := by
  unfold State.structureLost
  repeat' first
    | with_reducible (first
        | assumption | refine follows_ite ?_ ?_ | apply follows_bump | apply follows_postMgr | apply follows_raise
        | apply follows_setSlice | apply follows_writeBead)
    | (intro _; try beta_reduce)
    | (extract_lets +onlyGivenNames x_; first
        | (refine and_of (p := b₀.Follows x_) ?_ (fun h_ => ?_); (on_goal 2 => clear_value x_); (on_goal 1 => (unfold x_; clear x_)))
        | ((first | (have t_ : Boot := x_; clear t_) | (have t_ : Flash := x_; clear t_) | (have t_ : Jtag := x_; clear t_)); unfold x_; clear x_)
        | clear_value x_)
    | fail_if_no_progress (with_reducible refine follows_mk (side_of ?_))
    | with_reducible (first
        | refine follows_foldl ?_ ?_ | refine follows_ite_fst ?_ ?_ | refine follows_foldl_fst ?_ ?_
        | refine follows_of_fst (by assumption) ?_)
    | (split <;> try (rename_i e_; first
        | (refine and_of (follows_of_fst (a := b₀) e_ ?_) (fun h_ => ?_); clear e_)))

theorem follows_readOut {b₀ s : State} (h : b₀.Follows s) (pa : Nat) (errs : List (Nat × Nat)) :
    b₀.Follows (State.readOut s pa errs).1 := by
  unfold State.readOut
  repeat' first
    | with_reducible (first
        | assumption | refine follows_ite ?_ ?_ | apply follows_countCe | apply follows_countUe | apply follows_lineRead
        | apply follows_rebuildLine | apply follows_setMeta | apply follows_structureLost | apply follows_tallyCtl
        | apply follows_trackUe | apply follows_writeBead)
    | (intro _; try beta_reduce)
    | (extract_lets +onlyGivenNames x_; first
        | (refine and_of (p := b₀.Follows x_) ?_ (fun h_ => ?_); (on_goal 2 => clear_value x_); (on_goal 1 => (unfold x_; clear x_)))
        | ((first | (have t_ : Boot := x_; clear t_) | (have t_ : Flash := x_; clear t_) | (have t_ : Jtag := x_; clear t_)); unfold x_; clear x_)
        | clear_value x_)
    | fail_if_no_progress (with_reducible refine follows_mk (side_of ?_))
    | with_reducible (first
        | refine follows_foldl ?_ ?_ | refine follows_ite_fst ?_ ?_ | refine follows_foldl_fst ?_ ?_
        | refine follows_of_fst (by assumption) ?_)
    | (split <;> try (rename_i e_; first
        | (refine and_of (follows_of_fst (a := b₀) e_ ?_) (fun h_ => ?_); clear e_)))

end Sys2Proof.Machine
end

