-- ==== Sys2Proof/Laws/KeepSched.lean ====
section
/-!
SUPPORT. What the operations of Machine/Sched.lean can do to the parts that `State.Follows` speaks of.
-/

namespace Sys2Proof.Machine

set_option linter.unusedTactic false
set_option linter.unreachableTactic false
set_option linter.tactic.unusedName false

theorem follows_wakeCtl {b₀ s : State} (h : b₀.Follows s) (c : Nat) :
    b₀.Follows (State.wakeCtl s c) := by
  unfold State.wakeCtl
  repeat' first
    | with_reducible (first
        | assumption | refine follows_ite ?_ ?_ | apply follows_setCtl)
    | (intro _; try beta_reduce)

theorem follows_toCtl {b₀ s : State} (h : b₀.Follows s) (pa : Nat) (op : BeadOp) (cls : Nat) (origin : Origin) :
    b₀.Follows (State.toCtl s pa op cls origin) := by
  unfold State.toCtl
  repeat' first
    | with_reducible (first
        | assumption | refine follows_ite ?_ ?_ | apply follows_setUnit | apply follows_wakeCtl)
    | (intro _; try beta_reduce)
    | (extract_lets +onlyGivenNames x_; first
        | (refine and_of (p := b₀.Follows x_) ?_ (fun h_ => ?_); (on_goal 2 => clear_value x_); (on_goal 1 => (unfold x_; clear x_)))
        | ((first | (have t_ : Boot := x_; clear t_) | (have t_ : Flash := x_; clear t_) | (have t_ : Jtag := x_; clear t_)); unfold x_; clear x_)
        | clear_value x_)
    | fail_if_no_progress (with_reducible refine follows_mk (side_of ?_))
    | with_reducible (first
        | refine follows_foldl ?_ ?_ | refine follows_ite_fst ?_ ?_ | refine follows_foldl_fst ?_ ?_
        | refine follows_of_fst (by assumption) ?_)
    | (split <;> try (rename_i e_; first
        | (refine and_of (follows_of_fst (a := b₀) e_ ?_) (fun h_ => ?_); clear e_)))

theorem follows_touchRow {b₀ s : State} (h : b₀.Follows s) (c u bank row : Nat) (ctx : Option Nat) :
    b₀.Follows (State.touchRow s c u bank row ctx) := by
  unfold State.touchRow
  repeat' first
    | with_reducible (first
        | assumption | refine follows_ite ?_ ?_ | apply follows_setUnit | apply follows_tallyCtl)
    | (intro _; try beta_reduce)

theorem follows_metaAccess {b₀ s : State} (h : b₀.Follows s) (c m : Nat) (write : Bool) (ctx : Option Nat) :
    b₀.Follows (State.metaAccess s c m write ctx) := by
  unfold State.metaAccess
  repeat' first
    | with_reducible (first
        | assumption | refine follows_ite ?_ ?_ | apply follows_tallyCtl | apply follows_touchRow)
    | (intro _; try beta_reduce)

theorem follows_useMeta {b₀ s : State} (h : b₀.Follows s) (c m : Nat) (dirty : Bool) (ctx : Option Nat) :
    b₀.Follows (State.useMeta s c m dirty ctx) := by
  unfold State.useMeta
  repeat' first
    | with_reducible (first
        | assumption | refine follows_ite ?_ ?_ | apply follows_metaAccess | apply follows_setCtl)
    | (intro _; try beta_reduce)
    | (extract_lets +onlyGivenNames x_; first
        | (refine and_of (p := b₀.Follows x_) ?_ (fun h_ => ?_); (on_goal 2 => clear_value x_); (on_goal 1 => (unfold x_; clear x_)))
        | ((first | (have t_ : Boot := x_; clear t_) | (have t_ : Flash := x_; clear t_) | (have t_ : Jtag := x_; clear t_)); unfold x_; clear x_)
        | clear_value x_)
    | fail_if_no_progress (with_reducible refine follows_mk (side_of ?_))
    | with_reducible (first
        | refine follows_foldl ?_ ?_ | refine follows_ite_fst ?_ ?_ | refine follows_foldl_fst ?_ ?_
        | refine follows_of_fst (by assumption) ?_)
    | (split <;> try (rename_i e_; first
        | (refine and_of (follows_of_fst (a := b₀) e_ ?_) (fun h_ => ?_); clear e_)))

theorem follows_fetchMeta {b₀ s : State} (h : b₀.Follows s) (c o : Nat) (ctx : Option Nat) :
    b₀.Follows (State.fetchMeta s c o ctx) := by
  unfold State.fetchMeta
  repeat' first
    | with_reducible (first
        | assumption | refine follows_ite ?_ ?_ | apply follows_metaAccess | apply follows_tallyCtl | apply follows_useMeta)
    | (intro _; try beta_reduce)

theorem follows_touchBead {b₀ s : State} (h : b₀.Follows s) (c pa cls : Nat) (write : Bool) (ctx : Option Nat) :
    b₀.Follows (State.touchBead s c pa cls write ctx) := by
  unfold State.touchBead
  repeat' first
    | with_reducible (first
        | assumption | refine follows_ite ?_ ?_ | apply follows_tallyCtl | apply follows_touchRow | apply follows_useMeta)
    | (intro _; try beta_reduce)

theorem follows_slotCredit {b₀ s : State} (h : b₀.Follows s) (c u : Nat) :
    b₀.Follows (State.slotCredit s c u) := by
  unfold State.slotCredit
  repeat' first
    | with_reducible (first
        | assumption | refine follows_ite ?_ ?_ | apply follows_setUnit)
    | (intro _; try beta_reduce)

theorem follows_spendCredit {b₀ s : State} (h : b₀.Follows s) (c u : Nat) :
    b₀.Follows (State.spendCredit s c u) := by
  unfold State.spendCredit
  repeat' first
    | with_reducible (first
        | assumption | refine follows_ite ?_ ?_ | apply follows_setUnit)
    | (intro _; try beta_reduce)

theorem follows_unitGo {b₀ s : State} (h : b₀.Follows s) (pa cls : Nat) (write : Bool) :
    b₀.Follows (State.unitGo s pa cls write).1 := by
  unfold State.unitGo
  repeat' first
    | with_reducible (first
        | assumption | refine follows_ite ?_ ?_ | apply follows_fetchMeta | apply follows_setCtl | apply follows_spendCredit
        | apply follows_tallyCtl | apply follows_touchBead | apply follows_wakeCtl)
    | (intro _; try beta_reduce)
    | (extract_lets +onlyGivenNames x_; first
        | (refine and_of (p := b₀.Follows x_) ?_ (fun h_ => ?_); (on_goal 2 => clear_value x_); (on_goal 1 => (unfold x_; clear x_)))
        | ((first | (have t_ : Boot := x_; clear t_) | (have t_ : Flash := x_; clear t_) | (have t_ : Jtag := x_; clear t_)); unfold x_; clear x_)
        | clear_value x_)
    | fail_if_no_progress (with_reducible refine follows_mk (side_of ?_))
    | with_reducible (first
        | refine follows_foldl ?_ ?_ | refine follows_ite_fst ?_ ?_ | refine follows_foldl_fst ?_ ?_
        | refine follows_of_fst (by assumption) ?_)
    | (split <;> try (rename_i e_; first
        | (refine and_of (follows_of_fst (a := b₀) e_ ?_) (fun h_ => ?_); clear e_)))

theorem follows_homeStore {b₀ s : State} (h : b₀.Follows s) (pa : Nat) (data : List Byte) (poison : Bool) :
    b₀.Follows (State.homeStore s pa data poison) := by
  unfold State.homeStore
  repeat' first
    | with_reducible (first
        | assumption | refine follows_ite ?_ ?_ | apply follows_toCtl | apply follows_unitGo | apply follows_writeBead)
    | (intro _; try beta_reduce)
    | (extract_lets +onlyGivenNames x_; first
        | (refine and_of (p := b₀.Follows x_) ?_ (fun h_ => ?_); (on_goal 2 => clear_value x_); (on_goal 1 => (unfold x_; clear x_)))
        | ((first | (have t_ : Boot := x_; clear t_) | (have t_ : Flash := x_; clear t_) | (have t_ : Jtag := x_; clear t_)); unfold x_; clear x_)
        | clear_value x_)
    | fail_if_no_progress (with_reducible refine follows_mk (side_of ?_))
    | with_reducible (first
        | refine follows_foldl ?_ ?_ | refine follows_ite_fst ?_ ?_ | refine follows_foldl_fst ?_ ?_
        | refine follows_of_fst (by assumption) ?_)
    | (split <;> try (rename_i e_; first
        | (refine and_of (follows_of_fst (a := b₀) e_ ?_) (fun h_ => ?_); clear e_)))

theorem follows_homePoison {b₀ s : State} (h : b₀.Follows s) (pa : Nat) :
    b₀.Follows (State.homePoison s pa) := by
  unfold State.homePoison
  repeat' first
    | with_reducible (first
        | assumption | refine follows_ite ?_ ?_ | apply follows_readOut | apply follows_toCtl | apply follows_unitGo
        | apply follows_writeBead)
    | (intro _; try beta_reduce)
    | (extract_lets +onlyGivenNames x_; first
        | (refine and_of (p := b₀.Follows x_) ?_ (fun h_ => ?_); (on_goal 2 => clear_value x_); (on_goal 1 => (unfold x_; clear x_)))
        | ((first | (have t_ : Boot := x_; clear t_) | (have t_ : Flash := x_; clear t_) | (have t_ : Jtag := x_; clear t_)); unfold x_; clear x_)
        | clear_value x_)
    | fail_if_no_progress (with_reducible refine follows_mk (side_of ?_))
    | with_reducible (first
        | refine follows_foldl ?_ ?_ | refine follows_ite_fst ?_ ?_ | refine follows_foldl_fst ?_ ?_
        | refine follows_of_fst (by assumption) ?_)
    | (split <;> try (rename_i e_; first
        | (refine and_of (follows_of_fst (a := b₀) e_ ?_) (fun h_ => ?_); clear e_)))

end Sys2Proof.Machine
end

