-- ==== Sys2Proof/Laws/KeepHome.lean ====
section
/-!
SUPPORT. What the operations of Machine/Home.lean can do to the parts that `State.Follows` speaks of.
-/

namespace Sys2Proof.Machine

set_option linter.unusedTactic false
set_option linter.unreachableTactic false
set_option linter.tactic.unusedName false

theorem follows_snoop {b₀ s : State} (h : b₀.Follows s) (d bead kind target : Nat) (e : Extent) (retiring : Bool) :
    b₀.Follows (State.snoop s d bead kind target e retiring).1 := by
  unfold State.snoop
  repeat' first
    | with_reducible (first
        | assumption | refine follows_ite ?_ ?_ | apply follows_issue | apply follows_tally)
    | (intro _; try beta_reduce)
    | (extract_lets +onlyGivenNames x_; first
        | (refine and_of (p := b₀.Follows x_) ?_ (fun h_ => ?_); (on_goal 2 => clear_value x_); (on_goal 1 => (unfold x_; clear x_)))
        | ((first | (have t_ : Boot := x_; clear t_) | (have t_ : Flash := x_; clear t_) | (have t_ : Jtag := x_; clear t_)); unfold x_; clear x_)
        | clear_value x_)
    | fail_if_no_progress (with_reducible refine follows_mk (side_of ?_))
    | with_reducible (first
        | refine follows_foldl ?_ ?_ | refine follows_ite_fst ?_ ?_ | refine follows_foldl_fst ?_ ?_
        | refine follows_of_fst (by assumption) ?_)
    | (split <;> try (rename_i e_; first
        | (refine and_of (follows_of_fst (a := b₀) e_ ?_) (fun h_ => ?_); clear e_)))

theorem follows_snoopAll {b₀ s : State} (h : b₀.Follows s) (d bead : Nat) (e : Extent) (retiring : Bool) (x5 : List Nat) :
    b₀.Follows (State.snoopAll s d bead e retiring x5).1 := by
  induction x5 generalizing s d bead e retiring with
  | nil =>
    unfold State.snoopAll
    repeat' first
      | with_reducible (first
          | assumption | refine follows_ite ?_ ?_ | apply ih_ | apply follows_snoop)
      | (intro _; try beta_reduce)
      | (extract_lets +onlyGivenNames x_; first
          | (refine and_of (p := b₀.Follows x_) ?_ (fun h_ => ?_); (on_goal 2 => clear_value x_); (on_goal 1 => (unfold x_; clear x_)))
          | ((first | (have t_ : Boot := x_; clear t_) | (have t_ : Flash := x_; clear t_) | (have t_ : Jtag := x_; clear t_)); unfold x_; clear x_)
          | clear_value x_)
      | fail_if_no_progress (with_reducible refine follows_mk (side_of ?_))
      | with_reducible (first
          | refine follows_foldl ?_ ?_ | refine follows_ite_fst ?_ ?_ | refine follows_foldl_fst ?_ ?_
          | refine follows_of_fst (by assumption) ?_)
      | (split <;> try (rename_i e_; first
          | (refine and_of (follows_of_fst (a := b₀) e_ ?_) (fun h_ => ?_); clear e_)))
  | cons x_ t_ ih_ =>
    unfold State.snoopAll
    repeat' first
      | with_reducible (first
          | assumption | refine follows_ite ?_ ?_ | apply ih_ | apply follows_snoop)
      | (intro _; try beta_reduce)
      | (extract_lets +onlyGivenNames x_; first
          | (refine and_of (p := b₀.Follows x_) ?_ (fun h_ => ?_); (on_goal 2 => clear_value x_); (on_goal 1 => (unfold x_; clear x_)))
          | ((first | (have t_ : Boot := x_; clear t_) | (have t_ : Flash := x_; clear t_) | (have t_ : Jtag := x_; clear t_)); unfold x_; clear x_)
          | clear_value x_)
      | fail_if_no_progress (with_reducible refine follows_mk (side_of ?_))
      | with_reducible (first
          | refine follows_foldl ?_ ?_ | refine follows_ite_fst ?_ ?_ | refine follows_foldl_fst ?_ ?_
          | refine follows_of_fst (by assumption) ?_)
      | (split <;> try (rename_i e_; first
          | (refine and_of (follows_of_fst (a := b₀) e_ ?_) (fun h_ => ?_); clear e_)))

theorem follows_stampOf {b₀ s : State} (h : b₀.Follows s) (d : Nat) :
    b₀.Follows (State.stampOf s d).1 := by
  unfold State.stampOf
  repeat' first
    | with_reducible (first
        | assumption | refine follows_ite ?_ ?_ | apply follows_setSlice)
    | (intro _; try beta_reduce)

theorem follows_fieldWrite {b₀ s : State} (h : b₀.Follows s) (d bead cls : Nat) :
    b₀.Follows (State.fieldWrite s d bead cls) := by
  unfold State.fieldWrite
  repeat' first
    | with_reducible (first
        | assumption | refine follows_ite ?_ ?_ | apply follows_fetchMeta | apply follows_tallyCtl | apply follows_touchBead
        | apply follows_useMeta | apply follows_writeFields)
    | (intro _; try beta_reduce)
    | (extract_lets +onlyGivenNames x_; first
        | (refine and_of (p := b₀.Follows x_) ?_ (fun h_ => ?_); (on_goal 2 => clear_value x_); (on_goal 1 => (unfold x_; clear x_)))
        | ((first | (have t_ : Boot := x_; clear t_) | (have t_ : Flash := x_; clear t_) | (have t_ : Jtag := x_; clear t_)); unfold x_; clear x_)
        | clear_value x_)
    | fail_if_no_progress (with_reducible refine follows_mk (side_of ?_))
    | with_reducible (first
        | refine follows_foldl ?_ ?_ | refine follows_ite_fst ?_ ?_ | refine follows_foldl_fst ?_ ?_
        | refine follows_of_fst (by assumption) ?_)
    | (split <;> try (rename_i e_; first
        | (refine and_of (follows_of_fst (a := b₀) e_ ?_) (fun h_ => ?_); clear e_)))

theorem follows_coverLine {b₀ s : State} (h : b₀.Follows s) (d bead : Nat) :
    b₀.Follows (State.coverLine s d bead) := by
  unfold State.coverLine
  repeat' first
    | with_reducible (first
        | assumption | refine follows_ite ?_ ?_ | apply follows_fieldWrite | apply follows_setSlice)
    | (intro _; try beta_reduce)
    | (extract_lets +onlyGivenNames x_; first
        | (refine and_of (p := b₀.Follows x_) ?_ (fun h_ => ?_); (on_goal 2 => clear_value x_); (on_goal 1 => (unfold x_; clear x_)))
        | ((first | (have t_ : Boot := x_; clear t_) | (have t_ : Flash := x_; clear t_) | (have t_ : Jtag := x_; clear t_)); unfold x_; clear x_)
        | clear_value x_)
    | fail_if_no_progress (with_reducible refine follows_mk (side_of ?_))
    | with_reducible (first
        | refine follows_foldl ?_ ?_ | refine follows_ite_fst ?_ ?_ | refine follows_foldl_fst ?_ ?_
        | refine follows_of_fst (by assumption) ?_)
    | (split <;> try (rename_i e_; first
        | (refine and_of (follows_of_fst (a := b₀) e_ ?_) (fun h_ => ?_); clear e_)))

theorem follows_lookup {b₀ s : State} (h : b₀.Follows s) (d bead typ : Nat) (ctx : Option Nat) :
    b₀.Follows (State.lookup s d bead typ ctx) := by
  unfold State.lookup
  repeat' first
    | with_reducible (first
        | assumption | refine follows_ite ?_ ?_ | apply follows_coverLine | apply follows_setLine | apply follows_stampOf
        | apply follows_tally)
    | (intro _; try beta_reduce)

theorem follows_storeRoom {b₀ s : State} (h : b₀.Follows s) (d bead : Nat) :
    b₀.Follows (State.storeRoom s d bead) := by
  unfold State.storeRoom
  repeat' first
    | with_reducible (first
        | assumption | refine follows_ite ?_ ?_ | apply follows_fieldWrite | apply follows_setLine | apply follows_tally)
    | (intro _; try beta_reduce)
    | (extract_lets +onlyGivenNames x_; first
        | (refine and_of (p := b₀.Follows x_) ?_ (fun h_ => ?_); (on_goal 2 => clear_value x_); (on_goal 1 => (unfold x_; clear x_)))
        | ((first | (have t_ : Boot := x_; clear t_) | (have t_ : Flash := x_; clear t_) | (have t_ : Jtag := x_; clear t_)); unfold x_; clear x_)
        | clear_value x_)
    | fail_if_no_progress (with_reducible refine follows_mk (side_of ?_))
    | with_reducible (first
        | refine follows_foldl ?_ ?_ | refine follows_ite_fst ?_ ?_ | refine follows_foldl_fst ?_ ?_
        | refine follows_of_fst (by assumption) ?_)
    | (split <;> try (rename_i e_; first
        | (refine and_of (follows_of_fst (a := b₀) e_ ?_) (fun h_ => ?_); clear e_)))

theorem follows_openRecord {b₀ s : State} (h : b₀.Follows s) (d bead r : Nat) :
    b₀.Follows (State.openRecord s d bead r) := by
  unfold State.openRecord
  repeat' first
    | with_reducible (first
        | assumption | refine follows_ite ?_ ?_ | apply follows_setLine | apply follows_stampOf | apply follows_storeRoom)
    | (intro _; try beta_reduce)

theorem follows_addSharer {b₀ s : State} (h : b₀.Follows s) (d bead r : Nat) :
    b₀.Follows (State.addSharer s d bead r) := by
  unfold State.addSharer
  repeat' first
    | with_reducible (first
        | assumption | refine follows_ite ?_ ?_ | apply follows_openRecord | apply follows_setLine | apply follows_stampOf)
    | (intro _; try beta_reduce)
    | (extract_lets +onlyGivenNames x_; first
        | (refine and_of (p := b₀.Follows x_) ?_ (fun h_ => ?_); (on_goal 2 => clear_value x_); (on_goal 1 => (unfold x_; clear x_)))
        | ((first | (have t_ : Boot := x_; clear t_) | (have t_ : Flash := x_; clear t_) | (have t_ : Jtag := x_; clear t_)); unfold x_; clear x_)
        | clear_value x_)
    | fail_if_no_progress (with_reducible refine follows_mk (side_of ?_))
    | with_reducible (first
        | refine follows_foldl ?_ ?_ | refine follows_ite_fst ?_ ?_ | refine follows_foldl_fst ?_ ?_
        | refine follows_of_fst (by assumption) ?_)
    | (split <;> try (rename_i e_; first
        | (refine and_of (follows_of_fst (a := b₀) e_ ?_) (fun h_ => ?_); clear e_)))

theorem follows_recoverLine {b₀ s : State} (h : b₀.Follows s) (d bead owner : Nat) :
    b₀.Follows (State.recoverLine s d bead owner) := by
  unfold State.recoverLine
  repeat' first
    | with_reducible (first
        | assumption | refine follows_ite ?_ ?_ | apply follows_bump | apply follows_homePoison | apply follows_postCtx
        | apply follows_raise | apply follows_setLine | apply follows_setSlice)
    | (intro _; try beta_reduce)
    | (extract_lets +onlyGivenNames x_; first
        | (refine and_of (p := b₀.Follows x_) ?_ (fun h_ => ?_); (on_goal 2 => clear_value x_); (on_goal 1 => (unfold x_; clear x_)))
        | ((first | (have t_ : Boot := x_; clear t_) | (have t_ : Flash := x_; clear t_) | (have t_ : Jtag := x_; clear t_)); unfold x_; clear x_)
        | clear_value x_)
    | fail_if_no_progress (with_reducible refine follows_mk (side_of ?_))
    | with_reducible (first
        | refine follows_foldl ?_ ?_ | refine follows_ite_fst ?_ ?_ | refine follows_foldl_fst ?_ ?_
        | refine follows_of_fst (by assumption) ?_)
    | (split <;> try (rename_i e_; first
        | (refine and_of (follows_of_fst (a := b₀) e_ ?_) (fun h_ => ?_); clear e_)))

theorem follows_performHead {b₀ s : State} (h : b₀.Follows s) (key idx : Nat) :
    b₀.Follows (State.performHead s key idx).1 := by
  unfold State.performHead
  repeat' first
    | with_reducible (first
        | assumption | refine follows_ite ?_ ?_ | apply follows_performBead | apply follows_setHeld | apply follows_toCtl
        | apply follows_waitRebuild)
    | (intro _; try beta_reduce)
    | (extract_lets +onlyGivenNames x_; first
        | (refine and_of (p := b₀.Follows x_) ?_ (fun h_ => ?_); (on_goal 2 => clear_value x_); (on_goal 1 => (unfold x_; clear x_)))
        | ((first | (have t_ : Boot := x_; clear t_) | (have t_ : Flash := x_; clear t_) | (have t_ : Jtag := x_; clear t_)); unfold x_; clear x_)
        | clear_value x_)
    | fail_if_no_progress (with_reducible refine follows_mk (side_of ?_))
    | with_reducible (first
        | refine follows_foldl ?_ ?_ | refine follows_ite_fst ?_ ?_ | refine follows_foldl_fst ?_ ?_
        | refine follows_of_fst (by assumption) ?_)
    | (split <;> try (rename_i e_; first
        | (refine and_of (follows_of_fst (a := b₀) e_ ?_) (fun h_ => ?_); clear e_)))

theorem follows_goOn {b₀ s : State} (h : b₀.Follows s) (d bead : Nat) :
    b₀.Follows (State.goOn s d bead).1 := by
  unfold State.goOn
  repeat' first
    | with_reducible (first
        | assumption | refine follows_ite ?_ ?_ | apply follows_performHead)
    | (intro _; try beta_reduce)
    | (extract_lets +onlyGivenNames x_; first
        | (refine and_of (p := b₀.Follows x_) ?_ (fun h_ => ?_); (on_goal 2 => clear_value x_); (on_goal 1 => (unfold x_; clear x_)))
        | ((first | (have t_ : Boot := x_; clear t_) | (have t_ : Flash := x_; clear t_) | (have t_ : Jtag := x_; clear t_)); unfold x_; clear x_)
        | clear_value x_)
    | fail_if_no_progress (with_reducible refine follows_mk (side_of ?_))
    | with_reducible (first
        | refine follows_foldl ?_ ?_ | refine follows_ite_fst ?_ ?_ | refine follows_foldl_fst ?_ ?_
        | refine follows_of_fst (by assumption) ?_)
    | (split <;> try (rename_i e_; first
        | (refine and_of (follows_of_fst (a := b₀) e_ ?_) (fun h_ => ?_); clear e_)))

theorem follows_invalidate {b₀ s : State} (h : b₀.Follows s) (d bead : Nat) (e : Extent) (but : Option Nat) :
    b₀.Follows (State.invalidate s d bead e but).1 := by
  unfold State.invalidate
  repeat' first
    | with_reducible (first
        | assumption | refine follows_ite ?_ ?_ | apply follows_bump | apply follows_goOn | apply follows_setLine
        | apply follows_snoopAll)
    | (intro _; try beta_reduce)
    | fail_if_no_progress (with_reducible refine follows_mk (side_of ?_))
    | with_reducible (first
        | refine follows_foldl ?_ ?_ | refine follows_ite_fst ?_ ?_ | refine follows_foldl_fst ?_ ?_)

theorem follows_snoopOwner {b₀ s : State} (h : b₀.Follows s) (d bead : Nat) (e : Extent) (kind owner : Nat) :
    b₀.Follows (State.snoopOwner s d bead e kind owner).1 := by
  unfold State.snoopOwner
  repeat' first
    | with_reducible (first
        | assumption | refine follows_ite ?_ ?_ | apply hf0_ | apply follows_goOn | apply follows_openRecord
        | apply follows_recoverLine | apply follows_setLine | apply follows_snoop)
    | (intro _; try beta_reduce)
    | (extract_lets +onlyGivenNames x_; first
        | (refine and_of (p := ∀ y0, b₀.Follows (x_ y0)) ?_ (fun hf0_ => ?_); (on_goal 2 => clear_value x_); (on_goal 1 => (unfold x_; clear x_)))
        | (refine and_of (p := b₀.Follows x_) ?_ (fun h_ => ?_); (on_goal 2 => clear_value x_); (on_goal 1 => (unfold x_; clear x_)))
        | ((first | (have t_ : Boot := x_; clear t_) | (have t_ : Flash := x_; clear t_) | (have t_ : Jtag := x_; clear t_)); unfold x_; clear x_)
        | clear_value x_)
    | fail_if_no_progress (with_reducible refine follows_mk (side_of ?_))
    | with_reducible (first
        | refine follows_foldl ?_ ?_ | refine follows_ite_fst ?_ ?_ | refine follows_foldl_fst ?_ ?_
        | refine follows_of_fst (by assumption) ?_)
    | (split <;> try (rename_i e_; first
        | (refine and_of (follows_of_fst (a := b₀) e_ ?_) (fun h_ => ?_); clear e_)))

theorem follows_seekOwner {b₀ s : State} (h : b₀.Follows s) (d bead : Nat) (e : Extent) (but : Option Nat) :
    b₀.Follows (State.seekOwner s d bead e but).1 := by
  unfold State.seekOwner
  repeat' first
    | with_reducible (first
        | assumption | refine follows_ite ?_ ?_ | apply follows_bump | apply follows_goOn | apply follows_recoverLine
        | apply follows_setLine | apply follows_snoopAll)
    | (intro _; try beta_reduce)
    | fail_if_no_progress (with_reducible refine follows_mk (side_of ?_))
    | with_reducible (first
        | refine follows_foldl ?_ ?_ | refine follows_ite_fst ?_ ?_ | refine follows_foldl_fst ?_ ?_)

theorem follows_startHead {b₀ s : State} (h : b₀.Follows s) (d bead key idx : Nat) (e : Extent) :
    b₀.Follows (State.startHead s d bead key idx e).1 := by
  unfold State.startHead
  repeat' first
    | with_reducible (first
        | assumption | refine follows_ite ?_ ?_ | apply follows_complete | apply follows_coverLine | apply follows_goOn
        | apply follows_invalidate | apply follows_lookup | apply follows_recoverLine | apply follows_seekOwner
        | apply follows_snoopOwner)
    | (intro _; try beta_reduce)
    | (extract_lets +onlyGivenNames x_; first
        | (refine and_of (p := b₀.Follows x_) ?_ (fun h_ => ?_); (on_goal 2 => clear_value x_); (on_goal 1 => (unfold x_; clear x_)))
        | ((first | (have t_ : Boot := x_; clear t_) | (have t_ : Flash := x_; clear t_) | (have t_ : Jtag := x_; clear t_)); unfold x_; clear x_)
        | clear_value x_)
    | fail_if_no_progress (with_reducible refine follows_mk (side_of ?_))
    | with_reducible (first
        | refine follows_foldl ?_ ?_ | refine follows_ite_fst ?_ ?_ | refine follows_foldl_fst ?_ ?_
        | refine follows_of_fst (by assumption) ?_)
    | (split <;> try (rename_i e_; first
        | (refine and_of (follows_of_fst (a := b₀) e_ ?_) (fun h_ => ?_); clear e_)))

theorem follows_serveLine {b₀ s : State} (h : b₀.Follows s) (d bead fuel : Nat) :
    b₀.Follows (State.serveLine s d bead fuel) := by
  induction fuel generalizing s d bead with
  | zero =>
    unfold State.serveLine
    repeat' first
      | with_reducible (first
          | assumption | refine follows_ite ?_ ?_ | apply ih_ | apply follows_setLine | apply follows_startHead)
      | (intro _; try beta_reduce)
      | (extract_lets +onlyGivenNames x_; first
          | (refine and_of (p := b₀.Follows x_) ?_ (fun h_ => ?_); (on_goal 2 => clear_value x_); (on_goal 1 => (unfold x_; clear x_)))
          | ((first | (have t_ : Boot := x_; clear t_) | (have t_ : Flash := x_; clear t_) | (have t_ : Jtag := x_; clear t_)); unfold x_; clear x_)
          | clear_value x_)
      | fail_if_no_progress (with_reducible refine follows_mk (side_of ?_))
      | with_reducible (first
          | refine follows_foldl ?_ ?_ | refine follows_ite_fst ?_ ?_ | refine follows_foldl_fst ?_ ?_
          | refine follows_of_fst (by assumption) ?_)
      | (split <;> try (rename_i e_; first
          | (refine and_of (follows_of_fst (a := b₀) e_ ?_) (fun h_ => ?_); clear e_)))
  | succ n_ ih_ =>
    unfold State.serveLine
    repeat' first
      | with_reducible (first
          | assumption | refine follows_ite ?_ ?_ | apply ih_ | apply follows_setLine | apply follows_startHead)
      | (intro _; try beta_reduce)
      | (extract_lets +onlyGivenNames x_; first
          | (refine and_of (p := b₀.Follows x_) ?_ (fun h_ => ?_); (on_goal 2 => clear_value x_); (on_goal 1 => (unfold x_; clear x_)))
          | ((first | (have t_ : Boot := x_; clear t_) | (have t_ : Flash := x_; clear t_) | (have t_ : Jtag := x_; clear t_)); unfold x_; clear x_)
          | clear_value x_)
      | fail_if_no_progress (with_reducible refine follows_mk (side_of ?_))
      | with_reducible (first
          | refine follows_foldl ?_ ?_ | refine follows_ite_fst ?_ ?_ | refine follows_foldl_fst ?_ ?_
          | refine follows_of_fst (by assumption) ?_)
      | (split <;> try (rename_i e_; first
          | (refine and_of (follows_of_fst (a := b₀) e_ ?_) (fun h_ => ?_); clear e_)))

theorem follows_joinLine {b₀ s : State} (h : b₀.Follows s) (d bead key idx : Nat) :
    b₀.Follows (State.joinLine s d bead key idx) := by
  unfold State.joinLine
  repeat' first
    | with_reducible (first
        | assumption | refine follows_ite ?_ ?_ | apply follows_serveLine | apply follows_setLine)
    | (intro _; try beta_reduce)

theorem follows_endHead {b₀ s : State} (h : b₀.Follows s) (d bead : Nat) :
    b₀.Follows (State.endHead s d bead) := by
  unfold State.endHead
  repeat' first
    | with_reducible (first
        | assumption | refine follows_ite ?_ ?_ | apply follows_serveLine | apply follows_setLine)
    | (intro _; try beta_reduce)

theorem follows_proceed {b₀ s : State} (h : b₀.Follows s) (d bead : Nat) :
    b₀.Follows (State.proceed s d bead) := by
  unfold State.proceed
  repeat' first
    | with_reducible (first
        | assumption | refine follows_ite ?_ ?_ | apply follows_endHead | apply follows_goOn)
    | (intro _; try beta_reduce)
    | (extract_lets +onlyGivenNames x_; first
        | (refine and_of (p := b₀.Follows x_) ?_ (fun h_ => ?_); (on_goal 2 => clear_value x_); (on_goal 1 => (unfold x_; clear x_)))
        | ((first | (have t_ : Boot := x_; clear t_) | (have t_ : Flash := x_; clear t_) | (have t_ : Jtag := x_; clear t_)); unfold x_; clear x_)
        | clear_value x_)
    | fail_if_no_progress (with_reducible refine follows_mk (side_of ?_))
    | with_reducible (first
        | refine follows_foldl ?_ ?_ | refine follows_ite_fst ?_ ?_ | refine follows_foldl_fst ?_ ?_
        | refine follows_of_fst (by assumption) ?_)
    | (split <;> try (rename_i e_; first
        | (refine and_of (follows_of_fst (a := b₀) e_ ?_) (fun h_ => ?_); clear e_)))

theorem follows_grantLine {b₀ s : State} (h : b₀.Follows s) (d bead key : Nat) (data : List Byte) (poison : Bool) :
    b₀.Follows (State.grantLine s d bead key data poison) := by
  unfold State.grantLine
  repeat' first
    | with_reducible (first
        | assumption | refine follows_ite ?_ ?_ | apply follows_complete | apply follows_endHead)
    | (intro _; try beta_reduce)

theorem follows_recallFor {b₀ s : State} (h : b₀.Follows s) (d bead : Nat) :
    b₀.Follows (State.recallFor s d bead) := by
  unfold State.recallFor
  repeat' first
    | with_reducible (first
        | assumption | refine follows_ite ?_ ?_ | apply hf0_ | apply follows_bump | apply follows_coverLine
        | apply follows_openRecord | apply follows_raise | apply follows_recoverLine | apply follows_setLine
        | apply follows_snoop)
    | (intro _; try beta_reduce)
    | (extract_lets +onlyGivenNames x_; first
        | (refine and_of (p := ∀ y0 s, b₀.Follows s → b₀.Follows (x_ y0 s)) ?_ (fun hf0_ => ?_); (on_goal 2 => clear_value x_); (on_goal 1 => (unfold x_; clear x_)))
        | (refine and_of (p := b₀.Follows x_) ?_ (fun h_ => ?_); (on_goal 2 => clear_value x_); (on_goal 1 => (unfold x_; clear x_)))
        | ((first | (have t_ : Boot := x_; clear t_) | (have t_ : Flash := x_; clear t_) | (have t_ : Jtag := x_; clear t_)); unfold x_; clear x_)
        | clear_value x_)
    | fail_if_no_progress (with_reducible refine follows_mk (side_of ?_))
    | with_reducible (first
        | refine follows_foldl ?_ ?_ | refine follows_ite_fst ?_ ?_ | refine follows_foldl_fst ?_ ?_
        | refine follows_of_fst (by assumption) ?_)
    | (split <;> try (rename_i e_; first
        | (refine and_of (follows_of_fst (a := b₀) e_ ?_) (fun h_ => ?_); clear e_)))

theorem follows_grantOwn {b₀ s : State} (h : b₀.Follows s) (d bead key src : Nat) (data : List Byte) (poison again : Bool) :
    b₀.Follows (State.grantOwn s d bead key src data poison again) := by
  unfold State.grantOwn
  repeat' first
    | with_reducible (first
        | assumption | refine follows_ite ?_ ?_ | apply follows_grantLine | apply follows_recallFor | apply follows_setLine
        | apply follows_stampOf)
    | (intro _; try beta_reduce)

theorem follows_retryGrants {b₀ s : State} (h : b₀.Follows s) (d bead : Nat) :
    b₀.Follows (State.retryGrants s d bead) := by
  unfold State.retryGrants
  repeat' first
    | with_reducible (first
        | assumption | refine follows_ite ?_ ?_ | apply follows_endHead | apply follows_grantOwn)
    | (intro _; try beta_reduce)
    | (extract_lets +onlyGivenNames x_; first
        | (refine and_of (p := b₀.Follows x_) ?_ (fun h_ => ?_); (on_goal 2 => clear_value x_); (on_goal 1 => (unfold x_; clear x_)))
        | ((first | (have t_ : Boot := x_; clear t_) | (have t_ : Flash := x_; clear t_) | (have t_ : Jtag := x_; clear t_)); unfold x_; clear x_)
        | clear_value x_)
    | fail_if_no_progress (with_reducible refine follows_mk (side_of ?_))
    | with_reducible (first
        | refine follows_foldl ?_ ?_ | refine follows_ite_fst ?_ ?_ | refine follows_foldl_fst ?_ ?_
        | refine follows_of_fst (by assumption) ?_)
    | (split <;> try (rename_i e_; first
        | (refine and_of (follows_of_fst (a := b₀) e_ ?_) (fun h_ => ?_); clear e_)))

theorem follows_putBead {b₀ s : State} (h : b₀.Follows s) (key idx : Nat) (data : List Byte) (poison : Bool) :
    b₀.Follows (State.putBead s key idx data poison) := by
  unfold State.putBead
  repeat' first
    | with_reducible (first
        | assumption | refine follows_ite ?_ ?_ | apply follows_setSlot)
    | (intro _; try beta_reduce)
    | (extract_lets +onlyGivenNames x_; first
        | (refine and_of (p := b₀.Follows x_) ?_ (fun h_ => ?_); (on_goal 2 => clear_value x_); (on_goal 1 => (unfold x_; clear x_)))
        | ((first | (have t_ : Boot := x_; clear t_) | (have t_ : Flash := x_; clear t_) | (have t_ : Jtag := x_; clear t_)); unfold x_; clear x_)
        | clear_value x_)
    | fail_if_no_progress (with_reducible refine follows_mk (side_of ?_))
    | with_reducible (first
        | refine follows_foldl ?_ ?_ | refine follows_ite_fst ?_ ?_ | refine follows_foldl_fst ?_ ?_
        | refine follows_of_fst (by assumption) ?_)
    | (split <;> try (rename_i e_; first
        | (refine and_of (follows_of_fst (a := b₀) e_ ?_) (fun h_ => ?_); clear e_)))

theorem follows_beadDone {b₀ s : State} (h : b₀.Follows s) (key : Nat) :
    b₀.Follows (State.beadDone s key) := by
  unfold State.beadDone
  repeat' first
    | with_reducible (first
        | assumption | refine follows_ite ?_ ?_ | apply follows_complete | apply follows_setSlot)
    | (intro _; try beta_reduce)
    | (extract_lets +onlyGivenNames x_; first
        | (refine and_of (p := b₀.Follows x_) ?_ (fun h_ => ?_); (on_goal 2 => clear_value x_); (on_goal 1 => (unfold x_; clear x_)))
        | ((first | (have t_ : Boot := x_; clear t_) | (have t_ : Flash := x_; clear t_) | (have t_ : Jtag := x_; clear t_)); unfold x_; clear x_)
        | clear_value x_)
    | fail_if_no_progress (with_reducible refine follows_mk (side_of ?_))
    | with_reducible (first
        | refine follows_foldl ?_ ?_ | refine follows_ite_fst ?_ ?_ | refine follows_foldl_fst ?_ ?_
        | refine follows_of_fst (by assumption) ?_)
    | (split <;> try (rename_i e_; first
        | (refine and_of (follows_of_fst (a := b₀) e_ ?_) (fun h_ => ?_); clear e_)))

theorem follows_homeData {b₀ s : State} (h : b₀.Follows s) (key idx : Nat) (data : List Byte) (poison : Bool) :
    b₀.Follows (State.homeData s key idx data poison) := by
  unfold State.homeData
  repeat' first
    | with_reducible (first
        | assumption | refine follows_ite ?_ ?_ | apply follows_addSharer | apply follows_beadDone | apply follows_endHead
        | apply follows_grantLine | apply follows_grantOwn | apply follows_putBead)
    | (intro _; try beta_reduce)
    | (extract_lets +onlyGivenNames x_; first
        | (refine and_of (p := b₀.Follows x_) ?_ (fun h_ => ?_); (on_goal 2 => clear_value x_); (on_goal 1 => (unfold x_; clear x_)))
        | ((first | (have t_ : Boot := x_; clear t_) | (have t_ : Flash := x_; clear t_) | (have t_ : Jtag := x_; clear t_)); unfold x_; clear x_)
        | clear_value x_)
    | fail_if_no_progress (with_reducible refine follows_mk (side_of ?_))
    | with_reducible (first
        | refine follows_foldl ?_ ?_ | refine follows_ite_fst ?_ ?_ | refine follows_foldl_fst ?_ ?_
        | refine follows_of_fst (by assumption) ?_)
    | (split <;> try (rename_i e_; first
        | (refine and_of (follows_of_fst (a := b₀) e_ ?_) (fun h_ => ?_); clear e_)))

theorem follows_lineDone {b₀ s : State} (h : b₀.Follows s) (pa key idx : Nat) :
    b₀.Follows (State.lineDone s pa key idx) := by
  unfold State.lineDone
  repeat' first
    | with_reducible (first
        | assumption | refine follows_ite ?_ ?_ | apply follows_endHead)
    | (intro _; try beta_reduce)

theorem follows_homeWrite {b₀ s : State} (h : b₀.Follows s) (pa : Nat) (data : List Byte) (poison : Bool) :
    b₀.Follows (State.homeWrite s pa data poison).1 := by
  unfold State.homeWrite
  repeat' first
    | with_reducible (first
        | assumption | refine follows_ite ?_ ?_ | apply follows_homeStore | apply follows_toCtl)
    | (intro _; try beta_reduce)
    | (extract_lets +onlyGivenNames x_; first
        | (refine and_of (p := b₀.Follows x_) ?_ (fun h_ => ?_); (on_goal 2 => clear_value x_); (on_goal 1 => (unfold x_; clear x_)))
        | ((first | (have t_ : Boot := x_; clear t_) | (have t_ : Flash := x_; clear t_) | (have t_ : Jtag := x_; clear t_)); unfold x_; clear x_)
        | clear_value x_)
    | fail_if_no_progress (with_reducible refine follows_mk (side_of ?_))
    | with_reducible (first
        | refine follows_foldl ?_ ?_ | refine follows_ite_fst ?_ ?_ | refine follows_foldl_fst ?_ ?_
        | refine follows_of_fst (by assumption) ?_)
    | (split <;> try (rename_i e_; first
        | (refine and_of (follows_of_fst (a := b₀) e_ ?_) (fun h_ => ?_); clear e_)))

theorem follows_finishMx {b₀ s : State} (h : b₀.Follows s) (d bead kind owner : Nat) :
    b₀.Follows (State.finishMx s d bead kind owner) := by
  unfold State.finishMx
  repeat' first
    | with_reducible (first
        | assumption | refine follows_ite ?_ ?_ | apply follows_openRecord | apply follows_proceed | apply follows_retryGrants
        | apply follows_setLine)
    | (intro _; try beta_reduce)

theorem follows_finishCopy {b₀ s : State} (h : b₀.Follows s) (d bead : Nat) (data : List Byte) (poison : Bool) :
    b₀.Follows (State.finishCopy s d bead data poison) := by
  unfold State.finishCopy
  repeat' first
    | with_reducible (first
        | assumption | refine follows_ite ?_ ?_ | apply follows_beadDone | apply follows_endHead | apply follows_putBead
        | apply follows_setLine | apply follows_setSlice)
    | (intro _; try beta_reduce)
    | (extract_lets +onlyGivenNames x_; first
        | (refine and_of (p := b₀.Follows x_) ?_ (fun h_ => ?_); (on_goal 2 => clear_value x_); (on_goal 1 => (unfold x_; clear x_)))
        | ((first | (have t_ : Boot := x_; clear t_) | (have t_ : Flash := x_; clear t_) | (have t_ : Jtag := x_; clear t_)); unfold x_; clear x_)
        | clear_value x_)
    | fail_if_no_progress (with_reducible refine follows_mk (side_of ?_))
    | with_reducible (first
        | refine follows_foldl ?_ ?_ | refine follows_ite_fst ?_ ?_ | refine follows_foldl_fst ?_ ?_
        | refine follows_of_fst (by assumption) ?_)
    | (split <;> try (rename_i e_; first
        | (refine and_of (follows_of_fst (a := b₀) e_ ?_) (fun h_ => ?_); clear e_)))

theorem follows_finishRecall {b₀ s : State} (h : b₀.Follows s) (d bead : Nat) :
    b₀.Follows (State.finishRecall s d bead) := by
  unfold State.finishRecall
  repeat' first
    | with_reducible (first
        | assumption | refine follows_ite ?_ ?_ | apply follows_retryGrants | apply follows_serveLine | apply follows_setLine)
    | (intro _; try beta_reduce)

theorem follows_finishLost {b₀ s : State} (h : b₀.Follows s) (d bead : Nat) :
    b₀.Follows (State.finishLost s d bead) := by
  unfold State.finishLost
  repeat' first
    | with_reducible (first
        | assumption | refine follows_ite ?_ ?_ | apply follows_proceed | apply follows_setLine)
    | (intro _; try beta_reduce)

theorem follows_recalled {b₀ s : State} (h : b₀.Follows s) (d bead o : Nat) :
    b₀.Follows (State.recalled s d bead o) := by
  unfold State.recalled
  repeat' first
    | with_reducible (first
        | assumption | refine follows_ite ?_ ?_ | apply follows_finishRecall | apply follows_openRecord)
    | (intro _; try beta_reduce)

theorem follows_answerStored {b₀ s : State} (h : b₀.Follows s) (d bead : Nat) :
    b₀.Follows (State.answerStored s d bead) := by
  unfold State.answerStored
  repeat' first
    | with_reducible (first
        | assumption | refine follows_ite ?_ ?_ | apply follows_finishLost | apply follows_finishMx | apply follows_recalled)
    | (intro _; try beta_reduce)
    | (extract_lets +onlyGivenNames x_; first
        | (refine and_of (p := b₀.Follows x_) ?_ (fun h_ => ?_); (on_goal 2 => clear_value x_); (on_goal 1 => (unfold x_; clear x_)))
        | ((first | (have t_ : Boot := x_; clear t_) | (have t_ : Flash := x_; clear t_) | (have t_ : Jtag := x_; clear t_)); unfold x_; clear x_)
        | clear_value x_)
    | fail_if_no_progress (with_reducible refine follows_mk (side_of ?_))
    | with_reducible (first
        | refine follows_foldl ?_ ?_ | refine follows_ite_fst ?_ ?_ | refine follows_foldl_fst ?_ ?_
        | refine follows_of_fst (by assumption) ?_)
    | (split <;> try (rename_i e_; first
        | (refine and_of (follows_of_fst (a := b₀) e_ ?_) (fun h_ => ?_); clear e_)))

theorem follows_finishSi {b₀ s : State} (h : b₀.Follows s) (d bead : Nat) :
    b₀.Follows (State.finishSi s d bead) := by
  unfold State.finishSi
  repeat' first
    | with_reducible (first
        | assumption | refine follows_ite ?_ ?_ | apply follows_finishLost | apply follows_homeWrite | apply follows_proceed
        | apply follows_recoverLine | apply follows_setLine)
    | (intro _; try beta_reduce)
    | (extract_lets +onlyGivenNames x_; first
        | (refine and_of (p := b₀.Follows x_) ?_ (fun h_ => ?_); (on_goal 2 => clear_value x_); (on_goal 1 => (unfold x_; clear x_)))
        | ((first | (have t_ : Boot := x_; clear t_) | (have t_ : Flash := x_; clear t_) | (have t_ : Jtag := x_; clear t_)); unfold x_; clear x_)
        | clear_value x_)
    | fail_if_no_progress (with_reducible refine follows_mk (side_of ?_))
    | with_reducible (first
        | refine follows_foldl ?_ ?_ | refine follows_ite_fst ?_ ?_ | refine follows_foldl_fst ?_ ?_
        | refine follows_of_fst (by assumption) ?_)
    | (split <;> try (rename_i e_; first
        | (refine and_of (follows_of_fst (a := b₀) e_ ?_) (fun h_ => ?_); clear e_)))

theorem follows_snoopAnswer {b₀ s : State} (h : b₀.Follows s) (d bead out status : Nat) (data : List Byte) (poison : Bool) :
    b₀.Follows (State.snoopAnswer s d bead out status data poison) := by
  unfold State.snoopAnswer
  repeat' first
    | with_reducible (first
        | assumption | refine follows_ite ?_ ?_ | apply follows_finishCopy | apply follows_finishMx | apply follows_finishRecall
        | apply follows_finishSi | apply follows_homeWrite | apply follows_proceed | apply follows_recalled
        | apply follows_recoverLine | apply follows_retryGrants | apply follows_setLine | apply follows_tally)
    | (intro _; try beta_reduce)
    | (extract_lets +onlyGivenNames x_; first
        | (refine and_of (p := b₀.Follows x_) ?_ (fun h_ => ?_); (on_goal 2 => clear_value x_); (on_goal 1 => (unfold x_; clear x_)))
        | (refine and_of (p := b₀.Follows x_.1) ?_ (fun h_ => ?_); (on_goal 2 => clear_value x_); (on_goal 1 => (unfold x_; clear x_)))
        | (refine and_of (p := b₀.Follows x_.2) ?_ (fun h_ => ?_); (on_goal 2 => clear_value x_); (on_goal 1 => (unfold x_; clear x_)))
        | ((first | (have t_ : Boot := x_; clear t_) | (have t_ : Flash := x_; clear t_) | (have t_ : Jtag := x_; clear t_)); unfold x_; clear x_)
        | clear_value x_
        | (unfold x_; clear x_))
    | fail_if_no_progress (with_reducible refine follows_mk (side_of ?_))
    | with_reducible (first
        | refine follows_foldl ?_ ?_ | refine follows_ite_fst ?_ ?_ | refine follows_foldl_fst ?_ ?_
        | refine follows_of_fst (by assumption) ?_)
    | (split <;> try (rename_i e_; first
        | (refine and_of (follows_of_fst (a := b₀) e_ ?_) (fun h_ => ?_); clear e_)
        | (refine and_of (follows_of_snd (a := b₀) e_ ?_) (fun h_ => ?_); clear e_)))

theorem follows_countResend {b₀ s : State} (h : b₀.Follows s) (d : Nat) (x : Snooped) :
    b₀.Follows (State.countResend s d x) := by
  unfold State.countResend
  repeat' first
    | with_reducible (first
        | assumption | refine follows_ite ?_ ?_ | apply follows_bump)
    | (intro _; try beta_reduce)

theorem follows_resendAll {b₀ s : State} (h : b₀.Follows s) (d bead : Nat) (e : Extent) (l1 : List (Nat × Option Nat)) :
    b₀.Follows (State.resendAll s d bead e l1).1 := by
  induction l1 generalizing s with
  | nil => unfold State.resendAll; exact h
  | cons x t ih =>
    obtain ⟨t1, o⟩ := x
    cases o with
    | some i => unfold State.resendAll; exact ih h
    | none =>
      unfold State.resendAll
      dsimp only
      split <;> exact ih (follows_countResend (follows_snoop h _ _ _ _ _ _) _ _)

theorem follows_resendLine {b₀ s : State} (h : b₀.Follows s) (d bead : Nat) :
    b₀.Follows (State.resendLine s d bead) := by
  unfold State.resendLine
  repeat' first
    | with_reducible (first
        | assumption | refine follows_ite ?_ ?_ | apply hf0_ | apply follows_countResend | apply follows_finishRecall
        | apply follows_finishSi | apply follows_proceed | apply follows_recoverLine | apply follows_resendAll
        | apply follows_retryGrants | apply follows_setLine | apply follows_snoop)
    | (intro _; try beta_reduce)
    | (extract_lets +onlyGivenNames x_; first
        | (refine and_of (p := ∀ s y1 y2 y3, b₀.Follows s → b₀.Follows (x_ s y1 y2 y3)) ?_ (fun hf0_ => ?_); (on_goal 2 => clear_value x_); (on_goal 1 => (unfold x_; clear x_)))
        | (refine and_of (p := b₀.Follows x_) ?_ (fun h_ => ?_); (on_goal 2 => clear_value x_); (on_goal 1 => (unfold x_; clear x_)))
        | ((first | (have t_ : Boot := x_; clear t_) | (have t_ : Flash := x_; clear t_) | (have t_ : Jtag := x_; clear t_)); unfold x_; clear x_)
        | clear_value x_)
    | fail_if_no_progress (with_reducible refine follows_mk (side_of ?_))
    | with_reducible (first
        | refine follows_foldl ?_ ?_ | refine follows_ite_fst ?_ ?_ | refine follows_foldl_fst ?_ ?_
        | refine follows_of_fst (by assumption) ?_)
    | (split <;> try (rename_i e_; first
        | (refine and_of (follows_of_fst (a := b₀) e_ ?_) (fun h_ => ?_); clear e_)))

theorem follows_execSnoopRetry {b₀ st : State} (h : b₀.Follows st) (s : Fin 8) (bead : Nat) :
    b₀.Goes (execSnoopRetry s bead st) := by
  unfold execSnoopRetry
  repeat' first
    | with_reducible (first
        | assumption | refine follows_ite ?_ ?_ | refine goes_next ?_ | apply follows_elapseTo | apply follows_onlyIf
        | apply follows_resendLine)
    | (intro _; try beta_reduce)

theorem follows_writeBackLine {b₀ s : State} (h : b₀.Follows s) (key : Nat) (v : InSlot) :
    b₀.Follows (State.writeBackLine s key v) := by
  unfold State.writeBackLine
  repeat' first
    | with_reducible (first
        | assumption | refine follows_ite ?_ ?_ | apply follows_complete | apply follows_lookup | apply follows_performBead
        | apply follows_retryGrants | apply follows_setLine)
    | (intro _; try beta_reduce)

theorem follows_answerDead {b₀ s : State} (h : b₀.Follows s) (d bead ep : Nat) :
    b₀.Follows (State.answerDead s d bead ep) := by
  unfold State.answerDead
  repeat' first
    | with_reducible (first
        | assumption | refine follows_ite ?_ ?_ | apply follows_finishRecall | apply follows_finishSi | apply follows_proceed
        | apply follows_recoverLine | apply follows_retryGrants | apply follows_setLine)
    | (intro _; try beta_reduce)
    | (extract_lets +onlyGivenNames x_; first
        | (refine and_of (p := b₀.Follows x_) ?_ (fun h_ => ?_); (on_goal 2 => clear_value x_); (on_goal 1 => (unfold x_; clear x_)))
        | ((first | (have t_ : Boot := x_; clear t_) | (have t_ : Flash := x_; clear t_) | (have t_ : Jtag := x_; clear t_)); unfold x_; clear x_)
        | clear_value x_)
    | fail_if_no_progress (with_reducible refine follows_mk (side_of ?_))
    | with_reducible (first
        | refine follows_foldl ?_ ?_ | refine follows_ite_fst ?_ ?_ | refine follows_foldl_fst ?_ ?_
        | refine follows_of_fst (by assumption) ?_)
    | (split <;> try (rename_i e_; first
        | (refine and_of (follows_of_fst (a := b₀) e_ ?_) (fun h_ => ?_); clear e_)))

theorem follows_sliceDead {b₀ s : State} (h : b₀.Follows s) (d ep : Nat) :
    b₀.Follows (State.sliceDead s d ep) := by
  unfold State.sliceDead
  repeat' first
    | with_reducible (first
        | assumption | refine follows_ite ?_ ?_ | apply follows_answerDead | apply follows_setSlice)
    | (intro _; try beta_reduce)
    | fail_if_no_progress (with_reducible refine follows_mk (side_of ?_))
    | with_reducible (first
        | refine follows_foldl ?_ ?_ | refine follows_ite_fst ?_ ?_ | refine follows_foldl_fst ?_ ?_)

theorem follows_dirDead {b₀ s : State} (h : b₀.Follows s) (ep : Nat) :
    b₀.Follows (State.dirDead s ep) := by
  unfold State.dirDead
  repeat' first
    | with_reducible (first
        | assumption | refine follows_ite ?_ ?_ | apply follows_sliceDead)
    | (intro _; try beta_reduce)
    | fail_if_no_progress (with_reducible refine follows_mk (side_of ?_))
    | with_reducible (first
        | refine follows_foldl ?_ ?_ | refine follows_ite_fst ?_ ?_ | refine follows_foldl_fst ?_ ?_)

theorem follows_dirAlive {b₀ s : State} (h : b₀.Follows s) (ep : Nat) :
    b₀.Follows (State.dirAlive s ep) := by
  unfold State.dirAlive
  repeat' first
    | with_reducible (first
        | assumption | refine follows_ite ?_ ?_)
    | (intro _; try beta_reduce)
    | fail_if_no_progress (with_reducible refine follows_mk (side_of ?_))
    | with_reducible (first
        | refine follows_foldl ?_ ?_ | refine follows_ite_fst ?_ ?_ | refine follows_foldl_fst ?_ ?_)

theorem follows_walkLog {b₀ s : State} (h : b₀.Follows s) (d : Nat) :
    b₀.Follows (State.walkLog s d) := by
  unfold State.walkLog
  repeat' first
    | with_reducible (first
        | assumption | refine follows_ite ?_ ?_ | apply follows_fieldWrite | apply follows_recoverLine
        | apply follows_retryGrants)
    | (intro _; try beta_reduce)
    | fail_if_no_progress (with_reducible refine follows_mk (side_of ?_))
    | with_reducible (first
        | refine follows_foldl ?_ ?_ | refine follows_ite_fst ?_ ?_ | refine follows_foldl_fst ?_ ?_)

theorem follows_execDeadWalkDone {b₀ st : State} (h : b₀.Follows st) (s : Fin 8) :
    b₀.Goes (execDeadWalkDone s st) := by
  unfold execDeadWalkDone
  repeat' first
    | with_reducible (first
        | assumption | refine follows_ite ?_ ?_ | refine goes_next ?_ | apply follows_onlyIf | apply follows_postMgr
        | apply follows_raise | apply follows_setSlice | apply follows_walkLog)
    | (intro _; try beta_reduce)

theorem follows_snoopRevoked {b₀ s : State} (h : b₀.Follows s) (e : Extent) :
    b₀.Follows (State.snoopRevoked s e) := by
  unfold State.snoopRevoked
  repeat' first
    | with_reducible (first
        | assumption | refine follows_ite ?_ ?_ | apply follows_coverLine | apply follows_setLine | apply follows_snoopAll)
    | (intro _; try beta_reduce)
    | fail_if_no_progress (with_reducible refine follows_mk (side_of ?_))
    | with_reducible (first
        | refine follows_foldl ?_ ?_ | refine follows_ite_fst ?_ ?_ | refine follows_foldl_fst ?_ ?_)

theorem follows_clearLines {b₀ s : State} (h : b₀.Follows s) (e : Extent) :
    b₀.Follows (State.clearLines s e) := by
  unfold State.clearLines
  repeat' first
    | with_reducible (first
        | assumption | refine follows_ite ?_ ?_)
    | (intro _; try beta_reduce)
    | fail_if_no_progress (with_reducible refine follows_mk (side_of ?_))
    | with_reducible (first
        | refine follows_foldl ?_ ?_ | refine follows_ite_fst ?_ ?_ | refine follows_foldl_fst ?_ ?_)

theorem follows_innerWait {b₀ s : State} (h : b₀.Follows s) (tag pa write : Nat) :
    b₀.Follows (State.innerWait s tag pa write) := by
  unfold State.innerWait
  repeat' first
    | with_reducible (first
        | assumption | refine follows_ite ?_ ?_ | apply follows_joinLine)
    | (intro _; try beta_reduce)

theorem follows_innerMissing {b₀ s : State} (h : b₀.Follows s) (pa : Nat) :
    b₀.May (State.innerMissing s pa) := by
  unfold State.innerMissing
  repeat' first
    | with_reducible (first
        | assumption | refine follows_ite ?_ ?_ | apply follows_gatherOwn)
    | (intro _; try beta_reduce)
    | (extract_lets +onlyGivenNames x_; first
        | (refine and_of (p := b₀.Follows x_) ?_ (fun h_ => ?_); (on_goal 2 => clear_value x_); (on_goal 1 => (unfold x_; clear x_)))
        | ((first | (have t_ : Boot := x_; clear t_) | (have t_ : Flash := x_; clear t_) | (have t_ : Jtag := x_; clear t_)); unfold x_; clear x_)
        | clear_value x_)
    | fail_if_no_progress (with_reducible refine follows_mk (side_of ?_))
    | with_reducible (first
        | refine follows_foldl ?_ ?_ | refine follows_ite_fst ?_ ?_ | refine follows_foldl_fst ?_ ?_ | refine may_ite ?_ ?_
        | refine may_some ?_ | exact may_none | refine follows_of_fst (by assumption) ?_)
    | (split <;> try (rename_i e_; first
        | (refine and_of (follows_of_fst (a := b₀) e_ ?_) (fun h_ => ?_); clear e_)))

theorem follows_unitLookup {b₀ s : State} (h : b₀.Follows s) (pa typ : Nat) :
    b₀.Follows (State.unitLookup s pa typ) := by
  unfold State.unitLookup
  repeat' first
    | with_reducible (first
        | assumption | refine follows_ite ?_ ?_ | apply follows_lookup)
    | (intro _; try beta_reduce)
    | (extract_lets +onlyGivenNames x_; first
        | (refine and_of (p := b₀.Follows x_) ?_ (fun h_ => ?_); (on_goal 2 => clear_value x_); (on_goal 1 => (unfold x_; clear x_)))
        | ((first | (have t_ : Boot := x_; clear t_) | (have t_ : Flash := x_; clear t_) | (have t_ : Jtag := x_; clear t_)); unfold x_; clear x_)
        | clear_value x_)
    | fail_if_no_progress (with_reducible refine follows_mk (side_of ?_))
    | with_reducible (first
        | refine follows_foldl ?_ ?_ | refine follows_ite_fst ?_ ?_ | refine follows_foldl_fst ?_ ?_
        | refine follows_of_fst (by assumption) ?_)
    | (split <;> try (rename_i e_; first
        | (refine and_of (follows_of_fst (a := b₀) e_ ?_) (fun h_ => ?_); clear e_)))

theorem follows_innerRead {b₀ s : State} (h : b₀.Follows s) (tag pa : Nat) :
    b₀.Follows (State.innerRead s tag pa).1 := by
  unfold State.innerRead
  repeat' first
    | with_reducible (first
        | assumption | refine follows_ite ?_ ?_ | apply hf0_ | apply follows_gatherOwn | apply follows_innerMissing
        | apply follows_innerWait | apply follows_lookup | apply follows_readOut | apply follows_setSlice | apply follows_unitGo
        | apply follows_unitLookup)
    | (intro _; try beta_reduce)
    | (extract_lets +onlyGivenNames x_; first
        | (refine and_of (p := ∀ y0 y1 s, b₀.Follows s → b₀.Follows (x_ y0 y1 s)) ?_ (fun hf0_ => ?_); (on_goal 2 => clear_value x_); (on_goal 1 => (unfold x_; clear x_)))
        | (refine and_of (p := b₀.Follows x_) ?_ (fun h_ => ?_); (on_goal 2 => clear_value x_); (on_goal 1 => (unfold x_; clear x_)))
        | ((first | (have t_ : Boot := x_; clear t_) | (have t_ : Flash := x_; clear t_) | (have t_ : Jtag := x_; clear t_)); unfold x_; clear x_)
        | clear_value x_)
    | fail_if_no_progress (with_reducible refine follows_mk (side_of ?_))
    | with_reducible (first
        | refine follows_foldl ?_ ?_ | refine follows_ite_fst ?_ ?_ | refine follows_foldl_fst ?_ ?_ | refine may_ite ?_ ?_
        | refine may_some ?_ | exact may_none | refine follows_of_fst (by assumption) ?_)
    | (split <;> try (rename_i e_; first
        | (refine and_of (follows_of_fst (a := b₀) e_ ?_) (fun h_ => ?_); clear e_)
        | (refine and_of (follows_of_may (a := b₀) e_ ?_) (fun h_ => ?_); clear e_)))

theorem follows_innerForward {b₀ s : State} (h : b₀.Follows s) (tag ext pa k : Nat) (old : List Byte) (bad : Bool) (new
    : List Byte) (poison : Bool) :
    b₀.Follows (State.innerForward s tag ext pa k old bad new poison).1 := by
  unfold State.innerForward
  repeat' first
    | with_reducible (first
        | assumption | refine follows_ite ?_ ?_ | apply follows_degrade | apply follows_sendFwd | apply follows_writeBead)
    | (intro _; try beta_reduce)
    | (extract_lets +onlyGivenNames x_; first
        | (refine and_of (p := b₀.Follows x_) ?_ (fun h_ => ?_); (on_goal 2 => clear_value x_); (on_goal 1 => (unfold x_; clear x_)))
        | ((first | (have t_ : Boot := x_; clear t_) | (have t_ : Flash := x_; clear t_) | (have t_ : Jtag := x_; clear t_)); unfold x_; clear x_)
        | clear_value x_)
    | fail_if_no_progress (with_reducible refine follows_mk (side_of ?_))
    | with_reducible (first
        | refine follows_foldl ?_ ?_ | refine follows_ite_fst ?_ ?_ | refine follows_foldl_fst ?_ ?_
        | refine follows_of_fst (by assumption) ?_)
    | (split <;> try (rename_i e_; first
        | (refine and_of (follows_of_fst (a := b₀) e_ ?_) (fun h_ => ?_); clear e_)))

theorem follows_innerWrite {b₀ s : State} (h : b₀.Follows s) (tag pa : Nat) (op : BeadOp) :
    b₀.Follows (State.innerWrite s tag pa op).1 := by
  unfold State.innerWrite
  repeat' first
    | with_reducible (first
        | assumption | refine follows_ite ?_ ?_ | apply follows_innerForward | apply follows_innerMissing
        | apply follows_innerRead | apply follows_innerWait | apply follows_readOut | apply follows_unitGo
        | apply follows_unitLookup | apply follows_writeBead)
    | (intro _; try beta_reduce)
    | (extract_lets +onlyGivenNames x_; first
        | (refine and_of (p := b₀.Follows x_) ?_ (fun h_ => ?_); (on_goal 2 => clear_value x_); (on_goal 1 => (unfold x_; clear x_)))
        | ((first | (have t_ : Boot := x_; clear t_) | (have t_ : Flash := x_; clear t_) | (have t_ : Jtag := x_; clear t_)); unfold x_; clear x_)
        | clear_value x_)
    | fail_if_no_progress (with_reducible refine follows_mk (side_of ?_))
    | with_reducible (first
        | refine follows_foldl ?_ ?_ | refine follows_ite_fst ?_ ?_ | refine follows_foldl_fst ?_ ?_ | refine may_ite ?_ ?_
        | refine may_some ?_ | exact may_none | refine follows_of_fst (by assumption) ?_)
    | (split <;> try (rename_i e_; first
        | (refine and_of (follows_of_fst (a := b₀) e_ ?_) (fun h_ => ?_); clear e_)
        | (refine and_of (follows_of_may (a := b₀) e_ ?_) (fun h_ => ?_); clear e_)))

theorem follows_keepWrote {b₀ s : State} (h : b₀.Follows s) (was : State) :
    b₀.Follows (State.keepWrote s was) := by
  unfold State.keepWrote
  repeat' first
    | with_reducible (first
        | assumption | refine follows_ite ?_ ?_)
    | (intro _; try beta_reduce)
    | fail_if_no_progress (with_reducible refine follows_mk (side_of ?_))
    | with_reducible (first
        | refine follows_foldl ?_ ?_ | refine follows_ite_fst ?_ ?_ | refine follows_foldl_fst ?_ ?_)

theorem follows_innerReads {b₀ s : State} (h : b₀.Follows s) (tag pa n : Nat) :
    b₀.Follows (State.innerReads s tag pa n).1 := by
  induction n generalizing s tag pa with
  | zero =>
    unfold State.innerReads
    repeat' first
      | with_reducible (first
          | assumption | refine follows_ite ?_ ?_ | apply ih_ | apply follows_innerRead)
      | (intro _; try beta_reduce)
      | (extract_lets +onlyGivenNames x_; first
          | (refine and_of (p := b₀.Follows x_) ?_ (fun h_ => ?_); (on_goal 2 => clear_value x_); (on_goal 1 => (unfold x_; clear x_)))
          | ((first | (have t_ : Boot := x_; clear t_) | (have t_ : Flash := x_; clear t_) | (have t_ : Jtag := x_; clear t_)); unfold x_; clear x_)
          | clear_value x_)
      | fail_if_no_progress (with_reducible refine follows_mk (side_of ?_))
      | with_reducible (first
          | refine follows_foldl ?_ ?_ | refine follows_ite_fst ?_ ?_ | refine follows_foldl_fst ?_ ?_
          | refine follows_of_fst (by assumption) ?_)
      | (split <;> try (rename_i e_; first
          | (refine and_of (follows_of_fst (a := b₀) e_ ?_) (fun h_ => ?_); clear e_)))
  | succ n_ ih_ =>
    unfold State.innerReads
    repeat' first
      | with_reducible (first
          | assumption | refine follows_ite ?_ ?_ | apply ih_ | apply follows_innerRead)
      | (intro _; try beta_reduce)
      | (extract_lets +onlyGivenNames x_; first
          | (refine and_of (p := b₀.Follows x_) ?_ (fun h_ => ?_); (on_goal 2 => clear_value x_); (on_goal 1 => (unfold x_; clear x_)))
          | ((first | (have t_ : Boot := x_; clear t_) | (have t_ : Flash := x_; clear t_) | (have t_ : Jtag := x_; clear t_)); unfold x_; clear x_)
          | clear_value x_)
      | fail_if_no_progress (with_reducible refine follows_mk (side_of ?_))
      | with_reducible (first
          | refine follows_foldl ?_ ?_ | refine follows_ite_fst ?_ ?_ | refine follows_foldl_fst ?_ ?_
          | refine follows_of_fst (by assumption) ?_)
      | (split <;> try (rename_i e_; first
          | (refine and_of (follows_of_fst (a := b₀) e_ ?_) (fun h_ => ?_); clear e_)))

end Sys2Proof.Machine
end

