-- ==== Sys2Proof/Laws/KeepMemory.lean ====
section
/-!
SUPPORT. What the operations of Machine/Memory.lean can do to the parts that `State.Follows` speaks of.
-/

namespace Sys2Proof.Machine

set_option linter.unusedTactic false
set_option linter.unreachableTactic false
set_option linter.tactic.unusedName false

theorem follows_startMem {b₀ s : State} (h : b₀.Follows s) (key : Nat) :
    b₀.Follows (State.startMem s key) := by
  unfold State.startMem
  repeat' first
    | with_reducible (first
        | assumption | refine follows_ite ?_ ?_ | apply hf0_ | apply follows_joinLine | apply follows_performBead
        | apply follows_setSlot | apply follows_takeData | apply follows_writeBackLine)
    | (intro _; try beta_reduce)
    | (extract_lets +onlyGivenNames x_; first
        | (refine and_of (p := ∀ y0 s, b₀.Follows s → b₀.Follows (x_ y0 s)) ?_ (fun hf0_ => ?_); (on_goal 2 => clear_value x_); (on_goal 1 => (unfold x_; clear x_)))
        | (refine and_of (p := b₀.Follows x_) ?_ (fun h_ => ?_); (on_goal 2 => clear_value x_); (on_goal 1 => (unfold x_; clear x_)))
        | ((first | (have t_ : Boot := x_; clear t_) | (have t_ : Flash := x_; clear t_) | (have t_ : Jtag := x_; clear t_)); unfold x_; clear x_)
        | clear_value x_)
    | fail_if_no_progress (with_reducible refine follows_mk (side_of ?_))
    | with_reducible (first
        | refine follows_foldl ?_ ?_ | refine follows_ite_fst ?_ ?_ | refine follows_foldl_fst ?_ ?_
        | refine follows_of_fst (by assumption) ?_)
    | (split <;> try (rename_i e_; first
        | (refine and_of (follows_of_fst (a := b₀) e_ ?_) (fun h_ => ?_); clear e_)))

theorem follows_joinWalk {b₀ s : State} (h : b₀.Follows s) (key : Nat) (v : InSlot) :
    b₀.Follows (State.joinWalk s key v) := by
  unfold State.joinWalk
  repeat' first
    | with_reducible (first
        | assumption | refine follows_ite ?_ ?_)
    | (intro _; try beta_reduce)
    | fail_if_no_progress (with_reducible refine follows_mk (side_of ?_))
    | with_reducible (first
        | refine follows_foldl ?_ ?_ | refine follows_ite_fst ?_ ?_ | refine follows_foldl_fst ?_ ?_)

theorem follows_actMemory {b₀ s : State} (h : b₀.Follows s) (key : Nat) :
    b₀.Follows (State.actMemory s key) := by
  unfold State.actMemory
  repeat' first
    | with_reducible (first
        | assumption | refine follows_ite ?_ ?_ | apply follows_complete | apply follows_joinWalk | apply follows_startMem)
    | (intro _; try beta_reduce)
    | (extract_lets +onlyGivenNames x_; first
        | (refine and_of (p := b₀.Follows x_) ?_ (fun h_ => ?_); (on_goal 2 => clear_value x_); (on_goal 1 => (unfold x_; clear x_)))
        | ((first | (have t_ : Boot := x_; clear t_) | (have t_ : Flash := x_; clear t_) | (have t_ : Jtag := x_; clear t_)); unfold x_; clear x_)
        | clear_value x_)
    | fail_if_no_progress (with_reducible refine follows_mk (side_of ?_))
    | with_reducible (first
        | refine follows_foldl ?_ ?_ | refine follows_ite_fst ?_ ?_ | refine follows_foldl_fst ?_ ?_
        | refine follows_of_fst (by assumption) ?_)
    | (split <;> try (rename_i e_; first
        | (refine and_of (follows_of_fst (a := b₀) e_ ?_) (fun h_ => ?_); clear e_)))

theorem follows_arriveMemory {b₀ s : State} (h : b₀.Follows s) (form : Packet → Packet) (port : Fin 16) (p : Packet) :
    b₀.Goes (State.arriveMemory s form port p) := by
  unfold State.arriveMemory
  repeat' first
    | with_reducible (first
        | assumption | refine follows_ite ?_ ?_ | refine goes_next ?_ | apply follows_actMemory | apply follows_arrive)
    | (intro _; try beta_reduce)

theorem follows_execRead {b₀ s : State} (h : b₀.Follows s) (port : Fin 16) (p : Packet) :
    b₀.Goes (execRead port p s) := by
  unfold execRead
  repeat' first
    | with_reducible (first
        | assumption | refine follows_ite ?_ ?_ | refine goes_next ?_ | apply follows_arriveMemory)
    | (intro _; try beta_reduce)

theorem follows_execReadShared {b₀ s : State} (h : b₀.Follows s) (port : Fin 16) (p : Packet) :
    b₀.Goes (execReadShared port p s) := by
  unfold execReadShared
  repeat' first
    | with_reducible (first
        | assumption | refine follows_ite ?_ ?_ | refine goes_next ?_ | apply follows_arriveMemory)
    | (intro _; try beta_reduce)

theorem follows_execReadOwn {b₀ s : State} (h : b₀.Follows s) (port : Fin 16) (p : Packet) :
    b₀.Goes (execReadOwn port p s) := by
  unfold execReadOwn
  repeat' first
    | with_reducible (first
        | assumption | refine follows_ite ?_ ?_ | refine goes_next ?_ | apply follows_arriveMemory)
    | (intro _; try beta_reduce)

theorem follows_execReadNoalloc {b₀ s : State} (h : b₀.Follows s) (port : Fin 16) (p : Packet) :
    b₀.Goes (execReadNoalloc port p s) := by
  unfold execReadNoalloc
  repeat' first
    | with_reducible (first
        | assumption | refine follows_ite ?_ ?_ | refine goes_next ?_ | apply follows_arriveMemory)
    | (intro _; try beta_reduce)

theorem follows_execWrite {b₀ s : State} (h : b₀.Follows s) (port : Fin 16) (p : Packet) :
    b₀.Goes (execWrite port p s) := by
  unfold execWrite
  repeat' first
    | with_reducible (first
        | assumption | refine follows_ite ?_ ?_ | refine goes_next ?_ | apply follows_arriveMemory)
    | (intro _; try beta_reduce)

theorem follows_execWritePartial {b₀ s : State} (h : b₀.Follows s) (port : Fin 16) (p : Packet) :
    b₀.Goes (execWritePartial port p s) := by
  unfold execWritePartial
  repeat' first
    | with_reducible (first
        | assumption | refine follows_ite ?_ ?_ | refine goes_next ?_ | apply follows_arriveMemory)
    | (intro _; try beta_reduce)

theorem follows_execWriteback {b₀ s : State} (h : b₀.Follows s) (port : Fin 16) (p : Packet) :
    b₀.Goes (execWriteback port p s) := by
  unfold execWriteback
  repeat' first
    | with_reducible (first
        | assumption | refine follows_ite ?_ ?_ | refine goes_next ?_ | apply follows_arriveMemory)
    | (intro _; try beta_reduce)

theorem follows_execAtomicFetchAdd {b₀ s : State} (h : b₀.Follows s) (port : Fin 16) (p : Packet) :
    b₀.Goes (execAtomicFetchAdd port p s) := by
  unfold execAtomicFetchAdd
  repeat' first
    | with_reducible (first
        | assumption | refine follows_ite ?_ ?_ | refine goes_next ?_ | apply follows_arriveMemory)
    | (intro _; try beta_reduce)

theorem follows_execAtomicSwap {b₀ s : State} (h : b₀.Follows s) (port : Fin 16) (p : Packet) :
    b₀.Goes (execAtomicSwap port p s) := by
  unfold execAtomicSwap
  repeat' first
    | with_reducible (first
        | assumption | refine follows_ite ?_ ?_ | refine goes_next ?_ | apply follows_arriveMemory)
    | (intro _; try beta_reduce)

theorem follows_execAtomicCas {b₀ s : State} (h : b₀.Follows s) (port : Fin 16) (p : Packet) :
    b₀.Goes (execAtomicCas port p s) := by
  unfold execAtomicCas
  repeat' first
    | with_reducible (first
        | assumption | refine follows_ite ?_ ?_ | refine goes_next ?_ | apply follows_arriveMemory)
    | (intro _; try beta_reduce)

theorem follows_execExactAdd {b₀ s : State} (h : b₀.Follows s) (port : Fin 16) (p : Packet) :
    b₀.Goes (execExactAdd port p s) := by
  unfold execExactAdd
  repeat' first
    | with_reducible (first
        | assumption | refine follows_ite ?_ ?_ | refine goes_next ?_ | apply follows_arriveMemory)
    | (intro _; try beta_reduce)

theorem follows_arriveSnoop {b₀ s : State} (h : b₀.Follows s) (typ : Nat) (port : Fin 16) (p : Packet) :
    b₀.Goes (State.arriveSnoop s typ port p) := by
  unfold State.arriveSnoop
  repeat' first
    | with_reducible (first
        | assumption | refine follows_ite ?_ ?_ | refine goes_next ?_ | apply follows_arrive | apply follows_complete)
    | (intro _; try beta_reduce)

theorem follows_execSnoopInv {b₀ s : State} (h : b₀.Follows s) (port : Fin 16) (p : Packet) :
    b₀.Goes (execSnoopInv port p s) := by
  unfold execSnoopInv
  repeat' first
    | with_reducible (first
        | assumption | refine follows_ite ?_ ?_ | refine goes_next ?_ | apply follows_arriveSnoop)
    | (intro _; try beta_reduce)

theorem follows_execSnoopShare {b₀ s : State} (h : b₀.Follows s) (port : Fin 16) (p : Packet) :
    b₀.Goes (execSnoopShare port p s) := by
  unfold execSnoopShare
  repeat' first
    | with_reducible (first
        | assumption | refine follows_ite ?_ ?_ | refine goes_next ?_ | apply follows_arriveSnoop)
    | (intro _; try beta_reduce)

theorem follows_execSnoopCopy {b₀ s : State} (h : b₀.Follows s) (port : Fin 16) (p : Packet) :
    b₀.Goes (execSnoopCopy port p s) := by
  unfold execSnoopCopy
  repeat' first
    | with_reducible (first
        | assumption | refine follows_ite ?_ ?_ | refine goes_next ?_ | apply follows_arriveSnoop)
    | (intro _; try beta_reduce)

theorem follows_walked {b₀ s : State} (h : b₀.Follows s) (key : Nat) (e : LkEntry) :
    b₀.Follows (State.walked s key e) := by
  unfold State.walked
  repeat' first
    | with_reducible (first
        | assumption | refine follows_ite ?_ ?_ | apply follows_complete | apply follows_setSlot | apply follows_startMem)
    | (intro _; try beta_reduce)
    | (extract_lets +onlyGivenNames x_; first
        | (refine and_of (p := b₀.Follows x_) ?_ (fun h_ => ?_); (on_goal 2 => clear_value x_); (on_goal 1 => (unfold x_; clear x_)))
        | ((first | (have t_ : Boot := x_; clear t_) | (have t_ : Flash := x_; clear t_) | (have t_ : Jtag := x_; clear t_)); unfold x_; clear x_)
        | clear_value x_)
    | fail_if_no_progress (with_reducible refine follows_mk (side_of ?_))
    | with_reducible (first
        | refine follows_foldl ?_ ?_ | refine follows_ite_fst ?_ ?_ | refine follows_foldl_fst ?_ ?_
        | refine follows_of_fst (by assumption) ?_)
    | (split <;> try (rename_i e_; first
        | (refine and_of (follows_of_fst (a := b₀) e_ ?_) (fun h_ => ?_); clear e_)))

theorem follows_execWalkComplete {b₀ s : State} (h : b₀.Follows s) (n : Nat) :
    b₀.Goes (execWalkComplete n s) := by
  unfold execWalkComplete
  repeat' first
    | with_reducible (first
        | assumption | refine follows_ite ?_ ?_ | refine goes_next ?_ | apply hf0_ | apply hf1_ | apply follows_complete
        | apply follows_fillTlb | apply follows_walkTables | apply follows_walked)
    | (intro _; try beta_reduce)
    | (extract_lets +onlyGivenNames x_; first
        | (refine and_of (p := ∀ s, b₀.Follows s → b₀.Follows (x_ s)) ?_ (fun hf0_ => ?_); (on_goal 2 => clear_value x_); (on_goal 1 => (unfold x_; clear x_)))
        | (refine and_of (p := ∀ y0 s, b₀.Follows s → b₀.Follows (x_ y0 s)) ?_ (fun hf1_ => ?_); (on_goal 2 => clear_value x_); (on_goal 1 => (unfold x_; clear x_)))
        | (refine and_of (p := b₀.Follows x_) ?_ (fun h_ => ?_); (on_goal 2 => clear_value x_); (on_goal 1 => (unfold x_; clear x_)))
        | ((first | (have t_ : Boot := x_; clear t_) | (have t_ : Flash := x_; clear t_) | (have t_ : Jtag := x_; clear t_)); unfold x_; clear x_)
        | clear_value x_)
    | fail_if_no_progress (with_reducible refine follows_mk (side_of ?_))
    | with_reducible (first
        | refine follows_foldl ?_ ?_ | refine follows_ite_fst ?_ ?_ | refine follows_foldl_fst ?_ ?_ | refine goes_ite ?_ ?_
        | refine follows_of_fst (by assumption) ?_)
    | (split <;> try (rename_i e_; first
        | (refine and_of (follows_of_fst (a := b₀) e_ ?_) (fun h_ => ?_); clear e_)))

theorem follows_wrote {b₀ s : State} (h : b₀.Follows s) (key idx pa : Nat) (res : List Byte) (bad : Bool) :
    b₀.Follows (State.wrote s key idx pa res bad) := by
  unfold State.wrote
  repeat' first
    | with_reducible (first
        | assumption | refine follows_ite ?_ ?_ | apply follows_beadDone | apply follows_lineDone | apply follows_setSlot
        | apply follows_tally)
    | (intro _; try beta_reduce)
    | (extract_lets +onlyGivenNames x_; first
        | (refine and_of (p := b₀.Follows x_) ?_ (fun h_ => ?_); (on_goal 2 => clear_value x_); (on_goal 1 => (unfold x_; clear x_)))
        | ((first | (have t_ : Boot := x_; clear t_) | (have t_ : Flash := x_; clear t_) | (have t_ : Jtag := x_; clear t_)); unfold x_; clear x_)
        | clear_value x_)
    | fail_if_no_progress (with_reducible refine follows_mk (side_of ?_))
    | with_reducible (first
        | refine follows_foldl ?_ ?_ | refine follows_ite_fst ?_ ?_ | refine follows_foldl_fst ?_ ?_
        | refine follows_of_fst (by assumption) ?_)
    | (split <;> try (rename_i e_; first
        | (refine and_of (follows_of_fst (a := b₀) e_ ?_) (fun h_ => ?_); clear e_)))

theorem follows_goBead {b₀ s : State} (h : b₀.Follows s) (key idx : Nat) :
    b₀.Follows (State.goBead s key idx) := by
  unfold State.goBead
  repeat' first
    | with_reducible (first
        | assumption | refine follows_ite ?_ ?_ | apply follows_performBead | apply follows_performHead | apply follows_toCtl)
    | (intro _; try beta_reduce)
    | (extract_lets +onlyGivenNames x_; first
        | (refine and_of (p := b₀.Follows x_) ?_ (fun h_ => ?_); (on_goal 2 => clear_value x_); (on_goal 1 => (unfold x_; clear x_)))
        | ((first | (have t_ : Boot := x_; clear t_) | (have t_ : Flash := x_; clear t_) | (have t_ : Jtag := x_; clear t_)); unfold x_; clear x_)
        | clear_value x_)
    | fail_if_no_progress (with_reducible refine follows_mk (side_of ?_))
    | with_reducible (first
        | refine follows_foldl ?_ ?_ | refine follows_ite_fst ?_ ?_ | refine follows_foldl_fst ?_ ?_
        | refine follows_of_fst (by assumption) ?_)
    | (split <;> try (rename_i e_; first
        | (refine and_of (follows_of_fst (a := b₀) e_ ?_) (fun h_ => ?_); clear e_)))

theorem follows_releaseHeld {b₀ s : State} (h : b₀.Follows s) (x1 : HeldWrite) :
    b₀.Follows (State.releaseHeld s x1) := by
  unfold State.releaseHeld
  repeat' first
    | with_reducible (first
        | assumption | refine follows_ite ?_ ?_ | apply follows_answerStored | apply follows_goBead | apply follows_homeStore
        | apply follows_toCtl)
    | (intro _; try beta_reduce)
    | (extract_lets +onlyGivenNames x_; first
        | (refine and_of (p := b₀.Follows x_) ?_ (fun h_ => ?_); (on_goal 2 => clear_value x_); (on_goal 1 => (unfold x_; clear x_)))
        | ((first | (have t_ : Boot := x_; clear t_) | (have t_ : Flash := x_; clear t_) | (have t_ : Jtag := x_; clear t_)); unfold x_; clear x_)
        | clear_value x_)
    | fail_if_no_progress (with_reducible refine follows_mk (side_of ?_))
    | with_reducible (first
        | refine follows_foldl ?_ ?_ | refine follows_ite_fst ?_ ?_ | refine follows_foldl_fst ?_ ?_
        | refine follows_of_fst (by assumption) ?_)
    | (split <;> try (rename_i e_; first
        | (refine and_of (follows_of_fst (a := b₀) e_ ?_) (fun h_ => ?_); clear e_)))

theorem follows_formHeld {b₀ s : State} (h : b₀.Follows s) (pa : Nat) (old : List Byte) (bad : Bool) :
    b₀.Follows (State.formHeld s pa old bad) := by
  unfold State.formHeld
  repeat' first
    | with_reducible (first
        | assumption | refine follows_ite ?_ ?_ | apply follows_degrade | apply follows_releaseHeld | apply follows_sendFwd
        | apply follows_setHeld | apply follows_setSlot)
    | (intro _; try beta_reduce)
    | (extract_lets +onlyGivenNames x_; first
        | (refine and_of (p := b₀.Follows x_) ?_ (fun h_ => ?_); (on_goal 2 => clear_value x_); (on_goal 1 => (unfold x_; clear x_)))
        | ((first | (have t_ : Boot := x_; clear t_) | (have t_ : Flash := x_; clear t_) | (have t_ : Jtag := x_; clear t_)); unfold x_; clear x_)
        | clear_value x_)
    | fail_if_no_progress (with_reducible refine follows_mk (side_of ?_))
    | with_reducible (first
        | refine follows_foldl ?_ ?_ | refine follows_ite_fst ?_ ?_ | refine follows_foldl_fst ?_ ?_
        | refine follows_of_fst (by assumption) ?_)
    | (split <;> try (rename_i e_; first
        | (refine and_of (follows_of_fst (a := b₀) e_ ?_) (fun h_ => ?_); clear e_)))

theorem follows_deliver {b₀ s : State} (h : b₀.Follows s) (r : MemReq) (data : List Byte) (poison : Bool) :
    b₀.Follows (State.deliver s r data poison) := by
  unfold State.deliver
  repeat' first
    | with_reducible (first
        | assumption | refine follows_ite ?_ ?_ | apply follows_beadDone | apply follows_formHeld | apply follows_homeData
        | apply follows_putBead | apply follows_tallyCtl | apply follows_writeBead | apply follows_wrote)
    | (intro _; try beta_reduce)
    | (extract_lets +onlyGivenNames x_; first
        | (refine and_of (p := b₀.Follows x_) ?_ (fun h_ => ?_); (on_goal 2 => clear_value x_); (on_goal 1 => (unfold x_; clear x_)))
        | ((first | (have t_ : Boot := x_; clear t_) | (have t_ : Flash := x_; clear t_) | (have t_ : Jtag := x_; clear t_)); unfold x_; clear x_)
        | clear_value x_)
    | fail_if_no_progress (with_reducible refine follows_mk (side_of ?_))
    | with_reducible (first
        | refine follows_foldl ?_ ?_ | refine follows_ite_fst ?_ ?_ | refine follows_foldl_fst ?_ ?_
        | refine follows_of_fst (by assumption) ?_)
    | (split <;> try (rename_i e_; first
        | (refine and_of (follows_of_fst (a := b₀) e_ ?_) (fun h_ => ?_); clear e_)))

theorem follows_enterSr {b₀ s : State} (h : b₀.Follows s) (c : Nat) :
    b₀.Follows (State.enterSr s c) := by
  unfold State.enterSr
  repeat' first
    | with_reducible (first
        | assumption | refine follows_ite ?_ ?_ | apply follows_metaAccess | apply follows_setCtl)
    | (intro _; try beta_reduce)
    | fail_if_no_progress (with_reducible refine follows_mk (side_of ?_))
    | with_reducible (first
        | refine follows_foldl ?_ ?_ | refine follows_ite_fst ?_ ?_ | refine follows_foldl_fst ?_ ?_)

theorem follows_forceSr {b₀ s : State} (h : b₀.Follows s) (c : Nat) :
    b₀.Follows (State.forceSr s c) := by
  unfold State.forceSr
  repeat' first
    | with_reducible (first
        | assumption | refine follows_ite ?_ ?_ | apply follows_enterSr)
    | (intro _; try beta_reduce)

theorem follows_settle {b₀ s : State} (h : b₀.Follows s) (c : Nat) :
    b₀.Follows (State.settle s c) := by
  unfold State.settle
  repeat' first
    | with_reducible (first
        | assumption | refine follows_ite ?_ ?_ | apply follows_forceSr | apply follows_setCtl)
    | (intro _; try beta_reduce)

theorem follows_failReq {b₀ s : State} (h : b₀.Follows s) (r : MemReq) :
    b₀.Follows (State.failReq s r) := by
  unfold State.failReq
  repeat' first
    | with_reducible (first
        | assumption | refine follows_ite ?_ ?_ | apply hf0_ | apply follows_answerStored | apply follows_beadDone
        | apply follows_deliver | apply follows_gatherOwn | apply follows_goBead | apply follows_lineDone
        | apply follows_setSlot)
    | (intro _; try beta_reduce)
    | (extract_lets +onlyGivenNames x_; first
        | (refine and_of (p := ∀ y0 y1 s, b₀.Follows s → b₀.Follows (x_ y0 y1 s)) ?_ (fun hf0_ => ?_); (on_goal 2 => clear_value x_); (on_goal 1 => (unfold x_; clear x_)))
        | (refine and_of (p := b₀.Follows x_) ?_ (fun h_ => ?_); (on_goal 2 => clear_value x_); (on_goal 1 => (unfold x_; clear x_)))
        | ((first | (have t_ : Boot := x_; clear t_) | (have t_ : Flash := x_; clear t_) | (have t_ : Jtag := x_; clear t_)); unfold x_; clear x_)
        | clear_value x_)
    | fail_if_no_progress (with_reducible refine follows_mk (side_of ?_))
    | with_reducible (first
        | refine follows_foldl ?_ ?_ | refine follows_ite_fst ?_ ?_ | refine follows_foldl_fst ?_ ?_
        | refine follows_of_fst (by assumption) ?_)
    | (split <;> try (rename_i e_; first
        | (refine and_of (follows_of_fst (a := b₀) e_ ?_) (fun h_ => ?_); clear e_)))

theorem follows_failSlot {b₀ s : State} (h : b₀.Follows s) (c u : Nat) :
    b₀.Follows (State.failSlot s c u) := by
  unfold State.failSlot
  repeat' first
    | with_reducible (first
        | assumption | refine follows_ite ?_ ?_ | apply follows_failReq | apply follows_setUnit | apply follows_settle)
    | (intro _; try beta_reduce)
    | (extract_lets +onlyGivenNames x_; first
        | (refine and_of (p := b₀.Follows x_) ?_ (fun h_ => ?_); (on_goal 2 => clear_value x_); (on_goal 1 => (unfold x_; clear x_)))
        | ((first | (have t_ : Boot := x_; clear t_) | (have t_ : Flash := x_; clear t_) | (have t_ : Jtag := x_; clear t_)); unfold x_; clear x_)
        | clear_value x_)
    | fail_if_no_progress (with_reducible refine follows_mk (side_of ?_))
    | with_reducible (first
        | refine follows_foldl ?_ ?_ | refine follows_ite_fst ?_ ?_ | refine follows_foldl_fst ?_ ?_
        | refine follows_of_fst (by assumption) ?_)
    | (split <;> try (rename_i e_; first
        | (refine and_of (follows_of_fst (a := b₀) e_ ?_) (fun h_ => ?_); clear e_)))

theorem follows_refreshBank {b₀ s : State} (h : b₀.Follows s) (c u bank : Nat) (forced : Bool) :
    b₀.Follows (State.refreshBank s c u bank forced) := by
  unfold State.refreshBank
  repeat' first
    | with_reducible (first
        | assumption | refine follows_ite ?_ ?_ | apply follows_setCtl | apply follows_setUnit | apply follows_tallyCtl)
    | (intro _; try beta_reduce)

theorem follows_queueScrub {b₀ s : State} (h : b₀.Follows s) (c u : Nat) :
    b₀.Follows (State.queueScrub s c u) := by
  unfold State.queueScrub
  repeat' first
    | with_reducible (first
        | assumption | refine follows_ite ?_ ?_ | apply follows_toCtl)
    | (intro _; try beta_reduce)

theorem follows_scrubbed {b₀ s : State} (h : b₀.Follows s) (c : Nat) :
    b₀.Follows (State.scrubbed s c) := by
  unfold State.scrubbed
  repeat' first
    | with_reducible (first
        | assumption | refine follows_ite ?_ ?_ | apply follows_setCtl)
    | (intro _; try beta_reduce)

theorem follows_issueReq {b₀ s : State} (h : b₀.Follows s) (c u : Nat) (r : MemReq) :
    b₀.Follows (State.issueReq s c u r) := by
  unfold State.issueReq
  repeat' first
    | with_reducible (first
        | assumption | refine follows_ite ?_ ?_ | apply follows_deliver | apply follows_fetchMeta | apply follows_scrubbed
        | apply follows_setUnit | apply follows_settle | apply follows_spendCredit | apply follows_tallyCtl
        | apply follows_touchBead | apply follows_writeBead | apply follows_wrote)
    | (intro _; try beta_reduce)
    | (extract_lets +onlyGivenNames x_; first
        | (refine and_of (p := b₀.Follows x_) ?_ (fun h_ => ?_); (on_goal 2 => clear_value x_); (on_goal 1 => (unfold x_; clear x_)))
        | ((first | (have t_ : Boot := x_; clear t_) | (have t_ : Flash := x_; clear t_) | (have t_ : Jtag := x_; clear t_)); unfold x_; clear x_)
        | clear_value x_)
    | fail_if_no_progress (with_reducible refine follows_mk (side_of ?_))
    | with_reducible (first
        | refine follows_foldl ?_ ?_ | refine follows_ite_fst ?_ ?_ | refine follows_foldl_fst ?_ ?_
        | refine follows_of_fst (by assumption) ?_)
    | (split <;> try (rename_i e_; first
        | (refine and_of (follows_of_fst (a := b₀) e_ ?_) (fun h_ => ?_); clear e_)))

theorem follows_commandSlot {b₀ s : State} (h : b₀.Follows s) (c u : Nat) :
    b₀.Follows (State.commandSlot s c u) := by
  unfold State.commandSlot
  repeat' first
    | with_reducible (first
        | assumption | refine follows_ite ?_ ?_ | apply follows_issueReq | apply follows_queueScrub | apply follows_refreshBank
        | apply follows_setUnit | apply follows_slotCredit)
    | (intro _; try beta_reduce)
    | (extract_lets +onlyGivenNames x_; first
        | (refine and_of (p := b₀.Follows x_) ?_ (fun h_ => ?_); (on_goal 2 => clear_value x_); (on_goal 1 => (unfold x_; clear x_)))
        | ((first | (have t_ : Boot := x_; clear t_) | (have t_ : Flash := x_; clear t_) | (have t_ : Jtag := x_; clear t_)); unfold x_; clear x_)
        | clear_value x_)
    | fail_if_no_progress (with_reducible refine follows_mk (side_of ?_))
    | with_reducible (first
        | refine follows_foldl ?_ ?_ | refine follows_ite_fst ?_ ?_ | refine follows_foldl_fst ?_ ?_
        | refine follows_of_fst (by assumption) ?_)
    | (split <;> try (rename_i e_; first
        | (refine and_of (follows_of_fst (a := b₀) e_ ?_) (fun h_ => ?_); clear e_)))

theorem follows_execSchedulerSlot {b₀ s : State} (h : b₀.Follows s) (c : Fin 12) (unit : Fin 32) :
    b₀.Goes (execSchedulerSlot c unit s) := by
  unfold execSchedulerSlot
  repeat' first
    | with_reducible (first
        | assumption | refine follows_ite ?_ ?_ | refine goes_next ?_ | apply follows_commandSlot | apply follows_failSlot
        | apply follows_onlyIf)
    | (intro _; try beta_reduce)
    | fail_if_no_progress (with_reducible refine follows_mk (side_of ?_))
    | with_reducible (first
        | refine follows_foldl ?_ ?_ | refine follows_ite_fst ?_ ?_ | refine follows_foldl_fst ?_ ?_ | refine goes_ite ?_ ?_)

theorem follows_execAgePromote {b₀ s : State} (h : b₀.Follows s) (c : Fin 12) (unit : Fin 32) :
    b₀.Goes (execAgePromote c unit s) := by
  unfold execAgePromote
  repeat' first
    | with_reducible (first
        | assumption | refine follows_ite ?_ ?_ | refine goes_next ?_ | apply follows_elapseTo | apply follows_setUnit)
    | (intro _; try beta_reduce)
    | (extract_lets +onlyGivenNames x_; first
        | (refine and_of (p := b₀.Follows x_) ?_ (fun h_ => ?_); (on_goal 2 => clear_value x_); (on_goal 1 => (unfold x_; clear x_)))
        | ((first | (have t_ : Boot := x_; clear t_) | (have t_ : Flash := x_; clear t_) | (have t_ : Jtag := x_; clear t_)); unfold x_; clear x_)
        | clear_value x_)
    | fail_if_no_progress (with_reducible refine follows_mk (side_of ?_))
    | with_reducible (first
        | refine follows_foldl ?_ ?_ | refine follows_ite_fst ?_ ?_ | refine follows_foldl_fst ?_ ?_ | refine goes_ite ?_ ?_
        | refine follows_of_fst (by assumption) ?_)
    | (split <;> try (rename_i e_; first
        | (refine and_of (follows_of_fst (a := b₀) e_ ?_) (fun h_ => ?_); clear e_)))

theorem follows_execDramReadDone {b₀ s : State} (h : b₀.Follows s) (c : Fin 12) (unit : Fin 32) (errs : List
    (Fin 36 × BitVec 16)) :
    b₀.Goes (execDramReadDone c unit errs s) := by
  unfold execDramReadDone
  repeat' first
    | with_reducible (first
        | assumption | refine follows_ite ?_ ?_ | refine goes_next ?_ | apply follows_deliver | apply follows_failReq
        | apply follows_gatherOwn | apply follows_readOut | apply follows_scrubbed | apply follows_setUnit
        | apply follows_settle)
    | (intro _; try beta_reduce)
    | (extract_lets +onlyGivenNames x_; first
        | (refine and_of (p := b₀.Follows x_) ?_ (fun h_ => ?_); (on_goal 2 => clear_value x_); (on_goal 1 => (unfold x_; clear x_)))
        | ((first | (have t_ : Boot := x_; clear t_) | (have t_ : Flash := x_; clear t_) | (have t_ : Jtag := x_; clear t_)); unfold x_; clear x_)
        | clear_value x_)
    | fail_if_no_progress (with_reducible refine follows_mk (side_of ?_))
    | with_reducible (first
        | refine follows_foldl ?_ ?_ | refine follows_ite_fst ?_ ?_ | refine follows_foldl_fst ?_ ?_ | refine goes_ite ?_ ?_
        | refine follows_of_fst (by assumption) ?_)
    | (split <;> try (rename_i e_; first
        | (refine and_of (follows_of_fst (a := b₀) e_ ?_) (fun h_ => ?_); clear e_)))

theorem follows_execRefreshDue {b₀ s : State} (h : b₀.Follows s) (c : Fin 12) (unit : Fin 32) (bank : Fin 64) :
    b₀.Goes (execRefreshDue c unit bank s) := by
  unfold execRefreshDue
  repeat' first
    | with_reducible (first
        | assumption | refine follows_ite ?_ ?_ | refine goes_next ?_ | apply follows_onlyIf | apply follows_raiseCtl
        | apply follows_setCtl | apply follows_setUnit)
    | (intro _; try beta_reduce)

theorem follows_execScrubPeriodEnd {b₀ s : State} (h : b₀.Follows s) (c : Fin 12) :
    b₀.Goes (execScrubPeriodEnd c s) := by
  unfold execScrubPeriodEnd
  repeat' first
    | with_reducible (first
        | assumption | refine follows_ite ?_ ?_ | refine goes_next ?_ | apply follows_elapseTo | apply follows_onlyIf
        | apply follows_raise | apply follows_setCtl)
    | (intro _; try beta_reduce)

theorem follows_execSrIdleEnter {b₀ s : State} (h : b₀.Follows s) (c : Fin 12) :
    b₀.Goes (execSrIdleEnter c s) := by
  unfold execSrIdleEnter
  repeat' first
    | with_reducible (first
        | assumption | refine follows_ite ?_ ?_ | refine goes_next ?_ | apply follows_elapseTo | apply follows_enterSr
        | apply follows_onlyIf)
    | (intro _; try beta_reduce)
    | fail_if_no_progress (with_reducible refine follows_mk (side_of ?_))
    | with_reducible (first
        | refine follows_foldl ?_ ?_ | refine follows_ite_fst ?_ ?_ | refine follows_foldl_fst ?_ ?_ | refine goes_ite ?_ ?_)

theorem follows_execSrEntryDone {b₀ s : State} (h : b₀.Follows s) (c : Fin 12) :
    b₀.Goes (execSrEntryDone c s) := by
  unfold execSrEntryDone
  repeat' first
    | with_reducible (first
        | assumption | refine follows_ite ?_ ?_ | refine goes_next ?_ | apply follows_onlyIf | apply follows_setCtl)
    | (intro _; try beta_reduce)

theorem follows_execSrExitDone {b₀ s : State} (h : b₀.Follows s) (c : Fin 12) :
    b₀.Goes (execSrExitDone c s) := by
  unfold execSrExitDone
  repeat' first
    | with_reducible (first
        | assumption | refine follows_ite ?_ ?_ | refine goes_next ?_ | apply follows_forceSr | apply follows_nextTracking
        | apply follows_onlyIf | apply follows_setCtl)
    | (intro _; try beta_reduce)

theorem follows_execSrMaxExpiry {b₀ s : State} (h : b₀.Follows s) (c : Fin 12) :
    b₀.Goes (execSrMaxExpiry c s) := by
  unfold execSrMaxExpiry
  repeat' first
    | with_reducible (first
        | assumption | refine follows_ite ?_ ?_ | refine goes_next ?_ | apply follows_elapseTo | apply follows_onlyIf
        | apply follows_raiseCtl | apply follows_setCtl)
    | (intro _; try beta_reduce)

theorem follows_writeSrForce {b₀ s : State} (h : b₀.Follows s) (c : Nat) (w : Word) :
    b₀.Follows (State.writeSrForce s c w) := by
  unfold State.writeSrForce
  repeat' first
    | with_reducible (first
        | assumption | refine follows_ite ?_ ?_ | apply follows_forceSr | apply follows_setCtl | apply follows_setReg)
    | (intro _; try beta_reduce)

theorem follows_execTrackingStep {b₀ s : State} (h : b₀.Follows s) (c : Fin 12) (ch : Fin 16) :
    b₀.Goes (execTrackingStep c ch s) := by
  unfold execTrackingStep
  repeat' first
    | with_reducible (first
        | assumption | refine follows_ite ?_ ?_ | refine goes_next ?_ | apply follows_elapseTo | apply follows_onlyIf
        | apply follows_setCtl | apply follows_startTracking)
    | (intro _; try beta_reduce)

theorem follows_execFullRetrainStart {b₀ s : State} (h : b₀.Follows s) (c : Fin 12) (ch : Fin 16) (temp : Int) :
    b₀.Goes (execFullRetrainStart c ch temp s) := by
  unfold execFullRetrainStart
  repeat' first
    | with_reducible (first
        | assumption | refine follows_ite ?_ ?_ | refine goes_next ?_ | apply follows_onlyIf | apply follows_setCtl)
    | (intro _; try beta_reduce)

theorem follows_failController {b₀ s : State} (h : b₀.Follows s) (c ch : Nat) :
    b₀.Follows (State.failController s c ch) := by
  unfold State.failController
  repeat' first
    | with_reducible (first
        | assumption | refine follows_ite ?_ ?_ | apply follows_postMgr | apply follows_raiseCtl | apply follows_setCtl)
    | (intro _; try beta_reduce)

theorem follows_execRetrainDone {b₀ s : State} (h : b₀.Follows s) (c : Fin 12) (ok : Bool) :
    b₀.Goes (execRetrainDone c ok s) := by
  unfold execRetrainDone
  repeat' first
    | with_reducible (first
        | assumption | refine follows_ite ?_ ?_ | refine goes_next ?_ | apply follows_failController | apply follows_forceSr
        | apply follows_nextTracking | apply follows_raiseCtl | apply follows_setCtl)
    | (intro _; try beta_reduce)
    | (extract_lets +onlyGivenNames x_; first
        | (refine and_of (p := b₀.Follows x_) ?_ (fun h_ => ?_); (on_goal 2 => clear_value x_); (on_goal 1 => (unfold x_; clear x_)))
        | ((first | (have t_ : Boot := x_; clear t_) | (have t_ : Flash := x_; clear t_) | (have t_ : Jtag := x_; clear t_)); unfold x_; clear x_)
        | clear_value x_)
    | fail_if_no_progress (with_reducible refine follows_mk (side_of ?_))
    | with_reducible (first
        | refine follows_foldl ?_ ?_ | refine follows_ite_fst ?_ ?_ | refine follows_foldl_fst ?_ ?_ | refine goes_ite ?_ ?_
        | refine follows_of_fst (by assumption) ?_)
    | (split <;> try (rename_i e_; first
        | (refine and_of (follows_of_fst (a := b₀) e_ ?_) (fun h_ => ?_); clear e_)))

end Sys2Proof.Machine
end

