-- ==== Sys2Proof/Laws/KeepSync.lean ====
section
/-!
SUPPORT. What the operations of Machine/Sync.lean can do to the parts that `State.Follows` speaks of.
-/

namespace Sys2Proof.Machine

set_option linter.unusedTactic false
set_option linter.unreachableTactic false
set_option linter.tactic.unusedName false

theorem follows_tickUnlock {b₀ s : State} (h : b₀.Follows s) :
    b₀.Follows (State.tickUnlock s) := by
  unfold State.tickUnlock
  repeat' first
    | with_reducible (first
        | assumption | refine follows_ite ?_ ?_ | apply follows_raise)
    | (intro _; try beta_reduce)
    | fail_if_no_progress (with_reducible refine follows_mk (side_of ?_))
    | with_reducible (first
        | refine follows_foldl ?_ ?_ | refine follows_ite_fst ?_ ?_ | refine follows_foldl_fst ?_ ?_)

theorem follows_execRefLoss {b₀ s : State} (h : b₀.Follows s) (pll : Fin 7) :
    b₀.Goes (execRefLoss pll s) := by
  unfold execRefLoss
  repeat' first
    | with_reducible (first
        | assumption | refine follows_ite ?_ ?_ | refine goes_next ?_ | apply follows_raise | apply follows_setReg
        | apply follows_tickUnlock)
    | (intro _; try beta_reduce)
    | fail_if_no_progress (with_reducible refine follows_mk (side_of ?_))
    | with_reducible (first
        | refine follows_foldl ?_ ?_ | refine follows_ite_fst ?_ ?_ | refine follows_foldl_fst ?_ ?_ | refine goes_ite ?_ ?_)

theorem follows_execPllRelock {b₀ s : State} (h : b₀.Follows s) (pll : Fin 7) :
    b₀.Goes (execPllRelock pll s) := by
  unfold execPllRelock
  repeat' first
    | with_reducible (first
        | assumption | refine follows_ite ?_ ?_ | refine goes_next ?_ | apply follows_onlyIf)
    | (intro _; try beta_reduce)
    | fail_if_no_progress (with_reducible refine follows_mk (side_of ?_))
    | with_reducible (first
        | refine follows_foldl ?_ ?_ | refine follows_ite_fst ?_ ?_ | refine follows_foldl_fst ?_ ?_ | refine goes_ite ?_ ?_)

theorem follows_execMuxSwitchDone {b₀ s : State} (h : b₀.Follows s) (d : Fin 6) :
    b₀.Goes (execMuxSwitchDone d s) := by
  unfold execMuxSwitchDone
  repeat' first
    | with_reducible (first
        | assumption | refine follows_ite ?_ ?_ | refine goes_next ?_ | apply follows_onlyIf)
    | (intro _; try beta_reduce)
    | fail_if_no_progress (with_reducible refine follows_mk (side_of ?_))
    | with_reducible (first
        | refine follows_foldl ?_ ?_ | refine follows_ite_fst ?_ ?_ | refine follows_foldl_fst ?_ ?_ | refine goes_ite ?_ ?_)

theorem follows_resetDomain {b₀ s : State} (h : b₀.Follows s) (d : Nat) :
    b₀.Follows (State.resetDomain s d) := by
  unfold State.resetDomain
  repeat' first
    | with_reducible (first
        | assumption | refine follows_ite ?_ ?_ | apply follows_free)
    | (intro _; try beta_reduce)
    | fail_if_no_progress (with_reducible refine follows_mk (side_of ?_))
    | with_reducible (first
        | refine follows_foldl ?_ ?_ | refine follows_ite_fst ?_ ?_ | refine follows_foldl_fst ?_ ?_
        | refine follows_ite_snd ?_ ?_)

theorem follows_execMuxWatchdog {b₀ s : State} (h : b₀.Follows s) (d : Fin 6) :
    b₀.Goes (execMuxWatchdog d s) := by
  unfold execMuxWatchdog
  repeat' first
    | with_reducible (first
        | assumption | refine follows_ite ?_ ?_ | refine goes_next ?_ | apply follows_elapseTo | apply follows_postMgr
        | apply follows_raise | apply follows_resetDomain)
    | (intro _; try beta_reduce)
    | (extract_lets +onlyGivenNames x_; first
        | (refine and_of (p := b₀.Follows x_) ?_ (fun h_ => ?_); (on_goal 2 => clear_value x_); (on_goal 1 => (unfold x_; clear x_)))
        | ((first | (have t_ : Boot := x_; clear t_) | (have t_ : Flash := x_; clear t_) | (have t_ : Jtag := x_; clear t_)); unfold x_; clear x_)
        | clear_value x_)
    | fail_if_no_progress (with_reducible refine follows_mk (side_of ?_))
    | with_reducible (first
        | refine follows_foldl ?_ ?_ | refine follows_ite_fst ?_ ?_ | refine follows_foldl_fst ?_ ?_ | refine goes_ite ?_ ?_
        | refine follows_of_fst (by assumption) ?_)
    | (split <;> try (rename_i e_; first
        | (refine and_of (follows_of_fst (a := b₀) e_ ?_) (fun h_ => ?_); clear e_)))

theorem follows_announceOn {b₀ s : State} (h : b₀.Follows s) (p : Nat) (pkt : Packet) (came : Option Nat) :
    b₀.Follows (State.announceOn s p pkt came) := by
  unfold State.announceOn
  repeat' first
    | with_reducible (first
        | assumption | refine follows_ite ?_ ?_ | apply follows_emit | apply follows_toQueue)
    | (intro _; try beta_reduce)

theorem follows_announceAll {b₀ s : State} (h : b₀.Follows s) (pkt : Packet) (but came : Option Nat) :
    b₀.Follows (State.announceAll s pkt but came) := by
  unfold State.announceAll
  repeat' first
    | with_reducible (first
        | assumption | refine follows_ite ?_ ?_ | apply follows_announceOn)
    | (intro _; try beta_reduce)
    | fail_if_no_progress (with_reducible refine follows_mk (side_of ?_))
    | with_reducible (first
        | refine follows_foldl ?_ ?_ | refine follows_ite_fst ?_ ?_ | refine follows_foldl_fst ?_ ?_)

theorem follows_execAnnounceSend {b₀ s : State} (h : b₀.Follows s) :
    b₀.Goes (execAnnounceSend s) := by
  unfold execAnnounceSend
  repeat' first
    | with_reducible (first
        | assumption | refine follows_ite ?_ ?_ | refine goes_next ?_ | apply follows_announceAll | apply follows_elapseTo)
    | (intro _; try beta_reduce)
    | fail_if_no_progress (with_reducible refine follows_mk (side_of ?_))
    | with_reducible (first
        | refine follows_foldl ?_ ?_ | refine follows_ite_fst ?_ ?_ | refine follows_foldl_fst ?_ ?_ | refine goes_ite ?_ ?_)

theorem follows_demote {b₀ s : State} (h : b₀.Follows s) (m : Nat) :
    b₀.Follows (State.demote s m) := by
  unfold State.demote
  repeat' first
    | with_reducible (first
        | assumption | refine follows_ite ?_ ?_ | apply follows_leaveKeys)
    | (intro _; try beta_reduce)
    | fail_if_no_progress (with_reducible refine follows_mk (side_of ?_))
    | with_reducible (first
        | refine follows_foldl ?_ ?_ | refine follows_ite_fst ?_ ?_ | refine follows_foldl_fst ?_ ?_)

theorem follows_takeNonce {b₀ s : State} (h : b₀.Follows s) (nonce : Nat) :
    b₀.Follows (State.takeNonce s nonce) := by
  unfold State.takeNonce
  repeat' first
    | with_reducible (first
        | assumption | refine follows_ite ?_ ?_ | apply follows_deriveOwn)
    | (intro _; try beta_reduce)
    | fail_if_no_progress (with_reducible refine follows_mk (side_of ?_))
    | with_reducible (first
        | refine follows_foldl ?_ ?_ | refine follows_ite_fst ?_ ?_ | refine follows_foldl_fst ?_ ?_)

theorem follows_noteUpstream {b₀ s : State} (h : b₀.Follows s) (port : Nat) (p : Packet) :
    b₀.Follows (State.noteUpstream s port p) := by
  unfold State.noteUpstream
  exact follows_mk (side_of h)

theorem follows_firstCopy {b₀ s : State} (h : b₀.Follows s) (port : Nat) (p : Packet) :
    b₀.Follows (State.firstCopy s port p) := by
  unfold State.firstCopy
  repeat' first
    | with_reducible (first
        | assumption | refine follows_ite ?_ ?_ | apply follows_announceAll | apply follows_noteUpstream | apply follows_send)
    | (intro _; try beta_reduce)
    | fail_if_no_progress (with_reducible refine follows_mk (side_of ?_))
    | with_reducible (first
        | refine follows_foldl ?_ ?_ | refine follows_ite_fst ?_ ?_ | refine follows_foldl_fst ?_ ?_)

theorem follows_joinTick {b₀ s : State} (h : b₀.Follows s) (port : Nat) (p : Packet) :
    b₀.Follows (State.joinTick s port p) := by
  unfold State.joinTick
  repeat' first
    | with_reducible (first
        | assumption | refine follows_ite ?_ ?_ | apply follows_demote | apply follows_firstCopy | apply follows_takeNonce)
    | (intro _; try beta_reduce)
    | fail_if_no_progress (with_reducible refine follows_mk (side_of ?_))
    | with_reducible (first
        | refine follows_foldl ?_ ?_ | refine follows_ite_fst ?_ ?_ | refine follows_foldl_fst ?_ ?_)

theorem follows_onAnnounce {b₀ s : State} (h : b₀.Follows s) (port : Nat) (p : Packet) :
    b₀.Follows (State.onAnnounce s port p) := by
  unfold State.onAnnounce
  exact follows_ite (follows_joinTick h port p) (follows_ite (follows_noteUpstream h port p) h)

theorem follows_execAnnounce {b₀ s : State} (h : b₀.Follows s) (port : Fin 16) (p : Packet) :
    b₀.Goes (execAnnounce port p s) := by
  unfold execAnnounce
  repeat' first
    | with_reducible (first
        | assumption | refine follows_ite ?_ ?_ | refine goes_next ?_ | apply follows_onAnnounce | apply follows_onlyIf
        | apply follows_received)
    | (intro _; try beta_reduce)

theorem follows_arriveSync {b₀ s : State} (h : b₀.Follows s) (port : Nat) (p : Packet) (act : State → State) (hact
    : ∀ s, b₀.Follows s → b₀.Follows (act s)) :
    b₀.Follows (State.arriveSync s port p act) := by
  unfold State.arriveSync
  repeat' first
    | with_reducible (first
        | assumption | refine follows_ite ?_ ?_ | apply hact | apply follows_learn | apply follows_received
        | apply follows_transit)
    | (intro _; try beta_reduce)

theorem follows_execDelayReq {b₀ s : State} (h : b₀.Follows s) (port : Fin 16) (p : Packet) :
    b₀.Goes (execDelayReq port p s) := by
  unfold execDelayReq
  repeat' first
    | with_reducible (first
        | assumption | refine follows_ite ?_ ?_ | refine goes_next ?_ | apply follows_arriveSync | apply follows_onlyIf
        | apply follows_send)
    | (intro _; try beta_reduce)
    | (extract_lets +onlyGivenNames x_; first
        | (refine and_of (p := b₀.Follows x_) ?_ (fun h_ => ?_); (on_goal 2 => clear_value x_); (on_goal 1 => (unfold x_; clear x_)))
        | ((first | (have t_ : Boot := x_; clear t_) | (have t_ : Flash := x_; clear t_) | (have t_ : Jtag := x_; clear t_)); unfold x_; clear x_)
        | clear_value x_)
    | fail_if_no_progress (with_reducible refine follows_mk (side_of ?_))
    | with_reducible (first
        | refine follows_foldl ?_ ?_ | refine follows_ite_fst ?_ ?_ | refine follows_foldl_fst ?_ ?_ | refine goes_ite ?_ ?_
        | refine follows_of_fst (by assumption) ?_)
    | (split <;> try (rename_i e_; first
        | (refine and_of (follows_of_fst (a := b₀) e_ ?_) (fun h_ => ?_); clear e_)))

theorem follows_disturb {b₀ s : State} (h : b₀.Follows s) :
    b₀.Follows (State.disturb s) := by
  unfold State.disturb
  repeat' first
    | with_reducible (first
        | assumption | refine follows_ite ?_ ?_)
    | (intro _; try beta_reduce)
    | fail_if_no_progress (with_reducible refine follows_mk (side_of ?_))
    | with_reducible (first
        | refine follows_foldl ?_ ?_ | refine follows_ite_fst ?_ ?_ | refine follows_foldl_fst ?_ ?_)

theorem follows_lockRule {b₀ s : State} (h : b₀.Follows s) (offset : Int) :
    b₀.Follows (State.lockRule s offset) := by
  unfold State.lockRule
  repeat' first
    | with_reducible (first
        | assumption | refine follows_ite ?_ ?_ | apply follows_tickUnlock)
    | (intro _; try beta_reduce)
    | fail_if_no_progress (with_reducible refine follows_mk (side_of ?_))
    | with_reducible (first
        | refine follows_foldl ?_ ?_ | refine follows_ite_fst ?_ ?_ | refine follows_foldl_fst ?_ ?_)

theorem follows_applyExchange {b₀ s : State} (h : b₀.Follows s) (t1 c1 t2 t3 c2 : Int) :
    b₀.Follows (State.applyExchange s t1 c1 t2 t3 c2) := by
  unfold State.applyExchange
  repeat' first
    | with_reducible (first
        | assumption | refine follows_ite ?_ ?_ | apply follows_disturb | apply follows_lockRule | apply follows_raise
        | apply follows_tickUnlock)
    | (intro _; try beta_reduce)
    | fail_if_no_progress (with_reducible refine follows_mk (side_of ?_))
    | with_reducible (first
        | refine follows_foldl ?_ ?_ | refine follows_ite_fst ?_ ?_ | refine follows_foldl_fst ?_ ?_)

theorem follows_execDelayResp {b₀ s : State} (h : b₀.Follows s) (port : Fin 16) (p : Packet) :
    b₀.Goes (execDelayResp port p s) := by
  unfold execDelayResp
  repeat' first
    | with_reducible (first
        | assumption | refine follows_ite ?_ ?_ | refine goes_next ?_ | apply follows_applyExchange | apply follows_arriveSync
        | apply follows_onlyIf)
    | (intro _; try beta_reduce)
    | (extract_lets +onlyGivenNames x_; first
        | (refine and_of (p := b₀.Follows x_) ?_ (fun h_ => ?_); (on_goal 2 => clear_value x_); (on_goal 1 => (unfold x_; clear x_)))
        | ((first | (have t_ : Boot := x_; clear t_) | (have t_ : Flash := x_; clear t_) | (have t_ : Jtag := x_; clear t_)); unfold x_; clear x_)
        | clear_value x_)
    | fail_if_no_progress (with_reducible refine follows_mk (side_of ?_))
    | with_reducible (first
        | refine follows_foldl ?_ ?_ | refine follows_ite_fst ?_ ?_ | refine follows_foldl_fst ?_ ?_ | refine goes_ite ?_ ?_
        | refine follows_of_fst (by assumption) ?_)
    | (split <;> try (rename_i e_; first
        | (refine and_of (follows_of_fst (a := b₀) e_ ?_) (fun h_ => ?_); clear e_)))

theorem follows_execTickHoldRelease {b₀ s : State} (h : b₀.Follows s) :
    b₀.Goes (execTickHoldRelease s) := by
  unfold execTickHoldRelease
  repeat' first
    | with_reducible (first
        | assumption | refine follows_ite ?_ ?_ | refine goes_next ?_ | apply follows_elapse | apply follows_onlyIf)
    | (intro _; try beta_reduce)

theorem follows_execTickSyncTimeout {b₀ s : State} (h : b₀.Follows s) :
    b₀.Goes (execTickSyncTimeout s) := by
  unfold execTickSyncTimeout
  repeat' first
    | with_reducible (first
        | assumption | refine follows_ite ?_ ?_ | refine goes_next ?_ | apply follows_elapseTo | apply follows_onlyIf
        | apply follows_tickUnlock)
    | (intro _; try beta_reduce)

end Sys2Proof.Machine
end

