-- ==== Sys2Proof/Laws/KeepCrit.lean ====
section
/-!
SUPPORT. What the operations of Machine/Crit.lean can do to the parts that `State.Follows` speaks of.
-/

namespace Sys2Proof.Machine

set_option linter.unusedTactic false
set_option linter.unreachableTactic false
set_option linter.tactic.unusedName false

theorem follows_authFail {b₀ s : State} (h : b₀.Follows s) (c : Crit) (step key : Nat) :
    b₀.Follows (State.authFail s c step key) := by
  unfold State.authFail
  repeat' first
    | with_reducible (first
        | assumption | refine follows_ite ?_ ?_ | apply follows_complete | apply follows_postMgr)
    | (intro _; try beta_reduce)
    | fail_if_no_progress (with_reducible refine follows_mk (side_of ?_))
    | with_reducible (first
        | refine follows_foldl ?_ ?_ | refine follows_ite_fst ?_ ?_ | refine follows_foldl_fst ?_ ?_)

theorem follows_refuseCrit {b₀ s : State} (h : b₀.Follows s) (c : Crit) (step key status : Nat) :
    b₀.Follows (State.refuseCrit s c step key status) := by
  unfold State.refuseCrit
  repeat' first
    | with_reducible (first
        | assumption | refine follows_ite ?_ ?_ | apply follows_authFail | apply follows_complete)
    | (intro _; try beta_reduce)

theorem follows_critDone {b₀ s : State} (h : b₀.Follows s) (r : CritRef) (status : Nat) (data : List Byte) :
    b₀.Follows (State.critDone s r status data) := by
  unfold State.critDone
  repeat' first
    | with_reducible (first
        | assumption | refine follows_ite ?_ ?_ | apply follows_complete | apply follows_setIssuer)
    | (intro _; try beta_reduce)
    | fail_if_no_progress (with_reducible refine follows_mk (side_of ?_))
    | with_reducible (first
        | refine follows_foldl ?_ ?_ | refine follows_ite_fst ?_ ?_ | refine follows_foldl_fst ?_ ?_)

theorem follows_exchange {b₀ s : State} (h : b₀.Follows s) (id tick : Nat) :
    b₀.Follows (State.exchange s id tick) := by
  unfold State.exchange
  repeat' first
    | with_reducible (first
        | assumption | refine follows_ite ?_ ?_)
    | (intro _; try beta_reduce)
    | fail_if_no_progress (with_reducible refine follows_mk (side_of ?_))
    | with_reducible (first
        | refine follows_foldl ?_ ?_ | refine follows_ite_fst ?_ ?_ | refine follows_foldl_fst ?_ ?_)

end Sys2Proof.Machine
end

