-- ==== Sys2Proof/Laws/KeepExtents.lean ====
section
/-!
SUPPORT. What the operations of Machine/Extents.lean can do to the parts that `State.Follows` speaks of.
-/

namespace Sys2Proof.Machine

set_option linter.unusedTactic false
set_option linter.unreachableTactic false
set_option linter.tactic.unusedName false

theorem follows_grantExtent {b₀ s : State} (h : b₀.Follows s) (c : Crit) :
    b₀.Follows (State.grantExtent s c) := by
  unfold State.grantExtent
  repeat' first
    | with_reducible (first
        | assumption | refine follows_ite ?_ ?_ | apply follows_readDesc | apply follows_setExtent | apply follows_setProt)
    | (intro _; try beta_reduce)
    | (extract_lets +onlyGivenNames x_; first
        | (refine and_of (p := b₀.Follows x_) ?_ (fun h_ => ?_); (on_goal 2 => clear_value x_); (on_goal 1 => (unfold x_; clear x_)))
        | ((first | (have t_ : Boot := x_; clear t_) | (have t_ : Flash := x_; clear t_) | (have t_ : Jtag := x_; clear t_)); unfold x_; clear x_)
        | clear_value x_)
    | fail_if_no_progress (with_reducible refine follows_mk (side_of ?_))
    | with_reducible (first
        | refine follows_foldl ?_ ?_ | refine follows_ite_fst ?_ ?_ | refine follows_foldl_fst ?_ ?_
        | refine follows_of_fst (by assumption) ?_)
    | (split <;> try (rename_i e_; first
        | (refine and_of (follows_of_fst (a := b₀) e_ ?_) (fun h_ => ?_); clear e_)))

theorem follows_startRevoke {b₀ s : State} (h : b₀.Follows s) (id drainUs : Nat) (ref : Option CritRef) :
    b₀.Follows (State.startRevoke s id drainUs ref) := by
  unfold State.startRevoke
  repeat' first
    | with_reducible (first
        | assumption | refine follows_ite ?_ ?_ | apply follows_discardAhead | apply follows_postCtx | apply follows_setExtent)
    | (intro _; try beta_reduce)
    | fail_if_no_progress (with_reducible refine follows_mk (side_of ?_))
    | with_reducible (first
        | refine follows_foldl ?_ ?_ | refine follows_ite_fst ?_ ?_ | refine follows_foldl_fst ?_ ?_)

theorem follows_toZeroing {b₀ s : State} (h : b₀.Follows s) (id : Nat) :
    b₀.Follows (State.toZeroing s id) := by
  unfold State.toZeroing
  repeat' first
    | with_reducible (first
        | assumption | refine follows_ite ?_ ?_ | apply follows_critDone | apply follows_setExtent | apply follows_snoopRevoked)
    | (intro _; try beta_reduce)
    | (extract_lets +onlyGivenNames x_; first
        | (refine and_of (p := b₀.Follows x_) ?_ (fun h_ => ?_); (on_goal 2 => clear_value x_); (on_goal 1 => (unfold x_; clear x_)))
        | ((first | (have t_ : Boot := x_; clear t_) | (have t_ : Flash := x_; clear t_) | (have t_ : Jtag := x_; clear t_)); unfold x_; clear x_)
        | clear_value x_)
    | fail_if_no_progress (with_reducible refine follows_mk (side_of ?_))
    | with_reducible (first
        | refine follows_foldl ?_ ?_ | refine follows_ite_fst ?_ ?_ | refine follows_foldl_fst ?_ ?_
        | refine follows_of_fst (by assumption) ?_)
    | (split <;> try (rename_i e_; first
        | (refine and_of (follows_of_fst (a := b₀) e_ ?_) (fun h_ => ?_); clear e_)))

theorem follows_execExtentDrainEnd {b₀ s : State} (h : b₀.Follows s) (id : Fin 16384) :
    b₀.Goes (execExtentDrainEnd id s) := by
  unfold execExtentDrainEnd
  repeat' first
    | with_reducible (first
        | assumption | refine follows_ite ?_ ?_ | refine goes_next ?_ | apply follows_onlyIf | apply follows_toZeroing)
    | (intro _; try beta_reduce)

theorem follows_execExtentDrainDeadline {b₀ s : State} (h : b₀.Follows s) (id : Fin 16384) :
    b₀.Goes (execExtentDrainDeadline id s) := by
  unfold execExtentDrainDeadline
  repeat' first
    | with_reducible (first
        | assumption | refine follows_ite ?_ ?_ | refine goes_next ?_ | apply follows_elapseTo | apply follows_force
        | apply follows_onlyIf | apply follows_postMgr | apply follows_raise | apply follows_toZeroing)
    | (intro _; try beta_reduce)
    | fail_if_no_progress (with_reducible refine follows_mk (side_of ?_))
    | with_reducible (first
        | refine follows_foldl ?_ ?_ | refine follows_ite_fst ?_ ?_ | refine follows_foldl_fst ?_ ?_ | refine goes_ite ?_ ?_)

theorem follows_execExtentZeroingDone {b₀ s : State} (h : b₀.Follows s) (id : Fin 16384) :
    b₀.Goes (execExtentZeroingDone id s) := by
  unfold execExtentZeroingDone
  repeat' first
    | with_reducible (first
        | assumption | refine follows_ite ?_ ?_ | refine goes_next ?_ | apply follows_clearLines | apply follows_onlyIf
        | apply follows_postMgr | apply follows_setExtent | apply follows_zeroBeads)
    | (intro _; try beta_reduce)
    | fail_if_no_progress (with_reducible refine follows_mk (side_of ?_))
    | with_reducible (first
        | refine follows_foldl ?_ ?_ | refine follows_ite_fst ?_ ?_ | refine follows_foldl_fst ?_ ?_ | refine goes_ite ?_ ?_)

theorem follows_removeAll {b₀ s : State} (h : b₀.Follows s) (c : Nat) :
    b₀.Follows (State.removeAll s c) := by
  unfold State.removeAll
  repeat' first
    | with_reducible (first
        | assumption | refine follows_ite ?_ ?_ | apply follows_critDone | apply follows_removeContext
        | apply follows_snoopRevoked)
    | (intro _; try beta_reduce)
    | fail_if_no_progress (with_reducible refine follows_mk (side_of ?_))
    | with_reducible (first
        | refine follows_foldl ?_ ?_ | refine follows_ite_fst ?_ ?_ | refine follows_foldl_fst ?_ ?_)

theorem follows_execContextDrainEnd {b₀ s : State} (h : b₀.Follows s) (ctx : Fin 1024) :
    b₀.Goes (execContextDrainEnd ctx s) := by
  unfold execContextDrainEnd
  repeat' first
    | with_reducible (first
        | assumption | refine follows_ite ?_ ?_ | refine goes_next ?_ | apply follows_onlyIf | apply follows_removeAll)
    | (intro _; try beta_reduce)

theorem follows_execContextDrainDeadline {b₀ s : State} (h : b₀.Follows s) (ctx : Fin 1024) :
    b₀.Goes (execContextDrainDeadline ctx s) := by
  unfold execContextDrainDeadline
  repeat' first
    | with_reducible (first
        | assumption | refine follows_ite ?_ ?_ | refine goes_next ?_ | apply follows_elapseTo | apply follows_onlyIf
        | apply follows_removeAll)
    | (intro _; try beta_reduce)

theorem follows_writeRoot {b₀ s : State} (h : b₀.Follows s) (n : Nat) (hi : Bool) (w : Word) :
    b₀.Follows (State.writeRoot s n hi w).1 := by
  unfold State.writeRoot
  repeat' first
    | with_reducible (first
        | assumption | refine follows_ite ?_ ?_ | apply follows_setRing)
    | (intro _; try beta_reduce)
    | fail_if_no_progress (with_reducible refine follows_mk (side_of ?_))
    | with_reducible (first
        | refine follows_foldl ?_ ?_ | refine follows_ite_fst ?_ ?_ | refine follows_foldl_fst ?_ ?_)

theorem follows_restartRing {b₀ s : State} (h : b₀.Follows s) (n : Nat) :
    b₀.Follows (State.restartRing s n) := by
  unfold State.restartRing
  repeat' first
    | with_reducible (first
        | assumption | refine follows_ite ?_ ?_ | apply follows_flushRing | apply follows_setRing)
    | (intro _; try beta_reduce)

theorem follows_writeRing {b₀ s : State} (h : b₀.Follows s) (n : Nat) (hi : Bool) (w : Word) :
    b₀.Follows (State.writeRing s n hi w).1 := by
  unfold State.writeRing
  repeat' first
    | with_reducible (first
        | assumption | refine follows_ite ?_ ?_ | apply follows_restartRing | apply follows_setRing)
    | (intro _; try beta_reduce)
    | fail_if_no_progress (with_reducible refine follows_mk (side_of ?_))
    | with_reducible (first
        | refine follows_foldl ?_ ?_ | refine follows_ite_fst ?_ ?_ | refine follows_foldl_fst ?_ ?_)

end Sys2Proof.Machine
end

