-- ==== Sys2Proof/Laws/KeepCritical.lean ====
section
/-!
SUPPORT. What the operations of Machine/Critical.lean can do to the parts that `State.Follows` speaks of.
-/

namespace Sys2Proof.Machine

set_option linter.unusedTactic false
set_option linter.unreachableTactic false
set_option linter.tactic.unusedName false

theorem follows_installIssuer {b₀ s : State} (h : b₀.Follows s) (c : Crit) (key : Nat) :
    b₀.Follows (State.installIssuer s c key) := by
  unfold State.installIssuer
  exact follows_journalFloor (follows_changeIssuer h _ _) _ _ _

theorem follows_startCommit {b₀ s : State} (h : b₀.Follows s) (ref : CritRef) (activate : Bool) :
    b₀.Follows (State.startCommit s ref activate) := by
  unfold State.startCommit
  repeat' first
    | with_reducible (first
        | assumption | refine follows_ite ?_ ?_)
    | (intro _; try beta_reduce)
    | fail_if_no_progress (with_reducible refine follows_mk (side_of ?_))
    | with_reducible (first
        | refine follows_foldl ?_ ?_ | refine follows_ite_fst ?_ ?_ | refine follows_foldl_fst ?_ ?_)

theorem follows_endCommit {b₀ s : State} (h : b₀.Follows s) (c : Commit) (ok : Bool) :
    b₀.Follows (State.endCommit s c ok) := by
  unfold State.endCommit
  extract_lets r _ _ _ s1 s2
  have h1 : b₀.Follows s1 := by
    obtain ⟨h1, h2, h3, h4, h5, h6, h7, h8⟩ := h
    refine ⟨h1, h2, h3, ?_, h5, h6, h7, ?_⟩
    · show _ ≤ (if ok then _ else _ : Boot).fuseSvn
      split
      · exact Nat.le_trans h4 (Nat.le_max_left _ _)
      · exact h4
    · show (if _ then _ else _ : Flash).hint = _
      split <;> exact h8
  have h2 : b₀.Follows s2 := follows_critDone h1 _ _ _
  exact follows_ite (follows_selfReset h2 _) h2

theorem follows_execCommitComplete {b₀ s : State} (h : b₀.Follows s) (ok : Bool) :
    b₀.Goes (execCommitComplete ok s) := by
  unfold execCommitComplete
  repeat' first
    | with_reducible (first
        | assumption | refine follows_ite ?_ ?_ | refine goes_next ?_ | apply follows_endCommit)
    | (intro _; try beta_reduce)
    | (extract_lets +onlyGivenNames x_; first
        | (refine and_of (p := b₀.Follows x_) ?_ (fun h_ => ?_); (on_goal 2 => clear_value x_); (on_goal 1 => (unfold x_; clear x_)))
        | ((first | (have t_ : Boot := x_; clear t_) | (have t_ : Flash := x_; clear t_) | (have t_ : Jtag := x_; clear t_)); unfold x_; clear x_)
        | clear_value x_)
    | fail_if_no_progress (with_reducible refine follows_mk (side_of ?_))
    | with_reducible (first
        | refine follows_foldl ?_ ?_ | refine follows_ite_fst ?_ ?_ | refine follows_foldl_fst ?_ ?_ | refine goes_ite ?_ ?_
        | refine follows_of_fst (by assumption) ?_)
    | (split <;> try (rename_i e_; first
        | (refine and_of (follows_of_fst (a := b₀) e_ ?_) (fun h_ => ?_); clear e_)))

theorem follows_execCommitTimeout {b₀ s : State} (h : b₀.Follows s) :
    b₀.Goes (execCommitTimeout s) := by
  unfold execCommitTimeout
  repeat' first
    | with_reducible (first
        | assumption | refine follows_ite ?_ ?_ | refine goes_next ?_ | apply follows_elapseTo | apply follows_endCommit)
    | (intro _; try beta_reduce)
    | (extract_lets +onlyGivenNames x_; first
        | (refine and_of (p := b₀.Follows x_) ?_ (fun h_ => ?_); (on_goal 2 => clear_value x_); (on_goal 1 => (unfold x_; clear x_)))
        | ((first | (have t_ : Boot := x_; clear t_) | (have t_ : Flash := x_; clear t_) | (have t_ : Jtag := x_; clear t_)); unfold x_; clear x_)
        | clear_value x_)
    | fail_if_no_progress (with_reducible refine follows_mk (side_of ?_))
    | with_reducible (first
        | refine follows_foldl ?_ ?_ | refine follows_ite_fst ?_ ?_ | refine follows_foldl_fst ?_ ?_ | refine goes_ite ?_ ?_
        | refine follows_of_fst (by assumption) ?_)
    | (split <;> try (rename_i e_; first
        | (refine and_of (follows_of_fst (a := b₀) e_ ?_) (fun h_ => ?_); clear e_)))

theorem follows_startFwUpdate {b₀ s : State} (h : b₀.Follows s) (c : Crit) (ref : CritRef) :
    b₀.Follows (State.startFwUpdate s c ref) := by
  unfold State.startFwUpdate
  repeat' first
    | with_reducible (first
        | assumption | refine follows_ite ?_ ?_ | apply follows_setBothField | apply follows_startCommit)
    | (intro _; try beta_reduce)

theorem follows_recoverFw {b₀ s : State} (h : b₀.Follows s) (key : Nat) (p : Packet) :
    b₀.Follows (State.recoverFw s key p) := by
  unfold State.recoverFw
  repeat' first
    | with_reducible (first
        | assumption | refine follows_ite ?_ ?_ | apply follows_authFail | apply follows_complete)
    | (intro _; try beta_reduce)
    | fail_if_no_progress (with_reducible refine follows_mk (side_of ?_))
    | with_reducible (first
        | refine follows_foldl ?_ ?_ | refine follows_ite_fst ?_ ?_ | refine follows_foldl_fst ?_ ?_)

theorem follows_execRecoverySlotWriteDone {b₀ s : State} (h : b₀.Follows s) (ok : Bool) :
    b₀.Goes (execRecoverySlotWriteDone ok s) := by
  unfold execRecoverySlotWriteDone
  repeat' first
    | with_reducible (first
        | assumption | refine follows_ite ?_ ?_ | refine goes_next ?_ | apply follows_complete | apply follows_selfReset)
    | (intro _; try beta_reduce)
    | (extract_lets +onlyGivenNames x_; first
        | (refine and_of (p := b₀.Follows x_) ?_ (fun h_ => ?_); (on_goal 2 => clear_value x_); (on_goal 1 => (unfold x_; clear x_)))
        | ((first | (have t_ : Boot := x_; clear t_) | (have t_ : Flash := x_; clear t_) | (have t_ : Jtag := x_; clear t_)); unfold x_; clear x_)
        | clear_value x_)
    | fail_if_no_progress (with_reducible refine follows_mk (side_of ?_))
    | with_reducible (first
        | refine follows_foldl ?_ ?_ | refine follows_ite_fst ?_ ?_ | refine follows_foldl_fst ?_ ?_ | refine goes_ite ?_ ?_
        | refine follows_of_fst (by assumption) ?_)
    | (split <;> try (rename_i e_; first
        | (refine and_of (follows_of_fst (a := b₀) e_ ?_) (fun h_ => ?_); clear e_)))

theorem follows_startUnlock {b₀ s : State} (h : b₀.Follows s) (ref : CritRef) :
    b₀.Follows (State.startUnlock s ref) := by
  unfold State.startUnlock
  repeat' first
    | with_reducible (first
        | assumption | refine follows_ite ?_ ?_ | apply follows_deriveSelf)
    | (intro _; try beta_reduce)
    | fail_if_no_progress (with_reducible refine follows_mk (side_of ?_))
    | with_reducible (first
        | refine follows_foldl ?_ ?_ | refine follows_ite_fst ?_ ?_ | refine follows_foldl_fst ?_ ?_)

theorem follows_zeroAll {b₀ s : State} (h : b₀.Follows s) : b₀.Follows (State.zeroAll s) := by
  obtain ⟨h1, h2, h3, h4, h5, h6, h7, h8⟩ := h
  exact ⟨h1, h2, h3, h4, h5, fun _ => rfl, h7, h8⟩

theorem follows_execDebugUnlockDone {b₀ s : State} (h : b₀.Follows s) :
    b₀.Goes (execDebugUnlockDone s) := by
  unfold execDebugUnlockDone
  repeat' first
    | with_reducible (first
        | assumption | refine follows_ite ?_ ?_ | refine goes_next ?_ | apply follows_critDone | apply follows_zeroAll)
    | (intro _; try beta_reduce)
    | (extract_lets +onlyGivenNames x_; first
        | (refine and_of (p := b₀.Follows x_) ?_ (fun h_ => ?_); (on_goal 2 => clear_value x_); (on_goal 1 => (unfold x_; clear x_)))
        | ((first | (have t_ : Boot := x_; clear t_) | (have t_ : Flash := x_; clear t_) | (have t_ : Jtag := x_; clear t_)); unfold x_; clear x_)
        | clear_value x_)
    | fail_if_no_progress (with_reducible refine follows_mk (side_of ?_))
    | with_reducible (first
        | refine follows_foldl ?_ ?_ | refine follows_ite_fst ?_ ?_ | refine follows_foldl_fst ?_ ?_ | refine goes_ite ?_ ?_
        | refine follows_of_fst (by assumption) ?_)
    | (split <;> try (rename_i e_; first
        | (refine and_of (follows_of_fst (a := b₀) e_ ?_) (fun h_ => ?_); clear e_)))

theorem follows_changeRole {b₀ s : State} (h : b₀.Follows s) (c : Crit) (ref : CritRef) :
    b₀.Follows (State.changeRole s c ref) := by
  unfold State.changeRole
  repeat' first
    | with_reducible (first
        | assumption | refine follows_ite ?_ ?_ | apply follows_critDone | apply follows_selfReset | apply follows_setBothField
        | apply follows_tickUnlock)
    | (intro _; try beta_reduce)
    | fail_if_no_progress (with_reducible refine follows_mk (side_of ?_))
    | with_reducible (first
        | refine follows_foldl ?_ ?_ | refine follows_ite_fst ?_ ?_ | refine follows_foldl_fst ?_ ?_)

theorem follows_armedDropped {b₀ s : State} (h : b₀.Follows s) (c : Crit) (st : Nat) :
    b₀.Follows (State.armedDropped s c st) := by
  unfold State.armedDropped
  repeat' first
    | with_reducible (first
        | assumption | refine follows_ite ?_ ?_ | apply follows_postMgr)
    | (intro _; try beta_reduce)

/-- What a row of Table 4.13 can do: act, take when armed, fire, release. -/
theorem follows_critOp {b₀ : State} {op : Nat} {o : CritOp} (e : critOp op = some o) :
    (∀ s c k r, b₀.Follows s → b₀.Follows (o.act s c k r)) ∧ (∀ s c k, b₀.Follows s → b₀.Follows (o.hold s c k)) ∧
    (∀ s c, b₀.Follows s → b₀.Follows (o.fire s c)) ∧ (∀ s c, b₀.Follows s → b₀.Follows (o.release s c)) := by
  unfold critOp at e
  split at e <;> cases e
  all_goals refine ⟨fun s c k r h => ?_, fun s c k h => ?_, fun s c h => ?_, fun s c h => ?_⟩
  all_goals (try exact h)
  all_goals dsimp only
  all_goals repeat' first
    | with_reducible (first
        | assumption | refine follows_ite ?_ ?_ | apply follows_critDone | apply follows_installIssuer | apply follows_changeIssuer
        | apply follows_startCommit | apply follows_takeKey | apply follows_setKey | apply follows_zeroize | apply follows_retireKey
        | apply follows_createContext | apply follows_destroyContext | apply follows_grantExtent | apply follows_startRevoke
        | apply follows_startFwUpdate | apply follows_changeRole | apply follows_startUnlock)
    | fail_if_no_progress (with_reducible refine follows_mk (side_of ?_))

theorem follows_fireArmed {b₀ s : State} (h : b₀.Follows s) (a : Armed) : b₀.Follows (State.fireArmed s a) := by
  unfold State.fireArmed
  split
  · exact h
  · rename_i o e
    obtain ⟨-, -, hf, hr⟩ := follows_critOp (b₀ := b₀) e
    exact follows_ite (follows_ite h (follows_armedDropped h _ _))
      (follows_ite (hf _ _ h) (follows_armedDropped (hr _ _ h) _ _))

theorem follows_swapBefore {b₀ s : State} (h : b₀.Follows s) (at_ : Nat) :
    b₀.Follows (State.swapBefore s at_) := by
  unfold State.swapBefore
  repeat' first
    | with_reducible (first
        | assumption | refine follows_ite ?_ ?_ | apply follows_elapseToTick | apply follows_exchange)
    | (intro _; try beta_reduce)
    | (extract_lets +onlyGivenNames x_; first
        | (refine and_of (p := b₀.Follows x_) ?_ (fun h_ => ?_); (on_goal 2 => clear_value x_); (on_goal 1 => (unfold x_; clear x_)))
        | ((first | (have t_ : Boot := x_; clear t_) | (have t_ : Flash := x_; clear t_) | (have t_ : Jtag := x_; clear t_)); unfold x_; clear x_)
        | clear_value x_)
    | fail_if_no_progress (with_reducible refine follows_mk (side_of ?_))
    | with_reducible (first
        | refine follows_foldl ?_ ?_ | refine follows_ite_fst ?_ ?_ | refine follows_foldl_fst ?_ ?_
        | refine follows_of_fst (by assumption) ?_)
    | (split <;> try (rename_i e_; first
        | (refine and_of (follows_of_fst (a := b₀) e_ ?_) (fun h_ => ?_); clear e_)))

theorem follows_projected {b₀ s : State} (h : b₀.Follows s) (c : Crit) :
    b₀.Follows (State.projected s c) := by
  unfold State.projected
  repeat' first
    | with_reducible (first
        | assumption | refine follows_ite ?_ ?_ | apply follows_elapseToTick | apply follows_fireArmed
        | apply follows_swapBefore)
    | (intro _; try beta_reduce)
    | fail_if_no_progress (with_reducible refine follows_mk (side_of ?_))
    | with_reducible (first
        | refine follows_foldl ?_ ?_ | refine follows_ite_fst ?_ ?_ | refine follows_foldl_fst ?_ ?_)

theorem follows_fireNext {b₀ s : State} (h : b₀.Follows s) (op : Nat) :
    b₀.Follows (State.fireNext s op) := by
  unfold State.fireNext
  repeat' first
    | with_reducible (first
        | assumption | refine follows_ite ?_ ?_ | apply follows_elapseToTick | apply follows_fireArmed)
    | (intro _; try beta_reduce)
    | (extract_lets +onlyGivenNames x_; first
        | (refine and_of (p := b₀.Follows x_) ?_ (fun h_ => ?_); (on_goal 2 => clear_value x_); (on_goal 1 => (unfold x_; clear x_)))
        | ((first | (have t_ : Boot := x_; clear t_) | (have t_ : Flash := x_; clear t_) | (have t_ : Jtag := x_; clear t_)); unfold x_; clear x_)
        | clear_value x_)
    | fail_if_no_progress (with_reducible refine follows_mk (side_of ?_))
    | with_reducible (first
        | refine follows_foldl ?_ ?_ | refine follows_ite_fst ?_ ?_ | refine follows_foldl_fst ?_ ?_
        | refine follows_of_fst (by assumption) ?_)
    | (split <;> try (rename_i e_; first
        | (refine and_of (follows_of_fst (a := b₀) e_ ?_) (fun h_ => ?_); clear e_)))

theorem follows_execContextCreateFire {b₀ s : State} (h : b₀.Follows s) :
    b₀.Goes (execContextCreateFire s) := by
  unfold execContextCreateFire
  repeat' first
    | with_reducible (first
        | assumption | refine follows_ite ?_ ?_ | refine goes_next ?_ | apply follows_fireNext)
    | (intro _; try beta_reduce)

theorem follows_execExtentGrantFire {b₀ s : State} (h : b₀.Follows s) :
    b₀.Goes (execExtentGrantFire s) := by
  unfold execExtentGrantFire
  repeat' first
    | with_reducible (first
        | assumption | refine follows_ite ?_ ?_ | refine goes_next ?_ | apply follows_fireNext)
    | (intro _; try beta_reduce)

theorem follows_execKeyActivate {b₀ s : State} (h : b₀.Follows s) :
    b₀.Goes (execKeyActivate s) := by
  unfold execKeyActivate
  repeat' first
    | with_reducible (first
        | assumption | refine follows_ite ?_ ?_ | refine goes_next ?_ | apply follows_fireNext)
    | (intro _; try beta_reduce)

theorem follows_execKeyRetireFire {b₀ s : State} (h : b₀.Follows s) :
    b₀.Goes (execKeyRetireFire s) := by
  unfold execKeyRetireFire
  repeat' first
    | with_reducible (first
        | assumption | refine follows_ite ?_ ?_ | refine goes_next ?_ | apply follows_fireNext)
    | (intro _; try beta_reduce)

theorem follows_execExtentRevokeFire {b₀ s : State} (h : b₀.Follows s) :
    b₀.Goes (execExtentRevokeFire s) := by
  unfold execExtentRevokeFire
  repeat' first
    | with_reducible (first
        | assumption | refine follows_ite ?_ ?_ | refine goes_next ?_ | apply follows_fireNext)
    | (intro _; try beta_reduce)

theorem follows_execContextDestroyFire {b₀ s : State} (h : b₀.Follows s) :
    b₀.Goes (execContextDestroyFire s) := by
  unfold execContextDestroyFire
  repeat' first
    | with_reducible (first
        | assumption | refine follows_ite ?_ ?_ | refine goes_next ?_ | apply follows_fireNext)
    | (intro _; try beta_reduce)

theorem follows_critGo {b₀ s : State} (h : b₀.Follows s) (key : Nat) (c : Crit) (k : Nat) :
    b₀.Follows (State.critGo s key c k) := by
  unfold State.critGo
  extract_lets i s0 i' s1
  have h0 : b₀.Follows s0 := follows_counterRose h _ _ _
  have h1 : b₀.Follows s1 := follows_ite (follows_setIssuer h0 _ _) (follows_changeIssuer h0 _ _)
  clear_value s1
  split
  · exact h1
  · rename_i o e
    obtain ⟨ha, hh, -, -⟩ := follows_critOp (b₀ := b₀) e
    exact follows_ite (ha _ _ _ _ h1) (follows_critDone (follows_mk (side_of (hh _ _ _ h1))) _ _ _)

theorem follows_critChecks {b₀ s : State} (h : b₀.Follows s) (c : Crit) (o : CritOp) :
    b₀.Follows (State.critChecks s c o).1 := by
  unfold State.critChecks
  repeat' first
    | with_reducible (first
        | assumption | refine follows_ite ?_ ?_ | apply follows_advanceWrap | apply follows_projected)
    | (intro _; try beta_reduce)
    | (extract_lets +onlyGivenNames x_; first
        | (refine and_of (p := b₀.Follows x_) ?_ (fun h_ => ?_); (on_goal 2 => clear_value x_); (on_goal 1 => (unfold x_; clear x_)))
        | ((first | (have t_ : Boot := x_; clear t_) | (have t_ : Flash := x_; clear t_) | (have t_ : Jtag := x_; clear t_)); unfold x_; clear x_)
        | clear_value x_)
    | fail_if_no_progress (with_reducible refine follows_mk (side_of ?_))
    | with_reducible (first
        | refine follows_foldl ?_ ?_ | refine follows_ite_fst ?_ ?_ | refine follows_foldl_fst ?_ ?_
        | refine follows_of_fst (by assumption) ?_)
    | (split <;> try (rename_i e_; first
        | (refine and_of (follows_of_fst (a := b₀) e_ ?_) (fun h_ => ?_); clear e_)))

theorem follows_tryCrit {b₀ s : State} (h : b₀.Follows s) (key : Nat) (p : Packet) :
    b₀.Follows (State.tryCrit s key p) := by
  unfold State.tryCrit
  repeat' first
    | with_reducible (first
        | assumption | refine follows_ite ?_ ?_ | apply follows_authFail | apply follows_complete | apply follows_critChecks
        | apply follows_critGo | apply follows_postMgr | apply follows_refuseCrit)
    | (intro _; try beta_reduce)
    | (extract_lets +onlyGivenNames x_; first
        | (refine and_of (p := b₀.Follows x_) ?_ (fun h_ => ?_); (on_goal 2 => clear_value x_); (on_goal 1 => (unfold x_; clear x_)))
        | ((first | (have t_ : Boot := x_; clear t_) | (have t_ : Flash := x_; clear t_) | (have t_ : Jtag := x_; clear t_)); unfold x_; clear x_)
        | clear_value x_)
    | fail_if_no_progress (with_reducible refine follows_mk (side_of ?_))
    | with_reducible (first
        | refine follows_foldl ?_ ?_ | refine follows_ite_fst ?_ ?_ | refine follows_foldl_fst ?_ ?_
        | refine follows_of_fst (by assumption) ?_)
    | (split <;> try (rename_i e_; first
        | (refine and_of (follows_of_fst (a := b₀) e_ ?_) (fun h_ => ?_); clear e_)))

theorem follows_actCrit {b₀ s : State} (h : b₀.Follows s) (key : Nat) :
    b₀.Follows (State.actCrit s key) := by
  unfold State.actCrit
  repeat' first
    | with_reducible (first
        | assumption | refine follows_ite ?_ ?_ | apply follows_tryCrit)
    | (intro _; try beta_reduce)
    | (extract_lets +onlyGivenNames x_; first
        | (refine and_of (p := b₀.Follows x_) ?_ (fun h_ => ?_); (on_goal 2 => clear_value x_); (on_goal 1 => (unfold x_; clear x_)))
        | ((first | (have t_ : Boot := x_; clear t_) | (have t_ : Flash := x_; clear t_) | (have t_ : Jtag := x_; clear t_)); unfold x_; clear x_)
        | clear_value x_)
    | fail_if_no_progress (with_reducible refine follows_mk (side_of ?_))
    | with_reducible (first
        | refine follows_foldl ?_ ?_ | refine follows_ite_fst ?_ ?_ | refine follows_foldl_fst ?_ ?_
        | refine follows_of_fst (by assumption) ?_)
    | (split <;> try (rename_i e_; first
        | (refine and_of (follows_of_fst (a := b₀) e_ ?_) (fun h_ => ?_); clear e_)))

theorem follows_execCounterFloorWritten {b₀ s : State} (h : b₀.Follows s) (ok : Bool) :
    b₀.Goes (execCounterFloorWritten ok s) := by
  unfold execCounterFloorWritten
  split
  · exact goes_next h
  · rename_i key c k e
    extract_lets l c0 s1 i floor s2 s3
    have h1 : b₀.Follows s1 := follows_mk (side_of h)
    have h2 : b₀.Follows s2 := follows_journalFloor h1 _ _ _
    have h3 : b₀.Follows s3 := follows_ite (follows_critGo (follows_setIssuer h2 _ _) _ _ _) (follows_complete h1 _ _ _)
    exact goes_next (follows_foldl (follows_mk (side_of h3)) fun s k h => follows_actCrit h k)

theorem follows_arriveCrit {b₀ s : State} (h : b₀.Follows s) (op : Nat) (port : Fin 16) (p : Packet) :
    b₀.Goes (State.arriveCrit s op port p) := by
  unfold State.arriveCrit
  repeat' first
    | with_reducible (first
        | assumption | refine follows_ite ?_ ?_ | refine goes_next ?_ | apply follows_actCrit | apply follows_arrive)
    | (intro _; try beta_reduce)

theorem follows_arriveFw {b₀ s : State} (h : b₀.Follows s) (port : Fin 16) (p : Packet) :
    b₀.Goes (State.arriveFw s port p) := by
  unfold State.arriveFw
  repeat' first
    | with_reducible (first
        | assumption | refine follows_ite ?_ ?_ | refine goes_next ?_ | apply follows_actCrit | apply follows_arrive
        | apply follows_recoverFw)
    | (intro _; try beta_reduce)
    | (extract_lets +onlyGivenNames x_; first
        | (refine and_of (p := b₀.Follows x_) ?_ (fun h_ => ?_); (on_goal 2 => clear_value x_); (on_goal 1 => (unfold x_; clear x_)))
        | ((first | (have t_ : Boot := x_; clear t_) | (have t_ : Flash := x_; clear t_) | (have t_ : Jtag := x_; clear t_)); unfold x_; clear x_)
        | clear_value x_)
    | fail_if_no_progress (with_reducible refine follows_mk (side_of ?_))
    | with_reducible (first
        | refine follows_foldl ?_ ?_ | refine follows_ite_fst ?_ ?_ | refine follows_foldl_fst ?_ ?_ | refine goes_ite ?_ ?_
        | refine follows_of_fst (by assumption) ?_)
    | (split <;> try (rename_i e_; first
        | (refine and_of (follows_of_fst (a := b₀) e_ ?_) (fun h_ => ?_); clear e_)))

theorem follows_execIssuerKeyInstall {b₀ s : State} (h : b₀.Follows s) (port : Fin 16) (p : Packet) :
    b₀.Goes (execIssuerKeyInstall port p s) := by
  unfold execIssuerKeyInstall
  repeat' first
    | with_reducible (first
        | assumption | refine follows_ite ?_ ?_ | refine goes_next ?_ | apply follows_arriveCrit)
    | (intro _; try beta_reduce)

theorem follows_execIssuerKeyRetire {b₀ s : State} (h : b₀.Follows s) (port : Fin 16) (p : Packet) :
    b₀.Goes (execIssuerKeyRetire port p s) := by
  unfold execIssuerKeyRetire
  repeat' first
    | with_reducible (first
        | assumption | refine follows_ite ?_ ?_ | refine goes_next ?_ | apply follows_arriveCrit)
    | (intro _; try beta_reduce)

theorem follows_execSwap {b₀ s : State} (h : b₀.Follows s) (port : Fin 16) (p : Packet) :
    b₀.Goes (execSwap port p s) := by
  unfold execSwap
  repeat' first
    | with_reducible (first
        | assumption | refine follows_ite ?_ ?_ | refine goes_next ?_ | apply follows_arriveCrit)
    | (intro _; try beta_reduce)

theorem follows_execSwapCancel {b₀ s : State} (h : b₀.Follows s) (port : Fin 16) (p : Packet) :
    b₀.Goes (execSwapCancel port p s) := by
  unfold execSwapCancel
  repeat' first
    | with_reducible (first
        | assumption | refine follows_ite ?_ ?_ | refine goes_next ?_ | apply follows_arriveCrit)
    | (intro _; try beta_reduce)

theorem follows_execCommit {b₀ s : State} (h : b₀.Follows s) (port : Fin 16) (p : Packet) :
    b₀.Goes (execCommit port p s) := by
  unfold execCommit
  repeat' first
    | with_reducible (first
        | assumption | refine follows_ite ?_ ?_ | refine goes_next ?_ | apply follows_arriveCrit)
    | (intro _; try beta_reduce)

theorem follows_execKeyInstall {b₀ s : State} (h : b₀.Follows s) (port : Fin 16) (p : Packet) :
    b₀.Goes (execKeyInstall port p s) := by
  unfold execKeyInstall
  repeat' first
    | with_reducible (first
        | assumption | refine follows_ite ?_ ?_ | refine goes_next ?_ | apply follows_arriveCrit)
    | (intro _; try beta_reduce)

theorem follows_execKeyRetire {b₀ s : State} (h : b₀.Follows s) (port : Fin 16) (p : Packet) :
    b₀.Goes (execKeyRetire port p s) := by
  unfold execKeyRetire
  repeat' first
    | with_reducible (first
        | assumption | refine follows_ite ?_ ?_ | refine goes_next ?_ | apply follows_arriveCrit)
    | (intro _; try beta_reduce)

theorem follows_execContextCreate {b₀ s : State} (h : b₀.Follows s) (port : Fin 16) (p : Packet) :
    b₀.Goes (execContextCreate port p s) := by
  unfold execContextCreate
  repeat' first
    | with_reducible (first
        | assumption | refine follows_ite ?_ ?_ | refine goes_next ?_ | apply follows_arriveCrit)
    | (intro _; try beta_reduce)

theorem follows_execContextDestroy {b₀ s : State} (h : b₀.Follows s) (port : Fin 16) (p : Packet) :
    b₀.Goes (execContextDestroy port p s) := by
  unfold execContextDestroy
  repeat' first
    | with_reducible (first
        | assumption | refine follows_ite ?_ ?_ | refine goes_next ?_ | apply follows_arriveCrit)
    | (intro _; try beta_reduce)

theorem follows_execExtentGrant {b₀ s : State} (h : b₀.Follows s) (port : Fin 16) (p : Packet) :
    b₀.Goes (execExtentGrant port p s) := by
  unfold execExtentGrant
  repeat' first
    | with_reducible (first
        | assumption | refine follows_ite ?_ ?_ | refine goes_next ?_ | apply follows_arriveCrit)
    | (intro _; try beta_reduce)

theorem follows_execExtentRevoke {b₀ s : State} (h : b₀.Follows s) (port : Fin 16) (p : Packet) :
    b₀.Goes (execExtentRevoke port p s) := by
  unfold execExtentRevoke
  repeat' first
    | with_reducible (first
        | assumption | refine follows_ite ?_ ?_ | refine goes_next ?_ | apply follows_arriveCrit)
    | (intro _; try beta_reduce)

theorem follows_execFwUpdate {b₀ s : State} (h : b₀.Follows s) (port : Fin 16) (p : Packet) :
    b₀.Goes (execFwUpdate port p s) := by
  unfold execFwUpdate
  repeat' first
    | with_reducible (first
        | assumption | refine follows_ite ?_ ?_ | refine goes_next ?_ | apply follows_arriveFw)
    | (intro _; try beta_reduce)

theorem follows_execRecoveryFwUpdate {b₀ s : State} (h : b₀.Follows s) (port : Fin 16) (p : Packet) :
    b₀.Goes (execRecoveryFwUpdate port p s) := by
  unfold execRecoveryFwUpdate
  repeat' first
    | with_reducible (first
        | assumption | refine follows_ite ?_ ?_ | refine goes_next ?_ | apply follows_arriveFw)
    | (intro _; try beta_reduce)

theorem follows_execRoleChange {b₀ s : State} (h : b₀.Follows s) (port : Fin 16) (p : Packet) :
    b₀.Goes (execRoleChange port p s) := by
  unfold execRoleChange
  repeat' first
    | with_reducible (first
        | assumption | refine follows_ite ?_ ?_ | refine goes_next ?_ | apply follows_arriveCrit)
    | (intro _; try beta_reduce)

theorem follows_execDebugUnlock {b₀ s : State} (h : b₀.Follows s) (port : Fin 16) (p : Packet) :
    b₀.Goes (execDebugUnlock port p s) := by
  unfold execDebugUnlock
  repeat' first
    | with_reducible (first
        | assumption | refine follows_ite ?_ ?_ | refine goes_next ?_ | apply follows_arriveCrit)
    | (intro _; try beta_reduce)

end Sys2Proof.Machine
end

