-- ==== Sys2Proof/Laws/KeepRouting.lean ====
section
/-!
SUPPORT. What the operations of Machine/Routing.lean can do to the parts that `State.Follows` speaks of.
-/

namespace Sys2Proof.Machine

set_option linter.unusedTactic false
set_option linter.unreachableTactic false
set_option linter.tactic.unusedName false

theorem follows_arriveUnnamed {b₀ s : State} (h : b₀.Follows s) (port : Fin 16) (p : Packet) :
    b₀.Follows (State.arriveUnnamed s port p) := by
  unfold State.arriveUnnamed
  repeat' first
    | with_reducible (first
        | assumption | refine follows_ite ?_ ?_ | apply follows_actCrit | apply follows_arrive | apply follows_complete)
    | (intro _; try beta_reduce)

theorem follows_execTransitPacket {b₀ s : State} (h : b₀.Follows s) (port : Fin 16) (p : Packet) :
    b₀.Goes (execTransitPacket port p s) := by
  unfold execTransitPacket
  repeat' first
    | with_reducible (first
        | assumption | refine follows_ite ?_ ?_ | refine goes_next ?_ | apply follows_arriveUnnamed | apply follows_learn
        | apply follows_onlyIf | apply follows_policed | apply follows_received | apply follows_transit)
    | (intro _; try beta_reduce)
    | fail_if_no_progress (with_reducible refine follows_mk (side_of ?_))
    | with_reducible (first
        | refine follows_foldl ?_ ?_ | refine follows_ite_fst ?_ ?_ | refine follows_foldl_fst ?_ ?_ | refine goes_ite ?_ ?_)

theorem follows_writeRoute {b₀ s : State} (h : b₀.Follows s) (x1 : Nat) (w : Word) :
    b₀.Follows (State.writeRoute s x1 w).1 := by
  unfold State.writeRoute
  repeat' first
    | with_reducible (first
        | assumption | refine follows_ite ?_ ?_)
    | (intro _; try beta_reduce)
    | fail_if_no_progress (with_reducible refine follows_mk (side_of ?_))
    | with_reducible (first
        | refine follows_foldl ?_ ?_ | refine follows_ite_fst ?_ ?_ | refine follows_foldl_fst ?_ ?_)

theorem follows_execOldWritableSet {b₀ s : State} (h : b₀.Follows s) :
    b₀.Goes (execOldWritableSet s) := by
  unfold execOldWritableSet
  repeat' first
    | with_reducible (first
        | assumption | refine follows_ite ?_ ?_ | refine goes_next ?_ | apply follows_elapseTo | apply follows_onlyIf)
    | (intro _; try beta_reduce)
    | fail_if_no_progress (with_reducible refine follows_mk (side_of ?_))
    | with_reducible (first
        | refine follows_foldl ?_ ?_ | refine follows_ite_fst ?_ ?_ | refine follows_foldl_fst ?_ ?_ | refine goes_ite ?_ ?_)

theorem follows_writeFlipCtl {b₀ s : State} (h : b₀.Follows s) (w : Word) :
    b₀.Follows (State.writeFlipCtl s w).1 := by
  unfold State.writeFlipCtl
  repeat' first
    | with_reducible (first
        | assumption | refine follows_ite ?_ ?_)
    | (intro _; try beta_reduce)
    | fail_if_no_progress (with_reducible refine follows_mk (side_of ?_))
    | with_reducible (first
        | refine follows_foldl ?_ ?_ | refine follows_ite_fst ?_ ?_ | refine follows_foldl_fst ?_ ?_)

theorem follows_execEpochFlip {b₀ s : State} (h : b₀.Follows s) :
    b₀.Goes (execEpochFlip s) := by
  unfold execEpochFlip
  repeat' first
    | with_reducible (first
        | assumption | refine follows_ite ?_ ?_ | refine goes_next ?_ | apply follows_elapseToTick | apply follows_onlyIf
        | apply follows_raise)
    | (intro _; try beta_reduce)
    | (extract_lets +onlyGivenNames x_; first
        | (refine and_of (p := b₀.Follows x_) ?_ (fun h_ => ?_); (on_goal 2 => clear_value x_); (on_goal 1 => (unfold x_; clear x_)))
        | ((first | (have t_ : Boot := x_; clear t_) | (have t_ : Flash := x_; clear t_) | (have t_ : Jtag := x_; clear t_)); unfold x_; clear x_)
        | clear_value x_)
    | fail_if_no_progress (with_reducible refine follows_mk (side_of ?_))
    | with_reducible (first
        | refine follows_foldl ?_ ?_ | refine follows_ite_fst ?_ ?_ | refine follows_foldl_fst ?_ ?_ | refine goes_ite ?_ ?_
        | refine follows_of_fst (by assumption) ?_)
    | (split <;> try (rename_i e_; first
        | (refine and_of (follows_of_fst (a := b₀) e_ ?_) (fun h_ => ?_); clear e_)))

theorem follows_writeBoardCtl {b₀ s : State} (h : b₀.Follows s) (w : Word) :
    b₀.Follows (State.writeBoardCtl s w).1 := by
  unfold State.writeBoardCtl
  repeat' first
    | with_reducible (first
        | assumption | refine follows_ite ?_ ?_ | apply hf0_ | apply follows_raise)
    | (intro _; try beta_reduce)
    | (extract_lets +onlyGivenNames x_; first
        | (refine and_of (p := ∀ s, b₀.Follows s → b₀.Follows (x_ s).1) ?_ (fun hf0_ => ?_); (on_goal 2 => clear_value x_); (on_goal 1 => (unfold x_; clear x_)))
        | (refine and_of (p := b₀.Follows x_) ?_ (fun h_ => ?_); (on_goal 2 => clear_value x_); (on_goal 1 => (unfold x_; clear x_)))
        | ((first | (have t_ : Boot := x_; clear t_) | (have t_ : Flash := x_; clear t_) | (have t_ : Jtag := x_; clear t_)); unfold x_; clear x_)
        | clear_value x_)
    | fail_if_no_progress (with_reducible refine follows_mk (side_of ?_))
    | with_reducible (first
        | refine follows_foldl ?_ ?_ | refine follows_ite_fst ?_ ?_ | refine follows_foldl_fst ?_ ?_
        | refine follows_of_fst (by assumption) ?_)
    | (split <;> try (rename_i e_; first
        | (refine and_of (follows_of_fst (a := b₀) e_ ?_) (fun h_ => ?_); clear e_)))

theorem follows_writeBoard {b₀ s : State} (h : b₀.Follows s) (x1 : Nat) (w : Word) :
    b₀.Follows (State.writeBoard s x1 w).1 := by
  unfold State.writeBoard
  repeat' first
    | with_reducible (first
        | assumption | refine follows_ite ?_ ?_)
    | (intro _; try beta_reduce)
    | fail_if_no_progress (with_reducible refine follows_mk (side_of ?_))
    | with_reducible (first
        | refine follows_foldl ?_ ?_ | refine follows_ite_fst ?_ ?_ | refine follows_foldl_fst ?_ ?_)

theorem follows_execBoardSwitch {b₀ s : State} (h : b₀.Follows s) :
    b₀.Goes (execBoardSwitch s) := by
  unfold execBoardSwitch
  repeat' first
    | with_reducible (first
        | assumption | refine follows_ite ?_ ?_ | refine goes_next ?_ | apply follows_elapseToTick | apply follows_onlyIf
        | apply follows_raise)
    | (intro _; try beta_reduce)
    | (extract_lets +onlyGivenNames x_; first
        | (refine and_of (p := b₀.Follows x_) ?_ (fun h_ => ?_); (on_goal 2 => clear_value x_); (on_goal 1 => (unfold x_; clear x_)))
        | ((first | (have t_ : Boot := x_; clear t_) | (have t_ : Flash := x_; clear t_) | (have t_ : Jtag := x_; clear t_)); unfold x_; clear x_)
        | clear_value x_)
    | fail_if_no_progress (with_reducible refine follows_mk (side_of ?_))
    | with_reducible (first
        | refine follows_foldl ?_ ?_ | refine follows_ite_fst ?_ ?_ | refine follows_foldl_fst ?_ ?_ | refine goes_ite ?_ ?_
        | refine follows_of_fst (by assumption) ?_)
    | (split <;> try (rename_i e_; first
        | (refine and_of (follows_of_fst (a := b₀) e_ ?_) (fun h_ => ?_); clear e_)))

theorem follows_unhold {b₀ s : State} (h : b₀.Follows s) (port vc : Nat) (x3 : List Queued) :
    b₀.Follows (State.unhold s port vc x3) := by
  induction x3 generalizing s port vc with
  | nil =>
    unfold State.unhold
    repeat' first
      | with_reducible (first
          | assumption | refine follows_ite ?_ ?_ | apply ih_ | apply follows_toQueue)
      | (intro _; try beta_reduce)
      | fail_if_no_progress (with_reducible refine follows_mk (side_of ?_))
      | with_reducible (first
          | refine follows_foldl ?_ ?_ | refine follows_ite_fst ?_ ?_ | refine follows_foldl_fst ?_ ?_)
  | cons x_ t_ ih_ =>
    unfold State.unhold
    repeat' first
      | with_reducible (first
          | assumption | refine follows_ite ?_ ?_ | apply ih_ | apply follows_toQueue)
      | (intro _; try beta_reduce)
      | fail_if_no_progress (with_reducible refine follows_mk (side_of ?_))
      | with_reducible (first
          | refine follows_foldl ?_ ?_ | refine follows_ite_fst ?_ ?_ | refine follows_foldl_fst ?_ ?_)

theorem follows_execThrottleRelease {b₀ s : State} (h : b₀.Follows s) (port : Fin 16) (vc : Fin 6) :
    b₀.Goes (execThrottleRelease port vc s) := by
  unfold execThrottleRelease
  repeat' first
    | with_reducible (first
        | assumption | refine follows_ite ?_ ?_ | refine goes_next ?_ | apply follows_onlyIf | apply follows_unhold)
    | (intro _; try beta_reduce)

theorem follows_clearDepthMax {b₀ s : State} (h : b₀.Follows s) :
    b₀.Follows (State.clearDepthMax s) := by
  unfold State.clearDepthMax
  repeat' first
    | with_reducible (first
        | assumption | refine follows_ite ?_ ?_)
    | (intro _; try beta_reduce)
    | fail_if_no_progress (with_reducible refine follows_mk (side_of ?_))
    | with_reducible (first
        | refine follows_foldl ?_ ?_ | refine follows_ite_fst ?_ ?_ | refine follows_foldl_fst ?_ ?_)

theorem follows_writeRtr {b₀ s : State} (h : b₀.Follows s) (off : Nat) (w : Word) :
    b₀.Follows (State.writeRtr s off w).1 := by
  unfold State.writeRtr
  repeat' first
    | with_reducible (first
        | assumption | refine follows_ite ?_ ?_ | apply follows_setReg | apply follows_writeBoardCtl
        | apply follows_writeFlipCtl)
    | (intro _; try beta_reduce)
    | fail_if_no_progress (with_reducible refine follows_mk (side_of ?_))
    | with_reducible (first
        | refine follows_foldl ?_ ?_ | refine follows_ite_fst ?_ ?_ | refine follows_foldl_fst ?_ ?_)

end Sys2Proof.Machine
end

