-- ==== Sys2Proof/Laws/KeepLink.lean ====
section
/-!
SUPPORT. What the operations of Machine/Link.lean can do to the parts that `State.Follows` speaks of.
-/

namespace Sys2Proof.Machine

set_option linter.unusedTactic false
set_option linter.unreachableTactic false
set_option linter.tactic.unusedName false

theorem follows_sendFlit {b₀ s : State} (h : b₀.Follows s) (p ftype vc pstart seq : Nat) (payload : List Byte) :
    b₀.Follows (State.sendFlit s p ftype vc pstart seq payload) := by
  unfold State.sendFlit
  repeat' first
    | with_reducible (first
        | assumption | refine follows_ite ?_ ?_ | apply follows_emit | apply follows_tally)
    | (intro _; try beta_reduce)

theorem follows_sendSynthetic {b₀ s : State} (h : b₀.Follows s) (x1 : Nat × Nat × Nat × Nat) :
    b₀.Follows (State.sendSynthetic s x1).1 := by
  unfold State.sendSynthetic
  repeat' first
    | with_reducible (first
        | assumption | refine follows_ite ?_ ?_ | apply follows_chargeHost | apply follows_send)
    | (intro _; try beta_reduce)

theorem follows_synthesise {b₀ s : State} (h : b₀.Follows s) (p : Nat) (ps : List Packet) :
    b₀.Follows (State.synthesise s p ps) := by
  unfold State.synthesise
  repeat' first
    | with_reducible (first
        | assumption | refine follows_ite ?_ ?_ | apply follows_bump | apply follows_sendSynthetic)
    | (intro _; try beta_reduce)
    | (extract_lets +onlyGivenNames x_; first
        | (refine and_of (p := b₀.Follows x_) ?_ (fun h_ => ?_); (on_goal 2 => clear_value x_); (on_goal 1 => (unfold x_; clear x_)))
        | ((first | (have t_ : Boot := x_; clear t_) | (have t_ : Flash := x_; clear t_) | (have t_ : Jtag := x_; clear t_)); unfold x_; clear x_)
        | clear_value x_)
    | fail_if_no_progress (with_reducible refine follows_mk (side_of ?_))
    | with_reducible (first
        | refine follows_foldl ?_ ?_ | refine follows_ite_fst ?_ ?_ | refine follows_foldl_fst ?_ ?_
        | refine follows_of_fst (by assumption) ?_)
    | (split <;> try (rename_i e_; first
        | (refine and_of (follows_of_fst (a := b₀) e_ ?_) (fun h_ => ?_); clear e_)))

theorem follows_leaveUp {b₀ s : State} (h : b₀.Follows s) (p : Nat) (st : LinkState) :
    b₀.Follows (State.leaveUp s p st) := by
  unfold State.leaveUp
  repeat' first
    | with_reducible (first
        | assumption | refine follows_ite ?_ ?_ | apply follows_bumpHalf | apply follows_raise | apply follows_setPort
        | apply follows_setQueue | apply follows_synthesise)
    | (intro _; try beta_reduce)
    | fail_if_no_progress (with_reducible refine follows_mk (side_of ?_))
    | with_reducible (first
        | refine follows_foldl ?_ ?_ | refine follows_ite_fst ?_ ?_ | refine follows_foldl_fst ?_ ?_)

theorem follows_portDown {b₀ s : State} (h : b₀.Follows s) (p : Nat) :
    b₀.Follows (State.portDown s p) := by
  unfold State.portDown
  repeat' first
    | with_reducible (first
        | assumption | refine follows_ite ?_ ?_ | apply follows_leaveUp | apply follows_setPort)
    | (intro _; try beta_reduce)
    | (extract_lets +onlyGivenNames x_; first
        | (refine and_of (p := b₀.Follows x_) ?_ (fun h_ => ?_); (on_goal 2 => clear_value x_); (on_goal 1 => (unfold x_; clear x_)))
        | ((first | (have t_ : Boot := x_; clear t_) | (have t_ : Flash := x_; clear t_) | (have t_ : Jtag := x_; clear t_)); unfold x_; clear x_)
        | clear_value x_)
    | fail_if_no_progress (with_reducible refine follows_mk (side_of ?_))
    | with_reducible (first
        | refine follows_foldl ?_ ?_ | refine follows_ite_fst ?_ ?_ | refine follows_foldl_fst ?_ ?_
        | refine follows_of_fst (by assumption) ?_)
    | (split <;> try (rename_i e_; first
        | (refine and_of (follows_of_fst (a := b₀) e_ ?_) (fun h_ => ?_); clear e_)))

theorem follows_downNotice {b₀ s : State} (h : b₀.Follows s) (p : Nat) :
    b₀.Follows (State.downNotice s p) := by
  unfold State.downNotice
  repeat' first
    | with_reducible (first
        | assumption | refine follows_ite ?_ ?_ | apply follows_sendFlit)
    | (intro _; try beta_reduce)
    | fail_if_no_progress (with_reducible refine follows_mk (side_of ?_))
    | with_reducible (first
        | refine follows_foldl ?_ ?_ | refine follows_ite_fst ?_ ?_ | refine follows_foldl_fst ?_ ?_)

theorem follows_takeDown {b₀ s : State} (h : b₀.Follows s) (p : Nat) :
    b₀.Follows (State.takeDown s p) := by
  unfold State.takeDown
  repeat' first
    | with_reducible (first
        | assumption | refine follows_ite ?_ ?_ | apply follows_downNotice | apply follows_portDown)
    | (intro _; try beta_reduce)

theorem follows_portOff {b₀ s : State} (h : b₀.Follows s) (p : Nat) :
    b₀.Follows (State.portOff s p) := by
  unfold State.portOff
  repeat' first
    | with_reducible (first
        | assumption | refine follows_ite ?_ ?_ | apply follows_leaveUp | apply follows_setPort)
    | (intro _; try beta_reduce)

theorem follows_tryTrain {b₀ s : State} (h : b₀.Follows s) (p : Nat) :
    b₀.Follows (State.tryTrain s p) := by
  unfold State.tryTrain
  repeat' first
    | with_reducible (first
        | assumption | refine follows_ite ?_ ?_ | apply follows_trainPort)
    | (intro _; try beta_reduce)

theorem follows_portGoesUp {b₀ s : State} (h : b₀.Follows s) (p : Nat) :
    b₀.Follows (State.portGoesUp s p) := by
  unfold State.portGoesUp
  repeat' first
    | with_reducible (first
        | assumption | refine follows_ite ?_ ?_ | apply follows_raise | apply follows_setPort)
    | (intro _; try beta_reduce)
    | fail_if_no_progress (with_reducible refine follows_mk (side_of ?_))
    | with_reducible (first
        | refine follows_foldl ?_ ?_ | refine follows_ite_fst ?_ ?_ | refine follows_foldl_fst ?_ ?_)

theorem follows_execLinkTrainingDone {b₀ s : State} (h : b₀.Follows s) (port : Fin 16) :
    b₀.Goes (execLinkTrainingDone port s) := by
  unfold execLinkTrainingDone
  repeat' first
    | with_reducible (first
        | assumption | refine follows_ite ?_ ?_ | refine goes_next ?_ | apply follows_onlyIf | apply follows_portGoesUp
        | apply follows_setPort)
    | (intro _; try beta_reduce)

theorem follows_execTrainingTimeout {b₀ s : State} (h : b₀.Follows s) (port : Fin 16) :
    b₀.Goes (execTrainingTimeout port s) := by
  unfold execTrainingTimeout
  repeat' first
    | with_reducible (first
        | assumption | refine follows_ite ?_ ?_ | refine goes_next ?_ | apply follows_bumpHalf | apply follows_elapseTo
        | apply follows_onlyIf | apply follows_passTurn | apply follows_raise | apply follows_setPort)
    | (intro _; try beta_reduce)

theorem follows_execInitTimeout {b₀ s : State} (h : b₀.Follows s) (port : Fin 16) :
    b₀.Goes (execInitTimeout port s) := by
  unfold execInitTimeout
  repeat' first
    | with_reducible (first
        | assumption | refine follows_ite ?_ ?_ | refine goes_next ?_ | apply follows_elapseTo | apply follows_onlyIf
        | apply follows_passTurn | apply follows_portDown)
    | (intro _; try beta_reduce)

theorem follows_execLockLoss {b₀ s : State} (h : b₀.Follows s) (port : Fin 16) (lanes lostNs : Nat) :
    b₀.Goes (execLockLoss port lanes lostNs s) := by
  unfold execLockLoss
  repeat' first
    | with_reducible (first
        | assumption | refine follows_ite ?_ ?_ | refine goes_next ?_ | apply follows_elapse | apply follows_onlyIf
        | apply follows_portDown | apply follows_setPort)
    | (intro _; try beta_reduce)

theorem follows_execLockBlip {b₀ s : State} (h : b₀.Follows s) (port : Fin 16) (lanes lostNs : Nat) :
    b₀.Goes (execLockBlip port lanes lostNs s) := by
  unfold execLockBlip
  repeat' first
    | with_reducible (first
        | assumption | refine follows_ite ?_ ?_ | refine goes_next ?_ | apply follows_bump | apply follows_elapse
        | apply follows_onlyIf)
    | (intro _; try beta_reduce)

theorem follows_execDownHoldExpiry {b₀ s : State} (h : b₀.Follows s) (port : Fin 16) :
    b₀.Goes (execDownHoldExpiry port s) := by
  unfold execDownHoldExpiry
  repeat' first
    | with_reducible (first
        | assumption | refine follows_ite ?_ ?_ | refine goes_next ?_ | apply follows_elapseTo | apply follows_onlyIf
        | apply follows_setPort | apply follows_trainPort)
    | (intro _; try beta_reduce)

theorem follows_writeLnkCtrl {b₀ s : State} (h : b₀.Follows s) (p : Nat) (w : Word) :
    b₀.Follows (State.writeLnkCtrl s p w).1 := by
  unfold State.writeLnkCtrl
  repeat' first
    | with_reducible (first
        | assumption | refine follows_ite ?_ ?_ | apply follows_setReg | apply follows_takeDown | apply follows_tryTrain)
    | (intro _; try beta_reduce)

theorem follows_lnkSwapped {b₀ s : State} (h : b₀.Follows s) (old : RegMap) :
    b₀.Follows (State.lnkSwapped s old) := by
  unfold State.lnkSwapped
  repeat' first
    | with_reducible (first
        | assumption | refine follows_ite ?_ ?_ | apply follows_takeDown | apply follows_tryTrain)
    | (intro _; try beta_reduce)
    | fail_if_no_progress (with_reducible refine follows_mk (side_of ?_))
    | with_reducible (first
        | refine follows_foldl ?_ ?_ | refine follows_ite_fst ?_ ?_ | refine follows_foldl_fst ?_ ?_)

theorem follows_startReplay {b₀ s : State} (h : b₀.Follows s) (p : Nat) :
    b₀.Follows (State.startReplay s p) := by
  unfold State.startReplay
  repeat' first
    | with_reducible (first
        | assumption | refine follows_ite ?_ ?_ | apply follows_bump | apply follows_portDown | apply follows_raise
        | apply follows_setPort)
    | (intro _; try beta_reduce)

theorem follows_execReplayTimeout {b₀ s : State} (h : b₀.Follows s) (port : Fin 16) :
    b₀.Goes (execReplayTimeout port s) := by
  unfold execReplayTimeout
  repeat' first
    | with_reducible (first
        | assumption | refine follows_ite ?_ ?_ | refine goes_next ?_ | apply follows_elapseTo | apply follows_onlyIf
        | apply follows_startReplay)
    | (intro _; try beta_reduce)

theorem follows_execWaitTimeout {b₀ s : State} (h : b₀.Follows s) (port : Fin 16) :
    b₀.Goes (execWaitTimeout port s) := by
  unfold execWaitTimeout
  repeat' first
    | with_reducible (first
        | assumption | refine follows_ite ?_ ?_ | refine goes_next ?_ | apply follows_elapseTo | apply follows_setPort)
    | (intro _; try beta_reduce)
    | (extract_lets +onlyGivenNames x_; first
        | (refine and_of (p := b₀.Follows x_) ?_ (fun h_ => ?_); (on_goal 2 => clear_value x_); (on_goal 1 => (unfold x_; clear x_)))
        | ((first | (have t_ : Boot := x_; clear t_) | (have t_ : Flash := x_; clear t_) | (have t_ : Jtag := x_; clear t_)); unfold x_; clear x_)
        | clear_value x_)
    | fail_if_no_progress (with_reducible refine follows_mk (side_of ?_))
    | with_reducible (first
        | refine follows_foldl ?_ ?_ | refine follows_ite_fst ?_ ?_ | refine follows_foldl_fst ?_ ?_ | refine goes_ite ?_ ?_
        | refine follows_of_fst (by assumption) ?_)
    | (split <;> try (rename_i e_; first
        | (refine and_of (follows_of_fst (a := b₀) e_ ?_) (fun h_ => ?_); clear e_)))

theorem follows_onHeader {b₀ s : State} (h : b₀.Follows s) (p : Nat) (x2 : FlitHdr) :
    b₀.Follows (State.onHeader s p x2) := by
  unfold State.onHeader
  repeat' first
    | with_reducible (first
        | assumption | refine follows_ite ?_ ?_ | apply follows_setPort | apply follows_startReplay)
    | (intro _; try beta_reduce)

theorem follows_updateXoff {b₀ s : State} (h : b₀.Follows s) (p : Nat) :
    b₀.Follows (State.updateXoff s p) := by
  unfold State.updateXoff
  repeat' first
    | with_reducible (first
        | assumption | refine follows_ite ?_ ?_ | apply follows_setPort)
    | (intro _; try beta_reduce)

theorem follows_drainRx {b₀ s : State} (h : b₀.Follows s) (p : Nat) :
    b₀.Follows (State.drainRx s p) := by
  unfold State.drainRx
  repeat' first
    | with_reducible (first
        | assumption | refine follows_ite ?_ ?_ | apply follows_free | apply follows_setPort | apply follows_updateXoff)
    | (intro _; try beta_reduce)

theorem follows_framing {b₀ s : State} (h : b₀.Follows s) (p : Nat) :
    b₀.Follows (State.framing s p) := by
  unfold State.framing
  repeat' first
    | with_reducible (first
        | assumption | refine follows_ite ?_ ?_ | apply follows_bump | apply follows_raise)
    | (intro _; try beta_reduce)

theorem follows_setRx {b₀ s : State} (h : b₀.Follows s) (p vc : Nat) (x : RxVc) :
    b₀.Follows (State.setRx s p vc x) := by
  unfold State.setRx
  repeat' first
    | with_reducible (first
        | assumption | refine follows_ite ?_ ?_ | apply follows_setPort)
    | (intro _; try beta_reduce)

theorem follows_handOver {b₀ s : State} (h : b₀.Follows s) (p vc mac : Nat) (ps : List (List Byte)) :
    b₀.Follows (State.handOver s p vc mac ps) := by
  unfold State.handOver
  repeat' first
    | with_reducible (first
        | assumption | refine follows_ite ?_ ?_ | apply follows_setPort)
    | (intro _; try beta_reduce)

theorem follows_takePayload {b₀ s : State} (h : b₀.Follows s) (p vc pstart : Nat) (b : List Byte) :
    b₀.Follows (State.takePayload s p vc pstart b) := by
  unfold State.takePayload
  repeat' first
    | with_reducible (first
        | assumption | refine follows_ite ?_ ?_ | apply follows_framing | apply follows_handOver | apply follows_setRx)
    | (intro _; try beta_reduce)

theorem follows_breakRun {b₀ s : State} (h : b₀.Follows s) (p : Nat) :
    b₀.Follows (State.breakRun s p) := by
  unfold State.breakRun
  repeat' first
    | with_reducible (first
        | assumption | refine follows_ite ?_ ?_ | apply follows_setPort)
    | (intro _; try beta_reduce)

theorem follows_fecCount {b₀ s : State} (h : b₀.Follows s) (p corr uncorr : Nat) :
    b₀.Follows (State.fecCount s p corr uncorr) := by
  unfold State.fecCount
  repeat' first
    | with_reducible (first
        | assumption | refine follows_ite ?_ ?_ | apply follows_bump)
    | (intro _; try beta_reduce)

theorem follows_badFlit {b₀ s : State} (h : b₀.Follows s) (p : Nat) :
    b₀.Follows (State.badFlit s p) := by
  unfold State.badFlit
  repeat' first
    | with_reducible (first
        | assumption | refine follows_ite ?_ ?_ | apply follows_breakRun | apply follows_bump)
    | (intro _; try beta_reduce)

theorem follows_tryUp {b₀ s : State} (h : b₀.Follows s) (p : Nat) :
    b₀.Follows (State.tryUp s p) := by
  unfold State.tryUp
  repeat' first
    | with_reducible (first
        | assumption | refine follows_ite ?_ ?_ | apply follows_portGoesUp)
    | (intro _; try beta_reduce)

theorem follows_arriveFlit {b₀ s : State} (h : b₀.Follows s) (port ftype corr : Nat) (f : List Byte) (act
    : State → FlitHdr → State) (hact : ∀ s y1, b₀.Follows s → b₀.Follows (act s y1)) :
    b₀.Goes (State.arriveFlit s port ftype corr f act) := by
  unfold State.arriveFlit
  repeat' first
    | with_reducible (first
        | assumption | refine follows_ite ?_ ?_ | refine goes_next ?_ | apply hact | apply follows_badFlit
        | apply follows_drainRx | apply follows_fecCount | apply follows_onHeader | apply follows_onlyIf | apply follows_tally)
    | (intro _; try beta_reduce)
    | fail_if_no_progress (with_reducible refine follows_mk (side_of ?_))
    | with_reducible (first
        | refine follows_foldl ?_ ?_ | refine follows_ite_fst ?_ ?_ | refine follows_foldl_fst ?_ ?_ | refine goes_ite ?_ ?_)

theorem follows_seenReady {b₀ s : State} (h : b₀.Follows s) (p : Nat) :
    b₀.Follows (State.seenReady s p) := by
  unfold State.seenReady
  repeat' first
    | with_reducible (first
        | assumption | refine follows_ite ?_ ?_ | apply follows_breakRun | apply follows_setPort | apply follows_tryUp)
    | (intro _; try beta_reduce)

theorem follows_enterWait {b₀ s : State} (h : b₀.Follows s) (p : Nat) :
    b₀.Follows (State.enterWait s p) := by
  unfold State.enterWait
  repeat' first
    | with_reducible (first
        | assumption | refine follows_ite ?_ ?_ | apply follows_setPort)
    | (intro _; try beta_reduce)

theorem follows_onData {b₀ s : State} (h : b₀.Follows s) (p : Nat) (x2 : FlitHdr) (b : List Byte) :
    b₀.Follows (State.onData s p x2 b) := by
  unfold State.onData
  repeat' first
    | with_reducible (first
        | assumption | refine follows_ite ?_ ?_ | apply follows_bump | apply follows_enterWait | apply follows_raise
        | apply follows_setPort | apply follows_takePayload | apply follows_tally | apply follows_updateXoff)
    | (intro _; try beta_reduce)

theorem follows_arriveData {b₀ s : State} (h : b₀.Follows s) (port corr : Nat) (f : List Byte) :
    b₀.Goes (State.arriveData s port corr f) := by
  unfold State.arriveData
  repeat' first
    | with_reducible (first
        | assumption | refine follows_ite ?_ ?_ | refine goes_next ?_ | apply follows_arriveFlit | apply follows_onData
        | apply follows_seenReady)
    | (intro _; try beta_reduce)

theorem follows_execIdleFlitReceive {b₀ s : State} (h : b₀.Follows s) (port : Fin 16) (corr : Nat) (f : List Byte) :
    b₀.Goes (execIdleFlitReceive port corr f s) := by
  unfold execIdleFlitReceive
  repeat' first
    | with_reducible (first
        | assumption | refine follows_ite ?_ ?_ | refine goes_next ?_ | apply follows_arriveFlit | apply follows_seenReady)
    | (intro _; try beta_reduce)

theorem follows_execInitFlitReceive {b₀ s : State} (h : b₀.Follows s) (port : Fin 16) (corr : Nat) (f : List Byte) :
    b₀.Goes (execInitFlitReceive port corr f s) := by
  unfold execInitFlitReceive
  repeat' first
    | with_reducible (first
        | assumption | refine follows_ite ?_ ?_ | refine goes_next ?_ | apply follows_arriveFlit | apply follows_breakRun
        | apply follows_setPort | apply follows_tryUp)
    | (intro _; try beta_reduce)

theorem follows_execDownFlitReceive {b₀ s : State} (h : b₀.Follows s) (port : Fin 16) (corr : Nat) (f : List Byte) :
    b₀.Goes (execDownFlitReceive port corr f s) := by
  unfold execDownFlitReceive
  repeat' first
    | with_reducible (first
        | assumption | refine follows_ite ?_ ?_ | refine goes_next ?_ | apply follows_arriveFlit | apply follows_breakRun
        | apply follows_portDown)
    | (intro _; try beta_reduce)

theorem follows_execBadFlitReceive {b₀ s : State} (h : b₀.Follows s) (port : Fin 16) (corr uncorr : Nat) :
    b₀.Goes (execBadFlitReceive port corr uncorr s) := by
  unfold execBadFlitReceive
  repeat' first
    | with_reducible (first
        | assumption | refine follows_ite ?_ ?_ | refine goes_next ?_ | apply follows_badFlit | apply follows_fecCount
        | apply follows_onlyIf)
    | (intro _; try beta_reduce)

theorem follows_chargeShaper {b₀ s : State} (h : b₀.Follows s) (p q n : Nat) :
    b₀.Follows (State.chargeShaper s p q n) := by
  unfold State.chargeShaper
  repeat' first
    | with_reducible (first
        | assumption | refine follows_ite ?_ ?_ | apply follows_setShaper)
    | (intro _; try beta_reduce)

theorem follows_setDeficit {b₀ s : State} (h : b₀.Follows s) (p q n : Nat) :
    b₀.Follows (State.setDeficit s p q n) := by
  unfold State.setDeficit
  repeat' first
    | with_reducible (first
        | assumption | refine follows_ite ?_ ?_)
    | (intro _; try beta_reduce)
    | fail_if_no_progress (with_reducible refine follows_mk (side_of ?_))
    | with_reducible (first
        | refine follows_foldl ?_ ?_ | refine follows_ite_fst ?_ ?_ | refine follows_foldl_fst ?_ ?_)

theorem follows_drr {b₀ s : State} (h : b₀.Follows s) (p vc : Nat) (may : Nat → Option Queued) (fuel i : Nat) (fresh : Bool) :
    b₀.Follows (State.drr s p vc may fuel i fresh).1 := by
  induction fuel generalizing s p vc may i fresh with
  | zero =>
    unfold State.drr
    repeat' first
      | with_reducible (first
          | assumption | refine follows_ite ?_ ?_ | apply ih_ | apply hf0_ | apply follows_setDeficit)
      | (intro _; try beta_reduce)
      | (extract_lets +onlyGivenNames x_; first
          | (refine and_of (p := ∀ s, b₀.Follows s → b₀.Follows (x_ s).1) ?_ (fun hf0_ => ?_); (on_goal 2 => clear_value x_); (on_goal 1 => (unfold x_; clear x_)))
          | (refine and_of (p := b₀.Follows x_) ?_ (fun h_ => ?_); (on_goal 2 => clear_value x_); (on_goal 1 => (unfold x_; clear x_)))
          | ((first | (have t_ : Boot := x_; clear t_) | (have t_ : Flash := x_; clear t_) | (have t_ : Jtag := x_; clear t_)); unfold x_; clear x_)
          | clear_value x_)
      | fail_if_no_progress (with_reducible refine follows_mk (side_of ?_))
      | with_reducible (first
          | refine follows_foldl ?_ ?_ | refine follows_ite_fst ?_ ?_ | refine follows_foldl_fst ?_ ?_
          | refine follows_of_fst (by assumption) ?_)
      | (split <;> try (rename_i e_; first
          | (refine and_of (follows_of_fst (a := b₀) e_ ?_) (fun h_ => ?_); clear e_)))
  | succ n_ ih_ =>
    unfold State.drr
    repeat' first
      | with_reducible (first
          | assumption | refine follows_ite ?_ ?_ | apply ih_ | apply hf0_ | apply follows_setDeficit)
      | (intro _; try beta_reduce)
      | (extract_lets +onlyGivenNames x_; first
          | (refine and_of (p := ∀ s, b₀.Follows s → b₀.Follows (x_ s).1) ?_ (fun hf0_ => ?_); (on_goal 2 => clear_value x_); (on_goal 1 => (unfold x_; clear x_)))
          | (refine and_of (p := b₀.Follows x_) ?_ (fun h_ => ?_); (on_goal 2 => clear_value x_); (on_goal 1 => (unfold x_; clear x_)))
          | ((first | (have t_ : Boot := x_; clear t_) | (have t_ : Flash := x_; clear t_) | (have t_ : Jtag := x_; clear t_)); unfold x_; clear x_)
          | clear_value x_)
      | fail_if_no_progress (with_reducible refine follows_mk (side_of ?_))
      | with_reducible (first
          | refine follows_foldl ?_ ?_ | refine follows_ite_fst ?_ ?_ | refine follows_foldl_fst ?_ ?_
          | refine follows_of_fst (by assumption) ?_)
      | (split <;> try (rename_i e_; first
          | (refine and_of (follows_of_fst (a := b₀) e_ ?_) (fun h_ => ?_); clear e_)))

theorem follows_round {b₀ s : State} (h : b₀.Follows s) (p vc : Nat) (may : Nat → Option Queued) :
    b₀.Follows (State.round s p vc may).1 := by
  unfold State.round
  repeat' first
    | with_reducible (first
        | assumption | refine follows_ite ?_ ?_ | apply follows_drr)
    | (intro _; try beta_reduce)

theorem follows_stampSync {b₀ s : State} (h : b₀.Follows s) (x : Queued) :
    b₀.Follows (State.stampSync s x).1 := by
  unfold State.stampSync
  repeat' first
    | with_reducible (first
        | assumption | refine follows_ite ?_ ?_)
    | (intro _; try beta_reduce)
    | (extract_lets +onlyGivenNames x_; first
        | (refine and_of (p := b₀.Follows x_) ?_ (fun h_ => ?_); (on_goal 2 => clear_value x_); (on_goal 1 => (unfold x_; clear x_)))
        | ((first | (have t_ : Boot := x_; clear t_) | (have t_ : Flash := x_; clear t_) | (have t_ : Jtag := x_; clear t_)); unfold x_; clear x_)
        | clear_value x_)
    | fail_if_no_progress (with_reducible refine follows_mk (side_of ?_))
    | with_reducible (first
        | refine follows_foldl ?_ ?_ | refine follows_ite_fst ?_ ?_ | refine follows_foldl_fst ?_ ?_
        | refine follows_of_fst (by assumption) ?_)
    | (split <;> try (rename_i e_; first
        | (refine and_of (follows_of_fst (a := b₀) e_ ?_) (fun h_ => ?_); clear e_)))

theorem follows_startPacket {b₀ s : State} (h : b₀.Follows s) (p q vc : Nat) (x : Queued) (rest : List Queued) :
    b₀.Follows (State.startPacket s p q vc x rest) := by
  unfold State.startPacket
  repeat' first
    | with_reducible (first
        | assumption | refine follows_ite ?_ ?_ | apply follows_chargeShaper | apply follows_fromBeam | apply follows_setDeficit
        | apply follows_setPort | apply follows_setQueue | apply follows_stampSync | apply follows_tally)
    | (intro _; try beta_reduce)

theorem follows_beginHead {b₀ s : State} (h : b₀.Follows s) (p vc q : Nat) :
    b₀.Follows (State.beginHead s p vc q) := by
  unfold State.beginHead
  repeat' first
    | with_reducible (first
        | assumption | refine follows_ite ?_ ?_ | apply follows_startPacket)
    | (intro _; try beta_reduce)
    | (extract_lets +onlyGivenNames x_; first
        | (refine and_of (p := b₀.Follows x_) ?_ (fun h_ => ?_); (on_goal 2 => clear_value x_); (on_goal 1 => (unfold x_; clear x_)))
        | ((first | (have t_ : Boot := x_; clear t_) | (have t_ : Flash := x_; clear t_) | (have t_ : Jtag := x_; clear t_)); unfold x_; clear x_)
        | clear_value x_)
    | fail_if_no_progress (with_reducible refine follows_mk (side_of ?_))
    | with_reducible (first
        | refine follows_foldl ?_ ?_ | refine follows_ite_fst ?_ ?_ | refine follows_foldl_fst ?_ ?_
        | refine follows_of_fst (by assumption) ?_)
    | (split <;> try (rename_i e_; first
        | (refine and_of (follows_of_fst (a := b₀) e_ ?_) (fun h_ => ?_); clear e_)))

theorem follows_startNext {b₀ s : State} (h : b₀.Follows s) (p vc : Nat) (win : Option (BoardWin × Nat)) :
    b₀.Follows (State.startNext s p vc win) := by
  unfold State.startNext
  repeat' first
    | with_reducible (first
        | assumption | refine follows_ite ?_ ?_ | apply follows_beginHead | apply follows_bump | apply follows_round
        | apply follows_startPacket)
    | (intro _; try beta_reduce)
    | (extract_lets +onlyGivenNames x_; first
        | (refine and_of (p := b₀.Follows x_) ?_ (fun h_ => ?_); (on_goal 2 => clear_value x_); (on_goal 1 => (unfold x_; clear x_)))
        | ((first | (have t_ : Boot := x_; clear t_) | (have t_ : Flash := x_; clear t_) | (have t_ : Jtag := x_; clear t_)); unfold x_; clear x_)
        | clear_value x_)
    | fail_if_no_progress (with_reducible refine follows_mk (side_of ?_))
    | with_reducible (first
        | refine follows_foldl ?_ ?_ | refine follows_ite_fst ?_ ?_ | refine follows_foldl_fst ?_ ?_
        | refine follows_of_fst (by assumption) ?_)
    | (split <;> try (rename_i e_; first
        | (refine and_of (follows_of_fst (a := b₀) e_ ?_) (fun h_ => ?_); clear e_)))

theorem follows_packetSent {b₀ s : State} (h : b₀.Follows s) (p vc : Nat) (x : Queued) :
    b₀.Follows (State.packetSent s p vc x) := by
  unfold State.packetSent
  repeat' first
    | with_reducible (first
        | assumption | refine follows_ite ?_ ?_ | apply follows_setPort | apply follows_tally)
    | (intro _; try beta_reduce)
    | fail_if_no_progress (with_reducible refine follows_mk (side_of ?_))
    | with_reducible (first
        | refine follows_foldl ?_ ?_ | refine follows_ite_fst ?_ ?_ | refine follows_foldl_fst ?_ ?_)

theorem follows_fill {b₀ s : State} (h : b₀.Follows s) (p vc : Nat) (win : Option (BoardWin × Nat)) (fuel : Nat) (acc
    : List Byte) (pstart : Nat) (ends : List Packet) :
    b₀.Follows (State.fill s p vc win fuel acc pstart ends).1 := by
  induction fuel generalizing s p vc win acc pstart ends with
  | zero =>
    unfold State.fill
    repeat' first
      | with_reducible (first
          | assumption | refine follows_ite ?_ ?_ | apply ih_ | apply follows_packetSent | apply follows_setPort
          | apply follows_startNext)
      | (intro _; try beta_reduce)
      | (extract_lets +onlyGivenNames x_; first
          | (refine and_of (p := b₀.Follows x_) ?_ (fun h_ => ?_); (on_goal 2 => clear_value x_); (on_goal 1 => (unfold x_; clear x_)))
          | ((first | (have t_ : Boot := x_; clear t_) | (have t_ : Flash := x_; clear t_) | (have t_ : Jtag := x_; clear t_)); unfold x_; clear x_)
          | clear_value x_)
      | fail_if_no_progress (with_reducible refine follows_mk (side_of ?_))
      | with_reducible (first
          | refine follows_foldl ?_ ?_ | refine follows_ite_fst ?_ ?_ | refine follows_foldl_fst ?_ ?_
          | refine follows_of_fst (by assumption) ?_)
      | (split <;> try (rename_i e_; first
          | (refine and_of (follows_of_fst (a := b₀) e_ ?_) (fun h_ => ?_); clear e_)))
  | succ n_ ih_ =>
    unfold State.fill
    repeat' first
      | with_reducible (first
          | assumption | refine follows_ite ?_ ?_ | apply ih_ | apply follows_packetSent | apply follows_setPort
          | apply follows_startNext)
      | (intro _; try beta_reduce)
      | (extract_lets +onlyGivenNames x_; first
          | (refine and_of (p := b₀.Follows x_) ?_ (fun h_ => ?_); (on_goal 2 => clear_value x_); (on_goal 1 => (unfold x_; clear x_)))
          | ((first | (have t_ : Boot := x_; clear t_) | (have t_ : Flash := x_; clear t_) | (have t_ : Jtag := x_; clear t_)); unfold x_; clear x_)
          | clear_value x_)
      | fail_if_no_progress (with_reducible refine follows_mk (side_of ?_))
      | with_reducible (first
          | refine follows_foldl ?_ ?_ | refine follows_ite_fst ?_ ?_ | refine follows_foldl_fst ?_ ?_
          | refine follows_of_fst (by assumption) ?_)
      | (split <;> try (rename_i e_; first
          | (refine and_of (follows_of_fst (a := b₀) e_ ?_) (fun h_ => ?_); clear e_)))

theorem follows_sendData {b₀ s : State} (h : b₀.Follows s) (p vc : Nat) (win : Option (BoardWin × Nat)) :
    b₀.Follows (State.sendData s p vc win) := by
  unfold State.sendData
  repeat' first
    | with_reducible (first
        | assumption | refine follows_ite ?_ ?_ | apply follows_fill | apply follows_sendFlit | apply follows_setPort)
    | (intro _; try beta_reduce)

theorem follows_served {b₀ s : State} (h : b₀.Follows s) (p vc : Nat) :
    b₀.Follows (State.served s p vc) := by
  unfold State.served
  repeat' first
    | with_reducible (first
        | assumption | refine follows_ite ?_ ?_)
    | (intro _; try beta_reduce)
    | fail_if_no_progress (with_reducible refine follows_mk (side_of ?_))
    | with_reducible (first
        | refine follows_foldl ?_ ?_ | refine follows_ite_fst ?_ ?_ | refine follows_foldl_fst ?_ ?_)

theorem follows_resendFlit {b₀ s : State} (h : b₀.Follows s) (p : Nat) (l : List Held) :
    b₀.Follows (State.resendFlit s p l) := by
  unfold State.resendFlit
  repeat' first
    | with_reducible (first
        | assumption | refine follows_ite ?_ ?_ | apply follows_sendFlit | apply follows_setPort | apply follows_startReplay)
    | (intro _; try beta_reduce)
    | (extract_lets +onlyGivenNames x_; first
        | (refine and_of (p := b₀.Follows x_) ?_ (fun h_ => ?_); (on_goal 2 => clear_value x_); (on_goal 1 => (unfold x_; clear x_)))
        | ((first | (have t_ : Boot := x_; clear t_) | (have t_ : Flash := x_; clear t_) | (have t_ : Jtag := x_; clear t_)); unfold x_; clear x_)
        | clear_value x_)
    | fail_if_no_progress (with_reducible refine follows_mk (side_of ?_))
    | with_reducible (first
        | refine follows_foldl ?_ ?_ | refine follows_ite_fst ?_ ?_ | refine follows_foldl_fst ?_ ?_
        | refine follows_of_fst (by assumption) ?_)
    | (split <;> try (rename_i e_; first
        | (refine and_of (follows_of_fst (a := b₀) e_ ?_) (fun h_ => ?_); clear e_)))

theorem follows_pack {b₀ s : State} (h : b₀.Follows s) (p vc mac fuel : Nat) (acc : List Byte) :
    b₀.Follows (State.pack s p vc mac fuel acc).1 := by
  induction fuel generalizing s p vc mac acc with
  | zero =>
    unfold State.pack
    repeat' first
      | with_reducible (first
          | assumption | refine follows_ite ?_ ?_ | apply ih_ | apply follows_packetSent | apply follows_startNext)
      | (intro _; try beta_reduce)
      | (extract_lets +onlyGivenNames x_; first
          | (refine and_of (p := b₀.Follows x_) ?_ (fun h_ => ?_); (on_goal 2 => clear_value x_); (on_goal 1 => (unfold x_; clear x_)))
          | ((first | (have t_ : Boot := x_; clear t_) | (have t_ : Flash := x_; clear t_) | (have t_ : Jtag := x_; clear t_)); unfold x_; clear x_)
          | clear_value x_)
      | fail_if_no_progress (with_reducible refine follows_mk (side_of ?_))
      | with_reducible (first
          | refine follows_foldl ?_ ?_ | refine follows_ite_fst ?_ ?_ | refine follows_foldl_fst ?_ ?_
          | refine follows_of_fst (by assumption) ?_)
      | (split <;> try (rename_i e_; first
          | (refine and_of (follows_of_fst (a := b₀) e_ ?_) (fun h_ => ?_); clear e_)))
  | succ n_ ih_ =>
    unfold State.pack
    repeat' first
      | with_reducible (first
          | assumption | refine follows_ite ?_ ?_ | apply ih_ | apply follows_packetSent | apply follows_startNext)
      | (intro _; try beta_reduce)
      | (extract_lets +onlyGivenNames x_; first
          | (refine and_of (p := b₀.Follows x_) ?_ (fun h_ => ?_); (on_goal 2 => clear_value x_); (on_goal 1 => (unfold x_; clear x_)))
          | ((first | (have t_ : Boot := x_; clear t_) | (have t_ : Flash := x_; clear t_) | (have t_ : Jtag := x_; clear t_)); unfold x_; clear x_)
          | clear_value x_)
      | fail_if_no_progress (with_reducible refine follows_mk (side_of ?_))
      | with_reducible (first
          | refine follows_foldl ?_ ?_ | refine follows_ite_fst ?_ ?_ | refine follows_foldl_fst ?_ ?_
          | refine follows_of_fst (by assumption) ?_)
      | (split <;> try (rename_i e_; first
          | (refine and_of (follows_of_fst (a := b₀) e_ ?_) (fun h_ => ?_); clear e_)))

theorem follows_sendFrame {b₀ s : State} (h : b₀.Follows s) (p vc : Nat) :
    b₀.Follows (State.sendFrame s p vc) := by
  unfold State.sendFrame
  repeat' first
    | with_reducible (first
        | assumption | refine follows_ite ?_ ?_ | apply follows_emit | apply follows_pack | apply follows_packetSent
        | apply follows_setPort | apply follows_startNext | apply follows_tally)
    | (intro _; try beta_reduce)
    | (extract_lets +onlyGivenNames x_; first
        | (refine and_of (p := b₀.Follows x_) ?_ (fun h_ => ?_); (on_goal 2 => clear_value x_); (on_goal 1 => (unfold x_; clear x_)))
        | ((first | (have t_ : Boot := x_; clear t_) | (have t_ : Flash := x_; clear t_) | (have t_ : Jtag := x_; clear t_)); unfold x_; clear x_)
        | clear_value x_)
    | fail_if_no_progress (with_reducible refine follows_mk (side_of ?_))
    | with_reducible (first
        | refine follows_foldl ?_ ?_ | refine follows_ite_fst ?_ ?_ | refine follows_foldl_fst ?_ ?_
        | refine follows_of_fst (by assumption) ?_)
    | (split <;> try (rename_i e_; first
        | (refine and_of (follows_of_fst (a := b₀) e_ ?_) (fun h_ => ?_); clear e_)))

theorem follows_slotUp {b₀ s : State} (h : b₀.Follows s) (p : Nat) :
    b₀.Follows (State.slotUp s p) := by
  unfold State.slotUp
  repeat' first
    | with_reducible (first
        | assumption | refine follows_ite ?_ ?_ | apply follows_resendFlit | apply follows_sendData | apply follows_sendFlit
        | apply follows_sendFrame | apply follows_served)
    | (intro _; try beta_reduce)
    | (extract_lets +onlyGivenNames x_; first
        | (refine and_of (p := b₀.Follows x_) ?_ (fun h_ => ?_); (on_goal 2 => clear_value x_); (on_goal 1 => (unfold x_; clear x_)))
        | ((first | (have t_ : Boot := x_; clear t_) | (have t_ : Flash := x_; clear t_) | (have t_ : Jtag := x_; clear t_)); unfold x_; clear x_)
        | clear_value x_)
    | fail_if_no_progress (with_reducible refine follows_mk (side_of ?_))
    | with_reducible (first
        | refine follows_foldl ?_ ?_ | refine follows_ite_fst ?_ ?_ | refine follows_foldl_fst ?_ ?_
        | refine follows_of_fst (by assumption) ?_)
    | (split <;> try (rename_i e_; first
        | (refine and_of (follows_of_fst (a := b₀) e_ ?_) (fun h_ => ?_); clear e_)))

theorem follows_execFlitSlot {b₀ s : State} (h : b₀.Follows s) (port : Fin 16) :
    b₀.Goes (execFlitSlot port s) := by
  unfold execFlitSlot
  repeat' first
    | with_reducible (first
        | assumption | refine follows_ite ?_ ?_ | refine goes_next ?_ | apply follows_sendFlit | apply follows_slotUp)
    | (intro _; try beta_reduce)
    | (extract_lets +onlyGivenNames x_; first
        | (refine and_of (p := b₀.Follows x_) ?_ (fun h_ => ?_); (on_goal 2 => clear_value x_); (on_goal 1 => (unfold x_; clear x_)))
        | ((first | (have t_ : Boot := x_; clear t_) | (have t_ : Flash := x_; clear t_) | (have t_ : Jtag := x_; clear t_)); unfold x_; clear x_)
        | clear_value x_)
    | fail_if_no_progress (with_reducible refine follows_mk (side_of ?_))
    | with_reducible (first
        | refine follows_foldl ?_ ?_ | refine follows_ite_fst ?_ ?_ | refine follows_foldl_fst ?_ ?_ | refine goes_ite ?_ ?_
        | refine follows_of_fst (by assumption) ?_)
    | (split <;> try (rename_i e_; first
        | (refine and_of (follows_of_fst (a := b₀) e_ ?_) (fun h_ => ?_); clear e_)))

theorem follows_updatePfc {b₀ s : State} (h : b₀.Follows s) (p : Nat) :
    b₀.Follows (State.updatePfc s p) := by
  unfold State.updatePfc
  repeat' first
    | with_reducible (first
        | assumption | refine follows_ite ?_ ?_ | apply follows_emit | apply follows_setPort)
    | (intro _; try beta_reduce)
    | fail_if_no_progress (with_reducible refine follows_mk (side_of ?_))
    | with_reducible (first
        | refine follows_foldl ?_ ?_ | refine follows_ite_fst ?_ ?_ | refine follows_foldl_fst ?_ ?_)

theorem follows_takeSegment {b₀ s : State} (h : b₀.Follows s) (p src vc mac off : Nat) (first last : Bool) (b : List Byte) :
    b₀.Follows (State.takeSegment s p src vc mac off first last b) := by
  unfold State.takeSegment
  repeat' first
    | with_reducible (first
        | assumption | refine follows_ite ?_ ?_ | apply follows_handOver | apply follows_setPort)
    | (intro _; try beta_reduce)
    | (extract_lets +onlyGivenNames x_; first
        | (refine and_of (p := b₀.Follows x_) ?_ (fun h_ => ?_); (on_goal 2 => clear_value x_); (on_goal 1 => (unfold x_; clear x_)))
        | ((first | (have t_ : Boot := x_; clear t_) | (have t_ : Flash := x_; clear t_) | (have t_ : Jtag := x_; clear t_)); unfold x_; clear x_)
        | clear_value x_)
    | fail_if_no_progress (with_reducible refine follows_mk (side_of ?_))
    | with_reducible (first
        | refine follows_foldl ?_ ?_ | refine follows_ite_fst ?_ ?_ | refine follows_foldl_fst ?_ ?_
        | refine follows_of_fst (by assumption) ?_)
    | (split <;> try (rename_i e_; first
        | (refine and_of (follows_of_fst (a := b₀) e_ ?_) (fun h_ => ?_); clear e_)))

theorem follows_arriveFrame {b₀ s : State} (h : b₀.Follows s) (port corr uncorr : Nat) (f : List Byte) (fcsOk : Bool) :
    b₀.Goes (State.arriveFrame s port corr uncorr f fcsOk) := by
  unfold State.arriveFrame
  repeat' first
    | with_reducible (first
        | assumption | refine follows_ite ?_ ?_ | refine goes_next ?_ | apply follows_bump | apply follows_drainRx
        | apply follows_fecCount | apply follows_framing | apply follows_handOver | apply follows_onlyIf | apply follows_raise
        | apply follows_setRx | apply follows_takeSegment | apply follows_tally | apply follows_updatePfc
        | apply follows_updateXoff)
    | (intro _; try beta_reduce)

theorem follows_execPfcFrameReceive {b₀ s : State} (h : b₀.Follows s) (port : Fin 16) (quanta : List (Fin 8 × BitVec 16)) :
    b₀.Goes (execPfcFrameReceive port quanta s) := by
  unfold execPfcFrameReceive
  repeat' first
    | with_reducible (first
        | assumption | refine follows_ite ?_ ?_ | refine goes_next ?_ | apply follows_onlyIf | apply follows_setPort)
    | (intro _; try beta_reduce)

theorem follows_execPfcPauseExpiry {b₀ s : State} (h : b₀.Follows s) (port : Fin 16) :
    b₀.Goes (execPfcPauseExpiry port s) := by
  unfold execPfcPauseExpiry
  repeat' first
    | with_reducible (first
        | assumption | refine follows_ite ?_ ?_ | refine goes_next ?_ | apply follows_elapseTo | apply follows_setPort)
    | (intro _; try beta_reduce)
    | (extract_lets +onlyGivenNames x_; first
        | (refine and_of (p := b₀.Follows x_) ?_ (fun h_ => ?_); (on_goal 2 => clear_value x_); (on_goal 1 => (unfold x_; clear x_)))
        | ((first | (have t_ : Boot := x_; clear t_) | (have t_ : Flash := x_; clear t_) | (have t_ : Jtag := x_; clear t_)); unfold x_; clear x_)
        | clear_value x_)
    | fail_if_no_progress (with_reducible refine follows_mk (side_of ?_))
    | with_reducible (first
        | refine follows_foldl ?_ ?_ | refine follows_ite_fst ?_ ?_ | refine follows_foldl_fst ?_ ?_ | refine goes_ite ?_ ?_
        | refine follows_of_fst (by assumption) ?_)
    | (split <;> try (rename_i e_; first
        | (refine and_of (follows_of_fst (a := b₀) e_ ?_) (fun h_ => ?_); clear e_)))

theorem follows_execPfcRefresh {b₀ s : State} (h : b₀.Follows s) (port : Fin 16) :
    b₀.Goes (execPfcRefresh port s) := by
  unfold execPfcRefresh
  repeat' first
    | with_reducible (first
        | assumption | refine follows_ite ?_ ?_ | refine goes_next ?_ | apply follows_drainRx | apply follows_elapseTo
        | apply follows_emit | apply follows_setPort | apply follows_updatePfc)
    | (intro _; try beta_reduce)
    | (extract_lets +onlyGivenNames x_; first
        | (refine and_of (p := b₀.Follows x_) ?_ (fun h_ => ?_); (on_goal 2 => clear_value x_); (on_goal 1 => (unfold x_; clear x_)))
        | ((first | (have t_ : Boot := x_; clear t_) | (have t_ : Flash := x_; clear t_) | (have t_ : Jtag := x_; clear t_)); unfold x_; clear x_)
        | clear_value x_)
    | fail_if_no_progress (with_reducible refine follows_mk (side_of ?_))
    | with_reducible (first
        | refine follows_foldl ?_ ?_ | refine follows_ite_fst ?_ ?_ | refine follows_foldl_fst ?_ ?_ | refine goes_ite ?_ ?_
        | refine follows_of_fst (by assumption) ?_)
    | (split <;> try (rename_i e_; first
        | (refine and_of (follows_of_fst (a := b₀) e_ ?_) (fun h_ => ?_); clear e_)))

end Sys2Proof.Machine
end

