-- ==== Sys2Proof/Laws/Does.lean ====
section
/-!
SUPPORT. `State.Follows` for what a rod's instruction comes to.
-/

namespace Sys2Proof.Machine

/-- The state an instruction leaves, where it leaves one, follows `a`. -/
inductive State.Does (a : State) : Did → Prop
  | done {s : State} {ev : Nat} {pc : Option Nat} (h : a.Follows s) : State.Does a (.done s ev pc)
  | ended {s : State} (h : a.Follows s) : State.Does a (.ended s)
  | hold {s : State} (h : a.Follows s) : State.Does a (.hold s)
  | fault {code : Nat} : State.Does a (.fault code)
  | poison : State.Does a .poison
  | stall : State.Does a .stall

theorem does_ite {a : State} {x y : Did} {c : Prop} {_ : Decidable c} (hx : a.Does x) (hy : a.Does y) :
    a.Does (if c then x else y) := by split <;> assumption

theorem follows_of_done {a s : State} {d : Did} {ev : Nat} {pc : Option Nat} (e : d = .done s ev pc) (h : a.Does d) :
    a.Follows s := by subst e; cases h; assumption

theorem follows_of_ended {a s : State} {d : Did} (e : d = .ended s) (h : a.Does d) : a.Follows s := by
  subst e; cases h; assumption

theorem follows_of_hold {a s : State} {d : Did} (e : d = .hold s) (h : a.Does d) : a.Follows s := by
  subst e; cases h; assumption

end Sys2Proof.Machine
end

