-- ==== Sys2Proof/Laws/KeepRods.lean ====
section
/-!
SUPPORT. What the operations of Machine/Rods.lean can do to the parts that `State.Follows` speaks of.
-/

namespace Sys2Proof.Machine

set_option linter.unusedTactic false
set_option linter.unreachableTactic false
set_option linter.tactic.unusedName false

theorem follows_setRegs {b₀ s : State} (h : b₀.Follows s) (i : Nat) (f : RodRegs → RodRegs) :
    b₀.Follows (State.setRegs s i f) := by
  unfold State.setRegs
  repeat' first
    | with_reducible (first
        | assumption | refine follows_ite ?_ ?_ | apply follows_setRod)
    | (intro _; try beta_reduce)

theorem follows_checkParity {b₀ s : State} (h : b₀.Follows s) (i : Nat) (x : Reads) :
    b₀.Follows (State.checkParity s i x) := by
  unfold State.checkParity
  repeat' first
    | with_reducible (first
        | assumption | refine follows_ite ?_ ?_ | apply follows_setReg | apply follows_setRegs)
    | (intro _; try beta_reduce)

theorem follows_logLines {b₀ s : State} (h : b₀.Follows s) (i off n : Nat) :
    b₀.Follows (State.logLines s i off n) := by
  unfold State.logLines
  repeat' first
    | with_reducible (first
        | assumption | refine follows_ite ?_ ?_ | apply follows_checkScratch | apply follows_endCheck | apply follows_setCheck)
    | (intro _; try beta_reduce)
    | (extract_lets +onlyGivenNames x_; first
        | (refine and_of (p := b₀.Follows x_) ?_ (fun h_ => ?_); (on_goal 2 => clear_value x_); (on_goal 1 => (unfold x_; clear x_)))
        | ((first | (have t_ : Boot := x_; clear t_) | (have t_ : Flash := x_; clear t_) | (have t_ : Jtag := x_; clear t_)); unfold x_; clear x_)
        | clear_value x_)
    | fail_if_no_progress (with_reducible refine follows_mk (side_of ?_))
    | with_reducible (first
        | refine follows_foldl ?_ ?_ | refine follows_ite_fst ?_ ?_ | refine follows_foldl_fst ?_ ?_
        | refine follows_of_fst (by assumption) ?_)
    | (split <;> try (rename_i e_; first
        | (refine and_of (follows_of_fst (a := b₀) e_ ?_) (fun h_ => ?_); clear e_)))

theorem follows_noteWrite {b₀ s : State} (h : b₀.Follows s) (i addr : Nat) (b : List Byte) (poison : Bool) :
    b₀.Follows (State.noteWrite s i addr b poison) := by
  unfold State.noteWrite
  repeat' first
    | with_reducible (first
        | assumption | refine follows_ite ?_ ?_ | apply follows_setCheck)
    | (intro _; try beta_reduce)
    | (extract_lets +onlyGivenNames x_; first
        | (refine and_of (p := b₀.Follows x_) ?_ (fun h_ => ?_); (on_goal 2 => clear_value x_); (on_goal 1 => (unfold x_; clear x_)))
        | ((first | (have t_ : Boot := x_; clear t_) | (have t_ : Flash := x_; clear t_) | (have t_ : Jtag := x_; clear t_)); unfold x_; clear x_)
        | clear_value x_)
    | fail_if_no_progress (with_reducible refine follows_mk (side_of ?_))
    | with_reducible (first
        | refine follows_foldl ?_ ?_ | refine follows_ite_fst ?_ ?_ | refine follows_foldl_fst ?_ ?_
        | refine follows_of_fst (by assumption) ?_)
    | (split <;> try (rename_i e_; first
        | (refine and_of (follows_of_fst (a := b₀) e_ ?_) (fun h_ => ?_); clear e_)))

theorem follows_scratchWrite {b₀ s : State} (h : b₀.Follows s) (i off : Nat) (b : List Byte) (poison : Bool) :
    b₀.Follows (State.scratchWrite s i off b poison) := by
  unfold State.scratchWrite
  repeat' first
    | with_reducible (first
        | assumption | refine follows_ite ?_ ?_ | apply follows_logLines | apply follows_noteWrite | apply follows_setRod)
    | (intro _; try beta_reduce)

theorem follows_scratchStore {b₀ s : State} (h : b₀.Follows s) (i off : Nat) (b : List Byte) (poison : Bool) :
    b₀.Follows (State.scratchStore s i off b poison) := by
  unfold State.scratchStore
  repeat' first
    | with_reducible (first
        | assumption | refine follows_ite ?_ ?_ | apply follows_setCheck | apply follows_setRod)
    | (intro _; try beta_reduce)
    | (extract_lets +onlyGivenNames x_; first
        | (refine and_of (p := b₀.Follows x_) ?_ (fun h_ => ?_); (on_goal 2 => clear_value x_); (on_goal 1 => (unfold x_; clear x_)))
        | ((first | (have t_ : Boot := x_; clear t_) | (have t_ : Flash := x_; clear t_) | (have t_ : Jtag := x_; clear t_)); unfold x_; clear x_)
        | clear_value x_)
    | fail_if_no_progress (with_reducible refine follows_mk (side_of ?_))
    | with_reducible (first
        | refine follows_foldl ?_ ?_ | refine follows_ite_fst ?_ ?_ | refine follows_foldl_fst ?_ ?_
        | refine follows_of_fst (by assumption) ?_)
    | (split <;> try (rename_i e_; first
        | (refine and_of (follows_of_fst (a := b₀) e_ ?_) (fun h_ => ?_); clear e_)))

theorem follows_outgoing {b₀ s : State} (h : b₀.Follows s) (i addr : Nat) (w : OutWrite) (b : List Byte) (poison : Bool) :
    b₀.Follows (State.outgoing s i addr w b poison) := by
  unfold State.outgoing
  repeat' first
    | with_reducible (first
        | assumption | refine follows_ite ?_ ?_ | apply follows_noteWrite | apply follows_perform | apply follows_setCheck
        | apply follows_setRod)
    | (intro _; try beta_reduce)
    | (extract_lets +onlyGivenNames x_; first
        | (refine and_of (p := b₀.Follows x_) ?_ (fun h_ => ?_); (on_goal 2 => clear_value x_); (on_goal 1 => (unfold x_; clear x_)))
        | ((first | (have t_ : Boot := x_; clear t_) | (have t_ : Flash := x_; clear t_) | (have t_ : Jtag := x_; clear t_)); unfold x_; clear x_)
        | clear_value x_)
    | fail_if_no_progress (with_reducible refine follows_mk (side_of ?_))
    | with_reducible (first
        | refine follows_foldl ?_ ?_ | refine follows_ite_fst ?_ ?_ | refine follows_foldl_fst ?_ ?_
        | refine follows_of_fst (by assumption) ?_)
    | (split <;> try (rename_i e_; first
        | (refine and_of (follows_of_fst (a := b₀) e_ ?_) (fun h_ => ?_); clear e_)))

theorem follows_hear {b₀ s : State} (h : b₀.Follows s) (i : Nat) (b : List Byte) (poison : Bool) :
    b₀.Follows (State.hear s i b poison) := by
  unfold State.hear
  repeat' first
    | with_reducible (first
        | assumption | refine follows_ite ?_ ?_ | apply follows_setCheck)
    | (intro _; try beta_reduce)
    | (extract_lets +onlyGivenNames x_; first
        | (refine and_of (p := b₀.Follows x_) ?_ (fun h_ => ?_); (on_goal 2 => clear_value x_); (on_goal 1 => (unfold x_; clear x_)))
        | ((first | (have t_ : Boot := x_; clear t_) | (have t_ : Flash := x_; clear t_) | (have t_ : Jtag := x_; clear t_)); unfold x_; clear x_)
        | clear_value x_)
    | fail_if_no_progress (with_reducible refine follows_mk (side_of ?_))
    | with_reducible (first
        | refine follows_foldl ?_ ?_ | refine follows_ite_fst ?_ ?_ | refine follows_foldl_fst ?_ ?_
        | refine follows_of_fst (by assumption) ?_)
    | (split <;> try (rename_i e_; first
        | (refine and_of (follows_of_fst (a := b₀) e_ ?_) (fun h_ => ?_); clear e_)))

theorem follows_rehear {b₀ s : State} (h : b₀.Follows s) (i : Nat) :
    ∀ x, State.rehear s i = some x → b₀.Follows x.1 := by
  unfold State.rehear
  dsimp only
  split
  · exact fun _ e => nomatch e
  · exact fun _ e => Option.some.inj e ▸ follows_setRod h _ _

theorem follows_countEvents {b₀ s : State} (h : b₀.Follows s) (i ev c : Nat) :
    b₀.Follows (State.countEvents s i ev c) := by
  unfold State.countEvents
  repeat' first
    | with_reducible (first
        | assumption | refine follows_ite ?_ ?_ | apply follows_tally)
    | (intro _; try beta_reduce)
    | fail_if_no_progress (with_reducible refine follows_mk (side_of ?_))
    | with_reducible (first
        | refine follows_foldl ?_ ?_ | refine follows_ite_fst ?_ ?_ | refine follows_foldl_fst ?_ ?_)

theorem follows_behind {b₀ s : State} (h : b₀.Follows s) (i : Nat) :
    b₀.Follows (State.behind s i) := by
  unfold State.behind
  repeat' first
    | with_reducible (first
        | assumption | refine follows_ite ?_ ?_ | apply follows_setCheck)
    | (intro _; try beta_reduce)
    | (extract_lets +onlyGivenNames x_; first
        | (refine and_of (p := b₀.Follows x_) ?_ (fun h_ => ?_); (on_goal 2 => clear_value x_); (on_goal 1 => (unfold x_; clear x_)))
        | ((first | (have t_ : Boot := x_; clear t_) | (have t_ : Flash := x_; clear t_) | (have t_ : Jtag := x_; clear t_)); unfold x_; clear x_)
        | clear_value x_)
    | fail_if_no_progress (with_reducible refine follows_mk (side_of ?_))
    | with_reducible (first
        | refine follows_foldl ?_ ?_ | refine follows_ite_fst ?_ ?_ | refine follows_foldl_fst ?_ ?_
        | refine follows_of_fst (by assumption) ?_)
    | (split <;> try (rename_i e_; first
        | (refine and_of (follows_of_fst (a := b₀) e_ ?_) (fun h_ => ?_); clear e_)))

theorem follows_did {b₀ s : State} (h : b₀.Follows s) (i c : Nat) (a : Did) (ha : b₀.Does a) :
    b₀.Follows (State.did s i c a) := by
  cases ha with
  | done h => exact follows_countEvents (follows_tally (follows_behind (follows_setRegs h _ _) _) _ _ _ _ _ _) _ _ _
  | ended h => exact follows_tally h _ _ _ _ _ _
  | hold h => exact h
  | fault => exact follows_rodFault h _ _
  | poison => exact follows_rodPoison h _
  | stall => exact h

theorem follows_fetched {b₀ s : State} (h : b₀.Follows s) (i : Nat) :
    b₀.Follows (State.fetched s i) := by
  unfold State.fetched
  repeat' first
    | with_reducible (first
        | assumption | refine follows_ite ?_ ?_ | apply follows_checkScratch)
    | (intro _; try beta_reduce)

theorem follows_readied {b₀ s : State} (h : b₀.Follows s) (i op : Nat) (w : RodWord) :
    b₀.Follows (State.readied s i op w) := by
  unfold State.readied
  repeat' first
    | with_reducible (first
        | assumption | refine follows_ite ?_ ?_ | apply follows_catchUp | apply follows_checkParity | apply follows_checkScratch)
    | (intro _; try beta_reduce)
    | (extract_lets +onlyGivenNames x_; first
        | (refine and_of (p := b₀.Follows x_) ?_ (fun h_ => ?_); (on_goal 2 => clear_value x_); (on_goal 1 => (unfold x_; clear x_)))
        | ((first | (have t_ : Boot := x_; clear t_) | (have t_ : Flash := x_; clear t_) | (have t_ : Jtag := x_; clear t_)); unfold x_; clear x_)
        | clear_value x_)
    | fail_if_no_progress (with_reducible refine follows_mk (side_of ?_))
    | with_reducible (first
        | refine follows_foldl ?_ ?_ | refine follows_ite_fst ?_ ?_ | refine follows_foldl_fst ?_ ?_
        | refine follows_of_fst (by assumption) ?_)
    | (split <;> try (rename_i e_; first
        | (refine and_of (follows_of_fst (a := b₀) e_ ?_) (fun h_ => ?_); clear e_)))

theorem follows_rodIssue {b₀ s : State} (h : b₀.Follows s) (i op : Nat) (w : RodWord) (act : State → Rod → Did) (hact
    : ∀ s y1, b₀.Follows s → b₀.Does (act s y1)) :
    b₀.Follows (State.rodIssue s i op w act) := by
  unfold State.rodIssue
  repeat' first
    | with_reducible (first
        | assumption | refine follows_ite ?_ ?_ | apply hact | apply follows_did | apply follows_fetched | apply follows_readied
        | apply follows_rodFault | apply follows_rodPoison)
    | (intro _; try beta_reduce)

theorem follows_rodRow {b₀ s : State} (h : b₀.Follows s) (i : Fin 544) (op : Nat) (w : RodWord) (act : State → Rod → Did) (hact
    : ∀ s y1, b₀.Follows s → b₀.Does (act s y1)) :
    b₀.Goes (rodRow i op w act s) := by
  unfold rodRow
  repeat' first
    | with_reducible (first
        | assumption | refine follows_ite ?_ ?_ | refine goes_next ?_ | apply hact | apply follows_rodIssue)
    | (intro _; try beta_reduce)

theorem follows_legal {b₀ : State} (w : RodWord) (unused : Nat) (act : Did) (hact : b₀.Does act) :
    b₀.Does (legal w unused act) := by
  unfold legal
  repeat' first
    | with_reducible (first
        | assumption | refine follows_ite ?_ ?_ | apply hact)
    | (intro _; try beta_reduce)
    | fail_if_no_progress (with_reducible refine follows_mk (side_of ?_))
    | with_reducible (first
        | refine follows_foldl ?_ ?_ | refine follows_ite_fst ?_ ?_ | refine follows_foldl_fst ?_ ?_ | refine does_ite ?_ ?_
        | refine .done ?_ | refine .ended ?_ | refine .hold ?_ | exact .fault | exact .poison | exact .stall)

theorem follows_didRegs {b₀ s : State} (h : b₀.Follows s) (i : Nat) (f : RodRegs → RodRegs) (ev : Nat) :
    b₀.Does (State.didRegs s i f ev) := by
  unfold State.didRegs
  repeat' first
    | with_reducible (first
        | assumption | refine follows_ite ?_ ?_ | apply follows_setRegs)
    | (intro _; try beta_reduce)
    | fail_if_no_progress (with_reducible refine follows_mk (side_of ?_))
    | with_reducible (first
        | refine follows_foldl ?_ ?_ | refine follows_ite_fst ?_ ?_ | refine follows_foldl_fst ?_ ?_ | refine does_ite ?_ ?_
        | refine .done ?_ | refine .ended ?_ | refine .hold ?_ | exact .fault | exact .poison | exact .stall)

end Sys2Proof.Machine
end

