-- ==== Sys2Proof/Laws/KeepRodMatrix.lean ====
section
/-!
SUPPORT. What the operations of Machine/RodMatrix.lean can do to the parts that `State.Follows` speaks of.
-/

namespace Sys2Proof.Machine

set_option linter.unusedTactic false
set_option linter.unreachableTactic false
set_option linter.tactic.unusedName false

theorem follows_execMmv {b₀ s : State} (h : b₀.Follows s) (rod : Fin 544) (w : RodWord) :
    b₀.Goes (execMmv rod w s) := by
  unfold execMmv
  repeat' first
    | with_reducible (first
        | assumption | refine follows_ite ?_ ?_ | refine goes_next ?_ | apply follows_checkScratch | apply follows_rodRow
        | apply follows_setRegs | apply follows_tally)
    | (intro _; try beta_reduce)
    | (extract_lets +onlyGivenNames x_; first
        | (refine and_of (p := b₀.Follows x_) ?_ (fun h_ => ?_); (on_goal 2 => clear_value x_); (on_goal 1 => (unfold x_; clear x_)))
        | ((first | (have t_ : Boot := x_; clear t_) | (have t_ : Flash := x_; clear t_) | (have t_ : Jtag := x_; clear t_)); unfold x_; clear x_)
        | clear_value x_)
    | fail_if_no_progress (with_reducible refine follows_mk (side_of ?_))
    | with_reducible (first
        | refine follows_foldl ?_ ?_ | refine follows_ite_fst ?_ ?_ | refine follows_foldl_fst ?_ ?_ | refine goes_ite ?_ ?_
        | refine does_ite ?_ ?_ | refine .done ?_ | refine .ended ?_ | refine .hold ?_ | exact .fault | exact .poison
        | exact .stall | refine follows_of_fst (by assumption) ?_)
    | (split <;> try (rename_i e_; first
        | (refine and_of (follows_of_fst (a := b₀) e_ ?_) (fun h_ => ?_); clear e_)
        | (refine and_of (follows_of_done (a := b₀) e_ ?_) (fun h_ => ?_); clear e_)
        | (refine and_of (follows_of_ended (a := b₀) e_ ?_) (fun h_ => ?_); clear e_)
        | (refine and_of (follows_of_hold (a := b₀) e_ ?_) (fun h_ => ?_); clear e_)))

theorem follows_execAccClear {b₀ s : State} (h : b₀.Follows s) (rod : Fin 544) (w : RodWord) :
    b₀.Goes (execAccClear rod w s) := by
  unfold execAccClear
  repeat' first
    | with_reducible (first
        | assumption | refine follows_ite ?_ ?_ | refine goes_next ?_ | apply follows_didRegs | apply follows_legal
        | apply follows_rodRow)
    | (intro _; try beta_reduce)

theorem follows_execAccDrain {b₀ s : State} (h : b₀.Follows s) (rod : Fin 544) (w : RodWord) :
    b₀.Goes (execAccDrain rod w s) := by
  unfold execAccDrain
  repeat' first
    | with_reducible (first
        | assumption | refine follows_ite ?_ ?_ | refine goes_next ?_ | apply follows_didRegs | apply follows_rodRow
        | apply follows_tally)
    | (intro _; try beta_reduce)
    | fail_if_no_progress (with_reducible refine follows_mk (side_of ?_))
    | with_reducible (first
        | refine follows_foldl ?_ ?_ | refine follows_ite_fst ?_ ?_ | refine follows_foldl_fst ?_ ?_ | refine goes_ite ?_ ?_
        | refine does_ite ?_ ?_ | refine .done ?_ | refine .ended ?_ | refine .hold ?_ | exact .fault | exact .poison
        | exact .stall)

theorem follows_execAccSpill {b₀ s : State} (h : b₀.Follows s) (rod : Fin 544) (w : RodWord) :
    b₀.Goes (execAccSpill rod w s) := by
  refine follows_rodRow h rod _ _ _ fun s r h => ?_
  refine follows_legal _ _ _ (does_ite .poison ?_)
  split
  · exact .fault
  · exact .done (follows_ite (follows_setRegs (follows_foldl h fun s x h => follows_scratchWrite h _ _ _ _) _ _)
      (follows_foldl h fun s x h => follows_scratchWrite h _ _ _ _))

theorem follows_execAccAddrec {b₀ s : State} (h : b₀.Follows s) (rod : Fin 544) (w : RodWord) :
    b₀.Goes (execAccAddrec rod w s) := by
  refine follows_rodRow h rod _ _ _ fun s r h => ?_
  refine follows_legal _ _ _ (does_ite .poison ?_)
  split
  · exact .fault
  · split
    · exact .fault
    · exact follows_didRegs h _ _ _

end Sys2Proof.Machine
end

