-- ==== Sys2Proof/Laws/KeepStream.lean ====
section
/-!
SUPPORT. What the operations of Machine/Stream.lean can do to the parts that `State.Follows` speaks of.
-/

namespace Sys2Proof.Machine

set_option linter.unusedTactic false
set_option linter.unreachableTactic false
set_option linter.tactic.unusedName false

theorem follows_waitOn {b₀ s : State} (h : b₀.Follows s) (i : Nat) (w : RodWord) (send : Bool) :
    b₀.Follows (State.waitOn s i w send) := by
  unfold State.waitOn
  repeat' first
    | with_reducible (first
        | assumption | refine follows_ite ?_ ?_ | apply follows_followAll | apply follows_saveForSwitch | apply follows_setRod
        | apply follows_tryRemoves)
    | (intro _; try beta_reduce)

theorem follows_setCursor {b₀ s : State} (h : b₀.Follows s) (i sid : Nat) (f : Cursor → Cursor) :
    b₀.Follows (State.setCursor s i sid f) := by
  unfold State.setCursor
  repeat' first
    | with_reducible (first
        | assumption | refine follows_ite ?_ ?_ | apply follows_setRegs)
    | (intro _; try beta_reduce)

theorem follows_sendElement {b₀ s : State} (h : b₀.Follows s) (i : Nat) (w : RodWord) (r : Rod) (j k : Nat) :
    b₀.Does (State.sendElement s i w r j k) := by
  unfold State.sendElement
  repeat' first
    | with_reducible (first
        | assumption | refine follows_ite ?_ ?_ | apply follows_outgoing | apply follows_ringOpen | apply follows_setCursor
        | apply follows_waitOn)
    | (intro _; try beta_reduce)
    | (extract_lets +onlyGivenNames x_; first
        | (refine and_of (p := b₀.Follows x_) ?_ (fun h_ => ?_); (on_goal 2 => clear_value x_); (on_goal 1 => (unfold x_; clear x_)))
        | ((first | (have t_ : Boot := x_; clear t_) | (have t_ : Flash := x_; clear t_) | (have t_ : Jtag := x_; clear t_)); unfold x_; clear x_)
        | clear_value x_)
    | fail_if_no_progress (with_reducible refine follows_mk (side_of ?_))
    | with_reducible (first
        | refine follows_foldl ?_ ?_ | refine follows_ite_fst ?_ ?_ | refine follows_foldl_fst ?_ ?_ | refine does_ite ?_ ?_
        | refine .done ?_ | refine .ended ?_ | refine .hold ?_ | exact .fault | exact .poison | exact .stall
        | refine follows_of_fst (by assumption) ?_)
    | (split <;> try (rename_i e_; first
        | (refine and_of (follows_of_fst (a := b₀) e_ ?_) (fun h_ => ?_); clear e_)))

theorem follows_recvElement {b₀ s : State} (h : b₀.Follows s) (i : Nat) (w : RodWord) (r : Rod) (j k : Nat) :
    b₀.Does (State.recvElement s i w r j k) := by
  unfold State.recvElement
  repeat' first
    | with_reducible (first
        | assumption | refine follows_ite ?_ ?_ | apply hf0_ | apply follows_checkFb | apply follows_hear | apply follows_rehear
        | apply follows_ringOpen | apply follows_setCursor | apply follows_setRegs | apply follows_setStream
        | apply follows_waitOn)
    | (intro _; try beta_reduce)
    | (extract_lets +onlyGivenNames x_; first
        | (refine and_of (p := ∀ s y1 y2, b₀.Follows s → b₀.Does (x_ s y1 y2)) ?_ (fun hf0_ => ?_); (on_goal 2 => clear_value x_); (on_goal 1 => (unfold x_; clear x_)))
        | (refine and_of (p := b₀.Follows x_) ?_ (fun h_ => ?_); (on_goal 2 => clear_value x_); (on_goal 1 => (unfold x_; clear x_)))
        | ((first | (have t_ : Boot := x_; clear t_) | (have t_ : Flash := x_; clear t_) | (have t_ : Jtag := x_; clear t_)); unfold x_; clear x_)
        | clear_value x_)
    | fail_if_no_progress (with_reducible refine follows_mk (side_of ?_))
    | with_reducible (first
        | refine follows_foldl ?_ ?_ | refine follows_ite_fst ?_ ?_ | refine follows_foldl_fst ?_ ?_ | refine does_ite ?_ ?_
        | refine .done ?_ | refine .ended ?_ | refine .hold ?_ | exact .fault | exact .poison | exact .stall
        | refine follows_of_fst (by assumption) ?_)
    | (split <;> try (rename_i e_; first
        | (refine and_of (follows_of_fst (a := b₀) e_ ?_) (fun h_ => ?_); clear e_)
        | (refine and_of (follows_rehear (b₀ := b₀) ?_ _ _ e_) (fun h_ => ?_); clear e_)))

theorem follows_streamOp {b₀ s : State} (h : b₀.Follows s) (i : Nat) (w : RodWord) (send : Bool) (r : Rod) :
    b₀.Does (State.streamOp s i w send r) := by
  unfold State.streamOp
  repeat' first
    | with_reducible (first
        | assumption | refine follows_ite ?_ ?_ | apply follows_recvElement | apply follows_sendElement)
    | (intro _; try beta_reduce)
    | (extract_lets +onlyGivenNames x_; first
        | (refine and_of (p := b₀.Follows x_) ?_ (fun h_ => ?_); (on_goal 2 => clear_value x_); (on_goal 1 => (unfold x_; clear x_)))
        | ((first | (have t_ : Boot := x_; clear t_) | (have t_ : Flash := x_; clear t_) | (have t_ : Jtag := x_; clear t_)); unfold x_; clear x_)
        | clear_value x_)
    | fail_if_no_progress (with_reducible refine follows_mk (side_of ?_))
    | with_reducible (first
        | refine follows_foldl ?_ ?_ | refine follows_ite_fst ?_ ?_ | refine follows_foldl_fst ?_ ?_ | refine does_ite ?_ ?_
        | refine .done ?_ | refine .ended ?_ | refine .hold ?_ | exact .fault | exact .poison | exact .stall
        | refine follows_of_fst (by assumption) ?_)
    | (split <;> try (rename_i e_; first
        | (refine and_of (follows_of_fst (a := b₀) e_ ?_) (fun h_ => ?_); clear e_)
        | (refine and_of (follows_of_done (a := b₀) e_ ?_) (fun h_ => ?_); clear e_)
        | (refine and_of (follows_of_ended (a := b₀) e_ ?_) (fun h_ => ?_); clear e_)
        | (refine and_of (follows_of_hold (a := b₀) e_ ?_) (fun h_ => ?_); clear e_)))

theorem follows_execSsend {b₀ s : State} (h : b₀.Follows s) (rod : Fin 544) (w : RodWord) :
    b₀.Goes (execSsend rod w s) := by
  unfold execSsend
  repeat' first
    | with_reducible (first
        | assumption | refine follows_ite ?_ ?_ | refine goes_next ?_ | apply follows_legal | apply follows_rodRow
        | apply follows_streamOp)
    | (intro _; try beta_reduce)

theorem follows_execSrecv {b₀ s : State} (h : b₀.Follows s) (rod : Fin 544) (w : RodWord) :
    b₀.Goes (execSrecv rod w s) := by
  unfold execSrecv
  repeat' first
    | with_reducible (first
        | assumption | refine follows_ite ?_ ?_ | refine goes_next ?_ | apply follows_legal | apply follows_rodRow
        | apply follows_streamOp)
    | (intro _; try beta_reduce)

theorem follows_execStreamWaitResume {b₀ s : State} (h : b₀.Follows s) (rod : Fin 544) :
    b₀.Goes (execStreamWaitResume rod s) := by
  unfold execStreamWaitResume
  repeat' first
    | with_reducible (first
        | assumption | refine follows_ite ?_ ?_ | refine goes_next ?_ | apply follows_onlyIf | apply follows_rodIssue
        | apply follows_setRod | apply follows_streamOp)
    | (intro _; try beta_reduce)
    | (extract_lets +onlyGivenNames x_; first
        | (refine and_of (p := b₀.Follows x_) ?_ (fun h_ => ?_); (on_goal 2 => clear_value x_); (on_goal 1 => (unfold x_; clear x_)))
        | ((first | (have t_ : Boot := x_; clear t_) | (have t_ : Flash := x_; clear t_) | (have t_ : Jtag := x_; clear t_)); unfold x_; clear x_)
        | clear_value x_)
    | fail_if_no_progress (with_reducible refine follows_mk (side_of ?_))
    | with_reducible (first
        | refine follows_foldl ?_ ?_ | refine follows_ite_fst ?_ ?_ | refine follows_foldl_fst ?_ ?_ | refine goes_ite ?_ ?_
        | refine does_ite ?_ ?_ | refine .done ?_ | refine .ended ?_ | refine .hold ?_ | exact .fault | exact .poison
        | exact .stall | refine follows_of_fst (by assumption) ?_)
    | (split <;> try (rename_i e_; first
        | (refine and_of (follows_of_fst (a := b₀) e_ ?_) (fun h_ => ?_); clear e_)
        | (refine and_of (follows_of_done (a := b₀) e_ ?_) (fun h_ => ?_); clear e_)
        | (refine and_of (follows_of_ended (a := b₀) e_ ?_) (fun h_ => ?_); clear e_)
        | (refine and_of (follows_of_hold (a := b₀) e_ ?_) (fun h_ => ?_); clear e_)))

theorem follows_checkPassed {b₀ s : State} (h : b₀.Follows s) (i : Nat) :
    b₀.Follows (State.checkPassed s i) := by
  unfold State.checkPassed
  repeat' first
    | with_reducible (first
        | assumption | refine follows_ite ?_ ?_ | apply follows_bump | apply follows_followAll | apply follows_freeSpare
        | apply follows_setCheck)
    | (intro _; try beta_reduce)

theorem follows_afterTile {b₀ s : State} (h : b₀.Follows s) (i : Nat) :
    b₀.Follows (State.afterTile s i) := by
  unfold State.afterTile
  repeat' first
    | with_reducible (first
        | assumption | refine follows_ite ?_ ?_ | apply follows_saveForSwitch | apply follows_setRod | apply follows_takeThird
        | apply follows_tileStart | apply follows_tryRemoves)
    | (intro _; try beta_reduce)

theorem follows_thirdEnds {b₀ s : State} (h : b₀.Follows s) (i : Nat) :
    b₀.Follows (State.thirdEnds s i) := by
  unfold State.thirdEnds
  repeat' first
    | with_reducible (first
        | assumption | refine follows_ite ?_ ?_ | apply follows_setCheck)
    | (intro _; try beta_reduce)
    | (extract_lets +onlyGivenNames x_; first
        | (refine and_of (p := b₀.Follows x_) ?_ (fun h_ => ?_); (on_goal 2 => clear_value x_); (on_goal 1 => (unfold x_; clear x_)))
        | ((first | (have t_ : Boot := x_; clear t_) | (have t_ : Flash := x_; clear t_) | (have t_ : Jtag := x_; clear t_)); unfold x_; clear x_)
        | clear_value x_)
    | fail_if_no_progress (with_reducible refine follows_mk (side_of ?_))
    | with_reducible (first
        | refine follows_foldl ?_ ?_ | refine follows_ite_fst ?_ ?_ | refine follows_foldl_fst ?_ ?_
        | refine follows_of_fst (by assumption) ?_)
    | (split <;> try (rename_i e_; first
        | (refine and_of (follows_of_fst (a := b₀) e_ ?_) (fun h_ => ?_); clear e_)))

theorem follows_execTileEnd {b₀ s : State} (h : b₀.Follows s) (rod : Fin 544) (w : RodWord) :
    b₀.Goes (execTileEnd rod w s) := by
  unfold execTileEnd
  repeat' first
    | with_reducible (first
        | assumption | refine follows_ite ?_ ?_ | refine goes_next ?_ | apply follows_afterTile | apply follows_checkPassed
        | apply follows_legal | apply follows_rodRow | apply follows_setRegs | apply follows_thirdEnds)
    | (intro _; try beta_reduce)
    | fail_if_no_progress (with_reducible refine follows_mk (side_of ?_))
    | with_reducible (first
        | refine follows_foldl ?_ ?_ | refine follows_ite_fst ?_ ?_ | refine follows_foldl_fst ?_ ?_ | refine goes_ite ?_ ?_
        | refine does_ite ?_ ?_ | refine .done ?_ | refine .ended ?_ | refine .hold ?_ | exact .fault | exact .poison
        | exact .stall)

theorem follows_execHalt {b₀ s : State} (h : b₀.Follows s) (rod : Fin 544) (w : RodWord) :
    b₀.Goes (execHalt rod w s) := by
  unfold execHalt
  repeat' first
    | with_reducible (first
        | assumption | refine follows_ite ?_ ?_ | refine goes_next ?_ | apply follows_followAll | apply follows_legal
        | apply follows_rodRow | apply follows_saveForSwitch | apply follows_setRegs | apply follows_setRod
        | apply follows_takeThird | apply follows_thirdEnds | apply follows_tryRemoves)
    | (intro _; try beta_reduce)
    | fail_if_no_progress (with_reducible refine follows_mk (side_of ?_))
    | with_reducible (first
        | refine follows_foldl ?_ ?_ | refine follows_ite_fst ?_ ?_ | refine follows_foldl_fst ?_ ?_ | refine goes_ite ?_ ?_
        | refine does_ite ?_ ?_ | refine .done ?_ | refine .ended ?_ | refine .hold ?_ | exact .fault | exact .poison
        | exact .stall)

end Sys2Proof.Machine
end

