-- ==== Sys2Proof/Laws/KeepCmpl.lean ====
section
/-!
SUPPORT. What the operations of Machine/Cmpl.lean can do to the parts that `State.Follows` speaks of.
-/

namespace Sys2Proof.Machine

set_option linter.unusedTactic false
set_option linter.unreachableTactic false
set_option linter.tactic.unusedName false

theorem follows_lateCmpl {b₀ s : State} (h : b₀.Follows s) (p : Packet) :
    b₀.Follows (State.lateCmpl s p) := by
  unfold State.lateCmpl
  repeat' first
    | with_reducible (first
        | assumption | refine follows_ite ?_ ?_ | apply follows_bump | apply follows_quotaBack | apply follows_raise)
    | (intro _; try beta_reduce)

theorem follows_takeCmpl {b₀ s : State} (h : b₀.Follows s) (port : Option Nat) (p : Packet) :
    b₀.Follows (State.takeCmpl s port p).1 := by
  unfold State.takeCmpl
  repeat' first
    | with_reducible (first
        | assumption | refine follows_ite ?_ ?_ | apply hf0_ | apply follows_bump | apply follows_freeOutSlot
        | apply follows_lateCmpl | apply follows_postMgr | apply follows_quotaBack | apply follows_raise)
    | (intro _; try beta_reduce)
    | (extract_lets +onlyGivenNames x_; first
        | (refine and_of (p := ∀ s y1 y2, b₀.Follows s → b₀.Follows (x_ s y1 y2).1) ?_ (fun hf0_ => ?_); (on_goal 2 => clear_value x_); (on_goal 1 => (unfold x_; clear x_)))
        | (refine and_of (p := b₀.Follows x_) ?_ (fun h_ => ?_); (on_goal 2 => clear_value x_); (on_goal 1 => (unfold x_; clear x_)))
        | ((first | (have t_ : Boot := x_; clear t_) | (have t_ : Flash := x_; clear t_) | (have t_ : Jtag := x_; clear t_)); unfold x_; clear x_)
        | clear_value x_)
    | fail_if_no_progress (with_reducible refine follows_mk (side_of ?_))
    | with_reducible (first
        | refine follows_foldl ?_ ?_ | refine follows_ite_fst ?_ ?_ | refine follows_foldl_fst ?_ ?_
        | refine follows_of_fst (by assumption) ?_)
    | (split <;> try (rename_i e_; first
        | (refine and_of (follows_of_fst (a := b₀) e_ ?_) (fun h_ => ?_); clear e_)))

theorem follows_arriveCmpl {b₀ s : State} (h : b₀.Follows s) (port : Fin 16) (p : Packet) (act : State → Answer → State) (hact
    : ∀ s y1, b₀.Follows s → b₀.Follows (act s y1)) :
    b₀.Follows (State.arriveCmpl s port p act) := by
  unfold State.arriveCmpl
  repeat' first
    | with_reducible (first
        | assumption | refine follows_ite ?_ ?_ | apply hact | apply hf0_ | apply follows_learn | apply follows_received
        | apply follows_takeCmpl | apply follows_takeLocal | apply follows_transit)
    | (intro _; try beta_reduce)
    | (extract_lets +onlyGivenNames x_; first
        | (refine and_of (p := ∀ s y1, b₀.Follows s → b₀.Follows (x_ s y1)) ?_ (fun hf0_ => ?_); (on_goal 2 => clear_value x_); (on_goal 1 => (unfold x_; clear x_)))
        | (refine and_of (p := b₀.Follows x_) ?_ (fun h_ => ?_); (on_goal 2 => clear_value x_); (on_goal 1 => (unfold x_; clear x_)))
        | ((first | (have t_ : Boot := x_; clear t_) | (have t_ : Flash := x_; clear t_) | (have t_ : Jtag := x_; clear t_)); unfold x_; clear x_)
        | clear_value x_)
    | fail_if_no_progress (with_reducible refine follows_mk (side_of ?_))
    | with_reducible (first
        | refine follows_foldl ?_ ?_ | refine follows_ite_fst ?_ ?_ | refine follows_foldl_fst ?_ ?_ | refine may_ite ?_ ?_
        | refine may_some ?_ | exact may_none | refine follows_of_fst (by assumption) ?_)
    | (split <;> try (rename_i e_; first
        | (refine and_of (follows_of_fst (a := b₀) e_ ?_) (fun h_ => ?_); clear e_)
        | (refine and_of (follows_of_may (a := b₀) e_ ?_) (fun h_ => ?_); clear e_)))

end Sys2Proof.Machine
end

