-- ==== Sys2Proof/Laws/KeepLoader.lean ====
section
/-!
SUPPORT. What the operations of Machine/Loader.lean can do to the parts that `State.Follows` speaks of.
-/

namespace Sys2Proof.Machine

set_option linter.unusedTactic false
set_option linter.unreachableTactic false
set_option linter.tactic.unusedName false

theorem follows_frameOrder {b₀ s : State} (h : b₀.Follows s) :
    b₀.Follows (State.frameOrder s).1 := by
  unfold State.frameOrder
  repeat' first
    | with_reducible (first
        | assumption | refine follows_ite ?_ ?_ | apply follows_free)
    | (intro _; try beta_reduce)

theorem follows_launchTick {b₀ s : State} (h : b₀.Follows s) (m : List Byte) :
    b₀.Follows (State.launchTick s m).1 := by
  unfold State.launchTick
  repeat' first
    | with_reducible (first
        | assumption | refine follows_ite ?_ ?_ | apply follows_free)
    | (intro _; try beta_reduce)
    | fail_if_no_progress (with_reducible refine follows_mk (side_of ?_))
    | with_reducible (first
        | refine follows_foldl ?_ ?_ | refine follows_ite_fst ?_ ?_ | refine follows_foldl_fst ?_ ?_
        | refine follows_ite_snd ?_ ?_)

theorem follows_loadAt {b₀ s : State} (h : b₀.Follows s) (hop : Nat → Option (Nat × Bool)) (key ctx : Nat) (m : List Byte) :
    b₀.Follows (State.loadAt s hop key ctx m).1 := by
  unfold State.loadAt
  repeat' first
    | with_reducible (first
        | assumption | refine follows_ite ?_ ?_ | apply follows_chooseWindows | apply follows_frameOrder | apply follows_free
        | apply follows_launchTick)
    | (intro _; try beta_reduce)
    | (extract_lets +onlyGivenNames x_; first
        | (refine and_of (p := b₀.Follows x_) ?_ (fun h_ => ?_); (on_goal 2 => clear_value x_); (on_goal 1 => (unfold x_; clear x_)))
        | ((first | (have t_ : Boot := x_; clear t_) | (have t_ : Flash := x_; clear t_) | (have t_ : Jtag := x_; clear t_)); unfold x_; clear x_)
        | clear_value x_)
    | fail_if_no_progress (with_reducible refine follows_mk (side_of ?_))
    | with_reducible (first
        | refine follows_foldl ?_ ?_ | refine follows_ite_fst ?_ ?_ | refine follows_foldl_fst ?_ ?_
        | refine follows_ite_snd ?_ ?_ | refine follows_of_fst (by assumption) ?_)
    | (split <;> try (rename_i e_; first
        | (refine and_of (follows_of_fst (a := b₀) e_ ?_) (fun h_ => ?_); clear e_)
        | (refine and_of (follows_of_snd (a := b₀) e_ ?_) (fun h_ => ?_); clear e_)))

theorem follows_fillEntry {b₀ s : State} (h : b₀.Follows s) (l : Load) (word f n : Nat) :
    b₀.Follows (State.fillEntry s l word f n) := by
  unfold State.fillEntry
  repeat' first
    | with_reducible (first
        | assumption | refine follows_ite ?_ ?_ | apply follows_free | apply follows_putShadow)
    | (intro _; try beta_reduce)

theorem follows_reserve {b₀ s : State} (h : b₀.Follows s) (l : Load) :
    b₀.Follows (State.reserve s l).1 := by
  unfold State.reserve
  repeat' first
    | with_reducible (first
        | assumption | refine follows_ite ?_ ?_ | apply follows_addWindow | apply follows_copyBoard | apply follows_fillEntry
        | apply follows_free)
    | (intro _; try beta_reduce)
    | fail_if_no_progress (with_reducible refine follows_mk (side_of ?_))
    | with_reducible (first
        | refine follows_foldl ?_ ?_ | refine follows_ite_fst ?_ ?_ | refine follows_foldl_fst ?_ ?_
        | refine follows_ite_snd ?_ ?_)

theorem follows_sendLoadStep {b₀ s : State} (h : b₀.Follows s) (l : Load) :
    b₀.Follows (State.sendLoadStep s l).1 := by
  unfold State.sendLoadStep
  repeat' first
    | with_reducible (first
        | assumption | refine follows_ite ?_ ?_ | apply follows_free | apply follows_issue | apply follows_nextCounter)
    | (intro _; try beta_reduce)
    | (extract_lets +onlyGivenNames x_; first
        | (refine and_of (p := b₀.Follows x_) ?_ (fun h_ => ?_); (on_goal 2 => clear_value x_); (on_goal 1 => (unfold x_; clear x_)))
        | ((first | (have t_ : Boot := x_; clear t_) | (have t_ : Flash := x_; clear t_) | (have t_ : Jtag := x_; clear t_)); unfold x_; clear x_)
        | clear_value x_)
    | fail_if_no_progress (with_reducible refine follows_mk (side_of ?_))
    | with_reducible (first
        | refine follows_foldl ?_ ?_ | refine follows_ite_fst ?_ ?_ | refine follows_foldl_fst ?_ ?_
        | refine follows_ite_snd ?_ ?_ | refine follows_of_fst (by assumption) ?_)
    | (split <;> try (rename_i e_; first
        | (refine and_of (follows_of_fst (a := b₀) e_ ?_) (fun h_ => ?_); clear e_)
        | (refine and_of (follows_of_snd (a := b₀) e_ ?_) (fun h_ => ?_); clear e_)))

theorem follows_putLoad {b₀ s : State} (h : b₀.Follows s) (l : Load) :
    b₀.Follows (State.putLoad s l) := by
  unfold State.putLoad
  repeat' first
    | with_reducible (first
        | assumption | refine follows_ite ?_ ?_)
    | (intro _; try beta_reduce)
    | fail_if_no_progress (with_reducible refine follows_mk (side_of ?_))
    | with_reducible (first
        | refine follows_foldl ?_ ?_ | refine follows_ite_fst ?_ ?_ | refine follows_foldl_fst ?_ ?_)

theorem follows_dropLoad {b₀ s : State} (h : b₀.Follows s) (l : Load) :
    b₀.Follows (State.dropLoad s l) := by
  unfold State.dropLoad
  repeat' first
    | with_reducible (first
        | assumption | refine follows_ite ?_ ?_)
    | (intro _; try beta_reduce)
    | fail_if_no_progress (with_reducible refine follows_mk (side_of ?_))
    | with_reducible (first
        | refine follows_foldl ?_ ?_ | refine follows_ite_fst ?_ ?_ | refine follows_foldl_fst ?_ ?_)

theorem follows_runTodo {b₀ s : State} (h : b₀.Follows s) (l : Load) :
    b₀.Follows (State.runTodo s l) := by
  unfold State.runTodo
  repeat' first
    | with_reducible (first
        | assumption | refine follows_ite ?_ ?_ | apply follows_dropLoad | apply follows_putLoad | apply follows_sendLoadStep)
    | (intro _; try beta_reduce)

theorem follows_releaseThere {b₀ s : State} (h : b₀.Follows s) (l : Load) :
    b₀.Follows (State.releaseThere s l) := by
  unfold State.releaseThere
  repeat' first
    | with_reducible (first
        | assumption | refine follows_ite ?_ ?_ | apply follows_asSeen | apply follows_copyBoard | apply follows_dropWindow
        | apply follows_free | apply follows_runTodo | apply follows_tickBefore)
    | (intro _; try beta_reduce)

theorem follows_releaseLoad {b₀ s : State} (h : b₀.Follows s) (l : Load) :
    b₀.Follows (State.releaseLoad s l) := by
  unfold State.releaseLoad
  repeat' first
    | with_reducible (first
        | assumption | refine follows_ite ?_ ?_ | apply follows_releaseHere | apply follows_releaseThere)
    | (intro _; try beta_reduce)

theorem follows_loaderCheck {b₀ s : State} (h : b₀.Follows s) (v : InSlot) (target : Nat) :
    b₀.Follows (State.loaderCheck s v target).1 := by
  unfold State.loaderCheck
  repeat' first
    | with_reducible (first
        | assumption | refine follows_ite ?_ ?_ | apply follows_asSeen | apply follows_free)
    | (intro _; try beta_reduce)
    | fail_if_no_progress (with_reducible refine follows_mk (side_of ?_))
    | with_reducible (first
        | refine follows_foldl ?_ ?_ | refine follows_ite_fst ?_ ?_ | refine follows_foldl_fst ?_ ?_
        | refine follows_ite_snd ?_ ?_)

theorem follows_sendPlace {b₀ s : State} (h : b₀.Follows s) (key : Nat) (l : Load) :
    b₀.Follows (State.sendPlace s key l) := by
  unfold State.sendPlace
  repeat' first
    | with_reducible (first
        | assumption | refine follows_ite ?_ ?_ | apply follows_endChange | apply follows_putLoad | apply follows_reserve
        | apply follows_sendLoadStep)
    | (intro _; try beta_reduce)

theorem follows_placeThere {b₀ s : State} (h : b₀.Follows s) (l : Load) :
    b₀.Follows (State.placeThere s l) := by
  unfold State.placeThere
  repeat' first
    | with_reducible (first
        | assumption | refine follows_ite ?_ ?_ | apply follows_endChange | apply follows_putLoad | apply follows_releaseLoad
        | apply follows_sendLoadStep)
    | (intro _; try beta_reduce)

/-- The free values drawn on a copy of the state, drawn in the state too. -/
theorem follows_ctr {b₀ s v : State} (h : b₀.Follows s) (k : b₀.Follows v) : b₀.Follows { s with freeCtr := v.freeCtr } :=
  ⟨h.1, h.2.1, h.2.2.1, h.2.2.2.1, k.2.2.2.2.1, h.2.2.2.2.2⟩

theorem follows_loadThere {b₀ s : State} (h : b₀.Follows s) (key target ctx : Nat) (m : List Byte) (d : Nat) :
    b₀.Follows (State.loadThere s key target ctx m d) := by
  unfold State.loadThere
  extract_lets seen
  have k : b₀.Follows seen := follows_asSeen h _ _ _ _
  clear_value seen
  split
  · rename_i v r i n e
    exact follows_closeChange (follows_refuseLoad (follows_ctr h (follows_of_fst e (follows_loadAt k _ _ _ _))) _ _ _ _)
  · rename_i v l e
    have kv := follows_of_fst e (follows_loadAt k _ _ _ _)
    refine follows_ite (follows_endChange (follows_ctr h kv) _ _ _) ?_
    split
    rename_i v' l' e'
    exact follows_placeThere (follows_ctr h (follows_of_fst e' (follows_reserve kv _))) _

theorem follows_startLoad {b₀ s : State} (h : b₀.Follows s) (key : Nat) :
    b₀.Follows (State.startLoad s key) := by
  unfold State.startLoad
  repeat' first
    | with_reducible (first
        | assumption | refine follows_ite ?_ ?_ | apply follows_closeChange | apply follows_free | apply follows_loadAt
        | apply follows_loadThere | apply follows_refuseLoad | apply follows_sendPlace)
    | (intro _; try beta_reduce)
    | (extract_lets +onlyGivenNames x_; first
        | (refine and_of (p := b₀.Follows x_) ?_ (fun h_ => ?_); (on_goal 2 => clear_value x_); (on_goal 1 => (unfold x_; clear x_)))
        | ((first | (have t_ : Boot := x_; clear t_) | (have t_ : Flash := x_; clear t_) | (have t_ : Jtag := x_; clear t_)); unfold x_; clear x_)
        | clear_value x_)
    | fail_if_no_progress (with_reducible refine follows_mk (side_of ?_))
    | with_reducible (first
        | refine follows_foldl ?_ ?_ | refine follows_ite_fst ?_ ?_ | refine follows_foldl_fst ?_ ?_
        | refine follows_ite_snd ?_ ?_ | refine follows_of_fst (by assumption) ?_)
    | (split <;> try (rename_i e_; first
        | (refine and_of (follows_of_fst (a := b₀) e_ ?_) (fun h_ => ?_); clear e_)
        | (refine and_of (follows_of_snd (a := b₀) e_ ?_) (fun h_ => ?_); clear e_)))

theorem follows_actJobLoad {b₀ s : State} (h : b₀.Follows s) (key : Nat) :
    b₀.Follows (State.actJobLoad s key) := by
  unfold State.actJobLoad
  repeat' first
    | with_reducible (first
        | assumption | refine follows_ite ?_ ?_ | apply follows_change | apply follows_complete | apply follows_ifOk
        | apply follows_loaderCheck | apply follows_startLoad)
    | (intro _; try beta_reduce)
    | (extract_lets +onlyGivenNames x_; first
        | (refine and_of (p := b₀.Follows x_) ?_ (fun h_ => ?_); (on_goal 2 => clear_value x_); (on_goal 1 => (unfold x_; clear x_)))
        | ((first | (have t_ : Boot := x_; clear t_) | (have t_ : Flash := x_; clear t_) | (have t_ : Jtag := x_; clear t_)); unfold x_; clear x_)
        | clear_value x_)
    | fail_if_no_progress (with_reducible refine follows_mk (side_of ?_))
    | with_reducible (first
        | refine follows_foldl ?_ ?_ | refine follows_ite_fst ?_ ?_ | refine follows_foldl_fst ?_ ?_
        | refine follows_of_fst (by assumption) ?_)
    | (split <;> try (rename_i e_; first
        | (refine and_of (follows_of_fst (a := b₀) e_ ?_) (fun h_ => ?_); clear e_)))

theorem follows_execJobLoad {b₀ s : State} (h : b₀.Follows s) (port : Fin 16) (p : Packet) :
    b₀.Goes (execJobLoad port p s) := by
  unfold execJobLoad
  repeat' first
    | with_reducible (first
        | assumption | refine follows_ite ?_ ?_ | refine goes_next ?_ | apply follows_actJobLoad | apply follows_arrive)
    | (intro _; try beta_reduce)

theorem follows_settleLoad {b₀ s : State} (h : b₀.Follows s) (l : Load) :
    b₀.Follows (State.settleLoad s l) := by
  unfold State.settleLoad
  repeat' first
    | with_reducible (first
        | assumption | refine follows_ite ?_ ?_)
    | (intro _; try beta_reduce)
    | fail_if_no_progress (with_reducible refine follows_mk (side_of ?_))
    | with_reducible (first
        | refine follows_foldl ?_ ?_ | refine follows_ite_fst ?_ ?_ | refine follows_foldl_fst ?_ ?_)

theorem follows_placeAnswer {b₀ s : State} (h : b₀.Follows s) (x1 : Answer) (job : Nat) :
    b₀.Follows (State.placeAnswer s x1 job) := by
  unfold State.placeAnswer
  repeat' first
    | with_reducible (first
        | assumption | refine follows_ite ?_ ?_ | apply follows_armBoard | apply follows_armSwap | apply follows_endChange
        | apply follows_releaseLoad | apply follows_runTodo | apply follows_settleLoad | apply follows_tickBefore)
    | (intro _; try beta_reduce)
    | (extract_lets +onlyGivenNames x_; first
        | (refine and_of (p := b₀.Follows x_) ?_ (fun h_ => ?_); (on_goal 2 => clear_value x_); (on_goal 1 => (unfold x_; clear x_)))
        | ((first | (have t_ : Boot := x_; clear t_) | (have t_ : Flash := x_; clear t_) | (have t_ : Jtag := x_; clear t_)); unfold x_; clear x_)
        | clear_value x_)
    | fail_if_no_progress (with_reducible refine follows_mk (side_of ?_))
    | with_reducible (first
        | refine follows_foldl ?_ ?_ | refine follows_ite_fst ?_ ?_ | refine follows_foldl_fst ?_ ?_
        | refine follows_of_fst (by assumption) ?_)
    | (split <;> try (rename_i e_; first
        | (refine and_of (follows_of_fst (a := b₀) e_ ?_) (fun h_ => ?_); clear e_)))

theorem follows_removeAnswer {b₀ s : State} (h : b₀.Follows s) (x1 : Answer) (job : Nat) :
    b₀.Follows (State.removeAnswer s x1 job) := by
  unfold State.removeAnswer
  repeat' first
    | with_reducible (first
        | assumption | refine follows_ite ?_ ?_ | apply follows_endChange | apply follows_releaseLoad | apply follows_settleLoad)
    | (intro _; try beta_reduce)
    | (extract_lets +onlyGivenNames x_; first
        | (refine and_of (p := b₀.Follows x_) ?_ (fun h_ => ?_); (on_goal 2 => clear_value x_); (on_goal 1 => (unfold x_; clear x_)))
        | ((first | (have t_ : Boot := x_; clear t_) | (have t_ : Flash := x_; clear t_) | (have t_ : Jtag := x_; clear t_)); unfold x_; clear x_)
        | clear_value x_)
    | fail_if_no_progress (with_reducible refine follows_mk (side_of ?_))
    | with_reducible (first
        | refine follows_foldl ?_ ?_ | refine follows_ite_fst ?_ ?_ | refine follows_foldl_fst ?_ ?_
        | refine follows_of_fst (by assumption) ?_)
    | (split <;> try (rename_i e_; first
        | (refine and_of (follows_of_fst (a := b₀) e_ ?_) (fun h_ => ?_); clear e_)))

theorem follows_stepAnswer {b₀ s : State} (h : b₀.Follows s) (x1 : Answer) (job : Nat) :
    b₀.Follows (State.stepAnswer s x1 job) := by
  unfold State.stepAnswer
  repeat' first
    | with_reducible (first
        | assumption | refine follows_ite ?_ ?_ | apply follows_endChange | apply follows_placeThere | apply follows_releaseLoad
        | apply follows_runTodo)
    | (intro _; try beta_reduce)
    | (extract_lets +onlyGivenNames x_; first
        | (refine and_of (p := b₀.Follows x_) ?_ (fun h_ => ?_); (on_goal 2 => clear_value x_); (on_goal 1 => (unfold x_; clear x_)))
        | ((first | (have t_ : Boot := x_; clear t_) | (have t_ : Flash := x_; clear t_) | (have t_ : Jtag := x_; clear t_)); unfold x_; clear x_)
        | clear_value x_)
    | fail_if_no_progress (with_reducible refine follows_mk (side_of ?_))
    | with_reducible (first
        | refine follows_foldl ?_ ?_ | refine follows_ite_fst ?_ ?_ | refine follows_foldl_fst ?_ ?_
        | refine follows_of_fst (by assumption) ?_)
    | (split <;> try (rename_i e_; first
        | (refine and_of (follows_of_fst (a := b₀) e_ ?_) (fun h_ => ?_); clear e_)))

theorem follows_startUnload {b₀ s : State} (h : b₀.Follows s) (key : Nat) :
    b₀.Follows (State.startUnload s key) := by
  unfold State.startUnload
  repeat' first
    | with_reducible (first
        | assumption | refine follows_ite ?_ ?_ | apply follows_closeChange | apply follows_endChange | apply follows_free
        | apply follows_issue)
    | (intro _; try beta_reduce)
    | (extract_lets +onlyGivenNames x_; first
        | (refine and_of (p := b₀.Follows x_) ?_ (fun h_ => ?_); (on_goal 2 => clear_value x_); (on_goal 1 => (unfold x_; clear x_)))
        | ((first | (have t_ : Boot := x_; clear t_) | (have t_ : Flash := x_; clear t_) | (have t_ : Jtag := x_; clear t_)); unfold x_; clear x_)
        | clear_value x_)
    | fail_if_no_progress (with_reducible refine follows_mk (side_of ?_))
    | with_reducible (first
        | refine follows_foldl ?_ ?_ | refine follows_ite_fst ?_ ?_ | refine follows_foldl_fst ?_ ?_
        | refine follows_ite_snd ?_ ?_ | refine follows_of_fst (by assumption) ?_)
    | (split <;> try (rename_i e_; first
        | (refine and_of (follows_of_fst (a := b₀) e_ ?_) (fun h_ => ?_); clear e_)
        | (refine and_of (follows_of_snd (a := b₀) e_ ?_) (fun h_ => ?_); clear e_)))

theorem follows_actJobUnload {b₀ s : State} (h : b₀.Follows s) (key : Nat) :
    b₀.Follows (State.actJobUnload s key) := by
  unfold State.actJobUnload
  repeat' first
    | with_reducible (first
        | assumption | refine follows_ite ?_ ?_ | apply follows_change | apply follows_complete | apply follows_ifOk
        | apply follows_loaderCheck | apply follows_startUnload)
    | (intro _; try beta_reduce)
    | (extract_lets +onlyGivenNames x_; first
        | (refine and_of (p := b₀.Follows x_) ?_ (fun h_ => ?_); (on_goal 2 => clear_value x_); (on_goal 1 => (unfold x_; clear x_)))
        | ((first | (have t_ : Boot := x_; clear t_) | (have t_ : Flash := x_; clear t_) | (have t_ : Jtag := x_; clear t_)); unfold x_; clear x_)
        | clear_value x_)
    | fail_if_no_progress (with_reducible refine follows_mk (side_of ?_))
    | with_reducible (first
        | refine follows_foldl ?_ ?_ | refine follows_ite_fst ?_ ?_ | refine follows_foldl_fst ?_ ?_
        | refine follows_of_fst (by assumption) ?_)
    | (split <;> try (rename_i e_; first
        | (refine and_of (follows_of_fst (a := b₀) e_ ?_) (fun h_ => ?_); clear e_)))

theorem follows_execJobUnload {b₀ s : State} (h : b₀.Follows s) (port : Fin 16) (p : Packet) :
    b₀.Goes (execJobUnload port p s) := by
  unfold execJobUnload
  repeat' first
    | with_reducible (first
        | assumption | refine follows_ite ?_ ?_ | refine goes_next ?_ | apply follows_actJobUnload | apply follows_arrive)
    | (intro _; try beta_reduce)

end Sys2Proof.Machine
end

