-- ==== Sys2Proof/Laws/KeepCompletion.lean ====
section
/-!
SUPPORT. What the operations of Machine/Completion.lean can do to the parts that `State.Follows` speaks of.
-/

namespace Sys2Proof.Machine

set_option linter.unusedTactic false
set_option linter.unreachableTactic false
set_option linter.tactic.unusedName false

theorem follows_startChange {b₀ s : State} (h : b₀.Follows s) (c : Change) :
    b₀.Follows (State.startChange s c) := by
  unfold State.startChange
  repeat' first
    | with_reducible (first
        | assumption | refine follows_ite ?_ ?_ | apply follows_closeChange | apply follows_startDeclare
        | apply follows_startLoad | apply follows_startSilent | apply follows_startUnload)
    | (intro _; try beta_reduce)
    | (extract_lets +onlyGivenNames x_; first
        | (refine and_of (p := b₀.Follows x_) ?_ (fun h_ => ?_); (on_goal 2 => clear_value x_); (on_goal 1 => (unfold x_; clear x_)))
        | ((first | (have t_ : Boot := x_; clear t_) | (have t_ : Flash := x_; clear t_) | (have t_ : Jtag := x_; clear t_)); unfold x_; clear x_)
        | clear_value x_)
    | fail_if_no_progress (with_reducible refine follows_mk (side_of ?_))
    | with_reducible (first
        | refine follows_foldl ?_ ?_ | refine follows_ite_fst ?_ ?_ | refine follows_foldl_fst ?_ ?_
        | refine follows_of_fst (by assumption) ?_)
    | (split <;> try (rename_i e_; first
        | (refine and_of (follows_of_fst (a := b₀) e_ ?_) (fun h_ => ?_); clear e_)))

theorem follows_managerAnswer {b₀ s : State} (h : b₀.Follows s) (kind target : Nat) (x3 : Answer) :
    b₀.Follows (State.managerAnswer s kind target x3) := by
  unfold State.managerAnswer
  repeat' first
    | with_reducible (first
        | assumption | refine follows_ite ?_ ?_ | apply follows_epStateAnswer | apply follows_homeAnswer
        | apply follows_mirrorAnswer | apply follows_roleAnswer | apply follows_startChange | apply follows_takeBackAnswer)
    | (intro _; try beta_reduce)
    | fail_if_no_progress (with_reducible refine follows_mk (side_of ?_))
    | with_reducible (first
        | refine follows_foldl ?_ ?_ | refine follows_ite_fst ?_ ?_ | refine follows_foldl_fst ?_ ?_)

theorem follows_answer {b₀ s : State} (h : b₀.Follows s) (x1 : Answer) :
    b₀.Follows (State.answer s x1) := by
  unfold State.answer
  repeat' first
    | with_reducible (first
        | assumption | refine follows_ite ?_ ?_ | apply follows_fwdAnswer | apply follows_gatherAnswer
        | apply follows_managerAnswer | apply follows_moverAnswer | apply follows_placeAnswer | apply follows_removeAnswer
        | apply follows_snoopAnswer | apply follows_stepAnswer)
    | (intro _; try beta_reduce)
    | (extract_lets +onlyGivenNames x_; first
        | (refine and_of (p := b₀.Follows x_) ?_ (fun h_ => ?_); (on_goal 2 => clear_value x_); (on_goal 1 => (unfold x_; clear x_)))
        | ((first | (have t_ : Boot := x_; clear t_) | (have t_ : Flash := x_; clear t_) | (have t_ : Jtag := x_; clear t_)); unfold x_; clear x_)
        | clear_value x_)
    | fail_if_no_progress (with_reducible refine follows_mk (side_of ?_))
    | with_reducible (first
        | refine follows_foldl ?_ ?_ | refine follows_ite_fst ?_ ?_ | refine follows_foldl_fst ?_ ?_
        | refine follows_of_fst (by assumption) ?_)
    | (split <;> try (rename_i e_; first
        | (refine and_of (follows_of_fst (a := b₀) e_ ?_) (fun h_ => ?_); clear e_)))

theorem follows_answered {b₀ s : State} (h : b₀.Follows s) (x1 : Answer) :
    b₀.Follows (State.answered s x1) := by
  unfold State.answered
  repeat' first
    | with_reducible (first
        | assumption | refine follows_ite ?_ ?_ | apply follows_answer | apply follows_engineRetry)
    | (intro _; try beta_reduce)

theorem follows_execCmpl {b₀ s : State} (h : b₀.Follows s) (port : Fin 16) (p : Packet) :
    b₀.Goes (execCmpl port p s) := by
  unfold execCmpl
  repeat' first
    | with_reducible (first
        | assumption | refine follows_ite ?_ ?_ | refine goes_next ?_ | apply follows_answered | apply follows_arriveCmpl)
    | (intro _; try beta_reduce)

theorem follows_execJobPlaceComplete {b₀ s : State} (h : b₀.Follows s) (port : Fin 16) (p : Packet) :
    b₀.Goes (execJobPlaceComplete port p s) := by
  unfold execJobPlaceComplete
  repeat' first
    | with_reducible (first
        | assumption | refine follows_ite ?_ ?_ | refine goes_next ?_ | apply follows_answered | apply follows_arriveCmpl
        | apply follows_onlyIf)
    | (intro _; try beta_reduce)

theorem follows_endRequest {b₀ s : State} (h : b₀.Follows s) (i : Nat) (req : Packet) (what : Purpose) (status : Nat) :
    b₀.Follows (State.endRequest s i req what status) := by
  unfold State.endRequest
  repeat' first
    | with_reducible (first
        | assumption | refine follows_ite ?_ ?_ | apply follows_answered | apply follows_guardOutSlot)
    | (intro _; try beta_reduce)

theorem follows_timedOut {b₀ s : State} (h : b₀.Follows s) (i : Nat) (req : Packet) (what : Purpose) :
    b₀.Follows (State.timedOut s i req what) := by
  unfold State.timedOut
  repeat' first
    | with_reducible (first
        | assumption | refine follows_ite ?_ ?_ | apply follows_bump | apply follows_endRequest)
    | (intro _; try beta_reduce)

theorem follows_execOutboundTimeout {b₀ s : State} (h : b₀.Follows s) (slot : Fin 16384) :
    b₀.Goes (execOutboundTimeout slot s) := by
  unfold execOutboundTimeout
  repeat' first
    | with_reducible (first
        | assumption | refine follows_ite ?_ ?_ | refine goes_next ?_ | apply follows_elapseTo | apply follows_timedOut)
    | (intro _; try beta_reduce)
    | (extract_lets +onlyGivenNames x_; first
        | (refine and_of (p := b₀.Follows x_) ?_ (fun h_ => ?_); (on_goal 2 => clear_value x_); (on_goal 1 => (unfold x_; clear x_)))
        | ((first | (have t_ : Boot := x_; clear t_) | (have t_ : Flash := x_; clear t_) | (have t_ : Jtag := x_; clear t_)); unfold x_; clear x_)
        | clear_value x_)
    | fail_if_no_progress (with_reducible refine follows_mk (side_of ?_))
    | with_reducible (first
        | refine follows_foldl ?_ ?_ | refine follows_ite_fst ?_ ?_ | refine follows_foldl_fst ?_ ?_ | refine goes_ite ?_ ?_
        | refine follows_of_fst (by assumption) ?_)
    | (split <;> try (rename_i e_; first
        | (refine and_of (follows_of_fst (a := b₀) e_ ?_) (fun h_ => ?_); clear e_)))

theorem follows_execOutboundGuardEnd {b₀ s : State} (h : b₀.Follows s) (slot : Fin 16384) :
    b₀.Goes (execOutboundGuardEnd slot s) := by
  unfold execOutboundGuardEnd
  repeat' first
    | with_reducible (first
        | assumption | refine follows_ite ?_ ?_ | refine goes_next ?_ | apply follows_elapseTo | apply follows_freeOutSlot)
    | (intro _; try beta_reduce)
    | (extract_lets +onlyGivenNames x_; first
        | (refine and_of (p := b₀.Follows x_) ?_ (fun h_ => ?_); (on_goal 2 => clear_value x_); (on_goal 1 => (unfold x_; clear x_)))
        | ((first | (have t_ : Boot := x_; clear t_) | (have t_ : Flash := x_; clear t_) | (have t_ : Jtag := x_; clear t_)); unfold x_; clear x_)
        | clear_value x_)
    | fail_if_no_progress (with_reducible refine follows_mk (side_of ?_))
    | with_reducible (first
        | refine follows_foldl ?_ ?_ | refine follows_ite_fst ?_ ?_ | refine follows_foldl_fst ?_ ?_ | refine goes_ite ?_ ?_
        | refine follows_of_fst (by assumption) ?_)
    | (split <;> try (rename_i e_; first
        | (refine and_of (follows_of_fst (a := b₀) e_ ?_) (fun h_ => ?_); clear e_)))

theorem follows_resend {b₀ s : State} (h : b₀.Follows s) (i : Nat) (o : OutSlot) (req : Packet) (what : Purpose) :
    b₀.Follows (State.resend s i o req what) := by
  unfold State.resend
  repeat' first
    | with_reducible (first
        | assumption | refine follows_ite ?_ ?_ | apply follows_bump | apply follows_seal | apply follows_send
        | apply follows_setOut)
    | (intro _; try beta_reduce)

theorem follows_execE2eRetry {b₀ s : State} (h : b₀.Follows s) (slot : Fin 16384) :
    b₀.Goes (execE2eRetry slot s) := by
  unfold execE2eRetry
  repeat' first
    | with_reducible (first
        | assumption | refine follows_ite ?_ ?_ | refine goes_next ?_ | apply follows_elapseTo | apply follows_endRequest
        | apply follows_resend | apply follows_timedOut)
    | (intro _; try beta_reduce)
    | (extract_lets +onlyGivenNames x_; first
        | (refine and_of (p := b₀.Follows x_) ?_ (fun h_ => ?_); (on_goal 2 => clear_value x_); (on_goal 1 => (unfold x_; clear x_)))
        | ((first | (have t_ : Boot := x_; clear t_) | (have t_ : Flash := x_; clear t_) | (have t_ : Jtag := x_; clear t_)); unfold x_; clear x_)
        | clear_value x_)
    | fail_if_no_progress (with_reducible refine follows_mk (side_of ?_))
    | with_reducible (first
        | refine follows_foldl ?_ ?_ | refine follows_ite_fst ?_ ?_ | refine follows_foldl_fst ?_ ?_ | refine goes_ite ?_ ?_
        | refine follows_of_fst (by assumption) ?_)
    | (split <;> try (rename_i e_; first
        | (refine and_of (follows_of_fst (a := b₀) e_ ?_) (fun h_ => ?_); clear e_)))

theorem follows_execKeyRetireDeadline {b₀ s : State} (h : b₀.Follows s) (slot : Fin 1024) :
    b₀.Goes (execKeyRetireDeadline slot s) := by
  unfold execKeyRetireDeadline
  repeat' first
    | with_reducible (first
        | assumption | refine follows_ite ?_ ?_ | refine goes_next ?_ | apply follows_answered | apply follows_elapseTo
        | apply follows_endKeyRefs | apply follows_zeroize)
    | (intro _; try beta_reduce)
    | fail_if_no_progress (with_reducible refine follows_mk (side_of ?_))
    | with_reducible (first
        | refine follows_foldl ?_ ?_ | refine follows_ite_fst ?_ ?_ | refine follows_foldl_fst ?_ ?_ | refine goes_ite ?_ ?_)

theorem follows_execDoneRecordExpire {b₀ s : State} (h : b₀.Follows s) (src tag : Nat) :
    b₀.Goes (execDoneRecordExpire src tag s) := by
  unfold execDoneRecordExpire
  repeat' first
    | with_reducible (first
        | assumption | refine follows_ite ?_ ?_ | refine goes_next ?_ | apply follows_elapseTo)
    | (intro _; try beta_reduce)
    | (extract_lets +onlyGivenNames x_; first
        | (refine and_of (p := b₀.Follows x_) ?_ (fun h_ => ?_); (on_goal 2 => clear_value x_); (on_goal 1 => (unfold x_; clear x_)))
        | ((first | (have t_ : Boot := x_; clear t_) | (have t_ : Flash := x_; clear t_) | (have t_ : Jtag := x_; clear t_)); unfold x_; clear x_)
        | clear_value x_)
    | fail_if_no_progress (with_reducible refine follows_mk (side_of ?_))
    | with_reducible (first
        | refine follows_foldl ?_ ?_ | refine follows_ite_fst ?_ ?_ | refine follows_foldl_fst ?_ ?_ | refine goes_ite ?_ ?_
        | refine follows_of_fst (by assumption) ?_)
    | (split <;> try (rename_i e_; first
        | (refine and_of (follows_of_fst (a := b₀) e_ ?_) (fun h_ => ?_); clear e_)))

theorem follows_headerLost {b₀ s : State} (h : b₀.Follows s) (unit key : Nat) :
    b₀.Follows (State.headerLost s unit key) := by
  unfold State.headerLost
  repeat' first
    | with_reducible (first
        | assumption | refine follows_ite ?_ ?_ | apply follows_force | apply follows_saveFail | apply follows_xferError)
    | (intro _; try beta_reduce)
    | (extract_lets +onlyGivenNames x_; first
        | (refine and_of (p := b₀.Follows x_) ?_ (fun h_ => ?_); (on_goal 2 => clear_value x_); (on_goal 1 => (unfold x_; clear x_)))
        | ((first | (have t_ : Boot := x_; clear t_) | (have t_ : Flash := x_; clear t_) | (have t_ : Jtag := x_; clear t_)); unfold x_; clear x_)
        | clear_value x_)
    | fail_if_no_progress (with_reducible refine follows_mk (side_of ?_))
    | with_reducible (first
        | refine follows_foldl ?_ ?_ | refine follows_ite_fst ?_ ?_ | refine follows_foldl_fst ?_ ?_
        | refine follows_of_fst (by assumption) ?_)
    | (split <;> try (rename_i e_; first
        | (refine and_of (follows_of_fst (a := b₀) e_ ?_) (fun h_ => ?_); clear e_)))

theorem follows_execBeamHdrError {b₀ s : State} (h : b₀.Follows s) (unit src tag : Nat) :
    b₀.Goes (execBeamHdrError unit src tag s) := by
  unfold execBeamHdrError
  repeat' first
    | with_reducible (first
        | assumption | refine follows_ite ?_ ?_ | refine goes_next ?_ | apply follows_headerLost | apply follows_postMgr
        | apply follows_raise)
    | (intro _; try beta_reduce)

end Sys2Proof.Machine
end

