-- ==== Sys2Proof/Laws/KeepTally.lean ====
section
/-!
SUPPORT. What the operations of Machine/Tally.lean can do to the parts that `State.Follows` speaks of.
-/

namespace Sys2Proof.Machine

set_option linter.unusedTactic false
set_option linter.unreachableTactic false
set_option linter.tactic.unusedName false

theorem follows_setTallyPage {b₀ s : State} (h : b₀.Follows s) (base : Nat) (t : TallyPage) :
    b₀.Follows (State.setTallyPage s base t) := by
  unfold State.setTallyPage
  repeat' first
    | with_reducible (first
        | assumption | refine follows_ite ?_ ?_)
    | (intro _; try beta_reduce)
    | fail_if_no_progress (with_reducible refine follows_mk (side_of ?_))
    | with_reducible (first
        | refine follows_foldl ?_ ?_ | refine follows_ite_fst ?_ ?_ | refine follows_foldl_fst ?_ ?_)

theorem follows_writeSel {b₀ s : State} (h : b₀.Follows s) (k : PageKind) (base n : Nat) (w : Word) :
    b₀.Follows (State.writeSel s k base n w).1 := by
  unfold State.writeSel
  repeat' first
    | with_reducible (first
        | assumption | refine follows_ite ?_ ?_ | apply follows_setTallyPage)
    | (intro _; try beta_reduce)
    | fail_if_no_progress (with_reducible refine follows_mk (side_of ?_))
    | with_reducible (first
        | refine follows_foldl ?_ ?_ | refine follows_ite_fst ?_ ?_ | refine follows_foldl_fst ?_ ?_)

theorem follows_snapshot {b₀ s : State} (h : b₀.Follows s) (base : Nat) :
    b₀.Follows (State.snapshot s base) := by
  unfold State.snapshot
  repeat' first
    | with_reducible (first
        | assumption | refine follows_ite ?_ ?_ | apply follows_setTallyPage)
    | (intro _; try beta_reduce)

theorem follows_writeTally {b₀ s : State} (h : b₀.Follows s) (k : PageKind) (base off : Nat) (w : Word) :
    b₀.Follows (State.writeTally s k base off w).1 := by
  unfold State.writeTally
  repeat' first
    | with_reducible (first
        | assumption | refine follows_ite ?_ ?_ | apply follows_setTallyPage | apply follows_snapshot | apply follows_writeSel)
    | (intro _; try beta_reduce)
    | fail_if_no_progress (with_reducible refine follows_mk (side_of ?_))
    | with_reducible (first
        | refine follows_foldl ?_ ?_ | refine follows_ite_fst ?_ ?_ | refine follows_foldl_fst ?_ ?_)

theorem follows_tallyRead {b₀ s : State} (h : b₀.Follows s) (key : Nat) :
    b₀.Follows (State.tallyRead s key) := by
  unfold State.tallyRead
  repeat' first
    | with_reducible (first
        | assumption | refine follows_ite ?_ ?_ | apply follows_complete | apply follows_tally)
    | (intro _; try beta_reduce)
    | (extract_lets +onlyGivenNames x_; first
        | (refine and_of (p := b₀.Follows x_) ?_ (fun h_ => ?_); (on_goal 2 => clear_value x_); (on_goal 1 => (unfold x_; clear x_)))
        | ((first | (have t_ : Boot := x_; clear t_) | (have t_ : Flash := x_; clear t_) | (have t_ : Jtag := x_; clear t_)); unfold x_; clear x_)
        | clear_value x_)
    | fail_if_no_progress (with_reducible refine follows_mk (side_of ?_))
    | with_reducible (first
        | refine follows_foldl ?_ ?_ | refine follows_ite_fst ?_ ?_ | refine follows_foldl_fst ?_ ?_
        | refine follows_of_fst (by assumption) ?_)
    | (split <;> try (rename_i e_; first
        | (refine and_of (follows_of_fst (a := b₀) e_ ?_) (fun h_ => ?_); clear e_)))

theorem follows_execTallyRead {b₀ s : State} (h : b₀.Follows s) (port : Fin 16) (p : Packet) :
    b₀.Goes (execTallyRead port p s) := by
  unfold execTallyRead
  repeat' first
    | with_reducible (first
        | assumption | refine follows_ite ?_ ?_ | refine goes_next ?_ | apply follows_arrive | apply follows_tallyRead)
    | (intro _; try beta_reduce)

theorem follows_execBwWindowEnd {b₀ s : State} (h : b₀.Follows s) :
    b₀.Goes (execBwWindowEnd s) := by
  unfold execBwWindowEnd
  repeat' first
    | with_reducible (first
        | assumption | refine follows_ite ?_ ?_ | refine goes_next ?_ | apply follows_elapseToTick | apply follows_raise)
    | (intro _; try beta_reduce)
    | fail_if_no_progress (with_reducible refine follows_mk (side_of ?_))
    | with_reducible (first
        | refine follows_foldl ?_ ?_ | refine follows_ite_fst ?_ ?_ | refine follows_foldl_fst ?_ ?_ | refine goes_ite ?_ ?_)

theorem follows_bwSwapped {b₀ s : State} (h : b₀.Follows s) (old : RegMap) :
    b₀.Follows (State.bwSwapped s old) := by
  unfold State.bwSwapped
  repeat' first
    | with_reducible (first
        | assumption | refine follows_ite ?_ ?_)
    | (intro _; try beta_reduce)
    | fail_if_no_progress (with_reducible refine follows_mk (side_of ?_))
    | with_reducible (first
        | refine follows_foldl ?_ ?_ | refine follows_ite_fst ?_ ?_ | refine follows_foldl_fst ?_ ?_)

end Sys2Proof.Machine
end

