-- ==== Sys2Proof/Laws/KeepSwap.lean ====
section
/-!
SUPPORT. What the operations of Machine/Swap.lean can do to the parts that `State.Follows` speaks of.
-/

namespace Sys2Proof.Machine

set_option linter.unusedTactic false
set_option linter.unreachableTactic false
set_option linter.tactic.unusedName false

theorem follows_swapFired {b₀ s : State} (h : b₀.Follows s) :
    b₀.Follows (State.swapFired s) := by
  unfold State.swapFired
  repeat' first
    | with_reducible (first
        | assumption | refine follows_ite ?_ ?_ | apply follows_raise)
    | (intro _; try beta_reduce)
    | fail_if_no_progress (with_reducible refine follows_mk (side_of ?_))
    | with_reducible (first
        | refine follows_foldl ?_ ?_ | refine follows_ite_fst ?_ ?_ | refine follows_foldl_fst ?_ ?_)

theorem follows_pwrSwapped {b₀ s : State} (h : b₀.Follows s) :
    b₀.Follows (State.pwrSwapped s) := by
  unfold State.pwrSwapped
  repeat' first
    | with_reducible (first
        | assumption | refine follows_ite ?_ ?_ | apply follows_decideStep)
    | (intro _; try beta_reduce)
    | fail_if_no_progress (with_reducible refine follows_mk (side_of ?_))
    | with_reducible (first
        | refine follows_foldl ?_ ?_ | refine follows_ite_fst ?_ ?_ | refine follows_foldl_fst ?_ ?_)

theorem follows_rtrSwapped {b₀ s : State} (h : b₀.Follows s) :
    b₀.Follows (State.rtrSwapped s) := by
  unfold State.rtrSwapped
  repeat' first
    | with_reducible (first
        | assumption | refine follows_ite ?_ ?_ | apply follows_unhold)
    | (intro _; try beta_reduce)
    | fail_if_no_progress (with_reducible refine follows_mk (side_of ?_))
    | with_reducible (first
        | refine follows_foldl ?_ ?_ | refine follows_ite_fst ?_ ?_ | refine follows_foldl_fst ?_ ?_)

theorem follows_frmSwapped {b₀ s : State} (h : b₀.Follows s) (was : State) (f : Nat) :
    b₀.Follows (State.frmSwapped s was f) := by
  unfold State.frmSwapped
  repeat' first
    | with_reducible (first
        | assumption | refine follows_ite ?_ ?_ | apply follows_setFrame | apply follows_startSwitch)
    | (intro _; try beta_reduce)

theorem follows_swapEffects {b₀ s : State} (h : b₀.Follows s) (was : State) :
    b₀.Follows (State.swapEffects s was) := by
  unfold State.swapEffects
  repeat' first
    | with_reducible (first
        | assumption | refine follows_ite ?_ ?_ | apply follows_bwSwapped | apply follows_deriveCtrl | apply follows_frmSwapped
        | apply follows_lnkSwapped | apply follows_loaderClear | apply follows_pwrSwapped | apply follows_qosSwapped
        | apply follows_rtrSwapped)
    | (intro _; try beta_reduce)
    | fail_if_no_progress (with_reducible refine follows_mk (side_of ?_))
    | with_reducible (first
        | refine follows_foldl ?_ ?_ | refine follows_ite_fst ?_ ?_ | refine follows_foldl_fst ?_ ?_)

theorem follows_fireSwap {b₀ s : State} (h : b₀.Follows s) (id tick : Nat) :
    b₀.Follows (State.fireSwap s id tick) := by
  unfold State.fireSwap
  repeat' first
    | with_reducible (first
        | assumption | refine follows_ite ?_ ?_ | apply follows_exchange | apply follows_swapEffects | apply follows_swapFired)
    | (intro _; try beta_reduce)

theorem follows_execSwapFire {b₀ s : State} (h : b₀.Follows s) :
    b₀.Goes (execSwapFire s) := by
  unfold execSwapFire
  repeat' first
    | with_reducible (first
        | assumption | refine follows_ite ?_ ?_ | refine goes_next ?_ | apply follows_elapseToTick | apply follows_fireSwap
        | apply follows_onlyIf)
    | (intro _; try beta_reduce)
    | (extract_lets +onlyGivenNames x_; first
        | (refine and_of (p := b₀.Follows x_) ?_ (fun h_ => ?_); (on_goal 2 => clear_value x_); (on_goal 1 => (unfold x_; clear x_)))
        | ((first | (have t_ : Boot := x_; clear t_) | (have t_ : Flash := x_; clear t_) | (have t_ : Jtag := x_; clear t_)); unfold x_; clear x_)
        | clear_value x_)
    | fail_if_no_progress (with_reducible refine follows_mk (side_of ?_))
    | with_reducible (first
        | refine follows_foldl ?_ ?_ | refine follows_ite_fst ?_ ?_ | refine follows_foldl_fst ?_ ?_ | refine goes_ite ?_ ?_
        | refine follows_of_fst (by assumption) ?_)
    | (split <;> try (rename_i e_; first
        | (refine and_of (follows_of_fst (a := b₀) e_ ?_) (fun h_ => ?_); clear e_)))

theorem follows_shadowSync {b₀ s : State} (h : b₀.Follows s) :
    b₀.Follows (State.shadowSync s) := by
  unfold State.shadowSync
  repeat' first
    | with_reducible (first
        | assumption | refine follows_ite ?_ ?_)
    | (intro _; try beta_reduce)
    | fail_if_no_progress (with_reducible refine follows_mk (side_of ?_))
    | with_reducible (first
        | refine follows_foldl ?_ ?_ | refine follows_ite_fst ?_ ?_ | refine follows_foldl_fst ?_ ?_)

end Sys2Proof.Machine
end

