-- ==== Sys2Proof/Laws/KeepChecking.lean ====
section
/-!
SUPPORT. What the operations of Machine/Checking.lean can do to the parts that `State.Follows` speaks of.
-/

namespace Sys2Proof.Machine

set_option linter.unusedTactic false
set_option linter.unreachableTactic false
set_option linter.tactic.unusedName false

theorem follows_execCheckMismatch {b₀ s : State} (h : b₀.Follows s) (f : Fin 32) (sigR sigS : Nat) :
    b₀.Goes (execCheckMismatch f sigR sigS s) := by
  unfold execCheckMismatch
  repeat' first
    | with_reducible (first
        | assumption | refine follows_ite ?_ ?_ | refine goes_next ?_ | apply follows_loadThird | apply follows_onlyIf
        | apply follows_setCheck | apply follows_setRod | apply follows_takeThird)
    | (intro _; try beta_reduce)
    | (extract_lets +onlyGivenNames x_; first
        | (refine and_of (p := b₀.Follows x_) ?_ (fun h_ => ?_); (on_goal 2 => clear_value x_); (on_goal 1 => (unfold x_; clear x_)))
        | ((first | (have t_ : Boot := x_; clear t_) | (have t_ : Flash := x_; clear t_) | (have t_ : Jtag := x_; clear t_)); unfold x_; clear x_)
        | clear_value x_)
    | fail_if_no_progress (with_reducible refine follows_mk (side_of ?_))
    | with_reducible (first
        | refine follows_foldl ?_ ?_ | refine follows_ite_fst ?_ ?_ | refine follows_foldl_fst ?_ ?_ | refine goes_ite ?_ ?_
        | refine follows_of_fst (by assumption) ?_)
    | (split <;> try (rename_i e_; first
        | (refine and_of (follows_of_fst (a := b₀) e_ ?_) (fun h_ => ?_); clear e_)))

theorem follows_postVote {b₀ s : State} (h : b₀.Follows s) (f k outcome posR posX : Nat) :
    b₀.Follows (State.postVote s f k outcome posR posX) := by
  unfold State.postVote
  repeat' first
    | with_reducible (first
        | assumption | refine follows_ite ?_ ?_ | apply follows_bump | apply follows_postMgr | apply follows_raise)
    | (intro _; try beta_reduce)

theorem follows_keepRedo {b₀ s : State} (h : b₀.Follows s) (f k : Nat) (r : Rod) :
    b₀.Follows (State.keepRedo s f k r) := by
  unfold State.keepRedo
  repeat' first
    | with_reducible (first
        | assumption | refine follows_ite ?_ ?_ | apply follows_setFrame)
    | (intro _; try beta_reduce)

theorem follows_voted {b₀ s : State} (h : b₀.Follows s) (f k posR : Nat) (snapshot : RodRegs) (outcome : Nat) :
    b₀.Follows (State.voted s f k posR snapshot outcome) := by
  unfold State.voted
  repeat' first
    | with_reducible (first
        | assumption | refine follows_ite ?_ ?_ | apply follows_bump | apply follows_bumpHalf | apply follows_keepRedo
        | apply follows_postCtx | apply follows_raise | apply follows_setFrame | apply follows_setRod)
    | (intro _; try beta_reduce)
    | (extract_lets +onlyGivenNames x_; first
        | (refine and_of (p := b₀.Follows x_) ?_ (fun h_ => ?_); (on_goal 2 => clear_value x_); (on_goal 1 => (unfold x_; clear x_)))
        | ((first | (have t_ : Boot := x_; clear t_) | (have t_ : Flash := x_; clear t_) | (have t_ : Jtag := x_; clear t_)); unfold x_; clear x_)
        | clear_value x_)
    | fail_if_no_progress (with_reducible refine follows_mk (side_of ?_))
    | with_reducible (first
        | refine follows_foldl ?_ ?_ | refine follows_ite_fst ?_ ?_ | refine follows_foldl_fst ?_ ?_
        | refine follows_of_fst (by assumption) ?_)
    | (split <;> try (rename_i e_; first
        | (refine and_of (follows_of_fst (a := b₀) e_ ?_) (fun h_ => ?_); clear e_)))

theorem follows_afterVote {b₀ s : State} (h : b₀.Follows s) (f k : Nat) :
    b₀.Follows (State.afterVote s f k) := by
  unfold State.afterVote
  repeat' first
    | with_reducible (first
        | assumption | refine follows_ite ?_ ?_ | apply follows_keepRedo | apply follows_setFrame | apply follows_setRod
        | apply follows_switchAll)
    | (intro _; try beta_reduce)

theorem follows_execVoteDone {b₀ s : State} (h : b₀.Follows s) (f : Fin 32) :
    b₀.Goes (execVoteDone f s) := by
  unfold execVoteDone
  repeat' first
    | with_reducible (first
        | assumption | refine follows_ite ?_ ?_ | refine goes_next ?_ | apply follows_afterVote | apply follows_freeSpare
        | apply follows_onlyIf | apply follows_postVote | apply follows_returnThird | apply follows_setCheck
        | apply follows_voted)
    | (intro _; try beta_reduce)
    | (extract_lets +onlyGivenNames x_; first
        | (refine and_of (p := b₀.Follows x_) ?_ (fun h_ => ?_); (on_goal 2 => clear_value x_); (on_goal 1 => (unfold x_; clear x_)))
        | ((first | (have t_ : Boot := x_; clear t_) | (have t_ : Flash := x_; clear t_) | (have t_ : Jtag := x_; clear t_)); unfold x_; clear x_)
        | clear_value x_)
    | fail_if_no_progress (with_reducible refine follows_mk (side_of ?_))
    | with_reducible (first
        | refine follows_foldl ?_ ?_ | refine follows_ite_fst ?_ ?_ | refine follows_foldl_fst ?_ ?_ | refine goes_ite ?_ ?_
        | refine follows_of_fst (by assumption) ?_)
    | (split <;> try (rename_i e_; first
        | (refine and_of (follows_of_fst (a := b₀) e_ ?_) (fun h_ => ?_); clear e_)))

end Sys2Proof.Machine
end

