-- ==== Sys2Proof/Laws/KeepRegWrite.lean ====
section
/-!
SUPPORT. What the operations of Machine/RegWrite.lean can do to the parts that `State.Follows` speaks of.
-/

namespace Sys2Proof.Machine

set_option linter.unusedTactic false
set_option linter.unreachableTactic false
set_option linter.tactic.unusedName false

theorem follows_setEnPort {b₀ s : State} (h : b₀.Follows s) (w : Nat) :
    b₀.Follows (State.setEnPort s w) := by
  unfold State.setEnPort
  repeat' first
    | with_reducible (first
        | assumption | refine follows_ite ?_ ?_ | apply follows_portOff | apply follows_tryTrain)
    | (intro _; try beta_reduce)
    | fail_if_no_progress (with_reducible refine follows_mk (side_of ?_))
    | with_reducible (first
        | refine follows_foldl ?_ ?_ | refine follows_ite_fst ?_ ?_ | refine follows_foldl_fst ?_ ?_)

theorem follows_writeEnable {b₀ s : State} (h : b₀.Follows s) (off v : Nat) :
    b₀.Follows (State.writeEnable s off v).1 := by
  unfold State.writeEnable
  repeat' first
    | with_reducible (first
        | assumption | refine follows_ite ?_ ?_ | apply follows_setEnPort)
    | (intro _; try beta_reduce)
    | fail_if_no_progress (with_reducible refine follows_mk (side_of ?_))
    | with_reducible (first
        | refine follows_foldl ?_ ?_ | refine follows_ite_fst ?_ ?_ | refine follows_foldl_fst ?_ ?_)

theorem follows_writeSource {b₀ s : State} (h : b₀.Follows s) (v : Nat) :
    b₀.Follows (State.writeSource s v).1 := by
  unfold State.writeSource
  repeat' first
    | with_reducible (first
        | assumption | refine follows_ite ?_ ?_)
    | (intro _; try beta_reduce)
    | fail_if_no_progress (with_reducible refine follows_mk (side_of ?_))
    | with_reducible (first
        | refine follows_foldl ?_ ?_ | refine follows_ite_fst ?_ ?_ | refine follows_foldl_fst ?_ ?_)

theorem follows_writeW1c {b₀ s : State} (h : b₀.Follows s) (x1 mask : Nat) (w : Word) :
    b₀.Follows (State.writeW1c s x1 mask w) := by
  unfold State.writeW1c
  repeat' first
    | with_reducible (first
        | assumption | refine follows_ite ?_ ?_ | apply follows_setReg)
    | (intro _; try beta_reduce)

theorem follows_writeRw {b₀ s : State} (h : b₀.Follows s) (x1 mask : Nat) (w : Word) :
    b₀.Follows (State.writeRw s x1 mask w) := by
  unfold State.writeRw
  repeat' first
    | with_reducible (first
        | assumption | refine follows_ite ?_ ?_ | apply follows_setReg)
    | (intro _; try beta_reduce)

theorem follows_writeInject {b₀ s : State} (h : b₀.Follows s) (off : Nat) (w : Word) :
    b₀.Follows (State.writeInject s off w).1 := by
  unfold State.writeInject
  repeat' first
    | with_reducible (first
        | assumption | refine follows_ite ?_ ?_ | apply follows_writeRw)
    | (intro _; try beta_reduce)
    | fail_if_no_progress (with_reducible refine follows_mk (side_of ?_))
    | with_reducible (first
        | refine follows_foldl ?_ ?_ | refine follows_ite_fst ?_ ?_ | refine follows_foldl_fst ?_ ?_)

theorem follows_writeEcc {b₀ s : State} (h : b₀.Follows s) (off : Nat) (w : Word) :
    b₀.Follows (State.writeEcc s off w).1 := by
  unfold State.writeEcc
  repeat' first
    | with_reducible (first
        | assumption | refine follows_ite ?_ ?_ | apply follows_reload | apply follows_writeInject | apply follows_writeRw)
    | (intro _; try beta_reduce)
    | fail_if_no_progress (with_reducible refine follows_mk (side_of ?_))
    | with_reducible (first
        | refine follows_foldl ?_ ?_ | refine follows_ite_fst ?_ ?_ | refine follows_foldl_fst ?_ ?_)

theorem follows_writeSpare {b₀ s : State} (h : b₀.Follows s) (f : Nat) (w : Word) :
    b₀.Follows (State.writeSpare s f w).1 := by
  unfold State.writeSpare
  repeat' first
    | with_reducible (first
        | assumption | refine follows_ite ?_ ?_ | apply follows_endCheck | apply follows_setFrame)
    | (intro _; try beta_reduce)
    | fail_if_no_progress (with_reducible refine follows_mk (side_of ?_))
    | with_reducible (first
        | refine follows_foldl ?_ ?_ | refine follows_ite_fst ?_ ?_ | refine follows_foldl_fst ?_ ?_)

theorem follows_writeFlip {b₀ s : State} (h : b₀.Follows s) (w : Word) :
    b₀.Follows (State.writeFlip s w).1 := by
  unfold State.writeFlip
  repeat' first
    | with_reducible (first
        | assumption | refine follows_ite ?_ ?_ | apply follows_notify | apply follows_writeFlipCtl)
    | (intro _; try beta_reduce)
    | (extract_lets +onlyGivenNames x_; first
        | (refine and_of (p := b₀.Follows x_) ?_ (fun h_ => ?_); (on_goal 2 => clear_value x_); (on_goal 1 => (unfold x_; clear x_)))
        | ((first | (have t_ : Boot := x_; clear t_) | (have t_ : Flash := x_; clear t_) | (have t_ : Jtag := x_; clear t_)); unfold x_; clear x_)
        | clear_value x_)
    | fail_if_no_progress (with_reducible refine follows_mk (side_of ?_))
    | with_reducible (first
        | refine follows_foldl ?_ ?_ | refine follows_ite_fst ?_ ?_ | refine follows_foldl_fst ?_ ?_
        | refine follows_of_fst (by assumption) ?_)
    | (split <;> try (rename_i e_; first
        | (refine and_of (follows_of_fst (a := b₀) e_ ?_) (fun h_ => ?_); clear e_)))

theorem follows_writeBlock {b₀ s : State} (h : b₀.Follows s) (k : PageKind) (i off : Nat) (w : Word) :
    b₀.Follows (State.writeBlock s k i off w).1 := by
  unfold State.writeBlock
  repeat' first
    | with_reducible (first
        | assumption | refine follows_ite ?_ ?_ | apply follows_writeEcc | apply follows_writeEnable | apply follows_writeFlip
        | apply follows_writeLnkCtrl | apply follows_writeQos | apply follows_writeRtr | apply follows_writeRw
        | apply follows_writeSource | apply follows_writeSpare | apply follows_writeSrForce | apply follows_writeW1c)
    | (intro _; try beta_reduce)
    | (extract_lets +onlyGivenNames x_; first
        | (refine and_of (p := b₀.Follows x_) ?_ (fun h_ => ?_); (on_goal 2 => clear_value x_); (on_goal 1 => (unfold x_; clear x_)))
        | ((first | (have t_ : Boot := x_; clear t_) | (have t_ : Flash := x_; clear t_) | (have t_ : Jtag := x_; clear t_)); unfold x_; clear x_)
        | clear_value x_)
    | fail_if_no_progress (with_reducible refine follows_mk (side_of ?_))
    | with_reducible (first
        | refine follows_foldl ?_ ?_ | refine follows_ite_fst ?_ ?_ | refine follows_foldl_fst ?_ ?_
        | refine follows_of_fst (by assumption) ?_)
    | (split <;> try (rename_i e_; first
        | (refine and_of (follows_of_fst (a := b₀) e_ ?_) (fun h_ => ?_); clear e_)))

theorem follows_writeShadow {b₀ s : State} (h : b₀.Follows s) (k : PageKind) (i off : Nat) (w : Word) :
    b₀.Follows (State.writeShadow s k i off w).1 := by
  unfold State.writeShadow
  repeat' first
    | with_reducible (first
        | assumption | refine follows_ite ?_ ?_)
    | (intro _; try beta_reduce)
    | (extract_lets +onlyGivenNames x_; first
        | (refine and_of (p := b₀.Follows x_) ?_ (fun h_ => ?_); (on_goal 2 => clear_value x_); (on_goal 1 => (unfold x_; clear x_)))
        | ((first | (have t_ : Boot := x_; clear t_) | (have t_ : Flash := x_; clear t_) | (have t_ : Jtag := x_; clear t_)); unfold x_; clear x_)
        | clear_value x_)
    | fail_if_no_progress (with_reducible refine follows_mk (side_of ?_))
    | with_reducible (first
        | refine follows_foldl ?_ ?_ | refine follows_ite_fst ?_ ?_ | refine follows_foldl_fst ?_ ?_
        | refine follows_of_fst (by assumption) ?_)
    | (split <;> try (rename_i e_; first
        | (refine and_of (follows_of_fst (a := b₀) e_ ?_) (fun h_ => ?_); clear e_)))

theorem follows_writePage {b₀ s : State} (h : b₀.Follows s) (k : PageKind) (i off : Nat) (w : Word) :
    b₀.Follows (State.writePage s k i off w).1 := by
  unfold State.writePage
  repeat' first
    | with_reducible (first
        | assumption | refine follows_ite ?_ ?_ | apply follows_writeBlock | apply follows_writeRw | apply follows_writeShadow
        | apply follows_writeTally | apply follows_writeW1c)
    | (intro _; try beta_reduce)
    | fail_if_no_progress (with_reducible refine follows_mk (side_of ?_))
    | with_reducible (first
        | refine follows_foldl ?_ ?_ | refine follows_ite_fst ?_ ?_ | refine follows_foldl_fst ?_ ?_)

theorem follows_writeWalker {b₀ s : State} (h : b₀.Follows s) (x1 : Nat) (w : Word) :
    b₀.Follows (State.writeWalker s x1 w).1 := by
  unfold State.writeWalker
  repeat' first
    | with_reducible (first
        | assumption | refine follows_ite ?_ ?_ | apply follows_writeRing | apply follows_writeRoot)
    | (intro _; try beta_reduce)
    | fail_if_no_progress (with_reducible refine follows_mk (side_of ?_))
    | with_reducible (first
        | refine follows_foldl ?_ ?_ | refine follows_ite_fst ?_ ?_ | refine follows_foldl_fst ?_ ?_)

theorem follows_writeReg {b₀ s : State} (h : b₀.Follows s) (x1 : Nat) (t : Target) (w : Word) :
    b₀.Follows (State.writeReg s x1 t w).1 := by
  unfold State.writeReg
  repeat' first
    | with_reducible (first
        | assumption | refine follows_ite ?_ ?_ | apply follows_writeBoard | apply follows_writePage | apply follows_writeRoute
        | apply follows_writeWalker)
    | (intro _; try beta_reduce)
    | (extract_lets +onlyGivenNames x_; first
        | (refine and_of (p := b₀.Follows x_) ?_ (fun h_ => ?_); (on_goal 2 => clear_value x_); (on_goal 1 => (unfold x_; clear x_)))
        | ((first | (have t_ : Boot := x_; clear t_) | (have t_ : Flash := x_; clear t_) | (have t_ : Jtag := x_; clear t_)); unfold x_; clear x_)
        | clear_value x_)
    | fail_if_no_progress (with_reducible refine follows_mk (side_of ?_))
    | with_reducible (first
        | refine follows_foldl ?_ ?_ | refine follows_ite_fst ?_ ?_ | refine follows_foldl_fst ?_ ?_
        | refine follows_of_fst (by assumption) ?_)
    | (split <;> try (rename_i e_; first
        | (refine and_of (follows_of_fst (a := b₀) e_ ?_) (fun h_ => ?_); clear e_)))

theorem follows_actRegRead {b₀ s : State} (h : b₀.Follows s) (key : Nat) :
    b₀.Follows (State.actRegRead s key) := by
  unfold State.actRegRead
  repeat' first
    | with_reducible (first
        | assumption | refine follows_ite ?_ ?_ | apply follows_complete | apply follows_readReg)
    | (intro _; try beta_reduce)
    | (extract_lets +onlyGivenNames x_; first
        | (refine and_of (p := b₀.Follows x_) ?_ (fun h_ => ?_); (on_goal 2 => clear_value x_); (on_goal 1 => (unfold x_; clear x_)))
        | ((first | (have t_ : Boot := x_; clear t_) | (have t_ : Flash := x_; clear t_) | (have t_ : Jtag := x_; clear t_)); unfold x_; clear x_)
        | clear_value x_)
    | fail_if_no_progress (with_reducible refine follows_mk (side_of ?_))
    | with_reducible (first
        | refine follows_foldl ?_ ?_ | refine follows_ite_fst ?_ ?_ | refine follows_foldl_fst ?_ ?_
        | refine follows_of_fst (by assumption) ?_)
    | (split <;> try (rename_i e_; first
        | (refine and_of (follows_of_fst (a := b₀) e_ ?_) (fun h_ => ?_); clear e_)))

theorem follows_actRegWrite {b₀ s : State} (h : b₀.Follows s) (key : Nat) :
    b₀.Follows (State.actRegWrite s key) := by
  unfold State.actRegWrite
  repeat' first
    | with_reducible (first
        | assumption | refine follows_ite ?_ ?_ | apply follows_complete | apply follows_writeReg)
    | (intro _; try beta_reduce)
    | (extract_lets +onlyGivenNames x_; first
        | (refine and_of (p := b₀.Follows x_) ?_ (fun h_ => ?_); (on_goal 2 => clear_value x_); (on_goal 1 => (unfold x_; clear x_)))
        | ((first | (have t_ : Boot := x_; clear t_) | (have t_ : Flash := x_; clear t_) | (have t_ : Jtag := x_; clear t_)); unfold x_; clear x_)
        | clear_value x_)
    | fail_if_no_progress (with_reducible refine follows_mk (side_of ?_))
    | with_reducible (first
        | refine follows_foldl ?_ ?_ | refine follows_ite_fst ?_ ?_ | refine follows_foldl_fst ?_ ?_
        | refine follows_of_fst (by assumption) ?_)
    | (split <;> try (rename_i e_; first
        | (refine and_of (follows_of_fst (a := b₀) e_ ?_) (fun h_ => ?_); clear e_)))

theorem follows_actSync {b₀ s : State} (h : b₀.Follows s) (key : Nat) :
    b₀.Follows (State.actSync s key) := by
  unfold State.actSync
  repeat' first
    | with_reducible (first
        | assumption | refine follows_ite ?_ ?_ | apply follows_complete | apply follows_shadowSync)
    | (intro _; try beta_reduce)
    | (extract_lets +onlyGivenNames x_; first
        | (refine and_of (p := b₀.Follows x_) ?_ (fun h_ => ?_); (on_goal 2 => clear_value x_); (on_goal 1 => (unfold x_; clear x_)))
        | ((first | (have t_ : Boot := x_; clear t_) | (have t_ : Flash := x_; clear t_) | (have t_ : Jtag := x_; clear t_)); unfold x_; clear x_)
        | clear_value x_)
    | fail_if_no_progress (with_reducible refine follows_mk (side_of ?_))
    | with_reducible (first
        | refine follows_foldl ?_ ?_ | refine follows_ite_fst ?_ ?_ | refine follows_foldl_fst ?_ ?_
        | refine follows_of_fst (by assumption) ?_)
    | (split <;> try (rename_i e_; first
        | (refine and_of (follows_of_fst (a := b₀) e_ ?_) (fun h_ => ?_); clear e_)))

theorem follows_arriveRead {b₀ s : State} (h : b₀.Follows s) (port : Fin 16) (p : Packet) :
    b₀.Follows (State.arriveRead s port p) := by
  unfold State.arriveRead
  repeat' first
    | with_reducible (first
        | assumption | refine follows_ite ?_ ?_ | apply follows_actRegRead | apply follows_arrive)
    | (intro _; try beta_reduce)

theorem follows_arriveWrite {b₀ s : State} (h : b₀.Follows s) (port : Fin 16) (p : Packet) :
    b₀.Follows (State.arriveWrite s port p) := by
  unfold State.arriveWrite
  repeat' first
    | with_reducible (first
        | assumption | refine follows_ite ?_ ?_ | apply follows_actRegWrite | apply follows_arrive)
    | (intro _; try beta_reduce)

theorem follows_execRegRead {b₀ s : State} (h : b₀.Follows s) (port : Fin 16) (p : Packet) :
    b₀.Goes (execRegRead port p s) := by
  unfold execRegRead
  repeat' first
    | with_reducible (first
        | assumption | refine follows_ite ?_ ?_ | refine goes_next ?_ | apply follows_arriveRead)
    | (intro _; try beta_reduce)

theorem follows_execPinMaxRead {b₀ s : State} (h : b₀.Follows s) (port : Fin 16) (p : Packet) :
    b₀.Goes (execPinMaxRead port p s) := by
  unfold execPinMaxRead
  repeat' first
    | with_reducible (first
        | assumption | refine follows_ite ?_ ?_ | refine goes_next ?_ | apply follows_arriveRead)
    | (intro _; try beta_reduce)

theorem follows_execRefDebtRead {b₀ s : State} (h : b₀.Follows s) (port : Fin 16) (p : Packet) :
    b₀.Goes (execRefDebtRead port p s) := by
  unfold execRefDebtRead
  repeat' first
    | with_reducible (first
        | assumption | refine follows_ite ?_ ?_ | refine goes_next ?_ | apply follows_arriveRead)
    | (intro _; try beta_reduce)

theorem follows_execQdepthMaxRead {b₀ s : State} (h : b₀.Follows s) (port : Fin 16) (p : Packet) :
    b₀.Goes (execQdepthMaxRead port p s) := by
  unfold execQdepthMaxRead
  repeat' first
    | with_reducible (first
        | assumption | refine follows_ite ?_ ?_ | refine goes_next ?_ | apply follows_arriveRead)
    | (intro _; try beta_reduce)

theorem follows_execRegShadowSync {b₀ s : State} (h : b₀.Follows s) (port : Fin 16) (p : Packet) :
    b₀.Goes (execRegShadowSync port p s) := by
  unfold execRegShadowSync
  repeat' first
    | with_reducible (first
        | assumption | refine follows_ite ?_ ?_ | refine goes_next ?_ | apply follows_actSync | apply follows_arrive)
    | (intro _; try beta_reduce)

theorem follows_execRegWrite {b₀ s : State} (h : b₀.Follows s) (port : Fin 16) (p : Packet) :
    b₀.Goes (execRegWrite port p s) := by
  unfold execRegWrite
  repeat' first
    | with_reducible (first
        | assumption | refine follows_ite ?_ ?_ | refine goes_next ?_ | apply follows_arriveWrite)
    | (intro _; try beta_reduce)

theorem follows_execClockEnableWrite {b₀ s : State} (h : b₀.Follows s) (port : Fin 16) (p : Packet) :
    b₀.Goes (execClockEnableWrite port p s) := by
  unfold execClockEnableWrite
  repeat' first
    | with_reducible (first
        | assumption | refine follows_ite ?_ ?_ | refine goes_next ?_ | apply follows_arriveWrite)
    | (intro _; try beta_reduce)

theorem follows_execClockSourceSelect {b₀ s : State} (h : b₀.Follows s) (port : Fin 16) (p : Packet) :
    b₀.Goes (execClockSourceSelect port p s) := by
  unfold execClockSourceSelect
  repeat' first
    | with_reducible (first
        | assumption | refine follows_ite ?_ ?_ | refine goes_next ?_ | apply follows_arriveWrite)
    | (intro _; try beta_reduce)

theorem follows_execWalkerRootWrite {b₀ s : State} (h : b₀.Follows s) (port : Fin 16) (p : Packet) :
    b₀.Goes (execWalkerRootWrite port p s) := by
  unfold execWalkerRootWrite
  repeat' first
    | with_reducible (first
        | assumption | refine follows_ite ?_ ?_ | refine goes_next ?_ | apply follows_arriveWrite)
    | (intro _; try beta_reduce)

theorem follows_execRingEnableWrite {b₀ s : State} (h : b₀.Follows s) (port : Fin 16) (p : Packet) :
    b₀.Goes (execRingEnableWrite port p s) := by
  unfold execRingEnableWrite
  repeat' first
    | with_reducible (first
        | assumption | refine follows_ite ?_ ?_ | refine goes_next ?_ | apply follows_arriveWrite)
    | (intro _; try beta_reduce)

theorem follows_execSrForceWrite {b₀ s : State} (h : b₀.Follows s) (port : Fin 16) (p : Packet) :
    b₀.Goes (execSrForceWrite port p s) := by
  unfold execSrForceWrite
  repeat' first
    | with_reducible (first
        | assumption | refine follows_ite ?_ ?_ | refine goes_next ?_ | apply follows_arriveWrite)
    | (intro _; try beta_reduce)

theorem follows_execEccInjectArm {b₀ s : State} (h : b₀.Follows s) (port : Fin 16) (p : Packet) :
    b₀.Goes (execEccInjectArm port p s) := by
  unfold execEccInjectArm
  repeat' first
    | with_reducible (first
        | assumption | refine follows_ite ?_ ?_ | refine goes_next ?_ | apply follows_arriveWrite)
    | (intro _; try beta_reduce)

theorem follows_execProtReload {b₀ s : State} (h : b₀.Follows s) (port : Fin 16) (p : Packet) :
    b₀.Goes (execProtReload port p s) := by
  unfold execProtReload
  repeat' first
    | with_reducible (first
        | assumption | refine follows_ite ?_ ?_ | refine goes_next ?_ | apply follows_arriveWrite)
    | (intro _; try beta_reduce)

theorem follows_execSpareStandInRequest {b₀ s : State} (h : b₀.Follows s) (port : Fin 16) (p : Packet) :
    b₀.Goes (execSpareStandInRequest port p s) := by
  unfold execSpareStandInRequest
  repeat' first
    | with_reducible (first
        | assumption | refine follows_ite ?_ ?_ | refine goes_next ?_ | apply follows_arriveWrite)
    | (intro _; try beta_reduce)

theorem follows_execLinkRetrain {b₀ s : State} (h : b₀.Follows s) (port : Fin 16) (p : Packet) :
    b₀.Goes (execLinkRetrain port p s) := by
  unfold execLinkRetrain
  repeat' first
    | with_reducible (first
        | assumption | refine follows_ite ?_ ?_ | refine goes_next ?_ | apply follows_arriveWrite)
    | (intro _; try beta_reduce)

theorem follows_execLinkHoldDown {b₀ s : State} (h : b₀.Follows s) (port : Fin 16) (p : Packet) :
    b₀.Goes (execLinkHoldDown port p s) := by
  unfold execLinkHoldDown
  repeat' first
    | with_reducible (first
        | assumption | refine follows_ite ?_ ?_ | refine goes_next ?_ | apply follows_arriveWrite)
    | (intro _; try beta_reduce)

theorem follows_execRoutingTableWrite {b₀ s : State} (h : b₀.Follows s) (port : Fin 16) (p : Packet) :
    b₀.Goes (execRoutingTableWrite port p s) := by
  unfold execRoutingTableWrite
  repeat' first
    | with_reducible (first
        | assumption | refine follows_ite ?_ ?_ | refine goes_next ?_ | apply follows_arriveWrite)
    | (intro _; try beta_reduce)

theorem follows_execFlipArm {b₀ s : State} (h : b₀.Follows s) (port : Fin 16) (p : Packet) :
    b₀.Goes (execFlipArm port p s) := by
  unfold execFlipArm
  repeat' first
    | with_reducible (first
        | assumption | refine follows_ite ?_ ?_ | refine goes_next ?_ | apply follows_arriveWrite)
    | (intro _; try beta_reduce)

theorem follows_execFlipCancel {b₀ s : State} (h : b₀.Follows s) (port : Fin 16) (p : Packet) :
    b₀.Goes (execFlipCancel port p s) := by
  unfold execFlipCancel
  repeat' first
    | with_reducible (first
        | assumption | refine follows_ite ?_ ?_ | refine goes_next ?_ | apply follows_arriveWrite)
    | (intro _; try beta_reduce)

theorem follows_execBoardWindowWrite {b₀ s : State} (h : b₀.Follows s) (port : Fin 16) (p : Packet) :
    b₀.Goes (execBoardWindowWrite port p s) := by
  unfold execBoardWindowWrite
  repeat' first
    | with_reducible (first
        | assumption | refine follows_ite ?_ ?_ | refine goes_next ?_ | apply follows_arriveWrite)
    | (intro _; try beta_reduce)

theorem follows_execBoardArm {b₀ s : State} (h : b₀.Follows s) (port : Fin 16) (p : Packet) :
    b₀.Goes (execBoardArm port p s) := by
  unfold execBoardArm
  repeat' first
    | with_reducible (first
        | assumption | refine follows_ite ?_ ?_ | refine goes_next ?_ | apply follows_arriveWrite)
    | (intro _; try beta_reduce)

theorem follows_execBoardCancel {b₀ s : State} (h : b₀.Follows s) (port : Fin 16) (p : Packet) :
    b₀.Goes (execBoardCancel port p s) := by
  unfold execBoardCancel
  repeat' first
    | with_reducible (first
        | assumption | refine follows_ite ?_ ?_ | refine goes_next ?_ | apply follows_arriveWrite)
    | (intro _; try beta_reduce)

theorem follows_execMeterCommit {b₀ s : State} (h : b₀.Follows s) (port : Fin 16) (p : Packet) :
    b₀.Goes (execMeterCommit port p s) := by
  unfold execMeterCommit
  repeat' first
    | with_reducible (first
        | assumption | refine follows_ite ?_ ?_ | refine goes_next ?_ | apply follows_arriveWrite)
    | (intro _; try beta_reduce)

theorem follows_execHostRecordCommit {b₀ s : State} (h : b₀.Follows s) (port : Fin 16) (p : Packet) :
    b₀.Goes (execHostRecordCommit port p s) := by
  unfold execHostRecordCommit
  repeat' first
    | with_reducible (first
        | assumption | refine follows_ite ?_ ?_ | refine goes_next ?_ | apply follows_arriveWrite)
    | (intro _; try beta_reduce)

theorem follows_execQueueShaperCommit {b₀ s : State} (h : b₀.Follows s) (port : Fin 16) (p : Packet) :
    b₀.Goes (execQueueShaperCommit port p s) := by
  unfold execQueueShaperCommit
  repeat' first
    | with_reducible (first
        | assumption | refine follows_ite ?_ ?_ | refine goes_next ?_ | apply follows_arriveWrite)
    | (intro _; try beta_reduce)

theorem follows_execTallySnapshot {b₀ s : State} (h : b₀.Follows s) (port : Fin 16) (p : Packet) :
    b₀.Goes (execTallySnapshot port p s) := by
  unfold execTallySnapshot
  repeat' first
    | with_reducible (first
        | assumption | refine follows_ite ?_ ?_ | refine goes_next ?_ | apply follows_arriveWrite)
    | (intro _; try beta_reduce)

theorem follows_execTallySelectWrite {b₀ s : State} (h : b₀.Follows s) (port : Fin 16) (p : Packet) :
    b₀.Goes (execTallySelectWrite port p s) := by
  unfold execTallySelectWrite
  repeat' first
    | with_reducible (first
        | assumption | refine follows_ite ?_ ?_ | refine goes_next ?_ | apply follows_arriveWrite)
    | (intro _; try beta_reduce)

end Sys2Proof.Machine
end

