-- ==== Sys2Proof/Laws/KeepDeliver.lean ====
section
/-!
SUPPORT. What the operations of Machine/Deliver.lean can do to the parts that `State.Follows` speaks of.
-/

namespace Sys2Proof.Machine

set_option linter.unusedTactic false
set_option linter.unreachableTactic false
set_option linter.tactic.unusedName false

theorem follows_deliverMemory {b₀ s : State} (h : b₀.Follows s) (port : Fin 16) (p : Packet) :
    b₀.Goes (State.deliverMemory s port p) := by
  unfold State.deliverMemory
  repeat' first
    | with_reducible (first
        | assumption | refine follows_ite ?_ ?_ | refine goes_next ?_ | apply follows_arriveMemory | apply follows_arriveSnoop
        | apply follows_execRead | apply follows_execReadNoalloc | apply follows_execReadOwn | apply follows_execReadShared
        | apply follows_execWrite | apply follows_execWritePartial | apply follows_execWriteback)
    | (intro _; try beta_reduce)
    | fail_if_no_progress (with_reducible refine follows_mk (side_of ?_))
    | with_reducible (first
        | refine follows_foldl ?_ ?_ | refine follows_ite_fst ?_ ?_ | refine follows_foldl_fst ?_ ?_ | refine goes_ite ?_ ?_)

theorem follows_deliverCommand {b₀ s : State} (h : b₀.Follows s) (port : Fin 16) (p : Packet) :
    b₀.Goes (State.deliverCommand s port p) := by
  unfold State.deliverCommand
  repeat' first
    | with_reducible (first
        | assumption | refine follows_ite ?_ ?_ | refine goes_next ?_ | apply follows_execAttest | apply follows_execAttestCert
        | apply follows_execBalanceCheck | apply follows_execEpState | apply follows_execFnDisable | apply follows_execFnEnable
        | apply follows_execFnStatus | apply follows_execJobLoad | apply follows_execJobPlace | apply follows_execJobRemove
        | apply follows_execJobStep | apply follows_execJobUnload | apply follows_execJoin | apply follows_execKvSetup
        | apply follows_execKvStatus | apply follows_execMemberRead | apply follows_execMovCancel | apply follows_execMovResume
        | apply follows_execProtFwd | apply follows_execReconRead | apply follows_execSessionClose
        | apply follows_execSessionCommit | apply follows_execSessionExtend | apply follows_execSessionFork
        | apply follows_execSessionOpen | apply follows_execSessionRenew | apply follows_execTakeback
        | apply follows_execTallyRead)
    | (intro _; try beta_reduce)
    | fail_if_no_progress (with_reducible refine follows_mk (side_of ?_))
    | with_reducible (first
        | refine follows_foldl ?_ ?_ | refine follows_ite_fst ?_ ?_ | refine follows_foldl_fst ?_ ?_ | refine goes_ite ?_ ?_)

theorem follows_deliverCmd {b₀ s : State} (h : b₀.Follows s) (port : Fin 16) (p : Packet) :
    b₀.Goes (State.deliverCmd s port p) := by
  unfold State.deliverCmd
  repeat' first
    | with_reducible (first
        | assumption | refine follows_ite ?_ ?_ | refine goes_next ?_ | apply follows_arriveCrit | apply follows_arriveFw
        | apply follows_deliverCommand | apply follows_execFwChunk | apply follows_execRegRead | apply follows_execRegShadowSync
        | apply follows_execRegWrite)
    | (intro _; try beta_reduce)
    | fail_if_no_progress (with_reducible refine follows_mk (side_of ?_))
    | with_reducible (first
        | refine follows_foldl ?_ ?_ | refine follows_ite_fst ?_ ?_ | refine follows_foldl_fst ?_ ?_ | refine goes_ite ?_ ?_)

theorem follows_deliverPacket {b₀ s : State} (h : b₀.Follows s) (port : Fin 16) (p : Packet) :
    b₀.Goes (State.deliverPacket s port p) := by
  unfold State.deliverPacket
  repeat' first
    | with_reducible (first
        | assumption | refine follows_ite ?_ ?_ | refine goes_next ?_ | apply follows_deliverCmd | apply follows_deliverMemory
        | apply follows_execAnnounce | apply follows_execAttend | apply follows_execCmpl | apply follows_execDelayReq
        | apply follows_execDelayResp | apply follows_execInval | apply follows_execInvoke | apply follows_execTransitPacket)
    | (intro _; try beta_reduce)
    | fail_if_no_progress (with_reducible refine follows_mk (side_of ?_))
    | with_reducible (first
        | refine follows_foldl ?_ ?_ | refine follows_ite_fst ?_ ?_ | refine follows_foldl_fst ?_ ?_ | refine goes_ite ?_ ?_)

theorem follows_deliverAll {b₀ s : State} (h : b₀.Follows s) (port : Fin 16) (l : List (Nat × Nat × List Byte)) :
    b₀.Goes (State.deliverAll s port l) := by
  induction l generalizing s with
  | nil => exact goes_next h
  | cons x t ih =>
    obtain ⟨u, e, k⟩ := follows_deliverPacket h port (packetOf x.1 x.2.1 x.2.2)
    unfold State.deliverAll
    rw [e]
    exact ih k

theorem follows_handUp {b₀ s : State} (h : b₀.Follows s) (port : Fin 16) :
    b₀.Goes (State.handUp s port) := by
  unfold State.handUp
  repeat' first
    | with_reducible (first
        | assumption | refine follows_ite ?_ ?_ | refine goes_next ?_ | apply follows_deliverAll | apply follows_setPort)
    | (intro _; try beta_reduce)
    | fail_if_no_progress (with_reducible refine follows_mk (side_of ?_))
    | with_reducible (first
        | refine follows_foldl ?_ ?_ | refine follows_ite_fst ?_ ?_ | refine follows_foldl_fst ?_ ?_ | refine goes_ite ?_ ?_)

theorem follows_delivers {b₀ : State} (port : Fin 16) (o : Outcome) (ho : b₀.Goes o) : b₀.Goes (delivers port o) := by
  obtain ⟨t, rfl, k⟩ := ho
  exact follows_handUp k port

theorem follows_execDataFlitReceive {b₀ s : State} (h : b₀.Follows s) (port : Fin 16) (corr : Nat) (f : List Byte) :
    b₀.Goes (execDataFlitReceive port corr f s) := by
  unfold execDataFlitReceive
  repeat' first
    | with_reducible (first
        | assumption | refine follows_ite ?_ ?_ | refine goes_next ?_ | apply follows_arriveData | apply follows_delivers)
    | (intro _; try beta_reduce)

theorem follows_execEthFrameReceive {b₀ s : State} (h : b₀.Follows s) (port : Fin 16) (corr uncorr : Nat) (f : List Byte) (fcsOk
    : Bool) :
    b₀.Goes (execEthFrameReceive port corr uncorr f fcsOk s) := by
  unfold execEthFrameReceive
  repeat' first
    | with_reducible (first
        | assumption | refine follows_ite ?_ ?_ | refine goes_next ?_ | apply follows_arriveFrame | apply follows_delivers)
    | (intro _; try beta_reduce)

end Sys2Proof.Machine
end

