-- ==== Sys2Proof/Laws/KeepRodScalar.lean ====
section
/-!
SUPPORT. What the operations of Machine/RodScalar.lean can do to the parts that `State.Follows` speaks of.
-/

namespace Sys2Proof.Machine

set_option linter.unusedTactic false
set_option linter.unreachableTactic false
set_option linter.tactic.unusedName false

theorem follows_scalarOp {b₀ s : State} (h : b₀.Follows s) (op : Nat → Nat → Nat) (i : Nat) (w : RodWord) (r : Rod) :
    b₀.Does (scalarOp op i w s r) := by
  unfold scalarOp
  repeat' first
    | with_reducible (first
        | assumption | refine follows_ite ?_ ?_ | apply follows_didRegs | apply follows_legal)
    | (intro _; try beta_reduce)
    | (extract_lets +onlyGivenNames x_; first
        | (refine and_of (p := b₀.Follows x_) ?_ (fun h_ => ?_); (on_goal 2 => clear_value x_); (on_goal 1 => (unfold x_; clear x_)))
        | ((first | (have t_ : Boot := x_; clear t_) | (have t_ : Flash := x_; clear t_) | (have t_ : Jtag := x_; clear t_)); unfold x_; clear x_)
        | clear_value x_)
    | fail_if_no_progress (with_reducible refine follows_mk (side_of ?_))
    | with_reducible (first
        | refine follows_foldl ?_ ?_ | refine follows_ite_fst ?_ ?_ | refine follows_foldl_fst ?_ ?_ | refine does_ite ?_ ?_
        | refine .done ?_ | refine .ended ?_ | refine .hold ?_ | exact .fault | exact .poison | exact .stall
        | refine follows_of_fst (by assumption) ?_)
    | (split <;> try (rename_i e_; first
        | (refine and_of (follows_of_fst (a := b₀) e_ ?_) (fun h_ => ?_); clear e_)
        | (refine and_of (follows_of_done (a := b₀) e_ ?_) (fun h_ => ?_); clear e_)
        | (refine and_of (follows_of_ended (a := b₀) e_ ?_) (fun h_ => ?_); clear e_)
        | (refine and_of (follows_of_hold (a := b₀) e_ ?_) (fun h_ => ?_); clear e_)))

theorem follows_execNop {b₀ s : State} (h : b₀.Follows s) (rod : Fin 544) (w : RodWord) :
    b₀.Goes (execNop rod w s) := by
  unfold execNop
  repeat' first
    | with_reducible (first
        | assumption | refine follows_ite ?_ ?_ | refine goes_next ?_ | apply follows_legal | apply follows_rodRow)
    | (intro _; try beta_reduce)
    | fail_if_no_progress (with_reducible refine follows_mk (side_of ?_))
    | with_reducible (first
        | refine follows_foldl ?_ ?_ | refine follows_ite_fst ?_ ?_ | refine follows_foldl_fst ?_ ?_ | refine goes_ite ?_ ?_
        | refine does_ite ?_ ?_ | refine .done ?_ | refine .ended ?_ | refine .hold ?_ | exact .fault | exact .poison
        | exact .stall)

theorem follows_execAdd {b₀ s : State} (h : b₀.Follows s) (rod : Fin 544) (w : RodWord) :
    b₀.Goes (execAdd rod w s) := by
  unfold execAdd
  repeat' first
    | with_reducible (first
        | assumption | refine follows_ite ?_ ?_ | refine goes_next ?_ | apply follows_rodRow | apply follows_scalarOp)
    | (intro _; try beta_reduce)

theorem follows_execSub {b₀ s : State} (h : b₀.Follows s) (rod : Fin 544) (w : RodWord) :
    b₀.Goes (execSub rod w s) := by
  unfold execSub
  repeat' first
    | with_reducible (first
        | assumption | refine follows_ite ?_ ?_ | refine goes_next ?_ | apply follows_rodRow | apply follows_scalarOp)
    | (intro _; try beta_reduce)

theorem follows_execAnd {b₀ s : State} (h : b₀.Follows s) (rod : Fin 544) (w : RodWord) :
    b₀.Goes (execAnd rod w s) := by
  unfold execAnd
  repeat' first
    | with_reducible (first
        | assumption | refine follows_ite ?_ ?_ | refine goes_next ?_ | apply follows_rodRow | apply follows_scalarOp)
    | (intro _; try beta_reduce)

theorem follows_execOr {b₀ s : State} (h : b₀.Follows s) (rod : Fin 544) (w : RodWord) :
    b₀.Goes (execOr rod w s) := by
  unfold execOr
  repeat' first
    | with_reducible (first
        | assumption | refine follows_ite ?_ ?_ | refine goes_next ?_ | apply follows_rodRow | apply follows_scalarOp)
    | (intro _; try beta_reduce)

theorem follows_execXor {b₀ s : State} (h : b₀.Follows s) (rod : Fin 544) (w : RodWord) :
    b₀.Goes (execXor rod w s) := by
  unfold execXor
  repeat' first
    | with_reducible (first
        | assumption | refine follows_ite ?_ ?_ | refine goes_next ?_ | apply follows_rodRow | apply follows_scalarOp)
    | (intro _; try beta_reduce)

theorem follows_execShl {b₀ s : State} (h : b₀.Follows s) (rod : Fin 544) (w : RodWord) :
    b₀.Goes (execShl rod w s) := by
  unfold execShl
  repeat' first
    | with_reducible (first
        | assumption | refine follows_ite ?_ ?_ | refine goes_next ?_ | apply follows_rodRow | apply follows_scalarOp)
    | (intro _; try beta_reduce)

theorem follows_execShr {b₀ s : State} (h : b₀.Follows s) (rod : Fin 544) (w : RodWord) :
    b₀.Goes (execShr rod w s) := by
  unfold execShr
  repeat' first
    | with_reducible (first
        | assumption | refine follows_ite ?_ ?_ | refine goes_next ?_ | apply follows_rodRow | apply follows_scalarOp)
    | (intro _; try beta_reduce)

theorem follows_execCmp {b₀ s : State} (h : b₀.Follows s) (rod : Fin 544) (w : RodWord) :
    b₀.Goes (execCmp rod w s) := by
  unfold execCmp
  repeat' first
    | with_reducible (first
        | assumption | refine follows_ite ?_ ?_ | refine goes_next ?_ | apply follows_rodRow | apply follows_scalarOp)
    | (intro _; try beta_reduce)

theorem follows_execLi {b₀ s : State} (h : b₀.Follows s) (rod : Fin 544) (w : RodWord) :
    b₀.Goes (execLi rod w s) := by
  unfold execLi
  repeat' first
    | with_reducible (first
        | assumption | refine follows_ite ?_ ?_ | refine goes_next ?_ | apply follows_didRegs | apply follows_legal
        | apply follows_rodRow)
    | (intro _; try beta_reduce)

theorem follows_execMul {b₀ s : State} (h : b₀.Follows s) (rod : Fin 544) (w : RodWord) :
    b₀.Goes (execMul rod w s) := by
  unfold execMul
  repeat' first
    | with_reducible (first
        | assumption | refine follows_ite ?_ ?_ | refine goes_next ?_ | apply follows_rodRow | apply follows_scalarOp)
    | (intro _; try beta_reduce)

theorem follows_execLd {b₀ s : State} (h : b₀.Follows s) (rod : Fin 544) (w : RodWord) :
    b₀.Goes (execLd rod w s) := by
  unfold execLd
  repeat' first
    | with_reducible (first
        | assumption | refine follows_ite ?_ ?_ | refine goes_next ?_ | apply follows_didRegs | apply follows_legal
        | apply follows_rodRow)
    | (intro _; try beta_reduce)
    | (extract_lets +onlyGivenNames x_; first
        | (refine and_of (p := b₀.Follows x_) ?_ (fun h_ => ?_); (on_goal 2 => clear_value x_); (on_goal 1 => (unfold x_; clear x_)))
        | ((first | (have t_ : Boot := x_; clear t_) | (have t_ : Flash := x_; clear t_) | (have t_ : Jtag := x_; clear t_)); unfold x_; clear x_)
        | clear_value x_)
    | fail_if_no_progress (with_reducible refine follows_mk (side_of ?_))
    | with_reducible (first
        | refine follows_foldl ?_ ?_ | refine follows_ite_fst ?_ ?_ | refine follows_foldl_fst ?_ ?_ | refine goes_ite ?_ ?_
        | refine does_ite ?_ ?_ | refine .done ?_ | refine .ended ?_ | refine .hold ?_ | exact .fault | exact .poison
        | exact .stall | refine follows_of_fst (by assumption) ?_)
    | (split <;> try (rename_i e_; first
        | (refine and_of (follows_of_fst (a := b₀) e_ ?_) (fun h_ => ?_); clear e_)
        | (refine and_of (follows_of_done (a := b₀) e_ ?_) (fun h_ => ?_); clear e_)
        | (refine and_of (follows_of_ended (a := b₀) e_ ?_) (fun h_ => ?_); clear e_)
        | (refine and_of (follows_of_hold (a := b₀) e_ ?_) (fun h_ => ?_); clear e_)))

theorem follows_execSt {b₀ s : State} (h : b₀.Follows s) (rod : Fin 544) (w : RodWord) :
    b₀.Goes (execSt rod w s) := by
  unfold execSt
  repeat' first
    | with_reducible (first
        | assumption | refine follows_ite ?_ ?_ | refine goes_next ?_ | apply follows_legal | apply follows_rodRow
        | apply follows_scratchWrite)
    | (intro _; try beta_reduce)
    | (extract_lets +onlyGivenNames x_; first
        | (refine and_of (p := b₀.Follows x_) ?_ (fun h_ => ?_); (on_goal 2 => clear_value x_); (on_goal 1 => (unfold x_; clear x_)))
        | ((first | (have t_ : Boot := x_; clear t_) | (have t_ : Flash := x_; clear t_) | (have t_ : Jtag := x_; clear t_)); unfold x_; clear x_)
        | clear_value x_)
    | fail_if_no_progress (with_reducible refine follows_mk (side_of ?_))
    | with_reducible (first
        | refine follows_foldl ?_ ?_ | refine follows_ite_fst ?_ ?_ | refine follows_foldl_fst ?_ ?_ | refine goes_ite ?_ ?_
        | refine does_ite ?_ ?_ | refine .done ?_ | refine .ended ?_ | refine .hold ?_ | exact .fault | exact .poison
        | exact .stall | refine follows_of_fst (by assumption) ?_)
    | (split <;> try (rename_i e_; first
        | (refine and_of (follows_of_fst (a := b₀) e_ ?_) (fun h_ => ?_); clear e_)
        | (refine and_of (follows_of_done (a := b₀) e_ ?_) (fun h_ => ?_); clear e_)
        | (refine and_of (follows_of_ended (a := b₀) e_ ?_) (fun h_ => ?_); clear e_)
        | (refine and_of (follows_of_hold (a := b₀) e_ ?_) (fun h_ => ?_); clear e_)))

theorem follows_execBr {b₀ s : State} (h : b₀.Follows s) (rod : Fin 544) (w : RodWord) :
    b₀.Goes (execBr rod w s) := by
  unfold execBr
  repeat' first
    | with_reducible (first
        | assumption | refine follows_ite ?_ ?_ | refine goes_next ?_ | apply follows_legal | apply follows_rodRow)
    | (intro _; try beta_reduce)
    | fail_if_no_progress (with_reducible refine follows_mk (side_of ?_))
    | with_reducible (first
        | refine follows_foldl ?_ ?_ | refine follows_ite_fst ?_ ?_ | refine follows_foldl_fst ?_ ?_ | refine goes_ite ?_ ?_
        | refine does_ite ?_ ?_ | refine .done ?_ | refine .ended ?_ | refine .hold ?_ | exact .fault | exact .poison
        | exact .stall)

theorem follows_execLoop {b₀ s : State} (h : b₀.Follows s) (rod : Fin 544) (w : RodWord) :
    b₀.Goes (execLoop rod w s) := by
  unfold execLoop
  repeat' first
    | with_reducible (first
        | assumption | refine follows_ite ?_ ?_ | refine goes_next ?_ | apply follows_legal | apply follows_rodRow
        | apply follows_setRegs)
    | (intro _; try beta_reduce)
    | fail_if_no_progress (with_reducible refine follows_mk (side_of ?_))
    | with_reducible (first
        | refine follows_foldl ?_ ?_ | refine follows_ite_fst ?_ ?_ | refine follows_foldl_fst ?_ ?_ | refine goes_ite ?_ ?_
        | refine does_ite ?_ ?_ | refine .done ?_ | refine .ended ?_ | refine .hold ?_ | exact .fault | exact .poison
        | exact .stall)

theorem follows_execStepctr {b₀ s : State} (h : b₀.Follows s) (rod : Fin 544) (w : RodWord) :
    b₀.Goes (execStepctr rod w s) := by
  unfold execStepctr
  repeat' first
    | with_reducible (first
        | assumption | refine follows_ite ?_ ?_ | refine goes_next ?_ | apply follows_didRegs | apply follows_legal
        | apply follows_rodRow)
    | (intro _; try beta_reduce)

theorem follows_execFence {b₀ s : State} (h : b₀.Follows s) (rod : Fin 544) (w : RodWord) :
    b₀.Goes (execFence rod w s) := by
  unfold execFence
  repeat' first
    | with_reducible (first
        | assumption | refine follows_ite ?_ ?_ | refine goes_next ?_ | apply follows_legal | apply follows_rodRow)
    | (intro _; try beta_reduce)
    | fail_if_no_progress (with_reducible refine follows_mk (side_of ?_))
    | with_reducible (first
        | refine follows_foldl ?_ ?_ | refine follows_ite_fst ?_ ?_ | refine follows_foldl_fst ?_ ?_ | refine goes_ite ?_ ?_
        | refine does_ite ?_ ?_ | refine .done ?_ | refine .ended ?_ | refine .hold ?_ | exact .fault | exact .poison
        | exact .stall)

end Sys2Proof.Machine
end

