-- ==== Sys2Proof/Laws/KeepRodVector.lean ====
section
/-!
SUPPORT. What the operations of Machine/RodVector.lean can do to the parts that `State.Follows` speaks of.
-/

namespace Sys2Proof.Machine

set_option linter.unusedTactic false
set_option linter.unreachableTactic false
set_option linter.tactic.unusedName false

theorem follows_execVld {b₀ s : State} (h : b₀.Follows s) (rod : Fin 544) (w : RodWord) :
    b₀.Goes (execVld rod w s) := by
  unfold execVld
  repeat' first
    | with_reducible (first
        | assumption | refine follows_ite ?_ ?_ | refine goes_next ?_ | apply follows_didRegs | apply follows_legal
        | apply follows_rodRow)
    | (intro _; try beta_reduce)
    | (extract_lets +onlyGivenNames x_; first
        | (refine and_of (p := b₀.Follows x_) ?_ (fun h_ => ?_); (on_goal 2 => clear_value x_); (on_goal 1 => (unfold x_; clear x_)))
        | ((first | (have t_ : Boot := x_; clear t_) | (have t_ : Flash := x_; clear t_) | (have t_ : Jtag := x_; clear t_)); unfold x_; clear x_)
        | clear_value x_)
    | fail_if_no_progress (with_reducible refine follows_mk (side_of ?_))
    | with_reducible (first
        | refine follows_foldl ?_ ?_ | refine follows_ite_fst ?_ ?_ | refine follows_foldl_fst ?_ ?_ | refine goes_ite ?_ ?_
        | refine does_ite ?_ ?_ | refine .done ?_ | refine .ended ?_ | refine .hold ?_ | exact .fault | exact .poison
        | exact .stall | refine follows_of_fst (by assumption) ?_)
    | (split <;> try (rename_i e_; first
        | (refine and_of (follows_of_fst (a := b₀) e_ ?_) (fun h_ => ?_); clear e_)
        | (refine and_of (follows_of_done (a := b₀) e_ ?_) (fun h_ => ?_); clear e_)
        | (refine and_of (follows_of_ended (a := b₀) e_ ?_) (fun h_ => ?_); clear e_)
        | (refine and_of (follows_of_hold (a := b₀) e_ ?_) (fun h_ => ?_); clear e_)))

theorem follows_execVst {b₀ s : State} (h : b₀.Follows s) (rod : Fin 544) (w : RodWord) :
    b₀.Goes (execVst rod w s) := by
  unfold execVst
  repeat' first
    | with_reducible (first
        | assumption | refine follows_ite ?_ ?_ | refine goes_next ?_ | apply follows_legal | apply follows_rodRow
        | apply follows_scratchWrite)
    | (intro _; try beta_reduce)
    | (extract_lets +onlyGivenNames x_; first
        | (refine and_of (p := b₀.Follows x_) ?_ (fun h_ => ?_); (on_goal 2 => clear_value x_); (on_goal 1 => (unfold x_; clear x_)))
        | ((first | (have t_ : Boot := x_; clear t_) | (have t_ : Flash := x_; clear t_) | (have t_ : Jtag := x_; clear t_)); unfold x_; clear x_)
        | clear_value x_)
    | fail_if_no_progress (with_reducible refine follows_mk (side_of ?_))
    | with_reducible (first
        | refine follows_foldl ?_ ?_ | refine follows_ite_fst ?_ ?_ | refine follows_foldl_fst ?_ ?_ | refine goes_ite ?_ ?_
        | refine does_ite ?_ ?_ | refine .done ?_ | refine .ended ?_ | refine .hold ?_ | exact .fault | exact .poison
        | exact .stall | refine follows_of_fst (by assumption) ?_)
    | (split <;> try (rename_i e_; first
        | (refine and_of (follows_of_fst (a := b₀) e_ ?_) (fun h_ => ?_); clear e_)
        | (refine and_of (follows_of_done (a := b₀) e_ ?_) (fun h_ => ?_); clear e_)
        | (refine and_of (follows_of_ended (a := b₀) e_ ?_) (fun h_ => ?_); clear e_)
        | (refine and_of (follows_of_hold (a := b₀) e_ ?_) (fun h_ => ?_); clear e_)))

theorem follows_execVldf {b₀ s : State} (h : b₀.Follows s) (rod : Fin 544) (w : RodWord) :
    b₀.Goes (execVldf rod w s) := by
  unfold execVldf
  repeat' first
    | with_reducible (first
        | assumption | refine follows_ite ?_ ?_ | refine goes_next ?_ | apply follows_checkFb | apply follows_didRegs
        | apply follows_fbOpen | apply follows_followAll | apply follows_hear | apply follows_legal | apply follows_rehear
        | apply follows_rodRow)
    | (intro _; try beta_reduce)
    | (extract_lets +onlyGivenNames x_; first
        | (refine and_of (p := b₀.Follows x_) ?_ (fun h_ => ?_); (on_goal 2 => clear_value x_); (on_goal 1 => (unfold x_; clear x_)))
        | ((first | (have t_ : Boot := x_; clear t_) | (have t_ : Flash := x_; clear t_) | (have t_ : Jtag := x_; clear t_)); unfold x_; clear x_)
        | clear_value x_)
    | fail_if_no_progress (with_reducible refine follows_mk (side_of ?_))
    | with_reducible (first
        | refine follows_foldl ?_ ?_ | refine follows_ite_fst ?_ ?_ | refine follows_foldl_fst ?_ ?_ | refine goes_ite ?_ ?_
        | refine does_ite ?_ ?_ | refine .done ?_ | refine .ended ?_ | refine .hold ?_ | exact .fault | exact .poison
        | exact .stall | refine follows_of_fst (by assumption) ?_)
    | (split <;> try (rename_i e_; first
        | (refine and_of (follows_of_fst (a := b₀) e_ ?_) (fun h_ => ?_); clear e_)
        | (refine and_of (follows_rehear (b₀ := b₀) ?_ _ _ e_) (fun h_ => ?_); clear e_)
        | (refine and_of (follows_of_done (a := b₀) e_ ?_) (fun h_ => ?_); clear e_)
        | (refine and_of (follows_of_ended (a := b₀) e_ ?_) (fun h_ => ?_); clear e_)
        | (refine and_of (follows_of_hold (a := b₀) e_ ?_) (fun h_ => ?_); clear e_)))

theorem follows_execVstf {b₀ s : State} (h : b₀.Follows s) (rod : Fin 544) (w : RodWord) :
    b₀.Goes (execVstf rod w s) := by
  unfold execVstf
  repeat' first
    | with_reducible (first
        | assumption | refine follows_ite ?_ ?_ | refine goes_next ?_ | apply follows_fbOpen | apply follows_legal
        | apply follows_outgoing | apply follows_rodRow)
    | (intro _; try beta_reduce)
    | (extract_lets +onlyGivenNames x_; first
        | (refine and_of (p := b₀.Follows x_) ?_ (fun h_ => ?_); (on_goal 2 => clear_value x_); (on_goal 1 => (unfold x_; clear x_)))
        | ((first | (have t_ : Boot := x_; clear t_) | (have t_ : Flash := x_; clear t_) | (have t_ : Jtag := x_; clear t_)); unfold x_; clear x_)
        | clear_value x_)
    | fail_if_no_progress (with_reducible refine follows_mk (side_of ?_))
    | with_reducible (first
        | refine follows_foldl ?_ ?_ | refine follows_ite_fst ?_ ?_ | refine follows_foldl_fst ?_ ?_ | refine goes_ite ?_ ?_
        | refine does_ite ?_ ?_ | refine .done ?_ | refine .ended ?_ | refine .hold ?_ | exact .fault | exact .poison
        | exact .stall | refine follows_of_fst (by assumption) ?_)
    | (split <;> try (rename_i e_; first
        | (refine and_of (follows_of_fst (a := b₀) e_ ?_) (fun h_ => ?_); clear e_)
        | (refine and_of (follows_of_done (a := b₀) e_ ?_) (fun h_ => ?_); clear e_)
        | (refine and_of (follows_of_ended (a := b₀) e_ ?_) (fun h_ => ?_); clear e_)
        | (refine and_of (follows_of_hold (a := b₀) e_ ?_) (fun h_ => ?_); clear e_)))

theorem follows_vectorArith {b₀ s : State} (h : b₀.Follows s) (readsD : Bool) (op : Nat → Num → Num → Num → Num) (i : Nat) (w
    : RodWord) (r : Rod) :
    b₀.Does (vectorArith readsD op i w s r) := by
  unfold vectorArith
  repeat' first
    | with_reducible (first
        | assumption | refine follows_ite ?_ ?_ | apply follows_didRegs)
    | (intro _; try beta_reduce)
    | fail_if_no_progress (with_reducible refine follows_mk (side_of ?_))
    | with_reducible (first
        | refine follows_foldl ?_ ?_ | refine follows_ite_fst ?_ ?_ | refine follows_foldl_fst ?_ ?_ | refine does_ite ?_ ?_
        | refine .done ?_ | refine .ended ?_ | refine .hold ?_ | exact .fault | exact .poison | exact .stall)

theorem follows_execVadd {b₀ s : State} (h : b₀.Follows s) (rod : Fin 544) (w : RodWord) :
    b₀.Goes (execVadd rod w s) := by
  unfold execVadd
  repeat' first
    | with_reducible (first
        | assumption | refine follows_ite ?_ ?_ | refine goes_next ?_ | apply follows_rodRow | apply follows_vectorArith)
    | (intro _; try beta_reduce)

theorem follows_execVmul {b₀ s : State} (h : b₀.Follows s) (rod : Fin 544) (w : RodWord) :
    b₀.Goes (execVmul rod w s) := by
  unfold execVmul
  repeat' first
    | with_reducible (first
        | assumption | refine follows_ite ?_ ?_ | refine goes_next ?_ | apply follows_rodRow | apply follows_vectorArith)
    | (intro _; try beta_reduce)

theorem follows_execVfma {b₀ s : State} (h : b₀.Follows s) (rod : Fin 544) (w : RodWord) :
    b₀.Goes (execVfma rod w s) := by
  unfold execVfma
  repeat' first
    | with_reducible (first
        | assumption | refine follows_ite ?_ ?_ | refine goes_next ?_ | apply follows_rodRow | apply follows_vectorArith)
    | (intro _; try beta_reduce)

theorem follows_vectorLanes {b₀ s : State} (h : b₀.Follows s) (ops : Nat) (readsD : Bool) (op : Nat → Nat → Nat → Nat) (i : Nat)
    (w : RodWord) :
    b₀.Does (vectorLanes ops readsD op i w s) := by
  unfold vectorLanes
  repeat' first
    | with_reducible (first
        | assumption | refine follows_ite ?_ ?_ | apply follows_didRegs)
    | (intro _; try beta_reduce)
    | fail_if_no_progress (with_reducible refine follows_mk (side_of ?_))
    | with_reducible (first
        | refine follows_foldl ?_ ?_ | refine follows_ite_fst ?_ ?_ | refine follows_foldl_fst ?_ ?_ | refine does_ite ?_ ?_
        | refine .done ?_ | refine .ended ?_ | refine .hold ?_ | exact .fault | exact .poison | exact .stall)

theorem follows_execVmax {b₀ s : State} (h : b₀.Follows s) (rod : Fin 544) (w : RodWord) :
    b₀.Goes (execVmax rod w s) := by
  unfold execVmax
  repeat' first
    | with_reducible (first
        | assumption | refine follows_ite ?_ ?_ | refine goes_next ?_ | apply follows_rodRow | apply follows_vectorLanes)
    | (intro _; try beta_reduce)

theorem follows_execVmin {b₀ s : State} (h : b₀.Follows s) (rod : Fin 544) (w : RodWord) :
    b₀.Goes (execVmin rod w s) := by
  unfold execVmin
  repeat' first
    | with_reducible (first
        | assumption | refine follows_ite ?_ ?_ | refine goes_next ?_ | apply follows_rodRow | apply follows_vectorLanes)
    | (intro _; try beta_reduce)

theorem follows_execVcmp {b₀ s : State} (h : b₀.Follows s) (rod : Fin 544) (w : RodWord) :
    b₀.Goes (execVcmp rod w s) := by
  unfold execVcmp
  repeat' first
    | with_reducible (first
        | assumption | refine follows_ite ?_ ?_ | refine goes_next ?_ | apply follows_rodRow | apply follows_vectorLanes)
    | (intro _; try beta_reduce)

theorem follows_execVsel {b₀ s : State} (h : b₀.Follows s) (rod : Fin 544) (w : RodWord) :
    b₀.Goes (execVsel rod w s) := by
  unfold execVsel
  repeat' first
    | with_reducible (first
        | assumption | refine follows_ite ?_ ?_ | refine goes_next ?_ | apply follows_rodRow | apply follows_vectorLanes)
    | (intro _; try beta_reduce)

theorem follows_execVshuf {b₀ s : State} (h : b₀.Follows s) (rod : Fin 544) (w : RodWord) :
    b₀.Goes (execVshuf rod w s) := by
  unfold execVshuf
  repeat' first
    | with_reducible (first
        | assumption | refine follows_ite ?_ ?_ | refine goes_next ?_ | apply follows_didRegs | apply follows_rodRow)
    | (intro _; try beta_reduce)
    | fail_if_no_progress (with_reducible refine follows_mk (side_of ?_))
    | with_reducible (first
        | refine follows_foldl ?_ ?_ | refine follows_ite_fst ?_ ?_ | refine follows_foldl_fst ?_ ?_ | refine goes_ite ?_ ?_
        | refine does_ite ?_ ?_ | refine .done ?_ | refine .ended ?_ | refine .hold ?_ | exact .fault | exact .poison
        | exact .stall)

theorem follows_execVred {b₀ s : State} (h : b₀.Follows s) (rod : Fin 544) (w : RodWord) :
    b₀.Goes (execVred rod w s) := by
  unfold execVred
  repeat' first
    | with_reducible (first
        | assumption | refine follows_ite ?_ ?_ | refine goes_next ?_ | apply follows_didRegs | apply follows_rodRow)
    | (intro _; try beta_reduce)
    | fail_if_no_progress (with_reducible refine follows_mk (side_of ?_))
    | with_reducible (first
        | refine follows_foldl ?_ ?_ | refine follows_ite_fst ?_ ?_ | refine follows_foldl_fst ?_ ?_ | refine goes_ite ?_ ?_
        | refine does_ite ?_ ?_ | refine .done ?_ | refine .ended ?_ | refine .hold ?_ | exact .fault | exact .poison
        | exact .stall)

theorem follows_vectorCvt {b₀ s : State} (h : b₀.Follows s) (formats : Bool) (op : Nat → Bool → Nat → Num → Rounded) (i : Nat)
    (w : RodWord) (r : Rod) :
    b₀.Does (vectorCvt formats op i w s r) := by
  unfold vectorCvt
  repeat' first
    | with_reducible (first
        | assumption | refine follows_ite ?_ ?_ | apply follows_didRegs)
    | (intro _; try beta_reduce)
    | fail_if_no_progress (with_reducible refine follows_mk (side_of ?_))
    | with_reducible (first
        | refine follows_foldl ?_ ?_ | refine follows_ite_fst ?_ ?_ | refine follows_foldl_fst ?_ ?_ | refine does_ite ?_ ?_
        | refine .done ?_ | refine .ended ?_ | refine .hold ?_ | exact .fault | exact .poison | exact .stall)

theorem follows_execVcvt {b₀ s : State} (h : b₀.Follows s) (rod : Fin 544) (w : RodWord) :
    b₀.Goes (execVcvt rod w s) := by
  unfold execVcvt
  repeat' first
    | with_reducible (first
        | assumption | refine follows_ite ?_ ?_ | refine goes_next ?_ | apply follows_rodRow | apply follows_vectorCvt)
    | (intro _; try beta_reduce)

theorem follows_execVexp {b₀ s : State} (h : b₀.Follows s) (rod : Fin 544) (w : RodWord) :
    b₀.Goes (execVexp rod w s) := by
  unfold execVexp
  repeat' first
    | with_reducible (first
        | assumption | refine follows_ite ?_ ?_ | refine goes_next ?_ | apply follows_rodRow | apply follows_vectorCvt)
    | (intro _; try beta_reduce)

theorem follows_execVrcp {b₀ s : State} (h : b₀.Follows s) (rod : Fin 544) (w : RodWord) :
    b₀.Goes (execVrcp rod w s) := by
  unfold execVrcp
  repeat' first
    | with_reducible (first
        | assumption | refine follows_ite ?_ ?_ | refine goes_next ?_ | apply follows_rodRow | apply follows_vectorCvt)
    | (intro _; try beta_reduce)

end Sys2Proof.Machine
end

