-- ==== Sys2Proof/Laws/Records.lean ====
section
/-!
SUPPORT. What bytes written to a cell list leave and how they read back, and what setting PWR_CAUSE bits does to the register.
-/

namespace Sys2Proof.Machine

@[simp] theorem length_leBytes (n v : Nat) : (leBytes n v).length = n := by
  induction n generalizing v with
  | zero => rfl
  | succ n ih => simp [leBytes, ih]

theorem cellGet_del (m : List Host.Cell) {k a : Nat} (h : a ≠ k) : cellGet (cellDel m k) a = cellGet m a := by
  induction m with
  | nil => rfl
  | cons x t ih =>
    unfold cellDel
    split
    · rename_i e
      have hx : a ≠ x.1 := e ▸ h
      simp [cellGet, hx, ih]
    · simp [cellGet, ih]

theorem cellGet_ins (m : List Host.Cell) {k a : Nat} (b : Byte) (h : a ≠ k) : cellGet (cellIns m k b) a = cellGet m a := by
  induction m with
  | nil => simp [cellIns, cellGet, h]
  | cons x t ih =>
    unfold cellIns
    split
    · simp [cellGet, h]
    · split
      · rename_i e
        rw [e] at h ⊢
        simp [cellGet, h]
      · simp [cellGet, ih]

theorem cellGet_del_self (m : List Host.Cell) (a : Nat) : cellGet (cellDel m a) a = 0 := by
  induction m with
  | nil => rfl
  | cons x t ih =>
    unfold cellDel
    split
    · exact ih
    · rename_i e; simp [cellGet, e, ih]

theorem cellGet_ins_self (m : List Host.Cell) (a : Nat) (b : Byte) : cellGet (cellIns m a b) a = b := by
  induction m with
  | nil => simp [cellIns, cellGet]
  | cons x t ih =>
    unfold cellIns
    split
    · simp [cellGet]
    · split
      · simp [cellGet]
      · rename_i e; simp [cellGet, e, ih]

/-- A byte written reads back, whatever the list. -/
theorem cellGet_put_self (m : List Host.Cell) (a : Nat) (b : Byte) : cellGet (cellPut m a b) a = b := by
  unfold cellPut
  split
  · rename_i h; rw [cellGet_del_self, h]
  · exact cellGet_ins_self m a b

/-- Bytes outside those written read as before. -/
theorem cellGet_puts (m : List Host.Cell) {k a : Nat} (l : List Byte) (h : a < k ∨ k + l.length ≤ a) :
    cellGet (cellPuts m k l) a = cellGet m a := by
  induction l generalizing m k with
  | nil => rfl
  | cons b t ih =>
    rw [List.length_cons] at h
    unfold cellPuts
    rw [ih _ (by omega)]
    unfold cellPut
    split
    · exact cellGet_del _ (by omega)
    · exact cellGet_ins _ _ (by omega)

/-- PWR_CAUSE bits set are added to those it holds. -/
theorem cause_reg (s : State) {n : Nat} (h : n < 2 ^ 32) : ((s.cause n).reg pwrCause).toNat = (s.reg pwrCause).toNat ||| n := by
  unfold State.cause
  split
  · rename_i e; simp [e]
  · rw [raise_reg _ _ _ _ _ (by decide), setReg_reg, if_pos rfl, BitVec.toNat_ofNat]
    exact Nat.mod_eq_of_lt (Nat.or_lt_two_pow (s.reg pwrCause).isLt h)

end Sys2Proof.Machine
end

