-- ==== Sys2Proof/Machine/Beam.lean ====
section
/-!
DEFINITION. The beam's mesh (R349–R351): what its stops carry, the X-then-Y route between two stops, and its hops. What the beam
itself does to a packet on its way is a matter of time alone (assumption 113).
-/

namespace Sys2Proof.Machine

/-- What is attached to a stop (Table 14.6). -/
inductive Attachment where
  | near (n : Nat)
  | far (n : Nat)
  | frame (n : Nat)
  | port (n : Nat)
  | slice (n : Nat)
  | txn | xlt | kvs | creba | management | ecc | qos | rtr
deriving DecidableEq, Repr

/-- Two ports and a slice. -/
def edgeStop (p d : Nat) : List Attachment := [.port p, .port (p + 1), .slice d]

/-- The stops of Table 14.6, row y by row y, column x by column x. -/
def beamStops : List (List (List Attachment)) :=
  [[[.near 0], [.near 0], edgeStop 0 0, [.far 0], [.far 2], edgeStop 4 2, [.near 1], [.near 1]],
   [[.near 0], [.near 0], [.frame 0], [.frame 1], [.frame 9], [.frame 8], [.near 1], [.near 1]],
   [edgeStop 2 1, [.frame 2], [.frame 3], [.frame 4], [.frame 12], [.frame 11], [.frame 10], edgeStop 6 3],
   [[.far 1], [.frame 5], [.frame 6], [.frame 7, .txn], [.frame 15, .xlt], [.frame 14], [.frame 13], [.far 3]],
   [[.far 5], [.frame 21], [.frame 22], [.frame 23, .kvs, .creba], [.frame 31, .management, .ecc, .qos, .rtr], [.frame 30],
    [.frame 29], [.far 7]],
   [edgeStop 10 5, [.frame 18], [.frame 19], [.frame 20], [.frame 28], [.frame 27], [.frame 26], edgeStop 14 7],
   [[.near 2], [.near 2], [.frame 16], [.frame 17], [.frame 25], [.frame 24], [.near 3], [.near 3]],
   [[.near 2], [.near 2], edgeStop 8 4, [.far 4], [.far 6], edgeStop 12 6, [.near 3], [.near 3]]]

/-- The stops, as (x, y), at which a unit is attached. -/
def stopsOf (a : Attachment) : List (Nat × Nat) :=
  (List.range 64).filterMap fun i =>
    if ((beamStops.getD (i / 8) []).getD (i % 8) []).contains a then some (i % 8, i / 8) else none

/-- One step of a coordinate towards another. -/
def toward (a b : Nat) : Nat := if a < b then a + 1 else a - 1

/-- The stops a packet passes after the first, X first, then Y (R349); `n` bounds their number. -/
def beamRoute : Nat → Nat × Nat → Nat × Nat → List (Nat × Nat)
  | 0, _, _ => []
  | n + 1, (x, y), (u, v) =>
    if x ≠ u then (toward x u, y) :: beamRoute n (toward x u, y) (u, v)
    else if y ≠ v then (x, toward y v) :: beamRoute n (x, toward y v) (u, v)
    else []

/-- Hops between two stops. -/
def beamHops (a b : Nat × Nat) : Nat := (a.1 - b.1) + (b.1 - a.1) + (a.2 - b.2) + (b.2 - a.2)

/-- Fewest hops from a frame to a unit. -/
def hopsFrom (f : Nat) (a : Attachment) : Nat :=
  ((stopsOf (.frame f)).flatMap fun x => (stopsOf a).map fun y => beamHops x y).foldl min 64

end Sys2Proof.Machine
end

