-- ==== Sys2Proof/WellFormed.lean ====
section
/-!
DEFINITION. Which commands are well formed: every operand fits the field the manual gives it. The meanings are total and
ask for none of this; a statement or a generator of commands may.
-/

namespace Sys2Proof

/-- A prefix's fields fit Table 18.5. -/
def Prefix.wf (x : Prefix) : Bool :=
  decide (x.keyId < 2 ^ 32) && decide (x.sender < 2 ^ 16) && decide (x.rsv < 2 ^ 16) && decide (x.counter < 2 ^ 64)

/-- A packet's fields fit Tables 15.1–15.4 and Table 18.5. -/
def Packet.wf (p : Packet) : Bool :=
  decide (p.typ < 256) && decide (p.vc < 6) && decide (p.hops < 32) && decide (p.epoch < 2) && decide (p.length < 65536) &&
    decide (p.dst < 4096) && decide (p.qual < 16) && decide (p.tag < 65536) && decide (p.form < 2 ^ 64) &&
    (match p.sec with | some x => x.wf | none => p.gcm == 0) && decide (p.gcm < 2 ^ 128) && decide (p.mac < 2 ^ 48)

/-- Strap fields fit their pins (Table 1.7). -/
def Straps.wf (s : Straps) : Bool := decide (s.role < 4) && decide (s.x < 16) && decide (s.y < 16) && decide (s.z < 16)

/-- Masks of failing units fit the module's units (Table 2.3). -/
def SelfTest.wf (r : SelfTest) : Bool :=
  decide (r.beadCode < 2 ^ 12) && decide (r.link < 2 ^ 16) && decide (r.aes < 2 ^ 16) && decide (r.dir < 2 ^ 8) &&
    decide (r.mover < 2 ^ 64) && decide (r.rod < 2 ^ 544)

/-- A bus transfer's target address fits seven bits (R22). -/
def BusXfer.wf (x : BusXfer) : Bool := decide (x.addr < 128)

/-- A controller's boot training: at most three attempts, all but the last failed (R50), each of at most 64 map entries on one of
its 16 channels (R138). -/
def TrainResult.wf (r : TrainResult) : Bool :=
  decide (r.attempts.length ≤ 3) &&
    r.attempts.all (fun a => (a.failCh.all fun ch => decide (ch < 16)) && decide (a.checks.length ≤ 64)) &&
    r.attempts.dropLast.all fun a => a.failCh.isSome || a.checks.contains .bad

/-- An instruction word's fields fit R172. -/
def RodWord.wf (w : RodWord) : Bool :=
  decide (w.d < 32) && decide (w.a < 32) && decide (w.b < 32) && decide (w.fa < 16) && decide (w.fb < 16) &&
    decide (w.rsv < 2) && decide (w.imm < 2 ^ 32)

/-- A near stack has 32 units, a far group 16 (Table 6.1). -/
def unitOk (c : Fin 12) (u : Fin 32) : Bool := decide (c.val < 4) || decide (u.val < 16)

/-- The command's operands fit. -/
def Instr.wellFormed (i : Instr) : Bool :=
  match i with
  | .powerInputRise _ _ => true
  | .hotSwapPinChange _ => true
  | .brownOutTurnOff _ _ => true
  | .overVoltageTurnOff _ _ => true
  | .railOutOfBand _ => true
  | .moduleReset _ _ => true
  | .strapSampling pins => pins.wf
  | .strapRecheck pins => pins.wf
  | .powerSample _ _ => true
  | .throttleStepTakesEffect => true
  | .thermalThresholdCross _ => true
  | .thermalStepFall _ => true
  | .thermalTrip _ => true
  | .tripTurnOff => true
  | .page x n => x.wf && decide (n < 256)
  | .clearFaults x => x.wf
  | .statusWord x => x.wf
  | .readVin x => x.wf
  | .readIin x => x.wf
  | .readVout x => x.wf
  | .readIout x => x.wf
  | .readTemperature1 x => x.wf
  | .readPout x => x.wf
  | .readPin x => x.wf
  | .telemetryRefresh pages => decide (pages.length = 8) && pages.all fun t => decide (t.2 < 0x10000)
  | .smbusBlockRead addr offset len => decide (addr < 128) && decide (offset < 0x10000) && decide (len < 256)
  | .smbusAlertClear addr offset value => decide (addr < 128) && decide (offset < 0x10000) && decide (value < 2 ^ 32)
  | .smbusAlertResponse => true
  | .jtagIdcode => true
  | .jtagBypass => true
  | .jtagSamplePreload _ _ => true
  | .jtagExtest _ _ => true
  | .jtagExtestPulse _ _ => true
  | .jtagExtestTrain _ _ => true
  | .romPhaseEnd => true
  | .recoveryLinkTimeout => true
  | .selftestEnd r => r.wf
  | .restoreEnd => true
  | .trainEnd r => decide (r.length = 12) && r.all TrainResult.wf
  | .controllerZeroDone _ => true
  | .zeroEnd => true
  | .phaseLimit r t => r.wf && decide (t.length = 12) && t.all TrainResult.wf
  | .tickListenEnd => true
  | .serviceEntry => true
  | .joinRepeat => true
  | .join _ p => p.wf
  | .refLoss _ => true
  | .pllRelock _ => true
  | .clockEnableWrite _ p => p.wf
  | .clockSourceSelect _ p => p.wf
  | .muxSwitchDone _ => true
  | .muxWatchdog _ => true
  | .announceSend => true
  | .announce _ p => p.wf
  | .delayReq _ p => p.wf
  | .delayResp _ p => p.wf
  | .tickHoldRelease => true
  | .tickSyncTimeout => true
  | .regRead _ p => p.wf
  | .regWrite _ p => p.wf
  | .regShadowSync _ p => p.wf
  | .pinMaxRead _ p => p.wf
  | .refDebtRead _ p => p.wf
  | .qdepthMaxRead _ p => p.wf
  | .issuerKeyInstall _ p => p.wf
  | .issuerKeyRetire _ p => p.wf
  | .counterFloorWritten _ => true
  | .swap _ p => p.wf
  | .swapCancel _ p => p.wf
  | .swapFire => true
  | .commit _ p => p.wf
  | .commitComplete _ => true
  | .commitTimeout => true
  | .keyInstall _ p => p.wf
  | .keyActivate => true
  | .keyRetire _ p => p.wf
  | .keyRetireFire => true
  | .keyRefsZero _ => true
  | .keyRetireDeadline _ => true
  | .contextCreate _ p => p.wf
  | .contextCreateFire => true
  | .contextDestroy _ p => p.wf
  | .contextDestroyFire => true
  | .contextDrainEnd _ => true
  | .contextDrainDeadline _ => true
  | .contextFree _ => true
  | .extentGrant _ p => p.wf
  | .extentGrantFire => true
  | .extentRevoke _ p => p.wf
  | .extentRevokeFire => true
  | .extentDrainEnd _ => true
  | .extentDrainDeadline _ => true
  | .extentZeroingDone _ => true
  | .fwUpdate _ p => p.wf
  | .recoveryFwUpdate _ p => p.wf
  | .roleChange _ p => p.wf
  | .debugUnlock _ p => p.wf
  | .debugUnlockDone => true
  | .fwChunk _ p => p.wf
  | .fwChunkWritten _ => true
  | .read _ p => p.wf
  | .readShared _ p => p.wf
  | .readOwn _ p => p.wf
  | .readNoalloc _ p => p.wf
  | .write _ p => p.wf
  | .writePartial _ p => p.wf
  | .writeback _ p => p.wf
  | .atomicFetchAdd _ p => p.wf
  | .atomicSwap _ p => p.wf
  | .atomicCas _ p => p.wf
  | .exactAdd _ p => p.wf
  | .snoopInv _ p => p.wf
  | .snoopShare _ p => p.wf
  | .snoopCopy _ p => p.wf
  | .inval _ p => p.wf
  | .invalComplete _ => true
  | .walkComplete _ => true
  | .cmpl _ p => p.wf
  | .outboundTimeout _ => true
  | .outboundGuardEnd _ => true
  | .e2eRetry _ => true
  | .doneRecordExpire src tag => decide (src < 4096) && decide (tag < 0x10000)
  | .ringRecordWrite _ => true
  | .ringPoll _ => true
  | .walkerRootWrite _ p => p.wf
  | .ringEnableWrite _ p => p.wf
  | .schedulerSlot c unit => unitOk c unit
  | .agePromote c unit => unitOk c unit
  | .dramReadDone c unit _ => unitOk c unit
  | .refreshDue c unit _ => unitOk c unit
  | .scrubPeriodEnd _ => true
  | .srIdleEnter _ => true
  | .srEntryDone _ => true
  | .srExitDone _ => true
  | .srMaxExpiry _ => true
  | .srForceWrite _ p => p.wf
  | .trackingStep _ _ => true
  | .fullRetrainStart _ _ _ => true
  | .retrainDone _ _ => true
  | .eccInjectArm _ p => p.wf
  | .beamHdrError unit src tag => decide (unit < 0x10000) && decide (src < 4096) && decide (tag < 0x10000)
  | .protFwd _ p => p.wf
  | .protFwdResend _ => true
  | .memberRead _ p => p.wf
  | .reconRead _ p => p.wf
  | .reconTimeout _ => true
  | .protReload _ p => p.wf
  | .rebuildBead _ => true
  | .nop _ w => w.wf
  | .add _ w => w.wf
  | .sub _ w => w.wf
  | .and _ w => w.wf
  | .or _ w => w.wf
  | .xor _ w => w.wf
  | .shl _ w => w.wf
  | .shr _ w => w.wf
  | .cmp _ w => w.wf
  | .li _ w => w.wf
  | .mul _ w => w.wf
  | .ld _ w => w.wf
  | .st _ w => w.wf
  | .br _ w => w.wf
  | .loop _ w => w.wf
  | .stepctr _ w => w.wf
  | .accClear _ w => w.wf
  | .mmv _ w => w.wf
  | .accDrain _ w => w.wf
  | .accSpill _ w => w.wf
  | .accAddrec _ w => w.wf
  | .vld _ w => w.wf
  | .vst _ w => w.wf
  | .vldf _ w => w.wf
  | .vstf _ w => w.wf
  | .vadd _ w => w.wf
  | .vmul _ w => w.wf
  | .vmax _ w => w.wf
  | .vmin _ w => w.wf
  | .vcmp _ w => w.wf
  | .vsel _ w => w.wf
  | .vfma _ w => w.wf
  | .vcvt _ w => w.wf
  | .vexp _ w => w.wf
  | .vrcp _ w => w.wf
  | .vred _ w => w.wf
  | .vshuf _ w => w.wf
  | .srecv _ w => w.wf
  | .ssend _ w => w.wf
  | .streamWaitResume _ => true
  | .tileEnd _ w => w.wf
  | .fence _ w => w.wf
  | .halt _ w => w.wf
  | .checkMismatch _ sigR sigS => decide (sigR < 2 ^ 128) && decide (sigS < 2 ^ 128)
  | .voteDone _ => true
  | .spareStandInRequest _ p => p.wf
  | .sliceBoundary _ => true
  | .tileOverrun _ => true
  | .rodSaveDone _ => true
  | .rodZeroDone _ => true
  | .rodRestoreDone _ => true
  | .fbZeroDone _ => true
  | .jobLoad _ p => p.wf
  | .jobPlace _ p => p.wf
  | .jobPlaceComplete _ p => p.wf
  | .jobUnload _ p => p.wf
  | .jobRemove _ p => p.wf
  | .jobStep _ p => p.wf
  | .jobLaunch job => decide (job < 1024)
  | .fnDisable _ p => p.wf
  | .fnEnable _ p => p.wf
  | .fnStatus _ p => p.wf
  | .invoke _ p => p.wf
  | .callEnter _ => true
  | .replyGroupReady _ => true
  | .movResume _ p => p.wf
  | .movCancel _ p => p.wf
  | .triggerRead _ => true
  | .pieceDeliver _ => true
  | .moverPreempt _ => true
  | .kvSetup _ p => p.wf
  | .sessionOpen _ p => p.wf
  | .sessionFork _ p => p.wf
  | .sessionExtend _ p => p.wf
  | .sessionCommit _ p => p.wf
  | .sessionClose _ p => p.wf
  | .sessionRenew _ p => p.wf
  | .kvStatus _ p => p.wf
  | .sessionExpire _ => true
  | .sessionFree _ => true
  | .kvMoveStart _ _ _ => true
  | .kvMoveDone _ => true
  | .kvOldSlotRelease _ => true
  | .attend _ p => p.wf
  | .attendBlocksResolved _ => true
  | .flitSlot _ => true
  | .dataFlitReceive _ _ flit => decide (flit.length = 256)
  | .idleFlitReceive _ _ flit => decide (flit.length = 256)
  | .initFlitReceive _ _ flit => decide (flit.length = 256)
  | .downFlitReceive _ _ flit => decide (flit.length = 256)
  | .waitTimeout _ => true
  | .replayTimeout _ => true
  | .linkTrainingDone _ => true
  | .trainingTimeout _ => true
  | .initTimeout _ => true
  | .lockLoss _ lanes _ => decide (lanes < 16)
  | .lockBlip _ lanes _ => decide (lanes < 16)
  | .downHoldExpiry _ => true
  | .linkRetrain _ p => p.wf
  | .linkHoldDown _ p => p.wf
  | .ethFrameReceive _ _ _ _ _ => true
  | .pfcFrameReceive _ _ => true
  | .pfcRefresh _ => true
  | .transitPacket _ p => p.wf
  | .routingTableWrite _ p => p.wf
  | .oldWritableSet => true
  | .flipArm _ p => p.wf
  | .flipCancel _ p => p.wf
  | .epochFlip => true
  | .boardWindowWrite _ p => p.wf
  | .boardArm _ p => p.wf
  | .boardCancel _ p => p.wf
  | .boardSwitch => true
  | .throttleRelease _ _ => true
  | .hostShaperRelease _ => true
  | .meterCommit _ p => p.wf
  | .hostRecordCommit _ p => p.wf
  | .queueShaperCommit _ p => p.wf
  | .balanceCheck _ p => p.wf
  | .snoopRetry _ _ => true
  | .epState _ p => p.wf
  | .deadWalkDone _ => true
  | .attest _ p => p.wf
  | .attestComplete => true
  | .attestCert _ p => p.wf
  | .mgrKeyExpire => true
  | .takeover => true
  | .roleChangeResend => true
  | .takebackRequest => true
  | .takeback _ p => p.wf
  | .takebackResend => true
  | .takebackFire => true
  | .workerSilent ep => decide (ep < 4096)
  | .tallyRead _ p => p.wf
  | .tallySnapshot _ p => p.wf
  | .tallySelectWrite _ p => p.wf
  | .bwWindowEnd => true
  | .railsGood => true
  | .badFlitReceive _ _ _ => true
  | .pfcPauseExpiry _ => true
  | .recoverySlotWriteDone _ => true
  | .balanceWaitExpiry => true
  | .balancePageAuditDone => true

end Sys2Proof
end

