-- ==== Sys2Proof/Tests/Slice0.lean ====
section
/-!
SUPPORT. Small tests: terms WellFormed refuses, single steps with results the spec gives, and for each statement states and
operands that meet the hypotheses of its clauses.
-/

namespace Sys2Proof.Tests

open Sys2Proof Sys2Proof.Machine

set_option Elab.async false

/-! ### Helpers: states in service and packets that are admitted -/

/-- A powered module 0x001 in service: role worker, manager 0x002 under key 77, port 0 up, key slot 3 (KEY_ID 16, key 99) of
the active context 5 with member 0x004. -/
def svc : State :=
  { pwr := { stage := .conducting, railsGood := true, pwrGood := true
             sampled := some { role := 3, x := 1, y := 0, z := 0, mateAHigh := false, mateBHigh := false } }
    boot := { state := 6, started := true, level := 1, nmcOk := 15, fmcOk := 255, portOk := 65535, dirOk := 255, frameOk := 2 ^ 32 - 1,
              crebaOk := true, xltOk := true, txnOk := true, beamOk := true, fuseSvn := 3 }
    clk := { enBlk := 2 ^ 19 - 1, enPort := 2 ^ 24 - 1, enFrm := 2 ^ 32 - 1, rodEn := [(0, 2 ^ 19 - 1)], pllLocked := 127,
             xoPresent := true, tickRefPresent := true }
    tick := { locked := true, first := true, count := 1000 }
    mgr := { role := 0, ep := some 2 }
    ten := { own := some { key := 77 }, keys := [(3, { st := .active, key := 99, keyId := 16, owner := 5 })]
             ctxs := [(5, { st := .active, members := [4] })] }
    ports := [(0, { st := .up })] }

/-- A CMD packet with its own body, from an endpoint under a key, before its tag. -/
def cmdPkt (op src keyId ctx : Nat) (own : List Byte) : Packet :=
  { typ := tCmd, vc := if op < 0x80 then 0 else 1, length := (56 + own.length) / 4, dst := 1, tag := 9, form := contextForm src ctx 0
    sec := some { keyId := keyId, sender := src, rsv := 0, counter := 1 }, body := byte op :: zeroBytes 7 ++ own }

/-- A packet with the tag it must carry under a key. -/
def tagged (p : Packet) (key : Nat) : Packet := { p with gcm := p.tagUnder key }

/-- A command of the manager, and one of member 4 of context 5. -/
def mgrPkt (op : Nat) (own : List Byte) (ctx : Nat := 0) : Packet := tagged (cmdPkt op 2 0 ctx own) 77
def ctxPkt (op : Nat) (own : List Byte) : Packet := tagged (cmdPkt op 4 16 5 own) 99

/-- A CMD packet without a prefix. -/
def openPkt (op src ctx : Nat) (body : List Byte) : Packet :=
  { typ := tCmd, vc := if op < 0x80 then 0 else 1, length := (16 + body.length) / 4, dst := 1, tag := 9, form := contextForm src ctx 0
    body := body }

/-- The state in which an accepted packet has its slot and its tag is looked at. -/
def taken (s : State) (r : Rules) (port : Fin 16) (p : Packet) : Option State :=
  if (s.takeLocal p).isSome || !s.portUp port then none
  else match (s.received port p none).police (some port.val) p with
    | none => none
    | some s =>
      let s := s.learn port p
      if p.dst ≠ s.ep then none
      else match s.verdict r (some port.val) p with
        | (s, .accept yellow t) => some (s.accept r (some port.val) p yellow t)
        | _ => none

/-- The state in which the unit acts. -/
def letIn (s : State) (r : Rules) (port : Fin 16) (p : Packet) : State := ((taken s r port (r.form p)).getD s).verified (r.form p)

/-- The key a packet's tag is checked under. -/
def tagKey (s : State) (p : Packet) : Option Nat :=
  match s.keyRef p with
  | .slot n => some (s.keySlot n).key
  | .manager _ k => some k
  | .clear => none

theorem tagOk_of {s : State} {p : Packet} {k : Nat} (h : p.sec = none ∨ tagKey s p = some k ∧ p.gcm = p.tagUnder k) :
    s.tagOk p = true := by
  unfold State.tagOk
  rcases h with h | ⟨h, hg⟩
  · rw [h]
  · cases hp : p.sec with
    | none => rfl
    | some x =>
      unfold tagKey at h
      cases hk : s.keyRef p with
      | clear => rw [hk] at h; cases h
      | manager ep key => rw [hk] at h; cases h; simpa using hg
      | slot n =>
        rw [hk] at h
        simp only [Option.some.injEq] at h
        simp only [h]
        simpa using hg

/-- A packet whose computed verdict accepts it, and whose tag is right, is admitted. -/
theorem admits {s : State} {r : Rules} {port : Fin 16} {p : Packet} {k : Nat} (h : (taken s r port (r.form p)).isSome = true)
    (ht : (r.form p).sec = none ∨
      tagKey ((taken s r port (r.form p)).getD s) (r.form p) = some k ∧ (r.form p).gcm = (r.form p).tagUnder k) :
    s.Admits r port p (letIn s r port p) := by
  have hk := tagOk_of ht
  unfold letIn
  unfold taken at h hk ⊢
  right
  by_cases hc : ((s.takeLocal (r.form p)).isSome || !s.portUp port) = true
  · rw [if_pos hc] at h; cases h
  · rw [if_neg hc] at h hk ⊢
    simp only [Bool.or_eq_true, Bool.not_eq_true', not_or, Option.isSome_iff_ne_none, ne_eq, not_not,
      Bool.not_eq_false] at hc
    refine ⟨hc.1, hc.2, ?_⟩
    cases hp : (s.received port (r.form p) none).police (some port.val) (r.form p) with
    | none => rw [hp] at h; cases h
    | some u =>
      rw [hp] at h hk
      dsimp only at h hk ⊢
      refine ⟨u, rfl, ?_⟩
      by_cases hd : (r.form p).dst ≠ (u.learn port (r.form p)).ep
      · rw [if_pos hd] at h; cases h
      · rw [if_neg hd] at h hk ⊢
        refine ⟨by simpa using hd, ?_⟩
        cases hv : (u.learn port (r.form p)).verdict r (some port.val) (r.form p) with
        | mk w d =>
          rw [hv] at h hk
          cases d with
          | accept y row => exact ⟨w, y, row, hv, by simpa using hk, rfl⟩
          | discard => cases h
          | refuse st b => cases h
          | resend d => cases h


/-- A REG_READ and a REG_WRITE of the manager, and the states in which they act. -/
def rd (a : Nat) : Packet := mgrPkt 0x40 (leBytes 4 a)
def wr (a v : Nat) : Packet := mgrPkt 0x41 (leBytes 4 a ++ leBytes 4 v)
def atRd (s : State) (p : Packet) : State := letIn s (regRules 0x40 true) 0 p
def atWr (s : State) (p : Packet) : State := letIn s (regRules 0x41 false) 0 p

theorem reads {s : State} {a : Nat} {g : Target}
    (h : (taken s (regRules 0x40 true) 0 ((rd a).ofCmd 0x40)).isSome = true ∧
      tagKey ((taken s (regRules 0x40 true) 0 ((rd a).ofCmd 0x40)).getD s) ((rd a).ofCmd 0x40) = some 77 ∧
      (atRd s (rd a)).regTarget ((rd a).ofCmd 0x40) 4 = .inr g) : s.AdmitsRead 0 (rd a) g (atRd s (rd a)) :=
  ⟨admits (k := 77) h.1 (.inr ⟨h.2.1, rfl⟩), h.2.2⟩

theorem writes {s : State} {a v : Nat} {g : Target} {w : Word}
    (h : (taken s (regRules 0x41 false) 0 ((wr a v).ofCmd 0x41)).isSome = true ∧
      tagKey ((taken s (regRules 0x41 false) 0 ((wr a v).ofCmd 0x41)).getD s) ((wr a v).ofCmd 0x41) = some 77 ∧
      (atWr s (wr a v)).regTarget ((wr a v).ofCmd 0x41) 8 = .inr g ∧ Packet.regValue ((wr a v).ofCmd 0x41) = w) :
    s.AdmitsWrite 0 (wr a v) g w (atWr s (wr a v)) :=
  ⟨admits (k := 77) h.1 (.inr ⟨h.2.1, rfl⟩), h.2.2.1, h.2.2.2⟩

/-- An admitted REG_WRITE whose value and state meet a clause's conditions. -/
def WriteMeets (s : State) (a v : Nat) (g : Target) (P : Word → State → Prop) : Prop := ∃ w t, s.AdmitsWrite 0 (wr a v) g w t ∧ P w t

theorem wm {s : State} {a v : Nat} {g : Target} {P : Word → State → Prop}
    (h : (taken s (regRules 0x41 false) 0 ((wr a v).ofCmd 0x41)).isSome = true ∧
      tagKey ((taken s (regRules 0x41 false) 0 ((wr a v).ofCmd 0x41)).getD s) ((wr a v).ofCmd 0x41) = some 77 ∧
      (atWr s (wr a v)).regTarget ((wr a v).ofCmd 0x41) 8 = .inr g)
    (hp : P (Packet.regValue ((wr a v).ofCmd 0x41)) (atWr s (wr a v))) : WriteMeets s a v g P :=
  ⟨_, _, writes ⟨h.1, h.2.1, h.2.2, rfl⟩, hp⟩

/-- Admission of a command under a key, from its computed verdict. -/
theorem sealed {s : State} {r : Rules} {p : Packet} {k : Nat}
    (h : (taken s r 0 (r.form p)).isSome = true ∧ tagKey ((taken s r 0 (r.form p)).getD s) (r.form p) = some k)
    (ht : (r.form p).gcm = (r.form p).tagUnder k) : s.Admits r 0 p (letIn s r 0 p) :=
  admits h.1 (.inr ⟨h.2, ht⟩)

/-- Admission of a packet without a prefix. -/
theorem unsealed {s : State} {r : Rules} {p : Packet} (h : (taken s r 0 (r.form p)).isSome = true ∧ (r.form p).sec = none) :
    s.Admits r 0 p (letIn s r 0 p) := admits (k := 0) h.1 (.inl h.2)


theorem leNat_leBytes (n v : Nat) : leNat (leBytes n v) = v % 256 ^ n := by
  induction n generalizing v with
  | zero => simp [leBytes, leNat, Nat.mod_one]
  | succ n ih =>
    have h : (byte v).toNat = v % 256 := by simp [byte]
    rw [leBytes, leNat, ih, h, Nat.pow_succ, Nat.mul_comm (256 ^ n), Nat.mod_mul]

/-- The payload of a critical command to module 0x001 up to its tag. -/
def critHead (op issuer counter exec ctx : Nat) (body : List Byte) : List Byte :=
  [byte op, byte issuer] ++ leBytes 2 body.length ++ zeroBytes 4 ++ leBytes 8 counter ++ leBytes 8 exec ++ leBytes 2 1 ++
    leBytes 2 ctx ++ zeroBytes 4 ++ body

/-- A critical command of issuer 1, whose key is 55, with a tag that is right or is not. -/
def critPkt (op counter exec ctx : Nat) (body : List Byte) (key : Nat := 55) (off : Nat := 0) : Packet :=
  let b := critHead op 1 counter exec ctx body
  openPkt op 4 0 (b ++ leBytes 32 (critTag key (openPkt op 4 0 b) + off))

/-- Issuer slot 1 VALID with every class, key 55, last counter 10, floor 1,000. -/
def iss (i : Issuer := { st := 1, perm := 255, key := 55, last := 10, floor := 1000 }) : State :=
  { svc with cc := { issuers := [(1, i)] } }

theorem critTag_lt (key : Nat) (p : Packet) : critTag key p < 256 ^ 32 := by
  have := Nat.mod_lt (Config.kmac256 key (leBytes 8 Config.serial.toNat ++ p.body.take (0x20 + field p.body 2 2)) 256 "FRENTO-CC-1")
    (show 0 < 2 ^ 256 by decide)
  exact lt_of_lt_of_eq this (by norm_num)

theorem critTag_ok (key : Nat) (p : Packet) : critTag key p = leNat (leBytes 32 (critTag key p + 0)) := by
  rw [leNat_leBytes, Nat.add_zero, Nat.mod_eq_of_lt (critTag_lt key p)]

theorem critTag_bad (key : Nat) (p : Packet) : critTag key p ≠ leNat (leBytes 32 (critTag key p + 1)) := by
  rw [leNat_leBytes]
  have h := critTag_lt key p
  have : (256 : Nat) ^ 32 = 115792089237316195423570985008687907853269984665640564039457584007913129639936 := by norm_num
  omega

/-- The checks passed by a command that carries a wrapped key. -/
theorem checks_wrapped {s : State} {c : Crit} {o : CritOp} {k : Nat}
    (h : ¬(c.exec ≠ 0 ∧ o.tickOk c = false) ∧ ¬(c.exec ≠ 0 ∧ s.tickRule c.exec ≠ stOk) ∧
      o.check (if c.exec = 0 ∨ c.op = 0x03 then s else s.projected c) c = stOk ∧ o.wraps = true)
    (hu : s.unwrapped c = some k) (ha : o.after (if c.exec = 0 ∨ c.op = 0x03 then s else s.projected c) c k = stOk) :
    s.critChecks c o = (s.advanceWrap c.ctx, .inl k) := by
  obtain ⟨he, ht, hc, hw⟩ := h
  unfold State.critChecks
  rw [if_neg he, if_neg ht]
  dsimp only
  rw [if_neg (by rw [hc]; exact fun h => h rfl), if_pos hw, hu]
  dsimp only
  rw [if_neg (by rw [ha]; exact fun h => h rfl)]

def atCrit (s : State) (op : Nat) (p : Packet) : State := letIn s (critRules op) 0 p

theorem passes {s : State} {op : Nat} {p : Packet} {o : CritOp} (ho : critOp op = some o)
    (h : (taken s (critRules op) 0 (p.ofCmd op)).isSome = true ∧ (p.ofCmd op).sec = none ∧ (atCrit s op p).cc.floorWait = none ∧
      (critIn op p).op = op ∧ critShape (atCrit s op p).ep (p.ofCmd op) = true ∧ o.shape (critIn op p) = true ∧
      ((atCrit s op p).issuer (critIn op p).issuer).st = 1 ∧
      ((atCrit s op p).issuer (critIn op p).issuer).last < (critIn op p).counter ∧ (critIn op p).counter ≤ ccMax ∧
      bit ((atCrit s op p).issuer (critIn op p).issuer).perm o.cls = true)
    (ht : critTag ((atCrit s op p).issuer (critIn op p).issuer).key (p.ofCmd op) = (critIn op p).tag) :
    s.PassesCrit (critRules op) op 0 p o (atCrit s op p) :=
  ⟨unsealed ⟨h.1, h.2.1⟩, h.2.2.1, ho, h.2.2.2.1, h.2.2.2.2.1, h.2.2.2.2.2.1, h.2.2.2.2.2.2.1, ht, h.2.2.2.2.2.2.2.1,
    h.2.2.2.2.2.2.2.2.1, h.2.2.2.2.2.2.2.2.2⟩

theorem accepts {s : State} {op k : Nat} {p : Packet} {o : CritOp} {t u : State} (hp : s.PassesCrit (critRules op) op 0 p o t)
    (hc : t.critChecks (critIn op p) o = (u, .inl k))
    (h : (critIn op p).counter < (t.issuer (critIn op p).issuer).floor ∧ (critIn op p).counter ≤ ccMax - 2 ^ 32) :
    s.AcceptsCrit (critRules op) op 0 p (u.counts (critIn op p)) k :=
  ⟨o, t, u, hp, hc, h.1, h.2, rfl⟩

/-- Context 5's memory: extent 20, SPAN near, and extent 21, TABLE, which holds the stripe descriptor of extent 20: position 0
here, position 1 at endpoint 0x002. -/
def stripeDesc : List Byte :=
  byte 1 :: zeroBytes 15 ++ leBytes 2 (0x8000 + 1) ++ leBytes 2 20 ++ leBytes 2 4 ++ leBytes 2 5 ++
    leBytes 2 (0x8000 + 2) ++ leBytes 2 30 ++ leBytes 2 6 ++ leBytes 2 5 ++ zeroBytes 96
def striped (q : Prot := { keysel := 3, members := [] }) : State :=
  let e : Extent := { st := .active, owner := 5, base2m := 1, len2m := 1, prot := 1, gen := 4, partners := 0x10000 + 3 * 2 ^ 46 }
  { svc with
    xlt := { svc.xlt with extents := [(20, e), (21, { st := .active, kind := 1, base2m := 2, len2m := 1, gen := 1 })] }
    mem := cellPuts [] 0x400000 stripeDesc
    ecc := { svc.ecc with prots := [(20, q)] } }

/-- An ISSUER_KEY_RETIRE of slot 2, with counter `n` and a tag that is right or (off = 1) is not. -/
def retire (n : Nat) (off : Nat := 0) : Packet := critPkt 0x02 n 0 0xFFFF (byte 2 :: zeroBytes 7) 55 off

/-- The packet of a taken slot. -/
theorem slot_some {s : State} {k : Nat} (h : (s.slot? k).isSome = true) : s.slot? k = some ((s.slot? k).get h) := by simp

/-- The active manager 0x001, with module 0x004's key 88 in its roster. -/
def boss : State :=
  { svc with mgr := { role := 2, ep := some 1, mirrorOk := true, roster := [(4, { serial := 3 })] }
             ten := { svc.ten with roster := [(4, { key := 88 })] } }
def rosterPkt (op : Nat) (own : List Byte) : Packet := tagged (cmdPkt op 4 0 0 own) 88

/-- A packet of the memory form from member 4 under key slot 3. -/
def memPkt (typ qual addr : Nat) (body : List Byte := []) : Packet :=
  tagged { typ := typ, length := (48 + body.length) / 4, dst := 1, qual := qual, tag := 9, form := addr
           sec := some { keyId := 16, sender := 4, rsv := 0, counter := 1 }, body := body } 99

/-- Context 5 maps its VAs 0 to 2 MiB to extent 20 by the tables in extent 21. -/
def mapped : State :=
  let pte (a low : Nat) : List Byte := leBytes 8 (a / 256 * 2 ^ 24 + low)
  { svc with
    xlt := { svc.xlt with extents := [(20, { st := .active, owner := 5, base2m := 1, len2m := 1, gen := 4 }),
                                     (21, { st := .active, kind := 1, base2m := 2, len2m := 1, gen := 1 })]
                          rings := [(5, { rootLo := 0x400001 })] }
    mem := cellPuts (cellPuts (cellPuts [] 0x400000 (pte 0x420000 1)) 0x420000 (pte 0x430000 1)) 0x430000 (pte 0x200000 (0xC00 + 31)) }
/-- The lookaside entry of that mapping. -/
def leaf : LkEntry :=
  { ctx := 5, va := 0, size := 0x200000, pa := 0x200000, keysel := 3, r := true, w := true, atom := true, coh := false, prot := 0, ext := 20, gen := 4 }
def hit : State := { mapped with xlt := { mapped.xlt with tlb := [leaf] } }

/-- A read of the bead at 0x200040 in the queue of its unit, at class 1. -/
def queuedRead : MemReq := { pa := 0x200040, op := .read, cls := 1, at_ := 5, seq := 0, origin := .slot 9 0 }
def queuedIn (v : Ctl) : State := { svc with ctl := [(0, v)] }
def readsUnit : Machine.Unit := { reads := [queuedRead], nextSeq := 1 }

/-- A manifest of one stage and one stream of two elements, from local stream 3 of its rod to local stream 4 of the same. -/
def oneStream : List Byte :=
  overlay (overlay (overlay (zeroBytes 112) 0x0D [1, 1]) 96 [0, 0, 0, 0, 3, 4]) 104 (leBytes 4 256)

/-- Rod 0 runs for job 1 of context 5, whose partition of frame 0 is its first 64 KiB. -/
def running (g : RodRegs := {}) (r : Rod := { st := .running, ctx := 5, job := some (1, 0, 0) }) (str : StreamSt := {}) : State :=
  let j : Job := { ctx := 5, launched := true, manifest := oneStream, places := [(0, [0])], rings := [0] }
  { svc with
    active := cfgPut (cfgPut [] 0x100060 0x80050001) 0x100064 0x01000100
    rods := [(0, { r with regs := g })], jobs := [(1, j)], streams := [(256, str)] }


/-- A manifest of one stage with an entry stream (0), a reply stream (1) and one ATTEND function of 128 argument and 128 reply
bytes. -/
def pipe : List Byte :=
  overlay (overlay (overlay (overlay (zeroBytes 144) 0x0D [1, 2, 1]) 96 ([0xFE, 0, 0, 0, 0, 3, 0, 0] ++ leBytes 4 512)) 112
    ([0, 0, 0xFE, 0, 4, 0, 0, 0] ++ leBytes 4 512)) 128 [0, 1, 2, 1, 128, 0, 128, 0]
/-- A profile of one layer and head, D = 32, 16 tokens a block, served by function 7. -/
def prof : Profile :=
  { layers := 1, heads := 1, d32 := 1, tokens := 16, nearFmt := 0xA, farFmt := 5, fn := 7, demote := false, promote := false, farMx := false
    high := 90, low := 50, nearVa := 0x10000, nearSlots := 4, farVa := 0, farSlots := 0 }
/-- Context 5 with that function ENABLED and an open session 0 of 16 tokens whose table lies at VA 0; `e` is its first entry. -/
def service (f : Fn := { job := 1, index := 0, st := .enabled }) (v : Session := { st := .opened, ctx := 5, maxBlocks := 4, valid := 16, cap := 16 })
    (e : KvEntry := { addr := 0x20000, kind := 1, fmt := 0xA }) : State :=
  { hit with
    active := running.active
    jobs := [(1, { ctx := 5, launched := true, manifest := pipe, places := [(0, [0])], rings := [0, 0x400], fns := [7] })]
    fns := [(7, f)], kvs := { profiles := [(5, prof)], sessions := [(0, v)] }
    mem := cellPuts (cellPuts hit.mem 0x200000 e.bytes) 0x210000 [15] }
/-- An INVOKE or ATTEND of function 7 from member 4. -/
def fnPkt (typ : Nat) (body : List Byte) : Packet :=
  tagged { typ := typ, vc := if typ = tAttend then 5 else 0, length := (48 + body.length) / 4, dst := 1, tag := 9, form := contextForm 4 5 (if typ = tAttend then 0 else 7)
           sec := some { keyId := 16, sender := 4, rsv := 0, counter := 1 }, body := body } 99
/-- An ATTEND request of one token over tokens 0 to 15. -/
def attBody : List Byte := [0, 0, 0, 0, 0, 0, 0, 1, 0, 0, 0, 0, 16, 0, 0, 0, 1, 0, 0xA, 0xD] ++ zeroBytes 172

/-- A module in a boot phase with every controller healthy, itself its manager. -/
def booting (n : Nat) : State := { svc with boot := { svc.boot with state := n }, mgr := { role := 2, ep := some 1 } }

/-- A pair with the second part it has. -/
theorem pairOf {α β : Type} {x : α × β} {b : β} (h : x.2 = b) : x = (x.1, b) := Prod.ext rfl h

/-- An admitted packet whose slot meets a clause's conditions. -/
def CmdMeets (s : State) (r : Rules) (p : Packet) (key : Nat) (P : State → InSlot → Prop) : Prop :=
  ∃ t v, s.Admits r 0 p t ∧ t.slot? key = some v ∧ P t v

theorem cmSealed {s : State} {r : Rules} {p : Packet} {key k : Nat} {P : State → InSlot → Prop}
    (h : (taken s r 0 (r.form p)).isSome = true ∧ tagKey ((taken s r 0 (r.form p)).getD s) (r.form p) = some k)
    (ht : (r.form p).gcm = (r.form p).tagUnder k) (hs : ((letIn s r 0 p).slot? key).isSome = true)
    (hp : P (letIn s r 0 p) (((letIn s r 0 p).slot? key).get hs)) : CmdMeets s r p key P :=
  ⟨_, _, sealed h ht, slot_some hs, hp⟩

theorem cmOpen {s : State} {r : Rules} {p : Packet} {key : Nat} {P : State → InSlot → Prop}
    (h : (taken s r 0 (r.form p)).isSome = true ∧ (r.form p).sec = none) (hs : ((letIn s r 0 p).slot? key).isSome = true)
    (hp : P (letIn s r 0 p) (((letIn s r 0 p).slot? key).get hs)) : CmdMeets s r p key P :=
  ⟨_, _, unsealed h, slot_some hs, hp⟩

/-- The word of a rod instruction (Table 8.2). -/
def wordOf (op : Nat) (w : RodWord) : Nat :=
  op * 2 ^ 56 + w.d * 2 ^ 51 + w.a * 2 ^ 46 + w.b * 2 ^ 41 + w.fa * 2 ^ 37 + w.fb * 2 ^ 33 + w.rsv * 2 ^ 32 + w.imm
/-- Rod 0 runs with that word at its pc. -/
def at_ (op : Nat) (w : RodWord) (g : RodRegs := {}) (str : StreamSt := {}) : State :=
  running g { st := .running, ctx := 5, job := some (1, 0, 0), scratch := cellPuts [] g.pc (leBytes 8 (wordOf op w)) } str
/-- Rod 0 issues an instruction, with conditions on the state in which it acts. -/
def IssuesAt (s : State) (op : Nat) (w : RodWord) (P : State → Prop) : Prop := ∃ u, s.Issues 0 op w u ∧ P u

theorem issuesAt {s : State} {op : Nat} {w : RodWord} {P : State → Prop}
    (h : s.rodReady 0 = true ∧ ((s.fetched 0).rod 0).regs.pc < 0x80000 ∧
      badAt ((s.fetched 0).rod 0).badLines ((s.fetched 0).rod 0).regs.pc 8 = false ∧
      ((s.fetched 0).rod 0).word / 2 ^ 56 = op ∧ RodWord.ofBits ((s.fetched 0).rod 0).word = w)
    (hp : P ((s.fetched 0).readied 0 op w)) : IssuesAt s op w P :=
  ⟨_, ⟨h.1, h.2.1, h.2.2.1, h.2.2.2.1, h.2.2.2.2, rfl⟩, hp⟩

/-! ### Ill-formed terms, one per check -/

/-- WellFormed refuses a term of each kind whose one field does not fit. -/
theorem test_wellFormed_refuses_prefix_and_packet :
    ({ keyId := 2 ^ 32, sender := 0, rsv := 0, counter := 0 } : Prefix).wf = false ∧
    ({ keyId := 0, sender := 2 ^ 16, rsv := 0, counter := 0 } : Prefix).wf = false ∧
    ({ keyId := 0, sender := 0, rsv := 2 ^ 16, counter := 0 } : Prefix).wf = false ∧
    ({ keyId := 0, sender := 0, rsv := 0, counter := 2 ^ 64 } : Prefix).wf = false ∧
    (∀ p ∈ ([{ typ := 256 }, { vc := 6 }, { hops := 32 }, { epoch := 2 }, { length := 65536 }, { dst := 4096 }, { qual := 16 }, { tag := 65536 },
      { form := 2 ^ 64 }, { gcm := 1 }, { sec := some { keyId := 2 ^ 32, sender := 0, rsv := 0, counter := 0 } },
      { sec := some { keyId := 0, sender := 0, rsv := 0, counter := 0 }, gcm := 2 ^ 128 }, { mac := 2 ^ 48 }] : List Packet),
      p.wf = false ∧ (Instr.read 0 p).wellFormed = false) ∧ ({} : Packet).wf = true := by decide

theorem test_wellFormed_refuses_operands :
    (∀ s ∈ ([{ role := 4 }, { x := 16 }, { y := 16 }, { z := 16 }] : List Straps),
      (Instr.strapSampling s).wellFormed = false ∧ (Instr.strapRecheck s).wellFormed = false) ∧
    (∀ r ∈ ([{ beadCode := 2 ^ 12 }, { link := 2 ^ 16 }, { aes := 2 ^ 16 }, { dir := 2 ^ 8 }, { mover := 2 ^ 64 }, { rod := 2 ^ 544 }] : List SelfTest),
      (Instr.selftestEnd r).wellFormed = false) ∧
    (∀ w ∈ ([{ d := 32 }, { a := 32 }, { b := 32 }, { fa := 16 }, { fb := 16 }, { rsv := 2 }, { imm := 2 ^ 32 }] : List RodWord),
      (Instr.add 0 w).wellFormed = false) ∧
    (∀ i ∈ [Instr.page { addr := 0x61, write := true } 256, .page { addr := 128, write := true } 0, .readVin { addr := 128, write := false },
      .telemetryRefresh [], .telemetryRefresh (List.replicate 8 ({}, 0x10000)), .smbusBlockRead 128 0 4, .smbusBlockRead 0x51 0x10000 4,
      .smbusBlockRead 0x51 0 256, .smbusAlertClear 128 0 0, .smbusAlertClear 0x51 0x10000 0, .smbusAlertClear 0x51 0 (2 ^ 32)],
      i.wellFormed = false) ∧
    (∀ i ∈ [Instr.trainEnd [], .trainEnd (List.replicate 12 { attempts := List.replicate 4 {} }), .trainEnd (List.replicate 12 { attempts := [{}, {}] }),
      .trainEnd (List.replicate 12 { attempts := [{ failCh := some 16 }] }), .trainEnd (List.replicate 12 { attempts := [{ checks := List.replicate 65 .good }] }),
      .phaseLimit { rod := 2 ^ 544 } (List.replicate 12 {}), .phaseLimit {} []], i.wellFormed = false) ∧
    (∀ i ∈ [Instr.schedulerSlot 4 16, .agePromote 4 16, .dramReadDone 4 16 [], .refreshDue 4 16 0, .beamHdrError 65536 0 0, .beamHdrError 0 4096 0,
      .beamHdrError 0 0 65536, .jobLaunch 1024, .checkMismatch 0 (2 ^ 128) 0, .checkMismatch 0 0 (2 ^ 128), .dataFlitReceive 0 0 [],
      .idleFlitReceive 0 0 [], .initFlitReceive 0 0 [], .downFlitReceive 0 0 [], .lockLoss 0 16 0, .lockBlip 0 16 0, .doneRecordExpire 4096 0,
      .doneRecordExpire 0 65536, .workerSilent 4096], i.wellFormed = false) ∧
    (Instr.page { addr := 127, write := true } 255).wellFormed = true ∧ (Instr.schedulerSlot 3 31).wellFormed = true ∧
    (Instr.trainEnd (List.replicate 12 { attempts := [{ failCh := some 15 }, { checks := [.bad] }, {}] })).wellFormed = true ∧
    (Instr.jobLaunch 1023).wellFormed = true := by
  decide +kernel

/-! ### The spec's worked examples, one step or one operation each -/

/-- The next state of a command. -/
def next (i : Instr) (s : State) : State := match exec i s with | .next t => t | _ => s

/-- Straps 5, 2, 0 name endpoint 0x025 (the example under R20). -/
theorem test_straps_name_the_endpoint :
    ({ svc with pwr := { svc.pwr with sampled := some { role := 1, x := 5, y := 2, z := 0 } } } : State).ep = 0x025 := by decide

/-- One sample of 662 W sets T2; the 1,000th of 605 W raises the step by one (the example under R26). -/
theorem test_powerSample_peak : (next (.powerSample 48000 6620) svc).pwr.stepPower = 2 := by decide +kernel
theorem test_powerSample_average :
    (next (.powerSample 48000 6050) { svc with pwr := { svc.pwr with aboveRun := 999 } }).pwr.stepPower = 1 ∧
    (next (.powerSample 48000 6050) { svc with pwr := { svc.pwr with aboveRun := 998 } }).pwr.stepPower = 0 := by decide +kernel

/-- The worker's exchange: delay 256 ticks, offset +277 (the example under R70). -/
theorem test_exchange :
    exchange 5000000000 180 5000000713 5000001200 230 5000001409 = (256, 277) := by decide

/-- A swap makes the shadow the active set and keeps the old active one as the shadow (Table 4.14). -/
theorem test_swapFire :
    let t := State.exchange { svc with shadow := cfgPut [] 0x3040 0x028A01E0, cc := { svc.cc with swap := some (0x101, 1000) } } 0x101 1000
    cfgGet t.active 0x3040 = 0x028A01E0 ∧ cfgGet t.shadow 0x3040 = 0x028A0230 ∧ t.cc.swap = none ∧ t.cc.swapCount = 1 := by decide +kernel

/-- PA 0x10_0123_4A40 lies in stack 1 in channel 1, pseudo-channel 1, bank 15, row 9 (the example under R121). -/
theorem test_near_address :
    windowOf 0x1001234A40 = some 1 ∧ ctlOffset 0x1001234A40 = 0x1234A40 ∧ unitIn 1 0x1234A40 = 3 ∧ channelOf 1 (unitIn 1 0x1234A40) = 1 ∧
      bankIn 1 0x1234A40 = 15 ∧ rowIn 1 0x1234A40 = 9 := by decide

/-- A write of 0x1001 over 0x1111 forwards the delta 0x0110 (Table 7.9). -/
theorem test_delta : (fwdOf 3 (leBytes 2 0x1111) (leBytes 2 0x1001)).take 2 = leBytes 2 0x0110 := by decide

/-- 2²⁴ + 1 − 2²⁴ + 0 sums to 1 exactly, drained as binary32 0x3F800000; rounding at each addition would give 0 (the example under R213). -/
theorem test_long_accumulator :
    (drainColumn 0xD 0 false 0 (([(decodeFmt 0xD 0x45800000, decodeFmt 0xD 0x45800000), (decodeFmt 0xD 0x3F800000, decodeFmt 0xD 0x3F800000),
      (decodeFmt 0xD 0x45800000, decodeFmt 0xD 0xC5800000), (decodeFmt 0xD 0, decodeFmt 0xD 0)].map fun x => mulNum x.1 x.2).foldl
        Acc.deposit {})).code = 0x3F800000 := by decide +kernel

/-- A block of E4M3 demoted to MX E2M1: scale 0x7E, codes of Table 9.7. -/
theorem test_quantise :
    quantise 1 0 [] ([Num.fin false 3 0, .fin false 5 (-2), .fin false 11 (-4), .fin true 3 (-4), .fin false 1 (-3)] ++ List.replicate 27 (.fin false 0 0)) =
      (0x7E, [7, 4, 3, 9, 0] ++ List.replicate 27 0) := by decide +kernel

/-- VEXP of −2.25 into L8 is 0x66, of 0 is 0x00; 0x66 as bfloat16 is 0x3DD7 (the example under R226). -/
theorem test_exp :
    (expNum 7 0 false 0 (.fin true 9 (-2))).code = 0x66 ∧ (expNum 7 0 false 0 (.fin false 0 0)).code = 0x00 ∧
      (roundFmt 0xB 0 false 0 (decodeFmt 7 0x66)).code = 0x3DD7 := by decide +kernel

/-- Block sizes of a profile with 8 heads, D = 128, T = 64, E4M3 near and MX E2M1 far (the example under R277). -/
theorem test_profile_sizes :
    let p : Profile := { prof with layers := 64, heads := 8, d32 := 4, tokens := 64, nearFmt := 5, farFmt := 1, farMx := true }
    p.segN = 16384 ∧ p.heads * p.segN = 131072 ∧ p.segF = 8704 ∧ p.heads * p.segF = 69632 := by decide

/-- Request 20 of the burst of Table 17.3 finds Tp enough and Tc not: yellow. -/
theorem test_meter_yellow :
    let tc : Bucket := { tokens := 837 * tokensOf 1, at_ := 817 }
    let tp : Bucket := { tokens := 83593 * tokensOf 1, at_ := 817 }
    (tc.fill 8192 80 860).covers 4096 = false ∧ (tp.fill 16384 160 860).covers 4096 = true ∧
      (tc.fill 8192 80 860).covers 881 = true ∧ (tc.fill 8192 80 860).covers 882 = false := by decide +kernel

/-- 46,000 B waiting and −4,000 B of tokens at 100,000 Mb/s are level 4 (the example under R398). -/
theorem test_host_level :
    svc.hostLevel { rate := 100000, bucket := { tokens := -4000 * (tokensOf 1 : Nat) }, waiting := [({ length := 11500 }, 0)] } = 4 := by
  decide +kernel

/-- The queue is empty after reset. -/
theorem test_reset_queue_is_empty : State.reset.pending = [] := rfl

/-! ### States and operands that meet the hypotheses of the statements -/

theorem meets_StepTakesTheFront : ∃ s : State, s.pending = [] := ⟨svc, rfl⟩

theorem meets_StepKeepsForms : ∃ s t : State, s.Inv ∧ step s = .next t :=
  ⟨{ svc with pending := [.jtagBypass] }, _, ⟨rfl, by intro h; cases h⟩, rfl⟩

theorem meets_CommandsAnswerAndKeep : ∃ c s t, exec c s = .next t := ⟨.jtagBypass, svc, _, rfl⟩

theorem meets_EndpointFromStraps : ∃ (s : State) (p : Straps), s.pwr.sampled = some p ∧ p.x < 16 ∧ p.y < 16 ∧ p.z < 16 :=
  ⟨{ pwr := { sampled := some { role := 0, x := 15, y := 0, z := 7 } } }, _, rfl, by decide⟩

/-- Powered off, released by PWR_EN_N, with the input at the given voltage. -/
def dark (heldOff : Bool := false) : State := { pwr := { enLow := true, heldOff := heldOff, inputMv := 44000 } }

theorem meets_PowerComesUp :
    (∃ (s : State) (mv : Nat), s.pwr.stage = .off ∧ s.pwr.enLow = true ∧ 44000 ≤ mv ∧ s.pwr.heldOff = false) ∧
    (∃ (s : State) (mv held : Nat), s.pwr.stage = .off ∧ s.pwr.enLow = true ∧ 44000 ≤ mv ∧ mv ≤ 59500 ∧ 10 ≤ held ∧ s.pwr.heldOff = true) ∧
    (∃ s : State, s.pwr.stage = .off ∧ s.pwr.enLow = false) ∧ (∃ (s : State) (mv : Nat), s.pwr.stage = .off ∧ mv < 44000) ∧
    (∀ e, ∃ (s : State) (mv : Nat), s.pwr.stage = .latchedOff ∧ s.pwr.inputMv < 44000 ∧ 44000 ≤ mv ∧ s.pwr.heldOff = false ∧ s.pwr.enLow = e) ∧
    (∃ s : State, s.pwr.stage = .off ∧ s.pwr.heldOff = false ∧ 44000 ≤ s.pwr.inputMv) ∧
    (∃ s : State, s.pwr.stage = .ramping) ∧ ∃ s : State, s.pwr.stage = .conducting :=
  ⟨⟨dark, 44000, by decide⟩, ⟨dark true, 59500, 10, by decide⟩, ⟨{}, by decide⟩, ⟨dark, 43999, by decide⟩,
    fun e => ⟨{ pwr := { stage := .latchedOff, inputMv := 43999, enLow := e } }, 44000, rfl, (by decide : 43999 < 44000), by decide, rfl, rfl⟩,
    ⟨dark, by decide⟩, ⟨{ pwr := { stage := .ramping } }, rfl⟩, ⟨svc, rfl⟩⟩

theorem meets_TurnOffLosesEverything :
    (∃ s : State, s.on = true ∧ s.cc.floorWait = none ∧ s.cc.commit = none ∧ s.cc.recovery = none) ∧
    (∃ (s : State) (mv ns : Nat), s.on = true ∧ mv < 42000 ∧ 100000 < ns) ∧
    (∃ (s : State) (mv ns : Nat), s.on = true ∧ 60500 < mv ∧ 10000 < ns) ∧ (∃ (s : State) (at_ : Nat), s.pwr.tripAt = some at_) ∧
    (∃ s : State, s.on = false) ∧ (∃ mv ns, mv < 42000 ∧ ns ≤ 100000) ∧ (∃ mv ns, 60500 < mv ∧ ns ≤ 10000) ∧
    ∃ mv, 42000 ≤ mv ∧ mv ≤ 60500 :=
  ⟨⟨svc, by decide⟩, ⟨svc, 41999, 100001, by decide⟩, ⟨svc, 60501, 10001, by decide⟩, ⟨{ pwr := { tripAt := some 5 } }, 5, rfl⟩,
    ⟨{}, by decide⟩, ⟨41999, 100000, by decide⟩, ⟨60501, 10000, by decide⟩, ⟨42000, by decide⟩⟩

theorem meets_ModuleResetKeepsPower :
    (∃ low, low < 10000) ∧ (∃ (s : State) (low : Nat), 10000 ≤ low ∧ s.on = true ∧ s.cc.floorWait = none ∧ s.cc.commit = none ∧
      s.cc.recovery = none) ∧
    (∀ e, ∃ (s : State) (low : Nat), 10000000 ≤ low ∧ s.pwr.stage = .latchedOff ∧ s.pwr.enLow = e ∧ 44000 ≤ s.pwr.inputMv) ∧
    (∃ s : State, s.pwr.stage = .latchedOff ∧ s.pwr.inputMv < 44000) ∧
    ∃ (s : State) (low : Nat), 10000 ≤ low ∧ low < 10000000 ∧ s.on = false :=
  ⟨⟨9999, by decide⟩, ⟨svc, 10000, by decide⟩,
    fun e => ⟨{ pwr := { stage := .latchedOff, enLow := e, inputMv := 44000 } }, 10000000, by decide, rfl, rfl, (by decide : 44000 ≤ 44000)⟩,
    ⟨{ pwr := { stage := .latchedOff, inputMv := 43999 } }, by decide⟩, ⟨{}, 9999999, by decide⟩⟩

theorem meets_HealthEventsReport :
    (∃ s : State, s.pwr.stage = .conducting) ∧
    (∃ (s : State) (pins p : Straps), s.pwr.sampled = some p ∧ p ≠ pins) ∧
    (∃ (s : State) (pins p : Straps), s.pwr.sampled = some p ∧ p = pins) ∧
    (∀ c ∈ [({ die := 110, hbm := 20, lpddr := 20, stage := 20 } : Temps), { die := 20, hbm := 105, lpddr := 20, stage := 20 },
        { die := 20, hbm := 20, lpddr := 105, stage := 20 }, { die := 20, hbm := 20, lpddr := 20, stage := 125 }],
      ∃ s : State, s.pwr.stage = .conducting ∧ s.pwr.tripAt = none ∧ (110 ≤ c.die ∨ 105 ≤ max c.hbm c.lpddr ∨ 125 ≤ c.stage)) ∧
    ∃ (s : State) (pages : List (Telemetry × Nat)) (v : Telemetry), s.pwr.stage = .conducting ∧ pages.length ≤ 8 ∧ pages[7]? = some (v, 1) :=
  ⟨⟨svc, rfl⟩, ⟨svc, {}, _, rfl, by decide⟩, ⟨svc, svc.pwr.sampled.get rfl, _, rfl, rfl⟩,
    fun c h => ⟨svc, rfl, rfl, by revert c; decide⟩, ⟨svc, List.replicate 8 (⟨0, 0, 0, 0, 0, 0, 0⟩, 1), ⟨0, 0, 0, 0, 0, 0, 0⟩, by decide⟩⟩

theorem meets_ThrottleFollowsPowerAndHeat :
    let avg := svc.actBits .pwr 0 0x040 15 0 * 10
    let peak := svc.actBits .pwr 0 0x040 31 16 * 10
    (svc.pwr.stage = .conducting ∧ svc.pwr.stepDue = none) ∧ (∃ dw, peak < dw) ∧
    (∃ (s : State) (dw : Nat), s.active = svc.active ∧ s.pwr.stage = .conducting ∧ dw ≤ peak ∧ avg < dw ∧ 1000 ≤ s.pwr.aboveRun + 1) ∧
    (∃ (s : State) (dw : Nat), s.active = svc.active ∧ s.pwr.stage = .conducting ∧ dw ≤ peak ∧ 20 * dw ≤ 19 * avg ∧
      10000 ≤ s.pwr.belowRun + 1) ∧
    (∃ dw, dw ≤ peak ∧ svc.pwr.aboveRun + 1 < 1000 ∧ svc.pwr.belowRun + 1 < 10000) ∧
    (∃ (s : State) (due : Nat), s.pwr.stepDue = some due) ∧
    (∃ (s : State) (c : Temps), s.pwr.stage = .conducting ∧
      s.pwr.stepTherm < max (thermStep c.die s.dieT1) (thermStep (max c.hbm c.lpddr) s.memT1)) ∧
    ∃ (s : State) (c : Temps) (n : Nat), s.pwr.stage = .conducting ∧ s.pwr.stepTherm = n + 1 ∧
      c.die ≤ (s.dieT1 : Int) + 5 * n - 3 ∧ max c.hbm c.lpddr ≤ (s.memT1 : Int) + 5 * n - 3 :=
  ⟨⟨rfl, rfl⟩, ⟨svc.actBits .pwr 0 0x040 31 16 * 10 + 1, by decide +kernel⟩,
    ⟨{ svc with pwr := { svc.pwr with aboveRun := 999 } }, svc.actBits .pwr 0 0x040 15 0 * 10 + 1, by decide +kernel⟩,
    ⟨{ svc with pwr := { svc.pwr with belowRun := 9999 } }, 19 * svc.actBits .pwr 0 0x040 15 0 / 2, by decide +kernel⟩,
    ⟨svc.actBits .pwr 0 0x040 31 16 * 10, by decide +kernel⟩, ⟨{ pwr := { stepDue := some 1000 } }, _, rfl⟩,
    ⟨svc, { die := svc.dieT1 + 1, hbm := 0, lpddr := 0, stage := 0 }, by decide +kernel⟩,
    ⟨{ svc with pwr := { svc.pwr with stepTherm := 1 } }, { die := svc.dieT1 - 3, hbm := svc.memT1 - 3, lpddr := 0, stage := 0 }, 0,
      by decide +kernel⟩⟩

theorem meets_SidebandCommandsAnswer :
    (∀ w, ∃ (s : State) (x : BusXfer), x.addr = 0x60 + s.slotX % 8 ∧ s.pwr.stage = .conducting ∧ x.write = w ∧ s.pwr.page = 0) ∧
    (∃ s : State, s.pwr.stage = .conducting ∧ s.pwr.page = 7) ∧ (∃ (s : State) (x : BusXfer), x.addr = 0x60 + s.slotX % 8 ∧ s.pwr.stage ≠ .conducting) ∧
    (∃ (s : State) (x : BusXfer), x.addr ≠ 0x60 + s.slotX % 8) ∧ (∃ (s : State) (a : Nat), a ≠ 0x50 + s.slotX % 8) ∧
    (∃ off v, (off, v) ≠ (0xFF, 1)) ∧ (∃ s : State, s.pwr.stage = .conducting ∧ s.alertLow = true) ∧
    (∃ s : State, s.pwr.stage = .conducting ∧ s.alertLow = false) ∧ ∃ s : State, s.pwr.stage ≠ .conducting :=
  ⟨fun w => ⟨svc, { addr := 0x61, write := w }, (by decide +kernel : 0x61 = 0x60 + svc.slotX % 8), rfl, rfl, rfl⟩, ⟨{ svc with pwr := { svc.pwr with page := 7 } }, by decide⟩,
    ⟨{}, { addr := 0x67, write := true }, by decide +kernel⟩, ⟨svc, { addr := 0x60, write := true }, by decide +kernel⟩, ⟨svc, 0x50, by decide +kernel⟩,
    ⟨0xFE, 1, by decide⟩, ⟨{ svc with regs := cfgPut [] pwrCause 64 }, by decide +kernel⟩, ⟨svc, by decide +kernel⟩, ⟨{}, by decide⟩⟩

theorem meets_JtagInstructions :
    (∃ s : State, s.pwr.stage = .conducting ∧ (s.pwr.resetN = false ∨ s.ten.debugUnlocked = true)) ∧
    (∃ s : State, s.pwr.stage = .conducting ∧ s.pwr.resetN = true ∧ s.ten.debugUnlocked = false) ∧ ∃ s : State, s.pwr.stage ≠ .conducting :=
  ⟨⟨{ svc with pwr := { svc.pwr with resetN := false } }, by decide⟩, ⟨svc, by decide⟩, ⟨{}, by decide⟩⟩
theorem meets_StrapSamplingStartsBoot :
    ∃ s : State, s.pwr.railsGood = true ∧ s.pwr.resetN = true ∧ s.boot.started = false :=
  ⟨{ pwr := { stage := .conducting, railsGood := true } }, by decide⟩

/-- What the opaque verifier and fuses of an image must answer for it to pass. -/
theorem meets_RomRunsVerifiedImage (b : List Byte) (k : Nat) (h : ∀ n, imageKey b n = some k) :
    (∃ (b : List Byte) (fuses k : Nat), imageKey b fuses = some k) ∧
    (∃ s : State, s.boot.started = true ∧ s.boot.state = 0 ∧ ∃ k b, s.boot.romOver = false ∧ s.slotKey s.checkCopies.firstSlot = some k ∧
      s.image s.checkCopies.firstSlot = some b) ∧
    (∃ s : State, s.boot.started = true ∧ s.boot.state = 0 ∧ s.slotKey s.checkCopies.firstSlot = none ∧
      ∃ k b, s.slotKey (1 - s.checkCopies.firstSlot) = some k ∧ s.image (1 - s.checkCopies.firstSlot) = some b) ∧
    (∃ s : State, s.boot.started = true ∧ s.boot.state = 0 ∧ s.boot.romOver = true ∧
      ∃ k b, s.slotKey (1 - s.checkCopies.firstSlot) = some k ∧ s.image (1 - s.checkCopies.firstSlot) = some b) ∧
    ∃ s : State, s.boot.started = true ∧ s.boot.state = 0 ∧ s.slotKey s.checkCopies.firstSlot = none ∧
      s.slotKey (1 - s.checkCopies.firstSlot) = none := by
  refine ⟨⟨b, 0, k, h 0⟩, ⟨{ boot := { started := true, fuseSvn := 0 }, flash := { slotA := some b } }, rfl, rfl, k, b, rfl, ?_, rfl⟩,
    ⟨{ boot := { started := true, fuseSvn := 0 }, flash := { slotB := some b } }, rfl, rfl, rfl, k, b, ?_, rfl⟩,
    ⟨{ boot := { started := true, fuseSvn := 0, romOver := true }, flash := { slotB := some b } }, rfl, rfl, rfl, k, b, ?_, rfl⟩,
    ⟨{ boot := { started := true } }, rfl, rfl, rfl, rfl⟩⟩
  · exact h _
  · exact h _
  · exact h _

theorem meets_SelftestAndRestoreDecide :
    (∃ s : State, s.boot.started = true ∧ s.boot.state = 1) ∧
    (∃ s : State, s.boot.started = true ∧ s.boot.state = 2 ∧ s.boot.copy0Ok = false ∧ s.boot.copy1Ok = false ∧ s.chosenCopy = none) ∧
    (∃ (s : State) (b : RetCopy), s.boot.started = true ∧ s.boot.state = 2 ∧ s.boot.copy0Ok = false ∧ s.boot.copy1Ok = true ∧
      s.flash.copy1 = some b ∧ s.chosenCopy = some (1, b)) ∧
    (∃ (s : State) (a : RetCopy), s.boot.started = true ∧ s.boot.state = 2 ∧ s.boot.copy0Ok = true ∧ s.boot.copy1Ok = false ∧
      s.flash.copy0 = some a) ∧
    ∃ (s : State) (a b : RetCopy), s.boot.started = true ∧ s.boot.state = 2 ∧ s.boot.copy0Ok = true ∧ s.boot.copy1Ok = true ∧
      s.flash.copy0 = some a ∧ s.flash.copy1 = some b :=
  ⟨⟨{ boot := { started := true, state := 1 } }, by decide⟩, ⟨{ boot := { started := true, state := 2 } }, by decide⟩,
    ⟨{ boot := { started := true, state := 2, copy1Ok := true }, flash := { copy1 := some {} } }, {}, by decide⟩,
    ⟨{ boot := { started := true, state := 2, copy0Ok := true }, flash := { copy0 := some {} } }, {}, by decide⟩,
    ⟨{ boot := { started := true, state := 2, copy0Ok := true, copy1Ok := true },
       flash := { copy0 := some { seq := 4 }, copy1 := some { seq := 5 } } }, { seq := 4 }, { seq := 5 }, by decide⟩⟩

theorem meets_BootPhasesEnd :
    (∃ (s : State) (r : List TrainResult), s.boot.started = true ∧ s.boot.state = 3 ∧ s.ctlOk 11 = true ∧
      ∀ c, c < 12 → ∃ x, r[c]? = some x ∧ x.tries.length = 3) ∧
    (∃ s : State, s.boot.state = 4 ∧ s.ctlOk 11 = true) ∧ (∃ s : State, s.boot.state = 4 ∧ s.allZeroed = true) ∧
    (∃ (s : State) (m : Nat), s.mgr.ep = some m ∧ s.freeOut = some 0 ∧ m = s.ep ∧ s.boot.state = 5 ∧ s.tick.locked = true) ∧
    ∃ (s : State) (m at_ : Nat), s.mgr.ep = some m ∧ s.freeOut = some 0 ∧ m = s.ep ∧ s.boot.joinAt = some at_ ∧ s.inService = true ∧
      s.boot.joinDone = false := by
  refine ⟨⟨booting 3, List.replicate 12 { attempts := List.replicate 3 { failCh := some 15 } }, rfl, rfl, by decide, ?_⟩, ⟨booting 4, by decide⟩,
    ⟨{ booting 4 with boot := { (booting 4).boot with zeroDone := 4095 } }, by decide +kernel⟩, ⟨booting 5, 1, by decide +kernel⟩,
    ⟨{ booting 6 with boot := { (booting 6).boot with joinAt := some 5 } }, 1, 5, by decide +kernel⟩⟩
  intro c hc
  exact ⟨_, List.getElem?_replicate_of_lt hc, rfl⟩

/-- A manager elsewhere, reached by port 0, takes the announcement when its limit, which no rule gives, is not 0. -/
theorem meets_BootPhasesEnd_far (h : 0 < Config.quotaAt 2) :
    ∃ s : State, s.mgr.ep = some 2 ∧ s.freeOut = some 0 ∧ (s.route 2 s.ep s.rtr.inject).isSome = true ∧
      tblGet s.txn.sentTo 2 0 < Config.quotaAt 2 ∧ s.boot.state = 5 ∧ s.tick.locked = true :=
  ⟨{ svc with boot := { svc.boot with state := 5 }, rtr := { svc.rtr with learned := [{ ep := 2, port := 0, mac := 0 }] } },
    rfl, by decide +kernel, by decide +kernel, h, rfl, rfl⟩

theorem meets_BootPhasesEnd_timers :
    (∀ n < 5, ∃ s : State, s.boot.started = true ∧ s.boot.state = n ∧ s.boot.romOver = false) ∧
    (∃ s : State, s.boot.started = true ∧ s.boot.state = 0 ∧ s.boot.romOver = true) ∧
    (∃ s : State, s.boot.state = 7 ∧ s.boot.served = none) ∧
    ∃ (s : State) (t : Nat), s.tick.listenFrom = some t ∧ s.mgr.role = 2 ∧ s.tick.locked = false :=
  ⟨fun n _ => ⟨booting n, rfl, rfl, rfl⟩, ⟨{ boot := { started := true, romOver := true } }, rfl, rfl, rfl⟩, ⟨booting 7, by decide⟩,
    ⟨{ booting 5 with tick := { listenFrom := some 3 } }, 3, by decide⟩⟩

theorem meets_ClocksFollowEventsAndWrites :
    (svc.boot.started = true ∧ svc.mgr.role ≠ 2) ∧ (booting 6).mgr.role = 2 ∧
    (∃ s : State, s.boot.started = true ∧ bit s.clk.coasting 6 = true) ∧
    (∃ (s : State) (d : Fin 6) (at_ : Nat), s.boot.started = true ∧ tblGet? s.clk.pending d = some at_ ∧ s.clk.xoPresent = true) ∧
    (∃ w t, svc.AdmitsWrite 0 (wr 0x2808 1) (.page .clk 0 0x808) w t) ∧
    (∃ w t, svc.AdmitsWrite 0 (wr 0x2804 1) (.page .clk 0 0x804) w t ∧
      (idxs 6 fun d => bit t.clk.sel d != bit w.toNat d).all t.domainQuiet = true) ∧
    ∃ w t, svc.AdmitsWrite 0 (wr 0x2804 2) (.page .clk 0 0x804) w t ∧
      (idxs 6 fun d => bit t.clk.sel d != bit w.toNat d).all t.domainQuiet = false :=
  ⟨⟨rfl, by decide⟩, rfl, ⟨{ svc with clk := { svc.clk with coasting := 64 } }, by decide⟩,
    ⟨{ svc with clk := { svc.clk with pending := [(5, 9)] } }, 5, 9, by decide⟩,
    ⟨1, _, writes (by decide +kernel)⟩, ⟨1, _, writes (by decide +kernel), by decide +kernel⟩,
    ⟨2, _, writes (by decide +kernel), by decide +kernel⟩⟩

/-- A TICK_SYNC packet. -/
def syncPkt (kind src dst : Nat) (body : List Byte) : Packet :=
  { typ := tTickSync, vc := 0, dst := dst, length := 16, form := contextForm src 0 0, body := byte kind :: body.drop 1 }

theorem meets_TickMessages :
    (∃ s : State, s.boot.started = true ∧ s.mgr.role = 2 ∧ s.tick.locked = true ∧ s.portUp 0 = true) ∧
    (∀ seen, ∃ (s : State) (p : Packet) (m : Nat), s.portUp 0 = true ∧ syncShaped (syncForm p 0) = true ∧ s.mgr.role ≠ 2 ∧
      s.boot.state ≠ 7 ∧ s.mgr.ep = some m ∧ syncMgr p.body = m ∧ s.tick.seqs.contains (syncSeq p.body) = seen) ∧
    (∃ (s : State) (p : Packet), s.portUp 0 = true ∧ syncShaped (syncForm p 0) = true ∧ s.boot.state = 7 ∧ syncSeq p.body ∉ s.tick.seqs) ∧
    (∃ (s : State) (p : Packet), s.portUp 0 = true ∧ syncShaped (syncForm p 1) = true ∧ s.mgr.role = 2 ∧ p.dst = s.ep) ∧
    (∃ s : State, 0 < s.tick.hold ∧ s.boot.started = true ∧ s.tick.frac < 10000 ∧ bit s.clk.coasting 6 = false) ∧
    ∃ s : State, s.tick.locked = true ∧ s.mgr.role ≠ 2 := by
  refine ⟨⟨booting 6, by decide⟩, ?_,
    ⟨{ svc with boot := { svc.boot with state := 7 } }, syncPkt 0 2 0xFFF (syncBody 0 7 2 50 0 0 0 0), by decide +kernel⟩,
    ⟨booting 6, syncPkt 1 4 1 (syncBody 1 7 1 50 0 0 0 0), by decide +kernel⟩,
    ⟨{ svc with tick := { svc.tick with hold := 1 } }, by decide⟩, ⟨svc, by decide⟩⟩
  intro seen
  cases seen
  · exact ⟨svc, syncPkt 0 2 0xFFF (syncBody 0 7 2 50 0 0 0 0), 2, by decide +kernel⟩
  · exact ⟨{ svc with tick := { svc.tick with seqs := [8, 7] } }, syncPkt 0 2 0xFFF (syncBody 0 7 2 50 0 0 0 0), 2, by decide +kernel⟩

/-- The answer to a DELAY_REQ sent at tick 999,900, in a state whose exchange differs by `d` ticks from none. -/
def answered (first locked : Bool) (d : Int) (good : Nat) : State :=
  { svc with tick := { svc.tick with req := some (7, 999900), first := first, locked := locked, good := good, count := (1000000 + d).toNat } }
def answer : Packet := syncPkt 2 2 1 (syncBody 2 7 2 1000000 0 0 999900 0)

theorem meets_TickFollowsExchanges :
    (∀ first locked d good, let s := answered first locked d good
      s.portUp 0 = true ∧ syncShaped (syncForm answer 2) = true ∧ s.mgr.role ≠ 2 ∧ s.mgr.ep = some (syncForm answer 2).src ∧
      answer.dst = s.ep ∧ s.tick.req = some (syncSeq answer.body, 999900)) ∧
    (let off (s : State) : Int := (exchange 999900 (syncC1 answer.body) (syncT2 answer.body) (syncOrigin answer.body)
        (syncCorr answer.body) s.tick.count).2
     (0 ≤ svc.stepLimit) ∧ (∃ d, svc.stepLimit < off (answered true true d 0)) ∧ (∃ d, off (answered true true d 0) < -svc.stepLimit) ∧
     (∃ d, 4 < (off (answered true true d 0)).natAbs ∧ (off (answered true true d 0)).natAbs ≤ svc.stepLimit.natAbs) ∧
     (∃ d, (off (answered true false d 2)).natAbs ≤ 4 ∧ 2 ≤ (answered true false d 2).tick.good) ∧
     ∃ d, (off (answered true false d 1)).natAbs ≤ 4 ∧ (answered true false d 1).tick.good < 2) ∧
    ∃ (t : Tick) (d : Nat), t.phase < 64 ∧ 0 < d :=
  ⟨fun _ _ _ _ => ⟨(by decide +kernel : svc.portUp 0 = true), by decide +kernel, (by decide : (0 : Nat) ≠ 2), (by decide +kernel : some 2 = some (syncForm answer 2).src),
      (by decide +kernel : answer.dst = svc.ep), (by decide +kernel : some (7, 999900) = some (syncSeq answer.body, 999900))⟩,
    ⟨by decide +kernel, ⟨-500000, by decide +kernel⟩, ⟨500000, by decide +kernel⟩, ⟨-10, by decide +kernel⟩, ⟨0, by decide +kernel⟩, ⟨4, by decide +kernel⟩⟩,
    ⟨{ phase := 63 }, 1, by decide⟩⟩
theorem meets_RegisterCommandsAct :
    (∃ t, svc.AdmitsRead 0 (rd 0x3808) (.page .pwr 0 0x808) t) ∧ (∃ t, svc.AdmitsRead 0 (rd 0x60810) (.page .nmc 0 0x810) t) ∧
    (∃ t, svc.AdmitsRead 0 (rd 0x70810) (.page .fmc 0 0x810) t) ∧ (∃ t, svc.AdmitsRead 0 (rd 0x20858) (.page .rtr 0 0x858) t) ∧
    (∃ t, svc.AdmitsRead 0 (rd 0) (.page .chip 0 0) t) ∧ WriteMeets svc 0x2804 0 (.page .clk 0 0x804) (fun _ _ => True) :=
  ⟨⟨_, reads (by decide +kernel)⟩, ⟨_, reads (by decide +kernel)⟩, ⟨_, reads (by decide +kernel)⟩, ⟨_, reads (by decide +kernel)⟩,
    ⟨_, reads (by decide +kernel)⟩, wm (by decide +kernel) trivial⟩

/-- Register commands that are admitted and have no register to act on. -/
theorem meets_RegisterCommandsAct_refused :
    (let p := mgrPkt 0x40 (zeroBytes 8)
     ∃ t, svc.Admits (regRules 0x40 true) 0 p t ∧ (p.ofCmd 0x40).own.length ≠ 4) ∧
    (let p := mgrPkt 0x41 (leBytes 4 0x2804)
     ∃ t, svc.Admits (regRules 0x41 false) 0 p t ∧ (p.ofCmd 0x41).own.length ≠ 8) ∧
    (∃ t, svc.Admits (regRules 0x41 false) 0 (wr 0x2802 0) t ∧ Packet.regAddr ((wr 0x2802 0).ofCmd 0x41) % 4 ≠ 0) ∧
    (∃ t, svc.Admits (regRules 0x40 true) 0 (rd 0x1000000) t ∧ 0x1000000 ≤ Packet.regAddr ((rd 0x1000000).ofCmd 0x40)) ∧
    (let q := (wr 0xC00000 0).ofCmd 0x41
     ∃ t, svc.Admits (regRules 0x41 false) 0 (wr 0xC00000 0) t ∧ q.own.length = 8 ∧ Packet.regAddr q % 4 = 0 ∧
       Packet.regAddr q < 0x1000000 ∧ targetOf (Packet.regAddr q) = none) ∧
    (let q := (rd 0xFFFFFC).ofCmd 0x40
     ∃ t, svc.Admits (regRules 0x40 true) 0 (rd 0xFFFFFC) t ∧ q.own.length = 4 ∧ Packet.regAddr q % 4 = 0 ∧
       Packet.regAddr q < 0x1000000 ∧ targetOf (Packet.regAddr q) = none) ∧
    let q := (rd 0x20858).ofCmd 0x40
    ∃ (s t : State) (g : Target), s.Admits (regRules 0x40 true) 0 (rd 0x20858) t ∧ q.own.length = 4 ∧ Packet.regAddr q % 4 = 0 ∧
      Packet.regAddr q < 0x1000000 ∧ targetOf (Packet.regAddr q) = some g ∧ t.reachable g = false :=
  ⟨⟨_, sealed (k := 77) (by decide +kernel) rfl, by decide +kernel⟩, ⟨_, sealed (k := 77) (by decide +kernel) rfl, by decide +kernel⟩,
    ⟨_, sealed (k := 77) (by decide +kernel) rfl, by decide +kernel⟩, ⟨_, sealed (k := 77) (by decide +kernel) rfl, by decide +kernel⟩,
    ⟨_, sealed (k := 77) (by decide +kernel) rfl, by decide +kernel⟩, ⟨_, sealed (k := 77) (by decide +kernel) rfl, by decide +kernel⟩,
    ⟨{ svc with clk := { svc.clk with enBlk := 0 } }, _, .page .rtr 0 0x858, sealed (k := 77) (by decide +kernel) rfl, by decide +kernel⟩⟩

/-- A swap armed for tick 2,000. -/
def swapping : State := { svc with cc := { svc.cc with swap := some (1, 2000) } }

theorem meets_ShadowAndActiveSetsChange :
    WriteMeets svc 0x2040 5 (.page .clk 0 0x040) (fun _ t => (shReg .clk 0x040).isSome ∧ t.swapArmed = false) ∧
    WriteMeets swapping 0x2040 5 (.page .clk 0 0x040) (fun _ t => (shReg .clk 0x040).isSome ∧ t.swapArmed = true) ∧
    (∃ t, svc.Admits (regRules 0x42 false) 0 (mgrPkt 0x42 []) t ∧ ((mgrPkt 0x42 []).ofCmd 0x42).own = [] ∧ t.swapArmed = false) ∧
    (swapping.shadow = swapping.active ∧ swapping.cc.swap = some (1, 2000) ∧ swapping.dueBefore 2000 6 = false) :=
  ⟨wm (by decide +kernel) (by decide +kernel), wm (by decide +kernel) (by decide +kernel),
    ⟨_, sealed (k := 77) (by decide +kernel) rfl, by decide +kernel⟩, by decide +kernel⟩

/-- Ring 5 with a valid root, its ring enabled. -/
def ringed : State := { svc with xlt := { svc.xlt with rings := [(5, { rootLo := 1, ringLo := 1 })] } }

theorem meets_LinkAndWalkerWrites :
    WriteMeets svc 0x10800 3 (.page .lnk 0 0x800) (fun w _ => wbit w 0 = true) ∧
    WriteMeets svc 0x10800 2 (.page .lnk 0 0x800) (fun w _ => wbit w 0 = false ∧ wbit w 1 = true) ∧
    WriteMeets svc 0x10800 0 (.page .lnk 0 0x800) (fun w _ => wbit w 0 = false ∧ wbit w 1 = false) ∧
    ((svc.port 15).st = .disabled ∧ (booting 6).mayTrain 15 = true ∧ 4 ≤ (booting 6).boot.state ∧ (svc.port 0).st ≠ .disabled ∧
      (booting 3).boot.state < 4) ∧
    WriteMeets svc (0x900000 + 32 * 1023) 1 .walker (fun _ t => wbit (t.ring 1023).rootLo 0 = false) ∧
    WriteMeets ringed 0x9000A0 0 .walker (fun w t => wbit (t.ring 5).rootLo 0 = true ∧ wbits w 31 17 = wbits (t.ring 5).rootLo 31 17) ∧
    WriteMeets ringed 0x9000A0 0x20001 .walker (fun w t =>
      wbit (t.ring 5).rootLo 0 = true ∧ wbits w 31 17 ≠ wbits (t.ring 5).rootLo 31 17) ∧
    WriteMeets ringed 0x9000A8 0x41 .walker (fun w t => (t.ring 5).enabled = true ∧ wbits w 31 6 ≠ wbits (t.ring 5).ringLo 31 6) ∧
    WriteMeets ringed 0x9000A8 0 .walker (fun w t => (t.ring 5).enabled = true ∧ wbits w 31 6 = wbits (t.ring 5).ringLo 31 6) ∧
    WriteMeets svc 0x9000A8 0x41 .walker (fun w t => (t.ring 5).enabled = false ∧ wbit w 0 = true) ∧
    WriteMeets svc 0x9000A8 0x40 .walker (fun w t => (t.ring 5).enabled = false ∧ wbit w 0 = false) :=
  ⟨wm (by decide +kernel) (by decide +kernel), wm (by decide +kernel) (by decide +kernel), wm (by decide +kernel) (by decide +kernel),
    by decide +kernel, wm (by decide +kernel) (by decide +kernel), wm (by decide +kernel) (by decide +kernel),
    wm (by decide +kernel) (by decide +kernel), wm (by decide +kernel) (by decide +kernel), wm (by decide +kernel) (by decide +kernel),
    wm (by decide +kernel) (by decide +kernel), wm (by decide +kernel) (by decide +kernel)⟩

/-- Near controller 3 in a state. -/
def nmc3 (v : Ctl) : State := { svc with ctl := [(3, v)] }

theorem meets_MemoryControlsWrite :
    WriteMeets svc 0x63800 1 (.page .nmc 3 0x800) (fun w t => wbit w 0 = true ∧ t.ctlOk 3 = true ∧ (t.ctlAt 3).st = .active ∧
      (t.ctlAt 3).tracking = none ∧ (t.ctlAt 3).empty = true) ∧
    WriteMeets (nmc3 { st := .selfRefresh }) 0x63800 1 (.page .nmc 3 0x800) (fun w t => wbit w 0 = true ∧ (t.ctlAt 3).st ≠ .active) ∧
    WriteMeets (nmc3 { units := [(0, { reads := [{ pa := 0, op := .read, cls := 1, at_ := 0, seq := 0, origin := .slot 9 0 }] })] }) 0x63800 1
      (.page .nmc 3 0x800) (fun w t => wbit w 0 = true ∧ (t.ctlAt 3).empty = false) ∧
    WriteMeets (nmc3 { st := .selfRefresh }) 0x63800 0 (.page .nmc 3 0x800) (fun w t => wbit w 0 = false ∧ (t.ctlAt 3).st = .selfRefresh) ∧
    WriteMeets svc 0x77800 0 (.page .fmc 7 0x800) (fun w t => wbit w 0 = false ∧ (t.ctlAt 11).st = .active) ∧
    WriteMeets { striped with xlt := { svc.xlt with extents := [(2, { st := .active, kind := 2, base2m := 0, len2m := 1 })] } } 0x80800 1
      (.page .ecc 0 0x800) (fun w t => wbit w 0 = true ∧ t.mayInject (injectPa (t.reg 0x80804) (t.reg 0x80808)) = true) ∧
    WriteMeets svc 0x80800 1 (.page .ecc 0 0x800) (fun w t =>
      wbit w 0 = true ∧ t.mayInject (injectPa (t.reg 0x80804) (t.reg 0x80808)) = false) ∧
    WriteMeets striped 0x80840 (2 ^ 31 + 21) (.page .ecc 0 0x840) (fun w t =>
      wbit w 31 = true ∧ ((t.extent (wbits w 13 0)).st ≠ .active ∨ (t.extent (wbits w 13 0)).prot = 0)) ∧
    WriteMeets svc 0x11F808 (2 ^ 31 + 15) (.page .frm 31 0x808) (fun w t =>
      wbit w 31 = true ∧ (t.frame 31).spareFor = none ∧ (t.frame 31).request = none ∧ t.spareOk 31 = true) ∧
    WriteMeets { svc with boot := { svc.boot with rodBad := 2 ^ 16 } } 0x100808 (2 ^ 31) (.page .frm 0 0x808) (fun w t =>
      wbit w 31 = true ∧ (t.frame 0).spareFor = none ∧ (t.frame 0).request = none ∧ t.spareOk 0 = false) ∧
    WriteMeets { svc with frames := [(0, { spareFor := some 3 })] } 0x100808 (2 ^ 31) (.page .frm 0 0x808) (fun w t =>
      wbit w 31 = true ∧ (t.frame 0).spareFor ≠ none) ∧
    WriteMeets svc 0x100808 5 (.page .frm 0 0x808) (fun w _ => wbit w 31 = false) :=
  ⟨wm (by decide +kernel) (by decide +kernel), wm (by decide +kernel) (by decide +kernel), wm (by decide +kernel) (by decide +kernel),
    wm (by decide +kernel) (by decide +kernel), wm (by decide +kernel) (by decide +kernel), wm (by decide +kernel) (by decide +kernel),
    wm (by decide +kernel) (by decide +kernel), wm (by decide +kernel) (by decide +kernel), wm (by decide +kernel) (by decide +kernel),
    wm (by decide +kernel) (by decide +kernel), wm (by decide +kernel) (by decide +kernel), wm (by decide +kernel) (by decide +kernel)⟩

theorem meets_MemoryControlsWrite_reload :
    let t := atWr striped (wr 0x80840 (2 ^ 31 + 20))
    let u := (t.readDesc (partDesc (t.extent 20).partners)).1
    striped.AdmitsWrite 0 (wr 0x80840 (2 ^ 31 + 20)) (.page .ecc 0 0x840) 0x80000014 t ∧ wbits 0x80000014 13 0 = 20 ∧
      ((t.extent 20).st = .active ∧ (t.extent 20).prot ≠ 0 ∧ t.prot? 20 = some { keysel := 3, members := [] }) ∧
      t.readDesc (partDesc (t.extent 20).partners) = (u, some stripeDesc) ∧
      u.ownPosition (descMembers stripeDesc (field stripeDesc 0 1)) 20 = some 0 ∧
      descOk stripeDesc (t.extent 20).prot 0 u.ep 20 (t.extent 20).gen (t.extent 20).owner = true ∧
      (u.keySlot 3).st ≠ .empty ∧ (u.keySlot 3).owner = (t.extent 20).owner :=
  ⟨writes (by decide +kernel), by decide +kernel, by decide +kernel, Prod.ext rfl (by decide +kernel), by decide +kernel,
    by decide +kernel, by decide +kernel, by decide +kernel⟩

/-- Register values of 0x00800000 in the tick registers of a command, which an arming names. -/
def tickSet (a : Nat) : State := { svc with regs := cfgPut [] a 0x00800000 }

theorem meets_RouterRegistersWrite_tables :
    (let a := Packet.regAddr ((wr 0x8406FC 5).ofCmd 0x41)
     WriteMeets svc 0x8406FC 5 .route (fun _ t => (a - 0x800000) / 0x40000 ≠ t.rtr.inject ∧ t.rtr.flipArmed = none ∧
       t.rtr.oldWritable = true ∧ a % 0x40000 < 0x700)) ∧
    (let a := Packet.regAddr ((wr 0x800000 5).ofCmd 0x41)
     WriteMeets svc 0x800000 5 .route (fun _ t => (a - 0x800000) / 0x40000 = t.rtr.inject)) ∧
    WriteMeets { svc with rtr := { svc.rtr with flipArmed := some 5000 } } 0x840000 5 .route (fun _ t => t.rtr.flipArmed ≠ none) ∧
    WriteMeets { svc with rtr := { svc.rtr with oldWritable := false } } 0x840000 5 .route (fun _ t => t.rtr.oldWritable = false) ∧
    (let a := Packet.regAddr ((wr 0x884000 5).ofCmd 0x41)
     WriteMeets svc 0x884000 5 .board (fun _ t => a % 0x8000 / 0x4000 ≠ t.rtr.boardActive ∧ t.rtr.boardArmed = none)) ∧
    (let a := Packet.regAddr ((wr 0x880000 5).ofCmd 0x41)
     WriteMeets svc 0x880000 5 .board (fun _ t => a % 0x8000 / 0x4000 = t.rtr.boardActive)) ∧
    WriteMeets { svc with rtr := { svc.rtr with boardArmed := some 5000 } } 0x884000 5 .board (fun _ t => t.rtr.boardArmed ≠ none) :=
  ⟨wm (by decide +kernel) (by decide +kernel), wm (by decide +kernel) (by decide +kernel), wm (by decide +kernel) (by decide +kernel),
    wm (by decide +kernel) (by decide +kernel), wm (by decide +kernel) (by decide +kernel), wm (by decide +kernel) (by decide +kernel),
    wm (by decide +kernel) (by decide +kernel)⟩

theorem meets_RouterRegistersWrite_flip :
    WriteMeets (tickSet 0x20804) 0x2080C 1 (.page .rtr 0 0x80C) (fun w t => wbit w 0 = true ∧ wbit w 1 = false ∧ t.rtr.flipArmed = none ∧
      t.tickRule (t.regTick 0x20804 0x20808) = stOk) ∧
    WriteMeets svc 0x2080C 1 (.page .rtr 0 0x80C) (fun w t => wbit w 0 = true ∧ wbit w 1 = false ∧ t.rtr.flipArmed = none ∧
      t.tickRule (t.regTick 0x20804 0x20808) ≠ stOk) ∧
    (let s : State := { svc with rtr := { svc.rtr with flipArmed := some 5000 } }
     WriteMeets s 0x2080C 1 (.page .rtr 0 0x80C) (fun w t => wbit w 0 = true ∧ wbit w 1 = false ∧ t.rtr.flipArmed ≠ none) ∧
     WriteMeets s 0x2080C 2 (.page .rtr 0 0x80C) (fun w t => wbit w 0 = false ∧ wbit w 1 = true ∧ t.rtr.flipArmed ≠ none)) ∧
    WriteMeets svc 0x2080C 2 (.page .rtr 0 0x80C) (fun w t => wbit w 1 = true ∧ t.rtr.flipArmed = none) :=
  ⟨wm (by decide +kernel) (by decide +kernel), wm (by decide +kernel) (by decide +kernel),
    ⟨wm (by decide +kernel) (by decide +kernel), wm (by decide +kernel) (by decide +kernel)⟩, wm (by decide +kernel) (by decide +kernel)⟩

theorem meets_RouterRegistersWrite_boards :
    WriteMeets (tickSet 0x20834) 0x2083C 1 (.page .rtr 0 0x83C) (fun w t => wbit w 0 = true ∧ wbit w 1 = false ∧ t.rtr.boardArmed = none ∧
      t.tickRule (t.regTick 0x20834 0x20838) = stOk ∧ t.boardFail (1 - t.rtr.boardActive) = none) ∧
    (let b := wordPut [] (0x880000 + 0x8000 * 15 + 0x4000 + 16) 0x80000000
     WriteMeets { tickSet 0x20834 with rtr := { svc.rtr with board := b } } 0x2083C 1 (.page .rtr 0 0x83C) (fun w t => wbit w 0 = true ∧
       wbit w 1 = false ∧ t.rtr.boardArmed = none ∧ t.tickRule (t.regTick 0x20834 0x20838) = stOk ∧
       t.boardFail (1 - t.rtr.boardActive) = some (15, 1))) ∧
    WriteMeets svc 0x2083C 1 (.page .rtr 0 0x83C) (fun w t => wbit w 0 = true ∧ wbit w 1 = false ∧ t.rtr.boardArmed = none ∧
      t.tickRule (t.regTick 0x20834 0x20838) ≠ stOk) ∧
    (let s : State := { svc with rtr := { svc.rtr with boardArmed := some 5000 } }
     WriteMeets s 0x2083C 1 (.page .rtr 0 0x83C) (fun w t => wbit w 0 = true ∧ wbit w 1 = false ∧ t.rtr.boardArmed ≠ none) ∧
     WriteMeets s 0x2083C 2 (.page .rtr 0 0x83C) (fun w t => wbit w 0 = false ∧ wbit w 1 = true ∧ t.rtr.boardArmed ≠ none)) ∧
    WriteMeets svc 0x2083C 2 (.page .rtr 0 0x83C) (fun w t => wbit w 1 = true ∧ t.rtr.boardArmed = none) :=
  ⟨wm (by decide +kernel) (by decide +kernel), wm (by decide +kernel) (by decide +kernel), wm (by decide +kernel) (by decide +kernel),
    ⟨wm (by decide +kernel) (by decide +kernel), wm (by decide +kernel) (by decide +kernel)⟩, wm (by decide +kernel) (by decide +kernel)⟩

theorem meets_RateAndTallyWrites_rates :
    (let taken (w : Word) (t : State) := t.qos.meters.any fun x => x.1 != t.mtrIndex && wbit x.2.key 31 && sameMeterKey x.2.key (w &&& 0xE03FFFFF)
     let cir (t : State) := rateOf t.qos.mtrHeld.1
     WriteMeets { svc with qos := { svc.qos with meters := [(9, { key := 0x80000004 })] } } 0x90804 (2 ^ 31 + 4) (.page .qos 0 0x804)
       (fun w t => wbit w 31 = true ∧ taken w t = true) ∧
     WriteMeets { svc with qos := { svc.qos with mtrHeld := (7, 9, 5) } } 0x90804 (2 ^ 31 + 4) (.page .qos 0 0x804)
       (fun w t => wbit w 31 = true ∧ taken w t = false ∧ (t.meter t.mtrIndex).cir ≠ cir t) ∧
     WriteMeets { svc with qos := { svc.qos with
         meters := [(0, { cir := 7, pir := 9, bursts := 320 * 65536 + 320 })], mtrHeld := (7, 9, 5) } } 0x90804 4 (.page .qos 0 0x804)
       (fun w t => wbit w 31 = false ∧ (t.meter t.mtrIndex).cir = cir t ∧ (t.meter t.mtrIndex).pir = max (rateOf t.qos.mtrHeld.2.1) (cir t) ∧
         (t.meter t.mtrIndex).bursts = BitVec.ofNat 32 (storedBurst (bits t.qos.mtrHeld.2.2 31 16) * 65536 + storedBurst (bits t.qos.mtrHeld.2.2 15 0)))) ∧
    (let taken (w : Word) (t : State) := t.qos.hosts.any fun x => x.1 != t.hostIndex && wbit x.2.key 31 && wbits x.2.key 11 0 == wbits w 11 0
     WriteMeets { svc with qos := { svc.qos with hosts := [(9, { key := 0x80000004 })] } } 0x90824 (2 ^ 31 + 4) (.page .qos 0 0x824)
       (fun w t => wbit w 31 = true ∧ taken w t = true) ∧
     WriteMeets svc 0x90824 (2 ^ 31 + 4) (.page .qos 0 0x824) (fun w t => wbit w 31 = true ∧ taken w t = false)) ∧
    WriteMeets svc 0x90844 0 (.page .qos 0 0x844) (fun _ _ => True) := by
  refine ⟨⟨?_, ?_, ?_⟩, ⟨?_, ?_⟩, wm (by decide +kernel) trivial⟩ <;> exact wm (by decide +kernel) (by decide +kernel)

theorem meets_RateAndTallyWrites_tallies :
    WriteMeets svc 0x20400 1 (.page .rtr 0 0x400) (fun w _ => wbit w 0 = true) ∧
    (let old (t : State) : Word := (tblGet? (t.tallyPage (pageBase .rtr 0)).sel 31).getD 0
     WriteMeets svc 0x20600 0xFF (.page .rtr 0 (0x410 + 16 * 31)) (fun w _ => selOk .rtr (w &&& 0x83FFFFFF) = false) ∧
     WriteMeets svc 0x20600 0x80050071 (.page .rtr 0 (0x410 + 16 * 31)) (fun w t => selOk .rtr (w &&& 0x83FFFFFF) = true ∧ wbit w 31 = true ∧
       wbit (old t) 31 = false) ∧
     WriteMeets svc 0x20600 0x71 (.page .rtr 0 (0x410 + 16 * 31)) (fun w _ => selOk .rtr (w &&& 0x83FFFFFF) = true ∧ wbit w 31 = false) ∧
     WriteMeets (svc.setTallyPage (pageBase .rtr 0) { sel := [(31, 0x80050071)] }) 0x20600 0x80050071 (.page .rtr 0 (0x410 + 16 * 31))
       (fun w t => selOk .rtr (w &&& 0x83FFFFFF) = true ∧ wbit (old t) 31 = true ∧ wbits (old t) 25 16 = wbits w 25 16)) := by
  refine ⟨?_, ?_, ?_, ?_, ?_⟩ <;> exact wm (by decide +kernel) (by decide +kernel)
/-- Which rows of critical commands the statements name, each with a command that its shape admits. -/
def critSamples : List (Nat × Packet) :=
  [(0x01, critPkt 0x01 11 0 0 ([byte 2, byte 1] ++ zeroBytes 54)), (0x02, retire 11),
    (0x03, critPkt 0x03 11 0 0xFFFF (leBytes 4 6 ++ leBytes 4 0)), (0x04, critPkt 0x04 11 0 0xFFFF []),
    (0x08, critPkt 0x08 11 0 5 (leBytes 4 1023 ++ leBytes 4 7 ++ zeroBytes 48)), (0x09, critPkt 0x09 11 0 5 (leBytes 8 3)),
    (0x0A, critPkt 0x0A 11 0 7 (leBytes 8 1 ++ zeroBytes 32 ++ leBytes 8 6)), (0x0B, critPkt 0x0B 11 0 5 (zeroBytes 8)),
    (0x0C, critPkt 0x0C 11 0 5 (leBytes 2 9 ++ [0, 0] ++ leBytes 4 8 ++ leBytes 4 1 ++ zeroBytes 20)),
    (0x0D, critPkt 0x0D 11 0 5 (leBytes 2 20 ++ leBytes 2 4 ++ zeroBytes 12)),
    (0x11, critPkt 0x11 11 0 0xFFFF ([1, 0] ++ leBytes 2 2 ++ leBytes 4 3 ++ leBytes 8 4)), (0x12, critPkt 0x12 11 0 0xFFFF (zeroBytes 8))]

theorem meets_CriticalStepsRefuse_shapes : ∀ x ∈ critSamples, ∃ o, critOp x.1 = some o ∧
    ((taken iss (critRules x.1) 0 (x.2.ofCmd x.1)).isSome && (atCrit iss x.1 x.2).cc.floorWait.isNone && ((critIn x.1 x.2).op == x.1) &&
      critShape (atCrit iss x.1 x.2).ep (x.2.ofCmd x.1) && o.shape (critIn x.1 x.2)) = true := by
  intro x h
  simp only [critSamples, List.mem_cons, List.not_mem_nil, or_false] at h
  rcases h with h | h | h | h | h | h | h | h | h | h | h | h <;> subst h <;> exact ⟨_, rfl, by decide +kernel⟩


/-- An ISSUER_KEY_RETIRE that is admitted, with conditions on the state it is looked at in, the command and its issuer slot. -/
def Looked (s : State) (p : Packet) (P : State → Crit → Issuer → Prop) : Prop :=
  ∃ t, s.Admits (critRules 0x02) 0 p t ∧ P t (critIn 0x02 p) (t.issuer (critIn 0x02 p).issuer)

theorem looked {s : State} {p : Packet} {P : State → Crit → Issuer → Prop}
    (h : (taken s (critRules 0x02) 0 (p.ofCmd 0x02)).isSome = true ∧ (p.ofCmd 0x02).sec = none)
    (hp : P (atCrit s 0x02 p) (critIn 0x02 p) ((atCrit s 0x02 p).issuer (critIn 0x02 p).issuer)) : Looked s p P :=
  ⟨_, unsealed h, hp⟩

/-- A retire of slot 0, which no command may retire. -/
def retire0 : Packet := critPkt 0x02 11 0 0xFFFF (zeroBytes 8)
/-- Issuer slot 1 whose last command was the retire with counter 10. -/
def answeredCrit (stored : Option (Nat × List Byte)) : Issuer :=
  { st := 1, perm := 255, key := 55, last := 10, floor := 1000, lastTag := some (critIn 0x02 (retire 10)).tag, stored := stored }

theorem meets_CriticalStepsRefuse_early :
    Looked { iss with cc := { State.cc iss with floorWait := some (4, critIn 0x02 (retire 1000), 0) } } (retire 11)
      (fun t _ _ => t.cc.floorWait ≠ none) ∧
    Looked iss (critPkt 0x02 11 0 0xFFFF (zeroBytes 16)) (fun t c _ => t.cc.floorWait = none ∧ c.op = 2 ∧
      ∃ o, critOp 2 = some o ∧ o.shape c = false) ∧
    Looked (iss {}) (retire 11) (fun t c i => t.cc.floorWait = none ∧ c.op = 2 ∧ critShape t.ep ((retire 11).ofCmd 2) = true ∧ i.st = 0) ∧
    Looked iss (retire 11 1) (fun _ c i => i.st ≠ 0 ∧ critTag i.key ((retire 11 1).ofCmd 0x02) ≠ c.tag) ∧
    Looked (iss (answeredCrit (some (0, [])))) (retire 10) (fun _ c i => critTag i.key ((retire 10).ofCmd 0x02) = c.tag ∧
      i.lastTag = some c.tag ∧ i.stored = some (0, []) ∧ i.st ≠ 0 ∧ c.counter = i.last) ∧
    Looked (iss (answeredCrit none)) (retire 10) (fun _ c i => critTag i.key ((retire 10).ofCmd 0x02) = c.tag ∧
      i.lastTag = some c.tag ∧ i.stored = none ∧ i.st ≠ 0 ∧ c.counter = i.last) ∧
    Looked iss (retire 10) (fun _ c i => critTag i.key ((retire 10).ofCmd 0x02) = c.tag ∧ i.lastTag = none ∧ c.counter ≤ i.last) :=
  ⟨looked (by decide +kernel) (by decide +kernel), looked (by decide +kernel) ⟨by decide +kernel, by decide +kernel, _, rfl, by decide +kernel⟩,
    looked (by decide +kernel) (by decide +kernel), looked (by decide +kernel) ⟨by decide +kernel, critTag_bad 55 _⟩,
    looked (by decide +kernel) ⟨critTag_ok 55 _, rfl, rfl, by decide +kernel, by decide +kernel⟩,
    looked (by decide +kernel) ⟨critTag_ok 55 _, rfl, rfl, by decide +kernel, by decide +kernel⟩,
    looked (by decide +kernel) ⟨critTag_ok 55 _, rfl, by decide +kernel⟩⟩

set_option maxRecDepth 10000 in
theorem meets_CriticalStepsRefuse_late :
    let above := retire (ccMax + 1)
    Looked (iss { st := 2, perm := 255, key := 55, last := 10, floor := 1000 }) (retire 11) (fun _ c i =>
      critTag i.key ((retire 11).ofCmd 0x02) = c.tag ∧ i.last < c.counter ∧ i.st = 2) ∧
    Looked iss above (fun _ c i => critTag i.key (above.ofCmd 0x02) = c.tag ∧ i.last < c.counter ∧ ccMax < c.counter) ∧
    Looked (iss { st := 1, perm := 127, key := 55, last := 10, floor := 1000 }) (retire 11) (fun _ c i =>
      critTag i.key ((retire 11).ofCmd 0x02) = c.tag ∧ (i.st ≠ 0 ∧ i.last < c.counter ∧ i.st ≠ 2 ∧ c.counter ≤ ccMax) ∧
        ∃ o, critOp 2 = some o ∧ bit i.perm o.cls = false) ∧
    Looked iss retire0 (fun t c i => critTag i.key (retire0.ofCmd 0x02) = c.tag ∧
      (i.st ≠ 0 ∧ i.last < c.counter ∧ i.st ≠ 2 ∧ c.counter ≤ ccMax) ∧
        ∃ o, critOp 2 = some o ∧ bit i.perm o.cls = true ∧ t.critChecks c o = (t, .inr (10, stMalformed)) ∧ stMalformed ≠ stAuthFail) ∧
    let p := critPkt 0x01 11 0 0 ([byte 2, byte 1] ++ zeroBytes 54)
    let t := atCrit iss 0x01 p
    State.Admits iss (critRules 0x01) 0 p t ∧ ∃ o, critOp 1 = some o ∧ t.critChecks (critIn 0x01 p) o = (t, .inr (10, stAuthFail)) :=
  ⟨looked (by decide +kernel) ⟨critTag_ok 55 _, by decide +kernel⟩, looked (by decide +kernel) ⟨critTag_ok 55 _, by decide +kernel⟩,
    looked (by decide +kernel) ⟨critTag_ok 55 _, by decide +kernel, _, rfl, by decide +kernel⟩,
    looked (by decide +kernel) ⟨critTag_ok 55 _, by decide +kernel, _, rfl, by decide +kernel, Prod.ext rfl (by decide +kernel), by decide⟩,
    unsealed (by decide +kernel), _, rfl, Prod.ext rfl (by decide +kernel)⟩

theorem meets_CriticalCountersAdvance :
    (∃ (t u : State) (o : CritOp), State.PassesCrit iss (critRules 0x02) 0x02 0 (retire 999) o t ∧
      t.critChecks (critIn 0x02 (retire 999)) o = (u, .inl 0) ∧
      (critIn 0x02 (retire 999)).counter < (t.issuer (critIn 0x02 (retire 999)).issuer).floor) ∧
    (∃ (t u : State) (o : CritOp), State.PassesCrit iss (critRules 0x02) 0x02 0 (retire 1000) o t ∧
      t.critChecks (critIn 0x02 (retire 1000)) o = (u, .inl 0) ∧
      (t.issuer (critIn 0x02 (retire 1000)).issuer).floor ≤ (critIn 0x02 (retire 1000)).counter) ∧
    (let p := critPkt 0x04 1000 0 0xFFFF []
     ∃ (t u : State) (o : CritOp), State.PassesCrit iss (critRules 0x04) 0x04 0 p o t ∧ t.critChecks (critIn 0x04 p) o = (u, .inl 0) ∧
      (t.issuer (critIn 0x04 p).issuer).floor ≤ (critIn 0x04 p).counter) ∧
    (∃ (s : State) (slot k : Nat) (c : Crit), s.cc.floorWait = some (slot, c, k)) ∧
    ∀ n : Nat, ∃ (c : Crit) (o : CritOp), critOp c.op = some o ∧ (State.issuer iss c.issuer).st = 1 ∧ c.counter ≤ ccMax - 2 ^ 32 ∧ c.exec = n :=
  ⟨⟨_, _, _, passes rfl (by decide +kernel) (critTag_ok 55 _), Prod.ext rfl (by decide +kernel), by decide +kernel⟩,
    ⟨_, _, _, passes rfl (by decide +kernel) (critTag_ok 55 _), Prod.ext rfl (by decide +kernel), by decide +kernel⟩,
    ⟨_, _, _, passes rfl (by decide +kernel) (critTag_ok 55 _), Prod.ext rfl (by decide +kernel), by decide +kernel⟩,
    ⟨{ svc with cc := { floorWait := some (4, critIn 0x02 (retire 1000), 0) } }, 4, 0, _, rfl⟩,
    fun e => ⟨{ critIn 0x02 (retire 11) with exec := e }, _, rfl, (by decide +kernel : (State.issuer iss 1).st = 1),
      (by decide +kernel : (critIn 0x02 (retire 11)).counter ≤ ccMax - 2 ^ 32), rfl⟩⟩

/-- A command of context 0's transport key, whose wrapped key the uninterpreted cipher opens. -/
def issT : State :=
  { iss with ten := { iss.ten with ctxs := [(0, { st := .active, tk := some 8 }), (5, { st := .active, members := [4], tk := some 8 })] } }
/-- Issuer 1 in a module without a context or key. -/
def issBare : State := { iss with ten := {} }
/-- A command of issuer 1 accepted, with conditions on the state it acts in. -/
def Accepted (s : State) (op : Nat) (p : Packet) (k : Nat) (P : State → Crit → Prop) : Prop :=
  ∃ v, s.AcceptsCrit (critRules op) op 0 p v k ∧ P v (critIn op p)

theorem accepted {s : State} {op : Nat} {p : Packet} {P : State → Crit → Prop} {o : CritOp} {t u : State} {k : Nat}
    (hp : s.PassesCrit (critRules op) op 0 p o t) (hc : t.critChecks (critIn op p) o = (u, .inl k))
    (h : (critIn op p).counter < (t.issuer (critIn op p).issuer).floor ∧ (critIn op p).counter ≤ ccMax - 2 ^ 32)
    (hq : P (u.counts (critIn op p)) (critIn op p)) : Accepted s op p k P := ⟨_, accepts hp hc h, hq⟩

set_option maxRecDepth 10000 in
theorem meets_KeyContextAndSwapCommandsAct_issuers (h : ∀ k n aad w, Config.unwrapKey k n aad w = some 7) :
    Accepted issT 0x01 (critPkt 0x01 11 0 0 ([byte 2, byte 1] ++ zeroBytes 54)) 7 (fun _ _ => True) ∧
    Accepted iss 0x02 (retire 11) 0 (fun _ _ => True) ∧
    Accepted iss 0x03 (critPkt 0x03 11 0 0xFFFF (leBytes 4 6 ++ leBytes 4 0)) 0 (fun _ c => field c.body 4 4 = 0) ∧
    Accepted { iss with cc := { State.cc iss with swap := some (6, 9000000) } } 0x03 (critPkt 0x03 11 0 0xFFFF (leBytes 4 6 ++ leBytes 4 1)) 0
      (fun _ c => field c.body 4 4 = 1) ∧
    Accepted iss 0x04 (critPkt 0x04 11 0 0xFFFF []) 0 (fun v _ => v.cc.taken = none) :=
  ⟨accepted (passes rfl (by decide +kernel) (critTag_ok 55 _)) (checks_wrapped (by decide +kernel) (h _ _ _ _) (by decide +kernel))
      (by decide +kernel) trivial,
    accepted (passes rfl (by decide +kernel) (critTag_ok 55 _)) (Prod.ext rfl (by decide +kernel)) (by decide +kernel) trivial,
    accepted (passes rfl (by decide +kernel) (critTag_ok 55 _)) (Prod.ext rfl (by decide +kernel)) (by decide +kernel) (by decide +kernel),
    accepted (passes rfl (by decide +kernel) (critTag_ok 55 _)) (Prod.ext rfl (by decide +kernel)) (by decide +kernel) (by decide +kernel),
    accepted (passes rfl (by decide +kernel) (critTag_ok 55 _)) (Prod.ext rfl (by decide +kernel)) (by decide +kernel) (by decide +kernel)⟩

/-- The bodies of a KEY_INSTALL into slot 1,023, a CONTEXT_CREATE with member 6, and a KEY_RETIRE of slot 3. -/
def installBody : List Byte := leBytes 4 1023 ++ leBytes 4 7 ++ zeroBytes 48
def createBody : List Byte := leBytes 8 1 ++ zeroBytes 32 ++ leBytes 8 6
/-- Issuer 1 with key slot 3 in a state. -/
def keyed3 (st : KeyState) : State :=
  { iss with ten := { iss.ten with keys := [(3, { st := st, key := 99, keyId := 16, owner := 5 })] } }

set_option maxRecDepth 10000 in
theorem meets_KeyContextAndSwapCommandsAct_keys (h : ∀ k n aad w, Config.unwrapKey k n aad w = some 7) :
    (∀ exec ∈ [0, 10000000], Accepted issT 0x08 (critPkt 0x08 11 exec 5 installBody) 7 (fun _ c => c.exec = exec)) ∧
    (∀ st ∈ [KeyState.active, .armed, .retiring], Accepted (keyed3 st) 0x09 (critPkt 0x09 11 0 5 (leBytes 8 3)) 0
      (fun v c => c.exec = 0 ∧ (v.keySlot 3).st = st)) ∧
    Accepted iss 0x09 (critPkt 0x09 11 10000000 5 (leBytes 8 3)) 0 (fun _ c => c.exec ≠ 0) ∧
    (∀ exec ∈ [0, 10000000], Accepted iss 0x0A (critPkt 0x0A 11 exec 7 createBody) 0 (fun _ c => c.exec = exec)) ∧
    ∀ exec ∈ [0, 10000000], Accepted iss 0x0B (critPkt 0x0B 11 exec 5 (zeroBytes 8)) 0 (fun v c => c.exec = exec ∧ (v.ctx 5).st = .active) := by
  refine ⟨?_, ?_, ?_, ?_, ?_⟩
  · intro e he
    rw [List.mem_pair] at he
    rcases he with rfl | rfl <;> exact accepted (passes rfl (by decide +kernel) (critTag_ok 55 _))
      (checks_wrapped (by decide +kernel) (h _ _ _ _) rfl) (by decide +kernel) (by decide +kernel)
  · intro st hst
    simp only [List.mem_cons, List.not_mem_nil, or_false] at hst
    rcases hst with rfl | rfl | rfl <;> exact accepted (passes rfl (by decide +kernel) (critTag_ok 55 _))
      (Prod.ext rfl (by decide +kernel)) (by decide +kernel) (by decide +kernel)
  · exact accepted (passes rfl (by decide +kernel) (critTag_ok 55 _)) (Prod.ext rfl (by decide +kernel)) (by decide +kernel) (by decide +kernel)
  all_goals
    intro e he
    rw [List.mem_pair] at he
    rcases he with rfl | rfl <;> exact accepted (passes rfl (by decide +kernel) (critTag_ok 55 _))
      (Prod.ext rfl (by decide +kernel)) (by decide +kernel) (by decide +kernel)

/-- The bodies of a grant of extent 9, and of a revoke of extent 20. -/
def grantBody : List Byte := leBytes 2 9 ++ [0, 0] ++ leBytes 4 8 ++ leBytes 4 1 ++ zeroBytes 20
def revokeBody (gen : Nat) : List Byte := leBytes 2 20 ++ leBytes 2 gen ++ zeroBytes 12

theorem meets_ExtentAndFirmwareCommandsAct :
    (∀ exec ∈ [0, 10000000], Accepted iss 0x0C (critPkt 0x0C 11 exec 5 grantBody) 0 (fun _ c => c.exec = exec)) ∧
    (∀ exec ∈ [0, 10000000], Accepted { striped with cc := State.cc iss } 0x0D (critPkt 0x0D 11 exec 5 (revokeBody 4)) 0
      (fun v c => c.exec = exec ∧ (v.extent c.extId).st = .active)) ∧
    Accepted iss 0x0D (critPkt 0x0D 11 0 0 (revokeBody 0)) 0 (fun v c => c.exec = 0 ∧ (v.extent c.extId).st ≠ .active) ∧
    (∀ role ∈ [0, 2], Accepted { iss with mgr := { State.mgr iss with role := role } } 0x11
      (critPkt 0x11 11 0 0xFFFF ([1, 0] ++ leBytes 2 2 ++ leBytes 4 3 ++ leBytes 8 4)) 0 (fun v _ => v.mgr.role = role)) ∧
    Accepted issBare 0x12 (critPkt 0x12 11 0 0xFFFF (zeroBytes 8)) 0 (fun _ _ => True) := by
  refine ⟨?_, ?_, accepted (passes rfl (by decide +kernel) (critTag_ok 55 _)) (Prod.ext rfl (by decide +kernel)) (by decide +kernel) (by decide +kernel),
    ?_, accepted (passes rfl (by decide +kernel) (critTag_ok 55 _)) (Prod.ext rfl (by decide +kernel)) (by decide +kernel) trivial⟩
  all_goals
    intro e he
    rw [List.mem_pair] at he
    rcases he with rfl | rfl <;> exact accepted (passes rfl (by decide +kernel) (critTag_ok 55 _))
      (Prod.ext rfl (by decide +kernel)) (by decide +kernel) (by decide +kernel)

/-- An FW_UPDATE of an empty image, whose digest is the uninterpreted one. -/
def fwBody : List Byte := leBytes 4 0 ++ zeroBytes 4 ++ leBytes 64 (Config.shake256 512 [])
def fwPkt (key : Nat) : Packet := critPkt 0x10 11 0 0xFFFF fwBody key

set_option exponentiation.threshold 600 in
theorem field_digest : field fwBody 8 64 = Config.shake256 512 [] % 2 ^ 512 := by
  have h : field fwBody 8 64 = leNat (leBytes 64 (Config.shake256 512 [])) := rfl
  rw [h, leNat_leBytes, show (256 : Nat) = 2 ^ 8 from rfl, ← Nat.pow_mul]

set_option exponentiation.threshold 600 in
theorem staged_ok {s : State} {c : Crit} (hb : c.body = fwBody) (hs : s.ten.staged = []) : s.stagedMatches c = true := by
  unfold State.stagedMatches
  rw [hb, hs, field_digest]
  have : field fwBody 0 4 = 0 := by decide +kernel
  rw [this, beq_self_eq_true]
  rfl

theorem checks_plain {s : State} {c : Crit} {o : CritOp} (h : c.exec = 0 ∧ o.wraps = false) (hc : o.check s c = stOk) :
    s.critChecks c o = (s, .inl 0) := by
  unfold State.critChecks
  obtain ⟨he, hw⟩ := h
  simp [he, hw, hc]

theorem fw_check {s : State} {c : Crit} (h : s.cc.commit = none ∧ s.ten.chunk = none ∧ s.swapArmed = false ∧ bit (field c.body 4 1) 0 = false)
    (hm : s.stagedMatches c = true) (hi : (imageKey s.ten.staged s.fuses).isSome = true) : checkFwUpdate s c = stOk := by
  unfold checkFwUpdate
  obtain ⟨h1, h2, h3, h4⟩ := h
  cases hk : imageKey s.ten.staged s.fuses with
  | none => rw [hk] at hi; cases hi
  | some k => simp [h1, h2, h3, h4, hm]


/-- A module in RECOVERY that serves port 0. -/
def recovering : State := { svc with boot := { svc.boot with state := 7, served := some 0 } }

set_option maxRecDepth 10000 in
theorem meets_ExtentAndFirmwareCommandsAct_update (k : Nat) (h : ∀ n, imageKey [] n = some k) :
    (∃ v, State.AcceptsCrit iss (fwRules 0) 0x10 0 (fwPkt 55) v 0 ∧ v.boot.state ≠ 7 ∧ v.cc.taken = none) ∧
    let p := fwPkt Config.factoryIssuerKey
    ∃ t, recovering.Admits (fwRules 0) 0 p t ∧ t.boot.state = 7 ∧
      (critShape t.ep (p.ofCmd 0x10) && fwShape (critIn 0x10 p) && (critIn 0x10 p).exec == 0) = true ∧
      critTag Config.factoryIssuerKey (p.ofCmd 0x10) = (critIn 0x10 p).tag ∧ (t.cc.recovery = none ∧ t.ten.chunk = none) ∧
      t.stagedMatches (critIn 0x10 p) = true ∧ imageKey t.ten.staged t.fuses ≠ none := by
  constructor
  · have hb : (critIn 0x10 (fwPkt 55)).body = fwBody := rfl
    refine ⟨_, ⟨_, letIn iss (fwRules 0) 0 (fwPkt 55), _,
      ⟨unsealed (by decide +kernel), by decide +kernel, rfl, by decide +kernel, by decide +kernel, by decide +kernel, by decide +kernel,
        critTag_ok 55 _, by decide +kernel, by decide +kernel, by decide +kernel⟩,
      checks_plain (by decide +kernel) (fw_check (s := letIn iss (fwRules 0) 0 (fwPkt 55)) (by decide +kernel) (staged_ok hb rfl) ?_),
      by decide +kernel, by decide +kernel, rfl⟩,
      by decide +kernel, by decide +kernel⟩
    show (imageKey [] _).isSome = true
    rw [h]; rfl
  · have hb : (critIn 0x10 (fwPkt Config.factoryIssuerKey)).body = fwBody := rfl
    refine ⟨_, unsealed (by decide +kernel), by decide +kernel, by decide +kernel, critTag_ok _ _, by decide +kernel, staged_ok hb rfl, ?_⟩
    show imageKey [] _ ≠ none
    rw [h]; exact Option.some_ne_none k

set_option maxRecDepth 10000 in
theorem meets_ExtentAndFirmwareCommandsAct_recovery (h : ∀ n, imageKey [] n = none) :
    let meets (s : State) (p : Packet) (P : State → Crit → Prop) : Prop :=
      ∃ t, s.Admits (fwRules 0) 0 p t ∧ t.boot.state = 7 ∧ P t (critIn 0x10 p)
    let shaped (t : State) (c : Crit) (p : Packet) : Bool := critShape t.ep (p.ofCmd 0x10) && fwShape c && c.exec == 0
    let good := fwPkt Config.factoryIssuerKey
    let bad := critPkt 0x10 11 0 0xFFFF fwBody Config.factoryIssuerKey 1
    let other := critPkt 0x10 11 0 0xFFFF (leBytes 4 4096 ++ zeroBytes 68) Config.factoryIssuerKey
    meets recovering (critPkt 0x10 11 0 0xFFFF []) (fun t c => shaped t c (critPkt 0x10 11 0 0xFFFF []) = false) ∧
    meets recovering bad (fun t c => shaped t c bad = true ∧ critTag Config.factoryIssuerKey (bad.ofCmd 0x10) ≠ c.tag) ∧
    meets { recovering with cc := { recovery := some 3 } } good (fun t c =>
      shaped t c good = true ∧ critTag Config.factoryIssuerKey (good.ofCmd 0x10) = c.tag ∧ ¬(t.cc.recovery = none ∧ t.ten.chunk = none)) ∧
    meets recovering other (fun t c => shaped t c other = true ∧ critTag Config.factoryIssuerKey (other.ofCmd 0x10) = c.tag ∧
      (t.cc.recovery = none ∧ t.ten.chunk = none) ∧ t.stagedMatches c = false) ∧
    meets recovering good (fun t c => shaped t c good = true ∧ critTag Config.factoryIssuerKey (good.ofCmd 0x10) = c.tag ∧
      t.stagedMatches c = true ∧ imageKey t.ten.staged t.fuses = none) := by
  refine ⟨⟨_, unsealed (by decide +kernel), by decide +kernel, by decide +kernel⟩,
    ⟨_, unsealed (by decide +kernel), by decide +kernel, by decide +kernel, critTag_bad _ _⟩,
    ⟨_, unsealed (by decide +kernel), by decide +kernel, by decide +kernel, critTag_ok _ _, by decide +kernel⟩,
    ⟨_, unsealed (by decide +kernel), by decide +kernel, by decide +kernel, critTag_ok _ _, by decide +kernel, ?_⟩,
    ⟨_, unsealed (by decide +kernel), by decide +kernel, by decide +kernel, critTag_ok _ _, staged_ok rfl rfl, h _⟩⟩
  unfold State.stagedMatches
  rw [Bool.and_eq_false_iff]
  exact .inl (by decide +kernel)

/-- An ATTEST of context 0 with 1,568 zero bytes as its key. -/
def attestPkt : Packet := openPkt 0xD0 4 0 (byte 0xD0 :: zeroBytes 1615)
theorem attest_slot : ((letIn svc (attestRules 0xD0) 0 attestPkt).slot? (cmdSlot 0xD0 attestPkt)).isSome = true := by decide +kernel

set_option maxRecDepth 50000 in
theorem meets_LongCommandsEnd (h : Config.ekValid (zeroBytes 1568) = true) :
    (∃ (s : State) (m : Commit), s.cc.commit = some m ∧ m.activate = false ∧ m.copy = 0) ∧
    (∃ (s : State) (m : Commit), s.cc.commit = some m ∧ m.activate = false ∧ m.copy ≠ 0) ∧
    (∃ (s : State) (k : Nat), s.cc.recovery = some k) ∧ (∃ (s : State) (r : CritRef), s.ten.unlocking = some r) ∧
    (∃ (s : State) (x : Nat) (b : List Byte), s.ten.chunk = some (x, b)) ∧
    (∃ (s : State) (k : MgrKey) (n : Nat), leastBy (·.2) s.ten.previous = some (k, n)) ∧
    (∃ t v, svc.Admits (attestRules 0xD0) 0 attestPkt t ∧
      t.slot? (cmdSlot 0xD0 attestPkt) = some v ∧ t.attestCheck v = stOk) ∧
    (∃ t v, svc.Admits (attestRules 0xD1) 0 (openPkt 0xD1 4 0 (byte 0xD1 :: zeroBytes 15)) t ∧
      t.slot? (cmdSlot 0xD1 (openPkt 0xD1 4 0 (byte 0xD1 :: zeroBytes 15))) = some v ∧ v.pkt.own = zeroBytes 8 ∧ v.pkt.context = 0) ∧
    (∃ t v, svc.Admits (fwChunkRules 0) 0 (mgrPkt 0xD8 (zeroBytes 4104)) t ∧
      t.slot? (cmdSlot 0xD8 (mgrPkt 0xD8 (zeroBytes 4104))) = some v ∧ t.chunkCheck v = stOk) ∧
    ∃ (s : State) (a : Attest) (q : List Attest) (v : InSlot), s.ten.attests = a :: q ∧ s.slot? a.slot = some v := by
  refine ⟨⟨{ cc := { commit := some { ref := ⟨0, 1, 2⟩, record := {}, copy := 0, startAt := 5 } } }, _, rfl, rfl, rfl⟩,
    ⟨{ cc := { commit := some { ref := ⟨0, 1, 2⟩, record := {}, copy := 1, startAt := 5 } } }, _, rfl, rfl, by decide⟩,
    ⟨{ cc := { recovery := some 3 } }, _, rfl⟩, ⟨{ ten := { unlocking := some ⟨0, 1, 2⟩ } }, _, rfl⟩,
    ⟨{ ten := { chunk := some (3, []) } }, _, _, rfl⟩, ⟨{ ten := { previous := [({ key := 4 }, 9), ({ key := 5 }, 5)] } }, _, _, rfl⟩, ?_,
    ⟨_, _, unsealed (by decide +kernel), slot_some (by decide +kernel), by decide +kernel, by decide +kernel⟩, ⟨_, _, sealed (k := 77) (by decide +kernel) rfl, slot_some (by decide +kernel), by decide +kernel⟩,
    ⟨{ ten := { attests := [⟨9, 0⟩] }, txn := { slots := [(9, { src := 0, tag := 9, port := none, pkt := {}, ctx := 0, key := .clear })] } },
      _, _, _, rfl, rfl⟩⟩
  refine ⟨_, _, unsealed (by decide +kernel), slot_some attest_slot, ?_⟩
  unfold State.attestCheck
  rw [if_neg (by decide +kernel), if_neg (by decide +kernel), if_neg, if_neg (by decide +kernel)]
  intro hv
  have e : (((letIn svc (attestRules 0xD0) 0 attestPkt).slot? (cmdSlot 0xD0 attestPkt)).get attest_slot).pkt.own.drop 40 =
    zeroBytes 1568 := by decide +kernel
  rw [e, h] at hv
  cases hv
/-- A command of issuer 1 armed for tick 2,000, and a state with it alone. -/
def armedAt (op ctx : Nat) (body : List Byte) : Armed :=
  { tick := 2000, cmd := { op := op, issuer := 1, counter := 11, exec := 2000, ctx := ctx, body := body, tag := 0 } }
def armedWith (a : Armed) (s : State := svc) : State := { s with cc := { s.cc with armed := [a] } }

/-- An armed command comes first of its opcode with nothing due before it, with conditions on the state at its tick. -/
def Fires (s : State) (a : Armed) (P : State → Crit → Prop) : Prop :=
  (armedSorted s.cc.armed).find? (fun x => x.cmd.op == a.cmd.op) = some a ∧ s.dueBefore a.tick (eventRank a.cmd.op) = false ∧
    P (State.elapseToTick { s with cc := { s.cc with armed := s.cc.armed.erase a } } a.tick) a.cmd

/-- Context 5 with key slot 9 ARMED for KEY_ID 40. -/
def armed9 : State := { svc with ten := { svc.ten with keys := [(9, { st := .armed, key := 1, keyId := 40, owner := 5 })] } }

theorem meets_ArmedCommandsFire :
    let create (ctx : Nat) := armedAt 0x0A ctx (leBytes 8 1 ++ zeroBytes 32 ++ leBytes 8 6)
    let destroy (ctx : Nat) := armedAt 0x0B ctx (zeroBytes 8)
    let grant (ctx : Nat) := armedAt 0x0C ctx (leBytes 2 9 ++ [0, 0] ++ leBytes 4 8 ++ leBytes 4 1 ++ zeroBytes 20)
    let revoke (gen : Nat) := armedAt 0x0D 5 (leBytes 2 20 ++ leBytes 2 gen ++ zeroBytes 12)
    let install (id : Nat) := armedAt 0x08 5 (leBytes 4 9 ++ leBytes 4 id ++ zeroBytes 48)
    let retire (ctx : Nat) := armedAt 0x09 ctx (leBytes 8 3)
    (Fires (armedWith (create 7)) (create 7) (fun u c => checkContextCreate u c = stOk) ∧
     Fires (armedWith (create 5)) (create 5) (fun u c => checkContextCreate u c ≠ stOk) ∧
     Fires (armedWith (destroy 5)) (destroy 5) (fun u c => checkContextDestroy u c = stOk) ∧
     Fires (armedWith (destroy 6)) (destroy 6) (fun u c => checkContextDestroy u c ≠ stOk) ∧
     Fires (armedWith (grant 5)) (grant 5) (fun u c => checkGrant u c = stOk) ∧
     Fires (armedWith (grant 6)) (grant 6) (fun u c => checkGrant u c ≠ stOk)) ∧
    (Fires (armedWith (revoke 4) striped) (revoke 4) (fun u c => checkRevoke u c = stOk ∧ (u.extent c.extId).st = .active) ∧
     Fires (armedWith (revoke 3) striped) (revoke 3) (fun u c => checkRevoke u c ≠ stOk) ∧
     Fires (armedWith (install 40) armed9) (install 40) (fun u c => armedKey u c = true ∧ checkInstallAt u c = stOk) ∧
     Fires (armedWith (install 41) armed9) (install 41) (fun u c => armedKey u c = false ∧ checkInstallAt u c ≠ stOk) ∧
     Fires (armedWith (install 41)) (install 41) (fun u c => armedKey u c = false ∧ checkInstallAt u c = stOk) ∧
     Fires (armedWith (retire 5)) (retire 5) (fun u c => checkKeyRetire u c = stOk) ∧
     Fires (armedWith (retire 6)) (retire 6) (fun u c => checkKeyRetire u c ≠ stOk)) ∧
    (let s := armedWith (retire 5) { svc with cc := { svc.cc with swap := some (1, 1500) } }
     (armedSorted s.cc.armed).find? (fun x => x.cmd.op == 0x09) = some (retire 5) ∧ s.dueBefore 2000 (eventRank 0x09) = true) := by
  refine ⟨⟨?_, ?_, ?_, ?_, ?_, ?_⟩, ⟨?_, ?_, ?_, ?_, ?_, ?_, ?_⟩, ?_⟩
  all_goals first | exact ⟨by decide +kernel, by decide +kernel, by decide +kernel⟩ | decide +kernel

/-- Extent 20 of context 5 in a state of Table 5.6. -/
def extentIn (st : ExtState) : State :=
  { svc with xlt := { svc.xlt with extents := [(20, { st := st, owner := 5, base2m := 1, len2m := 1, gen := 4, deadline := 70 })] } }
/-- Context 5 leaving, and key slot 3 in a state. -/
def ctxIn (x : Context) : State := { svc with ten := { svc.ten with ctxs := [(5, x)], keys := [] } }
def keyIn (st : KeyState) : State := { svc with ten := { svc.ten with keys := [(3, { st := st, owner := 5, deadline := 9 })] } }

theorem meets_ExtentsContextsAndKeysEnd :
    (((extentIn .draining).extent 20).st = .draining ∧ (extentIn .draining).inFlight 20 = []) ∧
    (let s := extentIn .zeroing
     (s.extent 20).st = .zeroing ∧ s.snoopsDone (s.extent 20) = true ∧ s.ctlFailed (s.extent 20).base = false) ∧
    (let s : State := { extentIn .zeroing with ctl := [(0, { st := .failed })] }
     (s.extent 20).st = .zeroing ∧ s.snoopsDone (s.extent 20) = true ∧ s.ctlFailed (s.extent 20).base = true) ∧
    (let s := ctxIn { st := .quiescing, cause := 1 }
     (s.ctx 5).st = .quiescing ∧ (s.ctx 5).cause = 1 ∧ s.heldBy 5 = []) ∧
    (((extentIn .active).extent 20).st ≠ .free ∧ ((extentIn .active).extent 20).kind = 0 ∧ ((extentIn .active).extent 20).owner = 5) ∧
    (((ctxIn { st := .removing }).ctx 5).st = .removing ∧ (ctxIn { st := .removing }).removalDone 5 = true) ∧
    (((keyIn .retiring).keySlot 3).st = .retiring ∧ (keyIn .retiring).keyRefs 3 = 0) ∧
    (((keyIn .dead).keySlot 3).st = .dead ∧ (keyIn .dead).staticRefs 3 = 0) := by decide +kernel

def joinPkt (own : List Byte) : Packet := openPkt 0x43 4 0 (byte 0x43 :: zeroBytes 7 ++ own)
def ownEp : List Byte := leBytes 2 4 ++ zeroBytes 70
def epStateRules : Rules := cmdRules 0xC1 fun s p => s.fromManager p || s.fromHost (0 : Fin 16) p
def takebackRules : Rules := cmdRules 0xC3 fun s p => (match p.sec with
  | some x => x.keyId == 0 && (s.mgr.role != 2 || x.ep == s.standby)
  | none => false)
def tallyRules : Rules := cmdRules 0xC5 fun _ p => p.sec.any fun x => x.keyId != 0

theorem meets_ManagerCommandsAndAudits_join :
    CmdMeets svc joinRules (mgrPkt 0x43 ownEp) (cmdSlot 0x43 (mgrPkt 0x43 ownEp)) (fun t _ => t.mgr.role ≠ 2) ∧
    CmdMeets boss joinRules (joinPkt ownEp) (cmdSlot 0x43 (joinPkt ownEp)) (fun t v => t.mgr.role = 2 ∧ v.pkt.own.length = 72 ∧
      joinEp v.pkt.own = v.src ∧ v.src ≠ t.actBits .mgr 0 0x044 27 16) ∧
    CmdMeets { boss with active := cfgPut [] 0x5044 (4 * 2 ^ 16) } joinRules (joinPkt ownEp) (cmdSlot 0x43 (joinPkt ownEp)) (fun t v =>
      t.mgr.role = 2 ∧ v.pkt.own.length = 72 ∧ joinEp v.pkt.own = v.src ∧ v.src = t.actBits .mgr 0 0x044 27 16 ∧ v.src ≠ t.ep ∧
        t.mgr.home = none ∧ ¬(t.mgr.mirrorOk = true ∧ t.standby = v.src) ∧ t.changesRefused = false) ∧
    CmdMeets boss joinRules (joinPkt (leBytes 2 5 ++ zeroBytes 70)) (cmdSlot 0x43 (joinPkt (leBytes 2 5 ++ zeroBytes 70))) (fun t v =>
      t.mgr.role = 2 ∧ joinEp v.pkt.own ≠ v.src) :=
  ⟨cmSealed (k := 77) (by decide +kernel) rfl (by decide +kernel) (by decide +kernel), cmOpen (by decide +kernel) (by decide +kernel) (by decide +kernel),
    cmOpen (by decide +kernel) (by decide +kernel) (by decide +kernel), cmOpen (by decide +kernel) (by decide +kernel) (by decide +kernel)⟩

theorem meets_ManagerCommandsAndAudits_commands :
    (let p := mgrPkt 0xC1 (leBytes 2 9 ++ [1] ++ zeroBytes 5)
     CmdMeets svc epStateRules p (cmdSlot 0xC1 p) (fun t v => t.epStateCheck v = stOk ∧ t.mgr.role ≠ 2) ∧
     let q := mgrPkt 0xC1 (leBytes 2 9 ++ [9] ++ zeroBytes 5)
     CmdMeets svc epStateRules q (cmdSlot 0xC1 q) (fun t v => t.epStateCheck v ≠ stOk)) ∧
    (let p := rosterPkt 0xC3 (leBytes 8 90000000)
     CmdMeets { boss with active := cfgPut [] 0x5044 4 } takebackRules p (cmdSlot 0xC3 p) (fun t v => t.takeBackCheck v = stOk) ∧
     let q := rosterPkt 0xC3 (leBytes 8 9)
     CmdMeets { boss with active := cfgPut [] 0x5044 4 } takebackRules q (cmdSlot 0xC3 q) (fun t v => t.takeBackCheck v ≠ stOk)) ∧
    (let p := mgrPkt 0xC0 (leBytes 8 5)
     let shaped (v : InSlot) := v.pkt.own.length = 8 ∧ zeros v.pkt.own 4 4 = true ∧ v.pkt.context = 0
     CmdMeets svc (mgrCmd 0xC0) p (cmdSlot 0xC0 p) (fun t v => shaped v ∧ t.txn.balance = none) ∧
     CmdMeets { svc with txn := { svc.txn with balance := some { slot := 1, waitNs := 5, pages := [0], since := 0 } } } (mgrCmd 0xC0) p
       (cmdSlot 0xC0 p) (fun t v => shaped v ∧ t.txn.balance ≠ none) ∧
     let q := mgrPkt 0xC0 (leBytes 8 (2 ^ 32))
     CmdMeets svc (mgrCmd 0xC0) q (cmdSlot 0xC0 q) (fun _ v => ¬shaped v)) :=
  ⟨⟨cmSealed (k := 77) (by decide +kernel) rfl (by decide +kernel) (by decide +kernel),
      cmSealed (k := 77) (by decide +kernel) rfl (by decide +kernel) (by decide +kernel)⟩,
    ⟨cmSealed (k := 88) (by decide +kernel) rfl (by decide +kernel) (by decide +kernel),
      cmSealed (k := 88) (by decide +kernel) rfl (by decide +kernel) (by decide +kernel)⟩,
    cmSealed (k := 77) (by decide +kernel) rfl (by decide +kernel) (by decide +kernel),
    cmSealed (k := 77) (by decide +kernel) rfl (by decide +kernel) (by decide +kernel),
    cmSealed (k := 77) (by decide +kernel) rfl (by decide +kernel) (by decide +kernel)⟩

/-- Context 5, which may read tallies. -/
def tallied : State := { svc with ten := { svc.ten with ctxs := [(5, { st := .active, members := [4], tallyRead := true })] } }

theorem meets_ManagerCommandsAndAudits_tallyRead :
    let pkt (n m : Nat) := ctxPkt 0xC5 (leBytes 8 n ++ zeroBytes (4 * m))
    let reads (t : State) (v : InSlot) : Prop := t.isMember v.ctx v.src = true ∧ (t.ctx v.ctx).st = .active ∧ (t.ctx v.ctx).tallyRead = true
    let shaped (v : InSlot) : Prop := 0 < field v.pkt.own 0 1 ∧ field v.pkt.own 0 1 ≤ 16 ∧ zeros v.pkt.own 1 7 = true ∧
      v.pkt.own.length = 8 + 4 * field v.pkt.own 0 1
    CmdMeets tallied tallyRules (pkt 1 1) (cmdSlot 0xC5 (pkt 1 1)) (fun t v => reads t v ∧ shaped v) ∧
    CmdMeets tallied tallyRules (pkt 16 16) (cmdSlot 0xC5 (pkt 16 16)) (fun t v => reads t v ∧ shaped v) ∧
    CmdMeets tallied tallyRules (pkt 17 17) (cmdSlot 0xC5 (pkt 17 17)) (fun t v => reads t v ∧ ¬shaped v) ∧
    CmdMeets svc tallyRules (pkt 1 1) (cmdSlot 0xC5 (pkt 1 1)) (fun t v => ¬reads t v) := by
  refine ⟨?_, ?_, ?_, ?_⟩ <;> exact cmSealed (k := 99) (by decide +kernel) rfl (by decide +kernel) (by decide +kernel)

/-- A balance check under way on one page. -/
def auditing (base : Nat) (slots : Tbl InSlot := []) : State :=
  { svc with txn := { svc.txn with slots := slots, inUsed := slots.length
                                   balance := some { slot := 1, waitNs := 5, pages := [base], since := 0 } } }

theorem meets_ManagerCommandsAndAudits_pages :
    let b (base : Nat) : Balance := { slot := 1, waitNs := 5, pages := [base], since := 0 }
    let busy := auditing (pageBase .txn 0) [(1, { src := 4, tag := 1, port := none, pkt := {}, ctx := 5, key := .clear }),
      (2, { src := 4, tag := 2, port := none, pkt := {}, ctx := 5, key := .clear })]
    ((auditing (pageBase .pwr 0)).txn.balance = some (b (pageBase .pwr 0)) ∧
      ((auditing (pageBase .pwr 0)).holdPage (b (pageBase .pwr 0)) (pageBase .pwr 0)).isSome = true ∧
      ((auditing (pageBase .pwr 0)).elapseTo 5).holdPage (b (pageBase .pwr 0)) (pageBase .pwr 0) =
        some { b (pageBase .pwr 0) with held := true }) ∧
    (busy.txn.balance = some (b (pageBase .txn 0)) ∧ busy.holdPage (b (pageBase .txn 0)) (pageBase .txn 0) = none ∧
      (busy.elapseTo 5).holdPage (b (pageBase .txn 0)) (pageBase .txn 0) = none) := by decide +kernel

/-- Two bytes of a journal header: VERSION 1 at 4, COPY_STATE 2 at 6, in a MGR_STATE extent that MGR_JRNL names. -/
def withCopy (state : Nat) (s : State := svc) : State :=
  { s with xlt := { s.xlt with extents := [(1, { st := .active, kind := 2, base2m := 4, len2m := 1, gen := 1 })] }
           regs := cfgPut [] 0x580C 0x00800001
           mem := cellPuts [] 0x800000 (zeroBytes 4 ++ leBytes 2 1 ++ [byte state, 0] ++ leBytes 4 6)
           active := cfgPut [] 0x5044 (2 ^ 31 + 2 ^ 30 + 2 ^ 16 + 1), mgr := { role := 1, ep := some 2, gen := 6 } }

theorem meets_RolesChangeHands :
    (∀ auto, ∃ (s : State) (m : Module), tblGet? s.mgr.roster 4 = some m ∧ s.mgr.role = 2 ∧ 4 ≠ s.ep ∧ m.silent = false ∧ m.dead = false ∧
      wbit (s.act .mgr 0 0x04C) 31 = auto ∧ s.changesRefused = false) ∧
    (∀ n ∈ [1, 2], let s := withCopy n
      let u := s.elapseTo (s.tick.lastAnn + s.actBits .mgr 0 0x040 31 16 * 1000)
      (s.inService = true ∧ s.mgr.role = 1 ∧ wbit (s.act .mgr 0 0x044) 31 = true ∧ ((List.range 16).any fun p => s.portUp p) = true) ∧
      u.dueBefore u.tick.count 11 = false ∧ u.rodsDue u.tick.count = false ∧ (n = 2 → s.copyState = 2 ∧ s.copyVersion = 1) ∧
        (n = 1 → s.copyState ≠ 2)) ∧
    (∃ (s : State) (ep : Nat) (m : RoleMsg), leastBy (·.2.at_) s.mgr.roleSent = some (ep, m)) ∧
    (∃ (s : State) (t : Nat), s.mgr.tbRefused = some t ∧ s.mayTakeBack = true) ∧
    (∀ role ∈ [1, 2], ∃ s : State, s.mgr.takeback = some (4, 9000) ∧ s.dueBefore 9000 11 = false ∧ s.rodsDue 9000 = false ∧ s.mgr.role = role) ∧
    ∃ s : State, s.mgr.takeback = some (4, 9000) ∧ s.dueBefore 9000 11 = true := by
  refine ⟨?_, ?_, ⟨{ mgr := { roleSent := [(5, { pkt := {}, at_ := 4 }), (4, { pkt := {}, at_ := 3 })] } }, 4, _, rfl⟩,
    ⟨{ withCopy 2 with mgr := { (withCopy 2).mgr with tbRefused := some 4 } }, 4, by decide +kernel⟩, ?_,
    ⟨{ boss with mgr := { boss.mgr with takeback := some (4, 9000) }, cc := { swap := some (1, 8000) } }, by decide +kernel⟩⟩
  · intro auto
    cases auto
    · exact ⟨boss, { serial := 3 }, by decide +kernel⟩
    · exact ⟨{ boss with active := cfgPut [] 0x504C 0x80000004 }, { serial := 3 }, by decide +kernel⟩
  · decide +kernel
  · intro n hn
    rw [List.mem_pair] at hn
    rcases hn with rfl | rfl
    · exact ⟨{ boss with mgr := { boss.mgr with role := 1, takeback := some (4, 9000) } }, by decide +kernel⟩
    · exact ⟨{ boss with mgr := { boss.mgr with takeback := some (4, 9000) } }, by decide +kernel⟩

/-- A takeback is sent when the limit of requests to the manager, which no rule gives, is not 0. -/
theorem meets_RolesChangeHands_request (h : 0 < Config.quotaAt 2) :
    let s : State := { withCopy 2 with rtr := { svc.rtr with upstream := some (0, 0), annEp := 2 } }
    s.mayTakeBack = true ∧ s.mgr.tbSent = none ∧ s.mgr.tbRefused = none ∧ s.mgr.takeback = none ∧ s.mgr.ep = some 2 ∧
      s.freeOut = some 0 ∧ (s.route 2 s.ep s.rtr.inject).isSome = true ∧ 2 ≠ s.ep ∧ tblGet s.txn.sentTo 2 0 < Config.quotaAt 2 ∧
      ∃ x, s.route 2 s.ep s.rtr.inject = some x ∧ s.portEth x.1 = false :=
  ⟨by decide +kernel, rfl, rfl, rfl, rfl, by decide +kernel, by decide +kernel, by decide +kernel, h, (0, 0), by decide +kernel, by decide +kernel⟩

theorem meets_beads :
    (∃ i e : Nat, i < 36 ∧ 0 < e ∧ e < 65536) ∧ (∃ i j e f : Nat, i < j ∧ j < 36 ∧ 0 < e ∧ e < 65536 ∧ 0 < f ∧ f < 65536) ∧
    (∃ (s : State) (pa : Nat) (data : List Byte), Memory.wf s.mem = true ∧ s.injecting pa = false ∧ data.length = 64) :=
  ⟨⟨35, 65535, by decide⟩, ⟨34, 35, 1, 65535, by decide⟩, ⟨svc, 0x200000, zeroBytes 64, by decide +kernel⟩⟩
/-- The rules of a memory request of one type, or of an ATOMIC. -/
def memRules (t : Nat) : Rules := memoryRules (fun p => p.ofType t) false
def atomicRules (op : Nat) : Rules := memoryRules (fun p => p.ofAtomic op) false
/-- An ATOMIC of FETCH_ADD at lane `lane`. -/
def atomicPkt (op lane : Nat) : Packet := memPkt tAtomic op 0x40 ([byte lane, byte 3] ++ zeroBytes 22)

theorem meets_MemoryRequestsAreQueued :
    (∀ x ∈ [(tRead, 7, []), (tReadShared, 0, []), (tReadOwn, 0, []), (tReadNoalloc, 0, []), (tWrite, 0, zeroBytes 64),
        (tWritePartial, 0, zeroBytes 72), (tWriteback, 0, zeroBytes 64)],
      let p := memPkt x.1 x.2.1 0x40 x.2.2
      CmdMeets mapped (memRules x.1) p ((memRules x.1).slot p) (fun _ v => v.pkt.typ ≠ tAtomic ∧ v.phase = .walk)) ∧
    (let p := memPkt tRead 0 0x40
     CmdMeets hit (memRules tRead) p ((memRules tRead).slot p) (fun _ v => v.pkt.typ ≠ tAtomic ∧ v.phase ≠ .walk)) ∧
    (∀ op ∈ [0, 1, 2], let p := atomicPkt op 56
     CmdMeets mapped (atomicRules op) p ((atomicRules op).slot p) (fun _ v =>
       v.pkt.typ = tAtomic ∧ v.pkt.qual % 4 = op ∧ atomicOk op v.pkt.body = true ∧ v.phase = .walk)) ∧
    (let p := atomicPkt 0 56
     CmdMeets hit (atomicRules 0) p ((atomicRules 0).slot p) (fun _ v =>
       v.pkt.typ = tAtomic ∧ v.pkt.qual % 4 = 0 ∧ atomicOk 0 v.pkt.body = true ∧ v.phase ≠ .walk)) ∧
    (let p := atomicPkt 0 200
     CmdMeets hit (atomicRules 0) p ((atomicRules 0).slot p) (fun _ v => v.pkt.typ = tAtomic ∧ v.pkt.qual % 4 = 0 ∧ atomicOk 0 v.pkt.body = false)) ∧
    (let p := memPkt tAtomic 3 0x40 (byte 0xD :: zeroBytes 39)
     CmdMeets hit (atomicRules 3) p ((atomicRules 3).slot p) (fun _ v => v.pkt.typ = tAtomic ∧ v.pkt.qual % 4 = 3 ∧ exactAddOk v.pkt.body = true)) := by
  refine ⟨?_, cmSealed (k := 99) (by decide +kernel) rfl (by decide +kernel) (by decide +kernel), ?_,
    cmSealed (k := 99) (by decide +kernel) rfl (by decide +kernel) (by decide +kernel),
    cmSealed (k := 99) (by decide +kernel) rfl (by decide +kernel) (by decide +kernel),
    cmSealed (k := 99) (by decide +kernel) rfl (by decide +kernel) (by decide +kernel)⟩
  all_goals
    intro x hx
    fin_cases hx <;> exact cmSealed (k := 99) (by decide +kernel) rfl (by decide +kernel) (by decide +kernel)

theorem meets_MemoryRequestsAreQueued_start :
    ∃ (s : State) (v : InSlot), s.slot? 9 = some v ∧ (v.pkt.beads = 1 ∧ s.cohAt v.pa = none ∧ s.heldAt v.pa = none) ∧
      (∀ e g, v.ext = some (e, g) → s.prot? e = none) ∧ (windowOf v.pa = some 0 ∧ v.pkt.typ ≠ tWriteback ∧ v.pkt.typ ≠ tReadShared ∧
      v.pkt.typ ≠ tReadOwn) ∧ (s.unitAt 0 (unitIn 0 (ctlOffset v.pa))).beam = [] ∧
      ∀ q : MemReq, (s.unitAt 0 (unitIn 0 (ctlOffset v.pa))).room q = true :=
  ⟨{ svc with txn := { slots := [(9, { src := 4, tag := 9, port := none, pkt := { typ := tRead }, ctx := 5, key := .slot 3, pa := 0x200040 })] } },
    _, rfl, by decide +kernel, (by intro e g h; cases h), by decide +kernel, rfl, fun q => by unfold Unit.room; cases q.isWrite <;> decide⟩

theorem meets_SlotsIssueByRank :
    (svc.pick 0 0 readsUnit = some queuedRead) ∧
    (¬(31 < unitCount 4 ∧ svc.ctlOk 4 = true ∧ svc.clocked (ctlPage 4).1 (ctlPage 4).2 = true)) ∧
    (31 < unitCount 0 ∧ svc.ctlOk 0 = true ∧ svc.clocked (ctlPage 0).1 (ctlPage 0).2 = true) ∧
    ((queuedIn { st := .failed }).ctlAt 0).st = .failed ∧
    ((svc.ctlAt 0).st ≠ .failed ∧ svc.outOfService 0 (channelOf 0 31) = false) ∧
    ((queuedIn { st := .retrain }).ctlAt 0).st ≠ .failed ∧ (queuedIn { st := .retrain }).outOfService 0 (channelOf 0 0) = true ∧
    (15 < unitCount 11 ∧ 15 < bankCount 11 ∧ svc.ctlOk 11 = true ∧ (svc.ctlAt 11).st ≠ .selfRefresh ∧ (svc.ctlAt 11).st ≠ .failed) := by
  decide +kernel

theorem meets_SlotsIssueByRank_slot :
    let at_ (v : Machine.Unit) : State × Machine.Unit :=
      let w := ((queuedIn { units := [(1, v)] }).queueScrub 0 1).slotCredit 0 1
      (w, w.unitAt 0 1)
    (let x := at_ { debt := [(3, 4)] }
     x.2.debt.find? (fun b => 4 ≤ b.2) = some (3, 4)) ∧
    (let x := at_ readsUnit
     x.2.debt.find? (fun b => 4 ≤ b.2) = none ∧ x.1.pick 0 1 x.2 = some queuedRead) ∧
    (let x := at_ { debt := [(3, 2)] }
     x.2.debt.find? (fun b => 4 ≤ b.2) = none ∧ x.1.pick 0 1 x.2 = none ∧ (x.2.idleBank 0).isSome = true) ∧
    (let x := at_ {}
     x.2.debt.find? (fun b => 4 ≤ b.2) = none ∧ x.1.pick 0 1 x.2 = none ∧ x.2.idleBank 0 = none) ∧
    leastBy (·.seq) (((queuedIn { units := [(1, readsUnit)] }).unitAt 0 1).seen.filter fun r => r.cls != 0) = some queuedRead := by
  decide +kernel

theorem meets_SlotsIssueByRank_data :
    let s (k : CtlState) : State := queuedIn { st := k, units := [(1, { dram := [queuedRead], nextSeq := 1 })] }
    let rest (s : State) : State := s.setUnit 0 1 { s.unitAt 0 1 with dram := [] }
    (∀ k ∈ [CtlState.active, .failed], ((s k).unitAt 0 1).dram = [queuedRead] ∧ ((s k).ctlAt 0).st = k) ∧
    (∃ w b q, (rest (s .active)).readOut queuedRead.pa [] = (w, .data b q)) ∧
    (let t : State := { s .active with xlt := striped.xlt, ecc := { striped.ecc with prots := [(20, { keysel := 3, k := 1, members := [⟨1, 20, 4, 5⟩, ⟨2, 30, 6, 5⟩] })] } }
     ∃ w, (rest t).readOut queuedRead.pa [(1, 5), (2, 6)] = (w, .repair) ∧ w.protectedAt queuedRead.pa = some 20) :=
  ⟨by decide +kernel, ⟨_, zeroBytes 64, false, pairOf (by decide +kernel)⟩, _, pairOf (by decide +kernel), by decide +kernel⟩

theorem meets_ControllerStatesMove :
    (svc.inService = true ∧ svc.ctlOk 0 = true ∧ (svc.ctlAt 0).st ≠ .failed) ∧
    (let s : State := { svc with active := cfgPut [] 0x60044 0x00010000 }
     (s.ctlOk 0 = true ∧ (s.ctlAt 0).st = .active ∧ (s.ctlAt 0).tracking = none ∧ (s.ctlAt 0).empty = true) ∧
       s.srForced 0 = false ∧ s.srIdleUs 0 ≠ 0 ∧ (s.elapseTo ((s.ctlAt 0).idleSince + 1000 * s.srIdleUs 0)).owesWork 0 = false) ∧
    (let s : State := { svc with active := cfgPut [] 0x60044 0x00010000, ctl := [(0, { deferred := true, trackDue := [3] })] }
     (s.ctlOk 0 = true ∧ (s.ctlAt 0).st = .active ∧ (s.ctlAt 0).tracking = none ∧ (s.ctlAt 0).empty = true) ∧
       s.srForced 0 = false ∧ (s.elapseTo ((s.ctlAt 0).idleSince + 1000 * s.srIdleUs 0)).owesWork 0 = true) ∧
    (let s : State := { svc with regs := cfgPut [] 0x60800 1 }
     (s.ctlOk 0 = true ∧ (s.ctlAt 0).st = .active ∧ (s.ctlAt 0).tracking = none ∧ (s.ctlAt 0).empty = true) ∧ s.srForced 0 = true) ∧
    (∀ st ∈ [CtlState.entering, .exiting, .selfRefresh, .retrain],
      ((queuedIn { st := st }).ctlAt 0).st = st ∧ (queuedIn { st := st }).srForced 0 = false) ∧
    (svc.ctlOk 0 = true ∧ (svc.ctlAt 0).st = .active ∧ (svc.ctlAt 0).tracking = none ∧ (svc.ctlAt 0).trackCh = 0) ∧
    (let s := queuedIn { trackCh := 15 }
     s.ctlOk 0 = true ∧ (s.ctlAt 0).st = .active ∧ (s.ctlAt 0).tracking = none ∧ (s.ctlAt 0).trackCh = 15) ∧
    (let s := queuedIn { trainedAt := [(3, 40)] }
     s.ctlOk 0 = true ∧ (s.ctlAt 0).st = .active ∧ (s.ctlAt 0).tracking = none ∧ tblGet? (s.ctlAt 0).trainedAt 3 = some 40 ∧
       s.trainDelta 0 ≤ ((240 : Int) - 40).natAbs ∧ ((40 : Int) - 40).natAbs < s.trainDelta 0) ∧
    (∀ run ∈ [2, 3], (((queuedIn { st := .retrain, run := run }).ctlAt 0).st = .retrain ∧ ((queuedIn { st := .retrain, run := run }).ctlAt 0).run = run) ∧
      ((queuedIn { tracking := some 15, run := run }).ctlAt 0).tracking = some 15) := by decide +kernel

/-- An INVAL of a context by the manager. -/
def invalPkt (scope : Nat) : Packet :=
  tagged { typ := tInval, vc := 0, length := 18, dst := 1, tag := 9, form := contextForm 2 0 0
           sec := some { keyId := 0, sender := 2, rsv := 0, counter := 1 }, body := leBytes 2 5 ++ [byte scope] ++ zeroBytes 21 } 77

/-- A walk of the page of VA 31 × 64 KiB, in a state. -/
def walk31 : Walk := { ctx := 5, page := 31, slots := [9] }
def walkingIn (s : State) : State := { s with xlt := { s.xlt with walks := [walk31] } }

theorem meets_WalksAndInvalidationsEnd :
    (∃ (s : State) (w : Walk), (s.xlt.walks.take 128)[0]? = some w ∧ (s.ctx w.ctx).st ≠ .active) ∧
    (∃ w, ((walkingIn mapped).xlt.walks.take 128)[0]? = some walk31 ∧ ((walkingIn mapped).ctx 5).st = .active ∧
      (walkingIn mapped).walkTables 5 (31 * 0x10000) = (w, .ok leaf)) ∧
    (∃ w y, ((walkingIn svc).xlt.walks.take 128)[0]? = some walk31 ∧ ((walkingIn svc).ctx 5).st = .active ∧
      (walkingIn svc).walkTables 5 (31 * 0x10000) = (w, y) ∧ (∀ e, y ≠ .ok e) ∧ y ≠ .later) ∧
    CmdMeets svc invalRules (invalPkt 1) (invalRules.slot (invalPkt 1)) (fun _ v => invalOk v.pkt.body = true) ∧
    CmdMeets svc invalRules (invalPkt 3) (invalRules.slot (invalPkt 3)) (fun _ v => invalOk v.pkt.body = false) ∧
    (∃ (s : State) (i : Inval), s.xlt.invals[0]? = some i ∧ i.waitFor = [] ∧ ((s.xlt.invals.take 0).all fun j => j.src != i.src) = true) ∧
    (∃ (s : State) (i : Inval), s.xlt.invals[1]? = some i ∧ i.waitFor = [] ∧ ((s.xlt.invals.take 1).all fun j => j.src != i.src) = false) :=
  ⟨⟨{ svc with xlt := { walks := [{ ctx := 6, page := 0, slots := [] }] } }, _, rfl, by decide +kernel⟩,
    ⟨_, rfl, by decide +kernel, pairOf (by decide +kernel)⟩,
    ⟨_, .fault, rfl, by decide +kernel, pairOf (by decide +kernel), nofun, nofun⟩,
    cmSealed (k := 77) (by decide +kernel) rfl (by decide +kernel) (by decide +kernel),
    cmSealed (k := 77) (by decide +kernel) rfl (by decide +kernel) (by decide +kernel),
    ⟨{ svc with xlt := { invals := [{ slot := 1, src := 2, dropped := 0, visited := 0, waitFor := [] }] } }, _, rfl, rfl, rfl⟩,
    ⟨{ svc with xlt := { invals := List.replicate 2 { slot := 1, src := 2, dropped := 0, visited := 0, waitFor := [] } } }, _, rfl, rfl, rfl⟩⟩

theorem meets_WalksAndInvalidationsEnd_headers :
    (walkingIn svc).xlt.walks.find? (fun w => w.slots.contains 9) = some walk31 ∧
    (walkingIn svc).xlt.walks.find? (fun w => w.slots.contains 8) = none ∧
    (∀ st ∈ [RodState.saving, .restoring], ((running {} { st := st }).rod (0x2000 % 0x1000)).st = st) := by decide +kernel

/-- Ring 5 of context 5 with one record waiting, at 0x200000. -/
def ringWith (prod : Nat := 0) (beads : List (Nat × Meta) := []) (owed : Bool := false) : State :=
  { mapped with xlt := { mapped.xlt with rings := [(5, { ringLo := 0x200001, prod := prod, owedProd := owed, queue := [{ typ := 1, cls := 0 }] })] }
                beads := beads }

theorem meets_RingRecordsAreWritten :
    let r : Record := { typ := 1, cls := 0 }
    let ring : Ring := { ringLo := 0x200001, queue := [r] }
    let gone (s : State) (n : Nat) : Prop := s.ringReach n = false ∨ s.controlPoisoned n = true
    (let s := ringWith
     ¬gone s 5 ∧ ∃ u, s.flushRing 5 = (u, true) ∧ (u.ring 5).queue = [r] ∧ (u.ring 5).used < (u.ring 5).entries) ∧
    (let s : State := { svc with xlt := { rings := [(5, ring)] } }
     (s.ring 5).queue = [r] ∧ gone s 5) ∧
    ((ringWith 0 [(0x8000, { poison := true })]).ring 5).queue = [r] ∧ gone (ringWith 0 [(0x8000, { poison := true })]) 5 ∧
    (let s : State := { svc with xlt := { rings := [(1024, ring)] } }
     (s.ring mgrRing).queue = [r] ∧ gone s mgrRing) ∧
    (∃ u, let s := ringWith
     s.innerWrite (ringTag 5) ((s.ring 5).base + 64 * (1 + (s.ring 5).prod % (s.ring 5).entries))
        (.write (r.bytes ((s.ring 5).prod / (s.ring 5).entries + 1) (s.ring 5).seq) false) = (u, true)) ∧
    (∃ u, let s := ringWith 3 [] true
     (s.ring 5).owedProd = true ∧ (s.ring 5).owedOvf = false ∧
       s.innerWrite (ringTag 5) (s.ring 5).base (controlField 8 (s.ring 5).prod) = (u, true)) := by
  refine ⟨⟨?_, _, pairOf ?_, ?_⟩, ?_, ?_, ?_, ?_, ⟨_, pairOf ?_⟩, ⟨_, ?_, ?_, pairOf ?_⟩⟩ <;> decide +kernel

/-- A full ring whose CONSUMER reads 0 stays full; with one entry read since, it has room. -/
theorem meets_RingRecordsAreWritten_full :
    let full (cons : Nat) : State := { ringWith 4096 with mem := cellPuts mapped.mem 0x200000 (leBytes 4 cons) }
    (∀ n ∈ [0, 1], ¬((full n).ringReach 5 = false ∨ (full n).controlPoisoned 5 = true)) ∧
    (∃ u w, (full 0).flushRing 5 = (u, true) ∧ (u.ring 5).entries ≤ (u.ring 5).used ∧ u.readControl 5 = (w, .consumer 0) ∧
      ((w.setRing 5 { w.ring 5 with cons := 0 }).ring 5).entries ≤ ((w.setRing 5 { w.ring 5 with cons := 0 }).ring 5).used) ∧
    (∃ u w, (full 1).flushRing 5 = (u, true) ∧ (u.ring 5).entries ≤ (u.ring 5).used ∧ u.readControl 5 = (w, .consumer 1) ∧
      ((w.setRing 5 { w.ring 5 with cons := 1 }).ring 5).used < ((w.setRing 5 { w.ring 5 with cons := 1 }).ring 5).entries) := by
  refine ⟨?_, ⟨_, _, pairOf ?_, ?_, pairOf ?_, ?_⟩, ⟨_, _, pairOf ?_, ?_, pairOf ?_, ?_⟩⟩ <;> decide +kernel

/-- A ring whose control bead stands behind a bead being gathered owes PRODUCER still. -/
theorem meets_RingRecordsAreWritten_waits :
    let s : State := { ringWith 3 [] true with ecc := { gathers := [{ ext := 20, off := 0, pos := 0, want := .inner 7 false, ask := [1], acc := [], startAt := 0 }] } }
    ¬(s.ringReach 5 = false ∨ s.controlPoisoned 5 = true) ∧ ∃ u, s.flushRing 5 = (u, false) :=
  ⟨by decide +kernel, _, pairOf (by decide +kernel)⟩
/-- A partner command of the stripe's other member. -/
def partnerPkt (op : Nat) (own : List Byte) : Packet := tagged (cmdPkt op 2 16 5 own) 99
def stripeOf (pos : Nat) (k : Nat := 1) (q : Prot := {}) : State :=
  striped { q with k := k, pos := pos, keysel := 3, members := [⟨1, 20, 4, 5⟩, ⟨2, 30, 6, 5⟩] }
def fwdBody (off n : Nat) : List Byte := leBytes 2 20 ++ leBytes 2 4 ++ [byte n, 0, 0, 0] ++ leBytes 8 off ++ zeroBytes (64 * n)
def readBody (off n : Nat) (b5 b6 : Nat := 0) : List Byte := leBytes 2 20 ++ leBytes 2 4 ++ [byte n, byte b5, byte b6, 0] ++ leBytes 8 off
def PartnerMeets (s : State) (op : Nat) (own : List Byte) (P : State → InSlot → Prop) : Prop :=
  CmdMeets s (partnerRules op) (partnerPkt op own) (cmdSlot op (partnerPkt op own)) P

set_option maxRecDepth 20000 in
theorem meets_SnoopsAndPartnersAct_partners :
    let inside (t : State) (v : InSlot) := t.parInside (parExt v.pkt) (parOff v.pkt) (parBeads v.pkt)
    let prot (t : State) (v : InSlot) (f : Prot → Bool) := (t.prot? (parExt v.pkt)).any f
    PartnerMeets (stripeOf 0) 0x91 (readBody 0 5) (fun t v => t.partnerCheck v ≠ stOk) ∧
    PartnerMeets (stripeOf 0) 0x91 (readBody 0x1FFFC0 2) (fun t v => t.partnerCheck v = stOk ∧ inside t v = false) ∧
    PartnerMeets (stripeOf 1) 0x90 (fwdBody 0x1FFFC0 1) (fun t v => t.partnerCheck v = stOk ∧ inside t v = true ∧
      prot t v (fun q => q.pos == q.k) = true) ∧
    PartnerMeets (stripeOf 0) 0x90 (fwdBody 0 4) (fun t v => t.partnerCheck v = stOk ∧ inside t v = true ∧
      prot t v (fun q => q.pos == q.k) = false) ∧
    PartnerMeets (stripeOf 0) 0x91 (readBody 0 4) (fun t v => t.partnerCheck v = stOk ∧ inside t v = true) ∧
    PartnerMeets (stripeOf 2 2) 0x92 (readBody 0 1 1 1) (fun t v => t.partnerCheck v = stOk ∧ parMember v.pkt = true ∧
      t.prot? (parExt v.pkt) = some { k := 2, pos := 2, keysel := 3, members := [⟨1, 20, 4, 5⟩, ⟨2, 30, 6, 5⟩] } ∧ parLost v.pkt < 2 ∧ inside t v = true) ∧
    PartnerMeets (stripeOf 1 2) 0x92 (readBody 0 1 1 1) (fun t v => t.partnerCheck v = stOk ∧ parMember v.pkt = true ∧
      prot t v (fun q => q.pos != q.k) = true) := by
  refine ⟨?_, ?_, ?_, ?_, ?_, ?_, ?_⟩
  all_goals exact cmSealed (k := 99) (by decide +kernel) rfl (by decide +kernel) (by decide +kernel)

theorem meets_SnoopsAndPartnersAct :
    (∀ typ ∈ [tSnoopInv, tSnoopShare, tSnoopCopy], ∃ t, svc.Admits { form := fun p => p.ofType typ } 0 (memPkt typ 0 0x40) t) ∧
    (let s : State := { svc with dir := [(0, { lines := [(64, { trans := .mx 0 4 none })] })] }
     (s.line 0 64).trans.waits = true ∧ (s.line 0 65).trans.waits = false) ∧
    ((svc.slice 0).walking = false) ∧
    (let s : State := { svc with dir := [(0, { walking := true })] }
     (s.slice 0).walking = true ∧ ((s.walkLog 0).slice 0).walkPending = false) ∧
    (let s : State := { svc with dir := [(0, { walking := true, walkPending := true })] }
     (s.slice 0).walking = true ∧ ((s.walkLog 0).slice 0).walkPending = true) := by
  refine ⟨?_, by decide +kernel, by decide +kernel, by decide +kernel, by decide +kernel⟩
  intro typ h
  fin_cases h <;> exact ⟨_, sealed (k := 99) (by decide +kernel) rfl⟩

theorem meets_SnoopsAndPartnersAct_gathers :
    (∃ (s : State) (g : Gather), s.ecc.gathers[0]? = some g ∧ g.ask = [] ∧ g.awaited = []) ∧
    (∃ (s : State) (g : Gather), s.ecc.gathers[0]? = some g ∧ (g.ask ≠ [] ∨ g.awaited ≠ [])) ∧
    (∀ formed, ∃ (s : State) (h : HeldWrite), s.ecc.held[0]? = some h ∧ h.formed = formed ∧ h.out = none ∧
      (s.prot? h.ext).any (·.forwards) = true) ∧
    ∀ rep, ∃ (s : State) (q : Prot), s.prot? 20 = some q ∧ q.replacement = rep ∧ q.st = .rebuilding ∧ (s.extent 20).st = .active ∧
      s.gatherAt 20 q.next = none := by
  refine ⟨⟨{ ecc := { gathers := [{ ext := 20, off := 0, pos := 0, want := .rebuild, ask := [], acc := [], startAt := 0 }] } }, _, rfl, rfl, rfl⟩,
    ⟨{ ecc := { gathers := [{ ext := 20, off := 0, pos := 0, want := .rebuild, ask := [1], acc := [], startAt := 0 }] } }, _, rfl, .inl (by decide)⟩,
    fun b => ⟨{ stripeOf 0 with ecc := { (stripeOf 0).ecc with held := [{ who := none, ext := 20, pa := 0x200000, formed := b }] } },
      _, rfl, rfl, rfl, by cases b <;> decide +kernel⟩,
    fun b => ⟨stripeOf 0 1 { st := .rebuilding, replacement := b }, _, rfl, rfl, rfl, by cases b <;> decide +kernel, by cases b <;> decide +kernel⟩⟩

theorem meets_RodsIssueOrStop :
    (let job : Option (Nat × Nat × Nat) := some (1, 0, 0)
     svc.rodReady 0 = false ∧
     (let s := running { pc := 0x80000 }
      s.rodReady 0 = true ∧ 0x80000 ≤ ((s.fetched 0).rod 0).regs.pc) ∧
     (let s := running { pc := 0x7FFF8 } { st := .running, ctx := 5, job := job, badLines := [0x1FFF] }
      s.rodReady 0 = true ∧ ((s.fetched 0).rod 0).regs.pc < 0x80000 ∧
        badAt ((s.fetched 0).rod 0).badLines ((s.fetched 0).rod 0).regs.pc 8 = true) ∧
     (∀ op ∈ [0x01, 0x15, 0x73, 0xFF], let s := at_ op {} { pc := 0x7FFF8 }
      s.rodReady 0 = true ∧ ((s.fetched 0).rod 0).regs.pc < 0x80000 ∧
        badAt ((s.fetched 0).rod 0).badLines ((s.fetched 0).rod 0).regs.pc 8 = false ∧ ((s.fetched 0).rod 0).word / 2 ^ 56 = op)) ∧
    (∀ x ∈ rodRows, IssuesAt (at_ x.1 { rsv := 1 } { pc := 8 }) x.1 { rsv := 1 } (fun _ => True)) ∧
    ((svc.rod 0).upsets = [] ∧ (svc.rod 0).regs.eS = 0 ∧ (svc.rod 0).regs.eV = 0 ∧ (svc.rod 0).regs.eAcc = 0 ∧ (svc.rod 0).regs.eD = 0 ∧
      svc.checkOf 0 = none) ∧
    (0x15 ∉ rodRows.map (·.1) ∧ 0x73 ∉ rodRows.map (·.1)) := by
  refine ⟨by decide +kernel, ?_, by decide +kernel, by decide +kernel⟩
  intro x hx
  refine issuesAt ?_ trivial
  have h : ∀ op ∈ rodRows.map (·.1), (at_ op { rsv := 1 } { pc := 8 }).rodReady 0 = true ∧
      (((at_ op { rsv := 1 } { pc := 8 }).fetched 0).rod 0).regs.pc < 0x80000 ∧
      badAt (((at_ op { rsv := 1 } { pc := 8 }).fetched 0).rod 0).badLines (((at_ op { rsv := 1 } { pc := 8 }).fetched 0).rod 0).regs.pc 8 = false ∧
      (((at_ op { rsv := 1 } { pc := 8 }).fetched 0).rod 0).word / 2 ^ 56 = op ∧
      RodWord.ofBits (((at_ op { rsv := 1 } { pc := 8 }).fetched 0).rod 0).word = { rsv := 1 } := by decide +kernel
  exact h x.1 (List.mem_map_of_mem hx)

theorem meets_ScalarInstructionsAct_results :
    (∀ op ∈ [0x01, 0x02, 0x03, 0x04, 0x05, 0x06, 0x07, 0x08, 0x0A], ∀ n ∈ [63, 64],
      let w : RodWord := { d := 31, a := 1, b := 2 }
      IssuesAt (at_ op w { s := [(2, n)] }) op w (fun u => w.rsv + w.fa + w.fb = 0 ∧ (u.rod 0).regs.operand w = some (n, false))) ∧
    (∀ op ∈ [0x01, 0x06, 0x08], ∀ w ∈ [({ b := 2, imm := 1 } : RodWord), { fa := 1 }, { fb := 1 }], IssuesAt (at_ op w) op w (fun _ =>
      w.b ≠ 0 ∧ w.imm ≠ 0 ∨ w.fa ≠ 0 ∨ w.fb ≠ 0)) ∧
    (∀ w ∈ [({ d := 3, imm := 1 } : RodWord), { a := 1 }], IssuesAt (at_ 0x09 w) 0x09 w (fun _ => True)) ∧
    (∀ w ∈ [({ d := 3 } : RodWord), { imm := 1 }], IssuesAt (at_ 0x14 w) 0x14 w (fun _ => True)) ∧
    (∃ w : RodWord, w.b = 0 ∧ w.imm ≠ 0) ∧ (∃ w : RodWord, w.b ≠ 0 ∧ w.imm = 0) := by
  refine ⟨?_, ?_, ?_, ?_, ⟨{ imm := 1 }, by decide⟩, ⟨{ b := 31 }, by decide⟩⟩
  all_goals intro x hx
  all_goals fin_cases hx
  all_goals first
    | exact issuesAt (by decide +kernel) trivial
    | (intro y hy; fin_cases hy <;> exact issuesAt (by decide +kernel) (by decide +kernel))

theorem meets_ScalarInstructionsAct_scratch :
    (∀ op ∈ [0x00, 0x71], IssuesAt (at_ op {}) op {} (fun _ => True) ∧ IssuesAt (at_ op { d := 1 }) op { d := 1 } (fun _ => True)) ∧
    (∀ a ∈ [0x7FFF9, 0x7FFF8, 0x7FFF1], let w : RodWord := { a := 1 }
      let g : RodRegs := { s := [(1, a)], codeBytes := 8 }
      IssuesAt (at_ 0x10 w g) 0x10 w (fun u => w.rsv + (w.b + w.fa + w.fb + w.imm) = 0 ∧ bit (u.rod 0).regs.pS 1 = false ∧ (u.rod 0).regs.getS 1 = a) ∧
      IssuesAt (at_ 0x11 w g) 0x11 w (fun u => w.rsv + (w.d + w.fa + w.fb + w.imm) = 0 ∧ bit (u.rod 0).regs.pS 1 = false ∧
        (u.rod 0).regs.getS 1 = a ∧ (u.rod 0).regs.codeBytes ≤ a)) ∧
    (let w : RodWord := { a := 1 }
     let g : RodRegs := { s := [(1, 0)], codeBytes := 1 }
     IssuesAt (at_ 0x11 w g) 0x11 w (fun u => (u.rod 0).regs.getS 1 < (u.rod 0).regs.codeBytes)) ∧
    (∀ op ∈ [0x10, 0x11, 0x12, 0x13], IssuesAt (at_ op { fa := 1 }) op { fa := 1 } (fun _ => True) ∧
      IssuesAt (at_ op { a := 1 } { pS := 2 }) op { a := 1 } (fun u => bit (u.rod 0).regs.pS 1 = true)) ∧
    svc.checkOf 0 = none := by
  refine ⟨?_, ?_, issuesAt (by decide +kernel) (by decide +kernel), ?_, by decide +kernel⟩
  all_goals
    intro x hx
    fin_cases hx <;> exact ⟨issuesAt (by decide +kernel) (by decide +kernel), issuesAt (by decide +kernel) (by decide +kernel)⟩

theorem meets_ScalarInstructionsAct_control :
    (∀ n ∈ [0, 1], let w : RodWord := { a := 1, imm := 65535 }
      let g : RodRegs := { s := [(1, n)] }
      IssuesAt (at_ 0x12 w g) 0x12 w (fun u => w.rsv + (w.d + w.b + w.fa + w.fb) = 0 ∧ bit (u.rod 0).regs.pS 1 = false ∧ (u.rod 0).regs.getS 1 = n) ∧
      IssuesAt (at_ 0x13 w g) 0x13 w (fun u => w.rsv + (w.d + w.b + w.fa + w.fb + w.imm / 65536) = 0 ∧ bit (u.rod 0).regs.pS 1 = false ∧
        (u.rod 0).regs.getS 1 = n ∧ w.imm % 65536 ≠ 0)) ∧
    (let w : RodWord := { a := 1 }
     IssuesAt (at_ 0x13 w { s := [(1, 1)] }) 0x13 w (fun u => (u.rod 0).regs.getS 1 ≠ 0 ∧ w.imm % 65536 = 0)) ∧
    (let w : RodWord := { imm := 65536 }
     IssuesAt (at_ 0x13 w) 0x13 w (fun _ => w.rsv + (w.d + w.b + w.fa + w.fb + w.imm / 65536) ≠ 0)) := by
  refine ⟨?_, issuesAt (by decide +kernel) (by decide +kernel), issuesAt (by decide +kernel) (by decide +kernel)⟩
  intro x hx
  fin_cases hx <;> exact ⟨issuesAt (by decide +kernel) (by decide +kernel), issuesAt (by decide +kernel) (by decide +kernel)⟩

/-- The accumulator instructions, with their operands. -/
theorem meets_MatrixInstructionsAct :
    (∀ n ∈ [0, 0x1FFFF], let w : RodWord := { imm := n }
      IssuesAt (at_ 0x20 w) 0x20 w (fun _ => w.rsv + (w.d + w.a + w.b + w.fa + w.fb + w.imm / 2 ^ 17) = 0)) ∧
    (∀ op ∈ [0x20, 0x23, 0x24], IssuesAt (at_ op { d := 1 }) op { d := 1 } (fun _ => True)) ∧
    (∀ a ∈ [0x7F801, 0x7F800, 0x7F7FF], let w : RodWord := { a := 1 }
      let g : RodRegs := { s := [(1, a)], codeBytes := 8 }
      IssuesAt (at_ 0x23 w g) 0x23 w (fun u => w.rsv + (w.d + w.b + w.fa + w.fb + w.imm / 2) = 0 ∧ bit (u.rod 0).regs.pS 1 = false ∧
        (u.rod 0).regs.getS 1 = a ∧ (u.rod 0).regs.codeBytes ≤ a) ∧
      IssuesAt (at_ 0x24 w g) 0x24 w (fun u => w.rsv + (w.d + w.b + w.fa + w.fb + w.imm) = 0 ∧ bit (u.rod 0).regs.pS 1 = false ∧
        (u.rod 0).regs.getS 1 = a)) ∧
    (∀ op ∈ [0x23, 0x24], IssuesAt (at_ op { a := 1 } { pS := 2 }) op { a := 1 } (fun u => bit (u.rod 0).regs.pS 1 = true)) ∧
    (let w : RodWord := { a := 1 }
     IssuesAt (at_ 0x24 w { s := [(1, 128)] }) 0x24 w (fun u => ((u.rod 0).records 128).isSome = true)) ∧
    (∃ r : Rod, r.records 0 = none) := by
  refine ⟨?_, ?_, ?_, ?_, issuesAt (by decide +kernel) (by decide +kernel), ⟨{ scratch := [(80, 0xFF)] }, by decide +kernel⟩⟩
  all_goals
    intro x hx
    fin_cases hx <;> first
      | exact issuesAt (by decide +kernel) (by decide +kernel)
      | exact ⟨issuesAt (by decide +kernel) (by decide +kernel), issuesAt (by decide +kernel) (by decide +kernel)⟩

theorem meets_MatrixInstructionsAct_mmv :
    let m (u : State) (w : RodWord) : Mmv :=
      { a := (u.rod 0).regs.getS w.a, b := (u.rod 0).regs.getS w.b, fa := w.fa, fb := w.fb, k := min (mmvK w.fa) (mmvK w.fb), mx := bit w.imm 16
        scale := if bit w.imm 16 then (u.rod 0).regs.getS w.d else 0 }
    let poisoned (u : State) (w : RodWord) := bit (u.rod 0).regs.pS w.a || bit (u.rod 0).regs.pS w.b || (bit w.imm 16 && bit (u.rod 0).regs.pS w.d)
    IssuesAt (at_ 0x21 {}) 0x21 {} (fun _ => mmvOk {} = false) ∧
    (let w : RodWord := { fa := 9, fb := 9, imm := 1, b := 1 }
     IssuesAt (at_ 0x21 w { s := [(1, 128)] }) 0x21 w (fun u => mmvOk w = true ∧ poisoned u w = false ∧ mmvFault (m u w) (w.imm % 65536) = none) ∧
     IssuesAt (at_ 0x21 w { s := [(1, 0x7FFF8)] }) 0x21 w (fun u => mmvOk w = true ∧ poisoned u w = false ∧ mmvFault (m u w) (w.imm % 65536) = some 2) ∧
     IssuesAt (at_ 0x21 w { pS := 2 }) 0x21 w (fun u => mmvOk w = true ∧ poisoned u w = true)) ∧
    (let w : RodWord := { fa := 0xE, fb := 0xE, imm := 1, b := 1 }
     IssuesAt (at_ 0x21 w { s := [(1, 128)] }) 0x21 w (fun u => mmvOk w = true ∧ poisoned u w = false ∧ mmvFault (m u w) (w.imm % 65536) = none)) ∧
    (let w : RodWord := { fa := 5, fb := 5, imm := 65537, d := 2, b := 1 }
     IssuesAt (at_ 0x21 w { s := [(1, 512), (2, 256)] }) 0x21 w (fun u => mmvOk w = true ∧ poisoned u w = false ∧ mmvFault (m u w) (w.imm % 65536) = none) ∧
     IssuesAt (at_ 0x21 w { s := [(1, 512), (2, 16)] }) 0x21 w (fun u => mmvOk w = true ∧ poisoned u w = false ∧ mmvFault (m u w) (w.imm % 65536) = some 3)) := by
  refine ⟨?_, ⟨?_, ?_, ?_⟩, ?_, ?_, ?_⟩ <;> exact issuesAt (by decide +kernel) (by decide +kernel)

theorem meets_MatrixInstructionsAct_drain :
    (∀ w ∈ [({ fa := 0xE } : RodWord), { fb := 9 }, { fb := 9, imm := 80 }],
      IssuesAt (at_ 0x22 w { step := 0xFFFFE }) 0x22 w (fun u => drainOk w = true ∧ drawSpent (u.rod 0).regs (immMode w.imm) = false)) ∧
    (let w : RodWord := { fb := 9, imm := 80 }
     IssuesAt (at_ 0x22 w { step := 0xFFFFF }) 0x22 w (fun u => drawSpent (u.rod 0).regs (immMode w.imm) = true)) ∧
    (let w : RodWord := { fa := 1 }
     IssuesAt (at_ 0x22 w) 0x22 w (fun _ => drainOk w = false)) := by
  refine ⟨?_, issuesAt (by decide +kernel) (by decide +kernel), issuesAt (by decide +kernel) (by decide +kernel)⟩
  intro w hw
  fin_cases hw <;> exact issuesAt (by decide +kernel) (by decide +kernel)
theorem meets_VectorInstructionsAct_scratch :
    (∃ (f n : Nat) (l : List Nat), f < 15 ∧ n < l.length ∧ l.length ≤ 1024 / fmtWidth f) ∧
    (((running).rod 0).skip ≤ ((running).rod 0).writes ∧ ((running).rod 0).st ≠ .checking ∧ ((running).frame 0).check = none) ∧
    (∀ op ∈ [0x40, 0x41, 0x42, 0x43], IssuesAt (at_ op { fa := 1 }) op { fa := 1 } (fun _ => True) ∧
      IssuesAt (at_ op { a := 1 } { pS := 2 }) op { a := 1 } (fun u => bit (u.rod 0).regs.pS 1 = true)) ∧
    (∀ a ∈ [0x7FF81, 0x7FF80, 0x7FF79], let w : RodWord := { a := 1 }
      let g : RodRegs := { s := [(1, a)], codeBytes := 8 }
      IssuesAt (at_ 0x40 w g) 0x40 w (fun u => bit (u.rod 0).regs.pS 1 = false ∧ (u.rod 0).regs.getS 1 = a) ∧
      IssuesAt (at_ 0x41 w g) 0x41 w (fun u => bit (u.rod 0).regs.pS 1 = false ∧ (u.rod 0).regs.getS 1 = a ∧ (u.rod 0).regs.codeBytes ≤ a)) := by
  refine ⟨⟨9, 31, List.replicate 32 0, by decide⟩, by decide +kernel, ?_, ?_⟩
  all_goals
    intro x hx
    fin_cases hx <;> exact ⟨issuesAt (by decide +kernel) (by decide +kernel), issuesAt (by decide +kernel) (by decide +kernel)⟩

theorem meets_VectorInstructionsAct_frame :
    let w : RodWord := { a := 1 }
    let g (a : Nat) : RodRegs := { s := [(1, a)] }
    let zeroing : State := { at_ 0x42 w (g 0) with frames := [(0, { zeroing := [0] })] }
    (∀ op ∈ [0x42, 0x43],
      IssuesAt (at_ op w (g 0xFF81)) op w (fun u => u.rehear 0 = none ∧ (u.fbOpen 0 5 0xFF81 128).2 = .bounds) ∧
      IssuesAt (at_ op w (g 0xFF80)) op w (fun u => u.rehear 0 = none ∧ (u.fbOpen 0 5 0xFF80 128).2 = .open_ 0xFF80)) ∧
    IssuesAt zeroing 0x42 w (fun u => u.rehear 0 = none ∧ (u.fbOpen 0 5 0 128).2 = .wait) ∧
    (let s : State := { at_ 0x42 w (g 0) with rods := [(0, { (at_ 0x42 w (g 0)).rod 0 with replay := [(zeroBytes 128, false)] })] }
     IssuesAt s 0x42 w (fun u => (u.rehear 0).isSome = true)) := by
  refine ⟨?_, issuesAt (by decide +kernel) (by decide +kernel), issuesAt (by decide +kernel) (by decide +kernel)⟩
  intro x hx
  fin_cases hx <;> exact ⟨issuesAt (by decide +kernel) (by decide +kernel), issuesAt (by decide +kernel) (by decide +kernel)⟩

/-- Words of the lane instructions that are legal, and ones that are not. -/
theorem meets_VectorInstructionsAct_arithmetic :
    (∀ op ∈ [0x48, 0x49, 0x4E],
      IssuesAt (at_ op { fa := 9, imm := 80 } { step := 0xFFFFE }) op { fa := 9, imm := 80 } (fun u =>
        arithFormat 9 = true ∧ roundImmOk 80 = true ∧ immOp 80 = 0 ∧ immMode 80 = 5 ∧ drawSpent (u.rod 0).regs 5 = false) ∧
      IssuesAt (at_ op { fa := 9, imm := 80 } { step := 0xFFFFF }) op { fa := 9, imm := 80 } (fun u => drawSpent (u.rod 0).regs 5 = true)) ∧
    (∀ op ∈ [0x4A, 0x4B, 0x4D], IssuesAt (at_ op {}) op {} (fun _ => True) ∧ IssuesAt (at_ op { imm := 1 }) op { imm := 1 } (fun _ => True)) ∧
    (∀ n ∈ [4, 5], IssuesAt (at_ 0x4C { imm := n }) 0x4C { imm := n } (fun _ => True)) ∧
    (∀ n ∈ [0, 1], IssuesAt (at_ 0x54 { imm := n }) 0x54 { imm := n } (fun _ => True)) ∧
    (∀ w ∈ [({ imm := 1 } : RodWord), { fa := 9 }, { fa := 9, b := 1 }], IssuesAt (at_ 0x53 w) 0x53 w (fun u =>
      roundImmOk w.imm = true ∧ drawSpent (u.rod 0).regs (immMode w.imm) = false)) ∧
    (let w : RodWord := { fa := 0xA, fb := 0xD, imm := 65536 }
     (cvtOk w = true ∧ smallFloat w.fa = true ∧ smallFloat w.fb = true ∧ immP w.imm = 1) ∧
     ∀ op ∈ [0x50, 0x51, 0x52], IssuesAt (at_ op w) op w (fun u => drawSpent (u.rod 0).regs (immMode w.imm) = false)) ∧
    (∀ op ∈ [0x50, 0x51, 0x52], IssuesAt (at_ op { fa := 15 }) op { fa := 15 } (fun _ => cvtOk { fa := 15 } = false ∨ ¬(15 < 0xF))) := by
  refine ⟨?_, ?_, ?_, ?_, ?_, ⟨by decide, ?_⟩, ?_⟩
  all_goals
    intro x hx
    fin_cases hx <;> first
      | exact issuesAt (by decide +kernel) (by decide +kernel)
      | exact ⟨issuesAt (by decide +kernel) (by decide +kernel), issuesAt (by decide +kernel) (by decide +kernel)⟩

/-- Rod 0 at a stream instruction of local stream `sid`, having made `n` elements at that end. -/
def streaming (op sid n : Nat) (str : StreamSt := {}) : State :=
  at_ op { imm := sid } { cursors := [(sid, { valid := true, send := op == 0x61, count := n })] } str

theorem meets_StreamsAndTilesAct_streams :
    (∀ op ∈ [0x60, 0x61],
      IssuesAt (at_ op { imm := 32 }) op { imm := 32 } (fun _ => True) ∧
      IssuesAt (at_ op { imm := 31 }) op { imm := 31 } (fun u => u.streamOf (u.rod 0) 31 (op == 0x61) = none)) ∧
    (∀ n ∈ [1, 2], IssuesAt (streaming 0x61 3 n) 0x61 { imm := 3 } (fun u => u.streamOf (u.rod 0) 3 true = some (1, 0) ∧
      (tblGet? u.jobs 1).any (fun x => x.ringSize 0 == 2) = true ∧ (u.stream 1 0).taken = 0 ∧
        (tblGet (u.rod 0).regs.cursors 3 {}) = { valid := true, send := true, count := n })) ∧
    IssuesAt (streaming 0x61 3 1) 0x61 { imm := 3 } (fun u => (u.ringOpen 1 0 1).2 = (0, .open_ 128)) ∧
    (∀ str ∈ [({ closed := some 0 } : StreamSt), {}, { written := 1 }], IssuesAt (streaming 0x60 4 0 str) 0x60 { imm := 4 } (fun u =>
      u.rehear 0 = none ∧ u.streamOf (u.rod 0) 4 false = some (1, 0) ∧ u.stream 1 0 = str ∧
        (tblGet (u.rod 0).regs.cursors 4 {}) = { valid := true, send := false, count := 0 })) ∧
    IssuesAt (streaming 0x60 4 0 { written := 1 }) 0x60 { imm := 4 } (fun u => (u.ringOpen 1 0 0).2 = (0, .open_ 0)) := by
  refine ⟨?_, ?_, issuesAt (by decide +kernel) (by decide +kernel), ?_, issuesAt (by decide +kernel) (by decide +kernel)⟩
  all_goals
    intro x hx
    fin_cases hx <;> first
      | exact issuesAt (by decide +kernel) (by decide +kernel)
      | exact ⟨issuesAt (by decide +kernel) (by decide +kernel), issuesAt (by decide +kernel) (by decide +kernel)⟩

/-- Rod 0 at an instruction, in a state of its own. -/
def at_in (op : Nat) (f : Rod → Rod) : State := { at_ op {} with rods := [(0, f ((at_ op {}).rod 0))] }

theorem meets_StreamsAndTilesAct_tiles :
    (∀ op ∈ [0x70, 0x72], IssuesAt (at_ op {}) op {} (fun u => u.runsVote 0 = false ∧ (u.rod 0).stopping = false ∧ u.wantsThird 0 = false ∧
        (u.rod 0).st ≠ .toTileEnd) ∧
      IssuesAt (at_ op { d := 1 }) op { d := 1 } (fun _ => True)) ∧
    IssuesAt (at_in 0x72 fun r => { r with stopping := true }) 0x72 {} (fun u => (u.rod 0).stopping = true) ∧
    IssuesAt (at_in 0x72 fun r => { r with st := .toTileEnd }) 0x72 {} (fun u => u.wantsThird 0 = false ∧ (u.rod 0).st = .toTileEnd) ∧
    ((running).rod 0).poisonTile = false ∧
    (((running).frame 0).check = none ∧ ((running).rod 0).stopping = false ∧ ((running).rod 0).st = .running ∧
      (running).wantsThird 0 = false ∧ ((running).frame 0).request = none) ∧
    (∃ s : State, (s.rod 0).wait.isSome = true ∧ (s.setRod 0 { s.rod 0 with wait := none }).rodReady 0 = true) ∧
    (∃ s : State, (s.rod 0).wait.isSome = true ∧ (s.setRod 0 { s.rod 0 with wait := none }).rodReady 0 = false) := by
  refine ⟨?_, issuesAt (by decide +kernel) (by decide +kernel), issuesAt (by decide +kernel) (by decide +kernel), by decide +kernel,
    by decide +kernel, ⟨running {} { st := .running, ctx := 5, job := some (1, 0, 0), wait := some ({}, true) }, by decide +kernel⟩,
    ⟨{ rods := [(0, { wait := some ({}, true) })] }, by decide +kernel⟩⟩
  intro x hx
  fin_cases hx <;> exact ⟨issuesAt (by decide +kernel) (by decide +kernel), issuesAt (by decide +kernel) (by decide +kernel)⟩

/-- Frame 0 with entries for contexts 5 and 6, entry 1 current. -/
def shared : State :=
  { running with active := cfgPut (cfgPut running.active 0x100070 0x80060001) 0x100074 0x01000102
                 frames := [(0, { cur := some 1 })] }
/-- Rod 0 of frame 0 in a state of its own. -/
def rodIn (r : Rod) : State := running {} r
/-- Rod 0 whose record lies at VA 0 of context 5's mapped memory. -/
def mappedRod (r : Rod) : State := { hit with active := running.active, rods := [(0, r)], jobs := running.jobs }
/-- A check of logical rod 0 of frame 0, its third rod in a state. -/
def underVote (k : Check) (third : Rod := {}) (r : Rod := {}) : State := { running {} r with frames := [(0, { check := some k })], rods := [(0, r), (1, third)] }

theorem meets_SlicesAndVotesAct_slices :
    (({} : State).clocked .frm 0 = false) ∧
    (running.clocked .frm 0 = true ∧ (running.frame 0).cur ≠ running.currentAt 0 running.tick.count ∧
      running.dueBefore running.tick.count 9 = false) ∧
    (let s : State := { running with cc := { swap := some (1, 1000) } }
     s.clocked .frm 0 = true ∧ (s.frame 0).cur ≠ s.currentAt 0 s.tick.count ∧ s.dueBefore s.tick.count 9 = true) ∧
    (shared.clocked .frm 0 = true ∧ (shared.frame 0).cur = shared.currentAt 0 shared.tick.count ∧
      shared.nextBoundary 0 shared.tick.count = some 2000 ∧ shared.dueBefore 2000 9 = false) ∧
    (let s : State := { shared with cc := { swap := some (1, 1500) } }
     (s.frame 0).cur = s.currentAt 0 s.tick.count ∧ s.nextBoundary 0 s.tick.count = some 2000 ∧ s.dueBefore 2000 9 = true) ∧
    ((svc.frame 0).cur = svc.currentAt 0 svc.tick.count ∧ svc.nextBoundary 0 svc.tick.count = none) ∧
    (running.inVote 0 = false ∧ running.checkOf 0 = none ∧ (running.rod 0).st = .running ∧ (running.rod 0).regs.halted = false ∧
      (running.rod 0).wait = none) ∧
    (let s := running { halted := true } { st := .running }
     s.inVote 0 = false ∧ s.checkOf 0 = none ∧ (s.rod 0).st = .running ∧ (s.rod 0).regs.halted = true) ∧
    ((rodIn { st := .toTileEnd }).inVote 0 = false ∧ ((rodIn { st := .toTileEnd }).rod 0).st = .toTileEnd) ∧
    (∃ k : Check, (underVote k).voting 0 = true) := by
  refine ⟨by decide +kernel, by decide +kernel, by decide +kernel, by decide +kernel, by decide +kernel, by decide +kernel,
    by decide +kernel, by decide +kernel, by decide +kernel, { logical := 0, snapshot := {}, phase := 3 }, by decide +kernel⟩

theorem meets_SlicesAndVotesAct_switch :
    (let s := mappedRod { st := .saving, ctx := 5, home := some (0, 0) }
     s.clocked .rod 0 = true ∧ (s.rod 0).st = .saving ∧ (s.saveRod 0).2 = .done) ∧
    ((running {} { st := .saving, ctx := 5, home := some (0, 0) }).saveRod 0).2 = .failed 3 false 0 ∧
    (let s := rodIn { st := .zeroing, leaving := true }
     s.clocked .rod 0 = true ∧ (s.rod 0).st = .zeroing ∧ (s.rod 0).leaving = true) ∧
    (let s := rodIn { st := .zeroing, incoming := some 0 }
     (s.rod 0).leaving = false ∧ s.standIn 0 = none ∧ s.logicalOf 0 = some 0 ∧ s.entValid 0 0 = true ∧ (s.ctx (s.entCtx 0 0)).st = .active ∧
       s.jobAt 0 (s.entCtx 0 0) 0 = some (1, 0, 0)) ∧
    (let s : State := { rodIn { st := .zeroing, incoming := some 0 } with frames := [(0, { request := some (0, 2) })] }
     (s.rod 0).leaving = false ∧ s.standIn 0 = some (0, 2)) ∧
    ((rodIn { st := .restoring }).rod 0).home = none ∧
    (let s := mappedRod { st := .restoring, ctx := 5, home := some (0, 0) }
     let read := s.unitReads 0 (rodTag 0) 5 0 128
     s.clocked .rod 0 = true ∧ read.2.2 = .done ∧ read.1.standIn 0 = none) ∧
    ((running {} { st := .restoring, ctx := 5, home := some (0, 0) }).unitReads 0 (rodTag 0) 5 0 128).2.2 = .failed 3 false 0 := by
  refine ⟨by decide +kernel, by decide +kernel, by decide +kernel, by decide +kernel, by decide +kernel, by decide +kernel,
    by decide +kernel, by decide +kernel⟩

theorem leBytes_length (n v : Nat) : (leBytes n v).length = n := by
  induction n generalizing v with
  | zero => rfl
  | succ n ih => simp [leBytes, ih]

/-- A record names the module's own IDREV. -/
theorem record_idrev (g : RodRegs) : field g.record 4 4 = idrev := by
  have h : idrev < 256 ^ 4 := by
    have := Config.rev.isLt
    have := Config.stepping.isLt
    unfold idrev
    omega
  unfold field RodRegs.record
  simp only [List.append_assoc]
  rw [List.drop_left' (leBytes_length 4 1), List.take_left' (leBytes_length 4 idrev), leNat_leBytes, Nat.mod_eq_of_lt h]

/-- Records that a restore refuses and takes: the one a rod without job has written. -/
theorem meets_SlicesAndVotesAct_restored :
    let l (g : RodRegs) : List (List Byte × Bool) := [(g.record, false)]
    let b (x : List (List Byte × Bool)) := (x.take 128).flatMap (·.1)
    (field (b []) 0 4 ≠ 1) ∧
    (field (b (l {})) 0 4 = 1 ∧ ((l {}).take 128).any (·.2) = false ∧
      cursorsAgree [] (RodRegs.ofRecord (b (l {}))).cursors = true ∧ (rodIn { st := .restoring }).logicalOf 0 = some 0 ∧
      ({ svc with frames := [(0, { spareFor := some 0 })] } : State).logicalOf 0 = none) ∧
    field (b (l {})) 4 4 = idrev ∧
    (let g : RodRegs := { cursors := [(3, { valid := true, send := true, count := 0 })] }
     cursorsAgree [] (RodRegs.ofRecord (b (l g))).cursors = false) ∧
    ((rodIn { st := .saving, switching := true }).rod 0).stepping = false := by
  refine ⟨by decide +kernel, by decide +kernel, ?_, by decide +kernel, rfl⟩
  show field (List.flatMap (fun x => x.1) [(({} : RodRegs).record, false)]) 4 4 = idrev
  rw [List.flatMap_singleton]
  exact record_idrev {}

theorem meets_SlicesAndVotesAct_votes :
    let differs (s : State) (k : Check) : Prop := k.phase = 1 ∧ (k.produced < k.made ∨ s.atTileEnd (s.physRod 0 k.logical) = true)
    let k1 : Check := { logical := 0, snapshot := {}, made := 1 }
    let k0 : Check := { logical := 0, snapshot := {} }
    differs (underVote k1) k1 ∧
    differs { at_ 0x70 {} with frames := [(0, { check := some k0 })] } k0 ∧ ¬differs (underVote k0) k0 ∧
    ((underVote { k1 with phase := 3 }).thirdRod 0 0 = some 1 ∧
      ((underVote { k1 with phase := 3 }).rod 1).st = .idle ∧
      ((underVote k1 { st := .running, regs := { halted := true } }).rod 1).st ≠ .idle ∧
      (underVote k1 { st := .running, regs := { halted := true } }).thirdRod 0 0 = some 1) ∧
    ({ underVote k1 with clk := {} } : State).thirdRod 0 0 = none := by
  refine ⟨by decide +kernel, by decide +kernel, by decide +kernel, by decide +kernel, by decide +kernel⟩

/-- The three outcomes of a vote whose third rod is done. -/
theorem meets_SlicesAndVotesAct_outcomes :
    let k (sigR sigS : Nat) : Check :=
      { logical := 0, snapshot := {}, phase := 3, third := some 1, thirdEnd := true, sigR := sigR, sigS := sigS }
    let sig := sigWord (k 0 0).thirdSig
    ((k 0 sig).phase = 3 ∧ (k 0 sig).thirdDone = true ∧ ((underVote (k 0 sig) { st := .checking }).rod 1).st = .checking) ∧
    sig = (k 0 sig).sigS ∧ (sig ≠ (k sig (sig + 1)).sigS ∧ sig = (k sig (sig + 1)).sigR) ∧
    (sig ≠ (k (sig + 1) (sig + 1)).sigS ∧ sig ≠ (k (sig + 1) (sig + 1)).sigR) := by
  refine ⟨by decide +kernel, by decide +kernel, by decide +kernel, by decide +kernel⟩

/-- A placement record of a job without stages, launched at a tick, and a JOB_STEP and a JOB_REMOVE of a job. -/
def placeRec (launch : Nat) (job : Nat := 2) : List Byte := leBytes 2 job ++ zeroBytes 6 ++ leBytes 8 launch ++ zeroBytes 96
def stepBody (job : Nat) : List Byte := leBytes 2 job ++ zeroBytes 22 ++ leBytes 8 (2 ^ 63 + 7)
def removeBody (job : Nat) : List Byte := leBytes 2 job ++ zeroBytes 6
/-- Job 1 waits for its launch tick. -/
def waitsLaunch : State :=
  { svc with jobs := [(1, { ctx := 5, launch := 10000000, places := [(0, [])] })], fns := [(0, { job := 1, index := 0 })] }
/-- The module without the lock of its tick. -/
def unlocked : State := { svc with tick := { svc.tick with locked := false } }
def placePkt (launch : Nat) (ctx : Nat := 5) (job : Nat := 2) : Packet := mgrPkt 0xA2 (placeRec launch job) ctx
/-- A record of a job with one section that lies in no mapping. -/
def sectionRec : List Byte :=
  leBytes 2 2 ++ zeroBytes 6 ++ leBytes 8 100000000 ++ zeroBytes 32 ++ overlay (overlay (zeroBytes 128) 0x10 [1]) 0x48 [64]

set_option maxRecDepth 10000 in
theorem meets_JobsArePlacedAndRun_place :
    let ok (t : State) (v : InSlot) : Prop := 112 ≤ v.pkt.own.length ∧ placeLength v.pkt.own ≤ v.pkt.own.length ∧
      zeros v.pkt.own 2 6 = true ∧ field v.pkt.own 0 2 < 1024 ∧ tblGet? t.jobs (field v.pkt.own 0 2) = none
    let meets (s : State) (p : Packet) (P : State → InSlot → Prop) := CmdMeets s (mgrCmd 0xA2) p (cmdSlot 0xA2 p) P
    let reads (t : State) (v : InSlot) : Prop := ok t v ∧ (t.ctx v.ctx).st = .active ∧
      (t.readSections (jobOfRecord v.ctx v.pkt.own) 0 (mSections (jobOfRecord v.ctx v.pkt.own).manifest)).2 = .ok [] ∧
      badDigest (jobOfRecord v.ctx v.pkt.own).manifest [] = none
    meets svc (placePkt 100000000) (fun t v => reads t v ∧ t.leadTick ≤ (jobOfRecord v.ctx v.pkt.own).launch ∧
      (t.acceptedAt v).2 = true ∧
      (t.writeRecords (jobOfRecord v.ctx v.pkt.own) [] (jobOfRecord v.ctx v.pkt.own).rodsOf).2 = .done) ∧
    meets unlocked (placePkt 100000000) (fun t v => reads t v ∧ t.leadTick ≤ (jobOfRecord v.ctx v.pkt.own).launch ∧
      (t.acceptedAt v).2 = false) ∧
    meets svc (placePkt 0) (fun t v => reads t v ∧ (jobOfRecord v.ctx v.pkt.own).launch < t.leadTick) ∧
    meets svc (placePkt 0 6) (fun t v => ok t v ∧ (t.ctx v.ctx).st ≠ .active) ∧
    meets svc (placePkt 0 5 1024) (fun t v => ¬ok t v) ∧
    meets svc (mgrPkt 0xA2 sectionRec 5) (fun t v => ok t v ∧ (t.ctx v.ctx).st = .active ∧
      (t.readSections (jobOfRecord v.ctx v.pkt.own) 0 (mSections (jobOfRecord v.ctx v.pkt.own).manifest)).2 = .missing 0 0) := by
  refine ⟨?_, ?_, ?_, ?_, ?_, ?_⟩ <;> exact cmSealed (k := 77) (by decide +kernel) rfl (by decide +kernel) (by decide +kernel)

theorem meets_JobsArePlacedAndRun_step :
    let p := ctxPkt 0xA7 (stepBody 1)
    CmdMeets svc (ctxCmd 0xA7) p (cmdSlot 0xA7 p) (fun t v => t.stepCheck v ≠ stOk) ∧
    CmdMeets waitsLaunch (ctxCmd 0xA7) p (cmdSlot 0xA7 p) (fun t v => t.stepCheck v = stOk ∧
      (tblGet? t.jobs (field v.pkt.own 0 2)).any (fun j => (t.writeSteps j.ctx (field v.pkt.own 16 8) j.rodsOf).2 == .done) = true) :=
  ⟨cmSealed (k := 99) (by decide +kernel) rfl (by decide +kernel) (by decide +kernel),
    cmSealed (k := 99) (by decide +kernel) rfl (by decide +kernel) (by decide +kernel)⟩

/-- A slot with a JOB_STEP of a context from an endpoint. -/
def stepSlot (src ctx : Nat) (own : List Byte) : InSlot :=
  { src := src, tag := 9, port := none, pkt := cmdPkt 0xA7 src 16 ctx own, ctx := ctx, key := .clear }

theorem meets_JobsArePlacedAndRun_stepChecks :
    (waitsLaunch.ctx 6).st ≠ .active ∧ (waitsLaunch.ctx 5).st = .active ∧ waitsLaunch.memberOrMgr (stepSlot 7 5 (stepBody 1)) = false ∧
    waitsLaunch.memberOrMgr (stepSlot 4 5 (stepBody 1)) = true ∧ tblGet? waitsLaunch.jobs 3 = none ∧
    (∃ j, tblGet? waitsLaunch.jobs 1 = some j ∧ j.ctx = 5 ∧ j.launched = false ∧ waitsLaunch.leadTick ≤ j.launch) ∧
    (∃ j, tblGet? (running).jobs 1 = some j ∧ j.launched = true) ∧
    zeros (stepBody 1) 2 6 = true ∧ field (stepBody 1) 16 8 % 2 ^ 20 = 0 ∧ bits (field (stepBody 1) 24 8) 62 44 = 0 :=
  ⟨by decide +kernel, by decide +kernel, by decide +kernel, by decide +kernel, rfl, ⟨_, rfl, by decide +kernel⟩, ⟨_, rfl, rfl⟩,
    by decide +kernel, by decide +kernel, by decide +kernel⟩

theorem meets_JobsArePlacedAndRun_launch :
    tblGet? svc.jobs 1 = none ∧
    (∃ j, tblGet? waitsLaunch.jobs 1 = some j ∧ j.launched = false ∧ (waitsLaunch.elapseToTick j.launch).dueBefore j.launch 10 = false ∧
      ∀ q ∈ j.places, ((waitsLaunch.elapseToTick j.launch).frame q.1).cur =
        (waitsLaunch.elapseToTick j.launch).currentAt q.1 (waitsLaunch.elapseToTick j.launch).tick.count) ∧
    (∃ (s : State) (j : Job), tblGet? s.jobs 1 = some j ∧ j.launched = false ∧ (s.elapseToTick j.launch).dueBefore j.launch 10 = true) ∧
    ∃ (s : State) (j : Job), tblGet? s.jobs 1 = some j ∧ j.launched = true :=
  ⟨rfl, ⟨_, rfl, by decide +kernel⟩,
    ⟨armedWith (armedAt 0x08 0xFFFF []) waitsLaunch, _, rfl,
      by decide +kernel⟩, running, _, rfl, rfl⟩

theorem meets_JobsArePlacedAndRun_remove :
    let meets (s : State) (ctx : Nat) (P : State → InSlot → Prop) :=
      let p := mgrPkt 0xA3 (removeBody 1) ctx
      CmdMeets s (mgrCmd 0xA3) p (cmdSlot 0xA3 p) P
    let owns (t : State) (v : InSlot) (mine : Bool) : Prop :=
      (tblGet? t.jobs (field v.pkt.own 0 2)).any (fun j => (j.ctx == v.ctx) == mine) = true ∧ v.pkt.own.length = 8 ∧
        zeros v.pkt.own 2 6 = true
    let inTile (t : State) : Bool := (tblMap t.rods fun _ r => r.stopFor 1).any fun r => (r.2.job.any fun x => x.1 == 1) && r.2.inTile
    meets svc 5 (fun t v => tblGet? t.jobs (field v.pkt.own 0 2) = none) ∧
    meets waitsLaunch 6 (fun t v => owns t v false) ∧
    meets waitsLaunch 5 (fun t v => owns t v true ∧ inTile t = false) ∧
    meets (running) 5 (fun t v => owns t v true ∧ inTile t = true) ∧
    let p := mgrPkt 0xA3 (leBytes 2 1 ++ [1] ++ zeroBytes 5) 5
    CmdMeets waitsLaunch (mgrCmd 0xA3) p (cmdSlot 0xA3 p) (fun t v => (tblGet? t.jobs (field v.pkt.own 0 2)).isSome = true ∧
      zeros v.pkt.own 2 6 = false) := by
  refine ⟨?_, ?_, ?_, ?_, ?_⟩ <;> exact cmSealed (k := 77) (by decide +kernel) rfl (by decide +kernel) (by decide +kernel)

/-- Bodies of JOB_LOAD and JOB_UNLOAD for a target. -/
def loadBody (target : Nat := 1) : List Byte := leBytes 2 target ++ zeroBytes 14
def unloadBody (target : Nat := 1) : List Byte := leBytes 2 target ++ leBytes 2 1 ++ zeroBytes 4

theorem meets_LoaderServesMembers_commands :
    let load (s : State) (b : List Byte) (P : State → InSlot → Prop) :=
      CmdMeets s (ctxCmd 0xA0) (ctxPkt 0xA0 b) (cmdSlot 0xA0 (ctxPkt 0xA0 b)) P
    let unload (s : State) (b : List Byte) (P : State → InSlot → Prop) :=
      CmdMeets s (ctxCmd 0xA1) (ctxPkt 0xA1 b) (cmdSlot 0xA1 (ctxPkt 0xA1 b)) P
    let served (t : State) (v : InSlot) (st : Nat) : Prop := (t.loaderCheck v (field v.pkt.own 0 2)).2 = st
    let ok0 (v : InSlot) : Prop := 8 ≤ v.pkt.own.length ∧ v.pkt.own.length ≤ 16392 ∧ zeros v.pkt.own 2 6 = true ∧ field v.pkt.own 0 2 < 4096
    let ok1 (v : InSlot) : Prop := v.pkt.own.length = 8 ∧ zeros v.pkt.own 4 4 = true ∧ field v.pkt.own 0 2 < 4096
    load svc (loadBody) (fun t v => served t v stUnsupported) ∧ load boss (loadBody) (fun t v => served t v stOk ∧ ok0 v) ∧
    load boss (loadBody 1) (fun t v => t.mgr.role = 2 ∧ field v.pkt.own 0 2 = t.ep) ∧
    load boss (leBytes 2 1 ++ [1] ++ zeroBytes 5) (fun t v => served t v stOk ∧ ¬ok0 v) ∧
    unload svc (unloadBody) (fun t v => served t v stUnsupported) ∧ unload boss (unloadBody) (fun t v => served t v stOk ∧ ok1 v) ∧
    unload boss (unloadBody ++ zeroBytes 8) (fun t v => served t v stOk ∧ ¬ok1 v) := by
  refine ⟨?_, ?_, ?_, ?_, ?_, ?_, ?_⟩ <;> exact cmSealed (k := 99) (by decide +kernel) rfl (by decide +kernel) (by decide +kernel)

/-- A slot with a JOB_LOAD of context 5. -/
def loadSlot (own : List Byte) (src : Nat := 4) : InSlot :=
  { src := src, tag := 9, port := none, pkt := cmdPkt 0xA0 src 16 5 own, ctx := 5, key := .clear }

theorem meets_LoaderServesMembers_check :
    svc.mgr.role ≠ 2 ∧ boss.mgr.role = 2 ∧ boss.ep = 1 ∧ boss.isMember 5 (loadSlot []).src = true ∧
    boss.isMember 5 (loadSlot [] 6).src = false ∧ 2 ≠ boss.ep :=
  ⟨by decide +kernel, by decide +kernel, by decide +kernel, by decide +kernel, by decide +kernel, by decide +kernel⟩

/-- A manifest of one stage, its entry and reply streams, one function and one section, for a module of a REV. -/
def manifest (rev : Nat) (launch : Nat := 10000000) : List Byte :=
  leBytes 4 0xF51210B0 ++ leBytes 2 1 ++ leBytes 2 0x5120 ++ [byte rev, 16] ++ leBytes 2 640 ++ [16, 1, 2, 1, 1] ++ zeroBytes 15 ++
    leBytes 8 launch ++ zeroBytes 8 ++ List.replicate 8 (byte 0xFF) ++ zeroBytes 8 ++
    ([1, 0, 0xFF, 0, 0, 0, 0, 0] ++ leBytes 4 64 ++ [1, 1] ++ zeroBytes 18) ++
    ([0xFE, 0, 0, 0, 0, 3, 0, 0] ++ leBytes 4 1024 ++ zeroBytes 4) ++ ([0, 0, 0xFE, 0, 4, 0, 0, 0] ++ leBytes 4 1024 ++ zeroBytes 4) ++
    ([0, 1, 1, 0, 128, 0, 128, 0] ++ zeroBytes 8) ++ (zeroBytes 8 ++ leBytes 4 64 ++ zeroBytes 52)

theorem manifest_passes : ∀ r < 16, manifestFault (manifest r) r = none := by decide +kernel

/-- The active manager with frames in service, whose context 5 has its entry in frame 0, holding a JOB_LOAD or JOB_UNLOAD. -/
def loads (frames : Nat) (own : List Byte) (ls : List Load := []) (jobs : Tbl Job := []) (fns : Tbl Fn := []) : State :=
  { boss with
    boot := { boss.boot with frameOk := frames }, active := running.active, loads := ls, jobs := jobs, fns := fns
    txn := { boss.txn with slots := [(0, loadSlot own)] } }
def loadOwn : List Byte := leBytes 2 1 ++ zeroBytes 6 ++ manifest Config.rev.toNat

theorem frameOrder_of {s : State} {l : List Nat} (h : idxs 32 (fun f => bit s.boot.frameOk f) = l) (hl : l.length ≤ 1) :
    s.frameOrder = (s.free.2, l) := by
  have h1 : s.free.1 % max 1 l.length = 0 := by rw [Nat.max_eq_left hl, Nat.mod_one]
  show (s.free.2, (idxs 32 fun f => bit s.boot.frameOk f).drop (s.free.1 % max 1 (idxs 32 fun f => bit s.boot.frameOk f).length) ++
    (idxs 32 fun f => bit s.boot.frameOk f).take (s.free.1 % max 1 (idxs 32 fun f => bit s.boot.frameOk f).length)) = _
  rw [h, h1]
  simp

theorem inl_of {α β γ : Type} {x : α × (β ⊕ γ)} (P : α → β → Bool) (h : (match x with | (a, .inl b) => P a b | _ => false) = true) :
    ∃ a b, x = (a, .inl b) ∧ P a b = true := by
  obtain ⟨a, b | c⟩ := x
  · exact ⟨a, b, rfl, h⟩
  · cases h

theorem inr_of {α β γ : Type} {x : α × (β ⊕ γ)} (h : (match x with | (_, .inr _) => true | _ => false) = true) :
    ∃ a c, x = (a, .inr c) := by
  obtain ⟨a, b | c⟩ := x
  · cases h
  · exact ⟨a, c, rfl⟩

set_option maxRecDepth 20000 in
theorem meets_LoaderServesMembers_faults :
    (∃ (s : State) (v : InSlot), s.slot? 0 = some v ∧ field v.pkt.own 0 2 = s.free.2.ep ∧
      manifestFault (v.pkt.own.drop 8) Config.rev.toNat = some (1, 0xFF)) ∧
    (∃ (s : State) (v : InSlot), s.slot? 0 = some v ∧ field v.pkt.own 0 2 = s.free.2.ep ∧
      manifestFault (v.pkt.own.drop 8) Config.rev.toNat = none) ∧
    ∃ (s : State) (v : InSlot), s.slot? 0 = some v ∧ field v.pkt.own 0 2 ≠ s.free.2.ep ∧
      manifestFault (v.pkt.own.drop 8) (known s.free.1 12 0 % 16) = none := by
  have hr : Config.rev.toNat < 16 := Config.rev.isLt
  refine ⟨⟨loads 1 loadBody, _, rfl, by decide +kernel, by decide +kernel⟩,
    ⟨loads 1 loadOwn, _, rfl, by decide +kernel, manifest_passes _ hr⟩,
    ⟨loads 1 (leBytes 2 2 ++ zeroBytes 6 ++ manifest (known (loads 1 []).free.1 12 0 % 16)), _, rfl, by decide +kernel,
      manifest_passes _ (Nat.mod_lt _ (by decide))⟩⟩

theorem meets_LoaderServesMembers_placed :
    (∃ x r, (loads 0 loadOwn).free.2.loadAt (loads 0 loadOwn).free.2.firstHop 0 5 (manifest Config.rev.toNat) = (x, .inr r)) ∧
    (∃ (x : State) (l : Load), (loads 1 loadOwn).free.2.loadAt (loads 1 loadOwn).free.2.firstHop 0 5 (manifest Config.rev.toNat) = (x, .inl l) ∧
      (!x.loadClash l && (x.sendLoadStep { l with todo := [.place] }).2 == stOk) = true) := by
  unfold State.loadAt
  constructor
  · rw [frameOrder_of (l := []) (by decide +kernel) (by decide)]
    exact inr_of (by decide +kernel)
  · rw [frameOrder_of (l := [0]) (by decide +kernel) (by decide)]
    exact inl_of (fun (x : State) (l : Load) => !x.loadClash l && (x.sendLoadStep { l with todo := [.place] }).2 == stOk) (by decide +kernel)

/-- A load that is placing job 1 here, and the completion of its JOB_PLACE. -/
def loadingState (l : Load := { slot := 0, target := 1, job := 1, ctx := 5 }) : State := { boss with loads := [l] }
def placeCmpl (status : Nat := 0) : Packet := { typ := tCmpl, vc := 3, length := 4, dst := 1, form := 7 + status * 2 ^ 12 + 2 ^ 20 }
def placing (ports : Tbl Port := [(0, { st := .up })]) : State :=
  { svc with txn := { svc.txn with outs := [(0, { req := some ({ dst := 1 }, .loader 0 1) })] }, ports := ports }
def placeHome (p : Packet) : State := placing.setQueue selfQueue 0 [{ pkt := p }]

theorem meets_LoaderServesMembers_complete :
    let q := placeCmpl.ofType tCmpl
    let late := ({ placeCmpl with tag := 5 } : Packet).ofType tCmpl
    let big := ({ placeCmpl with length := 5 } : Packet).ofType tCmpl
    let away := ({ placeCmpl with dst := 9 } : Packet).ofType tCmpl
    placing.outMatch late = none ∧
    (∃ o, placing.outMatch q = some (o, { dst := 1 }, .loader 0 1)) ∧
    (∃ u, (placeHome q).takeLocal q = some u ∧ (u.takeCmpl none q).2.isSome = true) ∧
    (∃ u, (placeHome big).takeLocal big = some u ∧ (u.takeCmpl none big).2.isSome = false) ∧
    (placing.takeLocal q = none ∧ placing.portUp 0 = true ∧ q.dst = ((placing.received 0 q none).learn 0 q).ep ∧
      (((placing.received 0 q none).learn 0 q).takeCmpl (some 0) q).2.isSome = true) ∧
    (((placing.received 0 big none).learn 0 big).takeCmpl (some 0) big).2.isSome = false ∧
    away.dst ≠ ((placing.received 0 away none).learn 0 away).ep ∧ (placing []).portUp 0 = false :=
  ⟨by decide +kernel, ⟨_, rfl⟩, ⟨_, rfl, by decide +kernel⟩, ⟨_, rfl, by decide +kernel⟩, by decide +kernel, by decide +kernel,
    by decide +kernel, by decide +kernel⟩

theorem meets_LoaderServesMembers_answers :
    let ans (st : Nat) : Answer := { out := 0, req := { dst := 1 }, what := .loader 0 1, status := st, data := [], poison := false }
    (∃ l, loadingState.answeredLoad (ans stOk) 1 = some l ∧ l.phase = .placing ∧ l.target = loadingState.ep ∧ l.entries = [] ∧ l.windows = []) ∧
    (∃ l, loadingState.answeredLoad (ans stRefusedLoad) 1 = some l ∧ l.phase = .placing) ∧
    stBusy ≠ stOk ∧ stBusy ≠ stRefusedLoad :=
  ⟨⟨_, rfl, rfl, by decide +kernel, rfl, rfl⟩, ⟨_, rfl, rfl⟩, by decide, by decide⟩

theorem meets_LoaderServesMembers_unload :
    let job : Job := { ctx := 5 }
    let held : Load := { phase := .placed, slot := noKey, target := 1, job := 1, ctx := 5 }
    let gone := loads 1 unloadBody [held]
    let off := loads 1 unloadBody [held] [(1, job)] [(7, { job := 1, index := 0, st := .disabled })]
    let on_ := loads 1 unloadBody [held] [(1, job)] [(7, { job := 1, index := 0, st := .enabled })]
    (∃ v, gone.slot? 0 = some v ∧ gone.loadNamed (field v.pkt.own 0 2) 2 v.ctx = none) ∧
    (∃ v l, off.slot? 0 = some v ∧ off.loadNamed 1 1 v.ctx = some l ∧ field v.pkt.own 0 2 = off.ep ∧ field v.pkt.own 2 2 = 1 ∧
      (tblGet? off.jobs 1).any (fun j => j.ctx == v.ctx) = true ∧ l.phase = .placed ∧ off.free.2.unloadable 1 = true ∧
      (match (off.free.2.issue (off.free.2.cmdPacket 0xA3 1 l.ctx (leBytes 2 1 ++ zeroBytes 6)) (off.free.2.mgrKeyRef 1) (.loader 1 1)
        (some l.ctx)).2 with | .sent _ => true | _ => false) = true) ∧
    (∃ v l, on_.slot? 0 = some v ∧ on_.loadNamed 1 1 v.ctx = some l ∧ (tblGet? on_.jobs 1).any (fun j => j.ctx == v.ctx) = true ∧
      on_.free.2.unloadable 1 = false) :=
  ⟨⟨_, rfl, by decide +kernel⟩, ⟨_, _, rfl, rfl, by decide +kernel⟩, ⟨_, _, rfl, rfl, by decide +kernel⟩⟩

def fnIn (st : FnState) (f : Fn := { job := 1, index := 0 }) : State := service { f with st := st }
def fnBody (mode : Nat := 0) : List Byte := leBytes 2 7 ++ byte mode :: zeroBytes 5
/-- A call of 128 bytes, and function 7 with calls of its own. -/
def call128 : Call := { slot := 4, entry := zeroBytes 128 }
def waitingFn (c : Call) (str : Tbl StreamSt := []) (active : RegMap := running.active) : State :=
  { service { job := 1, index := 0, waiting := [c] } with streams := str, active := active }
def pipeFn (c : Call) (str : Tbl StreamSt := [(257, { written := 1 })]) : State :=
  { service { job := 1, index := 0, inPipe := [c] } with streams := str }

theorem meets_FunctionsServeCalls_rows :
    (svc.ctx 6).st ≠ .active ∧ (svc.ctx 5).st = .active ∧ svc.fnOf 7 5 = none ∧
    (∃ f, (service).fnOf ((fnPkt tInvoke []).arg % 1024) 5 = some f ∧ (fnPkt tInvoke []).body.length ≠ fnArgBytes ((service).fnEntryOf f)) ∧
    (∀ st : FnState, ∃ (f : Fn) (p : Packet), (fnIn st).fnOf (p.arg % 1024) 5 = some f ∧ f.st = st ∧
      p.body.length = fnArgBytes ((fnIn st).fnEntryOf f) ∧ f.waiting.length < fnDepth ((fnIn st).fnEntryOf f)) ∧
    (∃ (s : State) (f : Fn) (p : Packet), s.fnOf (p.arg % 1024) 5 = some f ∧ f.st = .enabled ∧
      p.body.length = fnArgBytes (s.fnEntryOf f) ∧ f.waiting.length = fnDepth (s.fnEntryOf f)) := by
  refine ⟨by decide +kernel, by decide +kernel, by decide +kernel, ⟨_, rfl, by decide +kernel⟩, ?_,
    ⟨fnIn .enabled { job := 1, index := 0, waiting := [call128, call128] }, _, fnPkt tInvoke (zeroBytes 128), rfl, by decide +kernel⟩⟩
  intro st
  cases st <;> exact ⟨_, fnPkt tInvoke (zeroBytes 128), rfl, by decide +kernel⟩

set_option maxRecDepth 10000 in
theorem meets_FunctionsServeCalls_admitted :
    (let p := fnPkt tInvoke (zeroBytes 128)
     CmdMeets (service) invokeRules p (invokeRules.slot p) fun t v => (tblGet? t.fns (v.pkt.arg % 1024)).isSome = true) ∧
    (let p := fnPkt tAttend attBody
     CmdMeets (service) attendRules p (attendRules.slot p) fun t v => (t.profile v.ctx).isSome = true) :=
  ⟨cmSealed (k := 99) (by decide +kernel) rfl (by decide +kernel) (by decide +kernel),
    cmSealed (k := 99) (by decide +kernel) rfl (by decide +kernel) (by decide +kernel)⟩

set_option maxRecDepth 10000 in
theorem meets_FunctionsServeCalls_enter :
    let at_ (s : State) (P : Fn → Call → Prop) : Prop := ∃ f c, tblGet? s.fns 7 = some f ∧ f.waiting = [c] ∧ P f c
    let push (s : State) (f : Fn) (c : Call) := s.pushElements f.job (fnEntry (s.fnEntryOf f)) c.entry c.poison 1
    let room (s : State) (f : Fn) := s.ringRoom f.job (fnEntry (s.fnEntryOf f))
    tblGet? svc.fns 7 = none ∧ (∃ f, tblGet? (service).fns 7 = some f ∧ f.waiting = [] ∧ f.inPipe = []) ∧
    at_ (waitingFn call128) (fun f c => c.ready = true ∧ (c.entry.length + 127) / 128 = 1 ∧ 1 ≤ room (waitingFn call128) f ∧
      (push (waitingFn call128) f c).isSome = true) ∧
    at_ (waitingFn call128 [] []) (fun f c => c.ready = true ∧ (c.entry.length + 127) / 128 = 1 ∧
      1 ≤ room (waitingFn call128 [] []) f ∧ push (waitingFn call128 [] []) f c = none) ∧
    at_ (waitingFn call128 [(256, { written := 4 })]) (fun f c => c.ready = true ∧
      room (waitingFn call128 [(256, { written := 4 })]) f < (c.entry.length + 127) / 128) ∧
    at_ (waitingFn { call128 with ready := false }) (fun _ c => c.ready = false) :=
  ⟨by decide +kernel, ⟨_, rfl, rfl, rfl⟩, ⟨_, _, rfl, rfl, by decide +kernel⟩, ⟨_, _, rfl, rfl, by decide +kernel⟩,
    ⟨_, _, rfl, rfl, by decide +kernel⟩, ⟨_, _, rfl, rfl, by decide +kernel⟩⟩

/-- A state with a request in inbound slot 4. -/
def withSlot4 (s : State) : State :=
  { s with txn := { s.txn with slots := [(4, { src := 4, tag := 9, port := none, pkt := fnPkt tInvoke (zeroBytes 128), ctx := 5, key := .clear })] } }

theorem meets_FunctionsServeCalls_replies :
    let c : Call := { call128 with entry := [] }
    let at_ (s : State) (P : Fn → Call → Prop) : Prop := ∃ f c, tblGet? s.fns 7 = some f ∧ f.inPipe = [c] ∧ P f c
    let held (s : State) (f : Fn) : Prop := s.ringHeld f.job (fnReply (s.fnEntryOf f)) ≠ 0
    let r (s : State) (f : Fn) (c : Call) := s.takeReply f c 69632
    let whole (s : State) (f : Fn) (c : Call) : Prop := (r s f c).1.replyNeed f (r s f c).2 ≤ (r s f c).2.reply.length / 128
    at_ (pipeFn c []) (fun f _ => ¬held (pipeFn c []) f ∧ ((pipeFn c []).stream f.job (fnReply ((pipeFn c []).fnEntryOf f))).closed = none) ∧
    at_ (pipeFn c) (fun f c' => held (pipeFn c) f ∧ whole (pipeFn c) f c' ∧ (r (pipeFn c) f c').1.slot? (r (pipeFn c) f c').2.slot = none) ∧
    at_ (withSlot4 (pipeFn c)) (fun f c' => held (withSlot4 (pipeFn c)) f ∧ whole (withSlot4 (pipeFn c)) f c' ∧
      (r (withSlot4 (pipeFn c)) f c').2.discarded = false ∧ (r (withSlot4 (pipeFn c)) f c').2.attend = false ∧
      ((r (withSlot4 (pipeFn c)) f c').1.slot? (r (withSlot4 (pipeFn c)) f c').2.slot).isSome = true) ∧
    at_ (pipeFn { c with discarded := true }) (fun f c' => held (pipeFn { c with discarded := true }) f ∧
      whole (pipeFn { c with discarded := true }) f c' ∧ (r (pipeFn { c with discarded := true }) f c').2.discarded = true) ∧
    at_ (withSlot4 (pipeFn { c with attend := true })) (fun f c' => held (withSlot4 (pipeFn { c with attend := true })) f ∧
      whole (withSlot4 (pipeFn { c with attend := true })) f c' ∧ (r (withSlot4 (pipeFn { c with attend := true })) f c').2.discarded = false ∧
      (r (withSlot4 (pipeFn { c with attend := true })) f c').2.attend = true) ∧
    at_ (withSlot4 (pipeFn { c with attend := true, reply := zeroBytes 4 ++ [2] ++ zeroBytes 123 })) (fun f c' =>
      held (withSlot4 (pipeFn { c with attend := true, reply := zeroBytes 4 ++ [2] ++ zeroBytes 123 })) f ∧
      ¬whole (withSlot4 (pipeFn { c with attend := true, reply := zeroBytes 4 ++ [2] ++ zeroBytes 123 })) f c') ∧
    ∃ f, tblGet? (service { job := 1, index := 0, st := .disabling }).fns 7 = some f ∧ f.st = .disabling ∧ f.waiting = [] ∧ f.inPipe = [] :=
  ⟨⟨_, _, rfl, rfl, by decide +kernel⟩, ⟨_, _, rfl, rfl, by decide +kernel⟩, ⟨_, _, rfl, rfl, by decide +kernel⟩,
    ⟨_, _, rfl, rfl, by decide +kernel⟩, ⟨_, _, rfl, rfl, by decide +kernel⟩, ⟨_, _, rfl, rfl, by decide +kernel⟩,
    ⟨_, rfl, rfl, rfl, rfl⟩⟩

theorem meets_FunctionsServeCalls_commands :
    let cmd (op : Nat) (s : State) (b : List Byte) (P : State → InSlot → Prop) :=
      CmdMeets s (ctxCmd op) (ctxPkt op b) (cmdSlot op (ctxPkt op b)) P
    let is_ (t : State) (v : InSlot) (st : FnState) : Prop := (tblGet? t.fns (field v.pkt.own 0 2)).any (fun f => f.st == st) = true
    (∀ mode < 2, ∀ st : FnState, cmd 0xA4 (fnIn st) (fnBody mode) fun t v => t.fnCheck v 3 = stOk ∧ is_ t v st ∧ field v.pkt.own 2 1 = mode) ∧
    cmd 0xA4 (service) (fnBody 2) (fun t v => t.fnCheck v 3 = stOk ∧ is_ t v .enabled ∧ 1 < field v.pkt.own 2 1) ∧
    cmd 0xA4 svc (fnBody) (fun t v => t.fnCheck v 3 ≠ stOk) ∧
    (∀ st : FnState, cmd 0xA5 (fnIn st) (fnBody) fun t v => t.fnCheck v 2 = stOk ∧ is_ t v st) ∧
    cmd 0xA5 svc (fnBody) (fun t v => t.fnCheck v 2 ≠ stOk) ∧
    cmd 0xA6 (service) (fnBody) (fun t v => t.fnCheck v 2 = stOk ∧ (tblGet? t.fns (field v.pkt.own 0 2)).isSome = true) ∧
    cmd 0xA6 svc (fnBody) (fun t v => t.fnCheck v 2 ≠ stOk) := by
  refine ⟨?_, cmSealed (k := 99) (by decide +kernel) rfl (by decide +kernel) (by decide +kernel),
    cmSealed (k := 99) (by decide +kernel) rfl (by decide +kernel) (by decide +kernel), ?_,
    cmSealed (k := 99) (by decide +kernel) rfl (by decide +kernel) (by decide +kernel),
    cmSealed (k := 99) (by decide +kernel) rfl (by decide +kernel) (by decide +kernel),
    cmSealed (k := 99) (by decide +kernel) rfl (by decide +kernel) (by decide +kernel)⟩
  · intro m h st
    obtain rfl | rfl : m = 0 ∨ m = 1 := by omega
    all_goals cases st <;> exact cmSealed (k := 99) (by decide +kernel) rfl (by decide +kernel) (by decide +kernel)
  · intro st
    cases st <;> exact cmSealed (k := 99) (by decide +kernel) rfl (by decide +kernel) (by decide +kernel)

/-- An ATTEND waits at function 7 for its block; `e` is the block's entry. -/
def unresolvedAt (e : KvEntry) (v : Session := { st := .opened, ctx := 5, maxBlocks := 4, valid := 16 }) : State :=
  let s := service { job := 1, index := 0, st := .enabled, waiting := [{ slot := 9, attend := true, ready := false, blocks := 1 }] } v e
  { s with txn := { s.txn with slots := [(9, { src := 4, tag := 9, port := none, pkt := fnPkt tAttend attBody, ctx := 5, key := .clear })] } }

theorem meets_FunctionsServeCalls_blocks :
    (∀ e ∈ [({ addr := 0x20000, kind := 1, fmt := 0xA } : KvEntry), {}], let s := unresolvedAt e
      (s.unresolved 9).map (·.1) = some 7 ∧ (s.slot? 9).isSome = true ∧ (s.profile 5).isSome = true ∧
      (s.kvEntries (s.session 0) 0 1).2.2.2 = .done) ∧
    (let r := (unresolvedAt { addr := 0x20000, kind := 1, fmt := 0xA }).resolve 5 [{ addr := 0x20000, kind := 1, fmt := 0xA }]
     r.2.1.isSome = true ∧ r.2.2.2 = .done) ∧
    (let r := (unresolvedAt {}).resolve 5 [{}]
     r.2.1 = none ∧ r.2.2.2 = .done) ∧ svc.unresolved 9 = none ∧
    let s := unresolvedAt {} { st := .opened, ctx := 5, btab := 0x40000000, maxBlocks := 4, valid := 16 }
    (s.unresolved 9).map (·.1) = some 7 ∧ ∃ st m va, (s.kvEntries (s.session 0) 0 1).2.2.2 = .failed st m va := by
  refine ⟨by decide +kernel, by decide +kernel, by decide +kernel, by decide +kernel, by decide +kernel, ?_⟩
  have h : (match ((unresolvedAt {} { st := .opened, ctx := 5, btab := 0x40000000, maxBlocks := 4, valid := 16 }).kvEntries
    ((unresolvedAt {} { st := .opened, ctx := 5, btab := 0x40000000, maxBlocks := 4, valid := 16 }).session 0) 0 1).2.2.2 with
    | .failed _ _ _ => true | _ => false) = true := by decide +kernel
  generalize ((unresolvedAt {} _).kvEntries _ 0 1).2.2.2 = a at h ⊢
  cases a <;> first | exact ⟨_, _, _, rfl⟩ | cases h

/-- A manifest of one stage with one trigger entry, a trigger stream to mover 0 of its frame, a descriptor table and position records. -/
def moves (desc : Nat := 0x1000) (pos : Nat := 0x800) : List Byte :=
  overlay (overlay (overlay (overlay (overlay (overlay (overlay (zeroBytes 176) 0x0D [1, 1, 0, 1]) 0x14 [1]) 0x18 (leBytes 8 pos)) 77 [1]) 96
    ([0, 0, 0xFD, 0, 3, 0, 0, 0] ++ leBytes 4 512)) 112 (leBytes 8 desc)) 125 [1]
/-- A descriptor of one row of 64 INT8 between MEM, the frame buffer and scratch. -/
def descOfKinds (src dst : Nat) (at_ : Nat := 0) : List Byte :=
  overlay (overlay (overlay (zeroBytes 128) 0 [1, 1, byte (src + 16 * dst), 0, 0x44]) 8 (leBytes 8 at_)) 0x20 [64]
def descBytes : List Byte := descOfKinds 0 1
/-- A transfer of job 1 for a context. -/
def xfer (ctx : Nat := 5) (st : XferState := .ready) (desc : List Byte := descBytes) : Xfer :=
  { job := 1, ctx := ctx, stage := 0, stream := 0, number := 0, trigger := zeroBytes 128, desc := desc, st := st }
/-- Mover 0 with transfers, and job 1's trigger ring with elements. -/
def moverIn (xs : List Xfer) (turn : Nat := 5) (bytes : Nat := 0) (str : StreamSt := {}) (m : List Byte := moves) (poison : List Nat := []) : State :=
  { hit with
    active := running.active
    jobs := [(1, { ctx := 5, launched := true, manifest := m, places := [(0, [0])], rings := [0] })], streams := [(256, str)]
    movers := [(0, { xfers := xs, turn := turn, turnBytes := bytes })]
    mem := cellPuts (cellPuts hit.mem 0x200800 [1, 1]) 0x201000 descBytes
    beads := poison.map fun b => (b, { poison := true }) }
/-- The bead of the position record, and that of the descriptor. -/
def posBead : Nat := 0x8020
def descBead : Nat := 0x8040

theorem meets_MoversTransfer_pieces :
    ∃ (d : Desc) (k : Nat), 1 ≤ d.row ∧ d.dstFmt < 15 ∧ k < d.pieces := ⟨descOf descBytes [], 0, by decide +kernel⟩

theorem meets_MoversTransfer_turns :
    let ready (s : State) : Prop := s.moverReady 0 = true
    let open_ (s : State) := (s.triggerRings 0).filter fun t => s.entryFree 0 t
    let turn (s : State) := (s.mover 0).candidate (s.mover 0).turn
    (State.moverReady {} 0 = false) ∧ (ready (moverIn []) ∧ (moverIn []).triggerRings 0 = []) ∧
    (let s := moverIn [xfer] 5 0 { written := 1 }
     ready s ∧ s.triggerRings 0 ≠ [] ∧ open_ s = []) ∧
    (let s := moverIn [] 5 0 { written := 1 }
     ready s ∧ open_ s = [(1, 0)] ∧ (tblGet? s.jobs 1).isSome = true ∧ (s.free.2.popElement 1 0).2.isSome = true) ∧
    (let s : State := { moverIn [] 5 0 { written := 1 } with active := [] }
     ready s ∧ open_ s = [(1, 0)] ∧ (s.free.2.popElement 1 0).2.isSome = false) ∧
    (ready (moverIn [xfer]) ∧ turn (moverIn [xfer]) = some xfer ∧ (moverIn [xfer]).spent 0 = false ∧ (moverIn [xfer]).resident 0 5 0 = false) ∧
    (let s := moverIn [xfer, { xfer 6 with job := 2 }] 5 (2 ^ 40)
     ready s ∧ turn s = some xfer ∧ s.spent 0 = true ∧ (s.mover 0).nextTurn 5 = some 6) ∧
    (let s := moverIn [xfer] 9
     ready s ∧ turn s = none ∧ (s.mover 0).nextTurn 9 = some 5 ∧ (s.mover 0).candidate 5 = some xfer) ∧
    (ready (moverIn [] 9) ∧ turn (moverIn [] 9) = none ∧ ((moverIn [] 9).mover 0).nextTurn 9 = none) ∧
    (let x := xfer 5 .ready (descOfKinds 0 2)
     let d := descOf x.desc x.trigger
     ready (moverIn [x]) ∧ turn (moverIn [x]) = some x ∧ x.desc ≠ [] ∧ d.dstKind = 2 ∧
       (moverIn [x]).resident 0 5 (d.piece 0).dst = false ∧ x.st ≠ .preempted ∧ ((moverIn [x]).mover 0).nextTurn 5 = some 5 ∧
       ((moverIn [x, { xfer 6 with job := 2 }]).mover 0).nextTurn 5 ≠ some 5) := by decide +kernel

theorem meets_MoversTransfer_runs :
    let s := moverIn [xfer]
    let read (s : State) (x : Xfer) := s.unitData 0 (moverTag 0) x.ctx (0x1000 + 128 * trgDesc x.trigger) 128
    let fresh := xfer 5 .ready []
    ∃ j, tblGet? s.jobs 1 = some j ∧ (s.mover 0).nextTurn 5 = some 5 ∧ j.descVa = some 0x1000 ∧ fresh.bad = false ∧
      triggerOk j 0 fresh.trigger = true ∧ triggerOk j 0 ((leBytes 4 5) ++ zeroBytes 124) = false ∧
      (read s fresh).2.2 = (false, .done) ∧ moverDescOk j 0 (read s fresh).2.1 (descOf (read s fresh).2.1 fresh.trigger) = true ∧
      (read (moverIn [fresh] 5 0 {} moves [descBead]) fresh).2.2 = (true, .done) ∧
      (let t : State := { s with mem := cellPuts hit.mem 0x201000 (byte 2 :: zeroBytes 9) }
       (read t fresh).2.2 = (false, .done) ∧ moverDescOk j 0 (read t fresh).2.1 (descOf (read t fresh).2.1 fresh.trigger) = false) ∧
      (descOf xfer.desc xfer.trigger).pieces = 1 := ⟨_, rfl, by decide +kernel⟩

theorem meets_MoversTransfer_ends :
    let d (x : Xfer) := descOf x.desc x.trigger
    let r (x : Xfer) := (moverIn [x]).nextData 0 x (d x) ((d x).piece x.delivered)
    let out (x : Xfer) := (r x).1.endWrite 0 x.ctx (d x).dstKind ((d x).dstSpan ((d x).piece x.delivered)).1
      (convertPiece 0 x (d x) ((d x).piece x.delivered) (r x).2.1 (r x).2.2.1).1 (r x).2.2.2.1
    let k (src dst : Nat) (at_ : Nat := 0) := xfer 5 .ready (descOfKinds src dst at_)
    (∀ x ∈ [k 0 1, k 0 0 0x40, k 1 0, k 2 1], x.ending = none ∧ x.error = none ∧ x.desc ≠ [] ∧ x.delivered < (d x).pieces ∧
      (d x).srcKind ≠ 4 ∧ (d x).dstKind < 3 ∧ (d x).mxOut = false) ∧
    ((r (k 0 1)).2.2.2.2.2 = .done ∧ (out (k 0 1)).2 = .done) ∧ (r (k 2 1)).2.2.2.2.2 = .wait ∧
    ((match (r (k 0 1 0x40000000)).2.2.2.2.2 with | .failed _ true _ => true | _ => false) = true) ∧
    ((match (r (k 1 1 0x40000000)).2.2.2.2.2 with | .failed _ false _ => true | _ => false) = true) ∧
    ((r (k 0 2)).2.2.2.2.2 = .done ∧ (out (k 0 2)).2 = .wait) ∧
    (let x := { k 0 1 with desc := overlay (descOfKinds 0 1) 0x10 (leBytes 8 0x40000000) }
     (r x).2.2.2.2.2 = .done ∧ (match (out x).2 with | .failed _ false _ => true | _ => false) = true) ∧
    (let x := { k 0 0 with desc := overlay (descOfKinds 0 0) 0x10 (leBytes 8 0x40000000) }
     (r x).2.2.2.2.2 = .done ∧ (match (out x).2 with | .failed _ true _ => true | _ => false) = true) := by decide +kernel

theorem meets_MoversTransfer_commands :
    let res (s : State) (P : State → InSlot → Prop) :=
      CmdMeets s (ctxCmd 0xA8) (ctxPkt 0xA8 [0, 0, 1, 0, 0, 0, 0, 0]) (cmdSlot 0xA8 (ctxPkt 0xA8 [0, 0, 1, 0, 0, 0, 0, 0])) P
    let can (s : State) (P : State → InSlot → Prop) :=
      CmdMeets s (ctxCmd 0xA9) (ctxPkt 0xA9 [0, 0, 1, 0, 0, 0, 0, 0]) (cmdSlot 0xA9 (ctxPkt 0xA9 [0, 0, 1, 0, 0, 0, 0, 0])) P
    let parked (t : State) (v : InSlot) (P : Job → Xfer → Bool) : Prop := (t.parkedOf v).getRight?.any (fun r => r.1 == 0 && P r.2.1 r.2.2) = true
    let pos (t : State) (j : Job) (x : Xfer) := t.unitData 0 (moverTag 0) x.ctx (j.posVa 0) 128
    let desc (t : State) (j : Job) (x : Xfer) := (pos t j x).1.unitData 0 (moverTag 0) x.ctx (j.descVa.getD 0 + 128 * trgDesc x.trigger) 128
    let ok (t : State) (j : Job) (x : Xfer) : Bool := let db := (desc t j x).2.1
      moverDescOk j 0 db (descOf db x.trigger) && x.recordOk (descOf db x.trigger) (pos t j x).2.1
    let fails (a : Access) : Bool := match a with | .failed _ _ _ => true | _ => false
    res (moverIn []) (fun t v => t.parkedOf v = .inl stMalformed) ∧
    res (moverIn [xfer 5 .parked]) (fun t v => parked t v fun j x =>
      (pos t j x).2.2 == (false, .done) && (desc t j x).2.2 == (false, .done) && ok t j x) ∧
    res (moverIn [{ xfer 5 .parked with trigger := byte 0 :: zeroBytes 7 ++ [1] ++ zeroBytes 119 }]) (fun t v => parked t v fun j x =>
      (pos t j x).2.2 == (false, .done) && (desc t j x).2.2 == (false, .done) && !ok t j x) ∧
    res (moverIn [xfer 5 .parked] 5 0 {} moves [posBead]) (fun t v => parked t v fun j x => (pos t j x).2.2 == (true, .done)) ∧
    res (moverIn [xfer 5 .parked] 5 0 {} moves [descBead]) (fun t v => parked t v fun j x =>
      (pos t j x).2.2 == (false, .done) && (desc t j x).2.2 == (true, .done)) ∧
    res (moverIn [xfer 5 .parked] 5 0 {} (moves 0x40000000)) (fun t v => parked t v fun j x =>
      (pos t j x).2.2 == (false, .done) && fails (desc t j x).2.2.2) ∧
    res (moverIn [xfer 5 .parked] 5 0 {} (moves 0x1000 0x40000000)) (fun t v => parked t v fun j x => fails (pos t j x).2.2.2) ∧
    can (moverIn []) (fun t v => t.parkedOf v = .inl stMalformed) ∧
    can (moverIn [xfer 5 .parked]) (fun t v => parked t v fun j x => (t.writePos 0 j x 4 0 0 0).2 == false) := by
  refine ⟨?_, ?_, ?_, ?_, ?_, ?_, ?_, ?_, ?_⟩ <;> exact cmSealed (k := 99) (by decide +kernel) rfl (by decide +kernel) (by decide +kernel)

/-- Bodies of the session commands, and the same service with a session limit and with a session that is CLOSING. -/
def setupBody : List Byte :=
  [1, 0, 1, 1, 16, 0, 0xA, 5, 7, 0, 0, 0, 90, 50, 0, 0] ++ leBytes 8 0x10000 ++ leBytes 8 4 ++ zeroBytes 32
def openBody (btab : Nat := 0x1000) : List Byte := leBytes 8 btab ++ leBytes 8 4 ++ zeroBytes 8
def forkBody (n : Nat := 16) (btab : Nat := 0x1000) : List Byte := leBytes 4 0 ++ leBytes 4 n ++ leBytes 8 btab ++ leBytes 8 4 ++ zeroBytes 8
def pairBody (n : Nat) (handle : Nat := 0) : List Byte := leBytes 4 handle ++ leBytes 4 n
def limited : State := { service with kvs := { (service).kvs with limits := [(5, 4)] } }
def sess : Session := { st := .opened, ctx := 5, maxBlocks := 4, valid := 16, cap := 16 }
def withSess (v : Session) : State := { limited with kvs := { limited.kvs with sessions := [(0, v)] } }
/-- A session whose table lies in no mapping, and a service whose near pool does. -/
def lost : Session := { sess with btab := 0x40000000 }
def lostPool : State := { limited with kvs := { limited.kvs with profiles := [(5, { prof with nearVa := 0x40000000 })] } }

/-- A table with every key below `n`. -/
def full (v : Session) : Nat → Tbl Session
  | 0 => []
  | n + 1 => (n, v) :: full v n

theorem full_get {v : Session} {n i : Nat} (h : i < n) : tblGet? (full v n) i = some v := by
  induction n with
  | zero => omega
  | succ n ih =>
    by_cases hi : i = n
    · subst hi; simp [full, tblGet?]
    · rw [full, tblGet?, if_neg hi]
      exact ih (by omega)

theorem freeRecord_none {s : State} (h : ∀ i, i < 16384 → (s.session i).st ≠ .free) : s.freeRecord = (s.raise .kvs 0 3, none) := by
  have hl : (idxs 16384 fun i => (s.session i).st == .free) = [] := by
    simp only [idxs, List.filter_eq_nil_iff, List.mem_range, beq_iff_eq]
    exact h
  unfold State.freeRecord
  rw [hl]

theorem freeRecord_some {s : State} {i : Nat} (hi : i < 16384) (h : (s.session i).st = .free) : ∃ w k, s.freeRecord = (w, some k) := by
  unfold State.freeRecord
  cases hl : idxs 16384 fun i => (s.session i).st == .free with
  | nil =>
    have h1 : i ∈ idxs 16384 fun i => (s.session i).st == .free := by
      simp only [idxs, List.mem_filter, List.mem_range, beq_iff_eq]
      exact ⟨hi, h⟩
    rw [hl] at h1
    cases h1
  | cons => exact ⟨_, _, rfl⟩

theorem meets_SessionCommandsAct_record :
    (∃ w i, limited.freeRecord = (w, some i)) ∧ ∃ (s w : State), s.freeRecord = (w, none) := by
  refine ⟨freeRecord_some (i := 1) (by norm_num) (by decide +kernel), ?_⟩
  have h : ∀ n, n = 16384 → ∃ (s w : State), s.freeRecord = (w, none) := fun n hn =>
    ⟨{ kvs := { sessions := full { st := .closing } n } }, _, freeRecord_none fun i hi => by
      simp only [State.session, tblGet, full_get (hn ▸ hi), Option.getD_some]
      exact fun h => SessState.noConfusion h⟩
  exact h _ rfl

def failsWith (a : Access) : Bool := match a with | .failed _ _ _ => true | _ => false

set_option maxRecDepth 20000 in
theorem meets_SessionCommandsAct_setup :
    let meets (s : State) (b : List Byte) (P : State → InSlot → Prop) := CmdMeets s (ctxCmd 0xB0) (ctxPkt 0xB0 b) (cmdSlot 0xB0 (ctxPkt 0xB0 b)) P
    let q (v : InSlot) := profileOf v.pkt.own
    meets (service) (zeroBytes 60) (fun t v => t.kvCheck v true 64 ≠ stOk) ∧
    meets (service) setupBody (fun t v => t.kvCheck v true 64 = stOk ∧ t.sessionsOf v.ctx ≠ 0) ∧
    meets hit (zeroBytes 64) (fun t v => t.kvCheck v true 64 = stOk ∧ t.sessionsOf v.ctx = 0 ∧ profileOk v.pkt.own = false) ∧
    meets svc setupBody (fun t v => t.kvCheck v true 64 = stOk ∧ t.sessionsOf v.ctx = 0 ∧ profileOk v.pkt.own = true ∧
      (t.poolsOk v.ctx (q v)).2 = false) ∧
    meets hit setupBody (fun t v => t.kvCheck v true 64 = stOk ∧ t.sessionsOf v.ctx = 0 ∧ profileOk v.pkt.own = true ∧
      (q v).farSlots = 0 ∧ (t.poolsOk v.ctx (q v)).2 = true ∧
      ((t.poolsOk v.ctx (q v)).1.kvWrite v.ctx (gatherParts [] (q v).nearVa (plain (freshMap (q v).nearSlots)))).2 = .done) := by
  refine ⟨?_, ?_, ?_, ?_, ?_⟩ <;> exact cmSealed (k := 99) (by decide +kernel) rfl (by decide +kernel) (by decide +kernel)

set_option maxRecDepth 20000 in
theorem meets_SessionCommandsAct_open :
    let meets (s : State) (b : List Byte) (P : State → InSlot → Prop) := CmdMeets s (ctxCmd 0xB1) (ctxPkt 0xB1 b) (cmdSlot 0xB1 (ctxPkt 0xB1 b)) P
    let table (t : State) (v : InSlot) := t.tableCheck v prof (field v.pkt.own 0 8) (field v.pkt.own 8 4)
    let ok (t : State) (v : InSlot) : Prop := t.kvCheck v false 24 = stOk ∧ t.profile v.ctx = some prof
    meets svc openBody (fun t v => t.kvCheck v false 24 ≠ stOk) ∧
    meets (service) (zeroBytes 15 ++ zeroBytes 8 ++ [1]) (fun t v => ok t v ∧ zeros v.pkt.own 12 4 = true) ∧
    meets (service) (zeroBytes 12 ++ [1] ++ zeroBytes 11) (fun t v => ok t v ∧ zeros v.pkt.own 12 4 = false) ∧
    meets (service) openBody (fun t v => ok t v ∧ zeros v.pkt.own 12 4 = true ∧ (table t v).2 = stQuota) ∧
    meets limited (openBody 0x40000000) (fun t v => ok t v ∧ zeros v.pkt.own 12 4 = true ∧ (table t v).2 = stMalformed) ∧
    meets limited openBody (fun t v => ok t v ∧ zeros v.pkt.own 12 4 = true ∧ (table t v).2 = stOk ∧
      ((table t v).1.free.2.kvWrite v.ctx (gatherParts [] (field v.pkt.own 0 8)
        (plain ((List.replicate (prof.layers * field v.pkt.own 8 4) ({} : KvEntry)).flatMap KvEntry.bytes)))).2 = .done) := by
  refine ⟨?_, ?_, ?_, ?_, ?_, ?_⟩ <;> exact cmSealed (k := 99) (by decide +kernel) rfl (by decide +kernel) (by decide +kernel)

set_option maxRecDepth 20000 in
theorem meets_SessionCommandsAct_fork :
    let meets (s : State) (b : List Byte) (P : State → InSlot → Prop) := CmdMeets s (ctxCmd 0xB2) (ctxPkt 0xB2 b) (cmdSlot 0xB2 (ctxPkt 0xB2 b)) P
    let n (v : InSlot) := field v.pkt.own 4 4
    let most (v : InSlot) := field v.pkt.own 16 4
    let ok (t : State) (v : InSlot) : Prop := t.kvCheck v false 32 = stOk ∧ t.profile v.ctx = some prof
    let found (t : State) (v : InSlot) (P : Session → Bool) : Prop := (t.sessionFor v (field v.pkt.own 0 4)).any (fun x => P x.2) = true
    let shaped (v : InSlot) (src : Session) : Bool := n v % prof.tokens == 0 && decide (prof.tokens ≤ n v) && decide (n v ≤ src.valid) &&
      decide (n v / prof.tokens ≤ most v) && zeros v.pkt.own 20 4
    let table (t : State) (v : InSlot) := t.tableCheck v prof (field v.pkt.own 8 8) (most v)
    let fork (t : State) (v : InSlot) (src : Session) := (table t v).1.forkTable src (n v / prof.tokens) (most v) (List.range prof.layers)
    meets svc forkBody (fun t v => t.kvCheck v false 32 ≠ stOk) ∧
    meets (withSess { st := .free }) forkBody (fun t v => ok t v ∧ t.sessionFor v (field v.pkt.own 0 4) = none) ∧
    meets (withSess { sess with st := .closing }) forkBody (fun t v => ok t v ∧ found t v (fun x => x.st != .opened) ∧ v.accepted = none) ∧
    meets limited (forkBody 17) (fun t v => ok t v ∧ found t v (fun x => x.st == .opened && !shaped v x)) ∧
    meets limited (forkBody 16 0x40000000) (fun t v => ok t v ∧ found t v (fun x => x.st == .opened && shaped v x) ∧ (table t v).2 ≠ stOk) ∧
    meets limited forkBody (fun t v => ok t v ∧ found t v (fun x => x.st == .opened && shaped v x && (fork t v x).2.2 == .done) ∧ (table t v).2 = stOk) ∧
    meets (withSess lost) forkBody (fun t v => ok t v ∧ found t v (fun x => x.st == .opened && shaped v x && failsWith (fork t v x).2.2) ∧
      (table t v).2 = stOk) := by
  refine ⟨?_, ?_, ?_, ?_, ?_, ?_, ?_⟩ <;> exact cmSealed (k := 99) (by decide +kernel) rfl (by decide +kernel) (by decide +kernel)

set_option maxRecDepth 20000 in
theorem meets_SessionCommandsAct_extend :
    let meets (s : State) (b : List Byte) (P : State → InSlot → Prop) := CmdMeets s (ctxCmd 0xB3) (ctxPkt 0xB3 b) (cmdSlot 0xB3 (ctxPkt 0xB3 b)) P
    let n (v : InSlot) := field v.pkt.own 4 4
    let ok (t : State) (v : InSlot) : Prop := t.kvCheck v false 8 = stOk ∧ (t.profile v.ctx).isSome = true
    let at_ (t : State) (v : InSlot) (P : Session → Bool) : Prop := (t.sessionFor v (field v.pkt.own 0 4)).any (fun x => P x.2) = true
    let empty (t : State) (v : InSlot) (x : Session) := t.emptyBlocks prof x ((n v + prof.tokens - 1) / prof.tokens) (List.range prof.layers)
    let fits (v : InSlot) (x : Session) : Bool := decide (x.cap ≤ n v) && decide (n v ≤ x.maxBlocks * prof.tokens)
    meets svc (pairBody 16) (fun t v => t.kvCheck v false 8 ≠ stOk) ∧
    meets (withSess { st := .free }) (pairBody 16) (fun t v => ok t v ∧ t.sessionFor v (field v.pkt.own 0 4) = none) ∧
    meets (service) (pairBody 15) (fun t v => ok t v ∧ at_ t v fun x => decide (n v < x.cap)) ∧
    meets (service) (pairBody 65) (fun t v => ok t v ∧ at_ t v fun x => decide (x.maxBlocks * prof.tokens < n v)) ∧
    meets (withSess lost) (pairBody 64) (fun t v => ok t v ∧ at_ t v fun x => fits v x && failsWith (empty t v x).2.2) ∧
    meets lostPool (pairBody 64) (fun t v => ok t v ∧ at_ t v fun x => fits v x && (empty t v x).2.2 == .done &&
      failsWith ((empty t v x).1.kvMap v.ctx { prof with nearVa := 0x40000000 } false).2.2) ∧
    (∀ map ∈ [15, 3], meets { limited with mem := cellPuts limited.mem 0x210000 [byte map] } (pairBody 64) (fun t v => ok t v ∧ at_ t v fun x =>
      fits v x && (empty t v x).2.2 == .done && (empty t v x).2.1.length == 3 && ((empty t v x).1.kvMap v.ctx prof false).2 == (map, .done) &&
        ((idxs prof.nearSlots fun k => bit map k).length < 3) == (map == 3))) ∧
    meets (service) (pairBody 64) (fun t v => at_ t v fun x => (List.range 4).all fun i =>
      let u := empty t v x
      let free := idxs prof.nearSlots fun k => bit 15 k
      let take := (free.drop i ++ free.take i).take 3
      ((u.1.kvMap v.ctx prof false).1.free.2.kvWrite v.ctx ((List.range 3).foldl (fun parts b => gatherParts parts (x.entryVa (u.2.1.getD b 0))
        (plain (KvEntry.bytes { addr := prof.slotVa false (take.getD b 0), kind := 1, fmt := prof.nearFmt, owner := 0 })))
        (mapParts [] prof.nearVa (prof.mapBytes false) 15 (take.foldl (fun m b => setBit m b false) 15)))).2 == .done) := by
  refine ⟨?_, ?_, ?_, ?_, ?_, ?_, ?_, ?_⟩
  case refine_7 =>
    intro m h
    simp only [List.mem_cons, List.not_mem_nil, or_false] at h
    rcases h with rfl | rfl <;> exact cmSealed (k := 99) (by decide +kernel) rfl (by decide +kernel) (by decide +kernel)
  all_goals exact cmSealed (k := 99) (by decide +kernel) rfl (by decide +kernel) (by decide +kernel)

set_option maxRecDepth 20000 in
theorem meets_SessionCommandsAct_others :
    let meets (op : Nat) (s : State) (b : List Byte) (P : State → InSlot → Prop) :=
      CmdMeets s (ctxCmd op) (ctxPkt op b) (cmdSlot op (ctxPkt op b)) P
    let at_ (t : State) (v : InSlot) (P : Session → Bool) : Prop := (t.sessionFor v (field v.pkt.own 0 4)).any (fun x => P x.2) = true
    (∀ op ∈ [0xB4, 0xB5, 0xB7], meets op svc (pairBody 0) (fun t v => t.kvCheck v false 8 ≠ stOk) ∧
      meets op (service) (pairBody 0 1) (fun t v => t.kvCheck v false 8 = stOk ∧ t.sessionFor v (field v.pkt.own 0 4) = none)) ∧
    (∀ n ∈ [15, 16, 17], meets 0xB4 (service) (pairBody n) fun t v => t.kvCheck v false 8 = stOk ∧ field v.pkt.own 4 4 = n ∧
      at_ t v fun x => x.valid == 16 && x.cap == 16) ∧
    (∀ n ∈ [0, 1], meets 0xB5 (service) (pairBody n) fun t v => t.kvCheck v false 8 = stOk ∧ zeros v.pkt.own 4 4 = (n == 0) ∧ at_ t v fun _ => true) ∧
    meets 0xB6 svc (pairBody 0 ++ leBytes 8 100) (fun t v => t.kvCheck v false 16 ≠ stOk) ∧
    meets 0xB6 (service) (pairBody 0 1 ++ leBytes 8 100) (fun t v => t.kvCheck v false 16 = stOk ∧ t.sessionFor v (field v.pkt.own 0 4) = none) ∧
    (∀ n ∈ [0, 1], meets 0xB6 (service) (pairBody n ++ leBytes 8 100) fun t v => t.kvCheck v false 16 = stOk ∧ zeros v.pkt.own 4 4 = (n == 0) ∧
      at_ t v fun x => x.st == .opened) ∧
    meets 0xB6 (withSess { sess with st := .closing }) (pairBody 0 ++ leBytes 8 100) (fun t v => t.kvCheck v false 16 = stOk ∧
      zeros v.pkt.own 4 4 = true ∧ at_ t v fun x => x.st != .opened) ∧
    (∀ n ∈ [0, 1], meets 0xB7 (service) (pairBody n) fun t v => t.kvCheck v false 8 = stOk ∧ t.profile v.ctx = some prof ∧
      zeros v.pkt.own 4 4 = (n == 0) ∧ at_ t v fun x => (t.ownedBlocks prof 0 x).2.2 == .done) ∧
    meets 0xB7 (withSess lost) (pairBody 0) (fun t v => t.kvCheck v false 8 = stOk ∧ t.profile v.ctx = some prof ∧
      at_ t v fun x => failsWith (t.ownedBlocks prof 0 x).2.2) := by
  refine ⟨?_, ?_, ?_, ?_, ?_, ?_, ?_, ?_, ?_⟩
  all_goals first
    | exact cmSealed (k := 99) (by decide +kernel) rfl (by decide +kernel) (by decide +kernel)
    | (intro m h
       simp only [List.mem_cons, List.not_mem_nil, or_false] at h
       rcases h with rfl | rfl | rfl <;> first
         | exact cmSealed (k := 99) (by decide +kernel) rfl (by decide +kernel) (by decide +kernel)
         | exact ⟨cmSealed (k := 99) (by decide +kernel) rfl (by decide +kernel) (by decide +kernel),
             cmSealed (k := 99) (by decide +kernel) rfl (by decide +kernel) (by decide +kernel)⟩)

/-- A profile that demotes into two far slots at VA 0x80000, and a service over it whose far bitmap is `map`. -/
def demoting : Profile := { prof with demote := true, promote := true, farVa := 0x80000, farSlots := 2 }
def moving (v : Session := { st := .opened, ctx := 5, maxBlocks := 4, valid := 16, cap := 16 }) (map : Nat := 3) (ms : List Move := [])
    (e : KvEntry := { addr := 0x20000, kind := 1, fmt := 0xA }) : State :=
  let s := service (v := v) (e := e)
  { s with kvs := { s.kvs with profiles := [(5, demoting)], demoting := [5], moves := ms }, mem := cellPuts s.mem 0x280000 [byte map] }
def move0 (w : Option (List Nat)) : Move := { ctx := 5, session := 0, layer := 0, block := 0, promote := false, old := 0, new := 1, waitFor := w }

def failsSo (a : Access) : Bool := match a with | .failed _ _ _ => true | _ => false

theorem meets_SessionsEndAndBlocksMove_end :
    (∃ s : State, (s.session 0).expire = some 5000 ∧ (s.session 0).st = .opened) ∧ (svc.session 0).expire = none ∧
    (let may (s : State) : Prop := (s.session 0).st = .closing ∧ (s.session 0).calls = 0 ∧ (s.session 0).refs = 0 ∧
      ∀ m ∈ s.kvs.moves, m.session = 0 → m.copying = false
     let closing : Session := { st := .closing, ctx := 5, maxBlocks := 4, valid := 16, parent := some 1 }
     let owned (s : State) := s.ownedBlocks demoting 0 (s.session 0)
     (may (moving closing) ∧ (moving closing).profile 5 = some demoting ∧ (owned (moving closing)).2.2 = .done ∧
      ((owned (moving closing)).1.returnSlots 5 demoting (owned (moving closing)).2.1).2 = .done) ∧
     (may (moving { closing with parent := none }) ∧ ((moving { closing with parent := none }).session 0).parent = none) ∧
     (may (moving { closing with btab := 0x40000000 }) ∧ failsSo (owned (moving { closing with btab := 0x40000000 })).2.2 = true) ∧
     (may { svc with kvs := { sessions := [(0, closing)] } } ∧ State.profile { svc with kvs := { sessions := [(0, closing)] } } 5 = none) ∧
     ¬may (service)) := by
  refine ⟨⟨moving { st := .opened, ctx := 5, expire := some 5000 }, by decide +kernel⟩, by decide +kernel, by decide +kernel, by decide +kernel,
    by decide +kernel, by decide +kernel, by decide +kernel⟩

theorem meets_SessionsEndAndBlocksMove_start :
    svc.profile (svc.session 0).ctx = none ∧ (service).profile 5 = some prof ∧ ((service).moveDue 0 0 false).2 = false ∧
    (let s := moving
     let u := (s.moveDue 0 0 false).1
     s.profile 5 = some demoting ∧ (s.moveDue 0 0 false).2 = true ∧
      (u.kvEntries (s.session 0) 0 1).2 = ([{ addr := 0x20000, kind := 1, fmt := 0xA }], false, .done) ∧
      (u.kvMap 5 demoting true).2 = (3, .done) ∧ demoting.slotAt false 0x20000 = some 0 ∧
      ∀ new < 2, ((u.kvMap 5 demoting true).1.free.2.kvWrite 5 (mapParts [] (demoting.poolVa true) (demoting.mapBytes true) 3 (setBit 3 new false))).2 = .done) ∧
    (let s := moving (map := 0)
     (s.moveDue 0 0 false).2 = true ∧ ((s.moveDue 0 0 false).1.kvMap 5 demoting true).2 = (0, .done)) ∧
    (let s := moving (e := { addr := 0x20040, kind := 1, fmt := 0xA })
     (s.moveDue 0 0 false).2 = true ∧ ((s.moveDue 0 0 false).1.kvMap 5 demoting true).2 = (3, .done) ∧ demoting.slotAt false 0x20040 = none) ∧
    (let s := moving (e := { addr := 0x90000, kind := 2, fmt := 5 })
     let t : State := { s with kvs := { s.kvs with promoting := [0] }, mem := cellPuts s.mem 0x210000 [0] }
     (t.moveDue 0 0 true).2 = true ∧ ((t.moveDue 0 0 true).1.kvMap 5 demoting false).2 = (0, .done)) := by decide +kernel

/-- The move's session, its entry, its source read and the writes it makes. -/
def moveRead (s : State) : State × List KvEntry × Bool × Access := s.kvEntries (s.session 0) 0 1
def moveSource (s : State) (q : Profile := demoting) : State × List (List Byte × Bool) × Access :=
  (moveRead s).1.unitReads kvsUnit kvsTag 5 (q.slotVa false 0) ((q.heads * q.segN + 63) / 64)
def moveParts (s : State) (q : Profile := demoting) : Tbl BeadPart :=
  gatherParts (gatherParts [] (q.slotVa true 1) ((List.range q.heads).flatMap fun h =>
    demoteSeg q ((((markedBytes (moveSource s q).2.1).take (q.heads * q.segN)).drop (h * q.segN)).take q.segN)))
    ((s.session 0).entryVa 0) (plain (KvEntry.bytes { addr := q.slotVa true 1, kind := 2, fmt := 5, flags := 2 }))
/-- The far pool in an extent of its own at VA 0x200000, behind controller 4, which is FAILED. -/
def apart : Profile := { demoting with farVa := 0x200000 }
def farFailed : State :=
  let s := moving (map := 1) (ms := [move0 none])
  { s with
    kvs := { s.kvs with profiles := [(5, apart)] }, ctl := [(4, { st := .failed })]
    xlt := { s.xlt with extents := s.xlt.extents ++ [(22, { st := .active, owner := 5, base2m := 2 ^ 19, len2m := 1, gen := 4 })] }
    mem := cellPuts s.mem 0x430008 (leBytes 8 (2 ^ 32 * 2 ^ 24 + 0xC00 + 63)) }

theorem meets_SessionsEndAndBlocksMove_done :
    svc.kvs.moves[0]? = none ∧
    (let s := moving (map := 1) (ms := [move0 (some [])])
     s.kvs.moves[0]? = some (move0 (some [])) ∧ s.profile 5 = some demoting ∧ (s.returnSlot 5 demoting false 0).2 = .done) ∧
    (moving (ms := [move0 (some [3])])).kvs.moves[0]? = some (move0 (some [3])) ∧
    ({ svc with kvs := { moves := [move0 (some [])] } } : State).profile 5 = none ∧
    (let s := moving { st := .free, ctx := 5 } 1 [move0 none]
     (s.session 0).st = .free ∧ (s.returnSlot 5 demoting true 1).2 = .done) ∧
    (let s := moving (map := 1) (ms := [move0 none])
     s.kvs.moves[0]? = some (move0 none) ∧ (s.session 0).st ≠ .free ∧ (s.session 0).ctx = 5 ∧
      (moveRead s).2 = ([{ addr := 0x20000, kind := 1, fmt := 0xA }], false, .done) ∧ (moveSource s).2.2 = .done ∧
      (moveSource s).1.deadEnd 5 (moveParts s) = false ∧ ((moveSource s).1.kvWrite 5 (moveParts s)).2 = .done) ∧
    (let s := moving { st := .opened, ctx := 5, maxBlocks := 4, valid := 16, cap := 16, btab := 0x40000000 } 1 [move0 none]
     (s.session 0).st ≠ .free ∧ failsSo (moveRead s).2.2.2 = true) ∧
    (farFailed.profile 5 = some apart ∧ (moveRead farFailed).2.2.2 = .done ∧ (moveSource farFailed apart).2.2 = .done ∧
      (moveSource farFailed apart).1.deadEnd 5 (moveParts farFailed apart) = true) := by
  decide +kernel

/-- A whole completion for outbound slot 0 from endpoint 7 without a prefix, and one under key 99. -/
def answer0 (status : Nat := 0) (body : List Byte := []) : Packet :=
  { typ := tCmpl, vc := if body.isEmpty then 3 else 4, length := (16 + body.length) / 4, dst := 1, form := 7 + status * 2 ^ 12 + 2 ^ 20, body := body }
def keyed0 (keyId : Nat := 16) (sender : Nat := 7 + 4096) : Packet :=
  tagged { answer0 with length := 12, sec := some { keyId := keyId, sender := sender, rsv := 0, counter := 1 } } 99
/-- Outbound slot 0 in use. -/
def asked (o : OutSlot := { req := some ({ typ := tRead, dst := 7 }, .unit 0 0) }) (p : Port := { st := .up }) : State :=
  { svc with txn := { svc.txn with outs := [(0, o)], outUsed := 1 }, ports := [(0, p)] }
/-- The same with key slot 3, of KEY_ID 16, in a state. -/
def askedKey (st : KeyState) (outs : Tbl OutSlot := asked.txn.outs) : State :=
  { asked with ten := { svc.ten with keys := [(3, { svc.keySlot 3 with st := st })] }, txn := { asked.txn with outs := outs } }
/-- A completion sent by this module to itself, waiting at it. -/
def toSelf (s : State) (p : Packet) : State := s.setQueue selfQueue 0 [{ pkt := p }]

theorem meets_OutboundRequestsEnd_arrive :
    let q := answer0.ofType tCmpl
    let far := ({ answer0 with dst := 9 } : Packet).ofType tCmpl
    (∃ u, (toSelf (asked { req := some ({ dst := 1 }, .unit 0 0) }) answer0).takeLocal q = some u ∧ (u.takeCmpl none q).2.isSome = true) ∧
    (∃ u, (toSelf svc answer0).takeLocal q = some u ∧ (u.takeCmpl none q).2.isSome = false) ∧
    (asked.takeLocal q = none ∧ asked.portUp 0 = true ∧ q.dst = ((asked.received 0 q none).learn 0 q).ep ∧
      (((asked.received 0 q none).learn 0 q).takeCmpl (some 0) q).2.isSome = true ∧
      (((svc.received 0 q none).learn 0 q).takeCmpl (some 0) q).2.isSome = false) ∧
    asked.takeLocal far = none ∧ far.dst ≠ ((asked.received 0 far none).learn 0 far).ep ∧ (asked {} {}).portUp 0 = false :=
  ⟨⟨_, rfl, by decide +kernel⟩, ⟨_, rfl, by decide +kernel⟩, by decide +kernel⟩

theorem meets_OutboundRequestsEnd_clear :
    completionShape answer0 = true ∧ answer0.last = true ∧ answer0.sec = none ∧
    completionShape { answer0 with length := 5 } = false ∧ ({ answer0 with form := 7 } : Packet).last = false ∧ svc.outMatch answer0 = none ∧
    (asked.outMatch answer0).any (fun o => clearAnswerOk o.1 answer0) = true ∧
    ((asked { req := some ({ dst := 7 }, .unit 0 0), key := .slot 3 }).outMatch answer0).any (fun o => !clearAnswerOk o.1 answer0) = true := by
  decide +kernel

theorem meets_OutboundRequestsEnd_prefix :
    let x (n : Nat) (d : Nat) : Prefix := { keyId := n, sender := 7 + d, rsv := 0, counter := 1 }
    completionShape keyed0 = true ∧ keyed0.last = true ∧ keyed0.sec = some (x 16 4096) ∧ (keyed0 16 7).sec = some (x 16 0) ∧
    asked.answerKey (asked.outSlot 0) (x 17 4096) = none ∧
    (∀ st ∈ [KeyState.armed, .active, .retiring], (askedKey st).answerKey ((askedKey st).outSlot 0) (x 16 4096) = some 99) ∧
    (askedKey .armed).keyArmed (x 16 4096) = true ∧
    ((askedKey .retiring []).keyRetiring (x 16 4096) = true ∧ (askedKey .retiring []).keyArmed (x 16 4096) = false ∧
      (askedKey .retiring []).outMatch keyed0 = none) ∧
    (asked.keyArmed (x 16 4096) = false ∧ asked.keyRetiring (x 16 4096) = false ∧ (x 16 4096).dir = true ∧ (x 16 0).dir = false ∧
      (asked.outMatch keyed0).isSome = true ∧ svc.outMatch keyed0 = none) := by decide +kernel

theorem meets_OutboundRequestsEnd_tags : keyed0.gcm = keyed0.tagUnder 99 ∧
    ∃ p : Packet, completionShape p = true ∧ p.sec = keyed0.sec ∧ p.gcm ≠ p.tagUnder 99 :=
  ⟨rfl, { keyed0 with gcm := keyed0.tagUnder 99 + 1 }, by decide +kernel, rfl, Nat.succ_ne_self _⟩

theorem meets_OutboundRequestsEnd_timers :
    let at_ (s : State) : State := s.elapseTo ((s.outSlot 0).sentAt + ((s.outSlot 0).resends + 1) * (s.actBits .txn 0 0x044 27 16 * 1000))
    let eth (n : Nat) (k : KeyRef := .clear) : State :=
      asked { req := some ({ typ := tRead, dst := 7 }, .unit 0 0), port := some 0, resends := n, key := k } { st := .up, eth := 1 }
    (svc.outSlot 0).req = none ∧ (svc.outSlot 0).guard = none ∧
    ((eth 0).outSlot 0).req = some ({ typ := tRead, dst := 7 }, .unit 0 0) ∧ retriedType { typ := tRead, dst := 7 } = true ∧
    ((eth 0).outSlot 0).port = some 0 ∧ (eth 0).portEth 0 = true ∧ asked.portEth 0 = false ∧
    (at_ (eth 15)).actBits .txn 0 0x044 31 28 ≤ 15 ∧ 0 < (at_ (eth 0)).actBits .txn 0 0x044 31 28 ∧
    (at_ (eth 0)).mayRequest .clear false = true ∧ (at_ (eth 0 (.slot 2))).mayRequest (.slot 2) false = false ∧
    ((asked { guard := some 5000 }).outSlot 0).guard = some 5000 := by decide +kernel

theorem meets_OutboundRequestsEnd_records :
    (svc.txn.records.find? fun d => d.src == 7 && d.tag == 9) = none ∧
    ∃ (s : State) (d : DoneRec), (s.txn.records.find? fun d => d.src == 7 && d.tag == 9) = some d :=
  ⟨by decide +kernel,
    { svc with txn := { svc.txn with records := [{ src := 7, tag := 9, status := 0, data := [], key := .clear, expires := 5 }] } }, _, rfl⟩

/-- A flit of a type to port 0, and the port in a state of its own. -/
def flit (ftype : Nat) (body : List Byte := []) (seq : Nat := 0) : List Byte := makeFlit ftype 0 63 0 seq 0xFFFF 0 (body ++ zeroBytes (244 - body.length))
def onPort (v : Port) : State := { svc with ports := [(0, v)] }
def afterHeader (s : State) (f : List Byte) : State :=
  (((s.fecCount 0 0 0).tally .lnk 0 0x61 ((flitHdr f).ftype * 16 + if (flitHdr f).ftype = 1 then (flitHdr f).vc else 0)).onHeader 0 (flitHdr f)).drainRx 0

theorem meets_FlitsAreCarried_receive :
    flitGood [] = false ∧ (svc.port 0).eth = 0 ∧ (svc.port 0).st = .up ∧ (svc.port 3).st ≠ .up ∧
    (flitGood (flit 1) = true ∧ (flitHdr (flit 1)).ftype = 1 ∧ ((afterHeader svc (flit 1)).seenReady 0).portUp 0 = true ∧
      ((afterHeader (onPort { st := .init }) (flit 1)).seenReady 0).portUp 0 = false) ∧
    (flitGood (flit 0) = true ∧ (flitHdr (flit 0)).ftype = 0) ∧
    (flitGood (flit 2 [1]) = true ∧ (flitHdr (flit 2 [1])).ftype = 2 ∧ field (flitPayload (flit 2 [1])) 0 2 = 1 ∧
      ((afterHeader (onPort { st := .init }) (flit 2 [1])).port 0).st = .init ∧ ((afterHeader svc (flit 2 [1])).port 0).st ≠ .init) ∧
    (flitGood (flit 2 [2]) = true ∧ field (flitPayload (flit 2 [2])) 0 2 = 2 ∧ ((afterHeader svc (flit 2 [2])).port 0).st = .up) := by
  decide +kernel

theorem meets_FlitsAreCarried_steps :
    (∃ v : Port, v.st = .init ∧ v.initGood < 8 ∧ v.readySeen = true) ∧ (∃ v : Port, v.st = .init ∧ 8 ≤ v.initGood ∧ v.readySeen = true) ∧
    (∃ v : Port, v.delivered = []) ∧ (∃ v : Port, v.delivered = [(0, 0, zeroBytes 16)]) ∧
    (∃ v : Port, (0 + 65536 - v.exp) % 65536 = 0 ∧ (v.rxVc 0).units = 191) ∧ (∃ v : Port, (0 + 65536 - v.exp) % 65536 = 0 ∧ 192 ≤ (v.rxVc 0).units) ∧
    (∃ h v : Nat, 0 < (h + 65536 - v) % 65536 ∧ (h + 65536 - v) % 65536 = 32767) ∧ (∃ h v : Nat, (h + 65536 - v) % 65536 = 32768) ∧
    ((svc.port 0).wait = none) ∧ (∃ v : Port, v.wait = some 5) :=
  ⟨⟨{ st := .init, initGood := 7, readySeen := true }, by decide⟩, ⟨{ st := .init, initGood := 8, readySeen := true }, by decide⟩, ⟨{}, rfl⟩,
    ⟨{ delivered := [(0, 0, zeroBytes 16)] }, rfl⟩, ⟨{ rx := [(0, { units := 191 })] }, by decide +kernel⟩,
    ⟨{ rx := [(0, { units := 192 })] }, by decide +kernel⟩, ⟨32767, 0, by decide⟩, ⟨32768, 0, by decide⟩, by decide +kernel, ⟨{ wait := some 5 }, rfl⟩⟩

theorem meets_FlitsAreCarried_payloads :
    let packet : List Byte := [byte tCmd, 0, 4, 0] ++ zeroBytes 12
    let at_ (q : Option (List Byte)) : RxVc := (onPort { st := .up, rx := [(0, { partialPkt := q })] }).port 0 |>.rxVc 0
    (at_ none).partialPkt = none ∧ (at_ (some packet)).partialPkt = some packet ∧
    packetsIn 64 ((packet ++ zeroBytes 228).drop (4 * 0)) = ([packet], none, false) ∧
    (packetsIn 64 (([byte tCmd, 0, 1, 0] ++ zeroBytes 240).drop (4 * 0))).2.2 = true ∧
    (let w := packet.take 8 ++ (packet.drop 8 ++ zeroBytes 236).take (4 * 2)
     4 * field w 2 2 ≤ w.length) ∧
    (let w := packet.take 8 ++ (packet.drop 8 ++ zeroBytes 236).take (4 * 1)
     w.length < 4 * field w 2 2) ∧
    (let w := packet.take 8 ++ (packet.drop 8 ++ zeroBytes 236).take 244
     4 * field w 2 2 ≤ w.length) ∧
    (let w := [byte tCmd, 0, 255, 0] ++ (zeroBytes 244).take 244
     w.length < 4 * field w 2 2) := by decide +kernel

theorem meets_FlitsAreCarried_send :
    let held : Held := { seq := 0, vc := 0, pstart := 63, payload := [] }
    let up (v : Port) : Prop := ((onPort { v with st := .up }).port 0).st = .up
    (up { replay := [held], resend := some [held] }) ∧
    (up { replay := [held] } ∧ (0 : Nat) < (onPort { st := .up, replay := [held] }).replayLimit 0) ∧
    (up { replay := [held], replays := 255 } ∧ (onPort { st := .up, replay := [held], replays := 255 }).replayLimit 0 ≤ 255) ∧
    (∃ s : State, (s.port 0).st = .init) ∧ (∃ s : State, (s.port 0).st = .up ∧ (s.port 0).eth ≠ 1 ∧ (s.port 0).resend = some []) ∧
    (∃ s : State, (s.port 0).st = .up ∧ (s.port 0).resend = some [held] ∧ s.vcOff 0 0 = true) ∧
    (∃ s : State, (s.port 0).st = .up ∧ (s.port 0).resend = some [held] ∧ s.vcOff 0 0 = false) ∧
    (∃ s : State, (s.port 0).st = .up ∧ (s.port 0).resend = none ∧ s.pickVc 0 (s.openWindow 0) = none) ∧
    (∃ s : State, (s.port 0).st = .up ∧ (s.port 0).resend = none ∧ (s.port 0).replay.length < 512 ∧ s.pickVc 0 (s.openWindow 0) = some 0) ∧
    (∃ s : State, (s.port 0).st = .up ∧ (s.port 0).eth = 1 ∧ s.pickVc 0 none = none) ∧
    ∃ s : State, (s.port 0).st = .up ∧ (s.port 0).eth = 1 ∧ (s.pickVc 0 none).isSome = true := by
  refine ⟨by decide +kernel, by decide +kernel, by decide +kernel,
    ⟨onPort { st := .init }, rfl⟩, ⟨onPort { st := .up, resend := some [] }, by decide +kernel⟩,
    ⟨onPort { st := .up, resend := some [{ seq := 0, vc := 0, pstart := 63, payload := [] }], xoffRx := 63 }, by decide +kernel⟩,
    ⟨onPort { st := .up, resend := some [{ seq := 0, vc := 0, pstart := 63, payload := [] }] }, by decide +kernel⟩, ⟨svc, by decide +kernel⟩,
    ⟨svc.setQueue 0 0 [{ pkt := { dst := 2, length := 4 } }], by decide +kernel⟩, ⟨onPort { st := .up, eth := 1 }, by decide +kernel⟩,
    ⟨(onPort { st := .up, eth := 1 }).setQueue 0 0 [{ pkt := { dst := 2, length := 4 } }], by decide +kernel⟩⟩

/-- A frame of an Ethernet port to this module: no packet, one of 16 bytes. -/
def frame0 (s : State) (n : Nat) (b : List Byte) (seg : Nat := 3) : List Byte :=
  beBytes 6 (s.portMac 0) ++ zeroBytes 6 ++ beBytes 2 0x8100 ++ beBytes 2 0 ++ beBytes 2 (s.etype 0) ++ [byte (1 + n * 16), byte seg] ++ zeroBytes 6 ++ b ++ zeroBytes 4
def packet16 : List Byte := [byte tCmd, 0, 4, 0] ++ zeroBytes 12

theorem meets_PortsChangeState_events :
    (∃ v : Port, v.st = .training ∧ v.eth ≠ 1) ∧ (∃ v : Port, v.st = .training ∧ v.eth = 1) ∧ (∃ v : Port, v.st = .init) ∧
    (∃ (s : State) (lanes lost : Nat), (s.port 0).st = .up ∧ lanes % 16 ≠ 0 ∧ s.lockLossNs 0 = lost) ∧
    (∃ (s : State) (lanes lost : Nat), (s.port 0).st = .up ∧ lanes % 16 ≠ 0 ∧ lost < s.lockLossNs 0) ∧
    (∃ s : State, (s.port 0).st = .down ∧ (s.elapseTo ((s.port 0).since + s.downHoldNs 0)).mayTrain 0 = true) ∧
    (∃ s : State, (s.port 0).st = .down ∧ (s.elapseTo ((s.port 0).since + s.downHoldNs 0)).mayTrain 0 = false) ∧
    (∃ s : State, s.boot.state = 7 ∧ s.boot.served = none ∧ s.boot.turn = 0) ∧
    (∃ s : State, s.mgr.role = 2 ∧ s.tick.listenFrom = none ∧ s.tick.locked = false ∧ s.boot.state < 6) ∧
    (∃ x : Packet, x.typ = tTickSync) ∧ (∃ x : Packet, x.typ ≠ tTickSync) := by
  refine ⟨⟨{ st := .training }, by decide⟩, ⟨{ st := .training, eth := 1 }, by decide⟩, ⟨{ st := .init }, rfl⟩,
    ⟨svc, 8, _, by decide +kernel, by decide, rfl⟩, ⟨svc, 8, 0, by decide +kernel⟩,
    ⟨{ onPort { st := .down } with
        pwr := { svc.pwr with sampled := some { role := 3, x := 1, y := 0, z := 0, mateAHigh := false, mateBHigh := false } } }, by decide +kernel⟩,
    ⟨{ onPort { st := .down } with clk := {} }, by decide +kernel⟩, ⟨{ svc with boot := { state := 7 } }, by decide⟩,
    ⟨{ boss with boot := { state := 5 }, tick := {} }, by decide⟩, ⟨{ typ := tTickSync }, rfl⟩, ⟨{ typ := tRead }, by decide⟩⟩

theorem meets_PortsChangeState_frames :
    let s := onPort { st := .up, eth := 1 }
    let w := (s.drainRx 0).fecCount 0 0 0
    let room (f : List Byte) : Prop := ((w.port 0).rxVc 0).units + (((f.drop 26).take (f.length - 30)).length + 255) / 256 ≤ 192
    (∀ seg ∈ [0, 1, 2, 3], let f := frame0 s 0 packet16 seg
      w.frameOk 0 f = true ∧ bits (field f 18 1) 6 4 = 0 ∧ room f ∧ bit (field f 19 1) 0 = bit seg 0 ∧ bit (field f 19 1) 1 = bit seg 1 ∧
        packetsIn 1024 ((f.drop 26).take (f.length - 30)) = ([packet16], none, false)) ∧
    w.frameOk 0 (zeroBytes 64) = false ∧ (svc.port 0).eth ≠ 1 ∧
    (let v : Port := { st := .up, eth := 1, reasm := [{ src := 7, vc := 0, bytes := zeroBytes 16 }] }
     (v.reasm.find? fun r => r.src == 7 && r.vc == 0) = some { src := 7, vc := 0, bytes := zeroBytes 16 } ∧
     (v.reasm.find? fun r => r.src == 8 && r.vc == 0) = none ∧ (zeroBytes 16).length = 16) ∧
    (∃ v : Port, tblMin v.pfcRx = some 5) ∧ (∃ v : Port, tblMin v.pfcTx = some 5) ∧ tblMin (svc.port 0).pfcRx = none ∧
    tblMin (svc.port 0).pfcTx = none := by
  refine ⟨by decide +kernel, by decide +kernel, by decide +kernel, by decide +kernel, ⟨{ pfcRx := [(3, 5)] }, rfl⟩, ⟨{ pfcTx := [(3, 5)] }, rfl⟩,
    by decide +kernel, by decide +kernel⟩

/-- A port whose receive buffer of VC 0 is full, and of which the transaction layer takes nothing. -/
def fullPort : State := onPort { st := .up, eth := 1, rx := [(0, { units := 192 })] }
theorem meets_PortsChangeState_overrun (h : Config.free 0 % 193 = 0) :
    let f := frame0 fullPort 0 packet16
    let w := (fullPort.drainRx 0).fecCount 0 0 0
    (fullPort.port 0).st = .up ∧ (fullPort.port 0).eth = 1 ∧ w.frameOk 0 f = true ∧ bits (field f 18 1) 6 4 = 0 ∧
      192 < ((w.port 0).rxVc 0).units + (((f.drop 26).take (f.length - 30)).length + 255) / 256 := by
  have e : ((((fullPort.drainRx 0).fecCount 0 0 0).port 0).rxVc 0).units = 192 - Config.free 0 / 256 ^ 0 % (192 + 1) := by rfl
  refine ⟨by decide +kernel, by decide +kernel, by decide +kernel, by decide +kernel, ?_⟩
  rw [e, Nat.pow_zero, Nat.div_one, show 192 + 1 = 193 from rfl, h]
  decide +kernel

/-- Endpoint 7 is learned on port 0; a queued packet for endpoint 2. -/
def towards7 (s : State := svc) : State := { s with rtr := { s.rtr with learned := [{ ep := 7, port := 0, mac := 0 }] } }
def ethTowards7 : State := towards7 { svc with ports := [(0, { st := .up, eth := 1 })] }
def one : Queued := { pkt := { dst := 2, length := 4 } }

theorem meets_RouterAndShapersMove_transit :
    let p (hops : Nat) : Packet := { typ := tRead, dst := 7, hops := hops }
    let lim := svc.actBits .rtr 0 0x040 15 8
    (∃ q : Packet, q.dst = svc.ep ∧ q.unnamed = true) ∧
    (svc.portUp 0 = true ∧ (p 0).dst ≠ svc.ep ∧ ((svc.received 0 (p 0) none).police (some 0) (p 0)).isSome = true) ∧
    svc.portUp 3 = false ∧ svc.route 7 0 0 = none ∧ (towards7).route 7 0 0 = some (0, 0) ∧
    ((towards7).notCarried 0 (p 0) = false ∧ (p 0).hops < lim ∧ lim ≤ (p 255).hops) ∧
    ethTowards7.notCarried 0 { typ := tSnoopInv, dst := 7 } = true ∧
    (svc.egressFull 0 { pkt := p 0 } = false ∧ svc.onBeam 0 (p 0).channel = []) := by
  refine ⟨⟨{ dst := 1, typ := 0x7F }, by decide +kernel⟩, by decide +kernel, by decide +kernel, by decide +kernel, by decide +kernel,
    by decide +kernel, by decide +kernel, by decide +kernel⟩

theorem meets_RouterAndShapersMove_full :
    ∃ (s : State) (x : Queued), s.egressFull 0 x = true :=
  ⟨svc.setQueue 0 (queueOf { typ := tRead } 0) [{ pkt := { typ := tRead, length := 16384 } }], { pkt := { typ := tRead, length := 4 } },
    by decide +kernel⟩

theorem meets_RouterAndShapersMove_versions :
    let settled (s : State) : State := s.elapseTo (s.rtr.flipAt + s.actBits .rtr 0 0x040 31 16 * 1000)
    let old : State := { svc with rtr := { svc.rtr with oldWritable := false } }
    let busy : State := { svc with rtr := { svc.rtr with oldWritable := false, inject := 1, queues := [(0, [one])] } }
    let flip : State := { svc with rtr := { svc.rtr with flipArmed := some 5000 } }
    let board : State := { svc with rtr := { svc.rtr with boardArmed := some 5000 } }
    svc.rtr.oldWritable = true ∧ (settled old).occupancy (1 - (settled old).rtr.inject) = 0 ∧
    (settled busy).occupancy (1 - (settled busy).rtr.inject) ≠ 0 ∧ svc.rtr.flipArmed = none ∧ svc.rtr.boardArmed = none ∧
    (flip.dueBefore 5000 7 = false ∧ State.dueBefore { flip with cc := { flip.cc with swap := some (0, 4000) } } 5000 7 = true) ∧
    (board.dueBefore 5000 8 = false ∧ State.dueBefore { board with cc := { board.cc with swap := some (0, 4000) } } 5000 8 = true) := by
  decide +kernel

theorem meets_RouterAndShapersMove_throttle :
    (∃ s : State, s.throttleLo < s.qdepth 0 1) ∧ svc.qdepth 0 1 ≤ svc.throttleLo ∧
    (∃ s : State, s.throttled 0 1 = true ∧ s.throttleHi ≤ s.qdepth 0 1) ∧ ¬(svc.throttleHi ≤ svc.qdepth 0 1) :=
  ⟨⟨svc.setQueue 0 (queueOf { typ := tRead } 0) [{ pkt := { typ := tRead, length := 1000000 } }], by decide +kernel⟩, by decide +kernel,
    ⟨State.setQueue { svc with ports := [(0, { st := .up, eth := 1 })] } 0 (queueOf { typ := tRead } 0)
      [{ pkt := { typ := tRead, length := 1000000 } }], by decide +kernel⟩, by decide +kernel⟩

theorem meets_RouterAndShapersMove_hosts :
    let host (w : Word) (p : Packet) : State := { svc with qos := { svc.qos with hosts := [(0, { key := w, waiting := [(p, 4)] })] } }
    let answering (s : State) : State :=
      { s with txn := { s.txn with slots := [(4, { src := 4, tag := 9, port := none, pkt := {}, ctx := 5, key := .clear })] } }
    (svc.host 0).waiting = [] ∧ (((host 0x80000000 {}).host 0).waiting ≠ [] ∧ wbit ((host 0x80000000 {}).host 0).key 31 = true) ∧
    wbit ((host 0 {}).host 0).key 31 = false ∧ (host 0 {}).slot? 4 = none ∧ ((answering (host 0 {})).slot? 4).isSome = true ∧
    ({ form := 0 } : Packet).last = false ∧ ({ form := 2 ^ 20 } : Packet).last = true ∧
    (svc.boot.started = true ∧ svc.tly.discard = false) ∧ ({} : State).boot.started = false ∧
    (∃ s : State, s.boot.started = true ∧ s.tly.discard = true) ∧
    (∃ (b : Bucket) (rate burst now : Nat), 0 < rate ∧ b.at_ ≤ now ∧ b.tokens ≤ burstOf burst ∧ 1 ≤ burst) :=
  ⟨by decide +kernel, by decide +kernel, by decide +kernel, by decide +kernel, by decide +kernel, by decide +kernel, by decide +kernel,
    by decide +kernel, by decide +kernel, ⟨{ svc with tly := { svc.tly with discard := true } }, by decide +kernel⟩,
    ⟨{}, 1, 1, 5, by decide +kernel⟩⟩

/-- A board of period 100 whose port 0 has the windows [0, 10) and [10, 20), at a tick. -/
def board (count : Nat) : State :=
  { svc with tick := { svc.tick with count := count }, regs := [(0x20818, 100)]
             rtr := { svc.rtr with board := [(0x880000, 0x80020005), (0x88000C, 10), (0x880010, 0x80020005), (0x880018, 10), (0x88001C, 10)] } }

theorem meets_WindowsOpenByPhase :
    (∃ s : State, s.tick.count < s.boardAnchor 0) ∧
    (∀ n ∈ [1000, 1009, 1010, 1019], (board n).tick.count = (board n).boardAnchor 0 + n ∧ 0 < (board n).boardPeriod 0 ∧
      (board n).portEth 0 = false ∧ ((board n).openWindow 0).map (fun x => (x.1.index, x.2)) =
        [(1000, (0, 10)), (1009, (0, 1)), (1010, (1, 10)), (1019, (1, 1))].lookup n) ∧
    (∀ w ∈ (board 0).boardWins 0 0, ∀ x ∈ (board 0).boardWins 0 0, x ≠ w → x.overlaps w = false) ∧
    (board 1020).openWindow 0 = none ∧ (∃ s : State, s.portEth 0 = true) ∧ svc.boardPeriod 0 = 0 :=
  ⟨⟨{ svc with regs := [(0x2081C, 2000)] }, by decide +kernel⟩, by decide +kernel, by decide +kernel, by decide +kernel,
    ⟨{ svc with ports := [(0, { st := .up, eth := 1 })] }, by decide +kernel⟩, by decide +kernel⟩

end Sys2Proof.Tests
end

section
/-!
The endpoint ID (R20): three nibbles read from the sampled SLOT straps, and no other part of the state.
-/

namespace Sys2Proof.Machine

/-- The sampled coordinates are the nibbles of the endpoint ID, Z above Y above X (R20). -/
theorem State.ep_of_sampled {s : State} {p : Straps} (h : s.pwr.sampled = some p) :
    s.ep = p.z % 16 * 256 + p.y % 16 * 16 + p.x % 16 := by
  simp [State.ep, h]

/-- The endpoint ID reads the sampled straps and nothing else: no configuration setting overrides it (R20). -/
theorem State.ep_eq_of_sampled_eq {s t : State} (h : s.pwr.sampled = t.pwr.sampled) : s.ep = t.ep := by
  simp only [State.ep, h]

/-- With coordinates of 4 bits each, the endpoint ID has 12 bits, and each coordinate is found in its nibble (R20). -/
theorem State.ep_fields {s : State} {p : Straps} (h : s.pwr.sampled = some p) (hx : p.x < 16) (hy : p.y < 16) (hz : p.z < 16) :
    s.ep < 4096 ∧ s.ep / 256 = p.z ∧ s.ep / 16 % 16 = p.y ∧ s.ep % 16 = p.x := by
  have hep : s.ep = p.z * 256 + p.y * 16 + p.x := by
    rw [State.ep_of_sampled h, Nat.mod_eq_of_lt hx, Nat.mod_eq_of_lt hy, Nat.mod_eq_of_lt hz]
  omega

/-- A coordinate or role strap left open reads 1 in every bit (R20). -/
theorem Straps.open_reads_ones :
    ({} : Straps).x = 15 ∧ ({} : Straps).y = 15 ∧ ({} : Straps).z = 15 ∧ ({} : Straps).role = 3 :=
  ⟨rfl, rfl, rfl, rfl⟩

/-- Settles O5: the nibbles of a sampled endpoint ID, the reading of open straps, and that `State.ep` reads the sampled straps only. -/
theorem endpointFromStraps : Obligations.EndpointFromStraps :=
  ⟨fun _ _ => State.ep_fields, Straps.open_reads_ones, fun _ _ => State.ep_eq_of_sampled_eq⟩

end Sys2Proof.Machine
end

section
/-!
The swap and the loader (R84, R250): what a swap of equal sets does in the blocks, and that the loader, whose change of a schedule
waited for that swap, then arms one of its own.
-/

namespace Sys2Proof.Machine

/-! ### Folds that keep what each step keeps -/

/-- A fold of operations that each leave a part of the state as it is leaves it as it is. -/
theorem foldl_keeps {α β : Type} (part : State → β) {g : State → α → State} (hg : ∀ s x, part (g s x) = part s) (l : List α) (s : State) :
    part (l.foldl g s) = part s := by
  induction l generalizing s with
  | nil => rfl
  | cons x l ih => exact (ih (g s x)).trans (hg s x)

/-! ### The swap area under the loader's changes -/

/-- Whether a swap is armed is read from the swap area alone. -/
theorem State.swapArmed_of_cc_eq {s t : State} (h : s.cc = t.cc) : s.swapArmed = t.swapArmed := by
  simp only [State.swapArmed, h]

@[simp] theorem State.putShadow_cc (s : State) (f off v : Nat) : (s.putShadow f off v).cc = s.cc := rfl
@[simp] theorem State.tickBefore_cc (s : State) (launch : Nat) : (s.tickBefore launch).1.cc = s.cc := rfl
@[simp] theorem State.copyBoard_cc (s : State) : s.copyBoard.cc = s.cc := rfl

@[simp] theorem State.armBoard_cc (s : State) (tick : Nat) : (s.armBoard tick).cc = s.cc := by
  unfold State.armBoard; split <;> rfl

@[simp] theorem State.dropWindow_cc (s : State) (w : Nat × Nat) : (s.dropWindow w).cc = s.cc := by
  unfold State.dropWindow; dsimp only; split <;> rfl

/-- With none armed, the loader's swap is. -/
theorem State.armSwap_swap_isSome {s : State} (h : s.swapArmed = false) (tick : Nat) : (s.armSwap tick).cc.swap.isSome = true := by
  simp [State.armSwap, h]

/-! ### A schedule change that waits for the loader -/

/-- A load of this module whose job is gone waits to have a schedule entry removed that is live, and no other load of this module
is placing entries. -/
structure State.ClearsEntry (s : State) (l : Load) (e : Nat × Nat) : Prop where
  listed : l ∈ s.loads
  phase : l.phase = .clearing
  here : l.target = s.ep
  entry : e ∈ l.entries
  live : wbit (s.entCtxWord e.1 e.2) 31 = true
  alone : (s.loads.any fun x => x.target == s.ep && x.phase == .placing && !x.entries.isEmpty) = false

/-- The loader removes a waiting live entry with a swap of its own (R250): with none armed, it arms one. -/
theorem State.loaderClear_swap_isSome {s : State} {l : Load} {e : Nat × Nat} (h : s.ClearsEntry l e) (hs : s.swapArmed = false) :
    s.loaderClear.cc.swap.isSome = true := by
  unfold State.loaderClear
  extract_lets gone busyE busyW entries windows left s₁ live s₂ s₃
  have hgone : l ∈ gone := by simp [gone, h.listed, h.phase, h.here]
  have hentries : entries = gone.flatMap (·.entries) := by simp [entries, busyE, hs, h.alone]
  have hlive : live = true :=
    List.any_eq_true.2 ⟨e, hentries ▸ List.mem_flatMap.2 ⟨l, hgone, h.entry⟩, h.live⟩
  have hcc : (s₃.tickBefore 0).1.cc = s.cc := by
    have hs₂ : s₂.cc = s.cc := by unfold s₂; split <;> rfl
    refine (State.tickBefore_cc s₃ 0).trans (Eq.trans ?_ hs₂)
    exact foldl_keeps State.cc (fun t e => State.putShadow_cc t e.1 (0x060 + 16 * e.2) 0x3E8) entries s₂
  have harmed : ((s₃.tickBefore 0).1.armSwap (s₃.tickBefore 0).2).cc.swap.isSome = true :=
    State.armSwap_swap_isSome ((State.swapArmed_of_cc_eq hcc).trans hs) _
  simp only [hlive, if_true]
  split
  · exact harmed
  · rw [State.armBoard_cc, foldl_keeps State.cc State.dropWindow_cc, State.copyBoard_cc]
    exact harmed

/-! ### A swap of equal sets in the blocks -/

/-- With the old active set in force again, no link restarts (R303). -/
theorem State.lnkSwapped_of_active_eq {s : State} {old : RegMap} (h : s.active = old) : s.lnkSwapped old = s := by
  subst h
  exact List.foldl_fixed' (fun _ => if_neg (not_not_intro rfl)) _

/-- With the old active set in force again, no bucket restarts and no deficit is dropped (R395). -/
theorem State.qosSwapped_of_active_eq {s : State} {old : RegMap} (h : s.active = old) : s.qosSwapped old = s := by
  subst h
  unfold State.qosSwapped
  extract_lets was full burst s₁ s₂ _ s₃
  have h₁ : s₁ = s := List.foldl_fixed' (fun _ => if_neg (not_not_intro rfl)) _
  have h₂ : s₂ = s := (if_neg (by rw [h₁]; exact not_or_intro (not_not_intro rfl) (not_not_intro rfl))).trans h₁
  have h₃ : s₃ = s := (if_neg (by rw [h₂]; exact not_not_intro rfl)).trans h₂
  rw [h₃]
  refine List.foldl_fixed' (fun p => if_neg ?_) _
  simp [was, State.act, pageBase]

/-- With the old active set in force again, the bandwidth window goes on (R454). -/
theorem State.bwSwapped_of_active_eq {s : State} {old : RegMap} (h : s.active = old) : s.bwSwapped old = s := by
  subst h
  refine if_neg ?_
  simp [State.act, pageBase]

/-- With nothing held for a throttled VC, a swap releases nothing (R342). -/
theorem State.rtrSwapped_of_none_held {s : State} (h : s.rtr.held = []) : s.rtrSwapped = s := by
  have hnone (k : Nat) : { s with rtr := { s.rtr with held := tblDel s.rtr.held k } } = s := by
    rw [h, tblDel, ← h]
  have hvc (p c : Nat) : (if s.throttled p c then s else s.unhold p c (tblGet s.rtr.held (p * 8 + c) [])) = s := by
    rw [h]
    exact (ite_eq_left_iff).2 fun _ => hnone _
  exact List.foldl_fixed' (fun p => List.foldl_fixed' (hvc p) _) _

/-- A frame whose clock is off and whose registers stand is not touched by a swap. -/
theorem State.frmSwapped_of_gated {s was : State} {f : Nat} (h : s.active = was.active) (hf : s.clocked .frm f = false) :
    s.frmSwapped was f = s := by
  have hdiv : s.checkDiv f = was.checkDiv f := by simp only [State.checkDiv, State.actBits, State.act, h]
  simp [State.frmSwapped, hdiv, hf]

/-- Without an enabled bridge no control key is derived (R429). -/
theorem State.deriveCtrl_of_no_bridge {s : State} (h : wbit (s.act .mgr 0 0x048) 31 = false) : s.deriveCtrl = s := by
  simp [State.deriveCtrl, h]

/-- The parts of a state that say what a swap finds to do in the blocks and at the loader. -/
def State.swapParts (s : State) : RegMap × List Load × Rtr × Clk × Option Straps :=
  (s.active, s.loads, s.rtr, s.clk, s.pwr.sampled)

theorem State.active_of_swapParts_eq {s t : State} (h : t.swapParts = s.swapParts) : t.active = s.active := congrArg Prod.fst h

/-- Equal sets change places, and the active one stands. -/
theorem State.exchange_swapParts {s : State} (h : s.shadow = s.active) (id tick : Nat) :
    (s.exchange id tick).swapParts = s.swapParts := by
  simp only [State.swapParts, State.exchange, h]

/-- SWAP_FIRED raised in every page (R84) changes only the pages' events and the ring that records them. -/
theorem State.swapFired_swapParts (s : State) : s.swapFired.swapParts = s.swapParts :=
  foldl_keeps State.swapParts (fun s p => by simp [State.swapParts]) allPages s

theorem State.swapFired_cc (s : State) : s.swapFired.cc = s.cc :=
  foldl_keeps State.cc (fun s p => by simp) allPages s

/-- A swap decides the throttle step anew (R28, R31), in the power block alone. -/
theorem State.pwrSwapped_swapParts (s : State) : s.pwrSwapped.swapParts = s.swapParts := by
  unfold State.pwrSwapped State.decideStep
  split <;> rfl

theorem State.pwrSwapped_cc (s : State) : s.pwrSwapped.cc = s.cc := by
  unfold State.pwrSwapped State.decideStep
  split <;> rfl

/-- Nothing in the blocks waits for a swap: no request is held for a throttled VC, every frame clock is off and no bridge is
enabled. -/
structure State.Quiet (s : State) : Prop where
  held : s.rtr.held = []
  gated : s.clk.enFrm = 0
  unbridged : wbit (s.act .mgr 0 0x048) 31 = false

theorem State.Quiet.of_swapParts_eq {s t : State} (hq : s.Quiet) (h : t.swapParts = s.swapParts) : t.Quiet := by
  simp only [State.swapParts, Prod.mk.injEq] at h
  obtain ⟨hactive, -, hrtr, hclk, -⟩ := h
  exact ⟨hrtr ▸ hq.held, hclk ▸ hq.gated, by simpa only [State.act, hactive] using hq.unbridged⟩

theorem State.ClearsEntry.of_swapParts_eq {s t : State} {l : Load} {e : Nat × Nat} (hc : s.ClearsEntry l e)
    (h : t.swapParts = s.swapParts) : t.ClearsEntry l e := by
  simp only [State.swapParts, Prod.mk.injEq] at h
  obtain ⟨hactive, hloads, -, -, hsampled⟩ := h
  have hep : t.ep = s.ep := by simp only [State.ep, hsampled]
  exact ⟨by rw [hloads]; exact hc.listed, hc.phase, hc.here.trans hep.symm, hc.entry,
    by rw [State.entCtxWord, State.act, hactive]; exact hc.live, by rw [hloads, hep]; exact hc.alone⟩

/-- In a quiet state whose active set stands, a swap touches the throttle step and the loader's changes alone. -/
theorem State.swapEffects_of_quiet {s was : State} (hq : s.Quiet) (h : s.active = was.active) :
    s.swapEffects was = s.pwrSwapped.loaderClear := by
  have hu : s.pwrSwapped.active = was.active := (State.active_of_swapParts_eq s.pwrSwapped_swapParts).trans h
  obtain ⟨hheld, hgated, hbridge⟩ := hq.of_swapParts_eq s.pwrSwapped_swapParts
  have hoff (f : Nat) : s.pwrSwapped.clocked .frm f = false := by simp [State.clocked, hgated, bit]
  have hframes : (List.range 32).foldl (fun t f => t.frmSwapped was f) s.pwrSwapped = s.pwrSwapped :=
    List.foldl_fixed' (f := fun t f => State.frmSwapped t was f) (fun f => State.frmSwapped_of_gated hu (hoff f)) _
  simp only [State.swapEffects, State.lnkSwapped_of_active_eq hu, State.rtrSwapped_of_none_held hheld,
    State.qosSwapped_of_active_eq hu, State.bwSwapped_of_active_eq hu,
    hframes, State.deriveCtrl_of_no_bridge hbridge]

/-- After a swap of equal sets in a quiet state, the loader has armed the next one for an entry that waited. -/
theorem State.fireSwap_swap_isSome {s : State} {l : Load} {e : Nat × Nat} (hset : s.shadow = s.active) (hq : s.Quiet)
    (hc : s.ClearsEntry l e) (hfloor : s.cc.floorWait = none) (id tick : Nat) : (s.fireSwap id tick).cc.swap.isSome = true := by
  have hfired : (s.exchange id tick).swapFired.swapParts = s.swapParts :=
    (State.swapFired_swapParts _).trans (State.exchange_swapParts hset id tick)
  have hactive : (s.exchange id tick).swapFired.active = s.active := State.active_of_swapParts_eq hfired
  have hfree : (s.exchange id tick).swapArmed = false := by simp [State.swapArmed, State.exchange, hfloor]
  have hcc : (s.exchange id tick).swapFired.pwrSwapped.cc = (s.exchange id tick).cc :=
    (State.pwrSwapped_cc _).trans (State.swapFired_cc _)
  rw [State.fireSwap, State.swapEffects_of_quiet (hq.of_swapParts_eq hfired) hactive]
  exact State.loaderClear_swap_isSome (hc.of_swapParts_eq ((State.pwrSwapped_swapParts _).trans hfired))
    ((State.swapArmed_of_cc_eq hcc).trans hfree)

/-- At the tick of a swap, with nothing due before it, the swap fires (R75, R84). -/
theorem exec_swapFire_of_due {s : State} {id tick : Nat} (h : s.cc.swap = some (id, tick)) (hdue : s.dueBefore tick 6 = false) :
    exec .swapFire s = .next ((s.elapseToTick tick).fireSwap id (s.elapseToTick tick).tick.count) := by
  change execSwapFire s = _
  simp [execSwapFire, h, hdue, onlyIf]

/-- SWAP_FIRE leaves a swap armed when it exchanges equal sets in a quiet state where a schedule entry waits for the loader. -/
theorem exec_swapFire_swap_isSome {s t : State} {l : Load} {e : Nat × Nat} {id tick : Nat} (h : s.cc.swap = some (id, tick))
    (hdue : s.dueBefore tick 6 = false) (hfloor : s.cc.floorWait = none) (hset : s.shadow = s.active) (hq : s.Quiet)
    (hc : s.ClearsEntry l e) (hexec : exec .swapFire s = .next t) : t.cc.swap.isSome = true := by
  have hparts : (s.elapseToTick tick).swapParts = s.swapParts := by simp [State.swapParts]
  rw [exec_swapFire_of_due h hdue] at hexec
  rw [← Host.Outcome.next.inj hexec]
  exact State.fireSwap_swap_isSome (by simpa using hset) (hq.of_swapParts_eq hparts) (hc.of_swapParts_eq hparts)
    (by simpa using hfloor) _ _

/-! ### A state in which a swap is armed after a swap has fired -/

/-- A job of this module's context 5 that has entry 0 of frame 0's schedule. -/
def scheduledJob : Load :=
  { phase := .placed, slot := noKey, target := 0x001, job := 1, ctx := 5, places := [(0, [0])], entries := [(0, 0)] }

/-- A configuration set in which that entry is valid, with slices of 1 µs. -/
def scheduledSet : RegMap := cfgPut [] 0x100060 0x80050001

/-- Module 0x001 in service as the active manager, its frames' clocks off, with a swap of equal sets armed for tick 2,000; then the
job's reservations are released (R250). -/
def releasedUnderSwap : State :=
  State.releaseHere
    { pwr := { stage := .conducting, railsGood := true, pwrGood := true, sampled := some { role := 2, x := 1, y := 0, z := 0 } }
      boot := { state := 6, started := true }, mgr := { role := 2, ep := some 1 }
      tick := { locked := true, first := true, count := 1000 }
      active := scheduledSet, shadow := scheduledSet, cc := { swap := some (1, 2000) }, loads := [scheduledJob] } scheduledJob

/-- The armed swap holds the loader back: the job's entry waits, and both sets stand. -/
theorem releasedUnderSwap_waits :
    releasedUnderSwap.ClearsEntry { scheduledJob with phase := .clearing } (0, 0) ∧ releasedUnderSwap.Quiet ∧
    releasedUnderSwap.shadow = releasedUnderSwap.active ∧ releasedUnderSwap.cc = { swap := some (1, 2000) } ∧
    releasedUnderSwap.dueBefore 2000 6 = false := by
  refine ⟨⟨by decide, rfl, by decide, by decide, by decide, by decide⟩, ⟨by decide, by decide, by decide⟩, ?_⟩
  decide

/-- Refutes O21: a swap of equal sets fires while the schedule entry of a removed job waits for the loader, which then arms a swap of
its own (R250), so that a swap is armed after one has fired. -/
theorem not_shadowAndActiveSetsChange : ¬ Obligations.ShadowAndActiveSetsChange := by
  unfold Obligations.ShadowAndActiveSetsChange
  rintro ⟨-, hfires⟩
  obtain ⟨hclears, hquiet, hset, hcc, hdue⟩ := releasedUnderSwap_waits
  have hswap : releasedUnderSwap.cc.swap = some (1, 2000) := by rw [hcc]
  obtain ⟨t, hexec, -, -, hnone, -⟩ := hfires releasedUnderSwap 1 2000 hswap hdue
  have harmed : t.cc.swap.isSome = true :=
    exec_swapFire_swap_isSome hswap hdue (by rw [hcc]) hset hquiet hclears hexec
  rw [hnone] at harmed
  cases harmed

end Sys2Proof.Machine
end

section
/-!
The open window of the counting board (R345): when none can be open, and else the search of the active bank by its phase.
-/

namespace Sys2Proof.Machine

/-! ### A phase inside a window -/

/-- The phase `ph` lies inside the window (R345). -/
abbrev BoardWin.OpenAt (w : BoardWin) (ph : Nat) : Prop := w.start ≤ ph ∧ ph < w.start + w.len

/-- Two windows that share a phase overlap. -/
theorem BoardWin.overlaps_of_openAt {v w : BoardWin} {ph : Nat} (hv : v.OpenAt ph) (hw : w.OpenAt ph) : v.overlaps w = true :=
  decide_eq_true ⟨hv.1.trans_lt hw.2, hw.1.trans_lt hv.2⟩

/-! ### Where no window is open, whatever the bank holds -/

theorem State.openWindow_of_portEth {s : State} {p : Nat} (h : s.portEth p = true) : s.openWindow p = none :=
  if_pos (.inl h)

theorem State.openWindow_of_boardPeriod_eq_zero {s : State} {p : Nat} (h : s.boardPeriod s.rtr.boardActive = 0) :
    s.openWindow p = none :=
  if_pos (.inr (.inl h))

theorem State.openWindow_of_lt_boardAnchor {s : State} {p : Nat} (h : s.tick.count < s.boardAnchor s.rtr.boardActive) :
    s.openWindow p = none :=
  if_pos (.inr (.inr h))

/-! ### The active bank counts -/

/-- On this port the active bank is at phase `ph`: its ANCHOR is reached, its PERIOD is not 0, and the port is not of Ethernet
personality (R345, R346). -/
structure State.BoardAt (s : State) (p ph : Nat) : Prop where
  anchored : s.boardAnchor s.rtr.boardActive ≤ s.tick.count
  period : 0 < s.boardPeriod s.rtr.boardActive
  notEth : s.portEth p = false
  phase : (s.tick.count - s.boardAnchor s.rtr.boardActive) % s.boardPeriod s.rtr.boardActive = ph

/-- A port finds its open window by the phase, and counts the ticks left to the window's end. -/
theorem State.BoardAt.openWindow_eq {s : State} {p ph : Nat} (h : s.BoardAt p ph) :
    s.openWindow p =
      ((s.boardWins p s.rtr.boardActive).find? fun w => decide (w.OpenAt ph)).map fun w => (w, w.start + w.len - ph) := by
  obtain ⟨hanchor, hperiod, heth, rfl⟩ := h
  exact if_neg (by simp [heth, hperiod.ne', hanchor])

/-- The window found is one of the port's, and the phase is inside it. -/
theorem State.BoardAt.of_openWindow_eq_some {s : State} {p ph left : Nat} {w : BoardWin} (h : s.BoardAt p ph)
    (hw : s.openWindow p = some (w, left)) :
    w ∈ s.boardWins p s.rtr.boardActive ∧ w.OpenAt ph ∧ left = w.start + w.len - ph := by
  rw [h.openWindow_eq, Option.map_eq_some_iff] at hw
  obtain ⟨v, hfind, hv⟩ := hw
  obtain ⟨rfl, rfl⟩ := Prod.mk.inj hv
  exact ⟨List.mem_of_find?_eq_some hfind, by simpa using List.find?_some hfind, rfl⟩

/-- With no window around the phase, none is open. -/
theorem State.BoardAt.openWindow_eq_none {s : State} {p ph : Nat} (h : s.BoardAt p ph)
    (hout : ∀ w ∈ s.boardWins p s.rtr.boardActive, ¬ w.OpenAt ph) : s.openWindow p = none := by
  rw [h.openWindow_eq, Option.map_eq_none_iff, List.find?_eq_none]
  exact fun w hw => by simpa only [decide_eq_true_eq] using hout w hw

/-- A window around the phase that no other of the port overlaps is the open one. -/
theorem State.BoardAt.openWindow_eq_some {s : State} {p ph : Nat} {w : BoardWin} (h : s.BoardAt p ph)
    (hw : w ∈ s.boardWins p s.rtr.boardActive) (hin : w.OpenAt ph)
    (halone : ∀ x ∈ s.boardWins p s.rtr.boardActive, x ≠ w → x.overlaps w = false) :
    s.openWindow p = some (w, w.start + w.len - ph) := by
  cases hopen : s.openWindow p with
  | none =>
    rw [h.openWindow_eq, Option.map_eq_none_iff, List.find?_eq_none] at hopen
    exact absurd (decide_eq_true hin) (hopen w hw)
  | some r =>
    obtain ⟨x, left⟩ := r
    obtain ⟨hx, hxin, rfl⟩ := h.of_openWindow_eq_some hopen
    have hxw : x = w := by
      by_contra hne
      exact absurd (BoardWin.overlaps_of_openAt hxin hin) (by simp [halone x hx hne])
    rw [hxw]

/-- Settles O60: no window before ANCHOR, on an Ethernet port or with PERIOD 0, and else the windows around the phase of the active
bank. -/
theorem windowsOpenByPhase : Obligations.WindowsOpenByPhase := by
  intro s p b
  refine ⟨State.openWindow_of_lt_boardAnchor, State.openWindow_of_portEth, State.openWindow_of_boardPeriod_eq_zero, ?_⟩
  intro d hd hperiod heth
  have hat : s.BoardAt p (d % s.boardPeriod b) :=
    ⟨(Nat.le_add_right _ d).trans_eq hd.symm, hperiod, heth, by rw [hd, Nat.add_sub_cancel_left]⟩
  refine ⟨fun w left hopen => ?_, fun w hw hstart hend => hat.openWindow_eq_some hw ⟨hstart, hend⟩, fun hout => ?_⟩
  · obtain ⟨hw, hin, hleft⟩ := hat.of_openWindow_eq_some hopen
    exact ⟨hw, hin.1, by omega, by omega⟩
  · exact hat.openWindow_eq_none fun w hw hin => (hout w hw).elim hin.1.not_gt hin.2.not_ge

end Sys2Proof.Machine
end

section
/-!
Every command (R1): each row's meaning answers a next state that follows the state it ran in, so the forms of `State.Follows` hold along
every step.
-/

namespace Sys2Proof.Machine

/-- Every command goes on: it answers a next state that follows whatever its own state follows. -/
theorem exec_goes {a s : State} (h : a.Follows s) (c : Instr) : a.Goes (exec c s) := by
  cases c with
  | powerInputRise mv heldMs => exact follows_execPowerInputRise h mv heldMs
  | hotSwapPinChange mated => exact follows_execHotSwapPinChange h mated
  | brownOutTurnOff mv ns => exact follows_execBrownOutTurnOff h mv ns
  | overVoltageTurnOff mv ns => exact follows_execOverVoltageTurnOff h mv ns
  | railOutOfBand page => exact follows_execRailOutOfBand h page
  | moduleReset lowNs released => exact follows_execModuleReset h lowNs released
  | strapSampling pins => exact follows_execStrapSampling h pins
  | strapRecheck pins => exact follows_execStrapRecheck h pins
  | powerSample mv dw => exact follows_execPowerSample h mv dw
  | throttleStepTakesEffect => exact follows_execThrottleStepTakesEffect h
  | thermalThresholdCross t => exact follows_execThermalThresholdCross h t
  | thermalStepFall t => exact follows_execThermalStepFall h t
  | thermalTrip t => exact follows_execThermalTrip h t
  | tripTurnOff => exact follows_execTripTurnOff h
  | page x page => exact follows_execPage h x page
  | clearFaults x => exact follows_execClearFaults h x
  | statusWord x => exact follows_execStatusWord h x
  | readVin x => exact follows_execReadVin h x
  | readIin x => exact follows_execReadIin h x
  | readVout x => exact follows_execReadVout h x
  | readIout x => exact follows_execReadIout h x
  | readTemperature1 x => exact follows_execReadTemperature1 h x
  | readPout x => exact follows_execReadPout h x
  | readPin x => exact follows_execReadPin h x
  | telemetryRefresh pages => exact follows_execTelemetryRefresh h pages
  | smbusBlockRead addr offset len => exact follows_execSmbusBlockRead h addr offset len
  | smbusAlertClear addr offset value => exact follows_execSmbusAlertClear h addr offset value
  | smbusAlertResponse => exact follows_execSmbusAlertResponse h
  | jtagIdcode => exact follows_execJtagIdcode h
  | jtagBypass => exact follows_execJtagBypass h
  | jtagSamplePreload pins shifted => exact follows_execJtagSamplePreload h pins shifted
  | jtagExtest pins shifted => exact follows_execJtagExtest h pins shifted
  | jtagExtestPulse pins shifted => exact follows_execJtagExtestPulse h pins shifted
  | jtagExtestTrain pins shifted => exact follows_execJtagExtestTrain h pins shifted
  | romPhaseEnd => exact follows_execRomPhaseEnd h
  | recoveryLinkTimeout => exact follows_execRecoveryLinkTimeout h
  | selftestEnd r => exact follows_execSelftestEnd h r
  | restoreEnd => exact follows_execRestoreEnd h
  | trainEnd r => exact follows_execTrainEnd h r
  | controllerZeroDone c => exact follows_execControllerZeroDone h c
  | zeroEnd => exact follows_execZeroEnd h
  | phaseLimit r t => exact follows_execPhaseLimit h r t
  | tickListenEnd => exact follows_execTickListenEnd h
  | serviceEntry => exact follows_execServiceEntry h
  | joinRepeat => exact follows_execJoinRepeat h
  | join port p => exact follows_execJoin h port p
  | refLoss pll => exact follows_execRefLoss h pll
  | pllRelock pll => exact follows_execPllRelock h pll
  | clockEnableWrite port p => exact follows_execClockEnableWrite h port p
  | clockSourceSelect port p => exact follows_execClockSourceSelect h port p
  | muxSwitchDone d => exact follows_execMuxSwitchDone h d
  | muxWatchdog d => exact follows_execMuxWatchdog h d
  | announceSend => exact follows_execAnnounceSend h
  | announce port p => exact follows_execAnnounce h port p
  | delayReq port p => exact follows_execDelayReq h port p
  | delayResp port p => exact follows_execDelayResp h port p
  | tickHoldRelease => exact follows_execTickHoldRelease h
  | tickSyncTimeout => exact follows_execTickSyncTimeout h
  | regRead port p => exact follows_execRegRead h port p
  | regWrite port p => exact follows_execRegWrite h port p
  | regShadowSync port p => exact follows_execRegShadowSync h port p
  | pinMaxRead port p => exact follows_execPinMaxRead h port p
  | refDebtRead port p => exact follows_execRefDebtRead h port p
  | qdepthMaxRead port p => exact follows_execQdepthMaxRead h port p
  | issuerKeyInstall port p => exact follows_execIssuerKeyInstall h port p
  | issuerKeyRetire port p => exact follows_execIssuerKeyRetire h port p
  | counterFloorWritten ok => exact follows_execCounterFloorWritten h ok
  | swap port p => exact follows_execSwap h port p
  | swapCancel port p => exact follows_execSwapCancel h port p
  | swapFire => exact follows_execSwapFire h
  | commit port p => exact follows_execCommit h port p
  | commitComplete ok => exact follows_execCommitComplete h ok
  | commitTimeout => exact follows_execCommitTimeout h
  | keyInstall port p => exact follows_execKeyInstall h port p
  | keyActivate => exact follows_execKeyActivate h
  | keyRetire port p => exact follows_execKeyRetire h port p
  | keyRetireFire => exact follows_execKeyRetireFire h
  | keyRefsZero slot => exact follows_execKeyRefsZero h slot
  | keyRetireDeadline slot => exact follows_execKeyRetireDeadline h slot
  | contextCreate port p => exact follows_execContextCreate h port p
  | contextCreateFire => exact follows_execContextCreateFire h
  | contextDestroy port p => exact follows_execContextDestroy h port p
  | contextDestroyFire => exact follows_execContextDestroyFire h
  | contextDrainEnd ctx => exact follows_execContextDrainEnd h ctx
  | contextDrainDeadline ctx => exact follows_execContextDrainDeadline h ctx
  | contextFree ctx => exact follows_execContextFree h ctx
  | extentGrant port p => exact follows_execExtentGrant h port p
  | extentGrantFire => exact follows_execExtentGrantFire h
  | extentRevoke port p => exact follows_execExtentRevoke h port p
  | extentRevokeFire => exact follows_execExtentRevokeFire h
  | extentDrainEnd id => exact follows_execExtentDrainEnd h id
  | extentDrainDeadline id => exact follows_execExtentDrainDeadline h id
  | extentZeroingDone id => exact follows_execExtentZeroingDone h id
  | fwUpdate port p => exact follows_execFwUpdate h port p
  | recoveryFwUpdate port p => exact follows_execRecoveryFwUpdate h port p
  | roleChange port p => exact follows_execRoleChange h port p
  | debugUnlock port p => exact follows_execDebugUnlock h port p
  | debugUnlockDone => exact follows_execDebugUnlockDone h
  | fwChunk port p => exact follows_execFwChunk h port p
  | fwChunkWritten ok => exact follows_execFwChunkWritten h ok
  | read port p => exact follows_execRead h port p
  | readShared port p => exact follows_execReadShared h port p
  | readOwn port p => exact follows_execReadOwn h port p
  | readNoalloc port p => exact follows_execReadNoalloc h port p
  | write port p => exact follows_execWrite h port p
  | writePartial port p => exact follows_execWritePartial h port p
  | writeback port p => exact follows_execWriteback h port p
  | atomicFetchAdd port p => exact follows_execAtomicFetchAdd h port p
  | atomicSwap port p => exact follows_execAtomicSwap h port p
  | atomicCas port p => exact follows_execAtomicCas h port p
  | exactAdd port p => exact follows_execExactAdd h port p
  | snoopInv port p => exact follows_execSnoopInv h port p
  | snoopShare port p => exact follows_execSnoopShare h port p
  | snoopCopy port p => exact follows_execSnoopCopy h port p
  | inval port p => exact follows_execInval h port p
  | invalComplete n => exact follows_execInvalComplete h n
  | walkComplete n => exact follows_execWalkComplete h n
  | cmpl port p => exact follows_execCmpl h port p
  | outboundTimeout slot => exact follows_execOutboundTimeout h slot
  | outboundGuardEnd slot => exact follows_execOutboundGuardEnd h slot
  | e2eRetry slot => exact follows_execE2eRetry h slot
  | doneRecordExpire src tag => exact follows_execDoneRecordExpire h src tag
  | ringRecordWrite ring => exact follows_execRingRecordWrite h ring
  | ringPoll ring => exact follows_execRingPoll h ring
  | walkerRootWrite port p => exact follows_execWalkerRootWrite h port p
  | ringEnableWrite port p => exact follows_execRingEnableWrite h port p
  | schedulerSlot c unit => exact follows_execSchedulerSlot h c unit
  | agePromote c unit => exact follows_execAgePromote h c unit
  | dramReadDone c unit errs => exact follows_execDramReadDone h c unit errs
  | refreshDue c unit bank => exact follows_execRefreshDue h c unit bank
  | scrubPeriodEnd c => exact follows_execScrubPeriodEnd h c
  | srIdleEnter c => exact follows_execSrIdleEnter h c
  | srEntryDone c => exact follows_execSrEntryDone h c
  | srExitDone c => exact follows_execSrExitDone h c
  | srMaxExpiry c => exact follows_execSrMaxExpiry h c
  | srForceWrite port p => exact follows_execSrForceWrite h port p
  | trackingStep c ch => exact follows_execTrackingStep h c ch
  | fullRetrainStart c ch temp => exact follows_execFullRetrainStart h c ch temp
  | retrainDone c ok => exact follows_execRetrainDone h c ok
  | eccInjectArm port p => exact follows_execEccInjectArm h port p
  | beamHdrError unit src tag => exact follows_execBeamHdrError h unit src tag
  | protFwd port p => exact follows_execProtFwd h port p
  | protFwdResend n => exact follows_execProtFwdResend h n
  | memberRead port p => exact follows_execMemberRead h port p
  | reconRead port p => exact follows_execReconRead h port p
  | reconTimeout n => exact follows_execReconTimeout h n
  | protReload port p => exact follows_execProtReload h port p
  | rebuildBead id => exact follows_execRebuildBead h id
  | nop rod w => exact follows_execNop h rod w
  | add rod w => exact follows_execAdd h rod w
  | sub rod w => exact follows_execSub h rod w
  | and rod w => exact follows_execAnd h rod w
  | or rod w => exact follows_execOr h rod w
  | xor rod w => exact follows_execXor h rod w
  | shl rod w => exact follows_execShl h rod w
  | shr rod w => exact follows_execShr h rod w
  | cmp rod w => exact follows_execCmp h rod w
  | li rod w => exact follows_execLi h rod w
  | mul rod w => exact follows_execMul h rod w
  | ld rod w => exact follows_execLd h rod w
  | st rod w => exact follows_execSt h rod w
  | br rod w => exact follows_execBr h rod w
  | loop rod w => exact follows_execLoop h rod w
  | stepctr rod w => exact follows_execStepctr h rod w
  | accClear rod w => exact follows_execAccClear h rod w
  | mmv rod w => exact follows_execMmv h rod w
  | accDrain rod w => exact follows_execAccDrain h rod w
  | accSpill rod w => exact follows_execAccSpill h rod w
  | accAddrec rod w => exact follows_execAccAddrec h rod w
  | vld rod w => exact follows_execVld h rod w
  | vst rod w => exact follows_execVst h rod w
  | vldf rod w => exact follows_execVldf h rod w
  | vstf rod w => exact follows_execVstf h rod w
  | vadd rod w => exact follows_execVadd h rod w
  | vmul rod w => exact follows_execVmul h rod w
  | vmax rod w => exact follows_execVmax h rod w
  | vmin rod w => exact follows_execVmin h rod w
  | vcmp rod w => exact follows_execVcmp h rod w
  | vsel rod w => exact follows_execVsel h rod w
  | vfma rod w => exact follows_execVfma h rod w
  | vcvt rod w => exact follows_execVcvt h rod w
  | vexp rod w => exact follows_execVexp h rod w
  | vrcp rod w => exact follows_execVrcp h rod w
  | vred rod w => exact follows_execVred h rod w
  | vshuf rod w => exact follows_execVshuf h rod w
  | srecv rod w => exact follows_execSrecv h rod w
  | ssend rod w => exact follows_execSsend h rod w
  | streamWaitResume rod => exact follows_execStreamWaitResume h rod
  | tileEnd rod w => exact follows_execTileEnd h rod w
  | fence rod w => exact follows_execFence h rod w
  | halt rod w => exact follows_execHalt h rod w
  | checkMismatch f sigR sigS => exact follows_execCheckMismatch h f sigR sigS
  | voteDone f => exact follows_execVoteDone h f
  | spareStandInRequest port p => exact follows_execSpareStandInRequest h port p
  | sliceBoundary f => exact follows_execSliceBoundary h f
  | tileOverrun rod => exact follows_execTileOverrun h rod
  | rodSaveDone rod => exact follows_execRodSaveDone h rod
  | rodZeroDone rod => exact follows_execRodZeroDone h rod
  | rodRestoreDone rod => exact follows_execRodRestoreDone h rod
  | fbZeroDone f => exact follows_execFbZeroDone h f
  | jobLoad port p => exact follows_execJobLoad h port p
  | jobPlace port p => exact follows_execJobPlace h port p
  | jobPlaceComplete port p => exact follows_execJobPlaceComplete h port p
  | jobUnload port p => exact follows_execJobUnload h port p
  | jobRemove port p => exact follows_execJobRemove h port p
  | jobStep port p => exact follows_execJobStep h port p
  | jobLaunch job => exact follows_execJobLaunch h job
  | fnDisable port p => exact follows_execFnDisable h port p
  | fnEnable port p => exact follows_execFnEnable h port p
  | fnStatus port p => exact follows_execFnStatus h port p
  | invoke port p => exact follows_execInvoke h port p
  | callEnter fn => exact follows_execCallEnter h fn
  | replyGroupReady fn => exact follows_execReplyGroupReady h fn
  | movResume port p => exact follows_execMovResume h port p
  | movCancel port p => exact follows_execMovCancel h port p
  | triggerRead m => exact follows_execTriggerRead h m
  | pieceDeliver m => exact follows_execPieceDeliver h m
  | moverPreempt m => exact follows_execMoverPreempt h m
  | kvSetup port p => exact follows_execKvSetup h port p
  | sessionOpen port p => exact follows_execSessionOpen h port p
  | sessionFork port p => exact follows_execSessionFork h port p
  | sessionExtend port p => exact follows_execSessionExtend h port p
  | sessionCommit port p => exact follows_execSessionCommit h port p
  | sessionClose port p => exact follows_execSessionClose h port p
  | sessionRenew port p => exact follows_execSessionRenew h port p
  | kvStatus port p => exact follows_execKvStatus h port p
  | sessionExpire session => exact follows_execSessionExpire h session
  | sessionFree session => exact follows_execSessionFree h session
  | kvMoveStart session block promote => exact follows_execKvMoveStart h session block promote
  | kvMoveDone n => exact follows_execKvMoveDone h n
  | kvOldSlotRelease n => exact follows_execKvOldSlotRelease h n
  | attend port p => exact follows_execAttend h port p
  | attendBlocksResolved n => exact follows_execAttendBlocksResolved h n
  | flitSlot port => exact follows_execFlitSlot h port
  | dataFlitReceive port corr flit => exact follows_execDataFlitReceive h port corr flit
  | idleFlitReceive port corr flit => exact follows_execIdleFlitReceive h port corr flit
  | initFlitReceive port corr flit => exact follows_execInitFlitReceive h port corr flit
  | downFlitReceive port corr flit => exact follows_execDownFlitReceive h port corr flit
  | waitTimeout port => exact follows_execWaitTimeout h port
  | replayTimeout port => exact follows_execReplayTimeout h port
  | linkTrainingDone port => exact follows_execLinkTrainingDone h port
  | trainingTimeout port => exact follows_execTrainingTimeout h port
  | initTimeout port => exact follows_execInitTimeout h port
  | lockLoss port lanes lostNs => exact follows_execLockLoss h port lanes lostNs
  | lockBlip port lanes lostNs => exact follows_execLockBlip h port lanes lostNs
  | downHoldExpiry port => exact follows_execDownHoldExpiry h port
  | linkRetrain port p => exact follows_execLinkRetrain h port p
  | linkHoldDown port p => exact follows_execLinkHoldDown h port p
  | ethFrameReceive port corr uncorr frame fcsOk => exact follows_execEthFrameReceive h port corr uncorr frame fcsOk
  | pfcFrameReceive port quanta => exact follows_execPfcFrameReceive h port quanta
  | pfcRefresh port => exact follows_execPfcRefresh h port
  | transitPacket port p => exact follows_execTransitPacket h port p
  | routingTableWrite port p => exact follows_execRoutingTableWrite h port p
  | oldWritableSet => exact follows_execOldWritableSet h
  | flipArm port p => exact follows_execFlipArm h port p
  | flipCancel port p => exact follows_execFlipCancel h port p
  | epochFlip => exact follows_execEpochFlip h
  | boardWindowWrite port p => exact follows_execBoardWindowWrite h port p
  | boardArm port p => exact follows_execBoardArm h port p
  | boardCancel port p => exact follows_execBoardCancel h port p
  | boardSwitch => exact follows_execBoardSwitch h
  | throttleRelease port vc => exact follows_execThrottleRelease h port vc
  | hostShaperRelease host => exact follows_execHostShaperRelease h host
  | meterCommit port p => exact follows_execMeterCommit h port p
  | hostRecordCommit port p => exact follows_execHostRecordCommit h port p
  | queueShaperCommit port p => exact follows_execQueueShaperCommit h port p
  | balanceCheck port p => exact follows_execBalanceCheck h port p
  | snoopRetry d bead => exact follows_execSnoopRetry h d bead
  | epState port p => exact follows_execEpState h port p
  | deadWalkDone d => exact follows_execDeadWalkDone h d
  | attest port p => exact follows_execAttest h port p
  | attestComplete => exact follows_execAttestComplete h
  | attestCert port p => exact follows_execAttestCert h port p
  | mgrKeyExpire => exact follows_execMgrKeyExpire h
  | takeover => exact follows_execTakeover h
  | roleChangeResend => exact follows_execRoleChangeResend h
  | takebackRequest => exact follows_execTakebackRequest h
  | takeback port p => exact follows_execTakeback h port p
  | takebackResend => exact follows_execTakebackResend h
  | takebackFire => exact follows_execTakebackFire h
  | workerSilent ep => exact follows_execWorkerSilent h ep
  | tallyRead port p => exact follows_execTallyRead h port p
  | tallySnapshot port p => exact follows_execTallySnapshot h port p
  | tallySelectWrite port p => exact follows_execTallySelectWrite h port p
  | bwWindowEnd => exact follows_execBwWindowEnd h
  | railsGood => exact follows_execRailsGood h
  | badFlitReceive port corr uncorr => exact follows_execBadFlitReceive h port corr uncorr
  | pfcPauseExpiry port => exact follows_execPfcPauseExpiry h port
  | recoverySlotWriteDone ok => exact follows_execRecoverySlotWriteDone h ok
  | balanceWaitExpiry => exact follows_execBalanceWaitExpiry h
  | balancePageAuditDone => exact follows_execBalancePageAuditDone h

/-- What a command answers follows the state it ran in. -/
theorem exec_follows {c : Instr} {s t : State} (h : exec c s = .next t) : s.Follows t := by
  obtain ⟨u, hu, hf⟩ := exec_goes (State.Follows.refl s) c
  exact Host.Outcome.next.inj (hu.symm.trans h) ▸ hf

/-- What follows a state that meets the forms meets them. -/
theorem State.Inv.of_follows {s t : State} (hi : s.Inv) (h : s.Follows t) : t.Inv := by
  obtain ⟨hmem, hjtag⟩ := hi
  obtain ⟨-, -, -, -, -, hm, hj, -⟩ := h
  exact ⟨hm hmem, hj hjtag⟩

/-- Settles O3: a command keeps the forms because its state follows the one before, and an idle step leaves memory and port alone. -/
theorem stepKeepsForms : Obligations.StepKeepsForms := by
  intro s t hi h
  unfold step at h
  split at h
  · rw [← Host.Outcome.next.inj h]
    exact hi.of_follows (follows_elapse (.refl s) 1)
  case _ c q _ => exact State.Inv.of_follows (s := s.withQueue q) hi (exec_follows h)

/-- Settles O4: each clause is one of the forms of `State.Follows`, which every command keeps. -/
theorem commandsAnswerAndKeep : Obligations.CommandsAnswerAndKeep := by
  refine ⟨fun c s => ?_, fun c s t h => ?_⟩
  · obtain ⟨t, ht, hpending, hout, htime, -, hctr, -⟩ := exec_goes (State.Follows.refl s) c
    exact ⟨t, ht, hpending, hout, htime, hctr⟩
  · obtain ⟨-, -, -, hfuse, -, -, -, hhint⟩ := exec_follows h
    exact ⟨hfuse, hhint⟩

/-- Cycles that pass leave the part of a cycle already run, which the coasting PLL alone counts. -/
theorem Tick.pass_frac (t : Tick) (n : Nat) : (t.pass n).frac = t.frac := by
  unfold Tick.pass
  split <;> rfl

/-- Settles O1: a waiting command runs with the rest of the queue, and the idle step is 1 ns of elapsing time. -/
theorem stepTakesTheFront : Obligations.StepTakesTheFront := by
  refine ⟨fun _ _ _ => rfl, fun s h => ?_⟩
  have hstep : step s = .next (s.elapse 1) := by rw [step, h]
  rw [hstep]
  refine congrArg (fun k => Host.Outcome.next { s with time := s.time + 1, tick := k }) ?_
  cases s.boot.started with
  | false => rfl
  | true =>
    cases hcoast : bit s.clk.coasting 6 with
    | true => simp only [State.tickCycles, hcoast, if_true, Bool.true_eq_false, if_false, Nat.mul_one]
    | false =>
      simp only [State.tickCycles, hcoast, if_true, Bool.false_eq_true, Bool.true_eq_false, if_false]
      rw [← s.tick.pass_frac 1]

/-- Settles O2: memory is the empty list, no pin is driven, and the other parts are at their reset values. -/
theorem resetHasForms : Obligations.ResetHasForms :=
  ⟨⟨rfl, fun h => nomatch h⟩, rfl, rfl, rfl, rfl, rfl⟩

end Sys2Proof.Machine
end

section
/-!
Power-up, turn-off and reset (R12–R15, R18, R30): which input starts the ramp, and what a turn-off or a reset keeps.
-/

namespace Sys2Proof.Machine

/-! ### Power comes up (R12–R15) -/

/-- Off, unlatched: an input starts the ramp where PWR_EN_N, the threshold and the hold-off allow it (R12–R14). -/
theorem execPowerInputRise_of_off {s : State} (hoff : s.pwr.stage = .off) (mv held : Nat) :
    execPowerInputRise mv held s = onlyIf (s.pwr.enLow && 44000 ≤ mv && (!s.pwr.heldOff || (mv ≤ 59500 && 10 ≤ held)))
      { s with pwr := { s.pwr with inputMv := mv } } State.startRamp := by
  simp [execPowerInputRise, State.unlatch, hoff]

/-- Latched off, an input that rises through the threshold ends the latch and starts the ramp where PWR_EN_N allows it (R30). -/
theorem execPowerInputRise_of_latched {s : State} (hst : s.pwr.stage = .latchedOff) (hheld : s.pwr.heldOff = false) {mv : Nat}
    (hlow : s.pwr.inputMv < 44000) (hmv : 44000 ≤ mv) (held : Nat) :
    execPowerInputRise mv held s =
      onlyIf s.pwr.enLow { s with pwr := { s.pwr with inputMv := mv, stage := .off } } State.startRamp := by
  simp [execPowerInputRise, State.unlatch, hst, hheld, hlow, hmv]

/-- Settles O6: each clause is one case of the input's rise, of PWR_EN_N or of the rails. -/
theorem powerComesUp : Obligations.PowerComesUp := by
  intro s ramp
  refine ⟨?_, ?_, ?_, ?_, ?_, ?_, ?_⟩
  · intro mv held hoff hen hmv hheld
    refine (execPowerInputRise_of_off hoff mv held).trans ?_
    simp [onlyIf, State.startRamp, ramp, hen, hmv, hheld]
  · intro mv held hoff hen hmv hmax h10
    refine (execPowerInputRise_of_off hoff mv held).trans ?_
    simp [onlyIf, State.startRamp, ramp, hen, hmv, hmax, h10]
  · intro mv held hoff hno
    refine (execPowerInputRise_of_off hoff mv held).trans ?_
    have hcond : (s.pwr.enLow && decide (44000 ≤ mv)) = false := by
      rcases hno with h | h
      · simp [h]
      · simp [Nat.not_le.2 h]
    simp [onlyIf, hcond]
  · intro mv held hst hlow hmv hheld
    refine ⟨fun hen => (execPowerInputRise_of_latched hst hheld hlow hmv held).trans ?_,
      fun hen => (execPowerInputRise_of_latched hst hheld hlow hmv held).trans ?_⟩
    · simp [onlyIf, State.startRamp, ramp, hen]
    · simp [onlyIf, hen]
  · intro hoff hheld hmv
    simp [exec, execHotSwapPinChange, onlyIf, State.startRamp, ramp, hoff, hheld, hmv]
  · intro hst
    simp [exec, execRailsGood, hst, ms]
  · intro hst
    simp [exec, execRailsGood, hst, onlyIf, State.powered]

/-! ### Turn-off and reset (R12–R14, R18, R30) -/

/-- The flash as a turn-off or a reset of `s` may leave it: with its slot hint, and unchanged where nothing was being written. -/
structure State.KeepsFlash (s : State) (fl : Flash) : Prop where
  hint : fl.hint = s.flash.hint
  idle : s.cc.floorWait = none → s.cc.commit = none → s.cc.recovery = none → fl = s.flash

/-- An abandoned write leaves the slot hint, and with no write in progress the whole flash (R36, R38). -/
theorem State.abandonFlash_keepsFlash (s : State) : s.KeepsFlash s.abandonFlash.flash := by
  refine ⟨(follows_abandonFlash (.refl s)).2.2.2.2.2.2.2, fun hfloor hcommit hrecovery => ?_⟩
  simp [State.abandonFlash, State.free, hfloor, hcommit, hrecovery]

/-- The module after a turn-off of `s` with the flash `fl`, its stage and its hold-off given (R13, R30). -/
def State.turnedOff (s : State) (fl : Flash) (st : Stage) (held : Bool) : State :=
  { time := s.time, flash := fl, out := s.out, freeCtr := s.freeCtr + 1, pending := s.pending
    boot := { cause := 0, fuseSvn := s.boot.fuseSvn }
    pwr := { inputMv := s.pwr.inputMv, stage := st, enLow := s.pwr.enLow, heldOff := held, resetN := s.pwr.resetN
             releasedAt := s.pwr.releasedAt, pins := s.pwr.pins } }

/-- A turn-off keeps the time, the flash, the fuses and the outside of the pins. -/
theorem State.turnOff_eq (s : State) (st : Stage) (held : Bool) :
    ∃ fl, s.KeepsFlash fl ∧ s.turnOff st held = s.turnedOff fl st held :=
  ⟨_, s.abandonFlash_keepsFlash, rfl⟩

theorem execBrownOutTurnOff_of_kept {s : State} {mv ns : Nat} (h : 42000 ≤ mv ∨ ns ≤ 100000) :
    execBrownOutTurnOff mv ns s = .next { s with pwr := { s.pwr with inputMv := mv } } := by
  have hcond : (decide (mv < 42000) && decide (100000 < ns)) = false := by
    rcases h with h | h <;> simp [Nat.not_lt.2 h]
  simp [execBrownOutTurnOff, onlyIf, Bool.and_assoc, hcond]

theorem execOverVoltageTurnOff_of_kept {s : State} {mv ns : Nat} (h : mv ≤ 60500 ∨ ns ≤ 10000) :
    execOverVoltageTurnOff mv ns s = .next { s with pwr := { s.pwr with inputMv := mv } } := by
  have hcond : (decide (60500 < mv) && decide (10000 < ns)) = false := by
    rcases h with h | h <;> simp [Nat.not_lt.2 h]
  simp [execOverVoltageTurnOff, onlyIf, Bool.and_assoc, hcond]

/-- Settles O7: each event that turns the module off does so by `State.turnOff`, and below its limits only the input is noted. -/
theorem turnOffLosesEverything : Obligations.TurnOffLosesEverything := by
  intro s off kept
  refine ⟨?_, ?_, ?_, ?_, ?_, ?_, ?_⟩
  · intro hon
    obtain ⟨fl, ⟨hhint, hidle⟩, heq⟩ := State.turnOff_eq { s with pwr := { s.pwr with enLow := false } } .off false
    have hon' : State.on { s with pwr := { s.pwr with enLow := false } } = true := hon
    exact ⟨fl, ⟨hhint, hidle⟩, congrArg Host.Outcome.next ((if_pos hon').trans heq)⟩
  · intro mv ns hon hmv hns
    obtain ⟨fl, ⟨hhint, hidle⟩, heq⟩ := State.turnOff_eq { s with pwr := { s.pwr with inputMv := mv } } .off true
    have hon' : State.on { s with pwr := { s.pwr with inputMv := mv } } = true := hon
    exact ⟨fl, ⟨hhint, hidle⟩, congrArg Host.Outcome.next ((if_pos (by simp [hon', hmv, hns])).trans heq)⟩
  · intro mv ns hon hmv hns
    obtain ⟨fl, ⟨hhint, hidle⟩, heq⟩ := State.turnOff_eq { s with pwr := { s.pwr with inputMv := mv } } .off true
    have hon' : State.on { s with pwr := { s.pwr with inputMv := mv } } = true := hon
    exact ⟨fl, ⟨hhint, hidle⟩, congrArg Host.Outcome.next ((if_pos (by simp [hon', hmv, hns])).trans heq)⟩
  · intro at_ htrip
    obtain ⟨fl, ⟨hhint, hidle⟩, heq⟩ := State.turnOff_eq (s.elapseTo (at_ + 100000)) .latchedOff false
    refine ⟨fl, ⟨by simpa using hhint, by simpa using hidle⟩, ?_⟩
    simp only [exec, execTripTurnOff, htrip, us, heq]
    rfl
  · intro hoff
    have hoff' : ¬ State.on { s with pwr := { s.pwr with enLow := false } } = true := by simpa [State.on] using hoff
    exact congrArg Host.Outcome.next (if_neg hoff')
  · intro mv ns h
    exact execBrownOutTurnOff_of_kept h
  · intro mv ns h
    exact execOverVoltageTurnOff_of_kept h

/-- A low of MOD_RESET_N that is no reset of a running module and no end of a latch sets the pin alone (R18). -/
theorem execModuleReset_of_unpowered {s : State} {low : Nat} (rel : Bool) (hlow : 10000 ≤ low) (hon : s.on = false)
    (h : low < 10000000) : execModuleReset low rel s = .next (s.setResetN rel) := by
  simp [execModuleReset, onlyIf, hon, Nat.not_lt.2 hlow, ms, Nat.not_le.2 h]

/-- 10 ms of MOD_RESET_N end a latch; the ramp starts where PWR_EN_N and the input allow it (R12, R13, R18, R30). -/
theorem execModuleReset_of_latched {s : State} {low : Nat} (rel : Bool) (hlow : 10000000 ≤ low) (hst : s.pwr.stage = .latchedOff) :
    execModuleReset low rel s =
      .next (if (s.setResetN rel).unlatch.mayRamp then (s.setResetN rel).unlatch.startRamp else (s.setResetN rel).unlatch) := by
  have hon : s.on = false := by simp [State.on, hst]
  have hmin : ¬ low < 10000 := by omega
  have hstage : (s.setResetN rel).pwr.stage = .latchedOff := hst
  simp [execModuleReset, onlyIf, hon, hmin, hstage, ms, hlow]

/-- MOD_RESET_N for 10 µs resets a module that is powered (R18). -/
theorem execModuleReset_of_on {s : State} {low : Nat} (rel : Bool) (hlow : 10000 ≤ low) (hon : s.on = true) :
    execModuleReset low rel s = .next ((s.resetModule (if s.boot.started then 1 else s.boot.cause)).setResetN rel) := by
  have hstage : s.pwr.stage ≠ .latchedOff := fun h => by simp [State.on, h] at hon
  simp only [execModuleReset, hon, if_true, if_neg (Nat.not_lt.2 hlow), onlyIf]
  refine congrArg _ (if_neg ?_)
  simpa [State.setResetN, State.resetModule, State.abandonFlash, State.free] using fun h => absurd h hstage

/-- Settles O8: a short low, a reset of a powered module, the end of a latch, and the pin alone of a module without power. -/
theorem moduleResetKeepsPower : Obligations.ModuleResetKeepsPower := by
  intro s low rel released
  refine ⟨fun hlow => if_pos hlow, fun hlow hon => ?_, fun hlow hst => ?_, fun hlow hshort hon => ?_⟩
  · obtain ⟨hhint, hidle⟩ := s.abandonFlash_keepsFlash
    refine ⟨_, hhint, hidle, (execModuleReset_of_on rel hlow hon).trans (congrArg Host.Outcome.next ?_)⟩
    unfold State.setResetN
    congr 1
    exact if_congr (and_congr_right fun _ => and_iff_left rfl) rfl rfl
  · refine ⟨_, execModuleReset_of_latched rel hlow hst, ?_⟩
    have hmay : (s.setResetN rel).unlatch.mayRamp = (s.pwr.enLow && decide (44000 ≤ s.pwr.inputMv)) := by
      simp [State.mayRamp, State.unlatch, State.setResetN, hst]
    rw [hmay]
    cases hramp : (s.pwr.enLow && decide (44000 ≤ s.pwr.inputMv))
    · simp only [Bool.false_eq_true, if_false]
      simp only [Bool.and_eq_false_iff, decide_eq_false_iff_not] at hramp
      simp only [State.unlatch, State.setResetN, hst, released, if_true, true_and]
      refine ⟨fun hen hmv => ?_, fun _ => trivial⟩
      exact absurd hramp (by simp [hen, hmv])
    · simp only [if_true]
      simp only [Bool.and_eq_true, decide_eq_true_eq] at hramp
      obtain ⟨hen, hmv⟩ := hramp
      simp [State.startRamp, State.unlatch, State.setResetN, hst, released, hen, hmv]
  · exact ⟨_, (execModuleReset_of_unpowered rel hlow hon hshort).trans rfl⟩

end Sys2Proof.Machine
end

section
/-!
Health events, throttle steps, sideband and test port (R15, R19, R22–R30).
-/

namespace Sys2Proof.Machine

/-! ### PWR_CAUSE -/

/-- Setting cause bits leaves the coordinates as sampled. -/
theorem State.cause_ep (s : State) (n : Nat) : (s.cause n).ep = s.ep := State.ep_eq_of_sampled_eq (by simp)

/-- A record for the manager ring leaves PWR_CAUSE. -/
theorem postMgr_reg_pwrCause (s : State) (r : Record) : (s.postMgr r).reg pwrCause = s.reg pwrCause := by
  have hq : (s.enqueue mgrRing r).reg pwrCause = s.reg pwrCause := by simp [State.reg]
  unfold State.postMgr State.post
  dsimp only
  split
  · rw [raise_reg _ _ _ _ _ (by decide), hq]
  · exact hq

/-! ### Telemetry (R23) -/

/-- A table after the entries of a numbered list were put into it, from number `k` on. -/
theorem tblGet_foldl_put_zipIdx {α β : Type} (f : α → β) (xs : List α) (k : Nat) (t : Tbl β) (j : Nat) (d : β) :
    tblGet ((xs.zipIdx k).foldl (fun t x => tblPut t x.2 (f x.1)) t) j d =
      if k ≤ j then ((xs[j - k]?).map f).getD (tblGet t j d) else tblGet t j d := by
  induction xs generalizing k t with
  | nil => simp
  | cons x xs ih =>
    rw [List.zipIdx_cons, List.foldl_cons, ih, tblGet_put]
    rcases Nat.lt_trichotomy j k with h | rfl | h
    · simp [show ¬ k + 1 ≤ j by omega, show ¬ k ≤ j by omega, show j ≠ k by omega]
    · simp
    · obtain ⟨i, rfl⟩ : ∃ i, j = k + (i + 1) := ⟨j - k - 1, by omega⟩
      simp [show k + 1 ≤ k + (i + 1) by omega, show k + (i + 1) - (k + 1) = i by omega]

/-- The latched bits of one page with the bits found there added (R23). -/
def latchBits (t : Tbl Nat) (n bits : Nat) : Tbl Nat := if bits = 0 then t else tblPut t n (tblGet t n 0 ||| bits)

theorem tblGet_latchBits (t : Tbl Nat) (n bits j : Nat) :
    tblGet (latchBits t n bits) j 0 = if j = n then tblGet t j 0 ||| bits else tblGet t j 0 := by
  unfold latchBits
  split
  case isTrue h => simp [h]
  case isFalse h =>
    rw [tblGet_put]
    split
    case isTrue e => rw [e]
    case isFalse => rfl

theorem tblPut_ne_nil {α : Type} (t : Tbl α) (k : Nat) (v : α) : tblPut t k v ≠ [] := by
  cases t with
  | nil => simp [tblPut]
  | cons x t => unfold tblPut; split <;> (try split) <;> simp

/-- Latched bits are never lost. -/
theorem latchBits_ne_nil {t : Tbl Nat} {n bits : Nat} (h : t ≠ [] ∨ bits ≠ 0) : latchBits t n bits ≠ [] := by
  unfold latchBits
  split
  case isTrue hb => exact h.resolve_right (not_not_intro hb)
  case isFalse => exact tblPut_ne_nil _ _ _

/-- Each page's latched bits gather those found on it, and the other pages' stand. -/
theorem tblGet_foldl_latchBits {α : Type} (xs : List (α × Nat)) (k : Nat) (t : Tbl Nat) (j : Nat) :
    tblGet ((xs.zipIdx k).foldl (fun t x => latchBits t x.2 x.1.2) t) j 0 =
      if k ≤ j then tblGet t j 0 ||| ((xs[j - k]?).map Prod.snd).getD 0 else tblGet t j 0 := by
  induction xs generalizing k t with
  | nil => simp
  | cons x xs ih =>
    rw [List.zipIdx_cons, List.foldl_cons, ih, tblGet_latchBits]
    rcases Nat.lt_trichotomy j k with h | rfl | h
    · simp [show ¬ k + 1 ≤ j by omega, show ¬ k ≤ j by omega, show j ≠ k by omega]
    · simp
    · obtain ⟨i, rfl⟩ : ∃ i, j = k + (i + 1) := ⟨j - k - 1, by omega⟩
      simp [show k + 1 ≤ k + (i + 1) by omega, show k + (i + 1) - (k + 1) = i by omega]

theorem foldl_latchBits_ne_nil {α : Type} (xs : List (α × Nat)) (k : Nat) (t : Tbl Nat) (h : t ≠ [] ∨ ∃ x ∈ xs, x.2 ≠ 0) :
    (xs.zipIdx k).foldl (fun t x => latchBits t x.2 x.1.2) t ≠ [] := by
  induction xs generalizing k t with
  | nil => simpa using h
  | cons x xs ih =>
    rw [List.zipIdx_cons, List.foldl_cons]
    refine ih _ _ ?_
    rcases h with h | ⟨y, hy, hbits⟩
    · exact .inl (latchBits_ne_nil (.inl h))
    · rcases List.mem_cons.1 hy with rfl | hy
      · exact .inl (latchBits_ne_nil (.inr hbits))
      · exact .inr ⟨y, hy, hbits⟩

/-! ### Health events (R15, R19, R23, R30) -/

/-- A sensor at its trip temperature is found, whichever class it is of (Table 1.10). -/
theorem tripOf_isSome {c : Temps} (h : 110 ≤ c.die ∨ 105 ≤ max c.hbm c.lpddr ∨ 125 ≤ c.stage) : ∃ x, tripOf c = some x := by
  have h' : 110 ≤ c.die ∨ 105 ≤ Temps.memory c ∨ 125 ≤ c.stage := h
  unfold tripOf
  split
  · exact ⟨_, rfl⟩
  · split
    · exact ⟨_, rfl⟩
    · rw [if_pos (by omega)]
      exact ⟨_, rfl⟩

/-- Settles O9: the rail, the strap, the trip and the telemetry each by its own row; the latched bits by a fold over the pages. -/
theorem healthEventsReport : Obligations.HealthEventsReport := by
  refine ⟨fun s page hst => ?_, fun s pins p hp => ⟨fun hne => ?_, fun he => ?_⟩, fun s c hst htrip hc => ?_,
    fun s pages hst hlen => ?_⟩
  · simp [exec, execRailOutOfBand, onlyIf, State.powered, hst]
  · refine ⟨State.cause { s with pwr := { s.pwr with pins := pins } } 64, ?_, ?_, ?_, ?_, ?_⟩
    · simp [exec, execStrapRecheck, hp, onlyIf, hne]
    · rw [cause_reg _ (by decide)]; rfl
    · rw [State.cause_ep]; exact State.ep_eq_of_sampled_eq rfl
    · simp
    · simp
  · simp [exec, execStrapRecheck, hp, onlyIf, he]
  · obtain ⟨⟨k, d⟩, htrip'⟩ := tripOf_isSome hc
    simp only [exec, execThermalTrip, State.powered, hst, htrip, htrip', beq_self_eq_true, Bool.not_true, Option.isSome_none,
      Bool.or_self, Bool.false_eq_true, if_false]
    refine ⟨_, rfl, ?_, ?_, ?_, ?_⟩
    · simp [State.readTemps, hst]
    · rw [cause_reg _ (by decide)]
      exact congrArg (fun w : Word => w.toNat ||| 128) (postMgr_reg_pwrCause (s.readTemps c) _)
    · simp [State.alertLow]
    · simp [State.readTemps]
  · have htake : pages.take 8 = pages := List.take_of_length_le hlen
    have hlatch (t : Tbl Nat) (l : List ((Telemetry × Nat) × Nat)) :
        l.foldl (fun t x => if x.1.2 = 0 then t else tblPut t x.2 (tblGet t x.2 0 ||| x.1.2)) t =
          l.foldl (fun t x => latchBits t x.2 x.1.2) t := rfl
    simp only [exec, execTelemetryRefresh, State.powered, hst, htake, hlatch, beq_self_eq_true, Bool.not_true, Bool.false_eq_true,
      if_false]
    generalize htel : pages.zipIdx.foldl (fun t x => tblPut t x.2 x.1.1) s.pwr.telemetry = tel
    generalize hlat : pages.zipIdx.foldl (fun t x => latchBits t x.2 x.1.2) s.pwr.latched = lat
    have hget (j : Nat) : tblGet tel j {} = ((pages[j]?).map Prod.fst).getD (tblGet s.pwr.telemetry j {}) := by
      simpa [← htel] using tblGet_foldl_put_zipIdx Prod.fst pages 0 s.pwr.telemetry j {}
    have hbits (j : Nat) : tblGet lat j 0 = tblGet s.pwr.latched j 0 ||| ((pages[j]?).map Prod.snd).getD 0 := by
      simpa [← hlat] using tblGet_foldl_latchBits pages 0 s.pwr.latched j
    have hsome : (∃ x ∈ pages, x.2 ≠ 0) → lat ≠ [] := fun h => hlat ▸ foldl_latchBits_ne_nil pages 0 _ (.inr h)
    have hpages (n : Nat) (v : Telemetry) (b : Nat) (h : pages[n]? = some (v, b)) :
        tblGet tel n {} = v ∧ tblGet lat n 0 = tblGet s.pwr.latched n 0 ||| b := by simp [hget, hbits, h]
    have hrest (n : Nat) (h : pages.length ≤ n) :
        tblGet tel n {} = tblGet s.pwr.telemetry n {} ∧ tblGet lat n 0 = tblGet s.pwr.latched n 0 := by
      simp [hget, hbits, List.getElem?_eq_none h]
    cases lat with
    | nil => exact ⟨_, rfl, rfl, hpages, hrest, fun h => absurd rfl h, fun _ => rfl, hsome⟩
    | cons x l =>
      refine ⟨_, rfl, by simp, by simpa using hpages, by simpa using hrest, fun _ => ?_, fun h => ?_, by simp⟩
      · exact cause_reg (n := 32) _ (by decide)
      · simp at h

/-! ### Throttle steps (R26–R28) -/

/-- A decided step changes when it comes into force, and nothing else. -/
theorem State.decideStep_eq (s : State) : ∃ d, s.decideStep = { s with pwr := { s.pwr with stepDue := d } } ∧
    (s.pwr.stepDue = none → d = if s.stepTarget = s.pwr.stepForce then none else some (s.time + 1000)) := by
  unfold State.decideStep
  by_cases h : s.stepTarget = s.pwr.stepForce ∨ s.pwr.stepDue.isSome
  · refine ⟨s.pwr.stepDue, by rw [if_pos h], fun hnone => ?_⟩
    rw [if_pos (by simpa [hnone] using h), hnone]
  · refine ⟨_, by rw [if_neg h], fun _ => ?_⟩
    rw [if_neg fun e => h (.inl e)]
    rfl

/-- The step that a power sample leaves (R26): `above` and `below` are the runs with the sample counted in. -/
def sampledStep (step dw avg peak above below : Nat) : Nat :=
  let ruled := if avg < dw ∧ 1000 ≤ above then min 3 (step + 1) else if 20 * dw ≤ 19 * avg ∧ 10000 ≤ below then step - 1 else step
  if peak < dw then max 2 ruled else ruled

/-- A run that a sample may end reaches `k` where the sample counts and the run is that long. -/
theorem le_run_iff {c : Prop} {_ : Decidable c} {k n : Nat} (hk : 0 < k) : (k ≤ if c then n else 0) ↔ c ∧ k ≤ n := by
  split
  case isTrue h => simp [h]
  case isFalse h => simp [h, hk.ne']

/-- A power sample moves the power-derived step as R26 says and notes the sample; the step in force changes later, by its own row. -/
theorem execPowerSample_spec {s : State} (hst : s.pwr.stage = .conducting) (mv dw : Nat) :
    ∃ t, execPowerSample mv dw s = .next t ∧ t.pwr.pinDw = dw ∧ t.pwr.vinMv = mv ∧ t.pwr.pinMax = max s.pwr.pinMax dw ∧
      t.mem = s.mem ∧ t.pwr.stepForce = s.pwr.stepForce ∧ t.pwr.stepTherm = s.pwr.stepTherm ∧
      t.pwr.stepPower = sampledStep s.pwr.stepPower dw (s.actBits .pwr 0 0x040 15 0 * 10) (s.actBits .pwr 0 0x040 31 16 * 10)
        (s.pwr.aboveRun + 1) (s.pwr.belowRun + 1) ∧
      (s.pwr.stepDue = none → t.pwr.stepDue =
        if max (max t.pwr.stepPower s.pwr.stepTherm) s.stepFloor = s.pwr.stepForce then none else some (s.time + 1000)) := by
  have hon : ¬ (!s.powered) = true := by simp [State.powered, hst]
  unfold execPowerSample
  rw [if_neg hon]
  extract_lets p avg peak above below rule2 ruled step same u
  obtain ⟨d, heq, hd⟩ := (u.cause (u.causesNow mv dw rule2)).decideStep_eq
  obtain ⟨htime, -, -, hpwr, -, -, -, -, -, hactive, -, hmem, -⟩ := cause_keeps u (u.causesNow mv dw rule2)
  refine ⟨_, rfl, ?_⟩
  simp only [heq, hpwr]
  refine ⟨rfl, rfl, rfl, hmem, rfl, rfl, ?_, fun hnone => ?_⟩
  · have hbelow : (2 * dw ≤ 19 * avg) ↔ 20 * dw ≤ 19 * (s.actBits .pwr 0 0x040 15 0 * 10) := by
      have : s.actBits .pwr 0 0x040 15 0 = avg := rfl
      omega
    change step = _
    simp only [step, ruled, rule2, above, below, sampledStep, le_run_iff (Nat.succ_pos _), hbelow]
    rfl
  · refine (hd (by simpa [hpwr] using hnone)).trans ?_
    simp only [State.stepTarget, State.stepFloor, State.actBits, State.act, htime, hpwr, hactive]
    rfl

/-- Settles O10: what a sample does to the step by `sampledStep`; the step in force, the rise and the fall by their own rows. -/
theorem throttleFollowsPowerAndHeat : Obligations.ThrottleFollowsPowerAndHeat := by
  refine ⟨fun s mv dw hst => ?_, fun s => ⟨fun due hdue => ?_, fun c hst hlt => ?_, fun c n hst hn hdie hmem => ?_⟩⟩
  · intro avg peak
    obtain ⟨t, ht, hpin, hvin, hmax, hmem, hforce, htherm, hstep, hdue⟩ := execPowerSample_spec hst mv dw
    refine ⟨t, ht, hpin, hvin, hmax, hmem, hforce, htherm, fun hpeak => ?_, fun hpeak habove hrun => ?_, fun hpeak hbelow hrun => ?_,
      fun hpeak hno hno' => ?_, hdue⟩
    · rw [hstep, sampledStep, if_pos hpeak]
      exact Nat.le_max_left _ _
    · rw [hstep, sampledStep, if_neg (Nat.not_lt.2 hpeak), if_pos ⟨habove, hrun⟩]
    · rw [hstep, sampledStep, if_neg (Nat.not_lt.2 hpeak), if_neg (fun h => absurd h.1 (by omega)), if_pos ⟨hbelow, hrun⟩]
    · rw [hstep, sampledStep, if_neg (Nat.not_lt.2 hpeak), if_neg hno, if_neg hno']
  · simp only [exec, execThrottleStepTakesEffect, hdue]
    rfl
  · have hasked : (s.readTemps c).thermAsked c =
        max (thermStep c.die s.dieT1) (thermStep (max c.hbm c.lpddr) s.memT1) := rfl
    simp only [exec, execThermalThresholdCross, State.powered, hst, beq_self_eq_true, Bool.not_true, Bool.false_eq_true, if_false,
      hasked, onlyIf]
    rw [if_pos (by simpa [State.readTemps] using hlt)]
    refine ⟨_, rfl, ?_⟩
    obtain ⟨d, heq, -⟩ := State.decideStep_eq (if (s.readTemps c).pwr.stepTherm = 0 then
      ({ s.readTemps c with pwr := { (s.readTemps c).pwr with
          stepTherm := max (thermStep c.die s.dieT1) (thermStep (max c.hbm c.lpddr) s.memT1) } } : State).cause 16
      else { s.readTemps c with pwr := { (s.readTemps c).pwr with
          stepTherm := max (thermStep c.die s.dieT1) (thermStep (max c.hbm c.lpddr) s.memT1) } })
    rw [heq]
    split <;> simp [State.readTemps]
  · have hmem' : Temps.memory c ≤ (s.memT1 : Int) + 5 * n - 3 := hmem
    simp only [exec, execThermalStepFall, State.powered, hst, beq_self_eq_true, Bool.not_true, Bool.false_eq_true, if_false, onlyIf]
    have hn' : (s.readTemps c).pwr.stepTherm = n + 1 := hn
    have hT : (s.readTemps c).dieT1 = s.dieT1 ∧ (s.readTemps c).memT1 = s.memT1 := ⟨rfl, rfl⟩
    rw [hn', hT.1, hT.2, if_pos (by simp; omega)]
    refine ⟨_, rfl, ?_⟩
    obtain ⟨d, heq, -⟩ := State.decideStep_eq { s.readTemps c with pwr := { (s.readTemps c).pwr with stepTherm := n + 1 - 1 } }
    rw [heq]
    simp [State.readTemps]

/-! ### Sideband (R22–R24) -/

/-- A LINEAR16 mantissa is within one of the value it stands for (Table 1.8). -/
theorem mantissa_near (v : Int) :
    mantissa v (-12) * 1000 - 1000 < v * 4096 ∧ v * 4096 < mantissa v (-12) * 1000 + 1000 := by
  have hscale : overScale v (-12) = (v * 4096 / 1000, v * 4096 % 1000 != 0) := by simp [overScale]
  simp only [mantissa, hscale]
  split
  case isTrue h =>
    have hrest : v * 4096 % 1000 ≠ 0 := by simpa using (Bool.and_eq_true_iff.1 h).1
    omega
  case isFalse => omega

theorem length_smbusBlock (s : State) : s.smbusBlock.length = 256 := by
  have hname : (ascii "FP-5120         ").length = 16 := by decide
  simp only [State.smbusBlock, List.length_append, hname, length_leBytes, zeroBytes, List.length_replicate]

/-- A PMBus transfer for another target is none of the module's (R22). -/
theorem State.pmbus_of_other {s : State} {x : BusXfer} (h : x.addr ≠ 0x60 + s.slotX % 8) (code : Nat) (act : State → State) :
    s.pmbus x code act = .next s := if_pos h

/-- A PMBus transfer for the module is served, or answered with a NACK (R23). -/
theorem State.pmbus_of_own {s : State} {x : BusXfer} (h : x.addr = 0x60 + s.slotX % 8) (code : Nat) (act : State → State) :
    s.pmbus x code act =
      .next (if s.powered && pmbusServes code s.pwr.page x.write then act s else { s with out := s.out ++ [.nack] }) := by
  have hown : ¬ x.addr ≠ s.pmbusAddress := not_not_intro h
  simp only [State.pmbus, if_neg hown]
  split <;> rfl

/-- The rows that read a word over the PMBus, each with its command code and its word (Table 1.8). -/
def State.pmbusRows (s : State) (x : BusXfer) : List (Nat × Instr × Nat) :=
  let T := tblGet s.pwr.telemetry s.pwr.page {}
  [(0x79, .statusWord x, tblGet s.pwr.latched s.pwr.page 0), (0x88, .readVin x, linear11 T.vin), (0x89, .readIin x, linear11 T.iin),
    (0x8B, .readVout x, linear16 T.vout), (0x8C, .readIout x, linear11 T.iout), (0x8D, .readTemperature1 x, linear11 T.temp),
    (0x96, .readPout x, linear11 T.pout), (0x97, .readPin x, linear11 T.pin)]

/-- A word read over the PMBus is the state's own. -/
theorem State.pmbusRead_eq (s : State) (x : BusXfer) (code : Nat) (word : State → Nat) :
    s.pmbusRead x code word = s.pmbus x code fun u => u.emit (.pmbus (word s)) := rfl

/-- A word-reading row is a transfer of its code that answers its word. -/
theorem State.exec_pmbusRow (s : State) (x : BusXfer) {r : Nat × Instr × Nat} (hr : r ∈ s.pmbusRows x) :
    exec r.2.1 s = s.pmbus x r.1 fun u => u.emit (.pmbus r.2.2) := by
  simp only [State.pmbusRows, List.mem_cons, List.not_mem_nil, or_false] at hr
  rcases hr with rfl | rfl | rfl | rfl | rfl | rfl | rfl | rfl <;>
    simp only [exec, execStatusWord, execReadVin, execReadIin, execReadVout, execReadIout, execReadTemperature1, execReadPout,
      execReadPin, State.pmbusRead_eq, State.telemetry]

/-- A word-reading row for the module answers its word where the PMBus serves the code, and else a NACK. -/
theorem State.exec_pmbusRow_of_own {s : State} {x : BusXfer} (h : x.addr = 0x60 + s.slotX % 8) {r : Nat × Instr × Nat}
    (hr : r ∈ s.pmbusRows x) : exec r.2.1 s = .next { s with
      out := s.out ++ [if s.powered && pmbusServes r.1 s.pwr.page x.write then .pmbus r.2.2 else .nack] } := by
  rw [s.exec_pmbusRow x hr, State.pmbus_of_own h]
  split <;> rfl

/-- PAGE for the module (R23). -/
theorem State.exec_page_of_own {s : State} {x : BusXfer} (h : x.addr = 0x60 + s.slotX % 8) (n : Nat) :
    exec (.page x n) s = .next (if s.powered then
      if x.write then (if n < 8 then { s with pwr := { s.pwr with page := n } } else { s with out := s.out ++ [.nack] })
      else { s with out := s.out ++ [.pmbus s.pwr.page] } else { s with out := s.out ++ [.nack] }) := by
  change execPage x n s = _
  rw [execPage, State.pmbus_of_own h]
  cases s.powered <;> cases x.write <;> rfl

/-- CLEAR_FAULTS for the module (R23): a write of it alone is served. -/
theorem State.exec_clearFaults_of_own {s : State} {x : BusXfer} (h : x.addr = 0x60 + s.slotX % 8) :
    exec (.clearFaults x) s = .next (if s.powered && x.write then
      { s with pwr := { s.pwr with latched := tblDel s.pwr.latched s.pwr.page } } else { s with out := s.out ++ [.nack] }) := by
  change execClearFaults x s = _
  rw [execClearFaults, State.pmbus_of_own h]
  cases s.powered <;> cases x.write <;> rfl

/-- No word-reading code is served for a write. -/
theorem State.pmbusRows_write {s : State} {x : BusXfer} {r : Nat × Instr × Nat} (hr : r ∈ s.pmbusRows x) (page : Nat) :
    pmbusServes r.1 page true = false := by
  simp only [State.pmbusRows, List.mem_cons, List.not_mem_nil, or_false] at hr
  rcases hr with rfl | rfl | rfl | rfl | rfl | rfl | rfl | rfl <;> rfl

/-- Page 0 serves the input's codes, the other pages the rail group's (R23). -/
theorem State.pmbusRows_read {s : State} {x : BusXfer} {r : Nat × Instr × Nat} (hr : r ∈ s.pmbusRows x) (page : Nat) :
    pmbusServes r.1 page false = true ↔
      if page = 0 then r.1 ≠ 0x8B ∧ r.1 ≠ 0x8C ∧ r.1 ≠ 0x96 else r.1 ≠ 0x88 ∧ r.1 ≠ 0x89 ∧ r.1 ≠ 0x97 := by
  simp only [State.pmbusRows, List.mem_cons, List.not_mem_nil, or_false] at hr
  by_cases h : page = 0 <;> rcases hr with rfl | rfl | rfl | rfl | rfl | rfl | rfl | rfl <;> simp [pmbusServes, h]

/-- Settles O11: the PMBus rows by the codes it serves, the SMBus rows each by its definition, LINEAR16 by its mantissa. -/
theorem sidebandCommandsAnswer : Obligations.SidebandCommandsAnswer := by
  refine ⟨fun s x n => ?_, fun v => ⟨_, rfl, mantissa_near v⟩, fun s addr off len v => ?_⟩
  · intro T sends rows
    refine ⟨fun hown => ⟨fun hst => ?_, fun hst => ?_⟩, fun hother => ?_⟩
    · have hon : s.powered = true := by simp [State.powered, hst]
      have hpage := State.exec_page_of_own hown n
      have hclear := State.exec_clearFaults_of_own hown
      refine ⟨fun hw => ⟨fun hn => ?_, fun hn => ?_, ?_, fun r hr => ?_⟩, fun hw => ⟨?_, ?_, fun r hr => ?_⟩⟩
      · rw [hpage, hon, hw, if_pos rfl, if_pos rfl, if_pos hn]
      · rw [hpage, hon, hw, if_pos rfl, if_pos rfl, if_neg (Nat.not_lt.2 hn)]
      · rw [hclear, hon, hw]; rfl
      · rw [State.exec_pmbusRow_of_own hown hr, hw, State.pmbusRows_write hr, Bool.and_false]; rfl
      · rw [hpage, hon, hw]; rfl
      · rw [hclear, hon, hw]; rfl
      · simp only [State.exec_pmbusRow_of_own hown hr, hw, hon, Bool.true_and, State.pmbusRows_read hr, sends]
    · have hoff : s.powered = false := by simpa [State.powered] using hst
      refine ⟨?_, ?_, fun r hr => ?_⟩
      · rw [State.exec_page_of_own hown, hoff]; rfl
      · rw [State.exec_clearFaults_of_own hown, hoff]; rfl
      · rw [State.exec_pmbusRow_of_own hown hr, hoff]; rfl
    · have hpage : execPage x n s = .next s := State.pmbus_of_other hother _ _
      have hclear : execClearFaults x s = .next s := State.pmbus_of_other hother _ _
      exact ⟨hpage, hclear, fun r hr => (s.exec_pmbusRow x hr).trans (State.pmbus_of_other hother _ _)⟩
  · intro sends own
    have hown : own = s.smbusAddress := rfl
    refine ⟨fun hst => ⟨fun hoff => ?_, fun hoff => ?_, length_smbusBlock s, ?_, fun hne => ?_, ?_⟩,
      fun hst => ⟨?_, ?_, ?_⟩, fun hother => ⟨if_pos hother, if_pos hother⟩⟩
    · simp [exec, execSmbusBlockRead, hown, State.powered, hst, hoff, sends, State.emit]
    · simp [exec, execSmbusBlockRead, hown, State.powered, hst, Nat.not_lt.2 hoff, sends, State.emit]
    · simp [exec, execSmbusAlertClear, hown, State.powered, hst]
    · have hcond : (off == 0xFF && v == 1) = false := by simpa using hne
      simp [exec, execSmbusAlertClear, hown, Bool.and_assoc, hcond, sends, State.emit]
    · simp [exec, execSmbusAlertResponse, hown, State.powered, hst, sends, State.emit]
    · simp [exec, execSmbusBlockRead, hown, State.powered, hst, sends, State.emit]
    · simp [exec, execSmbusAlertClear, hown, State.powered, hst, sends, State.emit]
    · simp [exec, execSmbusAlertResponse, State.powered, hst, sends, State.emit]

/-! ### Test access port (R25) -/

/-- Settles O12: unpowered no instruction acts; powered, a boundary instruction is itself or BYPASS by `State.boundaryOpen`. -/
theorem jtagInstructions : Obligations.JtagInstructions := by
  refine ⟨fun s hst => ?_, fun s a b hst c hc => ?_⟩
  · intro bypass acts
    have hon : s.powered = true := by simp [State.powered, hst]
    have honly (f : State → State) : onlyIf s.powered s f = .next (f s) := by rw [onlyIf, hon]; rfl
    have hbound (ir a b : Nat) (drive : Bool) (h : s.boundaryOpen = true) :
        onlyIf s.powered s (fun s => s.tapBoundary ir a b drive) = acts ir a b (if drive then some b else none) := by
      rw [honly, State.tapBoundary, h]
      rfl
    have hbypass (ir a b : Nat) (drive : Bool) (h : s.boundaryOpen = false) :
        onlyIf s.powered s (fun s => s.tapBoundary ir a b drive) = bypass := by
      rw [honly, State.tapBoundary, h]
      rfl
    refine ⟨honly _, honly _, fun a b h => ?_, fun a b hr hd => ?_⟩
    · have hopen : s.boundaryOpen = true := by simpa [State.boundaryOpen] using h
      exact ⟨hbound 2 a b false hopen, hbound 3 a b true hopen, hbound 4 a b true hopen, hbound 5 a b true hopen⟩
    · have hshut : s.boundaryOpen = false := by simp [State.boundaryOpen, hr, hd]
      exact ⟨hbypass 2 a b false hshut, hbypass 3 a b true hshut, hbypass 4 a b true hshut, hbypass 5 a b true hshut⟩
  · have hoff : s.powered = false := by simpa [State.powered] using hst
    have honly (f : State → State) : onlyIf s.powered s f = .next s := by rw [onlyIf, hoff]; rfl
    simp only [List.mem_cons, List.not_mem_nil, or_false] at hc
    rcases hc with rfl | rfl | rfl | rfl | rfl | rfl <;>
      simp only [exec, execJtagIdcode, execJtagBypass, execJtagSamplePreload, execJtagExtest, execJtagExtestPulse,
        execJtagExtestTrain, honly]

end Sys2Proof.Machine
end

section
/-!
Strap sampling and the ROM (R11, R19, R34, R35, R39, R41, R42).
-/

namespace Sys2Proof.Machine

/-! ### Strap sampling (R11, R19, R35) -/

/-- The default MAC addresses are written as settings: a part of the state that a setting leaves is left (Table 13.16). -/
theorem State.part_defaultMacs {β : Type} (part : State → β) (h : ∀ (s : State) (a : Nat) (w : Word), part (s.setBoth a w) = part s)
    (s : State) : part s.defaultMacs = part s :=
  foldl_keeps part (fun s _ => h s _ _) _ s

/-- The boot begins at the sampling of the pins: the ROM phase, with the strap's role and every PLL locked (R19, R35). -/
def State.sampledAt (s : State) (pins : Straps) (nonce : Nat) : State := { s with
  pwr := { s.pwr with pins := pins, sampled := some pins }
  boot := { s.boot with state := 0, started := true, phaseAt := s.time, nonce := nonce }
  clk := { s.clk with pllLocked := 0x7F, xoPresent := true, tickRefPresent := true }
  mgr := { s.mgr with role := strapRole pins.role } }

/-- A manager by strap is its own manager endpoint. -/
def State.ownManager (s : State) : State := if s.mgr.role = 2 then { s with mgr := { s.mgr with ep := some s.ep } } else s

theorem execStrapSampling_of_ready {s : State} (hgood : s.pwr.railsGood = true) (hreset : s.pwr.resetN = true)
    (hboot : s.boot.started = false) (pins : Straps) :
    let u := s.elapseTo (max (s.pwr.rampAt + ms 34) s.pwr.releasedAt + ms 1)
    execStrapSampling pins s = .next ((u.free.2.sampledAt pins (u.free.1 % 2 ^ 128)).ownManager.defaultMacs) := by
  unfold execStrapSampling
  rw [if_neg (by simp [hgood, hreset, hboot])]
  rfl

/-- The state at the sampling: the ROM phase begins, and only a manager by strap names itself. -/
theorem State.sampledAt_spec (u : State) (pins : Straps) (n : Nat) :
    let t := (u.sampledAt pins n).ownManager
    t.boot.started = true ∧ t.boot.state = 0 ∧ t.pwr.sampled = some pins ∧ t.pwr.pins = pins ∧
      t.mgr.role = strapRole pins.role ∧ (strapRole pins.role = 2 → t.mgr.ep = some t.ep) ∧ t.clk.pllLocked = 0x7F ∧
      t.time = u.time ∧ t.boot.phaseAt = u.time ∧ t.mem = u.mem ∧ t.flash = u.flash := by
  dsimp only
  by_cases h : (u.sampledAt pins n).mgr.role = 2
  · rw [State.ownManager, if_pos h]
    exact ⟨rfl, rfl, rfl, rfl, rfl, fun _ => rfl, rfl, rfl, rfl, rfl, rfl⟩
  · rw [State.ownManager, if_neg h]
    exact ⟨rfl, rfl, rfl, rfl, rfl, fun hrole => absurd hrole h, rfl, rfl, rfl, rfl, rfl⟩

/-- Settles O13: the state at the sampling, whose configuration sets alone the default MAC addresses change. -/
theorem strapSamplingStartsBoot : Obligations.StrapSamplingStartsBoot := by
  intro s pins hgood hreset hboot
  refine ⟨_, execStrapSampling_of_ready hgood hreset hboot pins, ?_⟩
  generalize hu : s.elapseTo (max (s.pwr.rampAt + ms 34) s.pwr.releasedAt + ms 1) = u
  have htime : u.free.2.time = max s.time (max (s.pwr.rampAt + 34000000) s.pwr.releasedAt + 1000000) := by
    rw [(free_keeps u).1, ← hu, elapseTo_time, show ms 34 = 34000000 from rfl, show ms 1 = 1000000 from rfl]
  have hmem : u.free.2.mem = s.mem := by simp [← hu]
  have hflash : u.free.2.flash = s.flash := by simp [← hu]
  obtain ⟨hstarted, hstate, hsampled, hpins, hrole, hep, hpll, ht, hat, hm, hf⟩ :=
    u.free.2.sampledAt_spec pins (u.free.1 % 2 ^ 128)
  generalize (u.free.2.sampledAt pins (u.free.1 % 2 ^ 128)).ownManager = v at *
  have hboot' : v.defaultMacs.boot = v.boot := State.part_defaultMacs State.boot (fun _ _ _ => rfl) v
  have hpwr' : v.defaultMacs.pwr = v.pwr := State.part_defaultMacs State.pwr (fun _ _ _ => rfl) v
  have hmgr' : v.defaultMacs.mgr = v.mgr := State.part_defaultMacs State.mgr (fun _ _ _ => rfl) v
  have hclk' : v.defaultMacs.clk = v.clk := State.part_defaultMacs State.clk (fun _ _ _ => rfl) v
  have htime' : v.defaultMacs.time = v.time := State.part_defaultMacs State.time (fun _ _ _ => rfl) v
  have hmem' : v.defaultMacs.mem = v.mem := State.part_defaultMacs State.mem (fun _ _ _ => rfl) v
  have hflash' : v.defaultMacs.flash = v.flash := State.part_defaultMacs State.flash (fun _ _ _ => rfl) v
  rw [State.ep_eq_of_sampled_eq (congrArg Pwr.sampled hpwr'), hboot', hpwr', hmgr', hclk', htime', hmem', hflash']
  exact ⟨hstarted, hstate, hsampled, hpins, hrole, fun h => hep (if_pos h), hpll, ht.trans htime, hat.trans ht.symm,
    hm.trans hmem, hf.trans hflash⟩

/-! ### The ROM (R34, R39, R41, R42) -/

/-- An image passes checks 1–4 of R39, and the key hash that verified it is its own and not revoked. -/
theorem imageKey_eq_some {b : List Byte} {fuses k : Nat} (h : imageKey b fuses = some k) :
    Config.falconOk b = true ∧ Config.imageLength b ≤ 33550336 ∧ fuses ≤ Config.imageSvn b ∧ Config.imageSvn b ≤ 128 ∧
      k < 4 ∧ Config.vendorKeyHash k = Config.imageKeyHash b ∧ Config.keyNotRevoked k = true := by
  unfold imageKey at h
  split at h
  case isFalse => cases h
  case isTrue hchecks =>
    obtain ⟨hlen, hsig, hmin, hmax⟩ := hchecks
    have hkey := List.find?_some h
    have hlt := List.mem_range.1 (List.mem_of_find?_eq_some h)
    simp only [Bool.and_eq_true, beq_iff_eq] at hkey
    exact ⟨hsig, hlen, hmin, hmax, hlt, hkey.1, hkey.2⟩

theorem State.firstSlot_lt_two (s : State) : s.firstSlot < 2 := by
  unfold State.firstSlot
  split <;> exact Nat.mod_lt _ (by decide)

/-- A slot whose image passes is tried, unless it is the first one and has reached its limit (R34). -/
theorem State.trySlot_eq_some {s : State} {n k : Nat} {b : List Byte} (hk : s.slotKey n = some k) (hb : s.image n = some b)
    (hover : s.boot.romOver = false ∨ n ≠ s.firstSlot) : s.trySlot n = some (n, k, b) := by
  have hno : ¬ (s.boot.romOver = true ∧ n = s.firstSlot) := by
    rcases hover with h | h
    · simp [h]
    · simp [h]
  simp only [State.trySlot, hk, hb, if_neg hno]

theorem State.trySlot_of_slotKey_none {s : State} {n : Nat} (hk : s.slotKey n = none) : s.trySlot n = none := by
  simp only [State.trySlot, hk]

theorem State.trySlot_of_romOver {s : State} (h : s.boot.romOver = true) : s.trySlot s.firstSlot = none := by
  unfold State.trySlot
  split
  · exact if_pos ⟨h, rfl⟩
  · rfl

/-- Giving a port its turn to train leaves the phase, the time and memory (R42). -/
theorem State.trainTurn_keeps (s : State) (p : Nat) : (s.trainTurn p).boot.state = s.boot.state ∧
    (s.trainTurn p).boot.phaseAt = s.boot.phaseAt ∧ (s.trainTurn p).time = s.time ∧ (s.trainTurn p).mem = s.mem := by
  unfold State.trainTurn
  split <;> exact ⟨rfl, rfl, rfl, rfl⟩

/-- RECOVERY begins (R42): its phase at this moment, memory untouched. -/
theorem State.recover_spec (s : State) : s.recover.boot.state = 7 ∧ s.recover.boot.phaseAt = s.time ∧ s.recover.time = s.time ∧
    s.recover.mem = s.mem :=
  State.trainTurn_keeps _ 0

/-- ROM ends with the preferred slot, the other, or RECOVERY. -/
theorem execRomPhaseEnd_of_rom {s : State} (hstart : s.boot.started = true) (hrom : s.boot.state = 0) :
    execRomPhaseEnd s = .next (match s.checkCopies.trySlot s.checkCopies.firstSlot with
      | some (n, k, b) => s.checkCopies.runSlot n k b
      | none => match s.checkCopies.trySlot (1 - s.checkCopies.firstSlot) with
        | some (n, k, b) => s.checkCopies.runSlot n k b
        | none => s.checkCopies.recover) := by
  unfold execRomPhaseEnd
  exact if_neg (by simp [hstart, hrom])

/-- Settles O14: a slot that passes is tried and runs; the other is never the first, so no limit keeps it out. -/
theorem romRunsVerifiedImage : Obligations.RomRunsVerifiedImage := by
  refine ⟨fun b fuses k => imageKey_eq_some, fun s hstart hrom => ?_⟩
  intro a runs
  have hexec : exec .romPhaseEnd s = _ := execRomPhaseEnd_of_rom hstart hrom
  have ha : a < 2 := s.checkCopies.firstSlot_lt_two
  have hother : 1 - a ≠ a := by omega
  have hfirst (h : s.slotKey a = none ∨ s.boot.romOver = true) : s.checkCopies.trySlot a = none := by
    rcases h with h | h
    · exact State.trySlot_of_slotKey_none h
    · exact State.trySlot_of_romOver h
  have hruns (n k : Nat) (b : List Byte) : runs (s.checkCopies.runSlot n k b) n k b := ⟨rfl, rfl, rfl, rfl, rfl, rfl, rfl, rfl⟩
  refine ⟨fun k b hover hk hb => ?_, fun k b hno hk hb => ?_, fun hno hk => ?_⟩
  · have htry : s.checkCopies.trySlot a = some (a, k, b) := State.trySlot_eq_some hk hb (.inl hover)
    rw [htry] at hexec
    exact ⟨_, hexec, hruns a k b⟩
  · have htry : s.checkCopies.trySlot (1 - a) = some (1 - a, k, b) := State.trySlot_eq_some hk hb (.inr hother)
    rw [hfirst hno, htry] at hexec
    exact ⟨_, hexec, hruns (1 - a) k b⟩
  · rw [hfirst hno, State.trySlot_of_slotKey_none (s := s.checkCopies) (n := 1 - a) hk] at hexec
    obtain ⟨hstate, hat, -, hmem⟩ := s.checkCopies.recover_spec
    exact ⟨_, hexec, hstate, hat, hmem⟩

end Sys2Proof.Machine
end

section
/-!
Bits of numbers and register words: fields replaced, bits set, masks.
-/

namespace Sys2Proof.Machine

theorem bit_eq_testBit (w i : Nat) : bit w i = w.testBit i := by
  rw [Nat.testBit_eq_decide_div_mod_eq, bit]
  rfl

/-- A field replaced: its bits are the new value's, every other bit stands. -/
theorem testBit_setBits {hi lo : Nat} (h : lo ≤ hi) (w v j : Nat) :
    (setBits w hi lo v).testBit j = if lo ≤ j ∧ j ≤ hi then v.testBit (j - lo) else w.testBit j := by
  obtain ⟨n, rfl⟩ : ∃ n, hi = lo + n := ⟨hi - lo, by omega⟩
  have hlen : lo + n + 1 - lo = n + 1 := by omega
  have hlow : w % 2 ^ lo < 2 ^ lo := Nat.mod_lt _ (Nat.two_pow_pos _)
  have hmid (x : Nat) : x % 2 ^ (n + 1) < 2 ^ (n + 1) := Nat.mod_lt _ (Nat.two_pow_pos _)
  have hsplit : w = 2 ^ lo * (2 ^ (n + 1) * (w / 2 ^ lo / 2 ^ (n + 1)) + w / 2 ^ lo % 2 ^ (n + 1)) + w % 2 ^ lo := by
    rw [Nat.div_add_mod, Nat.div_add_mod]
  have hset : setBits w (lo + n) lo v =
      2 ^ lo * (2 ^ (n + 1) * (w / 2 ^ lo / 2 ^ (n + 1)) + v % 2 ^ (n + 1)) + w % 2 ^ lo := by
    have hw : w = 2 ^ lo * (2 ^ (n + 1) * (w / 2 ^ lo / 2 ^ (n + 1))) + w / 2 ^ lo % 2 ^ (n + 1) * 2 ^ lo + w % 2 ^ lo := by
      rw [Nat.mul_comm (_ % _), ← Nat.mul_add, ← hsplit]
    rw [setBits, bits, hlen, Nat.mul_add, Nat.mul_comm (2 ^ lo) (v % _)]
    omega
  conv_rhs => rw [hsplit]
  rw [hset, Nat.testBit_two_pow_mul_add _ hlow, Nat.testBit_two_pow_mul_add _ hlow, Nat.testBit_two_pow_mul_add _ (hmid _),
    Nat.testBit_two_pow_mul_add _ (hmid _), Nat.testBit_mod_two_pow]
  by_cases h1 : j < lo
  · simp [h1, Nat.not_le.2 h1]
  · by_cases h2 : j - lo < n + 1
    · simp [h1, h2, Nat.not_lt.1 h1, show j ≤ lo + n by omega]
    · simp [h1, h2, show ¬ j ≤ lo + n by omega]

theorem bit_setBits {hi lo : Nat} (h : lo ≤ hi) (w v j : Nat) :
    bit (setBits w hi lo v) j = if lo ≤ j ∧ j ≤ hi then bit v (j - lo) else bit w j := by
  simp only [bit_eq_testBit, testBit_setBits h]

/-- A bit set or cleared reads back, and every other bit stands. -/
@[simp] theorem bit_setBit (w i j : Nat) (b : Bool) : bit (setBit w i b) j = if j = i then b else bit w j := by
  have hone : bit (b2n b) 0 = b := by cases b <;> rfl
  rw [setBit, bit_setBits (Nat.le_refl i)]
  by_cases h : j = i
  · simp [h, hone]
  · rw [if_neg (by omega), if_neg h]

/-- A bit of a register word with a field replaced. -/
theorem wbit_wset {hi lo : Nat} (h : lo ≤ hi) (w : Word) (v : Nat) {j : Nat} (hj : j < 32) :
    wbit (wset w hi lo v) j = if lo ≤ j ∧ j ≤ hi then bit v (j - lo) else wbit w j := by
  simp only [wbit, wset, BitVec.toNat_ofNat, bit_eq_testBit, Nat.testBit_mod_two_pow, hj, decide_true, Bool.true_and,
    testBit_setBits h]

/-- A bit of a register word set. -/
theorem wbit_wset_bit (w : Word) (i b : Nat) {j : Nat} (hj : j < 32) :
    wbit (wset w i i b) j = if j = i then bit b 0 else wbit w j := by
  rw [wbit_wset (Nat.le_refl i) w b hj]
  by_cases h : j = i
  · simp [h]
  · rw [if_neg (by omega), if_neg h]

/-- A mask as a sum over the numbers in rising order. -/
theorem maskOf_succ (n : Nat) (p : Nat → Bool) : maskOf (n + 1) p = maskOf n p + if p n then 2 ^ n else 0 := by
  simp only [maskOf, idxs, List.range_succ, List.filter_append, List.foldl_append]
  cases h : p n <;> simp [h]

theorem maskOf_lt (n : Nat) (p : Nat → Bool) : maskOf n p < 2 ^ n := by
  induction n with
  | zero => exact Nat.one_pos
  | succ n ih =>
    rw [maskOf_succ, Nat.pow_succ]
    split <;> omega

/-- A mask holds the bits of the numbers that satisfy its predicate. -/
theorem bit_maskOf (n : Nat) (p : Nat → Bool) (i : Nat) : bit (maskOf n p) i = (decide (i < n) && p i) := by
  rw [bit_eq_testBit]
  induction n with
  | zero => simp [maskOf, idxs]
  | succ n ih =>
    have hlt := maskOf_lt n p
    have hsum : maskOf n p + (if p n then 2 ^ n else 0) = 2 ^ n * (p n).toNat + maskOf n p := by
      cases p n <;> simp [Nat.add_comm]
    rw [maskOf_succ, hsum, Nat.testBit_two_pow_mul_add _ hlt, ih]
    rcases Nat.lt_trichotomy i n with h | rfl | h
    · simp [h, Nat.lt_succ_of_lt h]
    · cases p i <;> simp
    · obtain ⟨k, rfl⟩ : ∃ k, i = n + (k + 1) := ⟨i - n - 1, by omega⟩
      cases p n <;> simp [Nat.testBit_succ]

end Sys2Proof.Machine
end

section
/-!
Requests of the module's own (R357): what sending leaves of the tracker, and what an issued request takes.
-/

namespace Sys2Proof.Machine

/-! ### Sending leaves the tracker -/

@[simp] theorem toQueue_txn (s : State) (p q : Nat) (x : Queued) : (s.toQueue p q x).txn = s.txn := by
  unfold State.toQueue
  dsimp only
  split <;> rfl

@[simp] theorem inject_txn (s : State) (p : Nat) (x : Queued) (b : Bool) : (s.inject p x b).txn = s.txn := by
  unfold State.inject
  dsimp only
  split
  · rfl
  · exact toQueue_txn _ _ _ _

@[simp] theorem routeDrop_txn (s : State) (p : Packet) (h : Bool) (o : Option Nat) : (s.routeDrop p h o).txn = s.txn := by
  unfold State.routeDrop State.bump
  simp

/-- A packet sent leaves the tracker. -/
@[simp] theorem send_txn (s : State) (p : Packet) (c : Option Nat) (b : Bool) : (s.send p c b).1.txn = s.txn := by
  unfold State.send
  dsimp only
  split
  · simp
  · split
    · simp
    · split
      · simp
      · split <;> simp

@[simp] theorem useCounter_txn (s : State) (n : Nat) (d : Bool) : (s.useCounter n d).txn = s.txn := by
  unfold State.useCounter
  dsimp only
  (repeat' split) <;> simp

/-- A packet sealed leaves the tracker. -/
@[simp] theorem seal_txn (s : State) (k : KeyRef) (d : Bool) (p : Packet) : (s.seal k d p).1.txn = s.txn := by
  unfold State.seal
  dsimp only
  split
  · rfl
  · simp
  · split
    · split <;> rfl
    · rfl
    · rfl

/-! ### An issued request (R357, R363) -/

/-- A request may leave: its target takes one more, and the target is this module or lies on a route that carries it. -/
structure State.MayIssue (s : State) (p : Packet) (k : KeyRef) (retiring : Bool) : Prop where
  key : s.mayRequest k retiring = true
  quota : p.dst = s.ep ∨ tblGet s.txn.sentTo p.dst 0 < Config.quotaAt p.dst
  route : p.dst = s.ep ∨ ∃ x, s.route p.dst s.ep s.rtr.inject = some x ∧ s.notCarried x.1 p = false

/-- A request that may leave takes the free slot; the tracker counts it, and the parts that sending leaves stand. -/
theorem State.issue_of_mayIssue {s : State} {p : Packet} {k : KeyRef} {retiring : Bool} (h : s.MayIssue p k retiring) {i : Nat}
    (hfree : s.freeOut = some i) (what : Purpose) (ctx : Option Nat) :
    ∃ u, s.issue p k what ctx retiring = (u, .sent i) ∧ (u.outSlot i).req.map (·.2) = some what ∧
      u.txn.outUsed = s.txn.outUsed + 1 ∧ u.still = s.still := by
  obtain ⟨hkey, hquota, hroute⟩ := h
  have hq : ¬ (p.dst ≠ s.ep ∧ Config.quotaAt p.dst ≤ tblGet s.txn.sentTo p.dst 0) := by
    rintro ⟨hne, hle⟩
    exact absurd (hquota.resolve_left hne) (Nat.not_lt.2 hle)
  have hr (tag : Nat) : ¬ (p.dst ≠ s.ep ∧
      ((s.route p.dst s.ep s.rtr.inject).all fun x => s.notCarried x.1 { p with tag := tag }) = true) := by
    rintro ⟨hne, hall⟩
    obtain ⟨x, hx, hcarried⟩ := hroute.resolve_left hne
    rw [hx] at hall
    exact absurd hall (by simp [show s.notCarried x.1 { p with tag := tag } = false from hcarried])
  unfold State.issue
  rw [if_neg (by simp [hkey]), if_neg hq, hfree]
  dsimp only
  rw [if_neg (hr _)]
  refine ⟨_, rfl, ?_, ?_, ?_⟩
  · simp [State.outSlot, State.setOut]
  · simp [State.setOut]
  · exact (still_send _ _ _ _).trans (still_seal _ _ _ _)

end Sys2Proof.Machine
end

section
/-!
The phases of the boot after ROM, and its timers (R34, R42, R50–R52, R54, R55, R57).
-/

namespace Sys2Proof.Machine

/-- Time passes for the clock and the tick alone. -/
theorem State.elapseTo_eq (s : State) (t : Nat) : ∃ k, s.elapseTo t = { s with time := max s.time t, tick := k } := by
  rw [← elapseTo_time s t]
  unfold State.elapseTo
  split <;> exact ⟨_, rfl⟩

/-! ### Controllers in service -/

/-- A controller that fails leaves service, and no other does. -/
theorem State.failCtl_ctlOk (s : State) {c d : Nat} : (s.failCtl c).ctlOk d = if d = c then false else s.ctlOk d := by
  unfold State.failCtl
  by_cases hc : c < 4 <;> by_cases hd : d < 4
  · simp [hc, State.ctlOk, hd]
  · have : d ≠ c := by omega
    simp [hc, State.ctlOk, hd, this]
  · have : d ≠ c := by omega
    simp [hc, State.ctlOk, hd, this]
  · have : (d - 4 = c - 4) ↔ d = c := by omega
    simp [hc, State.ctlOk, hd, this]

theorem State.failCtl_keeps (s : State) (c : Nat) : (s.failCtl c).time = s.time ∧ (s.failCtl c).mem = s.mem ∧
    (s.failCtl c).boot.zeroDone = s.boot.zeroDone := by
  unfold State.failCtl
  split <;> exact ⟨rfl, rfl, rfl⟩

/-- A fold over controllers, each step of which sets the service of its own controller from the service it has. -/
theorem foldl_ctlOk {g : State → Nat → State} {good : Nat → Bool} {inv : State → Prop} (hinv : ∀ s c, inv s → inv (g s c))
    (hg : ∀ s c d, inv s → (g s c).ctlOk d = if d = c then s.ctlOk d && good d else s.ctlOk d)
    (l : List Nat) (hl : l.Nodup) {s : State} (hs : inv s) (d : Nat) :
    (l.foldl g s).ctlOk d = if d ∈ l then s.ctlOk d && good d else s.ctlOk d := by
  induction l generalizing s with
  | nil => simp
  | cons c l ih =>
    obtain ⟨hc, hl⟩ := List.nodup_cons.1 hl
    rw [List.foldl_cons, ih hl (hinv s c hs), hg s c d hs]
    by_cases h : d = c
    · subst h; simp [hc]
    · simp [h]

/-! ### Training and zero-fill (R50, R51, R52, R57) -/

/-- A controller trained is in service if it was and an attempt succeeded (R50). -/
theorem State.trained_ctlOk (s : State) (c : Nat) (r : TrainResult) (d : Nat) :
    (s.trained c r).ctlOk d = if d = c then s.ctlOk d && r.tries.any fun a => a.ok c else s.ctlOk d := by
  unfold State.trained
  by_cases hok : s.ctlOk c = true
  · rw [if_neg (by simp [hok])]
    dsimp only
    by_cases hany : (r.tries.any fun a => a.ok c) = true
    · rw [if_pos hany, hany, Bool.and_true, ite_self]
      rfl
    · rw [if_neg hany, State.failCtl_ctlOk, Bool.eq_false_iff.2 hany, Bool.and_false]
      rfl
  · rw [if_pos (by simp [hok])]
    by_cases h : d = c
    · rw [if_pos h, h, Bool.eq_false_iff.2 hok, Bool.false_and]
    · rw [if_neg h]

theorem State.trained_keeps (s : State) (c : Nat) (r : TrainResult) :
    (s.trained c r).time = s.time ∧ (s.trained c r).mem = s.mem := by
  unfold State.trained
  split
  · exact ⟨rfl, rfl⟩
  · dsimp only
    split
    · exact ⟨rfl, rfl⟩
    · obtain ⟨htime, hmem, -⟩ := State.failCtl_keeps (s.setCtl c { (s.ctlAt c).trained c r with
        since := s.time, idleSince := s.time, nextTrack := s.time + ms (s.actBits (ctlPage c).1 (ctlPage c).2 0x048 31 16) }) c
      exact ⟨htime, hmem⟩

theorem State.trainAll_ctlOk (s : State) (r : List TrainResult) {c : Nat} (hc : c < 12) :
    (s.trainAll r).ctlOk c = (s.ctlOk c && (trainOf r c).tries.any fun a => a.ok c) := by
  rw [State.trainAll, foldl_ctlOk (good := fun c => (trainOf r c).tries.any fun a => a.ok c) (inv := fun _ => True)
    (fun _ _ h => h) ?_ _ List.nodup_range trivial, if_pos (List.mem_range.2 hc)]
  intro s c d _
  rw [State.trained_ctlOk]
  by_cases h : d = c
  · rw [if_pos h, if_pos h, h]
  · rw [if_neg h, if_neg h]

/-- ZERO starts: ports may start to train, and no controller changes. -/
theorem State.startZero_keeps (s : State) : s.startZero.boot = (s.phase 4).boot ∧ s.startZero.time = s.time ∧ s.startZero.mem = s.mem := by
  have hkeep {β : Type} (part : State → β) (h : ∀ (s : State) p v, part (s.setPort p v) = part s) :
      part s.startZero = part (s.phase 4) := by
    refine foldl_keeps part (fun s p => ?_) _ _
    split
    · exact h _ _ _
    · rfl
  exact ⟨hkeep State.boot fun _ _ _ => rfl, hkeep State.time fun _ _ _ => rfl, hkeep State.mem fun _ _ _ => rfl⟩

/-- Every controller's training taken, ZERO starts. -/
theorem State.trainAll_startZero (s : State) (r : List TrainResult) :
    (s.trainAll r).startZero.boot.state = 4 ∧ (s.trainAll r).startZero.boot.phaseAt = s.time ∧
      (s.trainAll r).startZero.time = s.time ∧ (s.trainAll r).startZero.mem = s.mem ∧
      ∀ c, c < 12 → (s.trainAll r).startZero.ctlOk c = (s.ctlOk c && (trainOf r c).tries.any fun a => a.ok c) := by
  obtain ⟨hboot, htime, hmem⟩ := (s.trainAll r).startZero_keeps
  have ht : (s.trainAll r).time = s.time := foldl_keeps State.time (fun s c => (s.trained_keeps c _).1) _ s
  have hm : (s.trainAll r).mem = s.mem := foldl_keeps State.mem (fun s c => (s.trained_keeps c _).2) _ s
  refine ⟨by rw [hboot]; rfl, by rw [hboot]; exact ht, htime.trans ht, hmem.trans hm, fun c hc => ?_⟩
  rw [← s.trainAll_ctlOk r hc, State.ctlOk, hboot]
  rfl

/-- Cells of a list filtered by address. -/
theorem cellGet_filter (m : List Host.Cell) (keep : Nat → Bool) (a : Nat) :
    cellGet (m.filter fun x => keep x.1) a = if keep a = true then cellGet m a else 0 := by
  induction m with
  | nil => simp [cellGet]
  | cons x m ih =>
    by_cases hx : keep x.1 = true
    · rw [List.filter_cons_of_pos (p := fun x : Host.Cell => keep x.1) hx]
      by_cases ha : a = x.1
      · subst ha; simp [cellGet, hx]
      · simp [cellGet, ha, ih]
    · rw [List.filter_cons_of_neg (p := fun x : Host.Cell => keep x.1) hx, ih]
      by_cases ha : a = x.1
      · subst ha; simp [hx]
      · simp [cellGet, ha]

/-- ZERO has ended: rods, frame buffers and directories are empty, and the module goes on as its level says (R57). -/
theorem State.endZero_spec (s : State) :
    s.endZero.rods = [] ∧ s.endZero.dir = [] ∧ (∀ f, (s.endZero.frame f).fb = []) ∧ s.endZero.boot.level = s.serviceLevel ∧
      s.endZero.boot.state = (if s.serviceLevel = 0 then 8 else 5) ∧ s.endZero.mem = s.mem ∧ s.endZero.time = s.time ∧
      ∀ c, s.endZero.ctlOk c = s.ctlOk c := by
  have hfb (f : Nat) : (tblGet (tblMap s.frames fun _ f => { f with fb := [], badLines := [] }) f ({} : Frame)).fb = [] := by
    rw [tblGet, tblGet?_map]
    cases tblGet? s.frames f <;> rfl
  by_cases h : s.serviceLevel = 0
  · have he : s.endZero = _ := if_pos h
    rw [he, if_pos h]
    exact ⟨rfl, rfl, hfb, rfl, rfl, rfl, rfl, fun _ => rfl⟩
  · have he : s.endZero = _ := if_neg h
    rw [he, if_neg h]
    exact ⟨rfl, rfl, hfb, rfl, rfl, rfl, rfl, fun _ => rfl⟩

/-! ### The join announcement (R55) -/

/-- A module that can reach its manager announces itself: the request waits in a free slot (R55). -/
theorem State.sendJoin_spec {s : State} {m i : Nat} (hm : s.mgr.ep = some m) (hfree : s.freeOut = some i)
    (hway : m = s.ep ∨ ((s.route m s.ep s.rtr.inject).isSome = true ∧ tblGet s.txn.sentTo m 0 < Config.quotaAt m)) :
    s.sendJoin.boot = { s.boot with joinAt := some s.time } ∧ (s.sendJoin.outSlot i).req.map (·.2) = some .join ∧
      s.sendJoin.txn.outUsed = s.txn.outUsed + 1 := by
  let u : State := { s with boot := { s.boot with joinAt := some s.time } }
  have hmay : u.MayIssue (u.cmdPacket 0x43 m 0 u.joinBody) .clear false := by
    refine ⟨rfl, hway.imp id And.right, hway.imp id fun h => ?_⟩
    obtain ⟨x, hx⟩ := Option.isSome_iff_exists.1 h.1
    exact ⟨x, hx, Bool.and_false _⟩
  obtain ⟨t, ht, hreq, hused, hstill⟩ := State.issue_of_mayIssue hmay (show u.freeOut = some i from hfree) .join none
  have hsend : s.sendJoin = t := by
    unfold State.sendJoin
    dsimp only
    rw [hm]
    exact congrArg Prod.fst ht
  rw [hsend]
  exact ⟨(State.still_fields hstill).2.2.2.2.2.1, hreq, hused⟩

theorem execJoinRepeat_spec {s : State} {m i at_ : Nat} (hm : s.mgr.ep = some m) (hfree : s.freeOut = some i)
    (hway : m = s.ep ∨ ((s.route m s.ep s.rtr.inject).isSome = true ∧ tblGet s.txn.sentTo m 0 < Config.quotaAt m))
    (hjoin : s.boot.joinAt = some at_) (hsvc : s.inService = true) (hdone : s.boot.joinDone = false) :
    ∃ t, execJoinRepeat s = .next t ∧ t.boot.joinAt = some (max s.time (at_ + ms 100)) ∧
      (t.outSlot i).req.map (·.2) = some .join ∧ t.txn.outUsed = s.txn.outUsed + 1 := by
  obtain ⟨k, hk⟩ := s.elapseTo_eq (at_ + ms 100)
  obtain ⟨hboot, hreq, hused⟩ := State.sendJoin_spec (s := { s with time := max s.time (at_ + ms 100), tick := k }) hm hfree hway
  refine ⟨_, ?_, ?_, hreq, hused⟩
  · rw [← hk, execJoinRepeat, hjoin]
    exact congrArg Host.Outcome.next (if_pos (by simp [hsvc, hdone]))
  · rw [hboot]

/-! ### The limits of the phases (R34, Table 2.1) -/

/-- A phase that reaches its limit ends there, in a state whose clock alone has moved. -/
theorem execPhaseLimit_of_limit {s : State} (r : SelfTest) (l : List TrainResult) (h : s.boot.started = true) {n : Nat}
    (hn : phaseLimit s.boot.state = some n) :
    ∃ u : State, exec (.phaseLimit r l) s = .next (u.passLimit r l) ∧ u.time = max s.time (s.boot.phaseAt + n) ∧
      u.mem = s.mem ∧ u.boot = s.boot ∧ ∀ c, u.ctlOk c = s.ctlOk c := by
  obtain ⟨k, hk⟩ := s.elapseTo_eq (s.boot.phaseAt + n)
  refine ⟨{ s with time := max s.time (s.boot.phaseAt + n), tick := k }, ?_, rfl, rfl, rfl, fun _ => rfl⟩
  rw [← hk]
  show execPhaseLimit r l s = _
  rw [execPhaseLimit, hn]
  exact congrArg Host.Outcome.next (if_pos h)

/-- In ROM the other slot has a limit of its own, and after it the module is in RECOVERY. -/
theorem State.passLimit_rom {s : State} (r : SelfTest) (l : List TrainResult) (h : s.boot.state = 0) :
    (s.passLimit r l).time = s.time ∧ (s.passLimit r l).mem = s.mem ∧ (s.passLimit r l).boot.phaseAt = s.time ∧
      (s.boot.romOver = false → (s.passLimit r l).boot.state = 0 ∧ (s.passLimit r l).boot.romOver = true) ∧
      (s.boot.romOver = true → (s.passLimit r l).boot.state = 7) := by
  have hpass : s.passLimit r l = s.romLimit := if_pos h
  rw [hpass]
  cases hover : s.boot.romOver with
  | false =>
    have he : s.romLimit = _ := if_neg (show ¬ s.checkCopies.boot.romOver = true by simp [State.checkCopies, hover])
    rw [he]
    exact ⟨rfl, rfl, rfl, fun _ => ⟨h, rfl⟩, nofun⟩
  | true =>
    have he : s.romLimit = s.checkCopies.recover := if_pos hover
    obtain ⟨hstate, hat, htime, hmem⟩ := s.checkCopies.recover_spec
    rw [he]
    exact ⟨htime, hmem, hat, nofun, fun _ => hstate⟩

/-- The verdicts of the self-test: each unit is healthy that did not fail (Table 2.5). -/
theorem State.judge_spec (s : State) (r : SelfTest) :
    (s.judge r).time = s.time ∧ (s.judge r).mem = s.mem ∧
      (∀ n, n < 4 → bit (s.judge r).boot.nmcOk n = !bit r.beadCode n) ∧
      (∀ g, g < 8 → bit (s.judge r).boot.fmcOk g = !bit r.beadCode (4 + g)) ∧
      (∀ p, p < 16 → bit (s.judge r).boot.portOk p = (!bit r.link p && !bit r.aes p)) ∧
      (∀ d, d < 8 → bit (s.judge r).boot.dirOk d = !bit r.dir d) := by
  unfold State.judge
  extract_lets okFrames spared ports fmc nmc dirs fail b k t
  have hkeep {β : Type} (part : State → β) (h : ∀ (s : State) p v, part (s.setFrame p v) = part s) :
      part ((List.range 32).foldl (fun s f =>
        if bit spared f then s.setFrame f { s.frame f with spareFor := frameSpared r.rod f } else s) t) = part t := by
    refine foldl_keeps part (fun s p => ?_) _ _
    split
    · exact h _ _ _
    · rfl
  rw [hkeep State.boot fun _ _ _ => rfl, hkeep State.time fun _ _ _ => rfl, hkeep State.mem fun _ _ _ => rfl]
  refine ⟨rfl, rfl, fun n hn => ?_, fun g hg => ?_, fun p hp => ?_, fun d hd => ?_⟩
  · exact (bit_maskOf _ _ _).trans (by simp [hn])
  · exact (bit_maskOf _ _ _).trans (by simp [hg])
  · exact (bit_maskOf _ _ _).trans (by simp [hp])
  · exact (bit_maskOf _ _ _).trans (by simp [hd])

/-- The end of RESTORE leaves where the settings came from. -/
theorem State.endRestore_spec (s : State) : s.endRestore.time = s.time ∧ s.endRestore.mem = s.mem ∧ s.endRestore.boot.state = 3 ∧
    s.endRestore.boot.source = s.boot.source := by
  have hslot : s.restoreSlot0.time = s.time ∧ s.restoreSlot0.mem = s.mem ∧ s.restoreSlot0.boot = s.boot := by
    unfold State.restoreSlot0 State.counterRose
    dsimp only
    (repeat' split) <;> simp
  obtain ⟨htime, hmem, hboot⟩ := hslot
  have hkeep {β : Type} (part : State → β) (h : ∀ (s : State) c, part { s with clk := c } = part s) :
      part s.restoreSlot0.bootSources = part s.restoreSlot0 := by
    refine foldl_keeps part (fun s p => ?_) _ _
    dsimp only
    split
    · exact h _ _
    · rfl
  have ht := hkeep State.time fun _ _ => rfl
  have hm := hkeep State.mem fun _ _ => rfl
  have hb := hkeep State.boot fun _ _ => rfl
  refine ⟨ht.trans htime, hm.trans hmem, rfl, ?_⟩
  show s.restoreSlot0.bootSources.boot.source = _
  rw [hb, hboot]

/-- In ZERO a controller not zeroed at the limit leaves service. -/
theorem State.passLimit_zero {s : State} (r : SelfTest) (l : List TrainResult) (h : s.boot.state = 4) :
    (s.passLimit r l).time = s.time ∧ (s.passLimit r l).mem = s.mem ∧
      ((s.passLimit r l).boot.state = 5 ∨ (s.passLimit r l).boot.state = 8) ∧
      ∀ c, c < 12 → (s.passLimit r l).ctlOk c = (s.ctlOk c && bit s.boot.zeroDone c) := by
  let zeroed (s : State) (c : Nat) : State := if bit s.boot.zeroDone c || !s.ctlOk c then s else s.failCtl c
  have hpass : s.passLimit r l = ((List.range 12).foldl zeroed s).endZero := by
    unfold State.passLimit
    simp only [h]
    rfl
  have hkeep {β : Type} (part : State → β) (hp : ∀ (s : State) c, part (s.failCtl c) = part s) (s : State) (c : Nat) :
      part (zeroed s c) = part s := by
    dsimp only [zeroed]
    split
    · rfl
    · exact hp s c
  have htime : ((List.range 12).foldl zeroed s).time = s.time :=
    foldl_keeps State.time (hkeep State.time fun s c => (s.failCtl_keeps c).1) _ s
  have hmem : ((List.range 12).foldl zeroed s).mem = s.mem :=
    foldl_keeps State.mem (hkeep State.mem fun s c => (s.failCtl_keeps c).2.1) _ s
  obtain ⟨-, -, -, -, hstate, hm, ht, hctl⟩ := ((List.range 12).foldl zeroed s).endZero_spec
  rw [hpass]
  refine ⟨ht.trans htime, hm.trans hmem, ?_, fun c hc => (hctl c).trans ?_⟩
  · rw [hstate]
    split
    · exact .inr rfl
    · exact .inl rfl
  · rw [foldl_ctlOk (good := bit s.boot.zeroDone) (inv := fun u => u.boot.zeroDone = s.boot.zeroDone)
      (fun u c hu => (hkeep (·.boot.zeroDone) (fun s c => (s.failCtl_keeps c).2.2) u c).trans hu) ?_ _ List.nodup_range rfl,
      if_pos (List.mem_range.2 hc)]
    intro u c d hu
    dsimp only [zeroed]
    rw [hu]
    by_cases hz : (bit s.boot.zeroDone c || !u.ctlOk c) = true
    · rw [if_pos hz]
      by_cases hd : d = c
      · subst hd
        cases hb : bit s.boot.zeroDone d <;> simp_all
      · rw [if_neg hd]
    · rw [if_neg hz, State.failCtl_ctlOk]
      by_cases hd : d = c
      · subst hd
        simp_all
      · rw [if_neg hd, if_neg hd]

/-- Every port taken down. -/
def State.portsDown (s : State) : State := (List.range 16).foldl (fun s p => s.setPort p {}) s

theorem State.portsDown_spec (s : State) : s.portsDown.boot = s.boot ∧ s.portsDown.time = s.time ∧ s.portsDown.mem = s.mem ∧
    ∀ p, p < 16 → s.portsDown.port p = {} := by
  have hports (l : List Nat) (u : State) (p : Nat) :
      (l.foldl (fun s p => s.setPort p {}) u).port p = if p ∈ l then {} else u.port p := by
    induction l generalizing u with
    | nil => simp
    | cons q l ih =>
      rw [List.foldl_cons, ih, setPort_port]
      by_cases hp : p = q <;> simp [hp]
  have hkeep {β : Type} (part : State → β) (h : ∀ (s : State) p v, part (s.setPort p v) = part s) : part s.portsDown = part s :=
    foldl_keeps part (g := fun s p => s.setPort p {}) (fun _ _ => h _ _ _) _ s
  exact ⟨hkeep State.boot fun _ _ _ => rfl, hkeep State.time fun _ _ _ => rfl, hkeep State.mem fun _ _ _ => rfl,
    fun p hp => (hports _ s p).trans (if_pos (List.mem_range.2 hp))⟩

/-- RECOVERY without a link for 2 s is HALTED, with its ports down (R42). -/
theorem execRecoveryLinkTimeout_of_recovery {s : State} (hstate : s.boot.state = 7) (hserved : s.boot.served = none) :
    execRecoveryLinkTimeout s = .next ((s.elapseTo (s.boot.phaseAt + ms 2000)).phase 8).portsDown := by
  unfold execRecoveryLinkTimeout
  exact if_pos ⟨hstate, hserved⟩

/-! ### The settlement -/

/-- Keys derived leave all but the tenancy part (R419). -/
theorem State.deriveSelf_deriveCtrl_still (s : State) : s.deriveSelf.deriveCtrl.still = s.still := by
  have hroster (s : State) (ep k : Nat) : (s.putRoster ep k).still = s.still := by
    unfold State.putRoster
    dsimp only
    split <;> rfl
  have hctrl (s : State) : s.deriveCtrl.still = s.still := by
    unfold State.deriveCtrl
    split
    · rfl
    · exact hroster _ _ _
  have hself : s.deriveSelf.still = s.still := by
    unfold State.deriveSelf
    split
    · exact hroster _ _ _
    · split <;> rfl
  exact (hctrl _).trans hself

/-- The tick started at 0, locked (R54). -/
def State.startTick (s : State) : State :=
  { s with tick := { s.tick with count := 0, locked := true, first := true, listenFrom := none } }

theorem State.startTick_spec (s : State) :
    let t := s.startTick.drawMgrNonce
    t.tick.count = 0 ∧ t.tick.locked = true ∧ t.tick.first = true ∧ t.tick.listenFrom = none ∧ t.time = s.time ∧ t.mem = s.mem := by
  unfold State.drawMgrNonce
  dsimp only
  obtain ⟨ht, htick, -, -, -, -, -, -, -, -, -, hm, -⟩ := State.still_fields (State.deriveSelf_deriveCtrl_still
    { s.startTick.free.2 with mgr := { s.startTick.free.2.mgr with nonce := s.startTick.free.1 % 2 ^ 128 } })
  rw [htick, ht, hm]
  exact ⟨rfl, rfl, rfl, rfl, rfl, rfl⟩

/-- A manager that has listened to its end starts the tick at 0, locked (R54). -/
theorem execTickListenEnd_of_listening {s : State} {from_ : Nat} (hfrom : s.tick.listenFrom = some from_) (hrole : s.mgr.role = 2)
    (hlock : s.tick.locked = false) :
    execTickListenEnd s = .next (s.elapseTo (from_ + ms (s.actBits .boot 0 0x040 15 8))).startTick.drawMgrNonce := by
  unfold execTickListenEnd
  rw [hfrom]
  exact if_neg (by simp [hrole, hlock])

/-- Settles O16: each clause is what its phase's operation does, at the time its timer gives. -/
theorem bootPhasesEnd : Obligations.BootPhasesEnd := by
  refine ⟨fun s => ⟨fun r hstarted hstate hended => ?_, fun c hstate hok => ?_, fun hstate hzero => ?_⟩,
    fun s m i hm hfree hway => ⟨fun hstate hlock => ?_, fun from_ hjoin hsvc hdone => ?_⟩,
    fun s r l hstarted => ⟨fun h hrom => ?_, fun h hrom => ?_, fun h => ?_, fun h => ?_, fun h => ?_, fun h => ?_⟩,
    fun s => ⟨fun hstate hserved => ?_, fun from_ hfrom hrole hlock => ?_⟩⟩
  case refine_1 =>
    have hall : s.allTrained r = true := by
      refine List.all_eq_true.2 fun c hc => ?_
      cases hok : s.ctlOk c with
      | false => rfl
      | true =>
        obtain ⟨x, hx, hx'⟩ := hended c (List.mem_range.1 hc) hok
        have htrain : trainOf r c = x := by simp [trainOf, List.getD, hx]
        rw [htrain]
        simpa [TrainResult.ended] using hx'
    obtain ⟨h4, hat, -, hmem, hctl⟩ := s.trainAll_startZero r
    exact ⟨_, congrArg Host.Outcome.next (if_pos (by simp [hstarted, hstate, hall])), h4, hat, hmem, hctl⟩
  case refine_2 =>
    refine ⟨_, congrArg Host.Outcome.next (if_pos (by simp [hstate, hok])), by simp, rfl, fun a ha => ?_, fun a ha => ?_⟩
    · exact (cellGet_filter s.mem (fun a => windowOf a != some c.val) a).trans (if_neg (by simp [ha]))
    · exact (cellGet_filter s.mem (fun a => windowOf a != some c.val) a).trans (if_pos (by simp [ha]))
  case refine_3 =>
    obtain ⟨hrods, hdir, hfb, hlevel, hst, hmem, -⟩ := s.endZero_spec
    exact ⟨_, congrArg Host.Outcome.next (if_pos (by simp [hstate, hzero])), hrods, hdir, hfb, hlevel, hst, hmem⟩
  case refine_4 =>
    obtain ⟨hboot, hreq, hused⟩ := State.sendJoin_spec (s := s.phase 6) hm hfree hway
    refine ⟨_, congrArg Host.Outcome.next (if_pos (by simp [hstate, hlock])), ?_, ?_, hreq, hused⟩ <;> rw [hboot] <;> rfl
  case refine_5 => exact execJoinRepeat_spec hm hfree hway hjoin hsvc hdone
  case refine_6 =>
    obtain ⟨u, hexec, htime, hmem, hboot, -⟩ := execPhaseLimit_of_limit r l hstarted (by rw [h]; rfl)
    obtain ⟨ht, hm, hat, hother, -⟩ := State.passLimit_rom r l (by rw [hboot]; exact h)
    obtain ⟨hstate, hover⟩ := hother (by rw [hboot]; exact hrom)
    exact ⟨_, ⟨hexec, ht.trans htime, hm.trans hmem⟩, hstate, hover, hat.trans ht.symm⟩
  case refine_7 =>
    obtain ⟨u, hexec, htime, hmem, hboot, -⟩ := execPhaseLimit_of_limit r l hstarted (by rw [h]; rfl)
    obtain ⟨ht, hm, hat, -, hrecover⟩ := State.passLimit_rom r l (by rw [hboot]; exact h)
    exact ⟨_, ⟨hexec, ht.trans htime, hm.trans hmem⟩, hrecover (by rw [hboot]; exact hrom), hat.trans ht.symm⟩
  case refine_8 =>
    obtain ⟨u, hexec, htime, hmem, hboot, -⟩ := execPhaseLimit_of_limit r l hstarted (by rw [h]; rfl)
    obtain ⟨ht, hm, hunits⟩ := u.judge_spec r
    have hpass : u.passLimit r l = (u.judge r).phase 2 := by simp only [State.passLimit, hboot, h]; rfl
    rw [hpass] at hexec
    exact ⟨_, ⟨hexec, ht.trans htime, hm.trans hmem⟩, rfl, hunits⟩
  case refine_9 =>
    obtain ⟨u, hexec, htime, hmem, hboot, -⟩ := execPhaseLimit_of_limit r l hstarted (by rw [h]; rfl)
    obtain ⟨ht, hm, hstate, hsource⟩ := ({ u with boot := { u.boot with source := 3, restoreSeq := 0 } } : State).endRestore_spec
    have hpass : u.passLimit r l = ({ u with boot := { u.boot with source := 3, restoreSeq := 0 } } : State).endRestore := by
      simp only [State.passLimit, hboot, h]; rfl
    rw [hpass] at hexec
    exact ⟨_, ⟨hexec, ht.trans htime, hm.trans hmem⟩, hstate, hsource⟩
  case refine_10 =>
    obtain ⟨u, hexec, htime, hmem, hboot, hctl⟩ := execPhaseLimit_of_limit r l hstarted (by rw [h]; rfl)
    obtain ⟨h4, -, ht, hm, hok⟩ := u.trainAll_startZero l
    have hpass : u.passLimit r l = (u.trainAll l).startZero := by simp only [State.passLimit, hboot, h]; rfl
    rw [hpass] at hexec
    exact ⟨_, ⟨hexec, ht.trans htime, hm.trans hmem⟩, h4, fun c hc => by rw [hok c hc, hctl]⟩
  case refine_11 =>
    obtain ⟨u, hexec, htime, hmem, hboot, hctl⟩ := execPhaseLimit_of_limit r l hstarted (by rw [h]; rfl)
    obtain ⟨ht, hm, hstate, hok⟩ := State.passLimit_zero r l (by rw [hboot]; exact h)
    exact ⟨_, ⟨hexec, ht.trans htime, hm.trans hmem⟩, hstate, fun c hc => by rw [hok c hc, hctl, hboot]⟩
  case refine_12 =>
    obtain ⟨k, hk⟩ := s.elapseTo_eq (s.boot.phaseAt + ms 2000)
    obtain ⟨hboot, ht, hm, hports⟩ :=
      (({ s with time := max s.time (s.boot.phaseAt + ms 2000), tick := k } : State).phase 8).portsDown_spec
    rw [← hk] at hboot ht hm hports
    refine ⟨_, execRecoveryLinkTimeout_of_recovery hstate hserved, ?_, ?_, ?_, hports⟩
    · rw [hboot]; rfl
    · rw [ht, hk]; rfl
    · rw [hm, hk]; rfl
  case refine_13 =>
    obtain ⟨k, hk⟩ := s.elapseTo_eq (from_ + ms (s.actBits .boot 0 0x040 15 8))
    obtain ⟨hcount, hlocked, hfirst, hlisten, ht, hm⟩ :=
      ({ s with time := max s.time (from_ + ms (s.actBits .boot 0 0x040 15 8)), tick := k } : State).startTick_spec
    rw [← hk] at hcount hlocked hfirst hlisten ht hm
    refine ⟨_, execTickListenEnd_of_listening hfrom hrole hlock, hcount, hlocked, hfirst, hlisten, ?_, ?_⟩
    · rw [ht, elapseTo_time]; rfl
    · rw [hm, hk]

end Sys2Proof.Machine
end

section
/-!
The bead code (R142, R144): GF(2¹⁶) as the powers of the map that multiplies by α, and what the decoder makes of one and of two bad
symbols.
-/

namespace Sys2Proof.Machine

/-! ### Maps that distribute over `xor` -/

/-- A map of 16-bit numbers that distributes over `xor`. -/
structure XorMap (g : Nat → Nat) : Prop where
  lt : ∀ {a}, a < 2 ^ 16 → g a < 2 ^ 16
  add : ∀ {a b}, a < 2 ^ 16 → b < 2 ^ 16 → g (a ^^^ b) = g a ^^^ g b

theorem XorMap.comp {g h : Nat → Nat} (hg : XorMap g) (hh : XorMap h) : XorMap fun a => g (h a) where
  lt ha := hg.lt (hh.lt ha)
  add ha hb := by rw [hh.add ha hb, hg.add (hh.lt ha) (hh.lt hb)]

theorem XorMap.zero {g : Nat → Nat} (hg : XorMap g) : g 0 = 0 := by
  have h := hg.add (a := 0) (b := 0) (by decide) (by decide)
  rwa [Nat.xor_self, Nat.xor_self] at h

/-- Two such maps that agree on the powers of 2 agree. -/
theorem XorMap.ext {g h : Nat → Nat} (hg : XorMap g) (hh : XorMap h) (hpow : ∀ i < 16, g (2 ^ i) = h (2 ^ i)) {a : Nat}
    (ha : a < 2 ^ 16) : g a = h a := by
  suffices hn : ∀ n ≤ 16, ∀ a < 2 ^ n, g a = h a from hn 16 (Nat.le_refl _) a ha
  intro n hn
  induction n with
  | zero =>
    intro a ha
    rw [Nat.lt_one_iff.1 ha, hg.zero, hh.zero]
  | succ n ih =>
    intro a ha
    by_cases hbit : a.testBit n = true
    · have hlow : a ^^^ 2 ^ n < 2 ^ n := by
        refine Nat.lt_pow_two_of_testBit _ fun i hi => ?_
        rw [Nat.testBit_xor, Nat.testBit_two_pow]
        rcases Nat.eq_or_lt_of_le hi with rfl | hi
        · simp [hbit]
        · rw [Nat.testBit_lt_two_pow (Nat.lt_of_lt_of_le ha (Nat.pow_le_pow_right (by decide) hi))]
          simp [Nat.ne_of_lt hi]
      have h16 : 2 ^ n < 2 ^ 16 := Nat.pow_lt_pow_right (by decide) hn
      have hsplit : a = (a ^^^ 2 ^ n) ^^^ 2 ^ n := by rw [Nat.xor_assoc, Nat.xor_self, Nat.xor_zero]
      rw [hsplit, hg.add (hlow.trans h16) h16, hh.add (hlow.trans h16) h16, ih (by omega) _ hlow, hpow n hn]
    · refine ih (by omega) a (Nat.lt_pow_two_of_testBit _ fun i hi => ?_)
      rcases Nat.eq_or_lt_of_le hi with rfl | hi
      · simpa using hbit
      · exact Nat.testBit_lt_two_pow (Nat.lt_of_lt_of_le ha (Nat.pow_le_pow_right (by decide) hi))

theorem XorMap.eq_of_eq {g : Nat → Nat} (hg : XorMap g) (hker : ∀ a < 2 ^ 16, g a = 0 → a = 0) {a b : Nat} (ha : a < 2 ^ 16)
    (hb : b < 2 ^ 16) (h : g a = g b) : a = b :=
  Nat.xor_eq_zero_iff.1 (hker _ (Nat.xor_lt_two_pow ha hb) (by rw [hg.add ha hb, h, Nat.xor_self]))

/-! ### Multiplication by α -/

/-- α times a number, as `gfMul` and `gfPow` compute it. -/
def xtime (a : Nat) : Nat := if 32768 ≤ a then (2 * a).xor 0x1100B else 2 * a

theorem gfPow_succ (n : Nat) : gfPow (n + 1) = xtime (gfPow n) := rfl

theorem gfMul_succ (n a b : Nat) : gfMul (n + 1) a b = (if b % 2 = 1 then a else 0) ^^^ gfMul n (xtime a) (b / 2) := rfl

theorem testBit_two_mul (a j : Nat) : (2 * a).testBit j = (decide (1 ≤ j) && a.testBit (j - 1)) := by
  simpa using Nat.testBit_two_pow_mul (i := 1) (a := a) (j := j)

theorem two_mul_xor (a b : Nat) : 2 * (a ^^^ b) = 2 * a ^^^ 2 * b := by
  refine Nat.eq_of_testBit_eq fun j => ?_
  simp only [Nat.testBit_xor, testBit_two_mul]
  cases decide (1 ≤ j) <;> simp

theorem xtime_eq {a : Nat} (ha : a < 2 ^ 16) : xtime a = 2 * a ^^^ if a.testBit 15 then 0x1100B else 0 := by
  have htop : a.testBit 15 = true ↔ 32768 ≤ a := by
    rw [Nat.testBit_eq_decide_div_mod_eq, decide_eq_true_iff]
    omega
  unfold xtime
  by_cases h : 32768 ≤ a
  · rw [if_pos h, if_pos (htop.2 h)]; rfl
  · rw [if_neg h, if_neg fun h' => h (htop.1 h'), Nat.xor_zero]

theorem xorMap_xtime : XorMap xtime where
  lt {a} ha := by
    refine Nat.lt_pow_two_of_testBit _ fun j hj => ?_
    rw [xtime_eq ha, Nat.testBit_xor, testBit_two_mul, apply_ite (Nat.testBit · j), Nat.zero_testBit]
    rcases Nat.eq_or_lt_of_le hj with rfl | hj
    · cases a.testBit 15 <;> decide
    · have h1 : a.testBit (j - 1) = false :=
        Nat.testBit_lt_two_pow (Nat.lt_of_lt_of_le ha (Nat.pow_le_pow_right (by decide) (by omega)))
      have h2 : (0x1100B).testBit j = false :=
        Nat.testBit_lt_two_pow (Nat.lt_of_lt_of_le (by decide : 0x1100B < 2 ^ 17) (Nat.pow_le_pow_right (by decide) hj))
      simp [h1, h2]
  add {a b} ha hb := by
    rw [xtime_eq ha, xtime_eq hb, xtime_eq (Nat.xor_lt_two_pow ha hb), two_mul_xor, Nat.testBit_xor]
    cases a.testBit 15 <;> cases b.testBit 15 <;>
      simp [Nat.xor_assoc, Nat.xor_comm, Nat.xor_left_comm]

theorem xtime_eq_zero {a : Nat} (ha : a < 2 ^ 16) (h : xtime a = 0) : a = 0 := by
  rw [xtime_eq ha, Nat.xor_eq_zero_iff] at h
  split at h <;> omega

/-- α to the `n` times a number. -/
def mulAlpha : Nat → Nat → Nat
  | 0, a => a
  | n + 1, a => xtime (mulAlpha n a)

theorem xorMap_mulAlpha (n : Nat) : XorMap (mulAlpha n) := by
  induction n with
  | zero => exact ⟨fun h => h, fun _ _ => rfl⟩
  | succ n ih => exact xorMap_xtime.comp ih

theorem mulAlpha_add (m n a : Nat) : mulAlpha (m + n) a = mulAlpha m (mulAlpha n a) := by
  induction m with
  | zero => rw [Nat.zero_add]; rfl
  | succ m ih => rw [Nat.succ_add, mulAlpha, ih]; rfl

theorem mulAlpha_comm (m n a : Nat) : mulAlpha m (mulAlpha n a) = mulAlpha n (mulAlpha m a) := by
  rw [← mulAlpha_add, Nat.add_comm, mulAlpha_add]

theorem mulAlpha_eq_zero {n a : Nat} (ha : a < 2 ^ 16) (h : mulAlpha n a = 0) : a = 0 := by
  induction n with
  | zero => exact h
  | succ n ih => exact ih (xtime_eq_zero ((xorMap_mulAlpha n).lt ha) h)

/-! ### Products of the field -/

theorem xorMap_gfMul_left (n b : Nat) : XorMap fun a => gfMul n a b := by
  induction n generalizing b with
  | zero => exact ⟨fun _ => Nat.two_pow_pos 16, fun _ _ => (Nat.xor_self 0).symm⟩
  | succ n ih =>
    have hrest := (ih (b / 2)).comp xorMap_xtime
    simp only [gfMul_succ]
    split
    · refine ⟨fun ha => Nat.xor_lt_two_pow ha (hrest.lt ha), fun ha hb => ?_⟩
      rw [hrest.add ha hb]
      simp only [Nat.xor_assoc, Nat.xor_left_comm]
    · simpa only [Nat.zero_xor] using hrest

theorem gfMul_xor_right (n a b c : Nat) : gfMul n a (b ^^^ c) = gfMul n a b ^^^ gfMul n a c := by
  induction n generalizing a b c with
  | zero => exact (Nat.xor_self 0).symm
  | succ n ih =>
    rw [gfMul_succ, gfMul_succ, gfMul_succ, Nat.xor_div_two, ih]
    have hpar := Nat.xor_mod_two_eq_one (a := b) (b := c)
    by_cases hb : b % 2 = 1 <;> by_cases hc : c % 2 = 1 <;>
      simp only [hpar, hb, hc, not_true, not_false_iff, iff_true, iff_false, iff_self, if_true, if_false, Nat.zero_xor, Nat.xor_assoc,
        Nat.xor_left_comm a, Nat.xor_xor_cancel_left]

theorem xorMap_gfMul_right {a : Nat} (ha : a < 2 ^ 16) : XorMap fun b => gfMul 16 a b :=
  ⟨fun _ => (xorMap_gfMul_left 16 _).lt ha, fun _ _ => gfMul_xor_right 16 a _ _⟩

/-- A product with α times a number is α times the product. -/
theorem gfMul_xtime {a b : Nat} (ha : a < 2 ^ 16) (hb : b < 2 ^ 16) : gfMul 16 a (xtime b) = xtime (gfMul 16 a b) := by
  refine XorMap.ext ((xorMap_gfMul_right ha).comp xorMap_xtime) (xorMap_xtime.comp (xorMap_gfMul_right ha)) (fun j hj => ?_) hb
  refine XorMap.ext (xorMap_gfMul_left 16 _) (xorMap_xtime.comp (xorMap_gfMul_left 16 _)) (fun i hi => ?_) ha
  exact (by decide +kernel : ∀ j < 16, ∀ i < 16, gfMul 16 (2 ^ i) (xtime (2 ^ j)) = xtime (gfMul 16 (2 ^ i) (2 ^ j))) j hj i hi

theorem gfPow_lt (n : Nat) : gfPow n < 2 ^ 16 := by
  induction n with
  | zero => decide
  | succ n ih => exact xorMap_xtime.lt ih

theorem gfMul_gfPow {a : Nat} (ha : a < 2 ^ 16) (n : Nat) : gfMul 16 a (gfPow n) = mulAlpha n a := by
  induction n with
  | zero =>
    exact XorMap.ext (xorMap_gfMul_left 16 _) (xorMap_mulAlpha 0)
      (by decide +kernel : ∀ i < 16, gfMul 16 (2 ^ i) 1 = 2 ^ i) ha
  | succ n ih => rw [gfPow_succ, gfMul_xtime ha (gfPow_lt n), ih, mulAlpha]

/-- The inverses of α^d + 1 for d from 1 to 35. -/
def gfInverses : List Nat :=
  [61446, 20482, 9946, 45060, 38188, 28479, 50445, 64445, 38047, 37281, 58044, 49778, 48564, 9632, 1226, 1932, 61135, 50351,
    58546, 49483, 51695, 20177, 19907, 28777, 36694, 64737, 1320, 10844, 13547, 16639, 42460, 204, 31328, 2435, 47845]

/-- No power of α up to the 35th fixes a number that is not 0. -/
theorem eq_zero_of_mulAlpha_eq {d u : Nat} (hd : d < 35) (hu : u < 2 ^ 16) (h : mulAlpha (d + 1) u = u) : u = 0 := by
  have hinv : ∀ d < 35, ∀ i < 16,
      gfMul 16 (gfMul 16 (2 ^ i) (gfPow (d + 1)) ^^^ 2 ^ i) (gfInverses.getD d 0) = 2 ^ i := by decide +kernel
  have hzero : gfMul 16 (gfMul 16 u (gfPow (d + 1)) ^^^ u) (gfInverses.getD d 0) = u := by
    refine XorMap.ext (g := fun u => gfMul 16 (gfMul 16 u (gfPow (d + 1)) ^^^ u) (gfInverses.getD d 0)) (h := fun u => u)
      ((xorMap_gfMul_left 16 _).comp ⟨fun ha => Nat.xor_lt_two_pow ((xorMap_gfMul_left 16 _).lt ha) ha, fun ha hb => ?_⟩)
      ⟨fun h => h, fun _ _ => rfl⟩ (hinv d hd) hu
    rw [(xorMap_gfMul_left 16 _).add ha hb]
    simp only [Nat.xor_assoc, Nat.xor_left_comm]
  rw [gfMul_gfPow hu, h, Nat.xor_self] at hzero
  rw [← hzero, (xorMap_gfMul_left 16 _).zero]

/-- Two powers of α below the 36th take a number that is not 0 to different numbers. -/
theorem eq_zero_of_mulAlpha_eq_mulAlpha {p q u : Nat} (hp : p < 36) (hq : q < 36) (hne : p ≠ q) (hu : u < 2 ^ 16)
    (h : mulAlpha p u = mulAlpha q u) : u = 0 := by
  wlog hlt : p < q generalizing p q
  · exact this hq hp hne.symm h.symm (by omega)
  obtain ⟨d, rfl⟩ : ∃ d, q = p + (d + 1) := ⟨q - p - 1, by omega⟩
  rw [mulAlpha_add] at h
  refine eq_zero_of_mulAlpha_eq (d := d) (by omega) hu ?_
  exact ((xorMap_mulAlpha p).eq_of_eq (fun a ha => mulAlpha_eq_zero ha) hu ((xorMap_mulAlpha _).lt hu) h).symm

/-! ### Syndromes -/

theorem syndrome_one {i e : Nat} (he : e < 2 ^ 16) (k : Nat) : syndrome [(i, e)] k = mulAlpha (k * symPower i) e := by
  rw [← gfMul_gfPow he]
  exact Nat.zero_xor _

theorem syndrome_two {i j e f : Nat} (he : e < 2 ^ 16) (hf : f < 2 ^ 16) (k : Nat) :
    syndrome [(i, e), (j, f)] k = mulAlpha (k * symPower i) e ^^^ mulAlpha (k * symPower j) f := by
  rw [← gfMul_gfPow he, ← gfMul_gfPow hf]
  exact congrArg (· ^^^ _) (Nat.zero_xor _)

theorem mergeErrs_one {i e : Nat} (he : 0 < e) : mergeErrs [(i, e)] [] = [(i, e)] := by
  simp [mergeErrs, tblPut, tblGet, tblGet?, Nat.ne_of_gt he]

theorem mergeErrs_two {i j e f : Nat} (hij : i < j) (he : 0 < e) (hf : 0 < f) : mergeErrs [(i, e), (j, f)] [] = [(i, e), (j, f)] := by
  simp [mergeErrs, tblPut, tblGet, tblGet?, Nat.ne_of_gt he, Nat.ne_of_gt hf, Nat.not_lt.2 hij.le, Nat.ne_of_gt hij]

theorem mergeErrs_cancel (i e : Nat) : mergeErrs [(i, e)] [(i, e)] = [] := by
  simp [mergeErrs, tblPut, tblGet, tblGet?]

theorem symPower_inj {i j : Nat} (hi : i < 36) (hj : j < 36) (h : symPower i = symPower j) : i = j := by
  unfold symPower at h; omega

/-- The decoder's test of a symbol against the syndromes. -/
def symbolFits (s0 s1 s2 i : Nat) : Bool :=
  s0 != 0 && gfMul 16 s0 (gfPow (symPower i)) == s1 && gfMul 16 s0 (gfPow (2 * symPower i)) == s2

theorem symbolFits_iff {s0 : Nat} (h : s0 < 2 ^ 16) (s1 s2 i : Nat) :
    symbolFits s0 s1 s2 i = true ↔ s0 ≠ 0 ∧ mulAlpha (symPower i) s0 = s1 ∧ mulAlpha (2 * symPower i) s0 = s2 := by
  simp [symbolFits, gfMul_gfPow h, and_assoc]

/-- A single bad symbol fits at its place alone. -/
theorem symbolFits_one {i e k : Nat} (hi : i < 36) (hk : k < 36) (he0 : 0 < e) (he : e < 2 ^ 16) :
    symbolFits e (mulAlpha (symPower i) e) (mulAlpha (2 * symPower i) e) k = true ↔ k = i := by
  rw [symbolFits_iff he]
  refine ⟨fun ⟨_, h, _⟩ => ?_, fun h => by subst h; exact ⟨Nat.ne_of_gt he0, rfl, rfl⟩⟩
  by_contra hne
  exact absurd (eq_zero_of_mulAlpha_eq_mulAlpha (by unfold symPower; omega) (by unfold symPower; omega)
    (fun h => hne (symPower_inj hk hi h)) he h) (Nat.ne_of_gt he0)

theorem xor_swap {a b c d : Nat} (h : a ^^^ b = c ^^^ d) : a ^^^ c = b ^^^ d := by
  have ha : a = c ^^^ d ^^^ b := by rw [← h, Nat.xor_assoc, Nat.xor_self, Nat.xor_zero]
  rw [ha, Nat.xor_comm, Nat.xor_assoc, Nat.xor_xor_cancel_left, Nat.xor_comm]

/-- Two powers of α added, squared. -/
theorem mulAlpha_add_square {a : Nat} (ha : a < 2 ^ 16) (p q : Nat) :
    mulAlpha p (mulAlpha p a ^^^ mulAlpha q a) ^^^ mulAlpha q (mulAlpha p a ^^^ mulAlpha q a) =
      mulAlpha (2 * p) a ^^^ mulAlpha (2 * q) a := by
  have hp := (xorMap_mulAlpha p).lt ha
  have hq := (xorMap_mulAlpha q).lt ha
  rw [(xorMap_mulAlpha p).add hp hq, (xorMap_mulAlpha q).add hp hq, Nat.two_mul, mulAlpha_add, Nat.two_mul, mulAlpha_add,
    mulAlpha_comm q p, Nat.xor_assoc, Nat.xor_xor_cancel_left]

/-- Two bad symbols fit at no place: each would have to lie there. -/
theorem symbolFits_two {i j e f : Nat} (hij : i < j) (hj : j < 36) (he0 : 0 < e) (he : e < 2 ^ 16) (hf0 : 0 < f) (hf : f < 2 ^ 16)
    (k : Nat) : symbolFits (e ^^^ f) (mulAlpha (symPower i) e ^^^ mulAlpha (symPower j) f)
      (mulAlpha (2 * symPower i) e ^^^ mulAlpha (2 * symPower j) f) k = false := by
  rw [Bool.eq_false_iff, Ne, symbolFits_iff (Nat.xor_lt_two_pow he hf)]
  rintro ⟨-, h1, h2⟩
  have hlt (i : Nat) : symPower i < 36 := by unfold symPower; omega
  have hpq : symPower i ≠ symPower j := fun h => absurd (symPower_inj (hij.trans hj) hj h) (Nat.ne_of_lt hij)
  have hp := hlt i
  have hq := hlt j
  have hr := hlt k
  generalize symPower i = p at *
  generalize symPower j = q at *
  generalize symPower k = r at *
  rw [(xorMap_mulAlpha _).add he hf] at h1 h2
  have hu : mulAlpha r e ^^^ mulAlpha p e = mulAlpha r f ^^^ mulAlpha q f := xor_swap h1
  have hsquare := xor_swap h2
  rw [← mulAlpha_add_square he, ← mulAlpha_add_square hf, ← hu] at hsquare
  have hu0 : mulAlpha r e ^^^ mulAlpha p e = 0 := by
    refine eq_zero_of_mulAlpha_eq_mulAlpha hp hq hpq
      (Nat.xor_lt_two_pow ((xorMap_mulAlpha r).lt he) ((xorMap_mulAlpha p).lt he)) ?_
    have := xor_swap hsquare
    rw [Nat.xor_self] at this
    exact Nat.xor_eq_zero_iff.1 this.symm
  have hrp : r = p := by
    by_contra hne
    exact absurd (eq_zero_of_mulAlpha_eq_mulAlpha hr hp hne he (Nat.xor_eq_zero_iff.1 hu0)) (Nat.ne_of_gt he0)
  have hrq : r = q := by
    by_contra hne
    exact absurd (eq_zero_of_mulAlpha_eq_mulAlpha hr hq hne hf (Nat.xor_eq_zero_iff.1 (hu ▸ hu0))) (Nat.ne_of_gt hf0)
  exact hpq (hrp.symm.trans hrq)

/-! ### The settlements -/

theorem find?_symbolFits_one {i e : Nat} (hi : i < 36) (he0 : 0 < e) (he : e < 2 ^ 16) :
    (List.range 36).find? (symbolFits e (mulAlpha (symPower i) e) (mulAlpha (2 * symPower i) e)) = some i := by
  cases h : (List.range 36).find? (symbolFits e (mulAlpha (symPower i) e) (mulAlpha (2 * symPower i) e)) with
  | none =>
    have := List.find?_eq_none.1 h i (List.mem_range.2 hi)
    exact absurd ((symbolFits_one hi hi he0 he).2 rfl) this
  | some k =>
    rw [(symbolFits_one hi (List.mem_range.1 (List.mem_of_find?_eq_some h)) he0 he).1 (List.find?_some h)]

/-- Settles O35: the one bad symbol fits at its own place alone, where its difference is taken away. -/
theorem oneSymbolIsCorrected : Obligations.OneSymbolIsCorrected := by
  refine ⟨by decide, fun i e hi he0 he => ?_⟩
  have h0 : syndrome [(i, e)] 0 = e := (syndrome_one he 0).trans (by rw [Nat.zero_mul]; rfl)
  unfold decodeBead
  dsimp only
  rw [mergeErrs_one he0, h0, syndrome_one he, syndrome_one he, Nat.one_mul, if_neg fun h => Nat.ne_of_gt he0 h.1]
  have hfind := find?_symbolFits_one hi he0 he
  unfold symbolFits at hfind
  rw [hfind]
  exact congrArg Decoded.corrected (mergeErrs_cancel i e)

/-- Settles O36: two bad symbols fit at no place, and do not cancel in the first two syndromes. -/
theorem twoSymbolsAreDetected : Obligations.TwoSymbolsAreDetected := by
  intro i j e f hij hj he0 he hf0 hf
  have h0 : syndrome [(i, e), (j, f)] 0 = e ^^^ f := (syndrome_two he hf 0).trans (by rw [Nat.zero_mul, Nat.zero_mul]; rfl)
  refine ⟨[(i, e), (j, f)], ?_⟩
  unfold decodeBead
  dsimp only
  rw [mergeErrs_two hij he0 hf0, h0, syndrome_two he hf, syndrome_two he hf, Nat.one_mul, Nat.one_mul, if_neg ?_]
  · have hfind : (List.range 36).find? (symbolFits (e ^^^ f) (mulAlpha (symPower i) e ^^^ mulAlpha (symPower j) f)
        (mulAlpha (2 * symPower i) e ^^^ mulAlpha (2 * symPower j) f)) = none :=
      List.find?_eq_none.2 fun k hk => by simp [symbolFits_two hij hj he0 he hf0 hf k]
    unfold symbolFits at hfind
    rw [hfind]
  · rintro ⟨hs0, hs1, -⟩
    obtain rfl := Nat.xor_eq_zero_iff.1 hs0
    have hpq : symPower i ≠ symPower j := fun h => absurd (symPower_inj (hij.trans hj) hj h) (Nat.ne_of_lt hij)
    exact absurd (eq_zero_of_mulAlpha_eq_mulAlpha (by unfold symPower; omega) (by unfold symPower; omega) hpq he
      (Nat.xor_eq_zero_iff.1 hs1)) (Nat.ne_of_gt he0)

end Sys2Proof.Machine
end

section
/-!
Clock references, multiplexers, enables and sources (R63–R67, R72).
-/

namespace Sys2Proof.Machine

/-! ### PAGE_EVENT bits (R455) -/

/-- A PAGE_EVENT bit raised is set, and every other bit of the register stands. -/
theorem raise_wbit (s : State) (k : PageKind) (i b : Nat) {j : Nat} (hj : j < 32) :
    wbit ((s.raise k i b).reg (pageBase k i + 8)) j = (decide (j = b) || wbit (s.reg (pageBase k i + 8)) j) := by
  have hq (u : State) (n : Nat) (r : Record) (a : Nat) : (u.enqueue n r).reg a = u.reg a := by simp [State.reg]
  unfold State.raise
  dsimp only
  split
  · rename_i hset
    by_cases h : j = b
    · subst h; simp [hset]
    · simp [h]
  · have hwset : wbit (wset (s.reg (pageBase k i + 8)) b b 1) j = (decide (j = b) || wbit (s.reg (pageBase k i + 8)) j) := by
      rw [wbit_wset_bit _ _ _ hj]
      by_cases h : j = b
      · rw [if_pos h, decide_eq_true h]; rfl
      · rw [if_neg h, decide_eq_false h]; rfl
    split
    · rw [setReg_reg, if_pos rfl, hwset]
    · rw [hq, setReg_reg, if_pos rfl, hwset]

/-- A record posted to the manager ring leaves every register but the XLT page's PAGE_EVENT. -/
theorem postMgr_reg (s : State) (r : Record) {a : Nat} (h : a ≠ pageBase .xlt 0 + 8) : (s.postMgr r).reg a = s.reg a := by
  have hq (u : State) (n : Nat) (r : Record) : (u.enqueue n r).reg a = u.reg a := by simp [State.reg]
  unfold State.postMgr State.post
  dsimp only
  split
  · rw [raise_reg _ _ _ _ _ h, hq]
  · rw [hq]

/-! ### References (R64, R72) -/

/-- TICK_LOCKED cleared: the tick alone, and PAGE_EVENT bit 1 of CLK (R71). -/
theorem State.tickUnlock_spec (s : State) :
    s.tickUnlock.tick = { s.tick with locked := false, good := 0 } ∧ s.tickUnlock.time = s.time ∧ s.tickUnlock.clk = s.clk ∧
      s.tickUnlock.mem = s.mem ∧ (∀ a, a ≠ 0x2008 → s.tickUnlock.reg a = s.reg a) ∧
      ∀ j < 32, wbit (s.tickUnlock.reg 0x2008) j = (decide (j = 1) && s.tick.locked || wbit (s.reg 0x2008) j) := by
  unfold State.tickUnlock
  dsimp only
  cases h : s.tick.locked with
  | false => exact ⟨rfl, rfl, rfl, rfl, fun _ _ => rfl, fun j _ => by rw [Bool.and_false, Bool.false_or]; rfl⟩
  | true =>
    refine ⟨?_, ?_, ?_, ?_, fun a ha => ?_, fun j hj => ?_⟩
    iterate 4 · simp
    · exact raise_reg _ _ _ _ _ ha
    · rw [Bool.and_true]; exact raise_wbit _ .clk 0 1 hj

/-- A lost reference: its PLL coasts and REF_LOST is set. -/
def State.loseRef (s : State) (pll : Nat) (tick : Bool) : State :=
  let s := { s with clk := { s.clk with
    pllLocked := setBit s.clk.pllLocked pll false, coasting := setBit s.clk.coasting pll true
    xoPresent := if tick then s.clk.xoPresent else false
    tickRefPresent := if tick then false else s.clk.tickRefPresent } }
  (s.setReg 0x2800 (wset (s.reg 0x2800) (8 + pll) (8 + pll) 1)).raise .clk 0 0

theorem State.loseRef_spec (s : State) {pll : Nat} (hpll : pll < 7) (tick : Bool) :
    let t := s.loseRef pll tick
    bit t.clk.pllLocked pll = false ∧ bit t.clk.coasting pll = true ∧ wbit (t.reg 0x2800) (8 + pll) = true ∧
      wbit (t.reg 0x2008) 0 = true ∧ t.mem = s.mem ∧ t.tick = s.tick ∧
      (tick = true → t.clk.tickRefPresent = false) ∧ (tick = false → t.clk.xoPresent = false) := by
  have hbit : wbit (wset (s.reg 0x2800) (8 + pll) (8 + pll) 1) (8 + pll) = true := by
    rw [wbit_wset_bit _ _ _ (by omega), if_pos rfl]; rfl
  unfold State.loseRef
  dsimp only
  refine ⟨by simp, by simp, ?_, ?_, by simp, by simp, fun h => by simp [h], fun h => by simp [h]⟩
  · rw [raise_reg _ _ _ _ _ (by decide), setReg_reg, if_pos rfl]
    exact hbit
  · exact (raise_wbit _ .clk 0 0 (by decide)).trans rfl

theorem execRefLoss_of_started {s : State} (h : s.boot.started = true) (pll : Fin 7) :
    execRefLoss pll s = .next (if pll.val = 6 ∧ s.mgr.role ≠ 2 then (s.loseRef pll true).tickUnlock else s.loseRef pll false) := by
  unfold execRefLoss
  rw [if_neg (by simp [h])]
  by_cases ht : pll.val = 6 ∧ s.mgr.role ≠ 2
  · have ht' : pll.val = 6 ∧ s.followsTickRef = true := by simpa [State.followsTickRef] using ht
    rw [if_pos ht]
    simp only [if_pos ht']
    rfl
  · have ht' : ¬ (pll.val = 6 ∧ s.followsTickRef = true) := by simpa [State.followsTickRef] using ht
    rw [if_neg ht]
    simp only [if_neg ht']
    rfl

/-- What a mapped table reads, when its default and every value mapped have it. -/
theorem tblGet_map_has {α : Type} {P : α → Prop} (t : Tbl α) (f : Nat → α → α) (k : Nat) {d : α} (hd : P d) (hf : ∀ v, P (f k v)) :
    P (tblGet (tblMap t f) k d) := by
  rw [tblGet, tblGet?_map]
  cases tblGet? t k with
  | none => exact hd
  | some v => exact hf v

/-! ### Multiplexers (R66, R67) -/

/-- A switch that stayed pending: its domain is reset, with its PAGE_EVENT bit and a record (R67). -/
def State.endSwitch (s : State) (d : Nat) : State :=
  let s := { s with clk := { s.clk with pending := tblDel s.clk.pending d } }
  ((s.resetDomain d).raise .clk 0 2).postMgr { typ := 0x0006, cls := 1, source := 0x4000, detail := detail [(0, [byte d])] }

theorem execMuxWatchdog_of_pending {s : State} {d : Fin 6} {at_ : Nat} (h : tblGet? s.clk.pending d = some at_) :
    execMuxWatchdog d s = .next ((s.elapseTo (at_ + us (s.actBits .clk 0 0x040 31 24))).endSwitch d) := by
  unfold execMuxWatchdog
  rw [h]
  rfl

/-- What a reset domain loses, and what no reset of one touches (R67, assumption 151). -/
theorem State.resetDomain_spec (s : State) (d : Nat) :
    (s.resetDomain d).time = s.time ∧ (s.resetDomain d).mem = s.mem ∧ (s.resetDomain d).clk.pending = s.clk.pending ∧
      (d = 0 → (s.resetDomain d).rods = [] ∧ (s.resetDomain d).movers = [] ∧ ∀ f, ((s.resetDomain d).frame f).fb = []) ∧
      (d = 1 → ∀ c u, ((s.resetDomain d).unitAt c u).beam = []) ∧
      (d = 2 → (s.resetDomain d).ports = [] ∧ (s.resetDomain d).rtr.queues = [] ∧ (s.resetDomain d).rtr.held = []) ∧
      (d = 3 → ∀ c, c < 4 → ((s.resetDomain d).ctlAt c).units = []) ∧ (d = 4 → ∀ c, 4 ≤ c → ((s.resetDomain d).ctlAt c).units = []) ∧
      (d = 5 → (s.resetDomain d).clk.mgmtUntil = s.time + Config.free s.freeCtr) := by
  by_cases h1 : d = 1
  · subst h1
    have hbeam (c u : Nat) : ((s.resetDomain 1).unitAt c u).beam = [] :=
      tblGet_map_has (P := fun v : Ctl => ∀ u, (tblGet v.units u {}).beam = []) s.ctl
        (fun _ v => { v with units := tblMap v.units fun _ u => { u with beam := [] } }) c (d := {}) (fun _ => rfl)
        (fun v u => tblGet_map_has (P := fun u : Unit => u.beam = []) v.units (fun _ u => { u with beam := [] }) u (d := {}) rfl
          fun _ => rfl) u
    exact ⟨rfl, rfl, rfl, nofun, fun _ => hbeam, nofun, nofun, nofun, nofun⟩
  by_cases h2 : d = 2
  · subst h2
    exact ⟨rfl, rfl, rfl, nofun, nofun, fun _ => ⟨rfl, rfl, rfl⟩, nofun, nofun, nofun⟩
  by_cases h5 : d = 5
  · subst h5
    exact ⟨rfl, rfl, rfl, nofun, nofun, nofun, nofun, nofun, fun _ => rfl⟩
  by_cases h0 : d = 0
  · subst h0
    exact ⟨rfl, rfl, rfl, fun _ => ⟨rfl, rfl, fun f =>
      tblGet_map_has (P := fun f : Frame => f.fb = []) s.frames
        (fun _ f => { f with fb := [], badLines := [], check := none }) f (d := {}) rfl fun _ => rfl⟩, nofun, nofun, nofun, nofun, nofun⟩
  by_cases h34 : d = 3 ∨ d = 4
  · have hreset : s.resetDomain d =
        { s with ctl := tblMap s.ctl fun c v => if (c < 4) = (d = 3) then { v with units := [] } else v } := by
      simp only [State.resetDomain, if_neg h1, if_neg h2, if_neg h5, if_neg h0, if_pos h34]
    have hunits {c : Nat} (h : (c < 4) = (d = 3)) : ((s.resetDomain d).ctlAt c).units = [] := by
      rw [hreset]
      exact tblGet_map_has (P := fun v : Ctl => v.units = []) s.ctl
        (fun c v => if (c < 4) = (d = 3) then { v with units := [] } else v) c (d := {}) rfl fun v => by rw [if_pos h]
    refine ⟨by rw [hreset], by rw [hreset], by rw [hreset], fun h => absurd h h0, fun h => absurd h h1, fun h => absurd h h2,
      fun h c hc => hunits (by simp [h, hc]), fun h c hc => hunits (by simp [h]; omega), fun h => absurd h h5⟩
  · have hreset : s.resetDomain d = s := by
      simp only [State.resetDomain, if_neg h1, if_neg h2, if_neg h5, if_neg h0, if_neg h34]
    rw [hreset]
    exact ⟨rfl, rfl, rfl, fun h => absurd h h0, fun h => absurd h h1, fun h => absurd h h2,
      fun h => absurd (.inl h) h34, fun h => absurd (.inr h) h34, fun h => absurd h h5⟩

/-- The part of a state that a domain's reset concerns stands under the raised bit and the record. -/
theorem State.endSwitch_spec (s : State) (d : Nat) :
    let r := ({ s with clk := { s.clk with pending := tblDel s.clk.pending d } } : State).resetDomain d
    (s.endSwitch d).time = r.time ∧ (s.endSwitch d).mem = r.mem ∧ (s.endSwitch d).clk = r.clk ∧ (s.endSwitch d).rods = r.rods ∧
      (s.endSwitch d).movers = r.movers ∧ (s.endSwitch d).frames = r.frames ∧ (s.endSwitch d).ctl = r.ctl ∧
      (s.endSwitch d).ports = r.ports ∧ (s.endSwitch d).rtr = r.rtr ∧ wbit ((s.endSwitch d).reg 0x2008) 2 = true := by
  refine ⟨?_, ?_, ?_, ?_, ?_, ?_, ?_, ?_, ?_, ?_⟩
  iterate 9 · simp [State.endSwitch]
  · rw [State.endSwitch, postMgr_reg _ _ (by decide)]
    exact (raise_wbit _ .clk 0 2 (by decide)).trans rfl

/-- The end of a switch that stayed pending. -/
theorem State.endSwitch_reset (s : State) (d : Nat) :
    tblGet? (s.endSwitch d).clk.pending d = none ∧ (s.endSwitch d).time = s.time ∧ (s.endSwitch d).mem = s.mem ∧
      wbit ((s.endSwitch d).reg 0x2008) 2 = true ∧
      (d = 0 → (s.endSwitch d).rods = [] ∧ (s.endSwitch d).movers = [] ∧ ∀ f, ((s.endSwitch d).frame f).fb = []) ∧
      (d = 1 → ∀ c u, ((s.endSwitch d).unitAt c u).beam = []) ∧
      (d = 2 → (s.endSwitch d).ports = [] ∧ (s.endSwitch d).rtr.queues = [] ∧ (s.endSwitch d).rtr.held = []) ∧
      (d = 3 → ∀ c, c < 4 → ((s.endSwitch d).ctlAt c).units = []) ∧ (d = 4 → ∀ c, 4 ≤ c → ((s.endSwitch d).ctlAt c).units = []) ∧
      (d = 5 → (s.endSwitch d).clk.mgmtUntil = (s.endSwitch d).time + Config.free s.freeCtr) := by
  obtain ⟨htime, hmem, hclk, hrods, hmov, hframes, hctl, hports, hrtr, hbit⟩ := s.endSwitch_spec d
  obtain ⟨rtime, rmem, rpend, r0, r1, r2, r3, r4, r5⟩ :=
    ({ s with clk := { s.clk with pending := tblDel s.clk.pending d } } : State).resetDomain_spec d
  simp only [State.frame, State.unitAt, State.ctlAt] at r0 r1 r3 r4 ⊢
  rw [htime, hmem, hclk, hrods, hmov, hframes, hctl, hports, hrtr, rtime]
  exact ⟨by rw [rpend, tblGet?_del, if_pos rfl], rfl, rmem, hbit, r0, r1, r2, r3, r4, r5⟩

/-! ### Enables and sources (R63, R65) -/

/-- An enable word written: a bit set of an unhealthy block, or cleared of one not idle, stands, and every other takes its value. -/
theorem State.enableBits_bit (s : State) (n : Nat) (page : Nat → Option (PageKind × Nat)) (old new : Nat) (b : Nat) :
    bit (s.enableBits n page old new).1 b = if b < n then
        (if bit old b = bit new b then bit old b else if bit new b then !s.bitBad (page b) else !s.bitIdle (page b))
      else bit old b := by
  induction n with
  | zero => rfl
  | succ n ih =>
    unfold State.enableBits at ih ⊢
    rw [List.range_succ, List.foldl_append, List.foldl_cons, List.foldl_nil]
    by_cases hb : b = n
    · subst hb
      rw [if_neg (Nat.lt_irrefl b)] at ih
      rw [if_pos (Nat.lt_succ_self b)]
      by_cases heq : bit old b = bit new b
      · rw [if_pos heq, if_pos heq, ih]
      · rw [if_neg heq, if_neg heq]
        cases hnew : bit new b <;> rw [hnew] at heq <;> cases hbad : s.bitBad (page b) <;> cases hidle : s.bitIdle (page b) <;>
          simp_all
    · simp only [show b < n + 1 ↔ b < n by omega]
      rw [← ih]
      repeat' split
      all_goals simp [hb]

/-- CLK_EN_BLK written (R63). -/
theorem State.writePage_clkEnable (s : State) (w : Word) : ∃ n st,
    s.writePage .clk 0 0x808 w = ({ s with clk := { s.clk with enBlk := n } }, st) ∧
      ∀ b, b < 19 → bit n b = (if bit s.clk.enBlk b = bit w.toNat b then bit s.clk.enBlk b
        else if bit w.toNat b then !s.bitBad (enBlkPage b) else !s.bitIdle (enBlkPage b)) :=
  ⟨_, _, rfl, fun b hb => (s.enableBits_bit 19 enBlkPage s.clk.enBlk w.toNat b).trans (if_pos hb)⟩

/-- Entries of one value put at the places of a list. -/
theorem tblGet?_foldl_put {α : Type} (l : List Nat) (v : α) (t : Tbl α) (j : Nat) :
    tblGet? (l.foldl (fun t d => tblPut t d v) t) j = if j ∈ l then some v else tblGet? t j := by
  induction l generalizing t with
  | nil => simp
  | cons d l ih =>
    rw [List.foldl_cons, ih, tblGet?_put]
    by_cases hd : j = d <;> simp [hd]

/-- Settles O17: each event and write through the operation of the model that it is. -/
theorem clocksFollowEventsAndWrites : Obligations.ClocksFollowEventsAndWrites := by
  refine ⟨fun s hstarted => ⟨fun pll => ?_, fun pll hcoast => ?_, fun d at_ hpend hxo => ?_, fun d at_ hpend => ?_⟩,
    fun s t port p w => ⟨fun h => ?_, fun h => ⟨fun hquiet => ?_, fun hquiet => ?_⟩⟩⟩
  case refine_1 =>
    rw [show exec (.refLoss pll) s = _ from execRefLoss_of_started hstarted pll]
    by_cases ht : pll.val = 6 ∧ s.mgr.role ≠ 2
    · obtain ⟨hpll, hcoast, hlost, hevent, hmem, -, htick, -⟩ := s.loseRef_spec pll.isLt true
      obtain ⟨hutick, -, huclk, humem, hureg, hubit⟩ := (s.loseRef pll true).tickUnlock_spec
      rw [if_pos ht]
      refine ⟨_, rfl, by rw [huclk]; exact hpll, by rw [huclk]; exact hcoast, by rw [hureg _ (by decide)]; exact hlost, ?_,
        humem.trans hmem, fun _ _ => ⟨by rw [huclk]; exact htick rfl, by rw [hutick]⟩, fun h => ?_⟩
      · rw [hubit 0 (by decide), hevent, Bool.or_true]
      · exact absurd ht (by omega)
    · obtain ⟨hpll, hcoast, hlost, hevent, hmem, htick, -, hxo⟩ := s.loseRef_spec pll.isLt false
      rw [if_neg ht]
      exact ⟨_, rfl, hpll, hcoast, hlost, hevent, hmem, fun h6 h2 => absurd ⟨h6, h2⟩ ht, fun _ => ⟨hxo rfl, htick⟩⟩
  case refine_2 =>
    exact ⟨_, congrArg Host.Outcome.next (if_pos (by simp [hstarted, hcoast])), by simp, by simp, rfl, rfl⟩
  case refine_3 => exact congrArg Host.Outcome.next (if_pos (by simp [hpend, hxo]))
  case refine_4 =>
    obtain ⟨k, hk⟩ := s.elapseTo_eq (at_ + us (s.actBits .clk 0 0x040 31 24))
    refine ⟨_, execMuxWatchdog_of_pending hpend, ?_⟩
    rw [hk]
    exact State.endSwitch_reset _ d
  case refine_5 =>
    obtain ⟨n, st, hw, hn⟩ := t.writePage_clkEnable w
    refine ⟨n, st, ?_, hn⟩
    show Host.Outcome.next (s.arriveWrite port p) = _
    rw [arriveWrite_of_admits h]
    exact congrArg (fun r => Host.Outcome.next (State.complete r.1 (cmdSlot 0x41 p) r.2)) hw
  case refine_6 =>
    refine ⟨(idxs 6 fun d => bit t.clk.sel d != bit w.toNat d).foldl (fun q d => tblPut q d t.time) t.clk.pending, ?_,
      fun d hd => ?_, fun d hd => ?_⟩
    · show Host.Outcome.next (s.arriveWrite port p) = _
      rw [arriveWrite_of_admits h, show t.writeReg _ (.page .clk 0 0x804) w = t.writeSource w.toNat from rfl, State.writeSource]
      dsimp only
      rw [if_pos hquiet]
    · rw [tblGet?_foldl_put, if_pos hd]
    · rw [tblGet?_foldl_put, if_neg hd]
  case refine_7 =>
    show Host.Outcome.next (s.arriveWrite port p) = _
    rw [arriveWrite_of_admits h, show t.writeReg _ (.page .clk 0 0x804) w = t.writeSource w.toNat from rfl, State.writeSource]
    dsimp only
    rw [if_neg (by rw [hquiet]; decide)]

end Sys2Proof.Machine
end

section
/-!
TICK_SYNC messages and the tick (R43, R69–R73): numbers in byte strings, announcements, exchanges and the cycles to a tick.
-/

namespace Sys2Proof.Machine

/-! ### Numbers in byte strings (R5) -/

/-- A little-endian number reads back, modulo its size. -/
theorem leNat_leBytes (n v : Nat) : leNat (leBytes n v) = v % 256 ^ n := by
  induction n generalizing v with
  | zero => rw [Nat.pow_zero, Nat.mod_one]; rfl
  | succ n ih =>
    have hb : (byte v).toNat = v % 256 := BitVec.toNat_ofNat v 8
    rw [leBytes, leNat, hb, ih, Nat.pow_succ', Nat.mod_mul]

/-- A field that a byte string begins with. -/
theorem field_leBytes_append (n v : Nat) (l : List Byte) : field (leBytes n v ++ l) 0 n = v % 256 ^ n := by
  rw [field, List.drop_zero, List.take_append_of_le_length (by rw [length_leBytes]), List.take_of_length_le (by rw [length_leBytes]),
    leNat_leBytes]

/-- A field behind leading bytes. -/
theorem field_append {l m : List Byte} {off : Nat} (h : l.length ≤ off) (n : Nat) : field (l ++ m) off n = field m (off - l.length) n := by
  rw [field, List.drop_append, List.drop_of_length_le h, List.nil_append]
  rfl

/-- A field behind the first byte stands when that byte is replaced. -/
theorem field_replace_head (b : Byte) (l : List Byte) (off n : Nat) : field (b :: l.drop 1) (off + 1) n = field l (off + 1) n := by
  rw [field, field, List.drop_succ_cons, List.drop_drop, Nat.add_comm 1]

/-! ### The parts that sending leaves -/

/-- What a boot route was learned from an announcement stands when a packet is sent. -/
def State.heard (s : State) : Nat × Option (Nat × Nat) := (s.rtr.annEp, s.rtr.upstream)

@[simp] theorem heard_toQueue (s : State) (p q : Nat) (x : Queued) : (s.toQueue p q x).heard = s.heard := by
  unfold State.toQueue
  dsimp only
  split <;> rfl

@[simp] theorem heard_emit (s : State) (o : Out) : (s.emit o).heard = s.heard := rfl

@[simp] theorem heard_inject (s : State) (p : Nat) (x : Queued) (b : Bool) : (s.inject p x b).heard = s.heard := by
  unfold State.inject
  dsimp only
  split
  · rfl
  · exact heard_toQueue _ _ _ _

@[simp] theorem heard_bump (s : State) (a n c : Nat) : (s.bump a n c).heard = s.heard := rfl

@[simp] theorem heard_postMgr (s : State) (r : Record) : (s.postMgr r).heard = s.heard := by simp [State.heard]

@[simp] theorem heard_raise (s : State) (k : PageKind) (i b : Nat) : (s.raise k i b).heard = s.heard := by simp [State.heard]

@[simp] theorem heard_tally (s : State) (k : PageKind) (i e q n : Nat) (c : Option Nat) : (s.tally k i e q n c).heard = s.heard := by
  simp [State.heard]

@[simp] theorem heard_routeDrop (s : State) (p : Packet) (h : Bool) (o : Option Nat) : (s.routeDrop p h o).heard = s.heard := by
  simp [State.routeDrop]

@[simp] theorem heard_send (s : State) (p : Packet) (c : Option Nat) (b : Bool) : (s.send p c b).1.heard = s.heard := by
  unfold State.send
  dsimp only
  (repeat' split) <;> simp

/-! ### Announcements (R69) -/

/-- An ANNOUNCE on a port leaves what sending leaves, and is sent there. -/
theorem State.announceOn_spec (s : State) (p : Nat) (pkt : Packet) (came : Option Nat) :
    (s.announceOn p pkt came).still = s.still ∧ (s.announceOn p pkt came).heard = s.heard ∧
      ∃ o, (s.announceOn p pkt came).out = s.out ++ o ∧ .packet (some p) pkt ∈ o := by
  have hout : (s.toQueue p 0 { pkt := pkt, mac := 2 ^ 48 - 1, came := came }).out = s.out := by
    unfold State.toQueue
    dsimp only
    split <;> rfl
  exact ⟨by simp [State.announceOn], by simp [State.announceOn], [.packet (some p) pkt],
    congrArg (· ++ [Out.packet (some p) pkt]) hout, List.mem_singleton.2 rfl⟩

/-- An ANNOUNCE on every up port but one leaves what sending leaves, and is sent on each. -/
theorem State.announceAll_spec (s : State) (pkt : Packet) (but came : Option Nat) :
    (s.announceAll pkt but came).still = s.still ∧ (s.announceAll pkt but came).heard = s.heard ∧
      ∀ q, q < 16 → s.portUp q = true → but ≠ some q → .packet (some q) pkt ∈ (s.announceAll pkt but came).out := by
  have hmem (l : List Nat) : ∀ s : State, (∃ o, (l.foldl (fun s p => s.announceOn p pkt came) s).out = s.out ++ o) ∧
      ∀ q ∈ l, .packet (some q) pkt ∈ (l.foldl (fun s p => s.announceOn p pkt came) s).out := by
    induction l with
    | nil => exact fun s => ⟨⟨[], (List.append_nil _).symm⟩, nofun⟩
    | cons p l ih =>
      intro s
      obtain ⟨-, -, o, ho, hpkt⟩ := s.announceOn_spec p pkt came
      obtain ⟨⟨o', ho'⟩, hall⟩ := ih (s.announceOn p pkt came)
      refine ⟨⟨o ++ o', by rw [List.foldl_cons, ho', ho, List.append_assoc]⟩, fun q hq => ?_⟩
      rcases List.mem_cons.1 hq with rfl | hq
      · rw [List.foldl_cons, ho', ho]
        simp [hpkt]
      · exact hall q hq
  refine ⟨foldl_keeps State.still (fun s p => (s.announceOn_spec p pkt came).1) _ s,
    foldl_keeps State.heard (fun s p => (s.announceOn_spec p pkt came).2.1) _ s, fun q hq hup hbut => ?_⟩
  exact (hmem _ s).2 q (List.mem_filter.2 ⟨List.mem_range.2 hq, by simp [hup, hbut]⟩)

/-- A count changes the tallies alone. -/
theorem State.tally_eq (s : State) (k : PageKind) (i e q n : Nat) (c : Option Nat) : ∃ x, s.tally k i e q n c = { s with tly := x } := by
  unfold State.tally
  split
  · exact ⟨_, rfl⟩
  · split <;> exact ⟨_, rfl⟩

/-- A packet received is counted. -/
theorem State.received_eq (s : State) (port : Nat) (p : Packet) (ctx : Option Nat) : ∃ x, s.received port p ctx = { s with tly := x } := by
  obtain ⟨x, hx⟩ := s.tally_eq .rtr 0 0x71 (port * 16 + p.channel) 1 ctx
  obtain ⟨y, hy⟩ := State.tally_eq { s with tly := x } .rtr 0 0x73 (port * 16 + p.channel) p.bytes ctx
  unfold State.received
  dsimp only
  rw [hx, hy]
  exact ⟨_, rfl⟩

theorem State.takeNonce_eq (s : State) (n : Nat) : ∃ x y, s.takeNonce n = { s with ten := x, mgr := { s.mgr with nonce := y } } := by
  unfold State.takeNonce
  split
  · exact ⟨s.ten, s.mgr.nonce, rfl⟩
  · exact ⟨_, _, rfl⟩

/-- What a packet teaches of boot routes is the router's alone. -/
theorem State.learn_eq (s : State) (port : Nat) (p : Packet) : ∃ r, s.learn port p = { s with rtr := r } := by
  unfold State.learn
  by_cases h : p.epoch = 0 ∧ !s.rtr.v0Loaded ∧ p.dst = (if s.mgr.role = 2 then s.ep else s.rtr.annEp)
  · rw [if_pos h]
    exact ⟨_, rfl⟩
  · rw [if_neg h]
    exact ⟨s.rtr, rfl⟩

/-- The first copy of a SEQ: the port it came by is noted, and the module asks (R69). -/
theorem State.firstCopy_spec (s : State) (port : Nat) (p : Packet) :
    (s.firstCopy port p).tick = { s.tick with seqs := (syncSeq p.body :: s.tick.seqs).take 1024, req := some (syncSeq p.body, s.tick.count) } ∧
      (s.firstCopy port p).rtr.annEp = syncMgr p.body ∧ (s.firstCopy port p).rtr.upstream.map (·.1) = some port ∧
      (s.firstCopy port p).time = s.time ∧ (s.firstCopy port p).mem = s.mem := by
  have hsent (u : State) (k : Packet) : let t := (u.send k none false).1
      t.tick = u.tick ∧ t.heard = u.heard ∧ t.time = u.time ∧ t.mem = u.mem := by
    obtain ⟨htime, htick, -, -, -, -, -, -, -, -, -, hmem, -⟩ := State.still_fields (still_send u k none false)
    exact ⟨htick, heard_send _ _ _ _, htime, hmem⟩
  unfold State.firstCopy
  extract_lets b m s1 k1 s2 s3
  have h3 : s3.tick = s2.tick ∧ s3.heard = s2.heard ∧ s3.time = s2.time ∧ s3.mem = s2.mem := by
    dsimp only [s3]
    split
    · obtain ⟨hstill, hheard, -⟩ := s2.announceAll_spec { p with hops := 0 } (some port) (some s2.tick.count)
      obtain ⟨htime, htick, -, -, -, -, -, -, -, -, -, hmem, -⟩ := State.still_fields hstill
      exact ⟨htick, hheard, htime, hmem⟩
    · exact ⟨rfl, rfl, rfl, rfl⟩
  obtain ⟨htick, hheard, htime, hmem⟩ := h3
  obtain ⟨stick, sheard, stime, smem⟩ := hsent s3 (s3.syncPacket m (syncBody 1 (syncSeq b) m 0 0 0 0 0))
  have hh := sheard.trans hheard
  exact ⟨stick.trans htick, congrArg Prod.fst hh, congrArg (·.2.map (·.1)) hh, stime.trans htime, smem.trans hmem⟩

/-! ### TICK_SYNC packets of this module's shape -/

theorem syncForm_seq (p : Packet) (k : Nat) : syncSeq (syncForm p k).body = syncSeq p.body := field_replace_head (byte k) p.body 1 2

theorem syncForm_mgr (p : Packet) (k : Nat) : syncMgr (syncForm p k).body = syncMgr p.body :=
  congrArg (· % 4096) (field_replace_head (byte k) p.body 3 2)

theorem syncBody_kind (kind seq mgr origin corr c1 t2 nonce : Nat) :
    syncKind (syncBody kind seq mgr origin corr c1 t2 nonce) = kind % 256 := by
  simp only [syncKind, syncBody, List.append_assoc]
  exact field_leBytes_append 1 kind _

theorem syncBody_seq (kind seq mgr origin corr c1 t2 nonce : Nat) :
    syncSeq (syncBody kind seq mgr origin corr c1 t2 nonce) = seq % 65536 := by
  simp only [syncSeq, syncBody, List.append_assoc]
  rw [field_append (by simp)]
  exact field_leBytes_append 2 seq _

/-! ### Time and the tick -/

/-- Time moves the count, what is left of a correction, and the part of a cycle. -/
theorem State.elapse_tick (s : State) (n : Nat) : ∃ c sl ph h f, (s.elapse n).tick =
    { s.tick with count := c, slew := sl, phase := ph, hold := h, frac := f } := by
  unfold State.elapse Tick.pass
  dsimp only
  split
  · split
    · exact ⟨_, _, _, _, _, rfl⟩
    · exact ⟨_, _, _, _, _, rfl⟩
  · exact ⟨s.tick.count, s.tick.slew, s.tick.phase, s.tick.hold, s.tick.frac, rfl⟩

theorem State.elapseTo_tick (s : State) (t : Nat) : ∃ c sl ph h f, s.elapseTo t =
    { s with time := max s.time t, tick := { s.tick with count := c, slew := sl, phase := ph, hold := h, frac := f } } := by
  unfold State.elapseTo
  split
  · rename_i hlt
    obtain ⟨c, sl, ph, h, f, ht⟩ := s.elapse_tick (t - s.time)
    refine ⟨c, sl, ph, h, f, ?_⟩
    rw [← ht, show max s.time t = s.time + (t - s.time) by omega]
    rfl
  · exact ⟨s.tick.count, s.tick.slew, s.tick.phase, s.tick.hold, s.tick.frac, by rw [show max s.time t = s.time by omega]⟩

/-! ### The settlement of the messages -/

/-- The announcement of the active manager: the next SEQ, on every up port. -/
def State.sendAnnounce (s : State) : State :=
  let p := s.syncPacket 0xFFF (syncBody 0 s.tick.nextSeq s.ep 0 0 0 0 s.mgr.nonce)
  let s := { s with tick := { s.tick with sentAt := s.time, nextSeq := (s.tick.nextSeq + 1) % 65536 } }
  s.announceAll p none none

theorem State.sendAnnounce_spec (s : State) :
    s.sendAnnounce.tick.nextSeq = (s.tick.nextSeq + 1) % 65536 ∧ s.sendAnnounce.tick.sentAt = s.time ∧ s.sendAnnounce.time = s.time ∧
      s.sendAnnounce.mem = s.mem ∧
      ∀ q, q < 16 → s.portUp q = true → ∃ p, .packet (some q) p ∈ s.sendAnnounce.out ∧ p.typ = tTickSync ∧ p.dst = 0xFFF ∧
        syncKind p.body = 0 ∧ syncSeq p.body = s.tick.nextSeq % 65536 := by
  obtain ⟨hstill, -, hsent⟩ := State.announceAll_spec
    { s with tick := { s.tick with sentAt := s.time, nextSeq := (s.tick.nextSeq + 1) % 65536 } }
    (s.syncPacket 0xFFF (syncBody 0 s.tick.nextSeq s.ep 0 0 0 0 s.mgr.nonce)) none none
  obtain ⟨htime, htick, -, -, -, -, -, -, -, -, -, hmem, -⟩ := State.still_fields hstill
  exact ⟨congrArg Tick.nextSeq htick, congrArg Tick.sentAt htick, htime, hmem, fun q hq hup =>
    ⟨_, hsent q hq hup nofun, rfl, rfl, syncBody_kind _ _ _ _ _ _ _ _, syncBody_seq _ _ _ _ _ _ _ _⟩⟩

theorem execAnnounceSend_of_active {s : State} (hstarted : s.boot.started = true) (hrole : s.mgr.role = 2)
    (hlock : s.tick.locked = true) : execAnnounceSend s = .next (s.elapseTo (s.tick.sentAt + s.syncPeriod)).sendAnnounce := by
  unfold execAnnounceSend State.sendAnnounce
  rw [if_neg (by simp [hstarted, hrole, hlock])]

theorem execAnnounceSend_spec {s : State} (hstarted : s.boot.started = true) (hrole : s.mgr.role = 2) (hlock : s.tick.locked = true) :
    ∃ t, execAnnounceSend s = .next t ∧ t.tick.nextSeq = (s.tick.nextSeq + 1) % 65536 ∧ t.tick.sentAt = t.time ∧
      t.time = max s.time (s.tick.sentAt + s.syncPeriod) ∧ t.mem = s.mem ∧
      ∀ q, q < 16 → s.portUp q = true → ∃ p, .packet (some q) p ∈ t.out ∧ p.typ = tTickSync ∧ p.dst = 0xFFF ∧
        syncKind p.body = 0 ∧ syncSeq p.body = s.tick.nextSeq % 65536 := by
  obtain ⟨c, sl, ph, h, f, he⟩ := s.elapseTo_tick (s.tick.sentAt + s.syncPeriod)
  obtain ⟨hseq, hat, htime, hmem, hsent⟩ := (s.elapseTo (s.tick.sentAt + s.syncPeriod)).sendAnnounce_spec
  refine ⟨_, execAnnounceSend_of_active hstarted hrole hlock, ?_, hat.trans htime.symm,
    htime.trans (elapseTo_time _ _), hmem.trans (by rw [he]), fun q hq hup => ?_⟩
  · rw [hseq, he]
  · have hnext : (s.elapseTo (s.tick.sentAt + s.syncPeriod)).tick.nextSeq = s.tick.nextSeq := by rw [he]
    rw [← hnext]
    exact hsent q hq (by rw [he]; exact hup)

/-- The coasting PLL makes the cycles of a hold in the time taken for them (Table 3.1). -/
theorem State.tickCycles_nsForCycles (s : State) {c : Nat} (hc : 0 < c) (hf : s.tick.frac < 10000) : s.tickCycles (s.nsForCycles c) = c := by
  unfold State.tickCycles State.nsForCycles
  by_cases hcoast : bit s.clk.coasting 6 = true
  · rw [if_pos hcoast, if_pos hcoast]
    have hdiv := Nat.div_add_mod (10000 * c - s.tick.frac + 9998) 9999
    have hmod := Nat.mod_lt (10000 * c - s.tick.frac + 9998) (y := 9999) (by decide)
    generalize (10000 * c - s.tick.frac + 9998) / 9999 = q at *
    generalize (10000 * c - s.tick.frac + 9998) % 9999 = r at *
    exact Nat.div_eq_of_lt_le (by omega) (by omega)
  · rw [if_neg hcoast, if_neg hcoast]

theorem execTickHoldRelease_spec {s : State} (hhold : 0 < s.tick.hold) :
    ∃ t, execTickHoldRelease s = .next t ∧ t.time = s.time + s.nsForCycles s.tick.hold ∧ t.mem = s.mem ∧
      (bit s.clk.coasting 6 = false → t.time = s.time + s.tick.hold) ∧
      (s.boot.started = true → s.tick.frac < 10000 → t.tick.hold = 0 ∧ t.tick.count = s.tick.count) := by
  refine ⟨_, congrArg Host.Outcome.next (if_pos (by simp [hhold])), rfl, rfl, fun hcoast => ?_, fun hstarted hfrac => ?_⟩
  · simp [State.nsForCycles, hcoast]
  · have hpass : s.tick.pass (s.tickCycles (s.nsForCycles s.tick.hold)) = { s.tick with hold := 0 } := by
      rw [s.tickCycles_nsForCycles hhold hfrac, Tick.pass, if_pos (Nat.le_refl _), Nat.sub_self]
    simp [State.elapse, hstarted, hpass]

theorem execTickSyncTimeout_spec {s : State} (hlock : s.tick.locked = true) (hrole : s.mgr.role ≠ 2) :
    ∃ t, execTickSyncTimeout s = .next t ∧ t.tick.locked = false ∧ t.time = max s.time (s.tick.lastResp + 4 * s.syncPeriod) ∧
      wbit (t.reg 0x2008) 1 = true ∧ t.mem = s.mem := by
  obtain ⟨c, sl, ph, h, f, he⟩ := s.elapseTo_tick (s.tick.lastResp + 4 * s.syncPeriod)
  obtain ⟨htick, htime, -, hmem, -, hbit⟩ := (s.elapseTo (s.tick.lastResp + 4 * s.syncPeriod)).tickUnlock_spec
  refine ⟨_, congrArg Host.Outcome.next (if_pos (by simp [hlock, hrole])), ?_, htime.trans (elapseTo_time _ _), ?_, hmem.trans (by rw [he])⟩
  · rw [htick]
  · rw [hbit 1 (by decide), he]
    simp [hlock]

/-- An announcement taken at its port: only counted before it acts. -/
theorem execAnnounce_of_up {s : State} {port : Fin 16} {p : Packet} (hup : s.portUp port = true) (hshape : syncShaped (syncForm p 0) = true) :
    ∃ x, exec (.announce port p) s = .next (State.onAnnounce { s with tly := x } port (syncForm p 0)) := by
  obtain ⟨x, hx⟩ := s.received_eq port (syncForm p 0) none
  refine ⟨x, ?_⟩
  rw [← hx]
  exact congrArg Host.Outcome.next (if_pos (by rw [hup, hshape]; rfl))

/-- An announcement of the module's own manager, heard by a module that is not one (R69). -/
theorem State.onAnnounce_of_worker {s : State} {port : Nat} {p : Packet} {m : Nat} (hboot : s.boot.state ≠ 7) (hrole : s.mgr.role ≠ 2)
    (hep : s.mgr.ep = some m) (hm : syncMgr p.body = m) :
    let u := State.takeNonce { s with tick := { s.tick with lastAnn := s.time }, mgr := { s.mgr with blocked := false } } (syncNonce p.body)
    s.onAnnounce port p = if s.tick.seqs.contains (syncSeq p.body) then u else u.firstCopy port p := by
  subst hm
  unfold State.onAnnounce State.joinTick
  rw [if_pos hboot]
  simp only [hrole, false_and, if_false, hep, Option.isNone_some, Bool.false_eq_true, ne_eq, not_true, State.newSeq, Bool.not_eq_true']
  cases s.tick.seqs.contains (syncSeq p.body) <;> rfl

/-- A DELAY_REQ or DELAY_RESP for this module, taken at its port. -/
theorem State.arriveSync_of_own {s : State} {port : Nat} {p : Packet} (hdst : p.dst = s.ep) (act : State → State) :
    s.arriveSync port p act = act ((s.received port p none).learn port p) := by
  obtain ⟨x, hx⟩ := s.received_eq port p none
  obtain ⟨r, hr⟩ := State.learn_eq { s with tly := x } port p
  unfold State.arriveSync
  dsimp only
  rw [hx, hr]
  exact if_neg (not_not.2 hdst)

/-- What a packet for this module has changed when it acts: counts and boot routes. -/
theorem State.received_learn_eq (s : State) (port : Nat) (p : Packet) :
    ∃ x r, (s.received port p none).learn port p = { s with tly := x, rtr := r } := by
  obtain ⟨x, hx⟩ := s.received_eq port p none
  obtain ⟨r, hr⟩ := State.learn_eq { s with tly := x } port p
  exact ⟨x, r, by rw [hx, hr]⟩

/-- The manager's answer to a DELAY_REQ, its worker's life noted (R69, R432). -/
def State.answerDelay (p : Packet) (s : State) : State :=
  if s.mgr.role ≠ 2 then s
  else
    let s := match tblGet? s.mgr.roster p.src with
      | some m => { s with mgr := { s.mgr with roster := tblPut s.mgr.roster p.src { m with lastReq := s.time, silent := false } } }
      | none => s
    let b := syncBody 2 (syncSeq p.body) s.ep 0 0 (syncCorr p.body) s.tick.count 0
    (s.send (s.syncPacket p.src b) none false).1

theorem execDelayReq_of_up {s : State} {port : Fin 16} {p : Packet} (hup : s.portUp port = true) (hshape : syncShaped (syncForm p 1) = true) :
    execDelayReq port p s = .next (s.arriveSync port (syncForm p 1) (State.answerDelay (syncForm p 1))) := by
  unfold execDelayReq State.answerDelay
  exact congrArg Host.Outcome.next (if_pos (by rw [hup, hshape]; rfl))

/-- Settles O18: each message through the operation that takes it, the count through the cycles of its hold. -/
theorem tickMessages : Obligations.TickMessages := by
  intro s
  refine ⟨fun h1 h2 h3 => execAnnounceSend_spec h1 h2 h3, fun port p m hup hshape hrole hboot hep hmgr => ?_,
    fun port p hup hshape hboot => ?_, fun port p hup hshape hrole hdst => ?_, fun h => execTickHoldRelease_spec h,
    fun h1 h2 => execTickSyncTimeout_spec h1 h2⟩
  case refine_1 =>
    obtain ⟨x, hx⟩ := execAnnounce_of_up hup hshape
    have hann := State.onAnnounce_of_worker (s := { s with tly := x }) (port := port) (p := syncForm p 0) hboot hrole hep
      ((syncForm_mgr p 0).trans hmgr)
    dsimp only at hann
    rw [syncForm_seq] at hann
    obtain ⟨y, z, hyz⟩ := State.takeNonce_eq
      { s with tly := x, tick := { s.tick with lastAnn := s.time }, mgr := { s.mgr with blocked := false } } (syncNonce (syncForm p 0).body)
    rw [hyz] at hann
    refine ⟨fun hnew => ?_, fun hold => ?_⟩
    · rw [if_neg (by simpa using hnew)] at hann
      obtain ⟨htick, hmgr', hup', htime, hmem⟩ := State.firstCopy_spec
        { s with tly := x, tick := { s.tick with lastAnn := s.time }, ten := y, mgr := { s.mgr with blocked := false, nonce := z } }
        port (syncForm p 0)
      rw [syncForm_seq] at htick
      rw [hx, hann]
      exact ⟨_, rfl, by rw [htick], by rw [htick], by rw [htick], hmgr'.trans ((syncForm_mgr p 0).trans hmgr), hup', htime, hmem⟩
    · rw [if_pos (by simpa using hold)] at hann
      rw [hx, hann]
      exact ⟨_, rfl, rfl, rfl, rfl, rfl⟩
  case refine_2 =>
    obtain ⟨x, hx⟩ := execAnnounce_of_up hup hshape
    have hann : State.onAnnounce { s with tly := x } port (syncForm p 0) =
        if s.newSeq (syncSeq (syncForm p 0).body) then State.noteUpstream { s with tly := x } port (syncForm p 0) else { s with tly := x } := by
      exact if_neg (by simp [hboot])
    rw [syncForm_seq] at hann
    by_cases hnew : syncSeq p.body ∈ s.tick.seqs
    · rw [if_neg (by simpa [State.newSeq] using hnew)] at hann
      rw [hx, hann]
      exact ⟨_, rfl, rfl, rfl, rfl, fun h => absurd hnew h, rfl⟩
    · rw [if_pos (by simpa [State.newSeq] using hnew)] at hann
      rw [hx, hann]
      exact ⟨_, rfl, rfl, rfl, rfl, fun _ => ⟨by rw [← syncForm_seq p 0]; rfl, by rw [← syncForm_mgr p 0]; rfl, rfl⟩, rfl⟩
  case refine_3 =>
    obtain ⟨x, r, hu⟩ := s.received_learn_eq port (syncForm p 1)
    refine (execDelayReq_of_up hup hshape).trans (congrArg Host.Outcome.next ?_)
    refine (State.arriveSync_of_own (p := syncForm p 1) hdst _).trans ?_
    dsimp only
    rw [hu]
    unfold State.answerDelay
    rw [if_neg (not_not.2 hrole)]
    dsimp only
    cases tblGet? s.mgr.roster (syncForm p 1).src <;> rfl

end Sys2Proof.Machine
end

section
/-!
The exchange that corrects the count, and the cycles to a tick (R70, R71, R73).
-/

namespace Sys2Proof.Machine

/-! ### Cycles to a tick (R70, R73) -/

theorem Tick.run_count (t : Tick) (n : Nat) :
    (t.run n).count = if t.slew < 0 then t.count + n - slewTaken t n else t.count + n + slewTaken t n := rfl

theorem Tick.pass_hold (t : Tick) : (t.pass t.hold).count = t.count := by
  rw [Tick.pass, if_pos (Nat.le_refl _)]

/-- Past its hold a count runs on. -/
theorem Tick.pass_count (t : Tick) {c : Nat} (hc : 0 < c) : (t.pass (t.hold + c)).count = (t.run c).count := by
  rw [Tick.pass, if_neg (by omega), Nat.add_sub_cancel_left]
  rfl

/-- Of `m` cycles from the start of a slew to a later count, each 64th counts twice: the first at which 65 in 64 reach `y`. -/
theorem fast_cycles (y : Nat) :
    let x := 64 * (y / 65) + min (y % 65) 64
    y ≤ x + x / 64 ∧ ∀ m, m < x → m + m / 64 < y := by
  dsimp only
  have := Nat.div_add_mod y 65
  have hr := Nat.mod_lt y (y := 65) (by decide)
  generalize y / 65 = q at *
  generalize y % 65 = r at *
  subst this
  refine ⟨?_, fun m hm => ?_⟩ <;> omega

/-- Each 64th does not count: the first at which 63 in 64 reach `y`. -/
theorem slow_cycles {y : Nat} (hy : 0 < y) :
    let x := if y % 63 = 0 then 64 * (y / 63) - 1 else 64 * (y / 63) + y % 63
    y ≤ x - x / 64 ∧ ∀ m, m < x → m - m / 64 < y := by
  dsimp only
  have := Nat.div_add_mod y 63
  have hr := Nat.mod_lt y (y := 63) (by decide)
  generalize y / 63 = q at *
  generalize y % 63 = r at *
  subst this
  split <;> refine ⟨?_, fun m hm => ?_⟩ <;> omega

/-- The cycles given are at least one; at them an unheld count has risen by `d`, and one cycle before it had not. -/
theorem Tick.cyclesFor_exact (t : Tick) {d : Nat} (hphase : t.phase < 64) (hd : 0 < d) :
    0 < t.cyclesFor d ∧ t.count + d ≤ (t.run (t.cyclesFor d)).count ∧ (t.run (t.cyclesFor d - 1)).count < t.count + d := by
  simp only [Tick.run_count, slewTaken, Tick.cyclesFor]
  by_cases h0 : t.slew = 0
  · simp [h0]; omega
  by_cases hpos : 0 < t.slew
  · obtain ⟨hreach, hbefore⟩ := fast_cycles (d + t.phase)
    have hneg : ¬ t.slew < 0 := by omega
    simp only [h0, hpos, hneg, if_true, if_false]
    generalize 64 * ((d + t.phase) / 65) + min ((d + t.phase) % 65) 64 = x at *
    have hlast := hbefore (x - 1)
    generalize t.slew.natAbs = S at *
    generalize t.phase = ph at *
    generalize t.count = n at *
    split
    · refine ⟨?_, ?_, ?_⟩ <;> omega
    · refine ⟨?_, ?_, ?_⟩ <;> omega
  · obtain ⟨hreach, hbefore⟩ := slow_cycles (y := d + t.phase) (by omega)
    have hneg : t.slew < 0 := by omega
    simp only [h0, hpos, hneg, if_true, if_false]
    generalize (if (d + t.phase) % 63 = 0 then 64 * ((d + t.phase) / 63) - 1 else 64 * ((d + t.phase) / 63) + (d + t.phase) % 63) = x at *
    have hlast := hbefore (x - 1)
    generalize t.slew.natAbs = S at *
    generalize t.phase = ph at *
    generalize t.count = n at *
    split
    · refine ⟨?_, ?_, ?_⟩ <;> omega
    · refine ⟨?_, ?_, ?_⟩ <;> omega

theorem Tick.pass_cyclesFor (t : Tick) (d : Nat) (hphase : t.phase < 64) (hd : 0 < d) :
    t.count + d ≤ (t.pass (t.hold + t.cyclesFor d)).count ∧ (t.pass (t.hold + t.cyclesFor d - 1)).count < t.count + d := by
  obtain ⟨hpos, hreach, hbefore⟩ := t.cyclesFor_exact hphase hd
  refine ⟨by rw [t.pass_count hpos]; exact hreach, ?_⟩
  by_cases hone : t.cyclesFor d = 1
  · rw [hone, Nat.add_sub_cancel, t.pass_hold]
    omega
  · rw [Nat.add_sub_assoc hpos, t.pass_count (by omega)]
    exact hbefore

/-! ### Exchanges (R70, R71) -/

/-- Both halves are rounded down. -/
theorem exchange_halves (t1 c1 t2 t3 c2 t4 : Int) :
    2 * (exchange t1 c1 t2 t3 c2 t4).1 ≤ (t2 - t1 - c1) + (t4 - t3 - c2) ∧
      (t2 - t1 - c1) + (t4 - t3 - c2) < 2 * (exchange t1 c1 t2 t3 c2 t4).1 + 2 ∧
      2 * (exchange t1 c1 t2 t3 c2 t4).2 ≤ (t2 - t1 - c1) - (t4 - t3 - c2) ∧
      (t2 - t1 - c1) - (t4 - t3 - c2) < 2 * (exchange t1 c1 t2 t3 c2 t4).2 + 2 := by
  unfold exchange
  dsimp only
  refine ⟨?_, ?_, ?_, ?_⟩ <;> omega

/-- An answer to the module's request, taken at its port, is the exchange it makes. -/
theorem execDelayResp_of_own {s : State} {port : Fin 16} {p : Packet} {t1 : Nat} (hup : s.portUp port = true)
    (hshape : syncShaped (syncForm p 2) = true) (hrole : s.mgr.role ≠ 2) (hep : s.mgr.ep = some (syncForm p 2).src) (hdst : p.dst = s.ep)
    (hreq : s.tick.req = some (syncSeq p.body, t1)) :
    ∃ x r, exec (.delayResp port p) s = .next (State.applyExchange { s with tly := x, rtr := r } t1 (syncC1 p.body) (syncT2 p.body)
      (syncOrigin p.body) (syncCorr p.body)) := by
  obtain ⟨x, r, hu⟩ := s.received_learn_eq port (syncForm p 2)
  refine ⟨x, r, (congrArg Host.Outcome.next (if_pos (by rw [hup, hshape]; rfl)) : execDelayResp port p s = _).trans
    (congrArg Host.Outcome.next ((State.arriveSync_of_own (p := syncForm p 2) hdst _).trans ?_))⟩
  rw [hu]
  dsimp only
  rw [hreq]
  dsimp only
  have hfield (off n : Nat) : field (syncForm p 2).body (off + 1) n = field p.body (off + 1) n := field_replace_head (byte 2) p.body off n
  have h1 : syncC1 (syncForm p 2).body = syncC1 p.body := hfield 19 4
  have h2 : syncT2 (syncForm p 2).body = syncT2 p.body := hfield 23 8
  have h3 : syncOrigin (syncForm p 2).body = syncOrigin p.body := hfield 7 8
  have h4 : syncCorr (syncForm p 2).body = syncCorr p.body := hfield 15 4
  rw [if_pos ⟨(syncForm_seq p 2).symm, hep, hrole⟩, h1, h2, h3, h4]

/-- A lock that is lost leaves the count as the exchange corrected it. -/
theorem State.tickUnlock_raise_spec (s : State) (b : Nat) :
    (s.tickUnlock.raise .clk 0 b).tick = { s.tick with locked := false, good := 0 } ∧ (s.tickUnlock.raise .clk 0 b).mem = s.mem := by
  obtain ⟨htick, -, -, hmem, -⟩ := s.tickUnlock_spec
  exact ⟨by simp [htick], by simp [hmem]⟩

theorem State.lockRule_spec (s : State) (offset : Int) :
    (s.lockRule offset).mem = s.mem ∧
      (4 < offset.natAbs → (s.lockRule offset).tick = { s.tick with locked := false, good := 0 }) ∧
      (offset.natAbs ≤ 4 → (s.lockRule offset).tick =
        { s.tick with good := min (s.tick.good + 1) 3, locked := s.tick.locked || 3 ≤ s.tick.good + 1 }) := by
  unfold State.lockRule
  by_cases h : offset.natAbs ≤ 4
  · rw [if_pos h]
    exact ⟨rfl, fun h' => absurd h (by omega), fun _ => rfl⟩
  · obtain ⟨htick, -, -, hmem, -⟩ := s.tickUnlock_spec
    rw [if_neg h]
    exact ⟨hmem, fun _ => htick, fun h' => absurd h' h⟩

/-- The exchange applied: the first sets the count, a great offset steps or holds it, a small one slews it. -/
theorem applyExchange_spec (s : State) (t1 c1 t2 t3 c2 : Int) :
    let t := s.applyExchange t1 c1 t2 t3 c2
    let x := exchange t1 c1 t2 t3 c2 s.tick.count
    t.tick.req = none ∧ t.tick.offset = x.2 ∧ t.tick.lastResp = s.time ∧ t.mem = s.mem ∧
      (s.tick.first = false → t.tick.first = true ∧ t.tick.slew = 0 ∧ t.tick.hold = 0 ∧ t.tick.count = (t3 + c2 + x.1).toNat) ∧
      (s.tick.first = true → s.stepLimit < x.2 → t.tick.count = s.tick.count + x.2.toNat ∧ t.tick.locked = false ∧
        t.tick.slew = 0 ∧ t.tick.hold = 0) ∧
      (s.tick.first = true → x.2 < -s.stepLimit →
        t.tick.hold = x.2.natAbs ∧ t.tick.slew = 0 ∧ t.tick.count = s.tick.count ∧ t.tick.locked = false) ∧
      (s.tick.first = true → x.2.natAbs ≤ s.stepLimit.natAbs → t.tick.slew = x.2 ∧ t.tick.hold = 0 ∧ t.tick.count = s.tick.count ∧
        (4 < x.2.natAbs → t.tick.locked = false) ∧ (x.2.natAbs ≤ 4 → 2 ≤ s.tick.good → t.tick.locked = true) ∧
        (x.2.natAbs ≤ 4 → s.tick.good < 2 → t.tick.locked = s.tick.locked ∧ t.tick.good = s.tick.good + 1)) := by
  have hlimit : 0 ≤ s.stepLimit := Int.natCast_nonneg _
  dsimp only
  cases hfirst : s.tick.first with
  | false =>
    have ht : s.applyExchange t1 c1 t2 t3 c2 = _ := if_pos (by simp [hfirst])
    rw [ht]
    exact ⟨rfl, rfl, rfl, rfl, fun _ => ⟨rfl, rfl, rfl, rfl⟩, nofun, nofun, nofun⟩
  | true =>
    generalize hx : exchange t1 c1 t2 t3 c2 s.tick.count = x
    have happly : s.applyExchange t1 c1 t2 t3 c2 = if s.stepLimit < x.2 then
        (State.disturb { s with tick := { s.tick with req := none, lastResp := s.time, offset := x.2
                                                      count := s.tick.count + x.2.toNat, slew := 0, phase := 0, hold := 0 } }).tickUnlock.raise .clk 0 3
      else if x.2 < -s.stepLimit then
        (State.disturb { s with tick := { s.tick with req := none, lastResp := s.time, offset := x.2
                                                      hold := x.2.natAbs, slew := 0, phase := 0 } }).tickUnlock.raise .clk 0 3
      else State.lockRule { s with tick := { s.tick with req := none, lastResp := s.time, offset := x.2, slew := x.2, phase := 0, hold := 0 } } x.2 := by
      subst hx
      exact if_neg (by simp [hfirst])
    rw [happly]
    by_cases hstep : s.stepLimit < x.2
    · rw [if_pos hstep]
      obtain ⟨htick, hmem⟩ := State.tickUnlock_raise_spec (State.disturb { s with tick := { s.tick with
        req := none, lastResp := s.time, offset := x.2, count := s.tick.count + x.2.toNat, slew := 0, phase := 0, hold := 0 } }) 3
      rw [htick, hmem]
      exact ⟨rfl, rfl, rfl, rfl, nofun, fun _ _ => ⟨rfl, rfl, rfl, rfl⟩, fun _ _ => by omega, fun _ _ => by omega⟩
    · by_cases hhold : x.2 < -s.stepLimit
      · rw [if_neg hstep, if_pos hhold]
        obtain ⟨htick, hmem⟩ := State.tickUnlock_raise_spec (State.disturb { s with tick := { s.tick with
          req := none, lastResp := s.time, offset := x.2, hold := x.2.natAbs, slew := 0, phase := 0 } }) 3
        rw [htick, hmem]
        exact ⟨rfl, rfl, rfl, rfl, nofun, fun _ h => absurd h hstep, fun _ _ => ⟨rfl, rfl, rfl, rfl⟩, fun _ _ => by omega⟩
      · rw [if_neg hstep, if_neg hhold]
        obtain ⟨hmem, hfar, hnear⟩ := State.lockRule_spec { s with tick := { s.tick with
          req := none, lastResp := s.time, offset := x.2, slew := x.2, phase := 0, hold := 0 } } x.2
        by_cases h4 : x.2.natAbs ≤ 4
        · rw [hnear h4, hmem]
          refine ⟨rfl, rfl, rfl, rfl, nofun, fun _ h => absurd h hstep, fun _ h => absurd h hhold, fun _ _ =>
            ⟨rfl, rfl, rfl, fun h => absurd h4 (by omega), fun _ hgood => ?_, fun _ hgood => ⟨?_, ?_⟩⟩⟩
          · simp; omega
          · simp; omega
          · simp; omega
        · rw [hfar (by omega), hmem]
          exact ⟨rfl, rfl, rfl, rfl, nofun, fun _ h => absurd h hstep, fun _ h => absurd h hhold, fun _ _ =>
            ⟨rfl, rfl, rfl, fun _ => rfl, fun h => absurd h h4, fun h => absurd h h4⟩⟩

/-- Settles O19: the halves, the exchange of an answered request, and the exact count of cycles. -/
theorem tickFollowsExchanges : Obligations.TickFollowsExchanges := by
  refine ⟨⟨exchange_halves, fun s port p t1 hup hshape hrole hep hdst hreq => ?_⟩, Tick.pass_cyclesFor⟩
  obtain ⟨x, r, hexec⟩ := execDelayResp_of_own hup hshape hrole hep hdst hreq
  exact ⟨_, hexec, applyExchange_spec { s with tly := x, rtr := r } t1 (syncC1 p.body) (syncT2 p.body) (syncOrigin p.body)
    (syncCorr p.body)⟩

end Sys2Proof.Machine
end

section
/-!
Register reads and writes (R76, R79), and the writes of links, walkers, memory controls, routers, rates and tallies.
-/

namespace Sys2Proof.Machine

/-! ### The register commands (R76, R79) -/

/-- An admitted register command that names nothing it may act on completes with the status that says so. -/
theorem actRegRead_of_refused {s t : State} {port : Fin 16} {p : Packet} (h : s.Admits (regRules 0x40 true) port p t) {st : Nat}
    (hst : t.regTarget (p.ofCmd 0x40) 4 = .inl st) : s.arriveRead port p = t.complete (cmdSlot 0x40 p) st := by
  obtain ⟨v, hv, hp⟩ := slot?_of_admits h
  replace hp : v.pkt = p.ofCmd 0x40 := hp
  rw [State.arriveRead, arrive_of_admits h, State.actRegRead, hv]
  simp only [hp, hst]
  rfl

theorem actRegWrite_of_refused {s t : State} {port : Fin 16} {p : Packet} (h : s.Admits (regRules 0x41 false) port p t) {st : Nat}
    (hst : t.regTarget (p.ofCmd 0x41) 8 = .inl st) : s.arriveWrite port p = t.complete (cmdSlot 0x41 p) st := by
  obtain ⟨v, hv, hp⟩ := slot?_of_admits h
  replace hp : v.pkt = p.ofCmd 0x41 := hp
  rw [State.arriveWrite, arrive_of_admits h, State.actRegWrite, hv]
  simp only [hp, hst]
  rfl

/-- A body of another length, or an address not aligned or beyond the window, is MALFORMED (R79). -/
theorem State.regTarget_malformed (s : State) {p : Packet} {n : Nat}
    (h : p.own.length ≠ n ∨ Packet.regAddr p % 4 ≠ 0 ∨ 0x1000000 ≤ Packet.regAddr p) : s.regTarget p n = .inl stMalformed :=
  if_pos h

/-- An address of no block, or of one without clock, is BUS_ERROR (R6). -/
theorem State.regTarget_busError (s : State) {p : Packet} {n : Nat} (hlen : p.own.length = n) (halign : Packet.regAddr p % 4 = 0)
    (hlow : Packet.regAddr p < 0x1000000)
    (h : targetOf (Packet.regAddr p) = none ∨ ∃ g, targetOf (Packet.regAddr p) = some g ∧ s.reachable g = false) :
    s.regTarget p n = .inl stBusError := by
  unfold State.regTarget
  rw [if_neg (by omega)]
  rcases h with h | ⟨g, h, hg⟩ <;> rw [h]
  dsimp only
  rw [if_neg (by simp [hg])]

/-- Every row of a list of register commands acts as its command does. -/
theorem regRead_rows {row : Fin 16 → Packet → Instr} (h : row ∈ [Instr.regRead, .pinMaxRead, .refDebtRead, .qdepthMaxRead]) (s : State)
    (port : Fin 16) (p : Packet) : exec (row port p) s = .next (s.arriveRead port p) := by
  simp only [List.mem_cons, List.not_mem_nil, or_false] at h
  rcases h with rfl | rfl | rfl | rfl <;> rfl

theorem regWrite_rows {row : Fin 16 → Packet → Instr}
    (h : row ∈ [Instr.regWrite, .clockEnableWrite, .clockSourceSelect, .walkerRootWrite, .ringEnableWrite, .srForceWrite,
      .eccInjectArm, .protReload, .spareStandInRequest, .linkRetrain, .linkHoldDown, .routingTableWrite, .flipArm, .flipCancel,
      .boardWindowWrite, .boardArm, .boardCancel, .meterCommit, .hostRecordCommit, .queueShaperCommit, .tallySnapshot,
      .tallySelectWrite]) (s : State) (port : Fin 16) (p : Packet) :
    exec (row port p) s = .next (s.arriveWrite port p) := by
  simp only [List.mem_cons, List.not_mem_nil, or_false] at h
  rcases h with rfl | rfl | rfl | rfl | rfl | rfl | rfl | rfl | rfl | rfl | rfl | rfl | rfl | rfl | rfl | rfl | rfl | rfl | rfl |
    rfl | rfl | rfl <;> rfl

/-- The identity register of a page reads its block's type and number, and samples and clears nothing. -/
theorem State.readReg_identity (s : State) (a : Nat) (k : PageKind) (i : Nat) : s.readReg a (.page k i 0) = (s, blockType k * 65536 + i) := by
  cases k <;> rfl

/-- Settles O20: reads and writes act where they are admitted and name a register, and are refused where they name none. -/
theorem registerCommandsAct : Obligations.RegisterCommandsAct := by
  refine ⟨fun s t port p g h => ?_, fun s t port p g w h row hrow => ?_, fun s t port p x hx hadm => ?_⟩
  · have hread (row : Fin 16 → Packet → Instr) (hrow : row ∈ [Instr.regRead, .pinMaxRead, .refDebtRead, .qdepthMaxRead]) :
        exec (row port p) s = .next ((t.readReg (Packet.regAddr (p.ofCmd 0x40)) g).1.complete (cmdSlot 0x40 p) stOk
          (leBytes 4 (t.readReg (Packet.regAddr (p.ofCmd 0x40)) g).2)) := by
      rw [regRead_rows hrow, arriveRead_of_admits h]
    refine ⟨hread, fun hg => ?_, fun n hg => ?_, fun n hg => ?_, fun hg => ?_, fun kind i hg => ?_⟩
    · subst hg; exact hread .pinMaxRead (by simp)
    · subst hg; exact hread .refDebtRead (by simp)
    · subst hg; exact hread .refDebtRead (by simp)
    · subst hg; exact hread .qdepthMaxRead (by simp)
    · subst hg
      rw [hread .regRead (by simp), t.readReg_identity]
  · rw [regWrite_rows hrow, arriveWrite_of_admits h]
  · simp only [List.mem_cons, List.not_mem_nil, or_false] at hx
    rcases hx with rfl | rfl
    · refine ⟨fun hbad row hrow => ?_, fun hlen halign hlow hnone row hrow => ?_⟩
      · rw [regRead_rows hrow, actRegRead_of_refused hadm (t.regTarget_malformed hbad)]
      · rw [regRead_rows hrow, actRegRead_of_refused hadm (t.regTarget_busError hlen halign hlow hnone)]
    · refine ⟨fun hbad row hrow => ?_, fun hlen halign hlow hnone row hrow => ?_⟩
      · rw [regWrite_rows hrow, actRegWrite_of_refused hadm (t.regTarget_malformed hbad)]
      · rw [regWrite_rows hrow, actRegWrite_of_refused hadm (t.regTarget_busError hlen halign hlow hnone)]

/-! ### Rings that restart (R120) -/

/-- The manager ring with a full queue, its control bead uncorrectable: PRODUCER's write into that bead finds the error, whose records
the full queue drops, so that OVERFLOW counts again. -/
def fullRing : State :=
  { boot := { nmcOk := 15 }
    xlt := { extents := [(0, { st := .active, kind := 2, len2m := 1 })]
             rings := [(1024, { ringLo := 1, queue := List.replicate 64 { typ := 0, cls := 1 } })] }
    beads := [(0, { errs := [(0, 1), (1, 1)] })] }

theorem fullRing_overflow : ((fullRing.restartRing 1024).ring 1024).overflow = 3 := by decide +kernel

/-- Refutes O22: a ring that restarts has not always its OVERFLOW count at 0. -/
theorem not_linkAndWalkerWrites : ¬ Obligations.LinkAndWalkerWrites := by
  rintro ⟨-, -, -, hrestart⟩
  obtain ⟨-, -, -, hoverflow⟩ := hrestart fullRing 1024
  rw [fullRing_overflow] at hoverflow
  exact absurd hoverflow (by decide)

end Sys2Proof.Machine
end

section
/-!
Writes of memory controls (R135, R157, R166, R187), of the router (R337, R338, R347), of rate records (R386, R387, R395, R396) and of
tally selections (R445–R448).
-/

namespace Sys2Proof.Machine

/-! ### Masked words -/

/-- A field that a mask covers stands under it. -/
theorem wbits_and {m : Word} {hi lo : Nat} (h : ∀ j < 32, lo ≤ j → j ≤ hi → m.toNat.testBit j = true) (w : Word) :
    wbits (w &&& m) hi lo = wbits w hi lo := by
  refine Nat.eq_of_testBit_eq fun j => ?_
  simp only [wbits, bits, BitVec.toNat_and, Nat.testBit_mod_two_pow, Nat.testBit_div_two_pow, Nat.testBit_and]
  by_cases hj : j < hi + 1 - lo
  · by_cases h32 : j + lo < 32
    · rw [h (j + lo) h32 (by omega) (by omega), Bool.and_true]
    · have hw : w.toNat.testBit (j + lo) = false :=
        Nat.testBit_lt_two_pow (Nat.lt_of_lt_of_le w.isLt (Nat.pow_le_pow_right (by decide) (by omega)))
      rw [hw, Bool.false_and]
  · simp [hj]

theorem wbit_and {m : Word} {i : Nat} (h : m.toNat.testBit i = true) (w : Word) : wbit (w &&& m) i = wbit w i := by
  simp only [wbit, bit_eq_testBit, BitVec.toNat_and, Nat.testBit_and, h, Bool.and_true]

/-! ### Memory controls (R135, R157, R166, R187) -/

/-- An admitted register write, in any of its rows. -/
theorem exec_of_admitsWrite {s t : State} {port : Fin 16} {p : Packet} {g : Target} {w : Word} (h : s.AdmitsWrite port p g w t)
    {r : State × Nat} (hr : t.writeReg (Packet.regAddr (p.ofCmd 0x41)) g w = r) :
    (.next (s.arriveWrite port p) : Outcome) = .next (r.1.complete (cmdSlot 0x41 p) r.2) := by
  rw [arriveWrite_of_admits h, hr]

theorem State.writeSrForce_at (t : State) (a : Nat) {c : Nat} (hc : c < 12) (w : Word) :
    t.writeReg a (.page (ctlPage c).1 (ctlPage c).2 0x800) w = (t.writeSrForce c w, stOk) := by
  unfold ctlPage
  split
  · rfl
  · obtain ⟨d, rfl⟩ : ∃ d, c = 4 + d := ⟨c - 4, by omega⟩
    rw [Nat.add_sub_cancel_left]
    rfl

theorem State.writeSrForce_spec (t : State) (c : Nat) (w : Word) :
    let u := t.setReg (pageBase (ctlPage c).1 (ctlPage c).2 + 0x800) (w &&& 1)
    (wbit w 0 = true → t.ctlOk c = true → (t.ctlAt c).st = .active → (t.ctlAt c).tracking = none → (t.ctlAt c).empty = true →
      t.writeSrForce c w = u.enterSr c) ∧
    (wbit w 0 = true → (t.ctlAt c).st ≠ .active ∨ (t.ctlAt c).empty = false → t.writeSrForce c w = u) ∧
    (wbit w 0 = false → (t.ctlAt c).st = .selfRefresh →
      t.writeSrForce c w = u.setCtl c { t.ctlAt c with st := .exiting, since := t.time }) ∧
    (wbit w 0 = false → (t.ctlAt c).st = .active → t.writeSrForce c w = u) := by
  have hctl : (t.setReg (pageBase (ctlPage c).1 (ctlPage c).2 + 0x800) (w &&& 1)).ctlAt c = t.ctlAt c := by simp [State.ctlAt]
  have hok : (t.setReg (pageBase (ctlPage c).1 (ctlPage c).2 + 0x800) (w &&& 1)).ctlOk c = t.ctlOk c := by simp [State.ctlOk]
  have hforced : (t.setReg (pageBase (ctlPage c).1 (ctlPage c).2 + 0x800) (w &&& 1)).srForced c = wbit w 0 := by
    rw [State.srForced, setReg_reg, if_pos rfl, wbit_and (by decide)]
  have htime : (t.setReg (pageBase (ctlPage c).1 (ctlPage c).2 + 0x800) (w &&& 1)).time = t.time := by simp
  unfold State.writeSrForce State.forceSr
  dsimp only
  rw [hctl, hok, hforced, htime]
  refine ⟨fun h hok hst htrack hempty => ?_, fun h hno => ?_, fun h hst => ?_, fun h hst => ?_⟩
  · simp [h, hok, hst, htrack, hempty]
  · rw [if_pos h]
    split
    · rw [if_neg]
      rcases hno with hst | hempty
      · simp [hst]
      · simp [hempty]
    · rfl
  · rw [if_neg (by simp [h]), if_pos hst]
  · rw [if_neg (by simp [h]), if_neg (by simp [hst]), if_neg (by simp [hst])]

/-- ECC_INJECT armed where it may be (R166). -/
theorem State.writeInject_arm (t : State) {w : Word} (h : wbit w 0 = true) : t.writeInject 0x800 w =
    if t.mayInject (injectPa (t.reg 0x80804) (t.reg 0x80808)) = true then (t.setReg 0x80800 (w &&& 7), stOk) else (t, stPermission) := by
  have hwrite : t.writeInject 0x800 w = if (wbit w 0 && !t.mayInject (injectPa (t.reg 0x80804) (t.reg 0x80808))) = true
      then (t, stPermission) else (t.setReg 0x80800 (w &&& 7), stOk) := rfl
  rw [hwrite, h]
  cases t.mayInject (injectPa (t.reg 0x80804) (t.reg 0x80808)) <;> rfl

/-- A RELOAD that passes its checks takes the members its descriptor names (R157). -/
theorem State.reload_of_passes {t u : State} {e : Nat} {q : Prot} {b : List Byte} {pos : Nat} (hst : (t.extent e).st = .active)
    (hprot : (t.extent e).prot ≠ 0) (hq : t.prot? e = some q) (hdesc : t.readDesc (partDesc (t.extent e).partners) = (u, some b))
    (hpos : u.ownPosition (descMembers b (field b 0 1)) e = some pos)
    (hok : descOk b (t.extent e).prot pos u.ep e (t.extent e).gen (t.extent e).owner = true)
    (hkey : (u.keySlot q.keysel).st ≠ .empty) (howner : (u.keySlot q.keysel).owner = (t.extent e).owner) :
    ∃ q', t.reload e = (u.setProt e q', stOk) ∧ q'.k = field b 0 1 ∧ q'.pos = pos ∧ q'.members = descMembers b (field b 0 1) ∧
      q'.keysel = q.keysel := by
  unfold State.reload
  dsimp only
  rw [if_neg (by simp [hst, hprot]), hq]
  dsimp only
  rw [hdesc]
  dsimp only
  rw [hpos]
  dsimp only
  rw [if_neg (by simp [hok, hkey, howner])]
  exact ⟨_, rfl, rfl, rfl, rfl, rfl⟩

/-- The entry to self-refresh (R125, R135): its controller alone, whose metadata beads are clean. -/
theorem State.enterSr_spec (u : State) (c : Nat) :
    ((u.enterSr c).ctlAt c).st = .entering ∧ ((u.enterSr c).ctlAt c).since = u.time ∧ ((u.enterSr c).ctlAt c).wake = false ∧
      (u.enterSr c).mem = u.mem ∧ ∀ m ∈ ((u.enterSr c).ctlAt c).mdc, m.2 = false := by
  have htime : (((u.ctlAt c).mdc.filter (·.2)).foldl (fun s m => s.metaAccess c m.1 true none) u).time = u.time :=
    foldl_keeps State.time (fun s m => by simp [State.metaAccess, State.touchRow, State.tallyCtl, State.setUnit]) _ u
  have hmem : (((u.ctlAt c).mdc.filter (·.2)).foldl (fun s m => s.metaAccess c m.1 true none) u).mem = u.mem :=
    foldl_keeps State.mem (fun s m => by simp [State.metaAccess, State.touchRow, State.tallyCtl, State.setUnit]) _ u
  unfold State.enterSr
  dsimp only
  generalize ((u.ctlAt c).mdc.filter (·.2)).foldl (fun s m => s.metaAccess c m.1 true none) u = v at htime hmem
  rw [setCtl_ctlAt, if_pos rfl]
  refine ⟨rfl, htime, rfl, hmem, fun m hm => ?_⟩
  obtain ⟨x, -, rfl⟩ := List.mem_map.1 hm
  rfl

/-- FRM_SPARE_CTL (R187, R297). -/
theorem State.writeSpare_spec (t : State) (f : Nat) (w : Word) :
    (wbit w 31 = true → (t.frame f).spareFor = none → (t.frame f).request = none → t.spareOk f = true →
      let u := if t.voting f then t else t.endCheck f
      t.writeSpare f w = (u.setFrame f { u.frame f with request := some (wbits w 3 0, 2) }, stOk)) ∧
    (wbit w 31 = true → (t.frame f).spareFor = none → (t.frame f).request = none → t.spareOk f = false →
      t.writeSpare f w = (t, stUnsupported)) ∧
    (wbit w 31 = true → (t.frame f).spareFor ≠ none ∨ (t.frame f).request ≠ none → t.writeSpare f w = (t, stBusy)) ∧
    (wbit w 31 = false → t.writeSpare f w = (t, stOk)) := by
  unfold State.writeSpare
  dsimp only
  refine ⟨fun h hspare hreq hok => ?_, fun h hspare hreq hok => ?_, fun h hbusy => ?_, fun h => ?_⟩
  · rw [if_neg (by simp [h]), if_neg (by simp [hspare, hreq]), if_neg (by simp [hok])]
  · rw [if_neg (by simp [h]), if_neg (by simp [hspare, hreq]), if_pos (by simp [hok])]
  · rw [if_neg (by simp [h]), if_pos (by simpa [Option.isSome_iff_ne_none] using hbusy)]
  · rw [if_pos (by simp [h])]

/-- Settles O23: each write through the operation of its register. -/
theorem memoryControlsWrite : Obligations.MemoryControlsWrite := by
  refine ⟨fun s t port p w => ⟨fun c hc h => ?_, fun h harm => ?_, fun h hgo => ?_, fun f h => ?_⟩, State.enterSr_spec⟩
  · obtain ⟨henter, hnot, hexit, hstay⟩ := t.writeSrForce_spec c w
    have hw (u : State) (hu : t.writeSrForce c w = u) : exec (.srForceWrite port p) s = .next (u.complete (cmdSlot 0x41 p) stOk) :=
      exec_of_admitsWrite h (r := (u, stOk)) (by rw [t.writeSrForce_at _ hc, hu])
    exact ⟨fun h1 h2 h3 h4 h5 => hw _ (henter h1 h2 h3 h4 h5), fun h1 h2 => hw _ (hnot h1 h2), fun h1 h2 => hw _ (hexit h1 h2),
      fun h1 h2 => hw _ (hstay h1 h2)⟩
  · have hw := t.writeInject_arm harm
    refine ⟨fun hmay => exec_of_admitsWrite h (hw.trans (if_pos hmay)), fun hmay => exec_of_admitsWrite h (hw.trans (if_neg ?_))⟩
    rw [hmay]; decide
  · have hw {r : State × Nat} (hr : t.reload (wbits w 13 0) = r) :
        exec (.protReload port p) s = .next (r.1.complete (cmdSlot 0x41 p) r.2) :=
      exec_of_admitsWrite h (by
        show t.writeEcc 0x840 w = r
        rw [State.writeEcc, if_neg (by decide), if_neg (by decide), if_neg (by decide), if_pos ⟨rfl, hgo⟩, hr])
    refine ⟨fun hno => hw (if_pos hno), fun q u b pos hst hprot hq hdesc hpos hok hkey howner => ?_⟩
    obtain ⟨q', hreload, hk, hpos', hmem, hsel⟩ := State.reload_of_passes hst hprot hq hdesc hpos hok hkey howner
    exact ⟨q', hw hreload, hk, hpos', hmem, hsel⟩
  · obtain ⟨htake, hbad, hbusy, hidle⟩ := t.writeSpare_spec f w
    have hw {r : State × Nat} (hr : t.writeSpare f w = r) :
        exec (.spareStandInRequest port p) s = .next (r.1.complete (cmdSlot 0x41 p) r.2) :=
      exec_of_admitsWrite h hr
    exact ⟨fun h1 h2 h3 h4 => hw (htake h1 h2 h3 h4), fun h1 h2 h3 h4 => hw (hbad h1 h2 h3 h4), fun h1 h2 => hw (hbusy h1 h2),
      fun h1 => hw (hidle h1)⟩

end Sys2Proof.Machine
end

section
/-!
Writes of the router (R337, R338, R347), of rate records (R386, R387, R395, R396) and of tally selections (R445–R448).
-/

namespace Sys2Proof.Machine

/-! ### The routing tables and the flip (R337, R338, R431) -/

theorem State.writeRoute_spec (t : State) (a : Nat) (w : Word) :
    ((a - 0x800000) / 0x40000 ≠ t.rtr.inject → t.rtr.flipArmed = none → t.rtr.oldWritable = true → a % 0x40000 < 0x700 →
      t.writeRoute a w = ({ t with rtr := { t.rtr with table := wordPut t.rtr.table a (w &&& BitVec.ofNat 32 (routeMask a)) } }, stOk)) ∧
    ((a - 0x800000) / 0x40000 = t.rtr.inject ∨ t.rtr.flipArmed ≠ none ∨ t.rtr.oldWritable = false →
      t.writeRoute a w = (t, stBusy)) := by
  unfold State.writeRoute
  dsimp only
  refine ⟨fun hv harm hold hlow => ?_, fun h => ?_⟩
  · rw [if_neg (by simp [hv, harm, hold]), if_pos hlow]
  · rw [if_pos (by simpa [Option.isSome_iff_ne_none] using h)]

theorem State.writeFlip_spec (t : State) (w : Word) :
    let tick := t.regTick 0x20804 0x20808
    let armed : State := { t with rtr := { t.rtr with flipArmed := some tick } }
    (wbit w 0 = true → wbit w 1 = false → t.rtr.flipArmed = none → t.tickRule tick = stOk →
      t.writeFlip w = (if t.mgr.role = 2 then armed.notify 1 t.ep tick (1 - t.rtr.inject) else armed, stOk)) ∧
    (wbit w 0 = true → wbit w 1 = false → t.rtr.flipArmed = none → t.tickRule tick ≠ stOk → t.writeFlip w = (t, t.tickRule tick)) ∧
    (wbit w 0 = true → wbit w 1 = false → t.rtr.flipArmed ≠ none → t.writeFlip w = (t, stBusy)) ∧
    (wbit w 0 = false → wbit w 1 = true → t.rtr.flipArmed ≠ none →
      t.writeFlip w = ({ t with rtr := { t.rtr with flipArmed := none } }, stOk)) ∧
    (wbit w 1 = true → t.rtr.flipArmed = none → t.writeFlip w = (t, stMalformed)) := by
  unfold State.writeFlip State.writeFlipCtl
  dsimp only
  refine ⟨fun h0 h1 hnone hrule => ?_, fun h0 h1 hnone hrule => ?_, fun h0 h1 hsome => ?_, fun h0 h1 hsome => ?_, fun h1 hnone => ?_⟩
  · by_cases hrole : t.mgr.role = 2
    · simp [h0, h1, hnone, hrule, hrole]
      rfl
    · simp [h0, h1, hnone, hrule, hrole]
  · simp [h0, h1, hnone, hrule]
  · obtain ⟨tick, htick⟩ := Option.ne_none_iff_exists'.1 hsome
    have : (stBusy == stOk) = false := by decide
    simp [h0, h1, htick, this]
  · simp [h0, h1, hsome]
  · simp [h1, hnone]

/-! ### The counting board (R347) -/

theorem State.writeBoard_spec (t : State) (a : Nat) (w : Word) :
    (a % 0x8000 / 0x4000 ≠ t.rtr.boardActive → t.rtr.boardArmed = none →
      t.writeBoard a w = ({ t with rtr := { t.rtr with board := wordPut t.rtr.board a (w &&& BitVec.ofNat 32 (boardMask a)) } }, stOk)) ∧
    (a % 0x8000 / 0x4000 = t.rtr.boardActive ∨ t.rtr.boardArmed ≠ none → t.writeBoard a w = (t, stBusy)) := by
  unfold State.writeBoard
  refine ⟨fun hbank harm => ?_, fun h => ?_⟩
  · rw [if_neg (by simp [hbank, harm])]
  · rw [if_pos (by simpa [Option.isSome_iff_ne_none] using h)]

theorem State.writeBoardCtl_spec (t : State) (w : Word) :
    let tick := t.regTick 0x20834 0x20838
    (wbit w 0 = true → wbit w 1 = false → t.rtr.boardArmed = none → t.tickRule tick = stOk →
      (t.boardFail (1 - t.rtr.boardActive) = none →
        t.writeBoardCtl w = ({ t with rtr := { t.rtr with boardArmed := some tick, boardBad := false } }, stOk)) ∧
      (∀ q n, t.boardFail (1 - t.rtr.boardActive) = some (q, n) → t.writeBoardCtl w =
        (State.raise { t with rtr := { t.rtr with boardBad := true, badPort := q, badWindow := n } } .rtr 0 3, stMalformed))) ∧
    (wbit w 0 = true → wbit w 1 = false → t.rtr.boardArmed = none → t.tickRule tick ≠ stOk →
      t.writeBoardCtl w = (t, t.tickRule tick)) ∧
    (wbit w 0 = true → wbit w 1 = false → t.rtr.boardArmed ≠ none → t.writeBoardCtl w = (t, stBusy)) ∧
    (wbit w 0 = false → wbit w 1 = true → t.rtr.boardArmed ≠ none →
      t.writeBoardCtl w = ({ t with rtr := { t.rtr with boardArmed := none } }, stOk)) ∧
    (wbit w 1 = true → t.rtr.boardArmed = none → t.writeBoardCtl w = (t, stMalformed)) := by
  unfold State.writeBoardCtl
  dsimp only
  refine ⟨fun h0 h1 hnone hrule => ⟨fun hgood => ?_, fun q n hbad => ?_⟩, fun h0 h1 hnone hrule => ?_, fun h0 h1 hsome => ?_,
    fun h0 h1 hsome => ?_, fun h1 hnone => ?_⟩
  · simp [h0, h1, hnone, hrule, hgood]
  · simp [h0, h1, hnone, hrule, hbad]
  · simp [h0, h1, hnone, hrule]
  · simp [h0, h1, Option.isSome_iff_ne_none.2 hsome]
  · simp [h0, h1, hsome]
  · simp [h1, hnone]

theorem execRoutingTableWrite_of_admits {s t : State} {port : Fin 16} {p : Packet} {w : Word} (h : s.AdmitsWrite port p .route w t)
    {u : State} {st : Nat} (hr : t.writeRoute (Packet.regAddr (p.ofCmd 0x41)) w = (u, st)) :
    exec (.routingTableWrite port p) s = .next (u.complete (cmdSlot 0x41 p) st) :=
  exec_of_admitsWrite h hr

theorem execBoardWindowWrite_of_admits {s t : State} {port : Fin 16} {p : Packet} {w : Word} (h : s.AdmitsWrite port p .board w t)
    {u : State} {st : Nat} (hr : t.writeBoard (Packet.regAddr (p.ofCmd 0x41)) w = (u, st)) :
    exec (.boardWindowWrite port p) s = .next (u.complete (cmdSlot 0x41 p) st) :=
  exec_of_admitsWrite h hr

/-- FLIP_CTL, its word in the `writeFlip` it is handed to; every row of it is one arrival. -/
theorem arriveWrite_flip_of_admits {s t : State} {port : Fin 16} {p : Packet} {w : Word}
    (h : s.AdmitsWrite port p (.page .rtr 0 0x80C) w t) {u : State} {st : Nat} (hr : t.writeFlip w = (u, st)) :
    (.next (s.arriveWrite port p) : Outcome) = .next (u.complete (cmdSlot 0x41 p) st) :=
  exec_of_admitsWrite h hr

/-- An offset from 0x800 on is the block's own (Table 4.3). -/
theorem State.writePage_block (s : State) (k : PageKind) (i : Nat) {off : Nat} (h : 0x800 ≤ off) (w : Word) :
    s.writePage k i off w = s.writeBlock k i off w := by
  unfold State.writePage
  dsimp only
  rw [if_neg (by omega), if_neg (by omega), if_neg (by omega), if_neg (by omega), if_neg (by omega), if_pos h]

theorem State.writeReg_boardCtl (t : State) (a : Nat) (w : Word) : t.writeReg a (.page .rtr 0 0x83C) w = t.writeBoardCtl w := by
  rw [State.writeReg, State.writePage_block _ _ _ (by decide)]
  show t.writeRtr 0x83C w = _
  unfold State.writeRtr
  rw [if_neg (by decide), if_neg (by decide), if_neg (by decide), if_neg (by decide), if_neg (by decide), if_pos rfl]

/-- CMB_CTL, likewise. -/
theorem arriveWrite_boardCtl_of_admits {s t : State} {port : Fin 16} {p : Packet} {w : Word}
    (h : s.AdmitsWrite port p (.page .rtr 0 0x83C) w t) {u : State} {st : Nat} (hr : t.writeBoardCtl w = (u, st)) :
    (.next (s.arriveWrite port p) : Outcome) = .next (u.complete (cmdSlot 0x41 p) st) :=
  exec_of_admitsWrite h ((t.writeReg_boardCtl _ w).trans hr)

/-- Settles O24: each write through the operation of its window or register. -/
theorem routerRegistersWrite : Obligations.RouterRegistersWrite := by
  refine ⟨fun s t port p w => ?_, fun s t port p w => ?_⟩
  · intro k a
    refine ⟨fun h => ⟨fun h1 h2 h3 h4 => ?_, fun h1 => ?_⟩, fun h => ?_⟩
    · exact execRoutingTableWrite_of_admits h ((t.writeRoute_spec a w).1 h1 h2 h3 h4)
    · exact execRoutingTableWrite_of_admits h ((t.writeRoute_spec a w).2 h1)
    · obtain ⟨harm, hrule, hbusy, hcancel, hnone⟩ := t.writeFlip_spec w
      exact ⟨fun h1 h2 h3 h4 => arriveWrite_flip_of_admits h (harm h1 h2 h3 h4),
        fun h1 h2 h3 h4 => arriveWrite_flip_of_admits h (hrule h1 h2 h3 h4), fun h1 h2 h3 => arriveWrite_flip_of_admits h (hbusy h1 h2 h3),
        fun h1 h2 h3 => arriveWrite_flip_of_admits h (hcancel h1 h2 h3), fun h1 h2 => arriveWrite_flip_of_admits h (hnone h1 h2)⟩
  · intro k a
    refine ⟨fun h => ⟨fun h1 h2 => ?_, fun h1 => ?_⟩, fun h => ?_⟩
    · exact execBoardWindowWrite_of_admits h ((t.writeBoard_spec a w).1 h1 h2)
    · exact execBoardWindowWrite_of_admits h ((t.writeBoard_spec a w).2 h1)
    · obtain ⟨harm, hrule, hbusy, hcancel, hnone⟩ := t.writeBoardCtl_spec w
      refine ⟨fun h1 h2 h3 h4 => ?_, fun h1 h2 h3 h4 => arriveWrite_boardCtl_of_admits h (hrule h1 h2 h3 h4),
        fun h1 h2 h3 => arriveWrite_boardCtl_of_admits h (hbusy h1 h2 h3), fun h1 h2 h3 => arriveWrite_boardCtl_of_admits h (hcancel h1 h2 h3),
        fun h1 h2 => arriveWrite_boardCtl_of_admits h (hnone h1 h2)⟩
      obtain ⟨hgood, hbad⟩ := harm h1 h2 h3 h4
      exact ⟨fun h5 => arriveWrite_boardCtl_of_admits h (hgood h5), fun q n h5 => arriveWrite_boardCtl_of_admits h (hbad q n h5)⟩

/-! ### Rate records (R386, R387, R395, R396) -/

theorem rateOf_pos (r : Nat) : 1 ≤ rateOf r := by unfold rateOf; split <;> omega

theorem le_storedBurst (b : Nat) : 320 ≤ storedBurst b := by unfold storedBurst; split <;> omega

theorem storedBurst_lt {b : Nat} (h : b < 65536) : storedBurst b < 65536 := by unfold storedBurst; split <;> omega

theorem bits_half_lt (n lo : Nat) : bits n (lo + 15) lo < 65536 := by
  rw [bits, show lo + 15 + 1 - lo = 16 by omega]
  exact Nat.mod_lt _ (by decide)

/-- The halves of a word made of two. -/
theorem wbits_halves {hi lo : Nat} (hlo : lo < 65536) (hhi : hi < 65536) :
    wbits (BitVec.ofNat 32 (hi * 65536 + lo)) 15 0 = lo ∧ wbits (BitVec.ofNat 32 (hi * 65536 + lo)) 31 16 = hi := by
  have hn : (BitVec.ofNat 32 (hi * 65536 + lo)).toNat = hi * 65536 + lo := by
    rw [BitVec.toNat_ofNat]
    exact Nat.mod_eq_of_lt (by omega)
  constructor
  · rw [wbits, hn, bits]; omega
  · rw [wbits, hn, bits]; omega

theorem meterKey_flags (w : Word) : wbit (w &&& 0xE03FFFFF) 31 = wbit w 31 ∧ wbit (w &&& 0xE03FFFFF) 29 = wbit w 29 :=
  ⟨wbit_and (by decide) w, wbit_and (by decide) w⟩

end Sys2Proof.Machine
end

section
/-!
Commits of rate records (R386, R387, R395, R396) and tally selections (R445–R448).
-/

namespace Sys2Proof.Machine

/-! ### Commits -/

theorem State.commitMeter_spec (t : State) (w : Word) :
    let m := t.meter t.mtrIndex
    let taken := t.qos.meters.any fun x => x.1 != t.mtrIndex && wbit x.2.key 31 && sameMeterKey x.2.key (w &&& 0xE03FFFFF)
    let lo := storedBurst (bits t.qos.mtrHeld.2.2 15 0)
    let hi := storedBurst (bits t.qos.mtrHeld.2.2 31 16)
    let cir := rateOf t.qos.mtrHeld.1
    let pir := max (rateOf t.qos.mtrHeld.2.1) cir
    let n : Meter := { m with key := w &&& 0xE03FFFFF, cir := cir, pir := pir, bursts := BitVec.ofNat 32 (hi * 65536 + lo) }
    let done (x : Meter) : State := { t with qos := { t.qos with
      meters := tblPut t.qos.meters t.mtrIndex x, mtrHeld := (x.cir, x.pir, x.bursts.toNat) } }
    (wbit w 31 = true → taken = true → t.commitMeter w = (t, stMalformed)) ∧
    (wbit w 31 = false ∨ taken = false →
      (m.cir = cir → m.pir = pir → m.bursts = n.bursts → t.commitMeter w = (done n, stOk)) ∧
      (¬(m.cir = cir ∧ m.pir = pir ∧ m.bursts = n.bursts) → t.commitMeter w = (done
        { n with tc := Bucket.restart (wbit w 29) lo t.time, tp := Bucket.restart (wbit w 29) hi t.time }, stOk)) ∧
      1 ≤ cir ∧ cir ≤ pir ∧ 320 ≤ lo ∧ 320 ≤ hi) := by
  intro m taken lo hi cir pir n done
  obtain ⟨h31, h29⟩ := meterKey_flags w
  obtain ⟨hlo, hhi⟩ := wbits_halves (lo := lo) (hi := hi) (storedBurst_lt (bits_half_lt _ 0)) (storedBurst_lt (bits_half_lt _ 16))
  refine ⟨fun hv htaken => ?_, fun hfree => ⟨fun h1 h2 h3 => ?_, fun hne => ?_, rateOf_pos _, Nat.le_max_right _ _,
    le_storedBurst _, le_storedBurst _⟩⟩
  · unfold State.commitMeter
    exact if_pos ⟨h31.trans hv, htaken⟩
  all_goals
    have hno : ¬(wbit (w &&& 0xE03FFFFF) 31 = true ∧ taken = true) := by
      rw [h31]
      rcases hfree with h | h <;> simp [h]
    unfold State.commitMeter
    refine (if_neg hno).trans ?_
    dsimp only
  · rw [if_pos ⟨h1, h2, h3⟩]
  · rw [if_neg hne, hlo, hhi, h29]

theorem State.commitHost_spec (t : State) (w : Word) :
    let h := t.host t.hostIndex
    let taken := t.qos.hosts.any fun x => x.1 != t.hostIndex && wbit x.2.key 31 && wbits x.2.key 11 0 == wbits w 11 0
    let n : HostRec := { h with key := w &&& 0xA0000FFF, rate := rateOf t.qos.hostHeld.1, burst := storedBurst t.qos.hostHeld.2 }
    let done (x : HostRec) : State := { t with qos := { t.qos with
      hosts := tblPut t.qos.hosts t.hostIndex x, hostHeld := (x.rate, x.burst) } }
    (wbit w 31 = true → taken = true → t.commitHost w = (t, stMalformed)) ∧
    (wbit w 31 = false ∨ taken = false → t.commitHost w = (done
      (if h.rate = n.rate ∧ h.burst = n.burst then n
       else { n with bucket := Bucket.restart (wbit w 29) n.burst t.time }), stOk)) := by
  intro h taken n done
  have h31 : wbit (w &&& 0xA0000FFF) 31 = wbit w 31 := wbit_and (by decide) w
  have h29 : wbit (w &&& 0xA0000FFF) 29 = wbit w 29 := wbit_and (by decide) w
  have hep : wbits (w &&& 0xA0000FFF) 11 0 = wbits w 11 0 := wbits_and (by decide) w
  unfold State.commitHost
  dsimp only
  rw [h31, h29, hep]
  refine ⟨fun hv htaken => if_pos ⟨hv, htaken⟩, fun hfree => (if_neg ?_).trans ?_⟩
  · rcases hfree with h | h
    · exact fun x => by simp [h] at x
    · exact fun x => by simp only [taken] at h; simp [h] at x
  · by_cases hsame : (t.host t.hostIndex).rate = rateOf t.qos.hostHeld.1 ∧ (t.host t.hostIndex).burst = storedBurst t.qos.hostHeld.2
    · refine Eq.trans ?_ (congrArg (fun x : HostRec => (done x, stOk)) (if_pos hsame)).symm
      rw [if_pos hsame]
    · refine Eq.trans ?_ (congrArg (fun x : HostRec => (done x, stOk)) (if_neg hsame)).symm
      rw [if_neg hsame]

theorem State.commitShaper_spec (t : State) (w : Word) :
    let q := t.shaper t.qshIndex
    let n : QShaper := { q with ctl := w &&& 0xA0000000, rate := rateOf t.qos.qshHeld.1, burst := storedBurst t.qos.qshHeld.2 }
    t.commitShaper w = ({ t with qos := { t.qos with
      qsh := tblPut t.qos.qsh t.qshIndex (if q.rate = n.rate ∧ q.burst = n.burst then n
        else { n with bucket := Bucket.restart (wbit w 29) n.burst t.time })
      qshHeld := (n.rate, n.burst) } }, stOk) := by
  have h29 : wbit (w &&& 0xA0000000) 29 = wbit w 29 := wbit_and (by decide) w
  unfold State.commitShaper
  dsimp only
  rw [h29]
  rfl

/-! ### Tally writes (R445–R448) -/

theorem State.writeReg_snapshot (t : State) (a : Nat) (kind : PageKind) (i : Nat) {w : Word} (h : wbit w 0 = true) :
    t.writeReg a (.page kind i 0x400) w = (t.snapshot (pageBase kind i), stOk) := by
  rw [State.writeReg, State.writePage, if_neg (by decide), if_neg (by decide), if_neg (by decide), if_neg (by decide),
    if_pos (by decide), State.writeTally, if_pos rfl, if_pos h]

theorem State.writeReg_select (t : State) (a : Nat) (kind : PageKind) (i : Nat) {n : Nat} (hn : n < 32) (w : Word) :
    t.writeReg a (.page kind i (0x410 + 16 * n)) w = t.writeSel kind (pageBase kind i) n w := by
  rw [State.writeReg, State.writePage, if_neg (by omega), if_neg (by omega), if_neg (by omega), if_neg (by omega),
    if_pos (by omega), State.writeTally, if_neg (by omega), if_neg (by omega), if_pos (by omega),
    show (0x410 + 16 * n - 0x410) / 16 = n by omega]

/-- A selection is bound anew: it is now and was not, or was to another context. -/
theorem bound_iff (now was : Bool) (old new : Nat) :
    (now && (!was || old != new)) = true ↔ now = true ∧ (was = false ∨ old ≠ new) := by
  simp

theorem State.writeSel_spec (t : State) (kind : PageKind) (base n : Nat) (w : Word) :
    let T := t.tallyPage base
    let old := (tblGet? T.sel n).getD 0
    let set (x : TallyPage) : State := t.setTallyPage base { x with sel := tblPut T.sel n (w &&& 0x83FFFFFF) }
    (selOk kind (w &&& 0x83FFFFFF) = false → t.writeSel kind base n w = (t, stMalformed)) ∧
    (selOk kind (w &&& 0x83FFFFFF) = true → wbit w 31 = true → wbit old 31 = false ∨ wbits old 25 16 ≠ wbits w 25 16 →
      t.writeSel kind base n w = (set { T with val := tblDel T.val n, ovf := setBit T.ovf n false }, stOk)) ∧
    (selOk kind (w &&& 0x83FFFFFF) = true → wbit w 31 = false ∨ (wbit old 31 = true ∧ wbits old 25 16 = wbits w 25 16) →
      t.writeSel kind base n w = (set T, stOk)) := by
  intro T old set
  have h31 : wbit (w &&& 0x83FFFFFF) 31 = wbit w 31 := wbit_and (by decide) w
  have hctx : wbits (w &&& 0x83FFFFFF) 25 16 = wbits w 25 16 := wbits_and (by decide) w
  unfold State.writeSel
  dsimp only
  rw [h31, hctx]
  refine ⟨fun hbad => if_neg (Bool.not_eq_true _ ▸ hbad), fun hok hscope hchange => (if_pos hok).trans ?_,
    fun hok hsame => (if_pos hok).trans ?_⟩
  · rw [if_pos ((bound_iff ..).2 ⟨hscope, hchange⟩)]
    rfl
  · rw [if_neg fun h => ?_]
    obtain ⟨hscope, hchange⟩ := (bound_iff ..).1 h
    rcases hsame with hno | ⟨hwas, hctx⟩
    · exact Bool.noConfusion (hno.symm.trans hscope)
    · exact hchange.elim (fun h => Bool.noConfusion (h.symm.trans hwas)) fun h => h hctx

/-- Settles O25: each commit through its record, each tally write through its page. -/
theorem rateAndTallyWrites : Obligations.RateAndTallyWrites := by
  refine ⟨fun s t port p w => ?_, fun s t port p kind i w => ?_⟩
  · intro k
    have hmeter (h : s.AdmitsWrite port p (.page .qos 0 0x804) w t) {r : State × Nat} (hr : t.commitMeter w = r) :
        exec (.meterCommit port p) s = .next (r.1.complete k r.2) := exec_of_admitsWrite h hr
    have hhost (h : s.AdmitsWrite port p (.page .qos 0 0x824) w t) {r : State × Nat} (hr : t.commitHost w = r) :
        exec (.hostRecordCommit port p) s = .next (r.1.complete k r.2) := exec_of_admitsWrite h hr
    refine ⟨fun h => ?_, fun h => ?_, fun h => exec_of_admitsWrite h (t.commitShaper_spec w)⟩
    · obtain ⟨htaken, hfree⟩ := t.commitMeter_spec w
      refine ⟨fun h1 h2 => hmeter h (htaken h1 h2), fun h1 => ?_⟩
      obtain ⟨hsame, hnew, hbounds⟩ := hfree h1
      exact ⟨fun h2 h3 h4 => hmeter h (hsame h2 h3 h4), fun h2 => hmeter h (hnew h2), hbounds⟩
    · obtain ⟨htaken, hfree⟩ := t.commitHost_spec w
      exact ⟨fun h1 h2 => hhost h (htaken h1 h2), fun h1 => hhost h (hfree h1)⟩
  · refine ⟨fun h h0 => exec_of_admitsWrite h (t.writeReg_snapshot _ kind i h0), fun n hn h => ?_⟩
    obtain ⟨hbad, hbound, hsame⟩ := t.writeSel_spec kind (pageBase kind i) n w
    have hw {r : State × Nat} (hr : t.writeSel kind (pageBase kind i) n w = r) :
        exec (.tallySelectWrite port p) s = .next (r.1.complete (cmdSlot 0x41 p) r.2) :=
      exec_of_admitsWrite h ((t.writeReg_select _ kind i hn w).trans hr)
    exact ⟨fun h1 => hw (hbad h1), fun h1 h2 h3 => hw (hbound h1 h2 h3), fun h1 h2 => hw (hsame h1 h2)⟩

end Sys2Proof.Machine
end

section
/-!
Critical commands: the steps of Table 4.15 and the counter floors (R49, R91–R95).
-/

namespace Sys2Proof.Machine

/-! ### Arrival -/

/-- Every critical row is one arrival of its opcode. -/
theorem exec_critRow {op : Nat} {row : Fin 16 → Packet → Instr}
    (h : (op, row) ∈ [(0x01, Instr.issuerKeyInstall), (0x02, .issuerKeyRetire), (0x03, .swap), (0x03, .swapCancel), (0x04, .commit),
      (0x08, .keyInstall), (0x09, .keyRetire), (0x0A, .contextCreate), (0x0B, .contextDestroy), (0x0C, .extentGrant),
      (0x0D, .extentRevoke), (0x11, .roleChange), (0x12, .debugUnlock)]) (port : Fin 16) (p : Packet) (s : State) :
    exec (row port p) s = s.arriveCrit op port p := by
  simp only [List.mem_cons, List.not_mem_nil, or_false, Prod.mk.injEq] at h
  rcases h with ⟨rfl, rfl⟩ | ⟨rfl, rfl⟩ | ⟨rfl, rfl⟩ | ⟨rfl, rfl⟩ | ⟨rfl, rfl⟩ | ⟨rfl, rfl⟩ | ⟨rfl, rfl⟩ | ⟨rfl, rfl⟩ |
    ⟨rfl, rfl⟩ | ⟨rfl, rfl⟩ | ⟨rfl, rfl⟩ | ⟨rfl, rfl⟩ | ⟨rfl, rfl⟩ <;> rfl

theorem arriveCrit_of_admits {s t : State} {op : Nat} {port : Fin 16} {p : Packet} (h : s.Admits (critRules op) port p t) :
    s.arriveCrit op port p = .next (t.actCrit (cmdSlot op p)) :=
  congrArg Host.Outcome.next (arrive_of_admits h State.actCrit)

/-- While a floor is being written a command waits. -/
theorem actCrit_of_waits {s t : State} {op : Nat} {port : Fin 16} {p : Packet} (h : s.Admits (critRules op) port p t)
    (hwait : t.cc.floorWait ≠ none) :
    t.actCrit (cmdSlot op p) = { t with cc := { t.cc with behind := t.cc.behind ++ [cmdSlot op p] } } := by
  obtain ⟨v, hv, -⟩ := slot?_of_admits h
  rw [State.actCrit, show t.slot? (cmdSlot op p) = some v from hv]
  exact if_pos (Option.isSome_iff_ne_none.2 hwait)

/-- Else it goes through the steps of Table 4.15. -/
theorem actCrit_of_free {s t : State} {op : Nat} {port : Fin 16} {p : Packet} (h : s.Admits (critRules op) port p t)
    (hfree : t.cc.floorWait = none) : t.actCrit (cmdSlot op p) = t.tryCrit (cmdSlot op p) (p.ofCmd op) := by
  obtain ⟨v, hv, hp⟩ := slot?_of_admits h
  rw [State.actCrit, show t.slot? (cmdSlot op p) = some v from hv]
  refine (if_neg (by simp [hfree])).trans ?_
  rw [show v.pkt = p.ofCmd op from hp]

/-! ### The steps -/

section Steps

variable {t : State} {key : Nat} {p : Packet} {o : CritOp} (hop : critOp (critOf p).op = some o)

include hop in
/-- Step 2 of Table 4.15. -/
theorem tryCrit_of_misshapen (h : critShape t.ep p = false ∨ o.shape (critOf p) = false) :
    t.tryCrit key p = t.complete key stMalformed := by
  unfold State.tryCrit
  dsimp only
  rw [hop]
  exact if_pos (by rcases h with h | h <;> simp [h])

/-- A command that is of the shape of step 2 is looked at from step 3 on. -/
def State.fromIssuer (s : State) (key : Nat) (p : Packet) (o : CritOp) : State :=
  let c := critOf p
  let i := s.issuer c.issuer
  if i.st = 0 then s.authFail c 3 key
  else if critTag i.key p ≠ c.tag then s.authFail c 4 key
  else if c.counter = i.last ∧ i.lastTag = some c.tag then
    (match i.stored with
    | some (st, d) => s.complete key st d
    | none => { s with cc := { s.cc with copies := s.cc.copies ++ [(c.issuer, c.counter, key)] } })
  else if c.counter ≤ i.last then s.authFail c 6 key
  else if i.st = 2 ∨ ccMax < c.counter then (s.postMgr (ccExhausted c.issuer)).authFail c 7 key
  else if bit i.perm o.cls = false then s.complete key stPermission
  else match s.critChecks c o with
    | (s, .inr (step, st)) => s.refuseCrit c step key st
    | (s, .inl k) =>
      if i.floor ≤ c.counter then
          { s with cc := { s.cc with floorWait := some (key, c, k), taken := if c.op = 0x04 then some s.commitEntries else none } }
        else s.critGo key c k

include hop in
theorem tryCrit_of_shape (h1 : critShape t.ep p = true) (h2 : o.shape (critOf p) = true) :
    t.tryCrit key p = t.fromIssuer key p o := by
  unfold State.tryCrit
  dsimp only
  rw [hop]
  refine (if_neg (by simp [h1, h2])).trans ?_
  unfold State.fromIssuer
  rfl

variable (hst : (t.issuer (critOf p).issuer).st ≠ 0) (htag : critTag (t.issuer (critOf p).issuer).key p = (critOf p).tag)

theorem fromIssuer_of_empty (h : (t.issuer (critOf p).issuer).st = 0) : t.fromIssuer key p o = t.authFail (critOf p) 3 key := if_pos h

include hst in
theorem fromIssuer_of_badTag (h : critTag (t.issuer (critOf p).issuer).key p ≠ (critOf p).tag) :
    t.fromIssuer key p o = t.authFail (critOf p) 4 key :=
  (if_neg hst).trans (if_pos h)

include hst htag in
/-- A copy of the last accepted command (R94). -/
theorem fromIssuer_of_copy (hctr : (critOf p).counter = (t.issuer (critOf p).issuer).last)
    (hlast : (t.issuer (critOf p).issuer).lastTag = some (critOf p).tag) : t.fromIssuer key p o =
      match (t.issuer (critOf p).issuer).stored with
      | some (st, d) => t.complete key st d
      | none => { t with cc := { t.cc with copies := t.cc.copies ++ [((critOf p).issuer, (critOf p).counter, key)] } } := by
  unfold State.fromIssuer
  exact (if_neg hst).trans ((if_neg (not_not.2 htag)).trans (if_pos ⟨hctr, hlast⟩))

include hst htag in
theorem fromIssuer_of_old (hctr : (critOf p).counter ≤ (t.issuer (critOf p).issuer).last)
    (hno : ¬((critOf p).counter = (t.issuer (critOf p).issuer).last ∧
      (t.issuer (critOf p).issuer).lastTag = some (critOf p).tag)) : t.fromIssuer key p o = t.authFail (critOf p) 6 key := by
  unfold State.fromIssuer
  exact (if_neg hst).trans ((if_neg (not_not.2 htag)).trans ((if_neg hno).trans (if_pos hctr)))

variable (hnew : (t.issuer (critOf p).issuer).last < (critOf p).counter)

include hst htag hnew in
theorem fromIssuer_of_exhausted (h : (t.issuer (critOf p).issuer).st = 2 ∨ ccMax < (critOf p).counter) :
    t.fromIssuer key p o = (t.postMgr (ccExhausted (critOf p).issuer)).authFail (critOf p) 7 key := by
  unfold State.fromIssuer
  exact (if_neg hst).trans ((if_neg (not_not.2 htag)).trans ((if_neg fun h => absurd h.1 (Nat.ne_of_gt hnew)).trans
    ((if_neg (Nat.not_le.2 hnew)).trans (if_pos h))))

variable (hgood : (t.issuer (critOf p).issuer).st ≠ 2) (hmax : (critOf p).counter ≤ ccMax)

include hst htag hnew hgood hmax in
theorem fromIssuer_of_noPermission (h : bit (t.issuer (critOf p).issuer).perm o.cls = false) :
    t.fromIssuer key p o = t.complete key stPermission := by
  unfold State.fromIssuer
  exact (if_neg hst).trans ((if_neg (not_not.2 htag)).trans ((if_neg fun h => absurd h.1 (Nat.ne_of_gt hnew)).trans
    ((if_neg (Nat.not_le.2 hnew)).trans ((if_neg (not_or.2 ⟨hgood, Nat.not_lt.2 hmax⟩)).trans (if_pos h)))))

variable (hperm : bit (t.issuer (critOf p).issuer).perm o.cls = true)

include hst htag hnew hgood hmax hperm in
/-- Steps 9 and 10 decide the rest. -/
theorem fromIssuer_of_permitted : t.fromIssuer key p o = match t.critChecks (critOf p) o with
    | (s, .inr (step, st)) => s.refuseCrit (critOf p) step key st
    | (s, .inl k) =>
      if (t.issuer (critOf p).issuer).floor ≤ (critOf p).counter then
          { s with cc := { s.cc with
            floorWait := some (key, critOf p, k), taken := if (critOf p).op = 0x04 then some s.commitEntries else none } }
        else s.critGo key (critOf p) k := by
  unfold State.fromIssuer
  exact (if_neg hst).trans ((if_neg (not_not.2 htag)).trans ((if_neg fun h => absurd h.1 (Nat.ne_of_gt hnew)).trans
    ((if_neg (Nat.not_le.2 hnew)).trans ((if_neg (not_or.2 ⟨hgood, Nat.not_lt.2 hmax⟩)).trans
      (if_neg (by rw [hperm]; decide))))))

end Steps

/-! ### Refusals keep the issuers -/

theorem issuer_complete (s : State) (key st : Nat) (d : List Byte) (n : Nat) : (s.complete key st d).issuer n = s.issuer n := by
  simp [State.issuer]

theorem issuer_postMgr (s : State) (r : Record) (n : Nat) : (s.postMgr r).issuer n = s.issuer n := by
  simp [State.issuer]

theorem issuer_authFail (s : State) (c : Crit) (step key n : Nat) : (s.authFail c step key).issuer n = s.issuer n := by
  unfold State.authFail
  dsimp only
  rw [issuer_complete, issuer_postMgr]
  rfl

/-- Settles O26: each refusal at its step. -/
theorem criticalStepsRefuse : Obligations.CriticalStepsRefuse := by
  intro s t op port p o row hrow h c k i
  have hexec : exec (row port p) s = .next (t.actCrit k) := (exec_critRow hrow port p s).trans (arriveCrit_of_admits h)
  refine ⟨fun hwait => hexec.trans (congrArg _ (actCrit_of_waits h hwait)), fun hfree hop hc => ?_, fun u n step st d =>
    ⟨issuer_authFail .., (issuer_authFail ..).trans (issuer_postMgr ..), issuer_complete ..⟩⟩
  have htry : exec (row port p) s = .next (t.tryCrit k (p.ofCmd op)) := hexec.trans (congrArg _ (actCrit_of_free h hfree))
  have hop : critOp (critOf (p.ofCmd op)).op = some o := (congrArg critOp hc).trans hop
  refine ⟨fun hbad => htry.trans (congrArg _ (tryCrit_of_misshapen hop hbad)), fun hshape hown => ?_⟩
  have hissuer : exec (row port p) s = .next (t.fromIssuer k (p.ofCmd op) o) :=
    htry.trans (congrArg _ (tryCrit_of_shape hop hshape hown))
  refine ⟨fun hst => hissuer.trans (congrArg _ (fromIssuer_of_empty hst)),
    fun hst htag => hissuer.trans (congrArg _ (fromIssuer_of_badTag hst htag)),
    fun hst htag => ⟨fun st d hctr hlast hstored => ?_, fun hctr hlast hstored => ?_, fun hctr hno => ?_, fun hnew hex => ?_,
      fun hnew hgood hmax hperm => ?_, fun hnew hgood hmax hperm u step st hchecks => ?_⟩⟩
  · rw [hissuer, fromIssuer_of_copy hst htag hctr hlast, show (t.issuer (critOf (p.ofCmd op)).issuer).stored = _ from hstored] <;> rfl
  · rw [hissuer, fromIssuer_of_copy hst htag hctr hlast, show (t.issuer (critOf (p.ofCmd op)).issuer).stored = _ from hstored] <;> rfl
  · exact hissuer.trans (congrArg _ (fromIssuer_of_old hst htag hctr hno))
  · exact hissuer.trans (congrArg _ (fromIssuer_of_exhausted hst htag hnew hex))
  · exact hissuer.trans (congrArg _ (fromIssuer_of_noPermission hst htag hnew hgood hmax hperm))
  · have hrefuse : exec (row port p) s = .next (u.refuseCrit c step k st) := by
      rw [hissuer, fromIssuer_of_permitted hst htag hnew hgood hmax hperm,
        show t.critChecks (critOf (p.ofCmd op)) o = _ from hchecks] <;> rfl
    exact ⟨fun hne => hrefuse.trans (congrArg _ (if_neg hne)), fun heq => hrefuse.trans (congrArg _ (if_pos heq))⟩

/-! ### Acceptance -/

/-- A command that passes steps 2 to 10 meets its issuer's floor (R49). -/
theorem exec_of_passes {s t u : State} {op : Nat} {port : Fin 16} {p : Packet} {o : CritOp} {k : Nat} {row : Fin 16 → Packet → Instr}
    (hrow : exec (row port p) s = s.arriveCrit op port p) (h : s.PassesCrit (critRules op) op port p o t)
    (hchecks : t.critChecks (critIn op p) o = (u, .inl k)) :
    exec (row port p) s = .next (if (t.issuer (critIn op p).issuer).floor ≤ (critIn op p).counter then
      { u with cc := { u.cc with
        floorWait := some (cmdSlot op p, critIn op p, k), taken := if op = 0x04 then some u.commitEntries else none } }
      else u.critGo (cmdSlot op p) (critIn op p) k) := by
  obtain ⟨hadmits, hfree, hop, hc, hshape, hown, hst, htag, hnew, hmax, hperm⟩ := h
  have hop' : critOp (critOf (p.ofCmd op)).op = some o := (congrArg critOp hc).trans hop
  have hst' : (t.issuer (critOf (p.ofCmd op)).issuer).st = 1 := hst
  rw [hrow, arriveCrit_of_admits hadmits, actCrit_of_free hadmits hfree, tryCrit_of_shape hop' hshape hown,
    fromIssuer_of_permitted (by rw [hst']; decide) htag hnew (by rw [hst']; decide) hmax hperm,
    show t.critChecks (critOf (p.ofCmd op)) o = _ from hchecks, show (critOf (p.ofCmd op)).op = op from hc] <;> rfl

/-- Below the warning of R93 a counter rises without a record. -/
theorem counterRose_of_low (s : State) (n was : Nat) {now : Nat} (h : now ≤ ccMax - 2 ^ 32) : s.counterRose n was now = s := by
  have hlow : ¬ccMax ≤ now := by
    have : ccMax - 2 ^ 32 < ccMax := by decide
    omega
  unfold State.counterRose
  dsimp only
  rw [if_neg (fun hx : was ≤ ccMax - 2 ^ 32 ∧ ccMax - 2 ^ 32 < now => absurd h (Nat.not_le.2 hx.2)), if_neg hlow]

/-- An accepted command below the warning acts, or is armed for its tick, with its counter taken (R92, R94, R459). -/
theorem critGo_of_low {u : State} {c : Crit} {o : CritOp} (slot k : Nat) (hop : critOp c.op = some o)
    (hlow : c.counter ≤ ccMax - 2 ^ 32) : u.critGo slot c k =
      if c.exec = 0 ∨ c.op = 0x03 then o.act (u.counts c) c k (c.ref slot)
      else
        State.critDone { o.hold (u.counts c) c k with
          cc := { (o.hold (u.counts c) c k).cc with
            armed := (o.hold (u.counts c) c k).cc.armed ++ [{ tick := c.exec, cmd := c, gen := leNat (o.data ((u.counts c).projected c) c) }] } }
          (c.ref slot) stOk (o.data ((u.counts c).projected c) c) := by
  have hnot : ¬ccMax ≤ c.counter := by
    have : ccMax - 2 ^ 32 < ccMax := by decide
    omega
  unfold State.critGo
  dsimp only
  rw [counterRose_of_low _ _ _ hlow, hop, if_neg hnot, if_pos rfl] <;> rfl

theorem counts_issuer (u : State) (c : Crit) (n : Nat) : (u.counts c).issuer n =
    if n = c.issuer then { u.issuer c.issuer with last := c.counter, lastTag := some c.tag, stored := none, acting := true }
    else u.issuer n := by
  unfold State.counts State.setIssuer
  exact tblGet_put ..

/-- Settles O27: the floor decides between acting and waiting, and its write between acting and a refusal. -/
theorem criticalCountersAdvance : Obligations.CriticalCountersAdvance := by
  refine ⟨fun s t u op port p o k row hrow h hchecks => ⟨fun hlow => ?_, fun hhigh => ?_⟩, fun s slot k c hwait => ⟨?_, ?_, fun n => ?_⟩,
    fun u c o slot k hop _ hlow => ⟨fun hnow => ?_, fun hexec hnot => ?_, ?_, ?_, fun n hn => ?_⟩⟩
  · exact (exec_of_passes (exec_critRow hrow port p s) h hchecks).trans (congrArg _ (if_neg (Nat.not_le.2 hlow)))
  · exact (exec_of_passes (exec_critRow hrow port p s) h hchecks).trans (congrArg _ (if_pos hhigh))
  · show execCounterFloorWritten false s = _
    unfold execCounterFloorWritten
    rw [hwait] <;> rfl
  · show execCounterFloorWritten true s = _
    unfold execCounterFloorWritten
    rw [hwait] <;> rfl
  · rw [issuer_complete]
    rfl
  · rw [critGo_of_low slot k hop hlow, if_pos hnow]
  · rw [critGo_of_low slot k hop hlow, if_neg (not_or.2 ⟨hexec, hnot⟩)]
  · rw [counts_issuer, if_pos rfl]
  · rw [counts_issuer, if_pos rfl]
  · rw [counts_issuer, if_neg hn]

end Sys2Proof.Machine
end

section
/-!
What a report leaves: an event counted, a PAGE_EVENT bit, a record posted change registers, tallies and rings, and nothing else; and
what a completion leaves of the extents and the lookaside.
-/

namespace Sys2Proof.Machine

/-! ### Reports -/

/-- The state without what reports change: the registers, the tallies and the event rings. -/
def State.quiet (s : State) : State := { s with xlt := { s.xlt with rings := [] }, regs := [], tly := {} }

@[simp] theorem quiet_setReg (s : State) (a : Nat) (w : Word) : (s.setReg a w).quiet = s.quiet := rfl
@[simp] theorem quiet_bump (s : State) (a n c : Nat) : (s.bump a n c).quiet = s.quiet := rfl
@[simp] theorem quiet_setRing (s : State) (n : Nat) (r : Ring) : (s.setRing n r).quiet = s.quiet := rfl

@[simp] theorem quiet_tally (s : State) (k : PageKind) (i e q n : Nat) (c : Option Nat) : (s.tally k i e q n c).quiet = s.quiet := by
  unfold State.tally
  (repeat' split) <;> rfl

@[simp] theorem quiet_dropRecord (s : State) (n : Nat) : (s.dropRecord n).quiet = s.quiet := by
  unfold State.dropRecord
  dsimp only
  (repeat' split) <;> exact (quiet_setRing ..).trans (quiet_tally ..)

@[simp] theorem quiet_enqueue (s : State) (n : Nat) (r : Record) : (s.enqueue n r).quiet = s.quiet := by
  unfold State.enqueue
  dsimp only
  (repeat' split) <;> simp

@[simp] theorem quiet_raise (s : State) (k : PageKind) (i b : Nat) : (s.raise k i b).quiet = s.quiet := by
  unfold State.raise
  dsimp only
  (repeat' split) <;> simp

@[simp] theorem quiet_post (s : State) (n : Nat) (r : Record) : (s.post n r).quiet = s.quiet := by
  unfold State.post
  dsimp only
  split <;> simp

@[simp] theorem quiet_postMgr (s : State) (r : Record) : (s.postMgr r).quiet = s.quiet := quiet_post ..
@[simp] theorem quiet_postCtx (s : State) (c : Nat) (r : Record) : (s.postCtx c r).quiet = s.quiet := quiet_post ..

/-! ### Completions -/

/-- The state without what sending and reports change: registers, tallies, rings and the keys' counters; queues, shapers, inbound slots
and done records; and who waits for a slot that is freed. -/
def State.calm (s : State) : State :=
  { s with
    xlt := { s.xlt with rings := [], invals := [] }, regs := [], tly := {}, out := []
    ten := { s.ten with keys := [], roster := [], own := none, previous := [] }
    rtr := { s.rtr with queues := [], beam := [], depthMax := [], held := [] }
    qos := { s.qos with hosts := [] }
    kvs := { s.kvs with moves := [] }
    txn := { s.txn with slots := [], inUsed := 0, dbufUsed := 0, quotaHeld := 0, records := [], sources := [] } }

theorem calm_of_quiet {s t : State} (h : s.quiet = t.quiet) : s.calm = t.calm := by
  show s.quiet.calm = t.quiet.calm
  rw [h]

@[simp] theorem calm_setReg (s : State) (a : Nat) (w : Word) : (s.setReg a w).calm = s.calm := rfl
@[simp] theorem calm_bump (s : State) (a n c : Nat) : (s.bump a n c).calm = s.calm := rfl
@[simp] theorem calm_emit (s : State) (o : Out) : (s.emit o).calm = s.calm := rfl
@[simp] theorem calm_setKey (s : State) (n : Nat) (k : KeySlot) : (s.setKey n k).calm = s.calm := rfl
@[simp] theorem calm_setSlot (s : State) (k : Nat) (v : InSlot) : (s.setSlot k v).calm = s.calm := rfl
@[simp] theorem calm_holdAtHost (s : State) (i : Nat) (h : HostRec) (k : Nat) (v : InSlot) (l : List Packet) :
    (s.holdAtHost i h k v l).calm = s.calm := rfl
@[simp] theorem calm_tally (s : State) (k : PageKind) (i e q n : Nat) (c : Option Nat) : (s.tally k i e q n c).calm = s.calm :=
  calm_of_quiet (quiet_tally ..)
@[simp] theorem calm_raise (s : State) (k : PageKind) (i b : Nat) : (s.raise k i b).calm = s.calm := calm_of_quiet (quiet_raise ..)
@[simp] theorem calm_post (s : State) (n : Nat) (r : Record) : (s.post n r).calm = s.calm := calm_of_quiet (quiet_post ..)
@[simp] theorem calm_postMgr (s : State) (r : Record) : (s.postMgr r).calm = s.calm := calm_post ..
@[simp] theorem calm_postCtx (s : State) (c : Nat) (r : Record) : (s.postCtx c r).calm = s.calm := calm_post ..

@[simp] theorem calm_toQueue (s : State) (p q : Nat) (x : Queued) : (s.toQueue p q x).calm = s.calm := by
  unfold State.toQueue
  dsimp only
  split <;> rfl

@[simp] theorem calm_inject (s : State) (p : Nat) (x : Queued) (b : Bool) : (s.inject p x b).calm = s.calm := by
  unfold State.inject
  dsimp only
  split
  · rfl
  · exact calm_toQueue ..

@[simp] theorem calm_routeDrop (s : State) (p : Packet) (h : Bool) (o : Option Nat) : (s.routeDrop p h o).calm = s.calm := by
  unfold State.routeDrop
  simp

@[simp] theorem calm_send (s : State) (p : Packet) (c : Option Nat) (b : Bool) : (s.send p c b).1.calm = s.calm := by
  unfold State.send
  dsimp only
  (repeat' split) <;> simp

@[simp] theorem calm_useCounter (s : State) (n : Nat) (d : Bool) : (s.useCounter n d).calm = s.calm := by
  unfold State.useCounter
  dsimp only
  (repeat' split) <;> simp

@[simp] theorem calm_seal (s : State) (k : KeyRef) (d : Bool) (p : Packet) : (s.seal k d p).1.calm = s.calm := by
  unfold State.seal
  dsimp only
  split
  · rfl
  · exact calm_useCounter ..
  · (repeat' split) <;> rfl

@[simp] theorem calm_chargeHost (s : State) (e n : Nat) : (s.chargeHost e n).calm = s.calm := by
  unfold State.chargeHost
  split <;> rfl

@[simp] theorem calm_sendCompletion (s : State) (p : Packet) (k : KeyRef) (c : Option Nat) : (s.sendCompletion p k c).calm = s.calm := by
  simp [State.sendCompletion]

@[simp] theorem calm_keepRecord (s : State) (v : InSlot) (st : Nat) (d : List Byte) : (s.keepRecord v st d).calm = s.calm := by
  unfold State.keepRecord
  split
  · dsimp only
    split
    · exact calm_raise ..
    · rfl
  · rfl

@[simp] theorem calm_freeSlot (s : State) (k : Nat) : (s.freeSlot k).calm = s.calm := by
  unfold State.freeSlot
  split <;> rfl

theorem calm_sendAll (l : List Packet) (k : KeyRef) (c : Option Nat) (s : State) :
    (l.foldl (fun s p => s.sendCompletion p k c) s).calm = s.calm :=
  foldl_keeps State.calm (g := fun s p => State.sendCompletion s p k c) (fun s p => calm_sendCompletion s p k c) l s

/-- A completion sent changes nothing else. -/
@[simp] theorem calm_complete (s : State) (k st : Nat) (d : List Byte) : (s.complete k st d).calm = s.calm := by
  unfold State.complete
  split
  · rfl
  · dsimp only
    (repeat' split) <;> simp [calm_sendAll]

/-! ### Contexts and extents -/

theorem ctx_of_calm {s t : State} (h : s.calm = t.calm) (c : Nat) : s.ctx c = t.ctx c := by
  show s.calm.ctx c = t.calm.ctx c
  rw [h]

theorem tlb_of_calm {s t : State} (h : s.calm = t.calm) : s.xlt.tlb = t.xlt.tlb := by
  show s.calm.xlt.tlb = t.calm.xlt.tlb
  rw [h]

end Sys2Proof.Machine
end

section
/-!
A context that stops work (Table 18.7, step 2): what its rods, partitions, transfers, calls and jobs leave of the state.
-/

namespace Sys2Proof.Machine

/-! ### Tiles under check -/

/-- The state without rods, frames, streams and transfers, and without what reports change. -/
def State.offTile (s : State) : State :=
  { s with xlt := { s.xlt with rings := [] }, regs := [], tly := {}, rods := [], frames := [], streams := [], movers := [] }

theorem offTile_of_quiet {s t : State} (h : s.quiet = t.quiet) : s.offTile = t.offTile := by
  show s.quiet.offTile = t.quiet.offTile
  rw [h]

@[simp] theorem offTile_setReg (s : State) (a : Nat) (w : Word) : (s.setReg a w).offTile = s.offTile := rfl
@[simp] theorem offTile_bump (s : State) (a n c : Nat) : (s.bump a n c).offTile = s.offTile := rfl
@[simp] theorem offTile_raise (s : State) (k : PageKind) (i b : Nat) : (s.raise k i b).offTile = s.offTile :=
  offTile_of_quiet (quiet_raise ..)
@[simp] theorem offTile_setRod (s : State) (i : Nat) (r : Rod) : (s.setRod i r).offTile = s.offTile := rfl
@[simp] theorem offTile_setFrame (s : State) (f : Nat) (v : Frame) : (s.setFrame f v).offTile = s.offTile := rfl
@[simp] theorem offTile_setStream (s : State) (j i : Nat) (v : StreamSt) : (s.setStream j i v).offTile = s.offTile := rfl
@[simp] theorem offTile_setMover (s : State) (m : Nat) (v : Mover) : (s.setMover m v).offTile = s.offTile := rfl
@[simp] theorem offTile_setCheck (s : State) (f : Nat) (k : Option Check) : (s.setCheck f k).offTile = s.offTile := rfl
@[simp] theorem offTile_putElement (s : State) (j i n f a : Nat) (d : List Byte) (p : Bool) :
    (s.putElement j i n f a d p).offTile = s.offTile := rfl

@[simp] theorem offTile_fbOpen (s : State) (f c o n : Nat) : (s.fbOpen f c o n).1.offTile = s.offTile := by
  unfold State.fbOpen
  split
  · rfl
  · dsimp only
    (repeat' split) <;> rfl

@[simp] theorem offTile_ringOpen (s : State) (j i n : Nat) : (s.ringOpen j i n).1.offTile = s.offTile := by
  unfold State.ringOpen
  split
  · rfl
  · exact offTile_fbOpen ..

@[simp] theorem offTile_perform (s : State) (f : Nat) (w : OutWrite) : (s.perform f w).offTile = s.offTile := by
  unfold State.perform
  split
  · rfl
  · rename_i j i n d p
    have h := offTile_ringOpen s j i n
    split <;> rename_i heq
    · rw [offTile_putElement]
      rwa [heq] at h
    · rwa [heq] at h

@[simp] theorem offTile_produce (s : State) (f n : Nat) : (s.produce f n).offTile = s.offTile := by
  unfold State.produce
  split
  · rfl
  · exact foldl_keeps State.offTile (g := fun s (w : Nat × OutWrite) => State.perform s f w.2)
      (fun s w => offTile_perform s f w.2) _ s

@[simp] theorem offTile_follow (s : State) (f n : Nat) : (s.follow f n).offTile = s.offTile := by
  unfold State.follow
  split
  · rfl
  · split
    · rfl
    · simp

@[simp] theorem offTile_followAll (s : State) (f : Nat) : (s.followAll f).offTile = s.offTile := by
  unfold State.followAll
  split
  · rfl
  · simp

@[simp] theorem offTile_freeSpare (s : State) (f : Nat) : (s.freeSpare f).offTile = s.offTile := by
  unfold State.freeSpare
  split <;> rfl

@[simp] theorem offTile_returnThird (s : State) (f p : Nat) : (s.returnThird f p).offTile = s.offTile := by
  unfold State.returnThird
  dsimp only
  split <;> rfl

@[simp] theorem offTile_abandonCheck (s : State) (f : Nat) : (s.abandonCheck f).offTile = s.offTile := by
  unfold State.abandonCheck
  split
  · rfl
  · dsimp only
    split <;> simp

@[simp] theorem offTile_endCheck (s : State) (f : Nat) : (s.endCheck f).offTile = s.offTile := by
  simp [State.endCheck]

@[simp] theorem offTile_stopChecked (s : State) (i : Nat) : (s.stopChecked i).offTile = s.offTile := by
  unfold State.stopChecked
  dsimp only
  (repeat' split) <;> simp

@[simp] theorem offTile_clearRods (s : State) (c : Nat) : (s.clearRods c).offTile = s.offTile :=
  foldl_keeps State.offTile (g := fun s (r : Nat × Rod) => State.stopChecked s r.1) (fun s r => offTile_stopChecked s r.1)
    (s.rods.filter fun r => r.2.ctx == c) s

@[simp] theorem offTile_zeroPartitions (s : State) (c : Nat) : (s.zeroPartitions c).offTile = s.offTile := by
  unfold State.zeroPartitions
  refine foldl_keeps State.offTile (fun s f => ?_) _ _
  split <;> rfl

@[simp] theorem offTile_discardAt (s : State) (m : Nat) (g : Xfer → Bool) : (s.discardAt m g).offTile = s.offTile := by
  unfold State.discardAt
  dsimp only
  (repeat' split) <;> simp

@[simp] theorem offTile_discardAhead (s : State) (g : Xfer → Bool) : (s.discardAhead g).offTile = s.offTile :=
  foldl_keeps State.offTile (g := fun s m => State.discardAt s m g) (fun s m => offTile_discardAt s m g) _ s

/-! ### The contexts stand -/

/-- The contexts, the phase and the time. -/
def State.tenants (s : State) : Tbl Context × Boot × Nat := (s.ten.ctxs, s.boot, s.time)

theorem tenants_of_offTile {s t : State} (h : s.offTile = t.offTile) : s.tenants = t.tenants := by
  show s.offTile.tenants = t.offTile.tenants
  rw [h]

theorem tenants_of_calm {s t : State} (h : s.calm = t.calm) : s.tenants = t.tenants := by
  show s.calm.tenants = t.calm.tenants
  rw [h]

theorem ctx_of_tenants {s t : State} (h : s.tenants = t.tenants) (c : Nat) : s.ctx c = t.ctx c := by
  have hctxs : s.ten.ctxs = t.ten.ctxs := congrArg (fun x => x.1) h
  have hboot : s.boot = t.boot := congrArg (fun x => x.2.1) h
  rw [State.ctx, State.ctx, hctxs, hboot]

theorem time_of_tenants {s t : State} (h : s.tenants = t.tenants) : s.time = t.time := congrArg (fun x => x.2.2) h

theorem tenants_ite {c : Prop} [Decidable c] {a b s : State} (ha : a.tenants = s.tenants) (hb : b.tenants = s.tenants) :
    (if c then a else b).tenants = s.tenants := by
  split <;> assumption

theorem tenants_abortCalls (s : State) (f : Fn) (st : Nat) : (s.abortCalls f st).tenants = s.tenants := by
  refine foldl_keeps State.tenants (g := fun s c => State.abortCall s c st) (fun s c => ?_) _ s
  exact (tenants_of_calm (calm_complete ..)).trans (tenants_ite rfl rfl)

theorem tenants_dropJob (s : State) (j : Nat) : (s.dropJob j).tenants = s.tenants := by
  unfold State.dropJob
  split
  · rfl
  · dsimp only
    split
    · exact (tenants_of_calm (calm_complete ..)).trans rfl
    · rfl

theorem tenants_copyBoard (s : State) : s.copyBoard.tenants = s.tenants := by
  unfold State.copyBoard
  exact (foldl_keeps State.tenants (g := fun (s : State) o => s.setReg (0x20818 + 0xC * (1 - _) + o) _) (fun _ _ => rfl) _ _).trans rfl

theorem tenants_dropWindow (s : State) (w : Nat × Nat) : (s.dropWindow w).tenants = s.tenants := by
  unfold State.dropWindow
  dsimp only
  split <;> rfl

theorem tenants_armBoard (s : State) (t : Nat) : (s.armBoard t).tenants = s.tenants := by
  unfold State.armBoard
  split <;> rfl

theorem tenants_armSwap (s : State) (t : Nat) : (s.armSwap t).tenants = s.tenants := by
  unfold State.armSwap
  split <;> rfl

theorem tenants_putShadows (l : List (Nat × Nat)) (s : State) :
    (l.foldl (fun s e => s.putShadow e.1 (0x060 + 16 * e.2) 0x3E8) s).tenants = s.tenants :=
  foldl_keeps State.tenants (g := fun s e => State.putShadow s e.1 (0x060 + 16 * e.2) 0x3E8) (fun _ _ => rfl) l s

theorem tenants_loaderClear (s : State) : s.loaderClear.tenants = s.tenants := by
  unfold State.loaderClear
  extract_lets gone busyE busyW entries windows left s1 live s2 s3
  have h1 : s1.tenants = s.tenants := rfl
  have h2 : s2.tenants = s1.tenants := tenants_ite rfl rfl
  have h3 : s3.tenants = s2.tenants := tenants_putShadows ..
  rw [← h1, ← h2, ← h3]
  clear_value s3
  show State.tenants (if windows.isEmpty = true then if live = true then (s3.tickBefore 0).1.armSwap (s3.tickBefore 0).2 else
    (s3.tickBefore 0).1 else _) = _
  refine tenants_ite ?_ ((tenants_armBoard _ _).trans ((foldl_keeps State.tenants tenants_dropWindow _ _).trans ?_))
  · exact tenants_ite (tenants_armSwap ..) rfl
  · exact (tenants_copyBoard _).trans (tenants_ite (tenants_armSwap ..) rfl)

theorem tenants_releaseHere (s : State) (l : Load) : (s.releaseHere l).tenants = s.tenants := by
  unfold State.releaseHere
  dsimp only
  exact tenants_ite rfl ((tenants_loaderClear _).trans rfl)

/-- A context's work stopped leaves the contexts themselves. -/
theorem tenants_stopWork (s : State) (c : Nat) : (s.stopWork c).tenants = s.tenants := by
  unfold State.stopWork
  extract_lets s1 s2 s3 s4 s5
  have h1 : s1.tenants = s.tenants :=
    tenants_of_offTile ((offTile_discardAhead ..).trans ((offTile_zeroPartitions ..).trans (offTile_clearRods ..)))
  have h3 : s3.tenants = s2.tenants := foldl_keeps State.tenants (g := fun s (f : Nat × Fn) => State.abortCalls s f.2 stContextGone)
    (fun s f => tenants_abortCalls s f.2 _) _ _
  have h4 : s4.tenants = s3.tenants :=
    foldl_keeps State.tenants (g := fun s (j : Nat × Job) => State.dropJob s j.1) (fun s j => tenants_dropJob s j.1) _ _
  have h5 : s5.tenants = s4.tenants := foldl_keeps State.tenants tenants_releaseHere _ _
  have h2 : s2.tenants = s1.tenants := rfl
  clear_value s1 s2 s3 s4 s5
  exact h5.trans (h4.trans (h3.trans (h2.trans h1)))

end Sys2Proof.Machine
end

section
/-!
Accepted critical commands on keys, contexts, swaps and commits (R84, R85, R89, R96, R402, R408, R409, R423).
-/

namespace Sys2Proof.Machine

/-! ### An accepted command (R92–R95, R459) -/

/-- What an accepted command does once its counter is taken: it acts, or with a tick is armed and completes. -/
def CritOp.takes (o : CritOp) (v : State) (c : Crit) (k slot : Nat) : State :=
  if c.exec = 0 ∨ c.op = 0x03 then o.act v c k (c.ref slot)
  else
    let d := o.data (v.projected c) c
    let h := o.hold v c k
    State.critDone { h with cc := { h.cc with armed := h.cc.armed ++ [{ tick := c.exec, cmd := c, gen := leNat d }] } } (c.ref slot) stOk d

theorem CritOp.takes_now {o : CritOp} {v : State} {c : Crit} {k slot : Nat} (h : c.exec = 0 ∨ c.op = 0x03) :
    o.takes v c k slot = o.act v c k (c.ref slot) := if_pos h

theorem CritOp.takes_armed {o : CritOp} {v : State} {c : Crit} {k slot : Nat} (h : c.exec ≠ 0) (hop : c.op ≠ 0x03) :
    o.takes v c k slot = State.critDone { o.hold v c k with
      cc := { (o.hold v c k).cc with
        armed := (o.hold v c k).cc.armed ++ [{ tick := c.exec, cmd := c, gen := leNat (o.data (v.projected c) c) }] } }
      (c.ref slot) stOk (o.data (v.projected c) c) := if_neg (not_or.2 ⟨h, hop⟩)

/-- A command whose opcode allows no tick names none when it passes step 9. -/
theorem exec_eq_zero_of_checks {s u : State} {c : Crit} {o : CritOp} {k : Nat} (h : s.critChecks c o = (u, .inl k))
    (hno : o.tickOk c = false) : c.exec = 0 := by
  by_contra hexec
  rw [State.critChecks, if_pos ⟨hexec, hno⟩] at h
  exact Sum.noConfusion rfl rfl (heq_of_eq (congrArg Prod.snd h))

/-- The checks change at most the counter of wrapped keys (R407). -/
theorem critChecks_state {s u : State} {c : Crit} {o : CritOp} {r : Nat ⊕ Nat × Nat} (h : s.critChecks c o = (u, r)) :
    u = s ∨ u = s.advanceWrap c.ctx := by
  unfold State.critChecks at h
  dsimp only at h
  (repeat' split at h) <;> first | exact Or.inl (congrArg Prod.fst h).symm | exact Or.inr (congrArg Prod.fst h).symm

/-- A command accepted below its issuer's floor goes through every step and acts. -/
theorem tryCrit_of_accepts {s v : State} {r : Rules} {op : Nat} {port : Fin 16} {p : Packet} {k : Nat} {o : CritOp}
    (h : s.AcceptsCrit r op port p v k) (hop : critOp op = some o) :
    ∃ t, s.Admits r port p t ∧ t.cc.floorWait = none ∧ (∃ u, t.critChecks (critIn op p) o = (u, .inl k) ∧ v = u.counts (critIn op p)) ∧
      (critIn op p).op = op ∧ t.tryCrit (cmdSlot op p) (p.ofCmd op) = o.takes v (critIn op p) k (cmdSlot op p) := by
  obtain ⟨o', t, u, ⟨hadmits, hfree, hop', hc, hshape, hown, hst, htag, hnew, hmax, hperm⟩, hchecks, hfloor, hlow, rfl⟩ := h
  obtain rfl : o' = o := Option.some.inj (hop'.symm.trans hop)
  have hop'' : critOp (critOf (p.ofCmd op)).op = some o' := (congrArg critOp hc).trans hop
  have hst' : (t.issuer (critOf (p.ofCmd op)).issuer).st = 1 := hst
  refine ⟨t, hadmits, hfree, ⟨u, hchecks, rfl⟩, hc, ?_⟩
  rw [tryCrit_of_shape hop'' hshape hown,
    fromIssuer_of_permitted (by rw [hst']; decide) htag hnew (by rw [hst']; decide) hmax hperm,
    show t.critChecks (critOf (p.ofCmd op)) o' = _ from hchecks]
  refine (if_neg (Nat.not_le.2 hfloor)).trans ?_
  exact critGo_of_low (cmdSlot op p) k hop'' hlow

/-- The same for the rows of the critical opcodes. -/
theorem exec_of_accepts {s v : State} {op : Nat} {port : Fin 16} {p : Packet} {k : Nat} {o : CritOp}
    (h : s.AcceptsCrit (critRules op) op port p v k) (hop : critOp op = some o) :
    (critIn op p).op = op ∧ (o.tickOk (critIn op p) = false → (critIn op p).exec = 0) ∧
      s.arriveCrit op port p = .next (o.takes v (critIn op p) k (cmdSlot op p)) := by
  obtain ⟨t, hadmits, hfree, ⟨u, hchecks, -⟩, hc, htry⟩ := tryCrit_of_accepts h hop
  exact ⟨hc, exec_eq_zero_of_checks hchecks, by rw [arriveCrit_of_admits hadmits, actCrit_of_free hadmits hfree, htry]⟩

/-- A command that names no tick acts; one that does is armed with what its opcode holds. -/
theorem exec_now_or_armed {s v : State} {op : Nat} {port : Fin 16} {p : Packet} {k : Nat} {o : CritOp}
    (h : s.AcceptsCrit (critRules op) op port p v k) (hop : critOp op = some o) (hswap : op ≠ 0x03) :
    let c := critIn op p
    (c.exec = 0 → s.arriveCrit op port p = .next (o.act v c k (c.ref (cmdSlot op p)))) ∧
    (c.exec ≠ 0 → s.arriveCrit op port p = .next (State.critDone { o.hold v c k with
      cc := { (o.hold v c k).cc with armed := (o.hold v c k).cc.armed ++ [{ tick := c.exec, cmd := c, gen := leNat (o.data (v.projected c) c) }] } }
      (c.ref (cmdSlot op p)) stOk (o.data (v.projected c) c))) := by
  obtain ⟨hc, -, hexec⟩ := exec_of_accepts h hop
  exact ⟨fun h0 => hexec.trans (congrArg _ (CritOp.takes_now (Or.inl h0))),
    fun h1 => hexec.trans (congrArg _ (CritOp.takes_armed h1 (by rwa [hc])))⟩

/-- A command whose opcode allows no tick, and a SWAP with one or without, acts. -/
theorem exec_acts {s v : State} {op : Nat} {port : Fin 16} {p : Packet} {k : Nat} {o : CritOp}
    (h : s.AcceptsCrit (critRules op) op port p v k) (hop : critOp op = some o) (hnone : o.tickOk (critIn op p) = false ∨ op = 0x03) :
    s.arriveCrit op port p = .next (o.act v (critIn op p) k ((critIn op p).ref (cmdSlot op p))) := by
  obtain ⟨hc, hexec, hgo⟩ := exec_of_accepts h hop
  rw [hgo, CritOp.takes_now (hnone.imp hexec hc.trans)]

/-! ### Issuer slots (R96) -/

theorem deriveSelf_cc (s : State) : s.deriveSelf.cc = s.cc := by
  unfold State.deriveSelf State.putRoster State.deriveOwn
  dsimp only
  (repeat' split) <;> rfl

theorem changeIssuer_issuer (v : State) (n : Nat) (i : Issuer) (m : Nat) :
    (v.changeIssuer n i).issuer m = if m = n then i else v.issuer m := by
  have hcc : (v.changeIssuer n i).cc = (v.setIssuer n i).cc := by
    unfold State.changeIssuer
    split
    · exact deriveSelf_cc _
    · rfl
  rw [State.issuer, hcc]
  exact tblGet_put ..

/-! ### Keys and contexts (R409, R423) -/

theorem us_eq (n : Nat) : us n = 1000 * n := Nat.mul_comm ..

theorem setCtx_ctx (s : State) (c : Nat) (x : Context) : (s.setCtx c x).ctx c = x := (tblGet_put ..).trans (if_pos rfl)

/-- An ACTIVE context that is destroyed is QUIESCING by that cause, with the end of its drain. -/
theorem destroyContext_of_active {v : State} {c : Crit} (h : (v.ctx c.ctx).st = .active) : ((v.destroyContext c).ctx c.ctx).st = .quiescing ∧
    ((v.destroyContext c).ctx c.ctx).cause = 1 ∧ ((v.destroyContext c).ctx c.ctx).drainEnd =
      v.time + 1000 * (if field c.body 0 4 = 0 then v.actBits .xlt 0 0x040 15 0 else field c.body 0 4) := by
  have hstop := tenants_stopWork (v.setCtx c.ctx { v.ctx c.ctx with st := .quiescing, cause := 1 }) c.ctx
  have hctx : (v.quiesce c.ctx 1).ctx c.ctx = { v.ctx c.ctx with st := .quiescing, cause := 1 } :=
    (ctx_of_tenants hstop _).trans (setCtx_ctx ..)
  have htime : (v.quiesce c.ctx 1).time = v.time := (time_of_tenants hstop :)
  unfold State.destroyContext
  dsimp only
  rw [if_pos h, setCtx_ctx, hctx, htime, us_eq]
  exact ⟨rfl, rfl, rfl⟩

theorem retireKey_spec (v : State) (n z : Nat) :
    ((v.keySlot n).st = .active → v.retireKey n z = v.setKey n { v.keySlot n with
      st := .retiring, deadline := v.time + 1000 * (if z = 0 then v.actBits .sec 0 0x040 31 16 else z) }) ∧
    ((v.keySlot n).st = .armed → v.retireKey n z = v.zeroize n .empty) ∧
    ((v.keySlot n).st ≠ .active → (v.keySlot n).st ≠ .armed → v.retireKey n z = v) := by
  unfold State.retireKey
  dsimp only
  refine ⟨fun h => ?_, fun h => if_pos h, fun h1 h2 => (if_neg h2).trans (if_neg h1)⟩
  rw [if_neg (by rw [h]; decide), if_pos h, us_eq]

/-- An accepted KEY_RETIRE without a tick acts by the slot's state; one with a tick is armed. -/
theorem keyRetire_acts {s v : State} {port : Fin 16} {p : Packet} {k : Nat} (h : s.AcceptsCrit (critRules 0x09) 0x09 port p v k) :
    let c := critIn 0x09 p
    let end_ := v.time + 1000 * (if field c.body 4 4 = 0 then v.actBits .sec 0 0x040 31 16 else field c.body 4 4)
    let done (x : State) := exec (.keyRetire port p) s = .next (x.critDone (c.ref (cmdSlot 0x09 p)) stOk)
    (c.exec = 0 → (v.keySlot c.slot).st = .active →
      done (v.setKey c.slot { v.keySlot c.slot with st := .retiring, deadline := end_ })) ∧
    (c.exec = 0 → (v.keySlot c.slot).st = .armed → done (v.zeroize c.slot .empty)) ∧
    (c.exec = 0 → (v.keySlot c.slot).st ≠ .active → (v.keySlot c.slot).st ≠ .armed → done v) ∧
    (c.exec ≠ 0 → done { v with cc := { v.cc with armed := v.cc.armed ++ [{ tick := c.exec, cmd := c }] } }) := by
  obtain ⟨hnow, harmed⟩ := exec_now_or_armed h critOp.eq_6 (by decide)
  intro c end_ done
  obtain ⟨hactive, hkey, hother⟩ := retireKey_spec v c.slot (field c.body 4 4)
  have hdone (x : State) (h0 : c.exec = 0) (hx : v.retireKey c.slot (field c.body 4 4) = x) : done x := hx ▸ hnow h0
  exact ⟨fun h0 h1 => hdone _ h0 (hactive h1), fun h0 h1 => hdone _ h0 (hkey h1), fun h0 h1 h2 => hdone _ h0 (hother h1 h2), harmed⟩

/-- An accepted CONTEXT_DESTROY without a tick acts, an ACTIVE context then QUIESCING; one with a tick is armed. -/
theorem contextDestroy_acts {s v : State} {port : Fin 16} {p : Packet} {k : Nat} (h : s.AcceptsCrit (critRules 0x0B) 0x0B port p v k) :
    let c := critIn 0x0B p
    let drain := if field c.body 0 4 = 0 then v.actBits .xlt 0 0x040 15 0 else field c.body 0 4
    (c.exec = 0 → exec (.contextDestroy port p) s = .next ((v.destroyContext c).critDone (c.ref (cmdSlot 0x0B p)) stOk) ∧
      ((v.ctx c.ctx).st = .active → ((v.destroyContext c).ctx c.ctx).st = .quiescing ∧
        ((v.destroyContext c).ctx c.ctx).cause = 1 ∧ ((v.destroyContext c).ctx c.ctx).drainEnd = v.time + 1000 * drain)) ∧
    (c.exec ≠ 0 → exec (.contextDestroy port p) s = .next (State.critDone { v with
      cc := { v.cc with armed := v.cc.armed ++ [{ tick := c.exec, cmd := c }] } } (c.ref (cmdSlot 0x0B p)) stOk)) := by
  obtain ⟨hnow, harmed⟩ := exec_now_or_armed h critOp.eq_8 (by decide)
  have hquiet := destroyContext_of_active (v := v) (c := critIn 0x0B p)
  intro c drain
  exact ⟨fun h0 => ⟨hnow h0, hquiet⟩, harmed⟩

/-- An accepted SWAP arms the swap for its tick, or the next one; a CANCEL disarms it. -/
theorem swap_acts {s v : State} {port : Fin 16} {p : Packet} {k : Nat} (h : s.AcceptsCrit (critRules 0x03) 0x03 port p v k) :
    let c := critIn 0x03 p
    (field c.body 4 4 = 0 → exec (.swap port p) s = .next (State.critDone { v with
      cc := { v.cc with swap := some (field c.body 0 4, if c.exec = 0 then v.tick.count + 1 else c.exec) } }
      (c.ref (cmdSlot 0x03 p)) stOk)) ∧
    (field c.body 4 4 = 1 → exec (.swapCancel port p) s = .next (State.critDone { v with cc := { v.cc with swap := none } }
      (c.ref (cmdSlot 0x03 p)) stOk)) := by
  have hact := exec_acts h critOp.eq_3 (Or.inr rfl)
  dsimp only at hact
  refine ⟨fun h0 => hact.trans ?_, fun h1 => hact.trans ?_⟩
  · rw [if_neg (by rw [h0]; decide)]
  · rw [if_pos h1]

theorem installIssuer_issuer (v : State) (c : Crit) (k : Nat) :
    (v.installIssuer c k).issuer c.target = { st := 1, perm := c.mask, key := k } :=
  (changeIssuer_issuer v c.target { st := 1, perm := c.mask, key := k } c.target).trans (if_pos rfl)

/-- An accepted install makes its slot VALID with its class bits. -/
theorem issuerKeyInstall_acts {s v : State} {port : Fin 16} {p : Packet} {k : Nat}
    (h : s.AcceptsCrit (critRules 0x01) 0x01 port p v k) : let c := critIn 0x01 p
    exec (.issuerKeyInstall port p) s = .next ((v.installIssuer c k).critDone (c.ref (cmdSlot 0x01 p)) stOk) ∧
    (v.installIssuer c k).issuer c.target = { st := 1, perm := c.mask, key := k } := by
  have hact := exec_acts h critOp.eq_1 (Or.inl rfl)
  dsimp only at hact
  exact ⟨hact, installIssuer_issuer ..⟩

/-- An accepted retire empties its slot and no other. -/
theorem issuerKeyRetire_acts {s v : State} {port : Fin 16} {p : Packet} {k : Nat}
    (h : s.AcceptsCrit (critRules 0x02) 0x02 port p v k) : let c := critIn 0x02 p
    exec (.issuerKeyRetire port p) s = .next ((v.changeIssuer c.target {}).critDone (c.ref (cmdSlot 0x02 p)) stOk) ∧
    (v.changeIssuer c.target {}).issuer c.target = {} ∧
    ∀ n, n ≠ c.target → (v.changeIssuer c.target {}).issuer n = v.issuer n := by
  have hact := exec_acts h critOp.eq_2 (Or.inl rfl)
  dsimp only at hact
  exact ⟨hact, (changeIssuer_issuer ..).trans (if_pos rfl), fun n hn => (changeIssuer_issuer ..).trans (if_neg hn)⟩

/-- Settles O28: each accepted command through its row of Table 4.13. -/
theorem keyContextAndSwapCommandsAct : Obligations.KeyContextAndSwapCommandsAct := by
  refine ⟨fun s v port p k => ⟨fun h => ?_, fun h => ?_, fun h => ?_, fun h htaken => ?_⟩,
    fun s v port p k => ⟨fun h => ?_, fun h => ?_, fun h => ?_, fun h => ?_⟩⟩
  · exact issuerKeyInstall_acts h
  · exact issuerKeyRetire_acts h
  · exact swap_acts h
  · have hact := exec_acts h critOp.eq_4 (Or.inl rfl)
    refine ⟨_, hact, rfl, ?_, rfl, rfl, rfl, rfl⟩
    exact congrArg (fun x => Option.getD x v.commitEntries) htaken
  · have hgo := exec_now_or_armed h critOp.eq_5 (by decide)
    exact hgo
  · exact keyRetire_acts h
  · have hgo := exec_now_or_armed h critOp.eq_7 (by decide)
    exact hgo
  · exact contextDestroy_acts h

end Sys2Proof.Machine
end

section
/-!
Accepted extent, firmware, role and debug commands (R43, R111, R112, R114, R421, R422, R427).
-/

namespace Sys2Proof.Machine

/-! ### Reading out of DRAM -/

/-- The state without memory, its controllers and directories, and without what reports and free values change. -/
def State.offMem (s : State) : State :=
  { s with xlt := { s.xlt with rings := [] }, regs := [], tly := {}, mem := [], beads := [], ctl := [], ecc := {}, dir := [], freeCtr := 0 }

theorem offMem_of_quiet {s t : State} (h : s.quiet = t.quiet) : s.offMem = t.offMem := by
  show s.quiet.offMem = t.quiet.offMem
  rw [h]

@[simp] theorem offMem_setReg (s : State) (a : Nat) (w : Word) : (s.setReg a w).offMem = s.offMem := rfl
@[simp] theorem offMem_bump (s : State) (a n c : Nat) : (s.bump a n c).offMem = s.offMem := rfl
@[simp] theorem offMem_setMeta (s : State) (b : Nat) (m : Meta) : (s.setMeta b m).offMem = s.offMem := rfl
@[simp] theorem offMem_writeMem (s : State) (a : Nat) (b : List Byte) : (s.writeMem a b).offMem = s.offMem := rfl
@[simp] theorem offMem_setCtl (s : State) (c : Nat) (v : Ctl) : (s.setCtl c v).offMem = s.offMem := rfl
@[simp] theorem offMem_setSlice (s : State) (d : Nat) (v : Slice) : (s.setSlice d v).offMem = s.offMem := rfl
@[simp] theorem offMem_setProt (s : State) (e : Nat) (p : Prot) : (s.setProt e p).offMem = s.offMem := rfl
@[simp] theorem offMem_writeFields (s : State) (d b : Nat) : (s.writeFields d b).offMem = s.offMem := rfl
@[simp] theorem offMem_tallyCtl (s : State) (c e q : Nat) (x : Option Nat) : (s.tallyCtl c e q x).offMem = s.offMem :=
  offMem_of_quiet (quiet_tally ..)
@[simp] theorem offMem_raise (s : State) (k : PageKind) (i b : Nat) : (s.raise k i b).offMem = s.offMem := offMem_of_quiet (quiet_raise ..)
@[simp] theorem offMem_postMgr (s : State) (r : Record) : (s.postMgr r).offMem = s.offMem := offMem_of_quiet (quiet_postMgr ..)
@[simp] theorem offMem_postCtx (s : State) (c : Nat) (r : Record) : (s.postCtx c r).offMem = s.offMem := offMem_of_quiet (quiet_postCtx ..)

@[simp] theorem offMem_setLine (s : State) (d b : Nat) (l : Line) : (s.setLine d b l).offMem = s.offMem := by
  unfold State.setLine
  dsimp only
  split <;> rfl

@[simp] theorem offMem_free (s : State) : s.free.2.offMem = s.offMem := rfl

@[simp] theorem offMem_inject' (s : State) (m : Meta) : (s.inject' m).1.offMem = s.offMem := by
  unfold State.inject'
  dsimp only
  (repeat' split) <;> simp

@[simp] theorem offMem_writeBead (s : State) (pa : Nat) (b : List Byte) (p : Bool) : (s.writeBead pa b p).offMem = s.offMem := by
  unfold State.writeBead
  dsimp only
  split
  · exact (offMem_setMeta ..).trans ((offMem_inject' ..).trans (offMem_writeMem ..))
  · rfl

@[simp] theorem offMem_rowError (s : State) (c u b r : Nat) : (s.rowError c u b r).offMem = s.offMem := by
  unfold State.rowError
  dsimp only
  split <;> simp

@[simp] theorem offMem_countCe (s : State) (c pa : Nat) : (s.countCe c pa).offMem = s.offMem := (offMem_rowError ..).trans rfl

@[simp] theorem offMem_postUe (s : State) (c pa : Nat) : (s.postUe c pa).offMem = s.offMem := by
  unfold State.postUe
  dsimp only
  (repeat' split) <;> simp

@[simp] theorem offMem_countUe (s : State) (c pa : Nat) : (s.countUe c pa).offMem = s.offMem :=
  (offMem_raise ..).trans ((offMem_postUe ..).trans rfl)

@[simp] theorem offMem_startTracking (s : State) (c ch : Nat) : (s.startTracking c ch).offMem = s.offMem := by
  unfold State.startTracking
  dsimp only
  (repeat' split) <;> rfl

@[simp] theorem offMem_trackUe (s : State) (c pa : Nat) : (s.trackUe c pa).offMem = s.offMem := by
  unfold State.trackUe
  split
  · exact offMem_startTracking ..
  · rfl

@[simp] theorem offMem_rebuildLine (s : State) (pa : Nat) : (s.rebuildLine pa).offMem = s.offMem := by
  unfold State.rebuildLine
  (repeat' split) <;> simp

@[simp] theorem offMem_lineRead (s : State) (pa : Nat) (m n : Meta) : (s.lineRead pa m n).offMem = s.offMem := by
  unfold State.lineRead
  (repeat' split) <;> simp

@[simp] theorem offMem_structureLost (s : State) (pa : Nat) : (s.structureLost pa).offMem = s.offMem := by
  unfold State.structureLost
  split
  · rfl
  · dsimp only
    split <;> simp

/-- A bead read out of DRAM changes nothing else. -/
@[simp] theorem offMem_readOut (s : State) (pa : Nat) (errs : List (Nat × Nat)) : (s.readOut pa errs).1.offMem = s.offMem := by
  unfold State.readOut
  dsimp only
  split
  · simp
  · simp
  · split
    · simp
    · dsimp only
      split <;> simp

@[simp] theorem offMem_readDesc (s : State) (pa : Nat) : (s.readDesc pa).1.offMem = s.offMem := by
  unfold State.readDesc
  split
  · split
    · have h1 := offMem_readOut s pa []
      split <;> rename_i heq
      · rw [heq] at h1
        rename_i s1 _
        have h2 := offMem_readOut s1 (pa + 64) []
        split <;> rename_i heq2
        · rw [heq2] at h2
          exact h2.trans h1
        · rw [heq2] at h2
          exact h2.trans h1
      · rw [heq] at h1
        exact h1
    · rfl
  · rfl

theorem extent_of_offMem {s t : State} (h : s.offMem = t.offMem) (id : Nat) : s.extent id = t.extent id := by
  show s.offMem.extent id = t.offMem.extent id
  rw [h]

/-! ### Extents (R111, R114) -/

/-- A grant sets its extent's record and no other. -/
theorem grantExtent_extent (v : State) (c : Crit) (id : Nat) : (v.grantExtent c).extent id = if id = c.extId then
    { st := .active, owner := if c.kind = 0 then c.ctx else 0, kind := c.kind, base2m := c.base2m, len2m := c.len2m, coh := c.coh
      revertStale := c.stale, thresh := field c.body 0x0C 1, prot := c.prot, partners := c.partners, gen := v.nextGen c.extId }
    else v.extent id := by
  rw [← setExtent_extent]
  refine extent_of_offMem ?_ id
  unfold State.grantExtent
  dsimp only
  split
  · rfl
  · split <;> rename_i heq
    · refine (offMem_setProt ..).trans ?_
      exact (congrArg (fun x : State × Option (List Byte) => x.1.offMem) heq).symm.trans (offMem_readDesc ..)
    · exact (congrArg (fun x : State × Option (List Byte) => x.1.offMem) heq).symm.trans (offMem_readDesc ..)

theorem extent_of_offTile {s t : State} (h : s.offTile = t.offTile) (id : Nat) : s.extent id = t.extent id := by
  show s.offTile.extent id = t.offTile.extent id
  rw [h]

theorem extent_of_quiet {s t : State} (h : s.quiet = t.quiet) (id : Nat) : s.extent id = t.extent id := by
  show s.quiet.extent id = t.quiet.extent id
  rw [h]

/-- A revoke that starts: its extent drains to the deadline, its translations are dropped, and no other extent changes. -/
theorem startRevoke_spec (v : State) (id z : Nat) (ref : Option CritRef) : let t := v.startRevoke id z ref
    t.extent id = { v.extent id with
      st := .draining, deadline := v.time + 1000 * (if z = 0 then v.actBits .xlt 0 0x040 15 0 else z), revoke := ref } ∧
    (∀ x ∈ t.xlt.tlb, x.ext ≠ id) ∧ ∀ n, n ≠ id → t.extent n = v.extent n := by
  unfold State.startRevoke
  extract_lets e drain s1 s2 x3 s3
  have hall (n : Nat) : (s3.postCtx e.owner { typ := 0x0011, cls := 2, source := 0x3000, ext := id, gen := e.gen }).extent n =
      s1.extent n :=
    (extent_of_quiet (quiet_postCtx ..) n).trans ((rfl : s3.extent n = s2.extent n).trans (extent_of_offTile (offTile_discardAhead ..) n))
  refine ⟨?_, fun x hx => ?_, fun n hn => ?_⟩
  · rw [hall, setExtent_extent, if_pos rfl, us_eq]
  · rw [tlb_of_calm (calm_postCtx ..)] at hx
    simpa using (List.mem_filter.1 hx).2
  · rw [hall, setExtent_extent, if_neg hn]

/-! ### The end of a critical command -/

/-- The state without what sending changes, and without the books of critical commands. -/
def State.offCc (s : State) : State := { s.calm with cc := {} }

theorem offCc_of_calm {s t : State} (h : s.calm = t.calm) : s.offCc = t.offCc := congrArg (fun x : State => { x with cc := {} }) h

/-- The end of a critical command is its completion, and that of its copies. -/
theorem offCc_critDone (s : State) (r : CritRef) (st : Nat) (d : List Byte) : (s.critDone r st d).offCc = s.offCc := by
  unfold State.critDone
  extract_lets s1 i s2 mine l x s3
  have h1 : s1.offCc = s.offCc := offCc_of_calm (calm_complete ..)
  have h2 : s2.offCc = s1.offCc := by
    simp only [s2]
    split <;> rfl
  have h3 : s3.offCc = s2.offCc := rfl
  have hfold : (l.foldl (fun s x => s.complete x.2.2 st d) s3).offCc = s3.offCc :=
    foldl_keeps State.offCc (g := fun s (x : Nat × Nat × Nat) => State.complete s x.2.2 st d)
      (fun s x => offCc_of_calm (calm_complete ..)) l s3
  exact hfold.trans (h3.trans (h2.trans h1))

theorem critDone_keeps (s : State) (r : CritRef) (st : Nat) (d : List Byte) :
    (s.critDone r st d).mgr = s.mgr ∧ (s.critDone r st d).tick = s.tick ∧ (s.critDone r st d).active = s.active ∧
      (s.critDone r st d).shadow = s.shadow ∧ (s.critDone r st d).mem = s.mem ∧ (s.critDone r st d).time = s.time := by
  have h := offCc_critDone s r st d
  exact ⟨(congrArg (·.mgr) h :), (congrArg (·.tick) h :), (congrArg (·.active) h :), (congrArg (·.shadow) h :),
    (congrArg (·.mem) h :), (congrArg (·.time) h :)⟩

/-! ### Configuration words -/

theorem cfgGet_put (m : RegMap) (a : Nat) (w : Word) : cfgGet (cfgPut m a w) a = w := by
  unfold cfgGet cfgPut
  split <;> rename_i h
  · simp [h]
  · simp

/-- A field of a word reads what was put there. -/
theorem wbits_wset {hi lo : Nat} (h : lo ≤ hi) (hhi : hi < 32) (w : Word) (v : Nat) :
    wbits (wset w hi lo v) hi lo = v % 2 ^ (hi + 1 - lo) := by
  refine Nat.eq_of_testBit_eq fun j => ?_
  simp only [wbits, wset, bits, BitVec.toNat_ofNat, Nat.testBit_mod_two_pow, Nat.testBit_div_two_pow, testBit_setBits h]
  by_cases hj : j < hi + 1 - lo
  · simp [hj, show j + lo < 32 by omega, show j + lo ≤ hi by omega]
  · simp [hj]

theorem setBothField_active (s : State) (a hi lo v : Nat) : cfgGet (s.setBothField a hi lo v).active a = wset (cfgGet s.active a) hi lo v :=
  cfgGet_put ..

theorem setBothField_shadow (s : State) (a hi lo v : Nat) : cfgGet (s.setBothField a hi lo v).shadow a = wset (cfgGet s.shadow a) hi lo v :=
  cfgGet_put ..

/-! ### Firmware updates (R43, R421) -/

/-- A firmware update that is admitted: in RECOVERY under its own rules, else a critical command. -/
theorem arriveFw_of_admits {s t : State} {port : Fin 16} {p : Packet} (h : s.Admits (fwRules port) port p t) :
    s.arriveFw port p = .next (if t.boot.state = 7 then t.recoverFw (cmdSlot 0x10 p) (p.ofCmd 0x10)
      else t.actCrit (cmdSlot 0x10 p)) := by
  obtain ⟨v, hv, hp⟩ := slot?_of_admits h
  refine congrArg Host.Outcome.next ((arrive_of_admits h _).trans ?_)
  show (if t.boot.state = 7 then match t.slot? (cmdSlot 0x10 p) with
    | some v => t.recoverFw (cmdSlot 0x10 p) v.pkt
    | none => t else t.actCrit (cmdSlot 0x10 p)) = _
  rw [show t.slot? (cmdSlot 0x10 p) = some v from hv]
  exact if_congr Iff.rfl (congrArg (t.recoverFw (cmdSlot 0x10 p)) hp) rfl

/-- FW_UPDATE past RECOVERY acts like any critical command (R421). -/
theorem fwUpdate_acts {s v : State} {port : Fin 16} {p : Packet} {k : Nat} (h : s.AcceptsCrit (fwRules port) 0x10 port p v k)
    (hstate : v.boot.state ≠ 7) : s.arriveFw port p =
      .next (v.startFwUpdate (critIn 0x10 p) ((critIn 0x10 p).ref (cmdSlot 0x10 p))) := by
  obtain ⟨t, hadmits, hfree, ⟨u, hchecks, rfl⟩, -, htry⟩ := tryCrit_of_accepts h critOp.eq_11
  have hboot : u.boot = t.boot := by rcases critChecks_state hchecks with rfl | rfl <;> rfl
  obtain ⟨x, hx, hp⟩ := slot?_of_admits hadmits
  have hact : t.actCrit (cmdSlot 0x10 p) = t.tryCrit (cmdSlot 0x10 p) (p.ofCmd 0x10) := by
    rw [State.actCrit, show t.slot? (cmdSlot 0x10 p) = some x from hx]
    refine (if_neg (by simp [hfree])).trans ?_
    rw [show x.pkt = p.ofCmd 0x10 from hp]
  have hexec := exec_eq_zero_of_checks hchecks rfl
  rw [arriveFw_of_admits hadmits, if_neg (fun h7 => hstate ((congrArg (·.state) hboot).trans h7)), hact, htry,
    CritOp.takes_now (Or.inl hexec)]

theorem stagingSlot_bit (v : State) : bit v.stagingSlot 0 = decide (v.stagingSlot = 1) := by
  unfold State.stagingSlot
  rcases Nat.eq_zero_or_pos v.boot.slot with h | h
  · rw [h]; rfl
  · rw [show 1 - v.boot.slot = 0 by omega]; rfl

/-- The checks of a firmware update in RECOVERY, in their order (R43). -/
theorem recoverFw_spec (t : State) (key : Nat) (p : Packet) :
    let c := critOf p
    let shaped := critShape t.ep p && fwShape c && c.exec == 0
    let tagged := critTag Config.factoryIssuerKey p = c.tag
    let idle := t.cc.recovery = none ∧ t.ten.chunk = none
    (shaped = false → t.recoverFw key p = t.complete key stMalformed) ∧
    (shaped = true → ¬tagged → t.recoverFw key p = t.authFail c 4 key) ∧
    (shaped = true → tagged → ¬idle → t.recoverFw key p = t.complete key stBusy) ∧
    (shaped = true → tagged → idle → t.stagedMatches c = false → t.recoverFw key p = t.complete key stMalformed) ∧
    (shaped = true → tagged → idle → t.stagedMatches c = true → imageKey t.ten.staged t.fuses = none →
      t.recoverFw key p = t.authFail c 10 key) ∧
    (shaped = true → tagged → idle → t.stagedMatches c = true → imageKey t.ten.staged t.fuses ≠ none →
      t.recoverFw key p = { t with cc := { t.cc with recovery := some key } }) := by
  intro c shaped tagged idle
  have hidle : ¬(t.cc.recovery.isSome = true ∨ t.ten.chunk.isSome = true) ↔ idle := by
    simp [idle, not_or]
  have hstart : t.recoverFw key p = if (!shaped) = true then t.complete key stMalformed
      else if critTag Config.factoryIssuerKey p ≠ c.tag then t.authFail c 4 key
      else if t.cc.recovery.isSome = true ∨ t.ten.chunk.isSome = true then t.complete key stBusy
      else if t.stagedMatches c = false then t.complete key stMalformed
      else if (imageKey t.ten.staged t.fuses).isNone = true then t.authFail c 10 key
      else { t with cc := { t.cc with recovery := some key } } := rfl
  rw [hstart]
  refine ⟨fun h => if_pos (by rw [h]; rfl), fun h h1 => ?_, fun h h1 h2 => ?_, fun h h1 h2 h3 => ?_, fun h h1 h2 h3 h4 => ?_,
    fun h h1 h2 h3 h4 => ?_⟩
  all_goals rw [if_neg (by rw [h]; decide)]
  · exact if_pos h1
  · rw [if_neg (not_not.2 h1), if_pos (not_not.1 (mt hidle.1 h2))]
  · rw [if_neg (not_not.2 h1), if_neg (hidle.2 h2), if_pos h3]
  · rw [if_neg (not_not.2 h1), if_neg (hidle.2 h2), if_neg (by rw [h3]; decide), if_pos (by rw [h4]; rfl)]
  · rw [if_neg (not_not.2 h1), if_neg (hidle.2 h2), if_neg (by rw [h3]; decide), if_neg (by simpa using h4)]

/-! ### Roles and debug (R422, R427) -/

/-- What a ROLE_CHANGE leaves, before a module that was active resets itself. -/
theorem changeRole_spec (v : State) (c : Crit) (ref : CritRef) :
    (v.mgr.role ≠ 2 → ∀ t, v.changeRole c ref = t →
      t.mgr.role = field c.body 0 1 ∧ t.mgr.ep = some (field c.body 2 2) ∧ t.mgr.gen = field c.body 4 4 ∧ t.tick.locked = false ∧
      wbits (cfgGet t.active 0x5044) 11 0 = field c.body 8 2 % 4096 ∧ wbits (cfgGet t.shadow 0x5044) 11 0 = field c.body 8 2 % 4096) ∧
    (v.mgr.role = 2 → (v.changeRole c ref).boot.started = false) := by
  unfold State.changeRole
  extract_lets was m s2 s3 s4 k s5 s6
  obtain ⟨hmgr, htick, hactive, hshadow, -⟩ := critDone_keeps s5 ref stOk []
  obtain ⟨hmgr', hactive', hshadow', hlocked⟩ : s4.mgr = s2.mgr ∧ s4.active = s3.active ∧ s4.shadow = s3.shadow ∧
      s4.tick.locked = false := by
    simp only [s4, State.tickUnlock]
    split <;> simp [s3, State.setBothField]
  refine ⟨fun h t ht => ?_, fun h => ?_⟩
  · obtain rfl : s6 = t := (if_neg (show ¬was = 2 from h)).symm.trans ht
    have hm : s6.mgr = s2.mgr := hmgr.trans hmgr'
    refine ⟨congrArg Mgr.role hm, congrArg Mgr.ep hm, congrArg Mgr.gen hm, (congrArg Tick.locked htick).trans hlocked, ?_, ?_⟩
    · show wbits (cfgGet s6.active 0x5044) 11 0 = field c.body 8 2 % 2 ^ (11 + 1 - 0)
      rw [show s6.active = s3.active from hactive.trans hactive', setBothField_active, wbits_wset (by decide) (by decide)]
    · show wbits (cfgGet s6.shadow 0x5044) 11 0 = field c.body 8 2 % 2 ^ (11 + 1 - 0)
      rw [show s6.shadow = s3.shadow from hshadow.trans hshadow', setBothField_shadow, wbits_wset (by decide) (by decide)]
  · rw [if_pos (show was = 2 from h)]
    rfl

/-- What a derivation of the manager key leaves of the tenancy. -/
theorem deriveSelf_ten (s : State) : s.deriveSelf.ten.keys = s.ten.keys ∧ s.deriveSelf.ten.ctxs = s.ten.ctxs ∧
    s.deriveSelf.ten.unlocking = s.ten.unlocking ∧ s.deriveSelf.ten.debugUnlocked = s.ten.debugUnlocked ∧ s.deriveSelf.boot = s.boot := by
  unfold State.deriveSelf State.putRoster State.deriveOwn
  dsimp only
  (repeat' split) <;> exact ⟨rfl, rfl, rfl, rfl, rfl⟩

theorem tblGet_map (t : Tbl α) (f : Nat → α → α) (j : Nat) (d : α) : tblGet (tblMap t f) j d = ((tblGet? t j).map (f j)).getD d := by
  rw [tblGet, tblGet?_map]

theorem tblGet?_filter_key (t : Tbl α) (p : Nat → Bool) (j : Nat) :
    tblGet? (tblFilter t fun n _ => p n) j = if p j = true then tblGet? t j else none := by
  induction t with
  | nil => simp [tblFilter, tblGet?]
  | cons x t ih =>
    obtain ⟨k, v⟩ := x
    replace ih : tblGet? (t.filter fun x => p x.1) j = if p j = true then tblGet? t j else none := ih
    show tblGet? (((k, v) :: t).filter fun x => p x.1) j = _
    by_cases hk : p k = true
    · rw [List.filter_cons_of_pos (p := fun x : Nat × α => p x.1) hk, tblGet?, tblGet?, ih]
      by_cases hj : j = k
      · simp [hj, hk]
      · simp [hj]
    · rw [List.filter_cons_of_neg (p := fun x : Nat × α => p x.1) hk, tblGet?, ih]
      by_cases hj : j = k
      · simp [hj, hk]
      · simp [hj]

/-- The keys that a DEBUG_UNLOCK empties, emptied. -/
def State.withoutKeys (s : State) (ref : CritRef) : State :=
  { s with
    ten := { s.ten with
      unlocking := some ref
      keys := tblMap s.ten.keys fun _ k => { kgen := k.kgen }
      windows := s.ten.windows.filter fun w => w.slot == 1024
      ctxs := tblMap s.ten.ctxs fun _ c => { c with tk := none } }
    cc := { s.cc with issuers := tblFilter s.cc.issuers fun n _ => n == 0 } }

theorem startUnlock_eq (s : State) (ref : CritRef) : s.startUnlock ref = (s.withoutKeys ref).deriveSelf := rfl

/-- A DEBUG_UNLOCK that starts: every key gone but the factory's (R422). -/
theorem startUnlock_spec (v : State) (ref : CritRef) : let t := v.startUnlock ref
    t.ten.unlocking = some ref ∧ (∀ n, (t.keySlot n).st = .empty ∧ (t.keySlot n).key = 0) ∧ (∀ n, (t.ctx n).tk = none) ∧
      (∀ n, 0 < n → t.issuer n = {}) ∧ t.ten.debugUnlocked = v.ten.debugUnlocked := by
  rw [startUnlock_eq]
  obtain ⟨hkeys, hctxs, hunlock, hdebug, hboot⟩ := deriveSelf_ten (v.withoutKeys ref)
  refine ⟨hunlock, fun n => ?_, fun n => ?_, fun n hn => ?_, hdebug⟩
  · rw [State.keySlot, hkeys]
    rw [show (v.withoutKeys ref).ten.keys = tblMap v.ten.keys fun _ k => { kgen := k.kgen } from rfl, tblGet_map]
    cases tblGet? v.ten.keys n <;> exact ⟨rfl, rfl⟩
  · rw [State.ctx, hctxs]
    show (tblGet (tblMap v.ten.ctxs fun _ c => { c with tk := none }) n _).tk = none
    rw [tblGet_map]
    cases tblGet? v.ten.ctxs n
    · simp only [Option.map_none, Option.getD_none]
      split <;> rfl
    · rfl
  · rw [State.issuer, deriveSelf_cc]
    show tblGet (tblFilter v.cc.issuers fun n _ => n == 0) n _ = {}
    rw [tblGet, tblGet?_filter_key, if_neg (by simp [Nat.ne_of_gt hn]), if_neg (Nat.ne_of_gt hn)] <;> rfl

/-- Settles O29: each accepted command through its row of Table 4.13, the firmware update through its arrival. -/
theorem extentAndFirmwareCommandsAct : Obligations.ExtentAndFirmwareCommandsAct := by
  refine ⟨fun s v port p k => ⟨fun h => ?_, fun h => ?_⟩, fun s v port p k => ⟨fun h hstate htaken => ?_, fun t h h7 => ?_, fun h => ?_,
    fun h => ?_⟩⟩
  · obtain ⟨hnow, harmed⟩ := exec_now_or_armed h critOp.eq_9 (by decide)
    have hext := grantExtent_extent v (critIn 0x0C p)
    refine ⟨hnow, harmed, fun id hid => (hext id).trans (if_neg hid), ?_⟩
    rw [hext, if_pos rfl]
    exact ⟨rfl, rfl, rfl, rfl, rfl, rfl, rfl, rfl⟩
  · obtain ⟨hnow, harmed⟩ := exec_now_or_armed h critOp.eq_10 (by decide)
    dsimp only at hnow harmed
    obtain ⟨hself, htlb, hother⟩ := startRevoke_spec v (critIn 0x0D p).extId (field (critIn 0x0D p).body 4 4)
      (some ((critIn 0x0D p).ref (cmdSlot 0x0D p)))
    refine ⟨fun h0 hst => ⟨_, (hnow h0).trans (congrArg _ (if_pos hst)), ?_, ?_, ?_, htlb, hother⟩,
      fun h0 hst => (hnow h0).trans (congrArg _ (if_neg hst)), harmed⟩
    all_goals rw [hself]
  · have hexec := fwUpdate_acts h hstate
    refine ⟨_, _, hexec, rfl, rfl, rfl, rfl, ?_, ?_, ?_⟩
    · exact congrArg (fun x => Option.getD x _) htaken
    · show wbit (cfgGet (v.setBothField 0x1040 0 0 v.stagingSlot).active 0x1040) 0 = _
      rw [setBothField_active, wbit_wset_bit _ _ _ (by decide), if_pos rfl, stagingSlot_bit]
    · show wbit (cfgGet (v.setBothField 0x1040 0 0 v.stagingSlot).shadow 0x1040) 0 = _
      rw [setBothField_shadow, wbit_wset_bit _ _ _ (by decide), if_pos rfl, stagingSlot_bit]
  · have hexec : exec (.recoveryFwUpdate port p) s = .next (t.recoverFw (cmdSlot 0x10 p) (p.ofCmd 0x10)) :=
      (arriveFw_of_admits h).trans (congrArg _ (if_pos h7))
    obtain ⟨hshape, htag, hbusy, hmatch, himage, htake⟩ := recoverFw_spec t (cmdSlot 0x10 p) (p.ofCmd 0x10)
    exact ⟨fun h1 => hexec.trans (congrArg _ (hshape h1)), fun h1 h2 => hexec.trans (congrArg _ (htag h1 h2)),
      fun h1 h2 h3 => hexec.trans (congrArg _ (hbusy h1 h2 h3)), fun h1 h2 h3 h4 => hexec.trans (congrArg _ (hmatch h1 h2 h3 h4)),
      fun h1 h2 h3 h4 h5 => hexec.trans (congrArg _ (himage h1 h2 h3 h4 h5)),
      fun h1 h2 h3 h4 h5 => hexec.trans (congrArg _ (htake h1 h2 h3 h4 h5))⟩
  · have hact := exec_acts h critOp.eq_12 (Or.inl rfl)
    obtain ⟨hother, hactive⟩ := changeRole_spec v (critIn 0x11 p) ((critIn 0x11 p).ref (cmdSlot 0x11 p))
    exact ⟨hact, fun h2 => hother h2 _ rfl, hactive⟩
  · have hact := exec_acts h critOp.eq_13 (Or.inl rfl)
    exact ⟨_, hact, startUnlock_spec v _⟩

end Sys2Proof.Machine
end

section
/-!
Long commands that end (R40, R43, R89, R403–R406, R419–R422), and armed commands that fire (R75, R459).
-/

namespace Sys2Proof.Machine

/-! ### Commits and unlocks (R89, R421, R422) -/

/-- What the end of a COMMIT leaves, before an ACTIVATE resets the module. -/
def State.committed (s : State) (c : Commit) (ok : Bool) : State :=
  State.critDone { s with
    flash := if c.copy = 0 then { s.flash with copy0 := if ok then some c.record else none }
      else { s.flash with copy1 := if ok then some c.record else none }
    cc := { s.cc with commit := none, commitState := if ok then 2 else 3 }
    boot := if ok then { s.boot with fuseSvn := max s.boot.fuseSvn c.svn } else s.boot } c.ref (if ok then stOk else stBusError)

theorem endCommit_failed (s : State) (c : Commit) : s.endCommit c false = s.committed c false := rfl

theorem execCommitComplete_of_commit {s : State} {c : Commit} (h : s.cc.commit = some c) (ok : Bool) :
    execCommitComplete ok s = .next (s.endCommit c ok) := by
  unfold execCommitComplete
  rw [h]

theorem execCommitTimeout_of_commit {s : State} {c : Commit} (h : s.cc.commit = some c) :
    execCommitTimeout s = .next ((s.elapseTo (c.startAt + 10000000000)).endCommit c false) := by
  unfold execCommitTimeout
  rw [h]

theorem zeroAll_rod (s : State) (i : Nat) : (s.zeroAll.rod i).scratch = [] :=
  tblGet_map_has (P := fun r : Rod => r.scratch = []) s.rods
    (fun _ r => { r with regs := {}, scratch := [], badLines := [], upsets := [] }) i rfl fun _ => rfl

theorem zeroAll_frame (s : State) (f : Nat) : (s.zeroAll.frame f).fb = [] :=
  tblGet_map_has (P := fun v : Frame => v.fb = []) s.frames
    (fun _ v => { v with fb := [], badLines := [], upsets := [], owners := [], zeroing := [] }) f rfl fun _ => rfl

/-! ### Attestation and chunks (R403–R406, R420) -/

theorem zeros_iff {b : List Byte} {n : Nat} (h : b.length = n) : zeros b 0 n = true ↔ b = zeroBytes n := by
  rw [zeros, List.drop_zero, List.take_of_length_le (Nat.le_of_eq h), zeroBytes, List.eq_replicate_iff]
  simp [h]

/-- The unit of an attestation command acts on its packet. -/
theorem actAttest_of_slot {t : State} {key : Nat} {v : InSlot} (h : t.slot? key = some v) :
    t.actAttest key = if t.attestCheck v = stOk then
      { t with ten := { t.ten with attests := t.ten.attests ++ [{ slot := key, target := field v.pkt.own 32 2 }] } }
      else t.complete key (t.attestCheck v) := by
  unfold State.actAttest
  rw [h] <;> rfl

theorem actAttestCert_of_slot {t : State} {key : Nat} {v : InSlot} (h : t.slot? key = some v) :
    t.actAttestCert key = if v.pkt.own = zeroBytes 8 ∧ v.pkt.context = 0 then
      t.complete key stOk ((Config.attestCert ++ zeroBytes 3081).take 3081) else t.complete key stMalformed := by
  have hbody : (v.pkt.own.length = 8 ∧ zeros v.pkt.own 0 8 = true ∧ v.pkt.context = 0) ↔
      v.pkt.own = zeroBytes 8 ∧ v.pkt.context = 0 := by
    constructor
    · rintro ⟨hlen, hzero, hctx⟩
      exact ⟨(zeros_iff hlen).1 hzero, hctx⟩
    · rintro ⟨hbody, hctx⟩
      have hlen : v.pkt.own.length = 8 := by rw [hbody]; rfl
      exact ⟨hlen, (zeros_iff hlen).2 hbody, hctx⟩
  unfold State.actAttestCert State.ifOk
  rw [h]
  dsimp only
  by_cases hok : v.pkt.own = zeroBytes 8 ∧ v.pkt.context = 0
  · rw [if_pos hok, if_pos (if_pos (hbody.2 hok))]
  · rw [if_neg hok, if_neg (hbody.not.2 hok), if_neg (by decide)]

theorem actFwChunk_of_slot {t : State} {key : Nat} {v : InSlot} (h : t.slot? key = some v) :
    t.actFwChunk key = if t.chunkCheck v = stOk then
      { t with ten := { t.ten with
        staged := if field v.pkt.own 0 4 = 0 then [] else t.ten.staged, chunk := some (key, v.pkt.own.drop 8) } }
      else t.complete key (t.chunkCheck v) := by
  unfold State.actFwChunk
  rw [h] <;> rfl

theorem ctx_of_ten_boot {s t : State} (h1 : s.ten.ctxs = t.ten.ctxs) (h2 : s.boot = t.boot) (c : Nat) : s.ctx c = t.ctx c := by
  rw [State.ctx, State.ctx, h1, h2]

/-- The first queued ATTEST is signed in its turn. -/
theorem execAttestComplete_of_slot {s : State} {a : Attest} {q : List Attest} {v : InSlot} (h : s.ten.attests = a :: q)
    (hv : s.slot? a.slot = some v) :
    execAttestComplete s = .next (State.signReport { s with ten := { s.ten with attests := q } } a v) := by
  unfold execAttestComplete
  rw [h]
  dsimp only
  rw [show State.slot? { s with ten := { s.ten with attests := q } } a.slot = some v from hv]

/-- Settles O30: each completion through the operation that ends its command. -/
theorem longCommandsEnd : Obligations.LongCommandsEnd := by
  refine ⟨fun s => ⟨fun m hm => ⟨fun hact => ?_, fun hact => ?_, ?_, ?_⟩, fun slot hslot => ⟨?_, ?_⟩, fun ref href => ⟨?_, rfl, rfl,
    zeroAll_rod s, zeroAll_frame s⟩, fun x b hx => ⟨?_, ?_⟩, fun key at_ hkey => ?_⟩, fun s t port p v => ⟨fun h hv => ?_, fun h hv => ?_,
    fun h hv => ?_⟩, fun s a q v ha hv => ?_⟩
  · exact (execCommitComplete_of_commit hm true).trans (congrArg _ (if_neg (by rw [hact]; decide)))
  · exact (execCommitComplete_of_commit hm true).trans (congrArg _ (if_pos (by rw [hact]; decide)))
  · exact (execCommitComplete_of_commit hm false).trans (congrArg _ (endCommit_failed s m))
  · exact (execCommitTimeout_of_commit hm).trans (congrArg _ (endCommit_failed _ m))
  · show execRecoverySlotWriteDone true s = _
    unfold execRecoverySlotWriteDone
    rw [hslot] <;> rfl
  · show execRecoverySlotWriteDone false s = _
    unfold execRecoverySlotWriteDone
    rw [hslot] <;> rfl
  · show execDebugUnlockDone s = _
    unfold execDebugUnlockDone
    rw [href] <;> rfl
  · show execFwChunkWritten true s = _
    unfold execFwChunkWritten
    rw [hx] <;> rfl
  · show execFwChunkWritten false s = _
    unfold execFwChunkWritten
    rw [hx] <;> rfl
  · show execMgrKeyExpire s = _
    unfold execMgrKeyExpire
    rw [hkey]
  · have hexec : exec (.attest port p) s = .next (t.actAttest (cmdSlot 0xD0 p)) := congrArg Host.Outcome.next (arrive_of_admits h _)
    rw [actAttest_of_slot hv] at hexec
    exact ⟨fun hok => hexec.trans (congrArg _ (if_pos hok)), fun hbad => hexec.trans (congrArg _ (if_neg hbad))⟩
  · have hexec : exec (.attestCert port p) s = .next (t.actAttestCert (cmdSlot 0xD1 p)) :=
      congrArg Host.Outcome.next (arrive_of_admits h _)
    rw [actAttestCert_of_slot hv] at hexec
    exact ⟨fun h1 h2 => hexec.trans (congrArg _ (if_pos ⟨h1, h2⟩)),
      fun hbad => hexec.trans (congrArg _ (if_neg fun hok => hbad.elim (absurd hok.1) (absurd hok.2)))⟩
  · have hexec : exec (.fwChunk port p) s = .next (t.actFwChunk (cmdSlot 0xD8 p)) := congrArg Host.Outcome.next (arrive_of_admits h _)
    rw [actFwChunk_of_slot hv] at hexec
    exact ⟨fun hok => hexec.trans (congrArg _ (if_pos hok)), fun hbad => hexec.trans (congrArg _ (if_neg hbad))⟩
  · refine ⟨_, _, _, _, ?_, (execAttestComplete_of_slot ha hv).trans rfl, rfl⟩
    rw [List.length_take, List.length_append, zeroBytes, List.length_replicate]
    omega

/-! ### Armed commands (R75, R459) -/

theorem fireNext_of_due {s : State} {a : Armed} {op : Nat} (h : (armedSorted s.cc.armed).find? (fun x => x.cmd.op == op) = some a)
    (hdue : s.dueBefore a.tick (eventRank op) = true) : s.fireNext op = s := by
  unfold State.fireNext
  rw [h]
  exact if_pos hdue

theorem fireNext_of_first {s : State} {a : Armed} {op : Nat} (h : (armedSorted s.cc.armed).find? (fun x => x.cmd.op == op) = some a)
    (hdue : s.dueBefore a.tick (eventRank op) = false) : s.fireNext op =
      (State.elapseToTick { s with cc := { s.cc with armed := s.cc.armed.erase a } } a.tick).fireArmed a := by
  unfold State.fireNext
  rw [h]
  exact if_neg (by rw [hdue]; decide)

/-- An armed command that is still to fire takes its effect, or releases what it held and is dropped. -/
theorem fireArmed_of_alive {u : State} {a : Armed} {o : CritOp} (hop : critOp a.cmd.op = some o) (halive : o.alive u a.cmd = true) :
    (o.check u a.cmd = stOk → u.fireArmed a = o.fire u a.cmd) ∧
    (o.check u a.cmd ≠ stOk → u.fireArmed a = (o.release u a.cmd).armedDropped a.cmd (o.check u a.cmd)) := by
  unfold State.fireArmed
  rw [hop]
  dsimp only
  rw [if_neg (by simp [halive])]
  exact ⟨fun h => if_pos h, fun h => if_neg h⟩

/-- One whose key is gone has no effect. -/
theorem fireArmed_of_gone {u : State} {a : Armed} {o : CritOp} (hop : critOp a.cmd.op = some o) (halive : o.alive u a.cmd = false) :
    (o.check u a.cmd = stOk → u.fireArmed a = u) ∧
    (o.check u a.cmd ≠ stOk → u.fireArmed a = u.armedDropped a.cmd (o.check u a.cmd)) := by
  unfold State.fireArmed
  rw [hop]
  dsimp only
  rw [if_pos (by simp [halive])]
  exact ⟨fun h => if_pos h, fun h => if_neg h⟩

/-- Settles O31: the first armed command of an opcode waits, or fires as its row of Table 4.13 says. -/
theorem armedCommandsFire : Obligations.ArmedCommandsFire := by
  intro s a op ha
  have hcmd : a.cmd.op = op := eq_of_beq (List.find?_some (p := fun x : Armed => x.cmd.op == op) ha)
  refine ⟨fun hdue row hrow => ?_, fun hdue => ?_⟩
  · have hwait := fireNext_of_due ha hdue
    simp only [List.mem_cons, List.not_mem_nil, or_false, Prod.mk.injEq] at hrow
    rcases hrow with ⟨rfl, rfl⟩ | ⟨rfl, rfl⟩ | ⟨rfl, rfl⟩ | ⟨rfl, rfl⟩ | ⟨rfl, rfl⟩ | ⟨rfl, rfl⟩ <;>
      exact congrArg Host.Outcome.next hwait
  · have hfire := congrArg (fun x => (.next x : Outcome)) (fireNext_of_first ha hdue)
    generalize State.elapseToTick { s with cc := { s.cc with armed := s.cc.armed.erase a } } a.tick = u at hfire
    have hop {o : CritOp} (h : critOp op = some o) : critOp a.cmd.op = some o := (congrArg critOp hcmd).trans h
    refine ⟨?_, ?_, ?_, ?_, ?_, ?_, ?_, fun x st => ⟨_, rfl, rfl, rfl⟩⟩
    · rintro rfl
      obtain ⟨hgo, hdrop⟩ := fireArmed_of_alive (u := u) (hop critOp.eq_7) rfl
      exact ⟨fun h => hfire.trans (congrArg _ (hgo h)), fun h => hfire.trans (congrArg _ (hdrop h))⟩
    · rintro rfl
      obtain ⟨hgo, hdrop⟩ := fireArmed_of_alive (u := u) (hop critOp.eq_8) rfl
      exact ⟨fun h => hfire.trans (congrArg _ (hgo h)), fun h => hfire.trans (congrArg _ (hdrop h))⟩
    · rintro rfl
      obtain ⟨hgo, hdrop⟩ := fireArmed_of_alive (u := u) (hop critOp.eq_9) rfl
      exact ⟨fun h => hfire.trans (congrArg _ (hgo h)), fun h => hfire.trans (congrArg _ (hdrop h))⟩
    · rintro rfl
      obtain ⟨hgo, hdrop⟩ := fireArmed_of_alive (u := u) (hop critOp.eq_10) rfl
      exact ⟨fun h => hfire.trans (congrArg _ (hgo h)), fun h => hfire.trans (congrArg _ (hdrop h))⟩
    · rintro rfl halive
      obtain ⟨hgo, hdrop⟩ := fireArmed_of_alive (u := u) (hop critOp.eq_5) halive
      exact ⟨fun h => hfire.trans (congrArg _ (hgo h)), fun h => hfire.trans (congrArg _ (hdrop h))⟩
    · rintro rfl hgone
      obtain ⟨hgo, hdrop⟩ := fireArmed_of_gone (u := u) (hop critOp.eq_5) hgone
      exact ⟨fun h => hfire.trans (congrArg _ (hgo h)), fun h => hfire.trans (congrArg _ (hdrop h))⟩
    · rintro rfl
      obtain ⟨hgo, hdrop⟩ := fireArmed_of_alive (u := u) (hop critOp.eq_6) rfl
      exact ⟨fun h => hfire.trans (congrArg _ (hgo h)), fun h => hfire.trans (congrArg _ (hdrop h))⟩

end Sys2Proof.Machine
end

section
/-!
Extents, contexts and keys drain, zero and end (R112–R114, R411, R423, R424).
-/

namespace Sys2Proof.Machine

/-! ### What every request, snoop and completion leaves -/

/-- The extents, the contexts and their boot-time entries, and model time. -/
def State.roots (s : State) : Tbl Extent × Tbl Context × Boot × Nat := (s.xlt.extents, s.ten.ctxs, s.boot, s.time)

theorem roots_of_calm {s t : State} (h : s.calm = t.calm) : s.roots = t.roots := by
  show s.calm.roots = t.calm.roots
  rw [h]

theorem roots_of_offMem {s t : State} (h : s.offMem = t.offMem) : s.roots = t.roots := by
  show s.offMem.roots = t.offMem.roots
  rw [h]

theorem roots_of_offCc {s t : State} (h : s.offCc = t.offCc) : s.roots = t.roots := by
  show s.offCc.roots = t.offCc.roots
  rw [h]

theorem extent_of_roots {s t : State} (h : s.roots = t.roots) (id : Nat) : s.extent id = t.extent id :=
  congrArg (fun x : Tbl Extent × Tbl Context × Boot × Nat => tblGet x.1 id {}) h

theorem ctx_of_roots {s t : State} (h : s.roots = t.roots) (c : Nat) : s.ctx c = t.ctx c :=
  ctx_of_ten_boot (congrArg (fun x => x.2.1) h) (congrArg (fun x => x.2.2.1) h) c

theorem time_of_roots {s t : State} (h : s.roots = t.roots) : s.time = t.time := congrArg (fun x => x.2.2.2) h

theorem roots_force (s : State) (k st : Nat) : (s.force k st).roots = s.roots := (roots_of_calm (calm_complete ..)).trans rfl

theorem roots_critDone (s : State) (r : CritRef) (st : Nat) (d : List Byte) : (s.critDone r st d).roots = s.roots :=
  roots_of_offCc (offCc_critDone ..)

theorem roots_setLine (s : State) (d b : Nat) (l : Line) : (s.setLine d b l).roots = s.roots := roots_of_offMem (offMem_setLine ..)

theorem roots_issue (s : State) (p : Packet) (k : KeyRef) (w : Purpose) (c : Option Nat) (r : Bool) :
    (s.issue p k w c r).1.roots = s.roots := by
  unfold State.issue
  dsimp only
  (repeat' split)
  · rfl
  · rfl
  · rfl
  · exact roots_of_calm (calm_routeDrop ..)
  all_goals exact (roots_of_calm (calm_send ..)).trans (roots_of_calm (calm_seal ..))

theorem roots_snoop (s : State) (d b kind tgt : Nat) (e : Extent) (r : Bool) : (s.snoop d b kind tgt e r).1.roots = s.roots := by
  unfold State.snoop
  split
  · dsimp only
    split
    · exact (roots_of_calm (calm_tally ..)).trans (roots_issue ..)
    · exact roots_issue ..
    · exact roots_issue ..
    · exact roots_issue ..
  · rfl

theorem roots_snoopAll (d b : Nat) (e : Extent) (r : Bool) (ts : List Nat) (s : State) :
    (s.snoopAll d b e r ts).1.roots = s.roots := by
  induction ts generalizing s with
  | nil => rfl
  | cons t ts ih =>
    have h := (ih (s.snoop d b 0 t e r).1).trans (roots_snoop ..)
    unfold State.snoopAll
    dsimp only
    split <;> exact h

@[simp] theorem offMem_touchRow (s : State) (c u b r : Nat) (x : Option Nat) : (s.touchRow c u b r x).offMem = s.offMem :=
  (rfl : _ = _).trans (offMem_tallyCtl ..)

@[simp] theorem offMem_metaAccess (s : State) (c m : Nat) (w : Bool) (x : Option Nat) : (s.metaAccess c m w x).offMem = s.offMem :=
  (offMem_tallyCtl ..).trans (offMem_touchRow ..)

@[simp] theorem offMem_useMeta (s : State) (c m : Nat) (w : Bool) (x : Option Nat) : (s.useMeta c m w x).offMem = s.offMem := by
  unfold State.useMeta
  dsimp only
  split
  · exact (offMem_metaAccess ..).trans (offMem_setCtl ..)
  · exact offMem_setCtl ..

@[simp] theorem offMem_fetchMeta (s : State) (c o : Nat) (x : Option Nat) : (s.fetchMeta c o x).offMem = s.offMem := by
  simp [State.fetchMeta]

@[simp] theorem offMem_touchBead (s : State) (c a q : Nat) (w : Bool) (x : Option Nat) : (s.touchBead c a q w x).offMem = s.offMem := by
  unfold State.touchBead
  dsimp only
  split <;> simp

/-- A line's fields written into its bead's metadata stay within memory and its controllers. -/
@[simp] theorem offMem_fieldWrite (s : State) (d b cls : Nat) : (s.fieldWrite d b cls).offMem = s.offMem := by
  unfold State.fieldWrite
  dsimp only
  (repeat' split) <;> simp

@[simp] theorem offMem_coverLine (s : State) (d b : Nat) : (s.coverLine d b).offMem = s.offMem := by
  unfold State.coverLine
  dsimp only
  split <;> simp

theorem roots_snoopRevoked (s : State) (e : Extent) : (s.snoopRevoked e).roots = s.roots := by
  unfold State.snoopRevoked
  refine foldl_keeps State.roots (fun s x => ?_) _ s
  obtain ⟨d, b, l⟩ := x
  dsimp only
  have h (who : Option (List Nat)) := (roots_snoopAll d b e true ((s.coverLine d b).invTargets d e who none) (s.coverLine d b)).trans
    (roots_of_offMem (offMem_coverLine s d b))
  (repeat' split) <;> exact (roots_setLine ..).trans (h _)

/-! ### Extents (R112–R114) -/

theorem toZeroing_roots (s : State) (id : Nat) :
    (s.toZeroing id).roots = (s.setExtent id { s.extent id with st := .zeroing, revoke := none }).roots := by
  unfold State.toZeroing
  dsimp only
  split <;> split
  · exact (roots_snoopRevoked ..).trans (roots_critDone ..)
  · exact roots_snoopRevoked ..
  · exact roots_critDone ..
  · rfl

theorem toZeroing_extent (s : State) (id : Nat) :
    (s.toZeroing id).extent id = { s.extent id with st := .zeroing, revoke := none } := by
  rw [extent_of_roots (toZeroing_roots s id), setExtent_extent, if_pos rfl]

theorem toZeroing_time (s : State) (id : Nat) : (s.toZeroing id).time = s.time := (time_of_roots (toZeroing_roots s id)).trans rfl

/-- The bytes written stand where they were written. -/
theorem cellGet_puts_mem (m : List Host.Cell) (k : Nat) (l : List Byte) {i : Nat} (h : i < l.length) :
    cellGet (cellPuts m k l) (k + i) = l[i] := by
  induction l generalizing m k i with
  | nil => exact absurd h (Nat.not_lt_zero i)
  | cons b t ih =>
    unfold cellPuts
    cases i with
    | zero => exact (cellGet_puts _ t (Or.inl (Nat.lt_succ_self k))).trans (cellGet_put_self ..)
    | succ i => rw [show k + (i + 1) = k + 1 + i by omega, ih (m := cellPut m k b) (k := k + 1) (Nat.lt_of_succ_lt_succ h)]; rfl

theorem inject'_mem (s : State) (m : Meta) : (s.inject' m).1.mem = s.mem := by
  unfold State.inject'
  dsimp only
  (repeat' split) <;> simp [State.free]

/-- A bead written whole takes 64 bytes of memory at its address. -/
theorem writeBead_mem (s : State) (pa : Nat) (data : List Byte) (poison : Bool) :
    (s.writeBead pa data poison).mem = cellPuts s.mem (pa / 64 * 64) ((data ++ zeroBytes 64).take 64) := by
  unfold State.writeBead
  dsimp only
  split
  · exact (inject'_mem ..).trans rfl
  · rfl

/-- Whole beads zeroed read 0, an armed injection or not, and every other byte stands. -/
theorem zeroBeads_byteAt (s : State) {a n : Nat} (ha : a % 64 = 0) (hn : n % 64 = 0) (x : Nat) :
    (s.zeroBeads a n).byteAt x = if a ≤ x ∧ x < a + n then 0 else s.byteAt x := by
  have hzero (u : State) (hu : u.mem = (s.zeroMem a n).mem) : u.byteAt x = if a ≤ x ∧ x < a + n then 0 else s.byteAt x := by
    rw [State.byteAt, hu]
    refine (cellGet_filter s.mem (fun c => decide (c < a ∨ a + n ≤ c)) x).trans ?_
    by_cases hx : a ≤ x ∧ x < a + n
    · rw [if_pos hx, if_neg (by simpa using hx)]
    · rw [if_neg hx, if_pos (by simp only [decide_eq_true_eq]; omega)]; rfl
  unfold State.zeroBeads
  extract_lets u v t
  split
  case isFalse => exact hzero v rfl
  case isTrue h =>
    simp only [Bool.and_eq_true, decide_eq_true_eq] at h
    obtain ⟨⟨-, hat⟩, htn⟩ := h
    have ht : t / 64 * 64 = t := by omega
    have hz := hzero v rfl
    rw [State.byteAt, writeBead_mem, ht]
    by_cases hx : t ≤ x ∧ x < t + 64
    · obtain ⟨i, rfl⟩ := Nat.exists_eq_add_of_le hx.1
      have hi : i < (zeroBytes 64).length := by
        rw [zeroBytes, List.length_replicate]
        omega
      exact (cellGet_puts_mem v.mem t (zeroBytes 64) hi).trans ((List.getElem_replicate ..).trans (if_pos (by omega)).symm)
    · rw [cellGet_puts]
      · exact hz
      · simp [zeroBytes]; omega

@[simp] theorem offMem_zeroBeads (s : State) (a n : Nat) : (s.zeroBeads a n).offMem = s.offMem := by
  unfold State.zeroBeads
  dsimp only
  split
  · exact (offMem_writeBead ..).trans rfl
  · rfl

theorem mem_of_quiet {s t : State} (h : s.quiet = t.quiet) : s.mem = t.mem :=
  (congrArg State.mem h : s.quiet.mem = t.quiet.mem)

/-- The state in which a zeroed extent's beads are 0 and its lines cleared, before it is FREE. -/
def State.zeroedExtent (s : State) (e : Extent) : State :=
  let s := s.clearLines e
  if s.ctlFailed e.base then s else s.zeroBeads e.base e.bytes

theorem zeroedExtent_roots (s : State) (e : Extent) : (s.zeroedExtent e).roots = s.roots := by
  unfold State.zeroedExtent
  dsimp only
  split
  · rfl
  · exact roots_of_offMem (offMem_zeroBeads ..)

/-- Memory behind a FAILED controller stays; otherwise the extent's bytes read 0 and the others stay. -/
theorem zeroedExtent_mem (s : State) (e : Extent) :
    (s.ctlFailed e.base = true → (s.zeroedExtent e).mem = s.mem) ∧
    (s.ctlFailed e.base = false → ∀ a, (s.zeroedExtent e).byteAt a = if e.base ≤ a ∧ a < e.base + e.bytes then 0 else s.byteAt a) := by
  refine ⟨fun h => (congrArg State.mem (if_pos h)).trans rfl, fun h a => ?_⟩
  have hz := zeroBeads_byteAt (s.clearLines e) (a := e.base) (n := e.bytes) (by rw [Extent.base]; omega) (by rw [Extent.bytes]; omega) a
  have hf : (s.clearLines e).ctlFailed e.base ≠ true := by
    rw [show (s.clearLines e).ctlFailed e.base = s.ctlFailed e.base from rfl, h]
    decide
  exact (congrArg (fun u : State => u.byteAt a) (if_neg hf)).trans hz

/-- A zeroed extent whose snoops are answered is FREE, and no other changes. -/
theorem extentZeroingDone_spec (s : State) (id : Fin 16384) (hst : (s.extent id).st = .zeroing)
    (hsn : s.snoopsDone (s.extent id) = true) : ∃ t, exec (.extentZeroingDone id) s = .next t ∧
      t.mem = (s.zeroedExtent (s.extent id)).mem ∧ ∀ n, t.extent n = if n = id.val then
        { s.extent id with st := .free, freedAt := some s.time, vaBase := none, snoopKey := none, deadline := 0, revoke := none }
        else s.extent n := by
  refine ⟨_, congrArg Host.Outcome.next (if_pos (by simp [hst, hsn])), (mem_of_quiet (quiet_postMgr ..)).trans rfl, fun n => ?_⟩
  refine (extent_of_quiet (quiet_postMgr ..) n).trans ((setExtent_extent ..).trans ?_)
  have htime := time_of_roots (zeroedExtent_roots s (s.extent id))
  split
  · refine congrArg (fun t : Nat => ({ s.extent id with
      st := .free, freedAt := some t, vaBase := none, snoopKey := none, deadline := 0, revoke := none } : Extent)) htime
  · exact extent_of_roots (zeroedExtent_roots s (s.extent id)) n

/-! ### Contexts (R423, R424) -/

theorem tally_ring (s : State) (k : PageKind) (i e q m : Nat) (c : Option Nat) (n : Nat) :
    (s.tally k i e q m c).ring n = s.ring n := by
  obtain ⟨x, h⟩ := State.tally_eq s k i e q m c
  rw [h]
  rfl

/-- A record entered into one ring leaves every other. -/
theorem enqueue_ring_other (s : State) {m n : Nat} (r : Record) (h : n ≠ m) : (s.enqueue m r).ring n = s.ring n := by
  unfold State.enqueue State.dropRecord
  dsimp only
  (repeat' split) <;> simp [setRing_ring, h, tally_ring]

theorem raise_ring_other (s : State) (k : PageKind) (i b : Nat) {n : Nat} (h : n ≠ mgrRing) : (s.raise k i b).ring n = s.ring n := by
  unfold State.raise
  dsimp only
  (repeat' split)
  · rfl
  · rfl
  · exact (enqueue_ring_other _ _ h).trans rfl

theorem post_ring_other (s : State) (r : Record) {n : Nat} (h : n ≠ mgrRing) : (s.post mgrRing r).ring n = s.ring n := by
  unfold State.post
  dsimp only
  split
  · exact (raise_ring_other _ _ _ _ h).trans (enqueue_ring_other _ _ h)
  · exact enqueue_ring_other _ _ h

/-- A listed extent is an entry of the table. -/
theorem mem_of_tblGet? {t : Tbl α} {k : Nat} {v : α} (h : tblGet? t k = some v) : (k, v) ∈ t := by
  induction t with
  | nil => cases h
  | cons x t ih =>
    obtain ⟨k', v'⟩ := x
    unfold tblGet? at h
    split at h
    · rename_i hk
      cases h
      exact hk ▸ List.mem_cons_self
    · exact List.mem_cons_of_mem _ (ih h)

theorem foldl_zeroing_roots (ids : List Nat) (s : State) :
    ((ids.foldl (fun s id => s.setExtent id { s.extent id with st := .zeroing }) s).roots).2 = s.roots.2 :=
  foldl_keeps (fun s => s.roots.2) (g := fun (s : State) id => s.setExtent id { s.extent id with st := .zeroing }) (fun _ _ => rfl) ids s

theorem foldl_zeroing_extent (ids : List Nat) (s : State) (n : Nat) (h : n ∈ ids ∨ (s.extent n).st = .zeroing) :
    ((ids.foldl (fun s id => s.setExtent id { s.extent id with st := .zeroing }) s).extent n).st = .zeroing := by
  induction ids generalizing s with
  | nil => exact h.resolve_left (List.not_mem_nil)
  | cons id ids ih =>
    refine ih _ ?_
    rw [setExtent_extent]
    split
    · exact Or.inr rfl
    · rename_i hne
      exact h.imp_left fun h => (List.mem_cons.1 h).resolve_left hne

/-- A context's removal: it is REMOVING and its extents are ZEROING, at the same moment. -/
theorem removeContext_spec (s : State) (c : Nat) : let t := s.removeContext c
    (t.ctx c).st = .removing ∧ t.time = s.time ∧ ∀ id ∈ (s.extentsOf c).map (·.1), (t.extent id).st = .zeroing := by
  unfold State.removeContext
  extract_lets held s1 x s2 s3 ids s4 xlt
  have h1 : s1.roots = s.roots := foldl_keeps State.roots (g := fun s (v : Nat × InSlot) => State.force s v.1 stContextGone)
    (fun _ _ => roots_force ..) held s
  have h3 : s3.roots = s2.roots := by
    refine foldl_keeps State.roots (fun s k => ?_) _ s2
    dsimp only
    split <;> rfl
  have h4 : s4.roots.2 = s3.roots.2 := foldl_zeroing_roots ids s3
  have hids : ids = (s.extentsOf c).map (·.1) := by
    have he : s3.xlt.extents = s.xlt.extents := (congrArg (·.1) h3).trans ((rfl : s2.roots.1 = s1.roots.1).trans (congrArg (·.1) h1))
    show (s3.extentsOf c).map (·.1) = _
    rw [State.extentsOf, he, State.extentsOf]
  have hctx : s4.ctx c = s2.ctx c := ctx_of_ten_boot (congrArg (·.1) (h4.trans (congrArg (·.2) h3)))
    (congrArg (·.2.1) (h4.trans (congrArg (·.2) h3))) c
  have h1t : s1.time = s.time := time_of_roots h1
  refine ⟨?_, ?_, fun id hid => ?_⟩
  · show (s4.ctx c).st = .removing
    rw [hctx, setCtx_ctx]
  · show s4.time = s.time
    exact (congrArg (·.2.2) (h4.trans (congrArg (·.2) h3)) : s4.time = s2.time).trans h1t
  · show (s4.extent id).st = .zeroing
    exact foldl_zeroing_extent ids s3 id (Or.inl (hids ▸ hid))

theorem removeAll_spec (s : State) (c : Nat) : let t := s.removeAll c
    (t.ctx c).st = .removing ∧ t.time = s.time ∧
    ∀ id, (s.extent id).st ≠ .free → (s.extent id).kind = 0 → (s.extent id).owner = c → (t.extent id).st = .zeroing := by
  unfold State.removeAll
  extract_lets es refs s1 s2
  obtain ⟨hst, htime, hext⟩ := removeContext_spec s c
  have h2 : s2.roots = s1.roots := foldl_keeps State.roots (g := fun s (e : Nat × Extent) => State.snoopRevoked s (s.extent e.1))
    (fun _ _ => roots_snoopRevoked ..) es s1
  have h3 := (foldl_keeps State.roots (g := fun s r => State.critDone s r stOk) (fun _ _ => roots_critDone ..) refs s2).trans h2
  refine ⟨?_, (time_of_roots h3).trans htime, fun id hfree hkind hown => ?_⟩
  · rw [ctx_of_roots h3]
    exact hst
  · rw [extent_of_roots h3]
    refine hext id (List.mem_map.2 ⟨(id, s.extent id), ?_, rfl⟩)
    refine List.mem_filter.2 ⟨?_, by simp [hfree, hkind, hown]⟩
    cases h : tblGet? s.xlt.extents id with
    | none => exact absurd (by rw [State.extent, tblGet, h]; rfl) hfree
    | some e =>
      have he : s.extent id = e := by rw [State.extent, tblGet, h]; rfl
      exact he.symm ▸ mem_of_tblGet? h

/-! ### The obligation -/

/-- Settles O32: a force, a snoop and a completion leave the extents, the contexts and the time; memory changes only by the beads
zeroed. -/
theorem extentsContextsAndKeysEnd : Obligations.ExtentsContextsAndKeysEnd := by
  unfold Obligations.ExtentsContextsAndKeysEnd
  refine ⟨fun s id => ⟨fun hst hin => ?_, fun hst => ?_, fun hst hsn => ?_⟩, fun s n => ⟨?_, fun hst hdone => ?_, fun h => ?_, fun hst => ?_⟩⟩
  · refine ⟨s.toZeroing id, congrArg Host.Outcome.next (if_pos (by simp [hst, hin])), ?_, ?_, toZeroing_time s id⟩ <;>
      rw [toZeroing_extent]
  · intro u v
    refine ⟨{ typ := 0x0015, cls := 1, source := 0x3000, ctx := (v.extent id).owner, ext := id, gen := (v.extent id).gen
              detail := detail [(0, leBytes 4 (u.inFlight id).length)] },
      (congrArg Host.Outcome.next (if_pos (by simp [hst]))).trans ?_, rfl, fun x => ⟨toZeroing_time x id, by rw [toZeroing_extent]⟩⟩
    refine congrArg (fun y : State => (.next (y.toZeroing id) : Outcome)) ?_
    show (if (u.inFlight id).isEmpty = true then v else _) = _
    by_cases hl : u.inFlight id = []
    · rw [if_pos hl, if_pos (by rw [hl]; rfl)]
    · rw [if_neg hl, if_neg (by simpa using hl)]
  · obtain ⟨t, hexec, hmem, hext⟩ := extentZeroingDone_spec s id hst hsn
    obtain ⟨hfailed, hgood⟩ := zeroedExtent_mem s (s.extent id)
    refine ⟨t, hexec, (hext id).trans (if_pos rfl), fun n hn => (hext n).trans (if_neg hn), fun h => hmem.trans (hfailed h), fun h a => ?_⟩
    exact (congrArg (fun m => cellGet m a) hmem).trans (hgood h a)
  · intro row end_ hrow hst hcause
    obtain ⟨rfl, hheld, rfl⟩ | ⟨rfl, rfl⟩ := hrow
    · obtain ⟨h1, h2, h3⟩ := removeAll_spec s n
      exact ⟨s.removeAll n, congrArg Host.Outcome.next (if_pos (by simp [hst, hcause, hheld])), h1, h2, h3⟩
    · obtain ⟨k, he⟩ := State.elapseTo_eq s (s.ctx n).drainEnd
      obtain ⟨h1, h2, h3⟩ := removeAll_spec (s.elapseTo (s.ctx n).drainEnd) n
      refine ⟨_, congrArg Host.Outcome.next (if_pos (by simp [hst, hcause])), h1, h2.trans ?_, ?_⟩
      · rw [he]
      · have hext (id : Nat) : (s.elapseTo (s.ctx n).drainEnd).extent id = s.extent id := by rw [he]; rfl
        exact fun id => hext id ▸ h3 id
  · refine ⟨s.freeContext n, congrArg Host.Outcome.next (if_pos (by simp [hst, hdone])), ?_, ?_, ?_⟩
    · exact (ctx_of_calm (calm_of_quiet (quiet_postMgr ..)) n).trans (setCtx_ctx s n {})
    · refine (post_ring_other _ _ (Nat.ne_of_lt n.isLt)).trans ?_
      exact (tblGet_del ..).trans (if_pos rfl)
    · exact (mem_of_quiet (quiet_postMgr ..)).trans rfl
  · refine ⟨s.zeroize n .empty, congrArg Host.Outcome.next (if_pos (by simpa using h)), ?_, ?_, rfl, fun m hm => ?_⟩
    · exact (setKey_keySlot ..).trans (if_pos rfl)
    · intro w hw
      simpa using (List.mem_filter.1 hw).2
    · exact (setKey_keySlot ..).trans (if_neg hm)
  · exact if_neg (by simp [hst])

end Sys2Proof.Machine
end

section
/-!
The manager's commands and the balance audits (R55, R366, R367, R383, R430, R440, R451).
-/

namespace Sys2Proof.Machine

/-! ### JOIN (R55, R439) -/

/-- The record a join announcement makes of its module. -/
def State.joined (t : State) (v : InSlot) : Module :=
  { joinModule v.pkt.own t.time with dead := ((tblGet? t.mgr.roster v.src).map (·.dead)).getD false }

/-- The state in which a join announcement has been recorded and answered. -/
def State.recordJoin (t : State) (key : Nat) (v : InSlot) : State :=
  (State.deriveFor { t with mgr := { t.mgr with roster := tblPut t.mgr.roster v.src (t.joined v) } } v.src (t.joined v)).complete key stOk

theorem actJoin_refuses {t : State} {key : Nat} {v : InSlot} (h : t.slot? key = some v) :
    (t.mgr.role ≠ 2 → t.actJoin key = t.complete key stUnsupported) ∧
    (t.mgr.role = 2 → v.pkt.own.length ≠ 72 ∨ joinEp v.pkt.own ≠ v.src → t.actJoin key = t.complete key stMalformed) := by
  rw [State.actJoin, h]
  exact ⟨fun hr => if_pos hr, fun hr hm => (if_neg (not_not.2 hr)).trans (if_pos hm)⟩

/-- An announcement that the active manager takes is recorded; the returning home module's then starts the copy. -/
theorem actJoin_accepts {t : State} {key : Nat} {v : InSlot} (h : t.slot? key = some v) (hr : t.mgr.role = 2)
    (hlen : v.pkt.own.length = 72) (hep : joinEp v.pkt.own = v.src) : let u := t.recordJoin key v
    t.actJoin key = if v.src = u.actBits .mgr 0 0x044 27 16 ∧ v.src ≠ u.ep ∧ u.mgr.home = none ∧
      (!(u.mgr.mirrorOk && u.standby == v.src)) = true ∧ u.changesRefused = false then u.startHome v.src (t.joined v).dead else u := by
  rw [State.actJoin, h]
  dsimp only
  rw [if_neg (not_not.2 hr), if_neg (by simp [hlen, hep]), hep] <;> rfl

theorem deriveFor_mgr (s : State) (ep : Nat) (m : Module) : (s.deriveFor ep m).mgr = s.mgr := by
  unfold State.deriveFor State.deriveSelf State.putRoster State.deriveOwn
  dsimp only
  (repeat' split) <;> rfl

theorem mgr_of_calm {s t : State} (h : s.calm = t.calm) : s.mgr = t.mgr := by
  show s.calm.mgr = t.calm.mgr
  rw [h]

theorem recordJoin_roster (t : State) (key : Nat) (v : InSlot) :
    (t.recordJoin key v).mgr.roster = tblPut t.mgr.roster v.src (t.joined v) :=
  congrArg Mgr.roster ((mgr_of_calm (calm_complete ..)).trans (deriveFor_mgr ..))

/-! ### TALLY_READ (R451) -/

theorem tallyEntry_length (s : State) (c : Nat) (e : List Byte) : (s.tallyEntry c e).length = 16 := by
  unfold State.tallyEntry
  dsimp only
  (repeat' split) <;> simp [zeroBytes, leBytes]

/-! ### Balance audits (R366, R367) -/

theorem auditLedger_checked (s : State) (b : Balance) (k : PageKind) (i base n : Nat) :
    (s.auditLedger b k i base n).2.checked = b.checked + 1 := by
  unfold State.auditLedger
  dsimp only
  split <;> rfl

theorem foldl_auditLedger_checked (k : PageKind) (i base : Nat) (l : List Nat) (a : State × Balance) :
    (l.foldl (fun (a : State × Balance) n => a.1.auditLedger a.2 k i base n) a).2.checked = a.2.checked + l.length := by
  induction l generalizing a with
  | nil => rfl
  | cons n l ih =>
    rw [List.foldl_cons, ih, auditLedger_checked, List.length_cons]
    omega

/-- An audited page counts each of its ledgers. -/
theorem auditPage_checked (s : State) (b : Balance) (k : PageKind) (i base : Nat) :
    (s.auditPage b k i base).2.checked = b.checked + ledgerCount k :=
  (foldl_auditLedger_checked k i base _ (s, b)).trans (congrArg (b.checked + ·) List.length_range)

/-- A page held for the audit is marked held, and nothing else of the record changes. -/
theorem eq_of_holdPage {s : State} {b b' : Balance} {base : Nat} (h : s.holdPage b base = some b') : b' = { b with held := true } := by
  unfold State.holdPage at h
  split at h
  · split at h
    · exact (Option.some.inj h).symm
    · cases h
  · cases h

theorem execBalanceWaitExpiry_of_head {s : State} {b : Balance} {base : Nat} {rest : List Nat} (h : s.txn.balance = some b)
    (hheld : b.held = false) (hpages : b.pages = base :: rest) : let u := s.elapseTo (b.since + b.waitNs)
    exec .balanceWaitExpiry s = .next (match u.holdPage b base with
      | some b => u.setBalance (some b)
      | none => u.nextPage { b with notIdle := b.notIdle + 1 } rest) := by
  show execBalanceWaitExpiry s = _
  rw [execBalanceWaitExpiry, h]
  dsimp only
  rw [hpages]
  exact congrArg Host.Outcome.next (if_pos (by rw [hheld]; rfl))

theorem execBalancePageAuditDone_of_head {s : State} {b : Balance} {base : Nat} {rest : List Nat} (h : s.txn.balance = some b)
    (hpages : b.pages = base :: rest) : exec .balancePageAuditDone s = match s.holdPage b base, pageOf base with
      | some b, some (k, i) => .next ((s.auditPage b k i base).1.nextPage { (s.auditPage b k i base).2 with held := false } rest)
      | _, _ => .next s := by
  show execBalancePageAuditDone s = _
  rw [execBalancePageAuditDone, h]
  dsimp only
  rw [hpages] <;> rfl

/-- Settles O33: each admitted command is its unit's case by case; a held page's audit counts its ledgers. -/
theorem managerCommandsAndAudits : Obligations.ManagerCommandsAndAudits := by
  unfold Obligations.ManagerCommandsAndAudits
  refine ⟨fun s t port p v => ⟨fun ha hv => ?_, fun ha hv => ?_, fun ha hv => ?_, fun ha hv => ?_, fun ha hv => ?_⟩, fun s b base rest hb hpages => ?_⟩
  · have hact : exec (.join port p) s = .next (t.actJoin (cmdSlot 0x43 p)) := congrArg Host.Outcome.next (arrive_of_admits ha _)
    obtain ⟨hrole, hshape⟩ := actJoin_refuses hv
    intro k ep m u home
    refine ⟨fun hr => hact.trans (congrArg _ (hrole hr)), fun hr hm => hact.trans (congrArg _ (hshape hr hm)), fun hr hlen hep => ?_⟩
    have hu : u.mgr.roster = tblPut t.mgr.roster ep m := recordJoin_roster t k v
    have hhome : (ep = u.actBits .mgr 0 0x044 27 16 ∧ ep ≠ u.ep ∧ u.mgr.home = none ∧
        (!(u.mgr.mirrorOk && u.standby == ep)) = true ∧ u.changesRefused = false) ↔ home := by
      simp only [home]
      cases u.mgr.mirrorOk <;> simp
    rw [actJoin_accepts hv hr hlen hep] at hact
    refine ⟨fun hn => hact.trans (congrArg _ (if_neg (hhome.not.2 hn))), fun hy => hact.trans (congrArg _ (if_pos (hhome.2 hy))), ?_,
      rfl, rfl, rfl, rfl, fun n hn => ?_⟩
    · rw [hu, tblGet?_put, if_pos rfl]
    · rw [hu, tblGet?_put, if_neg hn]
  · have hact : exec (.epState port p) s = .next ((t.actEpState (cmdSlot 0xC1 p)).engineRetry) :=
      congrArg Host.Outcome.next (arrive_of_admits ha _)
    rw [State.actEpState, hv] at hact
    dsimp only [State.ifOk] at hact
    intro k u
    refine ⟨fun hc => ?_, fun hc hr => ?_, fun hc hr => ?_⟩
    · rw [if_neg hc] at hact
      exact hact
    · rw [if_pos hc, if_neg hr] at hact
      exact hact
    · rw [if_pos hc, if_pos hr] at hact
      exact hact
  · have hact : exec (.takeback port p) s = .next (t.actTakeback (cmdSlot 0xC3 p)) := congrArg Host.Outcome.next (arrive_of_admits ha _)
    rw [State.actTakeback, hv] at hact
    exact ⟨fun hc => hact.trans (congrArg Host.Outcome.next (if_neg hc)), fun hc => hact.trans (congrArg Host.Outcome.next (if_pos hc))⟩
  · have hact : exec (.balanceCheck port p) s = .next (t.actBalance (cmdSlot 0xC0 p)) := congrArg Host.Outcome.next (arrive_of_admits ha _)
    rw [State.actBalance, hv] at hact
    dsimp only at hact
    intro shaped
    have hsh : (v.pkt.own.length ≠ 8 ∨ zeros v.pkt.own 4 4 = false ∨ v.pkt.context ≠ 0) ↔ ¬shaped := by
      simp only [shaped]
      cases zeros v.pkt.own 4 4 <;> simp <;> tauto
    refine ⟨fun hn => ?_, fun hy hbal => ?_, fun hy hbal => ?_⟩
    · rw [if_pos (hsh.2 hn)] at hact
      exact hact
    · rw [if_neg (fun h => hsh.1 h hy), if_pos (Option.isSome_iff_ne_none.2 hbal)] at hact
      exact hact
    · rw [if_neg (fun h => hsh.1 h hy), if_neg (by simp [hbal])] at hact
      rw [us_eq] at hact
      exact hact
  · have hact : exec (.tallyRead port p) s = .next (t.tallyRead (cmdSlot 0xC5 p)) := congrArg Host.Outcome.next (arrive_of_admits ha _)
    rw [State.tallyRead, hv] at hact
    dsimp only at hact
    intro reads n shaped data
    have hreads : (!(t.isMember v.ctx v.src && (t.ctx v.ctx).st == .active && (t.ctx v.ctx).tallyRead)) = true ↔ ¬reads := by
      simp only [reads]
      cases t.isMember v.ctx v.src <;> cases (t.ctx v.ctx).tallyRead <;> simp
    have hshaped : (n = 0 ∨ 16 < n ∨ (!zeros v.pkt.own 1 7) = true ∨ v.pkt.own.length ≠ 8 + 4 * n) ↔ ¬shaped := by
      simp only [shaped]
      cases zeros v.pkt.own 1 7 <;> simp <;> omega
    have hlen : data.length = 16 * n := by
      simp [data, List.length_flatMap, tallyEntry_length, Nat.mul_comm]
    refine ⟨fun hn => ?_, fun hy hn => ?_, fun hy hs => ⟨?_, hlen⟩⟩
    · rw [if_pos (hreads.2 hn)] at hact
      exact hact
    · rw [if_neg (fun h => hreads.1 h hy), if_pos (hshaped.2 hn)] at hact
      exact hact
    · rw [if_neg (fun h => hreads.1 h hy), if_neg (fun h => hshaped.1 h hs)] at hact
      exact hact
  · refine ⟨fun hheld => ⟨fun hnone => ?_, fun b' hsome => ⟨?_, ?_⟩⟩, fun hnone => ?_, fun b' k i hsome hpage => ⟨?_, ?_⟩, rfl⟩
    · exact (execBalanceWaitExpiry_of_head hb hheld hpages).trans (by rw [hnone])
    · exact (execBalanceWaitExpiry_of_head hb hheld hpages).trans (by rw [hsome])
    · exact eq_of_holdPage hsome
    · exact (execBalancePageAuditDone_of_head hb hpages).trans (by rw [hnone])
    · exact (execBalancePageAuditDone_of_head hb hpages).trans (by rw [hsome, hpage])
    · rw [auditPage_checked, eq_of_holdPage hsome]

end Sys2Proof.Machine
end

section
/-!
What memory, its homes and the tracker leave of the rest of the module: a request on its way to a controller, a snoop, a gather and a
journal record change none of it.
-/

namespace Sys2Proof.Machine

/-- The state without memory, its controllers, homes and stripes, the tracker and the router's queues, and what reports and completions
change. -/
def State.ground (s : State) : State :=
  { s with
    mem := [], beads := [], ctl := [], ecc := {}, dir := [], freeCtr := 0, txn := {}, regs := [], tly := {}, out := []
    xlt := { s.xlt with rings := [], invals := [] }
    ten := { s.ten with keys := [], roster := [], own := none, previous := [] }
    rtr := { s.rtr with queues := [], beam := [], depthMax := [], held := [] }
    qos := { s.qos with hosts := [] }
    kvs := { s.kvs with moves := [] } }

theorem ground_of_calm {s t : State} (h : s.calm = t.calm) : s.ground = t.ground := by
  show s.calm.ground = t.calm.ground
  rw [h]

theorem ground_of_offMem {s t : State} (h : s.offMem = t.offMem) : s.ground = t.ground := by
  show s.offMem.ground = t.offMem.ground
  rw [h]

/-- The state that an operation gives beside a value. -/
theorem ground_of_fst {α : Type} {x : State × α} {u s : State} {a : α} (h : x = (u, a)) (hx : x.1.ground = s.ground) :
    u.ground = s.ground := by
  rw [h] at hx
  exact hx

/-! ### Reports and completions -/

@[simp] theorem ground_setReg (s : State) (a : Nat) (w : Word) : (s.setReg a w).ground = s.ground := rfl
@[simp] theorem ground_bump (s : State) (a n c : Nat) : (s.bump a n c).ground = s.ground := rfl
@[simp] theorem ground_setSlot (s : State) (k : Nat) (v : InSlot) : (s.setSlot k v).ground = s.ground := rfl
@[simp] theorem ground_free (s : State) : s.free.2.ground = s.ground := rfl
@[simp] theorem ground_setCtl (s : State) (c : Nat) (v : Ctl) : (s.setCtl c v).ground = s.ground := rfl
@[simp] theorem ground_setUnit (s : State) (c u : Nat) (v : Unit) : (s.setUnit c u v).ground = s.ground := rfl
@[simp] theorem ground_setSlice (s : State) (d : Nat) (v : Slice) : (s.setSlice d v).ground = s.ground := rfl
@[simp] theorem ground_setProt (s : State) (e : Nat) (p : Prot) : (s.setProt e p).ground = s.ground := rfl
@[simp] theorem ground_setHeld (s : State) (h : HeldWrite) : (s.setHeld h).ground = s.ground := rfl
@[simp] theorem ground_setGather (s : State) (g : Gather) : (s.setGather g).ground = s.ground := rfl
@[simp] theorem ground_tally (s : State) (k : PageKind) (i e q n : Nat) (c : Option Nat) : (s.tally k i e q n c).ground = s.ground :=
  ground_of_calm (calm_tally ..)
@[simp] theorem ground_raise (s : State) (k : PageKind) (i b : Nat) : (s.raise k i b).ground = s.ground := ground_of_calm (calm_raise ..)
@[simp] theorem ground_post (s : State) (n : Nat) (r : Record) : (s.post n r).ground = s.ground := ground_of_calm (calm_post ..)
@[simp] theorem ground_postMgr (s : State) (r : Record) : (s.postMgr r).ground = s.ground := ground_post ..
@[simp] theorem ground_postCtx (s : State) (c : Nat) (r : Record) : (s.postCtx c r).ground = s.ground := ground_post ..
@[simp] theorem ground_complete (s : State) (k st : Nat) (d : List Byte) : (s.complete k st d).ground = s.ground :=
  ground_of_calm (calm_complete ..)

@[simp] theorem ground_issue (s : State) (p : Packet) (k : KeyRef) (w : Purpose) (c : Option Nat) (r : Bool) :
    (s.issue p k w c r).1.ground = s.ground := by
  unfold State.issue
  dsimp only
  (repeat' split)
  · rfl
  · rfl
  · rfl
  · exact ground_of_calm (calm_routeDrop ..)
  all_goals exact (ground_of_calm (calm_send ..)).trans (ground_of_calm (calm_seal ..))

/-! ### Controllers -/

@[simp] theorem ground_setLine (s : State) (d b : Nat) (l : Line) : (s.setLine d b l).ground = s.ground := ground_of_offMem (offMem_setLine ..)
@[simp] theorem ground_readOut (s : State) (pa : Nat) (x : List (Nat × Nat)) : (s.readOut pa x).1.ground = s.ground :=
  ground_of_offMem (offMem_readOut ..)
@[simp] theorem ground_writeBead (s : State) (pa : Nat) (b : List Byte) (p : Bool) : (s.writeBead pa b p).ground = s.ground :=
  ground_of_offMem (offMem_writeBead ..)
@[simp] theorem ground_fieldWrite (s : State) (d b c : Nat) : (s.fieldWrite d b c).ground = s.ground := ground_of_offMem (offMem_fieldWrite ..)
@[simp] theorem ground_coverLine (s : State) (d b : Nat) : (s.coverLine d b).ground = s.ground := ground_of_offMem (offMem_coverLine ..)
@[simp] theorem ground_fetchMeta (s : State) (c o : Nat) (x : Option Nat) : (s.fetchMeta c o x).ground = s.ground :=
  ground_of_offMem (offMem_fetchMeta ..)
@[simp] theorem ground_touchBead (s : State) (c a q : Nat) (w : Bool) (x : Option Nat) : (s.touchBead c a q w x).ground = s.ground :=
  ground_of_offMem (offMem_touchBead ..)
@[simp] theorem ground_tallyCtl (s : State) (c e q : Nat) (x : Option Nat) : (s.tallyCtl c e q x).ground = s.ground :=
  ground_of_offMem (offMem_tallyCtl ..)

@[simp] theorem ground_wakeCtl (s : State) (c : Nat) : (s.wakeCtl c).ground = s.ground := by
  unfold State.wakeCtl
  dsimp only
  (repeat' split) <;> rfl

/-- A request that comes to its unit. -/
@[simp] theorem ground_toCtl (s : State) (pa : Nat) (op : BeadOp) (cls : Nat) (o : Origin) : (s.toCtl pa op cls o).ground = s.ground := by
  unfold State.toCtl
  split
  · rfl
  · exact (ground_wakeCtl ..).trans (ground_setUnit ..)

@[simp] theorem ground_unitGo (s : State) (pa cls : Nat) (w : Bool) : (s.unitGo pa cls w).1.ground = s.ground := by
  unfold State.unitGo
  dsimp only
  (repeat' split) <;> simp [State.spendCredit]

@[simp] theorem ground_homeStore (s : State) (pa : Nat) (b : List Byte) (p : Bool) : (s.homeStore pa b p).ground = s.ground := by
  unfold State.homeStore
  have h := ground_unitGo s pa 2 true
  (repeat' split)
  · rfl
  · exact (ground_writeBead ..).trans (ground_of_fst ‹_› h)
  · exact (ground_toCtl ..).trans (ground_of_fst ‹_› h)

@[simp] theorem ground_homePoison (s : State) (pa : Nat) : (s.homePoison pa).ground = s.ground := by
  unfold State.homePoison
  have h := ground_unitGo s pa 2 true
  split
  · rfl
  · split
    · rename_i u heq
      have hr := (ground_readOut u pa []).trans (ground_of_fst heq h)
      split <;> exact (ground_writeBead ..).trans (ground_of_fst ‹_› hr)
    · exact (ground_toCtl ..).trans (ground_of_fst ‹_› h)

/-! ### Stripes (R156–R164) -/

@[simp] theorem ground_sendPartner (s : State) (e : Nat) (p : Prot) (m : Member) (op : Nat) (b : List Byte) :
    (s.sendPartner e p m op b).1.ground = s.ground := ground_issue ..

@[simp] theorem ground_degrade (s : State) (e j c : Nat) : (s.degrade e j c).ground = s.ground := by
  unfold State.degrade
  (repeat' split) <;> simp

@[simp] theorem ground_sendFwd (s : State) (h : HeldWrite) : (s.sendFwd h).1.ground = s.ground := by
  unfold State.sendFwd
  dsimp only
  (repeat' split) <;> simp

@[simp] theorem ground_askMembers (n : Nat) (s : State) (g : Gather) : (s.askMembers g n).ground = s.ground := by
  induction n generalizing s g with
  | zero => rfl
  | succ n ih =>
    unfold State.askMembers
    dsimp only
    (repeat' split) <;> simp [ih]

@[simp] theorem ground_startGather (s : State) (e o p : Nat) (w : GatherFor) (a : List Nat) (b : List Byte) (x : Bool) :
    (s.startGather e o p w a b x).ground = s.ground := (ground_askMembers ..).trans rfl

@[simp] theorem ground_gatherOwn (s : State) (e pa : Nat) (w : GatherFor) : (s.gatherOwn e pa w).ground = s.ground := by
  unfold State.gatherOwn
  split <;> simp

@[simp] theorem ground_waitRebuild (s : State) (e pa k i : Nat) : (s.waitRebuild e pa k i).ground = s.ground := by
  unfold State.waitRebuild
  dsimp only
  (repeat' split) <;> simp

@[simp] theorem ground_performBead (s : State) (k i : Nat) : (s.performBead k i).ground = s.ground := by
  unfold State.performBead
  dsimp only
  (repeat' split) <;> simp
  rfl

/-! ### Lines (R371–R384) -/

@[simp] theorem ground_snoop (s : State) (d b k t : Nat) (e : Extent) (r : Bool) : (s.snoop d b k t e r).1.ground = s.ground := by
  unfold State.snoop
  dsimp only
  (repeat' split) <;> simp

@[simp] theorem ground_snoopAll (d b : Nat) (e : Extent) (r : Bool) (ts : List Nat) (s : State) :
    (s.snoopAll d b e r ts).1.ground = s.ground := by
  induction ts generalizing s with
  | nil => rfl
  | cons t ts ih =>
    unfold State.snoopAll
    dsimp only
    split <;> simp [ih]

@[simp] theorem ground_stampOf (s : State) (d : Nat) : (s.stampOf d).1.ground = s.ground := rfl

@[simp] theorem ground_lookup (s : State) (d b t : Nat) (c : Option Nat) : (s.lookup d b t c).ground = s.ground := by
  unfold State.lookup
  dsimp only
  (repeat' split) <;> simp

@[simp] theorem ground_storeRoom (s : State) (d b : Nat) : (s.storeRoom d b).ground = s.ground := by
  unfold State.storeRoom
  dsimp only
  (repeat' split) <;> simp

@[simp] theorem ground_openRecord (s : State) (d b r : Nat) : (s.openRecord d b r).ground = s.ground := by
  simp [State.openRecord]

@[simp] theorem ground_addSharer (s : State) (d b r : Nat) : (s.addSharer d b r).ground = s.ground := by
  unfold State.addSharer
  dsimp only
  (repeat' split) <;> simp

@[simp] theorem ground_recoverLine (s : State) (d b o : Nat) : (s.recoverLine d b o).ground = s.ground := by
  unfold State.recoverLine
  dsimp only
  (repeat' split) <;> simp

@[simp] theorem ground_performHead (s : State) (k i : Nat) : (s.performHead k i).1.ground = s.ground := by
  unfold State.performHead
  dsimp only
  (repeat' split) <;> simp

@[simp] theorem ground_goOn (s : State) (d b : Nat) : (s.goOn d b).1.ground = s.ground := by
  unfold State.goOn
  split <;> simp

@[simp] theorem ground_invalidate (s : State) (d b : Nat) (e : Extent) (x : Option Nat) : (s.invalidate d b e x).1.ground = s.ground := by
  unfold State.invalidate
  dsimp only
  (repeat' split) <;> simp

@[simp] theorem ground_snoopOwner (s : State) (d b : Nat) (e : Extent) (k o : Nat) : (s.snoopOwner d b e k o).1.ground = s.ground := by
  unfold State.snoopOwner
  dsimp only
  (repeat' split) <;> simp

@[simp] theorem ground_seekOwner (s : State) (d b : Nat) (e : Extent) (x : Option Nat) : (s.seekOwner d b e x).1.ground = s.ground := by
  unfold State.seekOwner
  dsimp only
  (repeat' split) <;> simp

@[simp] theorem ground_startHead (s : State) (d b k i : Nat) (e : Extent) : (s.startHead d b k i e).1.ground = s.ground := by
  unfold State.startHead
  dsimp only
  (repeat' split) <;> simp

/-- The requests of a line served in turn. -/
@[simp] theorem ground_serveLine (d b n : Nat) (s : State) : (s.serveLine d b n).ground = s.ground := by
  induction n generalizing s with
  | zero => rfl
  | succ n ih =>
    unfold State.serveLine
    dsimp only
    split
    · rfl
    · split
      · rename_i key idx _ _ e _ _
        have h := (ground_startHead (s.setLine d b { s.line d b with serving := true }) d b key idx e).trans (ground_setLine ..)
        split <;> rename_i heq
        · exact ground_of_fst heq h
        · exact (ih _).trans ((ground_setLine ..).trans (ground_of_fst heq h))
      · simp

@[simp] theorem ground_endHead (s : State) (d b : Nat) : (s.endHead d b).ground = s.ground := by
  simp [State.endHead]

@[simp] theorem ground_proceed (s : State) (d b : Nat) : (s.proceed d b).ground = s.ground := by
  unfold State.proceed
  have h := ground_goOn s d b
  split <;> rename_i heq
  · exact (ground_endHead ..).trans (ground_of_fst heq h)
  · exact ground_of_fst heq h

@[simp] theorem ground_grantLine (s : State) (d b k : Nat) (x : List Byte) (p : Bool) : (s.grantLine d b k x p).ground = s.ground := by
  simp [State.grantLine]

@[simp] theorem ground_recallFor (s : State) (d b : Nat) : (s.recallFor d b).ground = s.ground := by
  unfold State.recallFor
  dsimp only
  (repeat' split) <;> simp

@[simp] theorem ground_grantOwn (s : State) (d b k r : Nat) (x : List Byte) (p a : Bool) : (s.grantOwn d b k r x p a).ground = s.ground := by
  unfold State.grantOwn
  dsimp only
  (repeat' split) <;> simp

@[simp] theorem ground_retryGrants (s : State) (d b : Nat) : (s.retryGrants d b).ground = s.ground := by
  unfold State.retryGrants
  refine foldl_keeps State.ground (fun s x => ?_) _ s
  (repeat' split) <;> simp

@[simp] theorem ground_homeWrite (s : State) (pa : Nat) (x : List Byte) (p : Bool) : (s.homeWrite pa x p).1.ground = s.ground := by
  unfold State.homeWrite
  dsimp only
  (repeat' split) <;> simp
  rfl

@[simp] theorem ground_finishMx (s : State) (d b k o : Nat) : (s.finishMx d b k o).ground = s.ground := by
  unfold State.finishMx
  dsimp only
  split <;> simp

@[simp] theorem ground_finishRecall (s : State) (d b : Nat) : (s.finishRecall d b).ground = s.ground := by
  simp [State.finishRecall]

@[simp] theorem ground_finishLost (s : State) (d b : Nat) : (s.finishLost d b).ground = s.ground := by
  simp [State.finishLost]

@[simp] theorem ground_recalled (s : State) (d b o : Nat) : (s.recalled d b o).ground = s.ground := by
  simp [State.recalled]

@[simp] theorem ground_answerStored (s : State) (d b : Nat) : (s.answerStored d b).ground = s.ground := by
  unfold State.answerStored
  split <;> simp

@[simp] theorem ground_finishSi (s : State) (d b : Nat) : (s.finishSi d b).ground = s.ground := by
  unfold State.finishSi
  dsimp only
  (repeat' split) <;> try simp
  all_goals exact ground_of_fst ‹_› (ground_homeWrite ..)

@[simp] theorem ground_goBead (s : State) (k i : Nat) : (s.goBead k i).ground = s.ground := by
  unfold State.goBead
  dsimp only
  (repeat' split) <;> simp

theorem ground_goBeads (l : List (Nat × Nat)) (s : State) : (l.foldl (fun s b => s.goBead b.1 b.2) s).ground = s.ground :=
  foldl_keeps State.ground (g := fun s (b : Nat × Nat) => State.goBead s b.1 b.2) (fun _ _ => ground_goBead ..) l s

@[simp] theorem ground_releaseHeld (s : State) (h : HeldWrite) : (s.releaseHeld h).ground = s.ground := by
  unfold State.releaseHeld
  refine (ground_goBeads ..).trans ?_
  (repeat' split)
  · exact (ground_toCtl ..).trans rfl
  · rfl
  · exact (rfl : _ = _).trans ((ground_homeStore ..).trans rfl)
  · exact (ground_answerStored ..).trans ((ground_homeStore ..).trans rfl)

/-! ### Dead endpoints (R161, R383, R384) -/

@[simp] theorem ground_answerDead (s : State) (d b ep : Nat) : (s.answerDead d b ep).ground = s.ground := by
  unfold State.answerDead
  dsimp only
  (repeat' split) <;> simp

@[simp] theorem ground_sliceDead (s : State) (d ep : Nat) : (s.sliceDead d ep).ground = s.ground :=
  (foldl_keeps State.ground (g := fun s b => State.answerDead s d b ep) (fun _ _ => ground_answerDead ..) _ _).trans (ground_setSlice ..)

@[simp] theorem ground_dirDead (s : State) (ep : Nat) : (s.dirDead ep).ground = s.ground :=
  foldl_keeps State.ground (g := fun s d => State.sliceDead s d ep) (fun _ _ => ground_sliceDead ..) _ _

@[simp] theorem ground_dirAlive (s : State) (ep : Nat) : (s.dirAlive ep).ground = s.ground := rfl

@[simp] theorem ground_releaseLost (s : State) (e : Nat) : (s.releaseLost e).ground = s.ground :=
  foldl_keeps State.ground (g := fun s h => State.releaseHeld s h) (fun _ _ => ground_releaseHeld ..) _ _

@[simp] theorem ground_protDead (s : State) (ep : Nat) : (s.protDead ep).ground = s.ground := by
  unfold State.protDead
  refine foldl_keeps State.ground (fun s e => ?_) _ s
  split
  · rfl
  · dsimp only
    have h (js : List Nat) := foldl_keeps State.ground (g := fun s j => State.degrade s e j 0) (fun _ _ => ground_degrade ..) js s
    split
    · exact (ground_releaseLost ..).trans (h _)
    · exact h _

@[simp] theorem ground_applyEpState (s : State) (ep : Nat) (dead : Bool) : (s.applyEpState ep dead).ground = s.ground := by
  unfold State.applyEpState
  split <;> simp

end Sys2Proof.Machine
end

section
/-!
Roles change hands: silent workers, the takeover and the takeback (R75, R432, R436, R437, R440).
-/

namespace Sys2Proof.Machine

/-! ### What the journal, the notices and the commands of a manager leave -/

/-- Who manages, by which generation, the counts of takeovers and takebacks, the tick, and the own endpoint's straps. -/
def State.reign (s : State) : Nat × Option Nat × Nat × Nat × Nat × Tick × Pwr :=
  (s.mgr.role, s.mgr.ep, s.mgr.gen, s.mgr.takeovers, s.mgr.takebacks, s.tick, s.pwr)

theorem reign_of_ground {s t : State} (h : s.ground = t.ground) : s.reign = t.reign := by
  show s.ground.reign = t.ground.reign
  rw [h]

theorem reign_issue (s : State) (p : Packet) (k : KeyRef) (w : Purpose) (c : Option Nat) (r : Bool) :
    (s.issue p k w c r).1.reign = s.reign := reign_of_ground (ground_issue ..)

theorem reign_mirrorFail (s : State) (st : Nat) : (s.mirrorFail st).reign = s.reign :=
  (reign_of_ground (ground_raise ..)).trans ((reign_of_ground (ground_postMgr ..)).trans rfl)

/-- The state that an operation gives beside a value. -/
theorem reign_of_fst {α : Type} {x : State × α} {u s : State} {a : α} (h : x = (u, a)) (hx : x.1.reign = s.reign) :
    u.reign = s.reign := by
  rw [h] at hx
  exact hx

theorem reign_mirror (s : State) (peer off : Nat) (b : List Byte) (w : Purpose) : (s.mirror peer off b w).1.reign = s.reign := by
  unfold State.mirror
  have h := reign_issue s (writePacket peer (s.mgr.mirrorPa + off) b) (s.mgrKeyRef peer) w (some 0) false
  split
  · exact reign_of_fst ‹_› h
  all_goals exact (reign_mirrorFail ..).trans (reign_of_fst ‹_› h)

/-- A record written to both copies. -/
theorem reign_journal (s : State) (k : Nat) : (s.journal k).1.reign = s.reign := by
  unfold State.journal
  split
  · rfl
  · dsimp only
    split
    · rfl
    · have hs (a b : Nat) (x y : List Byte) : ((s.free.2.homeStore a x false).homeStore b y false).reign = s.reign :=
        reign_of_ground ((ground_homeStore ..).trans ((ground_homeStore ..).trans (ground_free s)))
      split
      · exact hs _ _ _ _
      · split <;> rename_i heq
        · exact reign_of_fst heq ((reign_mirror ..).trans (hs _ _ _ _))
        · have h1 := reign_of_fst heq ((reign_mirror ..).trans (hs _ _ _ _))
          split <;> rename_i heq2 <;> exact reign_of_fst heq2 ((reign_mirror ..).trans h1)

theorem reign_closeChange (s : State) : s.closeChange.reign = s.reign := (reign_journal ..).trans rfl

theorem reign_nextCounter (s : State) (ep : Nat) : (s.nextCounter ep).1.reign = s.reign := by
  unfold State.nextCounter
  dsimp only
  split
  · exact (rfl : _ = _).trans (reign_journal s 3)
  · rfl

theorem reign_sendRole (s : State) (ep r b : Nat) : (s.sendRole ep r b).reign = s.reign :=
  (rfl : _ = _).trans ((reign_issue ..).trans (reign_nextCounter ..))

theorem reign_roleToldNone (s : State) : s.roleToldNone.reign = s.reign := by
  unfold State.roleToldNone
  split
  · exact reign_closeChange s
  · rfl

theorem reign_notify (s : State) (k e t v : Nat) : (s.notify k e t v).reign = s.reign := by
  unfold State.notify
  exact foldl_keeps State.reign (fun _ _ => reign_issue ..) _ s

theorem reign_settleDeclarations (s : State) : s.settleDeclarations.reign = s.reign := by
  unfold State.settleDeclarations
  refine (foldl_keeps State.reign (fun s d => ?_) _ _).trans rfl
  split
  · exact (reign_closeChange ..).trans (reign_of_ground (ground_complete ..))
  · exact reign_closeChange s

theorem reign_mark (s : State) (ep : Nat) (dead : Bool) : State.reign { s with mgr := s.mgr.mark ep dead } = s.reign := by
  unfold Mgr.mark
  dsimp only
  split <;> rfl

theorem reign_declare (s : State) (ep : Nat) (dead : Bool) (k : Option Nat) : (s.declare ep dead k).reign = s.reign := by
  unfold State.declare
  extract_lets s1 peers s2 s3
  have h1 : s1.reign = s.reign := (reign_of_ground (ground_applyEpState ..)).trans (reign_mark ..)
  have h2 : s2.reign = s1.reign := foldl_keeps State.reign (g := fun s t => State.sendEpState s ep dead t) (fun _ _ => reign_issue ..) peers s1
  exact (reign_settleDeclarations _).trans ((reign_notify s2 _ _ _ _ : s3.reign = s2.reign).trans (h2.trans h1))

theorem reign_finishIntents (s : State) : s.finishIntents.reign = s.reign :=
  (foldl_keeps State.reign (g := fun (s : State) (_ : Nat) => (s.journal 2).1) (fun s _ => reign_journal s 2) _ _).trans rfl

theorem reign_putRoster (s : State) (ep k : Nat) : (s.putRoster ep k).reign = s.reign := by
  unfold State.putRoster
  dsimp only
  split <;> rfl

theorem reign_deriveSelf (s : State) : s.deriveSelf.reign = s.reign := by
  unfold State.deriveSelf
  (repeat' split)
  · exact reign_putRoster ..
  · rfl
  · rfl

theorem reign_deriveFor (s : State) (ep : Nat) (m : Module) : (s.deriveFor ep m).reign = s.reign := by
  unfold State.deriveFor
  split
  · exact reign_deriveSelf s
  · exact reign_putRoster ..

theorem reign_drawMgrNonce (s : State) : s.drawMgrNonce.reign = s.reign := by
  unfold State.drawMgrNonce State.deriveCtrl
  dsimp only
  split
  · exact (reign_deriveSelf _).trans rfl
  · exact (reign_putRoster ..).trans ((reign_deriveSelf _).trans rfl)

theorem reign_freshCounters (s : State) : s.freshCounters.reign = s.reign :=
  foldl_keeps State.reign (g := fun (s : State) (m : Nat × Module) => { s.free.2 with
    mgr := { s.free.2.mgr with counters := tblPut s.free.2.mgr.counters m.1 (s.free.1 % 2 ^ 43 * 2 ^ 20) } }) (fun _ _ => rfl) _ s

/-! ### Taking control (R437) -/

theorem reign_journalRoster (s : State) (former : Option Nat) : (s.journalRoster former).1.reign = s.reign := by
  unfold State.journalRoster
  dsimp only
  split <;> rfl

theorem reign_deriveAll (l : Tbl Module) (s : State) : (l.foldl (fun (s : State) m => s.deriveFor m.1 m.2) s).reign = s.reign :=
  foldl_keeps State.reign (g := fun s (m : Nat × Module) => State.deriveFor s m.1 m.2) (fun _ _ => reign_deriveFor ..) l s

/-- The role, the generation, the own reference and the lock taken (Table 19.4, step 1). -/
def State.crowned (s : State) : State := { s with
  mgr := { s.mgr with
    role := 2, gen := field s.jrnlHead 8 4 + 1, ep := some s.ep, mirrorOk := false, mirrorLost := false, copying := false, home := none
    takeback := none, tbSent := none, tbRefused := none, openings := [], declaring := [], changes := 1, roleSent := [] }
  tick := { s.tick with locked := true, req := none, seqs := [], listenFrom := none, hold := 0, slew := 0, sentAt := s.time - s.syncPeriod } }

theorem reign_recruit (s : State) (t : Tbl Module) (l : List Nat) :
    State.reign { s.free.2.leaveKeys with mgr := { s.free.2.mgr with roster := t, others := l } } = s.reign := rfl

theorem becomeActive_reign (s : State) (former : Option Nat) : (s.becomeActive former).reign = s.crowned.reign := by
  unfold State.becomeActive
  dsimp only
  refine (reign_journal ..).trans ((reign_deriveAll ..).trans ((reign_freshCounters ..).trans ((reign_drawMgrNonce ..).trans ?_)))
  exact (reign_recruit ..).trans (reign_journalRoster s.crowned former)

/-- Commands of a role sent to every module. -/
theorem reign_sendRoles (l : Tbl Module) (f : State → Nat × Module → Nat × Nat) (s : State) :
    (l.foldl (fun (s : State) m => s.sendRole m.1 (f s m).1 (f s m).2) s).reign = s.reign :=
  foldl_keeps State.reign (g := fun s (m : Nat × Module) => State.sendRole s m.1 (f s m).1 (f s m).2) (fun _ _ => reign_sendRole ..) l s

/-- The count of a takeback. -/
theorem tookBack_reign (s : State) (other gen tick : Nat) : (s.tookBack other gen tick).reign =
    (s.mgr.role, s.mgr.ep, s.mgr.gen, s.mgr.takeovers, min 0xFFFF (s.mgr.takebacks + 1), s.tick, s.pwr) :=
  (reign_of_ground (ground_raise ..)).trans ((reign_of_ground (ground_postMgr ..)).trans rfl)

/-- A takeover leaves the module the active manager of a new generation, its takeover counted (Table 19.4). -/
theorem takeOver_reign (s : State) : let t := s.takeOver
    t.mgr.role = 2 ∧ t.mgr.ep = some s.ep ∧ t.mgr.gen = field s.jrnlHead 8 4 + 1 ∧ t.tick.locked = true ∧
    t.mgr.takeovers = min 0xFFFF (s.mgr.takeovers + 1) := by
  unfold State.takeOver
  extract_lets former s1 s2 s3 s4 m5 s5 d
  have h1 : s1.reign = s.crowned.reign := becomeActive_reign s former
  clear_value s1
  have h2 : s2.reign = s1.reign := by
    refine (reign_roleToldNone _).trans ?_
    exact reign_sendRoles s1.mgr.roster (fun s _ => (0, s.ep)) s1
  clear_value s2
  have h3 : s3.reign = s2.reign := reign_notify ..
  clear_value s3
  have h4 : s4.reign = s3.reign := by
    unfold s4
    clear_value former
    cases former with
    | none => rfl
    | some f => exact reign_declare ..
  clear_value s4
  have h5 : s5.reign = (s4.mgr.role, s4.mgr.ep, s4.mgr.gen, min 0xFFFF (s4.mgr.takeovers + 1), s4.mgr.takebacks, s4.tick, s4.pwr) := rfl
  have h6 := (reign_of_ground (ground_raise (s5.finishIntents.postMgr { typ := 0x00B0, cls := 2, source := 0x4000, detail := d }) .mgr 0 0)).trans
    ((reign_of_ground (ground_postMgr ..)).trans (reign_finishIntents s5))
  have h7 := h4.trans (h3.trans (h2.trans h1))
  have h8 := h6.trans h5
  exact ⟨(congrArg (·.1) h8).trans (congrArg (·.1) h7), (congrArg (·.2.1) h8).trans (congrArg (·.2.1) h7),
    (congrArg (·.2.2.1) h8).trans (congrArg (·.2.2.1) h7), (congrArg (·.2.2.2.2.2.1.locked) h8).trans (congrArg (·.2.2.2.2.2.1.locked) h7),
    (congrArg (·.2.2.2.1) h8).trans (congrArg (fun x => min 0xFFFF (x.2.2.2.1 + 1)) h7)⟩

/-- A takeback leaves the returning module the active manager of a new generation, its takeback counted. -/
theorem takeBack_reign (s : State) (other tick : Nat) : let t := s.takeBack other tick
    t.mgr.role = 2 ∧ t.mgr.ep = some s.ep ∧ t.mgr.gen = field s.jrnlHead 8 4 + 1 ∧
    t.mgr.takebacks = min 0xFFFF (s.mgr.takebacks + 1) := by
  unfold State.takeBack
  extract_lets s1 s2
  have h1 : s1.reign = s.crowned.reign := becomeActive_reign s (some other)
  clear_value s1
  have h2 : s2.reign = s1.reign := reign_sendRoles s1.mgr.roster (fun _ m => (if m.1 = other then 1 else 0, other)) s1
  clear_value s2
  have h3 : (((s2.roleToldNone.notify 2 s2.ep 0 0).finishIntents)).reign = s.crowned.reign :=
    (reign_finishIntents _).trans ((reign_notify ..).trans ((reign_roleToldNone _).trans (h2.trans h1)))
  have h4 := tookBack_reign (s2.roleToldNone.notify 2 s2.ep 0 0).finishIntents other s2.mgr.gen tick
  exact ⟨(congrArg (·.1) h4).trans (congrArg (·.1) h3), (congrArg (·.2.1) h4).trans (congrArg (·.2.1) h3),
    (congrArg (·.2.2.1) h4).trans (congrArg (·.2.2.1) h3),
    (congrArg (·.2.2.2.2.1) h4).trans (congrArg (fun x => min 0xFFFF (x.2.2.2.2.1 + 1)) h3)⟩

/-! ### Requests that are issued (R357) -/

/-- A request that may start, within its target's quota and with a route of a port that carries it, is in flight in the lowest free
slot. -/
theorem issue_sent {s : State} {p : Packet} {k : KeyRef} {w : Purpose} {c : Option Nat} {r : Bool} {i : Nat}
    (hmay : s.mayRequest k r = true) (hquota : tblGet s.txn.sentTo p.dst 0 < Config.quotaAt p.dst) (hfree : s.freeOut = some i)
    {x : Nat × Nat} (hroute : s.route p.dst s.ep s.rtr.inject = some x) (heth : s.portEth x.1 = false) :
    ∃ t, s.issue p k w c r = (t, .sent i) ∧ (t.outSlot i).req.map (·.2) = some w := by
  unfold State.issue
  rw [hmay, hfree]
  dsimp only
  rw [if_neg (by decide), if_neg (by omega), hroute, if_neg (by simp [State.notCarried, heth])]
  refine ⟨_, rfl, ?_⟩
  have hout (u : State) (o : OutSlot) : (u.setOut i o).outSlot i = o := (tblGet_put ..).trans (if_pos rfl)
  exact (congrArg (fun o : OutSlot => o.req.map (·.2)) (hout _ _)).trans rfl

theorem mayRequest_mgrKeyRef (s : State) (ep : Nat) (r : Bool) : s.mayRequest (s.mgrKeyRef ep) r = true := by
  unfold State.mgrKeyRef
  split <;> rfl

theorem jrnlHead_elapseTo (s : State) (t : Nat) : (s.elapseTo t).jrnlHead = s.jrnlHead := by
  obtain ⟨k, hk⟩ := s.elapseTo_eq t
  rw [hk]
  rfl

theorem State.elapseToTick_eq (s : State) (n : Nat) : ∃ t k, s.elapseToTick n = { s with time := t, tick := k } := by
  unfold State.elapseToTick
  split
  · exact ⟨_, _, rfl⟩
  · exact ⟨s.time, s.tick, rfl⟩

/-- A PAGE_EVENT bit of the MGR page raised with a record. -/
theorem mgrEvent_spec (s : State) (r : Record) {b : Nat} (hb : b < 32) : let t := (s.postMgr r).raise .mgr 0 b
    t.mgr = s.mgr ∧ wbit (t.reg 0x5008) b = true ∧ t.mem = s.mem := by
  have hq : ((s.postMgr r).raise .mgr 0 b).quiet = s.quiet := (quiet_raise ..).trans (quiet_postMgr ..)
  have hbit : wbit (((s.postMgr r).raise .mgr 0 b).reg (pageBase .mgr 0 + 8)) b = true := by
    rw [raise_wbit _ _ _ _ hb, decide_eq_true rfl]
    rfl
  exact ⟨mgr_of_calm (calm_of_quiet hq), hbit, mem_of_quiet hq⟩

/-- A manager that steps down is standby, its takeback counted and reported. -/
theorem stepDown_spec (s : State) (other tick : Nat) : let t := s.stepDown other tick
    t.mgr.role = 1 ∧ t.mgr.takeback = none ∧ t.mgr.ep = s.mgr.ep ∧ t.mgr.takebacks = min 0xFFFF (s.mgr.takebacks + 1) ∧
    wbit (t.reg 0x5008) 1 = true ∧ t.mem = s.mem := by
  unfold State.stepDown State.tookBack
  dsimp only
  refine ⟨?_, ?_, ?_, ?_, (mgrEvent_spec _ _ (by decide)).2.1, (mgrEvent_spec _ _ (by decide)).2.2.trans rfl⟩ <;>
    rw [(mgrEvent_spec _ _ (by decide)).1]

theorem ms_eq (n : Nat) : ms n = n * 1000000 := rfl

/-- A worker silent for WORKER_MISS_MS is marked and reported; where that is automatic, its declaration is asked for. -/
theorem execWorkerSilent_spec {s : State} {ep t : Nat} {m : Module} (hm : tblGet? s.mgr.roster ep = some m) (hrole : s.mgr.role = 2)
    (hep : ep ≠ s.ep) (hsilent : m.silent = false) (hdead : m.dead = false) (ht : m.lastReq + ms (s.actBits .mgr 0 0x04C 15 0) = t) :
    let u := s.elapseTo t
    let w : State := { u with mgr := { u.mgr with roster := tblPut u.mgr.roster ep { m with silent := true } } }
    let auto := wbit (w.act .mgr 0 0x04C) 31 && !w.changesRefused
    let x := (w.postMgr { typ := 0x00B4, cls := 1, source := 0x4000, detail := detail [(0, leBytes 2 ep), (2, [byte (b2n auto)])] }).raise .mgr 0 3
    exec (.workerSilent ep) s = .next (if auto = true then (match x.openChange (.silent ep) with
      | (s, .go) => s.startSilent ep
      | (s, _) => s) else x) := by
  show execWorkerSilent ep s = _
  rw [execWorkerSilent, hm]
  dsimp only
  rw [if_neg (by simp [hrole, hep, hsilent, hdead]), ht] <;> rfl

theorem workerSilent_reports {s : State} {ep t : Nat} {m : Module} (hm : tblGet? s.mgr.roster ep = some m) (hrole : s.mgr.role = 2)
    (hep : ep ≠ s.ep) (hsilent : m.silent = false) (hdead : m.dead = false) (ht : m.lastReq + ms (s.actBits .mgr 0 0x04C 15 0) = t) :
    let u := s.elapseTo t
    let w : State := { u with mgr := { u.mgr with roster := tblPut u.mgr.roster ep { m with silent := true } } }
    let auto := wbit (w.act .mgr 0 0x04C) 31 = true ∧ w.changesRefused = false
    ∃ r, r.typ = 0x00B4 ∧
      let x := (w.postMgr r).raise .mgr 0 3
      wbit (x.reg 0x5008) 3 = true ∧ (¬auto → exec (.workerSilent ep) s = .next x) ∧
      ∀ y st, auto → x.openChange (.silent ep) = (y, st) →
        exec (.workerSilent ep) s = .next (if st = .go then y.startSilent ep else y) := by
  have hexec := execWorkerSilent_spec hm hrole hep hsilent hdead ht
  intro u w auto
  have hauto : (wbit (w.act .mgr 0 0x04C) 31 && !w.changesRefused) = true ↔ auto := by simp [auto]
  refine ⟨{ typ := 0x00B4, cls := 1, source := 0x4000
            detail := detail [(0, leBytes 2 ep), (2, [byte (b2n (wbit (w.act .mgr 0 0x04C) 31 && !w.changesRefused))])] }, rfl, ?_⟩
  intro x
  refine ⟨(mgrEvent_spec _ _ (by decide)).2.1, fun hn => ?_, fun y st ha hopen => ?_⟩
  · exact hexec.trans (congrArg Host.Outcome.next (if_neg (hauto.not.2 hn)))
  · refine hexec.trans (congrArg Host.Outcome.next ((if_pos (hauto.2 ha)).trans ?_))
    rw [hopen]
    cases st <;> rfl

/-- The takeover's conditions and what is due before it. -/
theorem execTakeover_spec (s : State) :
    let ready := s.inService = true ∧ s.mgr.role = 1 ∧ wbit (s.act .mgr 0 0x044) 31 = true ∧
      ((List.range 16).any fun p => s.portUp p) = true
    let u := s.elapseTo (s.tick.lastAnn + s.actBits .mgr 0 0x040 31 16 * 1000)
    let due := u.dueBefore u.tick.count 11 = true ∨ u.rodsDue u.tick.count = true
    (¬ready ∨ due → exec .takeover s = .next s) ∧
    (ready → ¬due → exec .takeover s = .next (if s.copyState = 2 ∧ s.copyVersion = 1 then u.takeOver else u.takeoverBlocked)) := by
  intro ready u due
  have hready : (!(s.inService && s.mgr.role == 1 && wbit (s.act .mgr 0 0x044) 31 && (List.range 16).any fun p => s.portUp p)) = true ↔
      ¬ready := by
    simp only [ready]
    cases s.inService <;> cases wbit (s.act .mgr 0 0x044) 31 <;> cases (List.range 16).any (fun p => s.portUp p) <;> simp
  show (_ → execTakeover s = _) ∧ (_ → _ → execTakeover s = _)
  unfold execTakeover us
  refine ⟨fun h => ?_, fun hr hd => ?_⟩
  · by_cases hr : ready
    · exact (if_neg (fun h => hready.1 h hr)).trans (if_pos (h.resolve_left (not_not.2 hr)))
    · exact if_pos (hready.2 hr)
  · refine (if_neg (fun h => hready.1 h hr)).trans ((if_neg hd).trans ?_)
    split <;> rfl

theorem takeOver_elapsed (s : State) (n : Nat) : let t := (s.elapseTo n).takeOver
    t.mgr.role = 2 ∧ t.mgr.ep = some s.ep ∧ t.mgr.gen = field s.jrnlHead 8 4 + 1 ∧ t.tick.locked = true ∧
    t.mgr.takeovers = min 0xFFFF (s.mgr.takeovers + 1) := by
  obtain ⟨k, hk⟩ := s.elapseTo_eq n
  have h := takeOver_reign (s.elapseTo n)
  rw [jrnlHead_elapseTo] at h
  rw [hk] at h ⊢
  exact h

/-- TAKEOVER_BLOCKED is reported once in a silence. -/
theorem takeoverBlocked_elapsed (s : State) (n : Nat) :
    (s.mgr.blocked = true → (s.elapseTo n).takeoverBlocked = s.elapseTo n) ∧
    (s.mgr.blocked = false → (s.elapseTo n).takeoverBlocked = State.postMgr
      { s.elapseTo n with mgr := { (s.elapseTo n).mgr with blocked := true } }
      { typ := 0x00B2, cls := 1, source := 0x4000, detail := detail [(0, [4])] }) := by
  obtain ⟨k, hk⟩ := s.elapseTo_eq n
  rw [hk]
  exact ⟨fun h => if_pos h, fun h => if_neg (by rw [h]; decide)⟩

/-- A standby asks for the control back where a slot is free, its manager's quota is not used up and a port carries the packet. -/
theorem sendTakeBack_asks {s : State} {m i : Nat} (hmgr : s.mgr.ep = some m) (hfree : s.freeOut = some i)
    (hq : tblGet s.txn.sentTo m 0 < Config.quotaAt m) {x : Nat × Nat} (hx : s.route m s.ep s.rtr.inject = some x)
    (heth : s.portEth x.1 = false) :
    s.sendTakeBack.mgr.tbSent.isSome = true ∧ (s.sendTakeBack.outSlot i).req.map (·.2) = some (.manager 4 m) := by
  obtain ⟨t, ht, hout⟩ := issue_sent (s := s.free.2) (p := s.free.2.cmdPacket 0xC3 m 0
      (leBytes 8 (s.free.2.tick.count + s.free.2.actBits .mgr 0 0x040 15 0 * 1000 + s.free.1))) (k := s.free.2.mgrKeyRef m) (w := .manager 4 m) (c := none)
    (r := false) (mayRequest_mgrKeyRef ..) hq hfree hx heth
  unfold State.sendTakeBack State.backTick
  rw [hmgr]
  dsimp only
  rw [ht]
  exact ⟨rfl, hout⟩

theorem execTakebackFire_of_armed {s : State} {other tick : Nat} (h : s.mgr.takeback = some (other, tick)) :
    exec .takebackFire s = if s.dueBefore tick 11 = true ∨ s.rodsDue tick = true then .next s else .next
      (if (s.elapseToTick tick).mgr.role = 2 then (s.elapseToTick tick).stepDown other tick else (s.elapseToTick tick).takeBack other tick) := by
  show execTakebackFire s = _
  rw [execTakebackFire, h]

/-- Settles O34: the journal, the notices and the commands of a takeover keep who manages, and its counts. -/
theorem rolesChangeHands : Obligations.RolesChangeHands := by
  intro s
  refine ⟨fun ep m hm hrole hep hsilent hdead => ?_, ?_, fun ep m hm => ?_, ⟨fun hmay hfree => ?_, fun hno => ?_, fun m i hmgr hfree _ hep hq hr => ?_⟩,
    fun at_ hat hmay => ?_, fun other tick htb => ⟨fun hdue => ?_, fun hdue hrole => ?_, fun hdue hrole => ?_⟩⟩
  · exact workerSilent_reports hm hrole hep hsilent hdead (congrArg (m.lastReq + ·) (ms_eq _))
  · obtain ⟨hno, hyes⟩ := execTakeover_spec s
    refine ⟨hno, fun hr hd hc => ⟨_, (hyes hr hd).trans (congrArg _ (if_pos hc)), ?_⟩, fun hr hd hc => ?_⟩
    · exact takeOver_elapsed ..
    · have hexec := (hyes hr hd).trans (congrArg _ (if_neg hc))
      obtain ⟨hwas, hnot⟩ := takeoverBlocked_elapsed s (s.tick.lastAnn + s.actBits .mgr 0 0x040 31 16 * 1000)
      exact ⟨fun hb => hexec.trans (congrArg _ (hwas hb)), fun hb => ⟨_, rfl, hexec.trans (congrArg _ (hnot hb))⟩⟩
  · show execRoleChangeResend s = _
    rw [execRoleChangeResend, hm]
  · exact congrArg Host.Outcome.next (if_pos (by simp [hmay, hfree.1, hfree.2.1, hfree.2.2]))
  · refine congrArg Host.Outcome.next (if_neg fun h => ?_)
    simp only [Bool.and_eq_true, Option.isNone_iff_eq_none] at h
    obtain ⟨⟨⟨hmay, h1⟩, h2⟩, h3⟩ := h
    exact hno.elim (fun hf => by rw [hmay] at hf; cases hf) (fun hf => hf ⟨h1, h2, h3⟩)
  · obtain ⟨x, hx, heth⟩ := hr
    exact sendTakeBack_asks hmgr hfree hq hx heth
  · show execTakebackResend s = _
    rw [execTakebackResend, hat]
    exact congrArg Host.Outcome.next (if_pos hmay)
  · exact (execTakebackFire_of_armed htb).trans (if_pos hdue)
  · obtain ⟨t, k, he⟩ := s.elapseToTick_eq tick
    refine ⟨_, (execTakebackFire_of_armed htb).trans ((if_neg hdue).trans (congrArg Host.Outcome.next (if_pos ?_))), ?_⟩
    · rw [he]; exact hrole
    · have h := stepDown_spec (s.elapseToTick tick) other tick
      rw [he] at h ⊢
      exact h
  · obtain ⟨t, k, he⟩ := s.elapseToTick_eq tick
    refine ⟨_, (execTakebackFire_of_armed htb).trans ((if_neg hdue).trans (congrArg Host.Outcome.next (if_neg ?_))), ?_⟩
    · rw [he]; exact hrole
    · have h := takeBack_reign (s.elapseToTick tick) other tick
      rw [he] at h ⊢
      exact h

end Sys2Proof.Machine
end

section
/-!
Beads read back as written (R145, R147).
-/

namespace Sys2Proof.Machine

theorem readMem_getElem (s : State) (a n : Nat) {i : Nat} (h : i < (s.readMem a n).length) : (s.readMem a n)[i] = s.byteAt (a + i) := by
  simp [State.readMem]

/-- Bytes written read back. -/
theorem readMem_of_mem {s : State} {m : List Host.Cell} {a n : Nat} {l : List Byte} (h : s.mem = cellPuts m a l) (hl : l.length = n) :
    s.readMem a n = l := by
  subst hl
  refine List.ext_getElem (by simp [State.readMem]) fun i h1 h2 => ?_
  rw [readMem_getElem, State.byteAt, h, cellGet_puts_mem _ _ _ h2]

theorem metaOf_setMeta (s : State) (b c : Nat) (m : Meta) : (s.setMeta b m).metaOf c = if c = b then m else s.metaOf c := by
  unfold State.setMeta State.metaOf
  by_cases hm : m = {}
  · rw [if_pos hm, hm]
    exact tblGet_del ..
  · rw [if_neg hm]
    exact tblGet_put ..

/-- A bead without stored error reads out as memory holds it. -/
theorem readOut_clean {s : State} {pa : Nat} (h : (s.metaOf (pa / 64)).errs = []) :
    s.readOut pa [] = (s, .data (s.readMem (pa / 64 * 64) 64) (s.metaOf (pa / 64)).poison) := by
  have hline (m : Meta) : s.lineRead pa m m = s := if_pos ⟨rfl, rfl, rfl⟩
  unfold State.readOut
  dsimp only
  rw [h, show decodeBead (mergeErrs [] []) = .clean [] by decide +kernel]
  exact congrArg (fun t => (t, ReadOut.data (s.readMem (pa / 64 * 64) 64) (s.metaOf (pa / 64)).poison)) (hline _)

/-- A bead written whole, with no injection armed for it. -/
theorem writeBead_eq {s : State} {pa : Nat} (h : s.injecting pa = false) (data : List Byte) (poison : Bool) :
    s.writeBead pa data poison = (s.writeMem (pa / 64 * 64) ((data ++ zeroBytes 64).take 64)).setMeta (pa / 64)
      { s.metaOf (pa / 64) with poison := poison, errs := [] } :=
  if_neg (by rw [show State.injecting (s.writeMem _ _) pa = s.injecting pa from rfl, h]; decide)

theorem writeBead_metaOf {s : State} {pa : Nat} (h : s.injecting pa = false) (data : List Byte) (poison : Bool) (b : Nat) :
    (s.writeBead pa data poison).metaOf b =
      if b = pa / 64 then { s.metaOf (pa / 64) with poison := poison, errs := [] } else s.metaOf b := by
  rw [writeBead_eq h, metaOf_setMeta]
  rfl

/-- The masked bytes of a bead are the data's, the others the old bead's. -/
theorem maskMerge_getD (mask : Nat) (data old : List Byte) {i : Nat} (h : i < 64) :
    (maskMerge mask data old).getD i 0 = if bit mask i then data.getD i 0 else old.getD i 0 := by
  simp [maskMerge, h]

/-- Settles O37: a bead written whole is the 64 bytes at its address with clean metadata but for POISON, and clean metadata read out
as they stand. -/
theorem beadsReadAsWritten : Obligations.BeadsReadAsWritten := by
  intro s pa data poison _
  refine ⟨fun hinj hlen => ?_, readOut_clean, fun mask old bad i hi => maskMerge_getD mask data old hi, fun old bad => ?_⟩
  · intro t
    have htake : (data ++ zeroBytes 64).take 64 = data := by rw [← hlen, List.take_left]
    have hmem : t.mem = cellPuts s.mem (pa / 64 * 64) data := (writeBead_mem s pa data poison).trans (by rw [htake])
    have hread : t.readMem (pa / 64 * 64) 64 = data := readMem_of_mem hmem hlen
    have hmeta : t.metaOf (pa / 64) = { s.metaOf (pa / 64) with poison := poison, errs := [] } :=
      (writeBead_metaOf hinj data poison _).trans (if_pos rfl)
    refine ⟨hread, fun a ha => ?_, by rw [hmeta], by rw [hmeta], fun b hb => (writeBead_metaOf hinj data poison b).trans (if_neg hb), ?_⟩
    · rw [State.byteAt, hmem]
      exact cellGet_puts _ _ (by rw [hlen]; omega)
    · rw [readOut_clean (by rw [hmeta]), hread, hmeta]
  · cases bad <;> rfl

end Sys2Proof.Machine
end

section
/-!
Memory requests accepted and queued (R106, R128, R129, R131, R380).
-/

namespace Sys2Proof.Machine

/-! ### Units of a controller -/

theorem setUnit_unitAt (s : State) (c u d y : Nat) (v : Unit) :
    (s.setUnit c u v).unitAt d y = if (d, y) = (c, u) then v else s.unitAt d y := by
  unfold State.setUnit State.unitAt
  rw [setCtl_ctlAt]
  by_cases hd : d = c
  · subst hd
    rw [if_pos rfl, tblGet_put]
    simp
  · rw [if_neg hd, if_neg (by simp [hd])]

theorem setCtl_unitAt (s : State) (c : Nat) (k : Ctl) (h : k.units = (s.ctlAt c).units) (d y : Nat) :
    (s.setCtl c k).unitAt d y = s.unitAt d y := by
  unfold State.unitAt
  rw [setCtl_ctlAt]
  split
  · rename_i hd
    rw [h, hd]
  · rfl

/-- A controller that is woken keeps its units. -/
theorem wakeCtl_unitAt (s : State) (c d y : Nat) : (s.wakeCtl c).unitAt d y = s.unitAt d y := by
  unfold State.wakeCtl
  dsimp only
  (repeat' split)
  · refine setCtl_unitAt _ _ _ ?_ _ _
    rfl
  · refine setCtl_unitAt _ _ _ ?_ _ _
    rfl
  · rfl

/-- A request on its way to its unit: the newest there, on the beam before the unit's queues. -/
def State.bound (s : State) (c : Nat) (pa : Nat) (op : BeadOp) (cls : Nat) (o : Origin) : Unit :=
  let x := s.unitAt c (unitIn c (ctlOffset pa))
  Unit.fromBeam { x with
    nextSeq := x.nextSeq + 1
    beam := x.beam ++ [{ pa := pa / 64 * 64, op := op, cls := cls, at_ := s.time, seq := x.nextSeq, origin := o }] } s.time

/-- A request reaches its unit (R131), and every other unit stands. -/
theorem toCtl_unitAt {s : State} {pa c : Nat} (h : windowOf pa = some c) (op : BeadOp) (cls : Nat) (o : Origin) (d y : Nat) :
    (s.toCtl pa op cls o).unitAt d y = if (d, y) = (c, unitIn c (ctlOffset pa)) then s.bound c pa op cls o else s.unitAt d y := by
  unfold State.toCtl
  rw [h]
  exact (wakeCtl_unitAt ..).trans (setUnit_unitAt ..)

/-- The state of memory, the slots and the time, which a request on its way to its unit leaves. -/
theorem toCtl_mem_slots (s : State) (pa : Nat) (op : BeadOp) (cls : Nat) (o : Origin) :
    (s.toCtl pa op cls o).mem = s.mem ∧ (s.toCtl pa op cls o).txn = s.txn := by
  unfold State.toCtl State.wakeCtl
  split
  · exact ⟨rfl, rfl⟩
  · dsimp only
    (repeat' split) <;> exact ⟨rfl, rfl⟩

/-- With an empty beam a request that finds room enters its queue at the end. -/
theorem fromBeam_single {x : Unit} {q : MemReq} {now : Nat} (hroom : x.room q = true) (hat : q.at_ = now) :
    Unit.fromBeam { x with beam := [q] } now = { x.push q with beam := [] } := by
  subst hat
  unfold Unit.fromBeam
  have h : Unit.room { x with beam := [q] } q = true := hroom
  simp only [List.foldl_cons, List.foldl_nil, h, List.any_nil, Bool.not_false, Bool.and_self, if_true]
  unfold Unit.push
  split <;> rfl

/-! ### A request's beads -/

theorem performBead_straight {s : State} {key i : Nat} {v : InSlot} (hv : s.slot? key = some v) (hheld : s.heldAt (v.beadPa i) = none)
    (hext : ∀ e g, v.ext = some (e, g) → s.prot? e = none) :
    s.performBead key i = s.toCtl (v.beadPa i) (beadOp v.pkt i) (demandClass (beadOp v.pkt i) v.yellow) (.slot key i) := by
  unfold State.performBead
  rw [hv]
  dsimp only
  rw [hheld]
  cases hx : v.ext with
  | none => rfl
  | some x =>
    obtain ⟨e, g⟩ := x
    dsimp only
    rw [hext e g hx]

/-- A request of one bead outside every coherent extent starts: its data taken, its bead goes to memory. -/
theorem startMem_one {s : State} {key : Nat} {v : InSlot} (hv : s.slot? key = some v) (hbeads : v.pkt.beads = 1)
    (hcoh : s.cohAt v.pa = none) (hwb : v.pkt.typ ≠ tWriteback) (hrs : v.pkt.typ ≠ tReadShared) (hro : v.pkt.typ ≠ tReadOwn) :
    s.startMem key = ((s.setSlot key { v with phase := .memory 1 }).takeData key).performBead key 0 := by
  unfold State.startMem
  rw [hv]
  dsimp only
  rw [if_neg hwb, if_neg (by simp [hrs, hro]), hcoh, hbeads] <;> rfl

theorem takeData_slot {s : State} {key : Nat} {v : InSlot} (hv : s.slot? key = some v) :
    (s.takeData key).slot? key = some { v with dbuf := 0 } := by
  unfold State.takeData
  rw [hv]
  exact (setSlot_slot? ..).trans (if_pos rfl)

/-! ### Arrival -/

theorem actMemory_of_slot {t : State} {key : Nat} {v : InSlot} (h : t.slot? key = some v) :
    t.actMemory key = if v.pkt.typ = tAtomic ∧
        (if v.pkt.qual % 4 = 3 then exactAddOk v.pkt.body else atomicOk (v.pkt.qual % 4) v.pkt.body) = false then
      t.complete key stMalformed else if v.phase = .walk then t.joinWalk key v else t.startMem key := by
  rw [State.actMemory, h]

theorem exec_memRow {form : Packet → Packet} {row : Fin 16 → Packet → Instr}
    (h : (form, row) ∈ [((fun p => p.ofType tRead), Instr.read), ((fun p => p.ofType tReadShared), .readShared),
      ((fun p => p.ofType tReadOwn), .readOwn), ((fun p => p.ofType tReadNoalloc), .readNoalloc), ((fun p => p.ofType tWrite), .write),
      ((fun p => p.ofType tWritePartial), .writePartial), ((fun p => p.ofType tWriteback), .writeback)])
    (port : Fin 16) (p : Packet) (s : State) : exec (row port p) s = s.arriveMemory form port p := by
  simp only [List.mem_cons, Prod.mk.injEq, List.not_mem_nil, or_false] at h
  rcases h with ⟨rfl, rfl⟩ | ⟨rfl, rfl⟩ | ⟨rfl, rfl⟩ | ⟨rfl, rfl⟩ | ⟨rfl, rfl⟩ | ⟨rfl, rfl⟩ | ⟨rfl, rfl⟩ <;> rfl

theorem exec_atomicRow {form : Packet → Packet} {row : Fin 16 → Packet → Instr}
    (h : (form, row) ∈ [((fun p => p.ofAtomic 0), Instr.atomicFetchAdd), ((fun p => p.ofAtomic 1), .atomicSwap),
      ((fun p => p.ofAtomic 2), .atomicCas), ((fun p => p.ofAtomic 3), .exactAdd)])
    (port : Fin 16) (p : Packet) (s : State) : exec (row port p) s = s.arriveMemory form port p := by
  simp only [List.mem_cons, Prod.mk.injEq, List.not_mem_nil, or_false] at h
  rcases h with ⟨rfl, rfl⟩ | ⟨rfl, rfl⟩ | ⟨rfl, rfl⟩ | ⟨rfl, rfl⟩ <;> rfl

/-- A started request of one bead outside every coherent and protected extent. -/
theorem startMem_queues {s : State} {key c : Nat} {v : InSlot} (hv : s.slot? key = some v) (hbeads : v.pkt.beads = 1)
    (hcoh : s.cohAt v.pa = none) (hheld : s.heldAt v.pa = none) (hext : ∀ e g, v.ext = some (e, g) → s.prot? e = none)
    (hwin : windowOf v.pa = some c) (hwb : v.pkt.typ ≠ tWriteback) (hrs : v.pkt.typ ≠ tReadShared) (hro : v.pkt.typ ≠ tReadOwn) :
    let t := s.startMem key
    t.mem = s.mem ∧ (t.slot? key).map (·.phase) = some (.memory 1) ∧ ∀ d y, t.unitAt d y = if (d, y) = (c, unitIn c (ctlOffset v.pa))
      then s.bound c v.pa (beadOp v.pkt 0) (demandClass (beadOp v.pkt 0) v.yellow) (.slot key 0) else s.unitAt d y := by
  obtain ⟨u, hu⟩ : ∃ u, u = (s.setSlot key { v with phase := .memory 1 }).takeData key := ⟨_, rfl⟩
  have hslot : u.slot? key = some { v with phase := .memory 1, dbuf := 0 } := by
    rw [hu, takeData_slot ((setSlot_slot? ..).trans (if_pos rfl))]
  obtain ⟨x, hx⟩ : ∃ x, u = { s with txn := x } := by
    rw [hu]
    unfold State.takeData
    split <;> exact ⟨_, rfl⟩
  have hperf : u.performBead key 0 = u.toCtl v.pa (beadOp v.pkt 0) (demandClass (beadOp v.pkt 0) v.yellow) (.slot key 0) :=
    performBead_straight (v := { v with phase := .memory 1, dbuf := 0 }) hslot (by rw [hx]; exact hheld) (by rw [hx]; exact hext)
  have hgo := (startMem_one hv hbeads hcoh hwb hrs hro).trans (hu ▸ hperf)
  obtain ⟨hmem, htxn⟩ := toCtl_mem_slots u v.pa (beadOp v.pkt 0) (demandClass (beadOp v.pkt 0) v.yellow) (.slot key 0)
  rw [hgo, ← hu]
  refine ⟨hmem.trans (by rw [hx]), ?_, fun d y => (toCtl_unitAt hwin ..).trans (by rw [hx]; rfl)⟩
  rw [State.slot?, htxn]
  exact congrArg (Option.map (·.phase)) hslot

/-- Settles O38: an admitted request joins its walk or starts; a started one of one bead is the newest of its unit. -/
theorem memoryRequestsAreQueued : Obligations.MemoryRequestsAreQueued := by
  unfold Obligations.MemoryRequestsAreQueued
  refine ⟨fun s t port p v form row => ?_, fun s key c v hv hbeads hcoh hheld hext hwin hwb hrs hro => ?_⟩
  · intro r ha hv
    have hact (h : exec (row port p) s = s.arriveMemory form port p) : exec (row port p) s = .next (t.actMemory (r.slot p)) :=
      h.trans (congrArg Host.Outcome.next (arrive_of_admits ha _))
    have hslot := actMemory_of_slot hv
    refine ⟨fun hrow htyp => ?_, fun hrow htyp => ?_⟩
    · rw [if_neg (by simp [htyp])] at hslot
      have hexec := (hact (exec_memRow hrow port p s)).trans (congrArg _ hslot)
      exact ⟨fun hw => hexec.trans (congrArg _ (if_pos hw)), fun hw => hexec.trans (congrArg _ (if_neg hw))⟩
    · intro ok
      have hexec := (hact (exec_atomicRow hrow port p s)).trans (congrArg _ hslot)
      refine ⟨fun hok => hexec.trans (congrArg _ (if_pos ⟨htyp, hok⟩)), fun hok hw => ?_, fun hok hw => ?_⟩
      · exact hexec.trans (congrArg _ ((if_neg (fun h => by rw [show ok = false from h.2] at hok; cases hok)).trans (if_pos hw)))
      · exact hexec.trans (congrArg _ ((if_neg (fun h => by rw [show ok = false from h.2] at hok; cases hok)).trans (if_neg hw)))
  · intro t u x q
    obtain ⟨hmem, hphase, hunit⟩ := startMem_queues hv hbeads hcoh hheld hext hwin hwb hrs hro
    have hhere : t.unitAt c u = Unit.fromBeam { x with nextSeq := x.nextSeq + 1, beam := x.beam ++ [q] } s.time :=
      (hunit c u).trans (if_pos rfl)
    refine ⟨hmem, hphase, hhere, fun hbeam hroom => ?_, fun d y hdy => (hunit d y).trans (if_neg hdy)⟩
    rw [hhere, hbeam]
    refine (fromBeam_single (x := { x with nextSeq := x.nextSeq + 1 }) (q := q) hroom rfl).trans ?_
    unfold Unit.push
    split <;> rw [← hbeam]

end Sys2Proof.Machine
end

section
/-!
Command slots issue the first request in the order of service (R127–R133, R137).
-/

namespace Sys2Proof.Machine

/-! ### The least of a list -/

theorem leastBy_foldl {α : Type} (f : α → Nat) (l : List α) (m : α) : ∃ r,
    l.foldl (fun m x => match m with | none => some x | some y => if f x < f y then some x else some y) (some m) = some r ∧
    (r = m ∨ r ∈ l) ∧ f r ≤ f m ∧ ∀ x ∈ l, f r ≤ f x := by
  induction l generalizing m with
  | nil => exact ⟨m, rfl, Or.inl rfl, Nat.le_refl _, fun _ h => absurd h List.not_mem_nil⟩
  | cons a l ih =>
    rw [List.foldl_cons]
    dsimp only
    split
    · rename_i hlt
      obtain ⟨r, hr, hmem, hle, hall⟩ := ih a
      refine ⟨r, hr, Or.inr (hmem.elim (fun h => h ▸ List.mem_cons_self) (List.mem_cons_of_mem _)), by omega, fun x hx => ?_⟩
      exact (List.mem_cons.1 hx).elim (fun h => h ▸ hle) (hall x)
    · rename_i hge
      obtain ⟨r, hr, hmem, hle, hall⟩ := ih m
      refine ⟨r, hr, hmem.imp_right (List.mem_cons_of_mem _), hle, fun x hx => ?_⟩
      exact (List.mem_cons.1 hx).elim (fun h => by rw [h]; omega) (hall x)

/-- What `leastBy` gives is in the list, and nothing in it measures less. -/
theorem leastBy_spec {α : Type} {f : α → Nat} {l : List α} {r : α} (h : leastBy f l = some r) : r ∈ l ∧ ∀ x ∈ l, f r ≤ f x := by
  cases l with
  | nil => cases h
  | cons a l =>
    obtain ⟨r', hr, hmem, hle, hall⟩ := leastBy_foldl f l a
    obtain rfl : r' = r := Option.some.inj (hr.symm.trans h)
    exact ⟨hmem.elim (fun h => h ▸ List.mem_cons_self) (List.mem_cons_of_mem _),
      fun x hx => (List.mem_cons.1 hx).elim (fun h => h ▸ hle) (hall x)⟩

/-! ### The order of service (R127, R130) -/

/-- A request that is not promoted ranks behind every promoted one of the first 2⁶⁴. -/
theorem Unit.rank_of_unpromoted {v : Unit} {c : Nat} {drain : Bool} {r : MemReq} (h : r.cls ≠ 0) : 2 ^ 64 ≤ v.rank c drain r := by
  unfold Unit.rank
  dsimp only
  rw [if_neg h]
  split <;> split <;> omega

/-- The requests a unit may issue now. -/
theorem mem_pickable {s : State} {c u : Nat} {v : Unit} {x : MemReq} :
    x ∈ (v.seen.filter fun r => s.reqReady v r && (s.drains c v || !r.isWrite || r.cls == 0) && (r.own || s.mayIssue c u)) ↔
    x ∈ v.seen ∧ s.reqReady v x = true ∧ (s.drains c v = true ∨ x.isWrite = false ∨ x.cls = 0) ∧
      (x.own = true ∨ s.mayIssue c u = true) := by
  simp [List.mem_filter, and_assoc, or_assoc]

/-- A promoted unit: every request to the bead no younger than the promoted one is of SC0. -/
theorem Unit.promote_cls {v : Unit} {r x : MemReq} (hx : x ∈ (v.promote r).seen) (hpa : x.pa = r.pa) (hseq : x.seq ≤ r.seq) : x.cls = 0 := by
  unfold Unit.promote Unit.seen at hx
  rw [← List.map_append] at hx
  obtain ⟨y, -, rfl⟩ := List.mem_map.1 hx
  by_cases hy : y.pa = r.pa ∧ y.seq ≤ r.seq
  · rw [if_pos hy]
  · rw [if_neg hy] at hpa hseq
    exact absurd ⟨hpa, hseq⟩ hy

/-! ### A command slot (R127, R137) -/

theorem execSchedulerSlot_idle {s : State} {c : Fin 12} {u : Fin 32}
    (h : ¬(u.val < unitCount c ∧ s.ctlOk c = true ∧ s.clocked (ctlPage c).1 (ctlPage c).2 = true)) :
    exec (.schedulerSlot c u) s = .next s := by
  refine if_pos ?_
  cases hok : s.ctlOk c <;> cases hcl : s.clocked (ctlPage c).1 (ctlPage c).2 <;> simp_all

theorem execSchedulerSlot_serves {s : State} {c : Fin 12} {u : Fin 32}
    (h : u.val < unitCount c ∧ s.ctlOk c = true ∧ s.clocked (ctlPage c).1 (ctlPage c).2 = true) :
    exec (.schedulerSlot c u) s = if (s.ctlAt c).st = .failed then .next (s.failSlot c u)
      else onlyIf (!s.outOfService c (channelOf c u)) s fun s => s.commandSlot c u := by
  obtain ⟨hu, hok, hcl⟩ := h
  exact if_neg (by simp [hu, hok, hcl])

/-- A command slot issues a forced refresh, else the request picked, else a refresh of an idle bank. -/
theorem commandSlot_cases (s : State) (c u : Nat) :
    let w := (s.queueScrub c u).slotCredit c u
    let v := w.unitAt c u
    let x := w.setUnit c u { v with drain := w.drains c v }
    (∀ b, v.debt.find? (fun b => 4 ≤ b.2) = some b → s.commandSlot c u = w.refreshBank c u b.1 true) ∧
    (v.debt.find? (fun b => 4 ≤ b.2) = none →
      (∀ r, w.pick c u v = some r → s.commandSlot c u = x.issueReq c u r) ∧
      (∀ b, w.pick c u v = none → v.idleBank c = some b → s.commandSlot c u = x.refreshBank c u b false) ∧
      (w.pick c u v = none → v.idleBank c = none → s.commandSlot c u = x)) := by
  unfold State.commandSlot
  intro w v x
  refine ⟨fun b hb => ?_, fun hdebt => ⟨fun r hr => ?_, fun b hr hb => ?_, fun hr hb => ?_⟩⟩
  · dsimp only
    rw [hb]
  · dsimp only
    rw [hdebt, hr]
  · dsimp only
    rw [hdebt, hr]
    dsimp only
    rw [hb]
  · dsimp only
    rw [hdebt, hr]
    dsimp only
    rw [hb]

/-! ### Refresh debts (R133) -/

/-- A bank's debt recorded, with the controller's highest. -/
def State.setDebt (s : State) (c u b d : Nat) : State :=
  let s := s.setUnit c u { s.unitAt c u with debt := tblPut (s.unitAt c u).debt b d }
  s.setCtl c { s.ctlAt c with debtMax := max (s.ctlAt c).debtMax d }

theorem setDebt_debt (s : State) (c u b d : Nat) : tblGet ((s.setDebt c u b d).unitAt c u).debt b 0 = d := by
  unfold State.setDebt
  dsimp only
  refine (congrArg (fun v : Unit => tblGet v.debt b 0) ((setCtl_unitAt _ _ _ ?_ _ _).trans (setUnit_unitAt ..))).trans ?_
  · rfl
  · rw [if_pos rfl, tblGet_put, if_pos rfl]

theorem setDebt_debtMax (s : State) (c u b d : Nat) : ((s.setDebt c u b d).ctlAt c).debtMax = max (s.ctlAt c).debtMax d := by
  unfold State.setDebt State.setUnit
  simp

/-- The unit and its controller that a raised bit leaves. -/
theorem raiseCtl_ctlAt (s : State) (c b d : Nat) : (s.raiseCtl c b).ctlAt d = s.ctlAt d :=
  show (s.raiseCtl c b).quiet.ctlAt d = s.quiet.ctlAt d from congrArg (fun t : State => t.ctlAt d) (quiet_raise ..)

theorem execRefreshDue_eq {s : State} {c : Fin 12} {u : Fin 32} {b : Fin 64} (hu : u.val < unitCount c) (hb : b.val < bankCount c)
    (hok : s.ctlOk c = true) (hsr : (s.ctlAt c).st ≠ .selfRefresh) (hfail : (s.ctlAt c).st ≠ .failed) {d : Nat}
    (hd : min 4 (tblGet (s.unitAt c u).debt b.val 0 + 1) = d) :
    exec (.refreshDue c u b) s = .next (if d = 4 then (s.setDebt c u b d).raiseCtl c 2 else s.setDebt c u b d) := by
  subst hd
  exact congrArg Host.Outcome.next (if_pos (by simp [hu, hb, hok, hsr, hfail]))

/-- A bank's debt rises and its maximum is kept; at 4 it is reported. -/
theorem refreshDue_spec {s : State} {c : Fin 12} {u : Fin 32} {b : Fin 64} {d : Nat} (hu : u.val < unitCount c) (hb : b.val < bankCount c)
    (hok : s.ctlOk c = true) (hsr : (s.ctlAt c).st ≠ .selfRefresh) (hfail : (s.ctlAt c).st ≠ .failed)
    (hd : min 4 (tblGet (s.unitAt c u).debt b.val 0 + 1) = d) :
    ∃ t, exec (.refreshDue c u b) s = .next t ∧ tblGet (t.unitAt c u).debt b.val 0 = d ∧
      (t.ctlAt c).debtMax = max (s.ctlAt c).debtMax d ∧ t.mem = s.mem ∧
      (d = 4 → wbit (t.reg (pageBase (ctlPage c).1 (ctlPage c).2 + 8)) 2 = true) ∧ (d < 4 → t.regs = s.regs) := by
  refine ⟨_, execRefreshDue_eq hu hb hok hsr hfail hd, ?_⟩
  by_cases h4 : d = 4
  · rw [if_pos h4]
    refine ⟨?_, (congrArg Ctl.debtMax (raiseCtl_ctlAt ..)).trans (setDebt_debtMax ..),
      mem_of_quiet (t := s.setDebt c u b d) (quiet_raise ..), fun _ => ?_, fun hlt => by omega⟩
    · unfold State.unitAt
      rw [raiseCtl_ctlAt]
      exact setDebt_debt ..
    · exact (raise_wbit _ _ _ _ (by omega)).trans (by simp)
  · rw [if_neg h4]
    exact ⟨setDebt_debt .., setDebt_debtMax .., rfl, fun h => absurd h h4, fun _ => rfl⟩

/-! ### A DRAM read that ends -/

/-- A finished read of DRAM goes to the request it was made for, or its bead is repaired. -/
theorem dramReadDone_spec {s : State} {c : Fin 12} {u : Fin 32} {errs : List (Fin 36 × BitVec 16)} {r : MemReq} {rest : List MemReq}
    {v x : State} {e : List (Nat × Nat)} (hdram : (s.unitAt c u).dram = r :: rest)
    (hv : s.setUnit c u { s.unitAt c u with dram := rest } = v) (hx : (if r.origin = .scrub then v.scrubbed c else v) = x)
    (he : (errs.map fun e : Fin 36 × BitVec 16 => (e.1.val, e.2.toNat)) = e) :
    ((s.ctlAt c).st = .failed → exec (.dramReadDone c u errs) s = .next ((v.failReq r).settle c)) ∧
    ((s.ctlAt c).st ≠ .failed →
      (∀ w b q, x.readOut r.pa e = (w, .data b q) → exec (.dramReadDone c u errs) s = .next ((w.deliver r b q).settle c)) ∧
      (∀ w id, x.readOut r.pa e = (w, .repair) → w.protectedAt r.pa = some id →
        exec (.dramReadDone c u errs) s = .next ((w.gatherOwn id r.pa (.repair r true)).settle c))) := by
  have hst : (v.ctlAt c).st = (s.ctlAt c).st := by
    rw [← hv]
    unfold State.setUnit
    rw [setCtl_ctlAt, if_pos rfl]
  have hexec : exec (.dramReadDone c u errs) s = if (s.ctlAt c).st = .failed then .next ((v.failReq r).settle c) else
      match x.readOut r.pa e with
      | (s, .data d p) => .next ((s.deliver r d p).settle c)
      | (s, .repair) => .next (((match s.protectedAt r.pa with
        | some ext => s.gatherOwn ext r.pa (.repair r true)
        | none => s)).settle c) := by
    show execDramReadDone c u errs s = _
    unfold execDramReadDone
    dsimp only
    rw [hdram]
    dsimp only
    rw [hv, hst, hx, he] <;> rfl
  rw [hexec]
  refine ⟨fun hf => if_pos hf, fun hf => ⟨fun w b q hw => (if_neg hf).trans ?_, fun w id hw hp => (if_neg hf).trans ?_⟩⟩
  · rw [hw]
  · rw [hw]
    dsimp only
    rw [hp]

/-- Settles O39: a slot's choice is the least rank among the requests it may issue. -/
theorem slotsIssueByRank : Obligations.SlotsIssueByRank := by
  unfold Obligations.SlotsIssueByRank
  refine ⟨fun s c u v r hr => ?_, fun s c u => ⟨⟨fun hno => ?_, fun hs hf => ?_, fun hs hf hout => ?_, fun hs hf hin => ?_⟩,
    fun r hr => ?_, fun errs r rest hdram => dramReadDone_spec hdram rfl rfl rfl, fun b hu hb hok hsr hfail => ?_⟩⟩
  · obtain ⟨hmem, hall⟩ := leastBy_spec hr
    refine ⟨mem_pickable.1 hmem, fun x hx => hall x (mem_pickable.2 hx), fun x hx hcls hseq => ?_⟩
    have hle := hall x (mem_pickable.2 hx)
    by_contra hne
    have h1 := Unit.rank_of_unpromoted (v := v) (c := c) (drain := s.drains c v) hne
    have h2 : v.rank c (s.drains c v) x = x.seq := if_pos hcls
    omega
  · exact execSchedulerSlot_idle hno
  · exact (execSchedulerSlot_serves hs).trans (if_pos hf)
  · exact (execSchedulerSlot_serves hs).trans ((if_neg hf).trans (congrArg Host.Outcome.next (if_neg (by rw [hout]; decide))))
  · have hslot : exec (.schedulerSlot c u) s = .next (s.commandSlot c u) :=
      (execSchedulerSlot_serves hs).trans ((if_neg hf).trans (congrArg Host.Outcome.next (if_pos (by rw [hin]; rfl))))
    obtain ⟨hforced, hfree⟩ := commandSlot_cases s c u
    refine ⟨fun b hb => hslot.trans (congrArg _ (hforced b hb)), fun hdebt => ?_⟩
    obtain ⟨hpick, hidle, hnone⟩ := hfree hdebt
    exact ⟨fun r hr => hslot.trans (congrArg _ (hpick r hr)), fun b hr hb => hslot.trans (congrArg _ (hidle b hr hb)),
      fun hr hb => hslot.trans (congrArg _ (hnone hr hb))⟩
  · obtain ⟨k, hk⟩ := s.elapseTo_eq (r.at_ + s.ageLimit c)
    have hexec : exec (.agePromote c u) s = .next ((s.elapseTo (r.at_ + s.ageLimit c)).setUnit c u ((s.unitAt c u).promote r)) := by
      show execAgePromote c u s = _
      unfold execAgePromote
      dsimp only
      rw [hr]
    refine ⟨_, hexec, ?_, ?_, fun x hx hpa hseq => ?_, fun d y hdy => ?_⟩
    · rw [hk]; rfl
    · rw [hk]; rfl
    · rw [setUnit_unitAt, if_pos rfl] at hx
      exact Unit.promote_cls hx hpa hseq
    · rw [setUnit_unitAt, if_neg hdy, hk]; rfl
  · exact refreshDue_spec hu hb hok hsr hfail rfl

end Sys2Proof.Machine
end

section
/-!
A controller's states: scrub periods, self-refresh and training (R134–R137, R148).
-/

namespace Sys2Proof.Machine

/-! ### Controllers under raised bits and passing time -/

theorem ctlAt_of_quiet {s t : State} (h : s.quiet = t.quiet) (d : Nat) : s.ctlAt d = t.ctlAt d :=
  show s.quiet.ctlAt d = t.quiet.ctlAt d from congrArg (fun x : State => x.ctlAt d) h

theorem elapseTo_ctlAt (s : State) (t d : Nat) : (s.elapseTo t).ctlAt d = s.ctlAt d := by
  obtain ⟨k, hk⟩ := s.elapseTo_eq t
  rw [hk]
  rfl

theorem setCtl_ctlAt_same (s : State) (c : Nat) (v : Ctl) : (s.setCtl c v).ctlAt c = v := (setCtl_ctlAt ..).trans (if_pos rfl)

/-- No controller's page is the translation page. -/
theorem ctlPage_ne_xlt (c : Fin 12) : pageBase (ctlPage c).1 (ctlPage c).2 + 8 ≠ pageBase .xlt 0 + 8 := by
  revert c
  decide

/-! ### The patrol scrub (R148) -/

/-- The state from which a scrub pass starts again: a pass that did not finish has been reported. -/
def State.scrubDue (s : State) (c : Nat) : State :=
  let x := s.elapseTo ((s.ctlAt c).scrubAt + s.scrubPeriod)
  if (s.ctlAt c).scrubDone then x else x.raise .ecc 0 5

theorem quiet_scrubDue (s : State) (c : Nat) : (s.scrubDue c).quiet = (s.elapseTo ((s.ctlAt c).scrubAt + s.scrubPeriod)).quiet := by
  unfold State.scrubDue
  dsimp only
  split
  · rfl
  · exact quiet_raise ..

theorem scrubPeriodEnd_spec {s : State} {c : Fin 12} (hsvc : s.inService = true) (hok : s.ctlOk c = true)
    (hfail : (s.ctlAt c).st ≠ .failed) : ∃ t, exec (.scrubPeriodEnd c) s = .next t ∧
      (t.ctlAt c).scrubPos = 0 ∧ (t.ctlAt c).scrubDone = false ∧ (t.ctlAt c).ceRows = [] ∧
      t.time = max s.time ((s.ctlAt c).scrubAt + s.scrubPeriod) ∧ t.mem = s.mem ∧
      ((s.ctlAt c).scrubDone = false → wbit (t.reg 0x80008) 5 = true) := by
  have hexec : exec (.scrubPeriodEnd c) s = .next ((s.scrubDue c).setCtl c
      { (s.scrubDue c).ctlAt c with scrubPos := 0, scrubDone := false, scrubAt := (s.scrubDue c).time, ceRows := [] }) :=
    congrArg Host.Outcome.next (if_pos (by simp [hsvc, hok, hfail]))
  obtain ⟨k, hk⟩ := s.elapseTo_eq ((s.ctlAt c).scrubAt + s.scrubPeriod)
  have hq := quiet_scrubDue s c
  refine ⟨_, hexec, ?_, ?_, ?_, ?_, ?_, fun hdone => ?_⟩
  · rw [setCtl_ctlAt_same]
  · rw [setCtl_ctlAt_same]
  · rw [setCtl_ctlAt_same]
  · rw [hk] at hq
    exact (congrArg State.time hq : (s.scrubDue c).quiet.time = _)
  · rw [hk] at hq
    exact (congrArg State.mem hq : (s.scrubDue c).quiet.mem = _)
  · show wbit ((s.scrubDue c).reg (pageBase .ecc 0 + 8)) 5 = true
    unfold State.scrubDue
    dsimp only
    rw [if_neg (by simp [hdone]), raise_wbit _ _ _ _ (by omega)]
    rfl

/-! ### Self-refresh (R134, R135) -/

/-- Self-refresh is entered where the controller serves, is empty and does not train: at once under SR_FORCE, else
after SR_IDLE_US with its deferred work done. -/
theorem srIdleEnter_spec (s : State) (c : Fin 12) :
    let may := s.ctlOk c = true ∧ (s.ctlAt c).st = .active ∧ (s.ctlAt c).tracking = none ∧ (s.ctlAt c).empty = true
    let u := s.elapseTo ((s.ctlAt c).idleSince + us (s.srIdleUs c))
    (¬may → exec (.srIdleEnter c) s = .next s) ∧
    (may → s.srForced c = true → exec (.srIdleEnter c) s = .next (s.enterSr c)) ∧
    (may → s.srForced c = false → s.srIdleUs c ≠ 0 → u.owesWork c = false → exec (.srIdleEnter c) s = .next (u.enterSr c)) ∧
    (may → s.srForced c = false → s.srIdleUs c = 0 ∨ u.owesWork c = true → exec (.srIdleEnter c) s = .next s) := by
  intro may u
  have hexec : exec (.srIdleEnter c) s = if ¬may then .next s else if s.srForced c = true then .next (s.enterSr c)
      else onlyIf (s.srIdleUs c != 0 && !u.owesWork c) s fun _ => u.enterSr c := by
    refine ite_congr ?_ (fun _ => rfl) fun _ => rfl
    cases hok : s.ctlOk c <;> cases he : (s.ctlAt c).empty <;> cases htr : (s.ctlAt c).tracking <;> simp [may, hok, he, htr]
  rw [hexec]
  refine ⟨fun hno => if_pos hno, fun hm hf => ?_, fun hm hf hus ho => ?_, fun hm hf hor => ?_⟩
  · rw [if_neg (not_not.2 hm), if_pos hf]
  · rw [if_neg (not_not.2 hm), if_neg (by simp [hf])]
    exact congrArg Host.Outcome.next (if_pos (by simp [hus, ho]))
  · rw [if_neg (not_not.2 hm), if_neg (by simp [hf])]
    refine congrArg Host.Outcome.next (if_neg ?_)
    rcases hor with h | h <;> simp [h]

/-- A unit of a controller that has entered self-refresh: no row is open and no refresh is owed. -/
theorem unit_restored (k : Ctl) (x : Nat) :
    let t := tblGet (tblMap k.units fun _ u => { u with row := [], debt := [] }) x {}
    t.debt = [] ∧ t.row = [] ∧ t.reads = (tblGet k.units x {}).reads := by
  rw [tblGet_map, tblGet]
  cases tblGet? k.units x <;> exact ⟨rfl, rfl, rfl⟩

theorem srEntryDone_spec {s : State} {c : Fin 12} (hst : (s.ctlAt c).st = .entering) : ∃ t, exec (.srEntryDone c) s = .next t ∧
    t.mem = s.mem ∧ (t.ctlAt c).st = (if (s.ctlAt c).wake = true ∧ s.srForced c = false then .exiting else .selfRefresh) ∧
    ∀ x, (t.unitAt c x).debt = [] ∧ (t.unitAt c x).row = [] ∧ (t.unitAt c x).reads = (s.unitAt c x).reads := by
  refine ⟨_, congrArg Host.Outcome.next (if_pos (by rw [hst]; rfl)), rfl, ?_, fun x => ?_⟩
  · rw [setCtl_ctlAt_same]
    cases (s.ctlAt c).wake <;> cases s.srForced c <;> rfl
  · unfold State.unitAt
    rw [setCtl_ctlAt_same]
    exact unit_restored (s.ctlAt c) x

theorem raiseCtl_mem (s : State) (c b : Nat) : (s.raiseCtl c b).mem = s.mem := mem_of_quiet (quiet_raise ..)

theorem raiseCtl_time (s : State) (c b : Nat) : (s.raiseCtl c b).time = s.time :=
  show (s.raise (ctlPage c).1 (ctlPage c).2 b).quiet.time = s.quiet.time from congrArg State.time (quiet_raise ..)

theorem raiseCtl_wbit (s : State) (c b : Nat) (hb : b < 32) :
    wbit ((s.raiseCtl c b).reg (pageBase (ctlPage c).1 (ctlPage c).2 + 8)) b = true :=
  (raise_wbit _ _ _ _ hb).trans (by simp)

/-- A controller that SR_MAX_MS sends back to its deferred work. -/
def State.leaveSr (s : State) (c : Nat) : State :=
  (s.setCtl c { s.ctlAt c with st := .exiting, since := s.time, deferred := true }).raiseCtl c 3

theorem srMaxExpiry_spec {s : State} {c : Fin 12} {n : Nat} (hst : (s.ctlAt c).st = .selfRefresh) (hforce : s.srForced c = false)
    (hn : (s.ctlAt c).since + ms (s.actBits (ctlPage c).1 (ctlPage c).2 0x044 15 0) = n) : ∃ t, exec (.srMaxExpiry c) s = .next t ∧
      (t.ctlAt c).st = .exiting ∧ (t.ctlAt c).deferred = true ∧ t.mem = s.mem ∧
      wbit (t.reg (pageBase (ctlPage c).1 (ctlPage c).2 + 8)) 3 = true ∧ t.time = max s.time n := by
  have hexec : exec (.srMaxExpiry c) s =
      .next ((s.elapseTo ((s.ctlAt c).since + ms (s.actBits (ctlPage c).1 (ctlPage c).2 0x044 15 0))).leaveSr c) :=
    congrArg Host.Outcome.next (if_pos (by rw [hst, hforce]; rfl))
  rw [hn] at hexec
  have htime : (s.elapseTo n).time = max s.time n := elapseTo_time ..
  have hmem : (s.elapseTo n).mem = s.mem := by
    obtain ⟨k, hk⟩ := s.elapseTo_eq n
    rw [hk]
  unfold State.leaveSr at hexec
  refine ⟨_, hexec, ?_, ?_, ?_, raiseCtl_wbit _ _ _ (by omega), ?_⟩
  · rw [raiseCtl_ctlAt, setCtl_ctlAt_same]
  · rw [raiseCtl_ctlAt, setCtl_ctlAt_same]
  · rw [raiseCtl_mem]
    exact hmem
  · rw [raiseCtl_time]
    exact htime

/-! ### Training in service (R136, R137) -/

theorem startTracking_starts {s : State} {c : Nat} (ch : Nat) (hst : (s.ctlAt c).st = .active) (htr : (s.ctlAt c).tracking = none) :
    s.startTracking c ch = s.setCtl c { s.ctlAt c with tracking := some ch, run := 1 } := if_pos ⟨hst, htr⟩

theorem trackingStep_spec {s : State} {c : Fin 12} {ch : Fin 16} {n : Nat} (hok : s.ctlOk c = true) (hst : (s.ctlAt c).st = .active)
    (htr : (s.ctlAt c).tracking = none) (hch : (s.ctlAt c).trackCh = ch.val)
    (hn : ms (s.actBits (ctlPage c).1 (ctlPage c).2 0x048 31 16) = n) :
    ∃ t, exec (.trackingStep c ch) s = .next t ∧ (t.ctlAt c).tracking = some ch.val ∧ t.mem = s.mem ∧
      (t.ctlAt c).trackCh = (ch.val + 1) % 16 ∧ t.time = (if ch.val = 0 then max s.time (s.ctlAt c).nextTrack else s.time) ∧
      (t.ctlAt c).nextTrack = if ch.val = 0 then t.time + n else (s.ctlAt c).nextTrack := by
  generalize hu : (if ch.val = 0 then s.elapseTo (s.ctlAt c).nextTrack else s) = u
  have hctl : u.ctlAt c = s.ctlAt c := by
    rw [← hu]
    split
    · exact elapseTo_ctlAt ..
    · rfl
  have hper : ms (u.actBits (ctlPage c).1 (ctlPage c).2 0x048 31 16) = n := by
    rw [← hn, ← hu]
    split
    · obtain ⟨k, hk⟩ := s.elapseTo_eq (s.ctlAt c).nextTrack
      rw [hk]
      rfl
    · rfl
  have htime : u.time = (if ch.val = 0 then max s.time (s.ctlAt c).nextTrack else s.time) := by
    rw [← hu]
    split
    · exact elapseTo_time ..
    · rfl
  have hmem : u.mem = s.mem := by
    rw [← hu]
    split
    · obtain ⟨k, hk⟩ := s.elapseTo_eq (s.ctlAt c).nextTrack
      rw [hk]
    · rfl
  have hexec : exec (.trackingStep c ch) s = .next ((u.setCtl c { u.ctlAt c with
      trackCh := (ch.val + 1) % 16, nextTrack := if ch.val = 0 then u.time + n else (s.ctlAt c).nextTrack }).startTracking c ch) := by
    rw [← hper, ← hu]
    exact congrArg Host.Outcome.next (if_pos (by simp [hok, hst, htr, hch]))
  rw [startTracking_starts _ (by rw [setCtl_ctlAt_same, hctl]; exact hst) (by rw [setCtl_ctlAt_same, hctl]; exact htr),
    setCtl_ctlAt_same] at hexec
  refine ⟨_, hexec, ?_, hmem, ?_, htime, ?_⟩
  · rw [setCtl_ctlAt_same]
  · rw [setCtl_ctlAt_same]
  · rw [setCtl_ctlAt_same]
    rfl

/-- A controller with the temperature its DRAM reads. -/
def Ctl.heat (k : Ctl) (temp : Int) : Ctl := { k with temp := temp, ref2x := decide (85 < temp) }

theorem fullRetrainStart_spec {s : State} {c : Fin 12} (ch : Fin 16) (temp : Int) (hok : s.ctlOk c = true)
    (hfail : (s.ctlAt c).st ≠ .failed) (hsr : (s.ctlAt c).st ≠ .selfRefresh) :
    let k := s.ctlAt c
    let moved := ∀ old, tblGet? k.trainedAt ch = some old → s.trainDelta c ≤ (temp - old).natAbs
    (moved → k.st = .active → k.tracking = none → exec (.fullRetrainStart c ch temp) s =
      .next (s.setCtl c { k.heat temp with st := .retrain, retrainCh := ch, run := 1, since := s.time })) ∧
    (¬moved ∨ k.st ≠ .active ∨ k.tracking ≠ none → exec (.fullRetrainStart c ch temp) s = .next (s.setCtl c (k.heat temp))) := by
  intro k moved
  have hexec : exec (.fullRetrainStart c ch temp) s = .next (if moved ∧ k.st = .active ∧ k.tracking = none
      then s.setCtl c { k.heat temp with st := .retrain, retrainCh := ch, run := 1, since := s.time } else s.setCtl c (k.heat temp)) := by
    refine congrArg Host.Outcome.next ((if_pos (by simp [hok, hfail, hsr])).trans (ite_congr ?_ (fun _ => rfl) fun _ => rfl))
    have hmoved : (match tblGet? k.trainedAt ch with
        | some t => decide (s.trainDelta c ≤ (temp - t).natAbs)
        | none => true) = true ↔ moved := by
      show _ ↔ ∀ old, tblGet? k.trainedAt ch = some old → s.trainDelta c ≤ (temp - old).natAbs
      cases tblGet? k.trainedAt ch <;> simp
    have hall (m : Bool) : ((m && k.st == .active && k.tracking.isNone) = true) = (m = true ∧ k.st = .active ∧ k.tracking = none) := by
      simp [and_assoc]
    exact (hall _).trans (propext (and_congr hmoved Iff.rfl))
  rw [hexec]
  refine ⟨fun hm ha ht => congrArg _ (if_pos ⟨hm, ha, ht⟩), fun hor => congrArg _ (if_neg ?_)⟩
  rintro ⟨hm, ha, ht⟩
  exact hor.elim (fun h => h hm) fun h => h.elim (fun h => h ha) fun h => h ht

/-! ### A run that ends (R137) -/

/-- The channel whose run is under way. -/
def Ctl.running (k : Ctl) : Option Nat := if k.st = .retrain then some k.retrainCh else k.tracking

theorem execRetrainDone_eq {s : State} {c : Fin 12} {ch : Nat} (ok : Bool) (h : (s.ctlAt c).running = some ch) :
    exec (.retrainDone c ok) s = if ok = true then
      .next (((s.setCtl c (if (s.ctlAt c).st = .retrain then { s.ctlAt c with
          st := .active, retrains := min 0xFFFF ((s.ctlAt c).retrains + 1), since := s.time
          trainedAt := tblPut (s.ctlAt c).trainedAt ch (s.ctlAt c).temp }
        else { s.ctlAt c with tracking := none })).nextTracking c).forceSr c)
      else if (s.ctlAt c).run < 3 then
        .next ((s.setCtl c { s.ctlAt c with run := (s.ctlAt c).run + 1, retries := min 0xFF ((s.ctlAt c).retries + 1), lastFailCh := ch }).raiseCtl c 1)
      else .next ((s.setCtl c { s.ctlAt c with lastFailCh := ch }).failController c ch) := by
  show execRetrainDone c ok s = _
  unfold execRetrainDone
  dsimp only
  have h' : (if (s.ctlAt c).st = .retrain then some (s.ctlAt c).retrainCh else (s.ctlAt c).tracking) = some ch := h
  rw [h']
  dsimp only
  refine ite_congr rfl (fun _ => ?_) fun _ => rfl
  split <;> rfl

/-- A controller that fails is FAILED, its page says so, and the last thing it does is to post the record. -/
theorem failController_spec (s : State) (c : Fin 12) (ch : Nat) : let t := s.failController c ch
    (t.ctlAt c).st = .failed ∧ t.mem = s.mem ∧ wbit (t.reg (pageBase (ctlPage c).1 (ctlPage c).2 + 8)) 0 = true ∧
    ∃ x r, t = State.postMgr x r ∧ r.typ = 0x0005 := by
  have hq : (s.failController c ch).quiet =
      (s.setCtl c { s.ctlAt c with st := .failed, tracking := none, trackDue := [], since := s.time }).quiet :=
    (quiet_postMgr ..).trans (quiet_raise ..)
  refine ⟨?_, (mem_of_quiet hq).trans rfl, ?_, _, _, rfl, rfl⟩
  · rw [ctlAt_of_quiet hq, setCtl_ctlAt_same]
  · refine (congrArg (wbit · 0) (postMgr_reg _ _ (ctlPage_ne_xlt c))).trans ?_
    exact (raise_wbit _ _ _ _ (by omega)).trans (by simp)

theorem retrainDone_spec {s : State} {c : Fin 12} {ch : Nat} (h : (s.ctlAt c).running = some ch) :
    let k := s.ctlAt c
    let done : Ctl := if k.st = .retrain then { k with st := .active, retrains := min 0xFFFF (k.retrains + 1), since := s.time
                                                       trainedAt := tblPut k.trainedAt ch k.temp }
      else { k with tracking := none }
    exec (.retrainDone c true) s = .next (((s.setCtl c done).nextTracking c).forceSr c) ∧
    (k.run < 3 → ∃ t, exec (.retrainDone c false) s = .next t ∧
      t.ctlAt c = { k with run := k.run + 1, retries := min 0xFF (k.retries + 1), lastFailCh := ch } ∧ t.mem = s.mem ∧
      wbit (t.reg (pageBase (ctlPage c).1 (ctlPage c).2 + 8)) 1 = true) ∧
    (3 ≤ k.run → ∃ t, exec (.retrainDone c false) s = .next t ∧ (t.ctlAt c).st = .failed ∧ t.mem = s.mem ∧
      wbit (t.reg (pageBase (ctlPage c).1 (ctlPage c).2 + 8)) 0 = true ∧
      ∃ x r, t = State.postMgr x r ∧ r.typ = 0x0005) := by
  intro k done
  refine ⟨(execRetrainDone_eq true h).trans (if_pos rfl), fun hrun => ?_, fun hrun => ?_⟩
  · refine ⟨_, (execRetrainDone_eq false h).trans ((if_neg (by decide)).trans (if_pos hrun)), ?_, raiseCtl_mem .., raiseCtl_wbit _ _ _ (by omega)⟩
    rw [raiseCtl_ctlAt, setCtl_ctlAt_same]
  · exact ⟨_, (execRetrainDone_eq false h).trans ((if_neg (by decide)).trans (if_neg (Nat.not_lt.2 hrun))), failController_spec _ c ch⟩

theorem retrainDone_idle {s : State} {c : Fin 12} (h : (s.ctlAt c).running = none) (ok : Bool) : exec (.retrainDone c ok) s = .next s := by
  show execRetrainDone c ok s = _
  unfold execRetrainDone
  dsimp only
  have h' : (if (s.ctlAt c).st = .retrain then some (s.ctlAt c).retrainCh else (s.ctlAt c).tracking) = none := h
  rw [h']

/-- Settles O40: an event of the tables each. -/
theorem controllerStatesMove : Obligations.ControllerStatesMove := by
  unfold Obligations.ControllerStatesMove
  intro s c k pg
  refine ⟨scrubPeriodEnd_spec, ?_, srEntryDone_spec, fun h => congrArg Host.Outcome.next (if_pos (by rw [h]; rfl)),
    fun hst hf => ?_, fun ch hok hst htr hch => ?_, fun ch temp hok hfail hsr => fullRetrainStart_spec ch temp hok hfail hsr,
    fun ch h => retrainDone_spec h, fun h ok => retrainDone_idle h ok⟩
  · have h := srIdleEnter_spec s c
    rw [us_eq] at h
    exact h
  · exact srMaxExpiry_spec hst hf (congrArg (_ + ·) (ms_eq _))
  · exact trackingStep_spec hok hst htr hch (ms_eq _)

end Sys2Proof.Machine
end

section
/-!
Walks give their verdicts, invalidations end and lost beam headers are answered (R105, R107–R109, R151).
-/

namespace Sys2Proof.Machine

/-! ### Walks that end (R105, R107) -/

/-- The walk in place `n` is no longer under way. -/
def State.walkEnded (s : State) (n : Nat) : State := { s with xlt := { s.xlt with walks := s.xlt.walks.eraseIdx n } }

theorem execWalkComplete_gone {s : State} {n : Nat} {w : Walk} (hw : (s.xlt.walks.take 128)[n]? = some w)
    (hst : (s.ctx w.ctx).st ≠ .active) :
    exec (.walkComplete n) s = .next (w.slots.foldl (fun s k => s.complete k stContextGone) (s.walkEnded n)) := by
  show execWalkComplete n s = _
  unfold execWalkComplete
  rw [hw]
  exact if_pos hst

theorem execWalkComplete_walked {s : State} {n : Nat} {w : Walk} (hw : (s.xlt.walks.take 128)[n]? = some w)
    (hst : (s.ctx w.ctx).st = .active) {x : State} {y : Walked} (hxy : s.walkTables w.ctx (w.page * 0x10000) = (x, y)) :
    (∀ e, y = .ok e → exec (.walkComplete n) s = .next (w.slots.foldl (fun s k => s.walked k e) ((x.walkEnded n).fillTlb e))) ∧
    (y = .later → exec (.walkComplete n) s = .next x) ∧
    ((∀ e, y ≠ .ok e) → y ≠ .later →
      exec (.walkComplete n) s = .next (w.slots.foldl (fun s k => s.complete k y.status) (x.walkEnded n))) := by
  have hexec : exec (.walkComplete n) s = match s.walkTables w.ctx (w.page * 0x10000) with
      | (s, .ok e) => .next (w.slots.foldl (fun s k => s.walked k e) ((s.walkEnded n).fillTlb e))
      | (s, .later) => .next s
      | (s, x) => .next (w.slots.foldl (fun s k => s.complete k x.status) (s.walkEnded n)) := by
    show execWalkComplete n s = _
    unfold execWalkComplete
    rw [hw]
    exact if_neg (not_not.2 hst)
  rw [hexec, hxy]
  cases y with
  | ok e => exact ⟨fun e' h => by cases h; rfl, fun h => (by cases h), fun h => absurd rfl (h e)⟩
  | later => exact ⟨fun e' h => (by cases h), fun _ => rfl, fun _ h => absurd rfl h⟩
  | missing => exact ⟨fun e' h => (by cases h), fun h => (by cases h), fun _ _ => rfl⟩
  | fault => exact ⟨fun e' h => (by cases h), fun h => (by cases h), fun _ _ => rfl⟩
  | breach => exact ⟨fun e' h => (by cases h), fun h => (by cases h), fun _ _ => rfl⟩
  | revoked => exact ⟨fun e' h => (by cases h), fun h => (by cases h), fun _ _ => rfl⟩

/-! ### INVAL (R108, R109) -/

/-- An INVAL of a wrong shape is MALFORMED. -/
theorem actInval_malformed {t : State} {k : Nat} {v : InSlot} (hv : t.slot? k = some v) (hbad : invalOk v.pkt.body = false) :
    t.actInval k = t.complete k stMalformed := by
  unfold State.actInval
  rw [hv]
  exact if_pos (by rw [hbad]; rfl)

/-- A lookaside entry of an INVAL's scope. -/
def LkEntry.hitBy (e : LkEntry) (b : List Byte) : Bool := inScope b e.ctx e.va e.size

/-- A request in an INVAL's scope, or one that used an entry it drops. -/
def State.usesHit (t : State) (b : List Byte) (x : Nat × InSlot) : Bool :=
  memoryForm x.2.pkt.typ && x.2.ctx != 0 && x.2.phase != .walk &&
    (inScope b x.2.ctx x.2.pkt.addr 64 || (t.xlt.tlb.filter (·.hitBy b)).any fun e => e.covers x.2.ctx x.2.pkt.addr)

/-- An INVAL of a right shape drops the entries and pointers of its scope and waits for the requests that used one. -/
theorem actInval_drops {t : State} {k : Nat} {v : InSlot} (hv : t.slot? k = some v) (hok : invalOk v.pkt.body = true) :
    let b := v.pkt.body
    ∃ i, (t.actInval k).xlt.invals = t.xlt.invals ++ [i] ∧ i.slot = k ∧ i.src = v.src ∧
      (t.actInval k).xlt.tlb = t.xlt.tlb.filter (fun e => !e.hitBy b) ∧
      (t.actInval k).xlt.cache = t.xlt.cache.filter (fun x => !inScope b x.ctx (x.va * 2 ^ pointerShift x.level) (2 ^ pointerShift x.level)) ∧
      i.dropped = (t.xlt.tlb.filter (·.hitBy b)).length + (t.movers.map fun m => (m.2.lookaside.filter (·.hitBy b)).length).sum ∧
      i.waitFor = (t.txn.slots.filter (t.usesHit b)).map (·.1) ∧ (t.actInval k).mem = t.mem := by
  intro b
  have hoff := offTile_discardAhead t fun x => x.ahead.any fun a => a.used.any (·.hitBy b)
  have hxlt {α : Type} (f : Xlt → α) (hf : ∀ x : Xlt, f { x with rings := [] } = f x) :
      f (t.discardAhead fun x => x.ahead.any fun a => a.used.any (·.hitBy b)).xlt = f t.xlt :=
    (hf _).symm.trans ((congrArg (fun s : State => f s.xlt) hoff).trans (hf _))
  unfold State.actInval
  rw [hv]
  dsimp only
  rw [if_neg (by rw [hok]; decide)]
  refine ⟨_, congrArg (· ++ [_]) (hxlt Xlt.invals fun _ => rfl), rfl, rfl, congrArg (List.filter _) (hxlt Xlt.tlb fun _ => rfl),
    congrArg (List.filter _) (hxlt Xlt.cache fun _ => rfl), rfl, rfl, ?_⟩
  exact (congrArg State.mem hoff : (State.offTile _).mem = _)

/-- Where an admitted INVAL's body decides. -/
theorem inval_acts {s t : State} {port : Fin 16} {p : Packet} {v : InSlot} (h : s.Admits invalRules port p t)
    (hv : t.slot? (invalRules.slot p) = some v) :
    let b := v.pkt.body
    let hit (e : LkEntry) : Bool := inScope b e.ctx e.va e.size
    let ptr (x : Pointer) : Bool := inScope b x.ctx (x.va * 2 ^ pointerShift x.level) (2 ^ pointerShift x.level)
    (invalOk b = false → exec (.inval port p) s = .next (t.complete (invalRules.slot p) stMalformed)) ∧
    (invalOk b = true → ∃ u i, exec (.inval port p) s = .next u ∧ u.xlt.invals = t.xlt.invals ++ [i] ∧
      i.slot = invalRules.slot p ∧ i.src = v.src ∧ u.xlt.tlb = t.xlt.tlb.filter (fun e => !hit e) ∧
      u.xlt.cache = t.xlt.cache.filter (fun x => !ptr x) ∧
      i.dropped = (t.xlt.tlb.filter hit).length + (t.movers.map fun m => (m.2.lookaside.filter hit).length).sum ∧
      (∀ k x, (k, x) ∈ t.txn.slots → memoryForm x.pkt.typ = true → x.ctx ≠ 0 → x.phase ≠ .walk →
        (inScope b x.ctx x.pkt.addr 64 = true ∨ ∃ e ∈ t.xlt.tlb, hit e = true ∧ e.covers x.ctx x.pkt.addr = true) →
        k ∈ i.waitFor) ∧ u.mem = t.mem) := by
  intro b hit ptr
  have hexec : exec (.inval port p) s = .next (t.actInval (invalRules.slot p)) :=
    congrArg Host.Outcome.next (arrive_of_admits h State.actInval)
  refine ⟨fun hbad => hexec.trans (congrArg _ (actInval_malformed hv hbad)), fun hok => ?_⟩
  obtain ⟨i, hinv, hslot, hsrc, htlb, hcache, hdrop, hwait, hmem⟩ := actInval_drops hv hok
  refine ⟨_, i, hexec, hinv, hslot, hsrc, htlb, hcache, hdrop, fun k x hk hform hctx hphase huse => ?_, hmem⟩
  rw [hwait]
  refine List.mem_map.2 ⟨(k, x), List.mem_filter.2 ⟨hk, ?_⟩, rfl⟩
  have huse' : (inScope b x.ctx x.pkt.addr 64 || (t.xlt.tlb.filter (·.hitBy b)).any fun e => e.covers x.ctx x.pkt.addr) = true := by
    rcases huse with h | ⟨e, he, hhit, hcov⟩
    · rw [h]; rfl
    · exact Bool.or_eq_true_iff.2 (Or.inr (List.any_eq_true.2 ⟨e, List.mem_filter.2 ⟨he, hhit⟩, hcov⟩))
  unfold State.usesHit
  dsimp only
  rw [hform, huse']
  simp [hctx, hphase]

/-- An INVAL completes once nothing it waits for is left and it is its source's first. -/
theorem invalComplete_spec {s : State} {n : Nat} {i : Inval} (hi : s.xlt.invals[n]? = some i) :
    let may := i.waitFor = [] ∧ ((s.xlt.invals.take n).all fun j => j.src != i.src) = true
    (may → exec (.invalComplete n) s = .next (State.complete { s with xlt := { s.xlt with invals := s.xlt.invals.eraseIdx n } }
      i.slot stOk (leBytes 4 i.dropped ++ leBytes 4 i.visited))) ∧
    (¬may → exec (.invalComplete n) s = .next s) := by
  intro may
  have hexec : exec (.invalComplete n) s = .next (if may then (State.complete
      { s with xlt := { s.xlt with invals := s.xlt.invals.eraseIdx n } } i.slot stOk (leBytes 4 i.dropped ++ leBytes 4 i.visited)) else s) := by
    show execInvalComplete n s = _
    unfold execInvalComplete
    rw [hi]
    refine congrArg Host.Outcome.next (ite_congr ?_ (fun _ => rfl) fun _ => rfl)
    simp [may]
  rw [hexec]
  exact ⟨fun h => congrArg _ (if_pos h), fun h => congrArg _ (if_neg h)⟩

/-! ### Lost beam headers (R151) -/

/-- The record of a dropped beam header. -/
def beamRecord (unit : Nat) : Record := { typ := 0x0026, cls := 1, source := unit, detail := detail [(0, leBytes 2 unit)] }

theorem headerLost_request {u : State} {unit k : Nat} (h : unit / 0x1000 ∉ [1, 2, 3]) : u.headerLost unit k = u.force k stTimeout := by
  simp only [List.mem_cons, List.not_mem_nil, or_false, not_or] at h
  obtain ⟨h1, h2, h3⟩ := h
  exact (if_neg h1).trans ((if_neg h2).trans (if_neg h3))

/-- A walk's header: the requests of its walk, or the one request. -/
theorem headerLost_walk {u : State} {unit k : Nat} (h : unit / 0x1000 = 3) :
    u.headerLost unit k = match u.xlt.walks.find? (fun w => w.slots.contains k) with
      | none => u.force k stTimeout
      | some w => w.slots.foldl (fun s k => s.force k stTimeout) { u with xlt := { u.xlt with walks := u.xlt.walks.filter fun v => v != w } } :=
  (if_neg (by omega)).trans ((if_neg (by omega)).trans (if_pos h))

theorem headerLost_transfer {u : State} {unit k : Nat} (h : unit / 0x1000 = 1) {x : Xfer} {j : Job}
    (hx : (u.mover (unit % 0x1000)).candidate (u.mover (unit % 0x1000)).turn = some x) (hj : tblGet? u.jobs x.job = some j) :
    u.headerLost unit k = u.xferError (unit % 0x1000) j x 0 stTimeout 0 := by
  refine (if_pos h).trans ?_
  rw [hx]
  dsimp only
  rw [hj]

theorem headerLost_save {u : State} {unit k : Nat} (h : unit / 0x1000 = 2)
    (hst : (u.rod (unit % 0x1000)).st = .saving ∨ (u.rod (unit % 0x1000)).st = .restoring) :
    u.headerLost unit k = u.saveFail (unit % 0x1000) := by
  refine (if_neg (by omega)).trans ((if_pos h).trans ?_)
  rcases hst with hst | hst <;> rw [hst]

/-- Settles O41: each end is one of the functions above. -/
theorem walksAndInvalidationsEnd : Obligations.WalksAndInvalidationsEnd := by
  unfold Obligations.WalksAndInvalidationsEnd
  intro s
  refine ⟨fun n w hw => ⟨execWalkComplete_gone hw, fun hst x y hxy => execWalkComplete_walked hw hst hxy⟩,
    fun t port p v h hv => inval_acts h hv, fun n i hi => invalComplete_spec hi,
    fun unit src tag => ⟨beamRecord unit, rfl, rfl, rfl, ?_⟩,
    fun u unit k => ⟨headerLost_request, fun h3 hw => ?_, fun h3 w hw => ?_, fun h1 x j hx hj => headerLost_transfer h1 hx hj, headerLost_save⟩⟩
  · exact (raise_wbit _ .ecc 0 4 (by omega)).trans (by simp)
  · rw [headerLost_walk h3, hw]
  · rw [headerLost_walk h3, hw]

end Sys2Proof.Machine
end

section
/-!
A ring's owed counts (R117, R118): PRODUCER's write can itself drop a record of the manager ring.
-/

namespace Sys2Proof.Machine

/-- The full manager ring of `fullRing`, its PRODUCER owed to the control bead and its OVERFLOW not. -/
def owingRing : State :=
  { fullRing with
    xlt := { fullRing.xlt with
      rings := [(1024, { ringLo := 1, owedProd := true, queue := List.replicate 64 { typ := 0, cls := 1 } })] } }

/-- PRODUCER's write into the control bead. -/
def owingRing.written : State × Bool := owingRing.innerWrite (ringTag 1024) (owingRing.ring 1024).base (controlField 8 (owingRing.ring 1024).prod)

/-- The write finds the uncorrectable control bead, and the full queue drops the records of it: OVERFLOW is owed from there on. -/
theorem owingRing_written : owingRing.written.2 = true ∧ (owingRing.written.1.ring 1024).owedOvf = true ∧
    ((owingRing.written.1).ring 1024).overflow = 3 := by decide +kernel

/-- The flush takes what was owed before the write for what is owed after it. -/
theorem owingRing_flush : ((owingRing.flushRing 1024).1.ring 1024).owedOvf = false := by decide +kernel

theorem owingRing_owes : (owingRing.ring 1024).owedProd = true ∧ (owingRing.ring 1024).owedOvf = false := by decide

/-- Refutes O42: PRODUCER's write of a full manager ring whose control bead is uncorrectable raises an event that the ring drops, so
OVERFLOW is owed from there on, and the flush clears what the statement keeps. -/
theorem not_ringRecordsAreWritten : ¬ Obligations.RingRecordsAreWritten := by
  unfold Obligations.RingRecordsAreWritten
  intro h
  obtain ⟨-, -, -, -, -, -, hflush⟩ := h owingRing ⟨1024, by decide⟩
  obtain ⟨hok, howed, -⟩ := owingRing_written
  have heq := hflush owingRing.written.1 owingRing_owes.1 owingRing_owes.2 (Prod.ext rfl hok)
  have howed' : ((owingRing.flushRing 1024).1.ring 1024).owedOvf = true := by
    refine (congrArg (fun x : State × Bool => (x.1.ring 1024).owedOvf) heq).trans ?_
    refine (congrArg Ring.owedOvf (tblGet_put ..)).trans ?_
    rw [if_pos rfl]
    exact howed
  rw [owingRing_flush] at howed'
  cases howed'

end Sys2Proof.Machine
end

section
/-!
Snoops of this module, walks of the dead list, and the commands of partners (R158–R164, R378, R381, R383).
-/

namespace Sys2Proof.Machine

/-! ### Snoops and the dead list -/

/-- A snoop of this module: it caches nothing, so it completes OK. -/
theorem snoop_completes {s t : State} {port : Fin 16} {p : Packet} {typ : Nat} {row : Fin 16 → Packet → Instr}
    (hrow : (typ, row) ∈ [(tSnoopInv, Instr.snoopInv), (tSnoopShare, .snoopShare), (tSnoopCopy, .snoopCopy)])
    (h : s.Admits { form := fun p => p.ofType typ } port p t) :
    exec (row port p) s = .next (t.complete (slotKey (p.ofType typ).src p.tag) stOk) := by
  have hexec : s.arriveSnoop typ port p = .next (t.complete (slotKey (p.ofType typ).src p.tag) stOk) :=
    congrArg Host.Outcome.next (arrive_of_admits h fun s key => s.complete key stOk)
  simp only [List.mem_cons, List.not_mem_nil, or_false, Prod.mk.injEq] at hrow
  rcases hrow with ⟨rfl, rfl⟩ | ⟨rfl, rfl⟩ | ⟨rfl, rfl⟩ <;> exact hexec

/-- The record of a walk of the dead list that has ended. -/
def State.deadWalkRecord (u : State) (d : Nat) : Record :=
  { typ := 0x0092, cls := 2, source := 0x4000 + d
    detail := detail [(0, leBytes 2 d), (4, leBytes 4 (u.slice d).lost), (8, leBytes 4 (u.slice d).reverted),
      (12, leBytes 2 (u.slice d).dead.length)] }

/-- The end of a walk of the dead list: one more follows a declaration made meanwhile, else the slice reports. -/
theorem deadWalkDone_spec (s : State) (d : Fin 8) :
    let u := s.walkLog d
    ((s.slice d).walking = false → exec (.deadWalkDone d) s = .next s) ∧
    ((s.slice d).walking = true → (u.slice d).walkPending = true →
      exec (.deadWalkDone d) s = .next (u.setSlice d { u.slice d with walkPending := false })) ∧
    ((s.slice d).walking = true → (u.slice d).walkPending = false → ∃ r, r.typ = 0x0092 ∧
      let t := ((u.setSlice d { u.slice d with walking := false }).postMgr r).raise .dir d 0
      exec (.deadWalkDone d) s = .next t ∧ wbit (t.reg (pageBase .dir d + 8)) 0 = true) := by
  intro u
  refine ⟨fun h => congrArg Host.Outcome.next (if_neg (by rw [h]; decide)), fun h hp => ?_,
    fun h hp => ⟨u.deadWalkRecord d, rfl, ?_, (raise_wbit _ _ _ _ (by omega)).trans (by simp)⟩⟩
  · exact congrArg Host.Outcome.next ((if_pos h).trans (if_pos hp))
  · exact congrArg Host.Outcome.next ((if_pos h).trans (if_neg (by show ¬(u.slice d).walkPending = true; rw [hp]; decide)))

/-! ### Partner commands (R158) -/

/-- A partner command that fails its checks completes with their status. -/
theorem ifOk_refused (s : State) (key : Nat) {st : Nat} (act : State → State) (h : st ≠ stOk) : s.ifOk key st act = s.complete key st := if_neg h

theorem ifOk_passed (s : State) (key : Nat) {st : Nat} (act : State → State) (h : st = stOk) : s.ifOk key st act = act s := if_pos h

theorem actProtFwd_eq {t : State} {k : Nat} {v : InSlot} (hv : t.slot? k = some v) :
    t.actProtFwd k = t.ifOk k (t.partnerCheck v) fun s =>
      if !s.parInside (parExt v.pkt) (parOff v.pkt) (parBeads v.pkt) then s.complete k stMalformed
      else if !((s.prot? (parExt v.pkt)).any fun p => p.pos == p.k) then s.complete k stRevoked
      else (List.range (parBeads v.pkt)).foldl (fun s i => s.fwdBead k i) (s.setSlot k (s.partnerSlot v)) := by
  unfold State.actProtFwd
  rw [hv]

theorem actMemberRead_eq {t : State} {k : Nat} {v : InSlot} (hv : t.slot? k = some v) :
    t.actMemberRead k = t.ifOk k (t.partnerCheck v) fun s =>
      if !s.parInside (parExt v.pkt) (parOff v.pkt) (parBeads v.pkt) then s.complete k stMalformed
      else (List.range (parBeads v.pkt)).foldl (fun s i =>
        if (s.prot? (parExt v.pkt)).any fun p => p.missing (parOff v.pkt + 64 * i) then
          s.waitRebuild (parExt v.pkt) ((t.partnerSlot v).beadPa i) k i
        else (s.toCtl ((t.partnerSlot v).beadPa i) .read 2 (.slot k i)).servedBead (parExt v.pkt) (parOff v.pkt + 64 * i))
          (s.setSlot k (t.partnerSlot v)) := by
  unfold State.actMemberRead
  rw [hv]

/-- An accepted PROT_FWD, inside its extent and at position K, forwards its beads. -/
theorem actProtFwd_acts {t : State} {k : Nat} {v : InSlot} (hv : t.slot? k = some v) (hok : t.partnerCheck v = stOk) :
    (t.parInside (parExt v.pkt) (parOff v.pkt) (parBeads v.pkt) = false → t.actProtFwd k = t.complete k stMalformed) ∧
    (t.parInside (parExt v.pkt) (parOff v.pkt) (parBeads v.pkt) = true →
      ((t.prot? (parExt v.pkt)).any (fun q => q.pos == q.k) = true →
        t.actProtFwd k = (List.range (parBeads v.pkt)).foldl (fun s i => s.fwdBead k i) (t.setSlot k (t.partnerSlot v))) ∧
      ((t.prot? (parExt v.pkt)).any (fun q => q.pos == q.k) = false → t.actProtFwd k = t.complete k stRevoked)) := by
  rw [actProtFwd_eq hv, ifOk_passed _ _ _ hok]
  refine ⟨fun hin => if_pos (by rw [hin]; rfl), fun hin => ⟨fun hk => ?_, fun hk => ?_⟩⟩
  · rw [if_neg (by rw [hin]; decide), if_neg (by rw [hk]; decide)]
  · rw [if_neg (by rw [hin]; decide), if_pos (by rw [hk]; rfl)]

/-- An accepted MEMBER_READ inside its extent reads its beads, those still to be rebuilt once they are. -/
theorem actMemberRead_acts {t : State} {k : Nat} {v : InSlot} (hv : t.slot? k = some v) (hok : t.partnerCheck v = stOk) :
    (t.parInside (parExt v.pkt) (parOff v.pkt) (parBeads v.pkt) = false → t.actMemberRead k = t.complete k stMalformed) ∧
    (t.parInside (parExt v.pkt) (parOff v.pkt) (parBeads v.pkt) = true →
      t.actMemberRead k = (List.range (parBeads v.pkt)).foldl
        (fun s i => if (s.prot? (parExt v.pkt)).any fun q => q.missing (parOff v.pkt + 64 * i) then
            s.waitRebuild (parExt v.pkt) ((t.partnerSlot v).beadPa i) k i
          else (s.toCtl ((t.partnerSlot v).beadPa i) .read 2 (.slot k i)).servedBead (parExt v.pkt) (parOff v.pkt + 64 * i))
        (t.setSlot k (t.partnerSlot v))) := by
  rw [actMemberRead_eq hv, ifOk_passed _ _ _ hok]
  exact ⟨fun hin => if_pos (by rw [hin]; rfl), fun hin => if_neg (by rw [hin]; decide)⟩

/-- The slot of a RECON_READ, its target noted. -/
def State.reconSlot (u : State) (v : InSlot) (e o : Nat) : InSlot :=
  { v with ext := some (e, (u.extent e).gen), pa := (u.extent e).base + o, phase := .memory (parBeads v.pkt) }

/-- An accepted RECON_READ reconstructs its beads where this member holds the parity of its target. -/
theorem actReconRead_acts {t : State} {k : Nat} {v : InSlot} (hv : t.slot? k = some v) (hok : t.partnerCheck v = stOk) :
    (∀ u st, t.reconTarget v = (u, .inr st) → t.actReconRead k = u.complete k st) ∧
    (∀ u e o, t.reconTarget v = (u, .inl (e, o)) →
      (u.prot? e = none → t.actReconRead k = u.complete k stMalformed) ∧
      (∀ q, u.prot? e = some q →
        let may := q.pos = q.k ∧ 2 ≤ q.k ∧ parLost v.pkt < q.k ∧ u.parInside e o (parBeads v.pkt) = true
        (¬may → t.actReconRead k = u.complete k stMalformed) ∧
        (may → t.actReconRead k = (List.range (parBeads v.pkt)).foldl
          (fun s i => s.reconBead k i e (o + 64 * i) (parLost v.pkt) q) (u.setSlot k (u.reconSlot v e o))))) := by
  have hact : t.actReconRead k = match t.reconTarget v with
      | (s, .inr st) => s.complete k st
      | (s, .inl (ext, off)) => (match s.prot? ext with
        | none => s.complete k stMalformed
        | some p =>
          if !(p.pos == p.k && 2 ≤ p.k && decide (parLost v.pkt < p.k) && s.parInside ext off (parBeads v.pkt)) then s.complete k stMalformed
          else (List.range (parBeads v.pkt)).foldl (fun s i => s.reconBead k i ext (off + 64 * i) (parLost v.pkt) p)
            (s.setSlot k (s.reconSlot v ext off))) := by
    unfold State.actReconRead
    rw [hv]
    exact ifOk_passed _ _ _ hok
  rw [hact]
  refine ⟨fun u st hu => ?_, fun u e o hu => ?_⟩
  · rw [hu]
  · rw [hu]
    dsimp only
    refine ⟨fun hq => ?_, fun q hq => ?_⟩
    · rw [hq]
    · rw [hq]
      dsimp only
      refine ⟨fun hno => if_pos ?_, fun ⟨h1, h2, h3, h4⟩ => if_neg (by simp [h1, h2, h3, h4])⟩
      by_contra hyes
      have hyes : (q.pos = q.k ∧ 2 ≤ q.k) ∧ parLost v.pkt < q.k ∧ u.parInside e o (parBeads v.pkt) = true := by
        simpa only [Bool.not_eq_true', Bool.not_eq_false, Bool.and_eq_true, beq_iff_eq, decide_eq_true_eq, and_assoc] using hyes
      exact hno ⟨hyes.1.1, hyes.1.2, hyes.2⟩

/-- A RECON_READ in member form names its extent and offset. -/
theorem reconTarget_member (t : State) {v : InSlot} (h : parMember v.pkt = true) :
    t.reconTarget v = (t, .inl (parExt v.pkt, parOff v.pkt)) := if_pos h

/-! ### Gathers, forwards and rebuilds go on (R159, R162, R164) -/

theorem reconTimeout_spec {s : State} {n : Nat} {g : Gather} (hg : s.ecc.gathers[n]? = some g) :
    (g.ask = [] → g.awaited = [] → exec (.reconTimeout n) s = .next (s.finishGather g)) ∧
    (g.ask ≠ [] ∨ g.awaited ≠ [] → exec (.reconTimeout n) s =
      .next ((s.elapseTo (g.startAt + us (s.actBits .ecc 0 0x044 15 0))).finishGather { g with ask := [], awaited := [], poison := true })) := by
  have hexec : exec (.reconTimeout n) s = if g.ask.isEmpty && g.awaited.isEmpty then .next (s.finishGather g)
      else .next ((s.elapseTo (g.startAt + us (s.actBits .ecc 0 0x044 15 0))).finishGather
        { g with ask := [], awaited := [], poison := true }) := by
    show execReconTimeout n s = _
    unfold execReconTimeout
    rw [hg]
  rw [hexec]
  refine ⟨fun h1 h2 => if_pos (by rw [h1, h2]; rfl), fun hor => if_neg ?_⟩
  rw [Bool.and_eq_true, List.isEmpty_iff, List.isEmpty_iff]
  exact fun ⟨h1, h2⟩ => hor.elim (fun h => h h1) fun h => h h2

theorem protFwdResend_spec {s u : State} {n : Nat} {h : HeldWrite} {gone : Bool} (hh : s.ecc.held[n]? = some h) :
    let may := h.formed = true ∧ h.out = none ∧ (s.prot? h.ext).any (·.forwards) = true
    (¬may → exec (.protFwdResend n) s = .next s) ∧
    (may → (s.elapseTo (h.lastSent + us 10)).sendFwd h = (u, gone) → exec (.protFwdResend n) s = .next
      (if gone then (u.degrade h.ext (match u.prot? h.ext with | some p => p.k | none => 1) 1).releaseLost h.ext else u)) := by
  intro may
  have hexec : exec (.protFwdResend n) s = .next (if may then
      match (s.elapseTo (h.lastSent + us 10)).sendFwd h with
      | (s, true) => (s.degrade h.ext (match s.prot? h.ext with | some p => p.k | none => 1) 1).releaseLost h.ext
      | (s, false) => s
      else s) := by
    show execProtFwdResend n s = _
    unfold execProtFwdResend
    rw [hh]
    refine congrArg Host.Outcome.next (ite_congr ?_ (fun _ => rfl) fun _ => rfl)
    simp [may, and_assoc]
  rw [hexec]
  refine ⟨fun hno => congrArg _ (if_neg hno), fun hm hu => congrArg _ ((if_pos hm).trans ?_)⟩
  rw [hu]
  cases gone <;> rfl

theorem rebuildBead_spec {s : State} {id : Fin 16384} {q : Prot} (hq : s.prot? id = some q) :
    let may := q.replacement = true ∧ q.st = .rebuilding ∧ (s.extent id).st = .active ∧ s.gatherAt id q.next = none
    (¬may → exec (.rebuildBead id) s = .next s) ∧
    (may → exec (.rebuildBead id) s =
      .next ((s.gatherOwn id ((s.extent id).base + q.next) .rebuild).tryFinish id q.next .rebuild)) := by
  intro may
  have hexec : exec (.rebuildBead id) s = .next (if may then
      (s.gatherOwn id ((s.extent id).base + q.next) .rebuild).tryFinish id q.next .rebuild else s) := by
    show execRebuildBead id s = _
    unfold execRebuildBead
    rw [hq]
    refine congrArg Host.Outcome.next (ite_congr ?_ (fun _ => rfl) fun _ => rfl)
    simp [may, and_assoc]
  rw [hexec]
  exact ⟨fun hno => congrArg _ (if_neg hno), fun hm => congrArg _ (if_pos hm)⟩

/-- A partner command acts as its own function of the slot it has taken. -/
theorem exec_partnerRow {s t : State} {port : Fin 16} {p : Packet} {op : Nat} (h : s.Admits (partnerRules op) port p t) :
    (op = 0x90 → exec (.protFwd port p) s = .next (t.actProtFwd (cmdSlot op p))) ∧
    (op = 0x91 → exec (.memberRead port p) s = .next (t.actMemberRead (cmdSlot op p))) ∧
    (op = 0x92 → exec (.reconRead port p) s = .next (t.actReconRead (cmdSlot op p))) := by
  refine ⟨?_, ?_, ?_⟩ <;> rintro rfl
  · exact congrArg Host.Outcome.next (arrive_of_admits h State.actProtFwd)
  · exact congrArg Host.Outcome.next (arrive_of_admits h State.actMemberRead)
  · exact congrArg Host.Outcome.next (arrive_of_admits h State.actReconRead)

/-- Settles O43: the commands of partners by their checks, the events by theirs. -/
theorem snoopsAndPartnersAct : Obligations.SnoopsAndPartnersAct := by
  unfold Obligations.SnoopsAndPartnersAct
  refine ⟨fun s t port p typ row hrow h => snoop_completes hrow h, fun s d bead => ⟨fun h => congrArg Host.Outcome.next (if_pos h),
      fun h => congrArg Host.Outcome.next (if_neg (by rw [h]; decide))⟩, deadWalkDone_spec,
    fun s t port p v op row hrow h hv => ?_, fun s n g hg => reconTimeout_spec hg, fun s u n h gone hh => protFwdResend_spec hh,
    fun s id q hq => rebuildBead_spec hq⟩
  obtain ⟨hfwd, hmem, hrec⟩ := exec_partnerRow h
  intro ext off n k w
  simp only [List.mem_cons, List.not_mem_nil, or_false, Prod.mk.injEq] at hrow
  rcases hrow with ⟨rfl, rfl⟩ | ⟨rfl, rfl⟩ | ⟨rfl, rfl⟩
  · refine ⟨fun hbad => ?_, fun hok => ?_⟩
    · rw [hfwd rfl, actProtFwd_eq hv, ifOk_refused _ _ _ hbad]
    · obtain ⟨hout, hin⟩ := actProtFwd_acts hv hok
      rw [hfwd rfl]
      exact ⟨fun _ hno => congrArg _ (hout hno), fun _ hyes => ⟨fun hk => congrArg _ ((hin hyes).1 hk), fun hk => congrArg _ ((hin hyes).2 hk)⟩,
        fun h => absurd h (by decide), fun h => absurd h (by decide)⟩
  · refine ⟨fun hbad => ?_, fun hok => ?_⟩
    · rw [hmem rfl, actMemberRead_eq hv, ifOk_refused _ _ _ hbad]
    · obtain ⟨hout, hin⟩ := actMemberRead_acts hv hok
      rw [hmem rfl]
      exact ⟨fun _ hno => congrArg _ (hout hno), fun h => absurd h (by decide), fun _ hyes => congrArg _ (hin hyes),
        fun h => absurd h (by decide)⟩
  · refine ⟨fun hbad => ?_, fun hok => ?_⟩
    · rw [hrec rfl]
      unfold State.actReconRead
      rw [hv]
      exact congrArg _ (ifOk_refused _ _ _ hbad)
    · obtain ⟨href, hact⟩ := actReconRead_acts hv hok
      rw [hrec rfl]
      refine ⟨fun h => absurd rfl h, fun h => absurd h (by decide), fun h => absurd h (by decide), fun _ =>
        ⟨fun u st hu => congrArg _ (href u st hu), fun u e o hu => ?_, fun hm => reconTarget_member t hm⟩⟩
      obtain ⟨hnone, hsome⟩ := hact u e o hu
      exact ⟨fun hq => congrArg _ (hnone hq), fun q hq => ⟨fun hno => congrArg _ ((hsome q hq).1 hno), fun hm => congrArg _ ((hsome q hq).2 hm)⟩⟩

end Sys2Proof.Machine
end

section
/-!
How a rod issues an instruction (R168–R174): the rules that every instruction's own proof uses.
-/

namespace Sys2Proof.Machine

/-! ### Rods and frames set twice -/

theorem tblPut_tblPut {α : Type} (t : Tbl α) (k : Nat) (a b : α) : tblPut (tblPut t k a) k b = tblPut t k b := by
  induction t with
  | nil => simp [tblPut]
  | cons x t ih =>
    obtain ⟨j, v⟩ := x
    by_cases hlt : k < j
    · simp [tblPut, hlt]
    · by_cases heq : k = j
      · simp [tblPut, heq]
      · simp [tblPut, hlt, heq, ih]

theorem setRod_setRod (s : State) (i : Nat) (a b : Rod) : (s.setRod i a).setRod i b = s.setRod i b :=
  congrArg (fun t => { s with rods := t }) (tblPut_tblPut ..)

theorem setFrame_setFrame (s : State) (f : Nat) (a b : Frame) : (s.setFrame f a).setFrame f b = s.setFrame f b :=
  congrArg (fun t => { s with frames := t }) (tblPut_tblPut ..)

theorem setRod_rod_same (s : State) (i : Nat) (r : Rod) : (s.setRod i r).rod i = r := (setRod_rod ..).trans (if_pos rfl)

theorem setRegs_rod_same (s : State) (i : Nat) (f : RodRegs → RodRegs) :
    (s.setRegs i f).rod i = { s.rod i with regs := f (s.rod i).regs } := setRod_rod_same ..

/-- Registers set twice are set once. -/
theorem setRegs_setRegs (s : State) (i : Nat) (f g : RodRegs → RodRegs) :
    (s.setRegs i f).setRegs i g = s.setRegs i fun r => g (f r) := by
  unfold State.setRegs
  rw [setRod_rod_same, setRod_setRod]

/-! ### What an instruction comes to -/

theorem did_done (t s : State) (i c ev : Nat) (pc : Option Nat) : t.did i c (.done s ev pc) = s.ran i c id ev pc := by
  unfold State.ran
  rw [setRegs_setRegs]
  rfl

theorem did_fault (s : State) (i c code : Nat) : s.did i c (.fault code) = s.rodFault i code := rfl

theorem did_poison (s : State) (i c : Nat) : s.did i c .poison = s.rodPoison i := rfl

/-- What an instruction does to the registers is what it does to those it finds. -/
theorem ran_congr {s : State} {i : Nat} (c ev : Nat) (pc : Option Nat) {f g : RodRegs → RodRegs} (h : f (s.rod i).regs = g (s.rod i).regs) :
    s.ran i c f ev pc = s.ran i c g ev pc := by
  unfold State.ran State.setRegs
  rw [h]

/-- A change of the registers before an instruction is done, as part of it. -/
theorem ran_setRegs (s : State) (i c ev : Nat) (pc : Option Nat) (f g : RodRegs → RodRegs) :
    (s.setRegs i f).ran i c g ev pc = s.ran i c (fun r => g (f r)) ev pc := by
  unfold State.ran
  rw [setRegs_setRegs, setRegs_setRegs, setRegs_setRegs]

theorem behind_eq (s : State) (i : Nat) : ∃ x, s.behind i = { s with frames := x } ∧ (s.checkOf i = none → x = s.frames) := by
  unfold State.behind
  split
  · exact ⟨_, rfl, fun h => by simp_all⟩
  · exact ⟨_, rfl, fun _ => rfl⟩

theorem countEvents_eq (s : State) (i ev c : Nat) : ∃ x, s.countEvents i ev c = { s with tly := x } := by
  unfold State.countEvents
  generalize List.range 6 = l
  induction l generalizing s with
  | nil => exact ⟨_, rfl⟩
  | cons e l ih =>
    rw [List.foldl_cons]
    split
    · obtain ⟨x, hx⟩ := s.tally_eq .rod i (0x20 + e) 0 1 (some c)
      rw [hx]
      exact ih _
    · exact ih _

/-- What an instruction that is done changes: its rod's registers, the frames where its tile is under check, and tallies. -/
theorem ran_eq (s : State) (i c : Nat) (f : RodRegs → RodRegs) (ev : Nat) (pc : Option Nat) : ∃ x y,
    s.ran i c f ev pc = { s.setRegs i (fun r => (f r).advance pc) with frames := x, tly := y } ∧ (s.checkOf i = none → x = s.frames) := by
  unfold State.ran
  rw [setRegs_setRegs]
  obtain ⟨x, hx, hsame⟩ := behind_eq (s.setRegs i fun r => (f r).advance pc) i
  rw [hx]
  obtain ⟨y, hy⟩ := State.tally_eq { s.setRegs i (fun r => (f r).advance pc) with frames := x } .rod i 0x26 0 1 (some c)
  rw [hy]
  obtain ⟨z, hz⟩ := countEvents_eq { s.setRegs i (fun r => (f r).advance pc) with frames := x, tly := y } i ev c
  exact ⟨x, z, hz, hsame⟩

/-! ### Unused fields (R172) -/

theorem legal_ok {w : RodWord} {unused : Nat} (act : Did) (h : w.rsv + unused = 0) : legal w unused act = act := if_pos h

theorem legal_bad {w : RodWord} {unused : Nat} (act : Did) (h : w.rsv + unused ≠ 0) : legal w unused act = .fault 1 := if_neg h

/-! ### The issue of an instruction (R172–R174) -/

theorem rodIssue_idle {s : State} {i op : Nat} {w : RodWord} (act : State → Rod → Did) (h : s.rodReady i = false) :
    s.rodIssue i op w act = s := if_neg (by rw [h]; decide)

/-- An instruction that its row issues. -/
theorem rodIssue_of_issues {s u : State} {i op : Nat} {w : RodWord} (h : s.Issues i op w u) (hop : rodOpcodes.contains op = true)
    (act : State → Rod → Did) : s.rodIssue i op w act = u.did i ((s.fetched i).rod i).ctx (act u (u.rod i)) := by
  obtain ⟨hready, hpc, hbad, hword, hfields, rfl⟩ := h
  unfold State.rodIssue
  dsimp only
  rw [if_pos hready, if_neg (Nat.not_le.2 hpc), if_neg (by rw [hbad]; decide), if_neg (by rw [hword, hop]; decide),
    if_neg (by rw [hword, hfields]; simp)]

/-- Where the word at the pc cannot be issued by a row. -/
theorem rodIssue_stops {s : State} {i op : Nat} {w : RodWord} (act : State → Rod → Did) (hready : s.rodReady i = true) :
    let v := s.fetched i
    let r := v.rod i
    (0x80000 ≤ r.regs.pc → s.rodIssue i op w act = v.rodFault i 2) ∧
    (r.regs.pc < 0x80000 → badAt r.badLines r.regs.pc 8 = true → s.rodIssue i op w act = v.rodPoison i) ∧
    (r.regs.pc < 0x80000 → badAt r.badLines r.regs.pc 8 = false →
      (rodOpcodes.contains (r.word / 2 ^ 56) = false → s.rodIssue i op w act = v.rodFault i 1) ∧
      (rodOpcodes.contains (r.word / 2 ^ 56) = true → r.word / 2 ^ 56 ≠ op ∨ RodWord.ofBits r.word ≠ w →
        s.rodIssue i op w act = v)) := by
  intro v r
  have hissue : s.rodIssue i op w act = if 0x80000 ≤ r.regs.pc then v.rodFault i 2
      else if badAt r.badLines r.regs.pc 8 then v.rodPoison i
      else if !rodOpcodes.contains (r.word / 2 ^ 56) then v.rodFault i 1
      else if r.word / 2 ^ 56 ≠ op ∨ RodWord.ofBits r.word ≠ w then v
      else (v.readied i op w).did i r.ctx (act (v.readied i op w) ((v.readied i op w).rod i)) := if_pos hready
  rw [hissue]
  refine ⟨fun h => if_pos h, fun h hb => ?_, fun h hb => ⟨fun ho => ?_, fun ho hne => ?_⟩⟩
  · rw [if_neg (Nat.not_le.2 h), if_pos hb]
  · rw [if_neg (Nat.not_le.2 h), if_neg (by rw [hb]; decide), if_pos (by rw [ho]; rfl)]
  · rw [if_neg (Nat.not_le.2 h), if_neg (by rw [hb]; decide), if_neg (by rw [ho]; decide), if_pos hne]

/-! ### Reading without upsets, parity errors or a check (R168, R171) -/

theorem checkScratch_clean {s : State} {i : Nat} (off n : Nat) (h : (s.rod i).upsets = []) : s.checkScratch i off n = s :=
  if_neg (by rw [h]; simp)

/-- Bits of a mask that is 0 are met nowhere. -/
theorem idxs_zero (n r : Nat) : (idxs n fun k => bit 0 k && bit r k) = [] := by
  refine List.filter_eq_nil_iff.2 fun k _ => ?_
  simp [bit]

theorem checkParity_clean {s : State} {i : Nat} (x : Reads) (hS : (s.rod i).regs.eS = 0) (hV : (s.rod i).regs.eV = 0)
    (hA : (s.rod i).regs.eAcc = 0) (hD : (s.rod i).regs.eD = 0) : s.checkParity i x = s := by
  unfold State.checkParity
  refine if_pos ?_
  simp only [hS, hV, hA, hD, idxs_zero, List.length_nil]

theorem readied_clean {s : State} {i : Nat} (op : Nat) (w : RodWord) (hup : (s.rod i).upsets = []) (hS : (s.rod i).regs.eS = 0)
    (hV : (s.rod i).regs.eV = 0) (hA : (s.rod i).regs.eAcc = 0) (hD : (s.rod i).regs.eD = 0) (hcheck : s.checkOf i = none) :
    s.readied i op w = s := by
  unfold State.readied
  dsimp only
  rw [checkParity_clean _ hS hV hA hD]
  have hcatch : s.catchUp i = s := by
    unfold State.catchUp
    rw [hcheck]
  split
  · rw [checkScratch_clean _ _ hup]
    exact hcatch
  · exact hcatch

/-! ### The rows (Table 8.3) -/

/-- What every row does with a word whose RSV is not 0. -/
def FaultsOnRsv (act : Fin 544 → RodWord → State → Rod → Did) : Prop := ∀ i w s r, w.rsv ≠ 0 → act i w s r = .fault 1

theorem faultsOnRsv_legal (unused : RodWord → Nat) (act : Fin 544 → RodWord → State → Rod → Did) :
    FaultsOnRsv fun i w s r => legal w (unused w) (act i w s r) := fun _ _ _ _ h => legal_bad _ (by omega)

theorem faultsOnRsv_scalarOp (op : Nat → Nat → Nat) : FaultsOnRsv fun i w => scalarOp op i w := fun _ _ _ _ h => legal_bad _ (by omega)

theorem faultsOnRsv_vectorArith (readsD : Bool) (op : Nat → Num → Num → Num → Num) : FaultsOnRsv fun i w => vectorArith readsD op i w :=
  fun _ _ _ _ h => if_pos (Or.inl (by omega))

theorem faultsOnRsv_vectorLanes (ops : Nat) (readsD : Bool) (op : RodWord → Nat → Nat → Nat → Nat) :
    FaultsOnRsv fun i w s _ => vectorLanes ops readsD (op w) i w s := fun _ _ _ _ h => if_pos (Or.inl (by omega))

theorem cvtOk_rsv {w : RodWord} (h : w.rsv ≠ 0) : cvtOk w = false := by
  unfold cvtOk
  simp [h]

theorem faultsOnRsv_vectorCvt (formats : RodWord → Bool) (op : RodWord → Nat → Bool → Nat → Num → Rounded) :
    FaultsOnRsv fun i w => vectorCvt (formats w) (op w) i w := fun _ _ _ _ h => if_pos (Or.inr (Or.inl (cvtOk_rsv h)))

/-- A row issues as the model's rule says, by a function that faults on RSV. -/
def RowActs (x : Nat × (Fin 544 → RodWord → Instr)) : Prop :=
  rodOpcodes.contains x.1 = true ∧ ∃ act, FaultsOnRsv act ∧ ∀ i w s, exec (x.2 i w) s = .next (s.rodIssue i x.1 w (act i w))

theorem rowActs_of {op : Nat} {row : Fin 544 → RodWord → Instr} {act : Fin 544 → RodWord → State → Rod → Did}
    (hop : rodOpcodes.contains op = true) (hexec : ∀ i w s, exec (row i w) s = rodRow i op w (act i w) s) (hact : FaultsOnRsv act) :
    RowActs (op, row) := ⟨hop, act, hact, hexec⟩

/-- A row whose unused fields are looked at first. -/
theorem rowActs_legal {op : Nat} {row : Fin 544 → RodWord → Instr} {unused : RodWord → Nat} {act : Fin 544 → RodWord → State → Rod → Did}
    (hop : rodOpcodes.contains op = true)
    (hexec : ∀ i w s, exec (row i w) s = rodRow i op w (fun s r => legal w (unused w) (act i w s r)) s) : RowActs (op, row) :=
  rowActs_of hop hexec (faultsOnRsv_legal unused act)

theorem rowActs_scalarOp {op : Nat} {row : Fin 544 → RodWord → Instr} {f : Nat → Nat → Nat} (hop : rodOpcodes.contains op = true)
    (hexec : ∀ i w s, exec (row i w) s = rodRow i op w (scalarOp f i w) s) : RowActs (op, row) :=
  rowActs_of hop hexec (faultsOnRsv_scalarOp f)

theorem rowActs_vectorLanes {op ops : Nat} {row : Fin 544 → RodWord → Instr} {readsD : Bool} {f : RodWord → Nat → Nat → Nat → Nat}
    (hop : rodOpcodes.contains op = true)
    (hexec : ∀ i w s, exec (row i w) s = rodRow i op w (fun s _ => vectorLanes ops readsD (f w) i w s) s) : RowActs (op, row) :=
  rowActs_of hop hexec (faultsOnRsv_vectorLanes ops readsD f)

theorem mmvOk_rsv {w : RodWord} (h : w.rsv ≠ 0) : mmvOk w = false := by
  unfold mmvOk
  simp [h]

theorem drainOk_rsv {w : RodWord} (h : w.rsv ≠ 0) : drainOk w = false := by
  unfold drainOk
  simp [h]

/-- Every row acts by the rule, and faults on RSV. -/
theorem rodRows_act : ∀ x ∈ rodRows, RowActs x := by
  simp only [rodRows, List.forall_mem_append, List.forall_mem_cons]
  refine ⟨⟨⟨rowActs_legal rfl fun _ _ _ => rfl, rowActs_scalarOp rfl fun _ _ _ => rfl, rowActs_scalarOp rfl fun _ _ _ => rfl,
    rowActs_scalarOp rfl fun _ _ _ => rfl, rowActs_scalarOp rfl fun _ _ _ => rfl, rowActs_scalarOp rfl fun _ _ _ => rfl,
    rowActs_scalarOp rfl fun _ _ _ => rfl, rowActs_scalarOp rfl fun _ _ _ => rfl, rowActs_scalarOp rfl fun _ _ _ => rfl,
    rowActs_legal rfl fun _ _ _ => rfl, rowActs_scalarOp rfl fun _ _ _ => rfl, rowActs_legal rfl fun _ _ _ => rfl,
    rowActs_legal rfl fun _ _ _ => rfl, rowActs_legal rfl fun _ _ _ => rfl, rowActs_legal rfl fun _ _ _ => rfl,
    rowActs_legal rfl fun _ _ _ => rfl, by simp⟩, ?_⟩, ?_⟩
  · refine ⟨rowActs_legal rfl fun _ _ _ => rfl,
      rowActs_of rfl (fun _ _ _ => rfl) fun _ _ _ _ h => if_pos (by rw [mmvOk_rsv h]; rfl),
      rowActs_of rfl (fun _ _ _ => rfl) fun _ _ _ _ h => if_pos (by rw [drainOk_rsv h]; rfl),
      rowActs_legal rfl fun _ _ _ => rfl, rowActs_legal rfl fun _ _ _ => rfl, rowActs_legal rfl fun _ _ _ => rfl,
      rowActs_legal rfl fun _ _ _ => rfl, rowActs_legal rfl fun _ _ _ => rfl, rowActs_legal rfl fun _ _ _ => rfl,
      rowActs_of rfl (fun _ _ _ => rfl) (faultsOnRsv_vectorArith _ _), rowActs_of rfl (fun _ _ _ => rfl) (faultsOnRsv_vectorArith _ _),
      rowActs_vectorLanes rfl fun _ _ _ => rfl, rowActs_vectorLanes rfl fun _ _ _ => rfl, rowActs_vectorLanes rfl fun _ _ _ => rfl,
      rowActs_vectorLanes rfl fun _ _ _ => rfl, by simp⟩
  · exact ⟨rowActs_of rfl (fun _ _ _ => rfl) (faultsOnRsv_vectorArith _ _),
      rowActs_of rfl (fun _ _ _ => rfl) (faultsOnRsv_vectorCvt (fun w => w.fa < 0xF && w.fb < 0xF) fun w => roundFmt w.fb),
      rowActs_of rfl (fun _ _ _ => rfl) (faultsOnRsv_vectorCvt (fun w => smallFloat w.fa && (smallFloat w.fb || w.fb == 7)) fun w => expNum w.fb),
      rowActs_of rfl (fun _ _ _ => rfl) (faultsOnRsv_vectorCvt (fun w => smallFloat w.fa && smallFloat w.fb) fun w => rcpNum w.fb),
      rowActs_of rfl (fun _ _ _ => rfl) fun _ _ _ _ h => if_pos (Or.inl (by omega)),
      rowActs_of rfl (fun _ _ _ => rfl) fun _ _ _ _ h => if_pos (Or.inl h),
      rowActs_legal rfl fun _ _ _ => rfl, rowActs_legal rfl fun _ _ _ => rfl, rowActs_legal rfl fun _ _ _ => rfl,
      rowActs_legal rfl fun _ _ _ => rfl, rowActs_legal rfl fun _ _ _ => rfl, by simp⟩

/-- The opcodes that have a row are those of Table 8.3. -/
theorem rodRows_opcodes : rodRows.map (·.1) = rodOpcodes := rfl

theorem contains_rodOpcodes {n : Nat} : rodOpcodes.contains n = true ↔ n ∈ rodRows.map (·.1) := by
  rw [rodRows_opcodes]
  exact List.contains_iff_mem

/-- Settles O44: every row acts by the one rule of issue. -/
theorem rodsIssueOrStop : Obligations.RodsIssueOrStop := by
  unfold Obligations.RodsIssueOrStop
  refine ⟨fun s i w x hx => ?_, fun s i op w => ⟨fun hup => checkScratch_clean _ _ hup, fun hup hS hV hA hD hc => readied_clean op w hup hS hV hA hD hc⟩,
    fun u i c ev pc f => ?_⟩
  · obtain ⟨hop, act, hfault, hexec⟩ := rodRows_act x hx
    intro v r
    rw [hexec]
    refine ⟨fun h => congrArg _ (rodIssue_idle _ h), fun h => ?_, fun u hu hrsv => ?_⟩
    · obtain ⟨hpc, hbad, hin⟩ := rodIssue_stops (op := x.1) (w := w) (act i w) h
      refine ⟨fun h1 => congrArg _ (hpc h1), fun h1 h2 => congrArg _ (hbad h1 h2), fun h1 h2 => ⟨fun ho => ?_, fun ho hne => ?_⟩⟩
      · exact congrArg _ ((hin h1 h2).1 (Bool.eq_false_iff.2 fun hc => ho (contains_rodOpcodes.1 hc)))
      · exact congrArg _ ((hin h1 h2).2 (contains_rodOpcodes.2 ho) hne)
    · rw [rodIssue_of_issues hu hop, hfault i w u _ hrsv, did_fault]
  · obtain ⟨x, y, hran, hsame⟩ := ran_eq u i c f ev pc
    rw [hran]
    refine ⟨setRegs_rod_same u i fun r => (f r).advance pc, fun j hj => (setRod_rod u i j _).trans (if_neg hj), rfl, fun h => hsame h, rfl, rfl, rfl, rfl⟩

end Sys2Proof.Machine
end

section
/-!
Scalar instructions of the rods (R152, R169, R171–R173, Table 8.3).
-/

namespace Sys2Proof.Machine

/-! ### S registers -/

/-- A write of an S register: its value and flag, and every other register's. -/
theorem setS_spec (g : RodRegs) (n v : Nat) (p : Bool) :
    (g.setS n v p).getS n = v % 2 ^ 64 ∧ bit (g.setS n v p).pS n = p ∧
      ∀ m, m ≠ n → (g.setS n v p).getS m = g.getS m ∧ bit (g.setS n v p).pS m = bit g.pS m := by
  refine ⟨(tblGet_put ..).trans (if_pos rfl), (bit_setBit ..).trans (if_pos rfl), fun m hm => ⟨?_, ?_⟩⟩
  · exact (tblGet_put ..).trans (if_neg hm)
  · exact (bit_setBit ..).trans (if_neg hm)

/-- Only the value modulo 2⁶⁴ is written. -/
theorem setS_congr {v v' : Nat} (h : v % 2 ^ 64 = v' % 2 ^ 64) (g : RodRegs) (n : Nat) (p : Bool) : g.setS n v p = g.setS n v' p := by
  unfold RodRegs.setS
  rw [h]

/-- The second operand (Table 8.2): S[B], or IMM where B is 0. -/
theorem operand_cases (g : RodRegs) (w : RodWord) :
    (w.b = 0 → w.imm ≠ 0 → g.operand w = some (immOf w, false)) ∧
    (w.b ≠ 0 → w.imm = 0 → g.operand w = some (g.getS w.b, bit g.pS w.b)) ∧
    (w.b = 0 → w.imm = 0 → g.operand w = some (if Config.zeroIsImmediate then (immOf w, false) else (g.getS 0, bit g.pS 0))) ∧
    (w.b ≠ 0 → w.imm ≠ 0 → g.operand w = none) := by
  unfold RodRegs.operand
  refine ⟨fun hb hi => ?_, fun hb hi => ?_, fun hb hi => ?_, fun hb hi => if_pos ⟨hb, hi⟩⟩
  · rw [if_neg (fun h => h.1 hb), if_pos ⟨hb, Or.inl hi⟩]
  · rw [if_neg (fun h => h.2 hi), if_neg (fun h => hb h.1)]
  · rw [if_neg (fun h => h.1 hb)]
    cases hz : Config.zeroIsImmediate
    · rw [if_neg (by simp [hi])]
      simp [hb]
    · rw [if_pos ⟨hb, Or.inr rfl⟩]
      rfl

/-! ### Arithmetic (Table 8.3) -/

/-- A scalar instruction with its two operands writes S[D]; with B and IMM both used, or an unused field, it is illegal. -/
theorem scalarOp_issues {s u : State} {i : Fin 544} {op : Nat} {w : RodWord} (h : s.Issues i op w u) (hop : rodOpcodes.contains op = true)
    (f : Nat → Nat → Nat) :
    (∀ b p, w.rsv + w.fa + w.fb = 0 → (u.rod i).regs.operand w = some (b, p) →
      s.rodIssue i op w (scalarOp f i w) = u.ran i ((s.fetched i).rod i).ctx fun r =>
        r.setS w.d (f ((u.rod i).regs.getS w.a) b) (bit (u.rod i).regs.pS w.a || p)) ∧
    (w.b ≠ 0 ∧ w.imm ≠ 0 ∨ w.fa ≠ 0 ∨ w.fb ≠ 0 → s.rodIssue i op w (scalarOp f i w) = u.rodFault i 1) := by
  rw [rodIssue_of_issues h hop]
  unfold scalarOp
  refine ⟨fun b p hf hb => ?_, fun hbad => ?_⟩
  · rw [legal_ok _ (by omega), hb]
    exact ran_congr _ _ _ rfl
  · by_cases hf : w.rsv + (w.fa + w.fb) = 0
    · have hboth : w.b ≠ 0 ∧ w.imm ≠ 0 := hbad.resolve_right (by omega)
      rw [legal_ok _ hf, (operand_cases _ w).2.2.2 hboth.1 hboth.2, did_fault]
    · rw [legal_bad _ hf, did_fault]

/-- The six operations on 64-bit words, as the model's on numbers. -/
theorem scalarOps_bitVec (x y : Nat) :
    (x + y) % 2 ^ 64 = (BitVec.ofNat 64 x + BitVec.ofNat 64 y).toNat % 2 ^ 64 ∧
    (x + 2 ^ 64 - y % 2 ^ 64) % 2 ^ 64 = (BitVec.ofNat 64 x - BitVec.ofNat 64 y).toNat % 2 ^ 64 ∧
    Nat.land x y % 2 ^ 64 = (BitVec.ofNat 64 x &&& BitVec.ofNat 64 y).toNat % 2 ^ 64 ∧
    Nat.lor x y % 2 ^ 64 = (BitVec.ofNat 64 x ||| BitVec.ofNat 64 y).toNat % 2 ^ 64 ∧
    Nat.xor x y % 2 ^ 64 = (BitVec.ofNat 64 x ^^^ BitVec.ofNat 64 y).toNat % 2 ^ 64 ∧
    x * y % 2 ^ 64 = (BitVec.ofNat 64 x * BitVec.ofNat 64 y).toNat % 2 ^ 64 := by
  refine ⟨?_, ?_, ?_, ?_, ?_, ?_⟩
  · simp [BitVec.toNat_add]
  · simp only [BitVec.toNat_sub, BitVec.toNat_ofNat]
    omega
  · rw [BitVec.toNat_and, BitVec.toNat_ofNat, BitVec.toNat_ofNat, ← Nat.and_mod_two_pow, Nat.mod_mod]
    rfl
  · rw [BitVec.toNat_or, BitVec.toNat_ofNat, BitVec.toNat_ofNat, ← Nat.or_mod_two_pow, Nat.mod_mod]
    rfl
  · rw [BitVec.toNat_xor, BitVec.toNat_ofNat, BitVec.toNat_ofNat, ← Nat.xor_mod_two_pow, Nat.mod_mod]
    rfl
  · simp [BitVec.toNat_mul]

/-- A scalar instruction whose operation agrees modulo 2⁶⁴ with one on words. -/
theorem scalarOp_issues_bitVec {s u : State} {i : Fin 544} {op : Nat} {w : RodWord} (h : s.Issues i op w u)
    (hop : rodOpcodes.contains op = true) {f : Nat → Nat → Nat} {f' : BitVec 64 → BitVec 64 → BitVec 64}
    (hf : ∀ x y, f x y % 2 ^ 64 = (f' (BitVec.ofNat 64 x) (BitVec.ofNat 64 y)).toNat % 2 ^ 64) {b : Nat} {p : Bool}
    (hlegal : w.rsv + w.fa + w.fb = 0) (hb : (u.rod i).regs.operand w = some (b, p)) :
    s.rodIssue i op w (scalarOp f i w) = u.ran i ((s.fetched i).rod i).ctx fun r =>
      r.setS w.d (f' (BitVec.ofNat 64 ((u.rod i).regs.getS w.a)) (BitVec.ofNat 64 b)).toNat (bit (u.rod i).regs.pS w.a || p) :=
  ((scalarOp_issues h hop f).1 b p hlegal hb).trans (ran_congr _ _ _ (setS_congr (hf _ _) ..))

/-- The arithmetic rows. -/
theorem scalarRows_issue {s u : State} {i : Fin 544} {w : RodWord} :
    let ops : List (Nat × (BitVec 64 → BitVec 64 → BitVec 64) × (Fin 544 → RodWord → Instr)) :=
      [(0x01, (fun x y => x + y), .add), (0x02, (fun x y => x - y), .sub), (0x03, (fun x y => x &&& y), .and),
       (0x04, (fun x y => x ||| y), .or), (0x05, (fun x y => x ^^^ y), .xor), (0x0A, (fun x y => x * y), .mul)]
    ∀ b p, w.rsv + w.fa + w.fb = 0 → (u.rod i).regs.operand w = some (b, p) → ∀ x ∈ ops, s.Issues i x.1 w u →
      exec (x.2.2 i w) s = .next (u.ran i ((s.fetched i).rod i).ctx fun r =>
        r.setS w.d (x.2.1 (BitVec.ofNat 64 ((u.rod i).regs.getS w.a)) (BitVec.ofNat 64 b)).toNat (bit (u.rod i).regs.pS w.a || p)) := by
  intro ops b p hf hb
  simp only [ops, List.forall_mem_cons, List.not_mem_nil, false_imp_iff, implies_true, and_true]
  refine ⟨fun h => congrArg Host.Outcome.next (scalarOp_issues_bitVec h rfl (fun x y => ?_) hf hb),
    fun h => congrArg Host.Outcome.next (scalarOp_issues_bitVec h rfl (fun x y => ?_) hf hb),
    fun h => congrArg Host.Outcome.next (scalarOp_issues_bitVec h rfl (fun x y => ?_) hf hb),
    fun h => congrArg Host.Outcome.next (scalarOp_issues_bitVec h rfl (fun x y => ?_) hf hb),
    fun h => congrArg Host.Outcome.next (scalarOp_issues_bitVec h rfl (fun x y => ?_) hf hb),
    fun h => congrArg Host.Outcome.next (scalarOp_issues_bitVec h rfl (fun x y => ?_) hf hb)⟩
  · obtain ⟨hadd, -, -, -, -, -⟩ := scalarOps_bitVec x y
    exact hadd
  · obtain ⟨-, hsub, -, -, -, -⟩ := scalarOps_bitVec x y
    exact hsub
  · obtain ⟨-, -, hand, -, -, -⟩ := scalarOps_bitVec x y
    exact hand
  · obtain ⟨-, -, -, hor, -, -⟩ := scalarOps_bitVec x y
    exact hor
  · obtain ⟨-, -, -, -, hxor, -⟩ := scalarOps_bitVec x y
    exact hxor
  · obtain ⟨-, -, -, -, -, hmul⟩ := scalarOps_bitVec x y
    exact hmul

/-- SHL and SHR: below 64 the shift, else what the free value says. -/
theorem shlOp_cases (x n : Nat) : (n < 64 → shlOp x n = x * 2 ^ n) ∧ (64 ≤ n → shlOp x n = Config.shiftBeyond false x n) :=
  ⟨fun h => if_pos h, fun h => if_neg (Nat.not_lt.2 h)⟩

theorem shrOp_cases (x n : Nat) :
    (n < 64 → shrOp x n = if Config.shrArithmetic then unsigned 64 (signed 64 x / (2 ^ n : Nat)) else x / 2 ^ n) ∧
    (64 ≤ n → shrOp x n = Config.shiftBeyond true x n) :=
  ⟨fun h => if_neg (Nat.not_le.2 h), fun h => if_pos h⟩

/-! ### Rows that look at their unused fields first -/

/-- A row that looks at its unused fields first. -/
theorem legalRow_issues {s u : State} {i : Fin 544} {op : Nat} {w : RodWord} (h : s.Issues i op w u) (hop : rodOpcodes.contains op = true)
    (unused : Nat) (act : State → Rod → Did) :
    (w.rsv + unused ≠ 0 → s.rodIssue i op w (fun s r => legal w unused (act s r)) = u.rodFault i 1) ∧
    (w.rsv + unused = 0 → s.rodIssue i op w (fun s r => legal w unused (act s r)) =
      u.did i ((s.fetched i).rod i).ctx (act u (u.rod i))) := by
  rw [rodIssue_of_issues h hop]
  exact ⟨fun hf => by rw [legal_bad _ hf, did_fault], fun hf => by rw [legal_ok _ hf]⟩

/-- Bounds before alignment; a write must stay clear of the code region (R169, R171, R173). -/
theorem scratchFault_cases (r : Rod) (off n align : Nat) (write : Bool) :
    (0x80000 < off + n ∨ write = true ∧ off < r.regs.codeBytes → r.scratchFault off n align write = some 2) ∧
    (off + n ≤ 0x80000 → (write = true → r.regs.codeBytes ≤ off) → off % align ≠ 0 → r.scratchFault off n align write = some 3) ∧
    (off + n ≤ 0x80000 → (write = true → r.regs.codeBytes ≤ off) → off % align = 0 → r.scratchFault off n align write = none) := by
  unfold Rod.scratchFault
  have hin (h1 : off + n ≤ 0x80000) (h2 : write = true → r.regs.codeBytes ≤ off) :
      ¬(0x80000 < off + n ∨ write = true ∧ off < r.regs.codeBytes) := by
    rintro (h | ⟨hw, hc⟩)
    · omega
    · exact absurd (h2 hw) (Nat.not_le.2 hc)
  exact ⟨fun h => if_pos h, fun h1 h2 h3 => (if_neg (hin h1 h2)).trans (if_pos h3),
    fun h1 h2 h3 => (if_neg (hin h1 h2)).trans (if_neg (not_not.2 h3))⟩

/-- An access of scratch: a poisoned address or one out of its place stops it. -/
def scratchDid (poisoned : Bool) (fault : Option Nat) (go : Did) : Did :=
  if poisoned then .poison else match fault with | some c => .fault c | none => go

/-- What a scratch access of an instruction is: `n` bytes at S[A]. -/
def scratchAct (w : RodWord) (n align : Nat) (write : Bool) (go : State → Rod → Did) (s : State) (r : Rod) : Did :=
  scratchDid (bit r.regs.pS w.a) (r.scratchFault (r.regs.getS w.a) n align write) (go s r)

/-- A row that accesses `n` bytes of scratch at S[A]. -/
theorem scratchRow_issues {s u : State} {i : Fin 544} {op : Nat} {w : RodWord} {row : Fin 544 → RodWord → Instr}
    (h : s.Issues i op w u) (hop : rodOpcodes.contains op = true) {unused n align : Nat} {write : Bool} {go : State → Rod → Did}
    (hrow : exec (row i w) s = .next (s.rodIssue i op w fun s r => legal w unused (scratchAct w n align write go s r))) :
    let r := u.rod i
    let a := r.regs.getS w.a
    (w.rsv + unused ≠ 0 → exec (row i w) s = .next (u.rodFault i 1)) ∧
    (w.rsv + unused = 0 → bit r.regs.pS w.a = true → exec (row i w) s = .next (u.rodPoison i)) ∧
    (w.rsv + unused = 0 → bit r.regs.pS w.a = false →
      (0x80000 < a + n ∨ write = true ∧ a < r.regs.codeBytes → exec (row i w) s = .next (u.rodFault i 2)) ∧
      (a + n ≤ 0x80000 → (write = true → r.regs.codeBytes ≤ a) → a % align ≠ 0 → exec (row i w) s = .next (u.rodFault i 3)) ∧
      (a + n ≤ 0x80000 → (write = true → r.regs.codeBytes ≤ a) → a % align = 0 →
        exec (row i w) s = .next (u.did i ((s.fetched i).rod i).ctx (go u r)))) := by
  intro r a
  obtain ⟨hbad, hok⟩ := legalRow_issues h hop unused (scratchAct w n align write go)
  obtain ⟨hout, hmis, hin⟩ := scratchFault_cases r a n align write
  rw [hrow]
  refine ⟨fun hf => congrArg _ (hbad hf), fun hf hp => ?_, fun hf hp => ⟨fun h1 => ?_, fun h1 h2 h3 => ?_, fun h1 h2 h3 => ?_⟩⟩
  all_goals
    rw [hok hf]
    show Host.Outcome.next (u.did i _ (scratchDid (bit r.regs.pS w.a) (r.scratchFault a n align write) (go u r))) = _
    rw [hp]
  · rfl
  · rw [hout h1]; rfl
  · rw [hmis h1 h2 h3]; rfl
  · rw [hin h1 h2 h3]; rfl

/-! ### Scratch and control (R169, R171, R173) -/

theorem ld_issues {s u : State} {i : Fin 544} {w : RodWord} (h : s.Issues i 0x10 w u) :
    let r := u.rod i
    let g := r.regs
    let a := g.getS w.a
    (w.rsv + (w.b + w.fa + w.fb + w.imm) ≠ 0 → exec (.ld i w) s = .next (u.rodFault i 1)) ∧
    (w.rsv + (w.b + w.fa + w.fb + w.imm) = 0 → bit g.pS w.a = true → exec (.ld i w) s = .next (u.rodPoison i)) ∧
    (w.rsv + (w.b + w.fa + w.fb + w.imm) = 0 → bit g.pS w.a = false →
      (0x80000 < a + 8 → exec (.ld i w) s = .next (u.rodFault i 2)) ∧
      (a + 8 ≤ 0x80000 → a % 8 ≠ 0 → exec (.ld i w) s = .next (u.rodFault i 3)) ∧
      (a + 8 ≤ 0x80000 → a % 8 = 0 → exec (.ld i w) s =
        .next (u.ran i ((s.fetched i).rod i).ctx fun g => g.setS w.d (leNat (cellRead r.scratch a 8)) (badAt r.badLines a 8)))) := by
  intro r g a
  obtain ⟨hbad, hpois, hgo⟩ := scratchRow_issues (row := .ld) (n := 8) (align := 8) (write := false)
    (go := fun s r => s.didRegs i fun g => g.setS w.d (leNat (r.read (r.regs.getS w.a) 8).1) (r.read (r.regs.getS w.a) 8).2) h rfl rfl
  refine ⟨hbad, hpois, fun hf hp => ?_⟩
  obtain ⟨hout, hmis, hin⟩ := hgo hf hp
  exact ⟨fun h1 => hout (Or.inl h1), fun h1 h2 => hmis h1 (fun hw => absurd hw (by decide)) h2,
    fun h1 h2 => hin h1 (fun hw => absurd hw (by decide)) h2⟩

theorem st_issues {s u : State} {i : Fin 544} {w : RodWord} (h : s.Issues i 0x11 w u) :
    let r := u.rod i
    let g := r.regs
    let a := g.getS w.a
    (w.rsv + (w.d + w.fa + w.fb + w.imm) ≠ 0 → exec (.st i w) s = .next (u.rodFault i 1)) ∧
    (w.rsv + (w.d + w.fa + w.fb + w.imm) = 0 → bit g.pS w.a = true → exec (.st i w) s = .next (u.rodPoison i)) ∧
    (w.rsv + (w.d + w.fa + w.fb + w.imm) = 0 → bit g.pS w.a = false →
      (0x80000 < a + 8 ∨ a < g.codeBytes → exec (.st i w) s = .next (u.rodFault i 2)) ∧
      (a + 8 ≤ 0x80000 → g.codeBytes ≤ a → a % 8 ≠ 0 → exec (.st i w) s = .next (u.rodFault i 3)) ∧
      (a + 8 ≤ 0x80000 → g.codeBytes ≤ a → a % 8 = 0 → exec (.st i w) s =
        .next ((u.scratchWrite i a (leBytes 8 (g.getS w.b)) (bit g.pS w.b)).ran i ((s.fetched i).rod i).ctx id))) := by
  intro r g a
  obtain ⟨hbad, hpois, hgo⟩ := scratchRow_issues (row := .st) (n := 8) (align := 8) (write := true)
    (go := fun s r => .done (s.scratchWrite i (r.regs.getS w.a) (leBytes 8 (r.regs.getS w.b)) (bit r.regs.pS w.b)) 0 none) h rfl rfl
  refine ⟨hbad, hpois, fun hf hp => ?_⟩
  obtain ⟨hout, hmis, hin⟩ := hgo hf hp
  exact ⟨fun h1 => hout (h1.imp_right fun hc => ⟨rfl, hc⟩), fun h1 hc h2 => hmis h1 (fun _ => hc) h2,
    fun h1 hc h2 => (hin h1 (fun _ => hc) h2).trans (congrArg _ (did_done ..))⟩

theorem br_issues {s u : State} {i : Fin 544} {w : RodWord} (h : s.Issues i 0x12 w u) :
    let g := (u.rod i).regs
    let c := ((s.fetched i).rod i).ctx
    (w.rsv + (w.d + w.b + w.fa + w.fb) ≠ 0 → exec (.br i w) s = .next (u.rodFault i 1)) ∧
    (w.rsv + (w.d + w.b + w.fa + w.fb) = 0 →
      (bit g.pS w.a = true → exec (.br i w) s = .next (u.rodPoison i)) ∧
      (bit g.pS w.a = false → g.getS w.a = 0 → exec (.br i w) s = .next (u.ran i c id)) ∧
      (bit g.pS w.a = false → g.getS w.a ≠ 0 → exec (.br i w) s = .next (u.ran i c id 0 (some (w.imm % 2 ^ 32))))) := by
  intro g c
  obtain ⟨hbad, hok⟩ := legalRow_issues h rfl (w.d + w.b + w.fa + w.fb) fun s r =>
    if bit r.regs.pS w.a then .poison else .done s 0 (if r.regs.getS w.a = 0 then none else some (w.imm % 2 ^ 32))
  have hrow : exec (.br i w) s = .next (s.rodIssue i 0x12 w fun s r => legal w (w.d + w.b + w.fa + w.fb)
      (if bit r.regs.pS w.a then .poison else .done s 0 (if r.regs.getS w.a = 0 then none else some (w.imm % 2 ^ 32)))) := rfl
  rw [hrow]
  refine ⟨fun hf => congrArg _ (hbad hf), fun hf => ⟨fun hp => ?_, fun hp ha => ?_, fun hp ha => ?_⟩⟩ <;> rw [hok hf]
  · rw [if_pos hp, did_poison]
  · rw [if_neg (by simp [g] at hp; simp [hp]), if_pos ha, did_done]
  · rw [if_neg (by simp [g] at hp; simp [hp]), if_neg ha, did_done]

theorem loop_issues {s u : State} {i : Fin 544} {w : RodWord} (h : s.Issues i 0x13 w u) :
    let g := (u.rod i).regs
    let a := g.getS w.a
    let c := ((s.fetched i).rod i).ctx
    let n := w.imm % 65536
    (w.rsv + (w.d + w.b + w.fa + w.fb + w.imm / 65536) ≠ 0 → exec (.loop i w) s = .next (u.rodFault i 1)) ∧
    (w.rsv + (w.d + w.b + w.fa + w.fb + w.imm / 65536) = 0 →
      (bit g.pS w.a = true → exec (.loop i w) s = .next (u.rodPoison i)) ∧
      (bit g.pS w.a = false → a ≠ 0 → n ≠ 0 → exec (.loop i w) s =
        .next (u.ran i c (fun g => { g with loop := some (g.pc + 8, n, a - 1) }) 0 (some (g.pc + 8)))) ∧
      (bit g.pS w.a = false → a = 0 ∨ n = 0 → exec (.loop i w) s =
        .next (u.ran i c id 0 (some ((g.pc + 8 + 8 * n) % 2 ^ 32))))) := by
  intro g a c n
  have hrow : exec (.loop i w) s = .next (s.rodIssue i 0x13 w fun s r => legal w (w.d + w.b + w.fa + w.fb + w.imm / 65536)
      (if bit r.regs.pS w.a then .poison
       else if r.regs.getS w.a = 0 ∨ n = 0 then .done s 0 (some ((r.regs.pc + 8 + 8 * n) % 2 ^ 32))
       else .done (s.setRegs i fun g => { g with loop := some (r.regs.pc + 8, n, r.regs.getS w.a - 1) }) 0 (some (r.regs.pc + 8)))) := rfl
  obtain ⟨hbad, hok⟩ := legalRow_issues h rfl (w.d + w.b + w.fa + w.fb + w.imm / 65536) fun s r =>
    if bit r.regs.pS w.a then .poison
    else if r.regs.getS w.a = 0 ∨ n = 0 then .done s 0 (some ((r.regs.pc + 8 + 8 * n) % 2 ^ 32))
    else .done (s.setRegs i fun g => { g with loop := some (r.regs.pc + 8, n, r.regs.getS w.a - 1) }) 0 (some (r.regs.pc + 8))
  rw [hrow]
  refine ⟨fun hf => congrArg _ (hbad hf), fun hf => ⟨fun hp => ?_, fun hp ha hn => ?_, fun hp hor => ?_⟩⟩ <;> rw [hok hf]
  · rw [if_pos hp, did_poison]
  · rw [if_neg (by simp [g] at hp; simp [hp]), if_neg (by rintro (h | h); exacts [ha h, hn h]), did_done, ran_setRegs]
    exact congrArg _ (ran_congr _ _ _ rfl)
  · rw [if_neg (by simp [g] at hp; simp [hp]), if_pos hor, did_done]

/-- A row that only goes on, with no field in use. -/
theorem idleRow_issues {s u : State} {i : Fin 544} {op : Nat} {w : RodWord} {row : Fin 544 → RodWord → Instr}
    (h : s.Issues i op w u) (hop : rodOpcodes.contains op = true) {unused : Nat} {f : RodRegs → RodRegs}
    (hrow : exec (row i w) s = .next (s.rodIssue i op w fun s _ => legal w unused (s.didRegs i f))) :
    (w.rsv + unused = 0 → exec (row i w) s = .next (u.ran i ((s.fetched i).rod i).ctx f)) ∧
    (w.rsv + unused ≠ 0 → exec (row i w) s = .next (u.rodFault i 1)) := by
  obtain ⟨hbad, hok⟩ := legalRow_issues h hop unused fun s _ => s.didRegs i f
  rw [hrow]
  exact ⟨fun hf => congrArg _ (hok hf), fun hf => congrArg _ (hbad hf)⟩

theorem pausingRow_issues {s u : State} {i : Fin 544} {op : Nat} {w : RodWord} {row : Fin 544 → RodWord → Instr}
    (h : s.Issues i op w u) (hop : rodOpcodes.contains op = true) {unused : Nat}
    (hrow : exec (row i w) s = .next (s.rodIssue i op w fun s _ => legal w unused (.done s 0 none))) :
    (w.rsv + unused = 0 → exec (row i w) s = .next (u.ran i ((s.fetched i).rod i).ctx id)) ∧
    (w.rsv + unused ≠ 0 → exec (row i w) s = .next (u.rodFault i 1)) := by
  obtain ⟨hbad, hok⟩ := legalRow_issues h hop unused fun s _ => .done s 0 none
  rw [hrow]
  exact ⟨fun hf => congrArg _ ((hok hf).trans (did_done ..)), fun hf => congrArg _ (hbad hf)⟩

/-- NOP and FENCE only go on. -/
theorem nop_issues {s u : State} {i : Fin 544} {w : RodWord} :
    ∀ x ∈ [((0x00 : Nat), (Instr.nop : Fin 544 → RodWord → Instr)), (0x71, .fence)], s.Issues i x.1 w u →
      (w.rsv + (w.d + w.a + w.b + w.fa + w.fb + w.imm) = 0 → exec (x.2 i w) s = .next (u.ran i ((s.fetched i).rod i).ctx id)) ∧
      (w.rsv + (w.d + w.a + w.b + w.fa + w.fb + w.imm) ≠ 0 → exec (x.2 i w) s = .next (u.rodFault i 1)) := by
  simp only [List.forall_mem_cons, List.not_mem_nil, false_imp_iff, implies_true, and_true]
  exact ⟨fun h => pausingRow_issues h rfl rfl, fun h => pausingRow_issues h rfl rfl⟩

/-! ### Writes of scratch (R171) -/

/-- Bytes written to a cell list are read back. -/
theorem cellRead_puts (m : List Host.Cell) (off : Nat) (b : List Byte) : cellRead (cellPuts m off b) off b.length = b :=
  readMem_of_mem (s := { mem := cellPuts m off b }) rfl rfl

/-- Bytes written are read back, and no other byte changes. -/
theorem Rod.write_reads (r : Rod) (off : Nat) (b : List Byte) (p : Bool) :
    cellRead (r.write off b p).scratch off b.length = b ∧ (r.write off b p).regs = r.regs ∧
      ∀ x, x < off ∨ off + b.length ≤ x → cellGet (r.write off b p).scratch x = cellGet r.scratch x :=
  ⟨cellRead_puts .., rfl, fun _ hx => cellGet_puts r.scratch b hx⟩

/-! ### The check of a rod's tile (R295) -/

theorem checkOf_of_check {s : State} {i : Nat} {k : Check} (h : (s.frame (rodFrame i)).check = some k) :
    s.checkOf i = if k.phase = 1 ∧ s.physRod (rodFrame i) k.logical = i then some k else none := by
  unfold State.checkOf
  rw [h]

/-- The check of a frame set: whether it is a rod's does not turn on anything else. -/
theorem setCheck_checkOf (s : State) (i : Nat) (k : Check) : (s.setCheck (rodFrame i) (some k)).checkOf i =
    if k.phase = 1 ∧ s.physRod (rodFrame i) k.logical = i then some k else none := by
  have hframe : (s.setCheck (rodFrame i) (some k)).frame (rodFrame i) = { s.frame (rodFrame i) with check := some k } :=
    (setFrame_frame ..).trans (if_pos rfl)
  rw [checkOf_of_check (k := k) (congrArg Frame.check hframe)]
  unfold State.physRod State.position
  rw [hframe]

theorem setRod_checkOf (s : State) (i j : Nat) (r : Rod) : (s.setRod j r).checkOf i = s.checkOf i := rfl

theorem logLines_unchecked {s : State} {i : Nat} (off n : Nat) (h : s.checkOf i = none) : s.logLines i off n = s := by
  unfold State.logLines
  rw [h]

/-- A write of a rod not under check is noted in no more than the signature of a vote. -/
theorem noteWrite_unchecked {s : State} {i : Nat} (addr : Nat) (b : List Byte) (p : Bool) (h : s.checkOf i = none) :
    ∃ x, s.noteWrite i addr b p = { s with frames := x } ∧ (s.noteWrite i addr b p).checkOf i = none := by
  unfold State.noteWrite
  dsimp only
  split
  · exact ⟨_, rfl, h⟩
  · rename_i k hk
    rw [if_neg (by rw [h]; decide)]
    split
    · refine ⟨_, rfl, (setCheck_checkOf ..).trans (if_neg fun hc => ?_)⟩
      rw [checkOf_of_check hk, if_pos hc] at h
      cases h
    · exact ⟨_, rfl, h⟩

/-- A write of scratch of a rod not under check changes its bytes there. -/
theorem scratchWrite_unchecked {u : State} {i : Nat} (off : Nat) (b : List Byte) (p : Bool) (h : u.checkOf i = none) :
    let t := u.scratchWrite i off b p
    t.rod i = (u.rod i).write off b (p || (u.rod i).poisonTile) ∧ (∀ j, j ≠ i → t.rod j = u.rod j) ∧ t.mem = u.mem ∧ t.checkOf i = none := by
  unfold State.scratchWrite
  rw [logLines_unchecked _ _ h]
  obtain ⟨x, hx, hcheck⟩ := noteWrite_unchecked off b p h
  rw [hx] at hcheck ⊢
  exact ⟨setRod_rod_same .., fun j hj => (setRod_rod ..).trans (if_neg hj), rfl, hcheck⟩

/-- Settles O45: each row by the rule of issue. -/
theorem scalarInstructionsAct : Obligations.ScalarInstructionsAct := by
  unfold Obligations.ScalarInstructionsAct
  refine ⟨fun s i w u => ?_, operand_cases, fun g n v p _ => ?_, fun s i w u => ?_, fun u i off b p h => ?_, Rod.write_reads⟩
  · intro g c ops rows
    refine ⟨fun b p hf hb => ?_, fun hbad => ?_, fun h => idleRow_issues h rfl rfl, fun h => ?_⟩
    · intro sets
      refine ⟨scalarRows_issue b p hf hb, fun h => ?_, fun h => ?_, fun h => ?_⟩
      · have hrun : exec (.shl i w) s = .next _ := congrArg Host.Outcome.next ((scalarOp_issues h rfl shlOp).1 b p hf hb)
        obtain ⟨hlt, hge⟩ := shlOp_cases (g.getS w.a) b
        exact ⟨fun hb => hrun.trans (by rw [hlt hb]), fun hb => hrun.trans (by rw [hge hb])⟩
      · have hrun : exec (.shr i w) s = .next _ := congrArg Host.Outcome.next ((scalarOp_issues h rfl shrOp).1 b p hf hb)
        obtain ⟨hlt, hge⟩ := shrOp_cases (g.getS w.a) b
        exact ⟨fun hb => hrun.trans (by rw [hlt hb]), fun hb => hrun.trans (by rw [hge hb])⟩
      · exact congrArg Host.Outcome.next ((scalarOp_issues h rfl Config.cmp).1 b p hf hb)
    · have hill {op : Nat} (h : s.Issues i op w u) (hop : rodOpcodes.contains op = true) (f : Nat → Nat → Nat) :
          (Host.Outcome.next (s.rodIssue i op w (scalarOp f i w)) : Outcome) = .next (u.rodFault i 1) :=
        congrArg _ ((scalarOp_issues h hop f).2 hbad)
      simp only [rows, ops, List.map_cons, List.map_nil, List.cons_append, List.nil_append, List.forall_mem_cons, List.not_mem_nil,
        false_imp_iff, implies_true, and_true]
      exact ⟨fun h => hill h rfl _, fun h => hill h rfl _, fun h => hill h rfl _, fun h => hill h rfl _, fun h => hill h rfl _,
        fun h => hill h rfl _, fun h => hill h rfl _, fun h => hill h rfl _, fun h => hill h rfl _⟩
    · obtain ⟨hok, hbad⟩ := idleRow_issues (row := .stepctr) h rfl rfl
      exact ⟨fun hf => (hok hf).trans (congrArg _ (ran_congr _ _ _ rfl)), hbad⟩
  · obtain ⟨hval, hflag, hother⟩ := setS_spec g n v p
    exact ⟨hval, hflag, hother, rfl, rfl, rfl, rfl, rfl, rfl, rfl⟩
  · exact ⟨nop_issues, ld_issues, st_issues, br_issues, loop_issues⟩
  · obtain ⟨hrod, hothers, hmem, -⟩ := scratchWrite_unchecked off b p h
    exact ⟨hrod, hothers, hmem⟩

end Sys2Proof.Machine
end

section
/-!
The matrix unit and the long accumulator (R178–R182, R213–R218).
-/

namespace Sys2Proof.Machine

/-! ### Records of accumulators (Table 8.5) -/

theorem Acc.length_record (a : Acc) : a.record.length = 128 := by simp [Acc.record, zeroBytes]

theorem drop_append_length {α : Type} {l m : List α} {n : Nat} (h : l.length = n) : (l ++ m).drop n = m := by
  subst h
  exact List.drop_left

/-- The flags of a record. -/
theorem recordFlags (n p q r : Bool) : let f := b2n n + 2 * b2n p + 4 * b2n q + 8 * b2n r
    f / 16 = 0 ∧ bit f 0 = n ∧ bit f 1 = p ∧ bit f 2 = q ∧ bit f 3 = r := by
  revert n p q r
  decide

/-- A record stands for the accumulator it was made of. -/
theorem Acc.ofRecord_record (a : Acc) : Acc.ofRecord a.record = some a := by
  have hlen : (leBytes 80 a.val.toNat).length = 80 := length_leBytes ..
  have hval : field a.record 0 80 = a.val.toNat := by
    unfold Acc.record
    rw [List.append_assoc, field_leBytes_append]
    exact Nat.mod_eq_of_lt (by have := a.val.isLt; norm_num at this ⊢; omega)
  have hflags : field a.record 80 1 = b2n a.nan + 2 * b2n a.posInf + 4 * b2n a.negInf + 8 * b2n a.poison := by
    unfold Acc.record
    rw [List.append_assoc, field_append (by rw [hlen]), hlen]
    cases a.nan <;> cases a.posInf <;> cases a.negInf <;> cases a.poison <;> rfl
  have hzero : zeros a.record 81 47 = true := by
    unfold zeros Acc.record
    rw [drop_append_length (by simp [hlen])]
    decide
  unfold Acc.ofRecord
  dsimp only
  obtain ⟨h16, hnan, hpos, hneg, hpoison⟩ := recordFlags a.nan a.posInf a.negInf a.poison
  rw [hval, hflags, if_pos ⟨h16, hzero⟩, hnan, hpos, hneg, hpoison, BitVec.ofNat_toNat, BitVec.setWidth_eq]

/-! ### Folds that change one place at a time -/

/-- A fold whose every step changes its own place alone. -/
theorem foldl_at {σ α : Type} (get : σ → Nat → α) (step : σ → Nat → σ) (h : Nat → α → α)
    (hstep : ∀ s c k, get (step s c) k = if k = c then h c (get s c) else get s k) {l : List Nat} (hl : l.Nodup) (s : σ) (k : Nat) :
    get (l.foldl step s) k = if k ∈ l then h k (get s k) else get s k := by
  induction l generalizing s with
  | nil => rfl
  | cons c l ih =>
    obtain ⟨hc, hl⟩ := List.nodup_cons.1 hl
    rw [List.foldl_cons, ih hl, hstep]
    by_cases hk : k = c
    · subst hk
      simp [hc]
    · simp [hk]

theorem setAcc_getAcc (g : RodRegs) (c k : Nat) (a : Acc) : (g.setAcc c a).getAcc k = if k = c then a else g.getAcc k := tblGet_put ..

theorem setD_getD (g : RodRegs) (c k v : Nat) (p : Bool) : (g.setD c v p).getD k = if k = c then v % 2 ^ 64 else g.getD k := tblGet_put ..

/-- Accumulators changed one after another, each from its own value. -/
theorem foldl_setAcc (h : Nat → Acc → Acc) {l : List Nat} (hl : l.Nodup) (g : RodRegs) (k : Nat) :
    (l.foldl (fun g c => g.setAcc c (h c (g.getAcc c))) g).getAcc k = if k ∈ l then h k (g.getAcc k) else g.getAcc k :=
  foldl_at RodRegs.getAcc _ h (fun _ _ _ => setAcc_getAcc ..) hl g k

/-! ### MMV (R176, R182, R213, R218) -/

/-- A step of the long accumulator at one column: its products added exactly. -/
def Rod.columnStep (r : Rod) (m : Mmv) (k : Nat) (x : Acc) (step : Nat) : Acc :=
  let x := (r.column m step k).1.foldl Acc.deposit x
  { x with poison := x.poison || (r.column m step k).2 }

theorem mmvStep_getAcc (r : Rod) (m : Mmv) (g : RodRegs) (step : Nat) {k : Nat} (hk : k < 16) :
    (r.mmvStep m g step).getAcc k = r.columnStep m k (g.getAcc k) step :=
  (foldl_setAcc (fun c x => r.columnStep m c x step) List.nodup_range g k).trans (if_pos (List.mem_range.2 hk))

/-- A step of the binary64 path at one column: one fused multiply-add, rounded. -/
def Rod.fmaColumn (r : Rod) (m : Mmv) (k : Nat) (x step : Nat) : Nat :=
  let a := decodeFmt 0xE ((r.elements m.a 0xE step 1).1.headD 0)
  let b := decodeFmt 0xE ((r.elements m.b 0xE (step * 8 + k) 1).1.headD 0)
  let d := decodeFmt 0xE x
  (roundOp 0xE 0 false 0 (a.isNan || b.isNan || d.isNan) (addNum 0 (mulNum a b) d)).code % 2 ^ 64

theorem fmaStep_getD (r : Rod) (m : Mmv) (x : RodRegs × Nat) (step : Nat) {k : Nat} (hk : k < 8) :
    (r.fmaStep m x step).1.getD k = r.fmaColumn m k (x.1.getD k) step :=
  (foldl_at (fun x : RodRegs × Nat => x.1.getD) _ (fun c v => r.fmaColumn m c v step) (fun _ _ _ => setD_getD ..)
    List.nodup_range x k).trans (if_pos (List.mem_range.2 hk))

/-- After N steps each column holds what its own steps give. -/
theorem mmv_columns (r : Rod) (m : Mmv) (n k : Nat) :
    (m.fa ≠ 0xE → k < 16 → (r.mmv m n).1.getAcc k = (List.range n).foldl (r.columnStep m k) (r.regs.getAcc k)) ∧
    (m.fa = 0xE → k < 8 → (r.mmv m n).1.getD k = (List.range n).foldl (r.fmaColumn m k) (r.regs.getD k)) := by
  unfold Rod.mmv
  refine ⟨fun hf hk => ?_, fun hf hk => ?_⟩
  · rw [if_neg hf]
    exact (List.foldl_hom (fun g : RodRegs => g.getAcc k) fun g step => (mmvStep_getAcc r m g step hk).symm).symm
  · rw [if_pos hf]
    exact (List.foldl_hom (fun x : RodRegs × Nat => x.1.getD k) fun x step => (fmaStep_getD r m x step hk).symm).symm

/-! ### What a held write performed changes (R185, R295) -/

theorem fbOpen_eq (s : State) (f c off n : Nat) : ∃ x, (s.fbOpen f c off n).1 = { s with frames := x } := by
  unfold State.fbOpen
  split
  · exact ⟨_, rfl⟩
  · dsimp only
    (repeat' split) <;> exact ⟨_, rfl⟩

theorem ringOpen_eq (s : State) (j i n : Nat) : ∃ x, (s.ringOpen j i n).1 = { s with frames := x } := by
  unfold State.ringOpen
  split
  · exact ⟨_, rfl⟩
  · exact fbOpen_eq ..

/-- A held write performed changes frames and streams. -/
theorem perform_eq (s : State) (f : Nat) (w : OutWrite) : ∃ x y, s.perform f w = { s with frames := x, streams := y } := by
  unfold State.perform
  split
  · exact ⟨_, _, rfl⟩
  · rename_i job i n data poison
    obtain ⟨x, hx⟩ := ringOpen_eq s job i n
    generalize s.ringOpen job i n = y at hx
    obtain ⟨u, g, at_⟩ := y
    dsimp only at hx
    subst hx
    cases at_ <;> exact ⟨_, _, rfl⟩

/-- So do those that S has produced. -/
theorem produce_eq (s : State) (f n : Nat) : ∃ x y, s.produce f n = { s with frames := x, streams := y } := by
  have hfold (l : List (Nat × OutWrite)) (s : State) : ∃ x y, l.foldl (fun s w => s.perform f w.2) s = { s with frames := x, streams := y } := by
    induction l generalizing s with
    | nil => exact ⟨_, _, rfl⟩
    | cons w l ih =>
      obtain ⟨x, y, hxy⟩ := perform_eq s f w.2
      rw [List.foldl_cons, hxy]
      exact ih _
  unfold State.produce
  split
  · exact ⟨_, _, rfl⟩
  · rename_i k _
    obtain ⟨x, y, hxy⟩ := hfold (k.held.filter fun w => decide (w.1 ≤ n)) s
    dsimp only
    rw [hxy]
    exact ⟨_, _, rfl⟩

/-! ### A rod works for one context -/

/-- What keeps the context of every rod. -/
def State.SameCtxs (s t : State) : Prop := ∀ j, (t.rod j).ctx = (s.rod j).ctx

theorem sameCtxs_of_rods {s t : State} (h : t.rods = s.rods) : s.SameCtxs t := fun j => by
  unfold State.rod
  rw [h]

theorem State.SameCtxs.trans {s t u : State} (h : s.SameCtxs t) (h' : t.SameCtxs u) : s.SameCtxs u := fun j => (h' j).trans (h j)

theorem sameCtxs_setRod {s : State} {i : Nat} {r : Rod} (h : r.ctx = (s.rod i).ctx) : s.SameCtxs (s.setRod i r) := fun j => by
  rw [setRod_rod]
  split
  · rename_i hj
    rw [h, hj]
  · rfl

theorem sameCtxs_setRegs (s : State) (i : Nat) (f : RodRegs → RodRegs) : s.SameCtxs (s.setRegs i f) := sameCtxs_setRod rfl

theorem State.SameCtxs.setReg {s t : State} (h : s.SameCtxs t) (a : Nat) (w : Word) : s.SameCtxs (t.setReg a w) := h

theorem State.SameCtxs.of_quiet {s t u : State} (h : s.SameCtxs t) (hu : u.quiet = t.quiet) : s.SameCtxs u :=
  h.trans (sameCtxs_of_rods (congrArg State.rods hu : u.quiet.rods = t.quiet.rods))

theorem sameCtxs_follow (s : State) (f n : Nat) : s.SameCtxs (s.follow f n) := by
  unfold State.follow
  split
  · exact sameCtxs_of_rods rfl
  · rename_i k _
    split
    · exact sameCtxs_of_rods rfl
    · rename_i x _
      have hregs : s.SameCtxs (s.setRod (17 * f + 16) { s.rod (17 * f + 16) with regs := x.1 }) := sameCtxs_setRod rfl
      obtain ⟨y, z, hyz⟩ := produce_eq ((s.setRod (17 * f + 16) { s.rod (17 * f + 16) with regs := x.1 }).setCheck f
        (some { k with lag := k.lag.drop n })) f x.2
      dsimp only
      rw [hyz]
      exact hregs.trans (sameCtxs_of_rods rfl)

theorem sameCtxs_catchUp (s : State) (i : Nat) : s.SameCtxs (s.catchUp i) := by
  unfold State.catchUp State.free
  dsimp only
  (repeat' split)
  · exact sameCtxs_of_rods rfl
  · exact sameCtxs_of_rods rfl
  · have hfree : s.SameCtxs { s with freeCtr := s.freeCtr + 1 } := sameCtxs_of_rods rfl
    exact hfree.trans (sameCtxs_follow _ _ _)

theorem sameCtxs_checkScratch (s : State) (i off n : Nat) : s.SameCtxs (s.checkScratch i off n) := by
  unfold State.checkScratch
  dsimp only
  split
  · generalize secded (s.rod i).upsets (s.rod i).scratch (s.rod i).badLines off n = x
    obtain ⟨m, bad, ce, ue⟩ := x
    have hrod : s.SameCtxs (s.setRod i { s.rod i with
        scratch := m, badLines := bad, upsets := (s.rod i).upsets.filter fun u => !touchesWord off n u.1 }) := sameCtxs_setRod rfl
    dsimp only
    split
    · exact hrod.setReg _ _
    · exact (hrod.setReg _ _).of_quiet (quiet_raise ..)
  · exact sameCtxs_of_rods rfl

theorem sameCtxs_checkParity (s : State) (i : Nat) (x : Reads) : s.SameCtxs (s.checkParity i x) := by
  unfold State.checkParity
  dsimp only
  split
  · exact sameCtxs_of_rods rfl
  · exact (sameCtxs_setRegs s i _).setReg _ _

theorem sameCtxs_readied (s : State) (i op : Nat) (w : RodWord) : s.SameCtxs (s.readied i op w) := by
  unfold State.readied
  dsimp only
  refine (sameCtxs_checkParity s i (rodReads op w)).trans (State.SameCtxs.trans ?_ (sameCtxs_catchUp _ _))
  split
  · exact sameCtxs_checkScratch _ _ _ _
  · exact sameCtxs_of_rods rfl

/-- The context an instruction is counted for is its rod's. -/
theorem ctx_of_issues {s u : State} {i op : Nat} {w : RodWord} (h : s.Issues i op w u) : (u.rod i).ctx = ((s.fetched i).rod i).ctx := by
  obtain ⟨-, -, -, -, -, rfl⟩ := h
  exact sameCtxs_readied (s.fetched i) i op w i

/-! ### Clearing (R179) -/

/-- What ACC_CLEAR does to the registers. -/
def RodRegs.accCleared (w : RodWord) (g : RodRegs) : RodRegs :=
  let g := (idxs 16 fun c => bit w.imm c).foldl (fun g c => g.setAcc c {}) g
  if bit w.imm 16 then (List.range 8).foldl (fun g c => g.setD c 0 false) g else g

theorem idxs_nodup (n : Nat) (p : Nat → Bool) : (idxs n p).Nodup := List.nodup_range.filter p

theorem mem_idxs {n : Nat} {p : Nat → Bool} {k : Nat} : k ∈ idxs n p ↔ k < n ∧ p k = true := by
  unfold idxs
  rw [List.mem_filter, List.mem_range]

/-- A fold each of whose steps keeps a part keeps it. -/
theorem foldl_same {σ T β : Type} (part : σ → β) {step : σ → T → σ} (h : ∀ s x, part (step s x) = part s) (l : List T) (s : σ) :
    part (l.foldl step s) = part s := by
  induction l generalizing s with
  | nil => rfl
  | cons x l ih => exact (ih _).trans (h s x)

/-- The registers that are neither an accumulator nor a D register. -/
def RodRegs.others (g : RodRegs) : Tbl Nat × Tbl Nat × Nat × Option (Nat × Nat × Nat) × Tbl Cursor := (g.s, g.v, g.step, g.loop, g.cursors)

theorem accCleared_others (w : RodWord) (g : RodRegs) : (g.accCleared w).others = g.others := by
  have hacc : ((idxs 16 fun c => bit w.imm c).foldl (fun g c => g.setAcc c {}) g).others = g.others :=
    foldl_same RodRegs.others (fun _ _ => by rfl) _ g
  unfold RodRegs.accCleared
  dsimp only
  split
  · exact (foldl_same RodRegs.others (fun _ _ => by rfl) _ _).trans hacc
  · exact hacc

theorem accCleared_getAcc (w : RodWord) (g : RodRegs) {n : Nat} (hn : n < 16) :
    (g.accCleared w).getAcc n = if bit w.imm n then {} else g.getAcc n := by
  have hacc : ((idxs 16 fun c => bit w.imm c).foldl (fun g c => g.setAcc c {}) g).getAcc n = if bit w.imm n then {} else g.getAcc n := by
    refine (foldl_setAcc (fun _ _ => {}) (idxs_nodup 16 _) g n).trans ?_
    simp [mem_idxs, hn]
  unfold RodRegs.accCleared
  dsimp only
  split
  · exact (foldl_same (fun g : RodRegs => g.getAcc n) (fun _ _ => by rfl) _ _).trans hacc
  · exact hacc

theorem accCleared_getD (w : RodWord) (g : RodRegs) {n : Nat} (hn : n < 8) :
    (g.accCleared w).getD n = if bit w.imm 16 then 0 else g.getD n := by
  unfold RodRegs.accCleared
  dsimp only
  split
  · exact (foldl_at RodRegs.getD _ (fun _ _ => 0) (fun g c k => setD_getD ..) List.nodup_range _ n).trans (if_pos (List.mem_range.2 hn))
  · exact foldl_same (fun g : RodRegs => g.getD n) (fun _ _ => by rfl) _ g

/-! ### Spilling and adding records (R181) -/

theorem cellRead_congr {m m' : List Host.Cell} {off n : Nat} (h : ∀ x, off ≤ x → x < off + n → cellGet m x = cellGet m' x) :
    cellRead m off n = cellRead m' off n :=
  List.map_congr_left fun k hk => h _ (by omega) (by have := List.mem_range.1 hk; omega)

/-- The state after the first `n` records of a spill. -/
def State.spilled (u : State) (i a : Nat) (g : RodRegs) (n : Nat) : State :=
  (List.range n).foldl (fun x k => x.scratchWrite i (a + 128 * k) (g.getAcc k).record (g.getAcc k).poison) u

theorem spilled_succ (u : State) (i a : Nat) (g : RodRegs) (n : Nat) : u.spilled i a g (n + 1) =
    (u.spilled i a g n).scratchWrite i (a + 128 * n) (g.getAcc n).record (g.getAcc n).poison := by
  unfold State.spilled
  rw [List.range_succ, List.foldl_append]
  rfl

/-- The records of a spill stand in scratch, and no other byte changes. -/
theorem spilled_spec {u : State} {i : Nat} (a : Nat) (g : RodRegs) (h : u.checkOf i = none) (n : Nat) :
    (u.spilled i a g n).checkOf i = none ∧ (u.spilled i a g n).mem = u.mem ∧
      (∀ k, k < n → cellRead ((u.spilled i a g n).rod i).scratch (a + 128 * k) 128 = (g.getAcc k).record) ∧
      ∀ b, b < a ∨ a + 128 * n ≤ b → cellGet ((u.spilled i a g n).rod i).scratch b = cellGet (u.rod i).scratch b := by
  induction n with
  | zero => exact ⟨h, rfl, fun k hk => absurd hk (Nat.not_lt_zero k), fun _ _ => rfl⟩
  | succ n ih =>
    obtain ⟨hcheck, hmem, hread, hother⟩ := ih
    obtain ⟨hrod, -, hmem', hcheck'⟩ := scratchWrite_unchecked (a + 128 * n) (g.getAcc n).record (g.getAcc n).poison hcheck
    obtain ⟨hback, -, hstand⟩ := Rod.write_reads ((u.spilled i a g n).rod i) (a + 128 * n) (g.getAcc n).record
      ((g.getAcc n).poison || ((u.spilled i a g n).rod i).poisonTile)
    rw [Acc.length_record] at hback hstand
    rw [spilled_succ]
    refine ⟨hcheck', hmem'.trans hmem, fun k hk => ?_, fun b hb => ?_⟩ <;> rw [hrod]
    · by_cases hkn : k = n
      · rw [hkn]
        exact hback
      · have hlt : k < n := by omega
        rw [← hread k hlt]
        exact cellRead_congr fun x h1 h2 => hstand x (by omega)
    · rw [hstand b (by omega)]
      exact hother b (by omega)

/-- The accumulators with records added (R181). -/
def RodRegs.accAdded (l : List Acc) (g : RodRegs) : RodRegs :=
  (List.range 16).foldl (fun g c => g.setAcc c ((g.getAcc c).merge (l.getD c {}))) g

theorem accAdded_spec (l : List Acc) (g : RodRegs) : (∀ n, n < 16 → (g.accAdded l).getAcc n = (g.getAcc n).merge (l.getD n {})) ∧
    (g.accAdded l).others = g.others ∧ (g.accAdded l).d = g.d :=
  ⟨fun n hn => (foldl_setAcc (fun c x => x.merge (l.getD c {})) List.nodup_range g n).trans (if_pos (List.mem_range.2 hn)),
    foldl_same RodRegs.others (fun _ _ => by rfl) _ g,
    foldl_same RodRegs.d (fun _ _ => by rfl) _ g⟩

/-! ### The rows -/

/-- What ACC_SPILL does once its place is good. -/
def accSpillDid (i : Nat) (w : RodWord) (s : State) (r : Rod) : Did :=
  .done (if bit w.imm 0 then (s.spilled i (r.regs.getS w.a) r.regs 16).setRegs i fun g => { g with acc := [], eAcc := 0 }
    else s.spilled i (r.regs.getS w.a) r.regs 16) 0 none

theorem accSpill_row (i : Fin 544) (w : RodWord) (s : State) : exec (.accSpill i w) s = .next (s.rodIssue i 0x23 w fun s r =>
    legal w (w.d + w.b + w.fa + w.fb + w.imm / 2) (scratchAct w 2048 128 true (accSpillDid i w) s r)) := by
  show execAccSpill i w s = _
  unfold execAccSpill rodRow
  refine congrArg (fun act => (.next (s.rodIssue i 0x23 w act) : Outcome)) ?_
  funext s r
  unfold scratchAct scratchDid
  dsimp only
  generalize r.scratchFault (r.regs.getS w.a) 2048 128 true = x
  cases x <;> rfl

/-- What ACC_ADDREC does once its place is good. -/
def accAddrecDid (i : Nat) (w : RodWord) (s : State) (r : Rod) : Did :=
  match r.records (r.regs.getS w.a) with
  | none => .fault 1
  | some l => s.didRegs i (RodRegs.accAdded l)

theorem accAddrec_row (i : Fin 544) (w : RodWord) (s : State) : exec (.accAddrec i w) s = .next (s.rodIssue i 0x24 w fun s r =>
    legal w (w.d + w.b + w.fa + w.fb + w.imm) (scratchAct w 2048 128 false (accAddrecDid i w) s r)) := by
  show execAccAddrec i w s = _
  unfold execAccAddrec rodRow
  refine congrArg (fun act => (.next (s.rodIssue i 0x24 w act) : Outcome)) ?_
  funext s r
  unfold scratchAct scratchDid accAddrecDid
  dsimp only
  generalize r.scratchFault (r.regs.getS w.a) 2048 128 false = x
  cases x with
  | some c => rfl
  | none =>
    dsimp only
    cases r.records (r.regs.getS w.a) <;> rfl

/-- ACC_CLEAR. -/
theorem accClear_issues {s u : State} {i : Fin 544} {w : RodWord} (h : s.Issues i 0x20 w u) :
    (w.rsv + (w.d + w.a + w.b + w.fa + w.fb + w.imm / 2 ^ 17) = 0 →
      exec (.accClear i w) s = .next (u.ran i ((s.fetched i).rod i).ctx (RodRegs.accCleared w))) ∧
    (w.rsv + (w.d + w.a + w.b + w.fa + w.fb + w.imm / 2 ^ 17) ≠ 0 → exec (.accClear i w) s = .next (u.rodFault i 1)) :=
  idleRow_issues (row := .accClear) h rfl rfl

/-- The operands of an MMV. -/
def RodRegs.mmvOf (g : RodRegs) (w : RodWord) : Mmv :=
  { a := g.getS w.a, b := g.getS w.b, fa := w.fa, fb := w.fb, k := min (mmvK w.fa) (mmvK w.fb), mx := bit w.imm 16
    scale := if bit w.imm 16 then g.getS w.d else 0 }

/-- The scratch an MMV reads, checked. -/
def State.mmvRead (u : State) (i : Nat) (m : Mmv) (n : Nat) : State :=
  let sa := elemSpan m.a m.fa 0 (n * m.k)
  let sb := elemSpan m.b m.fb 0 (n * m.k * mmvColumns m.fa)
  let x := (u.checkScratch i sa.1 sa.2).checkScratch i sb.1 sb.2
  if m.mx then x.checkScratch i m.scale (32 * ((n - 1) * m.k / 32) + 32) else x

/-- MMV: illegal fields, a poisoned address, bounds and alignment, and else the products. -/
theorem mmv_issues {s u : State} {i : Fin 544} {w : RodWord} (h : s.Issues i 0x21 w u) :
    let g := (u.rod i).regs
    let c := ((s.fetched i).rod i).ctx
    let n := w.imm % 65536
    let m := g.mmvOf w
    let poisoned := bit g.pS w.a || bit g.pS w.b || (bit w.imm 16 && bit g.pS w.d)
    let y := u.mmvRead i m n
    let z := (y.rod i).mmv m n
    (mmvOk w = false → exec (.mmv i w) s = .next (u.rodFault i 1)) ∧
    (mmvOk w = true → poisoned = true → exec (.mmv i w) s = .next (u.rodPoison i)) ∧
    (mmvOk w = true → poisoned = false → ∀ code, mmvFault m n = some code → exec (.mmv i w) s = .next (u.rodFault i code)) ∧
    (mmvOk w = true → poisoned = false → mmvFault m n = none → exec (.mmv i w) s =
      .next (((y.setRegs i fun _ => z.1).tally .frm (rodFrame i) 0x31 0 n (some c)).ran i c id z.2)) := by
  intro g c n m poisoned y z
  have hrow : exec (.mmv i w) s = .next (u.did i c (if !mmvOk w then .fault 1 else if poisoned then .poison else
      match mmvFault m n with
      | some c => .fault c
      | none => .done ((y.setRegs i fun _ => z.1).tally .frm (rodFrame i) 0x31 0 n (some (u.rod i).ctx)) z.2 none)) :=
    congrArg Host.Outcome.next (rodIssue_of_issues h rfl _)
  rw [hrow]
  refine ⟨fun hok => ?_, fun hok hp => ?_, fun hok hp code hcode => ?_, fun hok hp hnone => ?_⟩
  · rw [if_pos (by rw [hok]; rfl), did_fault]
  · rw [if_neg (by rw [hok]; decide), if_pos hp, did_poison]
  · rw [if_neg (by rw [hok]; decide), if_neg (by rw [hp]; decide), hcode]
    rfl
  · rw [if_neg (by rw [hok]; decide), if_neg (by rw [hp]; decide), hnone, ctx_of_issues h]
    exact congrArg _ (did_done ..)

/-- ACC_DRAIN: illegal fields, D0–D7 copied, or every accumulator rounded. -/
theorem accDrain_issues {s u : State} {i : Fin 544} {w : RodWord} (h : s.Issues i 0x22 w u) :
    let r := u.rod i
    let g := r.regs
    let c := ((s.fetched i).rod i).ctx
    let mode := immMode w.imm
    let x := u.tally .frm (rodFrame i) 0x32 0 1 (some c)
    let rs := (List.range 16).map fun k => drainColumn w.fb mode (immSat w.imm)
      (if mode = 5 then u.rodDraw r (immGen w.imm) k else 0) (g.getAcc k)
    (drainOk w = false ∨ drawSpent g mode = true → exec (.accDrain i w) s = .next (u.rodFault i 1)) ∧
    (drainOk w = true → drawSpent g mode = false →
      (w.fa = 0xE → exec (.accDrain i w) s = .next (x.ran i c fun g =>
        g.setV w.d (elems 64 ((List.range 8).map g.getD)) (g.pD % 256 != 0))) ∧
      (w.fa ≠ 0xE → exec (.accDrain i w) s = .next (x.ran i c (fun g =>
        let g := (g.setV w.d (elems (fmtWidth w.fb) (rs.map (·.code))) ((List.range 16).any fun k => (r.regs.getAcc k).poison)).drew mode
        if bit w.imm 7 then g else { g with acc := [], eAcc := 0 }) (rs.foldl (fun e x => Nat.lor e x.ev) 0)))) := by
  intro r g c mode x rs
  have hctx : u.tally .frm (rodFrame i) 0x32 0 1 (some r.ctx) = x := by
    rw [show r.ctx = c from ctx_of_issues h]
  have hrow : exec (.accDrain i w) s = .next (u.did i c (if !drainOk w || drawSpent g mode then .fault 1 else
      let s := u.tally .frm (rodFrame i) 0x32 0 1 (some r.ctx)
      if w.fa = 0xE then
        s.didRegs i fun g => g.setV w.d (elems 64 ((List.range 8).map g.getD)) (g.pD % 256 != 0)
      else
        let (v, ev, p) := s.drain r w
        s.didRegs i (fun g =>
          let g := (g.setV w.d v p).drew (immMode w.imm)
          if bit w.imm 7 then g else { g with acc := [], eAcc := 0 }) ev)) :=
    congrArg Host.Outcome.next (rodIssue_of_issues h rfl _)
  have hdrain : x.drain r w = u.drain r w := by
    obtain ⟨y, hy⟩ := u.tally_eq .frm (rodFrame i) 0x32 0 1 (some c)
    rw [show x = _ from hy]
    rfl
  rw [hrow, hctx]
  dsimp only
  rw [hdrain]
  refine ⟨fun hbad => ?_, fun hok hd => ⟨fun hf => ?_, fun hf => ?_⟩⟩
  · rw [if_pos (by rcases hbad with h | h <;> rw [h] <;> simp), did_fault]
  · rw [if_neg (by rw [hok, hd]; decide), if_pos hf]
    rfl
  · rw [if_neg (by rw [hok, hd]; decide), if_neg hf]
    rfl

/-- Settles O46: each row by the rule of issue. -/
theorem matrixInstructionsAct : Obligations.MatrixInstructionsAct := by
  unfold Obligations.MatrixInstructionsAct
  refine ⟨fun a => ⟨a.ofRecord_record, a.length_record⟩, mmv_columns, fun s i w u => ?_⟩
  intro r g a c f bad
  refine ⟨fun h => ?_, fun h => ?_, fun h => ?_, fun h hf => ?_, mmv_issues, accDrain_issues, fun h hf hp h1 h2 h3 => ?_,
    fun h hf hp h1 h2 => ?_⟩
  · obtain ⟨-, hbad⟩ := accClear_issues h
    exact ⟨hbad, fun _ hne => absurd rfl hne, fun _ hne => absurd rfl hne⟩
  · obtain ⟨hbad, hpois, hgo⟩ := scratchRow_issues h rfl (accSpill_row i w s)
    refine ⟨hbad, fun hf _ => hpois hf, fun hf _ hp => ?_⟩
    obtain ⟨hout, hmis, -⟩ := hgo hf hp
    exact ⟨fun h1 => hout (h1.imp_right fun hc => ⟨rfl, hc.2⟩), fun h1 h2 => hmis h1 fun _ => h2 rfl⟩
  · obtain ⟨hbad, hpois, hgo⟩ := scratchRow_issues h rfl (accAddrec_row i w s)
    refine ⟨hbad, fun hf _ => hpois hf, fun hf _ hp => ?_⟩
    obtain ⟨hout, hmis, -⟩ := hgo hf hp
    exact ⟨fun h1 => hout (h1.imp_right fun hc => absurd hc.1 (by decide)), fun h1 _ => hmis h1 fun hw => absurd hw (by decide)⟩
  · obtain ⟨hok, -⟩ := accClear_issues h
    have hoth := accCleared_others w g
    simp only [RodRegs.others, Prod.mk.injEq] at hoth
    exact ⟨_, hok hf, fun n hn => accCleared_getAcc w g hn, fun n hn => accCleared_getD w g hn, hoth⟩
  · obtain ⟨-, -, hgo⟩ := scratchRow_issues h rfl (accSpill_row i w s)
    obtain ⟨-, -, hin⟩ := hgo hf hp
    intro x
    refine ⟨(hin h1 (fun _ => h2) h3).trans (congrArg _ ?_), fun hc => ?_⟩
    · refine (did_done ..).trans ?_
      split
      · rw [ran_setRegs]
        rfl
      · rfl
    · obtain ⟨-, hmem, hread, hother⟩ := spilled_spec a g hc 16
      exact ⟨hmem, hread, fun b hb => hother b (by omega)⟩
  · obtain ⟨-, -, hgo⟩ := scratchRow_issues h rfl (accAddrec_row i w s)
    obtain ⟨-, -, hin⟩ := hgo hf hp
    have hexec := hin h1 (fun hw => absurd hw (by decide)) h2
    unfold accAddrecDid at hexec
    refine ⟨fun hn => ?_, fun l hl => ⟨RodRegs.accAdded l, ?_, ?_⟩⟩
    · rw [hexec, hn]
      rfl
    · rw [hexec, hl]
      rfl
    · obtain ⟨hacc, hoth, hd⟩ := accAdded_spec l g
      simp only [RodRegs.others, Prod.mk.injEq] at hoth
      obtain ⟨hs, hv, hstep, -, -⟩ := hoth
      exact ⟨hacc, hs, hv, hd, hstep⟩

end Sys2Proof.Machine
end

section
/-!
Vector instructions of the rods (R172, R173, R185, R196, R202, R208–R212, R220–R227, R295).
-/

namespace Sys2Proof.Machine

/-! ### Elements and lanes (Table 9.2) -/

theorem elems_lt (w : Nat) (l : List Nat) : elems w l < 2 ^ (w * l.length) := by
  induction l with
  | nil => simp [elems]
  | cons x l ih =>
    have hx : x % 2 ^ w < 2 ^ w := Nat.mod_lt _ (by positivity)
    calc x % 2 ^ w + 2 ^ w * elems w l < 2 ^ w + 2 ^ w * elems w l := by omega
      _ = 2 ^ w * (elems w l + 1) := by ring
      _ ≤ 2 ^ w * 2 ^ (w * l.length) := Nat.mul_le_mul_left _ ih
      _ = 2 ^ (w * (x :: l).length) := by rw [← pow_add, List.length_cons]; congr 1; ring

/-- An element laid into a bit string is read back. -/
theorem elem_elems (w : Nat) (l : List Nat) {n : Nat} (h : n < l.length) : elem (elems w l) w n = l.getD n 0 % 2 ^ w := by
  induction l generalizing n with
  | nil => exact absurd h (Nat.not_lt_zero n)
  | cons x l ih =>
    have hpos : 0 < 2 ^ w := by positivity
    cases n with
    | zero =>
      unfold elem elems
      rw [Nat.mul_zero, Nat.pow_zero, Nat.div_one, Nat.add_mul_mod_self_left, Nat.mod_mod]
      rfl
    | succ n =>
      have hdiv : elems w (x :: l) / 2 ^ w = elems w l := by
        rw [show elems w (x :: l) = x % 2 ^ w + 2 ^ w * elems w l from rfl, Nat.add_mul_div_left _ _ hpos, Nat.div_eq_of_lt (Nat.mod_lt _ hpos), Nat.zero_add]
      have hstep : elem (elems w (x :: l)) w (n + 1) = elem (elems w l) w n := by
        unfold elem
        rw [Nat.mul_add, Nat.mul_one, Nat.add_comm (w * n) w, pow_add, ← Nat.div_div_eq_div_mul, hdiv]
      rw [hstep, ih (Nat.lt_of_succ_lt_succ h)]
      rfl

/-- The lanes of a register that elements were laid into. -/
theorem lanes_elems (f n : Nat) (l : List Nat) (hn : n < l.length) (hl : l.length ≤ 1024 / fmtWidth f) :
    (lanes f (elems (fmtWidth f) l % 2 ^ 1024)).getD n 0 = l.getD n 0 % 2 ^ fmtWidth f := by
  have hfit : fmtWidth f * l.length ≤ 1024 := (Nat.mul_le_mul_left _ hl).trans (Nat.mul_div_le ..)
  rw [Nat.mod_eq_of_lt ((elems_lt _ l).trans_le (Nat.pow_le_pow_right (by omega) hfit)), ← elem_elems _ l hn]
  unfold lanes
  rw [List.getD_eq_getElem?_getD, List.getElem?_map, List.getElem?_range (by omega)]
  rfl

/-! ### Outgoing writes (R295, R298) -/

theorem setCheck_setCheck (s : State) (f : Nat) (a b : Option Check) : (s.setCheck f a).setCheck f b = s.setCheck f b := by
  unfold State.setCheck
  rw [setFrame_setFrame, setFrame_frame, if_pos rfl]

theorem check_of_checkOf {s : State} {i : Nat} {k : Check} (h : s.checkOf i = some k) :
    (s.frame (rodFrame i)).check = some k ∧ k.phase = 1 ∧ s.physRod (rodFrame i) k.logical = i := by
  unfold State.checkOf at h
  split at h
  · rename_i k' hk
    split at h
    · rename_i hc
      cases h
      exact ⟨hk, hc⟩
    · cases h
  · cases h

theorem runsVote_of_st {s : State} {i : Nat} (h : (s.rod i).st ≠ .checking) : s.runsVote i = false := by
  unfold State.runsVote
  simp [h]

/-- A write of a checked tile is counted. -/
theorem noteWrite_checked {s : State} {i : Nat} {k : Check} (addr : Nat) (b : List Byte) (p : Bool) (h : s.checkOf i = some k) :
    s.noteWrite i addr b p = s.setCheck (rodFrame i) (some { k with made := k.made + 1 }) := by
  obtain ⟨hk, -, -⟩ := check_of_checkOf h
  unfold State.noteWrite
  dsimp only
  rw [hk]
  exact if_pos (by rw [h]; rfl)

/-- A write of a rod that neither has writes to skip nor is a vote's third: performed, or held under its check. -/
theorem outgoing_cases (u : State) (i addr : Nat) (o : OutWrite) (b : List Byte) (p : Bool) :
    let f := rodFrame i
    let r := u.rod i
    let x := u.setRod i { r with writes := r.writes + 1 }
    r.skip ≤ r.writes → r.st ≠ .checking →
      ((u.frame f).check = none → u.outgoing i addr o b p = x.perform f o) ∧
      (∀ k, u.checkOf i = some k → u.outgoing i addr o b p =
        x.setCheck f (some { k with made := k.made + 1, held := k.held ++ [(k.made + 1, o)] })) := by
  intro f r x hskip hst
  have hgo (y : State) (hy : y.rod i = { r with writes := r.writes + 1 }) :
      ¬(r.writes < r.skip ∨ y.runsVote i = true ∨ r.st = .checking) := by
    rw [runsVote_of_st (by rw [hy]; exact hst)]
    simp [hst]
    omega
  refine ⟨fun hnone => ?_, fun k hk => ?_⟩
  · have hnote : u.noteWrite i addr b p = u := by
      unfold State.noteWrite
      dsimp only
      rw [hnone]
    have hcheck : x.checkOf i = none := by
      rw [setRod_checkOf]
      unfold State.checkOf
      rw [hnone]
    unfold State.outgoing
    rw [hnote]
    dsimp only
    refine (if_neg (hgo x (setRod_rod_same ..))).trans ?_
    rw [hcheck]
  · obtain ⟨-, hphase, hphys⟩ := check_of_checkOf hk
    have hcheck : ((u.setCheck f (some { k with made := k.made + 1 })).setRod i { r with writes := r.writes + 1 }).checkOf i =
        some { k with made := k.made + 1 } := by
      rw [setRod_checkOf, setCheck_checkOf]
      exact if_pos ⟨hphase, hphys⟩
    unfold State.outgoing
    rw [noteWrite_checked _ _ _ hk]
    dsimp only
    refine (if_neg (hgo _ (setRod_rod_same ..))).trans ?_
    rw [show ((u.setCheck (rodFrame i) (some { k with made := k.made + 1 })).rod i) = r from rfl, hcheck]
    exact setCheck_setCheck x f _ _

/-! ### Loads and stores -/

theorem vld_row (i : Fin 544) (w : RodWord) (s : State) : exec (.vld i w) s = .next (s.rodIssue i 0x40 w fun s r =>
    legal w (w.b + w.fa + w.fb + w.imm) (scratchAct w 128 128 false (fun s r =>
      s.didRegs i fun g => g.setV w.d (leNat (r.read (r.regs.getS w.a) 128).1) (r.read (r.regs.getS w.a) 128).2) s r)) := rfl

theorem vst_row (i : Fin 544) (w : RodWord) (s : State) : exec (.vst i w) s = .next (s.rodIssue i 0x41 w fun s r =>
    legal w (w.d + w.fa + w.fb + w.imm) (scratchAct w 128 128 true (fun s r =>
      .done (s.scratchWrite i (r.regs.getS w.a) (leBytes 128 (r.regs.getV w.b)) (bit r.regs.pV w.b)) 0 none) s r)) := rfl

/-- A row that accesses the frame buffer at S[A]: unused fields, then a poisoned address. -/
theorem frameRow_issues {s u : State} {i : Fin 544} {op : Nat} {w : RodWord} {row : Fin 544 → RodWord → Instr}
    (h : s.Issues i op w u) (hop : rodOpcodes.contains op = true) {unused : Nat} {go : State → Rod → Did}
    (hrow : exec (row i w) s = .next (s.rodIssue i op w fun s r => legal w unused (if bit r.regs.pS w.a then .poison else go s r))) :
    (w.rsv + unused ≠ 0 → exec (row i w) s = .next (u.rodFault i 1)) ∧
    (w.rsv + unused = 0 → bit (u.rod i).regs.pS w.a = true → exec (row i w) s = .next (u.rodPoison i)) ∧
    (w.rsv + unused = 0 → bit (u.rod i).regs.pS w.a = false →
      exec (row i w) s = .next (u.did i ((s.fetched i).rod i).ctx (go u (u.rod i)))) := by
  obtain ⟨hbad, hok⟩ := legalRow_issues h hop unused fun s r => if bit r.regs.pS w.a then .poison else go s r
  rw [hrow]
  refine ⟨fun hf => congrArg _ (hbad hf), fun hf hp => ?_, fun hf hp => ?_⟩ <;> rw [hok hf]
  · rw [if_pos hp, did_poison]
  · rw [if_neg (by rw [hp]; decide)]

/-- What VLDF does once its address is good. -/
def vldfDid (i : Nat) (w : RodWord) (s : State) (r : Rod) : Did :=
  match s.rehear i with
  | some (s, b, p) => s.didRegs i fun g => g.setV w.d (leNat b) p
  | none =>
    let x := if (s.checkOf i).isSome then s.followAll (rodFrame i) else s
    match x.fbOpen (rodFrame i) r.ctx (r.regs.getS w.a) 128 with
    | (_, .bounds) => .fault 4
    | (_, .wait) => .stall
    | (s, .open_ o) =>
      let s := s.checkFb (rodFrame i) o 128
      (s.hear i ((s.frame (rodFrame i)).read o 128).1 ((s.frame (rodFrame i)).read o 128).2).didRegs i fun g =>
        g.setV w.d (leNat ((s.frame (rodFrame i)).read o 128).1) ((s.frame (rodFrame i)).read o 128).2

/-- What VSTF does once its address is good. -/
def vstfDid (i : Nat) (w : RodWord) (s : State) (r : Rod) : Did :=
  match s.fbOpen (rodFrame i) r.ctx (r.regs.getS w.a) 128 with
  | (_, .bounds) => .fault 4
  | (_, .wait) => .stall
  | (s, .open_ o) =>
    let b := leBytes 128 (r.regs.getV w.b)
    let p := bit r.regs.pV w.b || r.poisonTile
    .done (s.outgoing i o (.fb o b p) b p) 0 none

theorem vldf_row (i : Fin 544) (w : RodWord) (s : State) : exec (.vldf i w) s = .next (s.rodIssue i 0x42 w fun s r =>
    legal w (w.b + w.fa + w.fb + w.imm) (if bit r.regs.pS w.a then .poison else vldfDid i w s r)) := rfl

theorem vstf_row (i : Fin 544) (w : RodWord) (s : State) : exec (.vstf i w) s = .next (s.rodIssue i 0x43 w fun s r =>
    legal w (w.d + w.fa + w.fb + w.imm) (if bit r.regs.pS w.a then .poison else vstfDid i w s r)) := rfl

theorem vldf_issues {s u : State} {i : Fin 544} {w : RodWord} (h : s.Issues i 0x42 w u)
    (hf : w.rsv + (w.b + w.fa + w.fb + w.imm) = 0) (hp : bit (u.rod i).regs.pS w.a = false) :
    let r := u.rod i
    let a := r.regs.getS w.a
    let c := ((s.fetched i).rod i).ctx
    let f := rodFrame i
    (∀ x b p, u.rehear i = some (x, b, p) → exec (.vldf i w) s = .next (x.ran i c fun g => g.setV w.d (leNat b) p)) ∧
    (u.rehear i = none → ∀ y, let x := if (u.checkOf i).isSome then u.followAll f else u
      (x.fbOpen f r.ctx a 128 = (y, .bounds) → exec (.vldf i w) s = .next (u.rodFault i 4)) ∧
      (x.fbOpen f r.ctx a 128 = (y, .wait) → exec (.vldf i w) s = .next u) ∧
      (∀ o, x.fbOpen f r.ctx a 128 = (y, .open_ o) →
        let z := y.checkFb f o 128
        let d := (z.frame f).read o 128
        exec (.vldf i w) s = .next ((z.hear i d.1 d.2).ran i c fun g => g.setV w.d (leNat d.1) d.2))) := by
  intro r a c f
  obtain ⟨-, -, hgo⟩ := frameRow_issues h rfl (vldf_row i w s)
  rw [hgo hf hp]
  unfold vldfDid
  refine ⟨fun x b p hx => ?_, fun hnone y => ⟨fun hy => ?_, fun hy => ?_, fun o hy => ?_⟩⟩
  · rw [hx]
    rfl
  · rw [hnone]
    dsimp only
    rw [hy]
    rfl
  · rw [hnone]
    dsimp only
    rw [hy]
    rfl
  · rw [hnone]
    dsimp only
    rw [hy]
    rfl

theorem vstf_issues {s u : State} {i : Fin 544} {w : RodWord} (h : s.Issues i 0x43 w u)
    (hf : w.rsv + (w.d + w.fa + w.fb + w.imm) = 0) (hp : bit (u.rod i).regs.pS w.a = false) (y : State) :
    let r := u.rod i
    let a := r.regs.getS w.a
    let f := rodFrame i
    let b := leBytes 128 (r.regs.getV w.b)
    let p := bit r.regs.pV w.b || r.poisonTile
    (u.fbOpen f r.ctx a 128 = (y, .bounds) → exec (.vstf i w) s = .next (u.rodFault i 4)) ∧
    (u.fbOpen f r.ctx a 128 = (y, .wait) → exec (.vstf i w) s = .next u) ∧
    (∀ o, u.fbOpen f r.ctx a 128 = (y, .open_ o) → exec (.vstf i w) s =
      .next ((y.outgoing i o (.fb o b p) b p).ran i ((s.fetched i).rod i).ctx id)) := by
  intro r a f b p
  obtain ⟨-, -, hgo⟩ := frameRow_issues h rfl (vstf_row i w s)
  rw [hgo hf hp]
  unfold vstfDid
  refine ⟨fun hy => ?_, fun hy => ?_, fun o hy => ?_⟩
  · rw [hy]
    rfl
  · rw [hy]
    rfl
  · rw [hy]
    exact congrArg _ (did_done ..)

/-! ### Lane arithmetic (R220–R224) -/

/-- The arithmetic rows. -/
theorem vectorArith_issues {s u : State} {i : Fin 544} {op : Nat} {w : RodWord} (h : s.Issues i op w u)
    (hop : rodOpcodes.contains op = true) (readsD : Bool) (f : Nat → Num → Num → Num → Num) :
    let g := (u.rod i).regs
    let mode := immMode w.imm
    let legal := w.rsv + w.fb = 0 ∧ arithFormat w.fa = true ∧ roundImmOk w.imm = true ∧ immOp w.imm = 0 ∧ drawSpent g mode = false
    let y := u.arith (u.rod i) w readsD f
    (¬legal → s.rodIssue i op w (vectorArith readsD f i w) = u.rodFault i 1) ∧
    (legal → s.rodIssue i op w (vectorArith readsD f i w) = u.ran i ((s.fetched i).rod i).ctx (fun g' =>
      (g'.setV w.d y.1 (bit g.pV w.a || bit g.pV w.b || (readsD && bit g.pV w.d))).drew mode) y.2) := by
  intro g mode legal y
  rw [rodIssue_of_issues h hop]
  unfold vectorArith
  refine ⟨fun hno => ?_, fun ⟨h1, h2, h3, h4, h5⟩ => ?_⟩
  · rw [if_pos ?_, did_fault]
    by_contra hc
    simp only [not_or, not_not, Bool.not_eq_false, Bool.not_eq_true] at hc
    obtain ⟨h1, h2, h3, h4, h5⟩ := hc
    exact hno ⟨h1, h2, h3, h4, h5⟩
  · rw [if_neg ?_]
    · exact ran_congr _ _ _ rfl
    · rintro (h | h | h | h | h)
      · exact h h1
      · rw [h2] at h; cases h
      · rw [h3] at h; cases h
      · exact h h4
      · rw [show drawSpent (u.rod i).regs (immMode w.imm) = false from h5] at h; cases h

/-- The lane rows, which do not round. -/
theorem vectorLanes_issues {s u : State} {i : Fin 544} {op : Nat} {w : RodWord} (h : s.Issues i op w u)
    (hop : rodOpcodes.contains op = true) {ops : Nat} (hops : ops ≤ 8) (readsD : Bool) (f : Nat → Nat → Nat → Nat) :
    let g := (u.rod i).regs
    let codes (n : Nat) : List Nat := (lanes w.fa (g.getV n)).map (laneCode w.fa)
    let va := codes w.a
    let vb := codes w.b
    let vd := codes w.d
    (w.rsv + w.fb ≠ 0 ∨ 15 ≤ w.fa ∨ ops ≤ w.imm → s.rodIssue i op w (fun s _ => vectorLanes ops readsD f i w s) = u.rodFault i 1) ∧
    (w.rsv + w.fb = 0 → w.fa < 15 → w.imm < ops → s.rodIssue i op w (fun s _ => vectorLanes ops readsD f i w s) =
      u.ran i ((s.fetched i).rod i).ctx fun g' =>
        g'.setV w.d (elems (fmtWidth w.fa) ((List.range va.length).map fun k => f (vd.getD k 0) (va.getD k 0) (vb.getD k 0)))
          (bit g.pV w.a || bit g.pV w.b || (readsD && bit g.pV w.d))) := by
  intro g codes va vb vd
  rw [rodIssue_of_issues h hop]
  unfold vectorLanes immOp
  refine ⟨fun hbad => ?_, fun h1 h2 h3 => ?_⟩
  · rw [if_pos (by omega), did_fault]
  · rw [if_neg (by omega)]
    exact ran_congr _ _ _ rfl

/-- VSHUF. -/
theorem vshuf_issues {s u : State} {i : Fin 544} {w : RodWord} (h : s.Issues i 0x54 w u) :
    let r := u.rod i
    let va := (lanes w.fa (r.regs.getV w.a)).map (laneCode w.fa)
    (w.rsv ≠ 0 ∨ 15 ≤ w.fa ∨ 15 ≤ w.fb ∨ w.imm ≠ 0 → exec (.vshuf i w) s = .next (u.rodFault i 1)) ∧
    (w.rsv = 0 → w.fa < 15 → w.fb < 15 → w.imm = 0 → exec (.vshuf i w) s = .next (u.ran i ((s.fetched i).rod i).ctx fun g =>
      g.setV w.d (elems (fmtWidth w.fa) ((List.range va.length).map fun k =>
        va.getD (Config.shuffleSource w.fa w.fb w.b 0 (r.regs.getV w.b) k % va.length) 0))
        (bit r.regs.pV w.a || (Config.shuffleReadsB && bit r.regs.pV w.b)))) := by
  intro r va
  have hrow : exec (.vshuf i w) s = .next (u.did i ((s.fetched i).rod i).ctx
      (if w.rsv ≠ 0 ∨ 0xF ≤ w.fa ∨ 0xF ≤ w.fb ∨ w.imm ≠ 0 then .fault 1
       else u.didRegs i fun g => g.setV w.d (elems (fmtWidth w.fa) ((List.range va.length).map fun k =>
         va.getD (Config.shuffleSource w.fa w.fb w.b w.imm (r.regs.getV w.b) k % va.length) 0))
          (bit g.pV w.a || (Config.shuffleReadsB && bit g.pV w.b)))) :=
    congrArg Host.Outcome.next (rodIssue_of_issues h rfl _)
  rw [hrow]
  refine ⟨fun hbad => ?_, fun h1 h2 h3 h4 => ?_⟩
  · rw [if_pos hbad, did_fault]
  · rw [if_neg (by omega), h4]
    exact congrArg _ (ran_congr _ _ _ rfl)

/-! ### Reduction (R223) -/

theorem drew_of_ne {g : RodRegs} {mode : Nat} (h : mode ≠ 5) : g.drew mode = g := if_neg h

/-- Only mode 5 draws. -/
theorem drawSpent_zero (g : RodRegs) : drawSpent g 0 = false := rfl

/-- The field values VRED takes, as the model refuses the others. -/
theorem vredLegal_iff (g : RodRegs) (w : RodWord) :
    (w.rsv + w.b + w.fb ≠ 0 ∨ 0xF ≤ w.fa ∨ 1 < immOp w.imm ∨ (immOp w.imm = 0 ∧ arithFormat w.fa = false) ∨ roundImmOk w.imm = false ∨
      drawSpent g (if immOp w.imm = 0 then immMode w.imm else 0) = true) ↔
    ¬(w.rsv + w.b + w.fb = 0 ∧ w.fa < 15 ∧ roundImmOk w.imm = true ∧
      (immOp w.imm = 1 ∨ immOp w.imm = 0 ∧ arithFormat w.fa = true ∧ drawSpent g (immMode w.imm) = false)) := by
  by_cases h0 : immOp w.imm = 0
  · rw [if_pos h0, h0]
    cases arithFormat w.fa <;> cases roundImmOk w.imm <;> cases drawSpent g (immMode w.imm) <;> simp <;> omega
  · rw [if_neg h0, drawSpent_zero]
    cases roundImmOk w.imm <;> simp [h0] <;> omega

/-- VRED: the sum, rounded at every step, or the maximum. -/
theorem vred_issues {s u : State} {i : Fin 544} {w : RodWord} (h : s.Issues i 0x53 w u) :
    let r := u.rod i
    let g := r.regs
    let c := ((s.fetched i).rod i).ctx
    let mode := immMode w.imm
    let draw (k : Nat) : Nat := if mode = 5 then u.rodDraw r (immGen w.imm) k else 0
    let legal := w.rsv + w.b + w.fb = 0 ∧ w.fa < 15 ∧ roundImmOk w.imm = true ∧
      (immOp w.imm = 1 ∨ immOp w.imm = 0 ∧ arithFormat w.fa = true ∧ drawSpent g mode = false)
    let most := redTree (fun _ x y => { code := laneMax true w.fa x y }) 8 0 0 (lanes w.fa (g.getV w.a))
    let sum := redTree (fun k x y => laneArith w.fa mode (immSat w.imm) (draw k) ((decodeFmt w.fa x).isNan || (decodeFmt w.fa y).isNan)
      (addNum mode (decodeFmt w.fa x) (decodeFmt w.fa y))) 8 0 0 (lanes w.fa (g.getV w.a))
    (¬legal → exec (.vred i w) s = .next (u.rodFault i 1)) ∧
    (legal → immOp w.imm = 1 → exec (.vred i w) s = .next (u.ran i c (fun g => g.setV w.d most.1 (bit g.pV w.a)) most.2)) ∧
    (legal → immOp w.imm = 0 → exec (.vred i w) s =
      .next (u.ran i c (fun g => (g.setV w.d sum.1 (bit g.pV w.a)).drew mode) sum.2)) := by
  intro r g c mode draw legal most sum
  have hrow : exec (.vred i w) s = .next (u.did i c (
      let f := w.fa
      let sum := immOp w.imm = 0
      let mode := if sum then immMode w.imm else 0
      if w.rsv + w.b + w.fb ≠ 0 ∨ 0xF ≤ f ∨ 1 < immOp w.imm ∨ (sum ∧ arithFormat f = false) ∨ roundImmOk w.imm = false ∨
          drawSpent r.regs mode = true then .fault 1
      else
        let op (k a b : Nat) : Rounded :=
          if sum then
            let x := decodeFmt f a
            let y := decodeFmt f b
            laneArith f mode (immSat w.imm) (if mode = 5 then u.rodDraw r (immGen w.imm) k else 0) (x.isNan || y.isNan)
              (addNum mode x y)
          else { code := laneMax true f a b }
        let (v, ev) := redTree op 8 0 0 (lanes f (r.regs.getV w.a))
        u.didRegs i (fun g => (g.setV w.d v (bit g.pV w.a)).drew mode) ev)) :=
    congrArg Host.Outcome.next (rodIssue_of_issues h rfl _)
  rw [hrow]
  dsimp only
  refine ⟨fun hno => ?_, fun hyes h1 => ?_, fun hyes h0 => ?_⟩
  · rw [if_pos ((vredLegal_iff g w).2 hno), did_fault]
  · rw [if_neg (fun hc => (vredLegal_iff g w).1 hc hyes)]
    simp only [h1, one_ne_zero, if_false]
    exact congrArg _ (ran_congr _ _ _ (drew_of_ne (by decide)))
  · rw [if_neg (fun hc => (vredLegal_iff g w).1 hc hyes)]
    simp only [h0, if_true]
    rfl

/-! ### Conversions and fixed functions (R208–R212, R225–R227) -/

/-- The converting rows. -/
theorem vectorCvt_issues {s u : State} {i : Fin 544} {op : Nat} {w : RodWord} (h : s.Issues i op w u)
    (hop : rodOpcodes.contains op = true) (formats : Bool) (f : Nat → Bool → Nat → Num → Rounded) :
    let r := u.rod i
    let g := r.regs
    let mode := immMode w.imm
    let draw (k : Nat) : Nat := if mode = 5 then u.rodDraw r (immGen w.imm) k else 0
    let n := cvtLanes w.fa w.fb
    let rs := (List.range n).map fun k => f mode (immSat w.imm) (draw k)
      (decodeFmt w.fa ((lanes w.fa (g.getV w.a)).getD (n * immP w.imm + k) 0))
    let vd := lanes w.fb (g.getV w.d)
    (formats = false ∨ cvtOk w = false ∨ drawSpent g mode = true → s.rodIssue i op w (vectorCvt formats f i w) = u.rodFault i 1) ∧
    (formats = true → cvtOk w = true → drawSpent g mode = false → s.rodIssue i op w (vectorCvt formats f i w) =
      u.ran i ((s.fetched i).rod i).ctx (fun g' =>
        (g'.setV w.d (elems (fmtWidth w.fb) (vd.take (n * immQ w.imm) ++ rs.map (·.code) ++ vd.drop (n * immQ w.imm + n)))
          (bit g.pV w.a || bit g.pV w.d)).drew mode) (rs.foldl (fun e x => Nat.lor e x.ev) 0)) := by
  intro r g mode draw n rs vd
  rw [rodIssue_of_issues h hop]
  unfold vectorCvt
  refine ⟨fun hbad => ?_, fun h1 h2 h3 => ?_⟩
  · rw [if_pos hbad, did_fault]
  · rw [if_neg ?_]
    · exact ran_congr _ _ _ rfl
    · rw [h1, h2, show drawSpent (u.rod i).regs (immMode w.imm) = false from h3]
      decide

/-- Settles O47: each row by the rule of issue. -/
theorem vectorInstructionsAct : Obligations.VectorInstructionsAct := by
  unfold Obligations.VectorInstructionsAct
  refine ⟨fun f n l _ hn hl => lanes_elems f n l hn hl, outgoing_cases, fun s i w u => ?_⟩
  intro r g a c f mode sat draw load store
  refine ⟨?_, fun h hf hp => ?_, fun h hf hp => vldf_issues h hf hp, fun h hf hp => ?_, fun h hf hp y => vstf_issues h hf hp y, ?_,
    ⟨?_, vshuf_issues⟩, vred_issues, ?_⟩
  · simp only [List.forall_mem_cons, List.not_mem_nil, false_imp_iff, implies_true, and_true]
    refine ⟨fun h => ?_, fun h => ?_, fun h => ?_, fun h => ?_⟩
    · obtain ⟨hbad, hpois, -⟩ := scratchRow_issues h rfl (vld_row i w s)
      exact ⟨hbad, hpois⟩
    · obtain ⟨hbad, hpois, -⟩ := frameRow_issues h rfl (vldf_row i w s)
      exact ⟨hbad, hpois⟩
    · obtain ⟨hbad, hpois, -⟩ := scratchRow_issues h rfl (vst_row i w s)
      exact ⟨hbad, hpois⟩
    · obtain ⟨hbad, hpois, -⟩ := frameRow_issues h rfl (vstf_row i w s)
      exact ⟨hbad, hpois⟩
  · obtain ⟨-, -, hgo⟩ := scratchRow_issues h rfl (vld_row i w s)
    obtain ⟨hout, hmis, hin⟩ := hgo hf hp
    exact ⟨fun h1 => hout (Or.inl h1), fun h1 h2 => hmis h1 (fun hw => absurd hw (by decide)) h2,
      fun h1 h2 => hin h1 (fun hw => absurd hw (by decide)) h2⟩
  · obtain ⟨-, -, hgo⟩ := scratchRow_issues h rfl (vst_row i w s)
    obtain ⟨hout, hmis, hin⟩ := hgo hf hp
    exact ⟨fun h1 => hout (h1.imp_right fun hc => ⟨rfl, hc⟩), fun h1 hc h2 => hmis h1 (fun _ => hc) h2,
      fun h1 hc h2 => (hin h1 (fun _ => hc) h2).trans (congrArg _ (did_done ..))⟩
  · intro legal
    simp only [List.forall_mem_cons, List.not_mem_nil, false_imp_iff, implies_true, and_true]
    exact ⟨fun h => (vectorArith_issues h rfl _ _).imp (fun hno hl => congrArg _ (hno hl)) fun hyes hl => congrArg _ (hyes hl),
      fun h => (vectorArith_issues h rfl _ _).imp (fun hno hl => congrArg _ (hno hl)) fun hyes hl => congrArg _ (hyes hl),
      fun h => (vectorArith_issues h rfl _ _).imp (fun hno hl => congrArg _ (hno hl)) fun hyes hl => congrArg _ (hyes hl)⟩
  · simp only [List.forall_mem_cons, List.not_mem_nil, false_imp_iff, implies_true, and_true]
    refine ⟨fun h => (vectorLanes_issues h rfl (ops := 1) (by decide) _ _).imp (fun hno hl => congrArg _ (hno hl)) fun hyes h1 h2 h3 => congrArg _ (hyes h1 h2 h3),
      fun h => (vectorLanes_issues h rfl (ops := 1) (by decide) _ _).imp (fun hno hl => congrArg _ (hno hl)) fun hyes h1 h2 h3 => congrArg _ (hyes h1 h2 h3),
      fun h => ?_,
      fun h => (vectorLanes_issues h rfl (ops := 1) (by decide) _ _).imp (fun hno hl => congrArg _ (hno hl)) fun hyes h1 h2 h3 => congrArg _ (hyes h1 h2 h3)⟩
    have hrow : exec (.vcmp i w) s = .next (s.rodIssue i 0x4C w fun s _ => vectorLanes 5 false
      (fun _ a b => if laneCmp (immOp w.imm) w.fa a b then 2 ^ fmtWidth w.fa - 1 else 0) i w s) := rfl
    have hcmp := vectorLanes_issues h rfl (ops := 5) (by decide) false
      fun _ a b => if laneCmp (immOp w.imm) w.fa a b then 2 ^ fmtWidth w.fa - 1 else 0
    obtain ⟨hbad, hgo⟩ := hcmp
    refine ⟨fun hl => hrow.trans (congrArg _ (hbad hl)), fun h1 h2 h3 => hrow.trans (congrArg _ ((hgo h1 h2 h3).trans ?_))⟩
    rw [show immOp w.imm = w.imm from Nat.mod_eq_of_lt (by omega)] <;> rfl
  · simp only [List.forall_mem_cons, List.not_mem_nil, false_imp_iff, implies_true, and_true]
    exact ⟨fun h => (vectorCvt_issues h rfl _ _).imp (fun hno hl => congrArg _ (hno hl)) fun hyes h1 h2 h3 => congrArg _ (hyes h1 h2 h3),
      fun h => (vectorCvt_issues h rfl _ _).imp (fun hno hl => congrArg _ (hno hl)) fun hyes h1 h2 h3 => congrArg _ (hyes h1 h2 h3),
      fun h => (vectorCvt_issues h rfl _ _).imp (fun hno hl => congrArg _ (hno hl)) fun hyes h1 h2 h3 => congrArg _ (hyes h1 h2 h3)⟩

end Sys2Proof.Machine
end

section
/-!
Streams and tiles (R172, R235–R238, R288, R296, R298).
-/

namespace Sys2Proof.Machine

/-! ### Cursors -/

/-- The registers with a cursor changed. -/
def RodRegs.moved (sid : Nat) (f : Cursor → Cursor) (g : RodRegs) : RodRegs :=
  { g with cursors := tblPut g.cursors sid (f (tblGet g.cursors sid {})) }

theorem setCursor_eq (s : State) (i sid : Nat) (f : Cursor → Cursor) : s.setCursor i sid f = s.setRegs i (RodRegs.moved sid f) := rfl

/-- The cursor a stream instruction names. -/
def Rod.cursor (r : Rod) (w : RodWord) : Cursor := tblGet r.regs.cursors (w.imm % 32) {}

theorem streamOp_fault {s : State} {i : Nat} {w : RodWord} {send : Bool} {r : Rod}
    (h : s.streamOf r (w.imm % 32) send = none ∨ (r.cursor w).valid = false ∨ (r.cursor w).send ≠ send) :
    s.streamOp i w send r = .fault 8 := by
  unfold State.streamOp
  cases hs : s.streamOf r (w.imm % 32) send with
  | none => rfl
  | some x =>
    obtain ⟨j, k⟩ := x
    refine if_pos ?_
    rcases h with h | h | h
    · rw [hs] at h; cases h
    · simp [show (tblGet r.regs.cursors (w.imm % 32) {}).valid = false from h]
    · simp [show (tblGet r.regs.cursors (w.imm % 32) {}).send ≠ send from h]

theorem streamOp_ok {s : State} {i : Nat} {w : RodWord} {send : Bool} {r : Rod} {j k : Nat}
    (h : s.streamOf r (w.imm % 32) send = some (j, k)) (hvalid : (r.cursor w).valid = true) (hsend : (r.cursor w).send = send) :
    s.streamOp i w send r = if send then s.sendElement i w r j k else s.recvElement i w r j k := by
  unfold State.streamOp
  rw [h]
  refine if_neg ?_
  simp [show (tblGet r.regs.cursors (w.imm % 32) {}).valid = true from hvalid,
    show (tblGet r.regs.cursors (w.imm % 32) {}).send = send from hsend]

/-! ### SSEND (R235–R238) -/

/-- SSEND waits while the ring is full, and else writes the next element. -/
theorem sendElement_did {u : State} {i : Nat} {w : RodWord} {r : Rod} {j k : Nat} {x : Job} (c : Nat) (hx : tblGet? u.jobs j = some x) :
    let cur := r.cursor w
    ((u.stream j k).taken + x.ringSize k ≤ cur.count → u.did i c (u.sendElement i w r j k) = u.waitOn i w true) ∧
    (cur.count < (u.stream j k).taken + x.ringSize k → ∀ v f,
      (u.ringOpen j k cur.count = (v, f, .bounds) → u.did i c (u.sendElement i w r j k) = u.rodFault i 4) ∧
      (u.ringOpen j k cur.count = (v, f, .wait) → u.did i c (u.sendElement i w r j k) = u) ∧
      (∀ a, u.ringOpen j k cur.count = (v, f, .open_ a) →
        let b := leBytes 128 (r.regs.getV w.a)
        let p := bit r.regs.pV w.a || r.poisonTile
        u.did i c (u.sendElement i w r j k) = (v.outgoing i (w.imm % 32) (.stream j k cur.count b p) b p).ran i c
          (RodRegs.moved (w.imm % 32) fun c => { c with count := c.count + 1, peer := (u.stream j k).taken }))) := by
  intro cur
  have hsend : u.sendElement i w r j k = if (u.stream j k).taken + x.ringSize k ≤ cur.count then .hold (u.waitOn i w true)
      else match u.ringOpen j k cur.count with
        | (_, _, .bounds) => .fault 4
        | (_, _, .wait) => .stall
        | (s, _, .open_ _) =>
          let b := leBytes 128 (r.regs.getV w.a)
          let p := bit r.regs.pV w.a || r.poisonTile
          .done ((s.outgoing i (w.imm % 32) (.stream j k cur.count b p) b p).setCursor i (w.imm % 32) fun c =>
            { c with count := c.count + 1, peer := (u.stream j k).taken }) 0 none := by
    unfold State.sendElement
    dsimp only
    rw [hx] <;> rfl
  rw [hsend]
  refine ⟨fun h => by rw [if_pos h]; rfl, fun h v f => ?_⟩
  rw [if_neg (Nat.not_le.2 h)]
  refine ⟨fun hv => ?_, fun hv => ?_, fun a hv => ?_⟩
  · rw [hv]
    rfl
  · rw [hv]
    rfl
  · rw [hv]
    dsimp only
    rw [did_done, setCursor_eq, ran_setRegs]
    rfl

/-! ### SRECV (R235–R238, R298) -/

/-- What an SRECV writes: the element, and its cursor moved past it. -/
def State.given (y : State) (i c : Nat) (w : RodWord) (n : Nat) (b : List Byte) (p : Bool) : State :=
  y.ran i c fun g => (RodRegs.moved (w.imm % 32) (fun c => { c with count := c.count + 1, peer := n }) g).setV w.d (leNat b) p

theorem recvElement_did {u : State} {i : Nat} {w : RodWord} {r : Rod} {j k : Nat} (c : Nat) :
    let cur := r.cursor w
    let n := (u.stream j k).written
    (∀ x b p, u.rehear i = some (x, b, p) → u.did i c (u.recvElement i w r j k) = x.given i c w n b p) ∧
    (u.rehear i = none →
      (∀ m, (u.stream j k).closed = some m → m ≤ cur.count → u.did i c (u.recvElement i w r j k) =
        ((u.hear i (zeroBytes 128) true).ran i c fun g =>
          (RodRegs.moved (w.imm % 32) (fun c => { c with closed := true, peer := n }) g).setV w.d 0 true)) ∧
      ((∀ m, (u.stream j k).closed = some m → cur.count < m) →
        (n ≤ cur.count → u.did i c (u.recvElement i w r j k) = u.waitOn i w false) ∧
        (cur.count < n → ∀ v f,
          (u.ringOpen j k cur.count = (v, f, .bounds) → u.did i c (u.recvElement i w r j k) = u.rodFault i 4) ∧
          (u.ringOpen j k cur.count = (v, f, .wait) → u.did i c (u.recvElement i w r j k) = u) ∧
          (∀ a, u.ringOpen j k cur.count = (v, f, .open_ a) →
            let z := v.checkFb f a 128
            let d := (z.frame f).read a 128
            let y := z.setStream j k { z.stream j k with taken := max (u.stream j k).taken (cur.count + 1) }
            u.did i c (u.recvElement i w r j k) = (y.hear i d.1 d.2).given i c w n d.1 d.2)))) := by
  intro cur n
  have htake (t : State) (b : List Byte) (p : Bool) :
      u.did i c (.done ((t.setCursor i (w.imm % 32) fun c => { c with count := c.count + 1, peer := n }).setRegs i
        fun g => g.setV w.d (leNat b) p) 0 none) = t.given i c w n b p := by
    rw [did_done, setCursor_eq, ran_setRegs, ran_setRegs]
    rfl
  have hcur : tblGet r.regs.cursors (w.imm % 32) {} = cur := rfl
  have hn : (u.stream j k).written = n := rfl
  unfold State.recvElement
  dsimp only
  rw [hcur, hn]
  refine ⟨fun x b p hx => ?_, fun hnone => ⟨fun m hm hle => ?_, fun hopen => ?_⟩⟩
  · rw [hx]
    exact htake x b p
  · rw [hnone]
    dsimp only
    rw [if_pos (by rw [hm]; simpa using hle), did_done, setCursor_eq, ran_setRegs, ran_setRegs]
    rfl
  · have hclosed : ¬((u.stream j k).closed.any fun n => decide (n ≤ cur.count)) = true := by
      cases hc : (u.stream j k).closed with
      | none => simp
      | some m => simpa using hopen m hc
    rw [hnone]
    dsimp only
    rw [if_neg hclosed]
    refine ⟨fun h => ?_, fun h v f => ?_⟩
    · rw [if_pos h]
      rfl
    · rw [if_neg (Nat.not_le.2 h)]
      refine ⟨fun hv => ?_, fun hv => ?_, fun a hv => ?_⟩
      · rw [hv]
        rfl
      · rw [hv]
        rfl
      · rw [hv]
        exact htake _ _ _

theorem ssend_row (i : Fin 544) (w : RodWord) (s : State) : exec (.ssend i w) s = .next (s.rodIssue i 0x61 w fun s r =>
    legal w (w.d + w.b + w.fa + w.fb + w.imm / 32) (s.streamOp i w true r)) := rfl

theorem srecv_row (i : Fin 544) (w : RodWord) (s : State) : exec (.srecv i w) s = .next (s.rodIssue i 0x60 w fun s r =>
    legal w (w.a + w.b + w.fa + w.fb + w.imm / 32) (s.streamOp i w false r)) := rfl

/-! ### The end of a tile (R288, R296, R298) -/

/-- The registers at the end of a tile: DRAW 0, TILE one up. -/
def RodRegs.tileEnded (g : RodRegs) : RodRegs := RodRegs.advance { g with step := (tileField g.step + 1) % 2 ^ 44 * 2 ^ 20 } none

theorem advance_step (g : RodRegs) (pc : Option Nat) : (g.advance pc).step = g.step := by
  unfold RodRegs.advance
  dsimp only
  (repeat' split) <;> rfl

theorem tileEnded_fields (g : RodRegs) : drawField g.tileEnded.step = 0 ∧ tileField g.tileEnded.step = (tileField g.step + 1) % 2 ^ 44 := by
  unfold RodRegs.tileEnded drawField
  rw [advance_step]
  refine ⟨Nat.mul_mod_left .., ?_⟩
  show (tileField g.step + 1) % 2 ^ 44 * 2 ^ 20 / 2 ^ 20 = _
  exact Nat.mul_div_cancel _ (by positivity)

/-- A rod's registers at the end of a tile; those of one that had no majority carry poison (R299). -/
def State.tileEnded (u : State) (i : Nat) (poison : Bool) : State :=
  let x := u.setRegs i RodRegs.tileEnded
  if poison then x.setRegs i RodRegs.poisoned else x

theorem tileEnded_step (u : State) (i : Nat) (poison : Bool) : ((u.tileEnded i poison).rod i).regs.step = (u.rod i).regs.tileEnded.step := by
  unfold State.tileEnded
  dsimp only
  split
  · rw [setRegs_setRegs, setRegs_rod_same]
    rfl
  · rw [setRegs_rod_same]

/-- What a TILE_END brings. -/
def State.tileNext (y : State) (i : Nat) : State := if y.runsVote i then y.thirdEnds i else (y.checkPassed i).afterTile i

theorem tileEnd_row (i : Fin 544) (w : RodWord) (s : State) : exec (.tileEnd i w) s = .next (s.rodIssue i 0x70 w fun s r =>
    legal w (w.d + w.a + w.b + w.fa + w.fb + w.imm) (.ended ((s.tileEnded i r.poisonTile).tileNext i))) := rfl

theorem tileEnd_issues {s u : State} {i : Fin 544} {w : RodWord} (h : s.Issues i 0x70 w u) :
    let y := u.tileEnded i (u.rod i).poisonTile
    let ended (z : State) : State := z.tally .rod i 0x26 0 1 (some ((s.fetched i).rod i).ctx)
    (w.rsv + (w.d + w.a + w.b + w.fa + w.fb + w.imm) ≠ 0 → exec (.tileEnd i w) s = .next (u.rodFault i 1)) ∧
    (w.rsv + (w.d + w.a + w.b + w.fa + w.fb + w.imm) = 0 →
      (y.runsVote i = true → exec (.tileEnd i w) s = .next (ended (y.thirdEnds i))) ∧
      (y.runsVote i = false → exec (.tileEnd i w) s = .next (ended ((y.checkPassed i).afterTile i))) ∧
      drawField (y.rod i).regs.step = 0 ∧ tileField (y.rod i).regs.step = (tileField (u.rod i).regs.step + 1) % 2 ^ 44) := by
  intro y ended
  obtain ⟨hbad, hok⟩ := legalRow_issues h rfl (w.d + w.a + w.b + w.fa + w.fb + w.imm) fun s r =>
    .ended ((s.tileEnded i r.poisonTile).tileNext i)
  rw [tileEnd_row]
  refine ⟨fun hf => congrArg _ (hbad hf), fun hf => ?_⟩
  rw [hok hf, tileEnded_step]
  refine ⟨fun hv => ?_, fun hv => ?_, tileEnded_fields _⟩
  · exact congrArg (fun z => (.next (ended z) : Outcome)) (if_pos hv)
  · exact congrArg (fun z => (.next (ended z) : Outcome)) (if_neg (by rw [hv]; decide))

/-! ### HALT (R190) -/

/-- A rod's registers as HALT leaves them, its spare having caught up. -/
def State.halted (u : State) (i : Nat) : State :=
  (if (u.checkOf i).isSome then u.followAll (rodFrame i) else u).setRegs i fun g => { g.advance none with halted := true }

/-- What a HALT brings. -/
def State.haltNext (y : State) (i : Nat) : State :=
  if y.runsVote i then y.thirdEnds i
  else if (y.rod i).stopping then (y.setRod i (y.rod i).clear).tryRemoves
  else if y.wantsThird i then (y.takeThird (rodFrame i) (i % 17)).setRod i { y.rod i with st := .saving }
  else if (y.rod i).st = .toTileEnd then y.saveForSwitch i
  else y

theorem halt_row (i : Fin 544) (w : RodWord) (s : State) : exec (.halt i w) s = .next (s.rodIssue i 0x72 w fun s _ =>
    legal w (w.d + w.a + w.b + w.fa + w.fb + w.imm) (.ended ((s.halted i).haltNext i))) := rfl

theorem halt_issues {s u : State} {i : Fin 544} {w : RodWord} (h : s.Issues i 0x72 w u) :
    let y := u.halted i
    let t := y.rod i
    let ended (z : State) : State := z.tally .rod i 0x26 0 1 (some ((s.fetched i).rod i).ctx)
    (w.rsv + (w.d + w.a + w.b + w.fa + w.fb + w.imm) ≠ 0 → exec (.halt i w) s = .next (u.rodFault i 1)) ∧
    (w.rsv + (w.d + w.a + w.b + w.fa + w.fb + w.imm) = 0 →
      t.regs.halted = true ∧
      (y.runsVote i = true → exec (.halt i w) s = .next (ended (y.thirdEnds i))) ∧
      (y.runsVote i = false →
        (t.stopping = true → exec (.halt i w) s = .next (ended (y.setRod i t.clear).tryRemoves)) ∧
        (t.stopping = false → y.wantsThird i = true → exec (.halt i w) s =
          .next (ended ((y.takeThird (rodFrame i) (i % 17)).setRod i { t with st := .saving }))) ∧
        (t.stopping = false → y.wantsThird i = false → t.st = .toTileEnd → exec (.halt i w) s =
          .next (ended (y.saveForSwitch i))) ∧
        (t.stopping = false → y.wantsThird i = false → t.st ≠ .toTileEnd → exec (.halt i w) s = .next (ended y)))) := by
  intro y t ended
  obtain ⟨hbad, hok⟩ := legalRow_issues h rfl (w.d + w.a + w.b + w.fa + w.fb + w.imm) fun s _ => .ended ((s.halted i).haltNext i)
  have hfalse {b : Bool} (hb : b = false) : ¬b = true := by rw [hb]; decide
  rw [halt_row]
  refine ⟨fun hf => congrArg _ (hbad hf), fun hf => ?_⟩
  have hended {z : State} (hz : y.haltNext i = z) : (.next (u.did i ((s.fetched i).rod i).ctx (.ended (y.haltNext i))) : Outcome) = .next (ended z) :=
    congrArg (fun z => (.next (ended z) : Outcome)) hz
  rw [hok hf]
  refine ⟨?_, fun hv => hended (if_pos hv), fun hv => ⟨fun h1 => hended ?_, fun h1 h2 => hended ?_, fun h1 h2 h3 => hended ?_,
    fun h1 h2 h3 => hended ?_⟩⟩
  · exact congrArg (fun r : Rod => r.regs.halted) (setRegs_rod_same ..)
  · exact (if_neg (hfalse hv)).trans (if_pos h1)
  · exact (if_neg (hfalse hv)).trans ((if_neg (hfalse h1)).trans (if_pos h2))
  · exact (if_neg (hfalse hv)).trans ((if_neg (hfalse h1)).trans ((if_neg (hfalse h2)).trans (if_pos h3)))
  · exact (if_neg (hfalse hv)).trans ((if_neg (hfalse h1)).trans ((if_neg (hfalse h2)).trans (if_neg h3)))

/-! ### Waits (R235–R237) and what follows a tile (R296) -/

theorem checkOf_of_unchecked {u : State} {i : Nat} (h : (u.frame (rodFrame i)).check = none) : u.checkOf i = none := by
  unfold State.checkOf
  rw [h]

/-- A running rod of no check waits, and nothing else. -/
theorem waitOn_running {u : State} {i : Nat} (w : RodWord) (send : Bool) (hc : (u.frame (rodFrame i)).check = none)
    (hstop : (u.rod i).stopping = false) (hst : (u.rod i).st = .running) :
    u.waitOn i w send = u.setRod i { u.rod i with wait := some (w, send) } := by
  have hfirst : (if (u.checkOf i).isSome then u.followAll (rodFrame i) else u) = u :=
    if_neg (by rw [checkOf_of_unchecked hc]; decide)
  unfold State.waitOn
  rw [hfirst]
  dsimp only
  rw [setRod_rod_same]
  dsimp only
  rw [if_neg (by rw [hstop]; decide), if_neg (by rw [hst]; decide)]

/-- After its tile a running rod that nothing else waits for starts the next. -/
theorem afterTile_running {u : State} {i : Nat} (hc : (u.frame (rodFrame i)).check = none) (hstop : (u.rod i).stopping = false)
    (hst : (u.rod i).st = .running) (hthird : u.wantsThird i = false) (hreq : (u.frame (rodFrame i)).request = none) :
    (u.checkPassed i).afterTile i = u.tileStart i := by
  have hpass : u.checkPassed i = u := by
    unfold State.checkPassed
    rw [checkOf_of_unchecked hc]
    rfl
  rw [hpass]
  unfold State.afterTile
  dsimp only
  rw [hstop, hthird, hst, hreq, if_neg (by decide), if_neg (by decide), if_neg (by decide), if_neg (by simp)]

/-! ### A waiting instruction looks again -/

theorem streamWaitResume_spec (s : State) (i : Fin 544) :
    ((s.rod i).wait = none → exec (.streamWaitResume i) s = .next s) ∧
    (∀ v send, (s.rod i).wait = some (v, send) →
      let x := s.setRod i { s.rod i with wait := none }
      let op := if send then 0x61 else 0x60
      (x.rodReady i = true → exec (.streamWaitResume i) s = .next (x.rodIssue i op v fun s r => s.streamOp i v send r)) ∧
      (∀ u, x.Issues i op v u → exec (.streamWaitResume i) s =
        .next (u.did i ((x.fetched i).rod i).ctx (u.streamOp i v send (u.rod i)))) ∧
      (x.rodReady i = false → exec (.streamWaitResume i) s = .next s)) := by
  refine ⟨fun h => ?_, fun v send h => ?_⟩
  · show execStreamWaitResume i s = _
    unfold execStreamWaitResume
    rw [h]
  · intro x op
    have hexec : exec (.streamWaitResume i) s = .next (if x.rodReady i then x.rodIssue i op v fun s r => s.streamOp i v send r else s) := by
      show execStreamWaitResume i s = _
      unfold execStreamWaitResume
      rw [h]
      rfl
    have hready (hr : x.rodReady i = true) : exec (.streamWaitResume i) s = .next (x.rodIssue i op v fun s r => s.streamOp i v send r) :=
      hexec.trans (congrArg _ (if_pos hr))
    refine ⟨hready, fun u hu => (hready hu.1).trans (congrArg _ (rodIssue_of_issues hu ?_ _)), fun hr => hexec.trans (congrArg _ (if_neg (by rw [hr]; decide)))⟩
    cases send <;> rfl

/-- Settles O48: streams by the two functions above, tiles by what follows them. -/
theorem streamsAndTilesAct : Obligations.StreamsAndTilesAct := by
  unfold Obligations.StreamsAndTilesAct
  refine ⟨fun s i w u => ?_, fun u i w send hc hstop hst => ⟨waitOn_running w send hc hstop hst, fun hthird hreq =>
    afterTile_running hc hstop hst hthird hreq⟩, streamWaitResume_spec⟩
  intro r c sid cur moved unused
  refine ⟨fun send h => ?_, fun j k x h hf hs hv hsend hx => ?_, fun j k h hf hs hv hsend => ?_, tileEnd_issues, halt_issues⟩
  · cases send
    · have h' : s.Issues i 0x60 w u := h
      obtain ⟨hbad, hok⟩ := legalRow_issues h' rfl (w.a + w.b + w.fa + w.fb + w.imm / 32) fun s r => s.streamOp i w false r
      intro row
      rw [show exec row s = _ from srecv_row i w s]
      refine ⟨fun hf => congrArg _ (hbad hf), fun hf hno => congrArg _ ?_⟩
      rw [hok hf, streamOp_fault hno, did_fault]
    · have h' : s.Issues i 0x61 w u := h
      obtain ⟨hbad, hok⟩ := legalRow_issues h' rfl (w.d + w.b + w.fa + w.fb + w.imm / 32) fun s r => s.streamOp i w true r
      intro row
      rw [show exec row s = _ from ssend_row i w s]
      refine ⟨fun hf => congrArg _ (hbad hf), fun hf hno => congrArg _ ?_⟩
      rw [hok hf, streamOp_fault hno, did_fault]
  · obtain ⟨-, hok⟩ := legalRow_issues h rfl (w.d + w.b + w.fa + w.fb + w.imm / 32) fun s r => s.streamOp i w true r
    have hdid : exec (.ssend i w) s = .next (u.did i c (u.sendElement i w r j k)) := by
      rw [ssend_row, hok hf, streamOp_ok hs hv hsend]
      rfl
    obtain ⟨hfull, hroom⟩ := sendElement_did (u := u) (i := i) (w := w) (r := r) (j := j) (k := k) c hx
    refine ⟨fun h1 => hdid.trans (congrArg _ (hfull h1)), fun h1 v f => ?_⟩
    obtain ⟨hbounds, hwait, hopen⟩ := hroom h1 v f
    exact ⟨fun h2 => hdid.trans (congrArg _ (hbounds h2)), fun h2 => hdid.trans (congrArg _ (hwait h2)),
      fun a h2 => hdid.trans (congrArg _ (hopen a h2))⟩
  · obtain ⟨-, hok⟩ := legalRow_issues h rfl (w.a + w.b + w.fa + w.fb + w.imm / 32) fun s r => s.streamOp i w false r
    have hdid : exec (.srecv i w) s = .next (u.did i c (u.recvElement i w r j k)) := by
      rw [srecv_row, hok hf, streamOp_ok hs hv hsend]
      rfl
    obtain ⟨hagain, hnew⟩ := recvElement_did (u := u) (i := i) (w := w) (r := r) (j := j) (k := k) c
    refine ⟨fun x b p hx => hdid.trans (congrArg _ (hagain x b p hx)), fun hnone => ?_⟩
    obtain ⟨hclosed, hopen⟩ := hnew hnone
    refine ⟨fun n hn hle => hdid.trans (congrArg _ (hclosed n hn hle)), fun hlt => ?_⟩
    obtain ⟨hempty, hread⟩ := hopen hlt
    refine ⟨fun h1 => hdid.trans (congrArg _ (hempty h1)), fun h1 v f => ?_⟩
    obtain ⟨hbounds, hwait, helem⟩ := hread h1 v f
    exact ⟨fun h2 => hdid.trans (congrArg _ (hbounds h2)), fun h2 => hdid.trans (congrArg _ (hwait h2)),
      fun a h2 => hdid.trans (congrArg _ (helem a h2))⟩

end Sys2Proof.Machine
end

section
/-!
Time-sharing (R188–R193, R239), and the vote of a sampled check (R297–R299).
-/

namespace Sys2Proof.Machine

/-! ### Save records (Table 8.7) -/

/-- A field behind leading bytes of known length. -/
theorem field_behind {l m : List Byte} {off : Nat} (h : l.length = off) (k n : Nat) : field (l ++ m) (off + k) n = field m k n := by
  rw [field_append (by omega), h, Nat.add_sub_cancel_left]

/-- The blocks of a table of equal entries. -/
theorem drop_take_flatMap {l : List Nat} {g : Nat → List Byte} {w n : Nat} (m : List Byte) (hg : ∀ x, (g x).length = w) (h : n < l.length) :
    ((l.flatMap g ++ m).drop (w * n)).take w = g l[n] := by
  induction l generalizing n with
  | nil => exact absurd h (Nat.not_lt_zero n)
  | cons x l ih =>
    rw [List.flatMap_cons, List.append_assoc]
    cases n with
    | zero => exact List.take_left' (hg x)
    | succ n =>
      rw [Nat.mul_succ, Nat.add_comm, ← List.drop_drop, drop_append_length (hg x)]
      exact ih (Nat.lt_of_succ_lt_succ h)

/-- Block `n` of a table of the first entries, behind leading bytes. -/
theorem block_behind {l : List Byte} {off c w n : Nat} {g : Nat → List Byte} (m : List Byte) (hl : l.length = off)
    (hg : ∀ x, (g x).length = w) (h : n < c) : ((l ++ ((List.range c).flatMap g ++ m)).drop (off + w * n)).take w = g n := by
  rw [← List.drop_drop, drop_append_length hl, drop_take_flatMap m hg (by rwa [List.length_range]), List.getElem_range]

/-- The number in entry `n` of such a table of numbers. -/
theorem field_table {l : List Byte} {off c w n : Nat} {g : Nat → Nat} (m : List Byte) (hl : l.length = off) (h : n < c) :
    field (l ++ ((List.range c).flatMap (fun x => leBytes w (g x)) ++ m)) (off + w * n) w = g n % 256 ^ w := by
  unfold field
  rw [block_behind m hl (fun x => length_leBytes ..) h, leNat_leBytes]

theorem length_table {g : Nat → List Byte} {w : Nat} (c : Nat) (hg : ∀ x, (g x).length = w) :
    ((List.range c).flatMap g).length = c * w := by
  rw [List.length_flatMap, List.map_congr_left fun x _ => hg x, List.map_const', List.sum_replicate_nat, List.length_range]

theorem length_words (c w : Nat) (g : Nat → Nat) : ((List.range c).flatMap fun n => leBytes w (g n)).length = c * w :=
  length_table c fun _ => length_leBytes ..

theorem length_zeroBytes (n : Nat) : (zeroBytes n).length = n := List.length_replicate

theorem Cursor.length_bytes (c : Cursor) : c.bytes.length = 32 := by
  simp only [Cursor.bytes, List.length_append, length_leBytes, length_zeroBytes, List.length_singleton]

theorem RodRegs.length_record (g : RodRegs) : g.record.length = 0x2000 := by
  simp only [RodRegs.record, List.length_append, length_leBytes, length_zeroBytes, length_words,
    length_table 16 fun n => Acc.length_record (g.getAcc n), length_table 32 fun n => Cursor.length_bytes (tblGet g.cursors n {})]

theorem idrev_lt : idrev < 256 ^ 4 := by
  have hrev := Config.rev.isLt
  have hstep := Config.stepping.isLt
  norm_num [idrev] at hrev hstep ⊢
  omega

/-- The words that open a record. -/
theorem record_words (g : RodRegs) : field g.record 0 4 = 1 ∧ field g.record 4 4 = idrev ∧ field g.record 8 8 = g.step % 2 ^ 64 ∧
    field g.record 0x10 4 = g.pc % 2 ^ 32 := by
  have h4 (v : Nat) := length_leBytes 4 v
  unfold RodRegs.record
  simp only [List.append_assoc]
  refine ⟨field_leBytes_append .., ((field_behind (h4 1) 0 4).trans (field_leBytes_append ..)).trans (Nat.mod_eq_of_lt idrev_lt),
    (field_behind (h4 1) 4 8).trans ((field_behind (h4 idrev) 0 8).trans (field_leBytes_append ..)),
    (field_behind (h4 1) 12 4).trans ((field_behind (h4 idrev) 8 4).trans
      ((field_behind (length_leBytes 8 g.step) 0 4).trans (field_leBytes_append ..)))⟩

theorem record_getS (g : RodRegs) {n : Nat} (h : n < 32) : field g.record (0x100 + 8 * n) 8 = g.getS n % 2 ^ 64 := by
  unfold RodRegs.record
  rw [List.append_assoc, List.append_assoc, List.append_assoc, List.append_assoc, List.append_assoc]
  exact field_table _ (by simp only [List.length_append, length_leBytes, length_zeroBytes]) h

theorem record_getV (g : RodRegs) {n : Nat} (h : n < 32) : field g.record (0xC00 + 128 * n) 128 = g.getV n % 2 ^ 1024 := by
  unfold RodRegs.record
  rw [List.append_assoc]
  exact (field_table _ (by simp only [List.length_append, length_leBytes, length_zeroBytes, length_words,
    length_table 16 fun n => Acc.length_record (g.getAcc n)]) h).trans
    (congrArg (g.getV n % ·) (Nat.pow_mul 2 8 128).symm)

theorem record_getAcc (g : RodRegs) {n : Nat} (h : n < 16) :
    (g.record.drop (0x400 + 128 * n)).take 128 = (g.getAcc n).record := by
  unfold RodRegs.record
  rw [List.append_assoc, List.append_assoc]
  exact block_behind _ (by simp only [List.length_append, length_leBytes, length_zeroBytes, length_words]) (fun x => Acc.length_record _) h

/-! ### The current entries of the frames, which a switch's rods leave -/

/-- The current schedule entry of every frame. -/
def State.curs (s : State) : Nat → Option Nat := fun g => (s.frame g).cur

theorem curs_of_quiet {s t : State} (h : s.quiet = t.quiet) : s.curs = t.curs := by
  show s.quiet.curs = t.quiet.curs
  rw [h]

theorem curs_setFrame {s : State} {f : Nat} {v : Frame} (h : v.cur = (s.frame f).cur) : (s.setFrame f v).curs = s.curs := by
  funext g
  unfold State.curs
  rw [setFrame_frame]
  split
  · next hg => rw [hg, h]
  · rfl

@[simp] theorem curs_setRod (s : State) (i : Nat) (r : Rod) : (s.setRod i r).curs = s.curs := rfl
@[simp] theorem curs_bump (s : State) (a n c : Nat) : (s.bump a n c).curs = s.curs := rfl
@[simp] theorem curs_raise (s : State) (k : PageKind) (i b : Nat) : (s.raise k i b).curs = s.curs := curs_of_quiet (quiet_raise ..)
@[simp] theorem curs_tally (s : State) (k : PageKind) (i e q n : Nat) (c : Option Nat) : (s.tally k i e q n c).curs = s.curs :=
  curs_of_quiet (quiet_tally ..)
@[simp] theorem curs_postMgr (s : State) (r : Record) : (s.postMgr r).curs = s.curs := curs_of_quiet (quiet_postMgr ..)
@[simp] theorem curs_setCheck (s : State) (f : Nat) (k : Option Check) : (s.setCheck f k).curs = s.curs :=
  curs_setFrame rfl

@[simp] theorem curs_putElement (s : State) (j i n f a : Nat) (d : List Byte) (p : Bool) : (s.putElement j i n f a d p).curs = s.curs := by
  show (s.setFrame f ((s.frame f).write a d p)).curs = _
  exact curs_setFrame rfl

theorem own_cur (c : Nat) (l : List Nat) (v : Frame) : (l.foldl (fun v u => v.own c u) v).cur = v.cur :=
  foldl_same (fun v : Frame => v.cur) (fun v u => by unfold Frame.own; split <;> rfl) l v

@[simp] theorem curs_fbOpen (s : State) (f c o n : Nat) : (s.fbOpen f c o n).1.curs = s.curs := by
  unfold State.fbOpen
  split
  · rfl
  · dsimp only
    (repeat' split)
    case isFalse.isFalse.isFalse => exact curs_setFrame (own_cur ..)
    all_goals rfl

@[simp] theorem curs_ringOpen (s : State) (j i n : Nat) : (s.ringOpen j i n).1.curs = s.curs := by
  unfold State.ringOpen
  split
  · rfl
  · exact curs_fbOpen ..

@[simp] theorem curs_perform (s : State) (f : Nat) (w : OutWrite) : (s.perform f w).curs = s.curs := by
  unfold State.perform
  split
  · exact curs_setFrame rfl
  · rename_i j i n d p
    have h := curs_ringOpen s j i n
    split <;> rename_i heq <;> rw [heq] at h
    · exact (curs_putElement ..).trans h
    · exact h

@[simp] theorem curs_produce (s : State) (f n : Nat) : (s.produce f n).curs = s.curs := by
  unfold State.produce
  split
  · rfl
  · exact (curs_setCheck ..).trans (foldl_keeps State.curs (g := fun s (w : Nat × OutWrite) => State.perform s f w.2)
      (fun s w => curs_perform s f w.2) _ s)

@[simp] theorem curs_follow (s : State) (f n : Nat) : (s.follow f n).curs = s.curs := by
  unfold State.follow
  split
  · rfl
  · split
    · rfl
    · simp

@[simp] theorem curs_followAll (s : State) (f : Nat) : (s.followAll f).curs = s.curs := by
  unfold State.followAll
  split
  · rfl
  · simp

@[simp] theorem curs_freeSpare (s : State) (f : Nat) : (s.freeSpare f).curs = s.curs := by
  unfold State.freeSpare
  split <;> rfl

@[simp] theorem curs_returnThird (s : State) (f p : Nat) : (s.returnThird f p).curs = s.curs := by
  unfold State.returnThird
  dsimp only
  split <;> rfl

@[simp] theorem curs_endCheck (s : State) (f : Nat) : (s.endCheck f).curs = s.curs := by
  unfold State.endCheck State.abandonCheck
  split
  · simp
  · dsimp only
    split <;> simp

@[simp] theorem curs_saveForSwitch (s : State) (i : Nat) : (s.saveForSwitch i).curs = s.curs := by
  have hend : (if (s.checkOf i).isSome then s.endCheck (rodFrame i) else s).curs = s.curs := by split <;> simp
  unfold State.saveForSwitch
  dsimp only
  rw [curs_setRod]
  generalize (if (s.checkOf i).isSome = true then s.endCheck (rodFrame i) else s) = u at hend
  split
  · split
    · exact (curs_setFrame (by rfl)).trans hend
    · exact hend
  · exact hend

@[simp] theorem curs_substitute (s : State) (f k cause : Nat) (e : Option Nat) : (s.substitute f k cause e).curs = s.curs := by
  unfold State.substitute
  simp only [curs_raise, curs_postMgr, curs_setRod]
  exact curs_setFrame rfl

@[simp] theorem curs_switchRod (s : State) (f : Nat) (cur : Option Nat) (k : Nat) : (s.switchRod f cur k).curs = s.curs := by
  unfold State.switchRod
  dsimp only
  (repeat' split) <;> simp

@[simp] theorem curs_switchAll (s : State) (f : Nat) : (s.switchAll f).curs = s.curs :=
  foldl_keeps State.curs (g := fun s k => State.switchRod s f (s.frame f).cur k) (fun s k => curs_switchRod s f _ k) _ s

/-! ### A slice switch starts (R188–R190, R298) -/

/-- The frame takes the entry of the tick, and the switch is counted. -/
def State.enterSlice (s : State) (f : Nat) : State :=
  (s.setFrame f { s.frame f with cur := s.currentAt f s.tick.count }).tally .frm f 0x30 0

theorem enterSlice_frame (s : State) (f : Nat) : (s.enterSlice f).frame f = { s.frame f with cur := s.currentAt f s.tick.count } := by
  obtain ⟨x, hx⟩ := State.tally_eq (s.setFrame f { s.frame f with cur := s.currentAt f s.tick.count }) .frm f 0x30 0 1 none
  unfold State.enterSlice
  rw [hx]
  exact (setFrame_frame ..).trans (if_pos rfl)

theorem enterSlice_rods (s : State) (f : Nat) : (s.enterSlice f).rods = s.rods := by
  obtain ⟨x, hx⟩ := State.tally_eq (s.setFrame f { s.frame f with cur := s.currentAt f s.tick.count }) .frm f 0x30 0 1 none
  unfold State.enterSlice
  rw [hx]
  rfl

theorem enterSlice_voting (s : State) (f : Nat) : (s.enterSlice f).voting f = s.voting f := by
  unfold State.voting
  rw [enterSlice_frame]

theorem startSwitch_eq (s : State) (f : Nat) : s.startSwitch f = if s.voting f = true then
    (s.enterSlice f).setFrame f { (s.enterSlice f).frame f with heldSwitch := true } else (s.enterSlice f).switchAll f := by
  rw [← enterSlice_voting]
  rfl

theorem startSwitch_cur (s : State) (f : Nat) : ((s.startSwitch f).frame f).cur = s.currentAt f s.tick.count := by
  have hcur : (s.enterSlice f).curs f = s.currentAt f s.tick.count := congrArg Frame.cur (enterSlice_frame s f)
  refine Eq.trans (congrFun (?_ : (s.startSwitch f).curs = (s.enterSlice f).curs) f) hcur
  rw [startSwitch_eq]
  split
  · exact curs_setFrame rfl
  · exact curs_switchAll ..

theorem startSwitch_voting {s : State} {f : Nat} (h : s.voting f = true) :
    ((s.startSwitch f).frame f).heldSwitch = true ∧ (s.startSwitch f).rods = s.rods := by
  rw [startSwitch_eq, if_pos h]
  exact ⟨by rw [setFrame_frame, if_pos rfl], enterSlice_rods s f⟩

theorem sliceBoundary_spec (s : State) (f : Fin 32) :
    let now := s.tick.count
    (s.clocked .frm f = false → exec (.sliceBoundary f) s = .next s) ∧
    (s.clocked .frm f = true →
      ((s.frame f).cur ≠ s.currentAt f now →
        (s.dueBefore now 9 = false → exec (.sliceBoundary f) s = .next (s.startSwitch f)) ∧
        (s.dueBefore now 9 = true → exec (.sliceBoundary f) s = .next s)) ∧
      ((s.frame f).cur = s.currentAt f now →
        (s.nextBoundary f now = none → exec (.sliceBoundary f) s = .next s) ∧
        (∀ tick, s.nextBoundary f now = some tick →
          (s.dueBefore tick 9 = false → exec (.sliceBoundary f) s = .next ((s.elapseToTick tick).startSwitch f)) ∧
          (s.dueBefore tick 9 = true → exec (.sliceBoundary f) s = .next s)))) := by
  intro now
  have hexec : exec (.sliceBoundary f) s = execSliceBoundary f s := rfl
  unfold execSliceBoundary at hexec
  refine ⟨fun h => hexec.trans (if_neg (by rw [h]; decide)), fun h => ?_⟩
  have hclocked := hexec.trans (if_pos h)
  have hguard {due : Bool} {g : State → State} : (due = false → onlyIf (!due) s g = .next (g s)) ∧ (due = true → onlyIf (!due) s g = .next s) := by
    cases due
    · exact ⟨fun _ => rfl, fun h => absurd h (by decide)⟩
    · exact ⟨fun h => absurd h (by decide), fun _ => rfl⟩
  refine ⟨fun hcur => ?_, fun hcur => ?_⟩
  · have hdo := hclocked.trans (if_pos hcur)
    exact ⟨fun hd => hdo.trans (hguard.1 hd), fun hd => hdo.trans (hguard.2 hd)⟩
  · have hdo := hclocked.trans (if_neg (not_not_intro hcur))
    refine ⟨fun hn => hdo.trans (by rw [hn]), fun tick hn => ?_⟩
    rw [hn] at hdo
    exact ⟨fun hd => hdo.trans (hguard.1 hd), fun hd => hdo.trans (hguard.2 hd)⟩

/-! ### Zeroed units (R185, R191) -/

theorem zeroUnit_fb (v : Frame) (u a : Nat) : cellGet (v.zeroUnit u).fb a = if a / 0x10000 = u then 0 else cellGet v.fb a := by
  have h := cellGet_filter v.fb (fun x => decide (x / 0x10000 ≠ u)) a
  refine h.trans ?_
  by_cases hu : a / 0x10000 = u <;> simp [hu]

theorem zeroUnits_fb (l : List Nat) (v : Frame) (a : Nat) :
    cellGet (l.foldl (fun v u => v.zeroUnit u) v).fb a = if l.contains (a / 0x10000) then 0 else cellGet v.fb a := by
  induction l generalizing v with
  | nil => rfl
  | cons u l ih =>
    rw [List.foldl_cons, ih, zeroUnit_fb, List.contains_cons]
    by_cases hu : a / 0x10000 = u <;> simp [hu]

theorem fbZeroDone_spec (s : State) (f : Fin 32) :
    (s.clocked .frm f = false → exec (.fbZeroDone f) s = .next s) ∧
    (s.clocked .frm f = true → ∃ t, exec (.fbZeroDone f) s = .next t ∧ (t.frame f).zeroing = [] ∧ t.mem = s.mem ∧ t.rods = s.rods ∧
      ∀ a, cellGet (t.frame f).fb a = if (s.frame f).zeroing.contains (a / 0x10000) then 0 else cellGet (s.frame f).fb a) := by
  have hexec : exec (.fbZeroDone f) s = execFbZeroDone f s := rfl
  refine ⟨fun h => hexec.trans (congrArg Host.Outcome.next (if_neg (by rw [h]; decide))), fun h =>
    ⟨_, hexec.trans (congrArg Host.Outcome.next (if_pos h)), ?_, rfl, rfl, fun a => ?_⟩⟩
  · rw [setFrame_frame, if_pos rfl]
  · rw [setFrame_frame, if_pos rfl]
    exact zeroUnits_fb ..

end Sys2Proof.Machine
end

section
/-!
What a slice switch asks of a rod, and the save, zeroing and restore of its record (R189–R193); checks that differ and votes (R298).
-/

namespace Sys2Proof.Machine

/-! ### A switch reaches a rod (R189, R190) -/

/-- A rod of no check that is to save saves, and only it changes. -/
theorem saveForSwitch_rods {s : State} {i : Nat} (h : s.checkOf i = none) :
    (s.saveForSwitch i).rod i = { s.rod i with st := .saving, wait := none } ∧ ∀ j, j ≠ i → (s.saveForSwitch i).rod j = s.rod j := by
  have hfirst : (if (s.checkOf i).isSome then s.endCheck (rodFrame i) else s) = s := if_neg (by rw [h]; decide)
  have heq : ∃ x, s.saveForSwitch i = ({ s with frames := x } : State).setRod i { s.rod i with st := .saving, wait := none } := by
    unfold State.saveForSwitch
    dsimp only
    rw [hfirst]
    (repeat' split) <;> exact ⟨_, rfl⟩
  obtain ⟨x, hx⟩ := heq
  rw [hx]
  exact ⟨setRod_rod_same .., fun j hj => (setRod_rod ..).trans (if_neg hj)⟩

/-- A rod asked to switch: the entry that comes in, and when it was asked. -/
def Rod.asked (r : Rod) (cur : Option Nat) (t : Nat) : Rod :=
  { r with incoming := cur, switching := true, switchAt := if r.st = .toTileEnd then r.switchAt else t }

/-- What it then does. -/
def State.switchAsked (s : State) (f : Nat) (cur : Option Nat) (k i : Nat) (r : Rod) : State :=
  match r.st with
  | .running => if r.regs.halted || r.wait.isSome then s.saveForSwitch i else s.setRod i { s.rod i with st := .toTileEnd }
  | .toTileEnd | .saving | .zeroing | .checking | .quarantined => s
  | .idle | .restoring =>
    match (s.frame f).request with
    | some (l, cause) => if l = k then s.substitute f k cause cur else s.setRod i { s.rod i with st := .zeroing }
    | none => s.setRod i { s.rod i with st := .zeroing }

theorem switchRod_eq {s : State} {f k : Nat} (cur : Option Nat) (hq : (s.rod (s.physRod f k)).st ≠ .quarantined)
    (hv : s.inVote (s.physRod f k) = false) (hc : s.checkOf (s.physRod f k) = none) :
    s.switchRod f cur k = (s.setRod (s.physRod f k) ((s.rod (s.physRod f k)).asked cur s.time)).switchAsked f cur k (s.physRod f k)
      (s.rod (s.physRod f k)) := by
  have hno : ¬((s.rod (s.physRod f k)).st = .quarantined ∨ s.inVote (s.physRod f k) = true) := by
    rw [hv]
    exact not_or.2 ⟨hq, by decide⟩
  have hfirst : (if (s.checkOf (s.physRod f k)).isSome then s.endCheck f else s) = s := if_neg (by rw [hc]; decide)
  unfold State.switchRod
  dsimp only
  rw [if_neg hno, hfirst]
  rfl

theorem switchRod_spec (s : State) (f k : Nat) (cur : Option Nat) :
    let i := s.physRod f k
    let r := s.rod i
    let t := s.switchRod f cur k
    (r.st = .quarantined ∨ s.inVote i = true → t = s) ∧
    (s.inVote i = false → s.checkOf i = none →
      (∀ j, j ≠ i → r.st = .running → t.rod j = s.rod j) ∧
      (r.st = .running → r.regs.halted = false → r.wait = none →
        t.rod i = { r with incoming := cur, switching := true, switchAt := s.time, st := .toTileEnd }) ∧
      (r.st = .running → r.regs.halted = true ∨ r.wait.isSome = true →
        t.rod i = { r with incoming := cur, switching := true, switchAt := s.time, st := .saving, wait := none }) ∧
      (r.st = .toTileEnd → t = s.setRod i { r with incoming := cur, switching := true })) := by
  intro i r t
  refine ⟨fun h => if_pos h, fun hv hc => ?_⟩
  have heq (hq : r.st ≠ .quarantined) : t = (s.setRod i (r.asked cur s.time)).switchAsked f cur k i r := switchRod_eq cur hq hv hc
  have hrunning (hst : r.st = .running) : t = if r.regs.halted || r.wait.isSome then (s.setRod i (r.asked cur s.time)).saveForSwitch i
      else (s.setRod i (r.asked cur s.time)).setRod i { r.asked cur s.time with st := .toTileEnd } := by
    refine (heq (by rw [hst]; decide)).trans ?_
    unfold State.switchAsked
    rw [hst, setRod_rod_same]
  have hasked (hst : r.st = .running) : r.asked cur s.time = { r with incoming := cur, switching := true, switchAt := s.time } := by
    unfold Rod.asked
    rw [if_neg (by rw [hst]; decide)]
  have hsave := saveForSwitch_rods (s := s.setRod i (r.asked cur s.time)) (i := i) hc
  have hother {j : Nat} (hj : j ≠ i) (v : Rod) (u : State) : (u.setRod i v).rod j = u.rod j := (setRod_rod ..).trans (if_neg hj)
  refine ⟨fun j hj hst => ?_, fun hst hh hw => ?_, fun hst hw => ?_, fun hst => ?_⟩
  · rw [hrunning hst]
    split
    · exact (hsave.2 j hj).trans (hother hj ..)
    · exact (hother hj ..).trans (hother hj ..)
  · rw [hrunning hst, if_neg (by rw [hh, hw]; decide), setRod_rod_same, hasked hst]
  · rw [hrunning hst, if_pos (by rcases hw with h | h <;> simp [h]), hsave.1, setRod_rod_same, hasked hst]
  · refine (heq (by rw [hst]; decide)).trans ?_
    unfold State.switchAsked Rod.asked
    rw [hst, if_pos rfl]

/-! ### The record saved, the scratch zeroed, the record restored (R191–R193) -/

theorem rodSaveDone_spec (s : State) (i : Fin 544) :
    (s.clocked .rod i = false ∨ (s.rod i).st ≠ .saving → exec (.rodSaveDone i) s = .next s) ∧
    (s.clocked .rod i = true → (s.rod i).st = .saving → ∀ u,
      (s.saveRod i = (u, .done) → exec (.rodSaveDone i) s = .next (u.saved i)) ∧
      (s.saveRod i = (u, .wait) → exec (.rodSaveDone i) s = .next u) ∧
      (∀ a b c, s.saveRod i = (u, .failed a b c) → exec (.rodSaveDone i) s = .next (u.saveFail i))) := by
  have hexec : exec (.rodSaveDone i) s = execRodSaveDone i s := rfl
  refine ⟨fun h => hexec.trans (congrArg Host.Outcome.next (if_neg ?_)), fun hc hst u => ?_⟩
  · rcases h with h | h <;> simp [h]
  · have hdo : execRodSaveDone i s = .next (match s.saveRod i with
        | (s, .wait) => s
        | (s, .failed _ _ _) => s.saveFail i
        | (s, .done) => s.saved i) := congrArg Host.Outcome.next (if_pos (by simp [hc, hst]))
    exact ⟨fun h => hexec.trans (hdo.trans (by rw [h])), fun h => hexec.trans (hdo.trans (by rw [h])),
      fun a b c h => hexec.trans (hdo.trans (by rw [h]))⟩

theorem rodZeroDone_idle {s : State} {i : Fin 544} (h : s.clocked .rod i = false ∨ (s.rod i).st ≠ .zeroing) :
    exec (.rodZeroDone i) s = .next s := by
  have hexec : exec (.rodZeroDone i) s = execRodZeroDone i s := rfl
  refine hexec.trans (congrArg Host.Outcome.next (if_neg ?_))
  rcases h with h | h <;> simp [h]

/-- What a zeroed rod that is not leaving goes on with. -/
def State.rodZeroed (s : State) (i : Nat) : State :=
  let r := s.rod i
  let f := rodFrame i
  match s.standIn i with
  | some (k, cause) => s.substitute f k cause r.incoming
  | none => match r.incoming, s.logicalOf i with
    | some e, some k =>
      let c := s.entCtx f e
      if s.entValid f e && (s.ctx c).st == .active then
        match s.jobAt f c k with
        | some j =>
          s.setRod i { st := .restoring, ctx := c, job := some j, incoming := r.incoming, switching := true
                       home := some (s.slotOf f e k) }
        | none => s.restIdle i
      else s.restIdle i
    | _, _ => s.restIdle i

theorem rodZeroDone_eq {s : State} {i : Fin 544} (hc : s.clocked .rod i = true) (hst : (s.rod i).st = .zeroing) :
    exec (.rodZeroDone i) s = .next (if (s.rod i).leaving then s.setRod i { st := .quarantined } else s.rodZeroed i) :=
  congrArg Host.Outcome.next (if_pos (by simp [hc, hst]))

theorem rodZeroDone_spec {s : State} {i : Fin 544} (hc : s.clocked .rod i = true) (hst : (s.rod i).st = .zeroing) :
    let r := s.rod i
    let f := rodFrame i
    let may (e : Nat) : Prop := s.entValid f e = true ∧ (s.ctx (s.entCtx f e)).st = .active
    (r.leaving = true → exec (.rodZeroDone i) s = .next (s.setRod i { st := .quarantined })) ∧
    (r.leaving = false →
      (∀ k cause, s.standIn i = some (k, cause) → exec (.rodZeroDone i) s = .next (s.substitute f k cause r.incoming)) ∧
      (s.standIn i = none →
        (∀ e k j, r.incoming = some e → s.logicalOf i = some k → may e → s.jobAt f (s.entCtx f e) k = some j →
          exec (.rodZeroDone i) s = .next (s.setRod i { st := .restoring, ctx := s.entCtx f e, job := some j, incoming := some e
                                                        switching := true, home := some (s.slotOf f e k) })) ∧
        (r.incoming = none ∨ s.logicalOf i = none ∨ (∀ e, r.incoming = some e → ¬may e) ∨
            (∀ e k, r.incoming = some e → s.logicalOf i = some k → s.jobAt f (s.entCtx f e) k = none) →
          exec (.rodZeroDone i) s = .next (s.restIdle i)))) := by
  intro r f may
  refine ⟨fun hl => (rodZeroDone_eq hc hst).trans (congrArg _ (if_pos hl)), fun hl => ?_⟩
  have hdo := (rodZeroDone_eq hc hst).trans (congrArg Host.Outcome.next (if_neg (by rw [hl]; decide)))
  refine ⟨fun k cause h => hdo.trans (congrArg _ ?_), fun hs => ⟨fun e k j he hk hm hj => hdo.trans (congrArg _ ?_), fun h =>
    hdo.trans (congrArg _ ?_)⟩⟩
  · unfold State.rodZeroed
    dsimp only
    rw [h]
  · unfold State.rodZeroed
    dsimp only
    obtain ⟨hv, ha⟩ := hm
    rw [hs, hk, show (s.rod i).incoming = some e from he]
    dsimp only
    rw [if_pos (by simpa using ⟨hv, ha⟩), hj]
  · unfold State.rodZeroed
    dsimp only
    rw [hs]
    dsimp only
    split
    · next e k he hk =>
      split
      · next hm =>
        split
        · next j hj =>
          rcases h with h | h | h | h
          · exact absurd (he.symm.trans h) (by simp)
          · exact absurd (hk.symm.trans h) (by simp)
          · exact absurd (by simpa [may] using hm) (h e he)
          · exact absurd (hj.symm.trans (h e k he hk)) (by simp)
        · rfl
      · rfl
    · rfl

theorem rodRestoreDone_spec (s : State) (i : Fin 544) :
    let r := s.rod i
    let f := rodFrame i
    (s.clocked .rod i = false ∨ r.st ≠ .restoring → exec (.rodRestoreDone i) s = .next s) ∧
    (s.clocked .rod i = true → r.st = .restoring →
      (r.home = none → exec (.rodRestoreDone i) s = .next (s.saveFail i)) ∧
      (∀ va live, r.home = some (va, live) → ∀ u l,
        let read := s.unitReads (2 * f) (rodTag i) r.ctx va (128 + live / 64)
        (read = (u, l, .wait) → exec (.rodRestoreDone i) s = .next u) ∧
        (∀ a b c, read = (u, l, .failed a b c) → exec (.rodRestoreDone i) s = .next (u.saveFail i)) ∧
        (read = (u, l, .done) →
          (u.standIn i = none → exec (.rodRestoreDone i) s = .next (u.restored i l)) ∧
          (∀ k cause, u.standIn i = some (k, cause) → exec (.rodRestoreDone i) s =
            .next (u.substitute f k cause ((u.rod i).incoming.or (u.entryOf f (u.rod i).ctx))))))) := by
  intro r f
  have hexec : exec (.rodRestoreDone i) s = execRodRestoreDone i s := rfl
  unfold execRodRestoreDone at hexec
  refine ⟨fun h => hexec.trans (congrArg Host.Outcome.next (if_neg ?_)), fun hc hst => ?_⟩
  · rcases h with h | h
    · simp [h]
    · simp [show (s.rod i).st ≠ .restoring from h]
  have hdo := hexec.trans (congrArg Host.Outcome.next (if_pos (by simp [hc, show (s.rod i).st = .restoring from hst])))
  dsimp only at hdo
  refine ⟨fun hh => hdo.trans (by rw [show (s.rod i).home = none from hh]), fun va live hh u l => ?_⟩
  rw [show (s.rod i).home = some (va, live) from hh] at hdo
  intro read
  refine ⟨fun h => hdo.trans (congrArg _ ?_), fun a b c h => hdo.trans (congrArg _ ?_), fun h => ⟨fun hs => hdo.trans (congrArg _ ?_),
    fun k cause hs => hdo.trans (congrArg _ ?_)⟩⟩
  all_goals
    dsimp only
    rw [show s.unitReads (2 * rodFrame i) (rodTag i) (s.rod i).ctx va (128 + live / 64) = _ from h]
  all_goals
    dsimp only
    rw [hs]

theorem tileOverrun_spec (s : State) (i : Fin 544) :
    let r := s.rod i
    let f := rodFrame i
    (r.st = .toTileEnd → s.inVote i = false →
      let u := s.elapseTo (r.switchAt + us (s.actBits .frm f 0x040 31 16))
      exec (.tileOverrun i) s = .next ((((u.bump (pageBase .frm f + 0x814)).raise .frm f 1).rodFault i 6).startRodZero i)) ∧
    (r.st ≠ .toTileEnd ∨ s.inVote i = true → exec (.tileOverrun i) s = .next s) := by
  intro r f
  have hexec : exec (.tileOverrun i) s = execTileOverrun i s := rfl
  refine ⟨fun hst hv => hexec.trans (congrArg Host.Outcome.next (if_pos ?_)), fun h => hexec.trans (congrArg Host.Outcome.next (if_neg ?_))⟩
  · simp [show (s.rod i).st = .toTileEnd from hst, hv]
  · rcases h with h | h
    · simp [show (s.rod i).st ≠ .toTileEnd from h]
    · simp [h]

/-! ### Records written and read back (R191, R239) -/

/-- The cursors the loader placed a rod with. -/
def State.placedCursors (s : State) (r : Rod) : Tbl Cursor :=
  match r.job with
  | some (j, st, n) => (match tblGet? s.jobs j with | some v => v.cursorsOf st n | none => [])
  | none => []

/-- The record's header names another version or device, or one of its lines is poisoned. -/
def badRecord (l : List (List Byte × Bool)) : Prop :=
  let b := (l.take 128).flatMap (·.1)
  field b 0 4 ≠ 1 ∨ field b 4 4 ≠ idrev ∨ (l.take 128).any (·.2) = true

theorem restored_bad {s : State} {i : Nat} {l : List (List Byte × Bool)} (h : badRecord l) : s.restored i l = s.saveFail i := by
  unfold badRecord at h
  dsimp only at h
  unfold State.restored
  exact if_pos h

theorem restored_differs {s : State} {i : Nat} {l : List (List Byte × Bool)} (h : ¬badRecord l)
    (hc : cursorsAgree (s.placedCursors (s.rod i)) (RodRegs.ofRecord ((l.take 128).flatMap (·.1))).cursors = false) :
    s.restored i l = s.rodFault i 8 := by
  have hdiffers : (!cursorsAgree (s.placedCursors (s.rod i)) (RodRegs.ofRecord ((l.take 128).flatMap (·.1))).cursors) = true := by
    rw [hc]
    rfl
  unfold State.restored
  exact (if_neg h).trans (if_pos hdiffers)

/-- The rod a record restores. -/
def Rod.restoredFrom (r : Rod) (l : List (List Byte × Bool)) : Rod :=
  { r with
    st := .running, regs := RodRegs.ofRecord ((l.take 128).flatMap (·.1)), scratch := cellPuts [] 0 ((l.drop 128).flatMap (·.1))
    badLines := (List.range (l.drop 128).length).filter fun n => ((l.drop 128).getD n ([], false)).2
    incoming := none, switching := false }

theorem restored_spare {s : State} {i : Nat} {l : List (List Byte × Bool)} (h : ¬badRecord l)
    (hc : cursorsAgree (s.placedCursors (s.rod i)) (RodRegs.ofRecord ((l.take 128).flatMap (·.1))).cursors = true)
    (hk : s.logicalOf i = none) : (s.restored i l).rod i = (s.rod i).restoredFrom l := by
  have hagree : ¬(!cursorsAgree (s.placedCursors (s.rod i)) (RodRegs.ofRecord ((l.take 128).flatMap (·.1))).cursors) = true := by
    rw [hc]
    decide
  obtain ⟨x, hx⟩ := State.tally_eq (s.setRod i ((s.rod i).restoredFrom l)) .frm (rodFrame i) 0x34 1 l.length (some (s.rod i).ctx)
  have heq : s.restored i l = { s.setRod i ((s.rod i).restoredFrom l) with tly := x } := by
    rw [← hx]
    unfold State.restored
    refine (if_neg h).trans ((if_neg hagree).trans ?_)
    have hnone : ((s.setRod i ((s.rod i).restoredFrom l)).tally .frm (rodFrame i) 0x34 1 l.length (some (s.rod i).ctx)).logicalOf i = none := by
      rw [hx]
      exact hk
    dsimp only
    split
    · rfl
    · next k hsome => exact absurd (hsome.symm.trans hnone) (by simp)
  rw [heq]
  exact setRod_rod_same ..

theorem restored_spec (s : State) (i : Nat) (l : List (List Byte × Bool)) (g : RodRegs) :
    let r := s.rod i
    let b := (l.take 128).flatMap (·.1)
    let bad := field b 0 4 ≠ 1 ∨ field b 4 4 ≠ idrev ∨ (l.take 128).any (·.2) = true
    let placed := match r.job with
      | some (j, st, n) => (match tblGet? s.jobs j with | some v => v.cursorsOf st n | none => [])
      | none => []
    g = RodRegs.ofRecord b →
      (bad → s.restored i l = s.saveFail i) ∧
      (¬bad → cursorsAgree placed g.cursors = false → s.restored i l = s.rodFault i 8) ∧
      (¬bad → cursorsAgree placed g.cursors = true → s.logicalOf i = none →
        let t := s.restored i l
        (t.rod i).st = .running ∧ (t.rod i).regs = g ∧ (t.rod i).switching = false ∧
          (t.rod i).scratch = cellPuts [] 0 ((l.drop 128).flatMap (·.1))) := by
  intro r b bad placed hg
  subst hg
  refine ⟨restored_bad, restored_differs, fun h hc hk => ?_⟩
  have hrod := restored_spare h hc hk
  dsimp only
  rw [hrod]
  exact ⟨rfl, rfl, rfl, rfl⟩

/-- A saved rod that switches and that no check or stand-in takes is zeroed. -/
theorem saved_switching (s : State) (i : Nat) (hstep : (s.rod i).stepping = false) (hsw : (s.rod i).switching = true)
    (hc : (s.frame (rodFrame i)).check = none) (hr : (s.frame (rodFrame i)).request = none) :
    ((s.saved i).rod i).st = (if (s.rod i).st = .quarantined then .quarantined else .zeroing) ∧
      ∀ j, j ≠ i → (s.saved i).rod j = s.rod j := by
  have heq : s.saved i = s.resumeSaved i { s.rod i with stepping := false } := by
    have hthird : ¬((s.frame (rodFrame i)).check.any fun c => c.third == some (i % 17)) = true := by
      rw [hc]
      exact Bool.false_ne_true
    have hfirst : (if (s.rod i).stepping then s.stepStopped i else s) = s := if_neg (by rw [hstep]; decide)
    unfold State.saved
    dsimp only
    rw [if_neg hthird, hr, hfirst]
    split
    · next h => exact absurd h (by simp)
    · rfl
  have hresume : s.saved i = (s.setRod i { s.rod i with stepping := false }).startRodZero i := by
    rw [heq]
    exact if_pos hsw
  rw [hresume]
  unfold State.startRodZero
  dsimp only
  rw [setRod_rod_same]
  split
  · next hq => exact ⟨by rw [setRod_rod_same]; exact hq, fun j hj => (setRod_rod ..).trans (if_neg hj)⟩
  · next hq => exact ⟨by rw [setRod_rod_same], fun j hj => (setRod_rod ..).trans ((if_neg hj).trans
      ((setRod_rod ..).trans (if_neg hj)))⟩

/-! ### A check differs; a vote (R298, R299) -/

theorem checkMismatch_spec (s : State) (f : Fin 32) (sigR sigS : Nat) :
    ((s.frame f).check = none → exec (.checkMismatch f sigR sigS) s = .next s) ∧
    (∀ k, (s.frame f).check = some k →
      let i := s.physRod f k.logical
      let differs := k.phase = 1 ∧ sigR ≠ sigS ∧ (k.produced < k.made ∨ s.atTileEnd i = true)
      let r := (s.rod i).undo k.undo
      let x := s.setRod i { r with regs := k.snapshot, wait := none, skip := k.performed, writes := 0, replay := k.heard }
      let y := x.setCheck f (some { k with
        phase := 3, held := [], undo := [], lag := [], sigR := sigR, sigS := sigS
        target := if k.produced < k.made then some (k.produced + 1) else none })
      (¬differs → exec (.checkMismatch f sigR sigS) s = .next s) ∧
      (differs →
        (y.thirdRod f k.logical = none → exec (.checkMismatch f sigR sigS) s = .next y) ∧
        (∀ l, y.thirdRod f k.logical = some l →
          let p := y.position f l
          let z := y.takeThird f p
          ((z.rod (17 * f + p)).st = .idle → exec (.checkMismatch f sigR sigS) s = .next (z.loadThird f p)) ∧
          ((z.rod (17 * f + p)).st ≠ .idle → exec (.checkMismatch f sigR sigS) s =
            .next (z.setRod (17 * f + p) { z.rod (17 * f + p) with st := .saving }))))) := by
  have hexec : exec (.checkMismatch f sigR sigS) s = execCheckMismatch f sigR sigS s := rfl
  unfold execCheckMismatch at hexec
  refine ⟨fun h => by rw [hexec, h], fun k hk => ?_⟩
  rw [hk] at hexec
  intro i differs r x y
  have hguard : (k.phase == 1 && sigR != sigS && (decide (k.produced < k.made) || s.atTileEnd i)) = true ↔ differs := by
    simp [differs, and_assoc]
  refine ⟨fun h => hexec.trans (congrArg Host.Outcome.next (if_neg (mt hguard.1 h))), fun h => ?_⟩
  have hdo := hexec.trans (congrArg Host.Outcome.next (if_pos (hguard.2 h)))
  refine ⟨fun hn => hdo.trans (congrArg Host.Outcome.next ?_), fun l hl => ?_⟩
  · dsimp only
    rw [show State.thirdRod _ f k.logical = none from hn]
  · dsimp only at hdo
    rw [show State.thirdRod _ f k.logical = some l from hl] at hdo
    exact ⟨fun hi => hdo.trans (congrArg _ (if_pos hi)), fun hi => hdo.trans (congrArg _ (if_neg hi))⟩

/-- The outcome by the third signature (Table 12.3). -/
theorem voteDone_spec (s : State) (f : Fin 32) :
    ((s.frame f).check = none → exec (.voteDone f) s = .next s) ∧
    (∀ k, (s.frame f).check = some k →
      (k.third = none → exec (.voteDone f) s = .next s) ∧
      (∀ l, k.third = some l →
        let may := k.phase = 3 ∧ k.thirdDone = true ∧ (s.rod (17 * f + l)).st = .checking
        let posR := s.position f k.logical
        let ends (outcome : Nat) : State :=
          let u := (((s.postVote f k.logical outcome posR l).returnThird f l).setCheck f none).freeSpare f
          (u.voted f k.logical posR k.snapshot outcome).afterVote f k.logical
        (¬may → exec (.voteDone f) s = .next s) ∧
        (may → sigWord k.thirdSig = k.sigS → exec (.voteDone f) s = .next (ends 0)) ∧
        (may → sigWord k.thirdSig ≠ k.sigS → sigWord k.thirdSig = k.sigR → exec (.voteDone f) s = .next (ends 1)) ∧
        (may → sigWord k.thirdSig ≠ k.sigS → sigWord k.thirdSig ≠ k.sigR → exec (.voteDone f) s = .next (ends 2)))) := by
  have hexec : exec (.voteDone f) s = execVoteDone f s := rfl
  unfold execVoteDone at hexec
  refine ⟨fun h => by rw [hexec, h], fun k hk => ?_⟩
  rw [hk] at hexec
  dsimp only at hexec
  refine ⟨fun h => by rw [hexec, h], fun l hl => ?_⟩
  rw [hl] at hexec
  intro may posR ends
  have hguard : (k.phase == 3 && k.thirdDone && (s.rod (17 * f + l)).st == .checking) = true ↔ may := by
    simp [may, and_assoc]
  have hdo (h : may) : exec (.voteDone f) s = .next (ends (if sigWord k.thirdSig = k.sigS then 0 else if sigWord k.thirdSig = k.sigR then 1 else 2)) :=
    hexec.trans (congrArg Host.Outcome.next (if_pos (hguard.2 h)))
  refine ⟨fun h => hexec.trans (congrArg Host.Outcome.next (if_neg (mt hguard.1 h))), fun h h1 => ?_, fun h h1 h2 => ?_, fun h h1 h2 => ?_⟩
  · rw [hdo h, if_pos h1]
  · rw [hdo h, if_neg h1, if_pos h2]
  · rw [hdo h, if_neg h1, if_neg h2]

theorem raise_rod (s : State) (k : PageKind) (i b j : Nat) : (s.raise k i b).rod j = s.rod j := by
  have h : (s.raise k i b).quiet.rod j = s.quiet.rod j := by rw [quiet_raise]
  exact h

theorem voted_lost (s : State) (f k posR : Nat) (g : RodRegs) : (s.voted f k posR g 0).rod (17 * f + posR) =
    { s.rod (17 * f + posR) with st := .saving } ∧ ((s.voted f k posR g 0).frame f).request = some (k, 1) := by
  unfold State.voted
  dsimp only
  rw [if_pos rfl]
  exact ⟨setRod_rod_same .., congrArg Frame.request ((setFrame_frame ..).trans (if_pos rfl))⟩

theorem voted_spareLost (s : State) (f k posR : Nat) (g : RodRegs) : ((s.voted f k posR g 1).rod (17 * f + 16)).st = .quarantined := by
  unfold State.voted
  dsimp only
  rw [if_neg (by decide), if_pos rfl, raise_rod, setRod_rod_same]

theorem voted_none (s : State) (f k posR : Nat) (g : RodRegs) : ((s.voted f k posR g 2).rod (17 * f + posR)).poisonTile = true := by
  have hrod {u : State} (h : u.quiet = (s.setRod (17 * f + posR) { s.rod (17 * f + posR) with poisonTile := true }).quiet) :
      (u.rod (17 * f + posR)).poisonTile = true := by
    have hu : u.quiet.rod (17 * f + posR) = _ := congrArg (fun s : State => s.rod (17 * f + posR)) h
    exact (congrArg Rod.poisonTile hu).trans (congrArg Rod.poisonTile (setRod_rod_same ..))
  unfold State.voted
  dsimp only
  rw [if_neg (by decide), if_neg (by decide)]
  split
  · exact hrod (by rw [quiet_raise, quiet_bump])
  · exact hrod (by rw [quiet_postCtx, quiet_raise, quiet_bump])

/-- Settles O49: records by their layout, switches by what a switch asks of one rod, votes by their outcomes. -/
theorem slicesAndVotesAct : Obligations.SlicesAndVotesAct := by
  unfold Obligations.SlicesAndVotesAct
  refine ⟨fun g => ?_, fun s f => ?_, switchRod_spec, fun s i => ?_, restored_spec, saved_switching, fun s f sigR sigS => ?_,
    fun s f k posR g => ⟨voted_lost s f k posR g, voted_spareLost s f k posR g, voted_none s f k posR g⟩⟩
  · obtain ⟨h1, h2, h3, h4⟩ := record_words g
    exact ⟨g.length_record, h1, h2, h3, h4, fun n h => ⟨record_getS g h, record_getV g h⟩, fun n h => record_getAcc g h⟩
  · obtain ⟨hoff, hon⟩ := sliceBoundary_spec s f
    obtain ⟨hzoff, hzon⟩ := fbZeroDone_spec s f
    exact ⟨fun h => ⟨hoff h, hzoff h⟩, fun h => ⟨(hon h).1, (hon h).2, hzon h⟩, startSwitch_cur s f, startSwitch_voting⟩
  · obtain ⟨hsave, hsaves⟩ := rodSaveDone_spec s i
    obtain ⟨hrestore, hrestores⟩ := rodRestoreDone_spec s i
    obtain ⟨hover, hidle⟩ := tileOverrun_spec s i
    exact ⟨hsave, rodZeroDone_idle, hrestore, fun hc => ⟨hsaves hc, rodZeroDone_spec hc, hrestores hc⟩, hover, hidle⟩
  · obtain ⟨hno, hmis⟩ := checkMismatch_spec s f sigR sigS
    obtain ⟨hnone, hvote⟩ := voteDone_spec s f
    exact ⟨fun h => ⟨hno h, hnone h⟩, fun k hk => ⟨(hmis k hk).1, (hmis k hk).2, hvote k hk⟩⟩

end Sys2Proof.Machine
end

section
/-!
Jobs at their target (R74, R242, R244, R245, R250, R289).
-/

namespace Sys2Proof.Machine

/-! ### JOB_PLACE (R242, R244) -/

theorem jobPlace_spec {s t : State} {port : Fin 16} {p : Packet} {v : InSlot} (h : s.AdmitsMgr 0xA2 port p t v) :
    let b := v.pkt.own
    let id := field b 0 2
    let j := jobOfRecord v.ctx b
    let k := cmdSlot 0xA2 p
    let bad := b.length < 112 ∨ b.length < placeLength b ∨ zeros b 2 6 = false ∨ 1024 ≤ id ∨ (tblGet? t.jobs id).isSome = true
    (bad → exec (.jobPlace port p) s = .next (t.complete k stMalformed)) ∧
    (¬bad → (t.ctx v.ctx).st ≠ .active → exec (.jobPlace port p) s = .next (t.complete k stContextGone)) ∧
    (¬bad → (t.ctx v.ctx).st = .active → ∀ u,
      (t.readSections j 0 (mSections j.manifest) = (u, .wait) → exec (.jobPlace port p) s = .next (u.engineWait k)) ∧
      (∀ i off, t.readSections j 0 (mSections j.manifest) = (u, .missing i off) →
        exec (.jobPlace port p) s = .next (u.refuseLoad k 0x0F i off)) ∧
      (∀ l, t.readSections j 0 (mSections j.manifest) = (u, .ok l) →
        (∀ i, badDigest j.manifest l = some i → exec (.jobPlace port p) s = .next (u.refuseLoad k 0x10 i 0)) ∧
        (badDigest j.manifest l = none →
          let lead := (u.acceptedAt v).1 + u.actBits .clk 0 0x040 15 0 * 1000
          (j.launch < lead → exec (.jobPlace port p) s = .next (u.refuseLoad k 0x11 0xFF 0)) ∧
          (lead ≤ j.launch → (u.acceptedAt v).2 = false → exec (.jobPlace port p) s = .next (u.complete k stBusy)) ∧
          (lead ≤ j.launch → (u.acceptedAt v).2 = true → ∀ w,
            (u.writeRecords j l j.rodsOf = (w, .wait) → exec (.jobPlace port p) s = .next (w.engineWait k)) ∧
            (∀ a b c, u.writeRecords j l j.rodsOf = (w, .failed a b c) →
              exec (.jobPlace port p) s = .next (w.refuseLoad k 0x08 0xFF 0)) ∧
            (u.writeRecords j l j.rodsOf = (w, .done) →
              exec (.jobPlace port p) s = .next ((w.addJob id j).complete k stOk)))))) := by
  obtain ⟨ha, hv⟩ := h
  intro b id j k bad
  have hact : exec (.jobPlace port p) s = .next (t.actJobPlace k) := congrArg Host.Outcome.next (arrive_of_admits ha _)
  unfold State.actJobPlace at hact
  rw [hv] at hact
  dsimp only at hact
  refine ⟨fun h => hact.trans (congrArg _ (if_pos h)), fun h hc => hact.trans (congrArg _ ((if_neg h).trans (if_pos hc))), fun h hc u => ?_⟩
  have hread := hact.trans (congrArg Host.Outcome.next ((if_neg h).trans (if_neg (not_not_intro hc))))
  refine ⟨fun hr => hread.trans ?_, fun i off hr => hread.trans ?_, fun l hr => ?_⟩
  · rw [show t.readSections (jobOfRecord v.ctx v.pkt.own) 0 (mSections (jobOfRecord v.ctx v.pkt.own).manifest) = _ from hr]
  · rw [show t.readSections (jobOfRecord v.ctx v.pkt.own) 0 (mSections (jobOfRecord v.ctx v.pkt.own).manifest) = _ from hr]
  rw [show t.readSections (jobOfRecord v.ctx v.pkt.own) 0 (mSections (jobOfRecord v.ctx v.pkt.own).manifest) = _ from hr] at hread
  dsimp only at hread
  refine ⟨fun i hb => hread.trans ?_, fun hb => ?_⟩
  · rw [show badDigest (jobOfRecord v.ctx v.pkt.own).manifest l = _ from hb]
  rw [show badDigest (jobOfRecord v.ctx v.pkt.own).manifest l = _ from hb] at hread
  dsimp only at hread
  intro lead
  refine ⟨fun hl => hread.trans (congrArg _ (if_pos hl)), fun hl hk => hread.trans (congrArg _ ((if_neg (Nat.not_lt.2 hl)).trans
    (if_pos (by rw [hk]; decide)))), fun hl hk w => ?_⟩
  have hwrite := hread.trans (congrArg Host.Outcome.next ((if_neg (Nat.not_lt.2 hl)).trans (if_neg (by rw [hk]; decide))))
  refine ⟨fun hw => hwrite.trans ?_, fun a b c hw => hwrite.trans ?_, fun hw => hwrite.trans ?_⟩
  all_goals rw [show u.writeRecords (jobOfRecord v.ctx v.pkt.own) l (jobOfRecord v.ctx v.pkt.own).rodsOf = _ from hw]

theorem addJob_jobs (s : State) (id : Nat) (j : Job) : tblGet? (s.addJob id j).jobs id = some j := by
  have hjobs : (s.addJob id j).jobs = (s.setJob id j).jobs := foldl_keeps State.jobs (fun _ _ => by rfl) _ _
  rw [hjobs]
  exact (tblGet?_put ..).trans (if_pos rfl)

/-! ### JOB_STEP (R289) -/

theorem jobStep_spec {s t : State} {port : Fin 16} {p : Packet} {v : InSlot} (h : s.AdmitsCtx 0xA7 port p t v) :
    let b := v.pkt.own
    let id := field b 0 2
    let k := cmdSlot 0xA7 p
    (t.stepCheck v ≠ stOk → exec (.jobStep port p) s = .next (t.complete k (t.stepCheck v))) ∧
    (t.stepCheck v = stOk → ∀ j, tblGet? t.jobs id = some j → ∀ u,
      (t.writeSteps j.ctx (field b 16 8) j.rodsOf = (u, .wait) → exec (.jobStep port p) s = .next (u.engineWait k)) ∧
      (∀ st x y, t.writeSteps j.ctx (field b 16 8) j.rodsOf = (u, .failed st x y) →
        exec (.jobStep port p) s = .next (u.complete k st)) ∧
      (t.writeSteps j.ctx (field b 16 8) j.rodsOf = (u, .done) → exec (.jobStep port p) s =
        .next ((u.setJob id { j with
          seed := field b 8 8, step0 := field b 16 8
          stop := if bit (field b 24 8) 63 then some (field b 24 8 % 2 ^ 44) else none }).complete k stOk))) := by
  obtain ⟨ha, hv⟩ := h
  intro b id k
  have hact : exec (.jobStep port p) s = .next (t.actJobStep k) := congrArg Host.Outcome.next (arrive_of_admits ha _)
  unfold State.actJobStep at hact
  rw [hv] at hact
  dsimp only at hact
  refine ⟨fun h => hact.trans (congrArg _ (ifOk_refused _ _ _ h)), fun h j hj u => ?_⟩
  have hwrite := hact.trans (congrArg Host.Outcome.next (ifOk_passed _ _ _ h))
  rw [show tblGet? t.jobs (field v.pkt.own 0 2) = some j from hj] at hwrite
  dsimp only at hwrite
  refine ⟨fun hw => hwrite.trans ?_, fun st x y hw => hwrite.trans ?_, fun hw => hwrite.trans ?_⟩
  all_goals rw [show t.writeSteps j.ctx (field v.pkt.own 16 8) j.rodsOf = _ from hw]

theorem stepCheck_spec (t : State) (v : InSlot) (hnew : v.accepted = none) :
    let b := v.pkt.own
    ((t.ctx v.ctx).st ≠ .active → t.stepCheck v = stContextGone) ∧
    ((t.ctx v.ctx).st = .active →
      (t.memberOrMgr v = false → t.stepCheck v = stPermission) ∧
      (t.memberOrMgr v = true →
        ((∀ j, tblGet? t.jobs (field b 0 2) = some j → j.ctx ≠ v.ctx) → t.stepCheck v = stFnDisabled) ∧
        (∀ j, tblGet? t.jobs (field b 0 2) = some j → j.ctx = v.ctx →
          let ok := b.length = 32 ∧ zeros b 2 6 = true ∧ j.launched = false ∧ t.leadTick ≤ j.launch ∧
            field b 16 8 % 2 ^ 20 = 0 ∧ bits (field b 24 8) 62 44 = 0
          (ok → t.stepCheck v = stOk) ∧ (¬ok → t.stepCheck v = stMalformed)))) := by
  intro b
  unfold State.stepCheck
  dsimp only
  refine ⟨fun h => if_pos h, fun h => ?_⟩
  rw [if_neg (not_not_intro h), if_neg (by rw [hnew]; decide)]
  refine ⟨fun hm => if_pos (by rw [hm]; decide), fun hm => ?_⟩
  rw [if_neg (by rw [hm]; decide)]
  refine ⟨fun hj => ?_, fun j hj hc => ?_⟩
  · split
    · rfl
    · next j hsome => exact if_pos (hj j hsome)
  · rw [show tblGet? t.jobs (field v.pkt.own 0 2) = some j from hj]
    dsimp only
    rw [if_neg (not_not_intro hc)]
    unfold State.leadTick
    refine ⟨fun ⟨h1, h2, h3, h4, h5, h6⟩ => if_neg ?_, fun hno => if_pos ?_⟩
    · rintro (h | h | h | h | h | h)
      · exact h h1
      · exact absurd (h2.symm.trans h) (by decide)
      · exact absurd (h3.symm.trans h) (by decide)
      · exact absurd h4 (Nat.not_le.2 h)
      · exact h h5
      · exact h h6
    · by_contra hall
      simp only [not_or, not_not, Nat.not_lt, Bool.not_eq_false, Bool.not_eq_true] at hall
      exact hno hall

/-! ### JOB_LAUNCH (R245) -/

/-- A rod that a job's launch reaches stands, or was idle and restores under the job's context. -/
def State.LaunchedFrom (s t : State) (c : Nat) : Prop :=
  ∀ i, s.rod i = t.rod i ∨ (t.rod i).st = .idle ∧ (s.rod i).st = .restoring ∧ (s.rod i).ctx = c

/-- Launching a rod changes rods only. -/
theorem launchRod_eq (s : State) (id : Nat) (j : Job) (x : Nat × Nat × Nat × Nat) :
    ∃ y, s.launchRod id j x = { s with rods := y } ∧ (s.launchRod id j x).LaunchedFrom s j.ctx := by
  unfold State.launchRod
  dsimp only
  split
  · exact ⟨_, rfl, fun i => .inl rfl⟩
  · split
    · next h =>
      refine ⟨_, rfl, fun i => ?_⟩
      by_cases hi : i = s.physRod x.2.2.1 x.2.2.2
      · subst hi
        exact .inr ⟨h.2.1, by rw [setRod_rod_same], by rw [setRod_rod_same]⟩
      · exact .inl ((setRod_rod ..).trans (if_neg hi))
    · exact ⟨_, rfl, fun i => .inl rfl⟩

theorem LaunchedFrom.trans {s t u : State} {c : Nat} (h : s.LaunchedFrom t c) (h' : t.LaunchedFrom u c) : s.LaunchedFrom u c := by
  intro i
  rcases h i with h1 | ⟨h1, h2, h3⟩
  · rw [h1]
    exact h' i
  · rcases h' i with h4 | ⟨-, h5, -⟩
    · exact .inr ⟨h4 ▸ h1, h2, h3⟩
    · exact absurd (h1.symm.trans h5) (by decide)

theorem launchRods_eq (id : Nat) (j : Job) (l : List (Nat × Nat × Nat × Nat)) (s : State) :
    ∃ y, l.foldl (fun s x => s.launchRod id j x) s = { s with rods := y } ∧
      (l.foldl (fun s x => s.launchRod id j x) s).LaunchedFrom s j.ctx := by
  induction l generalizing s with
  | nil => exact ⟨_, rfl, fun i => .inl rfl⟩
  | cons x l ih =>
    obtain ⟨y, hy, hfrom⟩ := launchRod_eq s id j x
    obtain ⟨z, hz, hrest⟩ := ih (s.launchRod id j x)
    refine ⟨z, hz.trans (by rw [hy]), LaunchedFrom.trans hrest hfrom⟩

/-- The job's functions enabled, and the job launched. -/
def State.launchJob (t : State) (id : Nat) (j : Job) : State :=
  { t.setJob id { j with launched := true } with
    fns := tblMap t.fns fun _ f => if f.job = id ∧ f.st = .loaded then { f with st := .enabled } else f }

theorem jobLaunch_spec (s : State) (id : Nat) :
    (tblGet? s.jobs id = none → exec (.jobLaunch id) s = .next s) ∧
    (∀ j, tblGet? s.jobs id = some j →
      let t := s.elapseToTick j.launch
      let due := t.dueBefore j.launch 10 = true ∨ ∃ q ∈ j.places, (t.frame q.1).cur ≠ t.currentAt q.1 t.tick.count
      (j.launched = true ∨ due → exec (.jobLaunch id) s = .next s) ∧
      (j.launched = false → ¬due → ∃ u, exec (.jobLaunch id) s = .next u ∧
        tblGet? u.jobs id = some { j with launched := true } ∧ u.mem = t.mem ∧
        (∀ n f, tblGet? t.fns n = some f →
          tblGet? u.fns n = some (if f.job = id ∧ f.st = .loaded then { f with st := .enabled } else f)) ∧
        ∀ i, u.rod i = t.rod i ∨ (t.rod i).st = .idle ∧ (u.rod i).st = .restoring ∧ (u.rod i).ctx = j.ctx)) := by
  have hexec : exec (.jobLaunch id) s = execJobLaunch id s := rfl
  unfold execJobLaunch at hexec
  refine ⟨fun h => by rw [hexec, h], fun j hj => ?_⟩
  rw [hj] at hexec
  dsimp only at hexec
  intro t due
  have hdue : (t.dueBefore j.launch 10 || j.places.any fun p => (t.frame p.1).cur != t.currentAt p.1 t.tick.count) = true ↔ due := by
    simp [due]
  refine ⟨fun h => hexec.trans (congrArg Host.Outcome.next (if_neg fun hgo => ?_)), fun hl hnd => ?_⟩
  · rw [Bool.and_eq_true, Bool.not_eq_true', Bool.not_eq_true'] at hgo
    rcases h with h | h
    · exact absurd (hgo.1.symm.trans h) (by decide)
    · exact absurd (hgo.2.symm.trans (hdue.2 h)) (by decide)
  · have hgo : (!j.launched && !(t.dueBefore j.launch 10 || j.places.any fun p => (t.frame p.1).cur != t.currentAt p.1 t.tick.count)) = true := by
      rw [hl, Bool.eq_false_iff.2 (mt hdue.1 hnd)]
      rfl
    obtain ⟨y, hy, hfrom⟩ := launchRods_eq id j j.rodsOf (t.launchJob id j)
    refine ⟨_, hexec.trans (congrArg Host.Outcome.next ((if_pos hgo).trans hy)), (tblGet?_put ..).trans (if_pos rfl), rfl, fun n f hf => ?_,
      fun i => ?_⟩
    · show tblGet? (t.launchJob id j).fns n = _
      unfold State.launchJob
      rw [tblGet?_map, show tblGet? t.fns n = some f from hf, Option.map_some]
    · have hi := hfrom i
      rw [hy] at hi
      exact hi

/-! ### JOB_REMOVE (R250) -/

theorem jobRemove_spec {s t : State} {port : Fin 16} {p : Packet} {v : InSlot} (h : s.AdmitsMgr 0xA3 port p t v) :
    let id := field v.pkt.own 0 2
    let k := cmdSlot 0xA3 p
    (tblGet? t.jobs id = none → exec (.jobRemove port p) s = .next (t.complete k stFnDisabled)) ∧
    (∀ j, tblGet? t.jobs id = some j →
      let ok := v.pkt.own.length = 8 ∧ zeros v.pkt.own 2 6 = true
      (¬ok → exec (.jobRemove port p) s = .next (t.complete k stMalformed)) ∧
      (ok → j.ctx ≠ v.ctx → exec (.jobRemove port p) s = .next (t.complete k stFnDisabled)) ∧
      (ok → j.ctx = v.ctx →
        let j' : Job := { j with removing := some k }
        let u : State := { (t.setJob id j') with rods := tblMap t.rods fun _ r => r.stopFor id }
        let inTile := (u.rods.any fun r => (r.2.job.any fun x => x.1 == id) && r.2.inTile)
        (inTile = true → exec (.jobRemove port p) s = .next u) ∧
        (inTile = false → exec (.jobRemove port p) s = .next ((u.zeroRings j').dropJob id)))) := by
  obtain ⟨ha, hv⟩ := h
  intro id k
  have hact : exec (.jobRemove port p) s = .next (t.actJobRemove k) := congrArg Host.Outcome.next (arrive_of_admits ha _)
  unfold State.actJobRemove at hact
  rw [hv] at hact
  dsimp only at hact
  refine ⟨fun h => hact.trans ?_, fun j hj => ?_⟩
  · rw [show tblGet? t.jobs (field v.pkt.own 0 2) = none from h]
  rw [show tblGet? t.jobs (field v.pkt.own 0 2) = some j from hj] at hact
  dsimp only at hact
  intro ok
  have hbad : (v.pkt.own.length ≠ 8 ∨ zeros v.pkt.own 2 6 = false) ↔ ¬ok := by
    simp only [ok, not_and_or, Bool.not_eq_true, ne_eq]
  refine ⟨fun h => hact.trans (congrArg _ (if_pos (hbad.2 h))), fun h hc => hact.trans (congrArg _ ((if_neg fun hb => hbad.1 hb h).trans (if_pos hc))),
    fun h hc => ?_⟩
  intro j' u inTile
  have hremove := hact.trans (congrArg Host.Outcome.next ((if_neg fun hb => hbad.1 hb h).trans (if_neg (not_not_intro hc))))
  have htry : u.tryRemove id = if inTile = false then (u.zeroRings j').dropJob id else u := by
    have hget : tblGet? u.jobs id = some j' := (tblGet?_put ..).trans (if_pos rfl)
    unfold State.tryRemove
    rw [hget]
    dsimp only
    exact ite_congr (propext ⟨fun h => h.2, fun h => ⟨rfl, h⟩⟩) (fun _ => rfl) fun _ => rfl
  refine ⟨fun hin => hremove.trans (congrArg _ (htry.trans (if_neg (by rw [hin]; decide)))), fun hin => hremove.trans (congrArg _ (htry.trans (if_pos hin)))⟩

/-- Settles O50: each command by the equations of its action, the launch by the rods it reaches one after another. -/
theorem jobsArePlacedAndRun : Obligations.JobsArePlacedAndRun := by
  unfold Obligations.JobsArePlacedAndRun
  refine ⟨fun s t port p v h => ?_, fun _ _ _ _ _ h => jobStep_spec h, stepCheck_spec, jobLaunch_spec, fun _ _ _ _ _ h => jobRemove_spec h⟩
  obtain ⟨hbad, hgone, hread⟩ := jobPlace_spec h
  refine ⟨hbad, hgone, fun hb hc u => ?_⟩
  obtain ⟨hwait, hmissing, hok⟩ := hread hb hc u
  refine ⟨hwait, hmissing, fun l hl => ⟨(hok l hl).1, fun hd => ?_⟩⟩
  obtain ⟨hearly, hunlocked, hrecords⟩ := (hok l hl).2 hd
  refine ⟨hearly, hunlocked, fun h1 h2 w => ?_⟩
  obtain ⟨hw, hf, hdone⟩ := hrecords h1 h2 w
  exact ⟨hw, hf, fun h3 => ⟨hdone h3, addJob_jobs ..⟩⟩

end Sys2Proof.Machine
end

section
/-!
The loader of the active manager (R240–R243, R250, R433).
-/

namespace Sys2Proof.Machine

/-! ### JOB_LOAD and JOB_UNLOAD (R240, R241, R433) -/

theorem jobLoad_spec {s t u : State} {port : Fin 16} {p : Packet} {v : InSlot} {st : Nat}
    (hcheck : t.loaderCheck v (field v.pkt.own 0 2) = (u, st)) (h : s.AdmitsCtx 0xA0 port p t v) :
    let b := v.pkt.own
    let k := cmdSlot 0xA0 p
    let ok := 8 ≤ b.length ∧ b.length ≤ 16392 ∧ zeros b 2 6 = true ∧ field b 0 2 < 4096
    (st ≠ stOk → exec (.jobLoad port p) s = .next (u.complete k st)) ∧
    (st = stOk → ¬ok → exec (.jobLoad port p) s = .next (u.complete k stMalformed)) ∧
    (st = stOk → ok → exec (.jobLoad port p) s = .next (u.change k fun s => s.startLoad k)) := by
  obtain ⟨ha, hv⟩ := h
  intro b k ok
  have hact : exec (.jobLoad port p) s = .next (t.actJobLoad k) := congrArg Host.Outcome.next (arrive_of_admits ha _)
  unfold State.actJobLoad at hact
  rw [hv] at hact
  dsimp only at hact
  rw [hcheck] at hact
  dsimp only at hact
  have hbad : (v.pkt.own.length < 8 ∨ 16392 < v.pkt.own.length ∨ zeros v.pkt.own 2 6 = false ∨ 4096 ≤ field v.pkt.own 0 2) ↔ ¬ok := by
    simp only [ok, b, not_and_or, Nat.not_le, Nat.not_lt, Bool.not_eq_true]
  exact ⟨fun h => hact.trans (congrArg _ (ifOk_refused _ _ _ h)),
    fun h hno => hact.trans (congrArg _ ((ifOk_passed _ _ _ h).trans (if_pos (hbad.2 hno)))),
    fun h hok => hact.trans (congrArg _ ((ifOk_passed _ _ _ h).trans (if_neg fun hb => hbad.1 hb hok)))⟩

theorem jobUnload_spec {s t u : State} {port : Fin 16} {p : Packet} {v : InSlot} {st : Nat}
    (hcheck : t.loaderCheck v (field v.pkt.own 0 2) = (u, st)) (h : s.AdmitsCtx 0xA1 port p t v) :
    let b := v.pkt.own
    let k := cmdSlot 0xA1 p
    let ok := b.length = 8 ∧ zeros b 4 4 = true ∧ field b 0 2 < 4096
    (st ≠ stOk → exec (.jobUnload port p) s = .next (u.complete k st)) ∧
    (st = stOk → ¬ok → exec (.jobUnload port p) s = .next (u.complete k stMalformed)) ∧
    (st = stOk → ok → exec (.jobUnload port p) s = .next (u.change k fun s => s.startUnload k)) := by
  obtain ⟨ha, hv⟩ := h
  intro b k ok
  have hact : exec (.jobUnload port p) s = .next (t.actJobUnload k) := congrArg Host.Outcome.next (arrive_of_admits ha _)
  unfold State.actJobUnload at hact
  rw [hv] at hact
  dsimp only at hact
  rw [hcheck] at hact
  dsimp only at hact
  have hbad : (v.pkt.own.length ≠ 8 ∨ zeros v.pkt.own 4 4 = false ∨ 4096 ≤ field v.pkt.own 0 2) ↔ ¬ok := by
    simp only [ok, b, not_and_or, Nat.not_lt, Bool.not_eq_true, ne_eq]
  exact ⟨fun h => hact.trans (congrArg _ (ifOk_refused _ _ _ h)),
    fun h hno => hact.trans (congrArg _ ((ifOk_passed _ _ _ h).trans (if_pos (hbad.2 hno)))),
    fun h hok => hact.trans (congrArg _ ((ifOk_passed _ _ _ h).trans (if_neg fun hb => hbad.1 hb hok)))⟩

theorem loaderCheck_spec (t : State) (v : InSlot) (target : Nat) :
    (t.mgr.role ≠ 2 → t.loaderCheck v target = (t, stUnsupported)) ∧
    (t.mgr.role = 2 → target = t.ep → t.loaderCheck v target = (t, if t.isMember v.ctx v.src then stOk else stPermission)) ∧
    (t.mgr.role = 2 → target ≠ t.ep → t.loaderCheck v target = (t.free.2,
      if (t.free.2.asSeen target t.free.1 v.ctx []).isMember v.ctx v.src then stOk else stPermission)) := by
  unfold State.loaderCheck
  exact ⟨fun h => if_pos h, fun h ht => (if_neg (not_not_intro h)).trans (if_pos ht),
    fun h ht => (if_neg (not_not_intro h)).trans (if_neg ht)⟩

/-! ### A load starts (R241, R242) -/

theorem sendPlace_spec (x : State) (k : Nat) (l : Load) :
    (x.loadClash l = true → x.sendPlace k l = x.endChange k stBusy) ∧
    (x.loadClash l = false → ∀ y st, x.sendLoadStep { l with todo := [.place] } = (y, st) →
      (st = stOk → x.sendPlace k l = (y.reserve l).1.putLoad (y.reserve l).2) ∧
      (st ≠ stOk → x.sendPlace k l = y.endChange k st)) := by
  unfold State.sendPlace
  refine ⟨fun h => if_pos h, fun h y st hs => ?_⟩
  rw [if_neg (by rw [h]; decide), hs]
  exact ⟨fun h => if_pos h, fun h => if_neg h⟩

theorem startLoad_spec {s : State} {k : Nat} {v : InSlot} (hv : s.slot? k = some v) :
    let target := field v.pkt.own 0 2
    let m := v.pkt.own.drop 8
    let u := s.free.2
    let fault := manifestFault m (if target = u.ep then Config.rev.toNat else known s.free.1 12 0 % 16)
    (∀ reason i, fault = some (reason, i) → s.startLoad k = (u.refuseLoad k reason i 0).closeChange) ∧
    (fault = none →
      (target ≠ u.ep → s.startLoad k = u.loadThere k target v.ctx m s.free.1) ∧
      (target = u.ep → ∀ x,
        (∀ reason i n, u.loadAt u.firstHop k v.ctx m = (x, .inr (reason, i, n)) →
          s.startLoad k = (x.refuseLoad k reason i n).closeChange) ∧
        (∀ l, u.loadAt u.firstHop k v.ctx m = (x, .inl l) → s.startLoad k = x.sendPlace k l))) := by
  intro target m u fault
  unfold State.startLoad
  rw [hv]
  dsimp only
  refine ⟨fun reason i h => ?_, fun h => ?_⟩
  · rw [show manifestFault (v.pkt.own.drop 8) (if field v.pkt.own 0 2 = s.free.2.ep then Config.rev.toNat
      else known s.free.1 12 0 % 16) = _ from h]
  rw [show manifestFault (v.pkt.own.drop 8) (if field v.pkt.own 0 2 = s.free.2.ep then Config.rev.toNat
      else known s.free.1 12 0 % 16) = _ from h]
  dsimp only
  refine ⟨fun ht => if_pos ht, fun ht x => ?_⟩
  rw [if_neg (not_not_intro ht)]
  refine ⟨fun reason i n hl => ?_, fun l hl => ?_⟩
  all_goals rw [show s.free.2.loadAt s.free.2.firstHop k v.ctx (v.pkt.own.drop 8) = _ from hl]

/-! ### The completion of the loader's JOB_PLACE (R242) -/

theorem jobPlaceComplete_other {s : State} {port : Fin 16} {p : Packet}
    (h : ∀ o req job, s.outMatch (p.ofType tCmpl) ≠ some (o, req, .loader 0 job)) : exec (.jobPlaceComplete port p) s = .next s := by
  have hexec : exec (.jobPlaceComplete port p) s = execJobPlaceComplete port p s := rfl
  rw [hexec]
  unfold execJobPlaceComplete
  split
  · next o req job hm => exact absurd hm (h o req job)
  · rfl

theorem jobPlaceComplete_loader {s : State} {port : Fin 16} {p : Packet} {o : OutSlot} {req : Packet} {job : Nat}
    (h : s.outMatch (p.ofType tCmpl) = some (o, req, .loader 0 job)) :
    exec (.jobPlaceComplete port p) s = .next (s.arriveCmpl port p State.answered) := by
  have hexec : exec (.jobPlaceComplete port p) s = execJobPlaceComplete port p s := rfl
  rw [hexec]
  unfold execJobPlaceComplete
  rw [h]
  rfl

/-- A completion from this module's own units, or on a port. -/
theorem arriveCmpl_spec (s : State) (port : Fin 16) (p : Packet) (act : State → Answer → State) :
    let q := p.ofType tCmpl
    (∀ u w a, s.takeLocal q = some u → u.takeCmpl none q = (w, some a) → s.arriveCmpl port p act = act w a) ∧
    (∀ u w, s.takeLocal q = some u → u.takeCmpl none q = (w, none) → s.arriveCmpl port p act = w) ∧
    (s.takeLocal q = none → s.portUp port = false → s.arriveCmpl port p act = s) ∧
    (s.takeLocal q = none → s.portUp port = true →
      let v := (s.received port q none).learn port q
      (q.dst ≠ v.ep → s.arriveCmpl port p act = v.transit port q) ∧
      (q.dst = v.ep → ∀ w,
        (∀ a, v.takeCmpl (some port.val) q = (w, some a) → s.arriveCmpl port p act = act w a) ∧
        (v.takeCmpl (some port.val) q = (w, none) → s.arriveCmpl port p act = w))) := by
  intro q
  unfold State.arriveCmpl
  dsimp only
  refine ⟨fun u w a hl ht => ?_, fun u w hl ht => ?_, fun hl hp => ?_, fun hl hp => ?_⟩
  · rw [show s.takeLocal (p.ofType tCmpl) = _ from hl]
    dsimp only
    rw [show u.takeCmpl none (p.ofType tCmpl) = _ from ht]
  · rw [show s.takeLocal (p.ofType tCmpl) = _ from hl]
    dsimp only
    rw [show u.takeCmpl none (p.ofType tCmpl) = _ from ht]
  · rw [show s.takeLocal (p.ofType tCmpl) = _ from hl]
    exact if_neg (by rw [hp]; decide)
  · rw [show s.takeLocal (p.ofType tCmpl) = _ from hl]
    dsimp only
    rw [if_pos hp]
    refine ⟨fun hd => if_pos hd, fun hd w => ?_⟩
    rw [if_neg (not_not_intro hd)]
    refine ⟨fun a ht => ?_, fun ht => ?_⟩
    all_goals rw [show ((s.received port (p.ofType tCmpl) none).learn port (p.ofType tCmpl)).takeCmpl (some port.val) (p.ofType tCmpl) = _ from ht]

/-- What the answer to a JOB_PLACE does with its load (R242). -/
theorem placeAnswer_spec {s : State} {a : Answer} {job : Nat} {l : Load} (hl : s.answeredLoad a job = some l) (hp : l.phase = .placing) :
    (a.status = stOk → l.target = s.ep → l.entries = [] → l.windows = [] →
      ∃ u : State, s.placeAnswer a job = u.endChange l.slot stOk (leBytes 2 l.job ++ zeroBytes 6 ++ leBytes 8 l.launch ++
        (List.range 16).flatMap fun i => leBytes 2 (l.fns.getD i 0xFFFF)) ∧ u.loads = s.loads.map fun x => x.settled l) ∧
    (a.status = stRefusedLoad → s.placeAnswer a job = (s.releaseLoad l).endChange l.slot stRefusedLoad (a.data.take 8)) ∧
    (a.status ≠ stOk → a.status ≠ stRefusedLoad → s.placeAnswer a job = (s.releaseLoad l).endChange l.slot a.status) := by
  unfold State.placeAnswer
  rw [hl]
  dsimp only
  rw [if_neg (not_not_intro hp)]
  refine ⟨fun hs ht he hw => ?_, fun hs => ?_, fun hs hr => ?_⟩
  · refine ⟨((s.settleLoad l).tickBefore l.launch).1, ?_, rfl⟩
    rw [if_pos hs]
    refine (if_pos ht).trans ?_
    rw [he, hw]
    rfl
  · rw [if_neg (by rw [hs]; decide), if_pos hs]
  · rw [if_neg hs, if_neg hr]

/-! ### An unload starts (R250) -/

theorem startUnload_spec {s : State} {k : Nat} {v : InSlot} (hv : s.slot? k = some v) :
    let target := field v.pkt.own 0 2
    let job := field v.pkt.own 2 2
    (s.loadNamed target job v.ctx = none → s.startUnload k = s.endChange k stFnDisabled) ∧
    (∀ l, s.loadNamed target job v.ctx = some l → target = s.ep → (tblGet? s.jobs job).any (fun j => j.ctx == v.ctx) = true →
      let u := s.free.2
      let may := l.phase = .placed ∧ u.unloadable job = true
      (¬may → s.startUnload k = u.endChange k stBusy) ∧
      (may → ∀ w n, u.issue (u.cmdPacket 0xA3 target l.ctx (leBytes 2 job ++ zeroBytes 6)) (u.mgrKeyRef target) (.loader 1 job)
          (some l.ctx) = (w, .sent n) →
        ∃ x : State, s.startUnload k = x ∧ x.mem = w.mem ∧ x.loads = (w.loads.filter fun y => !(y.target == target && y.job == job)) ++
          [{ l with phase := .removing, slot := k }])) := by
  intro target job
  unfold State.startUnload
  rw [hv]
  dsimp only
  refine ⟨fun h => ?_, fun l hl ht hj => ?_⟩
  · rw [show s.loadNamed (field v.pkt.own 0 2) (field v.pkt.own 2 2) v.ctx = none from h]
  rw [show s.loadNamed (field v.pkt.own 0 2) (field v.pkt.own 2 2) v.ctx = some l from hl]
  dsimp only
  have hheld : ¬(field v.pkt.own 0 2 = s.ep ∧ (tblGet? s.jobs (field v.pkt.own 2 2)).any (fun j => j.ctx == v.ctx) = false) :=
    fun h => absurd (hj.symm.trans h.2) (by decide)
  rw [if_neg hheld]
  have hguard : (l.phase ≠ .placed ∨ (if field v.pkt.own 0 2 = s.free.2.ep then s.free.2.unloadable (field v.pkt.own 2 2)
      else l.unloadableThere s.free.1) = false) ↔ ¬(l.phase = .placed ∧ s.free.2.unloadable job = true) := by
    rw [show (if field v.pkt.own 0 2 = s.free.2.ep then s.free.2.unloadable (field v.pkt.own 2 2) else l.unloadableThere s.free.1) =
      s.free.2.unloadable (field v.pkt.own 2 2) from if_pos ht]
    simp only [job, not_and_or, Bool.not_eq_true, ne_eq]
  refine ⟨fun h => if_pos (hguard.2 h), fun h w n hi => ?_⟩
  rw [if_neg fun hno => hguard.1 hno h, show s.free.2.issue _ _ _ _ = _ from hi]
  exact ⟨_, rfl, rfl, rfl⟩

/-- Settles O51: commands by their checks, loads and unloads by the branches of their start, answers by their status. -/
theorem loaderServesMembers : Obligations.LoaderServesMembers := by
  unfold Obligations.LoaderServesMembers
  refine ⟨fun s t u port p v st => ?_, loaderCheck_spec, fun s k v hv => ?_, fun s port p => ?_, fun _ _ _ _ => placeAnswer_spec,
    fun _ _ _ => startUnload_spec⟩
  · intro b target hcheck
    exact ⟨jobLoad_spec hcheck, jobUnload_spec hcheck⟩
  · obtain ⟨hfault, hnone⟩ := startLoad_spec hv
    refine ⟨hfault, fun h => ⟨(hnone h).1, fun ht x => ⟨((hnone h).2 ht x).1, fun l hl => ?_⟩⟩⟩
    have hstart := ((hnone h).2 ht x).2 l hl
    obtain ⟨hclash, hsend⟩ := sendPlace_spec x k l
    refine ⟨fun hc => hstart.trans (hclash hc), fun hc y st hs => ?_⟩
    obtain ⟨hok, hno⟩ := hsend hc y st hs
    exact ⟨fun h => hstart.trans (hok h), fun h => hstart.trans (hno h)⟩
  · refine ⟨jobPlaceComplete_other, fun o req job h => ?_⟩
    have hexec := jobPlaceComplete_loader (port := port) h
    obtain ⟨hlocal, hquiet, hdown, hup⟩ := arriveCmpl_spec s port p State.answered
    refine ⟨fun u w a h1 h2 => hexec.trans (congrArg _ (hlocal u w a h1 h2)), fun u w h1 h2 => hexec.trans (congrArg _ (hquiet u w h1 h2)),
      fun h1 h2 => hexec.trans (congrArg _ (hdown h1 h2)), fun h1 h2 => ?_⟩
    obtain ⟨haway, hhere⟩ := hup h1 h2
    exact ⟨fun h3 => hexec.trans (congrArg _ (haway h3)), fun h3 w => ⟨fun a h4 => hexec.trans (congrArg _ ((hhere h3 w).1 a h4)),
      fun h4 => hexec.trans (congrArg _ ((hhere h3 w).2 h4))⟩⟩

end Sys2Proof.Machine
end

section
/-!
Functions and their calls (R240, R246–R249), and ATTEND (R274–R277).
-/

namespace Sys2Proof.Machine

/-! ### A call is accepted (R246, R274) -/

theorem invokeRow_spec (s : State) (p : Packet) (c : Nat) : ((s.ctx c).st ≠ .active → s.invokeRow p c = .refuse stContextGone) ∧
    ((s.ctx c).st = .active → (s.fnOf (p.arg % 1024) c = none → s.invokeRow p c = .refuse stFnDisabled) ∧
      ∀ f, s.fnOf (p.arg % 1024) c = some f →
        (p.body.length ≠ fnArgBytes (s.fnEntryOf f) → s.invokeRow p c = .refuse stMalformed) ∧
        (p.body.length = fnArgBytes (s.fnEntryOf f) → s.invokeRow p c = s.callRow f)) := by
  unfold State.invokeRow
  refine ⟨fun h => if_pos h, fun h => ?_⟩
  rw [if_neg (not_not_intro h)]
  refine ⟨fun hf => by rw [hf], fun f hf => ?_⟩
  rw [hf]
  exact ⟨fun hl => if_pos hl, fun hl => if_neg (not_not_intro hl)⟩

theorem callRow_spec (s : State) (f : Fn) : (f.st = .loaded → s.callRow f = .refuse stBusy) ∧
    (f.st = .disabling ∨ f.st = .disabled → s.callRow f = .refuse stFnDisabled) ∧
    (f.st = .enabled → fnDepth (s.fnEntryOf f) ≤ f.waiting.length → s.callRow f = .refuse stBusy) ∧
    (f.st = .enabled → f.waiting.length < fnDepth (s.fnEntryOf f) → s.callRow f = .pass none 0) := by
  unfold State.callRow
  refine ⟨fun h => by rw [h], fun h => by rcases h with h | h <;> rw [h], fun h hd => ?_, fun h hd => ?_⟩
  · rw [h]
    exact if_pos hd
  · rw [h]
    exact if_neg (Nat.not_le.2 hd)

theorem invoke_spec {s t : State} {port : Fin 16} {p : Packet} {v : InSlot} {f : Fn} (ha : s.Admits invokeRules port p t)
    (hv : t.slot? (invokeRules.slot p) = some v) (hf : tblGet? t.fns (v.pkt.arg % 1024) = some f) :
    exec (.invoke port p) s = .next (t.setFn (v.pkt.arg % 1024) { f with
      waiting := f.waiting ++ [{ slot := invokeRules.slot p, entry := v.pkt.body, poison := v.poison }] }) := by
  have hact : exec (.invoke port p) s = .next (t.actInvoke (invokeRules.slot p)) := congrArg Host.Outcome.next (arrive_of_admits ha _)
  unfold State.actInvoke State.addCall at hact
  rw [hv] at hact
  dsimp only at hact
  rw [hact, hf]

/-- What an accepted ATTEND leaves before its call waits: the session's books, and the promotion it queues. -/
def State.attendNoted (t : State) (x : InSlot) (p : Profile) : State :=
  let i := field x.pkt.body 0 4 % 16384
  let v := t.session i
  let s := (t.setSession i { v with calls := v.calls + 1, lastTick := t.tick.count }).tally .kvs 0 0x50 0 1 (some x.ctx)
  if p.promote && s.nearBelow x.ctx p.low p && !s.kvs.promoting.contains i then
    { s with kvs := { s.kvs with promoting := s.kvs.promoting ++ [i] } } else s

theorem attendNoted_spec (t : State) (x : InSlot) (p : Profile) :
    let i := field x.pkt.body 0 4 % 16384
    (t.attendNoted x p).session i = { t.session i with calls := (t.session i).calls + 1, lastTick := t.tick.count } ∧
    (t.attendNoted x p).fns = t.fns ∧ (t.attendNoted x p).mem = t.mem := by
  intro i
  have hsame (s : State) (c : Bool) (l : List Nat) :
      let z := if c = true then { s with kvs := { s.kvs with promoting := l } } else s
      z.session i = s.session i ∧ z.fns = s.fns ∧ z.mem = s.mem := by cases c <;> exact ⟨rfl, rfl, rfl⟩
  obtain ⟨y, hy⟩ := State.tally_eq (t.setSession i { t.session i with calls := (t.session i).calls + 1, lastTick := t.tick.count })
    .kvs 0 0x50 0 1 (some x.ctx)
  obtain ⟨h1, h2, h3⟩ := hsame _ _ _
  unfold State.attendNoted
  dsimp only
  refine ⟨h1.trans ?_, h2.trans ?_, h3.trans ?_⟩ <;> rw [hy]
  · exact (tblGet_put ..).trans (if_pos rfl)
  · rfl
  · rfl

theorem attend_spec {s t : State} {port : Fin 16} {p : Packet} {v : InSlot} (ha : s.Admits attendRules port p t)
    (hv : t.slot? (attendRules.slot p) = some v) {q : Profile} (hq : t.profile v.ctx = some q) :
    exec (.attend port p) s = .next ((t.attendNoted v q).addCall q.fn { slot := attendRules.slot p, attend := true, ready := false
                                                                        poison := v.poison, session := field v.pkt.body 0 4 % 16384
                                                                        blocks := blockCount q v.pkt.body }) := by
  have hact : exec (.attend port p) s = .next (t.actAttend (attendRules.slot p)) := congrArg Host.Outcome.next (arrive_of_admits ha _)
  unfold State.actAttend at hact
  rw [hv] at hact
  dsimp only at hact
  rw [hact, hq]
  rfl

/-! ### A call enters, and its reply is taken (R247, R277) -/

theorem callEnter_spec {s : State} {n : Fin 1024} {f : Fn} (hf : tblGet? s.fns n = some f) :
    let entry := fnEntry (s.fnEntryOf f)
    (f.waiting = [] → exec (.callEnter n) s = .next s) ∧
    (∀ c q, f.waiting = c :: q →
      let size := (c.entry.length + 127) / 128
      (c.ready = false ∨ s.ringRoom f.job entry < size → exec (.callEnter n) s = .next s) ∧
      (c.ready = true → size ≤ s.ringRoom f.job entry →
        (s.pushElements f.job entry c.entry c.poison size = none → exec (.callEnter n) s = .next s) ∧
        (∀ u, s.pushElements f.job entry c.entry c.poison size = some u → exec (.callEnter n) s =
          .next (u.setFn n { f with waiting := q, inPipe := f.inPipe ++ [{ c with entry := [] }] })))) := by
  have hexec : exec (.callEnter n) s = execCallEnter n s := rfl
  unfold execCallEnter at hexec
  rw [hf] at hexec
  dsimp only at hexec
  intro entry
  refine ⟨fun h => by rw [hexec, h], fun c q hw => ?_⟩
  rw [hw] at hexec
  dsimp only at hexec
  intro size
  refine ⟨fun h => hexec.trans (congrArg Host.Outcome.next (if_neg ?_)), fun hr hs => ?_⟩
  · rw [Bool.and_eq_true, decide_eq_true_eq]
    rcases h with h | h
    · exact fun h2 => absurd (h.symm.trans h2.1) (by decide)
    · exact fun h2 => absurd h2.2 (Nat.not_le.2 h)
  · have hdo := hexec.trans (congrArg Host.Outcome.next (if_pos (by rw [Bool.and_eq_true, decide_eq_true_eq]; exact ⟨hr, hs⟩)))
    dsimp only at hdo
    refine ⟨fun h => hdo.trans ?_, fun u h => hdo.trans ?_⟩
    all_goals rw [show s.pushElements f.job (fnEntry (s.fnEntryOf f)) c.entry c.poison ((c.entry.length + 127) / 128) = _ from h]

theorem replyGroupReady_spec {s : State} {n : Fin 1024} {f : Fn} (hf : tblGet? s.fns n = some f) :
    let reply := fnReply (s.fnEntryOf f)
    (f.inPipe = [] → exec (.replyGroupReady n) s = .next s) ∧
    (∀ c q, f.inPipe = c :: q →
      let some_ := s.ringHeld f.job reply ≠ 0 ∨ (s.stream f.job reply).closed.isSome = true
      (¬some_ → exec (.replyGroupReady n) s = .next s) ∧
      (some_ → ∀ u c', s.takeReply f c 69632 = (u, c') →
        (c'.reply.length / 128 < u.replyNeed f c' → exec (.replyGroupReady n) s =
          .next (u.setFn n { f with inPipe := c' :: q })) ∧
        (u.replyNeed f c' ≤ c'.reply.length / 128 →
          let left (x : State) : State := (x.setFn n { f with inPipe := q }).fnSettled n
          (c'.discarded = true ∨ u.slot? c'.slot = none → exec (.replyGroupReady n) s = .next (left u)) ∧
          (∀ v, c'.discarded = false → u.slot? c'.slot = some v →
            (c'.attend = false → exec (.replyGroupReady n) s = .next (left (u.endCall c' (okOrPoison c'.badReply) c'.reply))) ∧
            (c'.attend = true → exec (.replyGroupReady n) s = .next (left (u.attendReply n f c' v))))))) := by
  have hexec : exec (.replyGroupReady n) s = execReplyGroupReady n s := rfl
  unfold execReplyGroupReady at hexec
  rw [hf] at hexec
  dsimp only at hexec
  intro reply
  refine ⟨fun h => by rw [hexec, h], fun c q hw => ?_⟩
  rw [hw] at hexec
  dsimp only at hexec
  intro some_
  have hguard : (s.ringHeld f.job (fnReply (s.fnEntryOf f)) != 0 || (s.stream f.job (fnReply (s.fnEntryOf f))).closed.isSome) = true ↔ some_ := by
    simp [some_, reply]
  refine ⟨fun h => hexec.trans (congrArg Host.Outcome.next (if_neg (mt hguard.1 h))), fun h u c' ht => ?_⟩
  have hdo := hexec.trans (congrArg Host.Outcome.next (if_pos (hguard.2 h)))
  dsimp only at hdo
  rw [show s.takeReply f c (65536 + 4096) = _ from ht] at hdo
  dsimp only at hdo
  refine ⟨fun hl => hdo.trans (congrArg _ (if_pos hl)), fun hl => ?_⟩
  have hwhole := hdo.trans (congrArg Host.Outcome.next (if_neg (Nat.not_lt.2 hl)))
  intro left
  refine ⟨fun hd => hwhole.trans ?_, fun v hd hv => ?_⟩
  · refine congrArg (fun x => Host.Outcome.next (left x)) (ite_eq_left_iff.2 fun hno => ?_)
    rw [hd.resolve_left hno]
  · have hleft := hwhole.trans (congrArg (fun x => Host.Outcome.next (left x)) (if_neg (by rw [hd]; decide)))
    rw [hv] at hleft
    exact ⟨fun ha => hleft.trans (congrArg (fun x => Host.Outcome.next (left x)) (if_neg (by rw [ha]; decide))),
      fun ha => hleft.trans (congrArg (fun x => Host.Outcome.next (left x)) (if_pos ha))⟩

theorem fnSettled_disabled {s : State} {n : Nat} {f : Fn} (hf : tblGet? s.fns n = some f) (hd : f.st = .disabling) (hw : f.waiting = [])
    (hp : f.inPipe = []) : tblGet? (s.fnSettled n).fns n = some { f with st := .disabled } := by
  unfold State.fnSettled
  rw [hf]
  dsimp only
  rw [if_pos ⟨hd, by rw [hw]; rfl, by rw [hp]; rfl⟩]
  have hfns {u v : State} (h : u.quiet = v.quiet) : u.fns = v.fns := by
    have h' : u.quiet.fns = v.quiet.fns := congrArg State.fns h
    exact h'
  rw [hfns (quiet_postCtx ..)]
  exact (tblGet?_put ..).trans (if_pos rfl)

/-! ### FN_DISABLE, FN_ENABLE, FN_STATUS (R240, R248, R249) -/

theorem fnDisable_spec {s t : State} {port : Fin 16} {p : Packet} {v : InSlot} (h : s.AdmitsCtx 0xA4 port p t v) :
    let n := field v.pkt.own 0 2
    let mode := field v.pkt.own 2 1
    let k := cmdSlot 0xA4 p
    (t.fnCheck v 3 ≠ stOk → exec (.fnDisable port p) s = .next (t.complete k (t.fnCheck v 3))) ∧
    (∀ f, t.fnCheck v 3 = stOk → tblGet? t.fns n = some f →
      (1 < mode → exec (.fnDisable port p) s = .next (t.complete k stMalformed)) ∧
      (mode ≤ 1 → f.st = .loaded → exec (.fnDisable port p) s = .next (t.complete k stBusy)) ∧
      (mode ≤ 1 → f.st = .disabling ∨ f.st = .disabled → exec (.fnDisable port p) s = .next (t.complete k stOk)) ∧
      (mode = 0 → f.st = .enabled → exec (.fnDisable port p) s =
        .next (((t.setFn n { f with st := .disabling, mode := 0 }).fnSettled n).complete k stOk)) ∧
      (mode = 1 → f.st = .enabled → exec (.fnDisable port p) s = .next ((((t.setFn n { f with
        st := .disabling, mode := 1, waiting := [], inPipe := f.inPipe.map fun c => { c with discarded := true } }).abortCalls f
          stFnDisabled).fnSettled n).complete k stOk))) := by
  obtain ⟨ha, hv⟩ := h
  intro n mode k
  have hact : exec (.fnDisable port p) s = .next (t.actFnDisable k) := congrArg Host.Outcome.next (arrive_of_admits ha _)
  unfold State.actFnDisable at hact
  rw [hv] at hact
  dsimp only at hact
  refine ⟨fun h => hact.trans (congrArg _ (ifOk_refused _ _ _ h)), fun f h hf => ?_⟩
  have hdo := hact.trans (congrArg Host.Outcome.next (ifOk_passed _ _ _ h))
  rw [show tblGet? t.fns (field v.pkt.own 0 2) = some f from hf] at hdo
  dsimp only at hdo
  have hmay (hm : mode ≤ 1) := hdo.trans (congrArg Host.Outcome.next (if_neg (Nat.not_lt.2 hm)))
  refine ⟨fun hm => hdo.trans (congrArg _ (if_pos hm)), fun hm hs => (hmay hm).trans (by rw [hs]), fun hm hs => (hmay hm).trans ?_,
    fun hm hs => (hmay (by omega)).trans ?_, fun hm hs => (hmay (by omega)).trans ?_⟩
  · rcases hs with hs | hs <;> rw [hs]
  · rw [hs, show field v.pkt.own 2 1 = 0 from hm]
    rfl
  · rw [hs, show field v.pkt.own 2 1 = 1 from hm]
    rfl

theorem fnEnable_spec {s t : State} {port : Fin 16} {p : Packet} {v : InSlot} (h : s.AdmitsCtx 0xA5 port p t v) :
    let n := field v.pkt.own 0 2
    let k := cmdSlot 0xA5 p
    (t.fnCheck v 2 ≠ stOk → exec (.fnEnable port p) s = .next (t.complete k (t.fnCheck v 2))) ∧
    (∀ f, t.fnCheck v 2 = stOk → tblGet? t.fns n = some f →
      (f.st = .disabled → exec (.fnEnable port p) s = .next ((t.setFn n { f with st := .enabled }).complete k stOk)) ∧
      (f.st = .enabled → exec (.fnEnable port p) s = .next (t.complete k stOk)) ∧
      (f.st = .loaded ∨ f.st = .disabling → exec (.fnEnable port p) s = .next (t.complete k stBusy))) := by
  obtain ⟨ha, hv⟩ := h
  intro n k
  have hact : exec (.fnEnable port p) s = .next (t.actFnEnable k) := congrArg Host.Outcome.next (arrive_of_admits ha _)
  unfold State.actFnEnable at hact
  rw [hv] at hact
  dsimp only at hact
  refine ⟨fun h => hact.trans (congrArg _ (ifOk_refused _ _ _ h)), fun f h hf => ?_⟩
  have hdo := hact.trans (congrArg Host.Outcome.next (ifOk_passed _ _ _ h))
  rw [show tblGet? t.fns (field v.pkt.own 0 2) = some f from hf] at hdo
  dsimp only at hdo
  refine ⟨fun hs => hdo.trans (by rw [hs]), fun hs => hdo.trans (by rw [hs]), fun hs => hdo.trans ?_⟩
  rcases hs with hs | hs <;> rw [hs]

theorem fnStatus_spec {s t : State} {port : Fin 16} {p : Packet} {v : InSlot} (h : s.AdmitsCtx 0xA6 port p t v) :
    let n := field v.pkt.own 0 2
    let k := cmdSlot 0xA6 p
    (t.fnCheck v 2 ≠ stOk → exec (.fnStatus port p) s = .next (t.complete k (t.fnCheck v 2))) ∧
    (∀ f, t.fnCheck v 2 = stOk → tblGet? t.fns n = some f → exec (.fnStatus port p) s = .next (t.complete k stOk
      (leBytes 2 f.st.code ++ leBytes 2 f.waiting.length ++ leBytes 4 f.inPipe.length))) := by
  obtain ⟨ha, hv⟩ := h
  intro n k
  have hact : exec (.fnStatus port p) s = .next (t.actFnStatus k) := congrArg Host.Outcome.next (arrive_of_admits ha _)
  unfold State.actFnStatus at hact
  rw [hv] at hact
  dsimp only at hact
  refine ⟨fun h => hact.trans (congrArg _ (ifOk_refused _ _ _ h)), fun f h hf => ?_⟩
  have hdo := hact.trans (congrArg Host.Outcome.next (ifOk_passed _ _ _ h))
  rw [show tblGet? t.fns (field v.pkt.own 0 2) = some f from hf] at hdo
  exact hdo

/-! ### The blocks of an ATTEND (R275, R276) -/

theorem length_listItem (e : KvEntry) : (listItem e).length = 16 := by
  simp only [listItem, List.length_append, length_leBytes, length_zeroBytes, List.length_cons, List.length_nil]

/-- Item `i` of a list of equal items, behind leading bytes. -/
theorem item_behind {α : Type} {g : α → List Byte} {w : Nat} (hg : ∀ x, (g x).length = w) {l : List Byte} {off : Nat} (hl : l.length = off)
    (m : List Byte) {es : List α} {i : Nat} {e : α} (he : es[i]? = some e) :
    ((l ++ (es.flatMap g ++ m)).drop (off + w * i)).take w = g e := by
  rw [← List.drop_drop, drop_append_length hl]
  clear hl
  induction es generalizing i with
  | nil => simp at he
  | cons x es ih =>
    rw [List.flatMap_cons, List.append_assoc]
    cases i with
    | zero =>
      obtain rfl : x = e := by simpa using he
      exact List.take_left' (hg x)
    | succ i =>
      rw [Nat.mul_succ, Nat.add_comm, ← List.drop_drop, drop_append_length (hg x)]
      exact ih (by simpa using he)

/-- The entry of an ATTEND: its header, its block list, and its query. -/
def attendEntry (p : Profile) (b : List Byte) (n arg : Nat) (l : List KvEntry) : List Byte :=
  let body := (callHeader p b n arg ++ zeroBytes arg).take arg ++ l.flatMap listItem
  body ++ zeroBytes (roundUp body.length 128 - body.length) ++ b.drop 64

theorem length_attendHead (p : Profile) (b : List Byte) (n arg : Nat) :
    ((callHeader p b n arg ++ zeroBytes arg).take arg).length = arg := by
  rw [List.length_take, List.length_append, length_zeroBytes]
  omega

theorem attendEntry_query (p : Profile) (b : List Byte) (n arg : Nat) (l : List KvEntry) :
    (attendEntry p b n arg l).drop (roundUp (arg + 16 * l.length) 128) = b.drop 64 := by
  have hlen : ((callHeader p b n arg ++ zeroBytes arg).take arg ++ l.flatMap listItem).length = arg + 16 * l.length := by
    rw [List.length_append, length_attendHead, List.length_flatMap, List.map_congr_left fun e _ => length_listItem e, List.map_const',
      List.sum_replicate_nat, Nat.mul_comm]
  have hround : arg + 16 * l.length ≤ roundUp (arg + 16 * l.length) 128 := by
    unfold roundUp
    omega
  unfold attendEntry
  dsimp only
  refine drop_append_length ?_
  rw [List.length_append, hlen, length_zeroBytes]
  omega

theorem attendEntry_item (p : Profile) (b : List Byte) (n arg : Nat) {l : List KvEntry} {i : Nat} {e : KvEntry} (h : l[i]? = some e) :
    ((attendEntry p b n arg l).drop (arg + 16 * i)).take 16 = listItem e := by
  unfold attendEntry
  dsimp only
  rw [List.append_assoc, List.append_assoc]
  exact item_behind length_listItem (length_attendHead p b n arg) _ h

theorem attendBlocksResolved_none {s : State} {n : Nat} (h : s.unresolved n = none) : exec (.attendBlocksResolved n) s = .next s := by
  have hexec : exec (.attendBlocksResolved n) s = execAttendBlocksResolved n s := rfl
  unfold execAttendBlocksResolved at hexec
  rw [h] at hexec
  exact hexec

theorem attendBlocksResolved_spec {s : State} {n k : Nat} {c : Call} {x : InSlot} {q : Profile} {f : Fn}
    (hu : s.unresolved n = some (k, c)) (hx : s.slot? n = some x) (hq : s.profile x.ctx = some q) (hf : tblGet? s.fns k = some f) :
    let b := x.pkt.body
    let r := s.kvEntries (s.session c.session) (atLayer b * (s.session c.session).maxBlocks + atStart b / q.tokens) c.blocks
    (∀ u es bad st miss va, r = (u, es, bad, .failed st miss va) →
      exec (.attendBlocksResolved n) s = .next ((u.abortCall c st).dropCall k n)) ∧
    (∀ u es bad, r = (u, es, bad, .wait) → exec (.attendBlocksResolved n) s = .next u) ∧
    (∀ u es bad w bad', r = (u, es, bad, .done) →
      (u.resolve x.ctx es = (w, none, bad', .done) →
        exec (.attendBlocksResolved n) s = .next ((w.abortCall c stMalformed).dropCall k n)) ∧
      (∀ l, u.resolve x.ctx es = (w, some l, bad', .done) →
        ∀ f', tblGet? (w.tally .kvs 0 0x51 0 c.blocks (some x.ctx)).fns k = some f' → exec (.attendBlocksResolved n) s =
          .next ((w.tally .kvs 0 0x51 0 c.blocks (some x.ctx)).setFn k
            (f'.resolved n (attendEntry q b c.blocks (fnArgBytes (s.fnEntryOf f)) l) (bad || bad'))))) := by
  have hexec : exec (.attendBlocksResolved n) s = execAttendBlocksResolved n s := rfl
  unfold execAttendBlocksResolved at hexec
  rw [hu, hx] at hexec
  dsimp only at hexec
  rw [hq, hf] at hexec
  dsimp only at hexec
  intro b r
  refine ⟨fun u es bad st miss va h => hexec.trans ?_, fun u es bad h => hexec.trans ?_, fun u es bad w bad' h => ?_⟩
  · rw [show s.kvEntries _ _ c.blocks = _ from h]
  · rw [show s.kvEntries _ _ c.blocks = _ from h]
  rw [show s.kvEntries _ _ c.blocks = _ from h] at hexec
  dsimp only at hexec
  refine ⟨fun hr => hexec.trans ?_, fun l hr f' hf' => hexec.trans ?_⟩
  · rw [hr]
  · rw [hr]
    dsimp only
    rw [hf']
    rfl

/-- Settles O52: functions and ATTENDs by the branches of their rows and events. -/
theorem functionsServeCalls : Obligations.FunctionsServeCalls := by
  unfold Obligations.FunctionsServeCalls
  refine ⟨fun s p c => ?_, fun s t port p v f => ⟨invoke_spec, fun ha hv q hq => ?_⟩, fun s n => ⟨fun h => ⟨?_, ?_⟩, fun f hf => ?_⟩,
    fun _ _ _ => fnSettled_disabled, fun s t port p v => ⟨fnDisable_spec, fnEnable_spec, fnStatus_spec⟩,
    fun s n => ⟨attendBlocksResolved_none, fun k c x q f hu hx hq hf => ?_⟩⟩
  · obtain ⟨hgone, hact⟩ := invokeRow_spec s p c
    refine ⟨hgone, fun ha => ⟨(hact ha).1, fun f hf => ⟨((hact ha).2 f hf).1, fun hl => ?_⟩⟩⟩
    rw [((hact ha).2 f hf).2 hl]
    exact callRow_spec s f
  · exact ⟨_, attend_spec ha hv hq, attendNoted_spec t v q⟩
  · show execCallEnter n s = _
    unfold execCallEnter
    rw [h]
  · show execReplyGroupReady n s = _
    unfold execReplyGroupReady
    rw [h]
  · obtain ⟨hno, henter⟩ := callEnter_spec hf
    obtain ⟨hempty, hreply⟩ := replyGroupReady_spec hf
    exact ⟨hno, hempty, henter, hreply⟩
  · obtain ⟨hfail, hwait, hdone⟩ := attendBlocksResolved_spec hu hx hq hf
    refine ⟨hfail, hwait, fun u es bad w bad' hr => ⟨(hdone u es bad w bad' hr).1, fun l hl => ?_⟩⟩
    intro y arg f' hf'
    exact ⟨_, (hdone u es bad w bad' hr).2 l hl f' hf', attendEntry_query .., fun i e he => attendEntry_item _ _ _ _ he⟩

end Sys2Proof.Machine
end

section
/-!
Movers (R251–R261).
-/

namespace Sys2Proof.Machine

/-! ### Pieces (R254) -/

theorem pieceElems_bits (d : Desc) : d.pieceElems * d.dstBits ≤ 2048 := by
  unfold Desc.pieceElems
  dsimp only
  exact (Nat.mul_le_mul_right _ (Nat.div_mul_le_self ..)).trans (Nat.div_mul_le_self ..)

theorem piece_spec (d : Desc) (k : Nat) (hk : k < d.pieces) :
    0 < (d.piece k).count ∧ (d.piece k).count * d.dstBits ≤ 2048 ∧ (d.piece k).first + (d.piece k).count ≤ d.row := by
  have hrow : 0 < d.rowPieces := Nat.pos_of_ne_zero fun h => by
    unfold Desc.pieces at hk
    rw [h, Nat.mul_zero] at hk
    exact Nat.not_lt_zero _ hk
  have hsize : 0 < d.pieceElems := Nat.pos_of_ne_zero fun h => by
    unfold Desc.rowPieces at hrow
    rw [h, Nat.div_zero] at hrow
    exact Nat.lt_irrefl _ hrow
  have hfirst : k % d.rowPieces * d.pieceElems < d.row := by
    have hlast : k % d.rowPieces + 1 ≤ (d.row + d.pieceElems - 1) / d.pieceElems := Nat.mod_lt k hrow
    have hmul := (Nat.le_div_iff_mul_le hsize).1 hlast
    rw [Nat.add_mul] at hmul
    omega
  have hcount : (d.piece k).count = min d.pieceElems (d.row - k % d.rowPieces * d.pieceElems) := rfl
  have hstart : (d.piece k).first = k % d.rowPieces * d.pieceElems := rfl
  refine ⟨by rw [hcount]; omega, ?_, by rw [hcount, hstart]; omega⟩
  exact (Nat.mul_le_mul_right _ (hcount ▸ Nat.min_le_left ..)).trans (pieceElems_bits d)

/-! ### Triggers read (R253) -/

theorem mover_notReady {s : State} {m : Fin 64} (h : s.moverReady m = false) :
    ∀ row ∈ [Instr.triggerRead, .pieceDeliver, .moverPreempt], exec (row m) s = .next s := by
  simp only [List.forall_mem_cons, List.not_mem_nil, false_imp_iff, implies_true, and_true]
  refine ⟨congrArg Host.Outcome.next (if_neg (by rw [h]; decide)), congrArg Host.Outcome.next (if_neg (by rw [h]; decide)), ?_⟩
  show execMoverPreempt m s = _
  unfold execMoverPreempt
  dsimp only
  split
  · rfl
  · exact congrArg Host.Outcome.next (if_neg (by rw [h, Bool.false_and]; decide))

theorem triggerRead_spec {s : State} {m : Fin 64} (h : s.moverReady m = true) :
    let rings := s.triggerRings m
    let open_ := rings.filter fun t => s.entryFree m t
    (rings = [] → exec (.triggerRead m) s = .next s) ∧
    (rings ≠ [] → open_ = [] → exec (.triggerRead m) s = .next (s.raise .mov m 3)) ∧
    (open_ ≠ [] →
      let x := open_.getD (s.free.1 % open_.length) (0, 0)
      ∀ j w, tblGet? s.jobs x.1 = some j →
        (s.free.2.popElement x.1 x.2 = (w, none) → exec (.triggerRead m) s = .next w) ∧
        (∀ b bad, s.free.2.popElement x.1 x.2 = (w, some (b, bad)) →
          exec (.triggerRead m) s = .next (w.setMover m { w.mover m with xfers := (w.mover m).xfers ++
            [{ job := x.1, ctx := j.ctx, stage := strProd (mStream j.manifest x.2), stream := x.2
               number := (s.stream x.1 x.2).taken, trigger := b, bad := bad }] }))) := by
  have hdo : exec (.triggerRead m) s = _ := congrArg Host.Outcome.next (if_pos h)
  dsimp only at hdo
  intro rings open_
  refine ⟨fun hr => hdo.trans (congrArg _ (if_pos (List.isEmpty_iff.2 hr))), fun hr ho => hdo.trans (congrArg _
    ((if_neg (mt List.isEmpty_iff.1 hr)).trans (if_pos (List.isEmpty_iff.2 ho)))), fun ho => ?_⟩
  have hr : rings ≠ [] := fun hr => ho (by rw [show open_ = rings.filter _ from rfl, hr]; rfl)
  have hread := hdo.trans (congrArg Host.Outcome.next ((if_neg (mt List.isEmpty_iff.1 hr)).trans (if_neg (mt List.isEmpty_iff.1 ho))))
  intro x j w hj
  rw [show tblGet? s.free.2.jobs _ = some j from hj] at hread
  refine ⟨fun hp => hread.trans ?_, fun b bad hp => hread.trans ?_⟩
  all_goals rw [show s.free.2.popElement _ _ = _ from hp] <;> rfl

/-! ### Turns (R255) -/

theorem pieceDeliver_spec {s : State} {m : Fin 64} (h : s.moverReady m = true) :
    let v := s.mover m
    (∀ x, v.candidate v.turn = some x →
      let passes := s.spent m = true ∧ ∃ c, v.nextTurn x.ctx = some c ∧ c ≠ x.ctx
      (passes → exec (.pieceDeliver m) s = .next (s.yieldTurn m x)) ∧
      (¬passes → exec (.pieceDeliver m) s = .next ((s.runXfer m x).runAhead m))) ∧
    (v.candidate v.turn = none →
      (v.nextTurn v.turn = none → exec (.pieceDeliver m) s = .next s) ∧
      (∀ c x, v.nextTurn v.turn = some c → v.candidate c = some x →
        exec (.pieceDeliver m) s = .next (((s.setTurn m c).runXfer m x).runAhead m))) := by
  have hdo : exec (.pieceDeliver m) s = _ := congrArg Host.Outcome.next (if_pos h)
  dsimp only at hdo
  intro v
  refine ⟨fun x hx => ?_, fun hx => ?_⟩
  · rw [show (s.mover m).candidate (s.mover m).turn = some x from hx] at hdo
    intro passes
    have hguard : (s.spent m && ((s.mover m).nextTurn x.ctx).any (· != x.ctx)) = true ↔ passes := by
      simp [passes, v, Option.any_eq_true]
    exact ⟨fun hp => hdo.trans (congrArg _ (if_pos (hguard.2 hp))), fun hp => hdo.trans (congrArg _ (if_neg (mt hguard.1 hp)))⟩
  · rw [show (s.mover m).candidate (s.mover m).turn = none from hx] at hdo
    dsimp only at hdo
    refine ⟨fun hn => hdo.trans ?_, fun c x hn hc => hdo.trans ?_⟩
    · rw [show (s.mover m).nextTurn (s.mover m).turn = none from hn]
    · rw [show (s.mover m).nextTurn (s.mover m).turn = some c from hn]
      dsimp only
      rw [show (s.mover m).candidate c = some x from hc]

theorem moverPreempt_spec {s : State} {m : Fin 64} (h : s.moverReady m = true) :
    let v := s.mover m
    (v.candidate v.turn = none → exec (.moverPreempt m) s = .next s) ∧
    (∀ x j, v.candidate v.turn = some x → tblGet? s.jobs x.job = some j →
      let d := descOf x.desc x.trigger
      let away := x.desc ≠ [] ∧ d.dstKind = 2 ∧ s.resident m x.ctx (d.piece x.delivered).dst = false ∧ x.st ≠ .preempted
      (¬away → s.spent m = false → exec (.moverPreempt m) s = .next s) ∧
      (away → v.nextTurn x.ctx = some x.ctx → exec (.moverPreempt m) s = .next (s.preempt m j x none)) ∧
      (away ∧ v.nextTurn x.ctx ≠ some x.ctx ∨ ¬away ∧ s.spent m = true →
        exec (.moverPreempt m) s = .next (s.yieldTurn m x))) := by
  have hexec : exec (.moverPreempt m) s = execMoverPreempt m s := rfl
  unfold execMoverPreempt at hexec
  dsimp only at hexec
  intro v
  refine ⟨fun hx => ?_, fun x j hx hj => ?_⟩
  · rw [hexec, show (s.mover m).candidate (s.mover m).turn = none from hx]
  rw [show (s.mover m).candidate (s.mover m).turn = some x from hx] at hexec
  dsimp only at hexec
  intro d away
  have haway : (!x.desc.isEmpty && (descOf x.desc x.trigger).dstKind == 2 &&
      !s.resident m x.ctx ((descOf x.desc x.trigger).piece x.delivered).dst && x.st != .preempted) = true ↔ away := by
    simp [away, d, and_assoc]
  have hturn : (s.mover m).nextTurn x.ctx = v.nextTurn x.ctx := rfl
  generalize (!x.desc.isEmpty && (descOf x.desc x.trigger).dstKind == 2 &&
      !s.resident m x.ctx ((descOf x.desc x.trigger).piece x.delivered).dst && x.st != .preempted) = b at haway hexec
  have hgo (hb : b = true ∨ s.spent m = true) := hexec.trans (congrArg Host.Outcome.next (if_pos (by
    rw [Bool.and_eq_true, Bool.or_eq_true]
    exact ⟨h, hb⟩)))
  dsimp only at hgo
  rw [hj] at hgo
  refine ⟨fun ha hs => hexec.trans (congrArg Host.Outcome.next (if_neg ?_)), fun ha hn => (hgo (.inl (haway.2 ha))).trans
    (congrArg _ (if_pos ⟨haway.2 ha, hn⟩)), ?_⟩
  · rw [Bool.and_eq_true, Bool.or_eq_true, not_and, not_or]
    exact fun _ => ⟨mt haway.1 ha, by rw [hs]; decide⟩
  · rintro (⟨ha, hn⟩ | ⟨ha, hs⟩)
    · exact (hgo (.inl (haway.2 ha))).trans (congrArg _ (if_neg fun h => hn h.2))
    · exact (hgo (.inr hs)).trans (congrArg _ (if_neg fun h => ha (haway.1 h.1)))

theorem yieldTurn_spec {s : State} {m : Nat} {x : Xfer} {j : Job} {c : Nat} (hj : tblGet? s.jobs x.job = some j)
    (hn : (s.mover m).nextTurn x.ctx = some c) :
    (c ≠ x.ctx → s.yieldTurn m x = s.preempt m j x (some c)) ∧
    (c = x.ctx → s.yieldTurn m x = s.setMover m { s.mover m with turn := c, turnBytes := 0 }) := by
  unfold State.yieldTurn
  rw [hj, hn]
  exact ⟨fun h => if_pos h, fun h => if_neg (not_not_intro h)⟩

/-! ### A transfer goes on (R252–R254, R258, R261) -/

theorem runXfer_fetch {s : State} {m : Nat} {x : Xfer} {j : Job} (hj : tblGet? s.jobs x.job = some j) (he : x.ending = none)
    (hr : x.error = none) (hd : x.desc = []) :
    (x.bad = true → s.runXfer m x = s.poisonConsumed x.ctx 1 m 1) ∧
    (x.bad = false → triggerOk j m x.trigger = false ∨ j.descVa = none → s.runXfer m x = s.xferError m j x 0 stMalformed 0) ∧
    (∀ va w b, x.bad = false → triggerOk j m x.trigger = true → j.descVa = some va →
      let read := s.unitData m (moverTag m) x.ctx (va + 128 * trgDesc x.trigger) 128
      let x' : Xfer := { x with desc := b }
      (read = (w, b, true, .done) → s.runXfer m x = w.poisonConsumed x.ctx 1 m 1) ∧
      (read = (w, b, false, .done) →
        (moverDescOk j m b (descOf b x.trigger) = true → s.runXfer m x = (w.setXfer m x').nextPiece m j x') ∧
        (moverDescOk j m b (descOf b x.trigger) = false → s.runXfer m x = w.xferError m j x' 0 stMalformed 0))) := by
  unfold State.runXfer
  rw [hj, he, hr]
  dsimp only
  rw [if_neg (by rw [hd]; decide)]
  refine ⟨fun hb => if_pos hb, fun hb hno => ?_, fun va w b hb ht hva => ?_⟩
  · rw [if_neg (by rw [hb]; decide), show (if triggerOk j m x.trigger then j.descVa else none) = none by
      rcases hno with h | h <;> simp [h]]
  · rw [if_neg (by rw [hb]; decide), if_pos ht, hva]
    dsimp only
    refine ⟨fun hread => ?_, fun hread => ?_⟩
    · rw [hread]
      exact if_pos rfl
    · rw [hread]
      exact ⟨fun hok => (if_neg (by decide)).trans (if_pos hok), fun hok => (if_neg (by decide)).trans (if_neg (by rw [hok]; decide))⟩

theorem runXfer_going {s : State} {m : Nat} {x : Xfer} {j : Job} (hj : tblGet? s.jobs x.job = some j) (he : x.ending = none)
    (hr : x.error = none) (hd : x.desc ≠ []) : s.runXfer m x = s.nextPiece m j x := by
  unfold State.runXfer
  rw [hj, he, hr]
  exact if_pos (by cases hx : x.desc with
    | nil => exact absurd hx hd
    | cons _ _ => rfl)

/-- A piece of a local source whose bytes stand. -/
theorem nextPiece_data {s : State} {m : Nat} {x : Xfer} {j : Job} (hlt : x.delivered < (descOf x.desc x.trigger).pieces)
    (hk : (descOf x.desc x.trigger).srcKind ≠ 4) :
    let d := descOf x.desc x.trigger
    s.nextPiece m j x = match s.nextData m x d (d.piece x.delivered) with
      | (s, data, scales, bad, _, .done) =>
        s.pieceOut m j x d (d.piece x.delivered) (convertPiece j.seed x d (d.piece x.delivered) data scales).1
          (convertPiece j.seed x d (d.piece x.delivered) data scales).2 bad
      | (s, _, _, _, side, a) => s.blocked m j x side a := by
  intro d
  have hx : (if d.srcKind = 4 then x.takeGot d else x) = x := if_neg hk
  unfold State.nextPiece
  dsimp only
  rw [if_neg (Nat.not_le.2 hlt), show (if (descOf x.desc x.trigger).srcKind = 4 then x.takeGot (descOf x.desc x.trigger) else x) = x from hx,
    if_neg fun h => hk h.1] <;> rfl

/-- A piece put into a destination in memory, a frame buffer or scratch. -/
theorem pieceOut_local {s : State} {m : Nat} {x : Xfer} {j : Job} {d : Desc} {p : Piece} {data : List Byte} {bad : Bool} (hk : d.dstKind < 3)
    (y : State) :
    let write := s.endWrite m x.ctx d.dstKind (d.dstSpan p).1 data bad
    (write = (y, .done) → s.pieceOut m j x d p data [] bad = y.delivered m j x d (d.dstSpan p).2) ∧
    (write = (y, .wait) → s.pieceOut m j x d p data [] bad = y.destWait m j x) ∧
    (∀ st va, write = (y, .failed st true va) → s.pieceOut m j x d p data [] bad = y.park m j x 1 va) ∧
    (∀ st va, write = (y, .failed st false va) → s.pieceOut m j x d p data [] bad = y.xferError m j x 1 st va) := by
  intro write
  unfold State.pieceOut
  dsimp only
  rw [if_neg (by omega), if_neg (by omega)]
  refine ⟨fun h => ?_, fun h => ?_, fun st va h => ?_, fun st va h => ?_⟩
  · rw [show s.endWrite m x.ctx d.dstKind (d.dstSpan p).1 data bad = _ from h]
    exact if_pos rfl
  · rw [show s.endWrite m x.ctx d.dstKind (d.dstSpan p).1 data bad = _ from h]
  · rw [show s.endWrite m x.ctx d.dstKind (d.dstSpan p).1 data bad = _ from h]
    rfl
  · rw [show s.endWrite m x.ctx d.dstKind (d.dstSpan p).1 data bad = _ from h]
    rfl

theorem runXfer_piece {s : State} {m : Nat} {x : Xfer} {j : Job} (hj : tblGet? s.jobs x.job = some j) (he : x.ending = none)
    (hr : x.error = none) (hd : x.desc ≠ []) :
    let d := descOf x.desc x.trigger
    let p := d.piece x.delivered
    (d.pieces ≤ x.delivered → x.flight = [] → s.runXfer m x = s.finish m j x 0) ∧
    (d.pieces ≤ x.delivered → x.flight ≠ [] → s.runXfer m x = s) ∧
    (x.delivered < d.pieces → d.srcKind ≠ 4 → ∀ w data sc bad side,
      (s.nextData m x d p = (w, data, sc, bad, side, .wait) → s.runXfer m x = w) ∧
      (∀ st va, s.nextData m x d p = (w, data, sc, bad, side, .failed st true va) → s.runXfer m x = w.park m j x side va) ∧
      (∀ st va, s.nextData m x d p = (w, data, sc, bad, side, .failed st false va) →
        s.runXfer m x = w.xferError m j x side st va) ∧
      (s.nextData m x d p = (w, data, sc, bad, side, .done) → d.dstKind < 3 → d.mxOut = false → ∀ y,
        let write := w.endWrite m x.ctx d.dstKind (d.dstSpan p).1 (convertPiece j.seed x d p data sc).1 bad
        (write = (y, .done) → s.runXfer m x = y.delivered m j x d (d.dstSpan p).2) ∧
        (write = (y, .wait) → s.runXfer m x = y.destWait m j x) ∧
        (∀ st va, write = (y, .failed st true va) → s.runXfer m x = y.park m j x 1 va) ∧
        (∀ st va, write = (y, .failed st false va) → s.runXfer m x = y.xferError m j x 1 st va))) := by
  intro d p
  rw [runXfer_going hj he hr hd]
  refine ⟨fun hle hf => ?_, fun hle hf => ?_, fun hlt hk w data sc bad side => ?_⟩
  · exact (if_pos hle).trans (if_pos (List.isEmpty_iff.2 hf))
  · exact (if_pos hle).trans (if_neg (mt List.isEmpty_iff.1 hf))
  rw [nextPiece_data hlt hk]
  refine ⟨fun h => ?_, fun st va h => ?_, fun st va h => ?_, fun h hdst hmx y => ?_⟩
  · rw [show s.nextData m x (descOf x.desc x.trigger) ((descOf x.desc x.trigger).piece x.delivered) = _ from h]
    rfl
  · rw [show s.nextData m x (descOf x.desc x.trigger) ((descOf x.desc x.trigger).piece x.delivered) = _ from h]
    rfl
  · rw [show s.nextData m x (descOf x.desc x.trigger) ((descOf x.desc x.trigger).piece x.delivered) = _ from h]
    rfl
  · rw [show s.nextData m x (descOf x.desc x.trigger) ((descOf x.desc x.trigger).piece x.delivered) = _ from h]
    dsimp only
    have hsc : (convertPiece j.seed x (descOf x.desc x.trigger) ((descOf x.desc x.trigger).piece x.delivered) data sc).2 = [] := by
      unfold convertPiece
      dsimp only
      rw [if_neg (by rw [show (descOf x.desc x.trigger).mxOut = false from hmx]; decide)]
    rw [hsc]
    exact pieceOut_local hdst y

theorem runXfer_ends {s : State} {m : Nat} {x : Xfer} {j : Job} (hj : tblGet? s.jobs x.job = some j) :
    (∀ st, x.ending = some st → s.runXfer m x = s.finish m j x st) ∧
    (∀ side st va, x.ending = none → x.error = some (side, st, va) → s.runXfer m x = s.xferError m j x side st va) := by
  unfold State.runXfer
  rw [hj]
  exact ⟨fun st h => by rw [h], fun side st va h he => by rw [h, he]⟩

theorem nextData_spec (s : State) (m : Nat) (x : Xfer) (d : Desc) (p : Piece) :
    (x.ahead = [] → s.nextData m x d p = s.pieceData m x d p) ∧
    ∀ a l, x.ahead = a :: l →
      (a.read = true → s.nextData m x d p = (s, a.data, a.scales, a.bad, 0, .done)) ∧
      (a.read = false → s.nextData m x d p = s.pieceData m x d p) := by
  unfold State.nextData
  refine ⟨fun h => by rw [h], fun a l h => ?_⟩
  rw [h]
  exact ⟨fun h => if_pos h, fun h => if_neg (by rw [h]; decide)⟩

/-! ### Run-ahead discarded (R256) -/

theorem raise_movers (s : State) (k : PageKind) (i b : Nat) : (s.raise k i b).movers = s.movers ∧ (s.raise k i b).mem = s.mem ∧
    (s.raise k i b).frames = s.frames := by
  have h := quiet_raise s k i b
  exact ⟨(congrArg State.movers h :), (congrArg State.mem h :), (congrArg State.frames h :)⟩

theorem discardAt_spec (s : State) (m n : Nat) (gone : Xfer → Bool) :
    let t := s.discardAt m gone
    (t.mover m).xfers = (s.mover m).xfers.map (fun x => if gone x then x.discard else x) ∧
    (∀ e ∈ (t.mover m).lookaside, e ∈ (s.mover m).lookaside) ∧ (n ≠ m → t.mover n = s.mover n) ∧ t.mem = s.mem ∧
      t.frames = s.frames := by
  by_cases hany : ((s.mover m).xfers.any fun x => gone x && decide (x.discard ≠ x)) = true
  · have hset (v : Mover) (c : Bool) : let t := if c then s.setMover m v else (s.setMover m v).raise .mov m 2
        (∀ k, t.mover k = if k = m then v else s.mover k) ∧ t.mem = s.mem ∧ t.frames = s.frames := by
      have hmover (k : Nat) : (s.setMover m v).mover k = if k = m then v else s.mover k := tblGet_put ..
      cases c
      · obtain ⟨h1, h2, h3⟩ := raise_movers (s.setMover m v) .mov m 2
        refine ⟨fun k => ?_, h2, h3⟩
        show tblGet (State.movers _) k {} = _
        rw [if_neg (by decide), h1]
        exact hmover k
      · exact ⟨hmover, rfl, rfl⟩
    have hdo : ∃ (v : Mover) (c : Bool), s.discardAt m gone = (if c then s.setMover m v else (s.setMover m v).raise .mov m 2) ∧
        v.xfers = (s.mover m).xfers.map (fun x => if gone x then x.discard else x) ∧ ∀ e ∈ v.lookaside, e ∈ (s.mover m).lookaside :=
      ⟨_, decide ((((s.mover m).xfers.filter gone).map Xfer.aheadBytes).sum = 0),
        (if_neg (by rw [hany]; decide)).trans (ite_congr (decide_eq_true_eq ..).symm (fun _ => rfl) fun _ => rfl), rfl,
        fun e he => (List.mem_filter.1 he).1⟩
    obtain ⟨v, c, ht, hx, hl⟩ := hdo
    obtain ⟨h1, h2, h3⟩ := hset v c
    dsimp only
    rw [ht]
    refine ⟨?_, ?_, fun hn => (h1 n).trans (if_neg hn), h2, h3⟩
    · rw [h1, if_pos rfl, hx]
    · rw [h1, if_pos rfl]
      exact hl
  · have hsame : s.discardAt m gone = s := if_pos (by rw [Bool.eq_false_iff.2 hany]; rfl)
    dsimp only
    rw [hsame]
    refine ⟨(List.map_id _).symm.trans (List.map_congr_left fun x hx => ?_), fun e he => he, fun _ => rfl, rfl, rfl⟩
    split
    · next hg =>
      by_contra hne
      exact hany (List.any_eq_true.2 ⟨x, hx, by rw [hg, Bool.true_and, decide_eq_true_eq]; exact Ne.symm hne⟩)
    · rfl

/-! ### MOV_RESUME and MOV_CANCEL (R260) -/

theorem movResume_spec {s t : State} {port : Fin 16} {p : Packet} {v : InSlot} (h : s.AdmitsCtx 0xA8 port p t v) :
    let k := cmdSlot 0xA8 p
    (∀ st, t.parkedOf v = .inl st → exec (.movResume port p) s = .next (t.complete k st)) ∧
    (∀ m j x, t.parkedOf v = .inr (m, j, x) → ∀ u b,
      let pos := t.unitData m (moverTag m) x.ctx (j.posVa m) 128
      (∀ bad, pos = (u, b, bad, .wait) → exec (.movResume port p) s = .next (u.complete k stBusy)) ∧
      (∀ bad st miss va, pos = (u, b, bad, .failed st miss va) → exec (.movResume port p) s = .next (u.complete k st)) ∧
      (pos = (u, b, true, .done) → exec (.movResume port p) s =
        .next ((u.poisonConsumed x.ctx 1 m 1).complete k stContextGone)) ∧
      (pos = (u, b, false, .done) → ∀ w db,
        let desc := u.unitData m (moverTag m) x.ctx (j.descVa.getD 0 + 128 * trgDesc x.trigger) 128
        let d := descOf db x.trigger
        let ok := moverDescOk j m db d = true ∧ x.recordOk d b = true
        (∀ bad, desc = (w, db, bad, .wait) → exec (.movResume port p) s = .next (w.complete k stBusy)) ∧
        (∀ bad st miss va, desc = (w, db, bad, .failed st miss va) → exec (.movResume port p) s =
          .next ((w.blocked m j { x with st := .ready } 0 (.failed st miss va)).complete k stOk)) ∧
        (desc = (w, db, true, .done) → exec (.movResume port p) s =
          .next ((w.poisonConsumed x.ctx 1 m 1).complete k stContextGone)) ∧
        (desc = (w, db, false, .done) → ok → exec (.movResume port p) s = .next ((w.setMover m ((w.mover m).requeue { x with
          st := .ready, desc := db, delivered := field b 0x40 8, bytes := field b 0x48 8, doneWrites := field b 0x58 8 })).complete
          k stOk)) ∧
        (desc = (w, db, false, .done) → ¬ok → exec (.movResume port p) s = .next ((w.xferError m j { x with
          st := .ready, desc := if x.desc = [] then db else x.desc } 0 stMalformed 0).complete k stOk)))) := by
  obtain ⟨ha, hv⟩ := h
  intro k
  have hact : exec (.movResume port p) s = .next (t.actMovResume k) := congrArg Host.Outcome.next (arrive_of_admits ha _)
  unfold State.actMovResume at hact
  rw [hv] at hact
  dsimp only at hact
  refine ⟨fun st h => by rw [hact, h], fun m j x h u b => ?_⟩
  rw [h] at hact
  dsimp only at hact
  intro pos
  refine ⟨fun bad h => ?_, fun bad st miss va h => ?_, fun h => ?_, fun h w db => ?_⟩
  · rw [hact, show t.unitData m (moverTag m) x.ctx (j.posVa m) 128 = _ from h]
  · rw [hact, show t.unitData m (moverTag m) x.ctx (j.posVa m) 128 = _ from h]
  · rw [hact, show t.unitData m (moverTag m) x.ctx (j.posVa m) 128 = _ from h]
    exact congrArg _ (if_pos rfl)
  rw [show t.unitData m (moverTag m) x.ctx (j.posVa m) 128 = _ from h] at hact
  have hread := hact.trans (congrArg Host.Outcome.next (if_neg (by decide)))
  intro desc d ok
  have hguard : (moverDescOk j m db (descOf db x.trigger) && x.recordOk (descOf db x.trigger) b) = true ↔ ok := by
    rw [Bool.and_eq_true]
  refine ⟨fun bad h => ?_, fun bad st miss va h => ?_, fun h => ?_, fun h hok => ?_, fun h hok => ?_⟩
  · rw [hread, show u.unitData m (moverTag m) x.ctx (j.descVa.getD 0 + 128 * trgDesc x.trigger) 128 = _ from h]
  · rw [hread, show u.unitData m (moverTag m) x.ctx (j.descVa.getD 0 + 128 * trgDesc x.trigger) 128 = _ from h]
  · rw [hread, show u.unitData m (moverTag m) x.ctx (j.descVa.getD 0 + 128 * trgDesc x.trigger) 128 = _ from h]
    exact congrArg _ (if_pos rfl)
  · rw [hread, show u.unitData m (moverTag m) x.ctx (j.descVa.getD 0 + 128 * trgDesc x.trigger) 128 = _ from h]
    exact congrArg _ ((if_neg (by decide)).trans (if_pos (hguard.2 hok)))
  · rw [hread, show u.unitData m (moverTag m) x.ctx (j.descVa.getD 0 + 128 * trgDesc x.trigger) 128 = _ from h]
    refine congrArg _ ((if_neg (by decide)).trans ((if_neg (mt hguard.1 hok)).trans ?_))
    cases x.desc <;> rfl

theorem movCancel_spec {s t : State} {port : Fin 16} {p : Packet} {v : InSlot} (h : s.AdmitsCtx 0xA9 port p t v) :
    let k := cmdSlot 0xA9 p
    (∀ st, t.parkedOf v = .inl st → exec (.movCancel port p) s = .next (t.complete k st)) ∧
    (∀ m j x u, t.parkedOf v = .inr (m, j, x) →
      (t.writePos m j x 4 0 0 0 = (u, true) → exec (.movCancel port p) s = .next (u.complete k stBusy)) ∧
      (t.writePos m j x 4 0 0 0 = (u, false) →
        exec (.movCancel port p) s = .next (((u.closeDst m j x).dropXfer m x).complete k stOk))) := by
  obtain ⟨ha, hv⟩ := h
  intro k
  have hact : exec (.movCancel port p) s = .next (t.actMovCancel k) := congrArg Host.Outcome.next (arrive_of_admits ha _)
  unfold State.actMovCancel at hact
  rw [hv] at hact
  dsimp only at hact
  refine ⟨fun st h => by rw [hact, h], fun m j x u h => ?_⟩
  rw [h] at hact
  dsimp only at hact
  exact ⟨fun hw => by rw [hact, hw], fun hw => by rw [hact, hw]⟩

/-- Settles O53: turns and transfers by the branches of the mover's events, pieces by the bounds of their sizes. -/
theorem moversTransfer : Obligations.MoversTransfer := by
  unfold Obligations.MoversTransfer
  refine ⟨fun d k _ _ hk => piece_spec d k hk, fun s m => ⟨mover_notReady, fun h => ?_⟩, fun _ _ _ _ _ => yieldTurn_spec,
    fun s m x j hj => ⟨(runXfer_ends hj).1, (runXfer_ends hj).2, runXfer_fetch hj, runXfer_piece hj⟩, nextData_spec, discardAt_spec,
    fun _ _ _ _ _ => ⟨movResume_spec, movCancel_spec⟩⟩
  obtain ⟨hnone, hfull, hread⟩ := triggerRead_spec h
  obtain ⟨hturn, hnext⟩ := pieceDeliver_spec h
  obtain ⟨hidle, hpreempt⟩ := moverPreempt_spec h
  exact ⟨hnone, hfull, hread, hturn, hnext, hidle, hpreempt⟩

end Sys2Proof.Machine
end

section
/-!
Session commands (R262–R269).
-/

namespace Sys2Proof.Machine

/-! ### KV_SETUP (R262) -/

/-- The service's state once a context's profile is set. -/
def Kvs.setUp (kv : Kvs) (c : Nat) (q : Profile) : Kvs :=
  { kv with
    profiles := tblPut kv.profiles c q, nearUsed := tblDel kv.nearUsed c, farUsed := tblDel kv.farUsed c
    farFull := kv.farFull.erase c, demoting := kv.demoting.erase c, moves := kv.moves.filter fun m => m.ctx != c }

theorem kvSetup_spec {s t : State} {port : Fin 16} {p : Packet} {v : InSlot} (h : s.AdmitsCtx 0xB0 port p t v) :
    let k := cmdSlot 0xB0 p
    let q := profileOf v.pkt.own
    let near := gatherParts [] q.nearVa (plain (freshMap q.nearSlots))
    let maps := if q.farSlots = 0 then near else gatherParts near q.farVa (plain (freshMap q.farSlots))
    (t.kvCheck v true 64 ≠ stOk → exec (.kvSetup port p) s = .next (t.complete k (t.kvCheck v true 64))) ∧
    (t.kvCheck v true 64 = stOk →
      (t.sessionsOf v.ctx ≠ 0 → exec (.kvSetup port p) s = .next (t.complete k stBusy)) ∧
      (t.sessionsOf v.ctx = 0 → profileOk v.pkt.own = false → exec (.kvSetup port p) s = .next (t.complete k stMalformed)) ∧
      (t.sessionsOf v.ctx = 0 → profileOk v.pkt.own = true → ∀ u,
        (t.poolsOk v.ctx q = (u, false) → exec (.kvSetup port p) s = .next (u.complete k stMalformed)) ∧
        (t.poolsOk v.ctx q = (u, true) → ∀ w,
          (u.kvWrite v.ctx maps = (w, .wait) → exec (.kvSetup port p) s = .next (w.engineWait k)) ∧
          (∀ st a b, u.kvWrite v.ctx maps = (w, .failed st a b) → exec (.kvSetup port p) s = .next (w.complete k st)) ∧
          (u.kvWrite v.ctx maps = (w, .done) → ∃ kv : Kvs,
            exec (.kvSetup port p) s = .next (State.complete { w with kvs := kv } k stOk) ∧
            tblGet? kv.profiles v.ctx = some q ∧ tblGet? kv.nearUsed v.ctx = none ∧ kv.sessions = w.kvs.sessions)))) := by
  obtain ⟨ha, hv⟩ := h
  intro k q near maps
  have hact : exec (.kvSetup port p) s = .next (t.actKvSetup k) := congrArg Host.Outcome.next (arrive_of_admits ha _)
  unfold State.actKvSetup at hact
  rw [hv] at hact
  dsimp only at hact
  refine ⟨fun h => hact.trans (congrArg _ (ifOk_refused _ _ _ h)), fun h => ?_⟩
  have hdo := hact.trans (congrArg Host.Outcome.next (ifOk_passed _ _ _ h))
  refine ⟨fun hs => hdo.trans (congrArg _ (if_pos hs)), fun hs hq => hdo.trans (congrArg _ ((if_neg (not_not_intro hs)).trans
    (if_pos (by rw [hq]; decide)))), fun hs hq u => ?_⟩
  have hpools := hdo.trans (congrArg Host.Outcome.next ((if_neg (not_not_intro hs)).trans (if_neg (by rw [hq]; decide))))
  refine ⟨fun hp => hpools.trans ?_, fun hp w => ?_⟩
  · rw [show t.poolsOk v.ctx (profileOf v.pkt.own) = _ from hp]
  rw [show t.poolsOk v.ctx (profileOf v.pkt.own) = _ from hp] at hpools
  dsimp only at hpools
  refine ⟨fun hw => hpools.trans ?_, fun st a b hw => hpools.trans ?_, fun hw => ⟨w.kvs.setUp v.ctx q, hpools.trans ?_,
    (tblGet?_put ..).trans (if_pos rfl), (tblGet?_del ..).trans (if_pos rfl), rfl⟩⟩
  all_goals rw [show u.kvWrite v.ctx _ = _ from hw] <;> rfl

/-! ### SESSION_OPEN (R264, R266) -/

theorem sessionOpen_spec {s t : State} {port : Fin 16} {p : Packet} {v : InSlot} (h : s.AdmitsCtx 0xB1 port p t v) :
    let k := cmdSlot 0xB1 p
    let b := v.pkt.own
    (t.kvCheck v false 24 ≠ stOk → exec (.sessionOpen port p) s = .next (t.complete k (t.kvCheck v false 24))) ∧
    (t.kvCheck v false 24 = stOk → ∀ q, t.profile v.ctx = some q →
      (zeros b 12 4 = false → exec (.sessionOpen port p) s = .next (t.complete k stMalformed)) ∧
      (zeros b 12 4 = true → ∀ u st, t.tableCheck v q (field b 0 8) (field b 8 4) = (u, st) →
        (st ≠ stOk → exec (.sessionOpen port p) s = .next (u.complete k st)) ∧
        (st = stOk → exec (.sessionOpen port p) s = .next (u.openSession k
          { ctx := v.ctx, btab := field b 0 8, maxBlocks := field b 8 4, lastTick := (u.acceptedAt v).1
            expire := u.expiry v (field b 16 8) } (List.replicate (q.layers * field b 8 4) {}))))) := by
  obtain ⟨ha, hv⟩ := h
  intro k b
  have hact : exec (.sessionOpen port p) s = .next (t.actSessionOpen k) := congrArg Host.Outcome.next (arrive_of_admits ha _)
  unfold State.actSessionOpen at hact
  rw [hv] at hact
  dsimp only at hact
  refine ⟨fun h => hact.trans (congrArg _ (ifOk_refused _ _ _ h)), fun h q hq => ?_⟩
  have hdo := hact.trans (congrArg Host.Outcome.next (ifOk_passed _ _ _ h))
  rw [hq] at hdo
  dsimp only at hdo
  refine ⟨fun hz => hdo.trans (congrArg _ (if_pos hz)), fun hz u st ht => ?_⟩
  have hcheck := hdo.trans (congrArg Host.Outcome.next (if_neg (by rw [show zeros v.pkt.own 12 4 = true from hz]; decide)))
  rw [show t.tableCheck v q (field v.pkt.own 0 8) (field v.pkt.own 8 4) = _ from ht] at hcheck
  exact ⟨fun h => hcheck.trans (congrArg _ (ifOk_refused _ _ _ h)), fun h => hcheck.trans (congrArg _ (ifOk_passed _ _ _ h))⟩

theorem openSession_spec (s : State) (k : Nat) (v : Session) (table : List KvEntry) :
    (∀ w, s.freeRecord = (w, none) → s.openSession k v table = w.complete k stBusy) ∧
    (∀ w i, s.freeRecord = (w, some i) → ∀ y,
      let write := w.kvWrite v.ctx (gatherParts [] v.btab (plain (table.flatMap KvEntry.bytes)))
      (write = (y, .wait) → s.openSession k v table = y.engineWait k) ∧
      (∀ st a b, write = (y, .failed st a b) → s.openSession k v table = y.complete k st) ∧
      (write = (y, .done) →
        let g := (y.session i).gen
        let x : Session := { v with gen := if g = 0xFFFF then 1 else g + 1, st := .opened }
        let z := y.setSession i x
        (v.parent = none → s.openSession k v table = z.complete k stOk (leBytes 4 (x.handle i))) ∧
        (∀ n, v.parent = some n → s.openSession k v table =
          (z.setSession n { z.session n with refs := (z.session n).refs + 1 }).complete k stOk (leBytes 4 (x.handle i))))) := by
  unfold State.openSession
  refine ⟨fun w h => by rw [h], fun w i h y => ?_⟩
  rw [h]
  refine ⟨fun hw => ?_, fun st a b hw => ?_, fun hw => ⟨fun hp => ?_, fun n hp => ?_⟩⟩
  all_goals
    dsimp only
    rw [show w.kvWrite v.ctx _ = _ from hw]
  all_goals
    dsimp only
    rw [hp]

theorem freeRecord_some {s w : State} {i : Nat} (h : s.freeRecord = (w, some i)) : i < 16384 ∧ (s.session i).st = .free := by
  have hmem : i ∈ idxs 16384 fun i => (s.session i).st == .free := by
    unfold State.freeRecord at h
    cases hl : idxs 16384 fun i => (s.session i).st == .free with
    | nil =>
      rw [hl] at h
      exact absurd (Prod.ext_iff.1 h).2 (by simp)
    | cons x l =>
      rw [hl] at h
      have hi : (x :: l).getD (s.free.1 % (l.length + 1)) x = i := Option.some.inj (Prod.ext_iff.1 h).2
      have hlt : s.free.1 % (l.length + 1) < (x :: l).length := Nat.mod_lt _ (Nat.succ_pos _)
      rw [← hi, List.getD_eq_getElem _ _ hlt]
      exact List.getElem_mem hlt
  obtain ⟨hlt, hfree⟩ := mem_idxs.1 hmem
  exact ⟨hlt, by simpa using hfree⟩

/-! ### SESSION_FORK (R268) -/

theorem sessionFork_spec {s t : State} {port : Fin 16} {p : Packet} {v : InSlot} (h : s.AdmitsCtx 0xB2 port p t v) :
    let k := cmdSlot 0xB2 p
    let b := v.pkt.own
    let n := field b 4 4
    let most := field b 16 4
    (t.kvCheck v false 32 ≠ stOk → exec (.sessionFork port p) s = .next (t.complete k (t.kvCheck v false 32))) ∧
    (t.kvCheck v false 32 = stOk → ∀ q, t.profile v.ctx = some q →
      (t.sessionFor v (field b 0 4) = none → exec (.sessionFork port p) s = .next (t.complete k stRevoked)) ∧
      (∀ i src, t.sessionFor v (field b 0 4) = some (i, src) →
        let closed := src.st ≠ .opened ∧ v.accepted = none
        let ok := n % q.tokens = 0 ∧ q.tokens ≤ n ∧ n ≤ src.valid ∧ n / q.tokens ≤ most ∧ zeros b 20 4 = true
        (closed → exec (.sessionFork port p) s = .next (t.complete k stRevoked)) ∧
        (¬closed → ¬ok → exec (.sessionFork port p) s = .next (t.complete k stMalformed)) ∧
        (¬closed → ok → ∀ u st, t.tableCheck v q (field b 8 8) most = (u, st) →
          (st ≠ stOk → exec (.sessionFork port p) s = .next (u.complete k st)) ∧
          (st = stOk → ∀ w table,
            let fork := u.forkTable src (n / q.tokens) most (List.range q.layers)
            (fork = (w, table, .wait) → exec (.sessionFork port p) s = .next (w.engineWait k)) ∧
            (∀ e a b, fork = (w, table, .failed e a b) → exec (.sessionFork port p) s = .next (w.complete k e)) ∧
            (fork = (w, table, .done) → exec (.sessionFork port p) s = .next (w.openSession k
              { ctx := v.ctx, btab := field b 8 8, maxBlocks := most, valid := n, cap := n, shared := n, parent := some i
                lastTick := (w.acceptedAt v).1, expire := w.expiry v (field b 24 8) } table)))))) := by
  obtain ⟨ha, hv⟩ := h
  intro k b n most
  have hact : exec (.sessionFork port p) s = .next (t.actSessionFork k) := congrArg Host.Outcome.next (arrive_of_admits ha _)
  unfold State.actSessionFork at hact
  rw [hv] at hact
  dsimp only at hact
  refine ⟨fun h => hact.trans (congrArg _ (ifOk_refused _ _ _ h)), fun h q hq => ?_⟩
  have hdo := hact.trans (congrArg Host.Outcome.next (ifOk_passed _ _ _ h))
  rw [hq] at hdo
  refine ⟨fun hs => hdo.trans ?_, fun i src hs => ?_⟩
  · rw [show t.sessionFor v (field v.pkt.own 0 4) = _ from hs]
  rw [show t.sessionFor v (field v.pkt.own 0 4) = _ from hs] at hdo
  dsimp only at hdo
  intro closed ok
  have hbad : (field v.pkt.own 4 4 % q.tokens ≠ 0 ∨ field v.pkt.own 4 4 < q.tokens ∨ src.valid < field v.pkt.own 4 4 ∨
      field v.pkt.own 16 4 < field v.pkt.own 4 4 / q.tokens ∨ zeros v.pkt.own 20 4 = false) ↔ ¬ok := by
    simp only [ok, n, b, most, not_and_or, Nat.not_le, Bool.not_eq_true, ne_eq]
  refine ⟨fun hc => hdo.trans (congrArg _ (if_pos hc)), fun hc hno => hdo.trans (congrArg _ ((if_neg hc).trans (if_pos (hbad.2 hno)))),
    fun hc hok u st ht => ?_⟩
  have hcheck := hdo.trans (congrArg Host.Outcome.next ((if_neg hc).trans (if_neg fun hb => hbad.1 hb hok)))
  rw [show t.tableCheck v q (field v.pkt.own 8 8) (field v.pkt.own 16 4) = _ from ht] at hcheck
  dsimp only at hcheck
  refine ⟨fun h => hcheck.trans (congrArg _ (ifOk_refused _ _ _ h)), fun h w table => ?_⟩
  have hfork := hcheck.trans (congrArg Host.Outcome.next (ifOk_passed _ _ _ h))
  refine ⟨fun hf => hfork.trans ?_, fun e a b hf => hfork.trans ?_, fun hf => hfork.trans ?_⟩
  all_goals rw [show u.forkTable src (field v.pkt.own 4 4 / q.tokens) (field v.pkt.own 16 4) (List.range q.layers) = _ from hf]

/-! ### SESSION_EXTEND (R266) -/

/-- The slots an extension takes of the free ones: from a free value on, around the pool. -/
def slotsTaken (free : List Nat) (r n : Nat) : List Nat :=
  (free.drop (r % max 1 free.length) ++ free.take (r % max 1 free.length)).take n

theorem length_slotsTaken {free : List Nat} (r : Nat) {n : Nat} (h : n ≤ free.length) : (slotsTaken free r n).length = n := by
  unfold slotsTaken
  rw [List.length_take, List.length_append, List.length_drop, List.length_take]
  omega

/-- What an extension writes: the bitmap's bytes that change, and an entry for each block it allocates. -/
def extendParts (q : Profile) (x : Session) (i map : Nat) (need take : List Nat) : Tbl BeadPart :=
  (List.range need.length).foldl
    (fun parts b => gatherParts parts (x.entryVa (need.getD b 0))
      (plain (KvEntry.bytes { addr := q.slotVa false (take.getD b 0), kind := 1, fmt := q.nearFmt, owner := i })))
    (mapParts [] q.nearVa (q.mapBytes false) map (take.foldl (fun m b => setBit m b false) map))

/-- A passed extension: the blocks that are EMPTY and the near pool's bitmap are read, and slots are taken if there are enough. -/
theorem sessionExtend_passed {s t : State} {port : Fin 16} {p : Packet} {v : InSlot} {q : Profile} {i : Nat} {x : Session}
    (h : s.AdmitsCtx 0xB3 port p t v) (hok : t.kvCheck v false 8 = stOk) (hq : t.profile v.ctx = some q)
    (hs : t.sessionFor v (field v.pkt.own 0 4) = some (i, x)) :
    let k := cmdSlot 0xB3 p
    let n := field v.pkt.own 4 4
    (n < x.cap ∨ x.maxBlocks * q.tokens < n → exec (.sessionExtend port p) s = .next (t.complete k stMalformed)) ∧
    (x.cap ≤ n → n ≤ x.maxBlocks * q.tokens → ∀ u need,
      let empty := t.emptyBlocks q x ((n + q.tokens - 1) / q.tokens) (List.range q.layers)
      (empty = (u, need, .wait) → exec (.sessionExtend port p) s = .next (u.engineWait k)) ∧
      (∀ st a b, empty = (u, need, .failed st a b) → exec (.sessionExtend port p) s = .next (u.complete k st)) ∧
      (empty = (u, need, .done) → ∀ w map,
        (u.kvMap v.ctx q false = (w, map, .wait) → exec (.sessionExtend port p) s = .next (w.engineWait k)) ∧
        (∀ st a b, u.kvMap v.ctx q false = (w, map, .failed st a b) → exec (.sessionExtend port p) s = .next (w.complete k st)) ∧
        (u.kvMap v.ctx q false = (w, map, .done) →
          let free := idxs q.nearSlots fun k => bit map k
          (free.length < need.length → ∀ y next, w.nextDemotion q (w.byAge v.ctx) = (y, next) →
            exec (.sessionExtend port p) s = .next (y.complete k (if q.demote && next.isSome then stBusy else stQuota))) ∧
          (need.length ≤ free.length → ∀ y,
            let write := w.free.2.kvWrite v.ctx (extendParts q x i map need (slotsTaken free w.free.1 need.length))
            (write = (y, .wait) → exec (.sessionExtend port p) s = .next (y.engineWait k)) ∧
            (∀ st a b, write = (y, .failed st a b) → exec (.sessionExtend port p) s = .next (y.complete k st)) ∧
            (write = (y, .done) → exec (.sessionExtend port p) s = .next
              ((((y.useSlots v.ctx false need.length).setSession i { x with cap := n }).watchNear v.ctx).complete k stOk)))))) := by
  obtain ⟨ha, hv⟩ := h
  intro k n
  have hact : exec (.sessionExtend port p) s = .next (t.actSessionExtend k) := congrArg Host.Outcome.next (arrive_of_admits ha _)
  unfold State.actSessionExtend at hact
  rw [hv] at hact
  dsimp only at hact
  have hdo := hact.trans (congrArg Host.Outcome.next (ifOk_passed _ _ _ hok))
  rw [hq, hs] at hdo
  dsimp only at hdo
  refine ⟨fun hn => hdo.trans (congrArg _ (if_pos hn)), fun hc hm u need => ?_⟩
  have hread := hdo.trans (congrArg Host.Outcome.next (if_neg (not_or.2 ⟨Nat.not_lt.2 hc, Nat.not_lt.2 hm⟩)))
  refine ⟨fun he => hread.trans ?_, fun st a b he => hread.trans ?_, fun he w map => ?_⟩
  · rw [show t.emptyBlocks q x _ (List.range q.layers) = _ from he]
  · rw [show t.emptyBlocks q x _ (List.range q.layers) = _ from he]
  rw [show t.emptyBlocks q x _ (List.range q.layers) = _ from he] at hread
  dsimp only at hread
  refine ⟨fun hmap => hread.trans (by rw [hmap]), fun st a b hmap => hread.trans (by rw [hmap]), fun hmap => ?_⟩
  rw [hmap] at hread
  dsimp only at hread
  refine ⟨fun hl y next hd => ?_, fun hl y => ?_⟩
  · rw [hd] at hread
    exact hread.trans (congrArg _ (if_pos hl))
  have htake := hread.trans (congrArg Host.Outcome.next (if_neg (Nat.not_lt.2 hl)))
  refine ⟨fun hw => htake.trans ?_, fun st a b hw => htake.trans ?_, fun hw => htake.trans ?_⟩
  all_goals
    unfold extendParts slotsTaken at hw
    rw [hw]

theorem sessionExtend_refused {s t : State} {port : Fin 16} {p : Packet} {v : InSlot} (h : s.AdmitsCtx 0xB3 port p t v) :
    (t.kvCheck v false 8 ≠ stOk → exec (.sessionExtend port p) s = .next (t.complete (cmdSlot 0xB3 p) (t.kvCheck v false 8))) ∧
    (∀ q, t.kvCheck v false 8 = stOk → t.profile v.ctx = some q → t.sessionFor v (field v.pkt.own 0 4) = none →
      exec (.sessionExtend port p) s = .next (t.complete (cmdSlot 0xB3 p) stRevoked)) := by
  obtain ⟨ha, hv⟩ := h
  have hact : exec (.sessionExtend port p) s = .next (t.actSessionExtend (cmdSlot 0xB3 p)) :=
    congrArg Host.Outcome.next (arrive_of_admits ha _)
  unfold State.actSessionExtend at hact
  rw [hv] at hact
  refine ⟨fun h => hact.trans (congrArg _ (ifOk_refused _ _ _ h)), fun q h hq hs => hact.trans (congrArg _ ((ifOk_passed _ _ _ h).trans ?_))⟩
  dsimp only
  rw [hq, hs]

/-! ### The other session commands (R266, R269) -/

/-- What such a command does once it is admitted. -/
theorem onSession_spec {s t : State} {port : Fin 16} {p : Packet} {v : InSlot} {op size : Nat}
    {act : Nat → State → InSlot → Nat → Session → State} {row : Instr}
    (hrow : exec row s = .next (s.arrive (ctxCmd op) port p fun s key => s.onSession key size (act key)))
    (h : s.AdmitsCtx op port p t v) :
    ((t.kvCheck v false size ≠ stOk → exec row s = .next (t.complete (cmdSlot op p) (t.kvCheck v false size))) ∧
      (t.kvCheck v false size = stOk → t.sessionFor v (field v.pkt.own 0 4) = none → exec row s =
        .next (t.complete (cmdSlot op p) stRevoked))) ∧
    (t.kvCheck v false size = stOk → ∀ i x, t.sessionFor v (field v.pkt.own 0 4) = some (i, x) →
      exec row s = .next (act (cmdSlot op p) t v i x)) := by
  obtain ⟨ha, hv⟩ := h
  have hact : exec row s = .next (t.onSession (cmdSlot op p) size (act (cmdSlot op p))) :=
    hrow.trans (congrArg Host.Outcome.next (arrive_of_admits ha _))
  unfold State.onSession at hact
  rw [hv] at hact
  refine ⟨⟨fun h => hact.trans (congrArg _ (ifOk_refused _ _ _ h)), fun h hs => ?_⟩, fun h i x hs => ?_⟩
  all_goals
    refine hact.trans (congrArg Host.Outcome.next ((ifOk_passed _ _ _ h).trans ?_))
    rw [hs]

theorem sessionCommit_acts {s t : State} {port : Fin 16} {p : Packet} {v : InSlot} {i : Nat} {x : Session} (h : s.AdmitsCtx 0xB4 port p t v)
    (hok : t.kvCheck v false 8 = stOk) (hs : t.sessionFor v (field v.pkt.own 0 4) = some (i, x)) :
    let n := field v.pkt.own 4 4
    (x.valid ≤ n → n ≤ x.cap → exec (.sessionCommit port p) s =
      .next ((t.setSession i { x with valid := n }).complete (cmdSlot 0xB4 p) stOk)) ∧
    (n < x.valid ∨ x.cap < n → exec (.sessionCommit port p) s = .next (t.complete (cmdSlot 0xB4 p) stMalformed)) := by
  have hdo := (onSession_spec (row := .sessionCommit port p) rfl h).2 hok i x hs
  exact ⟨fun h1 h2 => hdo.trans (congrArg _ (if_neg (not_or.2 ⟨Nat.not_lt.2 h1, Nat.not_lt.2 h2⟩))),
    fun h => hdo.trans (congrArg _ (if_pos h))⟩

theorem sessionClose_acts {s t : State} {port : Fin 16} {p : Packet} {v : InSlot} {i : Nat} {x : Session} (h : s.AdmitsCtx 0xB5 port p t v)
    (hok : t.kvCheck v false 8 = stOk) (hs : t.sessionFor v (field v.pkt.own 0 4) = some (i, x)) :
    (zeros v.pkt.own 4 4 = true → exec (.sessionClose port p) s =
      .next ((t.setSession i { x with st := .closing }).complete (cmdSlot 0xB5 p) stOk)) ∧
    (zeros v.pkt.own 4 4 = false → exec (.sessionClose port p) s = .next (t.complete (cmdSlot 0xB5 p) stMalformed)) := by
  have hdo := (onSession_spec (row := .sessionClose port p) rfl h).2 hok i x hs
  exact ⟨fun h => hdo.trans (congrArg _ (if_neg (by rw [h]; decide))), fun h => hdo.trans (congrArg _ (if_pos h))⟩

theorem sessionRenew_acts {s t : State} {port : Fin 16} {p : Packet} {v : InSlot} {i : Nat} {x : Session} (h : s.AdmitsCtx 0xB6 port p t v)
    (hok : t.kvCheck v false 16 = stOk) (hs : t.sessionFor v (field v.pkt.own 0 4) = some (i, x)) :
    (zeros v.pkt.own 4 4 = false → exec (.sessionRenew port p) s = .next (t.complete (cmdSlot 0xB6 p) stMalformed)) ∧
    (zeros v.pkt.own 4 4 = true → x.st ≠ .opened → exec (.sessionRenew port p) s = .next (t.complete (cmdSlot 0xB6 p) stRevoked)) ∧
    (zeros v.pkt.own 4 4 = true → x.st = .opened → exec (.sessionRenew port p) s = .next ((t.setSession i { x with
      expire := if field v.pkt.own 8 8 = 0 then none else some ((t.acceptedAt v).1 + field v.pkt.own 8 8) }).complete
      (cmdSlot 0xB6 p) stOk)) := by
  have hdo := (onSession_spec (row := .sessionRenew port p) rfl h).2 hok i x hs
  refine ⟨fun h => hdo.trans (congrArg _ (if_pos h)), fun h ho => ?_, fun h ho => ?_⟩
  · exact hdo.trans (congrArg _ ((if_neg (by rw [h]; decide)).trans (if_pos ho)))
  · exact hdo.trans (congrArg _ ((if_neg (by rw [h]; decide)).trans (if_neg (not_not_intro ho))))

theorem kvStatus_acts {s t : State} {port : Fin 16} {p : Packet} {v : InSlot} {i : Nat} {x : Session} (h : s.AdmitsCtx 0xB7 port p t v)
    (hok : t.kvCheck v false 8 = stOk) (hs : t.sessionFor v (field v.pkt.own 0 4) = some (i, x)) {q : Profile}
    (hq : t.profile v.ctx = some q) :
    let k := cmdSlot 0xB7 p
    (zeros v.pkt.own 4 4 = false → exec (.kvStatus port p) s = .next (t.complete k stMalformed)) ∧
    (zeros v.pkt.own 4 4 = true → ∀ u es,
      (t.ownedBlocks q i x = (u, es, .wait) → exec (.kvStatus port p) s = .next (u.engineWait k)) ∧
      (∀ st a b, t.ownedBlocks q i x = (u, es, .failed st a b) → exec (.kvStatus port p) s = .next (u.complete k st)) ∧
      (t.ownedBlocks q i x = (u, es, .done) → exec (.kvStatus port p) s = .next (u.complete k stOk
        ([byte x.st.code, 0, 0, 0] ++ leBytes 2 x.refs ++ leBytes 2 x.calls ++ leBytes 4 x.valid ++ leBytes 4 x.cap ++
          leBytes 4 x.shared ++ leBytes 4 (es.filter fun e => e.kind == 1).length ++
          leBytes 4 (es.filter fun e => e.kind == 2).length ++ leBytes 4 (x.expire.getD 0))))) := by
  have hdo := (onSession_spec (row := .kvStatus port p) rfl h).2 hok i x hs
  dsimp only at hdo
  rw [hq] at hdo
  dsimp only at hdo
  intro k
  refine ⟨fun h => hdo.trans (congrArg _ (if_pos h)), fun h u es => ?_⟩
  have hread := hdo.trans (congrArg Host.Outcome.next (if_neg (by rw [h]; decide)))
  refine ⟨fun ho => hread.trans ?_, fun st a b ho => hread.trans ?_, fun ho => hread.trans ?_⟩
  all_goals rw [ho]

/-- Settles O54: each session command by the branches of its action. -/
theorem sessionCommandsAct : Obligations.SessionCommandsAct := by
  unfold Obligations.SessionCommandsAct
  refine ⟨fun _ _ _ _ _ => kvSetup_spec, fun _ _ _ _ _ => sessionOpen_spec, fun s k v table => ?_, fun _ _ _ _ _ => sessionFork_spec,
    fun s t port p v h => ?_, fun s t port p v => ⟨?_, fun i x hs => ⟨fun h hok => sessionCommit_acts h hok hs,
      fun h hok => sessionClose_acts h hok hs, fun h hok => sessionRenew_acts h hok hs, fun h hok q hq => kvStatus_acts h hok hs hq⟩⟩⟩
  · obtain ⟨hnone, hsome⟩ := openSession_spec s k v table
    exact ⟨hnone, hsome, fun _ _ => freeRecord_some⟩
  · obtain ⟨hrefused, hrevoked⟩ := sessionExtend_refused h
    refine ⟨hrefused, fun hok q hq => ⟨hrevoked q hok hq, fun i x hs => ?_⟩⟩
    obtain ⟨hbad, hgo⟩ := sessionExtend_passed h hok hq hs
    refine ⟨hbad, fun h1 h2 u need => ?_⟩
    obtain ⟨hwait, hfail, hread⟩ := hgo h1 h2 u need
    refine ⟨hwait, hfail, fun h3 w map => ?_⟩
    obtain ⟨hmwait, hmfail, hmap⟩ := hread h3 w map
    refine ⟨hmwait, hmfail, fun h4 => ?_⟩
    obtain ⟨hfew, htake⟩ := hmap h4
    exact ⟨hfew, fun h5 => ⟨length_slotsTaken _ h5, htake h5⟩⟩
  · simp only [List.forall_mem_cons, List.not_mem_nil, false_imp_iff, implies_true, and_true]
    exact ⟨fun h => (onSession_spec (row := .sessionCommit port p) rfl h).1, fun h => (onSession_spec (row := .sessionClose port p) rfl h).1,
      fun h => (onSession_spec (row := .sessionRenew port p) rfl h).1, fun h => (onSession_spec (row := .kvStatus port p) rfl h).1⟩

end Sys2Proof.Machine
end

section
/-!
Sessions that end (R265, R269), and blocks that move between the tiers (R270–R273).
-/

namespace Sys2Proof.Machine

/-! ### What leaves the sessions as they are -/

theorem session_of_quiet {s t : State} (h : s.quiet = t.quiet) (i : Nat) : s.session i = t.session i := by
  have h' : s.quiet.session i = t.quiet.session i := by rw [h]
  exact h'

theorem watchNear_session (s : State) (c i : Nat) : (s.watchNear c).session i = s.session i := by
  unfold State.watchNear
  split
  · rfl
  · dsimp only
    (repeat' split) <;> first
      | rfl
      | exact (session_of_quiet (quiet_raise ..) i :)

/-! ### Expiry and release -/

theorem sessionExpire_spec (s : State) (n : Fin 16384) : let v := s.session n
    (v.expire = none ∨ v.st ≠ .opened → exec (.sessionExpire n) s = .next s) ∧
    (∀ tick, v.expire = some tick → v.st = .opened → exec (.sessionExpire n) s =
      .next (((s.elapseToTick tick).setSession n { v with st := .closing }).postCtx v.ctx (sessionRecord 0x0050 v n))) := by
  intro v
  have hexec : exec (.sessionExpire n) s = execSessionExpire n s := rfl
  unfold execSessionExpire at hexec
  dsimp only at hexec
  cases he : (s.session n).expire with
  | none =>
    rw [he] at hexec
    exact ⟨fun _ => hexec, fun tick h => absurd h (by simp)⟩
  | some tick =>
    rw [he] at hexec
    refine ⟨fun h => hexec.trans (congrArg Host.Outcome.next (if_neg ?_)), fun t ht hst => ?_⟩
    · rw [beq_iff_eq]
      exact h.resolve_left (by simp)
    · obtain rfl : tick = t := Option.some.inj ht
      exact hexec.trans (congrArg Host.Outcome.next (if_pos (beq_iff_eq.2 hst)))

/-- A session's record freed: its parent loses a reference, it is no longer promoted, and SESSION_FREE is posted. -/
def State.releaseSession (s : State) (i : Nat) (v : Session) : State :=
  let s := s.setSession i { gen := v.gen }
  let s := match v.parent with
    | some q => s.setSession q { s.session q with refs := (s.session q).refs - 1 }
    | none => s
  let s : State := { s with kvs := { s.kvs with promoting := s.kvs.promoting.erase i } }
  (s.watchNear v.ctx).postCtx v.ctx (sessionRecord 0x0051 v i)

theorem releaseSession_spec (s : State) (n : Nat) (v : Session) :
    (v.parent = none → (s.releaseSession n v).session n = { gen := v.gen } ∧
      ∀ i, i ≠ n → (s.releaseSession n v).session i = s.session i) ∧
    (∀ i, v.parent = some i → i ≠ n → (s.releaseSession n v).session n = { gen := v.gen } ∧
      ((s.releaseSession n v).session i).refs = (s.session i).refs - 1) := by
  have hrest (t : State) (i : Nat) : ((State.watchNear { t with kvs := { t.kvs with promoting := t.kvs.promoting.erase n } } v.ctx).postCtx
      v.ctx (sessionRecord 0x0051 v n)).session i = t.session i :=
    (session_of_quiet (quiet_postCtx ..) i).trans (watchNear_session ..)
  unfold State.releaseSession
  refine ⟨fun hp => ?_, fun i hp hi => ?_⟩
  all_goals
    rw [hp]
    dsimp only
    rw [hrest]
  · refine ⟨by rw [setSession_session, if_pos rfl], fun i hi => ?_⟩
    rw [hrest, setSession_session, if_neg hi]
  · rw [hrest]
    simp only [setSession_session, if_neg hi, if_neg (Ne.symm hi), if_true, and_self]

/-- A session may be freed: CLOSING, without calls, references and moves that copy. -/
theorem sessionFree_spec (s : State) (n : Fin 16384) :
    let v := s.session n
    let may := v.st = .closing ∧ v.calls = 0 ∧ v.refs = 0 ∧ ∀ m ∈ s.kvs.moves, m.session = n.val → m.copying = false
    (¬may → exec (.sessionFree n) s = .next s) ∧
    (may → s.profile v.ctx = none → exec (.sessionFree n) s = .next (s.releaseSession n v)) ∧
    (may → ∀ q u es, s.profile v.ctx = some q →
      (s.ownedBlocks q n v = (u, es, .wait) → exec (.sessionFree n) s = .next u) ∧
      (∀ a b c, s.ownedBlocks q n v = (u, es, .failed a b c) → exec (.sessionFree n) s = .next (u.releaseSession n v)) ∧
      (s.ownedBlocks q n v = (u, es, .done) → ∀ w a, u.returnSlots v.ctx q es = (w, a) →
        (a = .wait → exec (.sessionFree n) s = .next w) ∧
        (a ≠ .wait → exec (.sessionFree n) s = .next (w.releaseSession n v)))) := by
  intro v may
  have hexec : exec (.sessionFree n) s = execSessionFree n s := rfl
  unfold execSessionFree at hexec
  have hguard : ((s.session n).st == .closing && (s.session n).calls == 0 && (s.session n).refs == 0 &&
      !(s.kvs.moves.any fun m => m.session == n.val && m.copying)) = true ↔ may := by
    simp [may, v, and_assoc]
  have hgo (h : may) := hexec.trans (congrArg Host.Outcome.next (if_pos (hguard.2 h)))
  dsimp only at hgo
  refine ⟨fun h => hexec.trans (congrArg Host.Outcome.next (if_neg (mt hguard.1 h))), fun h hp => (hgo h).trans ?_, fun h q u es hp => ?_⟩
  · rw [show s.profile (s.session n).ctx = none from hp]
    rfl
  · rw [show s.profile (s.session n).ctx = some q from hp] at hgo
    dsimp only at hgo
    refine ⟨fun ho => (hgo h).trans ?_, fun a b c ho => (hgo h).trans ?_, fun ho w a hr => ?_⟩
    · rw [show s.ownedBlocks q n (s.session n) = _ from ho]
    · rw [show s.ownedBlocks q n (s.session n) = _ from ho]
      rfl
    · rw [show s.ownedBlocks q n (s.session n) = _ from ho] at hgo
      dsimp only at hgo
      rw [show u.returnSlots (s.session n).ctx q es = _ from hr] at hgo
      refine ⟨fun ha => (hgo h).trans ?_, fun ha => (hgo h).trans ?_⟩
      · rw [ha]
      · cases a with
        | wait => exact absurd rfl ha
        | done => rfl
        | failed => rfl

/-! ### Moves that start (R270, R273) -/

theorem kvMoveStart_due {s : State} {n : Fin 16384} {block : Nat} {promote : Bool} {q : Profile} {u a w : State} {e : KvEntry} {bad : Bool}
    {map : Nat} (hq : s.profile (s.session n).ctx = some q) (hdue : s.moveDue n block promote = (u, true))
    (he : u.kvEntries (s.session n) block 1 = (a, [e], bad, .done)) (hm : u.kvMap (s.session n).ctx q (!promote) = (w, map, .done)) :
    let v := s.session n
    let layer := block / max 1 v.maxBlocks
    let b := block % max 1 v.maxBlocks
    let open_ := idxs (q.slots (!promote)) fun k => bit map k
    (open_ = [] → promote = true → exec (.kvMoveStart n block promote) s = .next w) ∧
    (open_ = [] → promote = false → ∃ t, exec (.kvMoveStart n block promote) s = .next t ∧
      t.kvs.farFull.contains v.ctx = true ∧ t.kvs.moves = w.kvs.moves) ∧
    (open_ ≠ [] → q.slotAt promote e.addr = none → exec (.kvMoveStart n block promote) s =
      .next (w.noMove n layer b promote v (some e))) ∧
    (∀ old x l y, q.slotAt promote e.addr = some old → open_ = x :: l →
      let new := (x :: l).getD (w.free.1 % (l.length + 1)) x
      w.free.2.kvWrite v.ctx (mapParts [] (q.poolVa (!promote)) (q.mapBytes (!promote)) map (setBit map new false)) = (y, .done) →
      exec (.kvMoveStart n block promote) s = .next ((State.useSlots { y with kvs := { y.kvs with moves := y.kvs.moves ++
        [{ ctx := v.ctx, session := n, layer := layer, block := b, promote := promote, old := old, new := new }] } }
        v.ctx (!promote) 1).watchNear v.ctx)) := by
  have hdo : exec (.kvMoveStart n block promote) s = execKvMoveStart n block promote s := rfl
  unfold execKvMoveStart at hdo
  dsimp only at hdo
  rw [hq, hdue] at hdo
  dsimp only at hdo
  rw [he, hm] at hdo
  dsimp only at hdo
  intro v layer b open_
  refine ⟨fun ho hp => hdo.trans ?_, fun ho hp => ?_, fun ho hs => hdo.trans ?_, fun old x l y hs ho => ?_⟩
  · rw [show (idxs (q.slots (!promote)) fun k => bit map k) = [] from ho, hp]
    rfl
  · rw [show (idxs (q.slots (!promote)) fun k => bit map k) = [] from ho] at hdo
    subst hp
    refine ⟨_, hdo, ?_, rfl⟩
    show (if w.kvs.farFull.contains (s.session n).ctx = true then w.kvs.farFull else w.kvs.farFull ++ [(s.session n).ctx]).contains
      (s.session n).ctx = true
    split
    · next h => exact h
    · simp
  · rw [hs]
    cases hl : idxs (q.slots (!promote)) fun k => bit map k with
    | nil => exact absurd hl ho
    | cons x l => rfl
  · intro new hw
    rw [hs, show (idxs (q.slots (!promote)) fun k => bit map k) = x :: l from ho] at hdo
    dsimp only at hdo
    rw [show w.free.2.kvWrite (s.session n).ctx _ = _ from hw] at hdo
    exact hdo

/-! ### Old slots released, and moves that end (R271–R273) -/

theorem kvOldSlotRelease_spec {s : State} {n : Nat} {m : Move} (hm : s.kvs.moves[n]? = some m) :
    (m.waitFor ≠ some [] → exec (.kvOldSlotRelease n) s = .next s) ∧
    (m.waitFor = some [] →
      (s.profile m.ctx = none → exec (.kvOldSlotRelease n) s = .next (s.setMove n none)) ∧
      (∀ q u a, s.profile m.ctx = some q → s.returnSlot m.ctx q m.promote m.old = (u, a) →
        (a = .wait → exec (.kvOldSlotRelease n) s = .next u) ∧
        (a ≠ .wait → exec (.kvOldSlotRelease n) s = .next ((u.setMove n none).watchNear m.ctx)))) := by
  have hexec : exec (.kvOldSlotRelease n) s = execKvOldSlotRelease n s := rfl
  unfold execKvOldSlotRelease at hexec
  rw [hm] at hexec
  refine ⟨fun h => hexec.trans (congrArg Host.Outcome.next (if_neg (mt beq_iff_eq.1 h))), fun h => ?_⟩
  have hdo := hexec.trans (congrArg Host.Outcome.next (if_pos (beq_iff_eq.2 h)))
  dsimp only at hdo
  refine ⟨fun hq => hdo.trans (by rw [hq]), fun q u a hq hr => ?_⟩
  rw [hq] at hdo
  dsimp only at hdo
  rw [hr] at hdo
  refine ⟨fun ha => hdo.trans (by rw [ha]), fun ha => hdo.trans ?_⟩
  cases a with
  | wait => exact absurd rfl ha
  | done => rfl
  | failed => rfl

/-- The entry of a moved block (R271). -/
def movedEntry (m : Move) (q : Profile) (e : KvEntry) : KvEntry :=
  if m.promote then { e with addr := q.slotVa false m.new, kind := 1 }
  else if keepsCode m.promote e then { e with addr := q.slotVa true m.new, kind := 2 }
  else { e with addr := q.slotVa true m.new, kind := 2, fmt := q.farFmt, flags := setBit (setBit e.flags 0 q.farMx) 1 true }

/-- The bytes of a block read from its old slot. -/
def movedLen (m : Move) (q : Profile) (e : KvEntry) : Nat := if keepsCode m.promote e then q.heads * q.segF else q.heads * q.segN

/-- What a move writes: its new slot, then its entry. -/
def movedParts (m : Move) (q : Profile) (e : KvEntry) (v : Session) (l : List (List Byte × Bool)) : Tbl BeadPart :=
  gatherParts (gatherParts [] (q.slotVa (!m.promote) m.new) (movedBytes q (keepsCode m.promote e) ((markedBytes l).take (movedLen m q e))))
    (v.entryVa (m.layer * v.maxBlocks + m.block)) (plain (movedEntry m q e).bytes)

theorem kvMoveDone_idle {s : State} {n : Nat} {m : Move} (hm : s.kvs.moves[n]? = some m) :
    (s.profile m.ctx = none → exec (.kvMoveDone n) s = .next (s.setMove n none)) ∧
    (∀ q, s.profile m.ctx = some q →
      (m.waitFor ≠ none → exec (.kvMoveDone n) s = .next s) ∧
      (m.waitFor = none → (s.session m.session).st = .free → ∀ u a, s.returnSlot m.ctx q (!m.promote) m.new = (u, a) →
        (a = .wait → exec (.kvMoveDone n) s = .next u) ∧ (a ≠ .wait → exec (.kvMoveDone n) s = .next (u.setMove n none)))) := by
  have hexec : exec (.kvMoveDone n) s = execKvMoveDone n s := rfl
  unfold execKvMoveDone at hexec
  rw [hm] at hexec
  dsimp only at hexec
  refine ⟨fun hq => hexec.trans (by rw [hq]), fun q hq => ?_⟩
  rw [hq] at hexec
  refine ⟨fun h => hexec.trans (congrArg Host.Outcome.next (if_neg (mt Option.isNone_iff_eq_none.1 h))), fun h hst u a hr => ?_⟩
  have hdo := hexec.trans (congrArg Host.Outcome.next ((if_pos (Option.isNone_iff_eq_none.2 h)).trans (if_pos hst)))
  rw [hr] at hdo
  refine ⟨fun ha => hdo.trans (by rw [ha]), fun ha => hdo.trans ?_⟩
  cases a with
  | wait => exact absurd rfl ha
  | done => rfl
  | failed => rfl

/-- A move whose entry is read goes on: its block is read, and written with its entry. -/
def State.moveBlock (s : State) (n : Nat) (m : Move) (q : Profile) (v : Session) (e : KvEntry) : State :=
  match s.unitReads kvsUnit kvsTag v.ctx (q.slotVa m.promote m.old) ((movedLen m q e + 63) / 64) with
  | (s, _, .wait) => s
  | (s, _, .failed _ _ _) => s.moveFails n m v q (some e)
  | (s, l, .done) =>
    if s.deadEnd v.ctx (movedParts m q e v l) then s.moveFails n m v q (some e)
    else match s.kvWrite v.ctx (movedParts m q e v l) with
    | (s, .wait) => s
    | (s, .failed _ _ _) => s.moveFails n m v q (some e)
    | (s, .done) =>
      let s := s.tally .kvs 0 0x52 (b2n m.promote) (movedLen m q e) (some v.ctx)
      s.setMove n (some { m with waitFor := some (s.attendsOf v.ctx) })

/-- A move that copies reads its block's entry first. -/
theorem kvMoveDone_copying {s : State} {n : Nat} {m : Move} {q : Profile} (hm : s.kvs.moves[n]? = some m) (hq : s.profile m.ctx = some q)
    (hw : m.waitFor = none) (hst : (s.session m.session).st ≠ .free) (u : State) (es : List KvEntry) (bad : Bool) :
    let v : Session := { s.session m.session with ctx := m.ctx }
    let entry := s.kvEntries v (m.layer * v.maxBlocks + m.block) 1
    (entry = (u, es, bad, .wait) → exec (.kvMoveDone n) s = .next u) ∧
    (∀ a b c, entry = (u, es, bad, .failed a b c) → exec (.kvMoveDone n) s = .next (u.moveFails n m v q none)) ∧
    (∀ e, entry = (u, [e], bad, .done) → exec (.kvMoveDone n) s = .next (u.moveBlock n m q v e)) := by
  have hexec : exec (.kvMoveDone n) s = execKvMoveDone n s := rfl
  unfold execKvMoveDone at hexec
  rw [hm] at hexec
  dsimp only at hexec
  rw [hq] at hexec
  have hdo := hexec.trans (congrArg Host.Outcome.next ((if_pos (Option.isNone_iff_eq_none.2 hw)).trans (if_neg hst)))
  intro v entry
  refine ⟨fun he => hdo.trans ?_, fun a b c he => hdo.trans ?_, fun e he => ?_⟩
  · rw [show s.kvEntries _ _ 1 = _ from he]
    cases es with
    | nil => rfl
    | cons e l => cases l <;> rfl
  · rw [show s.kvEntries _ _ 1 = _ from he]
    cases es with
    | nil => rfl
    | cons e l => cases l <;> rfl
  · rw [show s.kvEntries _ _ 1 = _ from he] at hdo
    refine hdo.trans (congrArg Host.Outcome.next ?_)
    unfold State.moveBlock movedParts movedEntry movedLen
    dsimp only [v] <;>
      (generalize u.unitReads kvsUnit kvsTag m.ctx (q.slotVa m.promote m.old)
        (((if keepsCode m.promote e = true then q.heads * q.segF else q.heads * q.segN) + 63) / 64) = read
       obtain ⟨w, l, a⟩ := read
       cases a with
       | wait => rfl
       | failed => rfl
       | done =>
         refine ite_congr rfl (fun _ => rfl) fun _ => ?_
         generalize w.kvWrite m.ctx _ = write
         obtain ⟨y, b⟩ := write
         cases b <;> rfl)

theorem moveBlock_spec (u : State) (n : Nat) (m : Move) (q : Profile) (v : Session) (e : KvEntry) (w : State) (l : List (List Byte × Bool)) :
    let read := u.unitReads kvsUnit kvsTag v.ctx (q.slotVa m.promote m.old) ((movedLen m q e + 63) / 64)
    (read = (w, l, .wait) → u.moveBlock n m q v e = w) ∧
    (∀ a b c, read = (w, l, .failed a b c) → u.moveBlock n m q v e = w.moveFails n m v q (some e)) ∧
    (read = (w, l, .done) → w.deadEnd v.ctx (movedParts m q e v l) = true → u.moveBlock n m q v e = w.moveFails n m v q (some e)) ∧
    (read = (w, l, .done) → w.deadEnd v.ctx (movedParts m q e v l) = false → ∀ y,
      (w.kvWrite v.ctx (movedParts m q e v l) = (y, .wait) → u.moveBlock n m q v e = y) ∧
      (∀ a b c, w.kvWrite v.ctx (movedParts m q e v l) = (y, .failed a b c) → u.moveBlock n m q v e = y.moveFails n m v q (some e)) ∧
      (w.kvWrite v.ctx (movedParts m q e v l) = (y, .done) → u.moveBlock n m q v e =
        (y.tally .kvs 0 0x52 (b2n m.promote) (movedLen m q e) (some v.ctx)).setMove n (some { m with
          waitFor := some ((y.tally .kvs 0 0x52 (b2n m.promote) (movedLen m q e) (some v.ctx)).attendsOf v.ctx) }))) := by
  intro read
  unfold State.moveBlock
  refine ⟨fun hr => ?_, fun a b c hr => ?_, fun hr hd => ?_, fun hr hd y => ?_⟩
  all_goals rw [show u.unitReads kvsUnit kvsTag v.ctx (q.slotVa m.promote m.old) ((movedLen m q e + 63) / 64) = _ from hr]
  · exact if_pos hd
  · dsimp only
    rw [if_neg (by rw [hd]; decide)]
    exact ⟨fun hw => by rw [hw], fun a b c hw => by rw [hw], fun hw => by rw [hw]⟩

theorem keepsCode_iff (b : Bool) (e : KvEntry) : keepsCode b e = true ↔ b = true ∨ bit e.flags 1 = true := Bool.or_eq_true_iff ..

/-- Settles O55: sessions by the branches of their ends, moves by the accesses they make. -/
theorem sessionsEndAndBlocksMove : Obligations.SessionsEndAndBlocksMove := by
  unfold Obligations.SessionsEndAndBlocksMove
  refine ⟨fun s n => ?_, fun s n block promote => ⟨fun h => ?_, fun q u hq => ⟨fun hdue => ?_, fun hdue a e bad w map he hm =>
    kvMoveStart_due hq hdue he hm⟩⟩, fun s n => ⟨fun h => ⟨?_, ?_⟩, fun m hm => ?_⟩⟩
  · obtain ⟨hno, hexpire⟩ := sessionExpire_spec s n
    obtain ⟨hstays, hfree, hprofile⟩ := sessionFree_spec s n
    refine ⟨hno, hexpire, hstays, fun h hp => ⟨_, hfree h hp, releaseSession_spec ..⟩, fun h q u es hp => ?_⟩
    obtain ⟨hwait, hfail, hdone⟩ := hprofile h q u es hp
    refine ⟨hwait, fun a b c ho => ⟨_, hfail a b c ho, releaseSession_spec ..⟩, fun ho w a hr => ?_⟩
    obtain ⟨hrwait, hret⟩ := hdone ho w a hr
    exact ⟨hrwait, fun ha => ⟨_, hret ha, releaseSession_spec ..⟩⟩
  · refine ⟨(s.moveDue n block promote).1, ?_⟩
    show execKvMoveStart n block promote s = _
    unfold execKvMoveStart
    dsimp only
    rw [h]
  · show execKvMoveStart n block promote s = _
    unfold execKvMoveStart
    dsimp only
    rw [hq, hdue]
  · show execKvMoveDone n s = _
    unfold execKvMoveDone
    rw [h]
  · show execKvOldSlotRelease n s = _
    unfold execKvOldSlotRelease
    rw [h]
  · obtain ⟨hheld, hrelease⟩ := kvOldSlotRelease_spec hm
    obtain ⟨hgone, hidle⟩ := kvMoveDone_idle hm
    refine ⟨hheld, hrelease, hgone, fun q hq => ⟨(hidle q hq).1, (hidle q hq).2, fun hw hst u es bad => ?_⟩⟩
    obtain ⟨hwait, hfail, hentry⟩ := kvMoveDone_copying hm hq hw hst u es bad
    refine ⟨hwait, hfail, fun e he => ?_⟩
    intro keep len e' read w l bytes block parts
    have hlen : len = movedLen m q e := ite_congr (propext (keepsCode_iff ..)).symm (fun _ => rfl) fun _ => rfl
    have hblock : block = movedBytes q (keepsCode m.promote e) ((markedBytes l).take (movedLen m q e)) := by
      rw [← hlen]
      exact ite_congr (propext (keepsCode_iff ..)).symm (fun _ => rfl) fun _ => rfl
    have hmoved : e' = movedEntry m q e := ite_congr rfl (fun _ => rfl) fun _ =>
      ite_congr (propext (keepsCode_iff ..)).symm (fun _ => rfl) fun _ => rfl
    have hparts : parts = movedParts m q e { s.session m.session with ctx := m.ctx } l := by
      unfold movedParts
      rw [← hblock, ← hmoved]
    have hread : read = u.unitReads kvsUnit kvsTag m.ctx (q.slotVa m.promote m.old) ((movedLen m q e + 63) / 64) := by
      rw [← hlen]
    have hdo := hentry e he
    obtain ⟨h1, h2, h3, h4⟩ := moveBlock_spec u n m q { s.session m.session with ctx := m.ctx } e w l
    rw [hread, hparts, hlen]
    refine ⟨fun h => hdo.trans (congrArg _ (h1 h)), fun a b c h => hdo.trans (congrArg _ (h2 a b c h)),
      fun h hd => hdo.trans (congrArg _ (h3 h hd)), fun hr hd y => ?_⟩
    obtain ⟨h5, h6, h7⟩ := h4 hr hd y
    exact ⟨fun h => hdo.trans (congrArg _ (h5 h)), fun a b c h => hdo.trans (congrArg _ (h6 a b c h)), fun h => hdo.trans (congrArg _ (h7 h))⟩

end Sys2Proof.Machine
end

section
/-!
The module's own requests: their completion, its absence, their resend, and the end of guards and done records (R357, R363–R365,
R411, R415).
-/

namespace Sys2Proof.Machine

/-! ### Completions -/

/-- Whoever takes a completion in: its answer, if it makes one, is acted on. -/
theorem cmpl_taken (u : State) (by_ : Option Nat) (q : Packet) :
    ∃ t, (∀ w, u.takeCmpl by_ q = (w, none) → t = w) ∧ ∀ w a, u.takeCmpl by_ q = (w, some a) → t = w.answered a := by
  rcases h : u.takeCmpl by_ q with ⟨w, _ | a⟩
  · exact ⟨w, fun _ he => congrArg Prod.fst he, fun _ a he => absurd (congrArg Prod.snd he).symm (Option.some_ne_none a)⟩
  · exact ⟨w.answered a, fun _ he => absurd (congrArg Prod.snd he) (Option.some_ne_none a), fun _ _ he => by cases he; rfl⟩

/-- What `cmpl_taken` gives is the state both of its clauses name. -/
theorem arriveCmpl_eq_of_taken {s u t : State} {port : Fin 16} {p q : Packet} {by_ : Option Nat}
    (hsome : ∀ w a, u.takeCmpl by_ q = (w, some a) → s.arriveCmpl port p State.answered = w.answered a)
    (hnone : ∀ w, u.takeCmpl by_ q = (w, none) → s.arriveCmpl port p State.answered = w)
    (ht : (∀ w, u.takeCmpl by_ q = (w, none) → t = w) ∧ ∀ w a, u.takeCmpl by_ q = (w, some a) → t = w.answered a) :
    s.arriveCmpl port p State.answered = t := by
  obtain ⟨htnone, htsome⟩ := ht
  rcases h : u.takeCmpl by_ q with ⟨w, _ | a⟩
  · rw [hnone w h, htnone w h]
  · rw [hsome w a h, htsome w a h]

/-- CMPL (R357): a completion of this module's own units, one that goes on and one for this module. -/
theorem cmpl_acts (s : State) (port : Fin 16) (p : Packet) :
    let q := p.ofType tCmpl
    let done (u : State) (by_ : Option Nat) (t : State) : Prop :=
      (∀ w, u.takeCmpl by_ q = (w, none) → t = w) ∧ ∀ w a, u.takeCmpl by_ q = (w, some a) → t = w.answered a
    (∀ u, s.takeLocal q = some u → ∃ t, exec (.cmpl port p) s = .next t ∧ done u none t) ∧
    (s.takeLocal q = none → s.portUp port = false → exec (.cmpl port p) s = .next s) ∧
    (s.takeLocal q = none → s.portUp port = true →
      let v := (s.received port q none).learn port q
      (q.dst ≠ v.ep → exec (.cmpl port p) s = .next (v.transit port q)) ∧
      (q.dst = v.ep → ∃ t, exec (.cmpl port p) s = .next t ∧ done v (some port.val) t)) := by
  have hexec : exec (.cmpl port p) s = .next (s.arriveCmpl port p State.answered) := rfl
  obtain ⟨hsome, hnone, hdown, hup⟩ := arriveCmpl_spec s port p State.answered
  rw [hexec]
  refine ⟨fun u hu => ?_, fun hl hp => congrArg _ (hdown hl hp), fun hl hp => ?_⟩
  · obtain ⟨t, ht⟩ := cmpl_taken u none (p.ofType tCmpl)
    exact ⟨t, congrArg _ (arriveCmpl_eq_of_taken (fun w a h => hsome u w a hu h) (fun w h => hnone u w hu h) ht), ht⟩
  · obtain ⟨hon, here⟩ := hup hl hp
    refine ⟨fun hd => congrArg _ (hon hd), fun hd => ?_⟩
    obtain ⟨t, ht⟩ := cmpl_taken ((s.received port (p.ofType tCmpl) none).learn port (p.ofType tCmpl)) (some port.val) (p.ofType tCmpl)
    exact ⟨t, congrArg _ (arriveCmpl_eq_of_taken (fun w a h => (here hd w).1 a h) (fun w h => (here hd w).2 h) ht), ht⟩

/-! ### The checks of a completion -/

/-- What a completion that passes its checks brings: its slot freed and its answer. -/
def State.cmplTaken (s : State) (p req : Packet) (what : Purpose) : State × Option Answer :=
  ((s.quotaBack req.dst).freeOutSlot (p.tag % 16384),
    some { out := p.tag % 16384, req := req, what := what, status := p.status, data := p.body, poison := p.poison })

/-- A completion of another shape, or no final one, is discarded (R352, R355). -/
theorem takeCmpl_discarded {s : State} {port : Option Nat} {p : Packet} (h : completionShape p = false ∨ p.last = false) :
    s.takeCmpl port p = (s, none) := by
  unfold State.takeCmpl
  exact if_pos (by obtain h | h := h <;> simp [h])

/-- A completion in the clear (R419). -/
theorem takeCmpl_clear {s : State} {port : Option Nat} {p : Packet} (hshape : completionShape p = true) (hlast : p.last = true)
    (hsec : p.sec = none) :
    (s.outMatch p = none → s.takeCmpl port p = (s.lateCmpl p, none)) ∧
    (∀ o req what, s.outMatch p = some (o, req, what) →
      (clearAnswerOk o p = true → s.takeCmpl port p = s.cmplTaken p req what) ∧
      (clearAnswerOk o p = false → s.takeCmpl port p = (s, none))) := by
  unfold State.takeCmpl
  dsimp only
  rw [if_neg (by simp [hshape, hlast]), hsec]
  dsimp only
  refine ⟨fun hm => by rw [hm], fun o req what hm => ?_⟩
  rw [hm]
  exact ⟨fun hok => if_pos hok, fun hok => if_neg (by simp [hok])⟩

/-- A sealed completion, by the checks of Table 18.6 in their order (R415, R416). -/
theorem takeCmpl_sealed {s : State} {port : Option Nat} {p : Packet} {x : Prefix} (hshape : completionShape p = true)
    (hlast : p.last = true) (hsec : p.sec = some x) :
    (s.answerKey (s.outSlot (p.tag % 16384)) x = none → s.takeCmpl port p = (s.bump 0x4834, none)) ∧
    (∀ key, s.answerKey (s.outSlot (p.tag % 16384)) x = some key →
      (s.keyArmed x = true → s.takeCmpl port p = (s, none)) ∧
      (s.keyArmed x = false → s.keyRetiring x = true → s.outMatch p = none → s.takeCmpl port p = (s.bump 0x4830, none)) ∧
      (s.keyArmed x = false → s.keyRetiring x = false ∨ s.outMatch p ≠ none →
        (x.dir = false → s.takeCmpl port p = (s, none)) ∧
        (x.dir = true → s.outMatch p = none → s.takeCmpl port p = (s.lateCmpl p, none)) ∧
        (∀ o req what, x.dir = true → s.outMatch p = some (o, req, what) →
          (p.gcm = p.tagUnder key → s.takeCmpl port p = s.cmplTaken p req what) ∧
          (p.gcm ≠ p.tagUnder key → let u := (s.bump 0x4828).raise .sec 0 0
            s.takeCmpl port p = (if u.tagEvents then u.postMgr (keyRecord 0x00A1 x port) else u, none))))) := by
  unfold State.takeCmpl
  dsimp only
  rw [if_neg (by simp [hshape, hlast]), hsec]
  dsimp only
  refine ⟨fun hk => by rw [hk], fun key hk => ?_⟩
  rw [hk]
  dsimp only
  refine ⟨fun ha => if_pos ha, fun ha hr hm => ?_, fun ha hr => ?_⟩
  · rw [if_neg (by simp [ha]), if_pos (by simp [hr, hm])]
  · have hgo : ¬(s.keyRetiring x && (s.outMatch p).isNone) = true := by
      obtain hr | hr := hr <;> simp [hr]
    rw [if_neg (by simp [ha]), if_neg hgo]
    refine ⟨fun hd => if_pos (by simp [hd]), fun hd hm => ?_, fun o req what hd hm => ?_⟩
    · rw [if_neg (by simp [hd]), hm]
    · rw [if_neg (by simp [hd]), hm]
      exact ⟨fun hg => if_pos hg, fun hg => if_neg hg⟩

/-- A completion's checks (R415, R416, R419). -/
theorem takeCmpl_checks (s : State) (port : Option Nat) (p : Packet) :
    let i := p.tag % 16384
    let m := s.outMatch p
    let taken (req : Packet) (what : Purpose) : State × Option Answer := ((s.quotaBack req.dst).freeOutSlot i,
      some { out := i, req := req, what := what, status := p.status, data := p.body, poison := p.poison })
    (completionShape p = false ∨ p.last = false → s.takeCmpl port p = (s, none)) ∧
    (completionShape p = true → p.last = true →
      (p.sec = none →
        (m = none → s.takeCmpl port p = (s.lateCmpl p, none)) ∧
        (∀ o req what, m = some (o, req, what) →
          (clearAnswerOk o p = true → s.takeCmpl port p = taken req what) ∧
          (clearAnswerOk o p = false → s.takeCmpl port p = (s, none)))) ∧
      (∀ x, p.sec = some x →
        (s.answerKey (s.outSlot i) x = none → s.takeCmpl port p = (s.bump 0x4834, none)) ∧
        (∀ key, s.answerKey (s.outSlot i) x = some key →
          (s.keyArmed x = true → s.takeCmpl port p = (s, none)) ∧
          (s.keyArmed x = false → s.keyRetiring x = true → m = none → s.takeCmpl port p = (s.bump 0x4830, none)) ∧
          (s.keyArmed x = false → s.keyRetiring x = false ∨ m ≠ none →
            (x.dir = false → s.takeCmpl port p = (s, none)) ∧
            (x.dir = true → m = none → s.takeCmpl port p = (s.lateCmpl p, none)) ∧
            (∀ o req what, x.dir = true → m = some (o, req, what) →
              (p.gcm = p.tagUnder key → s.takeCmpl port p = taken req what) ∧
              (p.gcm ≠ p.tagUnder key → let u := (s.bump 0x4828).raise .sec 0 0
                s.takeCmpl port p = (if u.tagEvents then u.postMgr (keyRecord 0x00A1 x port) else u, none))))))) :=
  ⟨takeCmpl_discarded, fun hshape hlast => ⟨takeCmpl_clear hshape hlast, fun _ => takeCmpl_sealed hshape hlast⟩⟩

/-- A completion that matches no held slot gives the quota of a request that timed out back and is counted (R357, R363). -/
theorem lateCmpl_eq (s : State) (p : Packet) :
    let o := s.outSlot (p.tag % 16384)
    let u := if o.guard.isSome ∧ o.reuse = p.tag / 16384 then s.quotaBack p.srcEp else s
    s.lateCmpl p = (u.bump 0x30820).raise .txn 0 1 := by
  have hguard (a : Bool) (b c : Nat) : ((a && b == c) = true) = (a = true ∧ b = c) := by simp
  unfold State.lateCmpl
  dsimp only
  rw [ite_congr (hguard _ _ _) (fun _ => rfl) fun _ => rfl]

/-! ### Slots -/

/-- A slot freed begins again under its next reuse count; one in its guard keeps its count until the guard's end (R357). -/
theorem outSlot_ends (s : State) (n i : Nat) :
    let o := s.outSlot n
    (s.freeOutSlot n).outSlot n = { reuse := (o.reuse + 1) % 4 } ∧ (i ≠ n → (s.freeOutSlot n).outSlot i = s.outSlot i) ∧
    (s.freeOutSlot n).txn.outUsed = s.txn.outUsed - 1 ∧
    (s.guardOutSlot n).outSlot n = { reuse := o.reuse, guard := some (s.time + 2 * (s.actBits .txn 0 0x040 31 16 * 1000)) } ∧
    (i ≠ n → (s.guardOutSlot n).outSlot i = s.outSlot i) := by
  have hfree (j : Nat) : (s.freeOutSlot n).outSlot j = (s.setOut n { reuse := ((s.outSlot n).reuse + 1) % 4 }).outSlot j := rfl
  unfold State.guardOutSlot us
  simp only [hfree, setOut_outSlot]
  exact ⟨if_pos trivial, fun hi => if_neg hi, rfl, if_pos trivial, fun hi => if_neg hi⟩

/-! ### Requests without a completion -/

/-- OUTBOUND_TIMEOUT and E2E_RETRY have no effect on a slot that holds no request. -/
theorem outbound_free {s : State} {n : Fin 16384} (h : (s.outSlot n).req = none) :
    exec (.outboundTimeout n) s = .next s ∧ exec (.e2eRetry n) s = .next s := by
  have htime : exec (.outboundTimeout n) s = execOutboundTimeout n s := rfl
  have hretry : exec (.e2eRetry n) s = execE2eRetry n s := rfl
  unfold execOutboundTimeout at htime
  unfold execE2eRetry at hretry
  dsimp only at htime hretry
  rw [h] at htime hretry
  exact ⟨htime, hretry⟩

/-- OUTBOUND_TIMEOUT: a request without a completion completes TIMEOUT and its slot is guarded. -/
theorem outboundTimeout_held {s : State} {n : Fin 16384} {req : Packet} {what : Purpose} (h : (s.outSlot n).req = some (req, what)) :
    exec (.outboundTimeout n) s =
      .next ((s.elapseTo ((s.outSlot n).sentAt + s.actBits .txn 0 0x040 31 16 * 1000)).timedOut n req what) := by
  have htime : exec (.outboundTimeout n) s = execOutboundTimeout n s := rfl
  unfold execOutboundTimeout at htime
  dsimp only at htime
  rw [h] at htime
  exact htime

/-- E2E_RETRY: which requests are sent again, and how they end (R364). -/
theorem e2eRetry_held {s : State} {n : Fin 16384} {req : Packet} {what : Purpose} (h : (s.outSlot n).req = some (req, what)) :
    let o := s.outSlot n
    let u := s.elapseTo (o.sentAt + (o.resends + 1) * (s.actBits .txn 0 0x044 27 16 * 1000))
    let again := retriedType req = true ∧ ∃ q, o.port = some q ∧ s.portEth q = true
    (¬again → exec (.e2eRetry n) s = .next s) ∧
    (again → u.actBits .txn 0 0x044 31 28 ≤ o.resends → exec (.e2eRetry n) s = .next (u.timedOut n req what)) ∧
    (again → o.resends < u.actBits .txn 0 0x044 31 28 → u.mayRequest o.key false = false →
      exec (.e2eRetry n) s = .next (u.endRequest n req what stKeyRetired)) ∧
    (again → o.resends < u.actBits .txn 0 0x044 31 28 → u.mayRequest o.key false = true →
      exec (.e2eRetry n) s = .next (u.resend n o req what)) := by
  have hretry : exec (.e2eRetry n) s = execE2eRetry n s := rfl
  unfold execE2eRetry at hretry
  dsimp only at hretry
  rw [h] at hretry
  dsimp only at hretry
  have hguard : (!(retriedType req && ((s.outSlot n).port.map s.portEth).getD false)) = true ↔
      ¬(retriedType req = true ∧ ∃ q, (s.outSlot n).port = some q ∧ s.portEth q = true) := by
    cases (s.outSlot n).port <;> simp [imp_iff_not_or]
  refine ⟨fun hno => hretry.trans (if_pos (hguard.2 hno)), fun hagain hend => ?_, fun hagain hmore hkey => ?_,
    fun hagain hmore hkey => ?_⟩ <;>
    refine hretry.trans ((if_neg (fun hno => hguard.1 hno hagain)).trans ?_)
  · exact if_pos hend
  · exact (if_neg (Nat.not_le.2 hmore)).trans (if_pos (congrArg not hkey))
  · exact (if_neg (Nat.not_le.2 hmore)).trans (if_neg (fun hno => nomatch hno.symm.trans (congrArg not hkey)))

/-- A request sent again: the same slot and tag, RETRY = 1, one more resend counted. -/
theorem resend_eq {s u w : State} {n : Nat} {o : OutSlot} {req x : Packet} {what : Purpose} {q : Option Nat} {ok : Bool}
    (hseal : s.seal o.key false { req with qual := setBits req.qual 3 3 1 } = (u, x)) (hsend : u.send x o.ctx true = (w, q, ok)) :
    s.resend n o req what = (w.setOut n { o with req := some (x, what), port := q, resends := o.resends + 1 }).bump 0x3082C := by
  unfold State.resend
  rw [hseal]
  dsimp only
  rw [hsend]

/-- OUTBOUND_GUARD_END: a guarded slot is free under its next reuse count at the end of its guard (R357). -/
theorem outboundGuardEnd_acts (s : State) (n : Fin 16384) :
    ((s.outSlot n).guard = none → exec (.outboundGuardEnd n) s = .next s) ∧
    (∀ at_, (s.outSlot n).guard = some at_ → exec (.outboundGuardEnd n) s = .next ((s.elapseTo at_).freeOutSlot n)) := by
  have hexec : exec (.outboundGuardEnd n) s = execOutboundGuardEnd n s := rfl
  unfold execOutboundGuardEnd at hexec
  refine ⟨fun h => ?_, fun at_ h => ?_⟩ <;> rw [h] at hexec <;> exact hexec

/-- DONE_RECORD_EXPIRE: a done record ends at its time (R365). -/
theorem doneRecordExpire_acts (s : State) (src tag : Nat) :
    let r := s.txn.records.find? fun d => d.src == src && d.tag == tag
    (r = none → exec (.doneRecordExpire src tag) s = .next s) ∧
    (∀ d, r = some d → let u := s.elapseTo d.expires
      exec (.doneRecordExpire src tag) s = .next { u with txn := { u.txn with records := u.txn.records.erase d } }) := by
  have hexec : exec (.doneRecordExpire src tag) s = execDoneRecordExpire src tag s := rfl
  unfold execDoneRecordExpire at hexec
  refine ⟨fun h => ?_, fun d h => ?_⟩
  · rw [show (s.txn.records.find? fun d => d.src == src && d.tag == tag) = _ from h] at hexec
    exact hexec
  · rw [show (s.txn.records.find? fun d => d.src == src && d.tag == tag) = _ from h] at hexec
    exact hexec

/-- The events of a slot: the request it holds ends or is sent again, and its guard ends. -/
theorem outbound_events (s : State) (n : Fin 16384) :
    let o := s.outSlot n
    let resendAt := s.elapseTo (o.sentAt + (o.resends + 1) * (s.actBits .txn 0 0x044 27 16 * 1000))
    let ends (u : State) (req : Packet) (what : Purpose) (st : Nat) : State :=
      (u.guardOutSlot n).answered { out := n, req := req, what := what, status := st, data := [], poison := false }
    (o.req = none → exec (.outboundTimeout n) s = .next s ∧ exec (.e2eRetry n) s = .next s) ∧
    (∀ req what, o.req = some (req, what) →
      exec (.outboundTimeout n) s =
        .next (ends ((s.elapseTo (o.sentAt + s.actBits .txn 0 0x040 31 16 * 1000)).bump 0x30830) req what stTimeout) ∧
      let again := retriedType req = true ∧ ∃ q, o.port = some q ∧ s.portEth q = true
      (¬again → exec (.e2eRetry n) s = .next s) ∧
      (again → resendAt.actBits .txn 0 0x044 31 28 ≤ o.resends →
        exec (.e2eRetry n) s = .next (ends (resendAt.bump 0x30830) req what stTimeout)) ∧
      (again → o.resends < resendAt.actBits .txn 0 0x044 31 28 → resendAt.mayRequest o.key false = false →
        exec (.e2eRetry n) s = .next (ends resendAt req what stKeyRetired)) ∧
      (again → o.resends < resendAt.actBits .txn 0 0x044 31 28 → resendAt.mayRequest o.key false = true →
        ∀ u x w q ok, resendAt.seal o.key false { req with qual := setBits req.qual 3 3 1 } = (u, x) →
          u.send x o.ctx true = (w, q, ok) → exec (.e2eRetry n) s =
            .next ((w.setOut n { o with req := some (x, what), port := q, resends := o.resends + 1 }).bump 0x3082C))) ∧
    (o.guard = none → exec (.outboundGuardEnd n) s = .next s) ∧
    (∀ at_, o.guard = some at_ → exec (.outboundGuardEnd n) s = .next ((s.elapseTo at_).freeOutSlot n)) := by
  obtain ⟨hopen, hend⟩ := outboundGuardEnd_acts s n
  refine ⟨outbound_free, fun req what h => ⟨outboundTimeout_held h, ?_⟩, hopen, hend⟩
  obtain ⟨hno, hlast, hkey, hagain⟩ := e2eRetry_held h
  exact ⟨hno, hlast, hkey, fun ha hmore hmay u x w q ok hseal hsend =>
    (hagain ha hmore hmay).trans (congrArg _ (resend_eq hseal hsend))⟩

/-- Settles O56: one lemma for a completion's arrival, one for its checks in the order of Table 18.6, and one for each way a
request ends without one. -/
theorem outboundRequestsEnd : Obligations.OutboundRequestsEnd :=
  ⟨cmpl_acts, takeCmpl_checks, lateCmpl_eq, outSlot_ends, outbound_events, doneRecordExpire_acts⟩

end Sys2Proof.Machine
end

section
/-!
A port outside UP and INIT that holds a received packet (R309, R314): a DATA flit row delivers it even where the flit is not taken.
-/

namespace Sys2Proof.Machine

/-- A DISABLED port that holds a packet received whole, a TICK_SYNC of a kind that no rule names. -/
def holdingPort : State := { ports := [(0, { delivered := [(0, 0, byte tTickSync :: zeroBytes 15 ++ [3])] })] }

/-- The row takes no flit, but delivers what the port holds. -/
theorem holdingPort_handUp : exec (.dataFlitReceive 0 0 []) holdingPort = .next (holdingPort.setPort 0 {}) := by rfl

/-- Refutes O57: a DATA flit on a port that is neither UP nor in INIT delivers what the port had received before, where the statement
says that the row has no effect. -/
theorem not_flitsAreCarried : ¬ Obligations.FlitsAreCarried := by
  rintro ⟨-, hrows, -⟩
  have hclosed : ¬((holdingPort.port (0 : Fin 16)).eth = 0 ∧
      ((holdingPort.port (0 : Fin 16)).st = .up ∨ (holdingPort.port (0 : Fin 16)).st = .init)) := by decide
  obtain ⟨-, hnone⟩ := (hrows holdingPort 0 0 0 []).1 hclosed
  have hsame := (holdingPort_handUp.symm.trans (hnone (1, .dataFlitReceive 0 0 []) (List.mem_cons_self ..)) :)
  have hports : (holdingPort.setPort 0 {}).ports = holdingPort.ports := congrArg State.ports (Host.Outcome.next.inj hsame)
  exact absurd hports (by decide)

end Sys2Proof.Machine
end

section
/-!
A PFC frame that names no priority (R329) writes its port back: a table of ports whose keys do not rise changes by it.
-/

namespace Sys2Proof.Machine

/-- Port 0 UP in Ethernet personality, listed behind port 1. -/
def fallingPorts : State := { ports := [(1, {}), (0, { st := .up, eth := 1 })] }

/-- The port written back stands in front of port 1. -/
theorem fallingPorts_pfcFrame : exec (.pfcFrameReceive 0 []) fallingPorts =
    .next (fallingPorts.setPort 0 { st := .up, eth := 1 }) := by rfl

/-- Refutes O58: a PFC frame without quanta is to leave the state as it was, over every state; where the ports' keys do not rise, the
port written back is listed a second time. -/
theorem not_portsChangeState : ¬ Obligations.PortsChangeState := by
  rintro ⟨-, -, -, -, hpfc⟩
  obtain ⟨-, hnone, -⟩ := hpfc fallingPorts 0
  have hsame := fallingPorts_pfcFrame.symm.trans (hnone (by decide) (by decide))
  have hports : (fallingPorts.setPort 0 { st := .up, eth := 1 }).ports = fallingPorts.ports :=
    congrArg State.ports (Host.Outcome.next.inj hsame)
  exact absurd hports (by decide)

end Sys2Proof.Machine
end

section
/-!
The router, the shapers and the bandwidth window (R332, R334, R337, R338, R343, R347, R390, R397, R453).
-/

namespace Sys2Proof.Machine

/-! ### Transit -/

/-- TRANSIT_PACKET: an unnamed packet for this module, one that does not pass, one its policer discards, and one that goes on (R334,
R390). -/
theorem transitPacket_acts (s : State) (port : Fin 16) (p : Packet) :
    let passes := s.portUp port = true ∧ p.dst ≠ s.ep ∧ ¬(p.typ = tTickSync ∧ field p.body 0 1 = 0)
    let r := s.received port p none
    (p.dst = s.ep → p.unnamed = true → exec (.transitPacket port p) s = .next (s.arriveUnnamed port p)) ∧
    (p.dst ≠ s.ep ∨ p.unnamed = false →
      (¬passes → exec (.transitPacket port p) s = .next s) ∧
      (passes → r.police (some port.val) p = none →
        exec (.transitPacket port p) s = .next ((r.bump 0x90868).raise .qos 0 0)) ∧
      (∀ u, passes → r.police (some port.val) p = some u →
        exec (.transitPacket port p) s = .next ((u.learn port p).transit port p))) := by
  have hexec : exec (.transitPacket port p) s = execTransitPacket port p s := rfl
  unfold execTransitPacket at hexec
  have hguard : (s.portUp port && p.dst != s.ep && !(p.typ == tTickSync && field p.body 0 1 == 0)) = true ↔
      s.portUp port = true ∧ p.dst ≠ s.ep ∧ ¬(p.typ = tTickSync ∧ field p.body 0 1 = 0) := by
    simp [and_assoc, imp_iff_not_or]
  refine ⟨fun hd hu => hexec.trans (if_pos ⟨hd, hu⟩), fun hother => ?_⟩
  have hnot : ¬(p.dst = s.ep ∧ p.unnamed = true) := by
    rintro ⟨hd, hu⟩
    exact hother.elim (fun h => h hd) fun h => by simp [hu] at h
  rw [if_neg hnot] at hexec
  refine ⟨fun hno => hexec.trans (congrArg Host.Outcome.next (if_neg (mt hguard.1 hno))), fun hpass hpol => ?_, fun u hpass hpol => ?_⟩
  all_goals
    refine hexec.trans (congrArg Host.Outcome.next ((if_pos (hguard.2 hpass)).trans ?_))
    dsimp only
    unfold State.policed
    rw [hpol]

/-- What is counted of a transit packet: one of the other epoch, and one that boot routing carries. -/
def State.transitCounts (s : State) (p : Packet) : State :=
  let u := if p.epoch % 2 ≠ s.rtr.inject then s.tally .rtr 0 0x78 0 else s
  if p.epoch = 0 ∧ s.rtr.v0Loaded = false then u.tally .rtr 0 0x79 0 else u

theorem transitCounts_eq (s : State) (p : Packet) : ∃ x, s.transitCounts p = { s with tly := x } := by
  obtain ⟨x, hx⟩ : ∃ x, (if p.epoch % 2 ≠ s.rtr.inject then s.tally .rtr 0 0x78 0 else s) = { s with tly := x } := by
    split
    · exact s.tally_eq ..
    · exact ⟨s.tly, rfl⟩
  unfold State.transitCounts
  rw [hx]
  dsimp only
  split
  · exact State.tally_eq _ ..
  · exact ⟨x, rfl⟩

/-- A transit packet leaves on its route one hop up, or is dropped (R332, R334). -/
theorem transit_spec (s : State) (port q mac : Nat) (p : Packet) :
    let way := s.route p.dst p.src p.epoch
    let limit := s.actBits .rtr 0 0x040 15 8
    let out := { p with hops := p.hops + 1 }
    (way = none → s.transit port p = s.routeDrop p false (some port)) ∧
    (way = some (q, mac) →
      (s.notCarried q p = true → s.transit port p = s.routeDrop p false (some port)) ∧
      (s.notCarried q p = false → limit ≤ p.hops → s.transit port p = s.routeDrop p true (some port)) ∧
      (s.notCarried q p = false → p.hops < limit →
        let u := if p.epoch % 2 ≠ s.rtr.inject then s.tally .rtr 0 0x78 0 else s
        let w := if p.epoch = 0 ∧ s.rtr.v0Loaded = false then u.tally .rtr 0 0x79 0 else u
        s.transit port p = (w.toQueue q (queueOf out (s.actBits .qos 0 (0x060 + 4 * q) 1 0))
          { pkt := out, mac := mac, came := if p.typ = tTickSync then some s.tick.count else none }).emit
          (.packet (some q) out))) := by
  unfold State.transit
  dsimp only
  refine ⟨fun hway => by rw [hway], fun hway => ?_⟩
  rw [hway]
  dsimp only
  refine ⟨fun hno => if_pos hno, fun hok hfar => ?_, fun hok hnear => ?_⟩
  · rw [if_neg (by simp [hok]), if_pos hfar]
  · rw [if_neg (by simp [hok]), if_neg (Nat.not_le.2 hnear)]
    have hboot : (if p.epoch % 2 ≠ s.rtr.inject then s.tally .rtr 0 0x78 0 else s).bootRouted p.epoch =
        (p.epoch == 0 && !s.rtr.v0Loaded) := by
      split
      · obtain ⟨x, hx⟩ := s.tally_eq .rtr 0 0x78 0 1 none
        rw [hx]
        rfl
      · rfl
    have hcounts : (if (if p.epoch % 2 ≠ s.rtr.inject then s.tally .rtr 0 0x78 0 else s).bootRouted p.epoch = true then
        (if p.epoch % 2 ≠ s.rtr.inject then s.tally .rtr 0 0x78 0 else s).tally .rtr 0 0x79 0
        else if p.epoch % 2 ≠ s.rtr.inject then s.tally .rtr 0 0x78 0 else s) = s.transitCounts p := by
      rw [hboot]
      exact ite_congr (by simp) (fun _ => rfl) fun _ => rfl
    rw [hcounts]
    obtain ⟨x, hx⟩ := transitCounts_eq s p
    change _ = State.emit ((s.transitCounts p).toQueue ..) _
    rw [hx]
    rfl

/-! ### Egress queues -/

/-- A port and VC are full when 64 KiB would be passed, but an empty queue takes any packet (R343). -/
theorem egressFull_iff (s : State) (port : Nat) (x : Queued) : s.egressFull port x = true ↔
    port < 16 ∧ 0 < s.qdepth port x.pkt.channel ∧ 65536 < s.qdepth port x.pkt.channel + x.pkt.bytes := by
  simp only [State.egressFull, Bool.and_eq_true, decide_eq_true_eq, and_assoc]
  rfl

/-- A packet enqueued is the last of its queue. -/
theorem enqueueAt_queue (s : State) (port q : Nat) (x : Queued) : (s.enqueueAt port q x).queue port q = s.queue port q ++ [x] := by
  have hset (l : List Queued) (hl : l ≠ []) : (s.setQueue port q l).queue port q = l := by
    unfold State.setQueue State.queue
    dsimp only
    rw [if_neg (by simpa using hl), tblGet_put, if_pos rfl]
  exact hset _ (by simp)

/-- A packet enters its queue, or waits on the beam while there is no room or others of its VC wait there (R343). -/
theorem toQueue_spec (s : State) (port q : Nat) (x : Queued) :
    let vc := x.pkt.channel
    (s.egressFull port x = false → s.onBeam port vc = [] → s.toQueue port q x = s.enqueueAt port q x ∧
      (s.enqueueAt port q x).queue port q = s.queue port q ++ [x]) ∧
    (s.egressFull port x = true ∨ s.onBeam port vc ≠ [] → s.toQueue port q x = s.setBeam port vc (s.onBeam port vc ++ [(q, x)])) ∧
    (s.egressFull port x = true ↔ port < 16 ∧ 0 < s.qdepth port vc ∧ 65536 < s.qdepth port vc + x.pkt.bytes) := by
  have hguard : (s.egressFull port x || !(s.onBeam port x.pkt.channel).isEmpty) = true ↔
      s.egressFull port x = true ∨ s.onBeam port x.pkt.channel ≠ [] := by simp
  unfold State.toQueue
  refine ⟨fun hroom hbeam => ⟨if_neg (mt hguard.1 ?_), enqueueAt_queue ..⟩, fun hfull => if_pos (hguard.2 hfull), egressFull_iff ..⟩
  rintro (h | h)
  · simp [hroom] at h
  · exact h hbeam

/-! ### The flip and the switch -/

/-- OLD_WRITABLE_SET: after its guard time the other version is writable once unoccupied (R337). -/
theorem oldWritableSet_acts (s : State) :
    (s.rtr.oldWritable = true → exec .oldWritableSet s = .next s) ∧
    (s.rtr.oldWritable = false →
      let u := s.elapseTo (s.rtr.flipAt + s.actBits .rtr 0 0x040 31 16 * 1000)
      (u.occupancy (1 - u.rtr.inject) = 0 → exec .oldWritableSet s = .next { u with rtr := { u.rtr with oldWritable := true } }) ∧
      (u.occupancy (1 - u.rtr.inject) ≠ 0 → exec .oldWritableSet s = .next u)) := by
  have hexec : exec .oldWritableSet s = execOldWritableSet s := rfl
  unfold execOldWritableSet at hexec
  refine ⟨fun h => hexec.trans (if_pos h), fun h => ?_⟩
  rw [if_neg (by simp [h])] at hexec
  exact ⟨fun hfree => hexec.trans (congrArg Host.Outcome.next (if_pos (beq_iff_eq.2 hfree))),
    fun hheld => hexec.trans (congrArg Host.Outcome.next (if_neg (mt beq_iff_eq.1 hheld)))⟩

/-- EPOCH_FLIP: at its tick the other version is injected, its LOADED bit set and the old one not writable (R75, R338). -/
theorem epochFlip_acts (s : State) :
    (s.rtr.flipArmed = none → exec .epochFlip s = .next s) ∧
    (∀ tick, s.rtr.flipArmed = some tick → let u := s.elapseToTick tick
      (s.dueBefore tick 7 = true → exec .epochFlip s = .next s) ∧
      (s.dueBefore tick 7 = false → exec .epochFlip s = .next (State.raise { u with rtr := { u.rtr with
        inject := 1 - s.rtr.inject, v0Loaded := s.rtr.v0Loaded || decide (1 ≤ s.rtr.inject)
        v1Loaded := s.rtr.v1Loaded || s.rtr.inject == 0, oldWritable := false, flipAt := u.time, flipArmed := none } } .rtr 0 1))) := by
  have hexec : exec .epochFlip s = execEpochFlip s := rfl
  unfold execEpochFlip at hexec
  refine ⟨fun h => by rw [h] at hexec; exact hexec, fun tick h => ?_⟩
  rw [h] at hexec
  refine ⟨fun hdue => hexec.trans (congrArg Host.Outcome.next (if_neg (by simp [hdue]))), fun hdue => ?_⟩
  refine hexec.trans (congrArg Host.Outcome.next ((if_pos (by simp [hdue])).trans ?_))
  obtain ⟨t, k, hu⟩ := s.elapseToTick_eq tick
  have hzero : (1 - s.rtr.inject == 0) = decide (1 ≤ s.rtr.inject) := by
    rw [Bool.eq_iff_iff, beq_iff_eq, decide_eq_true_iff]
    omega
  have hone : (1 - s.rtr.inject == 1) = (s.rtr.inject == 0) := by
    rw [Bool.eq_iff_iff, beq_iff_eq, beq_iff_eq]
    omega
  dsimp only
  rw [hu]
  dsimp only
  rw [hzero, hone]

/-- BOARD_SWITCH: at its tick the other bank is active (R75, R347). -/
theorem boardSwitch_acts (s : State) :
    (s.rtr.boardArmed = none → exec .boardSwitch s = .next s) ∧
    (∀ tick, s.rtr.boardArmed = some tick → let u := s.elapseToTick tick
      (s.dueBefore tick 8 = true → exec .boardSwitch s = .next s) ∧
      (s.dueBefore tick 8 = false → exec .boardSwitch s = .next (State.raise { u with rtr := { u.rtr with
        boardActive := 1 - s.rtr.boardActive, boardArmed := none } } .rtr 0 2))) := by
  have hexec : exec .boardSwitch s = execBoardSwitch s := rfl
  unfold execBoardSwitch at hexec
  refine ⟨fun h => by rw [h] at hexec; exact hexec, fun tick h => ?_⟩
  rw [h] at hexec
  refine ⟨fun hdue => hexec.trans (congrArg Host.Outcome.next (if_neg (by simp [hdue]))), fun hdue => ?_⟩
  refine hexec.trans (congrArg Host.Outcome.next ((if_pos (by simp [hdue])).trans ?_))
  obtain ⟨t, k, hu⟩ := s.elapseToTick_eq tick
  dsimp only
  rw [hu]

/-! ### Throttling -/

/-- THROTTLE_RELEASE: at LO_KIB and below the held requests are looked at (R343). -/
theorem throttleRelease_acts (s : State) (port : Fin 16) (vc : Fin 6) :
    (s.throttleLo < s.qdepth port vc → exec (.throttleRelease port vc) s = .next s) ∧
    (s.qdepth port vc ≤ s.throttleLo →
      exec (.throttleRelease port vc) s = .next (s.unhold port vc (tblGet s.rtr.held (port.val * 8 + vc.val) []))) := by
  have hexec : exec (.throttleRelease port vc) s = execThrottleRelease port vc s := rfl
  unfold execThrottleRelease at hexec
  exact ⟨fun h => hexec.trans (congrArg Host.Outcome.next (if_neg (mt of_decide_eq_true (Nat.not_le.2 h)))),
    fun h => hexec.trans (congrArg Host.Outcome.next (if_pos (decide_eq_true h)))⟩

/-- Held requests enter their queue while it is below HI_KIB; the others go on waiting (R343). -/
theorem unhold_spec (s : State) (port vc : Nat) (x : Queued) (l : List Queued) :
    let wait := s.throttled port vc = true ∧ s.throttleHi ≤ s.qdepth port vc
    s.unhold port vc [] = { s with rtr := { s.rtr with held := tblDel s.rtr.held (port * 8 + vc) } } ∧
    (wait → s.unhold port vc (x :: l) = { s with rtr := { s.rtr with held := tblPut s.rtr.held (port * 8 + vc) (x :: l) } }) ∧
    (¬wait → s.unhold port vc (x :: l) =
      (s.toQueue port (queueOf x.pkt ((x.ctx.map s.classOf).getD 0)) x).unhold port vc l) := by
  have hguard : (s.throttled port vc && decide (s.throttleHi ≤ s.qdepth port vc)) = true ↔
      s.throttled port vc = true ∧ s.throttleHi ≤ s.qdepth port vc := by simp
  refine ⟨rfl, fun hwait => if_pos (hguard.2 hwait), fun hgo => (if_neg (mt hguard.1 hgo)).trans ?_⟩
  cases x.ctx <;> rfl

/-! ### Host shapers (R397) -/

/-- HOST_SHAPER_RELEASE: the oldest completion leaves a host, of a valid record once its bucket is positive. -/
theorem hostShaperRelease_acts (s : State) (n : Fin 512) : let h := s.host n
    (h.waiting = [] → exec (.hostShaperRelease n) s = .next s) ∧
    (h.waiting ≠ [] →
      (wbit h.key 31 = true → exec (.hostShaperRelease n) s =
        .next ((s.elapse ((h.bucket.fill h.rate h.burst s.time).wait h.rate)).leaveHost n)) ∧
      (wbit h.key 31 = false → exec (.hostShaperRelease n) s = .next (s.leaveHost n))) := by
  have hexec : exec (.hostShaperRelease n) s = execHostShaperRelease n s := rfl
  unfold execHostShaperRelease at hexec
  refine ⟨fun h => hexec.trans (congrArg Host.Outcome.next (if_neg (by simp [h]))), fun h => ?_⟩
  replace hexec := hexec.trans (congrArg Host.Outcome.next (if_pos (by simpa using h)))
  exact ⟨fun hk => hexec.trans (congrArg Host.Outcome.next (if_pos hk)),
    fun hk => hexec.trans (congrArg Host.Outcome.next (if_neg (by simp [hk])))⟩

/-- The oldest completion that waits at a host leaves; with its request's last packet the request's slot is freed. -/
theorem leaveHost_spec {s : State} {n : Nat} {p : Packet} {key : Nat} {l : List (Packet × Nat)} (h : (s.host n).waiting = (p, key) :: l) :
    let rest := if p.dataOff = 0 then l.map fun x => if x.2 = key then (withLoad x.1 (s.loadFor p.dst), x.2) else x else l
    let u := { s with qos := { s.qos with hosts := tblPut s.qos.hosts n { s.host n with waiting := rest } } }
    (u.slot? key = none → s.leaveHost n = u) ∧
    (∀ v, u.slot? key = some v →
      let beads := (p.body.length + 63) / 64
      let w := u.setSlot key { v with dbuf := v.dbuf - beads }
      let y := State.sendCompletion { w with txn := { w.txn with dbufUsed := w.txn.dbufUsed - beads } } p v.key (some v.ctx)
      (p.last = false → s.leaveHost n = y) ∧
      (p.last = true → s.leaveHost n = (y.keepRecord v p.status p.body).freeSlot key)) := by
  intro rest u
  have hleave : s.leaveHost n = match u.slot? key with
      | none => u
      | some v =>
        let b := (p.body.length + 63) / 64
        let w := u.setSlot key { v with dbuf := v.dbuf - b }
        let y := State.sendCompletion { w with txn := { w.txn with dbufUsed := w.txn.dbufUsed - b } } p v.key (some v.ctx)
        if p.last then (y.keepRecord v p.status p.body).freeSlot key else y := by
    unfold State.leaveHost
    dsimp only
    rw [h] <;> rfl
  refine ⟨fun hs => by rw [hleave, hs], fun v hs => ?_⟩
  rw [hs] at hleave
  exact ⟨fun hl => hleave.trans (if_neg (by simp [hl])), fun hl => hleave.trans (if_pos hl)⟩

/-! ### The bandwidth window (R453) -/

/-- A bandwidth window from tick `from_` to tick `e` ends, in the state that has reached `e`. -/
def State.windowEnds (s : State) (from_ e : Nat) : Outcome :=
  let t := { s.tly with now := [], disturbed := false, discard := false, endTick := s.tick.count }
  if s.tly.discard then .next { s with tly := t }
  else
    let irreg := s.tly.disturbed || e - from_ != s.bwWindow
    let s : State := { s with tly := { t with last := s.tly.now, seq := (s.tly.seq + 1) % 65536, irreg := irreg } }
    .next (if irreg then s.raise .tly 0 0 else s)

theorem execBwWindowEnd_eq (s : State) : execBwWindowEnd s = if !s.boot.started then .next s else
    (s.elapseToTick (s.bwEnd s.tly.endTick)).windowEnds s.tly.endTick (s.bwEnd s.tly.endTick) := rfl

/-- What was counted becomes the last window's, or after a swap is dropped. -/
theorem windowEnds_spec (u : State) (from_ e window : Nat) (y : Tly) (hy : u.tly = y) (hw : u.bwWindow = window) :
    let next := { y with now := [], disturbed := false, discard := false, endTick := u.tick.count }
    let odd := y.disturbed || e - from_ != window
    let w := { u with tly := { next with last := y.now, seq := (y.seq + 1) % 65536, irreg := odd } }
    (y.discard = true → u.windowEnds from_ e = .next { u with tly := next }) ∧
    (y.discard = false → u.windowEnds from_ e = .next (if odd then w.raise .tly 0 0 else w)) := by
  subst hy hw
  unfold State.windowEnds
  exact ⟨fun hd => if_pos hd, fun hd => if_neg (by simp [hd])⟩

/-- BW_WINDOW_END: what was counted becomes the last window's, or after a swap is dropped. -/
theorem bwWindowEnd_acts (s : State) :
    (s.boot.started = false → exec .bwWindowEnd s = .next s) ∧
    (s.boot.started = true → let at_ := s.bwEnd s.tly.endTick
      let u := s.elapseToTick at_
      let next := { s.tly with now := [], disturbed := false, discard := false, endTick := u.tick.count }
      let odd := s.tly.disturbed || at_ - s.tly.endTick != s.bwWindow
      let w := { u with tly := { next with last := s.tly.now, seq := (s.tly.seq + 1) % 65536, irreg := odd } }
      (s.tly.discard = true → exec .bwWindowEnd s = .next { u with tly := next }) ∧
      (s.tly.discard = false → exec .bwWindowEnd s = .next (if odd then w.raise .tly 0 0 else w))) := by
  have hexec : exec .bwWindowEnd s = execBwWindowEnd s := rfl
  rw [execBwWindowEnd_eq] at hexec
  refine ⟨fun h => hexec.trans (if_pos (by simp [h])), fun h => ?_⟩
  rw [if_neg (by simp [h])] at hexec
  obtain ⟨t, k, hu⟩ := s.elapseToTick_eq (s.bwEnd s.tly.endTick)
  have htly : (s.elapseToTick (s.bwEnd s.tly.endTick)).tly = s.tly := by rw [hu]
  have hwindow : (s.elapseToTick (s.bwEnd s.tly.endTick)).bwWindow = s.bwWindow := by
    unfold State.bwWindow State.act
    rw [hu]
  rw [hexec]
  exact windowEnds_spec _ _ _ _ _ htly hwindow

/-! ### Token buckets (R385, R386) -/

/-- A bucket brought up to date holds no more than its burst and has lost nothing. -/
theorem bucket_fill (b : Bucket) (rate burst now : Nat) :
    (b.fill rate burst now).tokens ≤ burstOf burst ∧ (b.fill rate burst now).at_ = now ∧
    (b.at_ ≤ now → b.tokens ≤ burstOf burst → b.tokens ≤ (b.fill rate burst now).tokens) :=
  ⟨min_le_left _ _, rfl, fun _ hb => le_min hb (Int.le_add_of_nonneg_right (Int.natCast_nonneg _))⟩

/-- A bucket is positive with one token, which is 125 of the model's units. -/
theorem bucket_positive_iff (b : Bucket) : b.positive = true ↔ 125 ≤ b.tokens := by
  unfold Bucket.positive
  rw [decide_eq_true_iff]
  omega

/-- What a rate adds in the time that its units take, rounded up, is as much as was asked for. -/
theorem le_mul_ceilDiv (n : Nat) {r : Nat} (hr : 0 < r) : n ≤ r * ((n + r - 1) / r) := by
  have h := Nat.div_add_mod (n + r - 1) r
  have hlt := Nat.mod_lt (n + r - 1) hr
  omega

/-- A bucket that has waited is positive. -/
theorem bucket_waited {b : Bucket} {rate burst now : Nat} (h : b.at_ + b.wait rate = now) : (b.fill rate burst now).positive = true := by
  have hburst : 125 ≤ burstOf burst := by
    unfold burstOf tokensOf
    split <;> omega
  have hrate : 0 < rateOf rate * 1024 := by
    unfold rateOf
    split <;> omega
  rw [bucket_positive_iff]
  refine le_min (by exact_mod_cast hburst) ?_
  have hpassed : now - b.at_ = b.wait rate := by omega
  rw [hpassed]
  unfold Bucket.wait
  by_cases hp : b.positive = true
  · rw [if_pos hp]
    exact (Int.le_add_of_nonneg_right (Int.natCast_nonneg _)).trans' ((bucket_positive_iff b).1 hp)
  · rw [if_neg hp]
    have hadd := le_mul_ceilDiv (125 - b.tokens).toNat hrate
    omega

/-- Settles O59: one lemma for each way a packet goes and for each event of the router, the host shapers and the bandwidth window. -/
theorem routerAndShapersMove : Obligations.RouterAndShapersMove := by
  refine ⟨transitPacket_acts, transit_spec, toQueue_spec, fun s => ?_, fun b rate burst now _ =>
    ⟨bucket_fill b rate burst now, fun h _ => bucket_waited h⟩⟩
  obtain ⟨hwritable, hguard⟩ := oldWritableSet_acts s
  obtain ⟨hunflipped, hflip⟩ := epochFlip_acts s
  obtain ⟨hunarmed, hswitch⟩ := boardSwitch_acts s
  obtain ⟨hbefore, hwindow⟩ := bwWindowEnd_acts s
  exact ⟨hwritable, hguard, hunflipped, hflip, hunarmed, hswitch, throttleRelease_acts s, unhold_spec s, hostShaperRelease_acts s,
    fun _ _ _ _ h => leaveHost_spec h, hbefore, hwindow⟩

end Sys2Proof.Machine
end
